-- ==== Sys2Proof/Word.lean ====
section
/-! DEFINITION. The widths the manual counts in: bytes, and the 16-, 32- and 64-bit words of registers and fields. -/

namespace Sys2Proof

/-- One octet of a payload, a register, a record or a stored image (R11). -/
abbrev Byte := BitVec 8

/-- A 16-bit little-endian field. -/
abbrev Half := BitVec 16

/-- One SPI register word (R87). -/
abbrev Word := BitVec 32

/-- A 64-bit header or time-base word. -/
abbrev Long := BitVec 64

end Sys2Proof
end

