-- ==== Sys2Proof/Syntax.lean ====
section
/-! DEFINITION. The commands the block takes: one constructor per row of spec/opcode_table.json, with the operands
the row's rule gives it. Measurements (temperatures, eye sizes, sense samples, readback values) are operands: they
come from outside the block. -/

namespace Sys2Proof

/-- A side of the light field; instance 0 is L and instance 1 is R (Table 0-6). -/
inductive Side where
  | L
  | R
deriving DecidableEq, Repr

/-- A Millrace link. -/
inductive LinkId where
  | lnk0
  | lnk1
deriving DecidableEq, Repr

/-- A mailbox port in the order of its port code (Table 4-1). -/
inductive Port where
  | lnk0
  | lnk1
  | can
  | spi
  | jtag
deriving DecidableEq, Repr

/-- The two ports that own a copy of the register map of Table 4-3 (R90). -/
inductive RegPort where
  | spi
  | jtag
deriving DecidableEq, Repr

/-- A PLL in the order of Table 17-1. -/
inductive Pll where
  | S
  | M
  | Q
deriving DecidableEq, Repr

/-- Who uses a NOR erase ticket (R377, R155, R417, R429, R433). -/
inductive EraseUser where
  | journal
  | pattern
  | calSets
  | directory
  | image
deriving DecidableEq, Repr

/-- Who holds or asks for a power ticket (Table 19-7). -/
inductive Holder where
  | globalReset
  | ignition
  | boost (s : Side)
  | dram
  | link (l : LinkId)
  | erase (u : EraseUser)
  | cal
  | catchup (s : Side)
deriving DecidableEq, Repr

/-- The measured eye of one physical lane: width in 1/64 UI, height in mV (R51). -/
structure Eye where
  width : Nat
  height : Nat
deriving DecidableEq, Repr

/-- The three PAM4 eyes of one physical lane (R41). -/
structure PamEyes where
  upper : Eye
  middle : Eye
  lower : Eye
deriving DecidableEq, Repr

/-- What a training set reflects of a lane (Table 2-4). -/
structure TrainingSet where
  lane : Nat
  /-- the lane arrives with reversed polarity (R31) -/
  inverted : Bool
  rates : Nat
  agreed : Nat
  pre : Nat
  post : Nat
  ackSeq : Nat
  limit : Bool
  presetUsed : Nat
deriving DecidableEq, Repr

/-- A forward Husk as received: the bytes between SOH and EOH, and whether a code error or an EDB ending fell inside it
(R39). Damage before the end of the header is told apart from damage after it (R64). -/
structure RxHusk where
  bytes : List Byte
  headerDamaged : Bool
  bodyDamaged : Bool
  /-- the time base at the SOH column (R77) -/
  sohTime : Nat
deriving DecidableEq, Repr

/-- What one Governor tick's conversions deliver (Table 13-4, R284, R317). -/
structure Samples where
  /-- voltage across each channel's shunt, µV; none: not delivered by the deadline -/
  shunt : List (Option Nat)
  /-- voltage at each channel's drain input, µV, in the tick of a drain conversion -/
  drain : List (Option Nat)
  /-- voltages at the boost's output, input and current sense inputs of side L then R, µV; none: not delivered -/
  fb : List (Option Nat)
  vin : List (Option Nat)
  cs : List (Option Nat)
  /-- AUX_AIN0 to AUX_AIN3, mV; none: not delivered by the deadline -/
  aux : List (Option Nat)
  /-- AIN_DIM, mV -/
  ainDim : Option Nat
  /-- a slot whose Governor memory word is uncorrectable this tick, and one whose word was corrected (R329) -/
  eccSlot : Option Nat
  eccCorrected : Option Nat
deriving DecidableEq, Repr

/-- A lamp-board temperature reading (R289, R290). -/
inductive BoardReading where
  /-- 12-bit NTC code -/
  | ntc (code : Nat)
  /-- two I²C bytes as a signed number of 1/256 °C -/
  | i2c (value : Int)
  /-- the I²C transfer was not acknowledged or did not end within 2 ms -/
  | i2cFailed
deriving DecidableEq, Repr

/-- One calibration measurement: a tap, a trim, or an offset and a gain; or a measurement that is not valid
(R409 to R411). -/
inductive CalValue where
  | tap (v : Int)
  | sense (offset gain : Int)
  | invalid
deriving DecidableEq, Repr

/-- One run of the scrubber over the sequence store: corrected words and uncorrectable store indices (R218). -/
structure ScrubResult where
  corrected : Nat
  uncorrectable : List Nat
deriving DecidableEq, Repr

/-- What frames a response of the array carries around its payload (R242): RSEQ, CHK, and whether a code error fell inside it. -/
structure RbFrame where
  rseq : Byte
  chk : Byte
  codeError : Bool
deriving DecidableEq, Repr

/-- The frame of a response that says nothing of its frame: it did not come whole. -/
def RbFrame.unread : RbFrame := ⟨0, 0, true⟩

/-- THE COMMANDS: one constructor per row of spec/opcode_table.json, in the table's order. -/
inductive Instr where
  -- reset, boot and power
  | resetNAsserted
  | resetRelease
  /-- which supplies of Table 19-1 read in range -/
  | supplyOutOfRange (inRange : List Bool)
  /-- the image read, the first failing check of R428 (0: it verifies), and its SVN and FW_VERSION -/
  | imageVerifyDone (imageB : Bool) (failedCheck : Nat) (svn : Nat) (fwVersion : Nat)
  /-- whether every self-test passed -/
  | bootComplete (selfTestsPass : Bool)
  | linkEnable (l : LinkId)
  /-- PFW_N has been low for 20 ticks; the last three conversions of VBAT_SENSE, µV -/
  | powerFailWarning (pfwLow : Bool := true) (sense : List Nat := [])
  /-- µs from the warning to the last page -/
  | holdupJournalDone (micros : Nat)
  | holdupExit
  /-- one conversion, 0.1 °C; the RC trim found, 0.01 % -/
  | dieTempConversion (t : Int) (rcTrim : Int)
  | thermalShutdown (t : Int)
  | thermalOffExit
  | refclkLoss (count : Nat)
  | refclkRestored (count : Nat)
  | pllLossOfLock (p : Pll) (clamp : Bool)
  | pllLockDeclared (p : Pll)
  | relockTimeout (p : Pll)
  | millerWatchdog
  | fwRestartReset
  -- the Sluice
  | ticketRequest (h : Holder)
  | ticketRelease (h : Holder)
  | ticketQueueTimeout (h : Holder)
  | ticketOverrun (h : Holder)
  -- register map
  /-- one whole SPI or JTAG write: the bytes shifted in between the edges of HSPI_CS_N (Table 4-2) -/
  | registerWrite (p : RegPort) (bytes : List Byte)
  | mbxDoorbell (p : RegPort) (ring : Word)
  | mbxDoneRelease (p : RegPort) (done : Word)
  | timeLoRead (p : RegPort)
  /-- whether the last bit of word 0x090C was shifted out (R103) -/
  | evtFifoPop (p : RegPort) (complete : Bool)
  | snapTrig (p : RegPort)
  /-- the 50-bit data register at Update-DR (R90) -/
  | dbgMbxUpdate (dr : BitVec 50)
  -- mailbox commands, served from a port's queue
  | getInfo (p : Port)
  | getParam (p : Port)
  | setParam (p : Port)
  | abort (p : Port)
  | setCompatLevel (p : Port)
  | beamEnable (p : Port)
  | selectMode (p : Port)
  | setSlotMask (p : Port)
  | snapshot (p : Port)
  | snapshotRead (p : Port)
  | layerDeclare (p : Port)
  | layerDestroy (p : Port)
  | commitGroup (p : Port)
  | fenceSignal (p : Port)
  | objectList (p : Port)
  | shutterGeometry (p : Port)
  | lampEnable (p : Port)
  | dimSet (p : Port)
  | rampCurve (p : Port)
  | signatureExpect (p : Port)
  | journalRead (p : Port)
  | journalSeal (p : Port)
  | calRun (p : Port)
  | fwUpdateBegin (p : Port)
  /-- whether the range reads back as programmed -/
  | fwUpdateData (p : Port) (readsBack : Bool)
  | fwUpdateCommit (p : Port)
  | patErase (p : Port)
  | patProgram (p : Port)
  | patVerify (p : Port)
  | patInvalidate (p : Port)
  | tableCommit (p : Port)
  | faultClear (p : Port)
  | reactionSet (p : Port)
  | snapRelease (p : Port)
  | segCommit (p : Port)
  | retrainRecovery (p : Port)
  | retrainDetect (p : Port)
  -- CAN FD
  /-- the data bytes of one command frame -/
  | canMailboxFrame (data : List Byte)
  | canMessageTimeout
  | vehBeamFrame (data : List Byte)
  | vehMotionFrame (data : List Byte)
  /-- the data bytes and the time base at the start-of-frame bit -/
  | vehTimeFrame (data : List Byte) (sofTime : Nat)
  /-- which of the two frames is lost -/
  | vehTimeout (beam motion : Bool)
  | canBusOff
  -- Millrace link, physical layer
  | detectLosQualified (l : LinkId)
  | lockAchieved (l : LinkId)
  | lockTimeout (l : LinkId)
  | eyeTestComplete (l : LinkId) (eyes : List PamEyes)
  | ts1Received (l : LinkId) (phys : Nat) (ts : TrainingSet)
  | tapreqAckTimeout (l : LinkId) (phys : Nat)
  /-- the eyes found by TRAIN, in physical lane order, and the TS2 on each active lane -/
  | ts2Agreed (l : LinkId) (eyes : List Eye) (ts2 : List TrainingSet)
  | trainTimeout (l : LinkId)
  | stepTimeout (l : LinkId)
  | downTimeout (l : LinkId)
  | linkTicketGranted (l : LinkId)
  | linkTicketRetry (l : LinkId)
  | clockLaneLoss (l : LinkId)
  | deskewLoss (l : LinkId)
  /-- the physical lane, and which detectors assert now; neither: both have cleared (R52) -/
  | hardLaneFault (l : LinkId) (phys : Nat) (los lol : Bool)
  /-- the physical lane and the rise of CODE_ERR within 1 s -/
  | softLaneFault (l : LinkId) (phys : Nat) (rise : Nat)
  /-- SHADOW_ACK and its valid bit, and MAPSEQ_ACK (Table 2-4) -/
  | dskReceived (l : LinkId) (shadowAck : Nat) (shadowAckValid : Bool) (mapseqAck : Nat) (copyAgrees : Bool)
  | btsSend (l : LinkId)
  | eiosL1 (l : LinkId)
  | eiosL2 (l : LinkId)
  | l1Exit (l : LinkId)
  | l2Exit (l : LinkId)
  | recoveryRelock (l : LinkId)
  | recoveryEyeDone (l : LinkId) (eyes : List PamEyes)
  | recoveryRetrainDone (l : LinkId) (ok : Bool)
  | recoveryTimeout (l : LinkId)
  -- Husks
  | lineHusk (l : LinkId) (h : RxHusk)
  | objHusk (l : LinkId) (h : RxHusk)
  | mbxHusk (l : LinkId) (h : RxHusk)
  | fenceHusk (l : LinkId) (h : RxHusk)
  | syncHusk (l : LinkId) (h : RxHusk)
  | ackHusk (l : LinkId) (h : RxHusk)
  | nakHusk (l : LinkId) (h : RxHusk)
  | vc1ReplayTimeout (l : LinkId)
  -- the sequencer's timeline
  | refreshBoundary
  /-- the composed-frame words of 64 pixels that read as uncorrectable on each side, the mask words that do (R234), and whether the
  sequencer met an uncorrectable store word (R218) -/
  | slotBoundary (badL badR : List Nat) (badMask : List (Side × Nat)) (seqEcc : Bool)
  | lookaheadHandoff
  | resetInstant
  /-- per channel: whether the pulse fails as open, and as short -/
  | diagPulse (opens shorts : List Bool)
  | governorTick (x : Samples)
  | safeStateComplete
  | govDeadline (slot : Nat)
  | feedbackLost (slot : Nat) (outOfRange : Bool)
  -- composition
  | composeFrameStart
  /-- the row that starts, and the layers that have run dry on it, with the pixels of the row that did arrive; `second` says the
  same of the second strip of a strip-split layer (R169) -/
  | composeRowStart (s : Side) (row : Nat) (dry second : List (Nat × Nat))
  | composePassComplete (s : Side)
  | dramStall
  | dramTrafficResume
  | intakeCopyDone (layer : Nat)
  | patternLoadDone (s : Side) (crcGood : Bool)
  -- camera
  /-- the tick of the edge on CAM_SYNC0 or CAM_SYNC1, its polarity, and the time of the nearest group-index-0 boundary -/
  | cameraEdge (input : Nat) (falling : Bool) (time : Nat) (boundary : Nat)
  | camTimeout
  -- mirror ports
  | busCrcResponse (s : Side) (entry : Nat) (crc : Word) (f : RbFrame := RbFrame.unread)
  | cellCrcResponse (s : Side) (entry : Nat) (crc : Word) (f : RbFrame := RbFrame.unread)
  | busCrcTimeout (s : Side)
  | cellCrcTimeout (s : Side)
  | lanesResponse (s : Side) (crcs : List Byte) (f : RbFrame := RbFrame.unread)
  | statusResponse (s : Side) (status : Word) (f : RbFrame := RbFrame.unread)
  | ackResponse (s : Side) (cseq cmd : Nat) (f : RbFrame := RbFrame.unread)
  | errorResponse (s : Side) (cseq reason : Nat) (f : RbFrame := RbFrame.unread)
  | unparkSettled (s : Side)
  | identResponse (s : Side) (payload : List Byte) (f : RbFrame := RbFrame.unread)
  | identNoResponse (s : Side)
  /-- one training burst: the tap under test and the bit errors of lanes 0 to 32 -/
  | trainResultResponse (s : Side) (tap : Nat) (errors : List Nat) (f : RbFrame := RbFrame.unread)
  | arrayFlt (s : Side)
  /-- for each of the 256 receive taps of RB0 and of RB1 whether STATUS frames arrive without code error (R248) -/
  | arraySupplyGood (s : Side) (rb0 rb1 : List Bool)
  | portPowerTimeout (s : Side)
  | portAbsent (s : Side)
  | portTrainTimeout (s : Side)
  | parkTimeout (s : Side)
  | releaseFromPark
  | powerDownStep (s : Side)
  -- Shutter
  | rasterEnd (durationTicks : Nat)
  | rasterTimeout
  | listStale
  | staleHoldExpiry
  -- lamps
  | chOvercurrent (ch : Nat)
  | chOpen (ch : Nat)
  | chShort (ch : Nat)
  | fetShort (ch : Nat)
  | boostOvTrip (s : Side)
  | boostOvResume (s : Side)
  | boostUv (s : Side)
  | boostUvRecovery (s : Side)
  | boostRun (s : Side)
  | boostFail (s : Side)
  | boardTempRead (s : Side) (r : BoardReading)
  | sensorSubstitute (s : Side)
  /-- the period and high time of the completed DIM_PWM period, ticks -/
  | dimPwmEdge (period high : Nat)
  | dimInputLoss (source : Nat)
  -- auxiliary outputs
  | segFrameStart (s : Side)
  | mxWriteDone
  | mxTeEdge (target : Nat)
  | mxTeTimeout (target : Nat)
  | scanLine
  -- integrity, journal, calibration
  | snapNFall
  | faultAutoClear (code inst : Nat)
  /-- whether the page reads back as programmed -/
  | norPageDone (good : Bool)
  | norSectorEraseDone
  | norBusyTimeout
  | calTriggerCheck (calRef : Nat)
  | calMeasurementDone (ch : Nat) (v : CalValue)
  -- later rows
  | powerFailWarningCleared
  | bootPllLockTimeout (p : Pll)
  | beamEnableTimeout (p : Port) (tag : Nat)
  | journalSealTimeout
  | seqStoreScrub (r : ScrubResult)
  | seqReloaded (mode : Nat)
  | pllQPhaseStep
  | imageRegionEraseDone
  | pwrEnLowDwellExpiry (s : Side)
  | jtagUpdateIr (ir : Byte)
  | extestUpdateDr (cells : BitVec 159)
  | resetNDeasserted
deriving DecidableEq, Repr

end Sys2Proof
end

