-- ==== Sys2Proof/Decode.lean ====
section
/-! DEFINITION. The command that a word spells by the opcode table's bits. -/

namespace Sys2Proof

/-- spec/opcode_table.json gives no bits for any row, so no word spells a command (log entry 21). -/
def decodeTableWord (nbits w : Nat) : Option Instr :=
  match nbits, w with
  | _, _ => none

end Sys2Proof
end

