-- ==== Sys2Proof/Config.lean ====
section
/-! DEFINITION. What an implementation fixes, and the free values: opaque constants with no body, so that nothing can
be proved of the value itself. -/

namespace Sys2Proof

/-- A fresh value the manual does not give, drawn by the counter Dev.freeCount (log entry 5). -/
opaque Config.freeValue : Nat → BitVec 64

/-- The rounding of an edge held to 1/16 pixel in binary32 (R268 allows either neighbour of the exact value): side code,
axis, exact value in 2^-24 pixel (log entry 6). -/
opaque Config.edgeRoundsUp : Nat → Int → Bool

/-- The rounding of the mix of two base-layer images, whose exact value is a fraction (R153 gives no rounding): the
numerator in 1/65,535 (log entry 23). -/
opaque Config.fadeRoundsUp : Nat → Bool

/-- The rounding of PLL-Q's fraction F, whose exact value R395 gives as a ratio (log entry 25): the numerator of the
remainder. -/
opaque Config.fractionRoundsUp : Int → Bool

/-- The rounding of a result that the manual gives as an exact fraction without saying how it is rounded: which result, and
numerator and denominator (log entry 29). -/
opaque Config.roundsUp : Nat → Int → Nat → Bool

/-- The error of the curve function f of R300 in units of 1/65,535, by curve, gamma and u in 1/2^32; the model holds it
to the bound of one unit that R300 states (log entry 7). -/
opaque Config.curveError : Nat → Nat → Nat → Int

/-- Whether mailbox service goes on after MILLER_WATCHDOG (R362: it may be absent) (log entry 8). -/
opaque Config.serviceAfterWatchdog : Bool

/-- Bits of a stored integer that R429's record and R427's header call reserved are written 0; NOR bytes that nothing
has programmed read 0xFF (log entry 9). -/
def Config.erasedByte : Byte := 0xFF

/-- The vehicle battery in mV at a tick, as VBAT_SENSE reads it; no command of the table delivers the reading (log entry 34). -/
opaque Config.vbat : Nat → Nat

/-- Which end of a PRBS7 generator's state leaves first: bit 6, or bit 0 (R248 gives the polynomial and the first state) (log
entry 127). -/
opaque Config.prbsHighFirst : Bool

/-- What DIRECTORY reads when no directory record exists (log entry 38). -/
opaque Config.noDirectory : List Byte

/-- What NOR_OLDEST reads when NOR holds no entry (log entry 38). -/
opaque Config.noEntry : BitVec 32

/-- The fixed receive latency of a link in ticks, which R77 names and gives no value (log entry 39). -/
opaque Config.linkLatency : Nat

/-- The SHA-256 of the public key that the system maker registered in OTP; another value on an unprogrammed part (log entry
10). -/
opaque Config.otpKeyHash : List Byte

/-- The comparator trims of a part, in OTP (log entry 10). -/
opaque Config.otpComparatorTrim : Nat → Int

end Sys2Proof
end

