-- ==== Sys2Proof/Machine/Bits.lean ====
section
/-! DEFINITION. Byte order, field extraction, check values, roundings and sorted key-value lists: the arithmetic that
every unit shares. -/

namespace Sys2Proof.Machine

open Sys2Proof

/-! ### Bytes and fields (R10, R11) -/

/-- The n low bytes of v, little-endian (R11). -/
def leBytes : Nat → Nat → List Byte
  | 0, _ => []
  | n + 1, v => BitVec.ofNat 8 v :: leBytes n (v / 256)

/-- A little-endian integer (R11). -/
def leNat : List Byte → Nat
  | [] => 0
  | b :: bs => b.toNat + 256 * leNat bs

/-- The n bytes from off on, as a little-endian integer; bytes past the end read 0. -/
def leField (bs : List Byte) (off n : Nat) : Nat := leNat ((bs.drop off).take n)

/-- The byte at off, 0 past the end. -/
def byteAt (bs : List Byte) (off : Nat) : Nat := (bs.getD off 0).toNat

/-- Bits [lo + n − 1 : lo] of v. -/
def bitsOf (v lo n : Nat) : Nat := v / 2 ^ lo % 2 ^ n

/-- v as a two's complement number of w bits. -/
def signed (w v : Nat) : Int := if v % 2 ^ w < 2 ^ (w - 1) then (v % 2 ^ w : Nat) else (v % 2 ^ w : Nat) - (2 ^ w : Nat)

/-- The w-bit two's complement code of i. -/
def code (w : Nat) (i : Int) : Nat := (i % (2 ^ w : Nat)).toNat

/-- A signed little-endian field of n bytes. -/
def leInt (bs : List Byte) (off n : Nat) : Int := signed (8 * n) (leField bs off n)

def b2n (b : Bool) : Nat := if b then 1 else 0

/-- bs with the bytes from off on replaced by ws. -/
def putBytes (bs : List Byte) (off : Nat) (ws : List Byte) : List Byte :=
  bs.take off ++ ws ++ bs.drop (off + ws.length)

/-- bs made exactly n bytes long with trailing zeros. -/
def padTo (n : Nat) (bs : List Byte) : List Byte := (bs ++ List.replicate (n - bs.length) 0).take n

/-- A bit per entry, entry 0 lowest. -/
def bitMap : List Bool → Nat
  | [] => 0
  | b :: bs => b2n b + 2 * bitMap bs

/-- The little-endian bytes of a list of n-byte integers. -/
def leList (n : Nat) (vs : List Nat) : List Byte := vs.flatMap (leBytes n)

/-- k integers of n bytes from off on. -/
def leFields (bs : List Byte) (off n k : Nat) : List Nat := (List.range k).map fun i => leField bs (off + n * i) n

/-! ### Check values -/

/-- One bit of the reflected CRC-32 of R62. -/
def crc32Bit (c : BitVec 32) : BitVec 32 := if c.getLsbD 0 then (c >>> 1) ^^^ 0xEDB88320#32 else c >>> 1

def crc32Byte (c : BitVec 32) (b : Byte) : BitVec 32 :=
  let x := c ^^^ b.setWidth 32
  crc32Bit (crc32Bit (crc32Bit (crc32Bit (crc32Bit (crc32Bit (crc32Bit (crc32Bit x)))))))

/-- The CRC-32 of R62. -/
def crc32 (bs : List Byte) : BitVec 32 := bs.foldl crc32Byte 0xFFFFFFFF#32 ^^^ 0xFFFFFFFF#32

def crc16Bit (c : BitVec 16) : BitVec 16 := if c.getLsbD 15 then (c <<< 1) ^^^ 0x1021#16 else c <<< 1

def crc16Byte (c : BitVec 16) (b : Byte) : BitVec 16 :=
  let x := c ^^^ (b.setWidth 16 <<< 8)
  crc16Bit (crc16Bit (crc16Bit (crc16Bit (crc16Bit (crc16Bit (crc16Bit (crc16Bit x)))))))

/-- The CRC-16/CCITT of R61. -/
def crc16 (bs : List Byte) : BitVec 16 := bs.foldl crc16Byte 0xFFFF#16

def crc8Bit (poly c : BitVec 8) : BitVec 8 := if c.getLsbD 7 then (c <<< 1) ^^^ poly else c <<< 1

def crc8Byte (poly c b : BitVec 8) : BitVec 8 :=
  let x := c ^^^ b
  crc8Bit poly (crc8Bit poly (crc8Bit poly (crc8Bit poly
    (crc8Bit poly (crc8Bit poly (crc8Bit poly (crc8Bit poly x)))))))

/-- The CRC-8/SAE-J1850 of R93. -/
def crc8 (bs : List Byte) : BitVec 8 := bs.foldl (crc8Byte 0x1D#8) 0xFF#8 ^^^ 0xFF#8

/-! ### Arithmetic -/

/-- v held between lo and hi. -/
def clampI (lo hi v : Int) : Int := if v < lo then lo else if hi < v then hi else v

/-- a / b rounded half up, for b > 0. -/
def roundHalfUp (a : Int) (b : Nat) : Int := (2 * a + b) / (2 * (b : Int))

/-- a / b rounded to the nearest, halves away from zero, for b > 0. -/
def roundAway (a : Int) (b : Nat) : Int :=
  if 0 ≤ a then roundHalfUp a b else - roundHalfUp (-a) b

/-- n / d rounded to one of its two neighbours, as Config.roundsUp says for this result (log entry 29). -/
def openRound (what : Nat) (n : Int) (d : Nat) : Int :=
  n / d + (if n % d = 0 then 0 else if Config.roundsUp what n d then 1 else 0)

/-- A counter's step: saturating at hi (R106). -/
def satAdd (hi v k : Nat) : Nat := min hi (v + k)

/-- Ticks in a number of milliseconds, microseconds and (rounded to the nearest) nanoseconds of the 100 MHz time base. -/
def msTicks (ms : Nat) : Nat := ms * 100000
def usTicks (us : Nat) : Nat := us * 100
def nsTicks (ns : Nat) : Nat := (ns + 5) / 10

/-! ### Sorted key-value lists: keys strictly rising -/

/-- The value under k. -/
def kvGet {α : Type} : List (Nat × α) → Nat → Option α
  | [], _ => none
  | (j, v) :: l, k => if j = k then some v else kvGet l k

/-- l without k. -/
def kvErase {α : Type} : List (Nat × α) → Nat → List (Nat × α)
  | [], _ => []
  | (j, v) :: l, k => if j = k then l else (j, v) :: kvErase l k

/-- l with v under k. -/
def kvSet {α : Type} : List (Nat × α) → Nat → α → List (Nat × α)
  | [], k, v => [(k, v)]
  | (j, w) :: l, k, v => if k < j then (k, v) :: (j, w) :: l else if j = k then (k, v) :: l else (j, w) :: kvSet l k v

/-- l with v under k, where a value equal to dflt is not listed: the one canonical form. -/
def kvPut {α : Type} [DecidableEq α] (l : List (Nat × α)) (k : Nat) (v dflt : α) : List (Nat × α) :=
  if v = dflt then kvErase l k else kvSet l k v

/-- Keys strictly rise. -/
def kvSorted {α : Type} : List (Nat × α) → Bool
  | [] => true
  | [_] => true
  | (i, _) :: (j, w) :: l => decide (i < j) && kvSorted ((j, w) :: l)

/-! ### Lists -/

/-- l with f applied at position i. -/
def modAt {α : Type} (l : List α) (i : Nat) (f : α → α) : List α :=
  match l, i with
  | [], _ => []
  | x :: xs, 0 => f x :: xs
  | x :: xs, i + 1 => x :: modAt xs i f

/-- The positions at which p holds. -/
def positions {α : Type} (p : α → Bool) (l : List α) : List Nat :=
  (List.range l.length).filter fun i => match l[i]? with | some x => p x | none => false

def sumNat (l : List Nat) : Nat := l.foldl (· + ·) 0

def sumInt (l : List Int) : Int := l.foldl (· + ·) 0

end Sys2Proof.Machine
end

