-- ==== Sys2Proof/Machine/Crypto.lean ====
section
/-! DEFINITION. SHA-256 (FIPS 180-4) and ECDSA P-256 verification, which the journal's chain and the image checks name
(R373, R427, R428). -/

namespace Sys2Proof.Machine

open Sys2Proof

/-! ### SHA-256 -/

/-- The k-th root of v, rounded down, over n bits: r holds the bits found so far. -/
def rootBits (k v : Nat) : Nat → Nat → Nat
  | 0, r => r
  | n + 1, r => rootBits k v n (if (r + 2 ^ n) ^ k ≤ v then r + 2 ^ n else r)

/-- The first 64 primes. -/
def shaPrimes : List Nat :=
  (List.range 310).map (· + 2) |>.filter fun n => ([2, 3, 5, 7, 11, 13, 17] : List Nat).all fun q => n == q || n % q != 0

/-- The first 32 bits of the fractional part of the k-th root of a prime. -/
def rootWord (k p : Nat) : BitVec 32 := BitVec.ofNat 32 (rootBits k (p * 2 ^ (32 * k)) 36 0)

/-- The constants of the 64 rounds. -/
def shaK : List (BitVec 32) := shaPrimes.map (rootWord 3)

/-- The eight working words. -/
structure ShaH where
  a : BitVec 32
  b : BitVec 32
  c : BitVec 32
  d : BitVec 32
  e : BitVec 32
  f : BitVec 32
  g : BitVec 32
  h : BitVec 32
deriving DecidableEq, Repr

/-- The initial value: the square roots of the first eight primes. -/
def shaInit : ShaH :=
  { a := rootWord 2 2, b := rootWord 2 3, c := rootWord 2 5, d := rootWord 2 7, e := rootWord 2 11, f := rootWord 2 13,
    g := rootWord 2 17, h := rootWord 2 19 }

def rotr (x : BitVec 32) (n : Nat) : BitVec 32 := x.rotateRight n

/-- One round with its schedule word and constant. -/
def shaRound (s : ShaH) (w k : BitVec 32) : ShaH :=
  let s1 := rotr s.e 6 ^^^ rotr s.e 11 ^^^ rotr s.e 25
  let ch := (s.e &&& s.f) ^^^ (~~~s.e &&& s.g)
  let t1 := s.h + s1 + ch + k + w
  let s0 := rotr s.a 2 ^^^ rotr s.a 13 ^^^ rotr s.a 22
  let maj := (s.a &&& s.b) ^^^ (s.a &&& s.c) ^^^ (s.b &&& s.c)
  { a := t1 + (s0 + maj), b := s.a, c := s.b, d := s.c, e := s.d + t1, f := s.e, g := s.f, h := s.g }

/-- Sixty-four rounds; `w` holds the sixteen schedule words that come next. -/
def shaRounds : List (BitVec 32) → List (BitVec 32) → ShaH → ShaH
  | [], _, s => s
  | k :: ks, w, s =>
    let w0 := w.getD 0 0
    let w1 := w.getD 1 0
    let w14 := w.getD 14 0
    let n := w0 + (rotr w1 7 ^^^ rotr w1 18 ^^^ (w1 >>> 3)) + w.getD 9 0 + (rotr w14 17 ^^^ rotr w14 19 ^^^ (w14 >>> 10))
    shaRounds ks (w.drop 1 ++ [n]) (shaRound s w0 k)

/-- Big-endian words of a block. -/
def beWords : List Byte → List (BitVec 32)
  | a :: b :: c :: d :: l => BitVec.ofNat 32 (a.toNat * 0x1000000 + b.toNat * 0x10000 + c.toNat * 0x100 + d.toNat) :: beWords l
  | _ => []

/-- One 64-byte block. -/
def shaBlock (s : ShaH) (block : List Byte) : ShaH :=
  let t := shaRounds shaK (beWords block) s
  { a := s.a + t.a, b := s.b + t.b, c := s.c + t.c, d := s.d + t.d, e := s.e + t.e, f := s.f + t.f, g := s.g + t.g,
    h := s.h + t.h }

/-- n blocks. -/
def shaBlocks : Nat → List Byte → ShaH → ShaH
  | 0, _, s => s
  | n + 1, l, s => shaBlocks n (l.drop 64) (shaBlock s (l.take 64))

/-- Big-endian bytes. -/
def beBytes : Nat → Nat → List Byte
  | 0, _ => []
  | n + 1, v => BitVec.ofNat 8 (v / 256 ^ n) :: beBytes n v

def beNat (bs : List Byte) : Nat := bs.foldl (fun v b => v * 256 + b.toNat) 0

/-- Padding of FIPS 180-4: 0x80, zeros, and the length in bits. -/
def shaPad (m : List Byte) : List Byte :=
  let n := m.length
  m ++ [0x80] ++ List.replicate ((119 - n % 64) % 64) 0 ++ beBytes 8 (8 * n)

/-- SHA-256, in digest byte order (R11). -/
def sha256 (m : List Byte) : List Byte :=
  let p := shaPad m
  let s := shaBlocks (p.length / 64) p shaInit
  [s.a, s.b, s.c, s.d, s.e, s.f, s.g, s.h].flatMap fun w => beBytes 4 w.toNat

/-! ### P-256 -/

def p256P : Nat := 0xffffffff00000001000000000000000000000000ffffffffffffffffffffffff
def p256N : Nat := 0xffffffff00000000ffffffffffffffffbce6faada7179e84f3b9cac2fc632551
def p256B : Nat := 0x5ac635d8aa3a93e7b3ebbd55769886bc651d06b0cc53b0f63bce3c3e27d2604b
def p256Gx : Nat := 0x6b17d1f2e12c4247f8bce6e563a440f277037d812deb33a0f4a13945d898c296
def p256Gy : Nat := 0x4fe342e2fe1a7f9b8ee7eb4a7c0f9e162bce33576b315ececbb6406837bf51f5

/-- b^e mod m, over the bits of e. -/
def powMod (m : Nat) : Nat → Nat → Nat → Nat
  | 0, _, _ => 1 % m
  | n + 1, b, e =>
    let r := powMod m n (b * b % m) (e / 2)
    if e % 2 = 1 then r * b % m else r

/-- The inverse modulo a prime. -/
def invMod (p a : Nat) : Nat := powMod p 256 (a % p) (p - 2)

/-- A point in Jacobian coordinates; z = 0 is the point at infinity. -/
structure JPoint where
  x : Nat
  y : Nat
  z : Nat
deriving DecidableEq, Repr

def subMod (p a b : Nat) : Nat := (a % p + p - b % p) % p

def jDouble (q : JPoint) : JPoint :=
  let p := p256P
  if q.z = 0 ∨ q.y = 0 then ⟨1, 1, 0⟩
  else
    let ysq := q.y * q.y % p
    let s := 4 * q.x * ysq % p
    let z2 := q.z * q.z % p
    let m := 3 * subMod p q.x z2 * ((q.x + z2) % p) % p
    let x := subMod p (m * m) (2 * s)
    ⟨x, subMod p (m * subMod p s x) (8 * ysq * ysq), 2 * q.y * q.z % p⟩

def jAdd (q r : JPoint) : JPoint :=
  let p := p256P
  if q.z = 0 then r
  else if r.z = 0 then q
  else
    let z1 := q.z * q.z % p
    let z2 := r.z * r.z % p
    let u1 := q.x * z2 % p
    let u2 := r.x * z1 % p
    let s1 := q.y * z2 * r.z % p
    let s2 := r.y * z1 * q.z % p
    if u1 = u2 then (if s1 = s2 then jDouble q else ⟨1, 1, 0⟩)
    else
      let h := subMod p u2 u1
      let t := subMod p s2 s1
      let h2 := h * h % p
      let h3 := h2 * h % p
      let v := u1 * h2 % p
      let x := subMod p (subMod p (t * t) h3) (2 * v)
      ⟨x, subMod p (t * subMod p v x) (s1 * h3), h * q.z * r.z % p⟩

/-- k times a point, over n bits of k. -/
def jMul : Nat → Nat → JPoint → JPoint
  | 0, _, _ => ⟨1, 1, 0⟩
  | n + 1, k, q =>
    let r := jMul n (k / 2) (jDouble q)
    if k % 2 = 1 then jAdd r q else r

/-- The ECDSA P-256 check of a signature r, s over a digest under a public key X, Y, each in SEC 1 octet order. -/
def ecdsaVerify (pub sig digest : List Byte) : Bool :=
  let p := p256P
  let n := p256N
  let qx := beNat (pub.take 32)
  let qy := beNat ((pub.drop 32).take 32)
  let r := beNat (sig.take 32)
  let s := beNat ((sig.drop 32).take 32)
  let onCurve := decide (qx < p) && decide (qy < p) &&
    decide (qy * qy % p = (qx * qx % p * qx + subMod p p256B (3 * qx)) % p)
  if !onCurve || r = 0 || s = 0 || decide (n ≤ r) || decide (n ≤ s) then false
  else
    let e := beNat digest
    let w := invMod n s
    let c := jAdd (jMul 256 (e * w % n) ⟨p256Gx, p256Gy, 1⟩) (jMul 256 (r * w % n) ⟨qx, qy, 1⟩)
    if c.z = 0 then false
    else
      let zi := invMod p c.z
      decide (c.x * (zi * zi % p) % p % n = r)

end Sys2Proof.Machine
end

