-- ==== Sys2Proof/Machine/State.lean ====
section
/-! DEFINITION. Everything the manual gives the block to hold, as plain data, and the block right after power-on reset.
A setting or counter that the manual numbers as a parameter lives in the parameter store Dev.prm under its PARAM_ID; a
parameter the manual calls RO and computes from something else is read from the field named here. -/

namespace Sys2Proof.Machine

open Sys2Proof

/-- The block stops with a fault on no command: the manual gives every command an effect, so there is none to name. -/
inductive Fault
deriving DecidableEq, Repr

/-- Why a command has no meaning. `notModelled` names a row whose meaning is not written; no meaning raises it. Safe: the
machine stops where the hardware goes on. -/
inductive Refusal where
  | notModelled (mnemonic : String)
deriving DecidableEq, Repr

/-- One value for each of two instances: side L and R, or LNK0 and LNK1. -/
structure Pair (α : Type) where
  fst : α
  snd : α
deriving DecidableEq, Repr

/-- The two variants of Table 0-2. -/
inductive Variant where
  | cx7240
  | cx7220
deriving DecidableEq, Repr

/-- DEV_STATE of Table 1-6, in code order. -/
inductive DevState where
  | reset
  | boot
  | standby
  | beam
  | degraded
  | safe
  | holdup
  | thermalOff
deriving DecidableEq, Repr

/-! ### Mailbox and host ports (chapter 4) -/

/-- A command header and its payload as carried (Table 4-13). -/
structure Cmd where
  opcode : Nat
  tag : Nat
  quiet : Bool
  len : Nat
  expCl : Nat
  payload : List Byte
deriving DecidableEq, Repr

/-- How far an admitted command has come. -/
inductive CmdStage where
  /-- admitted, not yet served -/
  | queued
  /-- served; waits for its own completion -/
  | waiting
deriving DecidableEq, Repr

/-- An open command; `slot` is its SPI or JTAG slot (R89). -/
structure OpenCmd where
  cmd : Cmd
  slot : Nat
  stage : CmdStage
  pendingSent : Bool
  /-- the tick of its admission (R100) -/
  admitted : Nat
deriving DecidableEq, Repr

/-- A completed command in the cache of R97: header fields, payload CRC-32 and final response. -/
structure CacheEntry where
  tag : Nat
  opcode : Nat
  len : Nat
  crc : BitVec 32
  status : Nat
  response : List Byte
deriving DecidableEq, Repr

/-- An event record (Table 4-17). -/
structure EventRec where
  code : Nat
  lostBefore : Bool
  eseq : Nat
  arg : Nat
  time : Nat
deriving DecidableEq, Repr

/-- One mailbox port: its open commands in admission order, its completed-command cache (newest first, at most 16), its
event queue (oldest first), its event sequence, and whether records were lost since the last one stored (R97, R102). -/
structure PortState where
  opens : List OpenCmd
  cache : List CacheEntry
  events : List EventRec
  eseq : Nat
  lostRun : Bool
deriving DecidableEq, Repr

/-- Slot states of Table 4-11. -/
inductive SlotSt where
  | free
  | open_
  | pending
  | done
deriving DecidableEq, Repr

/-- The registers of one SPI or JTAG slot (R89). -/
structure SlotRegs where
  st : SlotSt
  cmdh : Long
  payload : List Byte
  rsph : Long
  resp : List Byte
  /-- the tick in which DONE was last set (R15) -/
  doneAt : Option Nat
deriving DecidableEq, Repr

/-- One copy of the register map (Table 4-3): SPI's, or port 4's (R90). -/
structure RegMap where
  slots : List SlotRegs
  /-- IRQ_STATUS bits [6:2], the W1C bits EVT_OVF, STATE_CHG, FAULT, SNAP and SPI_ERR -/
  irqW1c : BitVec 5
  /-- when each of those bits was last set (R15) -/
  irqSetAt : List (Option Nat)
  /-- IRQ_ENABLE bits [6:0] -/
  irqEnable : BitVec 7
  /-- the last word read out of the map (HSPI_MISO, or DBG_MBX bits [49:18]) -/
  lastRead : Word
  /-- the words that the last transaction read out, in order (R86) -/
  readOut : List Word
deriving DecidableEq, Repr

/-- The vehicle signals (R93, R94, R128). -/
structure Veh where
  beamCnt : Option Nat
  beamReq : Nat
  beamTime : Nat
  beamLost : Bool
  motionCnt : Option Nat
  motionSeen : Bool
  motionTime : Nat
  motionLost : Bool
  speed : Nat
  yaw : Int
  steer : Int
  pitch : Int
  timeCnt : Option Nat
  /-- the time base latched at the start of the previous VEH_TIME frame -/
  timeLatch : Nat
deriving DecidableEq, Repr

/-- Beam requests (R116): the two values, the one that changed last, the one in force, and the one in effect (R117).
`canLoss` holds while the CAN request stands at the value VEH_LOSS_BEAM gave it. -/
structure BeamReq where
  can : Nat
  mailbox : Nat
  mailboxNewest : Bool
  inForce : Nat
  effective : Nat
  canLoss : Bool
deriving DecidableEq, Repr

/-- A mailbox object list being collected (R123). -/
structure ListParts where
  port : Port
  seq : Nat
  parts : Nat
  next : Nat
  data : List Byte
deriving DecidableEq, Repr

/-- A CAN message being collected (R92): its bytes so far, how many segments they came in, and whether every one of them carried
63 bytes. -/
structure CanRx where
  bytes : List Byte
  segments : Nat
  whole : Bool
deriving DecidableEq, Repr

/-- The mailbox unit. `canRx` is the message being collected from CAN segments; `canTx` what was sent on CAN, newest
first (identifier and data); `millerStuck` holds after MILLER_WATCHDOG. -/
structure HostUnit where
  ports : List PortState
  spi : RegMap
  jtag : RegMap
  /-- TIME_HI, shared by both maps (R90) -/
  timeHi : Word
  canRx : Option CanRx
  canTx : List (Nat × List Byte)
  canStaged : List (Nat × Int)
  parts : Option ListParts
  millerStuck : Bool
deriving DecidableEq, Repr

/-! ### Millrace links (chapters 2 and 3) -/

/-- Link states of Table 2-7, in code order. -/
inductive LinkState where
  | disabled
  | detect
  | lock
  | eye
  | train
  | l0
  | step
  | l1
  | l2
  | recovery
  | down
deriving DecidableEq, Repr

/-- What the LOCK, EYE and TRAIN in progress belong to (R45). -/
inductive LockPurpose where
  | bringUp
  | rateStep
  | recoveryDrop
deriving DecidableEq, Repr

/-- Where RECOVERY stands (Table 2-14). -/
inductive RecPhase where
  | relock
  | pam4
  | retrain
deriving DecidableEq, Repr

/-- The spare of R53 and R54: what it is being used for. -/
inductive SpareUse where
  | idle
  /-- takeover of a logical lane, with the DSK intervals checked so far; `hard` faults lose Husks -/
  | takeover (logical : Nat) (acked : Bool) (checked : Nat)
  /-- cover of a lane under calibration -/
  | cover (logical : Nat)
  /-- a cover that the next DSK column returns to service, and the lane that then needs a takeover (R54, second case) -/
  | returning (logical : Nat) (next : Option Nat)
deriving DecidableEq, Repr

/-- A tap request on one lane awaiting its ACK_SEQ (R48, R49). -/
structure TapReq where
  word : Word
  seq : Nat
  sends : Nat
  count : Nat
  matched : Bool
deriving DecidableEq, Repr

/-- BTS symbols 2 to 6 (Table 2-5). -/
structure Bts where
  state : Nat
  l1Ok : Bool
  reqRate : Nat
  step : Bool
  shadow : Nat
  shadowValid : Bool
  mapseq : Nat
  pamReq : Nat
deriving DecidableEq, Repr

/-- A back-lane Husk that waits for the lane: the fields of Table 3-1 that it is formed from. -/
structure TxHusk where
  type : Nat
  vc : Nat
  retry : Bool
  seq : Nat
  sub : Nat
  payload : List Byte
deriving DecidableEq, Repr

/-- Layer-1 to layer-2 state of one link. `map` gives the physical lane of each logical lane; `spare` is none when no
healthy spare is left; `backOut` lists the Husks sent on the back lane as their bytes, newest first. -/
structure Link where
  state : LinkState
  rate : Nat
  prevL0Rate : Nat
  /-- rate to which failed eye tests and trainings have lowered the ceiling since DETECT (Table 2-8) -/
  cap : Nat
  ecuRates : Nat
  map : List Nat
  spare : Option Nat
  failed : List Bool
  /-- lanes of which a detector has asserted and not both have cleared since (R52) -/
  faulted : List Bool
  /-- lanes whose polarity TRAIN found reversed and corrected (R31) -/
  inverted : List Bool
  /-- DFE taps h1 and h2 of each physical lane, as levels 0 to 63 of their ranges (Table 2-12) -/
  dfe : List (Nat × Nat)
  fastReentry : Bool
  purpose : LockPurpose
  upSinceDetect : Bool
  /-- waits in LOCK or L0 for its training ticket (R45) -/
  waitTicket : Bool
  recPhase : RecPhase
  retrains : Nat
  recovering : Bool
  stepTarget : Nat
  spareUse : SpareUse
  tapReqs : List (Option TapReq)
  bts : Bts
  btsSent : List Bts
  backLaneOn : Bool
  -- VC1 and VC2 (R67 to R72)
  vc1RxNext : Nat
  nakOutstanding : Bool
  rxCredit : Nat
  vc1TxNext : Nat
  txCredit : Option Nat
  unacked : List TxHusk
  txWaiting : List TxHusk
  replays : Nat
  /-- a replay timer has ended where no Husk may be replayed yet (Table 3-9) -/
  replayHeld : Bool
  vc2Last : Option Nat
  -- the back lane (R66): what waits for it, oldest first, by priority; VC0's SEQ; ticks to the next Husk boundary
  localOut : List TxHusk
  vc1Out : List TxHusk
  statOut : List TxHusk
  thumbOut : List TxHusk
  vc0TxNext : Nat
  laneBusy : Nat
  backOut : List (List Byte)
deriving DecidableEq, Repr

/-! ### Layers and composition (chapters 6 and 7) -/

/-- What LAYER_DECLARE fixes (Table 5-7), and POS and OUT_SIZE in force. -/
structure Decl where
  format : Nat
  static : Bool
  group : Nat
  srcW : Nat
  srcH : Nat
  x : Int
  y : Int
  outW : Nat
  outH : Nat
  preLut : Nat
  stalePolicy : Nat
  staleLimit : Nat
deriving DecidableEq, Repr

/-- One source row of one plane: its samples left to right; none where no sample has been written. -/
structure Row where
  plane : Nat
  row : Nat
  samples : List (Option Nat)
deriving DecidableEq, Repr

/-- Buffer roles (R144). -/
inductive Role where
  | free
  | fill
  | ready
  | display
deriving DecidableEq, Repr

/-- One layer buffer: rows kept by plane and row; `blank` lists rows that show A = 0 (R146). In an intake-scaled layer the
rows of a copied buffer hold expanded pixels (R139). -/
structure Buf where
  role : Role
  frame : Nat
  rows : List Row
  blank : List Nat
deriving DecidableEq, Repr

/-- LAYER_STATE codes (Table 6-14). -/
inductive LayerSt where
  | free
  | declared
  | destroyed
deriving DecidableEq, Repr

/-- Layer frame state (Table 3-6a). -/
inductive FrameSt where
  | idle
  | open_ (frame : Nat) (link : LinkId)
deriving DecidableEq, Repr

/-- A fence waiting for a layer frame (R76): fence, frame; `atCopy` waits for an intake copy (R145). -/
structure BoundFence where
  fence : Nat
  frame : Nat
  atCopy : Bool
deriving DecidableEq, Repr

/-- A layer 0 to 7. For intake layers `bufs` are the pool buffers and `staging` the DRAM staging buffers; `copying` is the
staging buffer being copied, and `awaiting` the one that holds a closed frame waiting for its copy (R145). -/
structure Layer where
  st : LayerSt
  decl : Decl
  placement : Nat
  scalers : List Nat
  poolBytes : Nat
  dramBlocks : Nat
  bufs : List Buf
  staging : List Buf
  copying : Option Nat
  awaiting : Option Nat
  filling : Option Nat
  frameSt : FrameSt
  lastFrame : Option Nat
  linesRx : Nat
  newestClosed : List Row
  fences : List BoundFence
  stale : Bool
  destroyDue : Bool
  lateCount : Nat
deriving DecidableEq, Repr

/-- A commit group (R147): the fences of its armed COMMIT_GROUP, each with the tick in which it was signalled, the command
that armed it, and whether a run of LATE frames is open. -/
structure Group where
  armed : Bool
  fences : List (Nat × Option Nat)
  port : Port
  tag : Nat
  lateRun : Bool
deriving DecidableEq, Repr

/-- A resident pattern slot (R152): image number, whether it is valid and passed its check (R154), and its bytes. -/
structure Resident where
  image : Nat
  good : Bool
  pixels : List Byte
deriving DecidableEq, Repr

/-- The base layer of one side (R152 to R154): the resident slots; loads waiting for the load slot (slot 0 low, 1 high,
2 fallback; image); the loaded slot waiting for its exchange; the image shown and its bytes; what it fades from, oldest
first, each image mixed over the ones before it with its weight of 65,535; the fade's progress and the weight of the image
shown. -/
structure Base where
  low : Resident
  high : Resident
  fallback : Resident
  loads : List (Nat × Nat)
  ready : Option (Nat × Resident)
  shown : Option Nat
  image : List Byte
  under : List (List Byte × Nat)
  fadeStep : Nat
  fadeTotal : Nat
  weight : Nat
  /-- the selected image and PAT_FALLBACK are both invalid -/
  invalid : Bool
deriving DecidableEq, Repr

/-- A composed pixel (Table 7-1). -/
structure Pix where
  i : Nat
  t : Nat
deriving DecidableEq, Repr

/-- One side's compose pipe: the pass in progress, and the two buffers of R20. `tap` holds the intensities before the
gain map (R186, R187). -/
structure Pipe where
  running : Bool
  /-- mode position whose field, split and gain map the pass uses -/
  mode : Nat
  nextRow : Nat
  behind : Bool
  bridgePass : Bool
  expectsChange : Bool
  offset : Int × Int
  front : List (List Pix)
  frontTap : List (List Pix)
  back : List (List Pix)
  backTap : List (List Pix)
  backReady : Bool
  withheld : Bool
  culled : Nat
  parkedWeights : Bool
  /-- layers that ran dry in this pass (R169) -/
  dryLayers : List Nat
  /-- the time base at the compose-frame start of the pass, and at the start of its last row (R161, R162) -/
  startAt : Nat
  rowAt : Nat
  /-- the cover layer of each tile, in raster order, decided at the start of the pass (R166), and how many tiles cull a layer -/
  cover : List (Option Nat)
  cullCount : Nat
  /-- the MX_TARGET records that the matrix tap of the front and of the back buffer used (R187) -/
  frontMx : List (List Byte)
  backMx : List (List Byte)
deriving DecidableEq, Repr

/-- Placement and composition state shared by both sides. `dramRetrain` holds from a PLL-M loss until DRAM is retrained (R393). -/
structure Compose where
  layers : List Layer
  groups : List Group
  /-- the early-signal store, oldest first: fence and tick of its signal (R148) -/
  early : List (Nat × Nat)
  bases : Pair Base
  pipes : Pair Pipe
  poolFree : Nat
  dramFree : Nat
  scalersFree : List Nat
  scalersReturning : List Nat
  dramStalled : Bool
  dramRetrain : Bool
  pfSeen : Bool
  pf : Int
  dx : Int
  dy : Int
  tableCommit : BitVec 5
  passParity : Bool
  /-- the compose and placement clock runs at half frequency: throttle stage 2 at the last compose-frame start (R400) -/
  halfClock : Bool
  thumbFrame : Nat
deriving DecidableEq, Repr

/-! ### Sequencing (chapters 8 and 9) -/

/-- A mode change on its way (R118, R199, R200). -/
inductive ModeChange where
  | none_
  /-- admitted; armed at the first refresh boundary -/
  | pending (mode : Nat) (port : Port) (tag : Nat) (armed : Bool)
  /-- the bridge refresh runs; a later SELECT_MODE may wait behind it -/
  | bridging (mode : Nat) (port : Port) (tag : Nat) (refreshes : Nat) (behind : Option (Nat × Port × Nat))
deriving DecidableEq, Repr

/-- A look-ahead word (Table 9-7). -/
structure Lookahead where
  entry : Nat
  cshift : Nat
  mix : Nat
  zero : Bool
  diag : Bool
  camw : Bool
  first : Bool
  dphase : Nat
deriving DecidableEq, Repr

/-- The reset value of a look-ahead word (Table 9-7). -/
def Lookahead.reset : Lookahead :=
  { entry := 0, cshift := 0, mix := 0, zero := true, diag := false, camw := false, first := false, dphase := 0 }

/-- What a side loaded for the entry in hand: entry, expected plane CRC and lane CRCs (R243), whether it was voided
(R233), and which check values came (R245). -/
structure Loaded where
  entry : Nat
  crc : BitVec 32
  lanes : List (BitVec 8)
  voided : Bool
  wasReset : Bool
  bus : Option (BitVec 32)
  cell : Option (BitVec 32)
  busClosed : Bool
  cellClosed : Bool
deriving DecidableEq, Repr

/-- Mask buffers of one side (R231, R271). A sample is 0 to 15, row-major. `genFront` is none until a mask was exchanged. -/
structure MaskBuf where
  front : List (BitVec 4)
  back : List (BitVec 4)
  ready : Bool
  genFront : Nat
  genBack : Nat
  sigFront : BitVec 32
  sigBack : BitVec 32
  /-- the footprint (R355) of the raster in the back buffer: left, top, right, bottom -/
  footBack : Option (Nat × Nat × Nat × Nat)
  /-- mask words with an uncorrectable error in the front buffer (R234) -/
  badWords : List Nat
deriving DecidableEq, Repr

/-- A refresh that has ended on a side and whose aggregates are still open (R356): CELL_CRC values and plane CRCs in entry order,
whether a plane check failed, and whether the side projected throughout. -/
structure Ended where
  rx : List (BitVec 32)
  ex : List (BitVec 32)
  failed : Bool
  projected : Bool
deriving DecidableEq, Repr

/-- The sequencer and what it serves on each side. `started` holds once a refresh boundary has come; `boundaryOpen` from a
refresh boundary until entry 0 begins. -/
structure Seq where
  entry : Nat
  started : Bool
  boundaryOpen : Bool
  /-- S_e of the entry begun is still to come -/
  resetDue : Bool
  displayed : Nat
  refreshCount : Nat
  refreshInCycle : Nat
  refreshInFrame : Nat
  /-- this refresh boundary is a compose-frame boundary whose compose frame has not started yet (R22) -/
  frameDue : Bool
  dither : Nat
  thumbDue : Bool
  maskInForce : Word
  maskRecorded : Option Word
  maskFresh : Option Word
  handedFirst : Bool
  change : ModeChange
  /-- words handed and not yet applied -/
  words : Pair (List Lookahead)
  inForce : Pair Lookahead
  /-- the time base at the last reset instant S_e, and whether its entry had no word then (R320) -/
  resetAt : Nat
  wordMissed : Bool
  /-- the entry being loaded, from B_e to S_e, and the entry shown whose check values are awaited -/
  loading : Pair (Option Loaded)
  checking : Pair (Option Loaded)
  lastChecked : Pair Loaded
  rxAgg : Pair (List (BitVec 32))
  exAgg : Pair (List (BitVec 32))
  checkFailed : Pair Bool
  /-- the refresh that has ended while its last entry's checks are open, and whether the last refresh closed was verified and
  projected (R356) -/
  ended : Pair (Option Ended)
  endedOk : Pair (Option Bool)
  masks : Pair MaskBuf
  eccWords : List Nat
  projecting : Pair Bool
  /-- the side has projected, with its currents enabled, since the refresh boundary -/
  projectedRefresh : Pair Bool
deriving DecidableEq, Repr

/-- Camera lock (R205 to R208). `freeDue` holds from a PLL-Q relock to the next STANDBY entry (R394). -/
structure Cam where
  state : Nat
  reference : Option Nat
  /-- the time of the last valid pulse -/
  lastValid : Nat
  validRun : Nat
  periods : List Nat
  winRun : Nat
  groupIndex : Nat
  groupReset : Bool
  phaseErr : Int
  period : Nat
  freeDue : Bool
  /-- the refresh period in force, in thirds of a tick (two thirds of a tick are one slot-clock cycle) -/
  period3 : Nat
deriving DecidableEq, Repr

/-! ### Mirror ports (chapter 10) -/

/-- Port states of Table 10-7, in code order. -/
inductive MState where
  | off
  | power
  | train
  | ident
  | parked
  | unpark
  | ready
  | parking
  | fault
  | absent
deriving DecidableEq, Repr

/-- A command frame sent on a port (Table 10-2). -/
structure MFrame where
  cmd : Nat
  cseq : Nat
  arg0 : Nat
  arg1 : Nat
deriving DecidableEq, Repr

/-- A command that waits for its idle gap (R239): it is not sent before a value of the time base (Table 10-9). -/
structure PortCmd where
  cmd : Nat
  arg0 : Nat
  arg1 : Nat
  notBefore : Nat
deriving DecidableEq, Repr

/-- One mirror port. `sent` lists the command frames sent, newest first; `queue` those that wait, oldest first. The taps are the
corrections Cal.inForce. -/
structure MPort where
  state : MState
  pwrEn : Bool
  parkN : Bool
  /-- the time base when PARK_N last fell -/
  parkFell : Nat
  fltN : Bool
  pairsOn : Bool
  pwrDwell : Bool
  powerUpWanted : Bool
  powerDownWanted : Bool
  cseq : Nat
  sent : List MFrame
  arrayId : List Byte
  recordedGeom : Option Nat
  heldIdent : Option (List Byte)
  identTries : Nat
  arrayStatus : Word
  spareLane : Nat
  sparePermanent : Bool
  lane32Failed : Bool
  sparePending : Option Nat
  failedLanes : BitVec 32
  laneErr : List Nat
  /-- for each data lane the loads (numbered) in which it had a lane error, newest first -/
  laneHist : List (List Nat)
  loadNo : Nat
  /-- training: for each tap swept so far, newest first, the bit errors of lanes 0 to 32 -/
  sweep : List (List Nat)
  /-- centre and length of each lane's longest passing run in the first sweep (R418) -/
  firstSweep : List (Nat × Nat)
  lanesAsked : Bool
  unparkAcked : Bool
  orderlyPark : Bool
  queue : List PortCmd
  /-- the lane named by the last SPARE frame sent (0x3F: none), and the load after which it was sent -/
  told : Nat
  spareAt : Option Nat
  /-- the trial of a covered lane in READY: which taps passed so far, newest first (R251, R410) -/
  trial : List Bool
  /-- RSEQ of the last response on RB0 and RB1 (R242) -/
  rseq : Pair Byte
deriving DecidableEq, Repr

/-! ### Shutter engine (chapter 11) -/

/-- An object record (Table 11-2). -/
structure Obj where
  cls : Nat
  conf : Nat
  azL : Int
  azR : Int
  elT : Int
  elB : Int
  dist : Nat
  vaz : Int
  vel : Int
  vx : Int
  dt : Int
  egoIncl : Bool
deriving DecidableEq, Repr

/-- An accepted object list: TIME, COUNT, whether first-list rules govern it (R275), and its objects that are not invalid. -/
structure ObjList where
  time : Nat
  count : Nat
  first : Bool
  objs : List Obj
deriving DecidableEq, Repr

/-- Kinds of raster (R264). -/
inductive RasterKind where
  | list
  | repredict
  | stale
deriving DecidableEq, Repr

/-- A raster in progress and the sides it computes. -/
structure Raster where
  kind : RasterKind
  start : Nat
  sides : List Nat
deriving DecidableEq, Repr

/-- Shutter states of Table 11-7, in code order. -/
inductive ShtState where
  | init
  | first
  | normal
  | staleHold
  | stale
deriving DecidableEq, Repr

/-- The Shutter engine. `newest` is the newest accepted list, `lastRastered` when it was last rastered, `footprints` the
footprint of each side in the previous list raster (left, top, right, bottom), if there was one, and `frozen` counts for R355. -/
structure Shutter where
  state : ShtState
  listsSeen : Nat
  newest : Option ObjList
  lastRastered : Nat
  raster : Option Raster
  pending : Option ObjList
  /-- entry to STALE_HOLD -/
  holdFrom : Nat
  generation : Nat
  objectsRastered : Nat
  listAge : Nat
  geometry : List Byte
  geomValid : Bool
  footprints : Pair (Option (Option (Nat × Nat × Nat × Nat)))
  maskSig : Pair (BitVec 32)
  frozen : Pair Nat
deriving DecidableEq, Repr

/-! ### Lamps and Governor (chapters 12 and 13) -/

/-- BST_STATE: off, waiting for its ticket, START, RUN, or stopped by a limit (R295). -/
inductive BoostSt where
  | off
  | waiting
  | start
  | run
  | ovTrip (back : Bool)
  | uvStop
  /-- the restart after an undervoltage stop waits for its ticket -/
  | uvWait
deriving DecidableEq, Repr

/-- One lamp channel. `fault` is CH_FAULT; `latches` names the fault codes that hold it latched off (R363). -/
structure Chan where
  fault : BitVec 6
  latches : List Nat
  gatePulled : Bool
  setpoint : Nat
  current : Nat
  drain : Nat
  /-- sums for I_MEAS, VF_MEAS, LIT_TIME and the journal's I_AVG over their windows -/
  iSum : Nat
  iCount : Nat
  iMeas : Nat
  vfSum : Int
  vfCount : Nat
  vfMeas : Nat
  vfFails : Nat
  vfPasses : Nat
  litTicks : Nat
  litTime : Nat
  jSum : Nat
  jCount : Nat
  pulseOpen : Nat
  pulseShort : Nat
  /-- drain reading of the last conversion that counts for V_H (R294) -/
  vh : Option Nat
  /-- sum and count of (V_out − V_drain) × current over the refresh's drain conversions, 1/256 µV × 0.1 mA (R291) -/
  powSum : Int
  powCount : Nat
  /-- a diagnostic pulse drives the channel (R305) -/
  pulsing : Bool
deriving DecidableEq, Repr

/-- A ramp of R300: from, to, length in ticks, refresh boundaries since its start. -/
structure Ramp where
  s : Nat
  e : Nat
  len : Nat
  k : Nat
deriving DecidableEq, Repr

/-- The lamp side: boost; V_H with its state over the refresh (an update came, an update was not low, the headroom loop won)
and the run of low refreshes; soft start (V_in at its start, Governor ticks since, target in force); ramp factor; the
side's own last valid board temperature; junction estimates (1/65,536 of 0.1 °C), T_p, derates, weights and factors. -/
structure LampSide where
  boost : BoostSt
  vout : Nat
  /-- V_out at the full resolution of its conversion, 1/256 µV -/
  vfine : Nat
  vin : Nat
  iin : Nat
  vh : Nat
  vhHeld : Bool
  vhLows : Nat
  vhSeen : Bool
  vhAbove : Bool
  headWon : Bool
  softFrom : Nat
  softTicks : Nat
  softTarget : Nat
  r : Nat
  rRamp : Option Ramp
  /-- the ramp starts at the next refresh boundary (R300) -/
  rWaits : Bool
  ignited : Bool
  tBoard : Int
  /-- the last valid reading unrounded, 0.1 °C in fixed point (R290) -/
  tFine : Int
  everValid : Bool
  goodReads : Nat
  substituted : Bool
  dtj : List Int
  tp : List Int
  dt : List Nat
  derated : List Bool
  wc : List (List Nat)
  g : List Nat
deriving DecidableEq, Repr

/-- One dimming input (R299): last value, whether it is in loss, the run of valid periods, time of the last valid one. -/
structure DimIn where
  value : Nat
  loss : Bool
  validRun : Nat
  accum : List Nat
deriving DecidableEq, Repr

/-- Lamp drive. -/
structure Lamp where
  chans : List Chan
  sides : Pair LampSide
  enable : BitVec 12
  enableNext : BitVec 12
  dimSource : Nat
  dimLevel : Nat
  /-- a DIM_SET that waits for the refresh boundary: level, source, RAMP_MS -/
  dimPending : Option (Nat × Nat × Nat)
  /-- DIM_INPUT_LOST stands for the selected source -/
  dimLost : Bool
  /-- the ramp the next refresh boundary starts: 1 to DIM_FALLBACK, 2 back to the input -/
  dimTodo : Nat
  d : Nat
  dRamp : Option Ramp
  pwm : DimIn
  ain : DimIn
  ainSum : Nat
  ainCount : Nat
  pwmPeriod : Nat
  compRejected : Pair Bool
deriving DecidableEq, Repr

/-- Governor slot states of Table 13-7. -/
inductive SlotRun where
  | off
  | idle
  | run
  | safe
deriving DecidableEq, Repr

/-- A loop slot's record in force (64 bytes) and loop state (R313). `out` is the output in effect this tick; `win` holds the
last feedback and output samples, newest first (R326); `next` is an accepted record for the next tick boundary (R312);
`divided` holds while throttling divides the slot (R316). -/
structure Slot where
  record : List Byte
  st : SlotRun
  u : Int
  uStar : Int
  i : Int
  fb : Int
  fbPrev : Int
  df : Int
  ffPrev : Int
  sp : Int
  misses : Nat
  outRange : Nat
  win : List (Int × Int)
  safeLeft : Nat
  safeFrom : Int
  out : Int
  next : Option (List Byte)
  divided : Bool
  /-- evaluations so far, and the conversion of a slow source that was last counted as new (R326) -/
  evals : Nat
  seen : Nat
deriving DecidableEq, Repr

/-- The Governor: slots, group winners, the tick number since BOOT, per-side 0 A order of R321, refresh-boundary flag for
RATE 15, ticks since the reset instant (the slot gap is the first 24), and AUX_AIN and AIN_DIM as last delivered. -/
structure Gov where
  slots : List Slot
  winners : List Nat
  groupOut : List Int
  tick : Nat
  zeroNow : Pair Bool
  /-- a word applies at the next tick of the side (R229) -/
  wordDue : Pair Bool
  refreshDue : Bool
  refreshParity : Bool
  sinceReset : Nat
  aux : List Nat
  /-- conversions so far of T_p and of the board temperature of each side, and of the die temperature -/
  tpSeq : Pair Nat
  tbSeq : Pair Nat
  dieSeq : Nat
deriving DecidableEq, Repr

/-! ### Auxiliary outputs (chapter 14) -/

/-- One segment chain: levels in force, targets and fade, and the codes of the last frame. -/
structure Chain where
  running : Bool
  level : List Nat
  start : List Nat
  target : List Nat
  fadeLen : Nat
  fadeCurve : Nat
  fadeK : Nat
  fading : Bool
  commitDue : Option (Nat × Nat)
  out : List Nat
  frameBits : List Bool
deriving DecidableEq, Repr

/-- Target states of MX_TARGET_STATE. -/
inductive MxSt where
  | off
  | free
  | write
  | swapWait
  | lost
deriving DecidableEq, Repr

/-- One matrix target. -/
structure MxTarget where
  st : MxSt
  lastTe : Option Nat
  tePeriod : Nat
  goodTe : Nat
  /-- the edge that frees it must be at least 2 µs after MX_SYNC rose -/
  syncTime : Nat
  /-- when it was taken into use -/
  since : Nat
deriving DecidableEq, Repr

/-- The auxiliary outputs; `mxSent` lists the packets sent, newest first. -/
structure Aux where
  chains : Pair Chain
  targets : List MxTarget
  mxSent : List (List Byte)
  scanLineNo : Nat
  scanFrame : Nat
  /-- the tap that the scan frame reads, its record, and whether line 0 of the next frame has been sent from it (R342) -/
  scanSource : Pair (List (List Pix))
  scanRec : List Byte
  scanReady : Bool
deriving DecidableEq, Repr

/-! ### Integrity (chapter 15) -/

/-- Reactions of Table 15-1, weakest first. -/
inductive Reaction where
  | rec_
  | ch
  | side
  | dev
deriving DecidableEq, Repr

/-- An active fault: code, instance, reaction applied, and when it was raised. -/
structure ActiveFault where
  code : Nat
  inst : Nat
  /-- ARG of the event that raised it last -/
  arg : Nat
  reaction : Reaction
  /-- order of becoming active, and order of the last raising -/
  since : Nat
  last : Nat
  raisedAt : Nat
  /-- whether the action its clearing condition names came after it was last raised (R363) -/
  actionDone : Bool
deriving DecidableEq, Repr

/-- One signature rectangle (R351, R352). -/
structure SigRect where
  state : Nat
  x : Nat
  y : Nat
  w : Nat
  h : Nat
  expected : BitVec 32
  value : BitVec 32
  misses : Nat
  learnRun : Nat
  learnTotal : Nat
  learned : Bool
  learnSig : Option (BitVec 32)
  refOffset : Option (Int × Int)
  armNext : Bool
deriving DecidableEq, Repr

/-- A snapshot record: unit, instance, and header and body bytes. -/
structure SnapRec where
  unit : Nat
  inst : Nat
  bytes : List Byte
deriving DecidableEq, Repr

/-- SAF: active faults (all, oldest first), FAULT_ACTIVE entries, escalation history, safe-state sequence, signatures and
snapshots. -/
structure Saf where
  active : List ActiveFault
  listed : List (Nat × Nat × Reaction)
  raiseNo : Nat
  /-- times of past raisings, newest first: code, instance, time -/
  history : List (Nat × Nat × Nat)
  reactions : List (Nat × Reaction)
  safeSides : Pair Bool
  /-- the state that SAFE_STATE_COMPLETE will set, its cause, the cause's reaction code and the tick (R359) -/
  safePending : Option (DevState × Nat × Nat × Nat)
  rects : Pair (List SigRect)
  frameSig : Pair (BitVec 32)
  frontSig : Pair (BitVec 32)
  frozenPasses : Pair Nat
  passSeen : Pair Bool
  /-- received and expected aggregate of the last refresh (R356) -/
  planeAgg : Pair (BitVec 32)
  planeExp : Pair (BitVec 32)
  snapSeq : Nat
  snapCount : Nat
  lastSrc : Nat
  snapNEn : Bool
  live : List SnapRec
  held : List SnapRec
  snapHeld : Bool
  safeLamp : Bool
deriving DecidableEq, Repr

/-! ### Journal and NOR (chapters 16 and 19) -/

/-- A journal record with its entry number. -/
structure JRec where
  entry : Nat
  bytes : List Byte
deriving DecidableEq, Repr

/-- What the open interval gathers for its periodic entry (Table 16-1). -/
structure JAcc where
  refreshes : Nat
  shortened : Bool
  camLocked : Bool
  withheld : Bool
  stale : Bool
  firstList : Bool
  unverified : Pair Nat
  newFaults : Nat
  firstFault : Option (Nat × Nat × Reaction)
deriving DecidableEq, Repr

/-- The projection journal. `ring` holds the newest records, oldest first; `pending` the entry numbers not yet in NOR;
`flushing` holds while a page is being programmed, with `pageFails` wrong read-backs; `seals` are the JOURNAL_SEAL commands
that wait, each for its seal record; `lost` counts the records missing from NOR since the last one written; `closing` holds
in the hold-up sequence and `closed` once it is complete. -/
structure Journal where
  isOpen : Bool
  next : Nat
  segment : Nat
  segFirst : Nat
  segCount : Nat
  segLimit : Nat
  ring : List JRec
  pending : List Nat
  flushing : Bool
  pageFails : Nat
  lastFlush : Nat
  seals : List (Nat × Port × Nat)
  lost : Nat
  acc : JAcc
  closing : Bool
  closed : Bool
  lastHoldup : Nat
deriving DecidableEq, Repr

/-- A boot directory record (Table 19-5). -/
structure DirRec where
  dseq : Nat
  pref : Nat
  validA : Bool
  validB : Bool
  trial : Bool
  tries : Nat
deriving DecidableEq, Repr

/-- A calibration set (Table 18-2). -/
structure CalSet where
  t : Int
  valid : Bool
  rate0 : Nat
  rate1 : Nat
  seq : Nat
  entries : List (Int × Int)
deriving DecidableEq, Repr

/-- The QSPI NOR as the block keeps it: bytes of the image regions, pattern library and journal region by offset (what is
not listed reads as erased); the two directory sectors; the parameter mirror; the calibration set copies; and the pattern
directory (Table 19-3). -/
structure Nor where
  cells : List Host.Cell
  density : Nat
  dir0 : List DirRec
  dir1 : List DirRec
  mirror : List (Nat × Int)
  mirrorArrays : List (Nat × List Byte)
  mirrorReactions : List (Nat × Reaction)
  geometry : Option (List Byte)
  geometryCheck : Bool
  calCopies : List (Option (List CalSet))
  calNextCopy : Nat
  patGeom : Nat
  patValid : Pair (BitVec 16)
  patCrc : Pair (List (BitVec 32))
  /-- journal records by slot (entry number modulo the region's capacity), slots rising; what is not listed is erased -/
  journal : List (Nat × List Byte)
  holdupMicros : Nat
deriving DecidableEq, Repr

/-- An update session (R128, R433). `dirWaiting` holds directory records that wait for the erase of a sector (R429). -/
structure Update where
  session : Option Port
  size : Nat
  target : Nat
  erasing : Bool
  eraseBlock : Nat
  beginTag : Nat
  /-- verified ranges: offset, length, CRC-32 -/
  ranges : List (Nat × Nat × BitVec 32)
  restartDue : Bool
  dirWaiting : List DirRec
deriving DecidableEq, Repr

/-! ### Clocks, thermal, calibration, power (chapters 17 to 20) -/

/-- One PLL. -/
structure PllSt where
  locked : Bool
  safeDivide : Bool
  relocking : Bool
  attempts : Nat
  wanted : Bool
deriving DecidableEq, Repr

/-- Clocks and the time base (R77, R385 to R396). `slewLeft` is the difference still to slew, `slewCount` the ticks since
the last inserted or withheld one. -/
structure Clk where
  timeBase : Nat
  slewLeft : Int
  slewCount : Nat
  plls : List PllSt
  refclkGood : Bool
  refclkCount : Nat
  sticky : BitVec 4
  pllqFrac : Int
  pllqPhase : Int
  phaseTarget : Int
  sscInForce : Nat
deriving DecidableEq, Repr

/-- Die temperature and throttling (R397 to R402). -/
structure Thm where
  conversions : List Int
  tDie : Int
  tDieMax : Int
  phase : Nat
  badRun : Nat
  goodRun : Nat
  sensorBad : Bool
  stage : Nat
  hot : Bool
  rcTrim : Int
  bandgapT : Int
deriving DecidableEq, Repr

/-- A calibration run (R406 to R408): its scopes, T_DIE at its start, the scopes completed, the channels still to be measured,
the measurements of a channel so far, the channels under a cover, the corrections measured and awaiting their boundary, and
for those applied what was in force before. -/
structure CalRun where
  scopes : BitVec 3
  auto : Bool
  startup : Bool
  port : Port
  tag : Nat
  startT : Int
  done : BitVec 3
  left : List Nat
  current : List (Nat × List CalValue)
  covers : List Nat
  units : Nat
  disagree : Nat
  waiting : List (Nat × Int × Int)
  previous : List (Nat × Int × Int)
deriving DecidableEq, Repr

/-- Calibration. `inForce` holds 128 corrections (tap, offset or trim; gain); `interp` those that await their boundary
without a run (R416, Table 5-10); `calRef` is CAL_REF as last measured, 0.1 mV; `overRun` the run of samples of R413. -/
structure Cal where
  run : Option CalRun
  queuedRun : Option (BitVec 3 × Port × Nat)
  inForce : List (Int × Int)
  sets : List CalSet
  setSeq : Nat
  norWriteWanted : Bool
  disagreeMap : BitVec 128
  lastRunT : List Int
  lastRunTime : List Nat
  latestRunT : Int
  coveredAdc : Option Nat
  linkLate : Pair Bool
  interp : List (Nat × Int × Int)
  calRef : Nat
  overRun : Nat
deriving DecidableEq, Repr

/-- A queued request: who asks, the currents it declares, and the budgets when it arrived (R436). -/
structure SlReq where
  holder : Holder
  core : Nat
  lamp : Nat
  coreBudget : Nat
  lampBudget : Nat
  /-- when it arrived -/
  asked : Nat
deriving DecidableEq, Repr

/-- The Sluice: tickets held with the core and lamp currents each declared and when it was granted, and requests
queued in arrival order (R434 to R436). -/
structure Sluice where
  held : List (Holder × Nat × Nat × Nat)
  queued : List SlReq
deriving DecidableEq, Repr

/-- What the always-on domain retains (R425), the balls' inputs, and the one-time-programmable memory. -/
structure Aon where
  resetCause : Nat
  shutdowns : Nat
  shutdownT : Int
  resetN : Bool
  supplies : List Bool
  warning : Bool
  thermalHold : Bool
  otpRollback : Nat
  jtagLock : Bool
deriving DecidableEq, Repr

/-- The JTAG port (R453 to R456). -/
structure Jtag where
  ir : BitVec 8
  /-- the data register that the instruction selects, as captured when the instruction was loaded: the identification register
  of R454 under IDCODE -/
  dr : BitVec 159
  cells : BitVec 159
  scanHighZ : Bool
  scanDrive : Bool
deriving DecidableEq, Repr

/-- Device state proper (Tables 1-6, 4-4 and 5-11). -/
structure Core where
  state : DevState
  acornService : Bool
  beamReady : Bool
  modeValid : Bool
  mode : Nat
  baseMode : Nat
  activeCl : Nat
  stateTime : Nat
  lastCause : Nat
  fwVersion : Nat
  image : Nat
  imageSvn : Nat
  bootStatus : Nat
  bootTime : Nat
  /-- the image tried first, once the Acorn has selected (R430): 0 not yet, 1 A, 2 B -/
  bootFirst : Nat
  /-- the running image boots on trial and is not confirmed yet -/
  trialRun : Bool
  rampingDown : Bool
  /-- the ramp down ends a test beam because speed stopped counting as zero (R210) -/
  testEnded : Bool
  releaseStage : Nat
  /-- the state that BOOT was entered from, until the change has been posted (R16, R25) -/
  announce : Option Nat
deriving DecidableEq, Repr

/-- The parameter store: scalar and array parameters that differ from their defaults, by PARAM_ID, rising; and the staged
values that wait for their boundary (R113, R138, R143, R188, R211, R287). -/
structure Prm where
  vals : List (Nat × Int)
  arrays : List (Nat × List Byte)
  staged : List (Nat × Int)
  stagedArrays : List (Nat × List Byte)
deriving DecidableEq, Repr

/-- The block without its command queue. `freeCount` is the model's own: how many free values have been drawn. -/
structure Dev where
  variant : Variant
  aon : Aon
  core : Core
  prm : Prm
  clk : Clk
  thm : Thm
  sluice : Sluice
  host : HostUnit
  veh : Veh
  req : BeamReq
  links : Pair Link
  cmp : Compose
  seq : Seq
  cam : Cam
  ports : Pair MPort
  sht : Shutter
  lamp : Lamp
  gov : Gov
  aux : Aux
  saf : Saf
  jnl : Journal
  nor : Nor
  upd : Update
  cal : Cal
  jtag : Jtag
  freeCount : Nat
deriving DecidableEq, Repr

/-- The machine: the block, and the commands waiting, first in, first out. -/
structure State where
  dev : Dev
  pending : List Instr
deriving DecidableEq, Repr


/-! ### The block right after power-on reset -/

/-- The same value for both instances. -/
abbrev both {α : Type} (x : α) : Pair α := ⟨x, x⟩

/-- R98: tag space, cache and event queue start empty. -/
def PortState.reset : PortState := { opens := [], cache := [], events := [], eseq := 0, lostRun := false }

/-- R89: a FREE slot that has had no response. -/
def SlotRegs.reset : SlotRegs :=
  { st := .free, cmdh := 0, payload := List.replicate 256 0, rsph := 0, resp := List.replicate 256 0,
    doneAt := none }

/-- Tables 4-5 to 4-9, Reset column. -/
def RegMap.reset : RegMap :=
  { slots := List.replicate 4 SlotRegs.reset, irqW1c := 0, irqSetAt := List.replicate 5 none, irqEnable := 0, lastRead := 0, readOut := [] }

/-- R116: the CAN request is 0 until the first valid VEH_BEAM; VEH_MOTION counts from boot. -/
def Veh.reset : Veh :=
  { beamCnt := none, beamReq := 0, beamTime := 0, beamLost := false, motionCnt := none, motionSeen := false,
    motionTime := 0, motionLost := false, speed := 0, yaw := 0, steer := 0, pitch := 0, timeCnt := none, timeLatch := 0 }

/-- R116. -/
def BeamReq.reset : BeamReq := { can := 0, mailbox := 0, mailboxNewest := false, inForce := 0, effective := 0, canLoss := false }

def HostUnit.reset : HostUnit :=
  { ports := List.replicate 5 PortState.reset, spi := RegMap.reset, jtag := RegMap.reset, timeHi := 0, canRx := none, canTx := [],
    canStaged := [], parts := none, millerStuck := false }

/-- BTS content before the link is enabled (Table 2-5). -/
def Bts.reset : Bts :=
  { state := 0, l1Ok := true, reqRate := 0, step := false, shadow := 0, shadowValid := false, mapseq := 0, pamReq := 0 }

/-- A link in DISABLED with the map of R29 (LANE_MAP 0x4688). -/
def Link.reset : Link :=
  { state := .disabled, rate := 0, prevL0Rate := 0, cap := 4, ecuRates := 15, map := [0, 1, 2, 3], spare := some 4,
    failed := List.replicate 5 false, faulted := List.replicate 5 false, inverted := List.replicate 5 false,
    dfe := List.replicate 5 (32, 32), fastReentry := false, purpose := .bringUp, upSinceDetect := false,
    waitTicket := false, recPhase := .relock, retrains := 0, recovering := false, stepTarget := 0, spareUse := .idle,
    tapReqs := List.replicate 5 none, bts := Bts.reset, btsSent := [], backLaneOn := false, vc1RxNext := 0,
    nakOutstanding := false, rxCredit := 8, vc1TxNext := 0, txCredit := none, unacked := [], txWaiting := [],
    replays := 0, replayHeld := false, vc2Last := none, localOut := [], vc1Out := [], statOut := [], thumbOut := [],
    vc0TxNext := 0, laneBusy := 0, backOut := [] }

def Decl.reset : Decl :=
  { format := 0, static := false, group := 0, srcW := 0, srcH := 0, x := 0, y := 0, outW := 0, outH := 0,
    preLut := 255, stalePolicy := 0, staleLimit := 12 }

/-- An undeclared layer (LAYER_STATE 0). -/
def Layer.reset : Layer :=
  { st := .free, decl := Decl.reset, placement := 0, scalers := [], poolBytes := 0, dramBlocks := 0, bufs := [],
    staging := [], copying := none, awaiting := none, filling := none, frameSt := .idle, lastFrame := none,
    linesRx := 0, newestClosed := [], fences := [], stale := false, destroyDue := false,
    lateCount := 0 }

/-- An idle group (GROUP_STATE 0). -/
def Group.reset : Group := { armed := false, fences := [], port := .spi, tag := 0, lateRun := false }

def Resident.reset (image : Nat) : Resident := { image := image, good := false, pixels := [] }

/-- No image shown (PAT_SHOWN 0xFF); the resident slots name the default images. -/
def Base.reset : Base :=
  { low := Resident.reset 0, high := Resident.reset 1, fallback := Resident.reset 0, loads := [], ready := none,
    shown := none, image := [], under := [], fadeStep := 0, fadeTotal := 0, weight := 65535, invalid := false }

def Pipe.reset : Pipe :=
  { running := false, mode := 0, nextRow := 0, behind := false, bridgePass := false, expectsChange := false, offset := (0, 0),
    front := [], frontTap := [], back := [], backTap := [], backReady := false, withheld := false, culled := 0,
    parkedWeights := false, dryLayers := [], startAt := 0, rowAt := 0, cover := [], cullCount := 0, frontMx := [],
    backMx := [] }

/-- POOL_FREE 6,291,456 (Table 6-6); 1 GiB of DRAM (log entry 11); scalers 0 to 3 free (R141). -/
def Compose.reset : Compose :=
  { layers := List.replicate 8 Layer.reset, groups := List.replicate 8 Group.reset, early := [],
    bases := both Base.reset, pipes := both Pipe.reset, poolFree := 6291456, dramFree := 16384,
    scalersFree := [0, 1, 2, 3], scalersReturning := [], dramStalled := false, dramRetrain := false, pfSeen := false, pf := 0, dx := 0,
    dy := 0, tableCommit := 0, passParity := false, halfClock := false, thumbFrame := 0 }

def Loaded.reset : Loaded :=
  { entry := 0x7FF, crc := 0, lanes := [], voided := true, wasReset := false, bus := none, cell := none,
    busClosed := true, cellClosed := true }

def MaskBuf.reset : MaskBuf :=
  { front := [], back := [], ready := false, genFront := 0, genBack := 0, sigFront := 0, sigBack := 0, footBack := none, badWords := [] }

/-- SLOT_MASK 0xFFFF_FFFF (Table 5-11); everything else 0 (Tables 8-6, 9-9). -/
def Seq.reset : Seq :=
  { entry := 0, started := false, boundaryOpen := false, resetDue := false, displayed := 0, refreshCount := 0, refreshInCycle := 0,
    refreshInFrame := 0,
    frameDue := false, dither := 0, thumbDue := false, maskInForce := 0xFFFFFFFF, maskRecorded := none, maskFresh := none,
    handedFirst := false, change := .none_, words := both [], inForce := both Lookahead.reset, resetAt := 0, wordMissed := false,
    loading := both none, checking := both none, lastChecked := both Loaded.reset, rxAgg := both [], exAgg := both [],
    checkFailed := both false, ended := both none, endedOk := both none, masks := both MaskBuf.reset, eccWords := [],
    projecting := both false,
    projectedRefresh := both false }

/-- CAM_STATE OFF (R208: CAM_SEL is 0). -/
def Cam.reset : Cam :=
  { state := 0, reference := none, lastValid := 0, validRun := 0, periods := [], winRun := 0, groupIndex := 0, groupReset := false,
    phaseErr := 0, period := 0, freeDue := false, period3 := 1250000 }

/-- Port OFF: supplies and park low, taps 64 (Table 10-11). -/
def MPort.reset : MPort :=
  { state := .off, pwrEn := false, parkN := false, parkFell := 0, fltN := false, pairsOn := false, pwrDwell := false,
    powerUpWanted := false, powerDownWanted := false, cseq := 0, sent := [], arrayId := List.replicate 8 0,
    recordedGeom := none, heldIdent := none, identTries := 0, arrayStatus := 0, spareLane := 0x3F,
    sparePermanent := false, lane32Failed := false, sparePending := none, failedLanes := 0, laneErr := List.replicate 33 0,
    laneHist := List.replicate 32 [],
    loadNo := 0, sweep := [], firstSweep := [], lanesAsked := false, unparkAcked := false,
    orderlyPark := false, queue := [], told := 0x3F, spareAt := none, trial := [], rseq := both 0 }

/-- Table 11-7: INIT with no list seen; no geometry record in force (GEOM_VALID 0, log entry 12). -/
def Shutter.reset : Shutter :=
  { state := .init, listsSeen := 0, newest := none, lastRastered := 0, raster := none, pending := none,
    holdFrom := 0, generation := 0, objectsRastered := 0, listAge := 0xFFFFFFFF,
    geometry := List.replicate 64 0, geomValid := false, footprints := both none, maskSig := both 0, frozen := both 0 }

def Chan.reset : Chan :=
  { fault := 0, latches := [], gatePulled := true, setpoint := 0, current := 0, drain := 0, iSum := 0, iCount := 0,
    iMeas := 0, vfSum := 0, vfCount := 0, vfMeas := 0, vfFails := 0, vfPasses := 0, litTicks := 0, litTime := 0,
    jSum := 0, jCount := 0, pulseOpen := 0, pulseShort := 0, vh := none, pulsing := false, powSum := 0,
    powCount := 0 }

/-- R291: dtj is 0 at BOOT; boost off; T_BOARD at SENSOR_FALLBACK_T until a reading is valid (log entry 13). -/
def LampSide.reset : LampSide :=
  { boost := .off, vout := 0, vfine := 0, vin := 0, iin := 0, vh := 0, vhHeld := true, vhLows := 0, vhSeen := false, vhAbove := false,
    headWon := false,
    softFrom := 0, softTicks := 0, softTarget := 0, r := 0, rRamp := none, rWaits := false, ignited := false, tBoard := 1050,
    tFine := 0, everValid := false, goodReads := 0, substituted := false, dtj := [0, 0, 0],
    tp := [1050, 1050, 1050],
    dt := [65535, 65535, 65535], derated := [false, false, false],
    wc := List.replicate 16 [0, 0, 0], g := [0, 0, 0] }

/-- R299: a source that has produced no valid input since boot is in loss. -/
def DimIn.reset : DimIn := { value := 0, loss := true, validRun := 0, accum := [] }

/-- R283: the enable mask is 0x0FFF; R298: SOURCE 0, LEVEL 65,535. -/
def Lamp.reset : Lamp :=
  { chans := List.replicate 12 Chan.reset, sides := both LampSide.reset, enable := 0xFFF, enableNext := 0xFFF,
    dimSource := 0, dimLevel := 65535, dimPending := none, dimLost := false,
    dimTodo := 0, d := 65535, dRamp := none, pwm := DimIn.reset, ain := DimIn.reset, ainSum := 0,
    ainCount := 0, pwmPeriod := 0, compRejected := both false }

/-- Slot OFF. The record is "fw": loaded when the Miller starts; before that it is held as zeros (log entry 14). -/
def Slot.reset : Slot :=
  { record := List.replicate 64 0, st := .off, u := 0, uStar := 0, i := 0, fb := 0, fbPrev := 0, df := 0, ffPrev := 0,
    sp := 0, misses := 0, outRange := 0, win := [], safeLeft := 0, safeFrom := 0, out := 0, next := none, divided := false,
    evals := 0, seen := 0 }

def Gov.reset : Gov :=
  { slots := List.replicate 48 Slot.reset, winners := List.replicate 8 255, groupOut := List.replicate 8 0, tick := 0,
    zeroNow := both false, wordDue := both false, refreshDue := false, refreshParity := false, sinceReset := 0, aux := [0, 0, 0, 0],
    tpSeq := both 0, tbSeq := both 0, dieSeq := 0 }

def Chain.reset : Chain :=
  { running := false, level := List.replicate 768 0, start := List.replicate 768 0, target := List.replicate 768 0,
    fadeLen := 0, fadeCurve := 0, fadeK := 0, fading := false, commitDue := none, out := [], frameBits := [] }

def MxTarget.reset : MxTarget :=
  { st := .off, lastTe := none, tePeriod := 0, goodTe := 0, syncTime := 0, since := 0 }

def Aux.reset : Aux :=
  { chains := both Chain.reset, targets := List.replicate 4 MxTarget.reset, mxSent := [], scanLineNo := 0,
    scanFrame := 0, scanSource := both [], scanRec := [], scanReady := false }

def SigRect.reset : SigRect :=
  { state := 0, x := 0, y := 0, w := 0, h := 0, expected := 0, value := 0, misses := 0, learnRun := 0, learnTotal := 0,
    learned := false, learnSig := none, refOffset := none, armNext := false }

/-- SNAP_N_EN is 1 (Table 4-10); SAFE_LAMP_N is low (R365). -/
def Saf.reset : Saf :=
  { active := [], listed := [], raiseNo := 0, history := [], reactions := [], safeSides := both false,
    safePending := none, rects := both (List.replicate 16 SigRect.reset), frameSig := both 0,
    frontSig := both 0, frozenPasses := both 0, passSeen := both false, planeAgg := both 0, planeExp := both 0, snapSeq := 0,
    snapCount := 0, lastSrc := 0, snapNEn := true, live := [], held := [], snapHeld := false, safeLamp := false }

def JAcc.reset : JAcc :=
  { refreshes := 0, shortened := false, camLocked := true, withheld := false, stale := false, firstList := false,
    unverified := both 0, newFaults := 0, firstFault := none }

/-- No journal is open (R381: none in BOOT). SEG_ENTRIES is 3,600. -/
def Journal.reset : Journal :=
  { isOpen := false, next := 0, segment := 0, segFirst := 0, segCount := 0, segLimit := 3600, ring := [], pending := [],
    flushing := false, pageFails := 0, lastFlush := 0, seals := [], lost := 0,
    acc := JAcc.reset, closing := false, closed := false,
    lastHoldup := 0 }

/-- A blank 16 MiB NOR (R426; log entry 9): no directory, no mirror, no sets, no image valid, PAT_GEOM 1. -/
def Nor.blank : Nor :=
  { cells := [], density := 0x1000000, dir0 := [], dir1 := [], mirror := [], mirrorArrays := [], mirrorReactions := [],
    geometry := none, geometryCheck := true, calCopies := [none, none], calNextCopy := 0, patGeom := 1,
    patValid := both 0, patCrc := both (List.replicate 16 0), journal := [], holdupMicros := 0 }

def Update.reset : Update :=
  { session := none, size := 0, target := 1, erasing := false, eraseBlock := 0, beginTag := 0, ranges := [],
    restartDue := false, dirWaiting := [] }

def PllSt.reset : PllSt := { locked := false, safeDivide := false, relocking := false, attempts := 0, wanted := false }

/-- The time base starts at 0 (log entry 15); no PLL runs before BOOT (R394). -/
def Clk.reset : Clk :=
  { timeBase := 0, slewLeft := 0, slewCount := 0, plls := List.replicate 3 PllSt.reset, refclkGood := true,
    refclkCount := 800, sticky := 0, pllqFrac := 0, pllqPhase := 0, phaseTarget := 0, sscInForce := 0 }

/-- No conversion yet: T_DIE holds 25.0 °C until the first (log entry 16). -/
def Thm.reset : Thm :=
  { conversions := [], tDie := 250, tDieMax := 250, phase := 0, badRun := 0, goodRun := 16, sensorBad := false,
    stage := 0, hot := false, rcTrim := 0, bandgapT := 250 }

/-- Transmit taps are 64 (Table 10-11). The other corrections are loaded when the Miller starts (R417, R418); before that they
are zeros (log entry 14). -/
def corrReset : List (Int × Int) :=
  (List.range 128).map fun i => if (0x10 ≤ i ∧ i ≤ 0x30) ∨ (0x38 ≤ i ∧ i ≤ 0x58) then (64, 0) else (0, 0)

def Cal.reset : Cal :=
  { run := none, queuedRun := none, inForce := corrReset, sets := [], setSeq := 0,
    norWriteWanted := false, disagreeMap := 0, lastRunT := [250, 250, 250], lastRunTime := [0, 0, 0],
    latestRunT := 250, coveredAdc := none, linkLate := both false, interp := [], calRef := 12500, overRun := 0 }

def Sluice.reset : Sluice := { held := [], queued := [] }

/-- Power-on: RESET_N low (its pull-down holds it), every supply in range (log entry 2), no power-fail warning. -/
def Aon.powerOn : Aon :=
  { resetCause := 0, shutdowns := 0, shutdownT := 0, resetN := false, supplies := List.replicate 11 true,
    warning := false, thermalHold := false, otpRollback := 0, jtagLock := false }

/-- Test-logic reset selects IDCODE (R453). -/
def Jtag.reset : Jtag := { ir := 0x02, dr := 0x1724056B, cells := 0, scanHighZ := false, scanDrive := false }

/-- DEV_STATE of Table 4-4 with STATE RESET (R87: ACTIVE_CL 0x0001, every other field 0). -/
def Core.reset : Core :=
  { state := .reset, acornService := false, beamReady := false, modeValid := false, mode := 0, baseMode := 1,
    activeCl := 1, stateTime := 0, lastCause := 0, fwVersion := 0, image := 0xFF, imageSvn := 0, bootStatus := 3,
    bootTime := 0, bootFirst := 0, trialRun := false, rampingDown := false, testEnded := false, releaseStage := 0, announce := none }

def Prm.reset : Prm := { vals := [], arrays := [], staged := [], stagedArrays := [] }

/-- Everything that a reset puts back, with a blank NOR and unprogrammed retained registers. -/
def Dev.cold : Dev :=
  { variant := .cx7240, aon := Aon.powerOn, core := Core.reset, prm := Prm.reset, clk := Clk.reset, thm := Thm.reset,
    sluice := Sluice.reset, host := HostUnit.reset, veh := Veh.reset, req := BeamReq.reset, links := both Link.reset,
    cmp := Compose.reset, seq := Seq.reset, cam := Cam.reset, ports := both MPort.reset, sht := Shutter.reset,
    lamp := Lamp.reset, gov := Gov.reset, aux := Aux.reset, saf := Saf.reset, jnl := Journal.reset, nor := Nor.blank,
    upd := Update.reset, cal := Cal.reset, jtag := Jtag.reset, freeCount := 0 }

/-- The machine right after power-on: a CX7240 (log entry 1) in RESET with RESET_N asserted (log entry 2) and no command
waiting. -/
def State.reset : State := { dev := Dev.cold, pending := [] }

end Sys2Proof.Machine
end

