-- ==== Sys2Proof/Machine/ParamTable.lean ====
section
/-! DEFINITION. The parameters of every unit, row by row from the manual's parameter tables (Tables 2-17, 3-11, 4-18, 5-11,
6-14, 7-6, 8-6, 9-9, 10-11, 11-9, 12-9, 13-9, 14-8, 15-6, 16-5, 17-9, 18-5 and 19-9). A key is unit << 24 | number; a
PARAM_ID is the key plus instance << 16 (R112). -/

namespace Sys2Proof.Machine

/-- The types of Table 5-3; a byte array with its largest size. -/
inductive PTy where
  | u8
  | s8
  | u16
  | s16
  | u32
  | s32
  | u64
  | bytes (n : Nat)
deriving DecidableEq, Repr

/-- What a parameter's instance numbers name. -/
inductive Insts where
  | none_
  | lane
  | port
  | bellPort
  | layer
  | group
  | tint
  | side
  | lut
  | mode
  | chan
  | slot
  | loopGroup
  | pwm
  | target
  | pll
  | stage
  | scope
  | op
deriving DecidableEq, Repr

/-- How a parameter is held: a setting; a counter, to which only 0 may be written (R106); a value kept by the block and
read-only; a value read from the block's state and read-only; or a write-only action. -/
inductive PKind where
  | setting
  | counter
  | stored
  | computed
  | action
deriving DecidableEq, Repr

/-- When a written value applies. -/
inductive Apply where
  | now
  /-- next commit of the layer's group (R143, R189) -/
  | commit
  /-- next compose-frame start (R189) -/
  | composeStart
  /-- the TABLE_COMMIT that names it (R188) -/
  | tableCommit
  /-- next EYE or TRAIN of a link (R58), next training of a port (R256) -/
  | training
  /-- next start of the boost (R296) -/
  | boostStart
  /-- next raster (R278) -/
  | raster
  /-- next refresh boundary (R211, R235, R287, R288) -/
  | refresh
  /-- next bus idle (R106) -/
  | canIdle
  /-- next segment (R382) -/
  | segment
  /-- next chain frame or SEG_COMMIT (R335, R337) -/
  | frame
deriving DecidableEq, Repr

/-- One row of a parameter table. `writers` has bit 0 for class V, 1 for B, 2 for M and 3 for D; `standby` marks a
parameter that may be written only in STANDBY, and `mirrored` one that is mirrored to NOR. -/
structure ParamRow where
  num : Nat
  name : String
  ty : PTy
  insts : Insts
  lo : Int
  hi : Int
  dflt : Int
  writers : Nat
  kind : PKind
  apply : Apply
  standby : Bool
  mirrored : Bool
deriving DecidableEq, Repr

/-! ### Keys -/

def kLnkMaxRate : Nat := 0x01000001
def kLnkRate : Nat := 0x01000002
def kLnkLinkState : Nat := 0x01000003
def kLnkLaneMap : Nat := 0x01000004
def kLnkEqMode : Nat := 0x01000005
def kLnkFixedPreset : Nat := 0x01000006
def kLnkDfeAdapt : Nat := 0x01000007
def kLnkL1Allowed : Nat := 0x01000008
def kLnkLaneErrLimit : Nat := 0x01000009
def kLnkRecoveryRetry : Nat := 0x0100000A
def kLnkEyeMinWidth : Nat := 0x0100000B
def kLnkEyeMinHeight : Nat := 0x0100000C
def kLnkBackDeemph : Nat := 0x0100000D
def kLnkRetrain : Nat := 0x0100000E
def kLnkRecoveryCount : Nat := 0x01000010
def kLnkTrainFailCount : Nat := 0x01000011
def kLnkL1Violation : Nat := 0x01000012
def kLnkCodeErr : Nat := 0x01000020
def kLnkLosCount : Nat := 0x01000021
def kLnkLolCount : Nat := 0x01000022
def kLnkEyeWidth : Nat := 0x01000023
def kLnkEyeHeight : Nat := 0x01000024
def kLnkTxCoeff : Nat := 0x01000025
def kLnkCtle : Nat := 0x01000026
def kLnkLaneStatus : Nat := 0x01000027
def kLnkThumbEn : Nat := 0x01000040
def kLnkStatEn : Nat := 0x01000041
def kLnkSyncAccept : Nat := 0x01000042
def kLnkSyncDelay : Nat := 0x01000043
def kLnkHcrcErr : Nat := 0x01000050
def kLnkDcrcErr : Nat := 0x01000051
def kLnkFormatErr : Nat := 0x01000052
def kLnkVc1NakTx : Nat := 0x01000053
def kLnkVc1ReplayTx : Nat := 0x01000054
def kLnkVc1CreditViol : Nat := 0x01000055
def kLnkVc2RetryRx : Nat := 0x01000056
def kLnkObjSuperseded : Nat := 0x01000057
def kLnkLineDiscard : Nat := 0x01000058
def kLnkFrameEndMissing : Nat := 0x01000059
def kLnkFrameStartMissing : Nat := 0x0100005A
def kLnkSyncReject : Nat := 0x0100005B
def kLnkVc0Overflow : Nat := 0x0100005C
def kHostCanDataRate : Nat := 0x03000001
def kHostCanCmdId : Nat := 0x03000002
def kHostCanRspId : Nat := 0x03000003
def kHostCanEvtId : Nat := 0x03000004
def kHostVehBeamId : Nat := 0x03000005
def kHostVehMotionId : Nat := 0x03000006
def kHostVehTimeId : Nat := 0x03000007
def kHostVehTimeout : Nat := 0x03000008
def kHostTimeSource : Nat := 0x03000009
def kHostCanTimeDelay : Nat := 0x0300000A
def kHostEvtSubscribe : Nat := 0x03000010
def kHostEvtLost : Nat := 0x03000011
def kHostTagConflict : Nat := 0x03000012
def kHostDoorbellViol : Nat := 0x03000013
def kHostSpiErrCount : Nat := 0x03000014
def kHostCanBusOffCount : Nat := 0x03000015
def kDevDefaultMode : Nat := 0x00000001
def kDevBeamSource : Nat := 0x00000002
def kDevVehLossBeam : Nat := 0x00000003
def kDevBeamReq : Nat := 0x00000004
def kDevSlotMask : Nat := 0x00000005
def kDevRefreshCount : Nat := 0x00000006
def kDevStateTime : Nat := 0x00000007
def kDevLastCause : Nat := 0x00000008
def kDevModeChanges : Nat := 0x00000009
def kPlcLayerState : Nat := 0x04000001
def kPlcPlacement : Nat := 0x04000002
def kPlcScalers : Nat := 0x04000003
def kPlcPos : Nat := 0x04000004
def kPlcOutSize : Nat := 0x04000005
def kPlcLayerTint : Nat := 0x04000006
def kPlcLayerIntensity : Nat := 0x04000007
def kPlcChromaTint : Nat := 0x04000008
def kPlcYcRange : Nat := 0x04000009
def kPlcPalette : Nat := 0x0400000A
def kPlcDispFrame : Nat := 0x0400000B
def kPlcRetiredFrame : Nat := 0x0400000C
def kPlcRetireEvt : Nat := 0x0400000D
def kPlcRowsFilled : Nat := 0x0400000E
def kPlcFramesSuperseded : Nat := 0x0400000F
def kPlcStaleFrames : Nat := 0x04000010
def kPlcLate : Nat := 0x04000020
def kPlcCommits : Nat := 0x04000021
def kPlcGroupState : Nat := 0x04000022
def kPlcPoolFree : Nat := 0x04000030
def kPlcMillpondMaxBuf : Nat := 0x04000031
def kPlcDramFree : Nat := 0x04000032
def kPlcFenceDrop : Nat := 0x04000033
def kPlcScalerFree : Nat := 0x04000034
def kPlcTintRef : Nat := 0x04000035
def kPlcChromaMin : Nat := 0x04000036
def kPlcPatLow : Nat := 0x04000040
def kPlcPatHigh : Nat := 0x04000041
def kPlcPatFallback : Nat := 0x04000042
def kPlcPatXfadeMs : Nat := 0x04000043
def kPlcPatGeom : Nat := 0x04000044
def kPlcPatValid : Nat := 0x04000045
def kPlcPatCtrl : Nat := 0x04000046
def kPlcPatStage : Nat := 0x04000047
def kPlcPatCrc : Nat := 0x04000048
def kPlcPatShown : Nat := 0x04000049
def kCmpBlendMode : Nat := 0x05000001
def kCmpLayerAlpha : Nat := 0x05000002
def kCmpScalerFilter : Nat := 0x05000003
def kCmpTintThresh : Nat := 0x05000004
def kCmpPreLut : Nat := 0x05000010
def kCmpPostLut : Nat := 0x05000011
def kCmpGainMap : Nat := 0x05000012
def kCmpOvlRamp : Nat := 0x05000013
def kCmpTableCommit : Nat := 0x05000014
def kCmpCoefV : Nat := 0x05000015
def kCmpCoefH : Nat := 0x05000016
def kCmpFetchWm : Nat := 0x05000020
def kCmpUnderrun : Nat := 0x05000021
def kCmpComposeMiss : Nat := 0x05000022
def kCmpCatchup : Nat := 0x05000023
def kCmpCulledTiles : Nat := 0x05000024
def kCmpLevelPpd : Nat := 0x05000030
def kCmpLevelTau : Nat := 0x05000031
def kCmpBendSource : Nat := 0x05000032
def kCmpBendGain : Nat := 0x05000033
def kCmpLevelMax : Nat := 0x05000034
def kCmpBendMax : Nat := 0x05000035
def kCmpOffsetSlew : Nat := 0x05000036
def kCmpOffset : Nat := 0x05000037
def kCmpThumbCurve : Nat := 0x05000040
def kMstModeInfo : Nat := 0x06000040
def kMstBaseMode : Nat := 0x06000041
def kMstCamSel : Nat := 0x06000042
def kMstCamEdge : Nat := 0x06000043
def kMstCamRatio : Nat := 0x06000044
def kMstCamOffset : Nat := 0x06000045
def kMstCamLockWin : Nat := 0x06000046
def kMstCamTimeout : Nat := 0x06000047
def kMstCamState : Nat := 0x06000048
def kMstCamFlags : Nat := 0x06000049
def kMstCamPeriod : Nat := 0x0600004A
def kMstCamPhaseErr : Nat := 0x0600004B
def kMstCamRangeErr : Nat := 0x0600004C
def kMstBridgeExtend : Nat := 0x0600004D
def kMstFlatLevel : Nat := 0x0600004E
def kMstFlatMap : Nat := 0x0600004F
def kMstCheckCell : Nat := 0x06000050
def kMstSeqImage : Nat := 0x06000001
def kMstEntryNow : Nat := 0x06000002
def kMstDitherPhase : Nat := 0x06000003
def kMstDitherEn : Nat := 0x06000004
def kMstMaskGen : Nat := 0x06000005
def kMstMaskExchanges : Nat := 0x06000006
def kMstCamwStart : Nat := 0x06000007
def kMstCamwLen : Nat := 0x06000008
def kMstSeqEccCorr : Nat := 0x06000009
def kMstPlaneEcc : Nat := 0x0600000A
def kMstPlaneVoid : Nat := 0x0600000B
def kMptPortState : Nat := 0x07000001
def kMptArrayId : Nat := 0x07000002
def kMptArrayStatus : Nat := 0x07000003
def kMptSpareMap : Nat := 0x07000004
def kMptLaneFailed : Nat := 0x07000005
def kMptTxTap : Nat := 0x07000006
def kMptRbTap : Nat := 0x07000007
def kMptEyeMin : Nat := 0x07000008
def kMptPairErrLimit : Nat := 0x07000009
def kMptBusCrcErr : Nat := 0x07000010
def kMptCellCrcErr : Nat := 0x07000011
def kMptRbTimeout : Nat := 0x07000012
def kMptCmdErr : Nat := 0x07000013
def kMptLaneErr : Nat := 0x07000014
def kMptFltCount : Nat := 0x07000015
def kShtStaleMs : Nat := 0x08000001
def kShtStaleAction : Nat := 0x08000002
def kShtStaleHoldMs : Nat := 0x08000003
def kShtEmitLead : Nat := 0x08000004
def kShtRepredictMs : Nat := 0x08000005
def kShtPredMax : Nat := 0x08000006
def kShtConfMin : Nat := 0x08000007
def kShtClassMargin : Nat := 0x08000010
def kShtCutoffEl : Nat := 0x08000011
def kShtCutoffRise : Nat := 0x08000012
def kShtKinkAz : Nat := 0x08000013
def kShtTrafficSide : Nat := 0x08000014
def kShtCutoffSoft : Nat := 0x08000015
def kShtGeometry : Nat := 0x08000020
def kShtGeomValid : Nat := 0x08000021
def kShtShtState : Nat := 0x08000022
def kShtListsSeen : Nat := 0x08000023
def kShtListAge : Nat := 0x08000024
def kShtRasterTimeMax : Nat := 0x08000025
def kShtListsAccepted : Nat := 0x08000030
def kShtListsSkipped : Nat := 0x08000031
def kShtListFormatErr : Nat := 0x08000032
def kShtListTimeErr : Nat := 0x08000033
def kShtListTooOld : Nat := 0x08000034
def kShtObjInvalid : Nat := 0x08000035
def kShtObjIgnored : Nat := 0x08000036
def kShtStaleEntries : Nat := 0x08000037
def kShtRasterTimeout : Nat := 0x08000038
def kLmpChCfg : Nat := 0x0A000001
def kLmpINom : Nat := 0x0A000002
def kLmpILimit : Nat := 0x0A000003
def kLmpShunt : Nat := 0x0A000004
def kLmpVfNom : Nat := 0x0A000005
def kLmpVfTc : Nat := 0x0A000006
def kLmpChState : Nat := 0x0A000007
def kLmpChFault : Nat := 0x0A000008
def kLmpIMeas : Nat := 0x0A000009
def kLmpVfMeas : Nat := 0x0A00000A
def kLmpLitTime : Nat := 0x0A00000B
def kLmpDiagPulses : Nat := 0x0A00000C
def kLmpMixTable : Nat := 0x0A000020
def kLmpCompTable : Nat := 0x0A000021
def kLmpJmodel : Nat := 0x0A000022
def kLmpSensorSel : Nat := 0x0A000023
def kLmpNtcCfg : Nat := 0x0A000024
def kLmpI2cSensor : Nat := 0x0A000025
def kLmpSensorFallbackT : Nat := 0x0A000026
def kLmpTBoard : Nat := 0x0A000027
def kLmpTJunction : Nat := 0x0A000028
def kLmpTjDerate : Nat := 0x0A000029
def kLmpTjLimit : Nat := 0x0A00002A
def kLmpDerateFloor : Nat := 0x0A00002B
def kLmpHeadroom : Nat := 0x0A00002C
def kLmpBstFsw : Nat := 0x0A00002D
def kLmpBstOv : Nat := 0x0A00002E
def kLmpBstIinLimit : Nat := 0x0A00002F
def kLmpBstUv : Nat := 0x0A000030
def kLmpFbDiv : Nat := 0x0A000031
def kLmpVinDiv : Nat := 0x0A000032
def kLmpBstRsense : Nat := 0x0A000033
def kLmpPshortDv : Nat := 0x0A000034
def kLmpDiagI : Nat := 0x0A000035
def kLmpBstState : Nat := 0x0A000036
def kLmpVout : Nat := 0x0A000037
def kLmpVin : Nat := 0x0A000038
def kLmpBstOvTrips : Nat := 0x0A000039
def kLmpDimLevel : Nat := 0x0A000040
def kLmpDimSource : Nat := 0x0A000041
def kLmpDimFallback : Nat := 0x0A000042
def kLmpDimRampMs : Nat := 0x0A000043
def kLmpAinLo : Nat := 0x0A000044
def kLmpAinHi : Nat := 0x0A000045
def kLmpDimPwmPeriod : Nat := 0x0A000046
def kLmpEnableMask : Nat := 0x0A000047
def kLmpRampSettings : Nat := 0x0A000048
def kGovSlot : Nat := 0x09000001
def kGovSlotState : Nat := 0x09000002
def kGovSlotOut : Nat := 0x09000003
def kGovSlotInt : Nat := 0x09000004
def kGovSlotFb : Nat := 0x09000005
def kGovSlotSp : Nat := 0x09000006
def kGovSampleMiss : Nat := 0x09000007
def kGovMissLimit : Nat := 0x09000008
def kGovGroupWinner : Nat := 0x09000010
def kGovTakeovers : Nat := 0x09000011
def kGovTrackMargin : Nat := 0x09000012
def kGovGroupMembers : Nat := 0x09000013
def kGovGateVt : Nat := 0x09000020
def kGovGateGm : Nat := 0x09000021
def kGovGovLoad : Nat := 0x09000030
def kGovLookaheadMiss : Nat := 0x09000031
def kGovPwmCfg : Nat := 0x09000032
def kGovGovEccCorr : Nat := 0x09000033
def kAuxSegCount : Nat := 0x0B000001
def kAuxSegPeriod : Nat := 0x0B000002
def kAuxSegLevel : Nat := 0x0B000003
def kAuxSegCommit : Nat := 0x0B000004
def kAuxSegDimFollow : Nat := 0x0B000005
def kAuxSegSafeAction : Nat := 0x0B000006
def kAuxSegOut : Nat := 0x0B000007
def kAuxSegFrames : Nat := 0x0B000008
def kAuxMxClass : Nat := 0x0B000020
def kAuxMxTarget : Nat := 0x0B000021
def kAuxMxScan : Nat := 0x0B000022
def kAuxTintRgb : Nat := 0x0B000023
def kAuxMxCurve : Nat := 0x0B000024
def kAuxMxTeTimeout : Nat := 0x0B000025
def kAuxMxTargetState : Nat := 0x0B000026
def kAuxMxTePeriod : Nat := 0x0B000027
def kAuxMxSkip : Nat := 0x0B000028
def kAuxMxFrames : Nat := 0x0B000029
def kSafFaultActive : Nat := 0x0C000001
def kSafFaultClear : Nat := 0x0C000002
def kSafReactionSet : Nat := 0x0C000003
def kSafReactions : Nat := 0x0C000004
def kSafBeamLossPct : Nat := 0x0C000005
def kSafEscCount : Nat := 0x0C000006
def kSafFaultOverflow : Nat := 0x0C000007
def kSafSigState : Nat := 0x0C000010
def kSafSigValue : Nat := 0x0C000011
def kSafSigExpected : Nat := 0x0C000012
def kSafSigLimit : Nat := 0x0C000013
def kSafLearnPasses : Nat := 0x0C000014
def kSafSigMismatchCount : Nat := 0x0C000015
def kSafSigWithheld : Nat := 0x0C000016
def kSafFreezeN : Nat := 0x0C000020
def kSafFreezeNMask : Nat := 0x0C000021
def kSafFreezeWatch : Nat := 0x0C000022
def kSafFrameSig : Nat := 0x0C000023
def kSafMaskSig : Nat := 0x0C000024
def kSafPlaneAgg : Nat := 0x0C000030
def kSafRefreshCheckFail : Nat := 0x0C000031
def kSafSnapRelease : Nat := 0x0C000040
def kSafSnapHeld : Nat := 0x0C000041
def kSafSnapSeq : Nat := 0x0C000042
def kJnlEntryNext : Nat := 0x0D000001
def kJnlSegment : Nat := 0x0D000002
def kJnlSegEntries : Nat := 0x0D000003
def kJnlNorOldest : Nat := 0x0D000004
def kJnlPending : Nat := 0x0D000005
def kJnlJnlLost : Nat := 0x0D000006
def kJnlNorFails : Nat := 0x0D000007
def kJnlPfwSource : Nat := 0x0D000008
def kJnlPfwThresh : Nat := 0x0D000009
def kJnlVbatDiv : Nat := 0x0D00000A
def kJnlLastHoldup : Nat := 0x0D00000B
def kClkClkStatus : Nat := 0x0E000001
def kClkClkSticky : Nat := 0x0E000002
def kClkLockCycles : Nat := 0x0E000003
def kClkSscMode : Nat := 0x0E000004
def kClkPllqFrac : Nat := 0x0E000005
def kClkPllqPhase : Nat := 0x0E000006
def kClkRefclkCount : Nat := 0x0E000007
def kClkLossCount : Nat := 0x0E000008
def kClkRelockFail : Nat := 0x0E000009
def kClkRefclkLossCount : Nat := 0x0E00000A
def kThmTDie : Nat := 0x0F000001
def kThmTDieMax : Nat := 0x0F000002
def kThmStage : Nat := 0x0F000003
def kThmStageEntries : Nat := 0x0F000004
def kThmShutdowns : Nat := 0x0F000005
def kThmShutdownT : Nat := 0x0F000006
def kThmRcTrim : Nat := 0x0F000007
def kCalCalDeltaT : Nat := 0x10000001
def kCalCalAuto : Nat := 0x10000002
def kCalCalState : Nat := 0x10000003
def kCalLastRunT : Nat := 0x10000004
def kCalLastRunTime : Nat := 0x10000005
def kCalCalSets : Nat := 0x10000006
def kCalCalInForce : Nat := 0x10000007
def kCalCalDisagreeMap : Nat := 0x10000008
def kCalCalRuns : Nat := 0x10000009
def kCalCalDisagreeCount : Nat := 0x1000000A
def kCalCalSkipped : Nat := 0x1000000B
def kPwrResetCause : Nat := 0x11000001
def kPwrBootStatus : Nat := 0x11000002
def kPwrBootTime : Nat := 0x11000003
def kPwrDirectory : Nat := 0x11000004
def kPwrSupplyStatus : Nat := 0x11000005
def kPwrCoreBudget : Nat := 0x11000010
def kPwrLampBudget : Nat := 0x11000011
def kPwrIgnLampMa : Nat := 0x11000012
def kPwrQueueMax : Nat := 0x11000013
def kPwrTicketsHeld : Nat := 0x11000014
def kPwrTicketsQueued : Nat := 0x11000015
def kPwrGrants : Nat := 0x11000016
def kPwrDenials : Nat := 0x11000017
def kPwrOverruns : Nat := 0x11000018

/-! ### Rows -/

def paramsDev : List ParamRow := [
  ⟨0x0001, "DEFAULT_MODE", .u8, .none_, 0, 31, 1, 12, .setting, .now, false, true⟩,
  ⟨0x0002, "BEAM_SOURCE", .u8, .none_, 0, 2, 2, 12, .setting, .now, false, false⟩,
  ⟨0x0003, "VEH_LOSS_BEAM", .u8, .none_, 0, 1, 1, 12, .setting, .now, false, false⟩,
  ⟨0x0004, "BEAM_REQ", .u8, .none_, 0, 3, 0, 0, .computed, .now, false, false⟩,
  ⟨0x0005, "SLOT_MASK", .u32, .none_, 0, 4294967295, 4294967295, 0, .computed, .now, false, false⟩,
  ⟨0x0006, "REFRESH_COUNT", .u32, .none_, 0, 4294967295, 0, 0, .computed, .now, false, false⟩,
  ⟨0x0007, "STATE_TIME", .u64, .none_, 0, 18446744073709551615, 0, 0, .computed, .now, false, false⟩,
  ⟨0x0008, "LAST_CAUSE", .u16, .none_, 0, 65535, 0, 0, .computed, .now, false, false⟩,
  ⟨0x0009, "MODE_CHANGES", .u32, .none_, 0, 4294967295, 0, 0, .stored, .now, false, false⟩]

def paramsLnk0_a : List ParamRow := [
  ⟨0x0001, "MAX_RATE", .u8, .none_, 1, 4, 4, 12, .setting, .now, false, false⟩,
  ⟨0x0002, "RATE", .u8, .none_, 0, 4, 0, 0, .computed, .now, false, false⟩,
  ⟨0x0003, "LINK_STATE", .u8, .none_, 0, 10, 0, 0, .computed, .now, false, false⟩,
  ⟨0x0004, "LANE_MAP", .u16, .none_, 0, 65535, 18056, 0, .computed, .now, false, false⟩,
  ⟨0x0005, "EQ_MODE", .u8, .none_, 0, 1, 0, 12, .setting, .training, false, false⟩,
  ⟨0x0006, "FIXED_PRESET", .u8, .none_, 0, 7, 4, 12, .setting, .training, false, false⟩,
  ⟨0x0007, "DFE_ADAPT", .u8, .none_, 0, 1, 1, 12, .setting, .now, false, false⟩,
  ⟨0x0008, "L1_ALLOWED", .u8, .none_, 0, 1, 1, 13, .setting, .now, false, false⟩,
  ⟨0x0009, "LANE_ERR_LIMIT", .u16, .none_, 1, 65535, 16, 12, .setting, .now, false, false⟩,
  ⟨0x000A, "RECOVERY_RETRY", .u8, .none_, 1, 4, 2, 12, .setting, .now, false, false⟩,
  ⟨0x000B, "EYE_MIN_WIDTH", .u8, .none_, 8, 48, 22, 12, .setting, .training, false, false⟩,
  ⟨0x000C, "EYE_MIN_HEIGHT", .u8, .none_, 10, 100, 30, 12, .setting, .training, false, false⟩,
  ⟨0x000D, "BACK_DEEMPH", .u8, .none_, 0, 2, 1, 12, .setting, .now, false, false⟩,
  ⟨0x000E, "RETRAIN", .u8, .none_, 1, 2, 0, 12, .action, .now, false, false⟩,
  ⟨0x0010, "RECOVERY_COUNT", .u16, .none_, 0, 65535, 0, 0, .stored, .now, false, false⟩,
  ⟨0x0011, "TRAIN_FAIL_COUNT", .u16, .none_, 0, 65535, 0, 0, .stored, .now, false, false⟩,
  ⟨0x0012, "L1_VIOLATION", .u16, .none_, 0, 65535, 0, 0, .stored, .now, false, false⟩,
  ⟨0x0020, "CODE_ERR", .u32, .lane, 0, 4294967295, 0, 12, .counter, .now, false, false⟩,
  ⟨0x0021, "LOS_COUNT", .u16, .lane, 0, 65535, 0, 0, .stored, .now, false, false⟩,
  ⟨0x0022, "LOL_COUNT", .u16, .lane, 0, 65535, 0, 0, .stored, .now, false, false⟩,
  ⟨0x0023, "EYE_WIDTH", .u8, .lane, 0, 64, 0, 0, .stored, .now, false, false⟩,
  ⟨0x0024, "EYE_HEIGHT", .u8, .lane, 0, 255, 0, 0, .stored, .now, false, false⟩,
  ⟨0x0025, "TX_COEFF", .u16, .lane, 0, 65535, 0, 0, .stored, .now, false, false⟩,
  ⟨0x0026, "CTLE", .u8, .lane, 0, 15, 0, 0, .stored, .now, false, false⟩,
  ⟨0x0027, "LANE_STATUS", .u8, .lane, 0, 3, 0, 0, .computed, .now, false, false⟩,
  ⟨0x0040, "THUMB_EN", .u8, .none_, 0, 1, 1, 13, .setting, .now, false, false⟩,
  ⟨0x0041, "STAT_EN", .u8, .none_, 0, 1, 1, 13, .setting, .now, false, false⟩,
  ⟨0x0042, "SYNC_ACCEPT", .u8, .none_, 0, 1, 1, 12, .setting, .now, false, false⟩,
  ⟨0x0043, "SYNC_DELAY", .u16, .none_, 0, 10000, 0, 12, .setting, .now, false, false⟩,
  ⟨0x0050, "HCRC_ERR", .u32, .none_, 0, 4294967295, 0, 12, .counter, .now, false, false⟩]

def paramsLnk0_b : List ParamRow := [
  ⟨0x0051, "DCRC_ERR", .u32, .none_, 0, 4294967295, 0, 12, .counter, .now, false, false⟩,
  ⟨0x0052, "FORMAT_ERR", .u32, .none_, 0, 4294967295, 0, 12, .counter, .now, false, false⟩,
  ⟨0x0053, "VC1_NAK_TX", .u32, .none_, 0, 4294967295, 0, 12, .counter, .now, false, false⟩,
  ⟨0x0054, "VC1_REPLAY_TX", .u32, .none_, 0, 4294967295, 0, 12, .counter, .now, false, false⟩,
  ⟨0x0055, "VC1_CREDIT_VIOL", .u32, .none_, 0, 4294967295, 0, 12, .counter, .now, false, false⟩,
  ⟨0x0056, "VC2_RETRY_RX", .u32, .none_, 0, 4294967295, 0, 12, .counter, .now, false, false⟩,
  ⟨0x0057, "OBJ_SUPERSEDED", .u32, .none_, 0, 4294967295, 0, 12, .counter, .now, false, false⟩,
  ⟨0x0058, "LINE_DISCARD", .u32, .none_, 0, 4294967295, 0, 12, .counter, .now, false, false⟩,
  ⟨0x0059, "FRAME_END_MISSING", .u32, .none_, 0, 4294967295, 0, 12, .counter, .now, false, false⟩,
  ⟨0x005A, "FRAME_START_MISSING", .u32, .none_, 0, 4294967295, 0, 12, .counter, .now, false, false⟩,
  ⟨0x005B, "SYNC_REJECT", .u32, .none_, 0, 4294967295, 0, 12, .counter, .now, false, false⟩,
  ⟨0x005C, "VC0_OVERFLOW", .u32, .none_, 0, 4294967295, 0, 12, .counter, .now, false, false⟩]

def paramsLnk0 : List ParamRow := paramsLnk0_a ++ paramsLnk0_b

def paramsLnk1_a : List ParamRow := [
  ⟨0x0001, "MAX_RATE", .u8, .none_, 1, 4, 4, 12, .setting, .now, false, false⟩,
  ⟨0x0002, "RATE", .u8, .none_, 0, 4, 0, 0, .computed, .now, false, false⟩,
  ⟨0x0003, "LINK_STATE", .u8, .none_, 0, 10, 0, 0, .computed, .now, false, false⟩,
  ⟨0x0004, "LANE_MAP", .u16, .none_, 0, 65535, 18056, 0, .computed, .now, false, false⟩,
  ⟨0x0005, "EQ_MODE", .u8, .none_, 0, 1, 0, 12, .setting, .training, false, false⟩,
  ⟨0x0006, "FIXED_PRESET", .u8, .none_, 0, 7, 4, 12, .setting, .training, false, false⟩,
  ⟨0x0007, "DFE_ADAPT", .u8, .none_, 0, 1, 1, 12, .setting, .now, false, false⟩,
  ⟨0x0008, "L1_ALLOWED", .u8, .none_, 0, 1, 1, 13, .setting, .now, false, false⟩,
  ⟨0x0009, "LANE_ERR_LIMIT", .u16, .none_, 1, 65535, 16, 12, .setting, .now, false, false⟩,
  ⟨0x000A, "RECOVERY_RETRY", .u8, .none_, 1, 4, 2, 12, .setting, .now, false, false⟩,
  ⟨0x000B, "EYE_MIN_WIDTH", .u8, .none_, 8, 48, 22, 12, .setting, .training, false, false⟩,
  ⟨0x000C, "EYE_MIN_HEIGHT", .u8, .none_, 10, 100, 30, 12, .setting, .training, false, false⟩,
  ⟨0x000D, "BACK_DEEMPH", .u8, .none_, 0, 2, 1, 12, .setting, .now, false, false⟩,
  ⟨0x000E, "RETRAIN", .u8, .none_, 1, 2, 0, 12, .action, .now, false, false⟩,
  ⟨0x0010, "RECOVERY_COUNT", .u16, .none_, 0, 65535, 0, 0, .stored, .now, false, false⟩,
  ⟨0x0011, "TRAIN_FAIL_COUNT", .u16, .none_, 0, 65535, 0, 0, .stored, .now, false, false⟩,
  ⟨0x0012, "L1_VIOLATION", .u16, .none_, 0, 65535, 0, 0, .stored, .now, false, false⟩,
  ⟨0x0020, "CODE_ERR", .u32, .lane, 0, 4294967295, 0, 12, .counter, .now, false, false⟩,
  ⟨0x0021, "LOS_COUNT", .u16, .lane, 0, 65535, 0, 0, .stored, .now, false, false⟩,
  ⟨0x0022, "LOL_COUNT", .u16, .lane, 0, 65535, 0, 0, .stored, .now, false, false⟩,
  ⟨0x0023, "EYE_WIDTH", .u8, .lane, 0, 64, 0, 0, .stored, .now, false, false⟩,
  ⟨0x0024, "EYE_HEIGHT", .u8, .lane, 0, 255, 0, 0, .stored, .now, false, false⟩,
  ⟨0x0025, "TX_COEFF", .u16, .lane, 0, 65535, 0, 0, .stored, .now, false, false⟩,
  ⟨0x0026, "CTLE", .u8, .lane, 0, 15, 0, 0, .stored, .now, false, false⟩,
  ⟨0x0027, "LANE_STATUS", .u8, .lane, 0, 3, 0, 0, .computed, .now, false, false⟩,
  ⟨0x0040, "THUMB_EN", .u8, .none_, 0, 1, 0, 13, .setting, .now, false, false⟩,
  ⟨0x0041, "STAT_EN", .u8, .none_, 0, 1, 1, 13, .setting, .now, false, false⟩,
  ⟨0x0042, "SYNC_ACCEPT", .u8, .none_, 0, 1, 0, 12, .setting, .now, false, false⟩,
  ⟨0x0043, "SYNC_DELAY", .u16, .none_, 0, 10000, 0, 12, .setting, .now, false, false⟩,
  ⟨0x0050, "HCRC_ERR", .u32, .none_, 0, 4294967295, 0, 12, .counter, .now, false, false⟩]

def paramsLnk1_b : List ParamRow := [
  ⟨0x0051, "DCRC_ERR", .u32, .none_, 0, 4294967295, 0, 12, .counter, .now, false, false⟩,
  ⟨0x0052, "FORMAT_ERR", .u32, .none_, 0, 4294967295, 0, 12, .counter, .now, false, false⟩,
  ⟨0x0053, "VC1_NAK_TX", .u32, .none_, 0, 4294967295, 0, 12, .counter, .now, false, false⟩,
  ⟨0x0054, "VC1_REPLAY_TX", .u32, .none_, 0, 4294967295, 0, 12, .counter, .now, false, false⟩,
  ⟨0x0055, "VC1_CREDIT_VIOL", .u32, .none_, 0, 4294967295, 0, 12, .counter, .now, false, false⟩,
  ⟨0x0056, "VC2_RETRY_RX", .u32, .none_, 0, 4294967295, 0, 12, .counter, .now, false, false⟩,
  ⟨0x0057, "OBJ_SUPERSEDED", .u32, .none_, 0, 4294967295, 0, 12, .counter, .now, false, false⟩,
  ⟨0x0058, "LINE_DISCARD", .u32, .none_, 0, 4294967295, 0, 12, .counter, .now, false, false⟩,
  ⟨0x0059, "FRAME_END_MISSING", .u32, .none_, 0, 4294967295, 0, 12, .counter, .now, false, false⟩,
  ⟨0x005A, "FRAME_START_MISSING", .u32, .none_, 0, 4294967295, 0, 12, .counter, .now, false, false⟩,
  ⟨0x005B, "SYNC_REJECT", .u32, .none_, 0, 4294967295, 0, 12, .counter, .now, false, false⟩,
  ⟨0x005C, "VC0_OVERFLOW", .u32, .none_, 0, 4294967295, 0, 12, .counter, .now, false, false⟩]

def paramsLnk1 : List ParamRow := paramsLnk1_a ++ paramsLnk1_b

def paramsHost : List ParamRow := [
  ⟨0x0001, "CAN_DATA_RATE", .u8, .none_, 2, 5, 2, 12, .setting, .canIdle, false, false⟩,
  ⟨0x0002, "CAN_CMD_ID", .u32, .none_, 0, 4294967295, 1696, 12, .setting, .canIdle, false, false⟩,
  ⟨0x0003, "CAN_RSP_ID", .u32, .none_, 0, 4294967295, 1697, 12, .setting, .canIdle, false, false⟩,
  ⟨0x0004, "CAN_EVT_ID", .u32, .none_, 0, 4294967295, 1698, 12, .setting, .canIdle, false, false⟩,
  ⟨0x0005, "VEH_BEAM_ID", .u32, .none_, 0, 4294967295, 960, 12, .setting, .canIdle, false, false⟩,
  ⟨0x0006, "VEH_MOTION_ID", .u32, .none_, 0, 4294967295, 961, 12, .setting, .canIdle, false, false⟩,
  ⟨0x0007, "VEH_TIME_ID", .u32, .none_, 0, 4294967295, 962, 12, .setting, .canIdle, false, false⟩,
  ⟨0x0008, "VEH_TIMEOUT", .u16, .none_, 20, 1000, 100, 12, .setting, .now, false, false⟩,
  ⟨0x0009, "TIME_SOURCE", .u8, .none_, 0, 1, 0, 12, .setting, .now, false, false⟩,
  ⟨0x000A, "CAN_TIME_DELAY", .u16, .none_, 0, 10000, 0, 12, .setting, .now, false, false⟩,
  ⟨0x0010, "EVT_SUBSCRIBE", .u32, .port, 0, 4294967295, 524287, 15, .setting, .now, false, false⟩,
  ⟨0x0011, "EVT_LOST", .u32, .port, 0, 4294967295, 0, 12, .counter, .now, false, false⟩,
  ⟨0x0012, "TAG_CONFLICT", .u32, .port, 0, 4294967295, 0, 12, .counter, .now, false, false⟩,
  ⟨0x0013, "DOORBELL_VIOL", .u32, .bellPort, 0, 4294967295, 0, 12, .counter, .now, false, false⟩,
  ⟨0x0014, "SPI_ERR_COUNT", .u32, .none_, 0, 4294967295, 0, 12, .counter, .now, false, false⟩,
  ⟨0x0015, "CAN_BUS_OFF_COUNT", .u16, .none_, 0, 65535, 0, 12, .counter, .now, false, false⟩]

def paramsPlc_a : List ParamRow := [
  ⟨0x0001, "LAYER_STATE", .u8, .layer, 0, 2, 0, 0, .computed, .now, false, false⟩,
  ⟨0x0002, "PLACEMENT", .u8, .layer, 0, 3, 0, 0, .computed, .now, false, false⟩,
  ⟨0x0003, "SCALERS", .u8, .layer, 0, 255, 0, 0, .computed, .now, false, false⟩,
  ⟨0x0004, "POS", .u32, .layer, 0, 4294967295, 0, 13, .setting, .commit, false, false⟩,
  ⟨0x0005, "OUT_SIZE", .u32, .layer, 0, 4294967295, 0, 13, .setting, .commit, false, false⟩,
  ⟨0x0006, "LAYER_TINT", .u8, .layer, 0, 3, 0, 13, .setting, .commit, false, false⟩,
  ⟨0x0007, "LAYER_INTENSITY", .u16, .layer, 0, 65535, 65535, 13, .setting, .commit, false, false⟩,
  ⟨0x0008, "CHROMA_TINT", .u8, .layer, 0, 1, 0, 13, .setting, .commit, false, false⟩,
  ⟨0x0009, "YC_RANGE", .u8, .layer, 0, 1, 1, 13, .setting, .commit, false, false⟩,
  ⟨0x000A, "PALETTE", .bytes 1024, .layer, 0, 255, 0, 13, .setting, .commit, false, false⟩,
  ⟨0x000B, "DISP_FRAME", .u16, .layer, 0, 65535, 0, 0, .computed, .now, false, false⟩,
  ⟨0x000C, "RETIRED_FRAME", .u16, .layer, 0, 65535, 0, 0, .stored, .now, false, false⟩,
  ⟨0x000D, "RETIRE_EVT", .u8, .layer, 0, 1, 0, 13, .setting, .now, false, false⟩,
  ⟨0x000E, "ROWS_FILLED", .u32, .layer, 0, 4294967295, 0, 12, .counter, .now, false, false⟩,
  ⟨0x000F, "FRAMES_SUPERSEDED", .u32, .layer, 0, 4294967295, 0, 12, .counter, .now, false, false⟩,
  ⟨0x0010, "STALE_FRAMES", .u8, .layer, 0, 255, 0, 0, .computed, .now, false, false⟩,
  ⟨0x0020, "LATE", .u32, .group, 0, 4294967295, 0, 12, .counter, .now, false, false⟩,
  ⟨0x0021, "COMMITS", .u32, .group, 0, 4294967295, 0, 12, .counter, .now, false, false⟩,
  ⟨0x0022, "GROUP_STATE", .u8, .group, 0, 2, 0, 0, .computed, .now, false, false⟩,
  ⟨0x0030, "POOL_FREE", .u32, .none_, 0, 4294967295, 6291456, 0, .computed, .now, false, false⟩,
  ⟨0x0031, "MILLPOND_MAX_BUF", .u32, .none_, 0, 6291456, 1048576, 12, .setting, .now, false, false⟩,
  ⟨0x0032, "DRAM_FREE", .u32, .none_, 0, 4294967295, 0, 0, .computed, .now, false, false⟩,
  ⟨0x0033, "FENCE_DROP", .u32, .none_, 0, 4294967295, 0, 12, .counter, .now, false, false⟩,
  ⟨0x0034, "SCALER_FREE", .u8, .none_, 0, 255, 15, 0, .computed, .now, false, false⟩,
  ⟨0x0035, "TINT_REF", .u16, .tint, 0, 65535, 0, 13, .setting, .now, false, false⟩,
  ⟨0x0036, "CHROMA_MIN", .u8, .none_, 0, 255, 24, 13, .setting, .now, false, false⟩,
  ⟨0x0040, "PAT_LOW", .u8, .side, 0, 15, 0, 13, .setting, .now, false, true⟩,
  ⟨0x0041, "PAT_HIGH", .u8, .side, 0, 15, 1, 13, .setting, .now, false, true⟩,
  ⟨0x0042, "PAT_FALLBACK", .u8, .side, 0, 15, 0, 12, .setting, .now, false, true⟩,
  ⟨0x0043, "PAT_XFADE_MS", .u16, .none_, 0, 2000, 200, 13, .setting, .now, false, false⟩]

def paramsPlc_b : List ParamRow := [
  ⟨0x0044, "PAT_GEOM", .u8, .none_, 1, 3, 1, 4, .setting, .now, false, false⟩,
  ⟨0x0045, "PAT_VALID", .u16, .side, 0, 65535, 0, 0, .computed, .now, false, false⟩,
  ⟨0x0046, "PAT_CTRL", .u32, .none_, 0, 4294967295, 0, 4, .action, .now, false, false⟩,
  ⟨0x0047, "PAT_STAGE", .bytes 4096, .none_, 0, 255, 0, 4, .setting, .now, false, false⟩,
  ⟨0x0048, "PAT_CRC", .u32, .none_, 0, 4294967295, 0, 4, .setting, .now, false, false⟩,
  ⟨0x0049, "PAT_SHOWN", .u8, .side, 0, 255, 255, 0, .computed, .now, false, false⟩]

def paramsPlc : List ParamRow := paramsPlc_a ++ paramsPlc_b

def paramsCmp : List ParamRow := [
  ⟨0x0001, "BLEND_MODE", .u8, .layer, 0, 2, 0, 13, .setting, .commit, false, false⟩,
  ⟨0x0002, "LAYER_ALPHA", .u8, .layer, 0, 255, 255, 13, .setting, .commit, false, false⟩,
  ⟨0x0003, "SCALER_FILTER", .u8, .layer, 0, 3, 0, 13, .setting, .commit, false, false⟩,
  ⟨0x0004, "TINT_THRESH", .u8, .none_, 1, 255, 128, 13, .setting, .now, false, false⟩,
  ⟨0x0010, "PRE_LUT", .bytes 8192, .lut, 0, 255, 0, 12, .setting, .tableCommit, false, false⟩,
  ⟨0x0011, "POST_LUT", .bytes 8192, .side, 0, 255, 0, 12, .setting, .tableCommit, false, false⟩,
  ⟨0x0012, "GAIN_MAP", .bytes 48000, .side, 0, 255, 0, 12, .setting, .tableCommit, false, false⟩,
  ⟨0x0013, "OVL_RAMP", .bytes 256, .side, 0, 255, 0, 12, .setting, .tableCommit, false, false⟩,
  ⟨0x0014, "TABLE_COMMIT", .u8, .none_, 1, 31, 0, 12, .action, .now, false, false⟩,
  ⟨0x0015, "COEF_V", .bytes 512, .none_, 0, 255, 0, 12, .setting, .tableCommit, false, false⟩,
  ⟨0x0016, "COEF_H", .bytes 1024, .none_, 0, 255, 0, 12, .setting, .tableCommit, false, false⟩,
  ⟨0x0020, "FETCH_WM", .u16, .none_, 64, 1536, 512, 12, .setting, .now, false, false⟩,
  ⟨0x0021, "UNDERRUN", .u32, .layer, 0, 4294967295, 0, 12, .counter, .now, false, false⟩,
  ⟨0x0022, "COMPOSE_MISS", .u32, .side, 0, 4294967295, 0, 12, .counter, .now, false, false⟩,
  ⟨0x0023, "CATCHUP", .u32, .none_, 0, 4294967295, 0, 12, .counter, .now, false, false⟩,
  ⟨0x0024, "CULLED_TILES", .u16, .side, 0, 65535, 0, 0, .computed, .now, false, false⟩,
  ⟨0x0030, "LEVEL_PPD", .u16, .none_, 0, 65535, 0, 12, .setting, .composeStart, false, false⟩,
  ⟨0x0031, "LEVEL_TAU", .u16, .none_, 0, 5000, 500, 12, .setting, .composeStart, false, false⟩,
  ⟨0x0032, "BEND_SOURCE", .u8, .none_, 0, 2, 0, 12, .setting, .composeStart, false, false⟩,
  ⟨0x0033, "BEND_GAIN", .u16, .none_, 0, 65535, 0, 12, .setting, .composeStart, false, false⟩,
  ⟨0x0034, "LEVEL_MAX", .u16, .none_, 0, 200, 64, 12, .setting, .composeStart, false, false⟩,
  ⟨0x0035, "BEND_MAX", .u16, .none_, 0, 512, 128, 12, .setting, .composeStart, false, false⟩,
  ⟨0x0036, "OFFSET_SLEW", .u8, .none_, 1, 16, 2, 12, .setting, .composeStart, false, false⟩,
  ⟨0x0037, "OFFSET", .u32, .none_, 0, 4294967295, 0, 0, .computed, .now, false, false⟩,
  ⟨0x0040, "THUMB_CURVE", .u8, .none_, 0, 1, 1, 13, .setting, .now, false, false⟩]

def paramsMst : List ParamRow := [
  ⟨0x0040, "MODE_INFO", .bytes 24, .mode, 0, 255, 0, 0, .computed, .now, false, false⟩,
  ⟨0x0041, "BASE_MODE", .u8, .none_, 0, 31, 0, 0, .computed, .now, false, false⟩,
  ⟨0x0042, "CAM_SEL", .u8, .none_, 0, 2, 0, 12, .setting, .refresh, false, false⟩,
  ⟨0x0043, "CAM_EDGE", .u8, .none_, 0, 1, 0, 12, .setting, .refresh, false, false⟩,
  ⟨0x0044, "CAM_RATIO", .u8, .none_, 1, 8, 8, 12, .setting, .refresh, false, false⟩,
  ⟨0x0045, "CAM_OFFSET", .u32, .none_, 0, 5000000, 0, 12, .setting, .refresh, false, false⟩,
  ⟨0x0046, "CAM_LOCK_WIN", .u16, .none_, 10, 10000, 200, 12, .setting, .now, false, false⟩,
  ⟨0x0047, "CAM_TIMEOUT", .u8, .none_, 2, 16, 3, 12, .setting, .now, false, false⟩,
  ⟨0x0048, "CAM_STATE", .u8, .none_, 0, 3, 0, 0, .computed, .now, false, false⟩,
  ⟨0x0049, "CAM_FLAGS", .u8, .none_, 0, 255, 0, 12, .counter, .now, false, false⟩,
  ⟨0x004A, "CAM_PERIOD", .u32, .none_, 0, 4294967295, 0, 0, .computed, .now, false, false⟩,
  ⟨0x004B, "CAM_PHASE_ERR", .s32, .none_, -2147483648, 2147483647, 0, 0, .computed, .now, false, false⟩,
  ⟨0x004C, "CAM_RANGE_ERR", .u32, .none_, 0, 4294967295, 0, 12, .counter, .now, false, false⟩,
  ⟨0x004D, "BRIDGE_EXTEND", .u32, .none_, 0, 4294967295, 0, 12, .counter, .now, false, false⟩,
  ⟨0x004E, "FLAT_LEVEL", .u16, .none_, 0, 65535, 4096, 12, .setting, .now, false, false⟩,
  ⟨0x004F, "FLAT_MAP", .u8, .none_, 0, 1, 1, 12, .setting, .now, false, false⟩,
  ⟨0x0050, "CHECK_CELL", .u8, .none_, 1, 64, 16, 12, .setting, .now, false, false⟩,
  ⟨0x0001, "SEQ_IMAGE", .bytes 16384, .mode, 0, 255, 0, 0, .computed, .now, false, false⟩,
  ⟨0x0002, "ENTRY_NOW", .u16, .none_, 0, 2046, 0, 0, .computed, .now, false, false⟩,
  ⟨0x0003, "DITHER_PHASE", .u8, .none_, 0, 3, 0, 0, .computed, .now, false, false⟩,
  ⟨0x0004, "DITHER_EN", .u8, .none_, 0, 1, 1, 12, .setting, .refresh, false, false⟩,
  ⟨0x0005, "MASK_GEN", .u16, .side, 0, 65535, 0, 0, .computed, .now, false, false⟩,
  ⟨0x0006, "MASK_EXCHANGES", .u32, .side, 0, 4294967295, 0, 12, .counter, .now, false, false⟩,
  ⟨0x0007, "CAMW_START", .u32, .none_, 0, 4294967295, 0, 0, .computed, .now, false, false⟩,
  ⟨0x0008, "CAMW_LEN", .u32, .none_, 0, 4294967295, 0, 0, .computed, .now, false, false⟩,
  ⟨0x0009, "SEQ_ECC_CORR", .u32, .none_, 0, 4294967295, 0, 12, .counter, .now, false, false⟩,
  ⟨0x000A, "PLANE_ECC", .u32, .side, 0, 4294967295, 0, 12, .counter, .now, false, false⟩,
  ⟨0x000B, "PLANE_VOID", .u32, .side, 0, 4294967295, 0, 12, .counter, .now, false, false⟩]

def paramsMpt : List ParamRow := [
  ⟨0x0001, "PORT_STATE", .u8, .side, 0, 9, 0, 0, .computed, .now, false, false⟩,
  ⟨0x0002, "ARRAY_ID", .bytes 8, .side, 0, 255, 0, 0, .computed, .now, false, false⟩,
  ⟨0x0003, "ARRAY_STATUS", .u32, .side, 0, 4294967295, 0, 0, .computed, .now, false, false⟩,
  ⟨0x0004, "SPARE_MAP", .u8, .side, 0, 255, 63, 0, .computed, .now, false, false⟩,
  ⟨0x0005, "LANE_FAILED", .u32, .side, 0, 4294967295, 0, 0, .computed, .now, false, false⟩,
  ⟨0x0006, "TX_TAP", .bytes 33, .side, 0, 255, 0, 0, .computed, .now, false, false⟩,
  ⟨0x0007, "RB_TAP", .u16, .side, 0, 65535, 0, 0, .computed, .now, false, false⟩,
  ⟨0x0008, "EYE_MIN", .u8, .side, 8, 48, 20, 12, .setting, .training, false, false⟩,
  ⟨0x0009, "PAIR_ERR_LIMIT", .u8, .side, 1, 8, 2, 12, .setting, .now, false, false⟩,
  ⟨0x0010, "BUS_CRC_ERR", .u32, .side, 0, 4294967295, 0, 12, .counter, .now, false, false⟩,
  ⟨0x0011, "CELL_CRC_ERR", .u32, .side, 0, 4294967295, 0, 12, .counter, .now, false, false⟩,
  ⟨0x0012, "RB_TIMEOUT", .u32, .side, 0, 4294967295, 0, 12, .counter, .now, false, false⟩,
  ⟨0x0013, "CMD_ERR", .u32, .side, 0, 4294967295, 0, 12, .counter, .now, false, false⟩,
  ⟨0x0014, "LANE_ERR", .bytes 66, .side, 0, 255, 0, 0, .computed, .now, false, false⟩,
  ⟨0x0015, "FLT_COUNT", .u16, .side, 0, 65535, 0, 12, .counter, .now, false, false⟩]

def paramsSht : List ParamRow := [
  ⟨0x0001, "STALE_MS", .u16, .none_, 20, 200, 60, 12, .setting, .raster, false, false⟩,
  ⟨0x0002, "STALE_ACTION", .u8, .none_, 0, 1, 0, 12, .setting, .raster, false, false⟩,
  ⟨0x0003, "STALE_HOLD_MS", .u16, .none_, 0, 1000, 100, 12, .setting, .raster, false, false⟩,
  ⟨0x0004, "EMIT_LEAD", .u16, .none_, 0, 20000, 500, 12, .setting, .raster, false, false⟩,
  ⟨0x0005, "REPREDICT_MS", .u8, .none_, 0, 50, 4, 12, .setting, .raster, false, false⟩,
  ⟨0x0006, "PRED_MAX", .u16, .none_, 0, 200, 80, 12, .setting, .raster, false, false⟩,
  ⟨0x0007, "CONF_MIN", .u8, .none_, 0, 255, 32, 12, .setting, .raster, false, false⟩,
  ⟨0x0010, "CLASS_MARGIN", .bytes 128, .none_, 0, 255, 0, 12, .setting, .raster, false, true⟩,
  ⟨0x0011, "CUTOFF_EL", .s16, .none_, -500, 500, -57, 12, .setting, .raster, false, false⟩,
  ⟨0x0012, "CUTOFF_RISE", .s16, .none_, -500, 500, 100, 12, .setting, .raster, false, false⟩,
  ⟨0x0013, "KINK_AZ", .s16, .none_, -2000, 2000, 0, 12, .setting, .raster, false, false⟩,
  ⟨0x0014, "TRAFFIC_SIDE", .u8, .none_, 0, 1, 0, 12, .setting, .raster, false, false⟩,
  ⟨0x0015, "CUTOFF_SOFT", .u8, .none_, 0, 255, 20, 12, .setting, .raster, false, false⟩,
  ⟨0x0020, "GEOMETRY", .bytes 64, .none_, 0, 255, 0, 0, .computed, .now, false, false⟩,
  ⟨0x0021, "GEOM_VALID", .u8, .none_, 0, 1, 0, 0, .computed, .now, false, false⟩,
  ⟨0x0022, "SHT_STATE", .u8, .none_, 0, 4, 0, 0, .computed, .now, false, false⟩,
  ⟨0x0023, "LISTS_SEEN", .u8, .none_, 0, 3, 0, 0, .computed, .now, false, false⟩,
  ⟨0x0024, "LIST_AGE", .u32, .none_, 0, 4294967295, 4294967295, 0, .computed, .now, false, false⟩,
  ⟨0x0025, "RASTER_TIME_MAX", .u16, .none_, 0, 65535, 0, 12, .counter, .now, false, false⟩,
  ⟨0x0030, "LISTS_ACCEPTED", .u32, .none_, 0, 4294967295, 0, 12, .counter, .now, false, false⟩,
  ⟨0x0031, "LISTS_SKIPPED", .u32, .none_, 0, 4294967295, 0, 12, .counter, .now, false, false⟩,
  ⟨0x0032, "LIST_FORMAT_ERR", .u32, .none_, 0, 4294967295, 0, 12, .counter, .now, false, false⟩,
  ⟨0x0033, "LIST_TIME_ERR", .u32, .none_, 0, 4294967295, 0, 12, .counter, .now, false, false⟩,
  ⟨0x0034, "LIST_TOO_OLD", .u32, .none_, 0, 4294967295, 0, 12, .counter, .now, false, false⟩,
  ⟨0x0035, "OBJ_INVALID", .u32, .none_, 0, 4294967295, 0, 12, .counter, .now, false, false⟩,
  ⟨0x0036, "OBJ_IGNORED", .u32, .none_, 0, 4294967295, 0, 12, .counter, .now, false, false⟩,
  ⟨0x0037, "STALE_ENTRIES", .u32, .none_, 0, 4294967295, 0, 12, .counter, .now, false, false⟩,
  ⟨0x0038, "RASTER_TIMEOUT", .u32, .none_, 0, 4294967295, 0, 12, .counter, .now, false, false⟩]

def paramsGov : List ParamRow := [
  ⟨0x0001, "SLOT", .bytes 64, .slot, 0, 255, 0, 12, .setting, .now, false, true⟩,
  ⟨0x0002, "SLOT_STATE", .u8, .slot, 0, 3, 0, 0, .computed, .now, false, false⟩,
  ⟨0x0003, "SLOT_OUT", .s32, .slot, -2147483648, 2147483647, 0, 0, .computed, .now, false, false⟩,
  ⟨0x0004, "SLOT_INT", .s32, .slot, -2147483648, 2147483647, 0, 0, .computed, .now, false, false⟩,
  ⟨0x0005, "SLOT_FB", .s32, .slot, -2147483648, 2147483647, 0, 0, .computed, .now, false, false⟩,
  ⟨0x0006, "SLOT_SP", .s32, .slot, -2147483648, 2147483647, 0, 0, .computed, .now, false, false⟩,
  ⟨0x0007, "SAMPLE_MISS", .u32, .slot, 0, 4294967295, 0, 12, .counter, .now, false, false⟩,
  ⟨0x0008, "MISS_LIMIT", .u8, .none_, 1, 16, 4, 12, .setting, .now, false, false⟩,
  ⟨0x0010, "GROUP_WINNER", .u8, .loopGroup, 0, 255, 255, 0, .computed, .now, false, false⟩,
  ⟨0x0011, "TAKEOVERS", .u32, .loopGroup, 0, 4294967295, 0, 12, .counter, .now, false, false⟩,
  ⟨0x0012, "TRACK_MARGIN", .s32, .loopGroup, 0, 65535, 1311, 12, .setting, .now, false, false⟩,
  ⟨0x0013, "GROUP_MEMBERS", .u32, .loopGroup, 0, 4294967295, 0, 0, .computed, .now, false, false⟩,
  ⟨0x0020, "GATE_VT", .u16, .chan, 0, 4095, 1900, 12, .setting, .now, false, true⟩,
  ⟨0x0021, "GATE_GM", .u32, .chan, 0, 1048575, 2884, 12, .setting, .now, false, true⟩,
  ⟨0x0030, "GOV_LOAD", .u16, .none_, 0, 65535, 48, 0, .computed, .now, false, false⟩,
  ⟨0x0031, "LOOKAHEAD_MISS", .u32, .side, 0, 4294967295, 0, 12, .counter, .now, false, false⟩,
  ⟨0x0032, "PWM_CFG", .u32, .pwm, 0, 4294967295, 0, 12, .setting, .now, false, false⟩,
  ⟨0x0033, "GOV_ECC_CORR", .u32, .none_, 0, 4294967295, 0, 12, .counter, .now, false, false⟩]

def paramsLmp_a : List ParamRow := [
  ⟨0x0001, "CH_CFG", .u16, .chan, 0, 65535, 7, 12, .setting, .now, true, true⟩,
  ⟨0x0002, "I_NOM", .u16, .chan, 0, 3000, 0, 12, .setting, .now, true, true⟩,
  ⟨0x0003, "I_LIMIT", .u16, .chan, 200, 3000, 3000, 12, .setting, .now, true, true⟩,
  ⟨0x0004, "SHUNT", .u16, .chan, 100, 10000, 400, 12, .setting, .now, true, true⟩,
  ⟨0x0005, "VF_NOM", .u16, .chan, 0, 6000, 0, 12, .setting, .now, true, true⟩,
  ⟨0x0006, "VF_TC", .s16, .chan, -1000, 0, -200, 12, .setting, .now, true, true⟩,
  ⟨0x0007, "CH_STATE", .u8, .chan, 0, 3, 0, 0, .computed, .now, false, false⟩,
  ⟨0x0008, "CH_FAULT", .u8, .chan, 0, 255, 0, 0, .computed, .now, false, false⟩,
  ⟨0x0009, "I_MEAS", .u16, .chan, 0, 65535, 0, 0, .computed, .now, false, false⟩,
  ⟨0x000A, "VF_MEAS", .u16, .chan, 0, 65535, 0, 0, .computed, .now, false, false⟩,
  ⟨0x000B, "LIT_TIME", .u32, .chan, 0, 4294967295, 0, 0, .computed, .now, false, false⟩,
  ⟨0x000C, "DIAG_PULSES", .u32, .chan, 0, 4294967295, 0, 12, .counter, .now, false, false⟩,
  ⟨0x0020, "MIX_TABLE", .bytes 96, .side, 0, 255, 0, 13, .setting, .refresh, false, false⟩,
  ⟨0x0021, "COMP_TABLE", .bytes 192, .side, 0, 255, 0, 12, .setting, .refresh, false, true⟩,
  ⟨0x0022, "JMODEL", .bytes 12, .side, 0, 255, 0, 12, .setting, .now, false, false⟩,
  ⟨0x0023, "SENSOR_SEL", .u8, .side, 0, 1, 0, 12, .setting, .now, false, false⟩,
  ⟨0x0024, "NTC_CFG", .bytes 12, .side, 0, 255, 0, 12, .setting, .now, false, false⟩,
  ⟨0x0025, "I2C_SENSOR", .u16, .side, 0, 65535, 72, 12, .setting, .now, false, false⟩,
  ⟨0x0026, "SENSOR_FALLBACK_T", .s16, .side, -400, 1500, 1050, 12, .setting, .now, false, false⟩,
  ⟨0x0027, "T_BOARD", .s16, .side, -32768, 32767, 0, 0, .computed, .now, false, false⟩,
  ⟨0x0028, "T_JUNCTION", .bytes 6, .side, 0, 255, 0, 0, .computed, .now, false, false⟩,
  ⟨0x0029, "TJ_DERATE", .s16, .side, 0, 1500, 1250, 12, .setting, .now, false, false⟩,
  ⟨0x002A, "TJ_LIMIT", .s16, .side, 0, 1750, 1450, 12, .setting, .now, false, false⟩,
  ⟨0x002B, "DERATE_FLOOR", .u16, .side, 0, 65535, 16384, 12, .setting, .now, false, false⟩,
  ⟨0x002C, "HEADROOM", .u16, .side, 800, 3000, 1200, 12, .setting, .now, false, false⟩,
  ⟨0x002D, "BST_FSW", .u16, .side, 400, 2200, 1000, 12, .setting, .boostStart, false, false⟩,
  ⟨0x002E, "BST_OV", .u16, .side, 500, 6200, 6200, 12, .setting, .now, false, false⟩,
  ⟨0x002F, "BST_IIN_LIMIT", .u16, .side, 500, 10000, 8000, 12, .setting, .now, false, false⟩,
  ⟨0x0030, "BST_UV", .u16, .side, 300, 3000, 600, 12, .setting, .now, false, false⟩,
  ⟨0x0031, "FB_DIV", .u16, .side, 256, 65535, 13312, 12, .setting, .now, false, false⟩]

def paramsLmp_b : List ParamRow := [
  ⟨0x0032, "VIN_DIV", .u16, .side, 256, 65535, 4096, 12, .setting, .now, false, false⟩,
  ⟨0x0033, "BST_RSENSE", .u16, .side, 10, 1000, 100, 12, .setting, .now, false, false⟩,
  ⟨0x0034, "PSHORT_DV", .u16, .side, 0, 1000, 200, 12, .setting, .now, false, false⟩,
  ⟨0x0035, "DIAG_I", .u16, .side, 200, 1000, 300, 12, .setting, .now, false, false⟩,
  ⟨0x0036, "BST_STATE", .u8, .side, 0, 3, 0, 0, .computed, .now, false, false⟩,
  ⟨0x0037, "VOUT", .u16, .side, 0, 65535, 0, 0, .computed, .now, false, false⟩,
  ⟨0x0038, "VIN", .u16, .side, 0, 65535, 0, 0, .computed, .now, false, false⟩,
  ⟨0x0039, "BST_OV_TRIPS", .u32, .side, 0, 4294967295, 0, 12, .counter, .now, false, false⟩,
  ⟨0x0040, "DIM_LEVEL", .u16, .none_, 0, 65535, 65535, 0, .computed, .now, false, false⟩,
  ⟨0x0041, "DIM_SOURCE", .u8, .none_, 0, 2, 0, 0, .computed, .now, false, false⟩,
  ⟨0x0042, "DIM_FALLBACK", .u16, .none_, 0, 65535, 65535, 12, .setting, .now, false, false⟩,
  ⟨0x0043, "DIM_RAMP_MS", .u16, .none_, 0, 10000, 200, 12, .setting, .now, false, false⟩,
  ⟨0x0044, "AIN_LO", .u16, .none_, 0, 3300, 300, 12, .setting, .now, false, false⟩,
  ⟨0x0045, "AIN_HI", .u16, .none_, 0, 3300, 3000, 12, .setting, .now, false, false⟩,
  ⟨0x0046, "DIM_PWM_PERIOD", .u32, .none_, 0, 4294967295, 0, 0, .computed, .now, false, false⟩,
  ⟨0x0047, "ENABLE_MASK", .u16, .none_, 0, 65535, 4095, 0, .computed, .now, false, false⟩,
  ⟨0x0048, "RAMP_SETTINGS", .u32, .none_, 0, 4294967295, 19677185, 0, .computed, .now, false, true⟩]

def paramsLmp : List ParamRow := paramsLmp_a ++ paramsLmp_b

def paramsAux : List ParamRow := [
  ⟨0x0001, "SEG_COUNT", .u8, .side, 0, 64, 0, 12, .setting, .frame, false, true⟩,
  ⟨0x0002, "SEG_PERIOD", .u16, .side, 2000, 50000, 5000, 12, .setting, .frame, false, false⟩,
  ⟨0x0003, "SEG_LEVEL", .bytes 1536, .side, 0, 255, 0, 15, .setting, .frame, false, false⟩,
  ⟨0x0004, "SEG_COMMIT", .u32, .side, 0, 4294967295, 0, 15, .action, .now, false, false⟩,
  ⟨0x0005, "SEG_DIM_FOLLOW", .u8, .side, 0, 1, 0, 12, .setting, .now, false, false⟩,
  ⟨0x0006, "SEG_SAFE_ACTION", .u8, .side, 0, 1, 0, 12, .setting, .now, false, false⟩,
  ⟨0x0007, "SEG_OUT", .bytes 1536, .side, 0, 255, 0, 0, .computed, .now, false, false⟩,
  ⟨0x0008, "SEG_FRAMES", .u32, .side, 0, 4294967295, 0, 12, .counter, .now, false, false⟩,
  ⟨0x0020, "MX_CLASS", .u8, .none_, 0, 2, 0, 12, .setting, .now, true, false⟩,
  ⟨0x0021, "MX_TARGET", .bytes 16, .target, 0, 255, 0, 12, .setting, .now, false, false⟩,
  ⟨0x0022, "MX_SCAN", .u32, .none_, 0, 4294967295, 19660804, 12, .setting, .now, true, false⟩,
  ⟨0x0023, "TINT_RGB", .bytes 12, .none_, 0, 255, 0, 12, .setting, .now, false, false⟩,
  ⟨0x0024, "MX_CURVE", .u8, .none_, 0, 1, 1, 13, .setting, .now, false, false⟩,
  ⟨0x0025, "MX_TE_TIMEOUT", .u16, .none_, 20, 1000, 100, 12, .setting, .now, false, false⟩,
  ⟨0x0026, "MX_TARGET_STATE", .u8, .target, 0, 4, 0, 0, .computed, .now, false, false⟩,
  ⟨0x0027, "MX_TE_PERIOD", .u32, .target, 0, 4294967295, 0, 0, .computed, .now, false, false⟩,
  ⟨0x0028, "MX_SKIP", .u32, .none_, 0, 4294967295, 0, 12, .counter, .now, false, false⟩,
  ⟨0x0029, "MX_FRAMES", .u32, .none_, 0, 4294967295, 0, 12, .counter, .now, false, false⟩]

def paramsSaf : List ParamRow := [
  ⟨0x0001, "FAULT_ACTIVE", .bytes 128, .none_, 0, 255, 0, 0, .computed, .now, false, false⟩,
  ⟨0x0002, "FAULT_CLEAR", .u32, .none_, 0, 4294967295, 0, 13, .action, .now, false, false⟩,
  ⟨0x0003, "REACTION_SET", .u32, .none_, 0, 4294967295, 0, 4, .action, .now, false, false⟩,
  ⟨0x0004, "REACTIONS", .bytes 176, .none_, 0, 255, 0, 0, .computed, .now, false, false⟩,
  ⟨0x0005, "BEAM_LOSS_PCT", .u8, .side, 1, 100, 50, 12, .setting, .now, false, false⟩,
  ⟨0x0006, "ESC_COUNT", .u8, .none_, 2, 64, 8, 12, .setting, .now, false, false⟩,
  ⟨0x0007, "FAULT_OVERFLOW", .u32, .none_, 0, 4294967295, 0, 12, .counter, .now, false, false⟩,
  ⟨0x0010, "SIG_STATE", .bytes 32, .side, 0, 255, 0, 0, .computed, .now, false, false⟩,
  ⟨0x0011, "SIG_VALUE", .bytes 64, .side, 0, 255, 0, 0, .computed, .now, false, false⟩,
  ⟨0x0012, "SIG_EXPECTED", .bytes 64, .side, 0, 255, 0, 0, .computed, .now, false, false⟩,
  ⟨0x0013, "SIG_LIMIT", .u8, .none_, 1, 16, 3, 12, .setting, .now, false, false⟩,
  ⟨0x0014, "LEARN_PASSES", .u8, .none_, 2, 16, 4, 12, .setting, .now, false, false⟩,
  ⟨0x0015, "SIG_MISMATCH_COUNT", .u32, .side, 0, 4294967295, 0, 12, .counter, .now, false, false⟩,
  ⟨0x0016, "SIG_WITHHELD", .u32, .side, 0, 4294967295, 0, 12, .counter, .now, false, false⟩,
  ⟨0x0020, "FREEZE_N", .u8, .none_, 2, 64, 4, 12, .setting, .now, false, false⟩,
  ⟨0x0021, "FREEZE_N_MASK", .u8, .none_, 2, 64, 4, 12, .setting, .now, false, false⟩,
  ⟨0x0022, "FREEZE_WATCH", .u8, .layer, 0, 1, 0, 13, .setting, .commit, false, false⟩,
  ⟨0x0023, "FRAME_SIG", .u32, .side, 0, 4294967295, 0, 0, .computed, .now, false, false⟩,
  ⟨0x0024, "MASK_SIG", .u32, .side, 0, 4294967295, 0, 0, .computed, .now, false, false⟩,
  ⟨0x0030, "PLANE_AGG", .u32, .side, 0, 4294967295, 0, 0, .computed, .now, false, false⟩,
  ⟨0x0031, "REFRESH_CHECK_FAIL", .u32, .side, 0, 4294967295, 0, 12, .counter, .now, false, false⟩,
  ⟨0x0040, "SNAP_RELEASE", .u8, .none_, 1, 1, 0, 13, .action, .now, false, false⟩,
  ⟨0x0041, "SNAP_HELD", .u8, .none_, 0, 1, 0, 0, .computed, .now, false, false⟩,
  ⟨0x0042, "SNAP_SEQ", .u32, .none_, 0, 4294967295, 0, 0, .computed, .now, false, false⟩]

def paramsJnl : List ParamRow := [
  ⟨0x0001, "ENTRY_NEXT", .u32, .none_, 0, 4294967295, 0, 0, .computed, .now, false, false⟩,
  ⟨0x0002, "SEGMENT", .u32, .none_, 0, 4294967295, 0, 0, .computed, .now, false, false⟩,
  ⟨0x0003, "SEG_ENTRIES", .u16, .none_, 64, 4096, 3600, 12, .setting, .segment, false, false⟩,
  ⟨0x0004, "NOR_OLDEST", .u32, .none_, 0, 4294967295, 0, 0, .computed, .now, false, false⟩,
  ⟨0x0005, "PENDING", .u16, .none_, 0, 65535, 0, 0, .computed, .now, false, false⟩,
  ⟨0x0006, "JNL_LOST", .u32, .none_, 0, 4294967295, 0, 12, .counter, .now, false, false⟩,
  ⟨0x0007, "NOR_FAILS", .u32, .none_, 0, 4294967295, 0, 12, .counter, .now, false, false⟩,
  ⟨0x0008, "PFW_SOURCE", .u8, .none_, 0, 3, 3, 4, .setting, .now, false, true⟩,
  ⟨0x0009, "PFW_THRESH", .u16, .none_, 3000, 30000, 7000, 4, .setting, .now, false, true⟩,
  ⟨0x000A, "VBAT_DIV", .u16, .none_, 256, 65535, 2560, 4, .setting, .now, false, true⟩,
  ⟨0x000B, "LAST_HOLDUP", .u16, .none_, 0, 65535, 0, 0, .computed, .now, false, false⟩]

def paramsClk : List ParamRow := [
  ⟨0x0001, "CLK_STATUS", .u32, .none_, 0, 4294967295, 0, 0, .computed, .now, false, false⟩,
  ⟨0x0002, "CLK_STICKY", .u8, .none_, 0, 255, 0, 12, .counter, .now, false, false⟩,
  ⟨0x0003, "LOCK_CYCLES", .u16, .none_, 16, 4096, 256, 12, .setting, .now, true, false⟩,
  ⟨0x0004, "SSC_MODE", .u8, .none_, 0, 3, 0, 12, .setting, .now, true, true⟩,
  ⟨0x0005, "PLLQ_FRAC", .s32, .none_, -2147483648, 2147483647, 0, 0, .computed, .now, false, false⟩,
  ⟨0x0006, "PLLQ_PHASE", .s32, .none_, -2147483648, 2147483647, 0, 0, .computed, .now, false, false⟩,
  ⟨0x0007, "REFCLK_COUNT", .u16, .none_, 0, 65535, 0, 0, .computed, .now, false, false⟩,
  ⟨0x0008, "LOSS_COUNT", .u32, .pll, 0, 4294967295, 0, 12, .counter, .now, false, false⟩,
  ⟨0x0009, "RELOCK_FAIL", .u32, .pll, 0, 4294967295, 0, 12, .counter, .now, false, false⟩,
  ⟨0x000A, "REFCLK_LOSS_COUNT", .u32, .none_, 0, 4294967295, 0, 12, .counter, .now, false, false⟩]

def paramsThm : List ParamRow := [
  ⟨0x0001, "T_DIE", .s16, .none_, -32768, 32767, 0, 0, .computed, .now, false, false⟩,
  ⟨0x0002, "T_DIE_MAX", .s16, .none_, -32768, 32767, 0, 12, .counter, .now, false, false⟩,
  ⟨0x0003, "STAGE", .u8, .none_, 0, 2, 0, 0, .computed, .now, false, false⟩,
  ⟨0x0004, "STAGE_ENTRIES", .u32, .stage, 0, 4294967295, 0, 12, .counter, .now, false, false⟩,
  ⟨0x0005, "SHUTDOWNS", .u16, .none_, 0, 65535, 0, 0, .computed, .now, false, false⟩,
  ⟨0x0006, "SHUTDOWN_T", .s16, .none_, -32768, 32767, 0, 0, .computed, .now, false, false⟩,
  ⟨0x0007, "RC_TRIM", .s16, .none_, -32768, 32767, 0, 0, .computed, .now, false, false⟩]

def paramsCal : List ParamRow := [
  ⟨0x0001, "CAL_DELTA_T", .u8, .none_, 2, 20, 8, 12, .setting, .now, false, true⟩,
  ⟨0x0002, "CAL_AUTO", .u8, .none_, 0, 7, 7, 12, .setting, .now, false, true⟩,
  ⟨0x0003, "CAL_STATE", .u8, .none_, 0, 3, 0, 0, .computed, .now, false, false⟩,
  ⟨0x0004, "LAST_RUN_T", .s16, .scope, -32768, 32767, 0, 0, .computed, .now, false, false⟩,
  ⟨0x0005, "LAST_RUN_TIME", .u64, .scope, 0, 18446744073709551615, 0, 0, .computed, .now, false, false⟩,
  ⟨0x0006, "CAL_SETS", .bytes 4160, .none_, 0, 255, 0, 0, .computed, .now, false, false⟩,
  ⟨0x0007, "CAL_IN_FORCE", .bytes 512, .none_, 0, 255, 0, 0, .computed, .now, false, false⟩,
  ⟨0x0008, "CAL_DISAGREE_MAP", .bytes 16, .none_, 0, 255, 0, 0, .computed, .now, false, false⟩,
  ⟨0x0009, "CAL_RUNS", .u32, .none_, 0, 4294967295, 0, 12, .counter, .now, false, false⟩,
  ⟨0x000A, "CAL_DISAGREE_COUNT", .u32, .none_, 0, 4294967295, 0, 12, .counter, .now, false, false⟩,
  ⟨0x000B, "CAL_SKIPPED", .u32, .none_, 0, 4294967295, 0, 12, .counter, .now, false, false⟩]

def paramsPwr : List ParamRow := [
  ⟨0x0001, "RESET_CAUSE", .u8, .none_, 0, 5, 0, 0, .computed, .now, false, false⟩,
  ⟨0x0002, "BOOT_STATUS", .u32, .none_, 0, 4294967295, 0, 0, .computed, .now, false, false⟩,
  ⟨0x0003, "BOOT_TIME", .u32, .none_, 0, 4294967295, 0, 0, .computed, .now, false, false⟩,
  ⟨0x0004, "DIRECTORY", .bytes 32, .none_, 0, 255, 0, 0, .computed, .now, false, false⟩,
  ⟨0x0005, "SUPPLY_STATUS", .u16, .none_, 0, 65535, 0, 0, .computed, .now, false, false⟩,
  ⟨0x0010, "CORE_BUDGET", .u16, .none_, 200, 4000, 1500, 4, .setting, .now, true, true⟩,
  ⟨0x0011, "LAMP_BUDGET", .u16, .none_, 1000, 30000, 8000, 4, .setting, .now, true, true⟩,
  ⟨0x0012, "IGN_LAMP_MA", .u16, .none_, 0, 20000, 6000, 4, .setting, .now, true, true⟩,
  ⟨0x0013, "QUEUE_MAX", .u16, .none_, 1, 1000, 100, 4, .setting, .now, false, false⟩,
  ⟨0x0014, "TICKETS_HELD", .u16, .none_, 0, 65535, 0, 0, .computed, .now, false, false⟩,
  ⟨0x0015, "TICKETS_QUEUED", .u16, .none_, 0, 65535, 0, 0, .computed, .now, false, false⟩,
  ⟨0x0016, "GRANTS", .u32, .op, 0, 4294967295, 0, 12, .counter, .now, false, false⟩,
  ⟨0x0017, "DENIALS", .u32, .op, 0, 4294967295, 0, 12, .counter, .now, false, false⟩,
  ⟨0x0018, "OVERRUNS", .u32, .op, 0, 4294967295, 0, 12, .counter, .now, false, false⟩]

/-- The rows of a unit. -/
def paramsOf : Nat → List ParamRow
  | 0x00 => paramsDev
  | 0x01 => paramsLnk0
  | 0x02 => paramsLnk1
  | 0x03 => paramsHost
  | 0x04 => paramsPlc
  | 0x05 => paramsCmp
  | 0x06 => paramsMst
  | 0x07 => paramsMpt
  | 0x08 => paramsSht
  | 0x09 => paramsGov
  | 0x0A => paramsLmp
  | 0x0B => paramsAux
  | 0x0C => paramsSaf
  | 0x0D => paramsJnl
  | 0x0E => paramsClk
  | 0x0F => paramsThm
  | 0x10 => paramsCal
  | 0x11 => paramsPwr
  | _ => []

/-- Unit, instance and number of a PARAM_ID (R112). -/
def idUnit (id : Nat) : Nat := id / 0x1000000
def idInst (id : Nat) : Nat := id / 0x10000 % 256
def idNum (id : Nat) : Nat := id % 0x10000

/-- The PARAM_ID of an instance of a key. -/
def pid (key inst : Nat) : Nat := key + inst * 0x10000

/-- The row of a PARAM_ID. -/
def paramRow? (id : Nat) : Option ParamRow := (paramsOf (idUnit id)).find? fun r => r.num == idNum id

end Sys2Proof.Machine
end

