-- ==== Sys2Proof/Machine/Base.lean ====
section
/-! DEFINITION. Access to the parts of Dev: pairs, lists and units by number, and the parameter store of R112 and R113 with
its defaults. -/

namespace Sys2Proof

/-! ### Numbers of sides, links, ports and PLLs -/

/-- The instance number of a side: 0 is L and 1 is R (R112). -/
def Side.ix : Side → Nat
  | .L => 0
  | .R => 1

def LinkId.ix : LinkId → Nat
  | .lnk0 => 0
  | .lnk1 => 1

/-- The link's unit code (Table 1-1). -/
def LinkId.unit : LinkId → Nat
  | .lnk0 => 1
  | .lnk1 => 2

/-- The code of a link event (R59, R82). -/
def LinkId.ev (l : LinkId) (n : Nat) : Nat := 0x100 * l.unit + n

/-- The port code (Table 4-1). -/
def Port.ix : Port → Nat
  | .lnk0 => 0
  | .lnk1 => 1
  | .can => 2
  | .spi => 3
  | .jtag => 4

def RegPort.port : RegPort → Port
  | .spi => .spi
  | .jtag => .jtag

def LinkId.port : LinkId → Port
  | .lnk0 => .lnk0
  | .lnk1 => .lnk1

def Pll.ix : Pll → Nat
  | .S => 0
  | .M => 1
  | .Q => 2

def allPorts : List Port := [.lnk0, .lnk1, .can, .spi, .jtag]

/-- The class of a port (Table 4-1), as a bit of ParamRow.writers: V 1, B 2, M 4, D 8. -/
def Port.classBit : Port → Nat
  | .lnk0 => 1
  | .lnk1 => 1
  | .can => 2
  | .spi => 4
  | .jtag => 8

end Sys2Proof

namespace Sys2Proof.Machine

open Sys2Proof

/-! ### Instances -/

/-- Instance 0 is `fst`; every other number names `snd`. -/
def Pair.get {α : Type} (p : Pair α) (i : Nat) : α := if i = 0 then p.fst else p.snd

def Pair.set {α : Type} (p : Pair α) (i : Nat) (x : α) : Pair α :=
  if i = 0 then { p with fst := x } else { p with snd := x }

def Pair.mod {α : Type} (p : Pair α) (i : Nat) (f : α → α) : Pair α := p.set i (f (p.get i))

/-- DEV_STATE code (Table 1-6). -/
def DevState.code : DevState → Nat
  | .reset => 0
  | .boot => 1
  | .standby => 2
  | .beam => 3
  | .degraded => 4
  | .safe => 5
  | .holdup => 6
  | .thermalOff => 7

/-- Two-sided part (Table 0-2). -/
def Dev.dual (d : Dev) : Bool := d.variant == .cx7240

/-- The sides the part has. -/
def Dev.sides (d : Dev) : List Nat := if d.dual then [0, 1] else [0]

/-- The links the part has. -/
def Dev.linkIds (d : Dev) : List LinkId := if d.dual then [.lnk0, .lnk1] else [.lnk0]

/-- The channels of a side: LD00 to LD05 on L, LD06 to LD11 on R. -/
def sideChans (s : Nat) : List Nat := (List.range 6).map (· + 6 * s)

def chanSide (c : Nat) : Nat := c / 6

/-! ### Parts of Dev by number -/

def Dev.link (d : Dev) (l : LinkId) : Link := d.links.get l.ix
def Dev.modLink (d : Dev) (l : LinkId) (f : Link → Link) : Dev := { d with links := d.links.mod l.ix f }

def Dev.port (d : Dev) (p : Port) : PortState := d.host.ports.getD p.ix PortState.reset
def Dev.modPort (d : Dev) (p : Port) (f : PortState → PortState) : Dev :=
  { d with host := { d.host with ports := modAt d.host.ports p.ix f } }

def Dev.map (d : Dev) (p : RegPort) : RegMap := match p with | .spi => d.host.spi | .jtag => d.host.jtag
def Dev.modMap (d : Dev) (p : RegPort) (f : RegMap → RegMap) : Dev :=
  match p with
  | .spi => { d with host := { d.host with spi := f d.host.spi } }
  | .jtag => { d with host := { d.host with jtag := f d.host.jtag } }

def Dev.layer (d : Dev) (n : Nat) : Layer := d.cmp.layers.getD n Layer.reset
def Dev.modLayer (d : Dev) (n : Nat) (f : Layer → Layer) : Dev :=
  { d with cmp := { d.cmp with layers := modAt d.cmp.layers n f } }

def Dev.group (d : Dev) (g : Nat) : Group := d.cmp.groups.getD g Group.reset
def Dev.modGroup (d : Dev) (g : Nat) (f : Group → Group) : Dev :=
  { d with cmp := { d.cmp with groups := modAt d.cmp.groups g f } }

def Dev.base (d : Dev) (s : Nat) : Base := d.cmp.bases.get s
def Dev.modBase (d : Dev) (s : Nat) (f : Base → Base) : Dev := { d with cmp := { d.cmp with bases := d.cmp.bases.mod s f } }

def Dev.pipe (d : Dev) (s : Nat) : Pipe := d.cmp.pipes.get s
def Dev.modPipe (d : Dev) (s : Nat) (f : Pipe → Pipe) : Dev := { d with cmp := { d.cmp with pipes := d.cmp.pipes.mod s f } }

def Dev.mport (d : Dev) (s : Nat) : MPort := d.ports.get s
def Dev.modMport (d : Dev) (s : Nat) (f : MPort → MPort) : Dev := { d with ports := d.ports.mod s f }

def Dev.chan (d : Dev) (c : Nat) : Chan := d.lamp.chans.getD c Chan.reset
def Dev.modChan (d : Dev) (c : Nat) (f : Chan → Chan) : Dev :=
  { d with lamp := { d.lamp with chans := modAt d.lamp.chans c f } }

def Dev.lside (d : Dev) (s : Nat) : LampSide := d.lamp.sides.get s
def Dev.modLside (d : Dev) (s : Nat) (f : LampSide → LampSide) : Dev :=
  { d with lamp := { d.lamp with sides := d.lamp.sides.mod s f } }

def Dev.slot (d : Dev) (n : Nat) : Slot := d.gov.slots.getD n Slot.reset
def Dev.modSlot (d : Dev) (n : Nat) (f : Slot → Slot) : Dev :=
  { d with gov := { d.gov with slots := modAt d.gov.slots n f } }

def Dev.target (d : Dev) (n : Nat) : MxTarget := d.aux.targets.getD n MxTarget.reset
def Dev.modTarget (d : Dev) (n : Nat) (f : MxTarget → MxTarget) : Dev :=
  { d with aux := { d.aux with targets := modAt d.aux.targets n f } }

def Dev.pll (d : Dev) (p : Nat) : PllSt := d.clk.plls.getD p PllSt.reset
def Dev.modPll (d : Dev) (p : Nat) (f : PllSt → PllSt) : Dev :=
  { d with clk := { d.clk with plls := modAt d.clk.plls p f } }

def Dev.modMask (d : Dev) (s : Nat) (f : MaskBuf → MaskBuf) : Dev :=
  { d with seq := { d.seq with masks := d.seq.masks.mod s f } }

/-! ### Corrections by channel index (Table 18-1) -/

/-- The channel indices of a mirror lane 0 to 32, of RB pair k, of a link lane, of an overcurrent comparator. -/
def mirrorCh (s lane : Nat) : Nat := 0x10 + 0x28 * s + lane
def rbCh (s k : Nat) : Nat := 0x31 + 0x28 * s + k
def linkCh (l phys : Nat) : Nat := 8 * l + phys

/-- The correction in force of a channel: tap, offset or trim, and gain. -/
def Dev.corr (d : Dev) (ch : Nat) : Int × Int := d.cal.inForce.getD ch (0, 0)

def Dev.setCorr (d : Dev) (ch : Nat) (v : Int × Int) : Dev := { d with cal := { d.cal with inForce := d.cal.inForce.set ch v } }

/-- The time base now. -/
def Dev.now (d : Dev) : Nat := d.clk.timeBase

/-- A fresh free value, and the block with the count of drawn values advanced. -/
def Dev.free (d : Dev) : BitVec 64 := Config.freeValue d.freeCount
def Dev.drawn (d : Dev) : Dev := { d with freeCount := d.freeCount + 1 }

/-! ### Defaults of byte-array parameters -/

/-- Table 11-6, one class. -/
def classMargin (h up dn soft core : Nat) : List Byte :=
  leBytes 2 h ++ leBytes 2 up ++ leBytes 2 dn ++ leBytes 1 soft ++ leBytes 1 core

/-- Table 11-6, defaults of classes 0 to 15. -/
def classMarginDefault : List Byte :=
  classMargin 50 40 20 50 0 ++ classMargin 30 30 10 40 0 ++ classMargin 20 30 10 30 0 ++ classMargin 30 50 10 40 0 ++
  classMargin 20 40 10 30 0 ++ classMargin 50 50 10 50 0 ++ classMargin 40 50 10 40 0 ++ classMargin 20 20 0 30 6 ++
  classMargin 30 30 0 30 4 ++ classMargin 0 0 0 0 15 ++ classMargin 10 10 10 20 8 ++
  (List.range 5).flatMap fun _ => classMargin 50 40 20 50 0

/-- R287: mixes 0 to 3; the others are zero. -/
def mixDefault : List Byte :=
  leList 2 [32768, 0, 0, 0, 32768, 0, 0, 0, 32768, 16384, 0, 32768] ++ List.replicate 72 0

/-- R288: default points of the table of primary p. -/
def compDefault (p : Nat) : List Byte :=
  (List.range 8).flatMap fun (k : Nat) => leBytes 2 (code 16 (270 * (k : Int) - 400)) ++
    (List.range 3).flatMap fun q => leBytes 2 (if p = q then 8192 else 0)

/-- R172: the default look-up table, 4,096 words. -/
def lutDefault : List Byte := (List.range 4096).flatMap fun k => leBytes 2 ((2 * k * 65535 + 4095) / (2 * 4095))

/-- R183: the default ramp weight of band column e on side L. -/
def rampL (e : Nat) : Nat := (roundHalfUp (65535 * (255 - 2 * (e : Int))) 256).toNat

def rampDefault (side : Nat) : List Byte :=
  (List.range 128).flatMap fun e => leBytes 2 (if side = 0 then rampL e else 65535 - rampL e)

/-- Table 7-4: bilinear coefficients of `taps` taps whose first tap is −before. -/
def coefDefault (taps before : Nat) : List Byte :=
  (List.range 64).flatMap fun p => (List.range taps).flatMap fun t =>
    leBytes 2 (if t = before then 1024 - 16 * p else if t = before + 1 then 16 * p else 0)

/-- A slot record of Table 13-2. -/
def slotRecord (ctrl safeRamp phase fbSrc spSrc outDst group shp shi shd df : Nat) (kp ki kd : Int)
    (outMin outMax iMin iMax safeOut ffConst : Int) (ffSrc : Nat) (fbLo fbHi : Int) : List Byte :=
  leBytes 1 ctrl ++ leBytes 1 safeRamp ++ leBytes 2 phase ++ leBytes 1 fbSrc ++ leBytes 1 spSrc ++ leBytes 1 outDst ++
  leBytes 1 group ++ leBytes 1 shp ++ leBytes 1 shi ++ leBytes 1 shd ++ leBytes 1 df ++
  leBytes 4 (code 32 kp) ++ leBytes 4 (code 32 ki) ++ leBytes 4 (code 32 kd) ++ leBytes 4 0 ++
  leBytes 4 (code 32 outMin) ++ leBytes 4 (code 32 outMax) ++ leBytes 4 (code 32 iMin) ++ leBytes 4 (code 32 iMax) ++
  leBytes 4 (code 32 safeOut) ++ leBytes 4 (code 32 ffConst) ++ leBytes 1 ffSrc ++ leBytes 3 0 ++
  leBytes 4 (code 32 fbLo) ++ leBytes 4 (code 32 fbHi)

/-- The records of R308 and Table 13-6. The valid feedback range, EN of the fixed slots, SAFE_RAMP of slots 12 to 21 and the
general slots' records are not given: the widest range, enabled, 0, and a disabled record outside every group (log entry
17). -/
def slotDefault (n : Nat) : List Byte :=
  let lo : Int := -2147483648
  let hi : Int := 2147483647
  let s := if n < 17 then 0 else 1
  if n < 12 then
    slotRecord 0x05 8 0 (n + 1) (n + 1) (n + 1) 0xF 16 16 0 0 4096 1311 0 0 4095 0 4095 0 0 1 lo hi
  else if n < 22 then
    match (n - 12) % 5 with
    | 0 => slotRecord 0x05 0 0 (0x12 + s) (0x12 + s) 0 0xF 10 12 0 0 512 64 0 0 0 0 0 0 0 3 lo hi
    | 1 => slotRecord 0x05 0 0 (0x10 + s) (0x10 + s) (0x10 + s) s 10 12 0 0 5243 3277 0 0 58982 0 58982 0 0 2 lo hi
    | 2 => slotRecord 0x05 0 0 (0x14 + s) 0 (0x10 + s) s 10 12 0 0 2048 1024 0 0 58982 0 58982 0 58982 0 lo hi
    | 3 => slotRecord 0x05 0 0 (0x10 + s) 0 (0x10 + s) s 10 12 0 0 5243 3277 0 0 58982 0 58982 0 58982 0 lo hi
    | _ => slotRecord 0xF5 0 0 (0x16 + s) 0 (0x10 + s) s 10 10 0 0 6554 655 0 0 58982 0 58982 0 58982 0 lo hi
  else
    slotRecord 0 0 0 0 0 0 0xF 0 0 0 0 0 0 0 0 0 0 0 0 0 0 lo hi

/-- Defaults of byte arrays, by key and instance. -/
def arrayDefault (id : Nat) : List Byte :=
  let key := id - idInst id * 0x10000
  let i := idInst id
  if key = kPlcPalette then List.replicate 1024 0
  else if key = kPlcPatStage then List.replicate 4096 0
  else if key = kCmpPreLut then lutDefault
  else if key = kCmpPostLut then lutDefault
  else if key = kCmpGainMap then (List.range 24000).flatMap fun _ => leBytes 2 32768
  else if key = kCmpOvlRamp then rampDefault i
  else if key = kCmpCoefV then coefDefault 4 1
  else if key = kCmpCoefH then coefDefault 8 3
  else if key = kShtClassMargin then classMarginDefault
  else if key = kGovSlot then slotDefault i
  else if key = kLmpMixTable then mixDefault
  else if key = kLmpCompTable then (List.range 3).flatMap compDefault
  else if key = kLmpJmodel then leList 2 [800, 1000, 800, 1000, 800, 1000]
  else if key = kLmpNtcCfg then leBytes 4 10000 ++ leBytes 4 10000 ++ leBytes 2 3435 ++ leBytes 2 0
  else if key = kAuxSegLevel then List.replicate 1536 0
  else if key = kAuxMxTarget then List.replicate 16 0
  else if key = kAuxTintRgb then leList 1 [255, 255, 255, 255, 191, 0, 0, 255, 255, 255, 0, 0]
  else []

/-- Defaults of scalar parameters: the row's, but for DEFAULT_MODE on the CX7220 (R130) and TINT_REF (Table 6-14). -/
def paramDefault (v : Variant) (id : Nat) : Int :=
  if id = kDevDefaultMode then (match v with | .cx7240 => 0x01 | .cx7220 => 0x10)
  else if id = pid kPlcTintRef 1 then 0xA858
  else if id = pid kPlcTintRef 2 then 0x58A8
  else if id = pid kPlcTintRef 3 then 0x6040
  else match paramRow? id with | some r => r.dflt | none => 0

/-! ### The store -/

/-- The value in force of a PARAM_ID. -/
def Dev.valOf (d : Dev) (id : Nat) : Int := (kvGet d.prm.vals id).getD (paramDefault d.variant id)

def Dev.arrOf (d : Dev) (id : Nat) : List Byte := (kvGet d.prm.arrays id).getD (arrayDefault id)

def Dev.putVal (d : Dev) (id : Nat) (v : Int) : Dev :=
  { d with prm := { d.prm with vals := kvPut d.prm.vals id v (paramDefault d.variant id) } }

def Dev.putArr (d : Dev) (id : Nat) (v : List Byte) : Dev :=
  { d with prm := { d.prm with arrays := kvPut d.prm.arrays id v (arrayDefault id) } }

/-- A value by key and instance, as an integer and as a natural number. -/
def Dev.parI (d : Dev) (key inst : Nat) : Int := d.valOf (pid key inst)
def Dev.par (d : Dev) (key inst : Nat) : Nat := (d.parI key inst).toNat
def Dev.arr (d : Dev) (key inst : Nat) : List Byte := d.arrOf (pid key inst)
def Dev.setPar (d : Dev) (key inst : Nat) (v : Int) : Dev := d.putVal (pid key inst) v
def Dev.setArr (d : Dev) (key inst : Nat) (v : List Byte) : Dev := d.putArr (pid key inst) v

/-- A staged value, if one waits. -/
def Dev.stagedVal (d : Dev) (key inst : Nat) : Option Int := kvGet d.prm.staged (pid key inst)
def Dev.stagedArr (d : Dev) (key inst : Nat) : Option (List Byte) := kvGet d.prm.stagedArrays (pid key inst)

def Dev.stageVal (d : Dev) (id : Nat) (v : Int) : Dev := { d with prm := { d.prm with staged := kvSet d.prm.staged id v } }
def Dev.stageArr (d : Dev) (id : Nat) (v : List Byte) : Dev :=
  { d with prm := { d.prm with stagedArrays := kvSet d.prm.stagedArrays id v } }

/-- A staged array waits no more. -/
def Dev.dropStaged (d : Dev) (id : Nat) : Dev := { d with prm := { d.prm with stagedArrays := kvErase d.prm.stagedArrays id } }

/-- A staged scalar, if one waits, comes into force. -/
def Dev.applyVal (d : Dev) (id : Nat) : Dev :=
  match kvGet d.prm.staged id with
  | some v => ({ d with prm := { d.prm with staged := kvErase d.prm.staged id } }).putVal id v
  | none => d

/-- A staged array, if one waits, comes into force. -/
def Dev.applyArr (d : Dev) (id : Nat) : Dev :=
  match kvGet d.prm.stagedArrays id with
  | some v => (d.dropStaged id).putArr id v
  | none => d

/-- A setting of the NOR mirror follows the value in force. -/
def Dev.mirrorVal (d : Dev) (id : Nat) : Dev :=
  { d with nor := { d.nor with mirror := kvPut d.nor.mirror id (d.valOf id) (paramDefault d.variant id) } }

def Dev.mirrorArr (d : Dev) (id : Nat) : Dev :=
  { d with nor := { d.nor with mirrorArrays := kvPut d.nor.mirrorArrays id (d.arrOf id) (arrayDefault id) } }

/-- The key of a link's parameter: unit 0x01 or 0x02. -/
def lkey (key : Nat) (l : LinkId) : Nat := key + l.ix * 0x1000000

/-- Largest value of a counter's type. -/
def PTy.top : PTy → Nat
  | .u8 => 0xFF
  | .s8 => 0x7F
  | .u16 => 0xFFFF
  | .s16 => 0x7FFF
  | .u32 => 0xFFFFFFFF
  | .s32 => 0x7FFFFFFF
  | .u64 => 0xFFFFFFFFFFFFFFFF
  | .bytes _ => 0xFF

/-- A counter advances by k, saturating at its type's largest value (R106). -/
def Dev.count (d : Dev) (key inst k : Nat) : Dev :=
  let top := match paramRow? key with | some r => r.ty.top | none => 0xFFFFFFFF
  d.setPar key inst (satAdd top (d.par key inst) k)

end Sys2Proof.Machine
end

