-- ==== Sys2Proof/Machine/Flags.lean ====
section
/-! DEFINITION. The words and lines that are read off the state: DEV_ID, DEV_STATE, IRQ_STATUS, MBX_DONE, SNAP_CTRL, IRQ_N,
FAULT_N, SAFE_LAMP_N, and the summary fields of STAT. -/

namespace Sys2Proof.Machine

open Sys2Proof

/-- DEV_ID (R1). -/
def Dev.devId (d : Dev) : Nat := match d.variant with | .cx7240 => 0x724000A1 | .cx7220 => 0x722000A1

/-- The device identification register (R454, Table 20-12): ONE, MANUF, PART as in DEV_ID, and VERSION of silicon A1. -/
def Dev.idcode (d : Dev) : Nat :=
  1 + 2 * 0x2B5 + 2 ^ 12 * (match d.variant with | .cx7240 => 0x7240 | .cx7220 => 0x7220) + 2 ^ 28 * 1

/-- What Capture-DR loads for an instruction (Table 20-11): the identification register, DBG_MBX with its data at [49:18] (R90),
the boundary-scan register (whose input cells the balls give from outside, log entry 98), or 0 in the bypass register. -/
def Dev.captureDr (d : Dev) (ir : Byte) : BitVec 159 :=
  if ir = 0x02 then BitVec.ofNat 159 d.idcode
  else if ir = 0x10 then BitVec.ofNat 159 (2 ^ 18 * d.host.jtag.lastRead.toNat)
  else if ir = 0x00 ∨ ir = 0x01 then d.jtag.cells
  else 0

/-- LIT: bit s set while side s projects (Table 4-4). -/
def Dev.lit (d : Dev) : Nat := b2n d.seq.projecting.fst + 2 * b2n (d.seq.projecting.snd && d.dual)

/-- DEV_STATE (Table 4-4); in RESET only ACTIVE_CL is not 0 (R87). -/
def Dev.devStateWord (d : Dev) : Nat :=
  if d.core.state = .reset then 0x00010000
  else d.core.state.code + 0x10 * b2n d.core.beamReady + 0x20 * d.lit + 0x80 * b2n d.core.modeValid +
    0x100 * d.core.mode + 0x10000 * d.core.activeCl

/-- The four bytes that a STATE_OVERRIDDEN response carries (R105). -/
def Dev.devStateBytes (d : Dev) : List Byte := leBytes 4 d.devStateWord

/-- Reaction codes of Table 15-6. -/
def Reaction.code : Reaction → Nat
  | .rec_ => 0
  | .ch => 1
  | .side => 2
  | .dev => 3

/-- FAULT_UNITS: bit n set while unit n has an active fault (Table 3-7). -/
def Dev.faultUnits (d : Dev) : Nat :=
  (List.range 19).foldl (fun w n => w + (if d.saf.active.any fun f => f.code / 256 == n then 2 ^ n else 0)) 0

/-- FAULT_N asserted (R365). -/
def Dev.faultAsserted (d : Dev) : Bool :=
  d.core.state == .safe || d.core.state == .degraded || d.core.state == .thermalOff ||
  d.saf.active.any fun f => 1 ≤ f.reaction.code

/-- A SIDE or DEV fault is active (R359). -/
def Dev.sideOrDevActive (d : Dev) : Bool := d.saf.active.any fun f => 2 ≤ f.reaction.code

/-- SAFE_LAMP_N high (R365). -/
def Dev.safeLampHigh (d : Dev) : Bool := d.saf.safeLamp

/-- A fault of a code and instance is active. -/
def Dev.faultActive (d : Dev) (code inst : Nat) : Bool := d.saf.active.any fun f => f.code == code && f.inst == inst

/-! ### Register map words (Tables 4-5 to 4-10) -/

def slotDone (m : RegMap) : Nat := bitMap (m.slots.map fun s => s.st == .done)
def slotBusy (m : RegMap) : Nat := bitMap (m.slots.map fun s => s.st == .open_ || s.st == .pending)
def slotPend (m : RegMap) : Nat := bitMap (m.slots.map fun s => s.st == .pending)

/-- MBX_DONE (Table 4-9). -/
def mbxDoneWord (m : RegMap) : Nat := slotDone m + 0x100 * slotBusy m + 0x1000 * slotPend m

/-- IRQ_STATUS of the SPI map (Table 4-5). -/
def Dev.irqStatus (d : Dev) : Nat :=
  b2n (slotDone d.host.spi != 0) + 2 * b2n (!(d.port .spi).events.isEmpty) + 4 * d.host.spi.irqW1c.toNat

/-- IRQ_N asserted (R88). -/
def Dev.irqAsserted (d : Dev) : Bool := d.irqStatus &&& d.host.spi.irqEnable.toNat != 0

/-- SNAP_CTRL (Table 4-10). -/
def Dev.snapCtrl (d : Dev) : Nat := 0x10 * d.saf.lastSrc + 0x100 * (d.saf.snapCount % 256) + 0x10000 * b2n d.saf.snapNEn

/-- CAN_STB: low (active) in STANDBY, BEAM, DEGRADED and SAFE. -/
def Dev.canActive (d : Dev) : Bool :=
  match d.core.state with
  | .standby => true
  | .beam => true
  | .degraded => true
  | .safe => true
  | _ => false

/-- Mailbox service runs on a port (Table 1-6): every port in STANDBY, BEAM, DEGRADED and SAFE; in the Acorn recovery
service SPI only; none elsewhere. Port 1 exists on the CX7240 only. After MILLER_WATCHDOG it may be absent (R362). -/
def Dev.serves (d : Dev) (p : Port) : Bool :=
  d.canActive && (p != .lnk1 || d.dual) && (!d.core.acornService || p == .spi) &&
  (!d.host.millerStuck || Config.serviceAfterWatchdog)

/-- Vehicle speed counts as zero (R128). -/
def Dev.speedZero (d : Dev) : Bool := !d.veh.motionSeen || (d.veh.speed == 0 && !d.veh.motionLost)

/-- A Shutter mask is in force on a side (R224): the request is 3, the mode is no test mode, no bridge refresh runs, and the
engine has a mask in the front buffer. -/
def Dev.maskOn (d : Dev) (s : Nat) : Bool :=
  d.req.inForce == 3 && d.core.mode != 0x1E && d.core.mode != 0x1F &&
  (match d.seq.change with | .bridging _ _ _ _ _ => false | _ => true) && !(d.seq.masks.get s).front.isEmpty

/-! ### Tickets by operation (Table 19-7) -/

/-- The operation bit of a holder. -/
def opBit : Holder → Nat
  | .globalReset => 0
  | .ignition => 1
  | .boost _ => 2
  | .dram => 3
  | .link _ => 4
  | .erase _ => 5
  | .cal => 6
  | .catchup _ => 7

def Dev.ticketHeld (d : Dev) (h : Holder) : Bool := d.sluice.held.any fun t => t.1 == h
def Dev.ticketQueued (d : Dev) (h : Holder) : Bool := d.sluice.queued.any fun q => q.holder == h
def Dev.ticketsHeld (d : Dev) : Nat :=
  (List.range 8).foldl (fun w n => w + (if d.sluice.held.any fun t => opBit t.1 == n then 2 ^ n else 0)) 0
def Dev.ticketsQueued (d : Dev) : Nat :=
  (List.range 8).foldl (fun w n => w + (if d.sluice.queued.any fun q => opBit q.holder == n then 2 ^ n else 0)) 0

end Sys2Proof.Machine
end

