-- ==== Sys2Proof/Machine/Events.lean ====
section
/-! DEFINITION. What the block sends out: event records to every port (R102), responses (R95, R99), the VC1 transmitter of each
back lane (R67), CAN messages (R92) and STAT (R78). -/

namespace Sys2Proof.Machine

open Sys2Proof

/-! ### Back lane -/

/-- Husk type codes sent on the back lane (Table 3-2). -/
def huskMbx : Nat := 0x3
def huskAck : Nat := 0x6
def huskNak : Nat := 0x7
def huskStat : Nat := 0x8
def huskTapreq : Nat := 0x9
def huskThumb : Nat := 0xA

/-- The back lane carries STAT from the first L0 after DETECT until it stops in L2 (R78, Table 3-9). -/
def Link.statRuns (k : Link) : Bool :=
  k.backLaneOn && k.upSinceDetect &&
    match k.state with
    | .disabled => false
    | .detect => false
    | .l2 => false
    | _ => true

/-- VC1 and THUMB Husks flow from the first L0 after DETECT, through L1 and RECOVERY, and stop in L2 (Table 3-9). They stop in
DOWN, which has no row there; STAT and link-local Husks do not (log entry 109). -/
def Link.streams (k : Link) : Bool := k.statRuns && k.state != .down

/-- The bytes of a Husk: header with HCRC, payload, DCRC (R60 to R62). -/
def TxHusk.bytes (h : TxHusk) : List Byte :=
  let fields := leBytes 6 (h.type + 0x10 * h.vc + 0x40 * b2n h.retry + 0x100 * h.seq + 0x10000 * h.payload.length +
    0x100000000 * h.sub)
  let body := fields ++ leBytes 2 (crc16 fields).toNat ++ h.payload
  body ++ leBytes 4 (crc32 body).toNat

/-- Ticks that a Husk occupies the lane, SOH to EOH, at 8 ns per symbol (R65). -/
def huskTicks (bytes : List Byte) : Nat := (8 * (bytes.length + 2) + 9) / 10

/-- The next Husk at a Husk boundary (R66): link-local, VC1, STAT, THUMB. VC0 numbers its Husks as they go out. -/
def Link.pick (k : Link) (thumbs : Bool) : Option (TxHusk × Link) :=
  match k.localOut with
  | h :: hs => some (h, { k with localOut := hs })
  | [] =>
    match (if k.streams then k.vc1Out else []) with
    | h :: hs => some (h, { k with vc1Out := hs })
    | [] =>
      match (if k.statRuns then k.statOut else []) with
      | h :: hs => some ({ h with seq := k.vc0TxNext }, { k with statOut := hs, vc0TxNext := (k.vc0TxNext + 1) % 256 })
      | [] =>
        match (if thumbs && k.streams then k.thumbOut else []) with
        | h :: hs => some ({ h with seq := k.vc0TxNext }, { k with thumbOut := hs, vc0TxNext := (k.vc0TxNext + 1) % 256 })
        | [] => none

/-- One tick of the back lane: a Husk in progress is not pre-empted; at a Husk boundary the next one starts (R66). -/
def Link.laneTick (k : Link) (thumbs : Bool) : Link :=
  if !k.backLaneOn then k
  else if 0 < k.laneBusy then { k with laneBusy := k.laneBusy - 1 }
  else match k.pick thumbs with
    | none => k
    | some (h, k1) => { k1 with backOut := h.bytes :: k1.backOut, laneBusy := huskTicks h.bytes - 1 }

/-- The back lanes in one tick; throttle stage 2 stops THUMB (R79). -/
def Dev.backLanes (d : Dev) : Dev :=
  d.linkIds.foldl (fun d l => d.modLink l fun k => k.laneTick (decide (d.thm.stage < 2))) d

/-- A link-local Husk waits for the lane while the back lane is in service (R66). -/
def Link.sendLocal (k : Link) (type : Nat) (payload : List Byte) : Link :=
  if k.backLaneOn then { k with
    localOut := k.localOut ++ [{ type := type, vc := 3, retry := false, seq := 0, sub := 0, payload := payload }] }
  else k

/-- A sender may send SEQ s while (CREDIT_LIMIT − s) mod 256 lies in 1 to 127 (R67). -/
def creditOk (limit s : Nat) : Bool :=
  let k := (limit + 256 - s % 256) % 256
  decide (1 ≤ k) && decide (k ≤ 127)

/-- VC1 may send its next Husk. -/
def Link.vc1Ready (k : Link) : Bool :=
  k.streams && match k.txCredit with | some c => creditOk c k.vc1TxNext | none => false

/-- The next VC1 Husk waits for the lane under the next SEQ, and for its acknowledgement. -/
def Link.sendVc1 (k : Link) (sub : Nat) (payload : List Byte) : Link :=
  let h : TxHusk := { type := huskMbx, vc := 1, retry := false, seq := k.vc1TxNext, sub := sub, payload := payload }
  { k with vc1Out := k.vc1Out ++ [h], vc1TxNext := (k.vc1TxNext + 1) % 256, unacked := k.unacked ++ [h] }

/-- The 16 bytes of an event record (Table 4-17). -/
def EventRec.bytes (e : EventRec) : List Byte :=
  leBytes 2 e.code ++ leBytes 1 (b2n e.lostBefore) ++ leBytes 1 e.eseq ++ leBytes 4 e.arg ++ leBytes 8 e.time

/-- The VC1 transmitter sends what waits while credit lasts: Husks to resend and responses first, then event records. -/
def Dev.pumpVc1 (d : Dev) (l : LinkId) : Nat → Dev
  | 0 => d
  | n + 1 =>
    let k := d.link l
    if k.vc1Ready then
      match k.txWaiting with
      | h :: hs => (d.modLink l fun k => ({ k with txWaiting := hs }).sendVc1 h.sub h.payload).pumpVc1 l n
      | [] =>
        match (d.port l.port).events with
        | e :: es =>
          ((d.modPort l.port fun p => { p with events := es }).modLink l fun k => k.sendVc1 1 e.bytes).pumpVc1 l n
        | [] => d
    else d

/-- All that VC1 of a link can send now. -/
def Dev.pumpLink (d : Dev) (l : LinkId) : Dev :=
  d.pumpVc1 l ((d.link l).txWaiting.length + (d.port l.port).events.length)

/-! ### CAN -/

/-- The smallest CAN FD data length that holds n bytes. -/
def canDlc (n : Nat) : Nat := ([8, 12, 16, 20, 24, 32, 48].find? (n ≤ ·)).getD 64

/-- The frames of one mailbox message (R92): segments of 63 bytes behind a SEG byte, padded with 0x00. -/
def canFrames : Nat → Bool → List Byte → List (List Byte)
  | 0, _, _ => []
  | n + 1, first, msg =>
    let seg := msg.take 63
    let rest := msg.drop 63
    let b := BitVec.ofNat 8 (b2n first + 2 * b2n rest.isEmpty) :: seg
    let frame := if b.length < 8 then b else padTo (canDlc b.length) b
    if rest.isEmpty then [frame] else frame :: canFrames n false rest

/-- A message goes out on CAN under an identifier. -/
def Dev.canSend (d : Dev) (id : Nat) (msg : List Byte) : Dev :=
  { d with host := { d.host with
      canTx := ((canFrames (msg.length / 63 + 1) true msg).map fun f => (id, f)).reverse ++ d.host.canTx } }

/-- Event records queued for CAN go out while the controller is active. -/
def Dev.flushCan (d : Dev) : Dev :=
  if d.canActive then
    ((d.port .can).events.foldl (fun d e => d.canSend (d.par kHostCanEvtId 0) e.bytes) d).modPort .can
      fun p => { p with events := [] }
  else d

/-! ### Events (R102) -/

/-- Records that a port's FIFO or queue holds at most. -/
def eventDepth (p : Port) : Nat := if p = .spi then 64 else 32

/-- A port receives a unit's events. -/
def Dev.subscribed (d : Dev) (p : Port) (unit : Nat) : Bool :=
  p == .spi || ((p != .lnk1 || d.dual) && (d.par kHostEvtSubscribe p.ix).testBit unit)

/-- Hardware sets a W1C bit of IRQ_STATUS: 0 EVT_OVF, 1 STATE_CHG, 2 FAULT, 3 SNAP, 4 SPI_ERR. The tick is kept for R15. -/
def Dev.setIrq (d : Dev) (bit : Nat) : Dev :=
  d.modMap .spi fun m => { m with
    irqW1c := m.irqW1c ||| BitVec.ofNat 5 (2 ^ bit), irqSetAt := m.irqSetAt.set bit (some d.now) }

/-- One port takes an event: ESEQ advances; the record is stored, or discarded and counted in EVT_LOST. -/
def Dev.postTo (d : Dev) (p : Port) (code arg : Nat) : Dev :=
  let q := d.port p
  let d1 :=
    if q.events.length < eventDepth p then
      d.modPort p fun q => { q with
        events := q.events ++ [{ code := code, lostBefore := q.lostRun, eseq := q.eseq, arg := arg, time := d.now }],
        eseq := (q.eseq + 1) % 256, lostRun := false }
    else
      let d0 := (d.modPort p fun q => { q with eseq := (q.eseq + 1) % 256, lostRun := true }).count kHostEvtLost p.ix 1
      if p = .spi then d0.setIrq 0 else d0
  match p with
  | .lnk0 => d1.pumpLink .lnk0
  | .lnk1 => d1.pumpLink .lnk1
  | .can => d1.flushCan
  | _ => d1

/-- Ports on which a record of this event would be the first of a run of lost records. -/
def Dev.firstLosses (d : Dev) (unit : Nat) : List Port :=
  allPorts.filter fun p => d.subscribed p unit && !(d.port p).lostRun && eventDepth p ≤ (d.port p).events.length

/-- An event goes to the SPI FIFO and to every subscribed port; the first loss of a run posts EVT_OVERFLOW (Table 4-19). -/
def Dev.postFuel : Nat → Dev → Nat → Nat → Dev
  | 0, d, _, _ => d
  | n + 1, d, code, arg =>
    let lost := d.firstLosses (code / 256)
    let d1 := (allPorts.filter fun p => d.subscribed p (code / 256)).foldl (fun d p => d.postTo p code arg) d
    lost.foldl (fun d p => Dev.postFuel n d 0x0303 (0x10000 * p.ix)) d1

/-- Post an event with its code and ARG. Each port can begin one run of losses, so five levels suffice. -/
def Dev.post (d : Dev) (code arg : Nat) : Dev := Dev.postFuel 6 d code (arg % 0x100000000)

/-- Post an event whose ARG the manual does not give: the ARG is a free value (log entry 18). -/
def Dev.postFree (d : Dev) (code : Nat) : Dev := (d.post code (d.free.toNat % 0x100000000)).drawn

/-! ### Responses (R95, R109) -/

/-- Status codes of Table 5-1. -/
def stOk : Nat := 0x00
def stPending : Nat := 0x01
def stBusy : Nat := 0x02
def stDeniedPort : Nat := 0x03
def stBadOpcode : Nat := 0x04
def stBadArg : Nat := 0x05
def stNotPresent : Nat := 0x06
def stOverridden : Nat := 0x07
def stAlreadyDone : Nat := 0x08
def stAborted : Nat := 0x09
def stNoResource : Nat := 0x0A
def stSpanExceeded : Nat := 0x0B
def stBudgetDenied : Nat := 0x0C
def stTimeout : Nat := 0x0D
def stIntegrity : Nat := 0x0E
def stCompat : Nat := 0x0F

/-- The response header of Table 4-14. -/
def rspHeader (opcode tag status len : Nat) : Nat :=
  opcode % 0x10000 + 0x10000 * (tag % 256) + 0x1000000 * (status % 256) + 0x100000000 * (len % 0x10000)

/-- A response leaves on a port: into the slot's registers on SPI and JTAG, as an MBX Husk on a link, as frames on CAN. -/
def Dev.respond (d : Dev) (p : Port) (slot opcode tag status : Nat) (payload : List Byte) : Dev :=
  let hdr := rspHeader opcode tag status payload.length
  let msg := leBytes 8 hdr ++ payload
  let inSlot (m : RegMap) : RegMap :=
    { m with slots := modAt m.slots slot fun s => { s with
        st := if status = stPending then .pending else .done,
        doneAt := if status = stPending then s.doneAt else some d.now,
        rsph := BitVec.ofNat 64 hdr,
        resp := putBytes s.resp 0 payload } }
  let husk : TxHusk := { type := huskMbx, vc := 1, retry := false, seq := 0, sub := 0, payload := msg }
  match p with
  | .spi => d.modMap .spi inSlot
  | .jtag => d.modMap .jtag inSlot
  | .can => d.canSend (d.par kHostCanRspId 0) msg
  | .lnk0 => (d.modLink .lnk0 fun k => { k with txWaiting := k.txWaiting ++ [husk] }).pumpLink .lnk0
  | .lnk1 => (d.modLink .lnk1 fun k => { k with txWaiting := k.txWaiting ++ [husk] }).pumpLink .lnk1

/-- A command's payload CRC-32, as the cache keeps it (R97). -/
def Cmd.crc (c : Cmd) : BitVec 32 := crc32 c.payload

/-- The final status of an open command (R98): it leaves the open list, enters the cache of 16, is answered, and posts
MBX_FINAL when an interim response was sent (R99). -/
def Dev.finish (d : Dev) (p : Port) (tag status : Nat) (payload : List Byte) : Dev :=
  match (d.port p).opens.find? fun c => c.cmd.tag == tag with
  | none => d
  | some c =>
    let e : CacheEntry := { tag := tag, opcode := c.cmd.opcode, len := c.cmd.len, crc := c.cmd.crc, status := status,
                            response := payload }
    let d1 := d.modPort p fun q => { q with
      opens := q.opens.filter (fun c => c.cmd.tag != tag),
      cache := (e :: q.cache.filter (fun e => e.tag != tag)).take 16 }
    let d2 := d1.respond p c.slot c.cmd.opcode tag status payload
    if c.pendingSent then d2.post 0x0301 (tag + 0x100 * status + 0x10000 * p.ix) else d2

/-- A final status without payload; STATE_OVERRIDDEN carries the DEV_STATE copy (R105, R109). -/
def Dev.finishWith (d : Dev) (p : Port) (tag status : Nat) : Dev :=
  d.finish p tag status (if status = stOverridden then d.devStateBytes else [])

/-- An open command that is not complete waits, and gets its interim response unless QUIET is set (R99). -/
def Dev.waits (d : Dev) (p : Port) (tag : Nat) : Dev :=
  match (d.port p).opens.find? fun c => c.cmd.tag == tag with
  | none => d
  | some c =>
    let d1 := d.modPort p fun q => { q with opens := q.opens.map fun c =>
      if c.cmd.tag = tag then { c with stage := .waiting, pendingSent := c.pendingSent || !c.cmd.quiet } else c }
    if c.cmd.quiet || c.pendingSent then d1 else d1.respond p c.slot c.cmd.opcode tag stPending []

/-- Every waiting command of an opcode, on every port: port and command. -/
def Dev.waitingOf (d : Dev) (opcode : Nat) : List (Port × Cmd) :=
  allPorts.flatMap fun p =>
    ((d.port p).opens.filter fun c => c.stage == .waiting && c.cmd.opcode == opcode).map fun c => (p, c.cmd)

/-! ### STAT (R78) -/

/-- The newest accepted list is under first-list rules (R275). -/
def Dev.firstRules (d : Dev) : Bool := d.sht.newest.any fun l => l.first

/-- The flags MASK_FLAGS of Table 3-7. -/
def Dev.maskFlags (d : Dev) : Nat :=
  b2n (d.maskOn 0) + 2 * b2n (d.dual && d.maskOn 1) +
  4 * b2n (d.sht.state == .stale || d.sht.state == .staleHold) +
  8 * b2n (d.firstRules || d.veh.motionLost)

/-- PAT_SHOWN (Table 6-14). -/
def Dev.patShown (d : Dev) (s : Nat) : Nat := if s = 1 && !d.dual then 0xFF else (d.base s).shown.getD 0xFF

/-- The STAT payload of Table 3-7. -/
def Dev.statBytes (d : Dev) : List Byte :=
  let nib (s : Nat) : Nat := if d.patShown s = 0xFF then 0xF else d.patShown s
  leBytes 8 d.now ++ leBytes 4 d.seq.refreshCount ++ leBytes 1 d.core.mode ++ leBytes 1 d.core.state.code ++
  leBytes 1 d.lit ++ leBytes 1 (nib 0 + 16 * nib 1) ++ leBytes 2 d.seq.masks.fst.genFront ++ leBytes 1 d.maskFlags ++
  leBytes 1 (b2n (d.patShown 0 != 0xFF) + 2 * b2n (d.patShown 1 != 0xFF)) ++ leBytes 4 d.seq.maskInForce.toNat ++
  leBytes 4 d.faultUnits ++ leBytes 4 0

/-- STAT is sent on every link in service whose STAT_EN is 1. -/
def Dev.sendStat (d : Dev) : Dev :=
  d.linkIds.foldl (fun d l =>
    if d.par (lkey kLnkStatEn l) 0 = 1 && (d.link l).statRuns then
      d.modLink l fun k => { k with statOut := k.statOut ++
        [{ type := huskStat, vc := 0, retry := false, seq := 0, sub := 0, payload := d.statBytes }] }
    else d) d

end Sys2Proof.Machine
end

