-- ==== Sys2Proof/Machine/Snapshot.lean ====
section
/-! DEFINITION. The snapshot bodies of Table 15-5, the readings they share with the read-only parameters, and the common
snapshot trigger (R366 to R368). -/

namespace Sys2Proof.Machine

open Sys2Proof

/-! ### Shared readings -/

/-- LINK_STATE (Table 2-7). -/
def LinkState.code : LinkState → Nat
  | .disabled => 0
  | .detect => 1
  | .lock => 2
  | .eye => 3
  | .train => 4
  | .l0 => 5
  | .step => 6
  | .l1 => 7
  | .l2 => 8
  | .recovery => 9
  | .down => 10

/-- RATE: 0 when out of L0 and RECOVERY (Table 2-17). -/
def Link.rateWord (k : Link) : Nat := if k.state = .l0 ∨ k.state = .recovery then k.rate else 0

/-- LANE_MAP (Table 2-17). -/
def Link.mapWord (k : Link) : Nat :=
  (k.map.getD 0 0) % 8 + 8 * ((k.map.getD 1 0) % 8) + 64 * ((k.map.getD 2 0) % 8) + 512 * ((k.map.getD 3 0) % 8) +
  4096 * (k.spare.getD 7)

/-- LANE_STATUS of a physical lane: 0 active, 1 spare, 2 spare carrying a shadow, 3 failed. -/
def Link.laneStatus (k : Link) (phys : Nat) : Nat :=
  if k.failed.getD phys false then 3
  else if k.spare = some phys then (if k.bts.shadowValid then 2 else 1)
  else if k.map.contains phys then 0 else 1

/-- LAYER_STATE and GROUP_STATE (Table 6-14). -/
def LayerSt.code : LayerSt → Nat
  | .free => 0
  | .declared => 1
  | .destroyed => 2

def Group.code (g : Group) : Nat := if g.armed then (if g.lateRun then 2 else 1) else 0

/-- DISP_FRAME: the frame in DISPLAY, 0 for none. -/
def Layer.dispFrame (l : Layer) : Nat := match l.bufs.find? fun b => b.role == .display with | some b => b.frame | none => 0

/-- OFFSET: [15:0] dx, [31:16] dy (Table 7-6). -/
def Dev.offsetWord (d : Dev) : Nat := code 16 d.cmp.dx + 0x10000 * code 16 d.cmp.dy

/-- PORT_STATE (Table 10-7). -/
def MState.code : MState → Nat
  | .off => 0
  | .power => 1
  | .train => 2
  | .ident => 3
  | .parked => 4
  | .unpark => 5
  | .ready => 6
  | .parking => 7
  | .fault => 8
  | .absent => 9

/-- SPARE_MAP (Table 10-11). -/
def MPort.spareMap (p : MPort) : Nat := p.spareLane % 64 + 64 * b2n p.sparePermanent + 128 * b2n p.lane32Failed

/-- SHT_STATE (Table 11-7). -/
def ShtState.code : ShtState → Nat
  | .init => 0
  | .first => 1
  | .normal => 2
  | .staleHold => 3
  | .stale => 4

/-- SLOT_STATE (Table 13-7). -/
def SlotRun.code : SlotRun → Nat
  | .off => 0
  | .idle => 1
  | .run => 2
  | .safe => 3

/-- BST_STATE (Table 12-9). -/
def BoostSt.code : BoostSt → Nat
  | .off => 0
  | .waiting => 0
  | .start => 1
  | .run => 2
  | .ovTrip _ => 3
  | .uvStop => 3
  | .uvWait => 3

/-- A channel's primary, 3 for unused (Table 12-2). -/
def Dev.primary (d : Dev) (c : Nat) : Nat := d.par kLmpChCfg c % 4

/-- CH_STATE: 0 unused, 1 disabled, 2 enabled, 3 latched off. -/
def Dev.chState (d : Dev) (c : Nat) : Nat :=
  if d.primary c = 3 then 0 else if !(d.chan c).latches.isEmpty then 3 else if d.lamp.enable.getLsbD c then 2 else 1

/-- Target states of MX_TARGET_STATE (Table 14-8). -/
def MxSt.code : MxSt → Nat
  | .off => 0
  | .free => 1
  | .write => 2
  | .swapWait => 3
  | .lost => 4

/-- The other side's T_b is one to substitute (R290): its own sensor has given a valid reading and is in use. -/
def Dev.otherBoard (d : Dev) (s : Nat) : Bool := d.dual && !(d.lside (1 - s)).substituted && (d.lside (1 - s)).everValid

/-- T_BOARD: the side's own T_b, or the substitute of R290: the other side's while that is its own, else SENSOR_FALLBACK_T. -/
def Dev.tBoardOf (d : Dev) (s : Nat) : Int :=
  if !(d.lside s).substituted then (d.lside s).tBoard
  else if d.otherBoard s then (d.lside (1 - s)).tBoard
  else d.parI kLmpSensorFallbackT s

/-- T_p of the primaries of a side, from T_b and the junction estimate (R291). -/
def Dev.tJunction (d : Dev) (s : Nat) : List Int := (d.lside s).tp

/-- PLLs locked, S lowest. -/
def Dev.pllLocks (d : Dev) : Nat := bitMap (d.clk.plls.map PllSt.locked)

/-- The vehicle battery in mV as VBAT_SENSE reads it now: no command delivers it (log entry 34). -/
def Dev.vbatMv (d : Dev) : Nat := Config.vbat d.now % 0x10000

/-- Ticks since an instant, saturating at 32 bits. -/
def Dev.since (d : Dev) (t : Nat) : Nat := min 0xFFFFFFFF (d.now - t)

/-! ### Bodies (Table 15-5) -/

/-- u8, u16, u32, u64 fields and signed ones. -/
abbrev f8 (v : Nat) : List Byte := leBytes 1 v
abbrev f16 (v : Nat) : List Byte := leBytes 2 v
abbrev f32 (v : Nat) : List Byte := leBytes 4 v
abbrev f64 (v : Nat) : List Byte := leBytes 8 v
abbrev s16 (v : Int) : List Byte := leBytes 2 (code 16 v)
abbrev s32 (v : Int) : List Byte := leBytes 4 (code 32 v)

def Dev.bodyDev (d : Dev) : List Byte :=
  f32 d.devStateWord ++ f8 d.core.mode ++ f8 d.req.inForce ++ f16 0 ++ f32 d.seq.refreshCount ++ f16 d.seq.displayed ++
  f8 d.seq.dither ++ f8 0 ++ f32 d.seq.maskInForce.toNat ++ f16 d.core.lastCause ++ f16 0

def Dev.bodyLnk (d : Dev) (l : LinkId) : List Byte :=
  let k := d.link l
  f8 k.state.code ++ f8 k.rateWord ++ f16 k.mapWord ++ f8 k.vc1RxNext ++ f8 k.vc1TxNext ++ f8 (k.vc2Last.getD 0) ++ f8 0 ++
  ((List.range 5).flatMap fun i => f32 (d.par (lkey kLnkCodeErr l) i)) ++ f32 (d.par (lkey kLnkHcrcErr l) 0) ++
  f32 (d.par (lkey kLnkDcrcErr l) 0)

def Dev.bodyHost (d : Dev) : List Byte :=
  (allPorts.flatMap fun p => f8 (d.port p).opens.length) ++ f8 0 ++ f8 d.req.can ++ f8 d.req.mailbox ++ f16 d.veh.speed ++
  s16 d.veh.yaw ++ s16 d.veh.steer ++ s16 d.veh.pitch ++ f32 (d.since d.veh.beamTime) ++ f32 (d.since d.veh.motionTime)

def Dev.bodyPlc (d : Dev) : List Byte :=
  ((List.range 7).flatMap fun i =>
    let l := d.layer (i + 1)
    f16 l.dispFrame ++ f8 (min 255 l.lateCount) ++ f8 l.st.code) ++
  ((List.range 8).flatMap fun g => f8 (d.group g).code) ++ f8 (d.patShown 0) ++ f8 (d.patShown 1) ++ f16 0

def Dev.bodyCmp (d : Dev) (s : Nat) : List Byte :=
  let p := d.pipe s
  f32 d.offsetWord ++ f16 p.nextRow ++
  f8 (b2n p.running + 2 * b2n p.behind + 4 * b2n (d.ticketHeld (.catchup (if s = 0 then .L else .R)))) ++ f8 0 ++
  f32 (d.par kCmpComposeMiss s) ++ f32 (d.saf.frameSig.get s).toNat

def Dev.bodyMst (d : Dev) : List Byte :=
  f16 d.seq.displayed ++ f8 d.seq.dither ++ f8 d.cam.state ++ f16 d.seq.masks.fst.genFront ++
  f16 d.seq.masks.snd.genFront ++ s32 d.cam.phaseErr ++ f32 (d.par kMstPlaneVoid 0) ++ f32 (d.par kMstPlaneVoid 1)

def Dev.bodyMpt (d : Dev) (s : Nat) : List Byte :=
  let p := d.mport s
  let c := d.seq.lastChecked.get s
  f8 p.state.code ++ f8 p.spareMap ++ f16 0 ++ f16 c.entry ++ f16 0 ++ f32 c.crc.toNat ++
  f32 (c.bus.getD 0).toNat ++ f32 (c.cell.getD 0).toNat ++ f32 (d.saf.planeAgg.get s).toNat ++ f32 p.arrayStatus.toNat

def Dev.bodySht (d : Dev) : List Byte :=
  f8 d.sht.state.code ++ f8 d.sht.listsSeen ++ f16 0 ++ f32 d.sht.listAge ++ f16 d.sht.generation ++
  f8 d.sht.objectsRastered ++ f8 0 ++ f64 (match d.sht.newest with | some l => l.time | none => 0)

def Dev.bodyGov (d : Dev) : List Byte :=
  (d.gov.slots.flatMap fun s => f8 s.st.code) ++ (d.gov.slots.flatMap fun s => s32 s.u) ++ (d.gov.winners.flatMap f8)

def Dev.bodyLmp (d : Dev) (s : Nat) : List Byte :=
  let p := d.lside s
  ((sideChans s).flatMap fun c =>
    f16 (d.chan c).iMeas ++ f16 (d.chan c).setpoint ++ f8 (d.chState c) ++ f8 (d.chan c).fault.toNat) ++
  f16 (p.vout / 10) ++ f16 (p.vin / 10) ++ f16 p.vh ++ f8 p.boost.code ++ f8 0 ++ s16 (d.tBoardOf s) ++
  (p.tp.flatMap s16) ++ f16 d.lamp.d ++ f16 p.r

def Dev.bodyAux (d : Dev) : List Byte :=
  f32 (d.par kAuxSegFrames 0) ++ f32 (d.par kAuxSegFrames 1) ++ ((List.range 4).flatMap fun t => f8 (d.target t).st.code) ++
  f32 (d.par kAuxMxSkip 0)

/-- code, instance, reaction of an active fault; zeros for none. -/
def faultBytes : Option ActiveFault → List Byte
  | some f => f16 f.code ++ f8 f.inst ++ f8 f.reaction.code
  | none => f32 0

/-- Insert by descending key: the most recently raised first. -/
def insertFault (f : ActiveFault) : List ActiveFault → List ActiveFault
  | [] => [f]
  | g :: l => if g.last < f.last then f :: g :: l else g :: insertFault f l

def Dev.recentFaults (d : Dev) : List ActiveFault := d.saf.active.foldl (fun l f => insertFault f l) []

def Dev.firstFault (d : Dev) : Option ActiveFault :=
  d.saf.active.foldl (fun m f => match m with
    | none => some f
    | some g => if f.since < g.since then some f else some g) none

def Dev.bodySaf (d : Dev) : List Byte :=
  f32 d.faultUnits ++ f8 d.saf.active.length ++ leBytes 3 0 ++ faultBytes d.firstFault ++
  (List.range 16).flatMap fun i => faultBytes d.recentFaults[i]?

/-- Pages of two records that pending records span (R376). -/
def Dev.pagesPending (d : Dev) : Nat :=
  match d.jnl.pending, d.jnl.pending.getLast? with
  | a :: _, some b => b / 2 - a / 2 + 1
  | _, _ => 0

def Dev.bodyJnl (d : Dev) : List Byte := f32 d.jnl.next ++ f32 d.jnl.segment ++ f8 d.pagesPending ++ leBytes 3 0

/-- Sticky loss flags in the order PLL-S, PLL-M, PLL-Q, REFCLK. -/
def Dev.stickyPllFirst (d : Dev) : Nat := d.clk.sticky.toNat / 2 + 8 * (d.clk.sticky.toNat % 2)

def Dev.bodyClk (d : Dev) : List Byte :=
  f32 (d.pllLocks + 8 * b2n d.clk.refclkGood + 16 * d.stickyPllFirst) ++ s32 d.clk.pllqPhase

def Dev.bodyThm (d : Dev) : List Byte := s16 d.thm.tDie ++ f8 d.thm.stage ++ f8 0

/-- Number of channels in disagreement (Table 18-5). -/
def Dev.disagreeing (d : Dev) : Nat := ((List.range 128).filter fun i => d.cal.disagreeMap.getLsbD i).length

def Dev.bodyCal (d : Dev) : List Byte :=
  f64 (d.cal.lastRunTime.foldl max 0) ++ s16 d.cal.latestRunT ++ f16 d.disagreeing

def Dev.bodyPwr (d : Dev) : List Byte := f16 d.ticketsHeld ++ f16 d.ticketsQueued ++ f16 d.vbatMv ++ f16 0

/-- Every unit instance with a record, in unit order; absent units and sides have none (R4). DBG has none. -/
def Dev.snapBodies (d : Dev) : List (Nat × Nat × List Byte) :=
  [(0x00, 0, d.bodyDev), (0x01, 0, d.bodyLnk .lnk0)] ++
  (if d.dual then [(0x02, 0, d.bodyLnk .lnk1)] else []) ++
  [(0x03, 0, d.bodyHost), (0x04, 0, d.bodyPlc), (0x05, 0, d.bodyCmp 0)] ++
  (if d.dual then [(0x05, 1, d.bodyCmp 1)] else []) ++
  [(0x06, 0, d.bodyMst), (0x07, 0, d.bodyMpt 0)] ++
  (if d.dual then [(0x07, 1, d.bodyMpt 1)] else []) ++
  [(0x08, 0, d.bodySht), (0x09, 0, d.bodyGov), (0x0A, 0, d.bodyLmp 0)] ++
  (if d.dual then [(0x0A, 1, d.bodyLmp 1)] else []) ++
  [(0x0B, 0, d.bodyAux), (0x0C, 0, d.bodySaf), (0x0D, 0, d.bodyJnl), (0x0E, 0, d.bodyClk), (0x0F, 0, d.bodyThm),
   (0x10, 0, d.bodyCal), (0x11, 0, d.bodyPwr)]

/-- The 24-byte header of R368, then the body. -/
def snapRecord (unit inst source seq time : Nat) (body : List Byte) : SnapRec :=
  { unit := unit, inst := inst,
    bytes := f8 unit ++ f8 inst ++ f8 1 ++ f8 source ++ f16 body.length ++ f16 0 ++ f32 seq ++ f32 0 ++ f64 time ++ body }

/-- The tick of the latch in the live bank, from its header. -/
def Dev.latchTick (d : Dev) : Option Nat := d.saf.live.head?.map fun r => leField r.bytes 16 8

/-- The records of a latch: source, sequence number and tick in each header. -/
def Dev.latchRecords (d : Dev) (source seq time : Nat) : List SnapRec :=
  d.snapBodies.map fun r => snapRecord r.1 r.2.1 source seq time r.2.2

/-- At the end of the latch tick every unit's body is taken as it stands (R366): the banks latched in this tick take it. -/
def Dev.relatch (d : Dev) : Dev :=
  if d.latchTick = some d.now then
    let recs := d.latchRecords d.saf.lastSrc d.saf.snapSeq d.now
    let mine := d.saf.snapHeld && (d.saf.held.head?.map fun r => leField r.bytes 16 8) == some d.now
    { d with saf := { d.saf with live := recs, held := if mine then recs else d.saf.held } }
  else d

/-- Priority of a trigger source: 4, 1, 2, 3 (R366). -/
def srcRank (s : Nat) : Nat := if s = 4 then 0 else s

/-- The common snapshot trigger with a source (R366, R367): every unit latches its body into the live bank, and into the
held bank too when the source is 4 and none is held. The latch tick is the one after the trigger; until it ends the banks show
the bodies of the trigger (log entry 141). Triggers in one tick make
one latch, whose LAST_SRC is the source of highest priority. -/
def Dev.snapshot (d : Dev) (source : Nat) : Dev :=
  let again := d.latchTick == some (d.now + 1)
  let seq := if again then d.saf.snapSeq else d.saf.snapSeq + 1
  let src := if again && decide (srcRank d.saf.lastSrc < srcRank source) then d.saf.lastSrc else source
  let recs := d.latchRecords src seq (d.now + 1)
  let hold := source == 4 && !d.saf.snapHeld
  let d1 := { d with
    saf := { d.saf with
      snapSeq := seq, snapCount := if again then d.saf.snapCount else (d.saf.snapCount + 1) % 256, lastSrc := src,
      live := recs, held := if hold then recs else d.saf.held, snapHeld := d.saf.snapHeld || hold } }
  if again then d1 else (d1.setIrq 3).post 0x0C08 (source + 8 * b2n hold)

end Sys2Proof.Machine
end

