-- ==== Sys2Proof/Machine/Modes.lean ====
section
/-! DEFINITION. The standard mode table (Table 8-1), MODE_INFO (Table 8-7), and the sequence images of the store
(R216 to R221, R473), as the ROM holds them. -/

namespace Sys2Proof.Machine

open Sys2Proof

/-- How a mode's beam slots are laid out: Table 9-5, the tint images of R221, or Table 9-11. -/
inductive SeqKind where
  | mono
  | tint
  | fine
deriving DecidableEq, Repr

/-- A row of Table 8-1. `t0` and `sMax` are in slot-clock cycles, `bound` in µs, rates in Hz; `family` is 1 to 6. -/
structure ModeRow where
  mode : Nat
  family : Nat
  geom : Nat
  dual : Bool
  fieldW : Nat
  fieldH : Nat
  sideW : Nat
  overlap : Nat
  refresh : Nat
  compose : Nat
  kind : SeqKind
  t0 : Nat
  sMax : Nat
  bound : Nat
deriving DecidableEq, Repr

/-- Table 8-1, the defined positions other than the test modes. -/
def modeTable : List ModeRow := [
  ⟨0x01, 1, 1, true, 3712, 800, 1920, 128, 240, 120, .mono, 8475, 33900, 400⟩,
  ⟨0x02, 1, 1, true, 3712, 800, 1920, 128, 240, 120, .tint, 7500, 30000, 374⟩,
  ⟨0x03, 1, 1, true, 3712, 800, 1920, 128, 200, 100, .fine, 10200, 30600, 378⟩,
  ⟨0x04, 1, 1, true, 3712, 800, 1920, 128, 180, 60, .fine, 11250, 33750, 399⟩,
  ⟨0x05, 2, 2, true, 2944, 768, 1536, 128, 240, 120, .mono, 8475, 33900, 391⟩,
  ⟨0x06, 2, 2, true, 2944, 768, 1536, 128, 240, 120, .tint, 7500, 30000, 365⟩,
  ⟨0x07, 2, 2, true, 2944, 768, 1536, 128, 200, 100, .fine, 10200, 30600, 369⟩,
  ⟨0x08, 3, 3, true, 2432, 640, 1280, 128, 240, 120, .mono, 8475, 33900, 382⟩,
  ⟨0x09, 3, 3, true, 2432, 640, 1280, 128, 240, 120, .tint, 7500, 30000, 356⟩,
  ⟨0x0A, 3, 3, true, 2432, 640, 1280, 128, 200, 100, .fine, 10200, 30600, 360⟩,
  ⟨0x10, 4, 1, false, 1920, 800, 1920, 0, 240, 120, .mono, 8475, 33900, 400⟩,
  ⟨0x11, 4, 1, false, 1920, 800, 1920, 0, 240, 120, .tint, 7500, 30000, 374⟩,
  ⟨0x12, 4, 1, false, 1920, 800, 1920, 0, 200, 100, .fine, 10200, 30600, 378⟩,
  ⟨0x13, 5, 2, false, 1536, 768, 1536, 0, 240, 120, .mono, 8475, 33900, 391⟩,
  ⟨0x14, 6, 3, false, 1280, 640, 1280, 0, 240, 120, .mono, 8475, 33900, 382⟩]

/-- The row of a mode position that is defined and is no test mode. -/
def modeRow? (m : Nat) : Option ModeRow := modeTable.find? fun r => r.mode == m

/-- 0x1E and 0x1F. -/
def isTestMode (m : Nat) : Bool := m == 0x1E || m == 0x1F

/-- A position that the table defines. -/
def modeDefined (m : Nat) : Bool := isTestMode m || (modeRow? m).isSome

/-- The row of mode 0x01, for positions that have none. -/
def modeRow1 : ModeRow := ⟨0x01, 1, 1, true, 3712, 800, 1920, 128, 240, 120, .mono, 8475, 33900, 400⟩

/-- The row that a mode runs: a test mode runs its base mode (R209). -/
def Dev.rowOf (d : Dev) (m : Nat) : ModeRow := (modeRow? (if isTestMode m then d.core.baseMode else m)).getD modeRow1

/-- The mode whose timing runs: the new mode during a bridge refresh (R200), the mode in force otherwise. -/
def Dev.timingMode (d : Dev) : Nat :=
  match d.seq.change with
  | .bridging m _ _ _ _ => m
  | _ => d.core.mode

/-- The row of the mode whose timing runs. -/
def Dev.row (d : Dev) : ModeRow := d.rowOf d.timingMode

/-- The mode in force projects from both sides. -/
def Dev.twoSided (d : Dev) : Bool := d.row.dual && d.dual

/-- Sides that the mode in force includes. -/
def Dev.modeSides (d : Dev) : List Nat := if d.twoSided then [0, 1] else [0]

/-- A two-sided mode is absent on the CX7220 (R4). -/
def Dev.modePresent (d : Dev) (m : Nat) : Bool := d.dual || !(d.rowOf m).dual

/-- The geometry fitted: that of the arrays identified (R194). A side that is ABSENT or has failed identification has none
(R255). -/
def Dev.fittedGeom (d : Dev) (s : Nat) : Option Nat :=
  if (d.mport s).state = .absent ∨ d.faultActive 0x0708 s then none else (d.mport s).recordedGeom

/-- Modes whose geometry the fitted arrays have on every side of the mode. -/
def Dev.geomFits (d : Dev) (m : Nat) : Bool :=
  let r := d.rowOf m
  d.fittedGeom 0 == some r.geom && (!r.dual || d.fittedGeom 1 == some r.geom)

/-- A mode the part can run now (R194). -/
def Dev.runnable (d : Dev) (m : Nat) : Bool := (modeRow? m).isSome && d.modePresent m && d.geomFits m

/-- Refreshes per compose frame and per dither cycle (Table 8-2). -/
def ModeRow.perFrame (r : ModeRow) : Nat := r.refresh / r.compose
def ModeRow.perCycle (r : ModeRow) : Nat := if r.refresh = 180 then 12 else 4

/-- The refresh length in slot-clock cycles: the nominal period rounded to the nearest cycle (R215). -/
def ModeRow.refreshCycles (r : ModeRow) : Nat := (2 * 150000000 + r.refresh) / (2 * r.refresh)

/-- The nominal refresh period in ticks, rounded to the nearest. -/
def ModeRow.refreshTicks (r : ModeRow) : Nat := (2 * 100000000 + r.refresh) / (2 * r.refresh)

/-- LOAD_CYC (Table 9-1). -/
def loadCycles (geom : Nat) : Nat := if geom = 1 then 6000 else if geom = 2 then 4650 else 3300

/-! ### Sequence entries -/

/-- A slot entry (Table 9-4). -/
structure Entry where
  dur : Nat
  bit : Nat
  cshift : Nat
  tmask : Nat
  mix : Nat
  lead : Nat
  park : Bool
  diag : Bool
  camw : Bool
  last : Bool
  slotno : Nat
deriving DecidableEq, Repr

/-- The 64-bit word of an entry (Table 9-4). -/
def Entry.word (e : Entry) : Nat :=
  e.dur + 2 ^ 16 * e.bit + 2 ^ 20 * e.cshift + 2 ^ 24 * e.tmask + 2 ^ 28 * e.mix + 2 ^ 32 * e.lead +
  2 ^ 42 * b2n e.park + 2 ^ 43 * b2n e.diag + 2 ^ 44 * b2n e.camw + 2 ^ 45 * b2n e.last + 2 ^ 48 * e.slotno

/-- A beam slot. -/
def beamSlot (slotno bit cshift dur tmask mix : Nat) : Entry :=
  { dur := dur, bit := bit, cshift := cshift, tmask := tmask, mix := mix, lead := 750, park := false, diag := false,
    camw := false, last := false, slotno := slotno }

/-- A non-beam entry shows all off (R217). LEAD and TMASK as in Table 9-5; MIX 0. -/
def offEntry (dur : Nat) (diag camw last : Bool) : Entry :=
  { dur := dur, bit := 0xF, cshift := 0, tmask := 0xF, mix := 0, lead := 750, park := true, diag := diag, camw := camw,
    last := last, slotno := 0x3F }

/-- Table 9-5: BIT, CSHIFT and duration in t0 of SLOTNO 0 to 22. -/
def monoSlots : List (Nat × Nat × Nat) := [
  (11, 0, 4), (10, 0, 4), (11, 0, 4), (9, 0, 4), (11, 0, 4), (10, 0, 4), (11, 0, 4), (8, 0, 4), (11, 0, 4), (10, 0, 4),
  (11, 0, 4), (9, 0, 4), (11, 0, 4), (10, 0, 4), (11, 0, 4), (7, 0, 2), (6, 0, 1), (5, 1, 1), (4, 2, 1), (3, 3, 1),
  (2, 4, 1), (1, 5, 1), (0, 6, 1)]

/-- Table 9-11. -/
def fineSlots : List (Nat × Nat × Nat) := [
  (11, 0, 3), (10, 0, 3), (11, 0, 3), (9, 0, 3), (11, 0, 3), (10, 0, 3), (11, 0, 3), (8, 0, 3), (11, 0, 3), (10, 0, 3),
  (11, 0, 3), (9, 0, 3), (11, 0, 3), (10, 0, 3), (11, 0, 3), (11, 0, 3), (10, 0, 3), (11, 0, 3), (11, 0, 2), (9, 0, 2),
  (7, 0, 2), (10, 0, 1), (8, 0, 1), (6, 0, 1), (5, 1, 1), (4, 2, 1), (3, 3, 1), (2, 4, 1), (1, 5, 1), (0, 6, 1)]

/-- Number a list of slots. -/
def numberSlots (tmask t0 : Nat) : Nat → List (Nat × Nat × Nat) → List Entry
  | _, [] => []
  | n, (bit, cs, k) :: l => beamSlot n bit cs (k * t0) tmask 0 :: numberSlots tmask t0 (n + 1) l

/-- The tint slots of class k (R221). -/
def tintSlots (t0 k : Nat) : List Entry :=
  let n := 23 + 3 * (k - 1)
  [beamSlot n 11 0 (2 * t0) (2 ^ k) k, beamSlot (n + 1) 10 0 t0 (2 ^ k) k, beamSlot (n + 2) 9 1 t0 (2 ^ k) k]

/-- The beam slots of a mode. -/
def ModeRow.beamSlots (r : ModeRow) : List Entry :=
  match r.kind with
  | .mono => numberSlots 0xF r.t0 0 monoSlots
  | .tint => numberSlots 1 r.t0 0 monoSlots ++ tintSlots r.t0 1 ++ tintSlots r.t0 2 ++ tintSlots r.t0 3
  | .fine => numberSlots 0xF r.t0 0 fineSlots

/-- R219: the dark entries fill what the beam slots and the park entry leave. -/
def ModeRow.darkEntries (r : ModeRow) : List Entry :=
  let rem := r.refreshCycles - sumNat (r.beamSlots.map Entry.dur) - 6600
  let n := (rem + r.sMax - 1) / r.sMax
  (List.range n).map fun i => offEntry (rem / n + if i < rem % n then 1 else 0) false true false

/-- The entries of a mode's image, in order (R219). -/
def ModeRow.image (r : ModeRow) : List Entry := r.beamSlots ++ r.darkEntries ++ [offEntry 6600 true false true]

/-- CAMW_START and CAMW_LEN in slot-clock cycles (Table 9-9). -/
def ModeRow.camwStart (r : ModeRow) : Nat := sumNat (r.beamSlots.map Entry.dur) + loadCycles r.geom
def ModeRow.camwLen (r : ModeRow) : Nat := sumNat (r.darkEntries.map Entry.dur)

/-- Entry e of the image in force; past the end, the park entry. -/
def Dev.entry (d : Dev) (e : Nat) : Entry := d.row.image.getD e (offEntry 6600 true false true)

/-- The bytes of SEQ_IMAGE: header, then entries (R216, Table 9-3). -/
def seqImageBytes (m : Nat) : List Byte :=
  match modeRow? m with
  | some r =>
    let body := r.image.flatMap fun e => leBytes 8 e.word
    leBytes 4 (m + 2 ^ 8 * r.image.length + 2 ^ 24 * r.beamSlots.length) ++ leBytes 4 (crc32 body).toNat ++ body
  | none => leBytes 4 m ++ leBytes 4 0

/-- MODE_INFO (Table 8-7). -/
def Dev.modeInfo (d : Dev) (m : Nat) : List Byte :=
  if modeDefined m then
    let r := d.rowOf m
    let test := isTestMode m
    leBytes 1 m ++ leBytes 1 (1 + 2 * b2n (d.modePresent r.mode) + 4 * b2n (d.geomFits r.mode)) ++
    leBytes 1 (if test then 0 else r.geom) ++ leBytes 1 (1 + 2 * b2n r.dual) ++ leBytes 2 r.fieldW ++ leBytes 2 r.fieldH ++
    leBytes 2 r.sideW ++ leBytes 1 r.overlap ++ leBytes 1 (if test then 0x0F else r.family) ++
    leBytes 2 (100 * r.refresh) ++ leBytes 2 (100 * r.compose) ++ leBytes 2 (r.t0 * 2 / 3) ++
    leBytes 1 r.beamSlots.length ++ leBytes 1 r.perCycle ++ leBytes 2 (r.sMax * 2 / 3) ++
    leBytes 2 (if test then 0 else 100 * r.bound)
  else leBytes 1 m ++ List.replicate 23 0

/-- The slot-mask bits that a mode's beam slots use. -/
def ModeRow.maskBits (r : ModeRow) : Nat := 2 ^ r.beamSlots.length - 1

/-- A mask that keeps at least one beam slot of a mode (R119). -/
def maskKeeps (r : ModeRow) (mask : Word) : Bool := (mask.toNat &&& r.maskBits) != 0

end Sys2Proof.Machine
end

