-- ==== Sys2Proof/Machine/Sluice.lean ====
section
/-! DEFINITION. The Sluice: granting, queueing, denying and releasing power tickets (R434 to R436). -/

namespace Sys2Proof.Machine

open Sys2Proof

/-- Core current of an operation, mA (Table 19-7). -/
def opCore : Holder → Nat
  | .globalReset => 200
  | .ignition => 50
  | .boost _ => 30
  | .dram => 600
  | .link _ => 400
  | .erase _ => 20
  | .cal => 150
  | .catchup _ => 600

/-- Lamp current of an operation, mA (Table 19-7). -/
def Dev.opLamp (d : Dev) : Holder → Nat
  | .globalReset => 1500
  | .ignition => d.par kPwrIgnLampMa 0
  | .boost _ => 4000
  | _ => 0

/-- Operations marked exclusive (Table 19-7). -/
def opExclusive (h : Holder) : Bool := opBit h == 0 || opBit h == 3 || opBit h == 5 || opBit h == 6

/-- The request as it arrives now. -/
def Dev.slReq (d : Dev) (h : Holder) : SlReq :=
  { holder := h, core := opCore h, lamp := d.opLamp h, coreBudget := d.par kPwrCoreBudget 0,
    lampBudget := d.par kPwrLampBudget 0, asked := d.now }

/-- A request fits the tickets held (R435). -/
def Dev.slFits (d : Dev) (q : SlReq) : Bool :=
  decide (sumNat (d.sluice.held.map fun t => t.2.1) + q.core ≤ q.coreBudget) &&
  decide (sumNat (d.sluice.held.map fun t => t.2.2.1) + q.lamp ≤ q.lampBudget) &&
  !(opExclusive q.holder && d.sluice.held.any fun t => opBit t.1 == opBit q.holder)

/-- The ticket is granted and counted. A side's boost that waits for it starts, with the BST_FSW written before (R296); CATCHUP
counts each grant (R162). -/
def Dev.grant (d : Dev) (q : SlReq) : Dev :=
  let d1 := { d with sluice := { d.sluice with held := d.sluice.held ++ [(q.holder, q.core, q.lamp, d.now)] } }
  let d2 := d1.count kPwrGrants (opBit q.holder) 1
  match q.holder with
  | .boost s =>
    let p := d2.lside s.ix
    if p.boost = .waiting ∨ p.boost = .uvWait then
      (d2.applyVal (pid kLmpBstFsw s.ix)).modLside s.ix fun p =>
        { p with boost := .start, softFrom := p.vin, softTicks := 0, softTarget := p.vin }
    else d2
  | .catchup _ => d2.count kCmpCatchup 0 1
  | _ => d2

/-- The request is denied, counted and posted (Table 19-10). -/
def Dev.deny (d : Dev) (h : Holder) (afterQueue : Bool) : Dev :=
  (d.count kPwrDenials (opBit h) 1).post 0x1103 (opBit h + 8 * b2n afterQueue)

/-- A request that the Sluice denies at once (R435). -/
def Dev.deniedAtOnce (d : Dev) (q : SlReq) : Bool :=
  decide (q.coreBudget < q.core) || decide (q.lampBudget < q.lamp) ||
  (opBit q.holder == 7 && !(d.slFits q && !(d.sluice.queued.any fun r => opBit r.holder < opBit q.holder))) ||
  d.core.state == .holdup ||
  (opExclusive q.holder && d.sluice.queued.any fun r => opBit r.holder == opBit q.holder)

/-- R435: a holder asks for its ticket. A holder that has or waits for one does not ask again. -/
def Dev.request (d : Dev) (h : Holder) : Dev :=
  if d.ticketHeld h || d.ticketQueued h then d
  else
    let q := d.slReq h
    if d.deniedAtOnce q then d.deny h false
    else if d.slFits q && !(d.sluice.queued.any fun r => opBit r.holder < opBit h) then d.grant q
    else { d with sluice := { d.sluice with queued := d.sluice.queued ++ [q] } }

/-- The queued request to examine next: highest priority, earliest arrival. -/
def bestQueued : List SlReq → Option SlReq
  | [] => none
  | q :: qs =>
    match bestQueued qs with
    | none => some q
    | some r => if opBit r.holder < opBit q.holder then some r else some q

/-- After a release: grant in order while requests fit, and stop at the first that does not. -/
def Dev.examine : Nat → Dev → Dev
  | 0, d => d
  | n + 1, d =>
    match bestQueued d.sluice.queued with
    | none => d
    | some q =>
      if d.slFits q then
        Dev.examine n (({ d with sluice := { d.sluice with
          queued := d.sluice.queued.filter (fun r => r.holder != q.holder) } }).grant q)
      else d

/-- A holder gives its ticket back, or withdraws its request. -/
def Dev.release (d : Dev) (h : Holder) : Dev :=
  if d.ticketHeld h then
    Dev.examine d.sluice.queued.length
      { d with sluice := { d.sluice with held := d.sluice.held.filter (fun t => t.1 != h) } }
  else { d with sluice := { d.sluice with queued := d.sluice.queued.filter (fun r => r.holder != h) } }

/-- Entry to HOLDUP, RESET or THERMAL_OFF voids every ticket and request (R436). -/
def Dev.voidTickets (d : Dev) : Dev := { d with sluice := Sluice.reset }

end Sys2Proof.Machine
end

