-- ==== Sys2Proof/Machine/Faults.lean ====
section
/-! DEFINITION. Faults and reactions (R357 to R365): the fault reaction table, raising, escalation, the safe state of a side,
clearing, and the change of DEV_STATE (R25). -/

namespace Sys2Proof.Machine

open Sys2Proof

/-- How a fault is recovered (R362). -/
inductive Recovery where
  | auto
  | host
  | boot
deriving DecidableEq, Repr

/-- A row of Table 15-2. `alts` are the alternatives; `esc` the escalated reaction; `bySlot` marks the rows whose reaction
the slot decides. -/
structure FaultRow where
  code : Nat
  dflt : Reaction
  alts : List Reaction
  esc : Option Reaction
  recovery : Recovery
  snap : Bool
  bySlot : Bool
deriving DecidableEq, Repr

/-- Table 15-2 in table order; a row with two codes gives the LNK0 entry first (Table 15-6). -/
def faultTable : List FaultRow := [
  ⟨0x0102, .rec_, [], none, .auto, false, false⟩,
  ⟨0x0202, .rec_, [], none, .auto, false, false⟩,
  ⟨0x0107, .rec_, [], none, .auto, false, false⟩,
  ⟨0x0207, .rec_, [], none, .auto, false, false⟩,
  ⟨0x0304, .rec_, [], none, .auto, false, false⟩,
  ⟨0x0407, .side, [.rec_], none, .host, true, false⟩,
  ⟨0x0601, .rec_, [], none, .auto, false, false⟩,
  ⟨0x0602, .rec_, [.side], some .side, .auto, false, false⟩,
  ⟨0x0603, .rec_, [], some .side, .auto, false, false⟩,
  ⟨0x0702, .rec_, [.side], some .side, .auto, true, false⟩,
  ⟨0x0703, .rec_, [.side], some .side, .auto, true, false⟩,
  ⟨0x0706, .rec_, [], none, .auto, false, false⟩,
  ⟨0x0707, .side, [], none, .host, true, false⟩,
  ⟨0x0708, .side, [], none, .host, true, false⟩,
  ⟨0x0709, .side, [], none, .host, true, false⟩,
  ⟨0x070A, .side, [.rec_], none, .host, true, false⟩,
  ⟨0x0804, .rec_, [], none, .auto, false, false⟩,
  ⟨0x0805, .rec_, [], some .dev, .auto, true, false⟩,
  ⟨0x0901, .rec_, [], none, .host, true, true⟩,
  ⟨0x0902, .rec_, [], none, .host, true, true⟩,
  ⟨0x0903, .rec_, [], some .side, .auto, true, false⟩,
  ⟨0x0904, .dev, [], none, .host, true, false⟩,
  ⟨0x0A01, .ch, [], none, .host, true, false⟩,
  ⟨0x0A02, .ch, [], none, .host, true, false⟩,
  ⟨0x0A03, .rec_, [.ch], none, .auto, false, false⟩,
  ⟨0x0A04, .ch, [], none, .host, true, false⟩,
  ⟨0x0A05, .side, [], none, .host, true, false⟩,
  ⟨0x0A06, .side, [], none, .host, true, false⟩,
  ⟨0x0A07, .rec_, [], none, .auto, false, false⟩,
  ⟨0x0A08, .rec_, [.side], some .side, .auto, true, false⟩,
  ⟨0x0A09, .rec_, [.side], none, .auto, false, false⟩,
  ⟨0x0A0A, .rec_, [], none, .auto, false, false⟩,
  ⟨0x0A0B, .rec_, [], none, .auto, false, false⟩,
  ⟨0x0B01, .rec_, [], none, .auto, false, false⟩,
  ⟨0x0C01, .side, [.rec_], none, .host, true, false⟩,
  ⟨0x0C02, .side, [.rec_], none, .host, true, false⟩,
  ⟨0x0C03, .side, [.dev], none, .host, true, false⟩,
  ⟨0x0C04, .dev, [], none, .boot, true, false⟩,
  ⟨0x0D01, .rec_, [], none, .auto, false, false⟩,
  ⟨0x0E01, .dev, [], none, .host, true, false⟩,
  ⟨0x0E02, .dev, [], none, .host, true, false⟩,
  ⟨0x0E03, .rec_, [], none, .auto, true, false⟩,
  ⟨0x0E04, .dev, [], none, .host, true, false⟩,
  ⟨0x1001, .rec_, [], none, .auto, false, false⟩]

def faultRow? (code : Nat) : Option FaultRow := faultTable.find? fun r => r.code == code

/-- Slots 0 to 11 react on their channel, 12 to 21 on their side, the others record (Table 15-2). -/
def slotReaction (slot : Nat) : Reaction := if slot < 12 then .ch else if slot < 22 then .side else .rec_

/-- The side a fixed slot belongs to: 0 to 5 and 12 to 16 L, 6 to 11 and 17 to 21 R (Table 13-1). -/
def slotSide (slot : Nat) : Nat := if slot < 12 then slot / 6 else if slot < 17 then 0 else 1

/-- The reaction of a row for an instance, before escalation: REACTION_SET's choice, else the default (R362). -/
def Dev.rowReaction (d : Dev) (r : FaultRow) (inst : Nat) : Reaction :=
  if r.bySlot then slotReaction inst else (kvGet d.saf.reactions r.code).getD r.dflt

/-- The sides that a SIDE reaction of a fault acts on (R358): the one its instance names, else both. -/
def faultSides (code inst : Nat) : List Nat :=
  if code / 256 = 0x0A then (if code ≤ 0x0A05 then [chanSide inst] else if code = 0x0A0B then [0, 1] else [inst])
  else if code = 0x0901 ∨ code = 0x0902 ∨ code = 0x0904 then [slotSide inst]
  else if code = 0x0407 ∨ code = 0x0602 ∨ code = 0x0603 ∨ code / 256 = 0x07 ∨ code = 0x0903 then [inst]
  else if code = 0x0C01 ∨ code = 0x0C02 ∨ code = 0x0C03 then [inst]
  else [0, 1]

/-- The channel that a CH reaction latches off. -/
def faultChan (inst : Nat) : Nat := inst

/-! ### DEV_STATE -/

/-- DEV_STATE changes (R25): STATE_TIME, the interrupt, the event with its cause, LAST_CAUSE on entry to DEGRADED or SAFE
(Table 5-11), and STAT (R78). -/
def Dev.setState (d : Dev) (new : DevState) (cause : Nat) : Dev :=
  let prev := d.core.state
  let d1 := { d with
    core := { d.core with
      state := new, stateTime := d.now,
      lastCause := if new = DevState.degraded ∨ new = DevState.safe then cause else d.core.lastCause } }
  ((d1.setIrq 1).post 0x0001 (new.code + 16 * prev.code + 256 * cause)).sendStat

/-! ### Parking -/

/-- A command frame goes out on a port (Table 10-2). -/
def MPort.send (p : MPort) (cmd arg0 arg1 : Nat) : MPort :=
  { p with sent := { cmd := cmd, cseq := p.cseq, arg0 := arg0, arg1 := arg1 } :: p.sent, cseq := (p.cseq + 1) % 256 }

/-- A command waits for the next idle gap (R239). -/
def MPort.ask (p : MPort) (cmd arg0 arg1 : Nat) : MPort :=
  { p with queue := p.queue ++ [{ cmd := cmd, arg0 := arg0, arg1 := arg1, notBefore := 0 }] }

/-- Only SPARE frames wait on: a port that parks asks for nothing else. -/
def MPort.onlySpares (p : MPort) : MPort := { p with queue := p.queue.filter fun c => c.cmd == 0x06 }

/-- Orderly park (R254): PARK goes out first in the idle gap that follows, and PARK_N falls with it. -/
def MPort.parkOrderly (p : MPort) : MPort :=
  let q := p.onlySpares
  { q with state := .parking, orderlyPark := true, queue := { cmd := 0x03, arg0 := 0, arg1 := 0, notBefore := 0 } :: q.queue }

/-- Forced park (R254): PARK_N low at once, no command. -/
def MPort.parkForced (p : MPort) : MPort := { p.onlySpares with state := .parking, parkN := false, orderlyPark := false }

/-- A port that has been released parks; others stay as they are. -/
def MPort.park (p : MPort) (forced : Bool) : MPort :=
  match p.state with
  | .ready => if forced then p.parkForced else p.parkOrderly
  | .unpark => if forced then p.parkForced else p.parkOrderly
  | .parking => if forced then p.parkForced else p
  | _ => p

/-- A port's change at a time: the fall of PARK_N is noted. -/
def MPort.change (p : MPort) (f : MPort → MPort) (now_ : Nat) : MPort :=
  if p.parkN && !(f p).parkN then { f p with parkFell := now_ } else f p

/-- A port changes; a change of its state posts PORT_STATE (Table 10-12). -/
def Dev.modMportEv (d : Dev) (s : Nat) (f : MPort → MPort) : Dev :=
  let old := (d.mport s).state
  let d1 := d.modMport s fun p => p.change f d.now
  let new := (d1.mport s).state
  if new = old then d1 else d1.post 0x0701 (new.code + 16 * old.code + 256 * s)

/-- The park of a port is complete, or there is nothing to park (R364); a forced park is complete 20 µs after PARK_N fell. -/
def MPort.parkDone (p : MPort) (now_ : Nat) : Bool :=
  match p.state with
  | .unpark => false
  | .ready => false
  | .parking => !p.orderlyPark && decide (p.parkFell + 2000 ≤ now_)
  | .fault => decide (p.parkFell + 2000 ≤ now_)
  | _ => true

/-! ### Safe state -/

/-- Every current of the side to 0 A: set-points 0 and gates pulled to VSS (R285, Table 15-3). -/
def Dev.darkSide (d : Dev) (s : Nat) : Dev :=
  (sideChans s).foldl (fun d c => d.modChan c fun ch => { ch with setpoint := 0, gatePulled := true })
    { d with gov := { d.gov with zeroNow := d.gov.zeroNow.set s true } }

/-- The boost of a side stops, and its start ticket goes back (R296). -/
def Dev.stopBoost (d : Dev) (s : Nat) : Dev :=
  (d.modLside s fun p => { p with boost := .off }).release (.boost (if s = 0 then .L else .R))

/-- The look-ahead words of a side carry ZERO (R233). -/
def Dev.zeroWords (d : Dev) (s : Nat) : Dev :=
  { d with seq := { d.seq with
      words := d.seq.words.mod s fun l => l.map fun w => { w with zero := true },
      inForce := d.seq.inForce.mod s fun w => { w with zero := true }, projecting := d.seq.projecting.set s false } }

/-- Safe state of a side (Table 15-3), up to the change of DEV_STATE: ZERO words, boost stopped, ramps bypassed,
SAFE_LAMP_N low, currents 0 A, and the park, forced or orderly. -/
def Dev.safeSide (d : Dev) (s : Nat) (forced : Bool) : Dev :=
  let d1 := ((d.zeroWords s).stopBoost s).darkSide s
  let d2 := d1.modLside s fun p => { p with r := 0, rRamp := none, ignited := false }
  let d3 := d2.modMportEv s fun p => p.park forced
  { d3 with saf := { d3.saf with safeSides := d3.saf.safeSides.set s true, safeLamp := false } }

/-- A side that is already in safe state is left alone (R359). -/
def Dev.enterSafe (d : Dev) (s : Nat) (forced : Bool) : Dev :=
  if d.saf.safeSides.get s then (if forced then d.modMportEv s fun p => p.park true else d) else d.safeSide s forced

/-- The state and cause that SAFE_STATE_COMPLETE will set. A change to SAFE replaces one to DEGRADED; of the faults of one
tick the strongest reaction gives the cause, the lowest code on a tie (R359); otherwise the first cause stays. -/
def Dev.pend (d : Dev) (target : DevState) (cause rank : Nat) : Dev :=
  let take (t : DevState) : Dev := { d with saf := { d.saf with safePending := some (t, cause, rank, d.now) } }
  match d.saf.safePending with
  | none => take target
  | some (t, c, r, tick) =>
    let t1 := if t = .safe then .safe else target
    if tick = d.now ∧ (r < rank ∨ (r = rank ∧ cause < c)) then take t1
    else if t ≠ .safe ∧ target = .safe ∧ tick ≠ d.now then take .safe
    else { d with saf := { d.saf with safePending := some (t1, c, r, tick) } }

/-- Both sides enter safe state and the device goes to SAFE. -/
def Dev.safeAll (d : Dev) (cause rank : Nat) (forced : Bool) : Dev :=
  ((d.sides.foldl (fun d s => d.enterSafe s forced) d).pend .safe cause rank).release .ignition |>.release .globalReset

/-- A SIDE reaction on a side already in safe state is recorded only; when the reaction that put it there is of this very tick,
LAST_CAUSE still takes the strongest reaction's code, the lowest on a tie (R359). -/
def Dev.sameTick (d : Dev) (cause rank : Nat) : Dev :=
  match d.saf.safePending with
  | some (t, c, r, tick) =>
    if tick = d.now ∧ (r < rank ∨ (r = rank ∧ cause < c)) then
      { d with saf := { d.saf with safePending := some (t, cause, rank, tick) } }
    else d
  | none => d

/-- The SIDE reaction (Table 15-1, R26) in BEAM and DEGRADED. In a single-side mode a fault of side R is recorded only. -/
def Dev.reactSide (d : Dev) (s cause : Nat) (forced : Bool) : Dev :=
  if !d.modeSides.contains s then d
  else if d.saf.safeSides.get s then d.sameTick cause 2
  else if d.core.state = .beam ∧ d.twoSided ∧ !d.saf.safeSides.get (1 - s) then
    (d.enterSafe s forced).pend .degraded cause 2
  else d.safeAll cause 2 forced

/-! ### Channels -/

/-- The channels of a side that are configured and enabled (R360). -/
def Dev.liveChans (d : Dev) (s : Nat) : List Nat :=
  (sideChans s).filter fun c => d.primary c != 3 && d.lamp.enable.getLsbD c

/-- Weight of primary q in a mix of a side's MIX_TABLE (R287). -/
def Dev.mixWeight (d : Dev) (s m q : Nat) : Nat := leField (d.arr kLmpMixTable s) (6 * m + 2 * q) 2

/-- R360: the side loses its beam. A primary without live channels, and a side without weight, count for nothing (log
entry 20). -/
def Dev.losesBeam (d : Dev) (s : Nat) : Bool :=
  let live := d.liveChans s
  let out (c : Nat) : Bool := !(d.chan c).latches.isEmpty
  let load (c : Nat) : Nat := d.par kLmpINom c * d.mixWeight s 0 (d.primary c)
  let allOut := [0, 1, 2].any fun q =>
    let cs := live.filter fun c => d.primary c == q
    d.mixWeight s 0 q != 0 && !cs.isEmpty && cs.all out
  let total := sumNat (live.map load)
  let lost := sumNat ((live.filter out).map load)
  allOut || (decide (0 < total) && decide (d.par kSafBeamLossPct s * total ≤ 100 * lost))

/-- A channel is latched off by a fault code: driven at 0 A through the pull-down (R285, R303), which waits for the output
ramp of a current slot in SAFE (R327). -/
def Dev.latch (d : Dev) (c code : Nat) : Dev :=
  d.modChan c fun ch => { ch with
    latches := if ch.latches.contains code then ch.latches else ch.latches ++ [code], setpoint := 0,
    gatePulled := ch.gatePulled || (d.slot c).st != .safe || (d.slot c).safeLeft == 0 }

/-- FAULT_ACTIVE and the active state carry the reaction applied (Table 15-6): SIDE for a channel fault that cost its side the
beam. -/
def Dev.markSide (d : Dev) (code inst : Nat) : Dev :=
  { d with saf := { d.saf with
      active := d.saf.active.map fun f => if f.code = code ∧ f.inst = inst then { f with reaction := .side } else f
      listed := d.saf.listed.map fun e => if e.1 = code ∧ e.2.1 = inst then (code, inst, .side) else e } }

/-- The CH reaction: the channel is latched off, and SIDE applies when the side loses its beam (Table 15-1), which makes the fault
a SIDE cause that keeps SAFE until it is cleared (R363). -/
def Dev.reactCh (d : Dev) (c code : Nat) : Dev :=
  let d1 := d.latch c code
  if d1.losesBeam (chanSide c) ∧ d1.modeSides.contains (chanSide c) then
    (d1.markSide code c).reactSide (chanSide c) code false
  else d1

/-! ### Raising -/

/-- A reaction acts in BEAM and DEGRADED only (R359). -/
def Dev.react (d : Dev) (code inst : Nat) (r : Reaction) (forced : Bool) : Dev :=
  if d.core.state = .beam ∨ d.core.state = .degraded then
    match r with
    | .rec_ => d
    | .ch => d.reactCh (faultChan inst) code
    | .side => (faultSides code inst).foldl (fun d s => d.reactSide s code forced) d
    | .dev => d.safeAll code 3 forced
  else d

/-- Raisings of a code and instance within the last second, this one included (R361). -/
def Dev.recentRaises (d : Dev) (code inst : Nat) : Nat :=
  (d.saf.history.filter fun h => h.1 == code && h.2.1 == inst && decide (d.now < h.2.2 + 100000000)).length

/-- FAULT_ACTIVE takes an active fault (R357). -/
def Dev.listFault (d : Dev) (code inst : Nat) (r : Reaction) : Dev :=
  let l := d.saf.listed
  if l.length < 32 then { d with saf := { d.saf with listed := l ++ [(code, inst, r)] } }
  else
    match l.find? fun e => decide (e.2.2.code < r.code) with
    | some e => { d with saf := { d.saf with listed := l.erase e ++ [(code, inst, r)] } }
    | none => d.count kSafFaultOverflow 0 1

/-- The fault becomes active, or is raised again while active and makes no second entry (R357). -/
def Dev.activate (d : Dev) (code inst arg : Nat) (r : Reaction) : Dev :=
  let n := d.saf.raiseNo + 1
  let d0 := { d with saf := { d.saf with raiseNo := n } }
  if d.faultActive code inst then
    { d0 with saf := { d0.saf with
        active := d0.saf.active.map (fun f => if f.code = code ∧ f.inst = inst then
          { f with arg := arg, reaction := r, last := n, raisedAt := d.now, actionDone := false } else f),
        listed := d0.saf.listed.map fun e => if e.1 = code ∧ e.2.1 = inst then (code, inst, r) else e } }
  else
    let f : ActiveFault := { code := code, inst := inst, arg := arg, reaction := r, since := n, last := n,
                             raisedAt := d.now, actionDone := false }
    let d1 := { d0 with
      saf := { d0.saf with active := d0.saf.active ++ [f] },
      jnl := { d0.jnl with acc := { d0.jnl.acc with
        newFaults := d0.jnl.acc.newFaults + 1,
        firstFault := d0.jnl.acc.firstFault.or (some (code, inst, r)) } } }
    d1.listFault code inst r

/-- A fault of side R that is not raised: in a mode of families F4 to F6 the CX7240 raises none (R193). While side R is being
powered up for a change to a two-sided mode, its port's faults are raised (log entry 124). -/
def Dev.mutedFault (d : Dev) (code inst : Nat) : Bool :=
  d.dual && d.core.modeValid && !d.row.dual && faultSides code inst == [1] &&
  !(code / 256 == 0x09 && decide (22 ≤ inst)) &&
  !(code / 256 == 0x07 && (match d.seq.change with | .pending m _ _ _ => (d.rowOf m).dual | _ => false))

/-- Raise a fault (R357): event, interrupt, active state, snapshot when the row says so, and reaction. `portFault` marks a
fault that puts a mirror port in FAULT, which takes SIDE (R361); `forced` asks for the forced park. -/
def Dev.raiseWith (d : Dev) (code inst arg : Nat) (portFault forced : Bool) : Dev :=
  match faultRow? code with
  | none => d.post code arg
  | some row =>
    if d.mutedFault code inst then d else
    let d1 := (d.post code arg).setIrq 2
    let d2 := { d1 with
      saf := { d1.saf with history := (code, inst, d.now) ::
        d1.saf.history.filter fun h => decide (d.now < h.2.2 + 100000000) } }
    let own := d2.rowReaction row inst
    let r := if portFault then .side
      else match row.esc with
        | some e => if d.par kSafEscCount 0 ≤ d2.recentRaises code inst then e else own
        | none => own
    let d3 := (d2.activate code inst arg r).react code inst r forced
    if row.snap then d3.snapshot 4 else d3

def Dev.raise (d : Dev) (code inst arg : Nat) : Dev := d.raiseWith code inst arg false false

/-! ### Clearing -/

/-- The fault leaves the active state and the list, and FAULT_CLEARED is posted (R363). A channel it held latched off is
released unless another fault holds it. -/
def Dev.clearFault (d : Dev) (code inst : Nat) : Dev :=
  if d.faultActive code inst then
    ({ d with saf := { d.saf with
        active := d.saf.active.filter (fun f => !(f.code == code && f.inst == inst)),
        listed := d.saf.listed.filter (fun e => !(e.1 == code && e.2.1 == inst)) } }).post 0x0C07 (code + 0x10000 * inst)
  else d

/-- An action named by a clearing condition was accepted after the fault was last raised (R363). -/
def Dev.actionDone (d : Dev) (code inst : Nat) : Dev :=
  { d with saf := { d.saf with active := d.saf.active.map fun f =>
      if f.code = code ∧ f.inst = inst then { f with actionDone := true } else f } }

end Sys2Proof.Machine
end

