-- ==== Sys2Proof/Machine/Curves.lean ====
section
/-! DEFINITION. Exact integer arithmetic for the functions the manual names by formula: square roots, sines, exponentials,
logarithms in fixed point, the filter coefficients of R177, and the ramp curves of R300. -/

namespace Sys2Proof.Machine

open Sys2Proof

/-- The integer square root, bit by bit from bit n down. -/
def isqrtGo (v : Nat) : Nat → Nat → Nat
  | 0, r => if (r + 1) * (r + 1) ≤ v then r + 1 else r
  | n + 1, r => isqrtGo v n (if (r + 2 ^ (n + 1)) * (r + 2 ^ (n + 1)) ≤ v then r + 2 ^ (n + 1) else r)

/-- The integer square root of a number below 2^128. -/
def isqrt (v : Nat) : Nat := isqrtGo v 63 0

/-! ### Fixed point with 60 fraction bits -/

def fxOne : Int := 1152921504606846976
def fxMul (a b : Int) : Int := a * b / fxOne
def fxPi : Int := 3622009729038561421
def fxLn2 : Int := 799144290325165979

/-- n / d in fixed point. -/
def fxRat (n : Int) (d : Nat) : Int := n * fxOne / (d : Int)

/-- Σ (−1)^k y^(2k+1) / (2k+1)! by terms: t is the k-th term. -/
def sinTerms (y2 : Int) : Nat → Nat → Int → Int
  | 0, _, t => t
  | n + 1, k, t => t + sinTerms y2 n (k + 1) (-(fxMul t y2) / ((2 * k + 2) * (2 * k + 3) : Nat))

/-- sin(π n / d), d > 0. -/
def sinPi (n : Int) (d : Nat) : Int :=
  let m := n % (2 * (d : Int))
  let neg := decide ((d : Int) ≤ m)
  let m1 := if (d : Int) ≤ m then m - d else m
  let m2 := if (d : Int) < 2 * m1 then d - m1 else m1
  let y := fxPi * m2 / (d : Int)
  let s := sinTerms (fxMul y y) 14 0 y
  if neg then -s else s

/-- cos(π n / d). -/
def cosPi (n : Int) (d : Nat) : Int := sinPi (2 * n + d) (2 * d)

/-- sin(πx)/(πx) for x = n / d (R177). -/
def sincQ (n : Int) (d : Nat) : Int :=
  if n = 0 then fxOne else sinPi n d * fxOne / (fxPi * n / (d : Int))

/-- Σ y^k / k! by terms. -/
def expTerms (y : Int) : Nat → Nat → Int → Int
  | 0, _, t => t
  | n + 1, k, t => t + expTerms y n (k + 1) (fxMul t y / ((k + 1 : Nat) : Int))

/-- 2 to the power x, in fixed point, for |x| < 64. -/
def fxExp2 (x : Int) : Int :=
  let n := x / fxOne
  let f := x % fxOne
  let e := expTerms (fxMul f fxLn2) 20 0 fxOne
  if 0 ≤ n then e * (2 ^ n.toNat : Nat) else e / (2 ^ (-n).toNat : Nat)

/-- Σ z^(2k+1) / (2k+1). -/
def atanhTerms (z2 : Int) : Nat → Nat → Int → Int
  | 0, k, t => t / ((2 * k + 1 : Nat) : Int)
  | n + 1, k, t => t / ((2 * k + 1 : Nat) : Int) + atanhTerms z2 n (k + 1) (fxMul t z2)

/-- The natural logarithm of m in 1 to 2. -/
def lnUnit (m : Int) : Int :=
  let z := (m - fxOne) * fxOne / (m + fxOne)
  2 * atanhTerms (fxMul z z) 22 0 z

/-- The logarithm to base 2 of n / d in fixed point, n and d positive. -/
def fxLog2 (n d : Nat) : Int :=
  let e : Int := (Nat.log2 n : Int) - Nat.log2 d
  let m := if 0 ≤ e then fxRat n (d * 2 ^ e.toNat) else fxRat ((n * 2 ^ (-e).toNat : Nat) : Int) d
  let e1 := if m < fxOne then e - 1 else e
  let m1 := if m < fxOne then 2 * m else m
  e1 * fxOne + lnUnit m1 * fxOne / fxLn2

/-- The natural logarithm of n / d. -/
def fxLn (n d : Nat) : Int := fxMul (fxLog2 n d) fxLn2

/-! ### Windowed sinc (R177, filter 0) -/

/-- r of R177 in sixteenths: min(1, N / S), rounded down, not below 1/4. -/
def sincR (s n : Nat) : Nat := max 4 (min 16 (16 * n / s))

/-- h of R177 for tap k at phase p: x is r·(k − p/64) in 1/1024. -/
def sincH (r a : Nat) (k : Int) (p : Nat) : Int :=
  let x : Int := (r : Int) * (64 * k - p)
  fxMul (fxMul (fxRat r 16) (sincQ x 1024)) (sincQ x (1024 * a))

/-- The first position of the largest value. -/
def argMax (l : List Int) : Nat :=
  (List.range l.length).foldl (fun b i => if l.getD b 0 < l.getD i 0 then i else b) 0

/-- The coefficients of one phase: `taps` taps from −before on, summing to 1,024. -/
def sincPhase (taps before a s n p : Nat) : List Int :=
  let hs := (List.range taps).map fun (k : Nat) => sincH (sincR s n) a ((k : Int) - before) p
  let sum := sumInt hs
  let cs := hs.map fun h => roundAway (1024 * h) sum.toNat
  let m := argMax cs
  cs.set m (cs.getD m 0 + (1024 - sumInt cs))

/-! ### Ramp curves (R300) -/

/-- A ramp curve setting: CURVE and GAMMA of RAMP_CURVE. -/
structure CurveSet where
  curve : Nat
  gamma : Nat
deriving DecidableEq, Repr

/-- f(u) in fixed point; u in 1/2^32, at most 2^32. The linear curve is exact; the others carry an error of at most
1/65,535, a free value (log entry 7). -/
def curveF (c : CurveSet) (u : Nat) : Int :=
  if u = 0 then 0
  else if 4294967296 ≤ u then fxOne
  else
    let err := clampI (-1) 1 (Config.curveError c.curve c.gamma u) * fxOne / 65535
    if c.curve = 1 then
      clampI 0 fxOne ((fxExp2 (10 * (u : Int) * 268435456) - fxOne) / 1023 + err)
    else if c.curve = 2 then
      clampI 0 fxOne (fxExp2 (fxLog2 u 4294967296 * (c.gamma : Int) / 32) + err)
    else fxRat u 4294967296

/-- u at the k-th boundary of a ramp of L ticks with a refresh of t ticks, in 1/2^32. -/
def rampU (k t len : Nat) : Nat := if len = 0 then 4294967296 else min 4294967296 (k * t * 4294967296 / len)

/-- The value of a ramp from s to e at progress u, rounded half up (R300). -/
def rampValue (c : CurveSet) (s e u : Nat) : Nat :=
  if s ≤ e then s + (((e : Int) - s) * curveF c u * 2 + fxOne).toNat / (2 * fxOne.toNat)
  else
    e + (((s : Int) - e) * curveF c (4294967296 - u) * 2 + fxOne).toNat / (2 * fxOne.toNat)

end Sys2Proof.Machine
end

