-- ==== Sys2Proof/Machine/Pixel.lean ====
section
/-! DEFINITION. Pixel arithmetic of chapters 6 and 7: sample packing, format expansion, look-up tables, premultiplication,
scalers, blending, gain map and ramp, on exact integers (R159). -/

namespace Sys2Proof.Machine

open Sys2Proof

/-! ### Formats (Tables 6-2 and 6-3) -/

/-- A code of Table 6-2. -/
def formatOk (f : Nat) : Bool := [0x01, 0x02, 0x03, 0x10, 0x11, 0x12, 0x13, 0x20, 0x21, 0x30].contains f

/-- Three planes: the YCbCr formats. -/
def isYc (f : Nat) : Bool := f == 0x10 || f == 0x11 || f == 0x12 || f == 0x13
def is420 (f : Nat) : Bool := f == 0x10 || f == 0x11
def isSymbol (f : Nat) : Bool := f == 0x20 || f == 0x21
def widthAlign (f : Nat) : Nat :=
  match f with
  | 0x02 => 2
  | 0x10 => 2
  | 0x11 => 6
  | 0x12 => 2
  | 0x13 => 6
  | 0x20 => 4
  | _ => 1

/-- The sample group in which X0 and COUNT are aligned. -/
def sampleGroup (f : Nat) : Nat :=
  match f with
  | 0x02 => 2
  | 0x11 => 3
  | 0x13 => 3
  | 0x20 => 4
  | _ => 1

/-- Bytes of n samples (Table 6-3). -/
def sampleBytes (f n : Nat) : Nat :=
  match f with
  | 0x01 => 2 * n
  | 0x02 => 3 * (n / 2)
  | 0x11 => 4 * ((n + 2) / 3)
  | 0x13 => 4 * ((n + 2) / 3)
  | 0x20 => n / 4
  | _ => n

/-- Sample i of a packed row (R136). -/
def sampleAt (f : Nat) (bs : List Byte) (i : Nat) : Nat :=
  match f with
  | 0x01 => leField bs (2 * i) 2
  | 0x02 => bitsOf (leField bs (3 * (i / 2)) 3) (12 * (i % 2)) 12
  | 0x11 => bitsOf (leField bs (4 * (i / 3)) 4) (10 * (i % 3)) 10
  | 0x13 => bitsOf (leField bs (4 * (i / 3)) 4) (10 * (i % 3)) 10
  | 0x20 => bitsOf (byteAt bs (i / 4)) (2 * (i % 4)) 2
  | _ => byteAt bs i

/-- Samples per row and rows of each plane. -/
def planeSizes (f w h : Nat) : List (Nat × Nat) :=
  if isYc f then
    let ch := if is420 f then h / 2 else h
    [(w, h), (w / 2, ch), (w / 2, ch)]
  else [(w, h)]

/-- The row of a plane that belongs to source row r. -/
def planeRow (f plane r : Nat) : Nat := if plane ≠ 0 && is420 f then r / 2 else r

/-- n rounded up to a whole number of k. -/
def roundUp (n k : Nat) : Nat := (n + k - 1) / k * k

/-- Bytes of a source-format buffer and of an expanded one (R139), before whole blocks. -/
def sourceBytes (f w h : Nat) : Nat :=
  sumNat ((planeSizes f w h).map fun p => roundUp (sampleBytes f p.1) 64 * p.2)
def expandedBytes (w h : Nat) : Nat := roundUp (4 * w) 64 * h

/-! ### Expansion (R137) -/

/-- A layer pixel: intensity, coverage and tint class. -/
structure LPix where
  i : Nat
  a : Nat
  t : Nat
deriving DecidableEq, Repr

/-- The pixel that shows nothing. -/
def LPix.clear : LPix := ⟨0, 0, 0⟩

/-- The per-layer settings that expansion uses (Table 6-14). -/
structure Expand where
  format : Nat
  tint : Nat
  intensity : Nat
  chroma : Bool
  limited : Bool
  palette : List Word
  refs : List Nat
  chromaMin : Nat
deriving DecidableEq, Repr

/-- Luma expansion. -/
def expandLuma (limited tenBit : Bool) (y : Nat) : Nat :=
  if limited then
    (clampI 0 65535 (if tenBit then roundHalfUp (((y : Int) - 64) * 65535) 876
                     else roundHalfUp (((y : Int) - 16) * 65535) 219)).toNat
  else if tenBit then 64 * y + y / 16
  else 257 * y

def dist (a b : Nat) : Nat := ((a : Int) - b).natAbs

/-- The tint class of a chroma pair. -/
def chromaTint (e : Expand) (cb cr : Nat) : Nat :=
  if dist cb 128 + dist cr 128 < e.chromaMin then 0
  else
    let dk (k : Nat) : Nat := dist cb (e.refs.getD k 0 % 256) + dist cr (e.refs.getD k 0 / 256)
    if dk 1 ≤ dk 2 && dk 1 ≤ dk 3 then 1 else if dk 2 ≤ dk 3 then 2 else 3

/-- A palette entry as a pixel (Table 6-5). -/
def paletteEntry (w : Word) : LPix :=
  ⟨bitsOf w.toNat 0 16, bitsOf w.toNat 16 8, bitsOf w.toNat 24 2⟩

/-- Expansion of a luma or single-plane sample v with chroma samples cb and cr (Table 6-4). -/
def expandSample (e : Expand) (v cb cr : Nat) : LPix :=
  let tenBit := e.format == 0x11 || e.format == 0x13
  match e.format with
  | 0x01 => ⟨v, 255, e.tint⟩
  | 0x02 => ⟨16 * v + v / 256, 255, e.tint⟩
  | 0x03 => ⟨257 * v, 255, e.tint⟩
  | 0x20 => paletteEntry (e.palette.getD v 0)
  | 0x21 => paletteEntry (e.palette.getD v 0)
  | 0x30 => ⟨e.intensity, v, e.tint⟩
  | _ =>
    let c (x : Nat) : Nat := if tenBit then x / 4 else x
    ⟨expandLuma e.limited tenBit v, 255, if e.chroma then chromaTint e (c cb) (c cr) else e.tint⟩

/-- The samples of a row of a plane. -/
def storedRow (rows : List Row) (plane row : Nat) : Option (List (Option Nat)) :=
  (rows.find? fun r => r.plane == plane && r.row == row).map Row.samples

/-- A sample of a row list. -/
def sampleOf (rows : List Row) (plane row x : Nat) : Option Nat := ((storedRow rows plane row).getD []).getD x none

/-- The layer pixel at source (x, y) of a source-format buffer; a blank row has A = 0 (R146). -/
def sourcePixel (e : Expand) (rows : List Row) (blank : List Nat) (x y : Nat) : LPix :=
  if blank.contains y then LPix.clear
  else
    match sampleOf rows 0 y x with
    | none => LPix.clear
    | some v =>
      let cy := planeRow e.format 1 y
      expandSample e v ((sampleOf rows 1 cy (x / 2)).getD 0) ((sampleOf rows 2 cy (x / 2)).getD 0)

/-- The word of a pixel in expanded format (R139), and back. -/
def LPix.word (p : LPix) : Nat := p.i % 65536 + 65536 * (p.a % 256) + 16777216 * (p.t % 4)
def LPix.ofWord (w : Nat) : LPix := ⟨bitsOf w 0 16, bitsOf w 16 8, bitsOf w 24 2⟩

/-- The pixel at (x, y) of an expanded buffer. -/
def expandedPixel (rows : List Row) (blank : List Nat) (x y : Nat) : LPix :=
  if blank.contains y then LPix.clear
  else match sampleOf rows 0 y x with | some w => LPix.ofWord w | none => LPix.clear

/-! ### Look-up tables (R170, R171) and premultiplication (R173) -/

def preLut (table : List Byte) (i : Nat) : Nat := leField table (2 * (i / 16)) 2

def postLut (table : List Byte) (c : Nat) : Nat :=
  let k := c / 256
  let f := c % 256
  let a := leField table (2 * k) 2
  let b := leField table (2 * min (k + 1) 4095) 2
  ((a : Int) + (((b : Int) - a) * f + 128) / 256).toNat

/-- A premultiplied pixel: P, A, T. -/
structure PPix where
  p : Nat
  a : Nat
  t : Nat
deriving DecidableEq, Repr

def premultiply (x : LPix) (alpha : Nat) : PPix :=
  let a := (x.a * alpha + 127) / 255
  ⟨(x.i * a + 127) / 255, a, x.t⟩

/-! ### Scalers (R175 to R177) -/

/-- The four signed 12-bit fields of a coefficient table. -/
def coefField (table : List Byte) (taps p k : Nat) : Int := signed 12 (leField table (2 * (taps * p + k)) 2)

/-- The coefficients of a phase for a filter: vertical (4 taps from −1) or horizontal (8 taps from −3). -/
def coefs (filter : Nat) (vertical : Bool) (custom : List Byte) (s n p : Nat) : List Int :=
  let taps := if vertical then 4 else 8
  let before := if vertical then 1 else 3
  if filter = 0 then sincPhase taps before (if vertical then 2 else 4) s n p
  else
    (List.range taps).map fun k =>
      if filter = 1 then (if k = before then 1024 - 16 * (p : Int) else if k = before + 1 then 16 * (p : Int) else 0)
      else if filter = 2 then
        (if k = before then (if p < 32 then 1024 else 0) else if k = before + 1 then (if p < 32 then 0 else 1024) else 0)
      else coefField custom taps p k

/-- Source index and phase of output index x (R176). -/
def scalePos (s n x : Nat) : Int × Nat :=
  let step := (s * 65536 + n / 2) / n
  let pos : Int := (step / 2 : Nat) - 32768 + ((x * step : Nat) : Int)
  (pos / 65536, ((pos / 1024) % 64).toNat)

/-- A source index held to the image. -/
def clampIx (s : Nat) (i : Int) : Nat := (clampI 0 ((s : Int) - 1) i).toNat

/-- One direction: taps of premultiplied pixels around i, rounded and held to range (R175). -/
def filterTaps (cs : List Int) (taps : List PPix) (phase before : Nat) : PPix :=
  let acc (f : PPix → Nat) : Int := (sumInt ((cs.zip taps).map fun ct => ct.1 * (f ct.2 : Int)) + 512) / 1024
  let a := (clampI 0 255 (acc PPix.a)).toNat
  let p := (clampI 0 65535 (acc PPix.p)).toNat
  let near := taps.getD (if phase < 32 then before else before + 1) ⟨0, 0, 0⟩
  ⟨min p (a * 257), a, near.t⟩

/-- The scaled pixel at output (x, y): vertical first, then horizontal. -/
def scalePixel (filter : Nat) (cv ch : List Byte) (sw sh nw nh : Nat) (src : Nat → Nat → PPix) (x y : Nat) : PPix :=
  let (iy, py) := scalePos sh nh y
  let (ix, px) := scalePos sw nw x
  let kv := coefs filter true cv sh nh py
  let kh := coefs filter false ch sw nw px
  let column (c : Nat) : PPix :=
    filterTaps kv ((List.range 4).map fun (k : Nat) => src c (clampIx sh (iy + k - 1))) py 1
  filterTaps kh ((List.range 8).map fun (k : Nat) => column (clampIx sw (ix + k - 3))) px 3

/-- Source rows that output row y depends on. -/
def rowSupport (sh nh y : Nat) : List Nat := (List.range 4).map fun (k : Nat) => clampIx sh ((scalePos sh nh y).1 + k - 1)
def colSupport (sw nw x : Nat) : List Nat := (List.range 8).map fun (k : Nat) => clampIx sw ((scalePos sw nw x).1 + k - 3)

/-! ### Base layer (R152, R153) -/

/-- Size of a library image of a geometry. -/
def imageSize (geom : Nat) : Nat × Nat := if geom = 1 then (480, 200) else if geom = 2 then (384, 192) else (320, 160)
def imageBytes (geom : Nat) : Nat := 2 * (imageSize geom).1 * (imageSize geom).2

/-- The intensity of a quarter-resolution image pixel: 12 bits expanded as I12; an image that is not there is dark. -/
def imageIntensity (img : List Byte) (w x y : Nat) : Nat :=
  let v := leField img (2 * (w * y + x)) 2 % 4096
  16 * v + v / 256

/-- The mix of two intensities with a weight of 65,535 for the second; the rounding is free (log entry 23). -/
def mixIntensity (a b w : Nat) : Nat :=
  let n := a * (65535 - w) + b * w
  if n % 65535 = 0 then n / 65535 else if Config.fadeRoundsUp n then n / 65535 + 1 else n / 65535

/-- The base layer's pixel at (x, y) of the side before its offset: each image upsampled by 4 with the bilinear filter of
R177, and mixed over what it fades from. -/
def Base.pixel (b : Base) (geom x y : Nat) : PPix :=
  let (w, h) := imageSize geom
  let up (img : List Byte) : Nat :=
    (scalePixel 1 [] [] w h (4 * w) (4 * h) (fun sx sy => ⟨imageIntensity img w sx sy, 255, 0⟩) x y).p
  let old := b.under.foldl (fun i m => mixIntensity i (up m.1) m.2) 0
  ⟨if b.weight = 65535 then up b.image else mixIntensity old (up b.image) b.weight, 255, 0⟩

/-! ### Blending (R174) -/

/-- C and T after a layer (Table 7-3). -/
def blendStep (mode thresh : Nat) (x : PPix) (ct : Nat × Nat) : Nat × Nat :=
  let c := ct.1
  if mode = 0 then
    (min 1048575 (x.p * 16 + (c * (255 - x.a) + 127) / 255), if thresh ≤ x.a then x.t else ct.2)
  else if mode = 1 then
    (min 1048575 (c + x.p * 16), if thresh ≤ x.a && 0 < x.p then x.t else ct.2)
  else
    let f := min 65535 ((255 - x.a) * 257 + x.p)
    (min 1048575 ((c * f + 32767) / 65535), ct.2)

/-! ### Gain map and ramp (R181, R182) -/

/-- The bilinear gain of an axis: index and 4-bit weight. -/
def gainPos (x w : Nat) : Nat × Nat :=
  let px := 2 * x - 7
  if w - 1 ≤ px / 16 then (w - 1, 0) else (px / 16, px % 16)

def gained (map : List Byte) (w h x y intensity : Nat) : Nat :=
  let (i, fx) := gainPos x w
  let (j, fy) := gainPos y h
  let g (a b : Nat) : Nat := leField map (2 * (w * min b (h - 1) + min a (w - 1))) 2
  let k := ((g i j * (16 - fx) + g (i + 1) j * fx) * (16 - fy) +
            (g i (j + 1) * (16 - fx) + g (i + 1) (j + 1) * fx) * fy + 128) / 256
  min 65535 ((intensity * k + 16384) / 32768)

/-- The overlap ramp of band column k of V. -/
def ramped (ramp : List Byte) (k v intensity : Nat) : Nat :=
  (intensity * leField ramp (2 * (k * 128 / v)) 2 + 32768) / 65536

/-! ### Thumbnail (R186) -/

/-- An 8-bit thumbnail sample of a 16-bit mean. -/
def thumbSample (curve m : Nat) : Nat :=
  if curve = 0 then min 255 ((m + 128) / 256) else (isqrt (260100 * m / 65535) + 1) / 2

end Sys2Proof.Machine
end

