-- ==== Sys2Proof/Machine/NorOps.lean ====
section
/-! DEFINITION. The QSPI NOR: its bytes, the pattern library (R152, R154, R155), the boot directory (R429), and the checks of an
image (R428). -/

namespace Sys2Proof.Machine

open Sys2Proof

/-! ### Bytes (R426) -/

/-- The one canonical form: addresses strictly rising, and no byte listed that an erased address reads as anyway. -/
def Memory.wf (l : List Host.Cell) : Bool := kvSorted l && l.all fun c => c.2 != Config.erasedByte

/-- What an address reads as: an address that nothing has programmed reads as erased (log entry 9). -/
def norByte (l : List Host.Cell) (a : Nat) : Byte := (kvGet l a).getD Config.erasedByte

/-- One byte is stored. -/
def norPut (l : List Host.Cell) (a : Nat) (b : Byte) : List Host.Cell := kvPut l a b Config.erasedByte

/-- n bytes from an offset on. -/
def norBytes (l : List Host.Cell) (off n : Nat) : List Byte := (List.range n).map fun i => norByte l (off + i)

/-- Bytes are stored from an offset on. -/
def norStore (l : List Host.Cell) (off : Nat) : List Byte → List Host.Cell
  | [] => l
  | b :: bs => norStore (norPut l off b) (off + 1) bs

/-- n bytes from an offset on are erased. -/
def norErase (l : List Host.Cell) (off n : Nat) : List Host.Cell :=
  l.filter fun c => decide (c.1 < off) || decide (off + n ≤ c.1)

/-- Bytes programmed over bytes that are not all erased: where the byte was not erased, what it then holds is a free value (log
entry 35). -/
def norOver (l : List Host.Cell) (off seed : Nat) (bs : List Byte) : List Byte :=
  bs.mapIdx fun i b => if norByte l (off + i) = Config.erasedByte then b else (Config.freeValue (seed + i)).setWidth 8

def Dev.modCells (d : Dev) (f : List Host.Cell → List Host.Cell) : Dev := { d with nor := { d.nor with cells := f d.nor.cells } }

/-- NOR bytes are programmed without erase. -/
def Dev.norProgram (d : Dev) (off : Nat) (bs : List Byte) : Dev :=
  let v := norOver d.nor.cells off d.freeCount bs
  { d.modCells fun l => norStore l off v with freeCount := d.freeCount + bs.length }

/-- A range whose read-back fails: what it holds is a free value (log entry 36). -/
def Dev.norBad (d : Dev) (off n : Nat) : Dev :=
  let v := (List.range n).map fun i => (Config.freeValue (d.freeCount + i)).setWidth 8
  { d.modCells fun l => norStore l off v with freeCount := d.freeCount + n }

/-! ### Pattern library (Table 19-3) -/

/-- Image i of side s. -/
def patOffset (s i : Nat) : Nat := 0x600000 + (16 * s + i) * 0x30000

def Dev.patBytes (d : Dev) (s i : Nat) : List Byte := norBytes d.nor.cells (patOffset s i) (imageBytes d.nor.patGeom)

/-- An image as a slot takes it; `good` says whether it passes its check (R154). An image not valid is not read. -/
def Dev.loadImage (d : Dev) (s i : Nat) (good : Bool) : Resident :=
  let valid := (d.nor.patValid.get s).getLsbD i
  { image := i, good := valid && good, pixels := if valid then d.patBytes s i else [] }

/-- The three resident patterns of a side are read and checked at BOOT (Table 19-6). -/
def Dev.loadResident (d : Dev) (s : Nat) : Dev :=
  let slot (key : Nat) : Resident :=
    let i := d.par key s
    let r := d.loadImage s i true
    { r with good := r.good && crc32 r.pixels == (d.nor.patCrc.get s).getD i 0 }
  d.modBase s fun b => { b with low := slot kPlcPatLow, high := slot kPlcPatHigh, fallback := slot kPlcPatFallback }

/-! ### Boot directory (R429) -/

/-- The record with the higher DSEQ. -/
def newerDir (a b : DirRec) : DirRec := if a.dseq < b.dseq then b else a

/-- The newest record across both sectors. -/
def Nor.newestDir (n : Nor) : Option DirRec :=
  match n.dir0 ++ n.dir1 with
  | [] => none
  | r :: rs => some (rs.foldl newerDir r)

/-- Without a record, boot proceeds as if PREF were A and both valid flags set (R430). -/
def Nor.dirRec (n : Nor) : DirRec :=
  n.newestDir.getD { dseq := 0, pref := 0, validA := true, validB := true, trial := false, tries := 0 }

/-- The sector that holds the newest record, and continues. -/
def Nor.dirSector (n : Nor) : Nat :=
  match n.newestDir with
  | some r => if n.dir1.contains r then 1 else 0
  | none => 0

def Nor.dirLen (n : Nor) (s : Nat) : Nat := if s = 0 then n.dir0.length else n.dir1.length

def Nor.addDir (n : Nor) (s : Nat) (r : DirRec) : Nor :=
  if s = 0 then { n with dir0 := n.dir0 ++ [r] } else { n with dir1 := n.dir1 ++ [r] }

/-- Bytes 0 to 31 of a record (Table 19-5); reserved bytes 0. -/
def DirRec.bytes (r : DirRec) : List Byte :=
  let b := leBytes 4 0x7240D1C0 ++ leBytes 4 r.dseq ++ leBytes 1 r.pref ++
    leBytes 1 (b2n r.validA + 2 * b2n r.validB + 4 * b2n r.trial) ++ leBytes 1 r.tries ++ List.replicate 17 0
  b ++ leBytes 4 (crc32 b).toNat

/-- The valid flag of an image. -/
def DirRec.valid (r : DirRec) (img : Nat) : Bool := if img = 0 then r.validA else r.validB

def DirRec.setValid (r : DirRec) (img : Nat) (v : Bool) : DirRec := if img = 0 then { r with validA := v } else { r with validB := v }

/-- The newest record, those that wait for an erase included. -/
def Dev.dirNow (d : Dev) : DirRec := (d.upd.dirWaiting.getLast?).getD d.nor.dirRec

/-- A record is programmed in the sector in use, or in the other one when that is full; when neither has room, it waits while
the other sector is erased under its ticket. -/
def Dev.putDir (d : Dev) (r : DirRec) : Dev :=
  let s := d.nor.dirSector
  if d.upd.dirWaiting.isEmpty ∧ d.nor.dirLen s < 128 then { d with nor := d.nor.addDir s r }
  else if d.upd.dirWaiting.isEmpty ∧ d.nor.dirLen (1 - s) = 0 then { d with nor := d.nor.addDir (1 - s) r }
  else ({ d with upd := { d.upd with dirWaiting := d.upd.dirWaiting ++ [r] } }).request (.erase .directory)

/-- The next record differs from the newest as a function says. -/
def Dev.writeDir (d : Dev) (f : DirRec → DirRec) : Dev :=
  let r := d.dirNow
  d.putDir (f { r with dseq := (r.dseq + 1) % 0x100000000 })

/-- At STANDBY entry at least 4 records are free: otherwise the other sector is erased (R429). -/
def Dev.dirRoom (d : Dev) : Dev :=
  let s := d.nor.dirSector
  if !d.upd.dirWaiting.isEmpty ∨ (124 < d.nor.dirLen s ∧ d.nor.dirLen (1 - s) ≠ 0) then d.request (.erase .directory) else d

/-- The erase of the other sector is complete: its ticket goes back and the records that waited are programmed. -/
def Dev.dirErased (d : Dev) : Dev :=
  if d.ticketHeld (.erase .directory) then
    let s := d.nor.dirSector
    let ws := d.upd.dirWaiting
    let d1 : Dev := { d with
      nor := if s = 0 then { d.nor with dir1 := [] } else { d.nor with dir0 := [] }
      upd := { d.upd with dirWaiting := [] } }
    ws.foldl (fun (d : Dev) (r : DirRec) => d.putDir r) (d1.release (.erase .directory))
  else d.release (.erase .directory)

/-! ### Images (R427, R428) -/

/-- Where image A and image B are. -/
def imageOffset (img : Nat) : Nat := if img = 0 then 0x100000 else 0x300000

/-- The first failing check of R428 on an image region; 0 when it verifies. -/
def Dev.imageCheck (d : Dev) (img : Nat) : Nat :=
  let off := imageOffset img
  let h := norBytes d.nor.cells off 256
  let size := leField h 12 4
  if leField h 0 4 ≠ 0x72401A1B ∨ leField h 252 4 ≠ (crc32 (h.take 252)).toNat then 1
  else if leField h 4 2 ≠ 1 ∨ 0x1FFF00 < size ∨ size % 4 ≠ 0 then 2
  else if !(byteAt h 16).testBit (if d.dual then 0 else 1) then 3
  else if sha256 ((h.drop 24).take 64) ≠ Config.otpKeyHash then 4
  else if byteAt h 6 < d.aon.otpRollback then 5
  else if !ecdsaVerify ((h.drop 24).take 64) ((h.drop 120).take 64) (sha256 (h.take 120)) then 6
  else if sha256 (norBytes d.nor.cells (off + 256) size) ≠ (h.drop 88).take 32 then 7
  else 0

end Sys2Proof.Machine
end

