-- ==== Sys2Proof/Machine/LayerOps.lean ====
section
/-! DEFINITION. Host layers (chapter 6): declaration limits and placement (R134, R139 to R142), layer frames, buffers and
intake (R74 to R76, R144 to R146), fences (R148), and retiring (R151). -/

namespace Sys2Proof.Machine

open Sys2Proof

/-! ### Declaration (R134, R140 to R142) -/

/-- A commanded or declared size stays within Table 6-1. -/
def sizeOk (format srcW srcH outW outH : Nat) : Bool :=
  decide (1 ≤ srcW ∧ srcW ≤ 4096 ∧ 1 ≤ srcH ∧ srcH ≤ 2048) && srcW % widthAlign format == 0 &&
  (!is420 format || srcH % 2 == 0) &&
  decide (1 ≤ outW ∧ outW ≤ 4096 ∧ 1 ≤ outH ∧ outH ≤ 2048) &&
  decide (srcW ≤ 4 * outW ∧ outW ≤ 8 * srcW ∧ srcH ≤ 4 * outH ∧ outH ≤ 8 * srcH) &&
  (!isSymbol format || (outW == srcW && outH == srcH)) &&
  (decide (srcW ≤ 4080) || outH == srcH)

/-- The declaration carried by LAYER_DECLARE (Table 5-7); STALE_LIMIT 0 selects 12. -/
def declOf (bs : List Byte) : Decl :=
  { format := byteAt bs 1, static := (byteAt bs 2) % 2 == 1, group := byteAt bs 3, srcW := leField bs 4 2,
    srcH := leField bs 6 2, x := leInt bs 8 2, y := leInt bs 10 2, outW := leField bs 12 2, outH := leField bs 14 2,
    preLut := byteAt bs 16, stalePolicy := byteAt bs 17,
    staleLimit := if byteAt bs 18 = 0 then 12 else byteAt bs 18 }

/-- The declaration is within Tables 5-7 and 6-1. -/
def Decl.ok (c : Decl) : Bool :=
  formatOk c.format && decide (c.group ≤ 7) && sizeOk c.format c.srcW c.srcH c.outW c.outH &&
  (decide (c.preLut ≤ 3) || c.preLut == 255) && decide (c.stalePolicy ≤ 2)

/-- Shared scalers that a geometry needs (R141). -/
def scalersNeeded (srcW srcH outW outH : Nat) : Nat :=
  if outH ≠ srcH then (if srcW ≤ 2048 then 1 else 2) else if outW ≠ srcW then 1 else 0

/-- A placement (Table 6-7): code, pool bytes and 64 KiB DRAM blocks it takes. -/
structure Placed where
  code : Nat
  pool : Nat
  dram : Nat
deriving DecidableEq, Repr

/-- The first row of Table 6-7 that matches. Buffers occupy whole 4 KiB or 64 KiB blocks (R139). -/
def Dev.place (d : Dev) (c : Decl) : Placed :=
  let scaled := c.outW != c.srcW || c.outH != c.srcH
  let src := sourceBytes c.format c.srcW c.srcH
  let b := roundUp src 4096
  let e := roundUp (expandedBytes c.outW c.outH) 4096
  let blocks := (src + 65535) / 65536
  if c.static && scaled && decide (2 * e ≤ d.cmp.poolFree) then ⟨2, 2 * e, 2 * blocks⟩
  else if c.static && !scaled && decide (2 * b ≤ d.cmp.poolFree) then ⟨1, 2 * b, 2 * blocks⟩
  else if decide (b ≤ d.par kPlcMillpondMaxBuf 0) && decide (3 * b ≤ d.cmp.poolFree) then ⟨0, 3 * b, 0⟩
  else ⟨3, 0, 3 * blocks⟩

def Buf.empty : Buf := { role := .free, frame := 0, rows := [], blank := [] }

/-- A layer placed under rows 1 or 2 of Table 6-7. -/
def Layer.intake (l : Layer) : Bool := l.placement == 1 || l.placement == 2

/-- The layer is declared with its placement and the lowest free scalers (R142). Fences that wait for its frames stay. -/
def Dev.declare (d : Dev) (n : Nat) (c : Decl) (p : Placed) (scalers : List Nat) : Dev :=
  let bufs := List.replicate (if p.code = 1 ∨ p.code = 2 then 2 else 3) Buf.empty
  let staging := if p.code = 1 ∨ p.code = 2 then List.replicate 2 Buf.empty else []
  { d with cmp := { d.cmp with
      poolFree := d.cmp.poolFree - p.pool, dramFree := d.cmp.dramFree - p.dram,
      scalersFree := d.cmp.scalersFree.filter fun k => !scalers.contains k,
      layers := modAt d.cmp.layers n fun l => { Layer.reset with
        st := .declared, decl := c, placement := p.code, scalers := scalers, poolBytes := p.pool, dramBlocks := p.dram,
        bufs := bufs, staging := staging, fences := l.fences } } }

/-! ### Retiring (R151) -/

def Dev.retire (d : Dev) (n frame : Nat) (shown : Bool) : Dev :=
  let d1 := d.setPar kPlcRetiredFrame n frame
  if d.par kPlcRetireEvt n = 1 then d1.post 0x0401 (frame + 0x10000 * n + 0x80000 * b2n shown) else d1

/-! ### Fences (R76, R148) -/

/-- An armed group names a fence. -/
def Dev.named (d : Dev) (f : Nat) : Bool := d.cmp.groups.any fun g => g.armed && g.fences.any fun e => e.1 == f

/-- The early-signal store takes a fence; when it holds 64, its oldest entry is dropped and counted. -/
def Dev.storeEarly (d : Dev) (f t : Nat) : Dev :=
  if d.cmp.early.any fun e => e.1 == f then d
  else if 64 ≤ d.cmp.early.length then
    ({ d with cmp := { d.cmp with early := d.cmp.early.drop 1 ++ [(f, t)] } }).count kPlcFenceDrop 0 1
  else { d with cmp := { d.cmp with early := d.cmp.early ++ [(f, t)] } }

/-- The waiting FENCE_SIGNAL commands of a fence complete (R122). -/
def Dev.finishSignals (d : Dev) (f : Nat) : Dev :=
  ((d.waitingOf 0x0504).filter fun c => leField c.2.payload 0 2 == f).foldl (fun d c => d.finish c.1 c.2.tag stOk []) d

/-- A fence is signalled. Signalling it again has no further effect. -/
def Dev.signalFence (d : Dev) (f : Nat) : Dev :=
  let d1 :=
    if d.named f then
      { d with cmp := { d.cmp with groups := d.cmp.groups.map fun g =>
          { g with fences := g.fences.map fun e => if e.1 = f ∧ e.2 = none then (f, some d.now) else e } } }
    else d.storeEarly f d.now
  d1.finishSignals f

/-- Of the fences that a group gives up, those signalled that no armed group names stay signalled in the early-signal store. -/
def Dev.storeUnnamed (d : Dev) (fences : List (Nat × Option Nat)) : Dev :=
  fences.foldl (fun d e => match e.2 with
    | some t => if d.named e.1 then d else d.storeEarly e.1 t
    | none => d) d

/-- A group gives up its fences; its run of LATE ends. -/
def Dev.disarm (d : Dev) (g : Nat) : Dev :=
  (d.modGroup g fun g => { g with armed := false, fences := [], lateRun := false }).storeUnnamed (d.group g).fences

/-- COMMIT_GROUP arms its group; a fence found signalled, early or by a group that names it, keeps its tick. It takes its fences
before those that a replaced commit gives up enter the early-signal store, and a run of LATE goes on over the replacement (R157,
log entry 118). -/
def Dev.arm (d : Dev) (g : Nat) (fences : List Nat) (p : Port) (tag : Nat) : Dev :=
  let seen (f : Nat) : Option Nat := (d.cmp.early.find? fun e => e.1 == f).map Prod.snd
  let held (f : Nat) : Option Nat :=
    (d.cmp.groups.flatMap fun g => g.fences.filter fun e => e.1 == f).findSome? Prod.snd
  let d1 : Dev := { d with cmp := { d.cmp with
      early := d.cmp.early.filter fun e => !fences.contains e.1,
      groups := modAt d.cmp.groups g fun x =>
        { x with armed := true, fences := fences.map fun f => (f, (seen f).or (held f)), port := p, tag := tag } } }
  d1.storeUnnamed (d.group g).fences

/-! ### Layer frames (R75, R144 to R146) -/

/-- Frame f is newer than g. -/
def newer (f g : Nat) : Bool :=
  let k := (f + 65536 - g % 65536) % 65536
  decide (1 ≤ k) && decide (k ≤ 32767)

/-- A frame is newer than the last one opened for the layer; before the first, every frame is. -/
def Layer.newFrame (l : Layer) (f : Nat) : Bool := match l.lastFrame with | some g => newer f g | none => true

/-- Every sample of a row of a plane has been written. -/
def rowComplete (rows : List Row) (plane row width : Nat) : Bool :=
  match storedRow rows plane row with
  | some ss => ss.length == width && ss.all Option.isSome
  | none => false

/-- Source row r is complete in every plane (R146). -/
def sourceRowComplete (c : Decl) (rows : List Row) (r : Nat) : Bool :=
  let sizes := planeSizes c.format c.srcW c.srcH
  (List.range sizes.length).all fun k => rowComplete rows k (planeRow c.format k r) (sizes.getD k (0, 0)).1

/-- The rows of a closed frame: complete source rows as written, the others, with all their planes, from the newest earlier
closed frame. A chroma row shared by two source rows is taken as written when one of them is complete (log entry 119). -/
def fillRows (c : Decl) (rows prev : List Row) : List Row :=
  let sizes := planeSizes c.format c.srcW c.srcH
  (List.range sizes.length).flatMap fun k =>
    (List.range (sizes.getD k (0, 0)).2).filterMap fun r =>
      let own := (List.range c.srcH).any fun y => planeRow c.format k y == r && sourceRowComplete c rows y
      (if own then storedRow rows k r else storedRow prev k r).map fun ss => { plane := k, row := r, samples := ss }

def Layer.incomplete (l : Layer) (rows : List Row) : List Nat :=
  (List.range l.decl.srcH).filter fun r => !sourceRowComplete l.decl rows r

/-- The buffer that a frame is being written into. -/
def Layer.fillBuf (l : Layer) : Buf :=
  match l.filling with
  | some i => (if l.intake then l.staging else l.bufs).getD i Buf.empty
  | none => Buf.empty

def Layer.modFill (l : Layer) (f : Buf → Buf) : Layer :=
  match l.filling with
  | some i => if l.intake then { l with staging := modAt l.staging i f } else { l with bufs := modAt l.bufs i f }
  | none => l

/-- Fences bound to a layer that a condition selects are signalled and leave the layer. -/
def Dev.signalBound (d : Dev) (n : Nat) (p : BoundFence → Bool) : Dev :=
  let fs := (d.layer n).fences.filter p
  let d1 := d.modLayer n fun l => { l with fences := l.fences.filter fun b => !p b }
  fs.foldl (fun d b => d.signalFence b.fence) d1

/-- A frame opens: the lowest-numbered FREE buffer, or the staging buffer that is neither being copied nor waiting; when
both are taken, the waiting frame is dropped unshown and its fences wait for the copy of the new one (R145). -/
def Dev.openFrame (d : Dev) (n f : Nat) (link : LinkId) : Dev :=
  let l := d.layer n
  let start (i : Nat) (l : Layer) : Layer :=
    ({ l with filling := some i, frameSt := .open_ f link, lastFrame := some f, linesRx := 0 }).modFill
      fun _ => { role := .fill, frame := f, rows := [], blank := [] }
  let d1 :=
    if l.intake then
      match (List.range 2).find? fun i => l.copying != some i && l.awaiting != some i with
      | some i => d.modLayer n (start i)
      | none =>
        let i := l.awaiting.getD 0
        let old := (l.staging.getD i Buf.empty).frame
        (d.modLayer n fun l => start i { l with
          awaiting := none,
          fences := l.fences.map fun b => if b.atCopy ∧ b.frame = old then { b with frame := f } else b }).count
          kPlcFramesSuperseded n 1
    else
      match l.bufs.findIdx? (fun b => b.role == .free) with
      | some i => d.modLayer n (start i)
      | none => d.modLayer n fun l => { l with frameSt := .open_ f link, lastFrame := some f, linesRx := 0 }
  d1.signalBound n fun b => !b.atCopy && newer f b.frame

/-- The open frame closes: missing rows are filled and counted; a dynamic frame becomes READY and supersedes an older READY
one; an intake frame is copied, now or after the copy that runs; its fences are signalled, or wait for the copy. -/
def Dev.closeFrame (d : Dev) (n : Nat) : Dev :=
  let l := d.layer n
  match l.frameSt with
  | .idle => d
  | .open_ f _ =>
    let b := l.fillBuf
    let missing := l.incomplete b.rows
    let rows := fillRows l.decl b.rows (if l.placement = 2 then [] else l.newestClosed)
    let blank :=
      if l.placement = 2 then missing else (List.range l.decl.srcH).filter fun r => (storedRow rows 0 r).isNone
    let d1 := if missing.isEmpty then d
      else (d.count kPlcRowsFilled n missing.length).post 0x0405 (missing.length % 0x10000 + 0x10000 * n)
    if l.intake then
      let d2 := d1.modLayer n fun l =>
        let l1 := l.modFill fun b => { b with role := .ready, rows := rows, blank := blank }
        { l1 with
          frameSt := .idle, filling := none, newestClosed := if l.placement = 2 then l.newestClosed else rows,
          copying := if l.copying.isNone then l.filling else l.copying,
          awaiting := if l.copying.isNone then l.awaiting else l.filling,
          fences := l.fences.map fun b => if b.frame = f then { b with atCopy := true } else b }
      d2.signalBound n fun b => !b.atCopy && newer f b.frame
    else
      let old := l.bufs.find? fun b => b.role == .ready
      let d2 := d1.modLayer n fun l =>
        let l0 : Layer := { l with bufs := l.bufs.map fun (b : Buf) =>
          if b.role = .ready then { b with role := .free } else b }
        let l1 := l0.modFill fun b => { b with role := .ready, rows := rows, blank := blank }
        { l1 with frameSt := .idle, filling := none, newestClosed := rows }
      let d3 := match old with
        | some b => (d2.count kPlcFramesSuperseded n 1).retire n b.frame false
        | none => d2
      d3.signalBound n fun b => b.frame == f || newer f b.frame

/-- An implicit close (Table 3-6a), counted on the link that the frame is bound to. -/
def Dev.closeMissing (d : Dev) (n : Nat) : Dev :=
  match (d.layer n).frameSt with
  | .idle => d
  | .open_ _ link => (d.count (lkey kLnkFrameEndMissing link) 0 1).closeFrame n

/-- A link in DETECT closes the frames bound to it. -/
def Dev.closeFramesOf (d : Dev) (l : LinkId) : Dev :=
  (List.range 8).foldl (fun d n =>
    match (d.layer n).frameSt with
    | .open_ _ k => if k = l then d.closeMissing n else d
    | .idle => d) d

/-! ### Intake copy (R145) -/

/-- The settings that expand a layer's samples now. -/
def Dev.expand (d : Dev) (n : Nat) : Expand :=
  let bs := d.arr kPlcPalette n
  { format := (d.layer n).decl.format, tint := d.par kPlcLayerTint n, intensity := d.par kPlcLayerIntensity n,
    chroma := d.par kPlcChromaTint n = 1, limited := d.par kPlcYcRange n = 1,
    palette := (leFields bs 0 4 256).map (BitVec.ofNat 32), refs := (List.range 4).map fun k => d.par kPlcTintRef k,
    chromaMin := d.par kPlcChromaMin 0 }

/-- The expanded rows of an intake-scaled frame: each output row whose support is complete is resampled, the others come
from the newest copied frame (R146). The stored I of a pixel is its filtered P, which is I where A is 255; in A8, I stays
the layer's intensity (log entry 24). -/
def Dev.resample (d : Dev) (n : Nat) (b : Buf) : List Row :=
  let l := d.layer n
  let c := l.decl
  let e := d.expand n
  let src (x y : Nat) : PPix := premultiply (sourcePixel e b.rows b.blank x y) 255
  let px (x y : Nat) : LPix :=
    let q := scalePixel (d.par kCmpScalerFilter n) (d.arr kCmpCoefV 0) (d.arr kCmpCoefH 0) c.srcW c.srcH c.outW c.outH src x y
    ⟨if c.format = 0x30 then e.intensity else q.p, q.a, q.t⟩
  (List.range c.outH).filterMap fun y =>
    if (rowSupport c.srcH c.outH y).any fun r => b.blank.contains r then
      (storedRow l.newestClosed 0 y).map fun ss => { plane := 0, row := y, samples := ss }
    else some { plane := 0, row := y, samples := (List.range c.outW).map fun x => some (px x y).word }

/-- The copy that runs completes: the frame becomes READY in a pool buffer that is not displayed, an older READY one is
superseded, the staging buffer retires, its fences are signalled, and the frame that waits is copied next. -/
def Dev.copyDone (d : Dev) (n : Nat) : Dev :=
  let l := d.layer n
  match l.copying with
  | none => d
  | some i =>
    let b := l.staging.getD i Buf.empty
    let rows := if l.placement = 2 then d.resample n b else b.rows
    let rowsOut := if l.placement = 2 then l.decl.outH else l.decl.srcH
    let blank := (List.range rowsOut).filter fun r => (storedRow rows 0 r).isNone
    let wasReady := l.bufs.any fun b => b.role == .ready
    let t := (l.bufs.findIdx? fun b => b.role == .ready).or (l.bufs.findIdx? fun b => b.role == .free) |>.getD 0
    let d1 := d.modLayer n fun l => { l with
      bufs := l.bufs.set t { role := .ready, frame := b.frame, rows := rows, blank := blank },
      staging := l.staging.set i Buf.empty, copying := l.awaiting, awaiting := none,
      newestClosed := if l.placement = 2 then rows else l.newestClosed }
    let d2 := if wasReady then d1.count kPlcFramesSuperseded n 1 else d1
    (d2.retire n b.frame false).signalBound n fun f => f.atCopy && f.frame == b.frame

/-! ### LINE Husks (R73 to R75) -/

/-- Writes samples into a plane row from x0 on. -/
def writeRow (rows : List Row) (plane row width x0 : Nat) (vs : List Nat) : List Row :=
  let old := (storedRow rows plane row).getD (List.replicate width none)
  let new := old.take x0 ++ vs.map some ++ old.drop (x0 + vs.length)
  { plane := plane, row := row, samples := new } :: rows.filter fun r => !(r.plane == plane && r.row == row)

/-- A data LINE that names only what is declared (R74): plane, row and range within the size. X0 and COUNT aligned to the group
and data of COUNT's length are asked for too (log entry 111). -/
def lineFits (c : Decl) (plane row x0 count dataLen : Nat) : Bool :=
  let sizes := planeSizes c.format c.srcW c.srcH
  match sizes[plane]? with
  | none => false
  | some s =>
    decide (row < s.2) && decide (x0 + count ≤ s.1) && x0 % sampleGroup c.format == 0 &&
    count % sampleGroup c.format == 0 && dataLen == sampleBytes c.format count

def Dev.discardLine (d : Dev) (link : LinkId) : Dev := d.count (lkey kLnkLineDiscard link) 0 1

/-- The samples of a data LINE are written into the open frame. -/
def Dev.writeLine (d : Dev) (n plane row x0 count : Nat) (data : List Byte) : Dev :=
  d.modLayer n fun l =>
    let width := ((planeSizes l.decl.format l.decl.srcW l.decl.srcH).getD plane (0, 0)).1
    let vs := (List.range count).map fun i => sampleAt l.decl.format data i
    { (l.modFill fun b => { b with rows := writeRow b.rows plane row width x0 vs }) with linesRx := l.linesRx + 1 }

/-- A LINE Husk that passed the reception checks (R73 to R75, Table 3-6a). A LINE with MARK 3 or shorter than 8 bytes is
discarded as one of R74 (log entry 111). In a DRAM stall a valid data LINE of a layer of placement 1 or above is not storable;
this check comes between R74's and Table 3-6a's (log entry 112). While F is open, a FRAME_START for F changes nothing, and
one for another frame that is not newer is discarded and counted (log entry 113). -/
def Dev.lineIn (d : Dev) (link : LinkId) (sub : Nat) (p : List Byte) : Dev :=
  let n := bitsOf sub 0 3
  let mark := bitsOf sub 4 2
  let plane := bitsOf sub 6 2
  let f := leField p 0 2
  let row := leField p 2 2
  let x0 := leField p 4 2
  let count := leField p 6 2
  let data := p.drop 8
  let l := d.layer n
  let fits := decide (8 ≤ p.length) && decide (mark ≤ 2) &&
    (if mark = 0 then lineFits l.decl plane row x0 count data.length
     else (planeSizes l.decl.format l.decl.srcW l.decl.srcH)[plane]?.isSome)
  if n = 0 ∨ l.st ≠ .declared ∨ !fits then d.discardLine link
  else if mark = 0 ∧ d.cmp.dramStalled ∧ 1 ≤ l.placement then d.count (lkey kLnkVc0Overflow link) 0 1
  else
    let write (d : Dev) : Dev := if mark = 0 then d.writeLine n plane row x0 count data else d
    match l.frameSt with
    | .idle =>
      if mark = 2 ∨ !l.newFrame f then d.discardLine link
      else
        let d1 := if mark = 0 then d.count (lkey kLnkFrameStartMissing link) 0 1 else d
        write (d1.openFrame n f link)
    | .open_ g owner =>
      if owner ≠ link then d.discardLine link
      else if f = g then (if mark = 2 then d.closeFrame n else write d)
      else if newer f g ∧ mark ≠ 2 then write ((d.closeMissing n).openFrame n f link)
      else d.discardLine link

/-! ### FENCE (R76) -/

/-- An accepted FENCE or FENCE_SIGNAL. The answer says whether the fence is signalled now. A FENCE Husk with LAYER 0 or 8 to
254 has no effect (log entry 114). -/
def Dev.fence (d : Dev) (p : List Byte) : Dev × Bool :=
  let f := leField p 0 2
  let n := byteAt p 2
  let frame := leField p 4 2
  if n = 0xFF then (d.signalFence f, true)
  else if n = 0 ∨ 7 < n then (d, false)
  else
    let l := d.layer n
    let bind (atCopy : Bool) : Dev :=
      d.modLayer n fun l => { l with fences := l.fences ++ [{ fence := f, frame := frame, atCopy := atCopy }] }
    let inCopy := l.intake && (List.range 2).any fun i =>
      (l.copying == some i || l.awaiting == some i) && (l.staging.getD i Buf.empty).frame == frame
    match l.frameSt with
    | .open_ g _ =>
      if g = frame then (bind false |>.closeMissing n, !l.intake)
      else if inCopy then (bind true, false)
      else if newer g frame then (d.signalFence f, true)
      else (bind false, false)
    | .idle =>
      if inCopy then (bind true, false)
      else if l.newFrame frame then (bind false, false)
      else (d.signalFence f, true)

end Sys2Proof.Machine
end

