-- ==== Sys2Proof/Machine/ComposeOps.lean ====
section
/-! DEFINITION. Composition (chapter 7): the work of a compose-frame start (Table 6-9), the pixels of a row (Table 7-2),
culling (R165, R166), signatures and the frame freeze detector (R350 to R354), and the buffer exchange (R20). -/

namespace Sys2Proof.Machine

open Sys2Proof

/-! ### Places -/

/-- The first field column of a side in a mode (R182). -/
def sideX0 (r : ModeRow) (s : Nat) : Nat := if s = 0 then 0 else r.fieldW - r.sideW

/-- The curve set by RAMP_CURVE (Table 12-9, RAMP_SETTINGS). -/
def Dev.curve (d : Dev) : CurveSet :=
  let w := d.par kLmpRampSettings 0
  ⟨bitsOf w 0 8, bitsOf w 8 8⟩

/-- The nominal compose-frame period in ticks, rounded to the nearest. -/
def ModeRow.composeTicks (r : ModeRow) : Nat := (200000000 + r.compose) / (2 * r.compose)

/-- A layer shows something: declared, with a DISPLAY buffer, and not hidden by its stale policy (Table 6-10). -/
def Layer.shows (l : Layer) : Bool :=
  l.st == .declared && (l.bufs.any fun b => b.role == .display) && !(l.stale && decide (1 ≤ l.decl.stalePolicy))

def Layer.displayBuf (l : Layer) : Buf := (l.bufs.find? fun b => b.role == .display).getD Buf.empty

/-- Some layer is stale under policy 2 (Table 6-10). -/
def Dev.staleFallback (d : Dev) : Bool :=
  d.cmp.layers.any fun l => l.st == .declared && l.stale && l.decl.stalePolicy == 2

/-- The displayed rectangle of a layer in field coordinates, after the offset: left, top, right, bottom, exclusive. -/
def Layer.rect (l : Layer) (off : Int × Int) : Int × Int × Int × Int :=
  (l.decl.x + off.1, l.decl.y + off.2, l.decl.x + off.1 + l.decl.outW, l.decl.y + off.2 + l.decl.outH)

/-- A layer's displayed rectangle reaches a side. -/
def Layer.reaches (l : Layer) (r : ModeRow) (s : Nat) (off : Int × Int) : Bool :=
  let (x0, y0, x1, y1) := l.rect off
  decide (x0 < (sideX0 r s : Int) + r.sideW) && decide ((sideX0 r s : Int) < x1) && decide (y0 < (r.fieldH : Int)) &&
  decide (0 < y1)

/-! ### Layer pixels -/

/-- The premultiplied source pixel of a layer's displayed frame: expansion, pre-blend LUT, alpha (steps 2 to 4). -/
def Dev.layerSource (d : Dev) (n : Nat) (x y : Nat) : PPix :=
  let l := d.layer n
  let b := l.displayBuf
  let p := if l.placement = 2 then expandedPixel b.rows b.blank x y
           else sourcePixel (d.expand n) b.rows b.blank x y
  let q := if l.decl.preLut = 255 then p else { p with i := preLut (d.arr kCmpPreLut l.decl.preLut) p.i }
  premultiply q (d.par kCmpLayerAlpha n)

/-- The layer's pixel at (x, y) of its displayed rectangle (step 5). -/
def Dev.layerPixel (d : Dev) (n x y : Nat) : PPix :=
  let l := d.layer n
  let c := l.decl
  if l.placement = 2 ∨ (c.outW = c.srcW ∧ c.outH = c.srcH) then d.layerSource n x y
  else
    scalePixel (d.par kCmpScalerFilter n) (d.arr kCmpCoefV 0) (d.arr kCmpCoefH 0) c.srcW c.srcH c.outW c.outH
      (d.layerSource n) x y

/-! ### Culling (R165, R166) -/

/-- A layer counts as opaque over tile (tx, ty) of a side. -/
def Dev.opaqueOver (d : Dev) (s n tx ty : Nat) : Bool :=
  let p := d.pipe s
  let r := d.rowOf p.mode
  if n = 0 then
    let (dx, dy) := p.offset
    (d.base s).shown.isSome && decide (dx ≤ 64 * tx) && decide (64 * (tx : Int) + 64 ≤ r.sideW + dx) &&
    decide (dy ≤ 16 * ty) && decide (16 * (ty : Int) + 16 ≤ r.fieldH + dy)
  else
    let l := d.layer n
    let f := l.decl.format
    let (x0, y0, x1, y1) := l.rect p.offset
    let fx : Int := (sideX0 r s : Int) + 64 * tx
    let fy : Int := 16 * ty
    l.shows && !p.bridgePass && decide (x0 ≤ fx) && decide (fx + 64 ≤ x1) && decide (y0 ≤ fy) && decide (fy + 16 ≤ y1) &&
    d.par kCmpBlendMode n == 0 && d.par kCmpLayerAlpha n == 255 && f != 0x30 &&
    (!isSymbol f || (leFields (d.arr kPlcPalette n) 0 4 (if f = 0x20 then 4 else 256)).all fun w => bitsOf w 16 8 == 255) &&
    l.displayBuf.blank.isEmpty

/-- The cover layer of a tile: the highest that counts as opaque over it. -/
def Dev.coverLayer (d : Dev) (s tx ty : Nat) : Option Nat :=
  ((List.range 8).reverse).find? fun n => d.opaqueOver s n tx ty

/-- A layer shows something on a tile. -/
def Dev.touches (d : Dev) (s n tx ty : Nat) : Bool :=
  let p := d.pipe s
  let r := d.rowOf p.mode
  if n = 0 then (d.base s).shown.isSome
  else
    let l := d.layer n
    let (x0, y0, x1, y1) := l.rect p.offset
    let fx : Int := (sideX0 r s : Int) + 64 * tx
    l.shows && !p.bridgePass && decide (x0 < fx + 64) && decide (fx < x1) && decide (y0 < 16 * (ty : Int) + 16) &&
    decide (16 * (ty : Int) < y1)

/-- The tiles of a side's frame in raster order: column and row. -/
def ModeRow.tiles (r : ModeRow) : List (Nat × Nat) :=
  (List.range (r.fieldH / 16)).flatMap fun ty => (List.range (r.sideW / 64)).map fun tx => (tx, ty)

/-- The cover layers of a pass, decided at its start (R166). -/
def Dev.coverMap (d : Dev) (s : Nat) : List (Option Nat) :=
  (d.rowOf (d.pipe s).mode).tiles.map fun t => d.coverLayer s t.1 t.2

/-- The cover layer that the pass has for a tile. -/
def Dev.coverAt (d : Dev) (s tx ty : Nat) : Option Nat :=
  ((d.pipe s).cover)[ty * ((d.rowOf (d.pipe s).mode).sideW / 64) + tx]?.join

/-- Layer n is culled on a tile: it lies below the tile's cover layer. -/
def Dev.culledAt (d : Dev) (s n tx ty : Nat) : Bool :=
  match d.coverAt s tx ty with
  | some c => decide (n < c)
  | none => false

/-- Tiles with at least one culled layer. -/
def Dev.culledTiles (d : Dev) (s : Nat) : Nat :=
  ((d.rowOf (d.pipe s).mode).tiles.filter fun t =>
    (List.range 8).any fun n => d.touches s n t.1 t.2 && d.culledAt s n t.1 t.2).length

/-- A side's pass fetches from layer n: the layer shows on a tile where it is not culled. -/
def Dev.fetches (d : Dev) (s n : Nat) : Bool :=
  (d.rowOf (d.pipe s).mode).tiles.any fun t => d.touches s n t.1 t.2 && !d.culledAt s n t.1 t.2

/-- Output pixel (j, k) of layer n lies on a side, outside the tiles where the layer is culled. -/
def Dev.keepsPixel (d : Dev) (s n j k : Nat) : Bool :=
  let p := d.pipe s
  let r := d.rowOf p.mode
  let x : Int := (d.layer n).decl.x + p.offset.1 + j - (sideX0 r s : Int)
  let y : Int := (d.layer n).decl.y + p.offset.2 + k
  decide (0 ≤ x ∧ x < (r.sideW : Int) ∧ 0 ≤ y ∧ y < (r.fieldH : Int)) && !d.culledAt s n (x.toNat / 64) (y.toNat / 16)

/-- A layer is scaled as it is composed: it is served by a shared scaler (R141). -/
def Layer.scaled (l : Layer) : Bool :=
  l.placement != 2 && (l.decl.outW != l.decl.srcW || l.decl.outH != l.decl.srcH)

/-- The source columns of row r of layer n that are fetched for some sides: those on which an output pixel outside the culled
tiles depends through the filter support (R166). -/
def Dev.fetchColumns (d : Dev) (sides : List Nat) (n r : Nat) : List Nat :=
  let l := d.layer n
  let c := l.decl
  let rows (k : Nat) : List Nat := if l.scaled then rowSupport c.srcH c.outH k else [k]
  let cols (j : Nat) : List Nat := if l.scaled then colSupport c.srcW c.outW j else [j]
  (List.range c.outH).flatMap fun k =>
    if (rows k).contains r then
      (List.range c.outW).flatMap fun j => if sides.any fun s => d.keepsPixel s n j k then cols j else []
    else []

/-- What the passes fetch of layer n: source rows with the first and last column of their span (R166). A layer served by a shared
scaler is fetched once for both pipes, any other for each pipe by itself. -/
def Dev.fetchPlan (d : Dev) (s n : Nat) : List (Nat × Nat × Nat) :=
  let l := d.layer n
  let sides := if l.scaled then d.sides.filter fun k => (d.pipe k).running else [s]
  (List.range (if l.placement = 2 then l.decl.outH else l.decl.srcH)).filterMap fun r =>
    match d.fetchColumns sides n r with
    | [] => none
    | c :: cs => some (r, cs.foldl min c, cs.foldl max c)

/-- The planes fetched of a layer: chroma only when CHROMA_TINT is 1 (R167). -/
def Dev.fetchPlanes (d : Dev) (n : Nat) : Nat := if isYc (d.layer n).decl.format && d.par kPlcChromaTint n == 1 then 3 else 1

/-! ### Rows (Table 7-2) -/

/-- A resident image can be shown in a mode: it passed its check, it is still valid (R154, R155), and the library serves the
mode's geometry (R152). -/
def Dev.imageOk (d : Dev) (s : Nat) (r : ModeRow) (x : Resident) : Bool :=
  x.good && (d.nor.patValid.get s).getLsbD x.image && d.nor.patGeom == r.geom

/-- What the base layer of a pass shows: in a bridge frame only PAT_FALLBACK (R200), else the image in place (R153). -/
def Dev.passBase (d : Dev) (s : Nat) : Base :=
  let b := d.base s
  if (d.pipe s).bridgePass then
    if d.imageOk s (d.rowOf (d.pipe s).mode) b.fallback then
      { b with shown := some b.fallback.image, image := b.fallback.pixels, under := [], weight := 65535 }
    else { b with shown := none }
  else b

/-- What layer n gives at side pixel (x, y); none where it shows nothing. `dry` gives the pixels of the row that arrived, if
the layer ran dry (R169): the last of them repeats, and with none the pixel is opaque black for a layer that counts as opaque
over a tile of the row. -/
def Dev.shownAt (d : Dev) (s n : Nat) (dry : Option Nat) (x y : Nat) : Option PPix :=
  let p := d.pipe s
  let r := d.rowOf p.mode
  let (dx, dy) := p.offset
  if n = 0 then
    let bx : Int := (x : Int) - dx
    let by_ : Int := (y : Int) - dy
    if (d.passBase s).shown.isSome ∧ 0 ≤ bx ∧ bx < r.sideW ∧ 0 ≤ by_ ∧ by_ < r.fieldH then
      some ((d.passBase s).pixel r.geom bx.toNat by_.toNat)
    else none
  else
    let l := d.layer n
    let fx : Int := (sideX0 r s : Int) + x
    let j : Int := fx - l.decl.x - dx
    let k : Int := (y : Int) - l.decl.y - dy
    if p.bridgePass ∨ !l.shows ∨ j < 0 ∨ (l.decl.outW : Int) ≤ j ∨ k < 0 ∨ (l.decl.outH : Int) ≤ k then none
    else
      let first : Int := max 0 ((sideX0 r s : Int) - l.decl.x - dx)
      match dry with
      | none => some (d.layerPixel n j.toNat k.toNat)
      | some 0 =>
        if (List.range (r.sideW / 64)).any fun tx => d.opaqueOver s n tx (y / 16) then some ⟨0, 255, 0⟩ else none
      | some (m + 1) => some (d.layerPixel n (min j (first + m)).toNat k.toNat)

/-- C and T of a pixel after layers 0 to 7 (R174). The base layer always uses mode 0. -/
def Dev.blendAt (d : Dev) (s : Nat) (dry : List (Nat × Nat)) (x y : Nat) : Nat × Nat :=
  (List.range 8).foldl (fun ct n =>
    match d.shownAt s n (kvGet dry n) x y with
    | none => ct
    | some q => blendStep (if n = 0 then 0 else d.par kCmpBlendMode n) (d.par kCmpTintThresh 0) q ct) (0, 0)

/-- Gain map and overlap ramp (steps 10 and 11) at a side pixel. -/
def Dev.finishAt (d : Dev) (r : ModeRow) (s x y intensity : Nat) (ramps : Bool) : Nat :=
  let g := gained (d.arr kCmpGainMap s) (r.sideW / 8) (r.fieldH / 8) x y intensity
  let v := r.overlap
  let left := if s = 0 then r.sideW - v else 0
  if ramps && decide (0 < v) && decide (left ≤ x) && decide (x < left + v) then ramped (d.arr kCmpOvlRamp s) (x - left) v g
  else g

/-- One composed row and its tap row: the pixels after step 12 and after step 8. -/
def Dev.composeRow (d : Dev) (s y : Nat) (dry : List (Nat × Nat)) : List Pix × List Pix :=
  let p := d.pipe s
  let r := d.rowOf p.mode
  let lut := d.arr kCmpPostLut s
  let tap := (List.range r.sideW).map fun x =>
    let ct := d.blendAt s dry x y
    { i := postLut lut ct.1, t := ct.2 : Pix }
  (((List.range r.sideW).zip tap).map fun xp => { xp.2 with i := d.finishAt r s xp.1 y xp.2.i (!p.parkedWeights) }, tap)

/-! ### Signatures (R350 to R353) -/

/-- The three bytes of a pixel (R350). -/
def Pix.bytes (p : Pix) : List Byte := leBytes 2 p.i ++ leBytes 1 (p.t % 4)

/-- The signature of a rectangle of a frame. -/
def signature (frame : List (List Pix)) (x y w h : Nat) : BitVec 32 :=
  crc32 (((frame.drop y).take h).flatMap fun row => ((row.drop x).take w).flatMap Pix.bytes)

/-- A learned value is discarded and learning restarts (R351). -/
def SigRect.relearn (r : SigRect) : SigRect :=
  if r.learned then
    { r with state := 1, learned := false, expected := 0, learnRun := 0, learnTotal := 0, learnSig := none, misses := 0 }
  else r

def Dev.modRects (d : Dev) (s : Nat) (f : SigRect → SigRect) : Dev :=
  { d with saf := { d.saf with rects := d.saf.rects.mod s fun l => l.map f } }
def Dev.setRect (d : Dev) (s i : Nat) (r : SigRect) : Dev :=
  { d with saf := { d.saf with rects := d.saf.rects.mod s fun l => l.set i r } }
def Dev.rect (d : Dev) (s i : Nat) : SigRect := (d.saf.rects.get s).getD i SigRect.reset

/-- At a mode change, learning restarts, and a rectangle outside the new side frame is disabled (R351). -/
def Dev.rectsModeChange (d : Dev) (r : ModeRow) : Dev :=
  d.sides.foldl (fun d s =>
    (List.range 16).foldl (fun d i =>
      let q := (d.rect s i).relearn
      if (q.state = 1 ∨ q.state = 2) ∧ (r.sideW < q.x + q.w ∨ r.fieldH < q.y + q.h) then
        (d.setRect s i { q with state := 3 }).post 0x0C06 (i + 16 * s)
      else d.setRect s i q) d) d

/-- One rectangle at the end of a completed pass: a learning one counts equal signatures, a comparing one its mismatches.
The answer's second part says whether it mismatched. -/
def Dev.judgeRect (d : Dev) (s i : Nat) : Dev × Bool :=
  let p := d.pipe s
  let q := d.rect s i
  if q.armNext then (d, false)
  else if q.state = 1 then
    let v := signature p.back q.x q.y q.w q.h
    let same := q.learnSig == some v && q.refOffset == some p.offset
    let run := if same then q.learnRun + 1 else 1
    let total := q.learnTotal + 1
    let q1 := { q with value := v, learnRun := run, learnTotal := total, learnSig := some v, refOffset := some p.offset }
    if d.par kSafLearnPasses 0 ≤ run then
      ((d.setRect s i { q1 with state := 2, expected := v, learned := true, misses := 0 }).post 0x0C05 (i + 16 * s), false)
    else if 256 ≤ total then ((d.setRect s i { q1 with state := 3 }).post 0x0C06 (i + 16 * s), false)
    else (d.setRect s i q1, false)
  else if q.state = 2 then
    let v := signature p.back q.x q.y q.w q.h
    if q.refOffset ≠ some p.offset then (d.setRect s i { q with value := v }, false)
    else if v = q.expected then (d.setRect s i { q with value := v, misses := 0 }, false)
    else
      let n := q.misses + 1
      let d1 := (d.setRect s i { q with value := v, misses := min 255 n }).count kSafSigMismatchCount s 1
      (if d.par kSafSigLimit 0 ≤ n then d1.raise 0x0C01 s (i + 16 * s) else d1, true)
  else (d, false)

/-- The array of a side is not released from park (R353). -/
def Dev.sideParked (d : Dev) (s : Nat) : Bool := (d.mport s).state != .ready && (d.mport s).state != .unpark

/-- Comparison and learning are suspended (R353). -/
def Dev.suspended (d : Dev) (s : Nat) : Bool :=
  isTestMode d.core.mode || (d.pipe s).bridgePass || d.sideParked s || d.saf.safeSides.get s

def Dev.judgeRects (d : Dev) (s : Nat) : Dev :=
  if d.suspended s then d
  else
    let r := (List.range 16).foldl (fun (r : Dev × Bool) i => let q := r.1.judgeRect s i; (q.1, r.2 || q.2)) (d, false)
    if r.2 then
      let d1 := (r.1.modPipe s fun p => { p with withheld := true }).count kSafSigWithheld s 1
      { d1 with jnl := { d1.jnl with acc := { d1.jnl.acc with withheld := true } } }
    else r.1

/-- The frame signature and the freeze detector (R354). -/
def Dev.judgeFreeze (d : Dev) (s : Nat) : Dev :=
  let p := d.pipe s
  let r := d.rowOf p.mode
  let v := signature p.back 0 0 r.sideW r.fieldH
  let frozen := p.expectsChange && d.saf.passSeen.get s && v == d.saf.frameSig.get s
  let n := if frozen then d.saf.frozenPasses.get s + 1 else 0
  let d1 := { d with saf := { d.saf with
    frameSig := d.saf.frameSig.set s v, passSeen := d.saf.passSeen.set s true,
    frozenPasses := d.saf.frozenPasses.set s n } }
  if frozen ∧ d.par kSafFreezeN 0 ≤ n then d1.raise 0x0C02 s s else d1

/-- The pass stores its last row: signatures are checked and the back buffer is ready, unless it is withheld. -/
def Dev.passDone (d : Dev) (s : Nat) : Dev :=
  let d1 := d.modPipe s fun p => { p with running := false, culled := p.cullCount }
  let d2 := ((d1.judgeRects s).judgeFreeze s).release (.catchup (if s = 0 then .L else .R))
  d2.modPipe s fun p => { p with backReady := !p.withheld, behind := false }

/-- A pass ends without exchange. -/
def Dev.dropPass (d : Dev) (s : Nat) : Dev :=
  (d.modPipe s fun p => { p with running := false, behind := false, backReady := false, back := [], backTap := [] }).release
    (.catchup (if s = 0 then .L else .R))

/-- The composed buffers of a side exchange when the back buffer is complete (R20). -/
def Dev.exchange (d : Dev) (s : Nat) : Dev :=
  if (d.pipe s).backReady then
    { d with saf := { d.saf with frontSig := d.saf.frontSig.set s (d.saf.frameSig.get s) } }.modPipe s fun p =>
      { p with front := p.back, frontTap := p.backTap, frontMx := p.backMx, back := p.front, backTap := p.frontTap,
               backMx := p.frontMx, backReady := false }
  else d

/-- The passes of every side stop without exchange: SAFE is entered (R160). -/
def Dev.stopPasses (d : Dev) : Dev := d.sides.foldl (fun d s => d.dropPass s) d

/-- A pass starts: rows from 0, with the offset, tables and matrix records of this start, and its culling decided (R166);
rectangles armed for it take its offset (R351). -/
def Dev.startPass (d : Dev) (s mode : Nat) (bridge expects : Bool) : Dev :=
  let off := (d.cmp.dx, d.cmp.dy)
  let d1 := d.modPipe s fun p => { p with
    running := true, mode := mode, nextRow := 0, behind := false, bridgePass := bridge, expectsChange := expects,
    offset := off, back := [], backTap := [], backReady := false, withheld := false, dryLayers := [],
    startAt := d.now, rowAt := d.now, backMx := (List.range 4).map fun t => d.arr kAuxMxTarget t,
    parkedWeights := d.core.state == .degraded && d.saf.safeSides.get (1 - s) }
  let d2 := d1.modPipe s fun p => { p with cover := d1.coverMap s }
  let d3 := d2.modPipe s fun p => { p with cullCount := d2.culledTiles s }
  d3.modRects s fun q => if q.armNext then { q with armNext := false, refOffset := some off } else q

/-- A side's pass fetches from DRAM: it fetches from a layer placed there. -/
def Dev.fetchesDram (d : Dev) (s : Nat) : Bool :=
  (List.range 8).any fun n => n != 0 && (d.layer n).placement == 3 && d.fetches s n

/-- DRAM traffic stalls or PLL-M is lost: the pass of each side that fetches from DRAM ends (R163). -/
def Dev.abandon (d : Dev) (s : Nat) (pllM : Bool) : Dev :=
  if (d.pipe s).running ∧ d.fetchesDram s then (d.dropPass s).post 0x0503 (s + 2 * b2n pllM) else d

/-! ### Levelling and bending (R179) -/

/-- One compose-frame start of the offset. -/
def Dev.stepOffset (d : Dev) : Dev :=
  let tcf := d.row.composeTicks
  let tau := msTicks (d.par kCmpLevelTau 0)
  let af := (tcf * 65536 + (tau + tcf) / 2) / (tau + tcf)
  let live := d.veh.motionSeen && !d.veh.motionLost
  let pitch : Int := if live then d.veh.pitch else 0
  let steer : Int := if live then d.veh.steer else 0
  let yaw : Int := if live then d.veh.yaw else 0
  let direct := d.veh.motionSeen && !d.cmp.pfSeen
  let pf := if direct then d.veh.pitch * 65536
            else d.cmp.pf + roundAway ((af : Int) * (pitch * 65536 - d.cmp.pf)) 65536
  let lmax : Int := d.parI kCmpLevelMax 0
  let bmax : Int := d.parI kCmpBendMax 0
  let slew : Int := d.parI kCmpOffsetSlew 0
  let dyT := clampI (-lmax) lmax (roundAway (pf * d.parI kCmpLevelPpd 0) (256000 * 65536))
  let gain := d.parI kCmpBendGain 0
  let src := match d.par kCmpBendSource 0 with
    | 1 => roundAway (steer * gain) 2560
    | 2 => roundAway (yaw * gain) 25600
    | _ => 0
  let dxT := clampI (-bmax) bmax (-src)
  { d with cmp := { d.cmp with
      pf := pf, pfSeen := d.cmp.pfSeen || d.veh.motionSeen,
      dy := d.cmp.dy + clampI (-slew) slew (dyT - d.cmp.dy),
      dx := d.cmp.dx + clampI (-slew) slew (dxT - d.cmp.dx) } }

/-! ### Commit groups (Table 6-9, R142, R147) -/

/-- The declared layers of a group. -/
def Dev.groupLayers (d : Dev) (g : Nat) : List Nat :=
  (List.range 8).filter fun n => n != 0 && (d.layer n).st == .declared && (d.layer n).decl.group == g

/-- The size a layer takes with its staged OUT_SIZE. -/
def Dev.stagedSize (d : Dev) (n : Nat) : Nat × Nat :=
  let c := (d.layer n).decl
  match d.stagedVal kPlcOutSize n with
  | some v => (bitsOf v.toNat 0 16, bitsOf v.toNat 16 16)
  | none => (c.outW, c.outH)

/-- Scalers for the staged sizes of a group's layers, lowest number first, a layer's own counting as free for it: the
layers with their scalers, or the layer whose need is not met. An intake-copy layer with a staged OUT_SIZE needs them too (log
entry 120). -/
def Dev.rebind (d : Dev) : List Nat → List Nat → List (Nat × List Nat) → Except Nat (List (Nat × List Nat) × List Nat)
  | [], free, acc => .ok (acc, free)
  | n :: ns, free, acc =>
    let l := d.layer n
    let (w, h) := d.stagedSize n
    if (d.stagedVal kPlcOutSize n).isNone ∨ l.placement = 2 then d.rebind ns free acc
    else
      let need := scalersNeeded l.decl.srcW l.decl.srcH w h
      let avail := (List.range 4).filter fun k => free.contains k || l.scalers.contains k
      if avail.length < need then .error n
      else d.rebind ns (free.filter fun k => !(avail.take need).contains k) (acc ++ [(n, avail.take need)])

/-- A staged POS, OUT_SIZE and the layer parameters that apply at a commit (R143, R156, R189, FREEZE_WATCH). -/
def Dev.applyLayer (d : Dev) (n : Nat) : Dev :=
  let d1 := match d.stagedVal kPlcPos n with
    | some v => d.modLayer n fun l => { l with decl := { l.decl with
        x := signed 16 (bitsOf v.toNat 0 16), y := signed 16 (bitsOf v.toNat 16 16) } }
    | none => d
  let d2 := match d.stagedVal kPlcOutSize n with
    | some v => d1.modLayer n fun l => { l with decl := { l.decl with
        outW := bitsOf v.toNat 0 16, outH := bitsOf v.toNat 16 16 } }
    | none => d1
  let keys := [kPlcPos, kPlcOutSize, kPlcLayerTint, kPlcLayerIntensity, kPlcChromaTint, kPlcYcRange, kCmpBlendMode,
               kCmpLayerAlpha, kCmpScalerFilter, kSafFreezeWatch]
  (keys.foldl (fun d k => d.applyVal (pid k n)) d2).applyArr (pid kPlcPalette n)

/-- READY moves to DISPLAY and the old DISPLAY goes to FREE. -/
def Layer.commit (l : Layer) : Layer :=
  if l.bufs.any fun b => b.role == .ready then
    { l with bufs := l.bufs.map fun (b : Buf) => match b.role with
        | .ready => { b with role := .display }
        | .display => { b with role := .free }
        | _ => b }
  else l

/-- What a compose-frame start has gathered: groups committed, layers whose new frame shows, and buffers that left DISPLAY. -/
structure CfsWork where
  committed : List Nat
  moved : List Nat
  left_ : List (Nat × Nat)
deriving DecidableEq, Repr

/-- A group commits as a whole: content, staged values, scalers; its fences are cleared and its command completes. -/
def Dev.commitGroup (d : Dev) (w : CfsWork) (g : Nat) : Dev × CfsWork :=
  let ns := d.groupLayers g
  match d.rebind ns d.cmp.scalersFree [] with
  | .error n =>
    let grp := d.group g
    (((d.disarm g).finishWith grp.port grp.tag stSpanExceeded).post 0x0406 (g + 16 * n), w)
  | .ok (bound, free) =>
    let grp := d.group g
    let freed := bound.flatMap fun b => (d.layer b.1).scalers.filter fun k => !b.2.contains k
    let d1 := { d with cmp := { d.cmp with
      scalersFree := free, scalersReturning := d.cmp.scalersReturning ++ freed,
      layers := bound.foldl (fun ls (b : Nat × List Nat) => modAt ls b.1 fun l => { l with scalers := b.2 }) d.cmp.layers } }
    let moved := ns.filter fun n => (d.layer n).bufs.any fun b => b.role == .ready
    let left_ := moved.filterMap fun n =>
      let l := d.layer n
      if l.intake then none else (l.bufs.find? fun b => b.role == .display).map fun b => (n, b.frame)
    let d2 := ns.foldl (fun d n => (d.modLayer n fun l => { l.commit with lateCount := 0 }).applyLayer n) d1
    let d3 := d2.modGroup g fun x => { x with armed := false, fences := [], lateRun := false }
    ((d3.count kPlcCommits g 1).finish grp.port grp.tag stOk [],
     { committed := w.committed ++ [g], moved := w.moved ++ moved, left_ := w.left_ ++ left_ })

/-- Step 1: groups in ascending order; a fence counts when it was signalled in an earlier tick. -/
def Dev.commitGroups (d : Dev) : Dev × CfsWork :=
  (List.range 8).foldl (fun (r : Dev × CfsWork) g =>
    let x := r.1.group g
    if x.armed && x.fences.all fun f => match f.2 with | some t => decide (t < r.1.now) | none => false then
      r.1.commitGroup r.2 g
    else r) (d, { committed := [], moved := [], left_ := [] })

/-- Step 2: armed groups that still wait count LATE, and their layers one stale frame. -/
def Dev.countLate (d : Dev) : Dev :=
  (List.range 8).foldl (fun d g =>
    if (d.group g).armed then
      let first := !(d.group g).lateRun
      let d1 := (d.groupLayers g).foldl (fun d n => d.modLayer n fun l => { l with lateCount := min 255 (l.lateCount + 1) })
        ((d.count kPlcLate g 1).modGroup g fun x => { x with lateRun := true })
      if first then d1.post 0x0402 g else d1
    else (d.groupLayers g).foldl (fun d n => d.modLayer n fun l => { l with lateCount := 0 }) d) d

/-- The storage of a layer is free again, and what was staged for it is dropped. -/
def Dev.reclaim (d : Dev) (n : Nat) (l : Layer) : Dev :=
  let drop (l : List (Nat × Int)) := l.filter fun e => !([kPlcPos, kPlcOutSize].any fun k => e.1 == pid k n)
  { d with
    prm := { d.prm with staged := drop d.prm.staged },
    cmp := { d.cmp with
      poolFree := d.cmp.poolFree + l.poolBytes, dramFree := d.cmp.dramFree + l.dramBlocks,
      layers := modAt d.cmp.layers n fun l => { Layer.reset with fences := l.fences } } }

/-- Step 3 for a layer whose destruction is due (R150): from this start it shows nothing, its scalers return, and LAYER_DESTROY
completes. Its buffers stay until step 6. -/
def Dev.destroyLayer (d : Dev) (n : Nat) : Dev :=
  let cmds := (d.waitingOf 0x0502).filter fun c => byteAt c.2.payload 0 == n
  let d1 : Dev := { d with cmp := { d.cmp with scalersReturning := d.cmp.scalersReturning ++ (d.layer n).scalers } }
  cmds.foldl (fun d c => d.finish c.1 c.2.tag stOk []) (d1.modLayer n fun l => { l with st := .destroyed, scalers := [] })

/-- The frames that a layer's buffers hold as it is destroyed, and whether they have been shown: DISPLAY, READY and FILL of a
dynamic layer; of an intake layer the staging buffers not copied yet (R150, R151, log entry 121). A frame that moved to DISPLAY
at this very start was never shown. -/
def Layer.held (l : Layer) (moved : Bool) : List (Nat × Bool) :=
  if l.intake then
    [l.copying, l.awaiting, l.filling].filterMap fun o => o.map fun i => ((l.staging.getD i Buf.empty).frame, false)
  else
    let of (r : Role) : List Nat := (l.bufs.filter fun b => b.role == r).map Buf.frame
    ((of .display).map fun f => (f, !moved)) ++ ((of .ready).map fun f => (f, false)) ++ (of .fill).map fun f => (f, false)

/-- Step 6 for a destroyed layer: its buffers retire and its storage is reclaimed. -/
def Dev.retireLayer (d : Dev) (n : Nat) (moved : Bool) : Dev :=
  let l := d.layer n
  ((l.held moved).foldl (fun d f => d.retire n f.1 f.2) d).reclaim n l

/-- Step 3. -/
def Dev.destroyDueLayers (d : Dev) : Dev :=
  (List.range 8).foldl (fun d n =>
    let l := d.layer n
    if l.st = .declared ∧ l.destroyDue ∧ (!(d.group l.decl.group).armed ∨ l.decl.staleLimit ≤ l.lateCount) then
      d.destroyLayer n
    else d) d

/-- Step 6: buffers that left DISPLAY, then those of destroyed layers, retire (log entry 121). -/
def Dev.retireDue (d : Dev) (w : CfsWork) : Dev :=
  (List.range 8).foldl (fun d n => if (d.layer n).st = .destroyed then d.retireLayer n (w.moved.contains n) else d)
    (w.left_.foldl (fun d r => d.retire r.1 r.2 true) d)

/-- Step 4: stale policies start and end (R149). -/
def Dev.stalePolicies (d : Dev) (committed : List Nat) : Dev :=
  (List.range 8).foldl (fun d n =>
    let l := d.layer n
    if l.st ≠ .declared then d
    else if l.stale ∧ committed.contains l.decl.group then
      (d.modLayer n fun l => { l with stale := false }).post 0x0404 n
    else if !l.stale ∧ (d.group l.decl.group).armed ∧ l.decl.staleLimit ≤ l.lateCount then
      (d.modLayer n fun l => { l with stale := true }).post 0x0403 (n + 8 * l.decl.stalePolicy)
    else d) d

/-! ### Base layer (R152 to R154) -/

/-- The image a side's base layer should show: none where it is not projected. A resident image that is invalid now or failed
its check gives way to PAT_FALLBACK. The second part is the image wanted; the third says that both are invalid. -/
def Dev.selectBase (d : Dev) (s : Nat) : Option Resident × Nat × Bool :=
  let b := d.base s
  let r := d.row
  let on := (d.core.state == .beam || d.core.state == .degraded) && d.req.inForce != 0 && !d.saf.safeSides.get s &&
    (s == 0 || r.dual)
  let bridge := match d.seq.change with | .bridging _ _ _ _ _ => true | _ => false
  let want := if bridge || d.staleFallback then b.fallback else if d.req.inForce = 1 then b.low else b.high
  if !on then (none, 0, false)
  else if d.imageOk s r want then (some want, want.image, false)
  else if d.imageOk s r b.fallback then (some b.fallback, want.image, false)
  else (none, want.image, true)

/-- A change of image starts a cross-fade from what is shown, or switches at once with PAT_XFADE_MS 0 or to nothing. -/
def Base.show (b : Base) (img : Option Resident) (fade : Nat) : Base :=
  match img with
  | none => { b with shown := none, image := [], under := [], fadeStep := 0, fadeTotal := 0, weight := 65535 }
  | some r =>
    if b.shown = some r.image ∧ b.image = r.pixels then b
    else if fade = 0 then
      { b with shown := some r.image, image := r.pixels, under := [], fadeStep := 0, fadeTotal := 0, weight := 65535 }
    else
      { b with
        under := if b.shown.isNone then [] else if b.weight = 65535 then [(b.image, 65535)] else b.under ++ [(b.image, b.weight)],
        shown := some r.image, image := r.pixels, fadeStep := 0, fadeTotal := fade, weight := 0 }

/-- One compose-frame start of a cross-fade in progress. -/
def Base.stepFade (b : Base) (c : CurveSet) (t : Nat) : Base :=
  if b.weight = 65535 then b
  else
    let k := b.fadeStep + 1
    let w := rampValue c 0 65535 (rampU k t b.fadeTotal)
    { b with fadeStep := k, weight := w, under := if w = 65535 then [] else b.under }

/-- The load slot exchanges with the slot it was loaded for (R153). -/
def Base.exchangeLoad (b : Base) : Base :=
  match b.ready with
  | none => b
  | some (0, r) => { b with ready := none, low := r }
  | some (1, r) => { b with ready := none, high := r }
  | some (_, r) => { b with ready := none, fallback := r }

/-- Step 5 for a side: PATTERN_INVALID is raised when the selected image and PAT_FALLBACK become invalid (R154). Its
instance is the side. A change starts learning again (R351). -/
def Dev.stepBase (d : Dev) (s : Nat) : Dev :=
  let d1 := d.modBase s Base.exchangeLoad
  let (img, want, bad) := d1.selectBase s
  let old := d1.base s
  let new := { (old.stepFade d.curve d.row.composeTicks).show img (msTicks (d.par kPlcPatXfadeMs 0)) with invalid := bad }
  let d2 := d1.modBase s fun _ => new
  let d3 := if new.shown = old.shown ∧ new.image = old.image then d2 else d2.modRects s SigRect.relearn
  if bad ∧ !old.invalid then d3.raise 0x0407 s (want + 16 * s) else d3

/-- BEAM_ENABLE commands whose request is now in effect complete with OK (R117). -/
def Dev.reqEffective (d : Dev) (req : Nat) : Dev :=
  ((d.waitingOf 0x0006).filter fun c => byteAt c.2.payload 0 == req).foldl (fun d c => d.finish c.1 c.2.tag stOk [])
    { d with req := { d.req with effective := req } }

/-- The boundary at which layer 0 changes completes a change between requests other than 0 (R117). -/
def Dev.layer0Request (d : Dev) : Dev :=
  let q := d.req.inForce
  if q ≠ 0 ∧ q ≠ d.req.effective ∧ ((d.core.state = .beam ∧ d.core.beamReady) ∨ d.core.state = .degraded) then
    d.reqEffective q
  else d

/-! ### Tables (R188) -/

/-- The shadow tables named by TABLE_COMMIT go live for both sides, and learning restarts (R351). -/
def Dev.applyTables (d : Dev) : Dev :=
  let w := d.cmp.tableCommit
  if w = 0 then d
  else
    let keys (bit : Nat) : List (Nat × List Nat) := match bit with
      | 0 => [(kCmpPreLut, [0, 1, 2, 3])]
      | 1 => [(kCmpPostLut, [0, 1])]
      | 2 => [(kCmpGainMap, [0, 1])]
      | 3 => [(kCmpOvlRamp, [0, 1])]
      | _ => [(kCmpCoefV, [0]), (kCmpCoefH, [0])]
    let d1 := ((List.range 5).filter fun b => w.getLsbD b).foldl (fun d b =>
      (keys b).foldl (fun d k => k.2.foldl (fun d i => d.applyArr (pid k.1 i)) d) d) d
    let d2 := d.sides.foldl (fun d s => d.modRects s SigRect.relearn)
      { d1 with cmp := { d1.cmp with tableCommit := 0 } }
    d2.post 0x0504 w.toNat

/-! ### The compose-frame start (Table 6-9, R160, R164) -/

/-- A pass of a side that is still running ends unfinished (R163). -/
def Dev.endUnfinished (d : Dev) (s : Nat) : Dev :=
  if (d.pipe s).running then ((d.dropPass s).count kCmpComposeMiss s 1).post 0x0502 s else d

/-- Sides that have a compose pipe at work: both on the CX7240 in a two-sided mode, L otherwise. -/
def Dev.composeSides (d : Dev) : List Nat := if d.row.dual && d.dual then [0, 1] else [0]

/-- Passes run in this state (R160). -/
def Dev.composes (d : Dev) : Bool :=
  d.core.state == .standby || d.core.state == .beam || d.core.state == .degraded

/-- A change from mode a to mode b in BEAM or DEGRADED is bridged: from a two-sided to a single-side family of the same
geometry (Table 8-3). -/
def Dev.isBridged (d : Dev) (a b : Nat) : Bool := (d.rowOf a).dual && !(d.rowOf b).dual

/-- The bridge frame or the new mode's first pass has the pipes (R200). -/
def Dev.bridgeBusy (d : Dev) : Bool :=
  match d.seq.change with
  | .bridging _ _ _ _ _ => true
  | .pending m _ _ armed => armed && d.isBridged d.core.mode m
  | .none_ => false

/-- The new passes of this start; in throttle stages 1 and 2 only at every second start since the stage was entered (R164). -/
def Dev.startPasses (d : Dev) (moved : List Nat) : Dev :=
  let throttled := d.thm.stage == 1 || d.thm.stage == 2
  let parity := if throttled then !d.cmp.passParity else false
  let d1 := { d with cmp := { d.cmp with passParity := parity, halfClock := d.thm.stage == 2 } }
  if !d1.composes ∨ (throttled ∧ parity) ∨ d1.bridgeBusy then d1
  else
    d1.composeSides.foldl (fun d s =>
      let off := (d.cmp.dx, d.cmp.dy)
      let expects := moved.any fun n => d.par kSafFreezeWatch n == 1 && (d.layer n).reaches d.row s off
      let d2 := d.startPass s d.timingMode false expects
      if d.cmp.dramStalled then d2.abandon s (!(d.pll 1).locked) else d2) d1

/-- The whole compose-frame start. -/
def Dev.composeStart (d : Dev) : Dev :=
  let geo := [kCmpLevelPpd, kCmpLevelTau, kCmpBendSource, kCmpBendGain, kCmpLevelMax, kCmpBendMax, kCmpOffsetSlew]
  let d0 := if d.bridgeBusy then d else d.composeSides.foldl (fun d s => (d.exchange s).endUnfinished s) d
  let d1 := geo.foldl (fun d k => d.applyVal (pid k 0)) { d0 with cmp := { d0.cmp with
    scalersFree := (List.range 4).filter fun k => d0.cmp.scalersFree.contains k || d0.cmp.scalersReturning.contains k,
    scalersReturning := [] } }
  let (d2, w) := d1.applyTables.commitGroups
  let d3 := (d2.countLate.destroyDueLayers).stalePolicies w.committed
  let d4 := (d3.sides.foldl (fun d s => d.stepBase s) d3).layer0Request
  (d4.retireDue w).stepOffset.startPasses w.moved

end Sys2Proof.Machine
end

