-- ==== Sys2Proof/Machine/Tick.lean ====
section
/-! DEFINITION. The time base: one tick, and the alignment rule of R77. -/

namespace Sys2Proof.Machine

open Sys2Proof

/-- How a meaning acts: on the device, with the queue untouched. -/
def State.on (s : State) (f : Dev → Dev) : Host.Outcome State Fault Refusal := .next { s with dev := f s.dev }

/-- One tick of the time base. While a difference is slewed, one tick per 1,000 is inserted or withheld (R77). The time base
stands still in RESET and THERMAL_OFF, where no PLL runs (R425, R401), and adds 2 per cycle of the safe divide, which is one
per 10 ns (R392). -/
def Dev.tick (d : Dev) : Dev :=
  match d.core.state with
  | .reset => d
  | .thermalOff => d
  | _ =>
    let c := d.clk
    if c.slewLeft = 0 then { d with clk := { c with timeBase := c.timeBase + 1 } }
    else if c.slewCount + 1 < 1000 then
      { d with clk := { c with timeBase := c.timeBase + 1, slewCount := c.slewCount + 1 } }
    else if 0 < c.slewLeft then
      { d with clk := { c with timeBase := c.timeBase + 2, slewCount := 0, slewLeft := c.slewLeft - 1 } }
    else { d with clk := { c with slewCount := 0, slewLeft := c.slewLeft + 1 } }

/-- The alignment rule of R77 for a difference d between vehicle time and the time base, with the events of the link that
brought it; a CAN frame brings none (R94). A rejected backward step leaves a slew in progress running (log entry 115). -/
def Dev.align (d : Dev) (diff : Int) (link : Option LinkId) : Dev :=
  if diff.natAbs ≤ 2 then { d with clk := { d.clk with slewLeft := 0, slewCount := 0 } }
  else if diff.natAbs ≤ 100000 then { d with clk := { d.clk with slewLeft := diff, slewCount := 0 } }
  else if 0 < diff then
    let d1 := { d with clk := { d.clk with timeBase := d.clk.timeBase + diff.toNat, slewLeft := 0, slewCount := 0 } }
    match link with
    | some l => d1.postFree (0x100 * l.unit + 0x0A)
    | none => d1
  else if d.core.state = .boot then
    let d1 := { d with clk := { d.clk with timeBase := ((d.clk.timeBase : Int) + diff).toNat, slewLeft := 0, slewCount := 0 } }
    match link with
    | some l => d1.postFree (0x100 * l.unit + 0x0A)
    | none => d1
  else
    match link with
    | some l => (d.count (lkey kLnkSyncReject l) 0 1).postFree (0x100 * l.unit + 0x0B)
    | none => d

end Sys2Proof.Machine
end

