-- ==== Sys2Proof/Machine/PortOps.lean ====
section
/-! DEFINITION. Mirror ports (chapter 10): port states of Table 10-7, power, training, identity, park and release, lane errors
and the spare. -/

namespace Sys2Proof.Machine

open Sys2Proof

/-! ### Command frames (R238, R239) -/

/-- The beats of a command frame (Table 10-2). -/
def MFrame.beats (f : MFrame) : List Word :=
  let head : List Byte := leBytes 1 f.cmd ++ leBytes 1 f.cseq ++ leBytes 2 f.arg0 ++ leBytes 4 f.arg1
  let first : List Word := [0x5AC33CA5#32, BitVec.ofNat 32 (leField head 0 4), BitVec.ofNat 32 f.arg1, (crc16 head).setWidth 32]
  first ++ first.map fun w => ~~~w

/-- No load runs on a side: its idle gap (R239). An entry voided before its load leaves the bus idle. -/
def Dev.idleGap (d : Dev) (s : Nat) : Bool := (d.seq.loading.get s).all Loaded.voided

/-- The slot gap: the first 12 µs of a display interval (R214). -/
def Dev.slotGap (d : Dev) : Bool := !d.seq.resetDue && decide (d.now ≤ d.seq.resetAt + 1200)

/-- A command may be sent now. In READY, SPARE goes out in a slot gap only (R247), one in each (R250). -/
def Dev.mayEmit (d : Dev) (s : Nat) (c : PortCmd) : Bool :=
  let p := d.mport s
  decide (c.notBefore ≤ d.now) &&
  (c.cmd != 0x06 || p.state != .ready || (d.slotGap && p.spareAt != some p.loadNo))

/-- A command frame goes out: PARK takes PARK_N low with it (R254); SPARE tells the array which lane CK1 carries. -/
def MPort.emit (p : MPort) (c : PortCmd) : MPort :=
  let q := { p.send c.cmd c.arg0 c.arg1 with queue := p.queue.erase c }
  if c.cmd = 0x03 then { q with parkN := false }
  else if c.cmd = 0x06 then { q with told := c.arg0, spareAt := some p.loadNo }
  else q

/-- One tick of a port: in an idle gap, the first command that may go out is sent. A tick is longer than a slot-clock cycle, which
holds one frame (log entry 128). -/
def Dev.portFrame (d : Dev) (s : Nat) : Dev :=
  if (d.mport s).pairsOn && d.idleGap s then
    match (d.mport s).queue.find? (d.mayEmit s) with
    | some c => d.modMport s fun p => p.change (fun q => q.emit c) d.now
    | none => d
  else d

def Dev.portFrames (d : Dev) : Dev := d.sides.foldl (fun d s => d.portFrame s) d

/-- The lane that the array has been told, or is about to be told, to take from CK1. -/
def MPort.spareFor (p : MPort) : Nat :=
  match (p.queue.filter fun c => c.cmd == 0x06).getLast? with
  | some c => c.arg0
  | none => p.told

/-- The spare goes back to the clock copy: a SPARE that waits is dropped, and one that was sent is taken back. -/
def MPort.returnSpare (p : MPort) : MPort :=
  let q := { p with queue := p.queue.filter fun c => c.cmd != 0x06 }
  if q.told = 0x3F then q else q.ask 0x06 0x3F 0

/-- The spare is free for a cover or a takeover. -/
def MPort.spareFree (p : MPort) : Bool :=
  p.spareFor == 0x3F && p.told == 0x3F && p.spareLane == 0x3F && p.sparePending.isNone

/-! ### Power (R253, R254) -/

/-- MAL_PWR_EN rises: POWER, with the lane record cleared (R250, R256) and the mirror SPARE_EXHAUSTED fault with it (Table
15-2). -/
def Dev.powerUpNow (d : Dev) (s : Nat) : Dev :=
  (d.modMportEv s fun p => { p with
    state := .power, pwrEn := true, parkN := false, fltN := false, pairsOn := true, powerUpWanted := false,
    powerDownWanted := false, identTries := 0, heldIdent := none, spareLane := 0x3F, sparePermanent := false,
    lane32Failed := false, sparePending := none, failedLanes := 0, laneErr := List.replicate 33 0,
    laneHist := List.replicate 32 [], sweep := [], firstSweep := [], lanesAsked := false, unparkAcked := false,
    orderlyPark := false, queue := [], told := 0x3F, spareAt := none, trial := [] }).clearFault 0x0706 s

/-- Power-up is required of a port in OFF; it waits while MAL_PWR_EN has not been low for 10 ms (R254). -/
def Dev.powerUp (d : Dev) (s : Nat) : Dev :=
  let p := d.mport s
  if p.state = .off then
    if p.pwrDwell ∨ p.pwrEn then d.modMport s fun p => { p with powerUpWanted := true } else d.powerUpNow s
  else d.modMport s fun p => { p with powerDownWanted := false }

/-- Power-down from PARKED or FAULT: every pair to the off level; MAL_PWR_EN falls at the next step (R254). -/
def Dev.powerDownNow (d : Dev) (s : Nat) : Dev :=
  d.modMportEv s fun p => { p with
    state := .off, pairsOn := false, parkN := false, powerDownWanted := false, unparkAcked := false, orderlyPark := false,
    queue := [] }

/-- Power-down is required: at once from PARKED or FAULT; a port that is projecting parks first. -/
def Dev.powerDown (d : Dev) (s : Nat) : Dev :=
  let p := d.mport s
  match p.state with
  | .off => d.modMport s fun p => { p with powerUpWanted := false }
  | .absent => d
  | .parked => d.powerDownNow s
  | .fault => d.powerDownNow s
  | _ => (d.modMportEv s fun p => p.park false).modMport s fun p => { p with powerDownWanted := true }

/-- A port reaches PARKED; a power-down that waited for it follows. -/
def Dev.portParked (d : Dev) (s : Nat) : Dev :=
  let d1 := d.modMportEv s fun p => { p.onlySpares with
    state := .parked, parkN := false, orderlyPark := false, unparkAcked := false }
  if (d1.mport s).powerDownWanted then d1.powerDownNow s else d1

/-- The global mirror reset ticket goes back when no port is being released (Table 10-9). -/
def Dev.releaseResetTicket (d : Dev) : Dev :=
  if d.sides.all fun s => (d.mport s).state != .unpark then d.release .globalReset else d

/-- MAL_PWR_EN and MAL_PARK_N low at once, pairs off: entry to RESET or THERMAL_OFF (Table 10-7). The dwell of R254 starts
with the fall. -/
def MPort.cut (p : MPort) : MPort :=
  { p with
    state := if p.state = .absent then .absent else .off, pwrDwell := p.pwrDwell || p.pwrEn, pwrEn := false,
    parkN := false, pairsOn := false, powerUpWanted := false, powerDownWanted := false, orderlyPark := false,
    unparkAcked := false, queue := [] }

/-- Entry to HOLDUP: forced park, and the power-down follows (Table 10-7). -/
def Dev.portHoldup (d : Dev) (s : Nat) : Dev :=
  d.modMportEv s fun p =>
    if p.state = .off ∨ p.state = .absent then { p with powerUpWanted := false }
    else { p with
      state := .off, parkN := false, pairsOn := false, powerUpWanted := false, powerDownWanted := false,
      orderlyPark := false, unparkAcked := false, queue := [] }

/-! ### Port faults -/

/-- A port enters FAULT: forced park, and the fault with SIDE whatever its row shows (R361). -/
def Dev.portFail (d : Dev) (s code arg : Nat) : Dev :=
  let d1 := d.modMportEv s fun p => { p with
    state := .fault, parkN := false, orderlyPark := false, unparkAcked := false, lanesAsked := false, sparePending := none,
    queue := [] }
  let d2 := d1.releaseResetTicket.raiseWith code s arg true false
  if (d2.mport s).powerDownWanted then d2.powerDownNow s else d2

/-- ARRAY_FLT, which counts in FLT_COUNT. -/
def Dev.arrayFault (d : Dev) (s : Nat) : Dev := (d.count kMptFltCount s 1).portFail s 0x0707 (256 * s)

/-! ### Identity (R255) -/

/-- A valid IDENT of side s: GEOM 1 to 3, that of the identity recorded before, and on side R that of side L. -/
def Dev.identOk (d : Dev) (s geom : Nat) : Bool :=
  decide (1 ≤ geom) && decide (geom ≤ 3) && (d.mport s).recordedGeom.all (· == geom) &&
  (s == 0 || (d.mport 0).recordedGeom == some geom)

/-- The identity is judged: PARKED with the identity recorded, or FAULT; a side R that fails is powered down. -/
def Dev.judgeIdent (d : Dev) (s : Nat) (payload : List Byte) : Dev :=
  let geom := byteAt payload 0
  if d.identOk s geom then
    (d.modMport s fun p => { p with
      recordedGeom := some geom, arrayId := padTo 8 payload, heldIdent := none }).portParked s
  else
    let d1 := (d.modMport s fun p => { p with heldIdent := none }).portFail s 0x0708 (geom % 256 + 256 * s)
    if s = 1 then d1.powerDown 1 else d1

/-- Side R's IDENT, if it is held, is judged once side L has an identity or has failed without one. -/
def Dev.judgeHeld (d : Dev) : Dev :=
  match (d.mport 1).heldIdent with
  | some b =>
    if (d.mport 1).state = .ident ∧ ((d.mport 0).recordedGeom.isSome ∨ (d.mport 0).state = .fault) then d.judgeIdent 1 b
    else d
  | none => d

/-- An IDENT response. -/
def Dev.identIn (d : Dev) (s : Nat) (payload : List Byte) : Dev :=
  if (d.mport s).state ≠ .ident ∨ (d.mport s).heldIdent.isSome then d
  else if s = 1 ∧ (d.mport 0).recordedGeom.isNone ∧ (d.mport 0).state ≠ .fault then
    d.modMport 1 fun p => { p with heldIdent := some payload }
  else (d.judgeIdent s payload).judgeHeld

/-- A failure of side L that may decide a held IDENT of side R. -/
def Dev.failAndJudge (d : Dev) (s code arg : Nat) : Dev := (d.portFail s code arg).judgeHeld

/-- An IDENT request has had no response: three end identification (Table 10-7). -/
def Dev.identMissed (d : Dev) (s : Nat) : Dev :=
  let p := d.mport s
  if p.state ≠ .ident ∨ p.heldIdent.isSome then d
  else
    let d1 := (d.count kMptRbTimeout s 1).modMport s fun p => { p with identTries := p.identTries + 1 }
    if 3 ≤ p.identTries + 1 then d1.failAndJudge s 0x0703 (0x7FF + 0x800 * s + 0x1000 * 4)
    else d1.modMport s fun p => p.ask 0x08 0 0

/-! ### Training (R248, R249, R418) -/

/-- The longest run of a list of passes: first tap and length; the first of equal ones. -/
def longestRun : List Bool → Nat → Nat → Nat × Nat → Nat × Nat
  | [], pos, run, best => if best.2 < run then (pos - run, run) else best
  | true :: l, pos, run, best => longestRun l (pos + 1) (run + 1) best
  | false :: l, pos, run, best => longestRun l (pos + 1) 0 (if best.2 < run then (pos - run, run) else best)

/-- Centre, rounded down, and length of the longest run. -/
def runCentre (passes : List Bool) : Nat × Nat :=
  let r := longestRun passes 0 0 (0, 0)
  (r.1 + (r.2 - 1) / 2, r.2)

/-- The runs of lanes 0 to 32 in a whole sweep. -/
def sweepRuns (sweep : List (List Nat)) : List (Nat × Nat) :=
  (List.range 33).map fun k => runCentre (sweep.reverse.map fun e => e.getD k 255 == 0)

/-- STATUS frames for a sweep of receive taps, then TRAIN on every lane. -/
def MPort.askTrain (p : MPort) (taps : Nat) : MPort := ((List.range taps).foldl (fun p _ => p.ask 0x09 0 0) p).ask 0x07 1 0x7F

/-- POWER ends: STATUS frames centre the receive taps, TRAIN is sent and the sweep starts (R248). EYE_MIN applies as it stands
now (R256). -/
def Dev.startTrain (d : Dev) (s : Nat) (rb0 rb1 : List Bool) : Dev :=
  let d1 := (d.applyVal (pid kMptEyeMin s)).modMportEv s fun p =>
    { p.askTrain rb0.length with state := .train, fltN := true, sweep := [], firstSweep := [] }
  (d1.setCorr (rbCh s 0) ((runCentre rb0).1, 0)).setCorr (rbCh s 1) ((runCentre rb1).1, 0)

/-- The taps after training: each lane at its centre; after two sweeps at their mean, rounded half up, or as it was when they
differ by more than 2 (R418). -/
def Dev.setTaps (d : Dev) (s : Nat) (first last : List (Nat × Nat)) : Dev :=
  (List.range 33).foldl (fun d k =>
    let b := (last.getD k (0, 0)).1
    if first.isEmpty then d.setCorr (mirrorCh s k) (b, 0)
    else
      let a := (first.getD k (0, 0)).1
      let ch := mirrorCh s k
      if a ≤ b + 2 ∧ b ≤ a + 2 then
        ({ d with cal := { d.cal with disagreeMap := d.cal.disagreeMap &&& ~~~ BitVec.ofNat 128 (2 ^ ch) } }.setCorr ch
          (((a + b + 1) / 2 : Nat), 0)).clearFault 0x1001 ch
      else
        ({ d with cal := { d.cal with disagreeMap := d.cal.disagreeMap ||| BitVec.ofNat 128 (2 ^ ch) } }.count
          kCalCalDisagreeCount 0 1).raise 0x1001 ch (ch + 256)) d

/-- The assignment of R249. -/
def Dev.assignLanes (d : Dev) (s : Nat) (bad : List Nat) : Dev :=
  match bad with
  | [] => d
  | [k] =>
    if k = 32 then d.modMport s fun p => { p with lane32Failed := true }
    else d.modMport s fun p => { (p.ask 0x06 k 0) with spareLane := k, sparePermanent := true }
  | _ => d

/-- Training has swept every tap. During BOOT the sweep runs twice (R418). -/
def Dev.trainDone (d : Dev) (s : Nat) : Dev :=
  let p := d.mport s
  let runs := sweepRuns p.sweep
  if d.core.state = .boot ∧ p.firstSweep.isEmpty then d.modMport s fun p => { p with firstSweep := runs, sweep := [] }
  else
    let eye := d.par kMptEyeMin s
    let short (r : List (Nat × Nat)) (k : Nat) : Bool := decide ((r.getD k (0, eye)).2 < eye)
    let bad := (List.range 33).filter fun k => short runs k || short p.firstSweep k
    let d1 := d.modMport s fun p => p.ask 0x07 0 0
    if 2 ≤ bad.length then d1.failAndJudge s 0x0709 (256 * s)
    else
      ((d1.setTaps s p.firstSweep runs).assignLanes s bad).modMportEv s fun p =>
        { (p.ask 0x08 0 0) with state := .ident, identTries := 0, sweep := [], firstSweep := [] }

/-- The first and the last tap of a lane's trial in READY: the 33 taps centred on the tap in force, held to 0 to 127 (R410). -/
def Dev.trialTaps (d : Dev) (s k : Nat) : Nat × Nat :=
  let t := (clampI 0 127 (d.corr (mirrorCh s k)).1).toNat
  (t - 16, min 127 (t + 16))

/-- The lane that CK1 covers for calibration: its own pair carries PRBS7 (R251). -/
def MPort.covered (p : MPort) : Option Nat :=
  if p.state = .ready ∧ p.told < 32 ∧ !p.sparePermanent ∧ !p.lane32Failed ∧ p.sparePending.isNone then some p.told else none

/-- A TRAIN_RESULT of the covered lane in READY: one trial tap a load (R251, R410). -/
def Dev.trialResult (d : Dev) (s tap : Nat) (errors : List Nat) : Dev :=
  match (d.mport s).covered with
  | none => d
  | some k =>
    let (a, b) := d.trialTaps s k
    if tap = a + (d.mport s).trial.length ∧ tap ≤ b then d.modMport s fun p => { p with trial := (errors.getD k 255 == 0) :: p.trial }
    else d

/-- What the trial of a lane found, once every tap has been tried: the centre of its longest run of passing taps, or a
measurement that is not valid (R410). -/
def Dev.trialValue (d : Dev) (s k : Nat) : Option CalValue :=
  let p := d.mport s
  let (a, b) := d.trialTaps s k
  if p.covered = some k ∧ p.trial.length = b + 1 - a then
    let r := runCentre p.trial.reverse
    some (if r.2 < d.par kMptEyeMin s then .invalid else .tap ((a + r.1 : Nat) : Int))
  else none

/-- A TRAIN_RESULT: the next tap of the sweep in TRAIN, or of a covered lane's trial in READY. -/
def Dev.trainResult (d : Dev) (s tap : Nat) (errors : List Nat) : Dev :=
  let p := d.mport s
  if p.state = .ready then d.trialResult s tap errors
  else if p.state ≠ .train ∨ tap ≠ p.sweep.length then d
  else
    let d1 := d.modMport s fun p => { p with sweep := errors :: p.sweep }
    if 128 ≤ p.sweep.length + 1 then d1.trainDone s else d1

/-! ### Lanes and the spare (R250) -/

/-- A takeover of lane k by the spare: SPARE goes out in the next permitted gap, and its ACK is awaited. -/
def MPort.askSpare (p : MPort) (k : Nat) : MPort := { (p.ask 0x06 k 0) with sparePending := some k }

/-- A data lane fails. A cover of the failed lane becomes permanent, with its ACK if that is still to come; a cover of another
lane returns it at the next permitted gap, and the takeover follows at the one after (R250). -/
def Dev.laneFails (d : Dev) (s k : Nat) : Dev :=
  let d1 := (d.modMport s fun p => { p with failedLanes := p.failedLanes ||| BitVec.ofNat 32 (2 ^ k) }).post 0x0704 (k + 256 * s)
  let p := d1.mport s
  if p.lane32Failed ∨ p.sparePermanent ∨ p.sparePending.isSome then d1.raise 0x0706 s (k + 256 * s)
  else if p.spareFor = k then
    d1.modMport s fun p => if p.spareLane = k then { p with sparePermanent := true } else { p with sparePending := some k }
  else d1.modMport s fun p => (if p.spareFor = 0x3F then p else p.returnSpare).askSpare k

/-- A lane error on lane 32 fails it; the lane it covers returns to its own pair. -/
def Dev.lane32Fails (d : Dev) (s : Nat) : Dev :=
  let p := d.mport s
  if p.lane32Failed then d
  else
    let covered := p.spareLane
    let d1 := d.modMport s fun p =>
      { p.returnSpare with lane32Failed := true, spareLane := 0x3F, sparePermanent := false, sparePending := none }
    let waiting := p.sparePending.toList
    let lost := (if covered < 32 ∧ p.failedLanes.getLsbD covered then [covered] else []) ++ waiting
    lost.foldl (fun d k => d.raise 0x0706 s (k + 256 * s)) d1

/-- One lane error of a load. -/
def Dev.laneError (d : Dev) (s k : Nat) : Dev :=
  let d1 := d.modMport s fun p => { p with laneErr := modAt p.laneErr k fun n => min 0xFFFF (n + 1) }
  if k = 32 then d1.lane32Fails s
  else
    let p := d1.mport s
    let hist := p.loadNo :: ((p.laneHist.getD k []).filter fun n => decide (p.loadNo < n + 8) && n != p.loadNo)
    let d2 := d1.modMport s fun p => { p with laneHist := p.laneHist.set k hist }
    if d.par kMptPairErrLimit s ≤ hist.length ∧ !p.failedLanes.getLsbD k then d2.laneFails s k else d2

/-- A LANES response after a BUS_CRC mismatch. -/
def Dev.lanesIn (d : Dev) (s : Nat) (crcs : List Byte) : Dev :=
  if !(d.mport s).lanesAsked then d
  else
    let d1 := d.modMport s fun p => { p with lanesAsked := false }
    match d.seq.checking.get s with
    | none => d1
    | some l =>
      ((List.range 33).filter fun k => crcs.getD k 0 != l.lanes.getD k 0).foldl (fun d k => d.laneError s k) d1

/-- An ACK: it confirms the UNPARK or SPARE frame of that CSEQ. -/
def Dev.ackIn (d : Dev) (s cseq cmd : Nat) : Dev :=
  let p := d.mport s
  match p.sent.find? fun f => f.cseq == cseq && f.cmd == cmd with
  | none => d
  | some f =>
    if cmd = 0x04 ∧ p.state = .unpark then d.modMport s fun p => { p with unparkAcked := true }
    else if cmd = 0x06 then
      if f.arg0 = 0x3F then d.modMport s fun p => if p.sparePermanent then p else { p with spareLane := 0x3F }
      else if p.sparePending = some f.arg0 then
        (d.modMport s fun p => { p with spareLane := f.arg0, sparePermanent := true, sparePending := none }).post 0x0705
          (f.arg0 + 256 * s)
      else d.modMport s fun p => if p.sparePermanent || p.lane32Failed then p else { p with spareLane := f.arg0 }
    else d

/-! ### Plane checks (R245) -/

/-- A plane check failure darkens the side until the next word applies (R321). -/
def Dev.darkUntilNext (d : Dev) (s : Nat) : Dev :=
  { d with
    gov := { d.gov with zeroNow := d.gov.zeroNow.set s true },
    seq := match d.seq.ended.get s with
      | some e => { d.seq with ended := d.seq.ended.set s (some { e with failed := true }) }
      | none => { d.seq with checkFailed := d.seq.checkFailed.set s true } }

def Dev.modChecking (d : Dev) (s : Nat) (f : Loaded → Loaded) : Dev :=
  { d with seq := { d.seq with checking := d.seq.checking.mod s fun o => o.map f } }

/-- The entry whose check value of one kind is awaited on a side. -/
def Dev.awaits (d : Dev) (s : Nat) (cell : Bool) : Option Loaded :=
  match d.seq.checking.get s with
  | some l => if l.voided || !l.wasReset || (if cell then l.cellClosed else l.busClosed) then none else some l
  | none => none

/-- The aggregates of an entry's refresh, the one that has ended while its last check is open, take its cell value and its
expected plane CRC, in entry order (R356). -/
def Dev.aggregate (d : Dev) (s : Nat) (got want : BitVec 32) : Dev :=
  { d with seq := match d.seq.ended.get s with
      | some e => { d.seq with ended := d.seq.ended.set s (some { e with rx := e.rx ++ [got], ex := e.ex ++ [want] }) }
      | none => { d.seq with
          rxAgg := d.seq.rxAgg.mod s fun l => l ++ [got], exAgg := d.seq.exAgg.mod s fun l => l ++ [want] } }

/-- A cell check closes: the aggregates and the last checked entry (Table 15-5). -/
def Dev.closeCell (d : Dev) (s : Nat) (l : Loaded) (got : Option (BitVec 32)) : Dev :=
  let l1 := { l with cell := got, cellClosed := true }
  ({ d with seq := { d.seq with
      checking := d.seq.checking.set s (some l1), lastChecked := d.seq.lastChecked.set s l1 } }).aggregate s
    (got.getD 0) l.crc

/-- A BUS_CRC arrives. -/
def Dev.busCrcIn (d : Dev) (s entry : Nat) (crc : BitVec 32) : Dev :=
  match d.awaits s false with
  | none => d
  | some l =>
    if l.entry ≠ entry then d
    else
      let d1 := d.modChecking s fun l => { l with bus := some crc, busClosed := true }
      if crc = l.crc then d1
      else
        (((d1.darkUntilNext s).count kMptBusCrcErr s 1).raise 0x0702 s (entry % 2048 + 0x800 * s)).modMport s
          fun p => if p.state = .ready then { (p.ask 0x05 0 0) with lanesAsked := true } else p

/-- A CELL_CRC arrives. -/
def Dev.cellCrcIn (d : Dev) (s entry : Nat) (crc : BitVec 32) : Dev :=
  match d.awaits s true with
  | none => d
  | some l =>
    if l.entry ≠ entry then d
    else
      let d1 := d.closeCell s l (some crc)
      if crc = l.crc then d1
      else ((d1.darkUntilNext s).count kMptCellCrcErr s 1).raise 0x0702 s (entry % 2048 + 0x800 * s + 0x1000)

/-- A check value is missing at its deadline. -/
def Dev.crcLate (d : Dev) (s : Nat) (cell : Bool) : Dev :=
  match d.awaits s cell with
  | none => d
  | some l =>
    let d1 := if cell then d.closeCell s l none else d.modChecking s fun l => { l with busClosed := true }
    ((d1.darkUntilNext s).count kMptRbTimeout s 1).raise 0x0703 s
      (l.entry % 2048 + 0x800 * s + 0x1000 * (if cell then 2 else 1))

end Sys2Proof.Machine
end

