-- ==== Sys2Proof/Machine/SeqOps.lean ====
section
/-! DEFINITION. Plane sequencing (chapter 9): the planes (R222 to R226), look-ahead words (R228), slot boundaries, reset
instants, mask exchange and voided entries (R213, R214, R231, R233, R234), and the aggregates of R356. -/

namespace Sys2Proof.Machine

open Sys2Proof

/-! ### Forming a plane -/

/-- Table 9-6, d[p][y & 1][x & 1]. -/
def ditherThreshold (p x y : Nat) : Nat :=
  [0, 8, 4, 12].getD (p % 4) 0 + (if y % 2 = 0 then 2 * (x % 2) else 3 - 2 * (x % 2))

/-- The 12-bit code of an intensity (R222). -/
def Dev.code12 (d : Dev) (x y intensity : Nat) : Nat :=
  min 4095 ((intensity + if d.par kMstDitherEn 0 = 0 then 8 else ditherThreshold d.seq.dither x y) / 16)

/-- The gate level of a mask value (R224). -/
def gateLevel (m : Nat) : Nat := (16 * m + 7) / 15

/-- The Bayer thresholds of R224. -/
def bayer (v u : Nat) : Nat := ([0, 8, 2, 10, 12, 4, 14, 6, 3, 11, 1, 9, 15, 7, 13, 5] : List Nat).getD (4 * v + u) 0

/-- The gate of a pixel under a gate level in entry e and phase p (R224). -/
def gateOf (e p x y n : Nat) : Bool :=
  let o := (5 * e + 7 * p) % 16
  decide (bayer ((y + o / 4) % 4) ((x + o) % 4) < n)

/-- The index of the mask sample over a side pixel. -/
def maskIndex (sideW x y : Nat) : Nat := y / 4 * (sideW / 4) + x / 4

/-- The gate of a side's pixel: the front buffer's sample, or all on while no mask is in force; a 32-bit mask word that is
uncorrectable gates its eight samples off (R234, log entry 26). -/
def Dev.gate (d : Dev) (s e x y : Nat) : Bool :=
  if d.maskOn s then
    let b := d.seq.masks.get s
    let i := maskIndex d.row.sideW x y
    !(b.badWords.contains (i / 8)) && gateOf e d.seq.dither x y (gateLevel (b.front.getD i 15).toNat)
  else gateOf e d.seq.dither x y 16

/-- A pixel of the test frames of R209. -/
def Dev.testPixel (d : Dev) (s x y : Nat) : Pix :=
  if d.timingMode = 0x1E then
    let level := d.par kMstFlatLevel 0
    { i := if d.par kMstFlatMap 0 = 1 then d.finishAt d.row s x y level (!(d.pipe s).parkedWeights) else level, t := 0 }
  else
    let cell := d.par kMstCheckCell 0
    { i := if (x / cell + y / cell + d.seq.refreshCount) % 2 = 0 then 65535 else 0, t := 0 }

/-- The test frame of a side, as composed. -/
def Dev.testFrame (d : Dev) (s : Nat) : List (List Pix) :=
  (List.range d.row.fieldH).map fun y => (List.range d.row.sideW).map fun x => d.testPixel s x y

/-- The composed pixel a plane is formed from; a front buffer that holds no pixel is dark. -/
def Dev.framePixel (d : Dev) (s x y : Nat) : Pix :=
  if isTestMode d.timingMode then d.testPixel s x y else ((d.pipe s).front.getD y []).getD x { i := 0, t := 0 }

/-- The mirror of a side at (x, y) in the plane of entry e (R223). `bad` lists the composed-frame words, of 64 pixels, that read
as uncorrectable (R234). -/
def Dev.mirror (d : Dev) (s e : Nat) (bad : List Nat) (x y : Nat) : Bool :=
  let n := d.entry e
  let p := d.framePixel s x y
  let word := y * (d.row.sideW / 64) + x / 64
  !n.park && d.seq.maskInForce.getLsbD n.slotno && (d.code12 x y p.i).testBit n.bit && n.tmask.testBit p.t &&
  d.gate s e x y && !bad.contains word

/-- The bits of a plane in beat order: rows from the top, each left to right. -/
def Dev.planeBits (d : Dev) (s e : Nat) (bad : List Nat) : List Bool :=
  (List.range d.row.fieldH).flatMap fun y => (List.range d.row.sideW).map fun x => d.mirror s e bad x y

/-- Bits packed eight to a byte, the earliest lowest. -/
def packBits : Nat → List Bool → List Byte
  | 0, _ => []
  | _ + 1, [] => []
  | n + 1, b :: bs => BitVec.ofNat 8 (bitMap ((b :: bs).take 8)) :: packBits n ((b :: bs).drop 8)

def packed (bits : List Bool) : List Byte := packBits bits.length bits

/-- The plane CRC of R243: beat y × W / 32 + x div 32 carries pixel (x, y) on pair x mod 32, so the bytes of the beats are
the bits eight at a time. -/
def planeCrc (bits : List Bool) : BitVec 32 := crc32 (packed bits)

/-- Every 32nd bit of a list, n of them. -/
def strided : Nat → List Bool → List Bool
  | 0, _ => []
  | n + 1, [] => false :: strided n []
  | n + 1, b :: bs => b :: strided n (bs.drop 31)

/-- The bits that lane k carries: one of the 32 of each beat. -/
def laneBits (bits : List Bool) (k : Nat) : List Bool := strided (bits.length / 32) (bits.drop k)

/-- n bits of PRBS7 (x⁷ + x⁶ + 1), from the seven bits that leave first (R248). -/
def prbsBits : Nat → List Bool → List Bool
  | 0, _ => []
  | n + 1, w => w.getD 0 false :: prbsBits n (w.drop 1 ++ [w.getD 0 false != w.getD 1 false])

/-- PRBS7 of lane k, whose generator starts in state k + 1 (log entry 127). -/
def prbsOf (k n : Nat) : List Bool :=
  let state := (List.range 7).map fun i => (k + 1).testBit i
  prbsBits n (if Config.prbsHighFirst then state.reverse else state)

/-- The lane CRCs of lanes 0 to 32 (R243): CK1 carries the lane it covers, or none; the pair of a lane that is being calibrated
carries PRBS7 (R251). -/
def laneCrcs (bits : List Bool) (spare trial : Option Nat) : List (BitVec 8) :=
  (List.range 32).map (fun k =>
    crc8 (packed (if trial = some k then prbsOf k (bits.length / 32) else laneBits bits k))) ++
  [match spare with | some k => crc8 (packed (laneBits bits k)) | none => 0]

/-- The lane on CK1: SPARE takes effect from the next LOAD (R239). -/
def MPort.onCk1 (p : MPort) : Option Nat := if p.told < 32 ∧ !p.lane32Failed then some p.told else none

/-! ### Look-ahead words (R228) -/

/-- Stages of a release from park (R297, R253): boosts starting, waiting for the tickets, unparking. -/
def releaseNone : Nat := 0
def releaseBoosts : Nat := 1
def releaseTickets : Nat := 2
def releaseUnpark : Nat := 3

/-- Every side of the mode in force is READY. -/
def Dev.allReady (d : Dev) : Bool := d.modeSides.all fun s => (d.mport s).state == .ready

/-- The next refresh boundary is the first of a projected refresh (Table 10-9). -/
def Dev.startsProjecting (d : Dev) : Bool := d.core.releaseStage == releaseUnpark && d.allReady

/-- The mode whose image runs from the next refresh boundary. -/
def Dev.nextMode (d : Dev) : Nat :=
  match d.seq.change with
  | .pending m _ _ armed => if armed then m else d.timingMode
  | _ => d.timingMode

/-- The entry whose word is to be handed: the one begun whose reset is still to come if it has no word, else the next. -/
def Dev.handEntry (d : Dev) : Nat :=
  let q := d.seq
  if !q.started || q.boundaryOpen then 0
  else if q.resetDue && !((q.words.get 0).any fun w => w.entry == q.entry) then q.entry
  else if (d.entry q.entry).last then 0
  else q.entry + 1

/-- A mask as it applies in a mode: one that would remove every beam slot becomes all ones (R204). -/
def Dev.maskFor (_ : Dev) (r : ModeRow) (m : Word) : Word := if maskKeeps r m then m else 0xFFFFFFFF

/-- The slot mask that will be in force with the entry handed. -/
def Dev.nextMask (d : Dev) (first : Bool) : Word :=
  if first then d.maskFor (d.rowOf d.nextMode) (d.seq.maskRecorded.getD d.seq.maskInForce) else d.seq.maskInForce

/-- The dither phase of the refresh after this one. -/
def Dev.nextPhase (d : Dev) : Nat :=
  if !d.seq.started ∨ d.nextMode ≠ d.timingMode then 0 else (d.seq.refreshInCycle + 1) % d.row.perCycle % 4

/-- The word of entry e for a side; `first` when it belongs to the next refresh. -/
def Dev.wordFor (d : Dev) (s e : Nat) (first : Bool) : Lookahead :=
  let r := if first then d.rowOf d.nextMode else d.row
  let n := r.image.getD e (offEntry 6600 true false true)
  let mask := d.nextMask first
  let on := (d.seq.projecting.get s || (first && d.startsProjecting)) && (s == 0 || r.dual) && !d.saf.safeSides.get s
  let voided := !first && (d.seq.loading.get s).any fun l => l.entry == e && l.voided
  { entry := e, cshift := n.cshift, mix := n.mix, zero := n.park || !mask.getLsbD n.slotno || !on || voided, diag := n.diag,
    camw := n.camw, first := e == 0, dphase := if first then d.nextPhase else d.seq.dither }

/-- A hand-off that can only be that of the entry shown, whose word has been missed: the hand-off of the next entry is not due
yet (R228, R320, log entry 134). -/
def Dev.lateWord (d : Dev) : Bool :=
  d.seq.wordMissed && !d.seq.resetDue &&
  decide (d.now < d.seq.resetAt + ((d.entry d.seq.displayed).dur - loadCycles d.row.geom - (d.entry d.seq.displayed).lead) * 97 / 150)

/-- The hand-off of R228, to both sides. A word received after S_e is discarded (R320). -/
def Dev.handOff (d : Dev) : Dev :=
  if d.lateWord then d else
  let e := d.handEntry
  let first := e == 0 && !(d.seq.boundaryOpen && d.seq.started)
  let put (d : Dev) (s : Nat) : Dev :=
    let w := d.wordFor s e first
    { d with seq := { d.seq with words := d.seq.words.mod s fun l => l.filter (fun v => v.entry != e) ++ [w] } }
  let d1 := d.sides.foldl put d
  if first then { d1 with seq := { d1.seq with handedFirst := true } } else d1

/-! ### Voided entries (R233, R246) -/

/-- The word of an entry on a side carries ZERO. -/
def Dev.zeroWord (d : Dev) (s e : Nat) : Dev :=
  { d with seq := { d.seq with
      words := d.seq.words.mod s fun l => l.map fun w => if w.entry = e then { w with zero := true } else w,
      inForce := d.seq.inForce.mod s fun w => if w.entry = e then { w with zero := true } else w } }

/-- Millstone voids entry e on a side: counted, raised, and driven at 0 A. -/
def Dev.voidEntry (d : Dev) (s e : Nat) : Dev :=
  ((d.zeroWord s e).count kMstPlaneVoid s 1).raise 0x0603 s (e % 2048 + 0x800 * s)

/-- An entry of which no load was sent. -/
def Loaded.none_ (e : Nat) : Loaded :=
  { entry := e, crc := 0, lanes := [], voided := true, wasReset := false, bus := none, cell := none, busClosed := true,
    cellClosed := true }

/-- The load of entry e starts on a projecting side, or the entry is voided (R214, R246). -/
def Dev.beginLoad (d : Dev) (s e : Nat) (bad : List Nat) : Dev :=
  let p := d.mport s
  if p.state = .ready ∧ p.fltN ∧ p.sparePending.isNone then
    let bits := d.planeBits s e bad
    let l : Loaded := { entry := e, crc := planeCrc bits, lanes := laneCrcs bits p.onCk1 p.covered, voided := false, wasReset := false,
                        bus := none, cell := none, busClosed := false, cellClosed := false }
    { d with seq := { d.seq with loading := d.seq.loading.set s (some l) } }.modMport s fun p =>
      { (p.send 0x01 (e % 2048) d.row.geom) with loadNo := p.loadNo + 1 }
  else
    { d with seq := { d.seq with loading := d.seq.loading.set s (some (Loaded.none_ e)) } }.voidEntry s e

/-! ### Slot boundaries -/

/-- The timeline runs in STANDBY, BEAM, DEGRADED and SAFE, but not under the Acorn recovery service (R371, log entry 27). -/
def Dev.timelineRuns (d : Dev) : Bool := d.canActive && !d.core.acornService && d.core.modeValid

/-- The mask exchange of one side (R231). -/
def Dev.exchangeMask (d : Dev) (s : Nat) : Dev :=
  if (d.seq.masks.get s).ready then
    (d.modMask s fun b => { b with
      front := b.back, back := b.front, ready := false, genFront := b.genBack, genBack := b.genFront, sigFront := b.sigBack,
      sigBack := b.sigFront, badWords := [] }).count kMstMaskExchanges s 1
  else d

/-- The age of the lists as the engine evaluates it at a slot boundary (R273, LIST_AGE). -/
def Dev.evalAge (d : Dev) : Dev :=
  match d.sht.newest with
  | some l => { d with sht := { d.sht with listAge := min 0xFFFFFFFE (d.now - l.time) } }
  | none => d

/-- The sequencer meets an uncorrectable store word (R218). -/
def Dev.seqEcc (d : Dev) (e : Nat) : Dev :=
  let ix := d.row.mode * 2048 + 1 + e
  ({ d with seq := { d.seq with eccWords := if d.seq.eccWords.contains ix then d.seq.eccWords else d.seq.eccWords ++ [ix] } }
    ).raise 0x0601 0 ix

/-- An uncorrectable composed-frame word of a side's plane (R234). -/
def Dev.planeEcc (d : Dev) (s e : Nat) : Dev := (d.count kMstPlaneEcc s 1).raise 0x0602 s (e % 2048 + 0x800 * s)

/-- The mask words of a side that read as uncorrectable stay bad while they stay in the front buffer (R234). -/
def MaskBuf.spoil (b : MaskBuf) (ws : List Nat) : MaskBuf :=
  { b with badWords := b.badWords ++ ws.filter fun w => !b.badWords.contains w }

/-- B_e: entry e begins. The mask exchange of B_0 is part of the refresh boundary (R230, R231). -/
def Dev.beginEntry (d : Dev) (e : Nat) (bad masks : Nat → List Nat) (seqEcc : Bool) : Dev :=
  let d0 := { d with seq := { d.seq with entry := e, boundaryOpen := false, resetDue := true } }
  let d1 := (if e = 0 then d0 else d0.sides.foldl (fun d s => d.exchangeMask s) d0).evalAge
  let d2 := if seqEcc then d1.seqEcc e else d1
  d2.modeSides.foldl (fun d s =>
    if d.seq.projecting.get s then
      let d3 := (d.modMask s fun b => b.spoil (masks s)).beginLoad s e (bad s)
      (bad s).foldl (fun d _ => d.planeEcc s e) d3
    else d) d2

/-- The entry that the next slot boundary begins: entry 0 after a refresh boundary, else the next one; none when the refresh
boundary must come first. -/
def Dev.nextEntry (d : Dev) : Option Nat :=
  if d.seq.boundaryOpen then (if d.seq.frameDue then none else some 0)
  else if !d.seq.started ∨ (d.entry d.seq.entry).last then none
  else some (d.seq.entry + 1)

/-! ### The plane readback aggregate (R356) -/

/-- CRC-32 over 32-bit values, each as four bytes. -/
def aggregateOf (vs : List (BitVec 32)) : BitVec 32 := crc32 (vs.flatMap fun v => leBytes 4 v.toNat)

/-- An ended refresh is verified on its side. -/
def Ended.verified (e : Ended) : Bool := aggregateOf e.rx == aggregateOf e.ex && !e.rx.isEmpty && !e.failed

/-- A refresh ends on a side: its aggregates wait for the checks of its last entry, which close after the boundary (log entry
140). -/
def Dev.endAggregates (d : Dev) (s : Nat) : Dev :=
  { d with seq := { d.seq with
      ended := d.seq.ended.set s (some { rx := d.seq.rxAgg.get s, ex := d.seq.exAgg.get s, failed := d.seq.checkFailed.get s,
                                         projected := d.seq.projectedRefresh.get s && d.seq.projecting.get s })
      endedOk := d.seq.endedOk.set s none } }

/-- The aggregates of the refresh that has ended close once no check of it is open, or without more when `now_` says so:
PLANE_AGG, REFRESH_CHECK_FAIL and the journal's count. -/
def Dev.closeAggregates (d : Dev) (s : Nat) (now_ : Bool) : Dev :=
  match d.seq.ended.get s with
  | none => d
  | some e =>
    if !now_ ∧ ((d.awaits s true).isSome ∨ (d.awaits s false).isSome) then d
    else
      let d1 := { d with
        saf := { d.saf with
          planeAgg := d.saf.planeAgg.set s (aggregateOf e.rx), planeExp := d.saf.planeExp.set s (aggregateOf e.ex) }
        seq := { d.seq with
          ended := d.seq.ended.set s none, endedOk := d.seq.endedOk.set s (some (e.verified && e.projected)) } }
      if e.projected ∧ !e.verified then
        let acc := d1.jnl.acc
        { d1 with jnl := { d1.jnl with acc := { acc with unverified := acc.unverified.mod s (· + 1) } } }.count
          kSafRefreshCheckFail s 1
      else d1

/-- The aggregates start again with the new refresh. -/
def Dev.openAggregates (d : Dev) (s : Nat) : Dev :=
  { d with seq := { d.seq with
      rxAgg := d.seq.rxAgg.set s [], exAgg := d.seq.exAgg.set s [], checkFailed := d.seq.checkFailed.set s false,
      projectedRefresh := d.seq.projectedRefresh.set s (d.seq.projecting.get s) } }

/-! ### Reset instants -/

/-- The word of entry e on a side applies at the next Governor tick; a side without one has missed it (R320). -/
def Dev.applyWord (d : Dev) (s e : Nat) : Dev :=
  let put (d : Dev) (w : Lookahead) : Dev :=
    { d with
      seq := { d.seq with
        words := d.seq.words.mod s fun l => l.filter fun v => v.entry != e, inForce := d.seq.inForce.set s w },
      gov := { d.gov with zeroNow := d.gov.zeroNow.set s (d.saf.safeSides.get s), wordDue := d.gov.wordDue.set s true } }
  match (d.seq.words.get s).find? fun w => w.entry == e with
  | some w => put d w
  | none =>
    let n := d.entry e
    ((put d { entry := e, cshift := n.cshift, mix := n.mix, zero := true, diag := n.diag, camw := n.camw, first := e == 0,
              dphase := d.seq.dither }).count kGovLookaheadMiss s 1).raise 0x0903 s (s + 2 * (e % 2048))

/-- The load of a side ends at S_e: RESET is sent, or the entry is voided (R241, R246). -/
def Dev.endLoad (d : Dev) (s e : Nat) : Dev :=
  match d.seq.loading.get s with
  | none => d
  | some l =>
    let d0 := { d with seq := { d.seq with loading := d.seq.loading.set s none } }
    let p := d.mport s
    if !d.seq.projecting.get s then d0
    else if l.voided then { d0 with seq := { d0.seq with checking := d0.seq.checking.set s none } }.zeroWord s e
    else if p.state = .ready ∧ p.fltN then
      { d0 with seq := { d0.seq with checking := d0.seq.checking.set s (some { l with wasReset := true }) } }.modMport s
        fun p => p.send 0x02 0 0
    else { d0 with seq := { d0.seq with checking := d0.seq.checking.set s none } }.voidEntry s e

/-- S_e on both sides. What was left open of a refresh that has ended closes before the new entry takes the checks' place. -/
def Dev.resetInstant (d : Dev) : Dev :=
  let e := d.seq.entry
  let d0 := { d with
    seq := { d.seq with
      resetDue := false, displayed := e, resetAt := d.now,
      wordMissed := !((d.seq.words.get 0).any fun w => w.entry == e) }, gov := { d.gov with sinceReset := 0 } }
  d0.sides.foldl (fun d s => ((d.closeAggregates s true).endLoad s e).applyWord s e) d0

end Sys2Proof.Machine
end

