-- ==== Sys2Proof/Machine/LampOps.lean ====
section
/-! DEFINITION. Lamp drive (chapter 12): driven channels (R283), set-points (R286 to R288), board temperature and junction
estimates (R289 to R292), boosts (R293 to R296), dimming and ramps (R298 to R301), and diagnostics (R302 to R305). -/

namespace Sys2Proof.Machine

open Sys2Proof

def sideOf (s : Nat) : Side := if s = 0 then .L else .R

/-! ### Channels (R283) -/

/-- Configured, enabled and not latched off. -/
def Dev.usable (d : Dev) (c : Nat) : Bool :=
  d.primary c != 3 && d.lamp.enable.getLsbD c && (d.chan c).latches.isEmpty

/-- The channel is driven. -/
def Dev.driven (d : Dev) (c : Nat) : Bool := d.usable c && d.seq.projecting.get (chanSide c)

/-- The channels the part has. -/
def Dev.chans (d : Dev) : List Nat := d.sides.flatMap sideChans

/-! ### Set-points (R286 to R288) -/

/-- The ramp step of R300: value and whether it goes on. A refresh is period3 / 3 ticks. -/
def Ramp.step (p : Ramp) (c : CurveSet) (period3 : Nat) : Nat × Option Ramp :=
  let u := rampU (p.k + 1) period3 (3 * p.len)
  (rampValue c p.s p.e u, if u = 4294967296 then none else some { p with k := p.k + 1 })

/-- g of a primary: the per-refresh factor (R286). -/
def gFactor (d r dt : Nat) : Nat := ((d * r + 32767) / 65535 * dt + 32767) / 65535

/-- The set-point of a channel in an entry, 0.1 mA (R286). -/
def Dev.setpointOf (d : Dev) (c cshift mix : Nat) (zero : Bool) : Nat :=
  if zero || !d.driven c then 0
  else
    let p := d.lside (chanSide c)
    let q := d.primary c
    let den := 32768 * 65535 * 2 ^ cshift
    min ((d.par kLmpINom c * 10 * (p.wc.getD mix []).getD q 0 * p.g.getD q 0 + den / 2) / den) (d.par kLmpILimit c * 10)

/-- Point k of a compensation table: T and three coefficients (Table 12-4). -/
def compPoint (t : List Byte) (p k : Nat) : Int × List Int :=
  let o := 64 * p + 8 * k
  (leInt t o 2, [leInt t (o + 2) 2, leInt t (o + 4) 2, leInt t (o + 6) 2])

/-- Every table is strictly ascending in T. -/
def compAscending (t : List Byte) : Bool :=
  (List.range 3).all fun p => (List.range 7).all fun k => decide ((compPoint t p k).1 < (compPoint t p (k + 1)).1)

/-- Row p of the matrix M at a junction temperature (R288). -/
def compRow (t : List Byte) (p : Nat) (tj : Int) : List Int :=
  let pts := (List.range 8).map (compPoint t p)
  match pts.find? fun q => decide (tj ≤ q.1) with
  | none => (compPoint t p 7).2
  | some b =>
    match (pts.takeWhile fun q => decide (q.1 < tj)).getLast? with
    | none => b.2
    | some a => (List.zip a.2 b.2).map fun v => v.1 + ((v.2 - v.1) * (tj - a.1) + (b.1 - a.1) / 2) / (b.1 - a.1)

/-- The compensated weights of a side, for 16 mixes (R288). -/
def Dev.weights (d : Dev) (s : Nat) : List (List Nat) :=
  let t := d.arr kLmpCompTable s
  let tp := (d.lside s).tp
  let rows := (List.range 3).map fun p => compRow t p (tp.getD p 0)
  (List.range 16).map fun m => (List.range 3).map fun q =>
    let sum := sumInt ((List.range 3).map fun p => (d.mixWeight s m p : Int) * (rows.getD p []).getD q 0)
    (clampI 0 65535 ((sum + 4096) / 8192)).toNat

/-! ### Temperatures (R289 to R292) -/

/-- T_b of a reading, 0.1 °C in fixed point, and the block with any free value drawn; none for an invalid conversion. Where the
NTC formula has no value (a zero in NTC_CFG) the temperature is a free value. -/
def Dev.boardT (d : Dev) (s : Nat) (r : BoardReading) : Option Int × Dev :=
  match r with
  | .ntc c =>
    if d.par kLmpSensorSel s ≠ 0 ∨ c < 16 ∨ 4079 < c then (none, d)
    else
      let cfg := d.arr kLmpNtcCfg s
      let rnom := leField cfg 0 4
      let rpu := leField cfg 4 4
      let beta := leField cfg 8 2
      if rnom = 0 ∨ rpu = 0 ∨ beta = 0 then (some (signed 16 d.free.toNat * fxOne), d.drawn)
      else
        let inv := fxOne * 100 / 29815 + fxLn (rpu * c) ((4095 - c) * rnom) / (beta : Int)
        if inv ≤ 0 then (some (signed 16 d.free.toNat * fxOne), d.drawn)
        else (some ((20 * fxOne * fxOne / inv - 5463 * fxOne) / 2), d)
  | .i2c v => (if d.par kLmpSensorSel s = 1 then some (10 * v * fxOne / 256) else none, d)
  | .i2cFailed => (none, d)

/-- A reading that R290 accepts, judged before any rounding. -/
def LampSide.acceptsT (p : LampSide) (t : Int) : Bool :=
  decide (-450 * fxOne ≤ t) && decide (t ≤ 1550 * fxOne) && (!p.everValid || decide (((t - p.tFine).natAbs : Int) ≤ 100 * fxOne))

/-- A reading of a side's own sensor, or none, is taken (R290). The sensor is used again after 10 valid readings, which clears
LAMP_SENSOR. -/
def Dev.takeBoard (d : Dev) (s : Nat) (t : Option Int) : Dev :=
  match t with
  | some v =>
    if (d.lside s).acceptsT v then
      let p := d.lside s
      let good := min 10 (p.goodReads + 1)
      let back := p.substituted && decide (10 ≤ good)
      let d0 : Dev := { d with gov := { d.gov with tbSeq := d.gov.tbSeq.mod s (· + 1) } }
      let d1 := d0.modLside s fun p => { p with
        tBoard := openRound 0 v fxOne.toNat, tFine := v, everValid := true, goodReads := good,
        substituted := p.substituted && !back }
      if back then d1.clearFault 0x0A0A s else d1
    else d.modLside s fun p => { p with goodReads := 0 }
  | none => d.modLside s fun p => { p with goodReads := 0 }

/-- A lamp-board reading comes in. One from the sensor that SENSOR_SEL does not name does nothing. -/
def Dev.boardRead (d : Dev) (s : Nat) (r : BoardReading) : Dev :=
  let wrong := match r with | .ntc _ => d.par kLmpSensorSel s != 0 | _ => d.par kLmpSensorSel s != 1
  if wrong then d else (d.boardT s r).2.takeBoard s (d.boardT s r).1

/-- One second after the last valid reading a substitute is used (R290). -/
def Dev.substitute (d : Dev) (s : Nat) : Dev :=
  if (d.lside s).substituted then d
  else
    let d1 := d.modLside s fun p => { p with substituted := true, goodReads := 0 }
    d1.raise 0x0A0A s (s + 2 * (if d1.otherBoard s then 1 else 2))

/-- The junction estimate of a primary after a refresh (R291). -/
def Dev.nextDtj (d : Dev) (s p : Nat) : Int :=
  let q := d.lside s
  let jm := d.arr kLmpJmodel s
  let rth := leField jm (4 * p) 2
  let tau3 := 3 * msTicks (leField jm (4 * p + 2) 2)
  let watts := sumInt (((sideChans s).filter fun c => d.primary c == p).map fun c =>
    let ch := d.chan c
    if ch.powCount = 0 then 0 else openRound 2 (rth * ch.powSum * 65536) (25600000000000 * ch.powCount))
  let old := q.dtj.getD p 0
  old + openRound 3 ((watts - old) * d.cam.period3) (tau3 + d.cam.period3)

/-- The thermal derate of a primary (R292). -/
def Dev.derateOf (d : Dev) (s : Nat) (t : Int) : Nat :=
  let lo := d.parI kLmpTjDerate s
  let hi := d.parI kLmpTjLimit s
  let floor := d.par kLmpDerateFloor s
  if t ≤ lo then 65535
  else if hi ≤ t then floor
  else (65535 - openRound 4 ((65535 - floor : Int) * (t - lo)) (hi - lo).toNat).toNat

/-- Estimates, T_p and derates of a side at a refresh boundary, and the DERATE events (R291, R292). -/
def Dev.stepJunctions (d : Dev) (s : Nat) : Dev :=
  let dtj := (List.range 3).map (d.nextDtj s)
  let tp := dtj.map fun (x : Int) => d.tBoardOf s + openRound 5 x 65536
  let lo := d.parI kLmpTjDerate s
  let was := (d.lside s).derated
  let now := (List.range 3).map fun p =>
    let t := tp.getD p 0
    if was.getD p false then !decide (t < lo - 50) else decide (lo < t)
  let d1 := d.modLside s fun q => { q with dtj := dtj, tp := tp, dt := tp.map (d.derateOf s), derated := now }
  let d2 := (List.range 3).foldl (fun d p =>
    if now.getD p false = was.getD p false then d
    else d.post 0x0A0D (s + 2 * p + 8 * b2n (now.getD p false))) d1
  let d3 : Dev := { d2 with gov := { d2.gov with tpSeq := d2.gov.tpSeq.mod s (· + 1) } }
  (sideChans s).foldl (fun d c => d.modChan c fun ch => { ch with powSum := 0, powCount := 0 }) d3

/-! ### Boosts (R294 to R296) -/

/-- BST_OV − 1.0 V, mV. -/
def Dev.ovLevel (d : Dev) (s : Nat) : Int := 10 * (d.parI kLmpBstOv s) - 1000

/-- The clamp of R294 and R322. -/
def Dev.boostClamp (d : Dev) (s : Nat) (v : Int) : Int := min (d.ovLevel s) (max ((d.lside s).vin + 1000 : Int) v)

/-- The headroom loop's feed-forward: the largest VF_NOM of the side's channels that are to be driven, plus HEADROOM (R294). -/
def Dev.boostFf (d : Dev) (s : Nat) : Int :=
  let vf := ((sideChans s).filter fun c => d.usable c).foldl (fun m c => max m (10 * d.par kLmpVfNom c)) 0
  d.boostClamp s (vf + d.par kLmpHeadroom s : Nat)

/-- A boost is asked to start (R296). -/
def Dev.startBoost (d : Dev) (s : Nat) : Dev :=
  if (d.lside s).boost = .off then
    (d.modLside s fun p => { p with boost := .waiting }).request (.boost (sideOf s))
  else d

/-- At each refresh boundary a boost whose ticket was denied asks again. -/
def Dev.retryBoost (d : Dev) (s : Nat) : Dev :=
  match (d.lside s).boost with
  | .waiting => d.request (.boost (sideOf s))
  | .uvWait => d.request (.boost (sideOf s))
  | _ => d

/-- A boost that is switching. -/
def BoostSt.running : BoostSt → Bool
  | .start => true
  | .run => true
  | _ => false

/-- V_out is within 3 % of the target (R296): RUN, and the start ticket goes back. A start that ends during an overvoltage trip
returns to RUN from it. A restart after an undervoltage stop clears BOOST_UV. -/
def Dev.boostRuns (d : Dev) (s : Nat) : Dev :=
  let go (b : BoostSt) : Dev :=
    ((d.modLside s fun p => { p with boost := b }).release (.boost (sideOf s))).clearFault 0x0A09 s
  match (d.lside s).boost with
  | .start => go .run
  | .ovTrip false => go (.ovTrip true)
  | _ => d

/-- RUN was not reached (R296). -/
def Dev.boostFails (d : Dev) (s : Nat) : Dev :=
  match (d.lside s).boost with
  | .start => (d.stopBoost s).raise 0x0A06 s s
  | .ovTrip false => (d.stopBoost s).raise 0x0A06 s s
  | _ => d

/-- An overvoltage trip (R295). -/
def Dev.boostOv (d : Dev) (s : Nat) : Dev :=
  let trip (back : Bool) : Dev :=
    ((d.modLside s fun p => { p with boost := .ovTrip back }).count kLmpBstOvTrips s 1).raise 0x0A08 s s
  match (d.lside s).boost with
  | .start => trip false
  | .run => trip true
  | _ => d

/-- V_out fell below BST_OV − 2.0 V: the state at the trip returns. -/
def Dev.boostOvEnds (d : Dev) (s : Nat) : Dev :=
  match (d.lside s).boost with
  | .ovTrip back => d.modLside s fun p => { p with boost := if back then .run else .start }
  | _ => d

/-- An undervoltage stop (R295): the start ticket, if any, goes back. -/
def Dev.boostUv (d : Dev) (s : Nat) : Dev :=
  let stop : Dev := ((d.modLside s fun p => { p with boost := .uvStop }).release (.boost (sideOf s))).raise 0x0A09 s s
  match (d.lside s).boost with
  | .start => stop
  | .run => stop
  | .ovTrip _ => stop
  | _ => d

/-- VIN has recovered: the boost asks for a new start. -/
def Dev.boostUvEnds (d : Dev) (s : Nat) : Dev :=
  match (d.lside s).boost with
  | .uvStop => (d.modLside s fun p => { p with boost := .uvWait }).request (.boost (sideOf s))
  | _ => d

/-- One Governor tick of a soft start: V_in to the feed-forward value over 4,000 ticks of 500 ns (R296). -/
def Dev.stepSoft (d : Dev) (s : Nat) : Dev :=
  let step (p : LampSide) : LampSide :=
    let k := min 4000 (p.softTicks + 1)
    { p with softTicks := k,
             softTarget := ((p.softFrom : Int) + openRound 6 ((d.boostFf s - p.softFrom) * k) 4000).toNat }
  match (d.lside s).boost with
  | .start => d.modLside s step
  | .ovTrip false => d.modLside s step
  | _ => d

/-! ### Dimming (R298, R299) -/

/-- The source the last admitted DIM_SET selected. -/
def Dev.dimSelected (d : Dev) : Nat := match d.lamp.dimPending with | some (_, s, _) => s | none => d.lamp.dimSource

def Lamp.dimIn (l : Lamp) (source : Nat) : DimIn := if source = 1 then l.pwm else l.ain

/-- A source is in loss; LEVEL never is. -/
def Lamp.inLoss (l : Lamp) (source : Nat) : Bool := source != 0 && (l.dimIn source).loss

/-- The value of a source. -/
def Lamp.dimValue (l : Lamp) (source : Nat) : Nat := if source = 0 then l.dimLevel else (l.dimIn source).value

/-- DIM_SET is admitted (R298, R299): it applies at the next refresh boundary. A source in loss raises DIM_INPUT_LOST at once;
one that is not ends the loss of a source selected before. -/
def Dev.dimSet (d : Dev) (level source ms : Nat) : Dev :=
  let d1 := { d with lamp := { d.lamp with dimPending := some (level, source, ms), dimTodo := 0 } }
  if d.lamp.inLoss source then
    ({ d1 with lamp := { d1.lamp with dimLost := true } }).raise 0x0A0B 0 source
  else if d.lamp.dimLost then ({ d1 with lamp := { d1.lamp with dimLost := false } }).clearFault 0x0A0B 0
  else d1

/-- One hundred milliseconds without valid input (R299). -/
def Dev.dimLoss (d : Dev) (source : Nat) : Dev :=
  if source = 0 ∨ (d.lamp.dimIn source).loss then d
  else
    let f (i : DimIn) : DimIn := { i with loss := true, validRun := 0 }
    let d1 := if source = 1 then { d with lamp := { d.lamp with pwm := f d.lamp.pwm } }
              else { d with lamp := { d.lamp with ain := f d.lamp.ain } }
    if d.dimSelected = source then
      ({ d1 with lamp := { d1.lamp with dimLost := true, dimTodo := if d.lamp.dimPending.isSome then 0 else 1 } }).raise 0x0A0B 0 source
    else d1

/-- A valid input is counted: the fourth in a row ends a loss. The second part says whether it did. -/
def DimIn.valid (i : DimIn) : DimIn × Bool :=
  let n := min 4 (i.validRun + 1)
  ({ i with validRun := n, loss := i.loss && decide (n < 4) }, i.loss && decide (4 ≤ n))

/-- The selected source left loss (R299). -/
def Dev.dimRestored (d : Dev) (source : Nat) : Dev :=
  if d.dimSelected = source ∧ d.lamp.dimLost then
    (({ d with lamp := { d.lamp with dimLost := false, dimTodo := if d.lamp.dimPending.isSome then 0 else 2 } }
      ).post 0x0A0C source).clearFault 0x0A0B 0
  else d

/-- A completed DIM_PWM period (R299). -/
def Dev.pwmEdge (d : Dev) (period high : Nat) : Dev :=
  if 5000 ≤ period ∧ period ≤ 1000000 then
    let duty := (roundHalfUp ((min high period : Nat) * 65535) period).toNat
    let (i, back) := d.lamp.pwm.valid
    let d1 := { d with lamp := { d.lamp with pwm := { i with accum := duty :: i.accum }, pwmPeriod := period } }
    if back then d1.dimRestored 1 else d1
  else { d with lamp := { d.lamp with pwm := { d.lamp.pwm with validRun := 0 } } }

/-- The two inputs at a refresh boundary: the mean duty, and the mean of AIN_DIM with its validity (R299). -/
def Dev.latchDim (d : Dev) : Dev :=
  let acc := d.lamp.pwm.accum
  let d1 := if acc.isEmpty then d
            else { d with lamp := { d.lamp with pwm := { d.lamp.pwm with
              value := (openRound 7 (sumNat acc) acc.length).toNat, accum := [] } } }
  let n := d1.lamp.ainCount
  let sum := d1.lamp.ainSum
  let d2 := { d1 with lamp := { d1.lamp with ainSum := 0, ainCount := 0 } }
  if n = 0 ∨ sum < 100 * n ∨ 3200 * n < sum then
    { d2 with lamp := { d2.lamp with ain := { d2.lamp.ain with validRun := 0 } } }
  else
    let lo := d.par kLmpAinLo 0
    let hi := d.par kLmpAinHi 0
    let (i, back) := d2.lamp.ain.valid
    let v := (clampI 0 65535 (openRound 8 (((sum : Int) - (lo * n : Nat)) * 65535) ((hi - lo) * n))).toNat
    let d3 := { d2 with lamp := { d2.lamp with ain := { i with value := v } } }
    if back then d3.dimRestored 2 else d3

/-- A ramp of d starts from the value in force. -/
def Lamp.rampTo (l : Lamp) (target ms : Nat) : Lamp :=
  { l with dRamp := some { s := l.d, e := target, len := msTicks ms, k := 0 } }

/-- The ramp in progress goes one refresh on. -/
def Lamp.dimRampStep (l : Lamp) (c : CurveSet) (period3 : Nat) : Lamp :=
  match l.dRamp with
  | some p => { l with d := (p.step c period3).1, dRamp := (p.step c period3).2 }
  | none => l

/-- The ramp that a lost or a restored input asks for starts (R299). -/
def Lamp.dimTodoStep (l : Lamp) (fall ms : Nat) : Lamp :=
  let l1 := match l.dimTodo with
    | 1 => l.rampTo fall ms
    | 2 => l.rampTo (l.dimValue l.dimSource) ms
    | _ => l
  { l1 with dimTodo := 0 }

/-- A DIM_SET that waits comes into force with its ramp (R298). -/
def Lamp.dimSetStep (l : Lamp) (fall : Nat) : Lamp :=
  match l.dimPending with
  | some (level, source, ms) =>
    let l1 := { l with dimLevel := level, dimSource := source, dimPending := none }
    l1.rampTo (if l1.inLoss source then fall else l1.dimValue source) ms
  | none => l

/-- d at a refresh boundary (R298). -/
def Dev.stepDim (d : Dev) : Dev :=
  let d1 := d.latchDim
  let was := d1.lamp.dRamp.isSome
  let fall := d.par kLmpDimFallback 0
  let l := ((d1.lamp.dimRampStep d.curve d.cam.period3).dimTodoStep fall (d.par kLmpDimRampMs 0)).dimSetStep fall
  let steady := l.dRamp.isNone && !was && !l.inLoss l.dimSource
  { d1 with lamp := if steady then { l with d := l.dimValue l.dimSource } else l }

/-! ### The ramp factor (R301) -/

/-- DURATION of RAMP_CURVE, ticks. -/
def Dev.beamTicks (d : Dev) : Nat := msTicks (bitsOf (d.par kLmpRampSettings 0) 16 16)

/-- A beam transition of a side from the r in force (R301). `waits`: it starts at the next refresh boundary (R300); without, at
the boundary under way. -/
def Dev.rampR (d : Dev) (s target : Nat) (waits : Bool) : Dev :=
  let p := d.lside s
  let dist := if target ≤ p.r then p.r - target else target - p.r
  d.modLside s fun p => { p with
    rRamp := some { s := p.r, e := target, len := d.beamTicks * dist / 65535, k := 0 }, rWaits := waits }

/-- r of a side at a refresh boundary: a ramp that waits starts there, one that runs goes on. -/
def Dev.stepR (d : Dev) (s : Nat) : Dev :=
  match (d.lside s).rRamp with
  | none => d
  | some p =>
    if (d.lside s).rWaits then d.modLside s fun q => { q with rWaits := false }
    else
      let (v, rest) := p.step d.curve d.cam.period3
      d.modLside s fun q => { q with r := v, rRamp := rest }

/-! ### Diagnostics (R302 to R305) -/

/-- The diagnostic minimum, 0.1 mA. -/
def diagMin : Nat := 2000

/-- A channel is latched off by a detected fault, with its CH_FAULT bit, and the fault is raised (Table 12-7). -/
def Dev.detect (d : Dev) (c bit code arg : Nat) : Dev :=
  ((d.modChan c fun ch => { ch with fault := ch.fault ||| BitVec.ofNat 6 (2 ^ bit) }).latch c code).raise code c arg

/-- CH_OPEN and CH_SHORT in a display interval: bit 0 or 1 of CH_FAULT. -/
def Dev.litFault (d : Dev) (c bit : Nat) : Dev :=
  if d.driven c ∧ diagMin ≤ (d.chan c).setpoint then d.detect c bit (0x0A01 + bit) c else d

/-- FET_SHORT: the side's boost stops and every channel of the side is latched off. -/
def Dev.fetFault (d : Dev) (c : Nat) : Dev :=
  let s := chanSide c
  if (d.lside s).boost.running ∧ (d.chan c).setpoint = 0 ∧ d.primary c ≠ 3 then
    let d1 := (sideChans s).foldl (fun d k => if d.primary k = 3 then d else d.latch k 0x0A05) (d.stopBoost s)
    (d1.modChan c fun ch => { ch with fault := ch.fault ||| 16 }).raise 0x0A05 c c
  else d

/-- One channel's diagnostic pulse (R305): counted, and judged against two consecutive failures. -/
def Dev.pulse (d : Dev) (c : Nat) (isOpen short : Bool) : Dev :=
  let ch := d.chan c
  let o := if isOpen then ch.pulseOpen + 1 else 0
  let h := if short then ch.pulseShort + 1 else 0
  let d1 := (d.modChan c fun ch => { ch with pulseOpen := o % 2, pulseShort := h % 2 }).count kLmpDiagPulses c 1
  let d2 := if o = 2 then d1.detect c 0 0x0A01 (c + 16) else d1
  if h = 2 ∧ (d2.chan c).latches.isEmpty then d2.detect c 1 0x0A02 (c + 16) else d2

/-- The channels that receive a diagnostic pulse in this park window: driven, with less than 20 µs of lit time, on a side whose
boost is in RUN (R305). -/
def Dev.pulsed (d : Dev) : List Nat :=
  d.chans.filter fun c => d.driven c && decide ((d.chan c).litTicks < 2000) && (d.lside (chanSide c)).boost == .run

/-- The partial-short check of a channel at the end of a refresh (R304). -/
def Dev.partialShort (d : Dev) (c : Nat) : Dev :=
  let ch := d.chan c
  let d0 := d.modChan c fun ch => { ch with vfSum := 0, vfCount := 0 }
  if ch.vfCount < 8 ∨ !d.usable c then d0
  else
    let s := chanSide c
    let vnom := d.par kLmpVfNom c
    let dv := d.par kLmpPshortDv s
    let lim : Int := 1000 * (vnom : Int) + d.parI kLmpVfTc c * (((d.lside s).tp.getD (d.primary c) 0) - 250) - 1000 * (dv : Int)
    let fails := vnom != 0 && dv != 0 && decide (ch.vfSum < 2560 * lim * (ch.vfCount : Int))
    let meas := (roundHalfUp ch.vfSum (2560000 * ch.vfCount)).toNat
    let d1 := d0.modChan c fun ch => { ch with
      vfMeas := min 0xFFFF meas, vfFails := if fails then ch.vfFails + 1 else 0, vfPasses := if fails then 0 else ch.vfPasses + 1 }
    if fails ∧ ch.vfFails + 1 = 8 then
      (d1.modChan c fun ch => { ch with fault := ch.fault ||| 4 }).raise 0x0A03 c (c + 0x10000 * min 0xFFFF meas)
    else if !fails ∧ ch.vfPasses + 1 = 8 then
      (d1.modChan c fun ch => { ch with fault := ch.fault &&& 0x3B }).clearFault 0x0A03 c
    else d1

/-- BOOST_LIMIT of a side at the end of a refresh (Table 12-7). -/
def Dev.boostLimit (d : Dev) (s : Nat) : Dev :=
  let p := d.lside s
  let low := !p.headWon && p.vhSeen && !p.vhAbove
  let n := if low then p.vhLows + 1 else 0
  let d1 := d.modLside s fun p => { p with vhLows := n, vhSeen := false, vhAbove := false, headWon := false }
  if n = 8 then d1.raise 0x0A07 s s else if low then d1 else d1.clearFault 0x0A07 s

/-- A latch of a fault that is no longer active (R303, R363). A FET_SHORT holds every channel of its side. -/
def Dev.latchHeld (d : Dev) (c code : Nat) : Bool :=
  d.saf.active.any fun f => f.code == code && (f.inst == c || (code == 0x0A05 && chanSide f.inst == chanSide c))

/-- Recovered channels are released at the refresh boundary, and their diagnostics start afresh. -/
def Dev.releaseChan (d : Dev) (c : Nat) : Dev :=
  let ch := d.chan c
  let left := ch.latches.filter (d.latchHeld c)
  if ch.latches = left then d
  else d.modChan c fun ch => { ch with
    latches := left, fault := if left.isEmpty then ch.fault &&& 4 else ch.fault, pulseOpen := 0, pulseShort := 0, vfFails := 0,
    vfPasses := 0 }

/-! ### The refresh boundary -/

/-- MIX_TABLE and COMP_TABLE shadows go live (R287, R288). -/
def Dev.lampTables (d : Dev) (s : Nat) : Dev :=
  let d1 := d.applyArr (pid kLmpMixTable s)
  match d1.stagedArr kLmpCompTable s with
  | none => d1
  | some t =>
    if compAscending t then
      ({ d1 with lamp := { d1.lamp with compRejected := d1.lamp.compRejected.set s false } }).applyArr (pid kLmpCompTable s)
        |>.mirrorArr (pid kLmpCompTable s)
    else if d1.lamp.compRejected.get s then d1
    else ({ d1 with lamp := { d1.lamp with compRejected := d1.lamp.compRejected.set s true } }).post 0x0A0E s

/-- The lamp side's work at a refresh boundary, in the order: what the ended refresh showed; releases and the enable mask;
dimming and ramps; tables, junctions, derates and weights; the factor g of each primary. -/
def Dev.lampRefresh (d : Dev) : Dev :=
  let d1 := d.chans.foldl (fun d c =>
    (d.partialShort c).modChan c fun ch => { ch with litTime := ch.litTicks, litTicks := 0 }) d
  let d2 := d1.sides.foldl (fun d s => d.boostLimit s) d1
  let d3 := d2.chans.foldl (fun d c => d.releaseChan c) d2
  let d4 := { d3 with lamp := { d3.lamp with enable := d3.lamp.enableNext } }.stepDim
  d4.sides.foldl (fun d s =>
    let e := (((d.retryBoost s).stepR s).lampTables s).stepJunctions s
    let e1 := e.modLside s fun p => { p with g := p.dt.map (gFactor e.lamp.d p.r) }
    let w := e1.weights s
    e1.modLside s fun p => { p with wc := w }) d4

end Sys2Proof.Machine
end

