-- ==== Sys2Proof/Machine/AuxOps.lean ====
section
/-! DEFINITION. The auxiliary outputs (chapter 14): segment chains (R334 to R337), matrix packets and targets (R339 to R341),
direct scan (R342, R343), frame-memory modules (R345, R346), their behaviour by device state (R347), and the thumbnail
(R79, R186, R196). -/

namespace Sys2Proof.Machine

open Sys2Proof

def Dev.chain (d : Dev) (s : Nat) : Chain := d.aux.chains.get s
def Dev.modChain (d : Dev) (s : Nat) (f : Chain → Chain) : Dev := { d with aux := { d.aux with chains := d.aux.chains.mod s f } }

/-- STANDBY, BEAM or DEGRADED: the outputs run (Table 14-6). -/
def Dev.auxRuns (d : Dev) : Bool :=
  (d.core.state == .standby || d.core.state == .beam || d.core.state == .degraded) && !d.core.acornService

/-! ### Segment chains -/

/-- The code of a channel (R336). -/
def Dev.segCode (d : Dev) (s level : Nat) : Nat :=
  let l := if d.par kAuxSegDimFollow s = 1 then (level * d.lamp.d + 32767) / 65535 else level
  (l * 4095 + 32767) / 65535

/-- Twelve bits, most significant first (R334). -/
def codeBits (c : Nat) : List Bool := (List.range 12).map fun i => c.testBit (11 - i)

/-- At a frame start at which every channel has reached its target the fade is over, and SEG_FADE_DONE is posted (R337). -/
def Dev.fadeDone (d : Dev) (s : Nat) : Dev :=
  let c := d.chain s
  if c.fading && c.level == c.target then (d.modChain s fun c => { c with fading := false }).post 0x0B03 s else d

/-- One frame start of a fade. -/
def Dev.stepFade (d : Dev) (s : Nat) : Dev :=
  let c := d.chain s
  if !c.fading then d
  else
    let u := rampU (c.fadeK + 1) (usTicks (d.par kAuxSegPeriod s)) c.fadeLen
    let cs : CurveSet := ⟨c.fadeCurve, d.curve.gamma⟩
    let level := (List.range 768).map fun i => rampValue cs (c.start.getD i 0) (c.target.getD i 0) u
    (d.modChain s fun c => { c with level := level, fadeK := c.fadeK + 1 }).fadeDone s

/-- A commit that is due takes the shadow as the new targets. -/
def Dev.takeCommit (d : Dev) (s : Nat) : Dev :=
  match (d.chain s).commitDue with
  | none => d
  | some (ms, curve) =>
    let shadow := leFields (d.arr kAuxSegLevel s) 0 2 768
    (d.modChain s fun c => { c with
      commitDue := none, start := c.level, target := shadow, fadeLen := msTicks ms, fadeCurve := curve, fadeK := 0,
      fading := true }).fadeDone s

/-- A chain frame starts (R335, R336). In SAFE the levels are held, or all codes are 0 (Table 14-6). -/
def Dev.segFrame (d : Dev) (s : Nat) : Dev :=
  if !d.sides.contains s ∨ !(d.auxRuns ∨ (d.core.state = .safe ∧ !d.core.acornService)) then d
  else
    let d1 := (d.applyVal (pid kAuxSegCount s)).applyVal (pid kAuxSegPeriod s)
    let n := d1.par kAuxSegCount s
    if n = 0 then d1.modChain s fun c => { c with running := false, frameBits := [] }
    else
      let safe := d.core.state == .safe
      let d2 := if safe then d1 else (d1.stepFade s).takeCommit s
      let dark := safe && d2.par kAuxSegSafeAction s == 1
      let codes := ((d2.chain s).level.take (12 * n)).map fun l => if dark then 0 else d2.segCode s l
      (d2.modChain s fun c => { c with
        running := true, out := codes ++ List.replicate (768 - codes.length) 0, frameBits := codes.flatMap codeBits }).count
        kAuxSegFrames s 1

/-- A write to SEG_COMMIT (R337). -/
def Dev.segCommit (d : Dev) (s v : Nat) : Dev := d.modChain s fun c => { c with commitDue := some (bitsOf v 0 16, bitsOf v 16 2) }

/-- Frames in progress stop: on entry to a state in which the chains do not run, and when PLL-S loses lock (R347). -/
def Dev.segStop (d : Dev) : Dev :=
  { d with aux := { d.aux with chains := ⟨{ d.aux.chains.fst with running := false, frameBits := [] },
                                          { d.aux.chains.snd with running := false, frameBits := [] }⟩ } }

/-! ### Matrix targets (R339 to R341) -/

/-- A packet (Table 14-2). -/
def mxPacket (type target addr : Nat) (payload : List Byte) : List Byte :=
  let body := leBytes 1 type ++ leBytes 1 (target % 4) ++ leBytes 2 payload.length ++ leBytes 2 addr ++ payload
  [0xA5, 0x5A] ++ body ++ leBytes 2 (crc16 body).toNat

/-- The fields of an MX_TARGET record (Table 14-4). -/
structure MxRec where
  en : Bool
  fmt : Nat
  fx : Nat
  fy : Nat
  w : Nat
  h : Nat
  x : Int
  y : Int
deriving DecidableEq, Repr

def mxRec (b : List Byte) : MxRec :=
  { en := byteAt b 0 % 2 == 1, fmt := byteAt b 1, fx := byteAt b 2, fy := byteAt b 3, w := leField b 4 2, h := leField b 6 2,
    x := leInt b 8 2, y := leInt b 10 2 }

def Dev.mxOf (d : Dev) (t : Nat) : MxRec := mxRec (d.arr kAuxMxTarget t)

/-- The tap pixel at a field place (R185): side L supplies the left half of a two-sided field and all of a single-side one. -/
def tapAt (r : ModeRow) (taps : Pair (List (List Pix))) (c y : Nat) : Pix :=
  let s := if r.dual && decide (r.fieldW ≤ 2 * c) then 1 else 0
  ((taps.get s).getD y []).getD (c - sideX0 r s) { i := 0, t := 0 }

def Dev.fronts (d : Dev) : Pair (List (List Pix)) := ⟨d.cmp.pipes.fst.frontTap, d.cmp.pipes.snd.frontTap⟩

/-- The record by which the matrix tap of a frame formed a target's means (R187): the one in force at the start of its pass. A frame
whose pass had none in use is read by the record in force (log entry 123). -/
def Dev.tapRec (d : Dev) (mx : List (List Byte)) (t : Nat) : List Byte :=
  match mx[t]? with
  | some b => if (mxRec b).en then b else d.arr kAuxMxTarget t
  | none => d.arr kAuxMxTarget t

/-- The record of the tap front buffer. -/
def Dev.frontRec (d : Dev) (t : Nat) : List Byte := d.tapRec d.cmp.pipes.fst.frontMx t

/-- The mean and tint class of the block of target pixel (u, v); none where it is not wholly inside the field (R340). -/
def mxBlock (r : ModeRow) (taps : Pair (List (List Pix))) (m : MxRec) (u v : Nat) : Option (Nat × Nat) :=
  let x := m.x + u * m.fx
  let y := m.y + v * m.fy
  if x < 0 ∨ y < 0 ∨ (r.fieldW : Int) < x + m.fx ∨ (r.fieldH : Int) < y + m.fy then none
  else
    let n := m.fx * m.fy
    let sum := sumNat ((List.range m.fy).map fun j => sumNat ((List.range m.fx).map fun i =>
      (tapAt r taps (x.toNat + i) (y.toNat + j)).i))
    some ((sum + n / 2) / n, (tapAt r taps x.toNat y.toNat).t)

/-- MONO12 of a mean (R341). -/
def mono12 (curve i : Nat) : Nat := if curve = 0 then i / 16 else (isqrt (67076100 * i / 65535) + 1) / 2

/-- The bytes of a target pixel in a format; a block outside the field is code 0 (R340, R341). -/
def Dev.mxPixel (d : Dev) (fmt : Nat) (b : Option (Nat × Nat)) : List Byte :=
  let curve := d.par kAuxMxCurve 0
  match b with
  | none => if fmt = 1 then leBytes 2 0 else if fmt = 2 then leBytes 3 0 else leBytes 1 0
  | some (i, t) =>
    if fmt = 1 then leBytes 2 (mono12 curve i)
    else if fmt = 2 then
      (List.range 3).flatMap fun k => leBytes 1 ((thumbSample curve i * byteAt (d.arr kAuxTintRgb 0) (3 * t + k) + 127) / 255)
    else leBytes 1 (thumbSample curve i)

/-- One line of a target. -/
def Dev.mxLine (d : Dev) (taps : Pair (List (List Pix))) (m : MxRec) (fmt v : Nat) : List Byte :=
  (List.range m.w).flatMap fun u => d.mxPixel fmt (mxBlock d.row taps m u v)

def Dev.mxSend (d : Dev) (p : List Byte) : Dev := { d with aux := { d.aux with mxSent := p :: d.aux.mxSent } }

/-- Why a record cannot be written (R340); none when it is accepted. -/
def Dev.mxRefusal (d : Dev) (t : Nat) (b : List Byte) : Option Nat :=
  let m := mxRec b
  let old := d.arr kAuxMxTarget t
  let moved := putBytes b 8 (old.drop 8 |>.take 4) = old
  let cls := d.par kAuxMxClass 0
  let (wMax, hMax) := if cls = 1 then (256, 64) else (512, 256)
  if m.fmt > 2 ∨ m.fx = 0 ∨ 16 < m.fx ∨ m.fy = 0 ∨ 16 < m.fy ∨ wMax < m.w ∨ hMax < m.h ∨ m.x < 0 ∨ m.y < 0 ∨
      (d.row.fieldW : Int) < m.x + m.w * m.fx ∨ (d.row.fieldH : Int) < m.y + m.h * m.fy then some stBadArg
  else if !moved ∧ d.core.state ≠ .standby then some stOverridden
  else none

/-- A target in use with frame-memory modules is FREE once it is enabled, and OFF while it is not. -/
def Dev.mxConfigure (d : Dev) : Dev :=
  let on (t : Nat) : Bool := d.par kAuxMxClass 0 == 2 && (d.mxOf t).en
  (List.range 4).foldl (fun d t => d.modTarget t fun m =>
    if !on t then { MxTarget.reset with tePeriod := m.tePeriod }
    else if m.st = .off then { m with st := .free, since := d.now } else m) d

/-- The scan ratio S, MULT and PRE_NS of MX_SCAN. -/
def scanRatio (v : Nat) : Nat := 16 * 2 ^ (v % 4)
def scanMult (v : Nat) : Nat := bitsOf v 2 4
def scanPre (v : Nat) : Nat := bitsOf v 16 16

/-- MX_SCAN values that are accepted; T_L is shortest at 240 Hz (R343). -/
def scanOk (v : Nat) : Bool :=
  v % 4 != 3 && decide (1 ≤ scanMult v) && decide (scanMult v ≤ 8) && decide (100 ≤ scanPre v) && decide (scanPre v ≤ 2000) &&
  decide (scanPre v * 4 * 240 * scanMult v * scanRatio v ≤ 1000000000)

/-- ON_NS: T_L less PRE_NS and 200 ns, rounded down to 10 ns (R343). -/
def Dev.onNs (d : Dev) : Nat :=
  let v := d.par kAuxMxScan 0
  let n := scanMult v * scanRatio v
  10 * ((10 * d.cam.period3 - (scanPre v + 200) * 3 * n) / (30 * n))

/-- The LINE packet of scan line k (Table 14-3). -/
def Dev.lineBytes (d : Dev) (taps : Pair (List (List Pix))) (m : MxRec) (k : Nat) : List Byte :=
  let s := scanRatio (d.par kAuxMxScan 0)
  (List.range (m.h / s)).flatMap fun j => d.mxLine taps m 1 (k + j * s)

/-- The buffers exchange at the next refresh boundary: it is a compose-frame start, and the back buffer is complete. -/
def Dev.exchangeNext (d : Dev) (s : Nat) : Bool :=
  d.seq.refreshInFrame + 1 == d.row.perFrame && (d.pipe s).backReady && !d.bridgeBusy

/-- The tap that will be in force when the next scan frame starts, and its record: line 0 is sent before that frame starts, so that
the frame reads one front buffer throughout (R342, log entry 90). -/
def Dev.comingTap (d : Dev) : Pair (List (List Pix)) × List Byte :=
  let v := d.par kAuxMxScan 0
  let last := (d.aux.scanFrame + 1) % max 1 (scanMult v) == 0
  let of (s : Nat) : List (List Pix) :=
    if last && d.exchangeNext s then (d.pipe s).backTap else (d.pipe s).frontTap
  (⟨of 0, of 1⟩, d.tapRec (if last && d.exchangeNext 0 then (d.pipe 0).backMx else (d.pipe 0).frontMx) 0)

/-- Scan frames start with the refresh (R342): a frame whose line 0 has been sent reads the tap that line came from, any other the
front buffer in force. -/
def Dev.scanRestart (d : Dev) : Dev :=
  if d.aux.scanReady then { d with aux := { d.aux with scanLineNo := 0, scanFrame := 0, scanReady := false } }
  else { d with aux := { d.aux with scanLineNo := 0, scanFrame := 0, scanSource := d.fronts, scanRec := d.frontRec 0 } }

/-- One line period of direct scan (Table 14-5): the SCAN packet of line k, then the LINE packet of the next line. A frame
reads one tap, the one in force at its start. -/
def Dev.scanStep (d : Dev) : Dev :=
  if d.auxRuns ∧ d.par kAuxMxClass 0 = 1 ∧ (d.mxOf 0).en then
    let v := d.par kAuxMxScan 0
    let k := d.aux.scanLineNo
    let next := (k + 1) % scanRatio v
    let d1 := d.mxSend (mxPacket 0x02 0 k (leBytes 2 (scanPre v) ++ leBytes 2 d.onNs))
    let (src, b) := if next = 0 then d.comingTap else (d.aux.scanSource, d.aux.scanRec)
    let d2 := d1.mxSend (mxPacket 0x01 0 next (d1.lineBytes src (mxRec b) next))
    let d3 := { d2 with aux := { d2.aux with
      scanLineNo := next, scanSource := src, scanRec := b, scanReady := next == 0,
      scanFrame := if next = 0 then (d2.aux.scanFrame + 1) % max 1 (scanMult v) else d2.aux.scanFrame } }
    if next = 0 then d3.count kAuxMxFrames 0 1 else d3
  else d

/-- The targets in use. -/
def Dev.mxUsed (d : Dev) : List Nat := (List.range 4).filter fun t => (d.target t).st != .off

/-- The FRAME packets of a target: the means that the tap front buffer holds, in the target's format. -/
def Dev.mxFrame (d : Dev) (t : Nat) : Dev :=
  let m := mxRec (d.frontRec t)
  (List.range m.h).foldl (fun d v => d.mxSend (mxPacket 0x03 t v (d.mxLine d.fronts m (d.mxOf t).fmt v))) d

/-- The matrix port at a compose-frame start (R340, R345, R346). -/
def Dev.mxCompose (d : Dev) : Dev :=
  let d0 := (List.range 4).foldl (fun d t => d.applyArr (pid kAuxMxTarget t)) d
  if !d0.auxRuns ∨ d0.par kAuxMxClass 0 ≠ 2 then d0
  else
    let d1 := d0.mxUsed.foldl (fun d t =>
      let m := d.target t
      if m.st = .lost ∧ 3 ≤ m.goodTe then
        ((d.modTarget t fun m => { m with st := .free, goodTe := 0 }).post 0x0B02 t).clearFault 0x0B01 t
      else d) d0
    let live := d1.mxUsed.filter fun t => (d1.target t).st != .lost
    if live.all fun t => (d1.target t).st == .free then
      live.foldl (fun d t => (d.mxFrame t).modTarget t fun m => { m with st := .write }) d1
    else d1.count kAuxMxSkip 0 1

/-- The writes complete: MX_SYNC is pulsed (R345). -/
def Dev.mxWritten (d : Dev) : Dev :=
  let ts := d.mxUsed.filter fun t => (d.target t).st == .write
  if ts.isEmpty then d
  else (ts.foldl (fun d t => d.modTarget t fun m => { m with st := .swapWait, syncTime := d.now }) d).count kAuxMxFrames 0 1

/-- A rising edge of MX_TEn (R345, R346): it frees a target at least 2 µs after MX_SYNC rose, and a period within 2 ms to
100 ms counts towards restoring a lost one. -/
def Dev.mxEdge (d : Dev) (t : Nat) : Dev :=
  let m := d.target t
  if m.st = .off then d
  else
    let per := match m.lastTe with | some v => d.now - v | none => 0
    let good := m.lastTe.isSome && decide (msTicks 2 ≤ per) && decide (per ≤ msTicks 100)
    d.modTarget t fun m => { m with
      lastTe := some d.now, tePeriod := if m.lastTe.isSome then min 0xFFFFFFFF per else m.tePeriod,
      goodTe := if m.st = .lost ∧ good then min 3 (m.goodTe + 1) else 0,
      st := if m.st = .swapWait ∧ m.syncTime + usTicks 2 ≤ d.now then .free else m.st }

/-- No edge for MX_TE_TIMEOUT, counted from the use of the target until its first edge (R346). -/
def Dev.mxLost (d : Dev) (t : Nat) : Dev :=
  let m := d.target t
  let silent : Bool := decide (m.lastTe.getD m.since + msTicks (d.par kAuxMxTeTimeout 0) ≤ d.now)
  match m.st with
  | .off => d
  | .lost => d
  | _ => if !silent then d else (d.modTarget t fun m => { m with st := .lost, goodTe := 0, lastTe := none }).raise 0x0B01 t t

/-- SAFE: every target in use gets BLANK (Table 14-6). -/
def Dev.mxBlank (d : Dev) : Dev :=
  let ts := match d.par kAuxMxClass 0 with
    | 1 => if (d.mxOf 0).en then [0] else []
    | 2 => d.mxUsed
    | _ => []
  ts.foldl (fun d t => d.mxSend (mxPacket 0x04 t 0 [])) d

/-! ### Thumbnail (R79, R186, R196) -/

/-- A sample of the mean m and the gate levels of four mask samples. -/
def thumbOf (curve m gates : Nat) : Nat :=
  if curve = 0 then min 255 ((m * gates + 8192) / 16384) else (isqrt (260100 * m * gates / (64 * 65535)) + 1) / 2

/-- Thumbnail pixel (j, n). -/
def Dev.thumbPixel (d : Dev) (j n : Nat) : Nat :=
  let r := d.row
  if r.fieldW < 8 * j + 8 ∨ r.fieldH < 8 * n + 8 then 0
  else
    let s := if r.dual && decide (r.fieldW ≤ 16 * j) then 1 else 0
    let sum := sumNat ((List.range 8).map fun y => sumNat ((List.range 8).map fun x =>
      (tapAt r d.fronts (8 * j + x) (8 * n + y)).i))
    let mask := (d.seq.masks.get s).front
    let x0 := 8 * j - sideX0 r s
    let gates := sumNat ([(0, 0), (4, 0), (0, 4), (4, 4)].map fun o =>
      if d.maskOn s then gateLevel (mask.getD (maskIndex r.sideW (x0 + o.1) (8 * n + o.2)) 15).toNat else 16)
    thumbOf (d.par kCmpThumbCurve 0) ((sum + 32) / 64) gates

/-- The THUMB payload of a line (Table 3-8). -/
def Dev.thumbLine (d : Dev) (n : Nat) : List Byte :=
  let w := if d.twoSided then 464 else 232
  leBytes 2 d.cmp.thumbFrame ++ leBytes 1 n ++ leBytes 1 0 ++ leBytes 2 w ++ leBytes 2 0 ++
  (List.range w).map fun j => BitVec.ofNat 8 (d.thumbPixel j n)

/-- A thumbnail frame on every link that sends them: lines of the frame before that have not started are abandoned. Throttle
stage 2 stops them. TFRAME is one counter for both links and advances when a frame is sent on some link (log entry 110). -/
def Dev.sendThumb (d : Dev) : Dev :=
  if 2 ≤ d.thm.stage then d
  else
    let ls := d.linkIds.filter fun l => d.par (lkey kLnkThumbEn l) 0 == 1 && (d.link l).streams
    if ls.isEmpty then d
    else
      let hs : List TxHusk := (List.range 100).map fun n =>
        { type := huskThumb, vc := 0, retry := false, seq := 0, sub := 0, payload := d.thumbLine n }
      let d1 := ls.foldl (fun d l => d.modLink l fun k => { k with thumbOut := hs }) d
      { d1 with cmp := { d1.cmp with thumbFrame := (d1.cmp.thumbFrame + 1) % 0x10000 } }

end Sys2Proof.Machine
end

