-- ==== Sys2Proof/Machine/GovOps.lean ====
section
/-! DEFINITION. The Governor (chapter 13): slot records (R308 to R312), the arithmetic of R313 and R314, a tick (R315 to R325),
plausibility and safe values (R326 to R329), and slot states (R330). -/

namespace Sys2Proof.Machine

open Sys2Proof

/-! ### Slot records (Tables 13-2 and 13-3) -/

/-- The fields of a slot record. -/
structure SlotCfg where
  en : Bool
  pid : Bool
  crit : Bool
  rate : Nat
  safeRamp : Nat
  phase : Nat
  fbSrc : Nat
  spSrc : Nat
  outDst : Nat
  group : Nat
  shp : Nat
  shi : Nat
  shd : Nat
  dfs : Nat
  kp : Int
  ki : Int
  kd : Int
  spConst : Int
  outMin : Int
  outMax : Int
  iMin : Int
  iMax : Int
  safeOut : Int
  ffConst : Int
  ffSrc : Nat
  fbLo : Int
  fbHi : Int
deriving DecidableEq, Repr

def slotCfg (r : List Byte) : SlotCfg :=
  let c := byteAt r 0
  { en := c.testBit 0, pid := c.testBit 1, crit := c.testBit 2, rate := c / 16, safeRamp := byteAt r 1,
    phase := leField r 2 2, fbSrc := byteAt r 4, spSrc := byteAt r 5, outDst := byteAt r 6, group := byteAt r 7 % 16,
    shp := byteAt r 8 % 32, shi := byteAt r 9 % 32, shd := byteAt r 10 % 32, dfs := byteAt r 11 % 16, kp := leInt r 12 4,
    ki := leInt r 16 4, kd := leInt r 20 4, spConst := leInt r 24 4, outMin := leInt r 28 4, outMax := leInt r 32 4,
    iMin := leInt r 36 4, iMax := leInt r 40 4, safeOut := leInt r 44 4, ffConst := leInt r 48 4, ffSrc := byteAt r 52,
    fbLo := leInt r 56 4, fbHi := leInt r 60 4 }

def Dev.cfg (d : Dev) (n : Nat) : SlotCfg := slotCfg (d.slot n).record

/-- A slot the part has (R308). -/
def Dev.slotPresent (d : Dev) (n : Nat) : Bool := decide (n < 48) && (d.dual || (n < 6 || (12 ≤ n && n < 17) || 22 ≤ n))

/-- The role of a boost loop slot: 0 headroom, 1 voltage, 2 input current, 3 overvoltage, 4 thermal. -/
def boostRole (n : Nat) : Nat := (n - 12) % 5

/-- The selector group of a slot, if any (Table 13-1). -/
def Dev.slotGroup (d : Dev) (n : Nat) : Option Nat :=
  if n < 12 then none
  else if n < 22 then (if boostRole n = 0 then none else some (slotSide n))
  else if (d.cfg n).group < 8 then some (d.cfg n).group else none

/-- The members of a group, by slot number. -/
def Dev.groupMembers (d : Dev) (g : Nat) : List Nat :=
  (List.range 48).filter fun n => d.slotPresent n && d.slotGroup n == some g

/-! ### Load (R318) -/

/-- The cost of an evaluation. -/
def SlotCfg.cost (c : SlotCfg) : Nat := if c.pid then 3 else 2

/-- The load of tick t for the records cfg of the enabled slots, without the groups. -/
def slotLoad (cfgs : List SlotCfg) (t : Nat) : Nat :=
  sumNat (cfgs.map fun c => if c.rate = 15 ∨ t % 2 ^ c.rate = c.phase then c.cost else 0)

/-- The worst tick load, cycles (GOV_LOAD), with record `r` for slot `n` in place of the one in force. -/
def Dev.loadWith (d : Dev) (n : Nat) (r : List Byte) : Nat :=
  let rec_ (k : Nat) : List Byte := if k = n then r else (d.slot k).next.getD (d.slot k).record
  let here := (List.range 48).filter d.slotPresent
  let cfgs := (here.map fun k => slotCfg (rec_ k)).filter fun c => c.en
  let grp (k : Nat) : Option Nat :=
    if k < 22 then d.slotGroup k else if (slotCfg (rec_ k)).group < 8 then some (slotCfg (rec_ k)).group else none
  let groups := ((List.range 8).filter fun g => here.any fun k => grp k == some g).length
  let fast := cfgs.filter fun c => c.rate == 0 || c.rate == 15
  let slow := cfgs.filter fun c => c.rate != 0 && c.rate != 15
  let deep := slow.foldl (fun m c => max m c.rate) 0
  slotLoad fast 0 + 2 * groups + ((List.range (2 ^ deep)).map (slotLoad slow)).foldl max 0

def Dev.govLoad (d : Dev) : Nat := d.loadWith 48 []

/-! ### Writing a record (R312) -/

/-- A feedback code a general slot may name (R310). -/
def fbCodeOk (n c : Nat) : Bool :=
  c == 0 || c == 0x10 || c == 0x11 || c == 0x14 || c == 0x15 || (0x16 ≤ c && c ≤ 0x1A) || (0x20 ≤ c && c ≤ 0x23) ||
  (0x30 ≤ c && c < 0x30 + n)

def spCodeOk (n c : Nat) : Bool := c == 0 || (0x20 ≤ c && c ≤ 0x25) || (0x30 ≤ c && c < 0x30 + n)

def outCodeOk (c : Nat) : Bool := c == 0 || (0x20 ≤ c && c ≤ 0x23)

/-- The members of a group other than slot n, with accepted records that have yet to take effect. -/
def Dev.otherMembers (d : Dev) (n g : Nat) : Nat :=
  ((List.range 48).filter fun k => k != n && d.slotPresent k &&
    (if k < 22 then d.slotGroup k == some g
     else (slotCfg ((d.slot k).next.getD (d.slot k).record)).group == g)).length

/-- A general slot's record names side R, an absent slot or boost group 1 on the CX7220 (R4). -/
def Dev.recordAbsentPart (d : Dev) (c : SlotCfg) : Bool :=
  let slot (k : Nat) : Bool := decide (0x30 ≤ k ∧ k < 0x60) && !d.slotPresent (k - 0x30)
  !d.dual && (([0x11, 0x13, 0x15, 0x17, 0x19] : List Nat).contains c.fbSrc || slot c.fbSrc || slot c.spSrc || c.group == 1)

/-- The status of a SLOT write; none when the record is accepted. What the variant lacks comes first (R4), then the checks in the
order of R312. A byte of SHP, SHI or SHD above 31 is refused as R312 says, whatever R13 says of its reserved bits (log entry
99). -/
def Dev.slotRefusal (d : Dev) (n : Nat) (r : List Byte) : Option Nat :=
  let c := slotCfg r
  let old := d.cfg n
  let bound := slotCfg (slotDefault n)
  let same (a b : SlotCfg) : Bool := a.fbSrc == b.fbSrc && a.spSrc == b.spSrc && a.outDst == b.outDst && a.group == b.group
  if 22 ≤ n ∧ d.recordAbsentPart c then some stNotPresent
  else if n < 22 ∧ d.core.state ≠ .standby ∧ d.core.state ≠ .safe then some stOverridden
  else if n < 22 ∧ (!same c bound ∨ c.ffSrc ≠ bound.ffSrc) then some stBadArg
  else if 22 ≤ n ∧ old.en ∧ !same c old then some stOverridden
  else if 31 < byteAt r 8 ∨ 31 < byteAt r 9 ∨ 31 < byteAt r 10 ∨ c.outMax < c.outMin ∨ c.iMax < c.iMin ∨ c.fbHi < c.fbLo ∨
      (c.rate ≠ 15 ∧ 10 < c.rate) ∨ (c.rate ≠ 15 ∧ 2 ^ c.rate ≤ c.phase) ∨ 16 < c.safeRamp ∨ 3 < c.ffSrc then some stBadArg
  else if 22 ≤ n ∧ (!fbCodeOk n c.fbSrc ∨ !spCodeOk n c.spSrc ∨ !outCodeOk c.outDst ∨ (8 ≤ c.group ∧ c.group ≠ 15)) then
    some stBadArg
  else if 22 ≤ n ∧ c.group < 8 ∧ 4 ≤ d.otherMembers n c.group then some stBadArg
  else if 114 < d.loadWith n r then some stNoResource
  else none

/-! ### Arithmetic (R313, R314) -/

def sat32 (v : Int) : Int := clampI (-2147483648) 2147483647 v

def term (k x : Int) (n : Nat) : Int := sat32 ((k * x + if 0 < n then (2 ^ (n - 1) : Nat) else 0) / (2 ^ n : Nat))

/-- Output and integrator clamps of one evaluation. -/
structure Limits where
  outMin : Int
  outMax : Int
  iMin : Int
  iMax : Int
deriving DecidableEq, Repr

/-- One evaluation (R313). `hold` withholds di (R323). -/
def evalSlot (c : SlotCfg) (lim : Limits) (s : Slot) (sp fb ff : Int) (hold : Bool) : Slot :=
  let e := sat32 (sp - fb)
  let df := if c.pid then s.df + (sat32 (s.fbPrev - fb) - s.df) / (2 ^ c.dfs : Nat) else s.df
  let p := term c.kp e c.shp
  let dd := if c.pid then term c.kd df c.shd else 0
  let i0 := clampI lim.iMin lim.iMax (s.i + ff - s.ffPrev)
  let di0 := if hold then 0 else term c.ki e c.shi
  let u0 := sat32 (p + i0 + di0 + dd)
  let di := if (lim.outMax < u0 ∧ 0 < di0) ∨ (u0 < lim.outMin ∧ di0 < 0) then 0 else di0
  let i := clampI lim.iMin lim.iMax (i0 + di)
  let u := sat32 (p + i + dd)
  { s with df := df, fbPrev := if c.pid then fb else s.fbPrev, i := i, ffPrev := ff, uStar := u,
           u := clampI lim.outMin lim.outMax u, fb := fb, sp := sp }

/-- The current model of R314. -/
def Dev.gateFf (d : Dev) (c sp : Nat) : Int :=
  if sp = 0 then 0 else clampI 0 4095 (d.par kGovGateVt c + (sp * d.par kGovGateGm c + 32768) / 65536 : Nat)

/-- The duty model of R314. -/
def dutyFf (sp vin : Int) : Int := if sp ≤ 0 then 0 else roundHalfUp (65535 * max 0 (sp - vin)) sp.toNat

/-- The highest T_p of a side. -/
def Dev.hottest (d : Dev) (s : Nat) : Int := (d.lside s).tp.foldl max (-32768)

/-! ### Sources (Table 13-4) -/

/-- Inside the slot gap: the first 24 ticks after the reset instant. -/
def Dev.inGap (d : Dev) : Bool := decide (d.gov.sinceReset < 24)

/-- The full scale of a channel's shunt input, µV, by RANGE (Table 12-3). -/
def Dev.shuntScale (d : Dev) (c : Nat) : Nat := if d.par kLmpChCfg c / 4 % 2 = 1 then 150000 else 75000

/-- Full scale of the other inputs of Table 12-3, µV. -/
def drainScale : Nat := 5000000
def fbScale : Nat := 1200000
def vinScale : Nat := 2500000
def csScale : Nat := 100000

/-- A conversion beyond full scale. -/
def beyond (full : Nat) (v : Option Nat) : Bool := v.any fun r => decide (full < r)

/-- The source code of a slot's feedback (Tables 13-1 and 13-4); 0 for a current slot. -/
def Dev.fbCode (d : Dev) (n : Nat) : Nat :=
  if n < 12 then 0
  else if n < 22 then (match boostRole n with | 0 => 0x12 | 1 => 0x10 | 2 => 0x14 | 3 => 0x10 | _ => 0x16) + slotSide n
  else (d.cfg n).fbSrc

/-- What a slot's feedback source reads. -/
def Dev.fbValue (d : Dev) (n : Nat) : Int :=
  let code := d.fbCode n
  if n < 12 then (d.chan n).current
  else if code = 0x10 ∨ code = 0x11 then (d.lside (code - 0x10)).vout
  else if code = 0x12 ∨ code = 0x13 then (d.lside (code - 0x12)).vh
  else if code = 0x14 ∨ code = 0x15 then (d.lside (code - 0x14)).iin
  else if code = 0x16 ∨ code = 0x17 then d.hottest (code - 0x16)
  else if code = 0x18 ∨ code = 0x19 then d.tBoardOf (code - 0x18)
  else if code = 0x1A then d.thm.tDie
  else if 0x20 ≤ code ∧ code ≤ 0x23 then (d.gov.aux.getD (code - 0x20) 0 : Nat)
  else if 0x30 ≤ code then (d.slot (code - 0x30)).u
  else 0

/-- The conversions so far of a source slower than the tick: T_p, board and die temperature, and slot outputs. -/
def Dev.fbSeq (d : Dev) (n : Nat) : Nat :=
  let code := d.fbCode n
  if code = 0x16 ∨ code = 0x17 then d.gov.tpSeq.get (code - 0x16)
  else if code = 0x18 ∨ code = 0x19 then
    d.gov.tbSeq.get (if (d.lside (code - 0x18)).substituted then 1 - (code - 0x18) else code - 0x18)
  else if code = 0x1A then d.gov.dieSeq
  else if 0x30 ≤ code then (d.slot (code - 0x30)).evals
  else 0

/-- A slot's feedback in a tick: whether a sample is there by the deadline, whether it is a new one, and whether it is flagged
over-range (R284, R317, R326). -/
structure Feed where
  got : Bool
  fresh : Bool
  wide : Bool
deriving DecidableEq, Repr

def Dev.feed (d : Dev) (x : Samples) (n : Nat) : Feed :=
  let code := d.fbCode n
  let here (full : Nat) (v : Option Nat) : Feed := { got := v.isSome, fresh := v.isSome, wide := beyond full v }
  if n < 12 then
    let drains := !d.inGap && (x.drain.getD n none).isSome
    let v := x.shunt.getD n none
    { got := v.isSome || drains, fresh := v.isSome && !drains, wide := beyond (d.shuntScale n) v }
  else if code = 0x10 ∨ code = 0x11 then here fbScale (x.fb.getD (code - 0x10) none)
  else if code = 0x12 ∨ code = 0x13 then { got := true, fresh := true, wide := false }
  else if code = 0x14 ∨ code = 0x15 then here csScale (x.cs.getD (code - 0x14) none)
  else if 0x20 ≤ code ∧ code ≤ 0x23 then here 3300 (x.aux.getD (code - 0x20) none)
  else { got := true, fresh := d.fbSeq n != (d.slot n).seen, wide := false }

/-- The set-point of a slot (Table 13-1, R322). -/
def Dev.setpointSrc (d : Dev) (n : Nat) : Int :=
  if n < 12 then (d.chan n).setpoint
  else if n < 22 then
    let s := slotSide n
    match boostRole n with
    | 0 => d.parI kLmpHeadroom s
    | 1 => if (d.lside s).boost = .run then (d.slot (n - 1)).u else (d.lside s).softTarget
    | 2 => d.parI kLmpBstIinLimit s
    | 3 => d.ovLevel s
    | _ => d.parI kLmpTjLimit s
  else
    let c := d.cfg n
    if 0x20 ≤ c.spSrc ∧ c.spSrc ≤ 0x23 then (d.gov.aux.getD (c.spSrc - 0x20) 0 : Nat)
    else if c.spSrc = 0x24 then (d.lamp.pwm.value : Nat)
    else if c.spSrc = 0x25 then (d.lamp.ain.value : Nat)
    else if 0x30 ≤ c.spSrc then (d.slot (c.spSrc - 0x30)).u
    else c.spConst

/-- A general slot's models 1 to 3 name no channel or side: their value is a free one within what R314 states of it. -/
def Dev.freeModel (d : Dev) (src : Nat) (sp : Int) : Int :=
  match src with
  | 1 => if sp = 0 then 0 else clampI 0 4095 (signed 32 d.free.toNat)
  | 2 => if sp ≤ 0 then 0 else clampI 0 65535 (signed 32 d.free.toNat)
  | _ => signed 32 d.free.toNat

/-- ff_now of a slot for a set-point. -/
def Dev.ffNow (d : Dev) (n : Nat) (sp : Int) : Int :=
  let c := d.cfg n
  if n < 12 then d.gateFf n sp.toNat
  else if n < 22 then
    match boostRole n with
    | 0 => d.boostFf (slotSide n)
    | 1 => dutyFf sp (d.lside (slotSide n)).vin
    | _ => c.ffConst
  else if c.ffSrc = 0 then c.ffConst
  else d.freeModel c.ffSrc sp

/-- A slot whose feed-forward is a constant, which does not change after entry to RUN (R314). -/
def Dev.constFf (d : Dev) (n : Nat) : Bool :=
  if n < 12 then false else if n < 22 then boostRole n != 0 && boostRole n != 1 else (d.cfg n).ffSrc == 0

/-- The clamps of a slot; slots 12 and 17 take those of R322. -/
def Dev.limits (d : Dev) (n : Nat) : Limits :=
  let c := d.cfg n
  if n = 12 ∨ n = 17 then
    let s := slotSide n
    let hi := d.ovLevel s
    let lo := min hi ((d.lside s).vin + 1000 : Int)
    { outMin := lo, outMax := hi, iMin := lo, iMax := hi }
  else { outMin := c.outMin, outMax := c.outMax, iMin := c.iMin, iMax := c.iMax }

/-! ### States (R330, Table 13-7) -/

/-- The slot's function runs. -/
def Dev.functionRuns (d : Dev) (n : Nat) : Bool :=
  if n < 12 then d.driven n
  else if n < 22 then
    if boostRole n = 0 then (d.lside (slotSide n)).boost == .run else (d.lside (slotSide n)).boost.running
  else d.core.state == .standby || d.core.state == .beam || d.core.state == .degraded

/-- Functions start and stop at a tick. A slot enters RUN with its initial integrator as output, which stands until it is first
evaluated (log entry 135). -/
def Dev.stepFunction (d : Dev) (n : Nat) : Dev :=
  match (d.slot n).st with
  | .idle =>
    if d.functionRuns n then
      let ff := d.ffNow n (d.setpointSrc n)
      let lim := d.limits n
      let u := clampI lim.outMin lim.outMax ff
      let fb := d.fbValue n
      let seen := d.fbSeq n
      d.modSlot n fun s => { s with
        st := .run, i := ff, ffPrev := ff, fbPrev := fb, df := 0, u := u, uStar := ff, win := [], outRange := 0, misses := 0,
        seen := seen }
    else d
  | .run => if d.functionRuns n then d else d.modSlot n fun s => { s with st := .idle, u := 0, i := 0 }
  | _ => d

/-- A record takes effect at a tick boundary (R312, Table 13-7). `held`: the slot has entered SAFE in the same tick, which the
record does not end (R328). -/
def Dev.takeRecord (d : Dev) (n : Nat) (held : Bool) : Dev :=
  match (d.slot n).next with
  | none => d
  | some r =>
    let c := slotCfg r
    let d1 := d.modSlot n fun s => { s with record := r, next := none }
    let lim := d1.limits n
    d1.modSlot n fun s =>
      if held then { s with i := clampI lim.iMin lim.iMax s.i }
      else if !c.en then { s with st := .off, u := 0, i := clampI lim.iMin lim.iMax s.i }
      else { s with st := if s.st = .off then .idle else s.st, i := clampI lim.iMin lim.iMax s.i }

/-- A slot enters SAFE (R327); a slot that is OFF stays so, and one in SAFE goes on. -/
def Dev.slotSafe (d : Dev) (n : Nat) : Dev :=
  if (d.slot n).st = .off ∨ (d.slot n).st = .safe then d
  else
    let c := d.cfg n
    let d1 := d.modSlot n fun s => { s with
      st := .safe, safeFrom := s.u, safeLeft := c.safeRamp, u := if c.safeRamp = 0 then c.safeOut else s.u }
    if n < 12 then
      d1.modChan n fun ch => { ch with fault := ch.fault ||| 32, gatePulled := ch.gatePulled || c.safeRamp == 0 }
    else if n < 22 then d1.stopBoost (slotSide n)
    else d1

/-- A slot's fault: SAFE, a current slot's channel latched off, and the fault raised (R319, R326, R329). -/
def Dev.slotFault (d : Dev) (n code arg : Nat) : Dev :=
  let d1 := d.slotSafe n
  (if n < 12 then d1.latch n code else d1).raise code n arg

/-- Recovery accepted (Table 13-7): SAFE to IDLE. -/
def Dev.recoverSlot (d : Dev) (n : Nat) : Dev :=
  d.modSlot n fun s => if s.st = .safe then { s with st := .idle, u := 0, i := 0 } else s

/-- One tick of a SAFE slot's move to SAFE_OUT; a current slot's gate is pulled to VSS at its end. -/
def Dev.stepSafe (d : Dev) (n : Nat) : Dev :=
  let s := d.slot n
  if s.st = .safe ∧ 0 < s.safeLeft then
    let c := d.cfg n
    let k := c.safeRamp + 1 - s.safeLeft
    let u := if s.safeLeft = 1 then c.safeOut
             else s.safeFrom + openRound 9 ((c.safeOut - s.safeFrom) * (k : Int)) c.safeRamp
    let d1 := d.modSlot n fun s => { s with u := u, safeLeft := s.safeLeft - 1 }
    if n < 12 ∧ s.safeLeft = 1 then d1.modChan n fun ch => { ch with gatePulled := true } else d1
  else d

/-- BOOT completes: every enabled slot of the part goes to IDLE. -/
def Dev.enableSlots (d : Dev) : Dev :=
  ((List.range 48).filter d.slotPresent).foldl (fun d n =>
    d.modSlot n fun s => if (slotCfg s.record).en then { s with st := .idle } else { s with st := .off }) d

/-- Every slot OFF with its output 0 (Table 13-7, first row). -/
def Dev.slotsOff (d : Dev) : Dev :=
  { d with gov := { d.gov with slots := d.gov.slots.map fun (s : Slot) => { s with st := .off, u := 0, i := 0, out := 0 } } }

/-! ### A tick (R315) -/

/-- The word in force on a side is not a ZERO word. -/
def Dev.litWord (d : Dev) (s : Nat) : Bool := !(d.seq.inForce.get s).zero

/-- A channel's current in 0.1 mA from the voltage on its shunt, at most full scale (R284, Table 12-3). -/
def Dev.shuntCurrent (d : Dev) (c v : Nat) : Nat :=
  (openRound 18 (100 * min v (d.shuntScale c) : Nat) (d.par kLmpShunt c)).toNat

/-- One channel's conversion of this tick (R284, R291, R294, R304). -/
def Dev.takeSample (d : Dev) (x : Samples) (c : Nat) : Dev :=
  let s := chanSide c
  let drain := if d.inGap then none else x.drain.getD c none
  match drain with
  | some raw =>
    let v := (openRound 19 (min raw drainScale : Nat) 1000).toNat
    let vf : Int := ((d.lside s).vfine : Int) - (256 * min raw drainScale : Nat)
    d.modChan c fun ch =>
      let lit := d.driven c && ch.setpoint != 0 && d.litWord s
      let near := decide (9 * d.par kLmpINom c ≤ ch.setpoint) && d.driven c
      { ch with
        drain := v, vh := if lit then some v else ch.vh,
        vfSum := if near then ch.vfSum + vf else ch.vfSum, vfCount := if near then ch.vfCount + 1 else ch.vfCount,
        powSum := if d.driven c then ch.powSum + vf * ch.current else ch.powSum, powCount := ch.powCount + 1 }
  | none =>
    match x.shunt.getD c none with
    | some raw =>
      let i := d.shuntCurrent c raw
      d.modChan c fun ch =>
        let lit := !d.inGap && decide (diagMin ≤ ch.setpoint) && !ch.pulsing
        { ch with
          current := i, iSum := if lit then ch.iSum + i else ch.iSum, iCount := if lit then ch.iCount + 1 else ch.iCount,
          jSum := ch.jSum + i, jCount := ch.jCount + 1 }
    | none => d

/-- V_H of a side after the tick's conversions (R294). -/
def Dev.takeVh (d : Dev) (x : Samples) (s : Nat) : Dev :=
  let upd := !d.inGap && d.litWord s && (sideChans s).any fun c =>
    (x.drain.getD c none).isSome && d.driven c && (d.chan c).setpoint != 0
  let readings := (sideChans s).filterMap fun c => if d.driven c then (d.chan c).vh else none
  match upd, readings with
  | true, v :: vs =>
    let vh := vs.foldl min v
    d.modLside s fun p => { p with vh := vh, vhHeld := false, vhSeen := true,
                                   vhAbove := p.vhAbove || decide (d.par kLmpHeadroom s ≤ 2 * vh) }
  | _, _ => d.modLside s fun p => { p with vhHeld := true }

/-- A boost's own three conversions, each at most full scale (R284, Table 12-3). -/
def Dev.takeBoostSamples (d : Dev) (x : Samples) (s : Nat) : Dev :=
  let fb := (x.fb.getD s none).map fun v => min v fbScale * d.par kLmpFbDiv s
  let vin := (x.vin.getD s none).map fun v => (openRound 20 (min v vinScale * d.par kLmpVinDiv s : Nat) 256000).toNat
  let iin := (x.cs.getD s none).map fun v => (openRound 21 (10 * min v csScale : Nat) (d.par kLmpBstRsense s)).toNat
  d.modLside s fun p => { p with
    vfine := fb.getD p.vfine, vout := (fb.map fun v => (openRound 22 v 256000).toNat).getD p.vout, vin := vin.getD p.vin,
    iin := iin.getD p.iin }

/-- All samples of a tick. -/
def Dev.takeSamples (d : Dev) (x : Samples) : Dev :=
  let d1 := d.sides.foldl (fun d s => d.takeBoostSamples x s) d
  let d2 := d1.chans.foldl (fun d c => d.takeSample x c) d1
  let d3 := d2.sides.foldl (fun d s => d.takeVh x s) d2
  let d4 := { d3 with gov := { d3.gov with
    aux := (List.range 4).map fun k => (x.aux.getD k none).getD (d3.gov.aux.getD k 0) } }
  match x.ainDim with
  | some v => { d4 with lamp := { d4.lamp with ainSum := d4.lamp.ainSum + v, ainCount := d4.lamp.ainCount + 1 } }
  | none => d4

/-- The mean of a lit interval closes when the next word applies (I_MEAS). -/
def Chan.closeInterval (ch : Chan) : Chan :=
  if ch.iCount = 0 then ch
  else { ch with iMeas := min 0xFFFF (openRound 10 ch.iSum ch.iCount).toNat, iSum := 0, iCount := 0 }

/-- The digital check of R413, which stands in for the comparator of the channel ADC 12 covers: two consecutive samples above
120 % of I_LIMIT. -/
def Dev.coverCheck (d : Dev) (x : Samples) : Dev :=
  match d.cal.coveredAdc with
  | none => d
  | some c =>
    if (d.feed x c).fresh then
      let n := if 12 * d.par kLmpILimit c < (d.chan c).current then min 2 (d.cal.overRun + 1) else 0
      let d1 : Dev := { d with cal := { d.cal with overRun := n } }
      if n = 2 ∧ (d.chan c).latches.isEmpty then d1.detect c 3 0x0A04 c else d1
    else d

/-- A channel's set-point changes, and its output steps by the change of ff_now (R321). -/
def Dev.stepTo (d : Dev) (c sp : Nat) : Dev :=
  let ff := d.gateFf c sp
  let d1 := d.modChan c fun ch => { ch with setpoint := sp, gatePulled := if sp = 0 then ch.gatePulled else false }
  d1.modSlot c fun q => if q.st = .run then { q with out := if sp = 0 then 0 else q.u + (ff - q.ffPrev) } else q

/-- Diagnostic pulses (R226, R305): DIAG_I from S_e + 12 µs to S_e + 42 µs of the park entry on the channels that qualify, while
their side's boost is in RUN. -/
def Dev.driveDiag (d : Dev) (s : Nat) : Dev :=
  let t := d.gov.sinceReset
  let window := (d.seq.inForce.get s).diag && !d.gov.zeroNow.get s && decide (24 ≤ t) && decide (t < 84)
  (sideChans s).foldl (fun d c =>
    let was := (d.chan c).pulsing
    let on := window && (if t = 24 then d.pulsed.contains c else was && d.driven c && (d.lside s).boost == .run)
    if on = was then d
    else (d.stepTo c (if on then 10 * d.par kLmpDiagI s else 0)).modChan c fun ch => { ch with pulsing := on }) d

/-- A due word applies on a side: each channel takes its set-point (R321). -/
def Dev.applySetpoints (d : Dev) (s : Nat) : Dev :=
  if !d.gov.wordDue.get s then d
  else
    let d0 := { d with gov := { d.gov with wordDue := d.gov.wordDue.set s false } }
    let w := d.seq.inForce.get s
    (sideChans s).foldl (fun d c =>
      let sp := if d.gov.zeroNow.get s then 0 else d.setpointOf c w.cshift w.mix w.zero
      (d.modChan c Chan.closeInterval).stepTo c sp) d0

/-- The set-points of a side that must be 0 A: all of them under R321's order, else those of channels that are not driven. -/
def Dev.forceZero (d : Dev) (s : Nat) : Dev :=
  (sideChans s).foldl (fun d c =>
    if d.gov.zeroNow.get s ∨ !d.driven c then d.modChan c fun ch => { ch with setpoint := 0 } else d) d

/-- A slot is due in this tick (R316). -/
def Dev.slotDue (d : Dev) (n : Nat) : Bool :=
  let c := d.cfg n
  let q := d.slot n
  if c.rate = 15 then d.gov.refreshDue && (!q.divided || d.gov.refreshParity)
  else d.gov.tick % 2 ^ (c.rate + b2n q.divided) == c.phase

/-- Throttling divides a general slot without CRIT from its first tick of the doubled period; a slot with CRIT is never divided
(R316). -/
def Dev.stepDivide (d : Dev) (n : Nat) : Dev :=
  let c := d.cfg n
  let may := decide (22 ≤ n) && !c.crit
  let want := may && (d.thm.stage == 1 || d.thm.stage == 2)
  if !may then d.modSlot n fun s => { s with divided := false }
  else if c.rate = 15 ∨ d.gov.tick % 2 ^ (c.rate + 1) = c.phase then d.modSlot n fun s => { s with divided := want } else d

/-- di of an outer loop is withheld while the member it feeds does not win (R323). -/
def Dev.outerHeld (d : Dev) (n : Nat) : Bool :=
  (List.range 48).any fun m =>
    (((n == 12 || n == 17) && m == n + 1) || (22 ≤ m && (d.cfg m).spSrc == 0x30 + n)) &&
    match d.slotGroup m with
    | some g => d.gov.winners.getD g 255 != m
    | none => false

/-- The window and range counts of R326 take a new sample. -/
def Slot.judge (s : Slot) (c : SlotCfg) (ranged : Bool) : Slot :=
  { s with win := ((s.fb, s.u) :: s.win).take 64,
           outRange := if ranged ∨ s.fb < c.fbLo ∨ c.fbHi < s.fb then s.outRange + 1 else 0 }

/-- One slot in a tick: a SAFE slot moves; a RUN slot that is due is evaluated on its sample, holds its output without one
(R317, R319), and a current slot at set-point 0 outputs 0 (R321). -/
def Dev.evalDue (d : Dev) (x : Samples) (n : Nat) : Dev :=
  let s := d.slot n
  match s.st with
  | .safe => d.stepSafe n
  | .run =>
    let c := d.cfg n
    let sp := d.setpointSrc n
    let lim := d.limits n
    let dark := decide (n < 12) && sp == 0
    let s := if dark then { s with u := 0, uStar := 0, i := 0, ffPrev := 0, sp := 0, out := 0 }
             else if n = 12 ∨ n = 17 then { s with u := clampI lim.outMin lim.outMax s.u } else s
    if !d.slotDue n ∨ ((n = 12 ∨ n = 17) ∧ (d.lside (slotSide n)).vhHeld) then d.modSlot n fun _ => s
    else
      let f := d.feed x n
      if !f.got then (d.modSlot n fun _ => { s with misses := min 255 (s.misses + 1) }).count kGovSampleMiss n 1
      else if dark then d.modSlot n fun _ => { s with misses := 0, fb := d.fbValue n }
      else
        let ff := if d.constFf n then s.ffPrev else d.ffNow n sp
        let e := evalSlot c lim s sp (d.fbValue n) ff (d.outerHeld n)
        let e1 := if f.fresh then e.judge c f.wide else e
        d.modSlot n fun _ => { e1 with misses := 0, evals := s.evals + 1, seen := d.fbSeq n }
  | _ => d

/-- What a slot brings to its group: its output, or in SAFE its SAFE_OUT (R324). -/
def Dev.partOut (d : Dev) (n : Nat) : Int := if (d.slot n).st = .safe then (d.cfg n).safeOut else (d.slot n).u

/-- The slots of a group that take part. -/
def Dev.takingPart (d : Dev) (g : Nat) : List Nat :=
  (d.groupMembers g).filter fun n => (d.slot n).st == .run || (d.slot n).st == .safe

/-- The member with the lowest output, the lower-numbered on a tie. -/
def Dev.lowest (d : Dev) : List Nat → Option Nat
  | [] => none
  | n :: ns =>
    match d.lowest ns with
    | none => some n
    | some m => if d.partOut n ≤ d.partOut m then some n else some m

/-- Resolution and tracking of a group (R324, R325). -/
def Dev.resolve (d : Dev) (g : Nat) : Dev :=
  match d.groupMembers g with
  | [] => d
  | first :: _ =>
    match d.lowest (d.takingPart g) with
    | none => { d with gov := { d.gov with
        winners := d.gov.winners.set g 255, groupOut := d.gov.groupOut.set g (d.cfg first).safeOut } }
    | some w =>
      let uw := d.partOut w
      let old := d.gov.winners.getD g 255
      let d1 := { d with gov := { d.gov with winners := d.gov.winners.set g w, groupOut := d.gov.groupOut.set g uw } }
      let d2 := if old ≠ w ∧ old ≠ 255 then d1.count kGovTakeovers g 1 else d1
      let margin := d.parI kGovTrackMargin g
      let d3 := (d2.takingPart g).foldl (fun d n =>
        if n = w then d
        else
          let lim := d.limits n
          d.modSlot n fun s =>
            if s.st = .run ∧ uw + margin < s.uStar then { s with i := clampI lim.iMin lim.iMax (s.i - (s.uStar - (uw + margin))) }
            else s) d2
      if w = 13 ∨ w = 18 then d3.modLside (slotSide w) fun p => { p with headWon := true } else d3

/-- Lit time: 50 ticks of the time base per Governor tick outside the slot gap (R302). A diagnostic pulse is not lit time, or it
would end the pulses of a channel that R305 pulses in every refresh (log entry 136). -/
def Dev.countLit (d : Dev) : Dev :=
  if d.inGap then d
  else d.chans.foldl (fun d c => d.modChan c fun ch =>
    if diagMin ≤ ch.setpoint ∧ !ch.pulsing then { ch with litTicks := ch.litTicks + 50 } else ch) d

/-- Some general slot in RUN uses a model that needs a free value. -/
def Dev.freeFf (d : Dev) : Bool :=
  (List.range 48).any fun n => decide (22 ≤ n) && (d.slot n).st == .run && (d.cfg n).ffSrc != 0

/-- A slot's output of the tick before is the one in effect; a memory error takes its slot (R329). -/
def Dev.govBegin (d : Dev) (x : Samples) : Dev :=
  let d1 := { d with gov := { d.gov with slots := d.gov.slots.map fun (s : Slot) => { s with out := s.u } } }
  let d2 := if x.eccCorrected.isSome then d1.count kGovGovEccCorr 0 1 else d1
  match x.eccSlot with
  | some n => if d2.slotPresent n then d2.slotFault n 0x0904 n else d2
  | none => d2

/-- The tick is counted. -/
def Dev.govEnd (d : Dev) : Dev :=
  { d with gov := { d.gov with
      tick := d.gov.tick + 1, refreshDue := false, sinceReset := min 0xFFFF (d.gov.sinceReset + 1) } }

/-- One Governor tick (Table 13-5). -/
def Dev.govTick (d : Dev) (x : Samples) : Dev :=
  let here := (List.range 48).filter d.slotPresent
  let d1 := here.foldl (fun d n => (d.takeRecord n (x.eccSlot == some n && (d.slot n).st == .safe)).stepDivide n) (d.govBegin x)
  let d2 := d1.sides.foldl (fun d s => (((d.driveDiag s).applySetpoints s).forceZero s).stepSoft s) d1
  let d3 := here.foldl (fun d n => d.stepFunction n) ((d2.takeSamples x).coverCheck x)
  let d4 := here.foldl (fun d n => d.evalDue x n) d3
  let d5 := ((List.range 8).foldl (fun d g => d.resolve g) d4).countLit
  (if d5.freeFf then d5.drawn else d5).govEnd

/-- The Governor runs from BOOT on. -/
def Dev.govRuns (d : Dev) : Bool := d.core.state != .reset && d.core.state != .thermalOff

/-! ### Plausibility (R326, R328) -/

def spread (l : List Int) : Int :=
  match l with
  | [] => 0
  | v :: vs => vs.foldl max v - vs.foldl min v

/-- Twice the LSB of a slot's feedback source as a fraction: a spread below it is frozen. Ranges are those of Table 12-3, and
3,300 mV for AUX_AIN. -/
def Dev.twoLsb (d : Dev) (n : Nat) : Nat × Nat :=
  let code := d.fbCode n
  let vout (s : Nat) : Nat × Nat := (2 * 1200 * d.par kLmpFbDiv s, 4096 * 256)
  let iin (s : Nat) : Nat × Nat := (2000000, 4096 * d.par kLmpBstRsense s)
  if n < 12 then (200 * d.shuntScale n, 4096 * d.par kLmpShunt n)
  else if code = 0x12 ∨ code = 0x13 then (10000, 4096)
  else if code = 0x10 ∨ code = 0x11 then vout (code - 0x10)
  else if code = 0x14 ∨ code = 0x15 then iin (code - 0x14)
  else if 0x20 ≤ code ∧ code ≤ 0x23 then (6600, 4096)
  else (2, 1)

/-- Frozen feedback: 64 samples with a feedback spread below 2 LSB and an output spread above 5 % of the output range. -/
def Dev.frozen (d : Dev) (n : Nat) : Bool :=
  let w := (d.slot n).win
  let lim := d.limits n
  let (a, b) := d.twoLsb n
  decide (64 ≤ w.length) && decide (spread (w.map Prod.fst) * (b : Int) < a) &&
  decide (lim.outMax - lim.outMin < 20 * spread (w.map Prod.snd))

/-- FEEDBACK_LOST of a slot is not raised when a lamp fault has decided it first (R328). -/
def Dev.lampDecided (d : Dev) (n : Nat) : Bool :=
  if n < 12 then !(d.chan n).latches.isEmpty
  else if n < 22 then (match (d.lside (slotSide n)).boost with | .ovTrip _ => true | _ => false)
  else false

/-- FEEDBACK_LOST (R326). -/
def Dev.feedbackLost (d : Dev) (n : Nat) (range : Bool) : Dev :=
  let holds := if range then decide (4 ≤ (d.slot n).outRange) else d.frozen n
  if d.slotPresent n ∧ (d.slot n).st = .run ∧ holds ∧ !d.lampDecided n then
    d.slotFault n 0x0901 (n + 64 * b2n range)
  else d

/-- GOV_DEADLINE (R319). -/
def Dev.govDeadline (d : Dev) (n : Nat) : Dev :=
  if d.slotPresent n ∧ (d.slot n).st = .run ∧ d.par kGovMissLimit 0 ≤ (d.slot n).misses then d.slotFault n 0x0902 n else d

/-- The duty of PWM output k (R311): that of the slot whose destination it is, low while that slot is OFF or IDLE; none while
PWM_CFG does not enable it. -/
def Dev.pwmDuty (d : Dev) (k : Nat) : Option Nat :=
  if (d.par kGovPwmCfg k).testBit 16 then
    match (List.range 48).find? fun n => decide (22 ≤ n) && (d.cfg n).en && (d.cfg n).outDst == 0x20 + k with
    | some n => if (d.slot n).st = .run ∨ (d.slot n).st = .safe then some (clampI 0 65535 (d.slot n).out).toNat else some 0
    | none => some 0
  else none

end Sys2Proof.Machine
end

