-- ==== Sys2Proof/Machine/ClockOps.lean ====
section
/-! DEFINITION. Clocks and temperature (chapter 17): loss, relock and lock of the PLLs, the reference monitor, DRAM after a
PLL-M loss, phase steps, the die sensor and throttling. -/

namespace Sys2Proof.Machine

open Sys2Proof

/-! ### PLLs (R387 to R394) -/

/-- An output of Table 17-1: its PLL, the PLL's ratio to the 25 MHz of REFCLK, and the divide; compose and placement are served
by an output that throttle stage 2 halves (Table 17-7). -/
structure ClockOut where
  pll : Nat
  ratio : Nat
  divide : Nat
  compose : Bool
deriving DecidableEq, Repr

/-- Table 17-1: 3 GHz, 750 MHz (its compose domains apart), 300 MHz and 100 MHz of PLL-S, 2 GHz of PLL-M, 600 MHz and 150 MHz
of PLL-Q. -/
def clockOuts : List ClockOut :=
  [⟨0, 240, 2, false⟩, ⟨0, 240, 8, false⟩, ⟨0, 240, 8, true⟩, ⟨0, 240, 20, false⟩, ⟨0, 240, 60, false⟩, ⟨1, 160, 2, false⟩,
   ⟨2, 192, 8, false⟩, ⟨2, 192, 32, false⟩]

/-- The divide in force: twice the normal one while the PLL relocks, and in the compose domains under throttle stage 2; where
both apply, the larger (R385, R391, R400). -/
def Dev.divideOf (d : Dev) (o : ClockOut) : Nat :=
  if (d.pll o.pll).safeDivide || (o.compose && d.cmp.halfClock) then 2 * o.divide else o.divide

/-- The nominal frequency of an output in kHz at the divide in force. -/
def Dev.outputKHz (d : Dev) (o : ClockOut) : Nat := 25000 * o.ratio / d.divideOf o

/-- A bit of CLK_STICKY is set. -/
def Dev.setSticky (d : Dev) (bit : Nat) : Dev :=
  { d with clk := { d.clk with sticky := d.clk.sticky ||| BitVec.ofNat 4 (2 ^ bit) } }

/-- Relocks run until HOLDUP, RESET or THERMAL_OFF (R391). -/
def Dev.relocks (d : Dev) : Bool := d.core.state != .reset && d.core.state != .holdup && d.core.state != .thermalOff

/-- PLL-Q starts from F = 0 with its phase position at 0 (Table 17-3); the refresh runs at its nominal period. -/
def Dev.zeroPllQ (d : Dev) : Dev :=
  { d with
    clk := { d.clk with pllqFrac := 0, pllqPhase := 0, phaseTarget := 0 }
    cam := { d.cam with period3 := 2 * d.row.refreshCycles, freeDue := true } }

/-- Acquisition starts: the outputs run on the safe divide, and the loop is reset (Table 17-3). -/
def Dev.startRelock (d : Dev) (p : Nat) : Dev :=
  if d.relocks then
    let d1 := d.modPll p fun q => { q with
      locked := false, safeDivide := true, relocking := true, attempts := q.attempts + 1, wanted := false }
    if p = 2 then d1.zeroPllQ else d1
  else d

/-- The relocks that waited for safe state start, once the reference is there (R390). -/
def Dev.startWanted (d : Dev) : Dev :=
  if d.clk.refclkGood then
    (List.range 3).foldl (fun d p => if (d.pll p).wanted && (d.core.state != .boot || (d.pll p).locked || (d.pll p).relocking) then
      d.startRelock p else d) d
  else d

/-- A relock is due: at once in STANDBY, SAFE and BOOT, after safe state otherwise. -/
def Dev.wantRelock (d : Dev) (p : Nat) : Dev :=
  let d1 := d.modPll p fun q => { q with wanted := true }
  if d.core.state = .beam ∨ d.core.state = .degraded then d1 else if d.clk.refclkGood then d1.startRelock p else d1

/-- DRAM traffic stops: the passes that fetch from DRAM end (R163, R393). -/
def Dev.stallDram (d : Dev) (pllM : Bool) : Dev :=
  d.sides.foldl (fun d s => d.abandon s pllM)
    { d with cmp := { d.cmp with dramStalled := true, dramRetrain := d.cmp.dramRetrain || pllM } }

/-- Loss of lock of PLL p (R388, R390, Table 17-2). During a relock it restarts acquisition without a fault; a PLL-M loss in
HOLDUP is ignored (R393). -/
def Dev.pllLoss (d : Dev) (p : Nat) (clamp : Bool) : Dev :=
  if p = 1 ∧ d.core.state = .holdup then d
  else if !(d.pll p).locked then (if (d.pll p).relocking then d.startRelock p else d)
  else
    let d1 := ((d.setSticky (p + 1)).count kClkLossCount p 1).modPll p fun q => { q with locked := false }
    let d2 := if p = 1 then d1.stallDram true else if p = 0 then d1.segStop else d1
    let d3 := d2.raiseWith (0x0E02 + p) 0 (b2n clamp) false (p == 2)
    if p = 1 then d3.startRelock 1 else d3.wantRelock p

/-- Lock is declared (R387): in BOOT the Acorn starts the next PLL (R394); in a relock the outputs return to their normal
divides and PLL_LOCKED is posted (R391). PLL_M_LOSS clears, and DRAM asks for its training ticket (R393). -/
def Dev.pllLock (d : Dev) (p : Nat) : Dev :=
  let q := d.pll p
  if q.relocking then
    let d1 := (d.modPll p fun q => { q with
      locked := true, safeDivide := false, relocking := false, attempts := 0, wanted := false }).post 0x0E05
      (p + 256 * min 255 q.attempts)
    if p = 1 then (d1.clearFault 0x0E03 0).request .dram else d1
  else if d.core.state = .boot ∧ q.wanted then
    let d1 := d.modPll p fun q => { q with locked := true, wanted := false }
    if p < 2 then d1.modPll (p + 1) fun q => { q with wanted := true } else d1
  else d

/-- No lock within 1 ms of the start of acquisition (R391). -/
def Dev.relockTimeout (d : Dev) (p : Nat) : Dev :=
  if (d.pll p).relocking then (d.count kClkRelockFail p 1).startRelock p else d

/-- DRAM traffic resumes: after a PLL-M loss once PLL-M has relocked and DRAM is retrained under its ticket, which goes back
(R393); after any other stall at once. -/
def Dev.dramResume (d : Dev) : Dev :=
  let go : Dev := { d with cmp := { d.cmp with dramStalled := false, dramRetrain := false } }
  if !d.cmp.dramStalled || !d.relocks then d
  else if !d.cmp.dramRetrain then go
  else if (d.pll 1).locked && d.ticketHeld .dram then go.release .dram
  else d

/-! ### Reference (R389) -/

/-- The last monitor window count. -/
def Dev.setRefclk (d : Dev) (good : Bool) (count : Nat) : Dev :=
  { d with clk := { d.clk with refclkGood := good, refclkCount := count % 0x10000 } }

/-- Every PLL that runs is due for a relock. -/
def Dev.wantAll (d : Dev) : Dev :=
  { d with clk := { d.clk with plls := d.clk.plls.map fun (q : PllSt) => { q with wanted := q.wanted || q.locked || q.relocking } } }

/-- REFCLK is lost: only the sticky bit and the fault (R388); the relock of all three PLLs waits for the reference. -/
def Dev.refclkLoss (d : Dev) (count : Nat) : Dev :=
  if !d.clk.refclkGood || d.core.state == .reset || d.core.state == .thermalOff then d.setRefclk d.clk.refclkGood count
  else
    let d1 := (((d.setRefclk false count).setSticky 0).count kClkRefclkLossCount 0 1).raise 0x0E01 0 (count % 0x10000)
    if d1.relocks then d1.wantAll else d1

/-- REFCLK is restored; the relocks start now unless safe state is still to complete (Table 17-2). -/
def Dev.refclkRestored (d : Dev) (count : Nat) : Dev :=
  let d0 := d.setRefclk true count
  if d.clk.refclkGood then d0
  else
    let d1 := d0.post 0x0E06 0
    if d1.core.state = .beam ∨ d1.core.state = .degraded then d1 else d1.startWanted

/-! ### Phase steps (R206, R395) -/

/-- The lock steers: ACQUIRE or LOCKED, in STANDBY, BEAM and DEGRADED (R206, R208). -/
def Dev.steers (d : Dev) : Bool :=
  2 ≤ d.cam.state && (d.core.state == .standby || d.core.state == .beam || d.core.state == .degraded)

/-- One phase step of 13.0 ps towards the phase asked for. -/
def Dev.phaseStep (d : Dev) : Dev :=
  let dir : Int := if 0 < d.clk.phaseTarget then 1 else if d.clk.phaseTarget < 0 then -1 else 0
  if d.steers && (d.pll 2).locked then
    { d with clk := { d.clk with pllqPhase := d.clk.pllqPhase + dir, phaseTarget := d.clk.phaseTarget - dir } }
  else d

/-! ### Die temperature and throttling (R397 to R400) -/

/-- One transition of Table 17-6: the next stage. -/
def nextStage (stage : Nat) (t : Int) (bad : Bool) : Nat :=
  if 1450 ≤ t ∨ bad then 2
  else if stage = 2 ∧ t < 1400 then 1
  else if stage = 0 ∧ 1350 ≤ t then 1
  else if stage = 1 ∧ t < 1300 then 0
  else stage

/-- The throttle stage follows Table 17-6 until it rests. At each entry to a stage compose starts count anew (R164). -/
def Dev.throttle : Nat → Dev → Dev
  | 0, d => d
  | n + 1, d =>
    let old := d.thm.stage
    let new := nextStage old d.thm.tDie d.thm.sensorBad
    if new = old then d
    else
      let d1 := { d with
        thm := { d.thm with stage := new }
        cmp := { d.cmp with passParity := false } }
      let d2 := d1.post 0x0F01 (new + 4 * old + 0x10000 * code 16 d.thm.tDie)
      Dev.throttle n (if new = 0 then d2 else d2.count kThmStageEntries new 1)

/-- T_DIE takes the mean of the last 16 valid conversions (R397); its rounding is not stated (log entry 29). -/
def Dev.updateTDie (d : Dev) : Dev :=
  let l := d.thm.conversions
  let t := openRound 17 (sumInt l) l.length
  let d1 := { d with
    thm := { d.thm with tDie := t, tDieMax := max d.thm.tDieMax t }, gov := { d.gov with dieSeq := d.gov.dieSeq + 1 } }
  let d2 :=
    if !d.thm.hot ∧ 1500 < t then ({ d1 with thm := { d1.thm with hot := true } }).post 0x0F02 (1 + 0x10000 * code 16 t)
    else if d.thm.hot ∧ t < 1450 then ({ d1 with thm := { d1.thm with hot := false } }).post 0x0F02 (0x10000 * code 16 t)
    else d1
  Dev.throttle 3 d2

/-- A conversion outside −60 °C to +200 °C is invalid (R398). -/
def conversionValid (t : Int) : Bool := decide (-600 ≤ t) && decide (t ≤ 2000)

/-- The always-on side of one conversion: the run counts, the window of T_DIE, and the trims, held while the sensor is invalid
(R397, R398). -/
def Dev.takeConversion (d : Dev) (t rcTrim : Int) : Dev :=
  let m := d.thm
  let ok := conversionValid t
  let m1 := { m with
    badRun := if ok then 0 else min 3 (m.badRun + 1), goodRun := if ok then min 16 (m.goodRun + 1) else 0,
    phase := (m.phase + 1) % 16, conversions := if ok then (t :: m.conversions).take 16 else m.conversions }
  let held := if m.sensorBad then m1.goodRun < 16 else 3 ≤ m1.badRun
  let trims := ok && !held
  { d with thm := { m1 with
      rcTrim := if trims then rcTrim else m.rcTrim,
      bandgapT := if trims && decide (10 ≤ (t - m.bandgapT).natAbs) then t else m.bandgapT } }

/-- DIE_TEMP_CONVERSION. In RESET and THERMAL_OFF only the always-on domain runs. -/
def Dev.dieTemp (d : Dev) (t rcTrim : Int) : Dev :=
  let d1 := d.takeConversion t rcTrim
  if d.core.state = .reset ∨ d.core.state = .thermalOff then d1
  else
    let goneBad := !d1.thm.sensorBad && decide (3 ≤ d1.thm.badRun)
    let goneGood := d1.thm.sensorBad && decide (16 ≤ d1.thm.goodRun)
    let d2 :=
      if goneBad then Dev.throttle 3 (({ d1 with thm := { d1.thm with sensorBad := true } }).post 0x0F03 1)
      else if goneGood then Dev.throttle 3 (({ d1 with thm := { d1.thm with sensorBad := false } }).post 0x0F03 0)
      else d1
    if d2.thm.phase = 0 ∧ !d2.thm.conversions.isEmpty then d2.updateTDie else d2

/-- What the always-on domain keeps of the die sensor over a reset; the stage and T_DIE_MAX start again with the device. -/
def Thm.overReset (m : Thm) : Thm := { m with stage := 0, hot := false, tDieMax := m.tDie }

end Sys2Proof.Machine
end

