-- ==== Sys2Proof/Machine/LinkOps.lean ====
section
/-! DEFINITION. Operations of a Millrace link (chapters 2 and 3): BTS, state entries, lane map, takeover, tap requests, and
VC1 and VC2 reception. -/

namespace Sys2Proof.Machine

open Sys2Proof

/-! ### BTS (R37, Table 2-5) -/

/-- BTS goes out at once after any of its fields changes. -/
def Dev.syncBts (d : Dev) (l : LinkId) : Dev :=
  d.modLink l fun k =>
    let b := { k.bts with state := k.state.code, l1Ok := d.par (lkey kLnkL1Allowed l) 0 = 1 }
    { k with bts := b,
             btsSent := if k.backLaneOn && k.btsSent.head? != some b then b :: k.btsSent else k.btsSent }

/-! ### Rates -/

/-- The highest rate code in an advertised set. -/
def topRate (rates : Nat) : Nat := if rates.testBit 3 then 4 else if rates.testBit 2 then 3 else if rates.testBit 1 then 2 else 1

/-- The ceiling (R32): MAX_RATE, what the ECU advertises, and what failed attempts have left. -/
def Dev.ceiling (d : Dev) (l : LinkId) : Nat :=
  min (d.par (lkey kLnkMaxRate l) 0) (min (topRate (d.link l).ecuRates) (d.link l).cap)

/-- Steps are made in BOOT and STANDBY only (R33). -/
def Dev.stepsAllowed (d : Dev) : Bool := d.core.state == .boot || d.core.state == .standby

/-- In L0 with a rate other than the ceiling, the link asks for a training ticket (R45, R58). -/
def Dev.askStep (d : Dev) (l : LinkId) : Dev :=
  let k := d.link l
  if k.state = .l0 ∧ d.stepsAllowed ∧ k.rate ≠ d.ceiling l then
    (d.modLink l fun k => { k with waitTicket := true }).request (.link l)
  else d

/-! ### Lanes -/

/-- Healthy physical lanes. -/
def Link.healthy (k : Link) : Nat := (k.failed.filter (!·)).length

/-- A failing lane leaves the map, and the spare takes its logical position (R29); a changed map advances MAPSEQ
(Table 2-5). -/
def Link.dropLane (k : Link) (phys : Nat) : Link :=
  let k1 := { k with failed := k.failed.set phys true }
  if k.spare = some phys then { k1 with spare := none }
  else if k.map.contains phys then
    match k.spare with
    | some sp => { k1 with
        map := k.map.map (fun p => if p = phys then sp else p), spare := none,
        bts := { k.bts with mapseq := (k.bts.mapseq + 1) % 16 } }
    | none => k1
  else k1

/-- The smallest of the three eyes (R51). -/
def smallestEye (e : PamEyes) : Eye :=
  { width := min e.upper.width (min e.middle.width e.lower.width),
    height := min e.upper.height (min e.middle.height e.lower.height) }

/-- R51: an eye passes the thresholds; the PAM4 eye test halves the height threshold. -/
def Dev.eyePasses (d : Dev) (l : LinkId) (e : Eye) (pam4 : Bool) : Bool :=
  decide (d.par (lkey kLnkEyeMinWidth l) 0 ≤ e.width) &&
  (if pam4 then decide (d.par (lkey kLnkEyeMinHeight l) 0 ≤ 2 * e.height)
   else decide (d.par (lkey kLnkEyeMinHeight l) 0 ≤ e.height))

/-- The DFE of every lane adapts: its taps are free values in their ranges (Table 2-12, log entry 106). -/
def Dev.adaptDfe (d : Dev) (l : LinkId) : Dev :=
  (List.range 5).foldl (fun d i =>
    (d.modLink l fun k => { k with dfe := k.dfe.set i (d.free.toNat % 64, d.free.toNat / 64 % 64) }).drawn) d

/-- EYE and TRAIN adapt CTLE and DFE; CTLE peaking after adaptation is a free value in its range (log entry 22). -/
def Dev.adaptReceivers (d : Dev) (l : LinkId) : Dev :=
  ((List.range 5).foldl (fun d i => (d.setPar (lkey kLnkCtle l) i (d.free.toNat % 16)).drawn) d).adaptDfe l

/-- The measured eyes are kept per lane (Table 2-17). -/
def Dev.recordEyes (d : Dev) (l : LinkId) (eyes : List Eye) : Dev :=
  (List.range 5).foldl (fun d i =>
    match eyes[i]? with
    | some e => (d.setPar (lkey kLnkEyeWidth l) i e.width).setPar (lkey kLnkEyeHeight l) i e.height
    | none => d) d

/-- The eye of a physical lane; one that was not measured has no opening. -/
def eyeOf (eyes : List Eye) (i : Nat) : Eye := eyes.getD i { width := 0, height := 0 }

/-- How many healthy lanes pass. -/
def Dev.lanesPassing (d : Dev) (l : LinkId) (eyes : List Eye) (pam4 : Bool) : Nat :=
  ((List.range 5).filter fun i => !(d.link l).failed.getD i false && d.eyePasses l (eyeOf eyes i) pam4).length

/-- Lanes whose eye fails leave the map. -/
def Dev.dropFailing (d : Dev) (l : LinkId) (eyes : List Eye) (pam4 : Bool) : Dev :=
  (List.range 5).foldl (fun d i =>
    if d.eyePasses l (eyeOf eyes i) pam4 then d else d.modLink l fun k => k.dropLane i) d

/-! ### State entries (Table 2-8) -/

/-- Shadowing ends. -/
def Link.noShadow (k : Link) : Link :=
  { k with spareUse := .idle, bts := { k.bts with shadowValid := false, shadow := 0 } }

/-- POWER_STATE at the exit from L1 or L2 (Table 2-18). -/
def Dev.leavePower (d : Dev) (l : LinkId) : Dev :=
  if (d.link l).state = .l1 ∨ (d.link l).state = .l2 then d.postFree (l.ev 0x08) else d

/-- DETECT: map reset, flag cleared, ceiling recomputed, open frames of the link closed (R29, R43, Table 3-6a); the next L0
restarts VC1 and VC2 (Table 3-9). -/
def Dev.toDetect (d : Dev) (l : LinkId) : Dev :=
  let d0 := (d.leavePower l).release (.link l)
  let d1 := d0.modLink l fun k => { k.noShadow with
    state := .detect, rate := 0, cap := 4, ecuRates := 15, map := [0, 1, 2, 3], spare := some 4,
    failed := List.replicate 5 false, inverted := List.replicate 5 false, fastReentry := false, purpose := .bringUp,
    upSinceDetect := false, waitTicket := false, recovering := false, retrains := 0, tapReqs := List.replicate 5 none,
    txWaiting := (k.unacked ++ k.txWaiting), unacked := [], txCredit := none, replayHeld := false,
    localOut := [], vc1Out := [], statOut := [], thumbOut := [],
    bts := { k.bts with
      reqRate := 0, step := false, pamReq := 0, shadowValid := false, shadow := 0,
      mapseq := if k.map = [0, 1, 2, 3] then k.bts.mapseq else (k.bts.mapseq + 1) % 16 } }
  let d2 := d1.closeFramesOf l
  (d2.clearFault (l.ev 0x07) 0).syncBts l

/-- LOCK at a rate (Table 2-8). REQ_RATE keeps what the step requested until L0, also after a rate drop (log entry 101). -/
def Dev.toLock (d : Dev) (l : LinkId) (rate : Nat) (purpose : LockPurpose) (fast : Bool) : Dev :=
  (d.modLink l fun k => { k with
    state := .lock, rate := rate, purpose := purpose, fastReentry := fast, waitTicket := false,
    bts := { k.bts with step := false, pamReq := 0 } }).syncBts l

/-- Settings that apply at the next EYE or TRAIN come into force (R58). -/
def Dev.takeTraining (d : Dev) (l : LinkId) : Dev :=
  (((d.applyVal (pid (lkey kLnkEqMode l) 0)).applyVal (pid (lkey kLnkFixedPreset l) 0)).applyVal
    (pid (lkey kLnkEyeMinWidth l) 0)).applyVal (pid (lkey kLnkEyeMinHeight l) 0)

/-- EYE: PAM4 eye test. -/
def Dev.toEye (d : Dev) (l : LinkId) : Dev :=
  ((d.takeTraining l).modLink l fun k => { k with state := .eye, waitTicket := false, bts := { k.bts with pamReq := 1 } }).syncBts l

/-- One failed LOCK, EYE or TRAIN attempt. -/
def Dev.trainFail (d : Dev) (l : LinkId) : Dev := d.count (lkey kLnkTrainFailCount l) 0 1

/-- DOWN: the ticket goes back and LINK_DOWN is raised; its ARG is a free value (log entry 18). -/
def Dev.toDown (d : Dev) (l : LinkId) : Dev :=
  let d1 := (d.modLink l fun k => { k.noShadow with
    state := .down, fastReentry := false, waitTicket := false, recovering := false }).release (.link l)
  ((d1.raise (l.ev 0x02) 0 (d1.free.toNat % 0x100000000)).drawn).syncBts l

/-- A failed eye test or training lowers the rate and the ceiling by one code each, or takes the link DOWN at S1. -/
def Dev.attemptFailed (d : Dev) (l : LinkId) : Dev :=
  let k := d.link l
  let d1 := d.trainFail l
  if 1 < k.rate then
    (d1.modLink l fun k => { k with cap := max 1 (d.ceiling l - 1) }).toLock l (k.rate - 1) k.purpose false
  else d1.toDown l

/-- RECOVERY (R55): the re-lock step. -/
def Dev.toRecovery (d : Dev) (l : LinkId) : Dev :=
  let d1 := ((d.leavePower l).modLink l fun k => { k.noShadow with
    state := .recovery, fastReentry := false, recPhase := .relock, retrains := 0, recovering := true, waitTicket := false,
    bts := { k.bts with pamReq := 0, shadowValid := false, reqRate := 0, step := false } }).release (.link l)
  ((d1.count (lkey kLnkRecoveryCount l) 0 1).postFree (l.ev 0x04)).syncBts l

/-- STEP toward a rate (Table 2-8): BTS REQ_RATE and STEP. -/
def Dev.toStep (d : Dev) (l : LinkId) (rate : Nat) : Dev :=
  (d.modLink l fun k => { k.noShadow with
    state := .step, fastReentry := false, stepTarget := rate, waitTicket := false,
    bts := { k.bts with reqRate := rate, step := true, shadowValid := false } }).syncBts l

/-- The ACK of R67 to R71. -/
def Dev.sendAck (d : Dev) (l : LinkId) (vc : Nat) : Dev :=
  d.modLink l fun k =>
    if vc = 1 then k.sendLocal huskAck [1, BitVec.ofNat 8 k.vc1RxNext, BitVec.ofNat 8 k.rxCredit, 0]
    else k.sendLocal huskAck [2, BitVec.ofNat 8 (match k.vc2Last with | some n => n + 1 | none => 0), 0, 0]

/-- The NAK of R64 and R68. -/
def Dev.sendNak (d : Dev) (l : LinkId) (vc : Nat) : Dev :=
  if vc = 1 then
    (d.modLink l fun k =>
      { (k.sendLocal huskNak [1, BitVec.ofNat 8 k.vc1RxNext, BitVec.ofNat 8 k.rxCredit, 0]) with
        nakOutstanding := true }).count (lkey kLnkVc1NakTx l) 0 1
  else
    d.modLink l fun k =>
      k.sendLocal huskNak [2, BitVec.ofNat 8 (match k.vc2Last with | some n => n + 1 | none => 0), 0, 0]

/-- L0 (Table 2-8): at the first after DETECT both VC1 directions start at SEQ 0 and ACK grants 8 (R67), and LINK_UP is
posted and clears LINK_DOWN; otherwise RATE_CHANGED when the rate differs from the previous L0. RECOVERY_EXIT follows a
recovery. The ticket goes back, and the next step is asked for. -/
def Dev.toL0 (d : Dev) (l : LinkId) : Dev :=
  let k := d.link l
  let first := !k.upSinceDetect
  let d1 := (d.modLink l fun k => { k with
    state := .l0, prevL0Rate := k.rate, upSinceDetect := true, recovering := false, retrains := 0, fastReentry := false,
    waitTicket := false, tapReqs := List.replicate 5 none,
    bts := { k.bts with reqRate := 0, step := false, pamReq := 0 } }).release (.link l)
  let d2 := d1.syncBts l
  let d3 :=
    if first then
      let d3 := (d2.modLink l fun k => { k with
        vc1RxNext := 0, nakOutstanding := false, rxCredit := 8, vc1TxNext := 0, txCredit := none, replays := 0,
        vc2Last := none }).sendAck l 1
      (d3.clearFault (l.ev 0x02) 0).postFree (l.ev 0x01)
    else if k.rate ≠ k.prevL0Rate then d2.postFree (l.ev 0x03)
    else d2
  let d4 := if k.recovering then d3.postFree (l.ev 0x05) else d3
  (d4.askStep l).pumpLink l

/-- L2 (Table 2-8): BTS STATE 8, then the back lane stops; entry posts POWER_STATE. -/
def Dev.toL2 (d : Dev) (l : LinkId) : Dev :=
  let d1 := ((d.modLink l fun k => { k.noShadow with state := .l2, waitTicket := false }).release (.link l)).syncBts l
  let d2 := d1.modLink l fun k => { k with backLaneOn := false }
  if (d.link l).state = .l2 then d2 else d2.postFree (l.ev 0x08)

/-! ### Tap requests (R48 to R50) -/

/-- A request word (Table 2-11) for a preset. -/
def presetWord (preset lane seq : Nat) : Nat := 0x10 + 0x20 * preset + 0x100 * lane + 0x1000 * seq

/-- A request word for a single-step change. -/
def changeWord (preAct postAct lane seq : Nat) : Nat := preAct + 4 * postAct + 0x100 * lane + 0x1000 * seq

/-- A TAPREQ Husk goes out and waits for its ACK_SEQ. -/
def Link.sendTap (k : Link) (phys word seq sends count : Nat) : Link :=
  { k.sendLocal huskTapreq (leBytes 4 word) with
    tapReqs := k.tapReqs.set phys (some { word := BitVec.ofNat 32 word, seq := seq, sends := sends, count := count,
                                          matched := false }) }

/-- TRAIN (Table 2-8): each healthy lane gets its first request: FIXED_PRESET with EQ_MODE 1, preset P0 otherwise; with
stored coefficients there is none (R50). Each lane counts its own SEQ, from 0 at each TRAIN (log entry 100). -/
def Dev.toTrain (d : Dev) (l : LinkId) (stored : Bool) : Dev :=
  let d0 := d.takeTraining l
  let fixed := d0.par (lkey kLnkEqMode l) 0 = 1
  let preset := if fixed then d0.par (lkey kLnkFixedPreset l) 0 else 0
  let d1 := (d0.modLink l fun k => { k with
    state := .train, fastReentry := false, tapReqs := List.replicate 5 none, bts := { k.bts with pamReq := 0 } }).syncBts l
  if stored then d1
  else d1.modLink l fun k =>
    (List.range 5).foldl (fun k p =>
      if k.failed.getD p false then k else k.sendTap p (presetWord preset p 0) 0 1 1) k

/-- The next request of a lane after a match (R50): presets P0 to P7 in turn, the best preset, and at S2 to S4 single-step
changes within 256 requests. Which preset measures best, and whether a change enlarges the eye, is a free value (log entry
22). -/
def Dev.nextTap (d : Dev) (l : LinkId) (phys : Nat) (r : TapReq) : Dev :=
  let seq := (r.seq + 1) % 16
  let f := d.free.toNat
  let done := d.modLink l fun k => { k with tapReqs := k.tapReqs.set phys (some { r with matched := true }) }
  if d.par (lkey kLnkEqMode l) 0 = 1 then done
  else if r.count < 8 then d.modLink l fun k => k.sendTap phys (presetWord r.count phys seq) seq 1 (r.count + 1)
  else if r.count = 8 then (d.modLink l fun k => k.sendTap phys (presetWord (f % 8) phys seq) seq 1 9).drawn
  else if 1 < (d.link l).rate && r.count < 256 && f.testBit 8 then
    (d.modLink l fun k => k.sendTap phys
      (if f.testBit 9 then changeWord (1 + f / 2 % 2) 0 phys seq else changeWord 0 (1 + f / 2 % 2) phys seq)
      seq 1 (r.count + 1)).drawn
  else done.drawn

/-! ### The spare (R53, R54) -/

/-- Takeover of a logical lane begins: SHADOW names it. -/
def Link.startTakeover (k : Link) (logical : Nat) : Link :=
  { k with spareUse := .takeover logical false 0, bts := { k.bts with shadow := logical, shadowValid := true } }

/-- A lane fault with no healthy spare: SPARE_EXHAUSTED and RECOVERY. -/
def Dev.spareExhausted (d : Dev) (l : LinkId) : Dev :=
  ((d.raise (l.ev 0x07) 0 (d.free.toNat % 0x100000000)).drawn).toRecovery l

/-- A hard or soft fault of a physical lane in L0. A fault of the spare that a takeover uses or waits for, and the fault of
another lane while one does, leave that lane without a healthy spare (log entry 103). -/
def Dev.laneFault (d : Dev) (l : LinkId) (phys : Nat) : Dev :=
  let k := d.link l
  if k.state ≠ .l0 ∨ k.failed.getD phys false then d
  else if k.spare = some phys then
    let d1 := d.modLink l fun k => { k with spare := none, failed := k.failed.set phys true }
    match k.spareUse with
    | .takeover _ _ _ => (d1.modLink l Link.noShadow).spareExhausted l
    | .returning _ (some _) => (d1.modLink l Link.noShadow).spareExhausted l
    | _ => (d1.modLink l Link.noShadow).syncBts l
  else
    match k.map.findIdx? (· == phys) with
    | none => d
    | some logical =>
      match k.spare, k.spareUse with
      | none, _ => d.spareExhausted l
      | some _, .idle => (d.modLink l fun k => k.startTakeover logical).syncBts l
      | some _, .takeover lg _ _ => if lg = logical then d else d.spareExhausted l
      | some _, .cover lg =>
        if lg = logical then (d.modLink l fun k => k.startTakeover logical).syncBts l
        else d.modLink l fun k => { k with spareUse := .returning lg (some logical) }
      | some _, .returning lg none =>
        if lg = logical then (d.modLink l fun k => k.startTakeover logical).syncBts l
        else d.modLink l fun k => { k with spareUse := .returning lg (some logical) }
      | some _, .returning _ (some next) => if next = logical then d else d.spareExhausted l

/-- The logical lane moves to the spare at a DSK column (R53). -/
def Dev.moveLane (d : Dev) (l : LinkId) (logical : Nat) : Dev :=
  let k := d.link l
  match k.spare with
  | none => d
  | some sp =>
    let old := k.map.getD logical 0
    ((d.modLink l fun k => { k.noShadow with
      map := k.map.set logical sp, spare := none, failed := k.failed.set old true,
      bts := { k.bts with mapseq := (k.bts.mapseq + 1) % 16, shadowValid := false, shadow := 0 } }).postFree
      (l.ev 0x06)).syncBts l

/-! ### Reception (R60 to R64) -/

/-- The header fields of a Husk (Table 3-1). -/
structure HuskHdr where
  type : Nat
  vc : Nat
  retry : Bool
  seq : Nat
  len : Nat
  sub : Nat
  payload : List Byte
deriving DecidableEq, Repr

def huskHdr (bs : List Byte) : HuskHdr :=
  let w := leField bs 0 8
  { type := bitsOf w 0 4, vc := bitsOf w 4 2, retry := w.testBit 6, seq := bitsOf w 8 8, len := bitsOf w 16 13,
    sub := bitsOf w 32 16, payload := (bs.drop 8).take (bitsOf w 16 13) }

/-- Forward types and their VCs (Table 3-2). -/
def forwardVc : Nat → Option Nat
  | 0x1 => some 0
  | 0x2 => some 2
  | 0x3 => some 1
  | 0x4 => some 1
  | 0x5 => some 1
  | 0x6 => some 3
  | 0x7 => some 3
  | _ => none

/-- Husks flow in L0 and in the PAM4 phase of RECOVERY (R44). -/
def Link.receives (k : Link) : Bool :=
  match k.state with
  | .l0 => true
  | .recovery => k.recPhase == .pam4
  | _ => false

/-- Checks 1 to 3 of Table 3-3. The header when the Husk passes; otherwise the block with the failure counted and, for
check 3 on VC1 or VC2, a NAK sent. A code error behind the header counts as a DCRC failure before the place of EOH is looked
at (log entry 108). -/
def Dev.checkHusk (d : Dev) (l : LinkId) (h : RxHusk) : Dev × Option HuskHdr :=
  let bs := h.bytes
  let hd := huskHdr bs
  if h.headerDamaged || decide (bs.length < 8) || leField bs 6 2 != (crc16 (bs.take 6)).toNat then
    (d.count (lkey kLnkHcrcErr l) 0 1, none)
  else if forwardVc hd.type != some hd.vc || decide (4096 < hd.len) then (d.count (lkey kLnkFormatErr l) 0 1, none)
  else if h.bodyDamaged then
    ((if hd.vc = 1 ∨ hd.vc = 2 then d.sendNak l hd.vc else d).count (lkey kLnkDcrcErr l) 0 1, none)
  else if bs.length != 12 + hd.len then (d.count (lkey kLnkFormatErr l) 0 1, none)
  else if leField bs (8 + hd.len) 4 != (crc32 (bs.take (8 + hd.len))).toNat then
    ((if hd.vc = 1 ∨ hd.vc = 2 then d.sendNak l hd.vc else d).count (lkey kLnkDcrcErr l) 0 1, none)
  else (d, some hd)

/-- R68: whether a VC1 Husk is accepted, and what the link does otherwise. -/
def Dev.acceptVc1 (d : Dev) (l : LinkId) (seq : Nat) : Dev × Bool :=
  let k := d.link l
  let behind := (k.vc1RxNext + 256 - seq) % 256
  if seq = k.vc1RxNext then
    ((d.modLink l fun k => { k with
      vc1RxNext := (k.vc1RxNext + 1) % 256, rxCredit := (k.vc1RxNext + 9) % 256, nakOutstanding := false }).sendAck l 1, true)
  else if 1 ≤ behind ∧ behind ≤ 127 then (d.sendAck l 1, false)
  else if !creditOk k.rxCredit seq then (d.count (lkey kLnkVc1CreditViol l) 0 1, false)
  else if k.nakOutstanding then (d, false)
  else (d.sendNak l 1, false)

/-! ### VC1 transmission: acknowledgement and replay (R67, R70) -/

/-- Every SEQ before NEXT is acknowledged, and CREDIT_LIMIT is the partner's latest. -/
def Dev.ackVc1 (d : Dev) (l : LinkId) (next credit : Nat) : Dev :=
  d.modLink l fun k =>
    let rest := k.unacked.filter fun h =>
      let b := (next + 256 - h.seq) % 256
      !(decide (1 ≤ b) && decide (b ≤ 127))
    { k with
      unacked := rest, vc1Out := k.vc1Out.filter (fun h => rest.any fun q => q.seq == h.seq), txCredit := some credit,
      replays := if rest.length < k.unacked.length then 0 else k.replays }

/-- Every unacknowledged Husk goes out again from the oldest, with RETRY 1 (R70). -/
def Dev.replayVc1 (d : Dev) (l : LinkId) : Dev :=
  let n := (d.link l).unacked.length
  let d1 := d.modLink l fun k =>
    let hs := k.unacked.map fun h => { h with retry := true }
    { k with unacked := hs, vc1Out := hs, replays := k.replays + 1, replayHeld := false }
  d1.count (lkey kLnkVc1ReplayTx l) 0 n

/-- RETRAIN written with 1: RECOVERY from L0 or L1 (Table 2-17). -/
def Dev.retrain1 (d : Dev) (l : LinkId) : Dev :=
  if (d.link l).state = .l0 ∨ (d.link l).state = .l1 then d.toRecovery l else d

/-- The fourth replay without progress (R70). -/
def Dev.replayLimit (d : Dev) (l : LinkId) : Dev :=
  if 4 ≤ (d.link l).replays then
    ((d.modLink l fun k => { k with replays := 0 }).postFree (l.ev 0x09)).retrain1 l
  else d

/-- A replay that waited for Husks to be allowed goes out (Table 3-9). -/
def Dev.heldReplay (d : Dev) (l : LinkId) : Dev :=
  if (d.link l).replayHeld then
    (if (d.link l).unacked = [] then d.modLink l fun k => { k with replayHeld := false } else (d.replayVc1 l).replayLimit l)
  else d

end Sys2Proof.Machine
end

