-- ==== Sys2Proof/Machine/CalOps.lean ====
section
/-! DEFINITION. Calibration (chapter 18): channels, covers, agreement, boundaries, runs, sets and interpolation. -/

namespace Sys2Proof.Machine

open Sys2Proof

/-! ### Channels (R405, Table 18-1) -/

/-- The scope of a channel: 0 link lanes, 1 mirror lanes and RB taps, 2 sense channels. -/
def calScope (ch : Nat) : Nat := if ch < 0x10 then 0 else if ch < 0x60 then 1 else 2

/-- What a channel calibrates. -/
inductive CalKind where
  | link (l phys : Nat)
  | lane (s lane : Nat)
  | rb (s k : Nat)
  | adc (c : Nat)
  | adc12
  | boost (s : Nat)
  | comp (c : Nat)
  | ovComp (s : Nat)
deriving DecidableEq, Repr

def calKind? (ch : Nat) : Option CalKind :=
  if ch < 0x05 then some (.link 0 ch)
  else if 0x08 ≤ ch ∧ ch < 0x0D then some (.link 1 (ch - 0x08))
  else if 0x10 ≤ ch ∧ ch < 0x31 then some (.lane 0 (ch - 0x10))
  else if 0x31 ≤ ch ∧ ch < 0x33 then some (.rb 0 (ch - 0x31))
  else if 0x38 ≤ ch ∧ ch < 0x59 then some (.lane 1 (ch - 0x38))
  else if 0x59 ≤ ch ∧ ch < 0x5B then some (.rb 1 (ch - 0x59))
  else if 0x60 ≤ ch ∧ ch < 0x6C then some (.adc (ch - 0x60))
  else if ch = 0x6C then some .adc12
  else if ch = 0x6D ∨ ch = 0x6E then some (.boost (ch - 0x6D))
  else if 0x70 ≤ ch ∧ ch < 0x7C then some (.comp (ch - 0x70))
  else if ch = 0x7C ∨ ch = 0x7D then some (.ovComp (ch - 0x7C))
  else none

/-- The unit of a channel: which of two links or sides it belongs to; ADC 12 belongs to none. -/
def CalKind.unit : CalKind → Nat
  | .link l _ => l
  | .lane s _ => s
  | .rb s _ => s
  | .adc c => chanSide c
  | .adc12 => 0
  | .boost s => s
  | .comp c => chanSide c
  | .ovComp s => s

/-- A channel of a unit that the part has. -/
def Dev.calExists (d : Dev) (ch : Nat) : Bool := (calKind? ch).any fun k => d.dual || k.unit == 0

/-- The channels of a set of scopes, ascending. -/
def Dev.calChannels (d : Dev) (scopes : BitVec 3) : List Nat :=
  (List.range 0x7E).filter fun ch => d.calExists ch && scopes.getLsbD (calScope ch)

def calLink (l : Nat) : LinkId := if l = 0 then .lnk0 else .lnk1

/-- In service: measured only under a cover. -/
def Dev.calInService (d : Dev) (ch : Nat) : Bool :=
  match calKind? ch with
  | some (.link l p) => (d.links.get l).state == .l0 && (d.links.get l).map.contains p
  | some (.lane s k) => (d.mport s).state == .ready && k != 32
  | some (.adc c) => d.driven c
  | some (.comp c) => d.driven c
  | some .adc12 => d.cal.coveredAdc.isSome
  | _ => false

/-- Skipped, as things stand (R407). -/
def Dev.calSkips (d : Dev) (ch : Nat) : Bool :=
  match calKind? ch with
  | some (.link l p) =>
    let k := d.links.get l
    k.state != .l0 || (k.map.contains p && (k.spare.isNone || match k.spareUse with
      | .takeover _ _ _ => true
      | .returning _ next => next.isSome
      | _ => false))
  | some (.lane s _) =>
    let p := d.mport s
    !(p.state == .ready || p.state == .parked) || (p.state == .ready && (p.sparePermanent || p.lane32Failed))
  | some (.rb s _) => (d.mport s).state != .parked
  | some (.boost s) => (d.lside s).boost != .off
  | some (.ovComp s) => (d.lside s).boost != .off
  | _ => false

/-! ### Covers (R54, R251, R413) -/

/-- A cover starts: SHADOW on a link, SPARE on a mirror port, ADC 12 for a string channel. -/
def Dev.startCover (d : Dev) (ch : Nat) : Dev :=
  match calKind? ch with
  | some (.link l p) =>
    match (d.links.get l).map.findIdx? (· == p) with
    | some lg => (d.modLink (calLink l) fun k => { k with
        spareUse := .cover lg, bts := { k.bts with shadow := lg, shadowValid := true } }).syncBts (calLink l)
    | none => d
  | some (.lane s k) => d.modMport s fun p => { p.ask 0x06 k 0 with trial := [] }
  | some (.adc c) => { d with cal := { d.cal with coveredAdc := some c, overRun := 0 } }
  | _ => d

/-- A cover is released; a cover that has become permanent is left. -/
def Dev.endCover (d : Dev) (ch : Nat) : Dev :=
  match calKind? ch with
  | some (.link l _) =>
    match (d.links.get l).spareUse with
    | .cover _ => (d.modLink (calLink l) Link.noShadow).syncBts (calLink l)
    | _ => d
  | some (.lane s k) => d.modMport s fun p =>
      if p.sparePermanent || p.sparePending.isSome || p.spareFor != k then p else { p.returnSpare with trial := [] }
  | some (.adc _) => { d with cal := { d.cal with coveredAdc := none, overRun := 0 } }
  | _ => d

/-- A cover that calibration gives up between boundaries: a link lane returns at the next DSK column (R54). -/
def Dev.withdrawCover (d : Dev) (ch : Nat) : Dev :=
  match calKind? ch with
  | some (.link l _) =>
    match (d.links.get l).spareUse with
    | .cover lg => d.modLink (calLink l) fun k => { k with spareUse := .returning lg none }
    | _ => d
  | _ => d.endCover ch

/-- The cover of a channel still stands. -/
def Dev.coverStands (d : Dev) (ch : Nat) : Bool :=
  match calKind? ch with
  | some (.link l _) => match (d.links.get l).spareUse with | .cover _ => true | _ => false
  | some (.lane s _) =>
    let p := d.mport s
    (p.state == .ready || p.state == .parked) && !p.sparePermanent && p.sparePending.isNone && !p.lane32Failed
  | some (.adc c) => (d.chan c).latches.isEmpty && !d.saf.safeSides.get (chanSide c)
  | _ => true

/-- The channel whose cover serves for a channel: a comparator shares its ADC's. -/
def coverOf (ch : Nat) : Nat := if 0x70 ≤ ch ∧ ch < 0x7C then ch - 0x10 else ch

/-! ### Agreement (R408) -/

/-- The value has the form of its channel's correction, or is not valid. -/
def calFormOk (ch : Nat) : CalValue → Bool
  | .invalid => true
  | .tap _ => !(0x60 ≤ ch && ch < 0x6F)
  | .sense _ _ => 0x60 ≤ ch && ch < 0x6F

/-- The distance from tap a to tap b of a link, the short way round 64 positions. -/
def circularDiff (a b : Int) : Int := let m := (b - a) % 64; if 32 ≤ m then m - 64 else m

/-- The tap difference of a channel. -/
def tapDiff (ch : Nat) (a b : Int) : Int := if ch < 0x10 then circularDiff a b else b - a

/-- Two measurements agree within Table 18-1. -/
def calAgree (ch : Nat) : CalValue → CalValue → Bool
  | .tap a, .tap b => decide ((tapDiff ch a b).natAbs ≤ 2)
  | .sense o g, .sense p h => decide ((p - o).natAbs ≤ 2) && decide ((h - g).natAbs ≤ 10)
  | _, _ => false

/-- How far two measurements lie apart: the offset or tap first, then the gain (log entry 32). -/
def calApart (ch : Nat) : CalValue → CalValue → Nat
  | .tap a, .tap b => (tapDiff ch a b).natAbs * 1024
  | .sense o g, .sense p h => (p - o).natAbs * 1024 + (h - g).natAbs
  | _, _ => 0

/-- The mean of two measurements, rounded half up. -/
def calMean (ch : Nat) : CalValue → CalValue → Int × Int
  | .tap a, .tap b => if ch < 0x10 then ((2 * a + tapDiff ch a b + 1) / 2 % 64, 0) else ((a + b + 1) / 2, 0)
  | .sense o g, .sense p h => ((o + p + 1) / 2, (g + h + 1) / 2)
  | _, _ => (0, 0)

/-- The judgement of a channel's measurements: none, another is needed; some none, disagreement; some correction. -/
def calJudge (ch : Nat) : List CalValue → Option (Option (Int × Int))
  | [a, b] => if calAgree ch a b then some (some (calMean ch a b)) else none
  | a :: b :: c :: _ =>
    match calAgree ch a c, calAgree ch b c with
    | true, true => some (some (if calApart ch a c ≤ calApart ch b c then calMean ch a c else calMean ch b c))
    | true, false => some (some (calMean ch a c))
    | false, true => some (some (calMean ch b c))
    | false, false => some none
  | _ => none

/-! ### The run -/

def Dev.modRun (d : Dev) (f : CalRun → CalRun) : Dev := { d with cal := { d.cal with run := d.cal.run.map f } }

/-- A run that has its ticket, or needs none (R407). -/
def Dev.calRuns (d : Dev) : Bool := d.cal.run.any fun r => r.startup || d.ticketHeld .cal

/-- A correction comes into force; the run keeps what it replaced (Table 5-10). -/
def Dev.applyCorr (d : Dev) (w : Nat × Int × Int) : Dev :=
  let old := d.corr w.1
  (d.modRun fun r => { r with
    waiting := r.waiting.filter (fun q => q.1 != w.1), previous := r.previous ++ [(w.1, old.1, old.2)] }).setCorr w.1 w.2

/-- Channels that leave the run unmeasured are skipped and counted (R407). -/
def Dev.skipChannels (d : Dev) (chs : List Nat) : Dev :=
  if chs.isEmpty then d
  else (d.modRun fun r => { r with
    left := r.left.filter (fun ch => !chs.contains ch), current := r.current.filter fun c => !chs.contains c.1 }).count
      kCalCalSkipped 0 chs.length

/-- A unit whose boundary no longer comes: a link out of L0, a port neither READY nor PARKED. -/
def Dev.calGone (d : Dev) (ch : Nat) : Bool :=
  match calKind? ch with
  | some (.link l _) => (d.links.get l).state != .l0
  | some (.lane s _) => (d.mport s).state != .ready && (d.mport s).state != .parked
  | some (.rb s _) => (d.mport s).state != .ready && (d.mport s).state != .parked
  | _ => false

/-- Covers that no longer stand end the calibration of their channels; what cannot be measured is skipped (R407, R419). -/
def Dev.dropLost (d : Dev) : Dev :=
  match d.cal.run with
  | none => d
  | some r =>
    let lost := r.covers.filter fun ch => !d.coverStands ch
    let d1 := lost.foldl (fun d ch => d.endCover ch) (d.modRun fun r => { r with covers := r.covers.filter fun ch => !lost.contains ch })
    let gone := r.left.filter fun ch => lost.contains (coverOf ch) ||
      (!r.startup && !lost.contains ch && !r.covers.contains ch && d.calSkips ch)
    let d2 := d1.modRun fun r => { r with waiting := r.waiting.filter fun w => !lost.contains (coverOf w.1) && !d.calGone w.1 }
    d2.skipChannels gone

/-- The next channel of a scope that needs a cover gets it, when the scope has none and what it needs is free. ADC 12 is
measured before it first covers a channel (R413). -/
def Dev.nextCover (d : Dev) (scope : Nat) : Dev :=
  match d.cal.run with
  | none => d
  | some r =>
    let open_ (ch : Nat) : Bool := r.left.contains ch || r.waiting.any fun w => w.1 == ch
    if r.startup ∨ !d.calRuns ∨ (r.covers.any fun ch => calScope ch == scope) ∨ (scope = 2 ∧ open_ 0x6C) then d
    else
      match r.left.find? fun ch => calScope ch == scope && d.calInService ch && ch != 0x6C with
      | none => d
      | some ch =>
        let free : Bool := match calKind? ch with
          | some (.link l _) => (d.links.get l).spareUse == .idle
          | some (.lane s _) => (d.mport s).spareFree
          | _ => true
        if free then (d.modRun fun r => { r with covers := r.covers ++ [coverOf ch] }).startCover (coverOf ch) else d

/-- Covers of the channels that pass a test are released once their channels are done. -/
def Dev.releaseCovers (d : Dev) (p : Nat → Bool) : Dev :=
  match d.cal.run with
  | none => d
  | some r =>
    let unneeded := r.covers.filter fun ch => p ch && !r.left.any fun c => coverOf c == ch
    unneeded.foldl (fun d ch => d.endCover ch) (d.modRun fun r => { r with covers := r.covers.filter fun ch => !unneeded.contains ch })

/-- Corrections of the channels that pass a test reach their boundary (R414, R416). -/
def Dev.applyWaiting (d : Dev) (p : Nat → Bool) : Dev :=
  let mine : List (Nat × Int × Int) := match d.cal.run with | some r => r.waiting.filter fun (w : Nat × Int × Int) => p w.1 | none => []
  let other : List (Nat × Int × Int) := d.cal.interp.filter fun w => p w.1
  let d1 : Dev := mine.foldl Dev.applyCorr d
  other.foldl (fun (d : Dev) (w : Nat × Int × Int) => d.setCorr w.1 w.2)
    { d1 with cal := { d1.cal with interp := d1.cal.interp.filter fun (w : Nat × Int × Int) => !p w.1 } }

/-! ### Sets (R415 to R417) -/

/-- The set nearest in temperature among some. -/
def nearestSet (t : Int) : List (Nat × CalSet) → Option (Nat × CalSet)
  | [] => none
  | a :: l =>
    match nearestSet t l with
    | none => some a
    | some b => if (b.2.t - t).natAbs < (a.2.t - t).natAbs then some b else some a

/-- Where a run's results go (R415): the place, and the set there if it holds one. -/
def Dev.setPlace (d : Dev) (t : Int) : Nat × Option CalSet :=
  let l := List.zip (List.range d.cal.sets.length) d.cal.sets
  let valid := l.filter fun s => s.2.valid
  match nearestSet t (valid.filter fun s => decide ((s.2.t - t).natAbs ≤ 5 * d.par kCalCalDeltaT 0)) with
  | some s => (s.1, some s.2)
  | none =>
    match l.find? fun s => !s.2.valid with
    | some s => (s.1, none)
    | none =>
      if l.length < 8 then (l.length, none)
      else match nearestSet t valid with
        | some s => (s.1, some s.2)
        | none => (0, none)

/-- The scopes of a run are written into a set. -/
def Dev.storeSet (d : Dev) (r : CalRun) : Dev :=
  let (i, old) := d.setPlace r.startT
  let n := d.cal.setSeq + 1
  let rate (l : Nat) : Nat := (d.links.get l).rateWord
  let entries := (List.range 128).map fun ch =>
    match old with
    | some o => if r.scopes.getLsbD (calScope ch) then d.corr ch else o.entries.getD ch (0, 0)
    | none => d.corr ch
  let keep := !r.scopes.getLsbD 0
  let set : CalSet := { t := r.startT, valid := true, seq := n, entries := entries,
                        rate0 := match old with | some o => if keep then o.rate0 else rate 0 | none => rate 0,
                        rate1 := match old with | some o => if keep then o.rate1 else rate 1 | none => rate 1 }
  let sets := if i < d.cal.sets.length then d.cal.sets.set i set else d.cal.sets ++ [set]
  ({ d with cal := { d.cal with sets := sets, setSeq := n, norWriteWanted := true } }).request (.erase .calSets)

/-- The set table is in NOR: the copies are written alternately (R417), and the ticket goes back. -/
def Dev.calSetsWritten (d : Dev) : Dev :=
  if d.cal.norWriteWanted && d.ticketHeld (.erase .calSets) then
    ({ d with
      cal := { d.cal with norWriteWanted := false }
      nor := { d.nor with
        calCopies := d.nor.calCopies.set d.nor.calNextCopy (some d.cal.sets), calNextCopy := 1 - d.nor.calNextCopy } }).release
      (.erase .calSets)
  else d.release (.erase .calSets)

/-- The largest SEQ of a copy. -/
def largestSeq (l : List CalSet) : Nat := l.foldl (fun m s => max m s.seq) 0

/-- The valid copy with the higher largest SEQ (R417). -/
def Nor.calSets (n : Nor) : List CalSet :=
  match n.calCopies with
  | [some a, some b] => if largestSeq a < largestSeq b then b else a
  | [some a, none] => a
  | [none, some b] => b
  | _ => []

/-- Factory defaults of the corrections (R417): comparator trims come from OTP. -/
def calFactory (ch : Nat) : Int × Int :=
  match calKind? ch with
  | some (.link _ _) => (32, 0)
  | some (.lane _ _) => (64, 0)
  | some (.rb _ _) => (128, 0)
  | some (.comp _) => (Config.otpComparatorTrim ch, 0)
  | some (.ovComp _) => (Config.otpComparatorTrim ch, 0)
  | _ => (0, 0)

/-- The formula of R288 between two sets. -/
def calLerp (ta tb t va vb : Int) : Int := if tb = ta then va else va + ((vb - va) * (t - ta) + (tb - ta) / 2) / (tb - ta)

/-- The sets that may give a channel's value: for a link lane those of the rate in force. -/
def Dev.setsFor (d : Dev) (ch : Nat) : List CalSet :=
  d.cal.sets.filter fun s => s.valid && match calKind? ch with
    | some (.link l _) => (if l = 0 then s.rate0 else s.rate1) == (d.links.get l).rateWord && (d.links.get l).rateWord != 0
    | _ => true

/-- The interpolation of a channel's set entries at T_DIE (R416); none where no set gives one. -/
def Dev.calInterp (d : Dev) (ch : Nat) : Option (Int × Int) :=
  let t := d.thm.tDie
  let l := d.setsFor ch
  let below := (l.filter fun s => decide (s.t ≤ t)).foldl (fun (m : Option CalSet) s => match m with
    | some b => if b.t < s.t then some s else some b
    | none => some s) none
  let above := (l.filter fun s => decide (t ≤ s.t)).foldl (fun (m : Option CalSet) s => match m with
    | some b => if s.t < b.t then some s else some b
    | none => some s) none
  match below, above with
  | some a, some b =>
    let va := a.entries.getD ch (0, 0)
    let vb := b.entries.getD ch (0, 0)
    some (calLerp a.t b.t t va.1 vb.1, calLerp a.t b.t t va.2 vb.2)
  | some a, none => some (a.entries.getD ch (0, 0))
  | none, some b => some (b.entries.getD ch (0, 0))
  | none, none => none

/-- Corrections follow the sets (R416): a channel whose value differs takes it at its next boundary. -/
def Dev.followSets (d : Dev) : Dev :=
  let busy := match d.cal.run with | some r => r.left ++ r.waiting.map Prod.fst | none => []
  let chs := (List.range 0x7E).filter fun ch => d.calExists ch && !busy.contains ch
  let wanted := chs.filterMap fun ch => (d.calInterp ch).bind fun v => if v = d.corr ch then none else some (ch, v)
  { d with cal := { d.cal with interp := wanted } }

/-! ### Start and completion (R406, R407, R412) -/

/-- CAL_REF lies within 1.2500 V ±1.0 % (R412). -/
def calRefOk (v : Nat) : Bool := decide (12375 ≤ v) && decide (v ≤ 12625)

/-- The reference check before a run of scope bit 2: outside its range the scope is skipped. -/
def Dev.checkRef (d : Dev) : Dev :=
  match d.cal.run with
  | none => d
  | some r =>
    if !r.scopes.getLsbD 2 then d
    else if calRefOk d.cal.calRef then d.clearFault 0x1001 0xFF
    else
      ((d.skipChannels (r.left.filter fun ch => calScope ch == 2)).post 0x1003 (d.cal.calRef % 0x10000)).raise 0x1001 0xFF
        (0xFF + 0x100 * b2n r.startup)

/-- A run is opened with every channel of its scopes. -/
def Dev.openRun (d : Dev) (scopes : BitVec 3) (auto startup : Bool) (p : Port) (tag : Nat) : Dev :=
  { d with cal := { d.cal with run := some {
      scopes := scopes, auto := auto, startup := startup, port := p, tag := tag, startT := d.thm.tDie, done := 0,
      left := d.calChannels scopes, current := [], covers := [], units := 0, disagree := 0, waiting := [], previous := [] } } }

/-- The run starts measuring: the reference check, the skips, and the first covers of the links and ports. -/
def Dev.beginRun (d : Dev) : Dev := ((d.checkRef.dropLost).nextCover 0).nextCover 1

/-- A run under R407 asks for its ticket; denied, it does not open. A CAL_RUN is answered by its caller. -/
def Dev.askRun (d : Dev) (scopes : BitVec 3) (auto : Bool) (p : Port) (tag : Nat) : Dev × Bool :=
  let d1 := d.request .cal
  if d1.ticketHeld .cal then ((d1.openRun scopes auto false p tag).beginRun, true)
  else if d1.ticketQueued .cal then (d1.openRun scopes auto false p tag, true)
  else (d1, false)

/-- Scopes with nothing left complete now. -/
def CalRun.scopesDone (r : CalRun) : BitVec 3 :=
  BitVec.ofNat 3 (bitMap ((List.range 3).map fun i =>
    r.scopes.getLsbD i && !r.done.getLsbD i && !(r.left.any fun ch => calScope ch == i) &&
    !(r.waiting.any fun w => calScope w.1 == i) && !(r.covers.any fun ch => calScope ch == i)))

/-- LAST_RUN_T, LAST_RUN_TIME and CAL_DONE for the scopes completed (R406, Table 18-6). -/
def Dev.markScopes (d : Dev) (r : CalRun) (n : BitVec 3) : Dev :=
  let upd {α : Type} (l : List α) (v : α) : List α := (List.zip (List.range l.length) l).map fun x => if n.getLsbD x.1 then v else x.2
  let d1 := { d with cal := { d.cal with
    lastRunT := upd d.cal.lastRunT r.startT, lastRunTime := upd d.cal.lastRunTime d.now, latestRunT := r.startT } }
  (d1.modRun fun q => { q with done := q.done ||| n }).post 0x1002
    (n.toNat + 8 * b2n r.auto + 256 * min 255 r.disagree + 65536 * min 255 r.units)

/-- Completion: what is complete is marked; a run complete in every scope is stored and its ticket and command end, and a
CAL_RUN that waited for an automatic run starts (R407, R415). -/
def Dev.finishRun (d : Dev) : Dev :=
  match d.cal.run with
  | none => d
  | some r =>
    if !d.calRuns then d
    else
      let n := r.scopesDone
      let d1 := if n = 0 then d else d.markScopes r n
      if r.done ||| n ≠ r.scopes then d1
      else
        let d2 := ((d1.count kCalCalRuns 0 1).storeSet r).release .cal
        let d3 := { d2 with cal := { d2.cal with run := none, coveredAdc := none } }
        let d4 := if r.auto ∨ r.startup then d3 else d3.finish r.port r.tag stOk (leBytes 2 r.units ++ leBytes 2 r.disagree)
        match d4.cal.queuedRun with
        | none => d4
        | some (scopes, p, tag) =>
          let d5 := { d4 with cal := { d4.cal with queuedRun := none } }
          let (d6, ok) := d5.askRun scopes false p tag
          if ok then d6 else d6.finishWith p tag stBudgetDenied

/-- The run goes on after something changed. -/
def Dev.calAdvance (d : Dev) : Dev :=
  if d.calRuns then (((d.dropLost.nextCover 0).nextCover 1)).finishRun else d

/-! ### Boundaries (R414) -/

/-- A DSK column of a link. -/
def Dev.calDsk (d : Dev) (l : LinkId) : Dev :=
  let mine (ch : Nat) : Bool := match calKind? ch with | some (.link m _) => m == l.ix | _ => false
  ((d.applyWaiting mine).releaseCovers mine).calAdvance

/-- An idle gap of a port in which taps may change: in READY one inside a slot gap (R247). -/
def Dev.calGap (d : Dev) (s : Nat) : Dev :=
  let mine (ch : Nat) : Bool := match calKind? ch with | some (.lane t _) => t == s | some (.rb t _) => t == s | _ => false
  ((d.applyWaiting mine).releaseCovers mine).calAdvance

/-- A refresh boundary: sense corrections apply, and ADC 12 goes to the next channel (R413). -/
def Dev.calRefresh (d : Dev) : Dev :=
  if d.cal.run.isNone ∧ d.cal.interp.isEmpty then d
  else
    let mine (ch : Nat) : Bool := calScope ch == 2
    (((d.applyWaiting mine).releaseCovers mine).dropLost.nextCover 2).calAdvance

/-- Corrections that need no boundary now: all of them in BOOT (R418), those of a parked port in any idle gap. -/
def Dev.calIdle (d : Dev) : Dev :=
  if d.core.state = .boot then (d.applyWaiting fun _ => true).finishRun
  else d.sides.foldl (fun d s => if (d.mport s).state = .parked then d.calGap s else d) d

/-! ### Measurements -/

/-- A channel may be measured now. -/
def Dev.calMeasurable (d : Dev) (r : CalRun) (ch : Nat) : Bool :=
  r.left.contains ch && d.calRuns && (r.startup || (!d.calSkips ch && (!d.calInService ch || r.covers.contains (coverOf ch))))

/-- The two measurements of a channel, or three, are judged. -/
def Dev.judgeChannel (d : Dev) (r : CalRun) (ch : Nat) (vs : List CalValue) : Dev :=
  match calJudge ch vs with
  | none => d.modRun fun q => { q with current := (q.current.filter fun c => c.1 != ch) ++ [(ch, vs)] }
  | some res =>
    let bit : BitVec 128 := BitVec.ofNat 128 (2 ^ ch)
    let d1 := d.modRun fun q => { q with
      left := q.left.filter (· != ch), current := q.current.filter (fun c => c.1 != ch), units := q.units + 1,
      disagree := q.disagree + b2n res.isNone,
      waiting := match res with | some v => q.waiting ++ [(ch, v)] | none => q.waiting }
    match res with
    | some _ => ({ d1 with cal := { d1.cal with disagreeMap := d1.cal.disagreeMap &&& ~~~bit } }).clearFault 0x1001 ch
    | none =>
      (({ d1 with cal := { d1.cal with disagreeMap := d1.cal.disagreeMap ||| bit } }).count kCalCalDisagreeCount 0 1).raise
        0x1001 ch (ch + 0x100 * b2n r.startup)

/-- The result of a measurement: for a covered mirror lane that of its trial once every trial tap has been returned (R410), else
what was measured, a tap held to its channel's range (Table 18-1). -/
def Dev.measured (d : Dev) (ch : Nat) (v : CalValue) : CalValue :=
  let hold (lo hi : Int) : CalValue := match v with | .tap t => .tap (clampI lo hi t) | x => x
  match calKind? ch with
  | some (.lane s k) => (d.trialValue s k).getD (hold 0 127)
  | some (.rb _ _) => hold 0 255
  | some (.link _ _) => hold 0 63
  | some (.comp _) => hold (-64) 63
  | some (.ovComp _) => hold (-64) 63
  | _ => match v with | .sense o g => .sense (clampI (-128) 127 o) (clampI (-512) 511 g) | x => x

/-- A trial starts again with the next measurement. -/
def Dev.clearTrial (d : Dev) (ch : Nat) : Dev :=
  match calKind? ch with
  | some (.lane s _) => d.modMport s fun p => { p with trial := [] }
  | _ => d

/-- CAL_MEASUREMENT_DONE. -/
def Dev.calMeasured (d : Dev) (ch : Nat) (v : CalValue) : Dev :=
  match d.cal.run with
  | none => d
  | some r =>
    if d.calMeasurable r ch && calFormOk ch v then
      let cur := match kvGet r.current ch with | some l => l | none => []
      (((d.clearTrial ch).judgeChannel r ch (cur ++ [d.measured ch v])).calIdle).calAdvance
    else d

/-- CAL_TRIGGER_CHECK (R406, R416, R417). -/
def Dev.calTrigger (d : Dev) (ref : Nat) : Dev :=
  let d0 := { d with cal := { d.cal with calRef := ref } }
  let d1 := if d0.cal.norWriteWanted then d0.request (.erase .calSets) else d0
  let moved (i : Nat) : Bool :=
    (d.par kCalCalAuto 0).testBit i && decide (10 * d.par kCalCalDeltaT 0 < (d.thm.tDie - d.cal.lastRunT.getD i 0).natAbs)
  let late := d.linkIds.any fun l => d.cal.linkLate.get l.ix && (d.link l).state == .l0 && (d.link l).rate == d.ceiling l
  let scopes := BitVec.ofNat 3 (b2n (moved 0 || late) + 2 * b2n (moved 1) + 4 * b2n (moved 2))
  let allowed := d1.auxRuns && !d1.thm.sensorBad && d1.cal.run.isNone
  if allowed ∧ scopes ≠ 0 then
    let (d2, ok) := d1.askRun scopes true .spi 0
    if ok then (if late then { d2 with cal := { d2.cal with linkLate := both false } } else d2).calIdle.calAdvance
    else d2.followSets.calIdle
  else d1.followSets.calIdle

/-- A queued run whose ticket has been granted starts; one whose request was denied does not (R407). -/
def Dev.calTicket (d : Dev) : Dev :=
  match d.cal.run with
  | none => d
  | some r =>
    if r.startup ∨ d.ticketQueued .cal then d
    else if d.ticketHeld .cal then
      (if r.current.isEmpty && r.covers.isEmpty && r.units == 0 then d.beginRun else d).calIdle.calAdvance
    else
      let d1 := { d with cal := { d.cal with run := none, coveredAdc := none } }
      if r.auto then d1 else d1.finishWith r.port r.tag stBudgetDenied

/-- CAL_RUN (R127, R407). -/
def Dev.calRunCmd (d : Dev) (p : Port) (tag : Nat) (scopes : BitVec 3) (force : Bool) : Dev :=
  let moved := (List.range 3).any fun i =>
    scopes.getLsbD i && decide (10 * d.par kCalCalDeltaT 0 < (d.thm.tDie - d.cal.lastRunT.getD i 0).natAbs)
  if scopes = 0 then d.finishWith p tag stBadArg
  else if !force ∧ !moved then d.finish p tag stOk (leBytes 4 0)
  else if d.cal.run.isSome then
    if d.cal.queuedRun.isSome then d.finishWith p tag stBudgetDenied
    else ({ d with cal := { d.cal with queuedRun := some (scopes, p, tag) } }).waits p tag
  else
    let (d1, ok) := d.askRun scopes false p tag
    if ok then ((d1.waits p tag).calIdle).calAdvance else d1.finishWith p tag stBudgetDenied

/-- The run ends without result: corrections not yet applied are withdrawn, covers released (Table 18-3). -/
def Dev.endRun (d : Dev) : Dev :=
  match d.cal.run with
  | none => d
  | some r =>
    let d1 := r.covers.foldl (fun d ch => d.withdrawCover ch) d
    ({ d1 with cal := { d1.cal with run := none, coveredAdc := none } }).release .cal

/-- ABORT of a CAL_RUN: corrections already applied revert at the next boundary of each unit (Table 5-10). -/
def Dev.abortRun (d : Dev) (p : Port) (tag : Nat) : Dev :=
  match d.cal.run with
  | some r =>
    if !r.auto ∧ !r.startup ∧ r.port = p ∧ r.tag = tag then
      let back := r.previous.foldl (fun (l : List (Nat × Int × Int)) w => if l.any fun q => q.1 == w.1 then l else l ++ [w]) []
      let d1 := d.endRun
      let d2 := { d1 with cal := { d1.cal with interp := d1.cal.interp ++ back } }
      match d2.cal.queuedRun with
      | none => d2.calIdle
      | some (scopes, q, t) =>
        let (d3, ok) := ({ d2 with cal := { d2.cal with queuedRun := none } }).askRun scopes false q t
        if ok then d3 else d3.finishWith q t stBudgetDenied
    else
      match d.cal.queuedRun with
      | some (_, q, t) => if q = p ∧ t = tag then { d with cal := { d.cal with queuedRun := none } } else d
      | none => d
  | none => d

/-- A side starts or stops projecting: its measurements in progress start again (Table 18-3). -/
def Dev.calProjection (d : Dev) (s : Nat) : Dev :=
  d.modRun fun r => { r with current := r.current.filter fun c => match calKind? c.1 with
    | some (.link _ _) => true
    | some k => k.unit != s
    | none => true }

/-- The start-up run of BOOT (R418). -/
def Dev.startupRun (d : Dev) : Dev := ((d.openRun 7 false true .spi 0).checkRef)

/-- The start-up run ends at STANDBY entry: what was not measured keeps its value (log entry 33); a link that has not reached
L0 at its ceiling is left for later (R418). -/
def Dev.endStartup (d : Dev) : Dev :=
  match d.cal.run with
  | none => d
  | some r =>
    if !r.startup then d
    else
      let d1 := (d.modRun fun r => { r with left := [], current := [], covers := [] }).applyWaiting fun _ => true
      let late (l : LinkId) : Bool := d.linkIds.contains l && !((d.link l).state == .l0 && (d.link l).rate == d.ceiling l)
      { d1 with cal := { d1.cal with linkLate := ⟨late .lnk0, late .lnk1⟩ } }.finishRun

end Sys2Proof.Machine
end

