-- ==== Sys2Proof/Machine/ShutterOps.lean ====
section
/-! DEFINITION. The Shutter engine (chapter 11): list acceptance (R258 to R261), the geometry record (R262, R263), prediction and
edges (R266 to R269), samples (R270, R277), rasters (R264, R265), the states of Table 11-7, and the mask freeze detector
(R355). Angles are exact in units of 1e-10 degree; the functions of R266 are taken in fixed point with 60 fraction bits. -/

namespace Sys2Proof.Machine

open Sys2Proof

/-! ### Arctangent -/

/-- Σ (−1)^k x^(2k+1) / (2k+1) from term k on. -/
def atanTerms (x2 : Int) : Nat → Nat → Int → Int
  | 0, k, t => t / ((2 * k + 1 : Nat) : Int)
  | n + 1, k, t => t / ((2 * k + 1 : Nat) : Int) + atanTerms x2 n (k + 1) (-(fxMul t x2))

/-- Half the angle: x / (1 + sqrt(1 + x²)). -/
def atanHalf (x : Int) : Int :=
  let root : Int := isqrt ((fxOne + fxMul x x) * fxOne).toNat
  x * fxOne / (fxOne + root)

/-- The arctangent of x between 0 and 1, in radians. -/
def atanUnit (x : Int) : Int :=
  let y := atanHalf (atanHalf x)
  4 * atanTerms (fxMul y y) 20 0 y

/-- The arctangent of n / d in degrees, d > 0. -/
def atanDeg (n d : Int) : Int :=
  let m : Int := n.natAbs
  let r := if m ≤ d then atanUnit (m * fxOne / d) else fxPi / 2 - atanUnit (d * fxOne / m)
  let deg := r * 180 * fxOne / fxPi
  if n < 0 then -deg else deg

/-- The tangent of an angle of n · 1e-10 degree; a right angle has none, and takes the given value. -/
def tanDeg (n : Int) (right : Int) : Int :=
  let c := cosPi n 1800000000000
  if c = 0 then right else sinPi n 1800000000000 * fxOne / c

/-! ### The geometry record (Table 11-5) -/

/-- The side block at its offset in the record. -/
structure SideGeom where
  x : Int
  y : Int
  z : Int
  yaw : Int
  pitch : Int
  cx : Int
  cy : Int
  ppdH : Nat
  ppdV : Nat
deriving DecidableEq, Repr

def sideGeom (g : List Byte) (s : Nat) : SideGeom :=
  let o := 16 + 24 * s
  { x := leInt g o 2, y := leInt g (o + 2) 2, z := leInt g (o + 4) 2, yaw := leInt g (o + 6) 2, pitch := leInt g (o + 8) 2,
    cx := leInt g (o + 12) 4, cy := leInt g (o + 16) 4, ppdH := leField g (o + 20) 2, ppdV := leField g (o + 22) 2 }

/-- R262: LEN 64, VERSION 1, and a resolution of at least 10 pixels per degree on every side the part has. -/
def Dev.geometryOk (d : Dev) (g : List Byte) : Bool :=
  g.length == 64 && byteAt g 0 == 1 &&
  d.sides.all fun s => decide (2560 ≤ (sideGeom g s).ppdH) && decide (2560 ≤ (sideGeom g s).ppdV)

/-! ### Object lists (R259 to R261) -/

/-- An object record (Table 11-2). -/
def parseObj (b : List Byte) : Obj :=
  { cls := byteAt b 2 % 16, conf := byteAt b 3, azL := leInt b 4 2, azR := leInt b 6 2, elT := leInt b 8 2, elB := leInt b 10 2,
    dist := leField b 12 2, vaz := leInt b 14 2, vel := leInt b 16 2, vx := leInt b 18 2, dt := leInt b 20 4,
    egoIncl := byteAt b 24 % 2 == 1 }

/-- The shape of the record is none that R261 accepts. -/
def Obj.invalid (o : Obj) : Bool :=
  decide (o.azL ≤ o.azR) || decide (o.elT ≤ o.elB) || decide (o.dist < 10) ||
  [o.azL, o.azR, o.elT, o.elB].any fun a => decide (32500 < a.natAbs)

def parseObjs (b : List Byte) : List Obj := (List.range (byteAt b 8)).map fun i => parseObj ((b.drop (16 + 32 * i)).take 32)

/-- The first check of Table 11-3 that a handed-over list fails; 0 when it passes. -/
def Dev.listReason (d : Dev) (b : List Byte) : Nat :=
  let time := leField b 0 8
  if b.length < 16 ∨ 64 < byteAt b 8 ∨ b.length ≠ 16 + 32 * byteAt b 8 then 1
  else if d.now + 100000 < time then 2
  else if d.sht.newest.any fun l => decide (time ≤ l.time) then 3
  else if time + msTicks (d.par kShtStaleMs 0) < d.now then 4
  else 0

/-! ### Edges (R266 to R269) -/

/-- What a raster takes from the block: times, vehicle motion, margins in force. -/
structure RasterCtx where
  emit : Nat
  predMax : Nat
  speed : Int
  yaw : Int
  first : Bool
  doubled : Bool
  right : Int
deriving DecidableEq, Repr

/-- A 1/256-pixel place less an angle (fixed point, degrees) times a resolution, held to 1/16 pixel. R268 allows either
neighbour of the exact value (log entry 6). -/
def heldEdge (axis : Nat) (c deg : Int) (ppd : Nat) : Int :=
  let exact := c * 65536 - deg * ppd / 17592186044416
  exact / 1048576 + (if Config.edgeRoundsUp axis exact then 1 else 0)

/-- The four held edges of a box in 1/16 pixel: left, right, top, bottom. -/
structure Edges where
  xl : Int
  xr : Int
  yt : Int
  yb : Int
deriving DecidableEq, Repr

/-- Lamp angles of an object's box on a side: left, right, top, bottom; none where the object is skipped (R266). -/
def lampAngles (c : RasterCtx) (g : List Byte) (s : Nat) (time : Nat) (o : Obj) : Option (Int × Int × Int × Int) :=
  let sg := sideGeom g s
  let tau := clampI 0 (msTicks c.predMax) ((c.emit : Int) - (time + o.dt))
  let rate (v : Int) : Int := if c.first then 0 else v
  let psi := if o.egoIncl then 0 else fxRat (c.yaw * tau) 10000000000
  let unit : Int := 180000000000
  let de := max unit (o.dist * 18000000000 + (18 * rate o.vx - 5 * c.speed) * tau)
  let dx := (leInt g 4 2 - sg.x) * 180000000 + de
  if dx < unit then none
  else
    let place (off a mount v : Int) : Int :=
      fxRat off 1000 + (o.dist : Int) * tanDeg (a * 20000000 + mount * 10000000 + rate v * tau) c.right / 10
    let ang (off a mount v : Int) : Int := atanDeg (place off a mount v * unit) (dx * fxOne)
    let az (a : Int) : Int := ang (leInt g 6 2 - sg.y) a (leInt g 10 2) o.vaz - fxRat sg.yaw 1000 - psi
    let el (a : Int) : Int := ang (leInt g 8 2 - sg.z) a (leInt g 12 2) o.vel - fxRat sg.pitch 1000
    some (az o.azL, az o.azR, el o.elT, el o.elB)

/-- The held edges of a box widened by margins in 0.01 degree. -/
def widened (sg : SideGeom) (b : Int × Int × Int × Int) (h up dn : Nat) : Edges :=
  { xl := heldEdge 0 sg.cx (b.1 + fxRat h 100) sg.ppdH, xr := heldEdge 1 sg.cx (b.2.1 - fxRat h 100) sg.ppdH,
    yt := heldEdge 2 sg.cy (b.2.2.1 + fxRat up 100) sg.ppdV, yb := heldEdge 3 sg.cy (b.2.2.2 - fxRat dn 100) sg.ppdV }

/-- A box with its class's core value and soft width. -/
structure Box where
  e : Edges
  core : Nat
  soft : Nat
deriving DecidableEq, Repr

/-- The widened boxes of a list on a side, and the unwidened ones (R269, R355). -/
def Dev.boxes (d : Dev) (c : RasterCtx) (s time : Nat) (objs : List Obj) : List Box × List Edges :=
  let g := d.sht.geometry
  let sg := sideGeom g s
  let m := d.arr kShtClassMargin 0
  let k := if c.doubled then 2 else 1
  let found := objs.filterMap fun o => (lampAngles c g s time o).map fun b => (o, b)
  (found.map fun ob =>
    let o := 8 * ob.1.cls
    { e := widened sg ob.2 (k * leField m o 2) (k * leField m (o + 2) 2) (k * leField m (o + 4) 2),
      core := byteAt m (o + 7) % 16, soft := byteAt m (o + 6) : Box },
   found.map fun ob => widened sg ob.2 0 0 0)

/-! ### Samples (R270, R277) -/

/-- The value of a sample at a distance: n sixteenths of a pixel at a resolution of ppd / 256 pixels per degree. -/
def softValue (core soft n ppd : Nat) : Nat :=
  if n = 0 then core else if soft * ppd ≤ n * 1600 then 15 else core + (15 - core) * n * 1600 / (soft * ppd)

/-- What a box gives sample (i, j) (R270); its centre is at 64i + 24, 64j + 24 in 1/16 pixel. -/
def Box.sample (b : Box) (sg : SideGeom) (i j : Nat) : Nat :=
  let xc : Int := 64 * i + 24
  let yc : Int := 64 * j + 24
  let dx := (max 0 (max (b.e.xl - xc) (xc - b.e.xr))).toNat
  let dy := (max 0 (max (b.e.yt - yc) (yc - b.e.yb))).toNat
  if dy * sg.ppdH ≤ dx * sg.ppdV then softValue b.core b.soft dx sg.ppdH else softValue b.core b.soft dy sg.ppdV

/-- The cut-off's value of sample (i, j) (R277), with every term multiplied by 100 times the resolution. -/
def Dev.cutoffSample (d : Dev) (sg : SideGeom) (i j : Nat) : Nat :=
  let az := 100 * (sg.cx - 128 * (8 * (i : Int) + 3))
  let kink := d.parI kShtKinkAz 0 * sg.ppdH - 25600 * d.cmp.dx
  let kerb := if d.par kShtTrafficSide 0 = 0 then decide (az < kink) else decide (kink < az)
  let e := d.parI kShtCutoffEl 0 + if kerb then d.parI kShtCutoffRise 0 else 0
  let n := e * sg.ppdV - 25600 * d.cmp.dy - 100 * (sg.cy - 128 * (8 * (j : Int) + 3))
  let soft := d.par kShtCutoffSoft 0
  if n ≤ 0 then 0 else if (soft * sg.ppdV : Nat) ≤ n.toNat then 15 else 15 * n.toNat / (soft * sg.ppdV)

/-- The mask of a side: the blocked upper half while no geometry is valid (R263), else the least of what boxes and, in a
stale raster, the cut-off give. -/
def Dev.maskSamples (d : Dev) (s : Nat) (boxes : List Box) (stale : Bool) : List (BitVec 4) :=
  let r := d.row
  let sg := sideGeom d.sht.geometry s
  (List.range (r.fieldH / 4)).flatMap fun j => (List.range (r.sideW / 4)).map fun i =>
    BitVec.ofNat 4 <|
      if !d.sht.geomValid then (if j < r.fieldH / 8 then 0 else 15)
      else boxes.foldl (fun m b => min m (b.sample sg i j)) (if stale then d.cutoffSample sg i j else 15)

/-- A mask buffer as bytes, two samples to a byte (R271). -/
def maskBytes : List (BitVec 4) → List Byte
  | a :: b :: l => BitVec.ofNat 8 (a.toNat + 16 * b.toNat) :: maskBytes l
  | [a] => [BitVec.ofNat 8 a.toNat]
  | [] => []

/-- The footprint of R355: the samples that the unwidened boxes reach, clipped to the side; none when there is none. -/
def footprint (w h : Nat) (es : List Edges) : Option (Nat × Nat × Nat × Nat) :=
  match es with
  | [] => none
  | e :: rest =>
    let x0 := (rest.foldl (fun m e => min m e.xl) e.xl + 8) / 64
    let x1 := (rest.foldl (fun m e => max m e.xr) e.xr + 8) / 64
    let y0 := (rest.foldl (fun m e => min m e.yt) e.yt + 8) / 64
    let y1 := (rest.foldl (fun m e => max m e.yb) e.yb + 8) / 64
    if x1 < 0 ∨ (w : Int) ≤ x0 ∨ y1 < 0 ∨ (h : Int) ≤ y0 then none
    else some ((max 0 x0).toNat, (max 0 y0).toNat, (min (w - 1 : Int) x1).toNat, (min (h - 1 : Int) y1).toNat)

/-! ### Rasters (R264, R265) -/

/-- A running raster is abandoned without marking. -/
def Dev.abandonRaster (d : Dev) : Dev := { d with sht := { d.sht with raster := none } }

/-- No back buffer is marked ready. -/
def Dev.clearReady (d : Dev) : Dev := d.sides.foldl (fun d s => d.modMask s fun b => { b with ready := false }) d

/-- The footprint of a side takes part in the freeze detector when a list raster ends; until then it waits beside the mask. -/
def Dev.rasterCtx (d : Dev) (first : Bool) : RasterCtx :=
  let lost := d.veh.motionLost
  { emit := d.now + usTicks (d.par kShtEmitLead 0), predMax := d.par kShtPredMax 0,
    speed := if lost then 0 else d.veh.speed, yaw := if lost then 0 else d.veh.yaw, first := first,
    doubled := first || lost, right := d.free.toInt }

/-- The settings of SHT that wait come into force with a raster (R278). -/
def Dev.applySht (d : Dev) : Dev :=
  let keys := [kShtStaleMs, kShtStaleAction, kShtStaleHoldMs, kShtEmitLead, kShtRepredictMs, kShtPredMax, kShtConfMin, kShtCutoffEl,
    kShtCutoffRise, kShtKinkAz, kShtTrafficSide, kShtCutoffSoft]
  (keys.foldl (fun d k => d.applyVal (pid k 0)) d).applyArr (pid kShtClassMargin 0)

/-- A raster starts: the settings written before it apply, the ready marks go, and the back buffer of every side of the mode in
force is computed. Objects below CONF_MIN take no part (R261, log entry 130). -/
def Dev.startRaster (d : Dev) (kind : RasterKind) (l : Option ObjList) : Dev :=
  let d := d.applySht
  let objs := match l with | some l => l.objs.filter fun o => decide (d.par kShtConfMin 0 ≤ o.conf) | none => []
  let time := match l with | some l => l.time | none => 0
  let c := d.rasterCtx (l.any fun l => l.first)
  let d1 := d.modeSides.foldl (fun d s =>
    let (bs, es) := if d.sht.geomValid then d.boxes c s time objs else ([], [])
    let foot := footprint (d.row.sideW / 4) (d.row.fieldH / 4) es
    let m := d.maskSamples s bs (kind == .stale)
    d.modMask s fun b => { b with back := m, footBack := foot }) d.clearReady.drawn
  { d1 with sht := { d1.sht with
      raster := some { kind := kind, start := d.now, sides := d.modeSides },
      lastRastered := if kind = .stale then d1.sht.lastRastered else d.now,
      objectsRastered := objs.length } }

/-- The freeze detector at the end of a raster of a side (R355). -/
def Dev.judgeMask (d : Dev) (kind : RasterKind) (s : Nat) : Dev :=
  let b := d.seq.masks.get s
  let v := crc32 (maskBytes b.back)
  let d0 := d.modMask s fun b => { b with sigBack := v }
  if kind = .list then
    let expects := match d.sht.footprints.get s with
      | none => false
      | some old => old != b.footBack && (old.isSome || b.footBack.isSome)
    let n := if expects && v == d.sht.maskSig.get s then d.sht.frozen.get s + 1 else 0
    let d1 := { d0 with sht := { d0.sht with
      footprints := d0.sht.footprints.set s (some b.footBack), maskSig := d0.sht.maskSig.set s v,
      frozen := d0.sht.frozen.set s n } }
    if expects ∧ v = d.sht.maskSig.get s ∧ d.par kSafFreezeNMask 0 ≤ n then d1.raise 0x0C03 s s else d1
  else { d0 with sht := { d0.sht with maskSig := d0.sht.maskSig.set s v } }

/-- A pending list starts when the running raster has ended. -/
def Dev.startPending (d : Dev) : Dev :=
  match d.sht.pending with
  | none => d
  | some l => ({ d with sht := { d.sht with pending := none } }).startRaster .list (some l)

/-- A raster ends: its sides' back buffers are ready together under the next generation (R264). -/
def Dev.endRaster (d : Dev) (ticks : Nat) : Dev :=
  match d.sht.raster with
  | none => d
  | some r =>
    let gen := (d.sht.generation + 1) % 65536
    let d1 := { d with sht := { d.sht with raster := none, generation := gen } }
    let d2 := r.sides.foldl (fun d s => (d.modMask s fun b => { b with ready := true, genBack := gen }).judgeMask r.kind s) d1
    let longest := min 0xFFFF ticks
    let d3 := if d2.par kShtRasterTimeMax 0 < longest then d2.setPar kShtRasterTimeMax 0 longest else d2
    d3.startPending

/-- A raster has not ended 100 µs after its start: abandoned, counted and raised with the generation it would have had. Before
that time nothing is overdue (log entry 133). -/
def Dev.rasterOverdue (d : Dev) : Dev :=
  match d.sht.raster with
  | none => d
  | some r => if d.now < r.start + usTicks 100 then d else
    ((d.abandonRaster.count kShtRasterTimeout 0 1).raise 0x0805 0 ((d.sht.generation + 1) % 65536)).startPending

/-- At a refresh boundary a repredict raster starts when the newest list's last raster is old enough (R264, R274). -/
def Dev.repredict (d : Dev) : Dev :=
  let ms := d.par kShtRepredictMs 0
  match d.sht.newest with
  | some l =>
    if (d.sht.state = .first ∨ d.sht.state = .normal) ∧ d.sht.raster.isNone ∧ ms ≠ 0 ∧ d.sht.lastRastered + msTicks ms < d.now then
      d.startRaster .repredict (some l)
    else d
  | none => d

/-- A stale raster starts, in place of one that runs. -/
def Dev.staleRaster (d : Dev) : Dev := d.abandonRaster.startRaster .stale none

/-! ### Acceptance and states (Table 11-7) -/

/-- The list raster of an accepted list: at once, in place of a repredict or stale raster; or pending behind a list raster. -/
def Dev.rasterList (d : Dev) (l : ObjList) : Dev :=
  match d.sht.raster with
  | some { kind := .list, .. } =>
    let d1 := if d.sht.pending.isSome then d.count kShtListsSkipped 0 1 else d
    { d1 with sht := { d1.sht with pending := some l } }
  | _ => d.abandonRaster.startRaster .list (some l)

/-- CONF_MIN as the next raster takes it. -/
def Dev.confMin (d : Dev) : Nat := ((d.stagedVal kShtConfMin 0).getD (d.parI kShtConfMin 0)).toNat

/-- A list that passed its checks (R261, log entry 130). -/
def Dev.acceptList (d : Dev) (b : List Byte) : Dev :=
  let objs := parseObjs b
  let low := objs.filter fun o => decide (o.conf < d.confMin)
  let bad := objs.filter Obj.invalid
  let d1 := ((d.count kShtListsAccepted 0 1).count kShtObjIgnored 0 low.length).count kShtObjInvalid 0 bad.length
  let l : ObjList := { time := leField b 0 8, count := byteAt b 8, first := d.sht.state != .normal,
                       objs := objs.filter fun o => !o.invalid }
  let d2 := match d.sht.state with
    | .first =>
      let seen := min 3 (d.sht.listsSeen + 1)
      { d1 with sht := { d1.sht with listsSeen := seen, state := if seen = 3 then .normal else .first } }
    | .normal => d1
    | _ => ({ d1 with sht := { d1.sht with state := .first, listsSeen := 1 } }).post 0x0802 l.count
  ({ d2 with sht := { d2.sht with newest := some l } }).rasterList l

/-- A list is handed over (R258, R260). The answer's second part says whether a mailbox list completes with OK. -/
def Dev.handList (d : Dev) (path : Nat) (b : List Byte) : Dev × Bool :=
  if d.core.state = .standby ∨ d.core.state = .beam ∨ d.core.state = .degraded then
    match d.listReason b with
    | 0 => (d.acceptList b, true)
    | r =>
      let c := if r = 1 then kShtListFormatErr else if r = 4 then kShtListTooOld else kShtListTimeErr
      ((d.count c 0 1).post 0x0803 (r + 16 * path), false)
  else (d, true)

/-- The age exceeds STALE_MS. -/
def Dev.listsStale (d : Dev) : Bool :=
  (d.sht.state == .first || d.sht.state == .normal) &&
  d.sht.newest.any fun l => decide (l.time + msTicks (d.par kShtStaleMs 0) < d.now)

/-- A pending list that is too old is skipped (log entry 131). -/
def Dev.skipPending (d : Dev) : Dev :=
  if d.sht.pending.isSome then { d with sht := { d.sht with pending := none } }.count kShtListsSkipped 0 1 else d

/-- Entry to a stale state (Table 11-7). -/
def Dev.goStale (d : Dev) : Dev :=
  if d.listsStale then
    let action := d.par kShtStaleAction 0
    let age := d.now - (match d.sht.newest with | some l => l.time | none => 0)
    let d1 := ((d.post 0x0801 (min 0xFFFF (age / 100000) + 0x10000 * action)).count kShtStaleEntries 0 1).skipPending
    if action = 1 then
      let d2 := d1.abandonRaster.clearReady
      { d2 with sht := { d2.sht with state := .staleHold, holdFrom := d2.now } }
    else ({ d1 with sht := { d1.sht with state := .stale } }).staleRaster
  else d

/-- STALE_HOLD_MS after entry the hold ends (Table 11-7). -/
def Dev.holdEnds (d : Dev) : Dev :=
  if d.sht.state = .staleHold ∧ d.sht.holdFrom + msTicks (d.par kShtStaleHoldMs 0) ≤ d.now then
    ({ d with sht := { d.sht with state := .stale } }).staleRaster else d

/-- In STALE the stale raster repeats when the offset has changed (R274). -/
def Dev.restale (d : Dev) (old : Int × Int) : Dev :=
  if d.sht.state = .stale ∧ (d.cmp.dx, d.cmp.dy) ≠ old then d.staleRaster else d

/-- BOOT begins (Table 11-7): INIT, with the geometry of the NOR mirror (R263). -/
def Dev.bootShutter (d : Dev) : Dev :=
  let ok := d.nor.geometryCheck && d.nor.geometry.isSome
  ({ d with sht := { Shutter.reset with
      geometry := if ok then d.nor.geometry.getD [] else List.replicate 64 0, geomValid := ok } }).staleRaster

/-- The masks of the stale raster of BOOT are formed again on the grid of the mode selected at STANDBY entry, since BOOT
starts it before the arrays are identified (log entry 28). -/
def Dev.reformMasks (d : Dev) : Dev :=
  match d.sht.state with
  | .init =>
    let gen := d.sht.generation
    d.modeSides.foldl (fun d s => d.modMask s fun b => { b with
      back := d.maskSamples s [] true, front := [], ready := d.sht.raster.isNone, genBack := gen }) d
  | _ => d

/-- A valid geometry record is stored and mirrored (R262). -/
def Dev.storeGeometry (d : Dev) (g : List Byte) : Dev :=
  { d with
    sht := { d.sht with geometry := g, geomValid := true },
    nor := { d.nor with geometry := some g, geometryCheck := true } }

end Sys2Proof.Machine
end

