-- ==== Sys2Proof/Machine/BeamOps.lean ====
section
/-! DEFINITION. Device states and the beam: changes of DEV_STATE (Table 1-7), the request in force (R116, R117), beam on and off
(R297, R301), the mode in force and its changes (R194, R198 to R204, R210), and STANDBY entry. -/

namespace Sys2Proof.Machine

open Sys2Proof

/-! ### Update session (R128) -/

/-- Opcodes of the update commands. -/
def isFwOpcode (op : Nat) : Bool := op == 0x1101 || op == 0x1102 || op == 0x1103

/-- The open session closes: its command ends with STATE_OVERRIDDEN and the image region stays invalid. -/
def Dev.closeSession (d : Dev) : Dev :=
  if d.upd.session.isNone ∧ !d.upd.erasing then d
  else
    let cmds := [0x1101, 0x1102, 0x1103].flatMap d.waitingOf
    let d1 := { d with upd := { Update.reset with restartDue := d.upd.restartDue, dirWaiting := d.upd.dirWaiting } }
    cmds.foldl (fun d c => d.finishWith c.1 c.2.tag stOverridden) (d1.release (.erase .image))

/-- DEV_STATE changes; a session closes with it (R128). -/
def Dev.goTo (d : Dev) (new : DevState) (cause : Nat) : Dev := (d.setState new cause).closeSession

/-! ### The mode in force -/

/-- A family (R193): F1 to F6, and the family of the test modes. -/
def Dev.familyOf (d : Dev) (m : Nat) : Nat := if isTestMode m then 0x0F else (d.rowOf m).family

/-- The mask in force carries over, or becomes all ones where it would remove every beam slot (R204); a recorded mask due at the
same boundary takes its place (R119). -/
def Dev.carryMask (d : Dev) (m : Nat) : Dev :=
  if maskKeeps (d.rowOf m) d.seq.maskInForce ∨ (d.seq.maskRecorded.isSome ∧ d.core.state ≠ .standby) then d
  else ({ d with seq := { d.seq with maskInForce := 0xFFFFFFFF } }).post 0x0004 0xFFFFFFFF

/-- Leaving a test mode, the front buffers hold its test frame (R198). -/
def Dev.keepTestFrame (d : Dev) (m : Nat) : Dev :=
  if isTestMode d.core.mode ∧ !isTestMode m then
    d.modeSides.foldl (fun d s =>
      let f := d.testFrame s
      d.modPipe s fun p => { p with front := f, frontTap := f }) d
  else d

/-- The camera lock over a mode change (R208, Table 8-4): another nominal refresh rate frees it. -/
def Dev.camModeChange (d : Dev) (m : Nat) : Dev :=
  let r := d.rowOf m
  if r.refresh = (d.rowOf d.core.mode).refresh ∧ d.core.modeValid then d
  else
    let lost := 2 ≤ d.cam.state
    { d with
      cam := { d.cam with
        state := if lost then 1 else d.cam.state, reference := if lost then none else d.cam.reference,
        period3 := 2 * r.refreshCycles, validRun := 0, periods := [], winRun := 0 }
      clk := { d.clk with phaseTarget := if lost then 0 else d.clk.phaseTarget } }

/-! ### The request in force (R116, R117) -/

/-- The request that the inputs choose, and where it comes from (Table 5-12). -/
def Dev.chosenReq (d : Dev) : Nat × Nat :=
  let can := (d.req.can, if d.req.canLoss then 2 else 0)
  let mbx := (d.req.mailbox, 1)
  if isTestMode d.core.mode then mbx
  else match d.par kDevBeamSource 0 with
    | 0 => can
    | 1 => mbx
    | _ => if d.req.mailboxNewest then mbx else can

/-- The request in force follows its inputs: BEAM_REQ_CHANGED, and the BEAM_ENABLE commands it overrides; one other than 0 closes
an update session (R128). -/
def Dev.rechoose (d : Dev) : Dev :=
  let (v, src) := d.chosenReq
  if v = d.req.inForce then d
  else
    let d1 := ({ d with req := { d.req with inForce := v } }).post 0x0003 (v + 8 * src)
    let displaced := (d1.waitingOf 0x0006).filter fun c => byteAt c.2.payload 0 != v
    let d2 : Dev := displaced.foldl (fun (d : Dev) (c : Port × Cmd) => d.finishWith c.1 c.2.tag stOverridden) d1
    if v = 0 then d2 else d2.closeSession

/-! ### Taking a mode -/

/-- A mode comes into force, with the request that it selects (R210); after a bridge the camera and the front buffers have followed
it already. -/
def Dev.takeMode (d : Dev) (m : Nat) (bridged : Bool) : Dev :=
  let d1 := if bridged then d else (d.keepTestFrame m).camModeChange m
  let base := if !isTestMode m then m else if isTestMode d.core.mode || !d.core.modeValid then d.core.baseMode else d.core.mode
  let d2 := { d1 with core := { d1.core with mode := m, baseMode := base, modeValid := true } }
  ((d2.carryMask m).rectsModeChange (d2.rowOf m)).rechoose

/-- A mode change takes effect: MODE_CHANGED is posted and counted (R202). -/
def Dev.changeMode (d : Dev) (m : Nat) (bridged : Bool) : Dev :=
  let prev := d.core.mode
  ((d.takeMode m bridged).count kDevModeChanges 0 1).post 0x0002 (m + 256 * prev + 0x10000 * b2n bridged)

/-- The slots of a mode selected outside a running refresh start with the next refresh boundary; a pass of the old mode ends
without being counted. -/
def Dev.restartTimeline (d : Dev) : Dev :=
  d.sides.foldl (fun d s => d.dropPass s) { d with seq := { d.seq with
    started := false, boundaryOpen := false, resetDue := false, refreshInCycle := 0, refreshInFrame := 0, frameDue := false,
    dither := 0,
    words := both [], loading := both none, checking := both none } }

/-! ### Mode changes outside BEAM -/

/-- Side R as a change to the mode needs it (Table 8-3): PARKED from a single-side to a two-sided family, unpowered the other way;
other changes in STANDBY do not wait for it. -/
def Dev.sideRFits (d : Dev) (m : Nat) : Bool :=
  if !d.dual || isTestMode m || isTestMode d.core.mode || (d.rowOf m).dual == (d.rowOf d.core.mode).dual then true
  else if (d.rowOf m).dual then (d.mport 1).state == .parked
  else !(d.mport 1).pwrEn

/-- Side R is brought to what the mode needs. -/
def Dev.moveSideR (d : Dev) (m : Nat) : Dev :=
  if !d.dual then d else if (d.rowOf m).dual then d.powerUp 1 else d.powerDown 1

/-- Side R has no array to power up, or it failed its identification, after which it is powered down (R255). -/
def Dev.sideRDead (d : Dev) : Bool :=
  (d.mport 1).state == .absent || (d.mport 1).state == .fault || d.faultActive 0x0708 1

/-- The change of a SELECT_MODE in STANDBY is complete. -/
def Dev.selectNow (d : Dev) (m : Nat) (p : Port) (tag : Nat) : Dev :=
  let d1 := { d with seq := { d.seq with change := .none_ } }
  let d2 := if m = d.core.mode then d1 else (d1.changeMode m false).restartTimeline
  d2.finish p tag stOk []

/-- A pending change of STANDBY is in force once side R is as it needs; it fails when side R ends in FAULT or ABSENT. -/
def Dev.settleMode (d : Dev) : Dev :=
  match d.core.state, d.seq.change with
  | .standby, .pending m p tag _ =>
    if d.sideRFits m then d.selectNow m p tag
    else if (d.rowOf m).dual ∧ d.sideRDead then
      ({ d with seq := { d.seq with change := .none_ } }).finishWith p tag stOverridden
    else d
  | _, _ => d

/-- A pending change that another replaces ends with STATE_OVERRIDDEN (R118). -/
def Dev.dropChange (d : Dev) : Dev :=
  match d.seq.change with
  | .pending _ p tag _ => ({ d with seq := { d.seq with change := .none_ } }).finishWith p tag stOverridden
  | _ => d

/-! ### Beam on (R297, Table 12-6) -/

/-- A test mode ends its beam when speed no longer counts as zero (R210). -/
def Dev.testStops (d : Dev) : Bool := isTestMode d.core.mode && !d.speedZero

/-- STANDBY moves to BEAM (Table 1-7, R359): a request, a mode, no SIDE or DEV fault, no mode change waiting for side R, and
every side of the mode PARKED. -/
def Dev.beamDue (d : Dev) : Bool :=
  d.core.state == .standby && d.core.modeValid && d.req.inForce != 0 && !d.testStops && !d.sideOrDevActive &&
  (match d.seq.change with | .none_ => true | _ => false) && d.modeSides.all fun s => (d.mport s).state == .parked

/-- The decision to enter BEAM: the boosts of every side of the mode ask for their tickets. -/
def Dev.beamOn (d : Dev) : Dev :=
  let d1 := d.goTo .beam 0
  let d2 := { d1 with core := { d1.core with releaseStage := releaseBoosts, rampingDown := false, beamReady := false } }
  d2.modeSides.foldl (fun d s => d.startBoost s) d2

/-- Every boost of the mode is in RUN, which the release waits for (R297). -/
def Dev.boostsRun (d : Dev) : Bool := d.modeSides.all fun s => (d.lside s).boost == .run

/-- Every boost of the mode in RUN: the ignition ticket is asked for (R297). -/
def Dev.boostsReady (d : Dev) : Dev :=
  if d.core.releaseStage = releaseBoosts ∧ d.core.state = .beam ∧ d.boostsRun then
    ({ d with core := { d.core with releaseStage := releaseTickets } }).request .ignition
  else d

/-- What may follow from any change while in STANDBY. -/
def Dev.settle (d : Dev) : Dev :=
  let d1 := d.settleMode
  if d1.beamDue then d1.beamOn else d1

/-! ### STANDBY, and beam off (R301, R365, R201) -/

/-- A pending mode is put in force at STANDBY entry (R201); side R follows. -/
def Dev.putInForce (d : Dev) (m : Nat) (p : Port) (tag : Nat) : Dev :=
  let d1 := { d with seq := { d.seq with change := .none_ } }
  ((if m = d.core.mode then d1 else (d1.changeMode m false).restartTimeline.moveSideR m)).finish p tag stOk []

/-- A mode change pending in BEAM or DEGRADED at STANDBY entry is put in force; a bridged one that has begun stays in force, and
one that waits behind it is put in force after it (R118, R201). -/
def Dev.changeAtStandby (d : Dev) : Dev :=
  match d.seq.change with
  | .none_ => d
  | .pending m p tag _ => d.putInForce m p tag
  | .bridging m p tag _ behind =>
    let d1 := ((({ d with seq := { d.seq with change := .none_ } }).changeMode m true).restartTimeline).finish p tag stOk []
    match behind with
    | some (n, q, t) => d1.putInForce n q t
    | none => d1

/-- The camera state at STANDBY entry after a PLL-Q relock is FREE when a camera is selected (R394). -/
def Dev.freeCam (d : Dev) : Dev :=
  if !d.cam.freeDue then d
  else if d.par kMstCamSel 0 = 0 then { d with cam := { d.cam with freeDue := false } }
  else { d with cam := { d.cam with freeDue := false, state := 1, reference := none, validRun := 0, periods := [], winRun := 0 } }

/-- What every STANDBY entry brings: links step to their ceilings (R33, R58), and the directory keeps room (R429). -/
def Dev.standbyEntered (d : Dev) : Dev := (d.linkIds.foldl (fun d l => d.askStep l) d).dirRoom

/-- DEV_STATE goes to STANDBY from BEAM, DEGRADED or SAFE: currents 0 A, boosts stopped, sides parked, SAFE_LAMP_N low, and the
safe state of the sides over. -/
def Dev.enterStandby (d : Dev) : Dev :=
  let dark (d : Dev) (s : Nat) : Dev :=
    let d1 := (((d.zeroWords s).stopBoost s).darkSide s).modLside s fun p => { p with r := 0, rRamp := none, ignited := false }
    d1.modMportEv s fun p => p.park false
  let d1 := ((d.sides.foldl dark d).release .ignition).release .globalReset
  let d2 := { d1 with
    core := { d1.core with rampingDown := false, testEnded := false, releaseStage := releaseNone, beamReady := false }
    saf := { d1.saf with safeSides := both false, safePending := none, safeLamp := false } }
  (((d2.goTo .standby 0).reqEffective 0).freeCam.changeAtStandby).standbyEntered

/-- A request of 0, or the end of a test: the sides ramp down; without currents STANDBY follows at once. A change to SAFE or
DEGRADED on its way comes first (Table 1-7, R17); DEGRADED then ramps down in its turn. -/
def Dev.beamOff (d : Dev) : Dev :=
  if d.core.rampingDown then d
  else
    let lit := d.modeSides.filter fun s => d.seq.projecting.get s
    if lit.isEmpty ∧ d.saf.safePending.isNone then d.enterStandby
    else lit.foldl (fun d s => d.rampR s 0 true) { d with core := { d.core with rampingDown := true } }

/-- A request other than 0 during the ramp down: the sides ramp up from the r in force, unless the ramp ends a test beam (R210). -/
def Dev.beamBack (d : Dev) : Dev :=
  if d.core.rampingDown ∧ !d.core.testEnded then
    (d.modeSides.filter fun s => d.seq.projecting.get s).foldl (fun d s => d.rampR s 65535 true)
      { d with core := { d.core with rampingDown := false } }
  else d

/-- The lowest-numbered mode that the device can run, and DEFAULT_MODE if it can (R194). -/
def Dev.defaultMode (d : Dev) : Option Nat :=
  let m := d.par kDevDefaultMode 0
  if d.runnable m ∨ (isTestMode m ∧ d.runnable d.core.baseMode) then some m
  else (modeTable.find? fun r => d.runnable r.mode).map ModeRow.mode

/-- DEFAULT_MODE is selected on a later return to STANDBY (R194, R210). -/
def Dev.selectDefault (d : Dev) : Dev :=
  match d.defaultMode with
  | none => d
  | some m =>
    let d1 := if m = d.par kDevDefaultMode 0 then d else d.post 0x0613 (d.par kDevDefaultMode 0 + 256 * m)
    if m = d1.core.mode then d1 else ((d1.changeMode m false).restartTimeline).moveSideR m

/-- The end of the ramp down at a refresh boundary (R365): STANDBY, and the default mode after a test that speed ended. -/
def Dev.beamOffDone (d : Dev) : Dev :=
  let test := d.testStops || d.core.testEnded
  let d1 := d.enterStandby
  if test then d1.selectDefault else d1

/-! ### Requests -/

/-- The beam follows a change of the request in force from an old one. -/
def Dev.followReq (d : Dev) (old : Nat) : Dev :=
  if d.req.inForce ≠ old ∧ (d.core.state = .beam ∨ d.core.state = .degraded) then
    (if d.req.inForce = 0 then d.beamOff else d.beamBack)
  else d

/-- The request in force follows its inputs, and the beam follows it (R116, R117). -/
def Dev.updateReq (d : Dev) : Dev := d.rechoose.followReq d.req.inForce

/-- Speed or the request may end a test beam, or let one go on (R210). -/
def Dev.speedChanged (d : Dev) : Dev :=
  let d1 := if d.speedZero || d.core.acornService then d else d.closeSession
  if d1.testStops ∧ (d1.core.state = .beam ∨ d1.core.state = .degraded) then
    let d2 : Dev := { d1 with core := { d1.core with testEnded := true } }
    (if d2.modeSides.any fun s => d2.seq.projecting.get s then d2.beamOff else d2.beamOffDone)
  else d1

/-- A valid VEH_BEAM (R93, R116). -/
def Dev.canRequest (d : Dev) (v : Nat) (first : Bool) : Dev :=
  let change := first || v != d.veh.beamReq
  let d1 := { d with
    veh := { d.veh with beamReq := v }
    req := { d.req with can := v, canLoss := false, mailboxNewest := d.req.mailboxNewest && !change } }
  d1.updateReq.settle

/-- VEH_BEAM is lost: the CAN request takes the value of VEH_LOSS_BEAM. -/
def Dev.canRequestLost (d : Dev) : Dev :=
  if d.par kDevVehLossBeam 0 = 1 ∧ 1 < d.req.can then
    ({ d with req := { d.req with can := 1, canLoss := true, mailboxNewest := false } }).updateReq.settle
  else d

/-- BEAM_ENABLE at its execution (R117, R210). In SAFE and STANDBY a request other than 0 closes an update session. -/
def Dev.beamEnableCmd (d : Dev) (p : Port) (tag req : Nat) : Dev :=
  let test := isTestMode d.core.mode
  let cls := p.classBit
  if test ∧ (cls ≤ 2 ∨ (req ≠ 0 ∧ !d.speedZero)) then d.finishWith p tag stOverridden
  else
    let d0 := if req ≠ 0 ∧ (d.core.state = .safe ∨ d.core.state = .standby) then d.closeSession else d
    let d1 := { d0 with req := { d0.req with mailbox := req, mailboxNewest := true } }.updateReq
    if req ≠ 0 ∧ d.core.state = .safe then d1.finishWith p tag stOverridden
    else if !test ∧ d.par kDevBeamSource 0 = 0 then (d1.finish p tag stOk []).settle
    else if d1.req.inForce = req ∧ d1.req.effective = req ∧ !d1.core.rampingDown then (d1.finish p tag stOk []).settle
    else (d1.waits p tag).settle

/-! ### SAFE -/

/-- A mode change on its way ends: a pending one is overridden, a bridged one has its mode in force. -/
def Dev.endChange (d : Dev) : Dev :=
  let d1 := { d with seq := { d.seq with change := .none_ } }
  match d.seq.change with
  | .none_ => d
  | .pending _ p tag _ => d1.finishWith p tag stOverridden
  | .bridging m p tag _ behind =>
    let d2 := ((d1.changeMode m true).restartTimeline).finish p tag stOk []
    match behind with
    | some (_, q, t) => d2.finishWith q t stOverridden
    | none => d2

/-- DEV_STATE goes to SAFE (R117, R160, R201, Table 14-6): what waited for the beam or for a mode ends, passes stop, and the matrix
targets go blank. -/
def Dev.enterSafeState (d : Dev) (cause : Nat) : Dev :=
  let d0 := { d with core := { d.core with
    rampingDown := false, testEnded := false, releaseStage := releaseNone, beamReady := false } }
  let d1 := (d0.goTo .safe cause).mxBlank.stopPasses
  ((d1.waitingOf 0x0006).foldl (fun (d : Dev) (c : Port × Cmd) => d.finishWith c.1 c.2.tag stOverridden)
    { d1 with req := { d1.req with effective := 0 } }).endChange

/-- SAFE ends: the last SIDE or DEV cause has been cleared (Table 1-7, R363). -/
def Dev.leaveSafe (d : Dev) : Dev :=
  if d.core.state = .safe ∧ !d.core.acornService ∧ !d.sideOrDevActive then d.enterStandby.settle else d

end Sys2Proof.Machine
end

