-- ==== Sys2Proof/Machine/JournalOps.lean ====
section
/-! DEFINITION. The projection journal (chapter 16): records (R371, R372), segments, seals and links (R373, R374), ring and NOR
(R375, R376), erasing ahead (R377), failures and gaps (R378), the hold-up sequence (R380, R381), and the checks of R126. -/

namespace Sys2Proof.Machine

open Sys2Proof

/-- Record types (Table 16-1). -/
def recPeriodic : Nat := 1
def recBoot : Nat := 2
def recClosing : Nat := 3
def recSeal : Nat := 4

/-- A journal entry number is counted modulo 2³². -/
def entryMod (n : Nat) : Nat := n % 0x100000000

/-! ### Fields of a record -/

def recEntry (r : List Byte) : Nat := leField r 0 4
def recSegment (r : List Byte) : Nat := leField r 4 4
def recType (r : List Byte) : Nat := byteAt r 20
def recLink (r : List Byte) : List Byte := r.drop 120

/-- The link to a record (R374). -/
def linkOf (r : List Byte) : List Byte := (sha256 r).take 8

/-! ### Where records are (R375, R376, R426) -/

/-- The capacity N of the journal region in entries. -/
def Dev.journalN (d : Dev) : Nat := (d.nor.density - 0xC00000) / 128

def Dev.norSlot (d : Dev) (e : Nat) : Nat := e % d.journalN

/-- Entry e as NOR holds it. -/
def Dev.norEntry (d : Dev) (e : Nat) : Option (List Byte) :=
  (kvGet d.nor.journal (d.norSlot e)).bind fun r => if recEntry r = e then some r else none

def Dev.ringEntry (d : Dev) (e : Nat) : Option (List Byte) := (d.jnl.ring.reverse.find? fun r => r.entry == e).map JRec.bytes

/-- Entry e from the ring when it is there, from NOR otherwise. -/
def Dev.entryOf (d : Dev) (e : Nat) : Option (List Byte) := (d.ringEntry e).or (d.norEntry e)

/-- The newer of two entry numbers, modulo 2³². -/
def newerEntry (a b : Nat) : Nat := if entryMod (b + 0x100000000 - a) < 0x80000000 then b else a

/-- The newest and the oldest entry in NOR. -/
def Dev.norNewest (d : Dev) : Option Nat :=
  match d.nor.journal.map fun r => recEntry r.2 with
  | [] => none
  | e :: es => some (es.foldl newerEntry e)

def Dev.norOldest (d : Dev) : Option Nat :=
  match d.nor.journal.map fun r => recEntry r.2 with
  | [] => none
  | e :: es => some (es.foldl (fun a b => if newerEntry a b = a then b else a) e)

/-- The record before the next one: the newest of the ring, else of NOR. -/
def Dev.lastRecord (d : Dev) : Option (List Byte) :=
  match d.jnl.ring.getLast? with
  | some r => some r.bytes
  | none => d.norNewest.bind d.norEntry

/-! ### Forming records (Tables 16-1 and 16-2) -/

/-- Bytes 0 to 23, with the entry number that the record takes. -/
def Dev.recHead (d : Dev) (type : Nat) : List Byte :=
  leBytes 4 d.jnl.next ++ leBytes 4 d.jnl.segment ++ leBytes 8 d.now ++ leBytes 4 d.seq.refreshCount ++ leBytes 1 type ++
  leBytes 1 (d.core.state.code + 16 * d.lit) ++ leBytes 1 d.core.mode ++ leBytes 1 d.req.inForce

/-- COVER of a side. -/
def Dev.coverOf (d : Dev) (s : Nat) : Nat :=
  let m := (d.seq.masks.get s).front
  if d.maskOn s ∧ m ≠ [] then (m.filter fun v => v != 15).length * 65535 / m.length else 0

/-- I_AVG of a channel: 0 where it is absent or unused. -/
def Dev.iAvg (d : Dev) (c : Nat) : Nat :=
  let ch := d.chan c
  if !d.chans.contains c ∨ d.primary c = 3 ∨ ch.jCount = 0 then 0 else min 0xFFFF (roundHalfUp ch.jSum ch.jCount).toNat

/-- Bytes 24 to 119 of a periodic or closing record. -/
def Dev.recBody (d : Dev) (dropped : Nat) : List Byte :=
  let a := d.jnl.acc
  let flags := b2n a.shortened + 2 * b2n a.camLocked + 4 * b2n a.withheld + 8 * b2n a.stale + 16 * b2n a.firstList
  let two (p : Pair (BitVec 32)) : List Byte := leBytes 4 p.fst.toNat ++ leBytes 4 p.snd.toNat
  leBytes 1 (d.patShown 0) ++ leBytes 1 (d.patShown 1) ++ leBytes 1 (min 255 a.refreshes) ++ leBytes 1 flags ++
  leBytes 4 d.seq.maskInForce.toNat ++ two d.saf.frontSig ++
  leBytes 4 d.saf.planeAgg.fst.toNat ++ leBytes 4 d.saf.planeExp.fst.toNat ++
  leBytes 4 d.saf.planeAgg.snd.toNat ++ leBytes 4 d.saf.planeExp.snd.toNat ++
  leBytes 1 (min 15 a.unverified.fst + 16 * min 15 a.unverified.snd) ++ leBytes 1 d.maskFlags ++
  leBytes 2 d.seq.masks.fst.genFront ++ leBytes 2 d.seq.masks.snd.genFront ++ leBytes 2 0 ++
  two ⟨d.seq.masks.fst.sigFront, d.seq.masks.snd.sigFront⟩ ++ leBytes 2 (d.coverOf 0) ++
  leBytes 2 (if d.dual then d.coverOf 1 else 0) ++ leBytes 1 (match d.sht.newest with | some l => l.count | none => 0) ++
  leBytes 1 d.sht.state.code ++ leBytes 2 d.lamp.d ++ ((List.range 12).flatMap fun c => leBytes 2 (d.iAvg c)) ++
  leBytes 4 d.faultUnits ++ leBytes 2 d.core.lastCause ++ leBytes 1 (min 255 a.newFaults) ++ leBytes 1 (min 255 dropped) ++
  (match a.firstFault with
   | some (code, inst, r) => leBytes 2 code ++ leBytes 1 inst ++ leBytes 1 r.code
   | none => leBytes 4 0) ++
  leBytes 2 (code 16 d.thm.tDie) ++ leBytes 2 (min 0xFFFF d.vbatMv)

/-- The interval ends: what it gathered starts again. -/
def Dev.closeInterval (d : Dev) : Dev :=
  { d with
    jnl := { d.jnl with acc := JAcc.reset }
    lamp := { d.lamp with chans := d.lamp.chans.map fun (c : Chan) => { c with jSum := 0, jCount := 0 } } }

/-- A record takes the next entry number and its link, and goes to the ring of 3,840 and the pending list. A pending record that
the ring overwrites is lost (R378). -/
def Dev.addRecord (d : Dev) (first120 : List Byte) : Dev :=
  let link := match d.lastRecord with | some r => linkOf r | none => List.replicate 8 0
  let e := d.jnl.next
  let ring := d.jnl.ring ++ [{ entry := e, bytes := first120 ++ link }]
  let extra := ring.take (ring.length - 3840)
  let gone := (extra.filter fun r => d.jnl.pending.contains r.entry).length
  let d1 := { d with jnl := { d.jnl with
    next := entryMod (e + 1), ring := ring.drop (ring.length - 3840),
    pending := d.jnl.pending.filter (fun p => !extra.any fun r => r.entry == p) ++ [e],
    segCount := d.jnl.segCount + 1, lost := d.jnl.lost + gone } }
  if gone = 0 then d1 else d1.count kJnlJnlLost 0 gone

/-! ### Segments (R373) -/

/-- The records of entries first to last. -/
def Dev.recordsOf (d : Dev) (first last : Nat) : List (Option (List Byte)) :=
  (List.range (entryMod (last + 1 + 0x100000000 - first))).map fun k => d.entryOf (entryMod (first + k))

/-- DIGEST extra the records held from first to last. -/
def Dev.digestOf (d : Dev) (first last : Nat) : List Byte := sha256 ((d.recordsOf first last).filterMap id).flatten

/-- The open segment is sealed and the next one opens (R373). -/
def Dev.sealSegment (d : Dev) (reason : Nat) : Dev :=
  let first := d.jnl.segFirst
  let last := entryMod (d.jnl.next + 0xFFFFFFFF)
  let body := d.digestOf first last ++ leBytes 4 first ++ leBytes 4 last ++ leBytes 1 reason ++ List.replicate 55 0
  let d1 := d.addRecord (d.recHead recSeal ++ body)
  { d1 with jnl := { d1.jnl with
      segment := entryMod (d1.jnl.segment + 1), segFirst := d1.jnl.next, segCount := 0,
      segLimit := d1.par kJnlSegEntries 0 } }

/-- The opening entry of the segment that entry e belongs to, walking back while records of it are held. -/
def Dev.segStart (d : Dev) (seg : Nat) : Nat → Nat → Nat
  | 0, e => e
  | n + 1, e =>
    match d.entryOf (entryMod (e + 0xFFFFFFFF)) with
    | some r => if recSegment r = seg then d.segStart seg n (entryMod (e + 0xFFFFFFFF)) else e
    | none => e

/-- The seal record of a segment, walking on from entry e. -/
def Dev.sealOf (d : Dev) (seg : Nat) : Nat → Nat → Option (List Byte)
  | 0, _ => none
  | n + 1, e =>
    match d.entryOf e with
    | some r => if recSegment r ≠ seg then none else if recType r = recSeal then some r else d.sealOf seg n (entryMod (e + 1))
    | none => none

/-! ### Flush (R376, R378) -/

/-- The pending records of the page in hand: those that share the 256-byte page of the first. -/
def Dev.pageInHand (d : Dev) : List Nat :=
  match d.jnl.pending with
  | [] => []
  | e :: _ => d.jnl.pending.takeWhile fun p => d.norSlot p / 2 == d.norSlot e / 2

/-- The page in hand lies where a record still stands. -/
def Dev.pageBlocked (d : Dev) : Bool := d.pageInHand.any fun e => (kvGet d.nor.journal (d.norSlot e)).isSome

/-- The sectors that are to be erased: that of the page in hand where a record still stands, and of the two ahead of the write
position those that are not erased (R377). -/
def Dev.dirtySectors (d : Dev) : List Nat :=
  let total := d.journalN / 32
  let w := d.norSlot d.jnl.next
  let start := if w % 32 = 0 then w / 32 else w / 32 + 1
  (if d.pageBlocked then (d.pageInHand.take 1).map fun e => d.norSlot e / 32 else []) ++
  ([start % total, (start + 1) % total]).filter fun s => d.nor.journal.any fun r => r.1 / 32 == s

/-- JOURNAL_SEAL commands that wait end with a status; their segments are still sealed (R126). -/
def Dev.failSeals (d : Dev) (status : Nat) : Dev :=
  d.jnl.seals.foldl (fun d w => d.finishWith w.2.1 w.2.2 status) { d with jnl := { d.jnl with seals := [] } }

/-- A sector ahead that is not erased asks for its ticket; a denial ends waiting JOURNAL_SEAL commands (R126, R377). -/
def Dev.eraseAhead (d : Dev) : Dev :=
  if d.dirtySectors.isEmpty ∨ !d.jnl.isOpen then d
  else
    let d1 := d.request (.erase .journal)
    if d1.ticketHeld (.erase .journal) || d1.ticketQueued (.erase .journal) then d1 else d1.failSeals stBudgetDenied

/-- JNL_NOR_FAIL: the flush ends and its records stay pending. -/
def Dev.norFail (d : Dev) (cause : Nat) : Dev :=
  (({ d with jnl := { d.jnl with flushing := false, pageFails := 0 } }).count kJnlNorFails 0 1).raise 0x0D01 0 cause

/-- The page in hand starts to be programmed, if its sector is erased; if it is not, the flush fails and the erase is asked
for. -/
def Dev.startPage (d : Dev) : Dev :=
  if d.jnl.pending.isEmpty then ({ d with jnl := { d.jnl with flushing := false, pageFails := 0 } }).eraseAhead
  else if d.pageBlocked then (d.norFail 1).eraseAhead
  else { d with jnl := { d.jnl with flushing := true, pageFails := 0 } }

/-- A flush starts at a record write when 15 records are pending, when 250 ms have passed since the last started, or at once for
a seal (R376). -/
def Dev.kick (d : Dev) (now : Bool) : Dev :=
  if d.jnl.flushing then d
  else if now ∨ 15 ≤ d.jnl.pending.length ∨ d.jnl.lastFlush + msTicks 250 ≤ d.now then
    ({ d with jnl := { d.jnl with lastFlush := d.now } }).startPage
  else d

/-- A record stands in NOR, in its slot, and waits no more. -/
def Dev.keepRecord (d : Dev) (e : Nat) (r : List Byte) : Dev :=
  { d with
    nor := { d.nor with journal := kvSet d.nor.journal (d.norSlot e) r }
    jnl := { d.jnl with
      lost := 0, pending := d.jnl.pending.filter (· != e),
      ring := d.jnl.ring.map fun q => if q.entry = e then { q with bytes := r } else q } }

/-- A sector of the journal region is erased. -/
def Dev.eraseJournal (d : Dev) (sector : Nat) : Dev :=
  { d with nor := { d.nor with journal := d.nor.journal.filter fun r => r.1 / 32 != sector } }

/-- A record reaches NOR: after lost ones it carries FLAGS[5] and JNL_GAP is posted (R378); a seal posts SEGMENT_SEALED and
completes its JOURNAL_SEAL. -/
def Dev.storeRecord (d : Dev) (e : Nat) : Dev :=
  match d.ringEntry e with
  | none => d
  | some r0 =>
    let gap := decide (0 < d.jnl.lost)
    let r := if gap then putBytes r0 27 [BitVec.ofNat 8 (byteAt r0 27) ||| 0x20] else r0
    let d1 := d.keepRecord e r
    let d2 := if gap then d1.post 0x0D03 d.jnl.lost else d1
    if recType r = recSeal then
      let done := d2.jnl.seals.filter fun w => w.1 == e
      let d3 := { d2 with jnl := { d2.jnl with seals := d2.jnl.seals.filter fun w => w.1 != e } }.post 0x0D02 (recSegment r)
      done.foldl (fun d w => d.finish w.2.1 w.2.2 stOk (leBytes 4 e ++ (r.drop 24).take 32)) d3
    else d2

/-- A page has been programmed and read back. -/
def Dev.pageDone (d : Dev) (good : Bool) : Dev :=
  if !d.jnl.flushing then d
  else if good then ((d.pageInHand.foldl (fun d e => d.storeRecord e) d).clearFault 0x0D01 0).startPage
  else if 1 ≤ d.jnl.pageFails then d.norFail 0
  else { d with jnl := { d.jnl with pageFails := 1 } }

/-- The NOR stays busy for 10 ms. -/
def Dev.norBusy (d : Dev) : Dev := if d.jnl.flushing then d.norFail 2 else d

/-- An erase ahead completes: the first sector that is not erased loses its records, and the ticket is released. -/
def Dev.eraseDone (d : Dev) : Dev :=
  if d.ticketHeld (.erase .journal) then
    let d1 := match d.dirtySectors with
      | s :: _ => d.eraseJournal s
      | [] => d
    (d1.release (.erase .journal)).eraseAhead
  else d

/-! ### Opening, periodic entries, seals -/

/-- CAUSE of the boot record for a RESET_CAUSE (Table 19-2). -/
def bootCause (c : Nat) : Nat := ([0, 0, 1, 1, 2, 3] : List Nat).getD c 0

/-- At STANDBY entry after boot: an unsealed newest segment is sealed, then the boot record opens a segment (R373, R374). The
first segment of an empty NOR is number 0 (log entry 31). -/
def Dev.openJournal (d : Dev) : Dev :=
  let d0 := { d with jnl := { d.jnl with isOpen := true, lastFlush := d.now, segLimit := d.par kJnlSegEntries 0, acc := JAcc.reset } }
  let (d1, prev) : Dev × Nat := match d.norNewest.bind d.norEntry with
    | none => ({ d0 with jnl := { d0.jnl with next := 0, segment := 0 } }, 4)
    | some r =>
      let seg := recSegment r
      let closed := recType r == recClosing
      let da := { d0 with jnl := { d0.jnl with
        next := entryMod (recEntry r + 1), lastHoldup := if closed then d.nor.holdupMicros else 0 } }
      if recType r = recSeal then ({ da with jnl := { da.jnl with segment := entryMod (seg + 1) } }, b2n closed)
      else
        let db := { da with jnl := { da.jnl with segment := seg, segFirst := da.segStart seg 4200 (recEntry r) } }
        (db.sealSegment 2, b2n closed + 2)
  let d2 := { d1 with jnl := { d1.jnl with segFirst := d1.jnl.next, segCount := 0 } }
  let body := leBytes 4 d.core.fwVersion ++ leBytes 1 d.core.image ++ leBytes 1 d.aon.otpRollback ++
    leBytes 1 (bootCause d.aon.resetCause) ++ leBytes 1 prev ++ leBytes 4 d.devId ++ List.replicate 84 0
  let d3 := (d2.addRecord (d2.recHead recBoot ++ body)).post 0x0D04 (prev % 4)
  (d3.kick (prev.testBit 1)).eraseAhead

/-- The periodic record of the open interval joins the segment, and the next interval starts (R371). -/
def Dev.formPeriodic (d : Dev) (shortened : Bool) : Dev :=
  let d0 := { d with jnl := { d.jnl with acc := { d.jnl.acc with shortened := shortened } } }
  (d0.addRecord (d0.recHead recPeriodic ++ d0.recBody 0)).closeInterval

/-- A full segment is sealed, and its flush starts at once (R373, R376). -/
def Dev.sealIfFull (d : Dev) : Dev :=
  if d.jnl.segLimit ≤ d.jnl.segCount then (d.sealSegment 0).kick true else d.kick false

/-- A periodic entry, and the seal when the segment is full (R371, R373). -/
def Dev.periodicEntry (d : Dev) (shortened : Bool) : Dev :=
  if d.jnl.isOpen then (d.formPeriodic shortened).sealIfFull else d

/-- JOURNAL_SEAL of a port (R126, R373). -/
def Dev.journalSealCmd (d : Dev) (p : Port) (tag : Nat) : Dev :=
  let e := d.jnl.next
  let d1 := d.sealSegment 1
  ((({ d1 with jnl := { d1.jnl with seals := d1.jnl.seals ++ [(e, p, tag)] } }).waits p tag).kick true)

/-- The closing record at HOLDUP entry, and the flush that carries it (R380, R381). -/
def Dev.closeJournal (d : Dev) (dropped : Nat) : Dev :=
  if !d.jnl.isOpen then { d with jnl := { d.jnl with closed := true } }
  else
    let d1 := (d.addRecord (d.recHead recClosing ++ d.recBody dropped)).closeInterval
    let d2 := { d1 with jnl := { d1.jnl with isOpen := false, closing := true, seals := [] } }
    if d2.jnl.flushing then d2 else ({ d2 with jnl := { d2.jnl with lastFlush := d2.now } }).startPage

/-- The last hold-up page is in NOR (Table 16-3): the time it took is kept for LAST_HOLDUP. -/
def Dev.holdupDone (d : Dev) (micros : Nat) : Dev :=
  if d.jnl.closing ∧ d.jnl.pending.isEmpty then
    { d with
      jnl := { d.jnl with closing := false, closed := true }
      nor := { d.nor with holdupMicros := min 0xFFFF micros } }
  else d

/-! ### JOURNAL_READ (R126, R374) -/

/-- The first failing check of a chain up to entry e: 0 none, 1 hash link, 2 segment seal. -/
def Dev.chainCheck (d : Dev) (e : Nat) (r : List Byte) : Nat :=
  let seg := recSegment r
  let first := d.segStart seg 4200 e
  let before := d.entryOf (entryMod (first + 0xFFFFFFFF))
  let opens := match d.entryOf first with
    | some o => recType o == recBoot || (match before with | some b => recType b == recSeal | none => false)
    | none => false
  let links := (List.range (entryMod (e + 0x100000000 - first))).all fun k =>
    match d.entryOf (entryMod (first + k)), d.entryOf (entryMod (first + k + 1)) with
    | some a, some b => recLink b == linkOf a
    | _, _ => false
  if !opens || !links then 1
  else
    match d.sealOf seg 4200 e with
    | none => 0
    | some s =>
      let rs := d.recordsOf (leField s 56 4) (leField s 60 4)
      if rs.all Option.isSome && sha256 (rs.filterMap id).flatten == (s.drop 24).take 32 then 0 else 2

/-- JOURNAL_READ: status and response. -/
def Dev.journalReadCmd (d : Dev) (e : Nat) (verify : Bool) : Nat × List Byte :=
  match d.entryOf e with
  | none => (stBadArg, [])
  | some r =>
    let fails := if verify then d.chainCheck e r else 0
    let info := b2n (d.ringEntry e).isNone + 2 * b2n (verify && fails == 0) + 4 * b2n (d.sealOf (recSegment r) 4200 e).isSome
    let body := leBytes 4 e ++ leBytes 1 info ++ leBytes 3 0 ++ r
    if fails = 0 then (stOk, body) else (stIntegrity, body ++ leBytes 1 fails)

end Sys2Proof.Machine
end

