-- ==== Sys2Proof/Machine/RefreshOps.lean ====
section
/-! DEFINITION. The refresh boundary (R22, R230): the end of the refresh that was shown, the journal's entry, mode changes in BEAM
and DEGRADED (R199, R200), the slot mask, the start of the new refresh, camera steering (R206), and the release from park
(R253, R297). -/

namespace Sys2Proof.Machine

open Sys2Proof

/-! ### The refresh that ends -/

/-- Beam ready (Table 1-6, R356): the last projected refresh that ended in BEAM is verified on every side of the mode. -/
def Dev.beamReadyNow (d : Dev) : Bool :=
  d.core.state == .beam && !d.core.beamReady && d.modeSides.all fun s =>
    d.seq.projecting.get s && d.seq.endedOk.get s == some true

/-- SAFE_LAMP_N rises, the event is posted, and the BEAM_ENABLE commands of the request complete (R117, R365). -/
def Dev.takeBeamReady (d : Dev) : Dev :=
  let d1 : Dev := { d with core := { d.core with beamReady := true }, saf := { d.saf with safeLamp := true } }
  (d1.post 0x0005 d1.core.mode).reqEffective d1.req.inForce

/-- What the boundary adds to the journal's interval (Table 16-1, FLAGS). -/
def Dev.noteBoundary (d : Dev) : Dev :=
  let a := d.jnl.acc
  let a1 : JAcc := { a with
    camLocked := a.camLocked && d.cam.state == 3
    stale := a.stale || d.sht.state == .stale || d.sht.state == .staleHold
    firstList := a.firstList || d.firstRules || d.veh.motionLost }
  { d with jnl := { d.jnl with acc := a1 } }

/-- The checks of the refresh that has ended may be complete: its aggregates close, and the beam may be ready. -/
def Dev.checksDone (d : Dev) : Dev :=
  let d1 := d.modeSides.foldl (fun d s => d.closeAggregates s false) d
  if d1.beamReadyNow then d1.takeBeamReady else d1

/-- The refresh that was shown ends. -/
def Dev.endRefresh (d : Dev) : Dev :=
  if !d.seq.started then d
  else (d.modeSides.foldl (fun d s => d.endAggregates s) d).checksDone.noteBoundary

/-! ### Mode changes in BEAM and DEGRADED (R199, R200) -/

/-- Passes end at a mode change: one with all its rows stored exchanges, any other is discarded without being counted. -/
def Dev.carryFronts (d : Dev) : Dev := d.sides.foldl (fun d s => (d.exchange s).dropPass s) d

/-- A new refresh, compose frame and dither cycle begin in the new mode's timing. -/
def Dev.newTimeline (d : Dev) : Dev :=
  { d with seq := { d.seq with refreshInCycle := 0, refreshInFrame := 0, frameDue := false, dither := 0 } }

/-- A change into a mode with another request in force, as from a test mode, acts on the beam. -/
def Dev.changeBeam (d : Dev) (m : Nat) (bridged : Bool) : Dev := (d.changeMode m bridged).followReq d.req.inForce

/-- A seamless change takes effect, and its SELECT_MODE completes. -/
def Dev.takeSeamless (d : Dev) (m : Nat) (p : Port) (tag : Nat) : Dev :=
  let d0 := d.carryFronts
  let d1 := (({ d0 with seq := { d0.seq with change := .none_ } }).changeBeam m false).newTimeline
  d1.finish p tag stOk []

/-- Side R stops projecting for good: boost off, ramp factor 0, park and power-down (R200). -/
def Dev.leaveSideR (d : Dev) : Dev :=
  if !d.dual then d
  else
    let d1 : Dev := { d with seq := { d.seq with projecting := d.seq.projecting.set 1 false } }
    ((((d1.stopBoost 1).darkSide 1).modLside 1 fun p => { p with r := 0, rRamp := none, ignited := false }).calProjection 1).powerDown 1

/-- The new mode's first pass starts; one that fetches from DRAM ends at once while DRAM traffic stalls (R163). -/
def Dev.firstPass (d : Dev) (m : Nat) : Dev :=
  let d1 := d.startPass 0 m false false
  if d1.cmp.dramStalled then d1.abandon 0 (!(d1.pll 1).locked) else d1

/-- The bridge refresh begins: the bridge frame is shown in the new mode's timing, side R leaves, and the new mode's first pass
starts. -/
def Dev.beginBridge (d : Dev) (m : Nat) (p : Port) (tag : Nat) : Dev :=
  let d1 := ((((d.exchange 0).dropPass 0).dropPass 1).camModeChange m).carryMask m
  let d2 := ({ d1 with seq := { d1.seq with change := .bridging m p tag 0 none } }).newTimeline.leaveSideR
  d2.firstPass m

/-- A refresh boundary within a bridge: with the new mode's first pass complete the new mode is in force and its command ends;
otherwise the bridge refresh repeats, and a pass that ended without exchange starts again (log entry 126). -/
def Dev.stepBridge (d : Dev) (m : Nat) (p : Port) (tag n : Nat) (behind : Option (Nat × Port × Nat)) : Dev :=
  if (d.pipe 0).backReady then
    let d1 := (({ d.exchange 0 with seq := { d.seq with change := .none_ } }).changeBeam m true)
    let d2 := d1.finish p tag stOk []
    match behind with
    | none => d2
    | some (k, q, t) =>
      if k = m then d2.finish q t stOk []
      else if (d2.rowOf k).dual ∧ !(d2.rowOf m).dual then d2.finishWith q t stOverridden
      else { d2 with seq := { d2.seq with change := .pending k q t false } }
  else
    let d0 : Dev := { d with seq := { d.seq with change := .bridging m p tag (n + 1) behind } }
    let d1 := if (d0.pipe 0).running then d0 else d0.firstPass m
    (d1.count kMstBridgeExtend 0 1).post 0x0614 (m + 256 * min 255 (n + 1))

/-- A seamless change takes effect or a bridge begins at this boundary, which starts a new dither cycle. -/
def Dev.changeDue (d : Dev) : Bool :=
  match d.core.state, d.seq.change with
  | .standby, _ => false
  | _, .pending _ _ _ armed => armed
  | _, .bridging _ _ _ _ _ => false
  | _, .none_ => false

/-- Step 1 of R230. -/
def Dev.stepChange (d : Dev) : Dev :=
  if d.core.state = .standby then d
  else
    match d.seq.change with
    | .none_ => d
    | .pending m p tag false =>
      let d1 : Dev := { d with seq := { d.seq with change := .pending m p tag true } }
      if d1.isBridged d1.timingMode m then d1.sides.foldl (fun d s => (d.dropPass s).startPass s m true false) d1 else d1
    | .pending m p tag true => if d.isBridged d.timingMode m then d.beginBridge m p tag else d.takeSeamless m p tag
    | .bridging m p tag n behind => d.stepBridge m p tag n behind

/-! ### Slot mask (R119, R230 step 2) -/

/-- The recorded mask applies; one recorded after the hand-off of entry 0 waits for the next boundary. One that would remove every
beam slot of the mode whose timing begins here gives way to all ones (R204, log entry 125). -/
def Dev.stepMask (d : Dev) : Dev :=
  let d1 : Dev := { d with seq := { d.seq with maskRecorded := d.seq.maskFresh, maskFresh := none } }
  match d.seq.maskRecorded with
  | some m =>
    let w := d.maskFor d.row m
    ({ d1 with seq := { d1.seq with maskInForce := w } }).post 0x0004 w.toNat
  | none => d1

/-! ### Camera steering (R206, R208) and the spread's mean (R395, R396) -/

/-- CAM parameters that wait come into force; each resets the lock (R211). -/
def Dev.takeCamParams (d : Dev) : Dev :=
  let keys := [kMstCamSel, kMstCamEdge, kMstCamRatio, kMstCamOffset]
  if keys.any fun k => (d.stagedVal k 0).isSome then
    let d1 := keys.foldl (fun d k => d.applyVal (pid k 0)) d
    { d1 with
      cam := { d1.cam with
        state := if d1.par kMstCamSel 0 = 0 then 0 else 1
        reference := none, validRun := 0, periods := [], winRun := 0, groupReset := false }
      clk := { d1.clk with phaseTarget := 0 } }
  else d

/-- 1 − mean deviation of the spread in 1/10,000 (Table 17-4). -/
def sscMean (mode : Nat) : Nat := if mode = 1 then 9975 else if mode = 2 then 9950 else 10000

/-- The refresh period to be set, as a fraction of a third of a tick, held to ±3 % of nominal. -/
def Dev.wantedPeriod (d : Dev) : Nat × Nat :=
  let nom := 2 * d.row.refreshCycles
  if d.steers ∧ !d.cam.periods.isEmpty then
    let num := 3 * sumNat d.cam.periods
    let den := d.cam.periods.length * d.par kMstCamRatio 0
    let pull := if 5000 < d.cam.phaseErr then 99 else if d.cam.phaseErr < -5000 then 101 else 100
    let (n, m) := (num * pull, den * 100)
    if 100 * n < 97 * nom * m then (97 * nom, 100) else if 103 * nom * m < 100 * n then (103 * nom, 100) else (n, m)
  else (nom * 10000, sscMean d.clk.sscInForce)

/-- The period and the fraction F of PLL-Q take effect (R395): F = 192 · 2²⁴ · (nominal / period − 1), whose rounding is free (log
entry 25). In SAFE steering stops and both stay. -/
def Dev.stepPeriod (d : Dev) : Dev :=
  let d0 : Dev := { d with clk := { d.clk with sscInForce := d.par kClkSscMode 0 } }
  if d.core.state = .safe then d0
  else
    let nom := 2 * d0.row.refreshCycles
    let (n, m) := d0.wantedPeriod
    let x : Int := 3221225472 * ((nom * m : Nat) - (n : Int))
    let f := x / n + (if x % n = 0 then 0 else if Config.fractionRoundsUp (x % n) then 1 else 0)
    { d0 with
      cam := { d0.cam with period3 := (openRound 11 n m).toNat }
      clk := { d0.clk with pllqFrac := if (d0.pll 2).locked then f else d0.clk.pllqFrac } }

/-- The group index counts modulo k from ACQUIRE entry. -/
def Dev.stepGroup (d : Dev) : Dev :=
  let k := max 1 (d.par kMstCamRatio 0)
  { d with cam := { d.cam with
      groupIndex := if d.cam.groupReset then 0 else (d.cam.groupIndex + 1) % k, groupReset := false } }

/-! ### Release from park (R253, R297, Table 12-6) -/

/-- The sides of the mode that are to be lit. -/
def Dev.litSides (d : Dev) : List Nat := d.modeSides.filter fun s => !d.saf.safeSides.get s

/-- A composed frame is there to be projected on every side (R24). -/
def Dev.frontsReady (d : Dev) : Bool := isTestMode d.core.mode || d.modeSides.all fun s => !(d.pipe s).front.isEmpty

/-- Tickets that a release still needs are asked for at refresh boundaries: ignition after a denial, then the global mirror
reset. -/
def Dev.askRelease (d : Dev) : Dev :=
  if d.core.state = .beam ∧ d.core.releaseStage = releaseTickets ∧ d.boostsRun then
    let d1 := d.request .ignition
    if d1.ticketHeld .ignition ∧ d1.frontsReady then d1.request .globalReset else d1
  else d

/-- The first projected refresh of a release starts: planes, words and currents follow. -/
def Dev.startProjecting (d : Dev) : Dev :=
  if d.startsProjecting then
    let d1 := d.litSides.foldl (fun d s =>
      ({ d with seq := { d.seq with projecting := d.seq.projecting.set s true } }).calProjection s) d
    { d1 with core := { d1.core with releaseStage := releaseNone } }
  else d

/-- Release from park at a refresh boundary: PARK_N high on every side of the mode, UNPARK 20 µs later on side L and 500 µs after
that on side R (Table 10-9), and the ignition ramp starts. -/
def Dev.releasePark (d : Dev) : Dev :=
  if d.core.state = .beam ∧ d.core.releaseStage = releaseTickets ∧ d.ticketHeld .ignition ∧ d.ticketHeld .globalReset ∧
      d.frontsReady ∧ d.boostsRun ∧ (d.modeSides.all fun s => (d.mport s).state == .parked) then
    let d1 := d.litSides.foldl (fun d s =>
      ((d.modMportEv s fun p => { p with
          state := .unpark, parkN := true, unparkAcked := false,
          queue := p.queue ++ [{ cmd := 0x04, arg0 := 0, arg1 := 0, notBefore := d.now + 2000 + 50000 * s }] }).modLside s
        fun p => { p with ignited := true }).rampR s 65535 false) d
    { d1 with core := { d1.core with releaseStage := releaseUnpark } }
  else d

/-- The ramps of a boundary are over: at r = 65,535 the ignition ticket goes back; a ramp down to 0 ends the beam (R297, R365). -/
def Dev.afterRamps (d : Dev) : Dev :=
  if d.core.state ≠ .beam ∧ d.core.state ≠ .degraded then d
  else
    let lit := d.modeSides.filter fun s => d.seq.projecting.get s
    if d.core.rampingDown ∧ d.saf.safePending.isNone ∧ (lit.all fun s => (d.lside s).r == 0 && (d.lside s).rRamp.isNone) then
      d.beamOffDone
    else if !d.core.rampingDown ∧ !lit.isEmpty ∧ (lit.all fun s => (d.lside s).r == 65535) then d.release .ignition
    else d

/-! ### The boundary -/

/-- The refresh's place in its dither cycle and compose frame, and its dither phase (R22, R230 step 4). `restart` begins a new
cycle. -/
def Dev.stepPlace (d : Dev) (restart : Bool) : Dev :=
  let r := d.row
  let first := !d.seq.started || restart
  let c := if first then 0 else (d.seq.refreshInCycle + 1) % r.perCycle
  let f := if first then 0 else (d.seq.refreshInFrame + 1) % r.perFrame
  { d with seq := { d.seq with
      started := true, boundaryOpen := true, handedFirst := false,
      refreshCount := if d.seq.started then (d.seq.refreshCount + 1) % 0x100000000 else d.seq.refreshCount,
      refreshInCycle := c, refreshInFrame := f, frameDue := f == 0, dither := c % 4,
      thumbDue := if c = 0 then !d.seq.thumbDue else d.seq.thumbDue } }

/-- The refresh counts in the journal interval, and the Governor slots of RATE 15 are due. -/
def Dev.noteRefresh (d : Dev) : Dev :=
  { d with
    gov := { d.gov with refreshDue := true, refreshParity := !d.gov.refreshParity }
    jnl := { d.jnl with acc := { d.jnl.acc with refreshes := d.jnl.acc.refreshes + 1 } } }

/-- What the new refresh starts: lamps, masks, scan frames, Governor slots of RATE 15, calibration, STAT and THUMB. -/
def Dev.startRefresh (d : Dev) : Dev :=
  let d1 := (d.lampRefresh.afterRamps).startProjecting
  let d2 := d1.sides.foldl (fun d s => d.openAggregates s) d1
  let d3 := (((d2.repredict.scanRestart.calRefresh).askRelease).noteRefresh).sendStat
  if d3.seq.refreshInCycle = 0 ∧ d3.seq.thumbDue then d3.sendThumb else d3

/-- B_0 of a refresh (R22, R230). The masks exchange before anything that reads or writes their buffers (R230 step 5, R231). -/
def Dev.refreshBoundary (d : Dev) : Dev :=
  if !d.timelineRuns then d
  else
    let restart := d.changeDue
    let natural := d.seq.started && d.seq.refreshInCycle + 1 == d.row.perCycle
    let d1 := d.endRefresh
    let d2 := if d.seq.started && (natural || restart) then d1.periodicEntry (restart && !natural) else d1
    let d3 := d2.stepChange.stepMask
    let d3 := (d3.sides.foldl (fun d s => d.exchangeMask s) d3).stepPlace restart
    let d4 := ((d3.applyVal (pid kMstDitherEn 0)).takeCamParams.stepGroup).stepPeriod
    d4.startRefresh.settle

end Sys2Proof.Machine
end

