-- ==== Sys2Proof/Machine/BootOps.lean ====
section
/-! DEFINITION. Supplies, reset, boot and the ends of operation: RESET (R423 to R425), BOOT (R428 to R432), the completion of safe
state (R364), hold-up (R379 to R381), thermal shutdown (R401, R402), and the Miller watchdog (R362). -/

namespace Sys2Proof.Machine

open Sys2Proof

/-! ### RESET (R424, R425) -/

/-- What a reset leaves of a mirror port: MAL_PWR_EN low; the 10 ms of R254 run on. -/
def MPort.overReset (p : MPort) : MPort := { MPort.reset with pwrDwell := p.pwrDwell || p.pwrEn }

/-- Every domain but the always-on domain, which holds the die sensor and the REFCLK monitor, is reset (R425); NOR, OTP and the
test access port stay. -/
def Dev.afterReset (d : Dev) (state : DevState) : Dev :=
  { Dev.cold with
    variant := d.variant, aon := d.aon, core := { Core.reset with state := state }, nor := d.nor, jtag := d.jtag,
    freeCount := d.freeCount, thm := d.thm.overReset,
    lamp := { Lamp.reset with enable := if d.dual then 0xFFF else 0x3F, enableNext := if d.dual then 0xFFF else 0x3F }
    clk := { Clk.reset with refclkGood := d.clk.refclkGood, refclkCount := d.clk.refclkCount },
    ports := ⟨d.ports.fst.overReset, d.ports.snd.overReset⟩ }

/-- RESET of a kind (Table 19-2). -/
def Dev.toReset (d : Dev) (cause : Nat) : Dev :=
  ({ d with aon := { d.aon with resetCause := cause } }).afterReset .reset

/-- What the always-on domain keeps is lost with VDD_AON (R425); OTP is not. -/
def Aon.lost (a : Aon) : Aon := { a with resetCause := 0, shutdowns := 0, shutdownT := 0, thermalHold := false }

/-- RESET_N low (R424): RESET from any other state; from THERMAL_OFF its release waits for R402. -/
def Dev.resetN (d : Dev) : Dev :=
  let hold := d.aon.thermalHold || d.core.state == .thermalOff
  let d1 : Dev := { d with aon := { d.aon with resetN := false, thermalHold := hold } }
  if d.core.state = .reset then d1 else d1.toReset 2

/-- Test-logic reset selects IDCODE (R453). -/
def Dev.tapReset (d : Dev) : Jtag := { Jtag.reset with dr := d.captureDr 0x02 }

/-- The supply monitors read (R423): a supply out of range outside RESET resets the device; VDD_AON out of range does so from
any state and loses what the always-on domain keeps. The test access port works with every supply in range only (R453). -/
def Dev.supplies (d : Dev) (inRange : List Bool) : Dev :=
  let bad := inRange.any (!·)
  let d1 : Dev := { d with aon := { d.aon with supplies := inRange }, jtag := if bad then d.tapReset else d.jtag }
  if !(inRange.getD 0 true) then
    { ({ d1 with aon := d1.aon.lost }).toReset 0 with thm := Thm.reset }
  else if bad ∧ d.core.state ≠ .reset then d1.toReset 1
  else d1

/-! ### BOOT (R430, R432) -/

/-- BOOT begins: the Acorn starts, PLL-S first (R394), the time base at 0 (log entry 15), and the Shutter engine in INIT (R273). -/
def Dev.enterBoot (d : Dev) : Dev :=
  let d1 : Dev := { d with
    core := { d.core with
      state := .boot, stateTime := 0, announce := some d.core.state.code, bootStatus := 3, image := 0xFF, bootFirst := 0 }
    clk := { d.clk with timeBase := 0 } }
  (d1.modPll 0 fun q => { q with wanted := true }).bootShutter

/-- The change to BOOT is posted, and GEOMETRY_INVALID raised, once DEV_STATE has read BOOT with every register at its reset
value (R16, R25, R263; log entry 93). -/
def Dev.bootAnnounced (d : Dev) : Dev :=
  match d.core.announce with
  | none => d
  | some prev =>
    let d1 : Dev := { d with core := { d.core with announce := none } }
    let d2 := ((d1.setIrq 1).post 0x0001 (DevState.boot.code + 16 * prev)).sendStat
    if d2.sht.geomValid then d2 else d2.raise 0x0804 0 (if d2.nor.geometry.isNone then 1 else 2)

/-- What a step does when no command waits (log entry 3): the tick ends, with it the latch of R366, and the next one begins. -/
def idle (s : State) : State := { s with dev := s.dev.relatch.tick.bootAnnounced.backLanes.portFrames }

/-- RESET is left 1 ms after RESET_N is high with every supply in range (R424), and after THERMAL_OFF once R402 holds. -/
def Dev.resetReleased (d : Dev) : Dev :=
  if d.core.state = .reset ∧ d.aon.resetN ∧ d.aon.supplies.all id ∧ !d.aon.thermalHold then d.enterBoot else d

/-- A full boot out of HOLDUP or THERMAL_OFF (Table 1-7): every domain but the always-on domain is reset, and BOOT begins. -/
def Dev.fullBoot (d : Dev) (cause : Nat) : Dev :=
  (({ d with aon := { d.aon with resetCause := cause } }).afterReset d.core.state).enterBoot

/-- Boot progress is made in BOOT while no power-fail warning is present (Table 1-7). -/
def Dev.booting (d : Dev) : Bool := d.core.state == .boot && !d.aon.warning

/-- Boot fails: SAFE with the Acorn recovery service (Table 1-7, R430). -/
def Dev.bootFailed (d : Dev) : Dev :=
  let d1 := (d.bootAnnounced.endRun).release .dram
  ({ d1 with core := { d1.core with acornService := true } }).setState .safe 0

/-- The failing check recorded for an image in BOOT_STATUS (Table 19-9). -/
def Dev.failingCheck (d : Dev) (img : Nat) : Nat := bitsOf d.core.bootStatus (4 + 3 * img) 3

def Dev.setCheck (d : Dev) (img check : Nat) : Dev :=
  { d with core := { d.core with bootStatus := d.core.bootStatus - d.failingCheck img * 2 ^ (4 + 3 * img) + check * 2 ^ (4 + 3 * img) } }

/-- The image that the Acorn reads next: PREF, else the other, each with its valid flag set and not failed yet. -/
def Dev.nextImage (d : Dev) : Option Nat :=
  let r := d.nor.dirRec
  ([r.pref % 2, 1 - r.pref % 2] : List Nat).find? fun img => r.valid img && d.failingCheck img == 0

/-- The Acorn selects (R430): a trial image that has been booted three times is given up, another trial is counted. The
selection is made when the first image has been read (log entry 37). -/
def Dev.selectImage (d : Dev) : Dev :=
  if d.core.bootFirst ≠ 0 then d
  else
    let r := d.nor.dirRec
    let d1 :=
      if !r.trial then d
      else if 3 ≤ r.tries then
        d.writeDir fun q => { q.setValid (r.pref % 2) false with pref := 1 - r.pref % 2, trial := false }
      else d.writeDir fun q => { q with tries := q.tries + 1 }
    let first := d1.nextImage.getD (d1.nor.dirRec.pref % 2)
    { d1 with core := { d1.core with bootFirst := first + 1, bootStatus := 3 + 4 * first } }

/-- What the NOR mirror keeps comes into force, with the corrections of the sets at T_DIE or the factory defaults (R417, R418). -/
def Dev.loadMirror (d : Dev) : Dev :=
  let sets := d.nor.calSets
  let d1 : Dev := { d with
    prm := { Prm.reset with vals := d.nor.mirror, arrays := d.nor.mirrorArrays }
    saf := { d.saf with reactions := d.nor.mirrorReactions }
    cal := { d.cal with sets := sets, setSeq := largestSeq sets } }
  let slots := (List.range 48).map fun n => { Slot.reset with record := d1.arr kGovSlot n }
  let corrs := (List.range 128).map fun ch => (d1.calInterp ch).getD (calFactory ch)
  { d1 with gov := { d1.gov with slots := slots }, cal := { d1.cal with inForce := corrs } }

/-- The Miller starts (Table 19-6): the mirror is read, the arrays power up, DRAM training asks for its ticket, and the start-up
run begins. -/
def Dev.millerStarts (d : Dev) : Dev :=
  let d1 := d.loadMirror.startupRun
  (d1.sides.foldl (fun d s => d.powerUp s) d1).request .dram

/-- An image verifies and boots. When it is not the preferred one, the directory follows and BOOT_FALLBACK is posted. -/
def Dev.bootImage (d : Dev) (img svn fwVersion : Nat) : Dev :=
  let r := d.nor.dirRec
  let fall := r.pref % 2 != img
  let other := 1 - img
  let d1 : Dev := { d with core := { d.core with
    image := img, imageSvn := svn, fwVersion := fwVersion, trialRun := r.trial && !fall,
    bootStatus := d.core.bootStatus - d.core.bootStatus % 4 + img } }
  let d2 := if fall then d1.writeDir fun q => { q.setValid other false with pref := img, trial := false } else d1
  let d3 := d2.millerStarts
  if fall then d3.post 0x1101 (img + 2 * d3.failingCheck other) else d3

/-- IMAGE_VERIFY_DONE: an image has been read and checked (R428, R430). -/
def Dev.imageRead (d : Dev) (img check svn fwVersion : Nat) : Dev :=
  if !d.booting ∨ d.core.image ≠ 0xFF then d
  else
    let d1 := d.selectImage
    match d1.nextImage with
    | none => d1.bootFailed
    | some want =>
      if want ≠ img then d1
      else if check = 0 then d1.bootImage img svn fwVersion
      else
        let d2 := d1.setCheck img check
        if d2.nextImage.isNone then d2.bootFailed else d2

/-- The image is confirmed at the first STANDBY entry of its trial (R430), and the OTP counter follows its SVN (R431). -/
def Dev.confirmImage (d : Dev) : Dev :=
  if !d.core.trialRun then d
  else
    let d1 := d.writeDir fun q => { q with trial := false }
    let d2 : Dev := { d1 with core := { d1.core with trialRun := false } }
    if d2.aon.otpRollback < d2.core.imageSvn then
      ({ d2 with aon := { d2.aon with otpRollback := d2.core.imageSvn } }).post 0x1102
        (d2.core.imageSvn + 256 * d2.aon.otpRollback)
    else d2

/-- The first selection of a mode is no mode change (R194). -/
def Dev.firstMode (d : Dev) : Dev :=
  match d.defaultMode with
  | none => d
  | some m => (d.takeMode m false).moveSideR m

/-- DEFAULT_MODE was replaced: MODE_DEFAULT_REPLACED (R194). -/
def Dev.noteReplaced (d : Dev) : Dev :=
  let m := d.par kDevDefaultMode 0
  if d.core.modeValid ∧ d.core.mode ≠ m then d.post 0x0613 (m + 256 * d.core.mode) else d

/-- BOOT ends in STANDBY (Tables 1-7 and 19-6). Self-tests that passed say that every PLL is locked and DRAM is trained. -/
def Dev.bootDone (d : Dev) : Dev :=
  let d1 : Dev := { d with clk := { d.clk with
    plls := d.clk.plls.map fun (q : PllSt) => if q.relocking then q else { q with locked := true, wanted := false } } }
  let d2 := (d1.bootAnnounced.release .dram).endStartup
  let d3 := (d2.sides.foldl (fun d s => d.loadResident s) d2).firstMode
  let d4 := ((d3.setState .standby 0).noteReplaced).openJournal
  let d5 : Dev := { d4 with core := { d4.core with bootTime := d4.now } }
  (((d5.enableSlots).reformMasks.confirmImage).standbyEntered).settle

/-- BOOT_COMPLETE: the self-tests' result; a side L port that is not PARKED is one that failed (R252). -/
def Dev.bootComplete (d : Dev) (pass : Bool) : Dev :=
  if !d.booting then d
  else if !pass ∨ (d.core.image ≠ 0xFF ∧ (d.mport 0).state ≠ .parked) then d.bootFailed
  else if d.core.image = 0xFF then d
  else d.bootDone

/-- A PLL that the Acorn started has not locked within 1 ms (R394). While a power-fail warning is present boot progress is
suspended: the upper BOOT row of Table 1-7 wins (R17). -/
def Dev.bootPllLate (d : Dev) (p : Nat) : Dev :=
  if d.booting ∧ (d.pll p).wanted ∧ !(d.pll p).locked then d.bootFailed else d

/-- The Miller enables a link in BOOT (R43): DETECT, with its back lane in service. -/
def Dev.enableLink (d : Dev) (l : LinkId) : Dev :=
  if d.booting ∧ d.core.image ≠ 0xFF ∧ d.linkIds.contains l ∧ (d.link l).state = .disabled then
    (d.modLink l fun k => { k with backLaneOn := true }).toDetect l
  else d

/-! ### Safe state (R364) -/

/-- SAFE_STATE_COMPLETE: every side that entered safe state is dark and parked, and DEV_STATE changes. -/
def Dev.safeComplete (d : Dev) : Dev :=
  match d.saf.safePending with
  | none => d
  | some (t, cause, _, _) =>
    if !d.sides.all fun s => !d.saf.safeSides.get s || (d.mport s).parkDone d.now then d
    else
      let d1 : Dev := { d with saf := { d.saf with safePending := none } }
      let d2 :=
        if t = .safe then (d1.enterSafeState cause).startWanted
        else ({ d1 with core := { d1.core with beamReady := false } }).goTo .degraded cause
      d2.dropLost.calAdvance.leaveSafe

/-! ### HOLDUP (R379 to R381) -/

/-- A port's open commands end without status (R98); its slots become FREE (Table 4-11). -/
def Dev.dropCommands (d : Dev) : Dev :=
  let free (m : RegMap) : RegMap := { m with slots := m.slots.map fun (s : SlotRegs) => { s with st := .free } }
  { d with host := { d.host with
      ports := d.host.ports.map fun (p : PortState) => { p with opens := [] }
      spi := free d.host.spi, jtag := free d.host.jtag, canRx := none, parts := none } }

/-- Commands open on every port. -/
def Dev.openCount (d : Dev) : Nat := sumNat (d.host.ports.map fun p => p.opens.length)

/-- The outputs of HOLDUP: currents 0 A, boosts stopped, ports parked and powered down, links in L2, composition, Shutter, chains
and DRAM stopped. -/
def Dev.stopAll (d : Dev) : Dev :=
  let side (d : Dev) (s : Nat) : Dev :=
    let d1 := (((d.zeroWords s).stopBoost s).darkSide s).modLside s fun p => { p with r := 0, rRamp := none, ignited := false }
    (d1.portHoldup s).dropPass s
  let d1 := d.sides.foldl side d
  let d2 := d1.linkIds.foldl (fun d l => if (d.link l).state = .disabled then d else d.toL2 l) d1
  let d3 := (((d2.slotsOff).abandonRaster).segStop).endRun
  { d3 with
    cmp := { d3.cmp with dramStalled := true }
    saf := { d3.saf with safePending := none, safeSides := both false, safeLamp := false }
    seq := { d3.seq with change := .none_ }
    core := { d3.core with rampingDown := false, testEnded := false, releaseStage := 0, beamReady := false } }

/-- BEAM_ENABLE commands that wait for their boundary end with STATE_OVERRIDDEN (R117). -/
def Dev.overrideBeam (d : Dev) : Dev :=
  (d.waitingOf 0x0006).foldl (fun (d : Dev) (c : Port × Cmd) => d.finishWith c.1 c.2.tag stOverridden) d

/-- The warning qualifies on a source that PFW_SOURCE enables: PFW_N, or three conversions below PFW_THRESH at the battery, which
is the reading times VBAT_DIV (R379). -/
def Dev.warns (d : Dev) (pfwLow : Bool) (sense : List Nat) : Bool :=
  let src := d.par kJnlPfwSource 0
  (src.testBit 0 && pfwLow) ||
  (src.testBit 1 && sense.length == 3 &&
    sense.all fun v => decide (v * d.par kJnlVbatDiv 0 < d.par kJnlPfwThresh 0 * 256000))

/-- The power-fail warning qualifies: HOLDUP from STANDBY, BEAM, DEGRADED and SAFE (Table 16-3); in BOOT progress is suspended.
R117 and R128 give some open commands a status; the others end without one (R98, log entry 117). The closing record is formed
before anything stops, and counts the commands that end without status. -/
def Dev.powerFail (d : Dev) : Dev :=
  let d0 : Dev := { d with aon := { d.aon with warning := true } }
  if d.canActive then
    let d1 := (d0.goTo .holdup 0).overrideBeam
    (((d1.dropCommands).closeJournal d1.openCount).stopAll).voidTickets
  else d0

/-- HOLDUP ends in a full boot once the journal is closed and the warning is gone for 50 ms. -/
def Dev.holdupExit (d : Dev) : Dev :=
  if d.core.state = .holdup ∧ d.jnl.closed ∧ !d.aon.warning then d.fullBoot 4 else d

/-! ### THERMAL_OFF (R401, R402) -/

/-- Shutdown by the always-on domain from any state but RESET. -/
def Dev.thermalShutdown (d : Dev) (t : Int) : Dev :=
  if d.core.state = .reset ∨ d.core.state = .thermalOff then d
  else
    ({ d with aon := { d.aon with shutdowns := min 0xFFFF (d.aon.shutdowns + 1), shutdownT := t } }).afterReset .thermalOff

/-- The 2.0 s below 130 °C are over: a full boot, or the hold on RESET ends (R402). -/
def Dev.thermalExit (d : Dev) : Dev :=
  if d.core.state = .thermalOff then d.fullBoot 5
  else { d with aon := { d.aon with thermalHold := false } }

/-! ### Miller -/

/-- The watchdog of R362: the SAF hardware takes the DEV reaction. -/
def Dev.watchdog (d : Dev) : Dev :=
  if (d.canActive ∨ d.core.state = .boot) ∧ d.core.image ≠ 0xFF ∧ !d.core.acornService ∧ !d.host.millerStuck then
    let d1 := d.raise 0x0C04 0 0
    { d1 with host := { d1.host with millerStuck := true } }
  else d

/-- The reset of kind 3 that follows FW_UPDATE_COMMIT with RESTART (R433). -/
def Dev.fwRestart (d : Dev) : Dev := if d.upd.restartDue then d.toReset 3 else d

end Sys2Proof.Machine
end

