-- ==== Sys2Proof/Machine/Params.lean ====
section
/-! DEFINITION. Parameters: what GET_PARAM reads (R112, R113 and the parameter tables of every unit), and how SET_PARAM checks and
applies a value. -/

namespace Sys2Proof.Machine

open Sys2Proof

/-! ### Presence (R4, R113) -/

/-- A unit that the variant lacks. -/
def Dev.unitAbsent (d : Dev) (u : Nat) : Bool := u == 2 && !d.dual

/-- An instance that the variant lacks. -/
def Dev.instAbsent (d : Dev) (k : Insts) (i : Nat) : Bool :=
  !d.dual && match k with
    | .port => i == 1
    | .side => i == 1
    | .chan => decide (6 ≤ i) && decide (i < 12)
    | .slot => decide (6 ≤ i ∧ i < 12) || decide (17 ≤ i ∧ i < 22)
    | .loopGroup => i == 1
    | _ => false

/-- A fault code and instance that name what the variant lacks: LNK1, side R, its channels, or its slots (R4). -/
def Dev.faultAbsent (d : Dev) (code inst : Nat) : Bool :=
  !d.dual && (code / 256 == 2 ||
    (([0x0901, 0x0902, 0x0904] : List Nat).contains code && decide (inst < 48) && !d.slotPresent inst) ||
    (decide (0x0A01 ≤ code ∧ code ≤ 0x0A05) && decide (6 ≤ inst ∧ inst < 12)) ||
    ((code == 0x0407 || code == 0x0602 || code == 0x0603 || code / 256 == 7 || code == 0x0903 ||
      decide (0x0A06 ≤ code ∧ code ≤ 0x0A0A) || decide (0x0C01 ≤ code ∧ code ≤ 0x0C03)) && inst == 1))

/-- An instance that the parameter uses. -/
def Insts.has (k : Insts) (i : Nat) : Bool :=
  match k with
  | .none_ => i == 0
  | .lane => decide (i < 5)
  | .port => decide (i < 5)
  | .bellPort => i == 3 || i == 4
  | .layer => decide (1 ≤ i) && decide (i ≤ 7)
  | .group => decide (i < 8)
  | .tint => decide (1 ≤ i) && decide (i ≤ 3)
  | .side => decide (i < 2)
  | .lut => decide (i < 4)
  | .mode => decide (i < 32)
  | .chan => decide (i < 12)
  | .slot => decide (i < 48)
  | .loopGroup => decide (i < 8)
  | .pwm => decide (i < 4)
  | .target => decide (i < 4)
  | .pll => decide (i < 3)
  | .stage => i == 1 || i == 2
  | .scope => decide (i < 3)
  | .op => decide (i < 8)

/-- Steps 1 and 2 of R113: the parameter's row, or the status. -/
def Dev.paramAt (d : Dev) (id : Nat) : Except Nat ParamRow :=
  if d.unitAbsent (idUnit id) then .error stNotPresent
  else match paramRow? id with
    | none => .error stBadArg
    | some r =>
      if d.instAbsent r.insts (idInst id) then .error stNotPresent
      else if r.insts.has (idInst id) then .ok r
      else .error stBadArg

/-! ### Types (Table 5-3) -/

def PTy.code : PTy → Nat
  | .u8 => 1
  | .s8 => 2
  | .u16 => 3
  | .s16 => 4
  | .u32 => 5
  | .s32 => 6
  | .u64 => 7
  | .bytes _ => 8

/-- Size of a scalar; 0 for an array. -/
def PTy.size : PTy → Nat
  | .u8 => 1
  | .s8 => 1
  | .u16 => 2
  | .s16 => 2
  | .u32 => 4
  | .s32 => 4
  | .u64 => 8
  | .bytes _ => 0

def PTy.isSigned : PTy → Bool
  | .s8 => true
  | .s16 => true
  | .s32 => true
  | _ => false

/-- The value of a scalar's bytes. -/
def PTy.value (t : PTy) (bs : List Byte) : Int := if t.isSigned then leInt bs 0 t.size else (leField bs 0 t.size : Nat)

/-! ### Read-only values, unit by unit -/

def Dev.readDev (d : Dev) (n : Nat) : List Byte :=
  match n with
  | 0x0004 => f8 d.req.inForce
  | 0x0005 => f32 d.seq.maskInForce.toNat
  | 0x0006 => f32 d.seq.refreshCount
  | 0x0007 => f64 d.core.stateTime
  | _ => f16 d.core.lastCause

def Dev.readLnk (d : Dev) (l : LinkId) (n i : Nat) : List Byte :=
  match n with
  | 0x0002 => f8 (d.link l).rateWord
  | 0x0003 => f8 (d.link l).state.code
  | 0x0004 => f16 (d.link l).mapWord
  | _ => f8 ((d.link l).laneStatus i)

/-- SCALERS: [3:0] scalers held; [4] strip split. -/
def Layer.scalersWord (l : Layer) : Nat :=
  sumNat (l.scalers.map fun k => 2 ^ k) + 16 * b2n (l.scalers.length == 2)

def Dev.readPlc (d : Dev) (n i : Nat) : List Byte :=
  let l := d.layer i
  match n with
  | 0x0001 => f8 l.st.code
  | 0x0002 => f8 l.placement
  | 0x0003 => f8 l.scalersWord
  | 0x000B => f16 l.dispFrame
  | 0x0010 => f8 (min 255 l.lateCount)
  | 0x0022 => f8 (d.group i).code
  | 0x0030 => f32 d.cmp.poolFree
  | 0x0032 => f32 d.cmp.dramFree
  | 0x0034 => f8 (sumNat (d.cmp.scalersFree.map fun k => 2 ^ k))
  | 0x0045 => f16 (d.nor.patValid.get i).toNat
  | _ => f8 (d.patShown i)

def Dev.readCmp (d : Dev) (n i : Nat) : List Byte :=
  match n with
  | 0x0024 => f16 (d.pipe i).culled
  | _ => f32 d.offsetWord

def Dev.readMst (d : Dev) (n i : Nat) : List Byte :=
  match n with
  | 0x0040 => d.modeInfo i
  | 0x0041 => f8 d.core.baseMode
  | 0x0048 => f8 d.cam.state
  | 0x004A => f32 d.cam.period
  | 0x004B => s32 d.cam.phaseErr
  | 0x0001 => seqImageBytes i
  | 0x0002 => f16 d.seq.displayed
  | 0x0003 => f8 d.seq.dither
  | 0x0005 => f16 (d.seq.masks.get i).genFront
  | 0x0007 => f32 d.row.camwStart
  | _ => f32 d.row.camwLen

def Dev.readMpt (d : Dev) (n i : Nat) : List Byte :=
  let p := d.mport i
  match n with
  | 0x0001 => f8 p.state.code
  | 0x0002 => p.arrayId
  | 0x0003 => f32 p.arrayStatus.toNat
  | 0x0004 => f8 p.spareMap
  | 0x0005 => f32 p.failedLanes.toNat
  | 0x0006 => (List.range 33).flatMap fun k => f8 (code 8 (d.corr (mirrorCh i k)).1)
  | 0x0007 => f8 (code 8 (d.corr (rbCh i 0)).1) ++ f8 (code 8 (d.corr (rbCh i 1)).1)
  | _ => leList 2 p.laneErr

def Dev.readSht (d : Dev) (n : Nat) : List Byte :=
  match n with
  | 0x0020 => d.sht.geometry
  | 0x0021 => f8 (b2n d.sht.geomValid)
  | 0x0022 => f8 d.sht.state.code
  | 0x0023 => f8 d.sht.listsSeen
  | _ => f32 d.sht.listAge

/-- GROUP_MEMBERS: one slot number per byte, 0xFF none. -/
def Dev.membersBytes (d : Dev) (g : Nat) : List Byte :=
  (List.range 4).flatMap fun k => f8 ((d.groupMembers g).getD k 0xFF)

def Dev.readGov (d : Dev) (n i : Nat) : List Byte :=
  let s := d.slot i
  match n with
  | 0x0002 => f8 s.st.code
  | 0x0003 => s32 s.u
  | 0x0004 => s32 s.i
  | 0x0005 => s32 s.fb
  | 0x0006 => s32 s.sp
  | 0x0010 => f8 (d.gov.winners.getD i 0xFF)
  | 0x0013 => d.membersBytes i
  | _ => f16 d.govLoad

def Dev.readLmp (d : Dev) (n i : Nat) : List Byte :=
  let c := d.chan i
  let p := d.lside i
  match n with
  | 0x0007 => f8 (d.chState i)
  | 0x0008 => f8 c.fault.toNat
  | 0x0009 => f16 c.iMeas
  | 0x000A => f16 c.vfMeas
  | 0x000B => f32 c.litTime
  | 0x0027 => s16 (d.tBoardOf i)
  | 0x0028 => p.tp.flatMap s16
  | 0x0036 => f8 p.boost.code
  | 0x0037 => f16 (p.vout / 10)
  | 0x0038 => f16 (p.vin / 10)
  | 0x0040 => f16 d.lamp.d
  | 0x0041 => f8 d.lamp.dimSource
  | 0x0046 => f32 d.lamp.pwmPeriod
  | 0x0047 => f16 d.lamp.enable.toNat
  | _ => f32 (d.par kLmpRampSettings 0)

def Dev.readAux (d : Dev) (n i : Nat) : List Byte :=
  match n with
  | 0x0007 => let o := (d.chain i).out; leList 2 (o ++ List.replicate (768 - o.length) 0)
  | 0x0026 => f8 (d.target i).st.code
  | _ => f32 (d.target i).tePeriod

/-- FAULT_ACTIVE: 32 entries (Table 15-6). -/
def Dev.faultActiveBytes (d : Dev) : List Byte :=
  (List.range 32).flatMap fun k => match d.saf.listed[k]? with
    | some e => f16 e.1 ++ f8 e.2.1 ++ f8 e.2.2.code
    | none => f32 0

/-- REACTIONS: the reaction set for each code, 0xFF where the slot decides. -/
def Dev.reactionsBytes (d : Dev) : List Byte :=
  faultTable.flatMap fun r =>
    f16 r.code ++ f8 (if r.bySlot then 0xFF else ((kvGet d.saf.reactions r.code).getD r.dflt).code) ++ f8 0

def Dev.readSaf (d : Dev) (n i : Nat) : List Byte :=
  let rs := d.saf.rects.get i
  match n with
  | 0x0001 => d.faultActiveBytes
  | 0x0004 => d.reactionsBytes
  | 0x0010 => rs.flatMap fun r => f8 r.state ++ f8 r.misses
  | 0x0011 => rs.flatMap fun r => f32 r.value.toNat
  | 0x0012 => rs.flatMap fun r => f32 r.expected.toNat
  | 0x0023 => f32 (d.saf.frameSig.get i).toNat
  | 0x0024 => f32 (d.sht.maskSig.get i).toNat
  | 0x0030 => f32 (d.saf.planeAgg.get i).toNat
  | 0x0041 => f8 (b2n d.saf.snapHeld)
  | _ => f32 d.saf.snapSeq

/-- NOR_OLDEST with nothing in NOR is a free value (log entry 38). -/
def Dev.readJnl (d : Dev) (n : Nat) : List Byte :=
  match n with
  | 0x0001 => f32 d.jnl.next
  | 0x0002 => f32 d.jnl.segment
  | 0x0004 => f32 (d.norOldest.getD Config.noEntry.toNat)
  | 0x0005 => f16 d.jnl.pending.length
  | _ => f16 d.jnl.lastHoldup

/-- CLK_STATUS (Table 17-9). -/
def Dev.clkStatus (d : Dev) : Nat :=
  d.pllLocks + 8 * b2n d.clk.refclkGood + 16 * bitMap (d.clk.plls.map PllSt.safeDivide)

def Dev.readClk (d : Dev) (n : Nat) : List Byte :=
  match n with
  | 0x0001 => f32 d.clkStatus
  | 0x0005 => s32 d.clk.pllqFrac
  | 0x0006 => s32 d.clk.pllqPhase
  | _ => f16 d.clk.refclkCount

def Dev.readThm (d : Dev) (n : Nat) : List Byte :=
  match n with
  | 0x0001 => s16 d.thm.tDie
  | 0x0003 => f8 d.thm.stage
  | 0x0005 => f16 d.aon.shutdowns
  | 0x0006 => s16 d.aon.shutdownT
  | _ => s16 d.thm.rcTrim

/-- A correction as ENTRY of Table 18-2. -/
def corrBytes (c : Int × Int) : List Byte := s16 c.1 ++ s16 c.2

/-- A set of Table 18-2. -/
def CalSet.bytes (s : CalSet) : List Byte :=
  s16 s.t ++ f8 (b2n s.valid) ++ f8 (s.rate0 % 8 + 16 * (s.rate1 % 8)) ++ f32 s.seq ++
  (List.range 128).flatMap fun k => corrBytes (s.entries.getD k (0, 0))

/-- CAL_SETS: 8 sets; a place without a set is zeros. -/
def Dev.calSetsBytes (d : Dev) : List Byte :=
  (List.range 8).flatMap fun k => match d.cal.sets[k]? with
    | some s => s.bytes
    | none => List.replicate 520 0

/-- CAL_STATE: 0 idle, 1 ticket queued, 2 running, 3 start-up run. -/
def Dev.calState (d : Dev) : Nat :=
  match d.cal.run with
  | none => 0
  | some r => if r.startup then 3 else if d.ticketHeld .cal then 2 else 1

def Dev.readCal (d : Dev) (n i : Nat) : List Byte :=
  match n with
  | 0x0003 => f8 d.calState
  | 0x0004 => s16 (d.cal.lastRunT.getD i 0)
  | 0x0005 => f64 (d.cal.lastRunTime.getD i 0)
  | 0x0006 => d.calSetsBytes
  | 0x0007 => (List.range 128).flatMap fun k => corrBytes (d.corr k)
  | _ => leBytes 16 d.cal.disagreeMap.toNat

/-- DIRECTORY: the newest record; with none, a free value (log entry 38). -/
def Dev.directoryBytes (d : Dev) : List Byte :=
  match d.nor.newestDir with
  | some r => r.bytes
  | none => padTo 32 Config.noDirectory

def Dev.readPwr (d : Dev) (n : Nat) : List Byte :=
  match n with
  | 0x0001 => f8 d.aon.resetCause
  | 0x0002 => f32 d.core.bootStatus
  | 0x0003 => f32 d.core.bootTime
  | 0x0004 => d.directoryBytes
  | 0x0005 => f16 (bitMap d.aon.supplies)
  | 0x0014 => f16 d.ticketsHeld
  | _ => f16 d.ticketsQueued

/-- A parameter that is read from the state. -/
def Dev.readComputed (d : Dev) (id : Nat) : List Byte :=
  let n := idNum id
  let i := idInst id
  match idUnit id with
  | 0x00 => d.readDev n
  | 0x01 => d.readLnk .lnk0 n i
  | 0x02 => d.readLnk .lnk1 n i
  | 0x04 => d.readPlc n i
  | 0x05 => d.readCmp n i
  | 0x06 => d.readMst n i
  | 0x07 => d.readMpt n i
  | 0x08 => d.readSht n
  | 0x09 => d.readGov n i
  | 0x0A => d.readLmp n i
  | 0x0B => d.readAux n i
  | 0x0C => d.readSaf n i
  | 0x0D => d.readJnl n
  | 0x0E => d.readClk n
  | 0x0F => d.readThm n
  | 0x10 => d.readCal n i
  | _ => d.readPwr n

/-- The size of a layer's palette: 4 entries of S2, 256 of S8 (R138). -/
def Dev.paletteSize (d : Dev) (n : Nat) : Nat := if (d.layer n).decl.format = 0x20 then 16 else 1024

/-- POS and OUT_SIZE in force. -/
def Dev.posWord (d : Dev) (n : Nat) : Nat := code 16 (d.layer n).decl.x + 0x10000 * code 16 (d.layer n).decl.y
def Dev.outSizeWord (d : Dev) (n : Nat) : Nat := (d.layer n).decl.outW % 0x10000 + 0x10000 * ((d.layer n).decl.outH % 0x10000)

/-- A scalar as stored. -/
def scalarBytes (t : PTy) (v : Int) : List Byte := leBytes t.size (code (8 * t.size) v)

/-- All bytes of a parameter, as a read returns the value in force (R105). Write-only parameters read as zeros (R14). -/
def Dev.readBytes (d : Dev) (r : ParamRow) (id : Nat) : List Byte :=
  let key := id - idInst id * 0x10000
  let i := idInst id
  match r.kind with
  | .action => List.replicate r.ty.size 0
  | .computed => d.readComputed id
  | _ =>
    if key = kPlcPos then f32 (d.posWord i)
    else if key = kPlcOutSize then f32 (d.outSizeWord i)
    else if key = kPlcPalette then (d.arrOf id).take (d.paletteSize i)
    else if key = kPlcPatGeom then f8 d.nor.patGeom
    else if key = kGovSlot then (d.slot i).record
    else if key = kClkClkSticky then f8 d.clk.sticky.toNat
    else if key = kThmTDieMax then s16 d.thm.tDieMax
    else if key = kHostEvtSubscribe ∧ i = 3 then f32 0x7FFFF
    else match r.ty with
      | .bytes _ => d.arrOf id
      | t => scalarBytes t (d.valOf id)

/-! ### Writing: checks 3 and 4 of R113 -/

/-- Reserved bits of a scalar, treated as 0 (R13): the mask of the bits that count. -/
def fieldMask (key : Nat) : Option Nat :=
  if key = kLmpChCfg then some 0x0007
  else if key = kLmpI2cSensor then some 0xFF7F
  else if key = kGovPwmCfg then some 0x1FFFF
  else if key = kAuxMxScan then some 0xFFFF003F
  else if key = kPlcPatCtrl then some 0xFFFFFF1F
  else if key = kSafFaultClear then some 0x00FFFFFF
  else if key = kSafReactionSet then some 0x0003FFFF
  else if key = kAuxSegCommit then some 0x0003FFFF
  else if key = kClkClkSticky then some 0x0F
  else if [kHostCanCmdId, kHostCanRspId, kHostCanEvtId, kHostVehBeamId, kHostVehMotionId, kHostVehTimeId].contains key then
    some 0x9FFFFFFF
  else none

/-- A scalar with its reserved bits 0. -/
def maskValue (key : Nat) (v : Int) : Int :=
  match fieldMask key with
  | some m => ((v.toNat &&& m : Nat) : Int)
  | none => v

/-- An array with its reserved bits and bytes 0. -/
def maskArray (key : Nat) (bs : List Byte) : List Byte :=
  if key = kAuxMxTarget then bs.mapIdx fun i b => if i = 0 then b &&& 1 else if 12 ≤ i then 0 else b
  else if key = kLmpNtcCfg then bs.mapIdx fun i b => if 10 ≤ i then 0 else b
  else if key = kGovSlot then bs.mapIdx fun i b =>
    if i = 0 then b &&& 0xF7 else if i = 7 ∨ i = 11 then b &&& 0x0F else if 53 ≤ i ∧ i ≤ 55 then 0 else b
  else if key = kShtClassMargin then bs.mapIdx fun i b => if i % 8 = 7 then b &&& 0x0F else b
  else if key = kCmpCoefV ∨ key = kCmpCoefH then bs.mapIdx fun i b => if i % 2 = 1 then b &&& 0x0F else b
  else if key = kPlcPalette then bs.mapIdx fun i b => if i % 4 = 3 then b &&& 0x03 else b
  else bs

/-- A port may write a parameter instance (step 3). -/
def mayWrite (p : Port) (r : ParamRow) (id : Nat) : Bool :=
  (r.writers / p.classBit % 2 == 1) &&
  (id - idInst id * 0x10000 != kHostEvtSubscribe ||
    (idInst id != 3 && (4 ≤ p.classBit || idInst id == p.ix)))

/-- REACTION_SET names a row, and its default or one of its alternatives (R362, R369). -/
def reactionOk (v : Nat) : Bool :=
  match faultRow? (v % 0x10000) with
  | some r => !r.bySlot && ((r.dflt :: r.alts).any fun x => x.code == bitsOf v 16 2)
  | none => false

/-- Ranges that Table columns give by name: step 4 for a scalar that is not a plain interval. -/
def Dev.rangeOk (d : Dev) (r : ParamRow) (key i : Nat) (v : Int) : Bool :=
  decide (r.lo ≤ v) && decide (v ≤ r.hi) &&
  (if r.kind = .counter then v == 0
   else if key = kHostCanDataRate then v == 2 || v == 5
   else if key = kDevDefaultMode then modeDefined v.toNat
   else if key = kGovPwmCfg then decide (10 ≤ v.toNat % 0x10000)
   else if key = kAuxMxScan then scanOk v.toNat
   else if key = kPlcPatCtrl then
    decide (1 ≤ bitsOf v.toNat 8 8) && decide (bitsOf v.toNat 8 8 ≤ 4) &&
    (bitsOf v.toNat 8 8 != 2 || decide (bitsOf v.toNat 16 16 < (imageBytes d.nor.patGeom + 4095) / 4096))
   else if key = kSafReactionSet then reactionOk v.toNat
  else if key = kAuxSegCommit then decide (bitsOf v.toNat 0 16 ≤ 10000) && decide (bitsOf v.toNat 16 2 ≤ 2)
   else if key = kLmpAinLo then decide (v < d.parI kLmpAinHi 0)
   else if key = kLmpAinHi then decide (d.parI kLmpAinLo 0 < v)
   else if key = kLmpTjDerate then decide (v < d.parI kLmpTjLimit i)
   else if key = kLmpTjLimit then decide (d.parI kLmpTjDerate i < v)
   else true)

/-- R282: shunt full scale with the values in force, and at most four channels per primary of a side. -/
def Dev.channelOk (d : Dev) (key i : Nat) (v : Int) : Bool :=
  let cfg := if key = kLmpChCfg then v.toNat else d.par kLmpChCfg i
  let lim := if key = kLmpILimit then v.toNat else d.par kLmpILimit i
  let sh := if key = kLmpShunt then v.toNat else d.par kLmpShunt i
  let q := cfg % 4
  let others := (sideChans (chanSide i)).filter fun c => c != i && d.primary c == q
  decide (12 * lim * sh ≤ (if cfg.testBit 2 then 150 else 75) * 100000) &&
  (key != kLmpChCfg || q == 3 || decide (others.length < 4))

/-- R335, with a staged value standing for the value that will be in force. -/
def Dev.segOk (d : Dev) (key i : Nat) (v : Int) : Bool :=
  let cur (k : Nat) : Nat := ((d.stagedVal k i).getD (d.parI k i)).toNat
  let n := if key = kAuxSegCount then v.toNat else cur kAuxSegCount
  let t := if key = kAuxSegPeriod then v.toNat else cur kAuxSegPeriod
  decide (n * 72 + 80 ≤ t)

/-- OUT_SIZE within Table 6-1 for the layer's declaration; of a layer without one, its own bounds. -/
def Dev.outSizeOk (d : Dev) (i : Nat) (v : Int) : Bool :=
  let w := bitsOf v.toNat 0 16
  let h := bitsOf v.toNat 16 16
  let l := d.layer i
  if l.st = .declared then sizeOk l.decl.format l.decl.srcW l.decl.srcH w h
  else decide (1 ≤ w ∧ w ≤ 4096 ∧ 1 ≤ h ∧ h ≤ 2048)

/-- Rules of a scalar beyond its row that answer BAD_ARG. -/
def Dev.scalarOk (d : Dev) (r : ParamRow) (key i : Nat) (v : Int) : Bool :=
  d.rangeOk r key i v &&
  (if key = kLmpChCfg ∨ key = kLmpILimit ∨ key = kLmpShunt then d.channelOk key i v
   else if key = kAuxSegCount ∨ key = kAuxSegPeriod then d.segOk key i v
   else if key = kPlcOutSize then d.outSizeOk i v
   else true)

/-- Preconditions on the state: STANDBY-only parameters, layers without a declaration, OUT_SIZE of an intake-scaled layer
(R143, R156, R189), the pattern library outside STANDBY and PAT_GEOM while an image is valid (R155). -/
def Dev.writeState (d : Dev) (r : ParamRow) (key i : Nat) : Bool :=
  (!r.standby || d.core.state == .standby) &&
  (r.insts != .layer || (d.layer i).st == .declared) &&
  (key != kPlcOutSize || (d.layer i).placement != 2) &&
  (key != kPlcPatGeom || (d.core.state == .standby && d.nor.patValid.fst == 0 && d.nor.patValid.snd == 0)) &&
  ((key != kPlcPatStage && key != kPlcPatCrc && key != kPlcPatCtrl) || d.core.state == .standby)

/-! ### Applying -/

/-- A mirrored setting that applies later is mirrored with its new value. -/
def Dev.mirrorPut (d : Dev) (id : Nat) (v : Int) : Dev :=
  { d with nor := { d.nor with mirror := kvPut d.nor.mirror id v (paramDefault d.variant id) } }

def Dev.mirrorPutArr (d : Dev) (id : Nat) (v : List Byte) : Dev :=
  { d with nor := { d.nor with mirrorArrays := kvPut d.nor.mirrorArrays id v (arrayDefault id) } }

/-- The load slot of a resident pattern parameter (R152). -/
def patSlot (key : Nat) : Nat := if key = kPlcPatLow then 0 else if key = kPlcPatHigh then 1 else 2

/-- What a setting's new value in force brings about at once. -/
def Dev.afterWrite (d : Dev) (key i : Nat) (v : Int) : Dev :=
  if key = kLnkMaxRate then d.askStep .lnk0
  else if key = lkey kLnkMaxRate .lnk1 then d.askStep .lnk1
  else if key = kLnkL1Allowed then d.syncBts .lnk0
  else if key = lkey kLnkL1Allowed .lnk1 then d.syncBts .lnk1
  else if key = kDevBeamSource ∨ key = kDevVehLossBeam then d.updateReq.settle
  else if key = kPlcPatLow ∨ key = kPlcPatHigh ∨ key = kPlcPatFallback then
    d.modBase i fun b => { b with loads := b.loads ++ [(patSlot key, v.toNat)] }
  else if key = kAuxMxClass then d.mxConfigure
  else d

/-- A scalar that passed every check is written. -/
def Dev.writeScalar (d : Dev) (r : ParamRow) (id key i : Nat) (v : Int) : Dev :=
  if key = kPlcPatGeom then { d with nor := { d.nor with patGeom := v.toNat } }
  else if key = kClkClkSticky then { d with clk := { d.clk with sticky := 0 } }
  else if key = kThmTDieMax then { d with thm := { d.thm with tDieMax := d.thm.tDie } }
  else match r.apply with
    | .commit => d.stageVal id v
    | .composeStart => d.stageVal id v
    | .training => d.stageVal id v
    | .boostStart => d.stageVal id v
    | .raster => d.stageVal id v
    | .tableCommit => d.stageVal id v
    | .refresh => d.stageVal id v
    | .frame => let d1 := d.stageVal id v; if r.mirrored then d1.mirrorPut id v else d1
    | .canIdle =>
      if d.host.canRx.isSome then { d with host := { d.host with canStaged := d.host.canStaged ++ [(id, v)] } }
      else d.putVal id v
    | _ =>
      let d1 := d.putVal id v
      let d2 := if r.mirrored then d1.mirrorVal id else d1
      d2.afterWrite key i v

/-- CAN settings that waited for the end of a message come into force (R106). -/
def Dev.canIdleNow (d : Dev) : Dev :=
  d.host.canStaged.foldl (fun (d : Dev) (w : Nat × Int) => d.putVal w.1 w.2) { d with host := { d.host with canStaged := [] } }

/-- The array that a write changes: the shadow where one waits. -/
def Dev.arrayBase (d : Dev) (r : ParamRow) (id : Nat) : List Byte :=
  match r.apply with
  | .now => d.arrOf id
  | .frame => d.arrOf id
  | _ => (kvGet d.prm.stagedArrays id).getD (d.arrOf id)

/-- A slot record is written whole (R312). -/
def Dev.writeSlot (d : Dev) (id n : Nat) (b : List Byte) : Dev × Nat :=
  if b.length ≠ 64 then (d, stBadArg)
  else
    let rec_ := maskArray kGovSlot b
    match d.slotRefusal n rec_ with
    | some st => (d, st)
    | none => ((((d.modSlot n fun s => { s with next := some rec_ }).putArr id rec_).mirrorArr id).actionDone 0x0904 n, stOk)

/-- An MX_TARGET record (R340): a change of X and Y only waits for the next compose-frame start. -/
def Dev.writeTarget (d : Dev) (id t : Nat) (b : List Byte) : Dev × Nat :=
  match d.mxRefusal t b with
  | some st => (d, st)
  | none =>
    let old := d.arrOf id
    if putBytes b 8 ((old.drop 8).take 4) = old then (d.stageArr id b, stOk)
    else
      (((d.dropStaged id).putArr id b).mxConfigure, stOk)

/-- The size that an array has for a write. -/
def Dev.arraySize (d : Dev) (r : ParamRow) (key i : Nat) : Nat :=
  if key = kPlcPalette then d.paletteSize i else match r.ty with | .bytes n => n | _ => 0

/-- An array write: bytes from an offset on. -/
def Dev.writeArray (d : Dev) (r : ParamRow) (id off : Nat) (vs : List Byte) : Dev × Nat :=
  let i := idInst id
  let key := id - i * 0x10000
  let size := d.arraySize r key i
  if size ≤ off ∨ size < off + vs.length then (d, stBadArg)
  else if key = kPlcPalette ∧ (d.layer i).st = .declared ∧ !isSymbol (d.layer i).decl.format then (d, stBadArg)
  else if !d.writeState r key i then (d, stOverridden)
  else if key = kGovSlot then (if off = 0 then d.writeSlot id i vs else (d, stBadArg))
  else
    let new := maskArray key (putBytes (d.arrayBase r id) off vs)
    if key = kAuxMxTarget then d.writeTarget id i (maskArray key (putBytes ((kvGet d.prm.stagedArrays id).getD (d.arrOf id)) off vs))
    else if key = kLmpCompTable then
      (({ d with lamp := { d.lamp with compRejected := d.lamp.compRejected.set i false } }).stageArr id new, stOk)
    else match r.apply with
      | .now => (let d1 := d.putArr id new; if r.mirrored then d1.mirrorArr id else d1, stOk)
      | .frame => (d.putArr id new, stOk)
      | _ => (let d1 := d.stageArr id new; if r.mirrored then d1.mirrorPutArr id new else d1, stOk)

/-! ### The checks in order (R113) -/

/-- What a SET_PARAM names once steps 1 to 3 and the type have passed. -/
structure ParamWrite where
  row : ParamRow
  id : Nat
  off : Nat
  value : List Byte
deriving DecidableEq, Repr

/-- Steps 1 to 3, and the type of step 4. -/
def Dev.openWrite (d : Dev) (p : Port) (payload : List Byte) : Except Nat ParamWrite :=
  let id := leField payload 0 4
  match d.paramAt id with
  | .error st => .error st
  | .ok r =>
    if !mayWrite p r id then .error stDeniedPort
    else if byteAt payload 4 ≠ r.ty.code then .error stBadArg
    else .ok { row := r, id := id, off := leField payload 6 2, value := payload.drop 8 }

/-- A FAULT_CLEAR or REACTION_SET value that names a fault of an absent unit, side, channel or slot (R4). -/
def Dev.namesAbsent (d : Dev) (key v : Nat) : Bool :=
  (key == kSafReactionSet && d.unitAbsent (bitsOf v 8 8)) ||
  (key == kSafFaultClear && d.faultAbsent (bitsOf v 0 16) (bitsOf v 16 8))

/-- The value of a scalar write whose size, offset and range are right. -/
def Dev.scalarIn (d : Dev) (w : ParamWrite) : Except Nat Int :=
  let i := idInst w.id
  let key := w.id - i * 0x10000
  if w.off ≠ 0 ∨ w.value.length ≠ w.row.ty.size then .error stBadArg
  else
    let v := maskValue key (w.row.ty.value w.value)
    if key = kPlcPatCtrl ∧ v.toNat.testBit 4 ∧ !d.dual then .error stNotPresent
    else if d.namesAbsent key v.toNat then .error stNotPresent
    else if !d.scalarOk w.row key i v then .error stBadArg
    else if !d.writeState w.row key i then .error stOverridden
    else .ok v

/-- SET_PARAM of a parameter that is no action: the block after it, and the status. -/
def Dev.setParamCmd (d : Dev) (p : Port) (payload : List Byte) : Dev × Nat :=
  match d.openWrite p payload with
  | .error st => (d, st)
  | .ok w =>
    match w.row.ty with
    | .bytes _ => d.writeArray w.row w.id w.off w.value
    | _ =>
      match d.scalarIn w with
      | .error st => (d, st)
      | .ok v => (d.writeScalar w.row w.id (w.id - idInst w.id * 0x10000) (idInst w.id) v, stOk)

/-- GET_PARAM (R112, R113): the status and the response. -/
def Dev.getParamCmd (d : Dev) (limit : Nat) (payload : List Byte) : Nat × List Byte :=
  let id := leField payload 0 4
  let off := leField payload 6 2
  match d.paramAt id with
  | .error st => (st, [])
  | .ok r =>
    let bs := d.readBytes r id
    let isArray := r.ty.code == 8
    if (isArray && decide (bs.length ≤ off)) || (!isArray && off != 0) then (stBadArg, [])
    else
      let v := (bs.drop off).take (limit - 8)
      (stOk, f32 id ++ f8 r.ty.code ++ f8 0 ++ f16 v.length ++ v)

end Sys2Proof.Machine
end

