-- ==== Sys2Proof/Machine/Operands.lean ====
section
/-! DEFINITION. The operands of mailbox commands: the command header (R95), the opcode table (Tables 5-2, 5-4 to 5-9), payload
lengths (R111), payload limits (R83), and which row of the command table a SET_PARAM of an action is. -/

namespace Sys2Proof.Machine

open Sys2Proof

/-! ### Headers (R95) -/

/-- The command of a header word (Table 4-13) and its payload. -/
def cmdOf (hdr : Nat) (payload : List Byte) : Cmd :=
  { opcode := bitsOf hdr 0 16, tag := bitsOf hdr 16 8, quiet := hdr.testBit 24, len := bitsOf hdr 32 16,
    expCl := bitsOf hdr 48 16, payload := payload }

/-- Payload limit of a port (Table 4-1). -/
def payloadLimit (p : Port) : Nat := if p = .can then 60 else 256

/-! ### Opcodes (Table 5-2) -/

def opGetInfo : Nat := 0x0001
def opGetParam : Nat := 0x0002
def opSetParam : Nat := 0x0003
def opAbort : Nat := 0x0004
def opSetCompat : Nat := 0x0005
def opBeamEnable : Nat := 0x0006
def opSelectMode : Nat := 0x0007
def opSlotMask : Nat := 0x0008
def opSnapshot : Nat := 0x0010
def opSnapshotRead : Nat := 0x0011
def opLayerDeclare : Nat := 0x0501
def opLayerDestroy : Nat := 0x0502
def opCommitGroup : Nat := 0x0503
def opFenceSignal : Nat := 0x0504
def opObjectList : Nat := 0x0801
def opGeometry : Nat := 0x0802
def opLampEnable : Nat := 0x0A01
def opDimSet : Nat := 0x0A02
def opRampCurve : Nat := 0x0A03
def opSignature : Nat := 0x0C01
def opJournalRead : Nat := 0x0D01
def opJournalSeal : Nat := 0x0D02
def opCalRun : Nat := 0x1001
def opFwBegin : Nat := 0x1101
def opFwData : Nat := 0x1102
def opFwCommit : Nat := 0x1103

/-- The payload length an opcode asks for (R111). -/
inductive LenRule where
  | exact (n : Nat)
  | atLeast (n : Nat)
  /-- 4 + 2N, N in byte 1 (Table 5-7) -/
  | fences
  /-- 4 + K, K a multiple of 4, 4 to 252 (Table 5-9) -/
  | image
deriving DecidableEq, Repr

def LenRule.ok (r : LenRule) (c : Cmd) : Bool :=
  match r with
  | .exact n => c.len == n
  | .atLeast n => decide (n ≤ c.len)
  | .fences => decide (4 ≤ c.len) && c.len == 4 + 2 * byteAt c.payload 1
  | .image => decide (8 ≤ c.len ∧ c.len ≤ 256) && c.len % 4 == 0

/-- The states in which an opcode's precondition holds: every served state, or the ones listed. -/
inductive StateRule where
  | served
  /-- STANDBY, BEAM, DEGRADED -/
  | notSafe
  /-- STANDBY, BEAM, DEGRADED, SAFE -/
  | withSafe
  | standby
  /-- STANDBY, SAFE -/
  | update
deriving DecidableEq, Repr

def StateRule.ok (r : StateRule) (s : DevState) : Bool :=
  match r with
  | .served => true
  | .notSafe => s == .standby || s == .beam || s == .degraded
  | .withSafe => s == .standby || s == .beam || s == .degraded || s == .safe
  | .standby => s == .standby
  | .update => s == .standby || s == .safe

/-- A row of Table 5-2: opcode, classes as in Port.classBit, states, and length. -/
structure OpRow where
  opcode : Nat
  classes : Nat
  states : StateRule
  len : LenRule
deriving DecidableEq, Repr

/-- Table 5-2. -/
def opTable : List OpRow := [
  ⟨opGetInfo, 15, .served, .exact 0⟩, ⟨opGetParam, 15, .served, .exact 8⟩, ⟨opSetParam, 15, .served, .atLeast 8⟩,
  ⟨opAbort, 15, .served, .exact 4⟩, ⟨opSetCompat, 13, .standby, .exact 4⟩, ⟨opBeamEnable, 15, .withSafe, .exact 4⟩,
  ⟨opSelectMode, 13, .notSafe, .exact 4⟩, ⟨opSlotMask, 13, .notSafe, .exact 4⟩, ⟨opSnapshot, 15, .served, .exact 0⟩,
  ⟨opSnapshotRead, 13, .served, .exact 4⟩, ⟨opLayerDeclare, 13, .notSafe, .exact 24⟩,
  ⟨opLayerDestroy, 13, .notSafe, .exact 4⟩, ⟨opCommitGroup, 13, .notSafe, .fences⟩,
  ⟨opFenceSignal, 13, .notSafe, .exact 8⟩, ⟨opObjectList, 13, .notSafe, .atLeast 4⟩, ⟨opGeometry, 12, .standby, .exact 64⟩,
  ⟨opLampEnable, 13, .notSafe, .exact 4⟩, ⟨opDimSet, 15, .notSafe, .exact 8⟩, ⟨opRampCurve, 13, .standby, .exact 4⟩,
  ⟨opSignature, 13, .withSafe, .exact 16⟩, ⟨opJournalRead, 13, .withSafe, .exact 8⟩,
  ⟨opJournalSeal, 15, .withSafe, .exact 0⟩, ⟨opCalRun, 12, .standby, .exact 4⟩, ⟨opFwBegin, 4, .update, .exact 8⟩,
  ⟨opFwData, 4, .update, .image⟩, ⟨opFwCommit, 4, .update, .exact 4⟩]

def opRow? (op : Nat) : Option OpRow := opTable.find? fun r => r.opcode == op

/-- An opcode abortable from its admission on (R101). -/
def opAbortable (op : Nat) : Bool :=
  op == opCalRun || op == opJournalRead || op == opFwBegin || op == opFwData || op == opFwCommit || op == opSelectMode

/-- Checks 3 to 7 of Table 4-15: the status of the first failure. In the Acorn recovery service an opcode it does not serve
gets no check 7 (R110). `carried` says that LEN equals the payload carried (R91, R92). -/
def Dev.admissionCheck (d : Dev) (p : Port) (c : Cmd) (carried : Bool) : Option Nat :=
  if payloadLimit p < c.len ∨ !carried then some stBadArg
  else if c.expCl ≠ 0 ∧ c.expCl ≠ d.core.activeCl then some stCompat
  else match opRow? c.opcode with
    | none => some stBadOpcode
    | some r =>
      if r.classes / p.classBit % 2 = 0 ∨ (p = .jtag ∧ d.aon.jtagLock ∧ c.opcode ≠ opGetInfo) then some stDeniedPort
      else if d.core.acornService ∧ c.opcode ≠ opGetInfo ∧ !isFwOpcode c.opcode then some stOverridden
      else if r.len.ok c then none else some stBadArg

/-- The opcode's states hold now (check 10). -/
def Dev.opStateOk (d : Dev) (op : Nat) : Bool := (opRow? op).all fun r => r.states.ok d.core.state

/-! ### SET_PARAM of an action -/

/-- The writes that have rows of their own in the command table. -/
inductive ParamAct where
  | patErase
  | patProgram
  | patVerify
  | patInvalidate
  | tableCommit
  | faultClear
  | reactionSet
  | snapRelease
  | segCommit
  | retrain1
  | retrain2
deriving DecidableEq, Repr

/-- The row that a SET_PARAM payload names; none for every other write, and for values of PAT_CTRL and RETRAIN that name no
operation. -/
def paramAct (payload : List Byte) : Option ParamAct :=
  let id := leField payload 0 4
  let key := id - idInst id * 0x10000
  if key = kPlcPatCtrl then
    match byteAt payload 9 with
    | 1 => some .patErase
    | 2 => some .patProgram
    | 3 => some .patVerify
    | 4 => some .patInvalidate
    | _ => none
  else if key = kCmpTableCommit then some .tableCommit
  else if key = kSafFaultClear then some .faultClear
  else if key = kSafReactionSet then some .reactionSet
  else if key = kSafSnapRelease then some .snapRelease
  else if key = kAuxSegCommit then some .segCommit
  else if key = kLnkRetrain ∨ key = lkey kLnkRetrain .lnk1 then
    match byteAt payload 8 with
    | 1 => some .retrain1
    | 2 => some .retrain2
    | _ => none
  else none

end Sys2Proof.Machine
end

