-- ==== Sys2Proof/Machine/Ops.lean ====
section
/-! DEFINITION. The mailbox (R96 to R101, R105) and the register map (R86 to R90, R103): admission, service of the command at the
head of a port, abort, and reads and writes of registers. -/

namespace Sys2Proof.Machine

open Sys2Proof

/-! ### Admission (R96 to R98) -/

/-- The cached entry that an arriving command equals (R97). -/
def Dev.cacheHit (d : Dev) (p : Port) (c : Cmd) : Option CacheEntry :=
  (d.port p).cache.find? fun e => e.tag == c.tag && e.opcode == c.opcode && e.len == c.len && e.crc == c.crc

/-- A tag is open on a port. -/
def Dev.tagOpen (d : Dev) (p : Port) (tag : Nat) : Bool := (d.port p).opens.any fun c => c.cmd.tag == tag

/-- The slot of a discarded command is FREE again. -/
def Dev.freeSlot (d : Dev) (p : Port) (slot : Nat) : Dev :=
  let free (m : RegMap) : RegMap := { m with slots := modAt m.slots slot fun s => { s with st := .free } }
  match p with
  | .spi => d.modMap .spi free
  | .jtag => d.modMap .jtag free
  | _ => d

/-- A command becomes open; its admission removes the cache entry of its tag (R97). -/
def Dev.openCmd (d : Dev) (p : Port) (slot : Nat) (c : Cmd) : Dev :=
  d.modPort p fun q => { q with
    opens := q.opens ++ [{ cmd := c, slot := slot, stage := .queued, pendingSent := false, admitted := d.now }],
    cache := q.cache.filter fun e => e.tag != c.tag }

/-- A command arrives on a port (R96, R97): answered from the cache; refused with BUSY; discarded as a tag conflict; or
admitted, and completed at once when one of checks 3 to 7 fails. -/
def Dev.accept (d : Dev) (p : Port) (slot : Nat) (c : Cmd) (carried : Bool) : Dev :=
  if !d.serves p then d.freeSlot p slot
  else match d.cacheHit p c with
    | some e => d.respond p slot e.opcode e.tag e.status e.response
    | none =>
      if p ≠ .spi ∧ p ≠ .jtag ∧ 4 ≤ (d.port p).opens.length then d.respond p slot c.opcode c.tag stBusy []
      else if d.tagOpen p c.tag then
        ((d.freeSlot p slot).count kHostTagConflict p.ix 1).post 0x0302 (c.tag + 0x10000 * p.ix)
      else
        match d.admissionCheck p c carried with
        | some st => (d.openCmd p slot c).finishWith p c.tag st
        | none => d.openCmd p slot c

/-! ### Service (R100) -/

/-- The command a port serves next: the first ABORT that waits, else the first command that waits. -/
def Dev.headOpen (d : Dev) (p : Port) : Option OpenCmd :=
  let q := (d.port p).opens.filter fun c => c.stage == .queued
  (q.find? fun c => c.cmd.opcode == opAbort).or q.head?

/-- Commands of different ports are taken in the order of their admission, in one tick in port-code order; an ABORT goes ahead
of all others (R100, R105). -/
def Dev.turnOf (d : Dev) (p : Port) (c : OpenCmd) : Bool :=
  c.cmd.opcode == opAbort || allPorts.all fun q => q == p || !d.serves q ||
    match d.headOpen q with
    | some h => decide (c.admitted < h.admitted ∨ (c.admitted = h.admitted ∧ p.ix < q.ix))
    | none => true

/-- The command at the head of a port, when it has an opcode, the port is served and it is the command's turn. -/
def Dev.headOf (d : Dev) (p : Port) (op : Nat) : Option Cmd :=
  if d.serves p then ((d.headOpen p).filter fun c => c.cmd.opcode == op && d.turnOf p c).map OpenCmd.cmd else none

/-- A final OK with a payload. -/
def Dev.ok (d : Dev) (p : Port) (tag : Nat) (payload : List Byte) : Dev := d.finish p tag stOk payload

/-- Service of the command of an opcode at the head of a port: checks 8 and 9 (`check`), check 10, and the command's effect. A
head of another opcode, or none, leaves the block as it is (log entry 4). -/
def Dev.serve (d : Dev) (p : Port) (op : Nat) (check : Cmd → Option Nat) (act : Cmd → Dev) : Dev :=
  match d.headOf p op with
  | none => d
  | some c =>
    match check c with
    | some st => d.finishWith p c.tag st
    | none => if d.opStateOk op then act c else d.finishWith p c.tag stOverridden

/-- Service of a SET_PARAM with a row of its own: the instance, and the value once every check of R113 has passed. -/
def Dev.serveAct (d : Dev) (p : Port) (a : ParamAct) (act : Cmd → Nat → Nat → Dev) : Dev :=
  match d.headOf p opSetParam with
  | none => d
  | some c =>
    if paramAct c.payload ≠ some a then d
    else match d.openWrite p c.payload with
      | .error st => d.finishWith p c.tag st
      | .ok w =>
        match d.scalarIn w with
        | .error st => d.finishWith p c.tag st
        | .ok v => act c (idInst w.id) v.toNat

/-! ### Abort (R101, R129) -/

/-- A queued command leaves with no change of state. -/
def Dev.abortOpen (d : Dev) (p : Port) (c : OpenCmd) : Dev :=
  let tag := c.cmd.tag
  if c.stage = .queued then d.finishWith p tag stAborted
  else if c.cmd.opcode = opCalRun then (d.abortRun p tag).finishWith p tag stAborted
  else if c.cmd.opcode = opSelectMode then
    ({ d with seq := { d.seq with change := match d.seq.change with
        | .pending _ _ _ _ => .none_
        | .bridging m q t n (some _) => .bridging m q t n none
        | x => x } }).finishWith p tag stAborted
  else if c.cmd.opcode = opFwBegin then
    (({ d with upd := { Update.reset with restartDue := d.upd.restartDue, dirWaiting := d.upd.dirWaiting } }).release
      (.erase .image)).finishWith p tag stAborted
  else d.finishWith p tag stAborted

/-- An open command may be aborted now: SELECT_MODE only while its change is pending. -/
def Dev.abortable (d : Dev) (p : Port) (c : OpenCmd) : Bool :=
  opAbortable c.cmd.opcode &&
  !(match d.seq.change with
    | .bridging _ q t _ _ => c.cmd.opcode == opSelectMode && q == p && t == c.cmd.tag && c.stage == .waiting
    | _ => false)

/-- ABORT of a tag on its port. The ABORT itself is no target of its own tag. -/
def Dev.abortCmd (d : Dev) (p : Port) (tag target : Nat) : Dev :=
  match (d.port p).opens.find? fun c => c.cmd.tag == target with
  | some c =>
    if d.abortable p c then (d.abortOpen p c).finishWith p tag stOk else d.finishWith p tag stBusy
  | none =>
    if (d.port p).cache.any fun e => e.tag == target then d.finishWith p tag stAlreadyDone else d.finishWith p tag stBadArg

/-! ### Registers (Tables 4-3 to 4-10) -/

/-- Only DEV_ID and DEV_STATE answer in RESET, BOOT and THERMAL_OFF (R87). -/
def Dev.mapOpen (d : Dev) : Bool := d.core.state != .reset && d.core.state != .boot && d.core.state != .thermalOff

/-- Where only DEV_ID and DEV_STATE respond, they do while VDD_AON and VDD_IO33 are in range (R87). -/
def Dev.responds (d : Dev) : Bool := d.mapOpen || (d.aon.supplies.getD 0 true && d.aon.supplies.getD 1 true)

/-- The four bytes of a word of a byte window. -/
def windowWord (bs : List Byte) (off : Nat) : Nat := leField bs off 4

/-- The event record at the head of a register port's window; zeros for none (R103). -/
def Dev.eventHead (d : Dev) (p : RegPort) : List Byte :=
  match (d.port p.port).events with
  | e :: _ => e.bytes
  | [] => List.replicate 16 0

/-- A register word (Table 4-3). Write-only, reserved and unassigned fields read 0. What is read where nothing responds is a
free value (log entry 116). -/
def Dev.regWord (d : Dev) (p : RegPort) (a : Nat) : Nat :=
  let m := d.map p
  if !d.responds then d.free.toNat % 0x100000000
  else if a = 0x0000 then d.devId
  else if a = 0x0004 then d.devStateWord
  else if !d.mapOpen then 0
  else if a = 0x0008 then (if p = .spi then d.irqStatus else 0)
  else if a = 0x000C then (if p = .spi then m.irqEnable.toNat else 0)
  else if a = 0x0010 then d.now % 0x100000000
  else if a = 0x0014 then d.host.timeHi.toNat
  else if a = 0x0024 then mbxDoneWord m
  else if 0x0040 ≤ a ∧ a < 0x0060 then
    let s := m.slots.getD ((a - 0x40) / 8) SlotRegs.reset
    if a % 8 = 0 then s.cmdh.toNat % 0x100000000 else s.cmdh.toNat / 0x100000000
  else if 0x0060 ≤ a ∧ a < 0x0080 then
    let s := m.slots.getD ((a - 0x60) / 8) SlotRegs.reset
    if a % 8 = 0 then s.rsph.toNat % 0x100000000 else s.rsph.toNat / 0x100000000
  else if 0x0100 ≤ a ∧ a < 0x0500 then windowWord (m.slots.getD ((a - 0x100) / 0x100) SlotRegs.reset).payload (a % 0x100)
  else if 0x0500 ≤ a ∧ a < 0x0900 then windowWord (m.slots.getD ((a - 0x500) / 0x100) SlotRegs.reset).resp (a % 0x100)
  else if 0x0900 ≤ a ∧ a < 0x0910 then windowWord (d.eventHead p) (a - 0x900)
  else if a = 0x0A00 then d.snapCtrl
  else 0

/-- A word is read out of the map: TIME_LO latches TIME_HI (Table 4-7). -/
def Dev.regRead (d : Dev) (p : RegPort) (a : Nat) : Dev :=
  let v := d.regWord p a
  let d1 : Dev := if a = 0x0010 ∧ d.mapOpen then
    { d with host := { d.host with timeHi := BitVec.ofNat 32 (d.now / 0x100000000) } } else d
  let d2 := if d.responds then d1 else d1.drawn
  d2.modMap p fun m => { m with lastRead := BitVec.ofNat 32 v, readOut := m.readOut ++ [BitVec.ofNat 32 v] }

/-- A transaction that reads begins. -/
def Dev.startRead (d : Dev) (p : RegPort) : Dev := d.modMap p fun m => { m with readOut := [] }

/-- Word 0x090C has been read to its last bit: the head record leaves (R103). -/
def Dev.popEvent (d : Dev) (p : RegPort) : Dev :=
  if d.mapOpen then d.modPort p.port fun q => { q with events := q.events.drop 1 } else d

/-- IRQ_STATUS bits written with 1 clear, but not those that hardware set in this tick (R15). -/
def Dev.clearIrq (d : Dev) (w : BitVec 5) : Dev :=
  let keep := bitMap (d.host.spi.irqSetAt.map fun t => t == some d.now)
  d.modMap .spi fun m => { m with irqW1c := m.irqW1c &&& (~~~ w ||| BitVec.ofNat 5 keep) }

/-- The doorbell of one slot (R89). -/
def Dev.ringSlot (d : Dev) (p : RegPort) (n : Nat) : Dev :=
  let s := (d.map p).slots.getD n SlotRegs.reset
  if s.st ≠ .free then
    let d1 := if p = .spi then d.setIrq 4 else d
    d1.count kHostDoorbellViol p.port.ix 1
  else
    let c0 := cmdOf s.cmdh.toNat []
    (d.modMap p fun m => { m with slots := modAt m.slots n fun s => { s with st := .open_ } }).accept p.port n
      { c0 with payload := s.payload.take c0.len } true

/-- RING bits are taken in ascending order (R89); where no mailbox service runs, doorbells are ignored (Table 1-6). -/
def Dev.ringBell (d : Dev) (p : RegPort) (ring : Nat) : Dev :=
  if d.serves p.port then ((List.range 4).filter fun n => ring.testBit n).foldl (fun d n => d.ringSlot p n) d else d

/-- DONE bits written with 1 release their slots (R89), but not one that hardware set in this tick (R15). -/
def Dev.releaseDone (d : Dev) (p : RegPort) (w : Nat) : Dev :=
  let one (n : Nat) (s : SlotRegs) : SlotRegs :=
    if w.testBit n && s.st == .done && s.doneAt != some d.now then { s with st := .free } else s
  if d.mapOpen then d.modMap p fun m => { m with slots := m.slots.mapIdx one } else d

/-- A command register of a slot is written while the slot is FREE (R89). -/
def Dev.writeSlotReg (d : Dev) (p : RegPort) (n : Nat) (f : SlotRegs → SlotRegs) : Dev :=
  d.modMap p fun m => { m with slots := modAt m.slots n fun s => if s.st = .free then f s else s }

/-- The common trigger of SNAP_CTRL (R366). -/
def Dev.snapTrig (d : Dev) : Dev := if d.mapOpen then d.snapshot 3 else d

/-- A word is written into the map. Read-only, reserved and unassigned addresses ignore it. -/
def Dev.regWrite (d : Dev) (p : RegPort) (a v : Nat) : Dev :=
  if !d.mapOpen then d
  else if a = 0x0008 then (if p = .spi then d.clearIrq (BitVec.ofNat 5 (v / 4)) else d)
  else if a = 0x000C then (if p = .spi then d.modMap .spi fun m => { m with irqEnable := BitVec.ofNat 7 v } else d)
  else if a = 0x0020 then d.ringBell p (v % 16)
  else if a = 0x0024 then d.releaseDone p (v % 16)
  else if 0x0040 ≤ a ∧ a < 0x0060 then
    let half (h : Long) : Long :=
      if a % 8 = 0 then BitVec.ofNat 64 (h.toNat / 0x100000000 * 0x100000000 + v)
      else BitVec.ofNat 64 (h.toNat % 0x100000000 + v * 0x100000000)
    d.writeSlotReg p ((a - 0x40) / 8) fun s => { s with cmdh := half s.cmdh }
  else if 0x0100 ≤ a ∧ a < 0x0500 then
    d.writeSlotReg p ((a - 0x100) / 0x100) fun s => { s with payload := putBytes s.payload (a % 0x100) (leBytes 4 v) }
  else if a = 0x0A00 then
    let d1 : Dev := { d with saf := { d.saf with snapNEn := v.testBit 16 } }
    if v.testBit 0 then d1.snapTrig else d1
  else d

/-- A framing error (R87): SPI_ERR and its counter, on SPI, where the map is open. -/
def Dev.spiError (d : Dev) (p : RegPort) : Dev :=
  if p = .spi ∧ d.mapOpen then (d.setIrq 4).count kHostSpiErrCount 0 1 else d

/-- The whole words of a write. -/
def Dev.writeWords (d : Dev) (p : RegPort) : Nat → Nat → List Byte → Dev
  | 0, _, _ => d
  | n + 1, a, bs =>
    if bs.length < 4 then d else (d.regWrite p a (leField bs 0 4)).writeWords p n ((a + 4) % 0x10000) (bs.drop 4)

/-- The words of a read: each is sampled at its first data bit; 0x090C pops when whole. -/
def Dev.readWords (d : Dev) (p : RegPort) : Nat → Nat → List Byte → Dev
  | 0, _, _ => d
  | n + 1, a, bs =>
    if bs.isEmpty then d
    else
      let d1 := d.regRead p a
      let d2 := if a = 0x090C ∧ 4 ≤ bs.length then d1.popEvent p else d1
      d2.readWords p n ((a + 4) % 0x10000) (bs.drop 4)

/-- A whole transaction (Table 4-2, R87): fewer than three bytes have no effect and no error. -/
def Dev.transaction (d : Dev) (p : RegPort) (bs : List Byte) : Dev :=
  let a := leField bs 1 2
  if bs.length < 3 then d
  else if (byteAt bs 0 ≠ 2 ∧ byteAt bs 0 ≠ 3) ∨ a % 4 ≠ 0 then d.spiError p
  else if byteAt bs 0 = 2 then d.writeWords p bs.length a (bs.drop 3)
  else (d.startRead p).readWords p bs.length a (bs.drop 4)

/-- DBG_MBX at Update-DR (R90): bit 0 WRITE, [17:2] address, [49:18] data. -/
def Dev.debugUpdate (d : Dev) (dr : Nat) : Dev :=
  let a := bitsOf dr 2 16
  if a % 4 ≠ 0 then d
  else if dr.testBit 0 then d.regWrite .jtag a (bitsOf dr 18 32) else (d.startRead .jtag).regRead .jtag a

end Sys2Proof.Machine
end

