-- ==== Sys2Proof/Machine/SafeOps.lean ====
section
/-! DEFINITION. Recovery from faults (R362, R363): which clearing condition holds, what a clearance releases, FAULT_CLEAR and the
clearances that come with time; REACTION_SET; and SNAPSHOT_READ (R120, R368). -/

namespace Sys2Proof.Machine

open Sys2Proof

/-! ### Clearing conditions (Table 15-2) -/

/-- The image that a side's request selects, or its fallback, is valid (PATTERN_INVALID). -/
def Dev.imageHeals (d : Dev) (s : Nat) : Bool :=
  let b := d.base s
  d.imageOk s d.row (if d.req.inForce = 1 then b.low else b.high) || d.imageOk s d.row b.fallback

/-- The clearing condition of an active HOST fault holds now. -/
def Dev.hostHolds (d : Dev) (f : ActiveFault) : Bool :=
  if f.code = 0x0407 then d.imageHeals f.inst
  else if f.code = 0x0707 then (d.mport f.inst).fltN
  else if f.code = 0x0904 ∨ f.code = 0x0C01 then f.actionDone
  else if f.code = 0x0E01 then d.clk.refclkGood && d.clk.plls.all PllSt.locked
  else if f.code = 0x0E02 then (d.pll 0).locked
  else if f.code = 0x0E04 then (d.pll 2).locked
  else true

/-- A fault is recovered by FAULT_CLEAR. -/
def isHostFault (code : Nat) : Bool := (faultRow? code).any fun r => r.recovery == .host

/-- One second has passed since the fault was last raised (Table 15-2). -/
def Dev.quietSecond (d : Dev) (code inst : Nat) : Bool :=
  d.saf.active.all fun f => !(f.code == code && f.inst == inst) || decide (f.raisedAt + 100000000 ≤ d.now)

/-- The clearing condition of an AUTO fault holds (Table 15-2): a state, or 1 s without recurrence. -/
def Dev.autoHolds (d : Dev) (code inst : Nat) : Bool :=
  if ([0x0602, 0x0603, 0x0702, 0x0703, 0x0805, 0x0903, 0x0A08] : List Nat).contains code then d.quietSecond code inst
  else if code = 0x0102 then (d.link .lnk0).state == .l0
  else if code = 0x0202 then (d.link .lnk1).state == .l0
  else if code = 0x0107 then (d.link .lnk0).state == .detect
  else if code = 0x0207 then (d.link .lnk1).state == .detect
  else if code = 0x0304 then !d.veh.beamLost && !d.veh.motionLost
  else if code = 0x0601 then d.seq.eccWords.isEmpty
  else if code = 0x0706 then (d.mport inst).state == .power
  else if code = 0x0804 then d.sht.geomValid
  else if code = 0x0A03 then decide (8 ≤ (d.chan inst).vfPasses)
  else if code = 0x0A07 then (d.lside inst).vhLows == 0
  else if code = 0x0A09 then (d.lside inst).boost == .run
  else if code = 0x0A0A then !(d.lside inst).substituted
  else if code = 0x0A0B then !d.lamp.dimLost
  else if code = 0x0B01 then (d.target inst).st != .lost
  else if code = 0x0D01 then false
  else if code = 0x0E03 then (d.pll 1).locked
  else if code = 0x1001 then !d.cal.disagreeMap.getLsbD inst
  else true

/-! ### What a clearance brings -/

/-- A port is powered down and up (Table 10-7). -/
def Dev.repower (d : Dev) (s : Nat) : Dev :=
  match (d.mport s).state with
  | .parked => (d.powerDownNow s).modMport s fun p => { p with powerUpWanted := true }
  | .fault => (d.powerDownNow s).modMport s fun p => { p with powerUpWanted := true }
  | .off => d.powerUp s
  | _ => d

/-- A slot leaves SAFE unless another of its faults is active. -/
def Dev.recoverIfFree (d : Dev) (n : Nat) : Dev :=
  if ([0x0901, 0x0902, 0x0904] : List Nat).any fun c => d.faultActive c n then d else d.recoverSlot n

/-- A fault is cleared, and releases its slot or port; channels follow at the next refresh boundary (R303). -/
def Dev.recover (d : Dev) (code inst : Nat) : Dev :=
  let d1 := d.clearFault code inst
  if code = 0x0901 ∨ code = 0x0902 ∨ code = 0x0904 then d1.recoverIfFree inst
  else if 0x0707 ≤ code ∧ code ≤ 0x070A then d1.repower inst
  else d1

/-- What the end of the last SIDE or DEV cause lets follow: SAFE ends, or BEAM starts (Table 1-7). -/
def Dev.afterClear (d : Dev) : Dev := d.leaveSafe.settle

/-! ### FAULT_CLEAR (R363) -/

/-- The faults that a FAULT_CLEAR value clears. -/
def Dev.clears (d : Dev) (v : Nat) : List ActiveFault :=
  d.saf.active.filter fun f =>
    isHostFault f.code && d.hostHolds f &&
    (v % 0x10000 == 0xFFFF || (f.code == v % 0x10000 && f.inst == bitsOf v 16 8))

/-- FAULT_CLEAR: OK when it clears at least one fault, STATE_OVERRIDDEN otherwise. -/
def Dev.faultClear (d : Dev) (p : Port) (tag v : Nat) : Dev :=
  match d.clears v with
  | [] => d.finishWith p tag stOverridden
  | fs => ((fs.foldl (fun (d : Dev) (f : ActiveFault) => d.recover f.code f.inst) d).finishWith p tag stOk).afterClear

/-- FAULT_AUTO_CLEAR: an AUTO fault whose condition holds is cleared. A port in FAULT for it alone is powered down and up. -/
def Dev.autoClear (d : Dev) (code inst : Nat) : Dev :=
  if d.faultActive code inst && ((faultRow? code).any fun r => r.recovery == .auto) && d.autoHolds code inst then
    let d1 := d.clearFault code inst
    let held := ([0x0707, 0x0708, 0x0709] : List Nat).any fun c => d1.faultActive c inst
    (if code = 0x0703 ∧ (d1.mport inst).state = .fault ∧ !held then d1.repower inst else d1).afterClear
  else d

/-- REACTION_SET (R369): the reaction of a row, mirrored to NOR. -/
def Dev.setReaction (d : Dev) (v : Nat) : Dev :=
  let r := (([.rec_, .ch, .side, .dev] : List Reaction).find? fun x => x.code == bitsOf v 16 2).getD .rec_
  let l := kvSet d.saf.reactions (v % 0x10000) r
  { d with saf := { d.saf with reactions := l }, nor := { d.nor with mirrorReactions := l } }

/-! ### Snapshots -/

/-- A unit or side that the part does not have (R4). -/
def Dev.recordAbsent (d : Dev) (unit inst : Nat) : Bool :=
  !d.dual && (unit == 2 || (inst == 1 && (unit == 5 || unit == 7 || unit == 0x0A)))

/-- SNAPSHOT_READ: status and the record's bytes from an offset on, cut at the port's limit. -/
def Dev.snapRead (d : Dev) (limit : Nat) (payload : List Byte) : Nat × List Byte :=
  let unit := byteAt payload 0
  let inst := byteAt payload 1
  let off := leField payload 2 2
  let bank := if inst.testBit 7 then (if d.saf.snapHeld then d.saf.held else []) else d.saf.live
  if d.recordAbsent unit (inst % 128) then (stNotPresent, [])
  else match bank.find? fun r => r.unit == unit && r.inst == inst % 128 with
    | none => (stBadArg, [])
    | some r => if r.bytes.length ≤ off then (stBadArg, []) else (stOk, (r.bytes.drop off).take limit)

/-- SNAP_RELEASE empties the held bank (R367). -/
def Dev.snapRelease (d : Dev) : Dev := { d with saf := { d.saf with held := [], snapHeld := false } }

end Sys2Proof.Machine
end

