-- ==== Sys2Proof/Machine/AuxCmds.lean ====
section
/-! DEFINITION. Commands of the auxiliary outputs (chapter 14). -/

namespace Sys2Proof.Machine

open Sys2Proof

/-- SEG_FRAME_START (R335). -/
def execSegFrameStart (s : Side) (st : State) : Host.Outcome State Fault Refusal := st.on fun d => d.segFrame s.ix

/-- MX_WRITE_DONE (R345). -/
def execMxWriteDone (s : State) : Host.Outcome State Fault Refusal := s.on fun d => if d.auxRuns then d.mxWritten else d

/-- MX_TE_EDGE (R345, R346). -/
def execMxTeEdge (target : Nat) (s : State) : Host.Outcome State Fault Refusal :=
  s.on fun d => if target < 4 then d.mxEdge target else d

/-- MX_TE_TIMEOUT (R346). -/
def execMxTeTimeout (target : Nat) (s : State) : Host.Outcome State Fault Refusal :=
  s.on fun d => if target < 4 then d.mxLost target else d

/-- SCAN_LINE (R343). -/
def execScanLine (s : State) : Host.Outcome State Fault Refusal := s.on Dev.scanStep

end Sys2Proof.Machine
end

