-- ==== Sys2Proof/Machine/CameraCmds.lean ====
section
/-! DEFINITION. Commands of the camera lock (R205 to R208). -/

namespace Sys2Proof.Machine

open Sys2Proof

/-- The nominal camera period P_n in thirds of a tick. -/
def Dev.camNominal (d : Dev) : Nat := d.par kMstCamRatio 0 * (2 * d.row.refreshCycles)

/-- Where the camera lock works (R208). -/
def Dev.camRuns (d : Dev) : Bool :=
  (d.core.state == .standby || d.core.state == .beam || d.core.state == .degraded) && d.cam.state != 0

def Dev.modCam (d : Dev) (f : Cam → Cam) : Dev := { d with cam := f d.cam }

/-- RANGE: an ignored edge, or a re-reference. -/
def Dev.camRange (d : Dev) : Dev :=
  (d.setPar kMstCamFlags 0 ((d.par kMstCamFlags 0 ||| 2 : Nat) : Int)).count kMstCamRangeErr 0 1

/-- The phase error at a valid pulse (R206), in ticks. It is taken into −half to +half of k refresh periods, which are held in
thirds of a tick; what is left of a tick is rounded as the manual does not say (log entry 29). -/
def Dev.camError (d : Dev) (time boundary : Nat) : Int :=
  let m : Int := (d.par kMstCamRatio 0 * d.cam.period3 : Nat)
  let x : Int := 3 * ((boundary : Int) - time - d.par kMstCamOffset 0)
  let y := if m = 0 then x else x % m
  let z := if m < 2 * y then y - m else y
  openRound 12 z 3

/-- The phase that PLL-Q is to be stepped by: e in steps of 13.0 ps, 768 to a tick, within 50 µs. -/
def phaseSteps (e : Int) : Int := if e.natAbs ≤ 5000 then e * 768 else 0

/-- Lock decisions at a valid pulse (Table 8-4). -/
def Dev.camJudge (d : Dev) (e : Int) : Dev :=
  let win := d.par kMstCamLockWin 0
  let run := if e.natAbs ≤ win then d.cam.winRun + 1 else 0
  let d1 := d.modCam fun c => { c with phaseErr := e, winRun := run }
  let d2 := { d1 with clk := { d1.clk with phaseTarget := phaseSteps e } }
  if d.cam.state = 2 ∧ 8 ≤ run then (d2.modCam fun c => { c with state := 3 }).post 0x0610 (code 32 e)
  else if d.cam.state = 3 ∧ 4 * win < e.natAbs then
    (d2.modCam fun c => { c with state := 2, winRun := 0 }).post 0x0611 (code 32 e)
  else d2

/-- A valid pulse: the period is kept with the three before it; in FREE the second in a row starts ACQUIRE. -/
def Dev.camValid (d : Dev) (interval time boundary : Nat) : Dev :=
  let d1 := d.modCam fun c => { c with
    reference := some time, lastValid := time, validRun := c.validRun + 1, periods := (interval :: c.periods).take 4, period := interval }
  if d.cam.state = 1 then
    (if 2 ≤ d1.cam.validRun then d1.modCam fun c => { c with state := 2, winRun := 0, groupReset := true } else d1)
  else d1.camJudge (d1.camError time boundary)

/-- An edge of the selected polarity on the selected input (R205). -/
def Dev.camEdge (d : Dev) (time boundary : Nat) : Dev :=
  match d.cam.reference with
  | none => d.modCam fun c => { c with reference := some time, validRun := 0 }
  | some r =>
    let x := 300 * (time - r)
    let p := d.camNominal
    if x < 98 * p then d.camRange
    else if x ≤ 102 * p then d.camValid (time - r) time boundary
    else (d.camRange).modCam fun c => { c with reference := some time, validRun := 0, winRun := 0 }

/-- CAMERA_EDGE (R205, R206). -/
def execCameraEdge (input : Nat) (falling : Bool) (time boundary : Nat) (s : State) : Host.Outcome State Fault Refusal :=
  s.on fun d =>
    if d.camRuns && d.par kMstCamSel 0 == input + 1 && d.par kMstCamEdge 0 == b2n falling then d.camEdge time boundary else d

/-- No valid pulse has come for CAM_TIMEOUT × P_n (Table 8-4). -/
def Dev.camSilent (d : Dev) : Bool := decide (d.par kMstCamTimeout 0 * d.camNominal ≤ 3 * (d.now - d.cam.lastValid))

/-- CAM_TIMEOUT (R207): FREE, with LOST set and CAM_LOST posted; the nominal period returns at the next refresh boundary. -/
def execCamTimeout (s : State) : Host.Outcome State Fault Refusal :=
  s.on fun d =>
    if d.camRuns ∧ 2 ≤ d.cam.state ∧ d.camSilent then
      let d1 := d.modCam fun c => { c with
        state := 1, reference := none, validRun := 0, periods := [], winRun := 0, groupReset := false }
      let d2 := { d1 with clk := { d1.clk with phaseTarget := 0 } }
      (d2.setPar kMstCamFlags 0 ((d.par kMstCamFlags 0 ||| 1 : Nat) : Int)).post 0x0612 (d.par kMstCamSel 0)
    else d

end Sys2Proof.Machine
end

