-- ==== Sys2Proof/Machine/CanCmds.lean ====
section
/-! DEFINITION. Commands of CAN FD: mailbox frames, vehicle signals, their loss, and bus-off (R92 to R94, R106, R107). -/

namespace Sys2Proof.Machine

open Sys2Proof

/-! ### Mailbox messages (R92) -/

/-- A command frame joins the message being collected: FIRST starts one, and a segment before the LAST holds 63 bytes. Without
a message in progress a segment that is not FIRST is discarded. -/
def canJoin (cur : Option CanRx) (seg : Nat) (body : List Byte) : Option CanRx :=
  let ok : Bool := seg.testBit 1 || body.length == 63
  if seg.testBit 0 then some { bytes := body, segments := 1, whole := ok }
  else cur.map fun m => { bytes := m.bytes ++ body, segments := m.segments + 1, whole := m.whole && ok }

/-- The segments a message of n bytes has. -/
def canSegments (n : Nat) : Nat := (n + 62) / 63

/-- The LAST segment is in: a message without a header is discarded; any other is a command, whose payload is carried when
the segments are those of its LEN. -/
def Dev.canWhole (d : Dev) (m : CanRx) : Dev :=
  if m.bytes.length < 8 then d
  else
    let c := cmdOf (leField m.bytes 0 8) (m.bytes.drop 8)
    let carried : Bool := m.whole && m.segments == canSegments (8 + c.len) && decide (8 + c.len ≤ m.bytes.length)
    d.accept .can 0 { c with payload := c.payload.take c.len } carried

def Dev.canMessage (d : Dev) (m : Option CanRx) : Dev := { d with host := { d.host with canRx := m } }

/-- One command frame. -/
def Dev.canFrame (d : Dev) (data : List Byte) : Dev :=
  match data with
  | [] => d
  | seg :: body =>
    match canJoin d.host.canRx seg.toNat body with
    | none => d
    | some m => if seg.toNat.testBit 1 then ((d.canMessage none).canWhole m).canIdleNow else d.canMessage (some m)

/-- CAN_MAILBOX_FRAME (R92). -/
def execCanMailboxFrame (data : List Byte) (s : State) : Host.Outcome State Fault Refusal :=
  s.on fun d => if d.canActive then d.canFrame data else d

/-- CAN_MESSAGE_TIMEOUT (R92): the message is discarded, and a staged CAN setting applies (R106). -/
def execCanMessageTimeout (s : State) : Host.Outcome State Fault Refusal :=
  s.on fun d => if d.host.canRx.isSome then (d.canMessage none).canIdleNow else d

/-! ### Vehicle signals (R93, R94) -/

/-- A vehicle frame of n bytes is valid: its CRC-8 is right and its CNT, at a byte, is not that of the previous valid frame. -/
def vehValid (data : List Byte) (n cntAt : Nat) (prev : Option Nat) : Bool :=
  data.length == n && data.getD (n - 1) 0 == crc8 (data.take (n - 1)) && prev != some (byteAt data cntAt % 16)

/-- VEH_TIMEOUT is over once no frame is lost. -/
def Dev.vehBack (d : Dev) : Dev :=
  if d.faultActive 0x0304 0 && !d.veh.beamLost && !d.veh.motionLost then (d.clearFault 0x0304 0).afterClear else d

/-- A valid VEH_BEAM. -/
def Dev.vehBeam (d : Dev) (data : List Byte) : Dev :=
  let first := d.veh.beamCnt.isNone
  let d1 := { d with veh := { d.veh with beamCnt := some (byteAt data 1 % 16), beamTime := d.now, beamLost := false } }
  (d1.vehBack).canRequest (byteAt data 0 % 8) first

/-- VEH_BEAM_FRAME (R93, R116). -/
def execVehBeamFrame (data : List Byte) (s : State) : Host.Outcome State Fault Refusal :=
  s.on fun d =>
    if d.canActive && vehValid data 8 1 d.veh.beamCnt && decide (byteAt data 0 % 8 ≤ 3) then d.vehBeam data else d

/-- A valid VEH_MOTION. -/
def Dev.vehMotion (d : Dev) (data : List Byte) : Dev :=
  let d1 := { d with veh := { d.veh with
    motionCnt := some (byteAt data 8 % 16), motionSeen := true, motionTime := d.now, motionLost := false,
    speed := leField data 0 2, yaw := leInt data 2 2, steer := leInt data 4 2, pitch := leInt data 6 2 } }
  (d1.vehBack).speedChanged

/-- VEH_MOTION_FRAME (R93, R210). -/
def execVehMotionFrame (data : List Byte) (s : State) : Host.Outcome State Fault Refusal :=
  s.on fun d => if d.canActive && vehValid data 16 8 d.veh.motionCnt then d.vehMotion data else d

/-- A valid VEH_TIME: it tells the vehicle time of the start of the frame before it; CNT one greater aligns the time base. The
time base is latched at its own start. -/
def Dev.vehTime (d : Dev) (data : List Byte) (sof : Nat) : Dev :=
  let cnt := byteAt data 8 % 16
  let d1 := { d with veh := { d.veh with timeCnt := some cnt, timeLatch := sof } }
  if d.veh.timeCnt = some ((cnt + 15) % 16) then
    d1.align ((leField data 0 8 : Int) + nsTicks (d.par kHostCanTimeDelay 0) - d.veh.timeLatch) none
  else d1

/-- VEH_TIME_FRAME (R94). -/
def execVehTimeFrame (data : List Byte) (sofTime : Nat) (s : State) : Host.Outcome State Fault Refusal :=
  s.on fun d =>
    if d.canActive && d.par kHostTimeSource 0 == 1 && vehValid data 16 8 d.veh.timeCnt then d.vehTime data sofTime else d

/-- The frames of a set are lost: the fault, and what each loss brings (R93, R116, R128). -/
def Dev.vehLost (d : Dev) (beam motion : Bool) : Dev :=
  let newBeam := beam && !d.veh.beamLost
  let newMotion := motion && !d.veh.motionLost
  if newBeam || newMotion then
    let v := { d.veh with beamLost := d.veh.beamLost || beam, motionLost := d.veh.motionLost || motion }
    let d1 := ({ d with veh := v }).raise 0x0304 0 (b2n v.beamLost + 2 * b2n v.motionLost)
    let d2 := if newBeam then d1.canRequestLost else d1
    if newMotion then d2.speedChanged else d2
  else d

/-- VEH_TIMEOUT has passed since a time. -/
def Dev.vehSilent (d : Dev) (since : Nat) : Bool := decide (since + msTicks (d.par kHostVehTimeout 0) ≤ d.now)

/-- VEH_TIMEOUT (R93): the frames named that have not arrived for that long. -/
def execVehTimeout (beam motion : Bool) (s : State) : Host.Outcome State Fault Refusal :=
  s.on fun d => if d.canActive then d.vehLost (beam && d.vehSilent d.veh.beamTime) (motion && d.vehSilent d.veh.motionTime) else d

/-- CAN_BUS_OFF (R107). -/
def execCanBusOff (s : State) : Host.Outcome State Fault Refusal :=
  s.on fun d => if d.canActive then (d.count kHostCanBusOffCount 0 1).post 0x0305 0 else d

end Sys2Proof.Machine
end

