-- ==== Sys2Proof/Machine/ComposeCmds.lean ====
section
/-! DEFINITION. Commands of composition: compose-frame starts, rows, passes, DRAM, intake copies and pattern loads (chapters 6
and 7). -/

namespace Sys2Proof.Machine

open Sys2Proof

/-- COMPOSE_FRAME_START (R22, R147, R160), at a refresh boundary that is a compose-frame boundary: passes, commits and policies run.
The stale raster follows a changed offset (R274), and the matrix port takes its frames (R345). -/
def execComposeFrameStart (s : State) : Host.Outcome State Fault Refusal :=
  s.on fun d =>
    if d.timelineRuns && d.seq.frameDue then
      let d := { d with seq := { d.seq with frameDue := false } }
      let old := (d.cmp.dx, d.cmp.dy)
      ((d.composeStart).restale old).mxCompose
    else d

/-- The catch-up ticket of a side. -/
def catchupOf (s : Side) : Holder := .catchup s

/-- T_line: floor(0.9 × compose-frame period in ticks / H), with the nominal period (R161, log entry 122). -/
def ModeRow.lineTicks (r : ModeRow) : Nat := 9 * r.composeTicks / (10 * r.fieldH)

/-- The line slot of the next row of a pass, on the time base. -/
def Dev.lineSlot (d : Dev) (s : Nat) : Nat :=
  let p := d.pipe s
  p.startAt + 2000 + p.nextRow * (d.rowOf p.mode).lineTicks

/-- The new mode's first pass runs in a bridge refresh: without line-slot pacing and without a ticket (R200). -/
def Dev.inBridge (d : Dev) : Bool := match d.seq.change with | .bridging _ _ _ _ _ => true | _ => false

/-- The next row may start: no earlier than its line slot; in a behind pass as soon as the previous row ends while the catch-up
ticket is held, and one T_line after the previous row starts while it is not (R161, R162). -/
def Dev.rowMayStart (d : Dev) (s : Side) : Bool :=
  let p := d.pipe s.ix
  if d.inBridge then true
  else if p.behind then d.ticketHeld (catchupOf s) || decide (p.rowAt + (d.rowOf p.mode).lineTicks ≤ d.now)
  else decide (d.lineSlot s.ix ≤ d.now)

/-- A row that starts more than 8 line slots after its own makes the pass behind, which asks for the catch-up ticket; one at or
before its slot gives it back (R162). -/
def Dev.paceRow (d : Dev) (s : Side) : Dev :=
  let slot := d.lineSlot s.ix
  if d.inBridge then d
  else if slot + 8 * (d.rowOf (d.pipe s.ix).mode).lineTicks < d.now ∧ !(d.pipe s.ix).behind then
    (d.modPipe s.ix fun p => { p with behind := true }).request (catchupOf s)
  else if d.now ≤ slot then (d.modPipe s.ix fun p => { p with behind := false }).release (catchupOf s)
  else d

/-- A layer has run dry on row y of a side: counted, and posted at its first dry row of the pass (R169). -/
def Dev.dryRow (d : Dev) (s y n : Nat) : Dev :=
  let d1 := d.count kCmpUnderrun n 1
  if (d.pipe s).dryLayers.contains n then d1
  else (d1.modPipe s fun p => { p with dryLayers := p.dryLayers ++ [n] }).post 0x0501 (n % 8 + 8 * s + 65536 * y)

/-- Layer n has a pixel to fetch on row y of a side: it shows on the row, on a tile where it is not culled (R169). -/
def Dev.onRow (d : Dev) (s n y : Nat) : Bool :=
  let p := d.pipe s
  let (_, y0, _, y1) := (d.layer n).rect p.offset
  decide (y0 ≤ (y : Int)) && decide ((y : Int) < y1) &&
  (List.range ((d.rowOf p.mode).sideW / 64)).any fun tx => d.touches s n tx (y / 16) && !d.culledAt s n tx (y / 16)

/-- The dry layers that can run dry on row y of a side. -/
def Dev.dryOf (d : Dev) (s y : Nat) (dry : List (Nat × Nat)) : List (Nat × Nat) :=
  dry.filter fun e => decide (1 ≤ e.1) && decide (e.1 ≤ 7) && d.onRow s e.1 y

/-- The next row of a pass is composed and stored. -/
def Dev.storeRow (d : Dev) (s : Nat) (dry : List (Nat × Nat)) : Dev :=
  let y := (d.pipe s).nextRow
  let dr := d.dryOf s y dry
  let d1 := dr.foldl (fun d e => d.dryRow s y e.1) d
  let r := d1.composeRow s y dr
  d1.modPipe s fun p => { p with back := p.back ++ [r.1], backTap := p.backTap ++ [r.2], nextRow := y + 1, rowAt := d.now }

/-- A pass of the side waits for the start of its next row. -/
def Dev.rowWaits (d : Dev) (s : Nat) : Bool :=
  d.sides.contains s && (d.pipe s).running && decide ((d.pipe s).nextRow < (d.rowOf (d.pipe s).mode).fieldH)

/-- The layers that have run dry on a row: a strip-split layer does when either strip does, once per row (R169). -/
def Dev.dryLists (d : Dev) (dry second : List (Nat × Nat)) : List (Nat × Nat) :=
  dry ++ second.filter fun e => (d.layer e.1).scalers.length == 2 && !dry.any fun f => f.1 == e.1

/-- COMPOSE_ROW_START (R161, R162, R169): rows start in order, and before a row may start there is none. -/
def execComposeRowStart (s : Side) (row : Nat) (dry second : List (Nat × Nat)) (st : State) : Host.Outcome State Fault Refusal :=
  st.on fun d =>
    if d.rowWaits s.ix && row == (d.pipe s.ix).nextRow && d.rowMayStart s then
      (d.paceRow s).storeRow s.ix (d.dryLists dry second)
    else d

/-- COMPOSE_PASS_COMPLETE (R160): every row is stored. -/
def execComposePassComplete (s : Side) (st : State) : Host.Outcome State Fault Refusal :=
  st.on fun d =>
    if d.sides.contains s.ix ∧ (d.pipe s.ix).running = true ∧ (d.pipe s.ix).nextRow = (d.rowOf (d.pipe s.ix).mode).fieldH then
      d.passDone s.ix
    else d

/-- DRAM_STALL (R163). -/
def execDramStall (s : State) : Host.Outcome State Fault Refusal :=
  s.on fun d => if d.canActive then d.stallDram false else d

/-- DRAM_TRAFFIC_RESUME (R393). -/
def execDramTrafficResume (s : State) : Host.Outcome State Fault Refusal := s.on Dev.dramResume

/-- INTAKE_COPY_DONE (R145): a copy goes on while DRAM traffic does. -/
def execIntakeCopyDone (layer : Nat) (s : State) : Host.Outcome State Fault Refusal :=
  s.on fun d => if d.canActive && !d.cmp.dramStalled && decide (layer ≤ 7) then d.copyDone layer else d

/-- The image at the head of the load queue has been loaded and checked; the load slot is free until it exchanges (R153). -/
def Dev.loadDone (d : Dev) (s : Nat) (good : Bool) : Dev :=
  match (d.base s).loads, (d.base s).ready with
  | (slot, img) :: rest, none => d.modBase s fun b => { b with loads := rest, ready := some (slot, d.loadImage s img good) }
  | _, _ => d

/-- PATTERN_LOAD_DONE (R153, R154). -/
def execPatternLoadDone (s : Side) (crcGood : Bool) (st : State) : Host.Outcome State Fault Refusal :=
  st.on fun d => if d.sides.contains s.ix then d.loadDone s.ix crcGood else d

end Sys2Proof.Machine
end

