-- ==== Sys2Proof/Machine/HuskCmds.lean ====
section
/-! DEFINITION. Commands that are forward Husks, and the replay timer of VC1 (chapter 3). -/

namespace Sys2Proof.Machine

open Sys2Proof

/-- A Husk of a type reaches a link that may receive it (R44) and passes checks 1 to 3 (Table 3-3). -/
def Dev.husk (d : Dev) (l : LinkId) (type : Nat) (h : RxHusk) (act : Dev → HuskHdr → Dev) : Dev :=
  if d.linkIds.contains l ∧ (d.link l).receives = true then
    match d.checkHusk l h with
    | (d1, none) => d1
    | (d1, some hd) => if hd.type = type then act d1 hd else d1
  else d

/-- A VC1 Husk: its SEQ decides (R68). -/
def Dev.vc1 (d : Dev) (l : LinkId) (hd : HuskHdr) (act : Dev → Dev) : Dev :=
  match d.acceptVc1 l hd.seq with
  | (d1, true) => act d1
  | (d1, false) => d1

/-- LINE_HUSK (R73 to R75). -/
def execLineHusk (l : LinkId) (h : RxHusk) (s : State) : Host.Outcome State Fault Refusal :=
  s.on fun d => d.husk l 0x1 h fun d hd => d.lineIn l hd.sub hd.payload

/-- A VC2 Husk (R71, R72). -/
def Dev.vc2 (d : Dev) (l : LinkId) (hd : HuskHdr) : Dev :=
  let fresh : Bool := match (d.link l).vc2Last with
    | none => true
    | some last => let a := (hd.seq + 256 - last) % 256; decide (1 ≤ a) && decide (a ≤ 127)
  if fresh then
    let d1 := (d.modLink l fun k => { k with vc2Last := some hd.seq }).sendAck l 2
    let d2 := if hd.retry then d1.count (lkey kLnkVc2RetryRx l) 0 1 else d1
    (d2.handList l.ix hd.payload).1
  else (d.count (lkey kLnkObjSuperseded l) 0 1).sendAck l 2

/-- OBJ_HUSK (R71). -/
def execObjHusk (l : LinkId) (h : RxHusk) (s : State) : Host.Outcome State Fault Refusal :=
  s.on fun d => d.husk l 0x2 h fun d hd => d.vc2 l hd

/-- A command on a link's mailbox port (R91): SUB[0] is 0, and the payload carries the header and LEN bytes. -/
def Dev.mbxIn (d : Dev) (l : LinkId) (hd : HuskHdr) : Dev :=
  if hd.sub.testBit 0 ∨ hd.payload.length < 8 then d
  else
    let c := cmdOf (leField hd.payload 0 8) (hd.payload.drop 8)
    d.accept l.port 0 c (c.len == hd.payload.length - 8)

/-- MBX_HUSK (R91). -/
def execMbxHusk (l : LinkId) (h : RxHusk) (s : State) : Host.Outcome State Fault Refusal :=
  s.on fun d => d.husk l 0x3 h fun d hd => d.vc1 l hd fun d => d.mbxIn l hd

/-- FENCE_HUSK (R76). -/
def execFenceHusk (l : LinkId) (h : RxHusk) (s : State) : Host.Outcome State Fault Refusal :=
  s.on fun d => d.husk l 0x4 h fun d hd => d.vc1 l hd fun d => if 8 ≤ hd.payload.length then (d.fence hd.payload).1 else d

/-- SYNC_ACCEPT, and TIME_SOURCE 0 (R77, R94). -/
def Dev.syncTaken (d : Dev) (l : LinkId) (hd : HuskHdr) : Bool :=
  !hd.retry && d.par (lkey kLnkSyncAccept l) 0 == 1 && d.par kHostTimeSource 0 == 0 && decide (8 ≤ hd.payload.length)

/-- The difference of R77: the time base was latched at the SOH column, and the receive latency and SYNC_DELAY stand between
that and VTIME. -/
def Dev.syncDiff (d : Dev) (l : LinkId) (hd : HuskHdr) (soh : Nat) : Int :=
  (leField hd.payload 0 8 : Int) + Config.linkLatency + nsTicks (d.par (lkey kLnkSyncDelay l) 0) - soh

/-- SYNC_HUSK (R77). -/
def execSyncHusk (l : LinkId) (h : RxHusk) (s : State) : Host.Outcome State Fault Refusal :=
  s.on fun d => d.husk l 0x5 h fun d hd => d.vc1 l hd fun d =>
    if d.syncTaken l hd then d.align (d.syncDiff l hd h.sohTime) (some l) else d

/-- ACK_HUSK (R67): SEQ before NEXT are acknowledged, and new credit may let Husks go out. -/
def execAckHusk (l : LinkId) (h : RxHusk) (s : State) : Host.Outcome State Fault Refusal :=
  s.on fun d => d.husk l 0x6 h fun d hd =>
    if byteAt hd.payload 0 = 1 ∧ 4 ≤ hd.payload.length then
      (d.ackVc1 l (byteAt hd.payload 1) (byteAt hd.payload 2)).pumpLink l
    else d

/-- NAK_HUSK (R70): replay from NEXT. -/
def execNakHusk (l : LinkId) (h : RxHusk) (s : State) : Host.Outcome State Fault Refusal :=
  s.on fun d => d.husk l 0x7 h fun d hd =>
    if byteAt hd.payload 0 = 1 ∧ 4 ≤ hd.payload.length then
      let d1 := d.ackVc1 l (byteAt hd.payload 1) (byteAt hd.payload 2)
      if (d1.link l).unacked = [] then d1.pumpLink l else ((d1.replayVc1 l).pumpLink l).replayLimit l
    else d

/-- 50 µs without NEXT advancing. The timer runs but in L2 (Table 3-9); in RECOVERY the replay flows once Husks are allowed. -/
def Dev.replayTimer (d : Dev) (l : LinkId) : Dev :=
  let k := d.link l
  if !k.streams ∨ k.unacked = [] then d
  else if k.receives || k.state == .l1 then ((d.replayVc1 l).replayLimit l).calAdvance
  else d.modLink l fun k => { k with replayHeld := true }

/-- VC1_REPLAY_TIMEOUT (R70). -/
def execVc1ReplayTimeout (l : LinkId) (s : State) : Host.Outcome State Fault Refusal :=
  s.on fun d => if d.linkIds.contains l then d.replayTimer l else d

end Sys2Proof.Machine
end

