-- ==== Sys2Proof/Machine/UpdateOps.lean ====
section
/-! DEFINITION. Writes of the NOR by the host: the pattern library (R155) and the update session (R128, R433); and what a ticket's
end means for its holder (R435). -/

namespace Sys2Proof.Machine

open Sys2Proof

/-! ### Pattern library (R155, Table 6-12) -/

def Dev.setPatValid (d : Dev) (s i : Nat) (v : Bool) : Dev :=
  let bit : BitVec 16 := BitVec.ofNat 16 (2 ^ i)
  { d with nor := { d.nor with patValid := d.nor.patValid.mod s fun (m : BitVec 16) => if v then m ||| bit else m &&& ~~~bit } }

/-- The image and the side of a PAT_CTRL value. -/
def patIndex (v : Nat) : Nat := bitsOf v 0 4
def patSide (v : Nat) : Nat := bitsOf v 4 1

/-- The waiting PAT_ERASE commands: port, tag and PAT_CTRL value. -/
def Dev.patErasers (d : Dev) : List (Port × Nat × Nat) :=
  ((d.waitingOf opSetParam).filter fun c => paramAct c.2.payload == some .patErase).map fun c =>
    (c.1, c.2.tag, leField c.2.payload 8 4)

/-- PAT_ERASE asks for its NOR erase ticket; the image is invalid from then on, and the erase completes with the ticket's
release. -/
def Dev.patErase (d : Dev) (p : Port) (tag v : Nat) : Dev :=
  let d1 := d.request (.erase .pattern)
  if d1.ticketHeld (.erase .pattern) || d1.ticketQueued (.erase .pattern) then
    (d1.setPatValid (patSide v) (patIndex v) false).waits p tag
  else d1.finishWith p tag stBudgetDenied

/-- A pattern erase is complete: the image region reads as erased, the ticket goes back, and the next one asks for its own. -/
def Dev.patErased (d : Dev) : Dev :=
  if d.ticketHeld (.erase .pattern) then
    match d.patErasers with
    | [] => d.release (.erase .pattern)
    | (p, tag, v) :: rest =>
      let d1 := (((d.modCells fun l => norErase l (patOffset (patSide v) (patIndex v)) 0x30000).setPatValid
        (patSide v) (patIndex v) false).release (.erase .pattern)).finishWith p tag stOk
      match rest with
      | [] => d1
      | (q, t, w) :: _ => d1.patErase q t w
  else d

/-- PAT_PROGRAM: PAT_STAGE goes into a block; of the last block only the part within the image is used. -/
def Dev.patProgram (d : Dev) (v : Nat) : Dev :=
  let off := 4096 * bitsOf v 16 16
  let size := imageBytes d.nor.patGeom
  d.norProgram (patOffset (patSide v) (patIndex v) + off) ((d.arr kPlcPatStage 0).take (min 4096 (size - off)))

/-- PAT_VERIFY: the image becomes valid only when the CRC-32 over all of it equals PAT_CRC. -/
def Dev.patVerify (d : Dev) (v : Nat) : Dev :=
  let s := patSide v
  let i := patIndex v
  let want := BitVec.ofNat 32 (d.par kPlcPatCrc 0)
  if crc32 (d.patBytes s i) = want then
    ({ d with nor := { d.nor with patCrc := d.nor.patCrc.mod s fun (l : List (BitVec 32)) => l.set i want } }).setPatValid s i true
  else d

/-! ### Update session (R128, R433) -/

/-- The image region of a session: the image that is not running; in the recovery service the one other than PREF. -/
def Dev.updateTarget (d : Dev) : Nat :=
  if d.core.acornService then 1 - d.nor.dirRec.pref % 2 else if d.core.image = 0 then 1 else 0

/-- A session or its erase is open. -/
def Dev.updating (d : Dev) : Bool := d.upd.session.isSome || d.upd.erasing

/-- The next block asks for its ticket; a denial ends FW_UPDATE_BEGIN. -/
def Dev.askBlock (d : Dev) (p : Port) (tag : Nat) : Dev :=
  let d1 := d.request (.erase .image)
  if d1.ticketHeld (.erase .image) || d1.ticketQueued (.erase .image) then d1
  else
    ({ d1 with upd := { Update.reset with restartDue := d1.upd.restartDue, dirWaiting := d1.upd.dirWaiting } }).finishWith p tag
      stBudgetDenied

/-- FW_UPDATE_BEGIN: the directory loses the target's valid flag, and the erase of the 32 blocks starts. -/
def Dev.fwBegin (d : Dev) (p : Port) (tag size : Nat) : Dev :=
  if 0x200000 < size ∨ size % 4 ≠ 0 then d.finishWith p tag stBadArg
  else if d.updating || (!d.core.acornService && !d.speedZero) then d.finishWith p tag stOverridden
  else
    let img := d.updateTarget
    let d1 := d.writeDir fun r => r.setValid img false
    let d2 : Dev := { d1 with upd := { d1.upd with
      session := none, size := size, target := img, erasing := true, eraseBlock := 0, beginTag := tag, ranges := [] } }
    (d2.waits p tag).askBlock p tag

/-- IMAGE_REGION_ERASE_DONE: a block of 64 KiB is erased and its ticket goes back; after the last the session is open. -/
def Dev.imageErased (d : Dev) : Dev :=
  if d.upd.erasing && d.ticketHeld (.erase .image) then
    let d1 := (d.modCells fun l => norErase l (imageOffset d.upd.target + 0x10000 * d.upd.eraseBlock) 0x10000).release
      (.erase .image)
    let d2 : Dev := { d1 with upd := { d1.upd with eraseBlock := d1.upd.eraseBlock + 1 } }
    if d2.upd.eraseBlock < 32 then d2.askBlock .spi d2.upd.beginTag
    else ({ d2 with upd := { d2.upd with session := some .spi, erasing := false } }).finishWith .spi d2.upd.beginTag stOk
  else d

/-- INTEGRITY with its REASON (R109). -/
def Dev.integrity (d : Dev) (p : Port) (tag reason : Nat) : Dev := d.finish p tag stIntegrity (leBytes 1 reason)

/-- FW_UPDATE_DATA: the range is programmed and read back; its CRC-32 is kept (R433). -/
def Dev.fwData (d : Dev) (p : Port) (tag off : Nat) (bytes : List Byte) (readsBack : Bool) : Dev :=
  if off % 4 ≠ 0 then d.finishWith p tag stBadArg
  else if d.upd.session ≠ some p then d.finishWith p tag stOverridden
  else if d.upd.size < off + bytes.length then d.finishWith p tag stBadArg
  else
    let at_ := imageOffset d.upd.target + off
    if readsBack then
      let d1 := d.modCells fun l => norStore l at_ bytes
      ({ d1 with upd := { d1.upd with ranges := d1.upd.ranges ++ [(off, bytes.length, crc32 bytes)] } }).finishWith p tag stOk
    else (d.norBad at_ bytes.length).integrity p tag 1

/-- A range that FW_UPDATE_DATA verified still reads back as programmed. -/
def Dev.rangeHolds (d : Dev) (r : Nat × Nat × BitVec 32) : Bool :=
  crc32 (norBytes d.nor.cells (imageOffset d.upd.target + r.1) r.2.1) == r.2.2

/-- REASON of a failing check of R428 at FW_UPDATE_COMMIT (R433). -/
def Dev.commitReason (d : Dev) (check : Nat) : Nat :=
  if check = 5 then 3 else if check ≠ 7 then 2 else if d.upd.ranges.all d.rangeHolds then 4 else 1

/-- FW_UPDATE_COMMIT: the checks of R428, then the directory record that prefers the image on trial. -/
def Dev.fwCommit (d : Dev) (p : Port) (tag : Nat) (restart : Bool) : Dev :=
  if d.upd.session ≠ some p then d.finishWith p tag stOverridden
  else
    let img := d.upd.target
    let check := d.imageCheck img
    if check ≠ 0 then d.integrity p tag (d.commitReason check)
    else
      let d1 := d.writeDir fun r => { r.setValid img true with pref := img, trial := true, tries := 0 }
      ({ d1 with upd := { Update.reset with restartDue := d1.upd.restartDue || restart, dirWaiting := d1.upd.dirWaiting } }).finishWith
        p tag stOk

/-! ### The end of a ticket (R435) -/

/-- TICKET_RELEASE: what the ticket was held for is done. A calibration run that waited for a ticket now goes on (R407). -/
def Dev.ticketDone (d : Dev) (h : Holder) : Dev :=
  if d.ticketHeld h then
    (match h with
      | .erase .calSets => d.calSetsWritten
      | .erase .directory => d.dirErased
      | .erase .pattern => d.patErased
      | _ => d.release h).calTicket
  else d

/-- What a denial after queueing means for its holder: JOURNAL_SEAL, PAT_ERASE, FW_UPDATE_BEGIN and CAL_RUN commands that wait for
the ticket end with BUDGET_DENIED. -/
def Dev.deniedLate (d : Dev) (h : Holder) : Dev :=
  match h with
  | .erase .journal => d.failSeals stBudgetDenied
  | .erase .pattern => d.patErasers.foldl (fun (d : Dev) (w : Port × Nat × Nat) => d.finishWith w.1 w.2.1 stBudgetDenied) d
  | .erase .image =>
    if d.upd.erasing then
      ({ d with upd := { Update.reset with restartDue := d.upd.restartDue, dirWaiting := d.upd.dirWaiting } }).finishWith .spi
        d.upd.beginTag stBudgetDenied
    else d
  | .cal => d.calTicket
  | _ => d

/-- A request of the holder has been queued for QUEUE_MAX (R435). -/
def Dev.queuedLong (d : Dev) (h : Holder) : Bool :=
  d.sluice.queued.any fun q => q.holder == h && decide (q.asked + msTicks (d.par kPwrQueueMax 0) ≤ d.now)

/-- TICKET_QUEUE_TIMEOUT: a request queued for QUEUE_MAX is denied. -/
def Dev.queueTimeout (d : Dev) (h : Holder) : Dev :=
  if d.queuedLong h then
    ((({ d with sluice := { d.sluice with queued := d.sluice.queued.filter (fun r => r.holder != h) } }).deny h true)).deniedLate h
  else d

/-- The hold limit of an operation, in ticks (Table 19-7). -/
def Dev.holdLimit (d : Dev) (h : Holder) : Nat :=
  match opBit h with
  | 0 => msTicks 2
  | 1 => d.beamTicks + msTicks 10
  | 2 => msTicks 6
  | 3 => msTicks 12
  | 4 => msTicks 10
  | 5 => msTicks 2500
  | 6 => msTicks 500
  | _ => d.row.composeTicks

/-- The holder has its ticket for longer than its hold limit. -/
def Dev.heldLong (d : Dev) (h : Holder) : Bool :=
  d.sluice.held.any fun t => t.1 == h && decide (t.2.2.2 + d.holdLimit h < d.now)

/-- TICKET_OVERRUN: a ticket held beyond its hold limit stays held (R436). -/
def Dev.ticketOverrun (d : Dev) (h : Holder) : Dev :=
  if d.heldLong h then (d.count kPwrOverruns (opBit h) 1).post 0x1104 (opBit h) else d

/-- TICKET_REQUEST: a holder asks (R435); a denial ends what waits for the ticket. No Sluice runs in RESET and THERMAL_OFF. -/
def Dev.ticketAsk (d : Dev) (h : Holder) : Dev :=
  if d.core.state = .reset ∨ d.core.state = .thermalOff then d
  else
    let d1 := d.request h
    (if d1.ticketHeld h || d1.ticketQueued h then d1 else d1.deniedLate h).calTicket

end Sys2Proof.Machine
end

