-- ==== Sys2Proof/Machine/IntegrityCmds.lean ====
section
/-! DEFINITION. Commands of snapshots, fault recovery, the NOR, calibration and the sequence store (chapters 9, 15, 16, 18 and
19). -/

namespace Sys2Proof.Machine

open Sys2Proof

/-- SNAP_N_FALL (R366): SNAP_N low for 2 ticks with SNAP_N_EN set. -/
def execSnapNFall (s : State) : Host.Outcome State Fault Refusal :=
  s.on fun d => if d.govRuns && d.saf.snapNEn then d.snapshot 1 else d

/-- FAULT_AUTO_CLEAR (R362). -/
def execFaultAutoClear (code inst : Nat) (s : State) : Host.Outcome State Fault Refusal := s.on fun d => d.autoClear code inst

/-- NOR_PAGE_DONE (R376, R378). -/
def execNorPageDone (good : Bool) (s : State) : Host.Outcome State Fault Refusal := s.on fun d => (d.pageDone good).afterClear

/-- NOR_SECTOR_ERASE_DONE (R377). -/
def execNorSectorEraseDone (s : State) : Host.Outcome State Fault Refusal := s.on Dev.eraseDone

/-- NOR_BUSY_TIMEOUT (R378). -/
def execNorBusyTimeout (s : State) : Host.Outcome State Fault Refusal := s.on Dev.norBusy

/-- IMAGE_REGION_ERASE_DONE (R433). -/
def execImageRegionEraseDone (s : State) : Host.Outcome State Fault Refusal := s.on Dev.imageErased

/-- CAL_TRIGGER_CHECK (R406, R416). -/
def execCalTriggerCheck (calRef : Nat) (s : State) : Host.Outcome State Fault Refusal :=
  s.on fun d => if d.canActive then (d.calTrigger calRef).calTicket else d

/-- CAL_MEASUREMENT_DONE (R408). -/
def execCalMeasurementDone (ch : Nat) (v : CalValue) (s : State) : Host.Outcome State Fault Refusal :=
  s.on fun d => (d.calMeasured ch v).calTicket

/-- A store index lies in the image of the mode position in force. -/
def Dev.inForceWord (d : Dev) (ix : Nat) : Bool := d.core.modeValid && ix / 2048 == d.row.mode

/-- SEQ_STORE_SCRUB (R218): corrections are counted, and uncorrectable words of images not in force are marked for reload. -/
def execSeqStoreScrub (r : ScrubResult) (s : State) : Host.Outcome State Fault Refusal :=
  s.on fun d =>
    if d.govRuns then
      let d1 := d.count kMstSeqEccCorr 0 r.corrected
      let bad := r.uncorrectable.filter fun ix => !d1.inForceWord ix && !d1.seq.eccWords.contains ix && decide (ix < 65536)
      { d1 with seq := { d1.seq with eccWords := d1.seq.eccWords ++ bad } }
    else d

/-- An image is reloaded from ROM: SEQ_RELOADED, which clears SEQ_ECC (Table 15-2). -/
def Dev.reloaded (d : Dev) (mode : Nat) : Dev :=
  let d1 := { d with seq := { d.seq with eccWords := d.seq.eccWords.filter fun ix => ix / 2048 != mode } }
  ((d1.post 0x0604 mode).clearFault 0x0601 0).afterClear

/-- SEQ_RELOADED (R218). -/
def execSeqReloaded (mode : Nat) (s : State) : Host.Outcome State Fault Refusal :=
  s.on fun d => if d.seq.eccWords.any fun ix => ix / 2048 == mode then d.reloaded mode else d

end Sys2Proof.Machine
end

