-- ==== Sys2Proof/Machine/LampCmds.lean ====
section
/-! DEFINITION. Commands of the lamp drive: channel faults, boosts, board temperature and dimming inputs (chapter 12). -/

namespace Sys2Proof.Machine

open Sys2Proof

/-- A channel's meaning, on a channel of the variant; a latched channel may end its calibration (R419). -/
def State.onChan (st : State) (c : Nat) (f : Dev → Dev) : Host.Outcome State Fault Refusal :=
  st.on fun d => if d.canActive && d.chans.contains c then (f d).calAdvance else d

/-- A side's meaning in the lamp drive. -/
def State.onLamp (st : State) (s : Side) (f : Dev → Nat → Dev) : Host.Outcome State Fault Refusal :=
  st.on fun d => if d.govRuns && d.sides.contains s.ix then f d s.ix else d

/-- CH_OVERCURRENT (R285): the gate goes to VSS, and the channel is latched off. -/
def execChOvercurrent (ch : Nat) (s : State) : Host.Outcome State Fault Refusal :=
  s.onChan ch fun d => if d.primary ch = 3 then d else d.detect ch 3 0x0A04 ch

/-- CH_OPEN (R302). -/
def execChOpen (ch : Nat) (s : State) : Host.Outcome State Fault Refusal := s.onChan ch fun d => d.litFault ch 0

/-- CH_SHORT (R302). -/
def execChShort (ch : Nat) (s : State) : Host.Outcome State Fault Refusal := s.onChan ch fun d => d.litFault ch 1

/-- FET_SHORT (R302). -/
def execFetShort (ch : Nat) (s : State) : Host.Outcome State Fault Refusal := s.onChan ch fun d => d.fetFault ch

/-- BOOST_OV_TRIP (R295). -/
def execBoostOvTrip (s : Side) (st : State) : Host.Outcome State Fault Refusal := st.onLamp s fun d k => d.boostOv k

/-- BOOST_OV_RESUME (R295). -/
def execBoostOvResume (s : Side) (st : State) : Host.Outcome State Fault Refusal := st.onLamp s fun d k => d.boostOvEnds k

/-- BOOST_UV (R295). -/
def execBoostUv (s : Side) (st : State) : Host.Outcome State Fault Refusal := st.onLamp s fun d k => d.boostUv k

/-- BOOST_UV_RECOVERY (R295). -/
def execBoostUvRecovery (s : Side) (st : State) : Host.Outcome State Fault Refusal := st.onLamp s fun d k => d.boostUvEnds k

/-- BOOST_RUN (R296): with every boost of the mode in RUN the release goes on (R297); a cleared BOOST_UV may end SAFE. -/
def execBoostRun (s : Side) (st : State) : Host.Outcome State Fault Refusal :=
  st.onLamp s fun d k => ((d.boostRuns k).boostsReady).afterClear

/-- BOOST_FAIL (R296). -/
def execBoostFail (s : Side) (st : State) : Host.Outcome State Fault Refusal := st.onLamp s fun d k => d.boostFails k

/-- BOARD_TEMP_READ (R289, R290). -/
def execBoardTempRead (s : Side) (r : BoardReading) (st : State) : Host.Outcome State Fault Refusal :=
  st.onLamp s fun d k => (d.boardRead k r).afterClear

/-- SENSOR_SUBSTITUTE (R290). -/
def execSensorSubstitute (s : Side) (st : State) : Host.Outcome State Fault Refusal := st.onLamp s fun d k => d.substitute k

/-- DIM_PWM_EDGE (R299). -/
def execDimPwmEdge (period high : Nat) (s : State) : Host.Outcome State Fault Refusal :=
  s.on fun d => if d.govRuns then (d.pwmEdge period high).afterClear else d

/-- DIM_INPUT_LOSS (R299). -/
def execDimInputLoss (source : Nat) (s : State) : Host.Outcome State Fault Refusal :=
  s.on fun d => if d.govRuns ∧ source ≤ 2 then d.dimLoss source else d

end Sys2Proof.Machine
end

