-- ==== Sys2Proof/Machine/LinkCmds.lean ====
section
/-! DEFINITION. Commands of the physical layer of a Millrace link (chapter 2). A command that fits no row of Tables 2-8 and 2-14
in the state the link is in leaves the block as it is (log entry 4). -/

namespace Sys2Proof.Machine

open Sys2Proof

/-- A link's meaning: on a link that the variant has. -/
def State.onLink (s : State) (l : LinkId) (f : Dev → Dev) : Host.Outcome State Fault Refusal :=
  s.on fun d => if d.linkIds.contains l then f d else d

/-! ### Bring-up (Table 2-8) -/

/-- DETECT_LOS_QUALIFIED (R43): LOCK, at S1. -/
def execDetectLosQualified (l : LinkId) (s : State) : Host.Outcome State Fault Refusal :=
  s.onLink l fun d => if (d.link l).state = .detect then d.toLock l 1 .bringUp false else d

/-- The link waits for a ticket in LOCK, or goes on when it has it at once (R45). -/
def Dev.askEye (d : Dev) (l : LinkId) : Dev :=
  let d1 := (d.modLink l fun k => { k with waitTicket := true }).request (.link l)
  if d1.ticketHeld (.link l) then d1.toEye l else d1

/-- LOCK is achieved: TRAIN on fast re-entry; EYE otherwise, with a ticket at bring-up. -/
def Dev.lockDone (d : Dev) (l : LinkId) : Dev :=
  let k := d.link l
  if k.fastReentry then d.toTrain l true
  else match k.purpose with
    | .bringUp => d.askEye l
    | .rateStep => d.toEye l
    | .recoveryDrop => d.toEye l

/-- LOCK_ACHIEVED (R43, R45). -/
def execLockAchieved (l : LinkId) (s : State) : Host.Outcome State Fault Refusal :=
  s.onLink l fun d => if (d.link l).state = .lock ∧ (d.link l).waitTicket = false then d.lockDone l else d

/-- LOCK_TIMEOUT (R43): it does not run while the link waits for its ticket (R45). -/
def execLockTimeout (l : LinkId) (s : State) : Host.Outcome State Fault Refusal :=
  s.onLink l fun d =>
    if (d.link l).state = .lock ∧ (d.link l).waitTicket = false then (d.trainFail l).toDetect l else d

/-- EYE needs the ticket that R45 asks for, which recovery and L2 exit do not. -/
def Dev.eyeTicket (d : Dev) (l : LinkId) : Bool :=
  match (d.link l).purpose with
  | .recoveryDrop => true
  | _ => d.ticketHeld (.link l)

/-- The PAM4 eye test is complete: the smallest of a lane's three eyes counts (R51). -/
def Dev.eyeDone (d : Dev) (l : LinkId) (pam : List PamEyes) : Dev :=
  let eyes := pam.map smallestEye
  let d1 := (d.recordEyes l eyes).adaptReceivers l
  if d1.lanesPassing l eyes true < 4 then d1.attemptFailed l
  else if d1.eyeTicket l then (d1.dropFailing l eyes true).toTrain l false
  else d1

/-- EYE_TEST_COMPLETE (R51, Table 2-8). -/
def execEyeTestComplete (l : LinkId) (eyes : List PamEyes) (s : State) : Host.Outcome State Fault Refusal :=
  s.onLink l fun d => if (d.link l).state = .eye then d.eyeDone l eyes else d

/-! ### TRAIN (R48 to R51) -/

/-- A TS1 in TRAIN: a lane that carries another lane's number fails (R31); otherwise its polarity is corrected, the rates and
coefficients it shows are taken, the rates from the latest TS1 of any lane (log entry 102), and a matching ACK_SEQ brings
the lane's next request. -/
def Dev.ts1In (d : Dev) (l : LinkId) (phys : Nat) (ts : TrainingSet) : Dev :=
  if ts.lane ≠ phys then (d.modLink l fun k => k.dropLane phys).syncBts l
  else
    let d1 := (d.modLink l fun k => { k with
      ecuRates := ts.rates % 16, inverted := k.inverted.set phys ts.inverted }).setPar (lkey kLnkTxCoeff l) phys
      (ts.pre % 8 + 16 * (ts.post % 16) + 256 * (ts.presetUsed % 8) : Nat)
    match (d1.link l).tapReqs.getD phys none with
    | some r => if !r.matched && ts.ackSeq == r.seq then d1.nextTap l phys r else d1
    | none => d1

/-- TS1_RECEIVED (R49, R50). -/
def execTs1Received (l : LinkId) (phys : Nat) (ts : TrainingSet) (s : State) : Host.Outcome State Fault Refusal :=
  s.onLink l fun d =>
    if (d.link l).state = .train ∧ phys < 5 ∧ (d.link l).failed.getD phys false = false then d.ts1In l phys ts else d

/-- No matching ACK_SEQ within 10 µs: the request goes out again, three times in all; then the lane fails training. -/
def Dev.tapLate (d : Dev) (l : LinkId) (phys : Nat) (r : TapReq) : Dev :=
  if r.sends < 3 then d.modLink l fun k => k.sendTap phys r.word.toNat r.seq (r.sends + 1) r.count
  else (d.modLink l fun k => { k.dropLane phys with tapReqs := k.tapReqs.set phys none }).syncBts l

/-- TAPREQ_ACK_TIMEOUT (R49). -/
def execTapreqAckTimeout (l : LinkId) (phys : Nat) (s : State) : Host.Outcome State Fault Refusal :=
  s.onLink l fun d =>
    match (d.link l).state, (d.link l).tapReqs.getD phys none with
    | .train, some r => if r.matched then d else d.tapLate l phys r
    | _, _ => d

/-- TS2 on the four active lanes, in logical order, carry their physical lane's number and one AGREED. -/
def ts2Agree (map : List Nat) (ts2 : List TrainingSet) : Bool :=
  decide (ts2.map TrainingSet.lane = map) && decide (ts2.length = 4) &&
  match ts2 with
  | [] => false
  | a :: rest => decide (1 ≤ a.agreed) && decide (a.agreed ≤ 4) && rest.all fun b => b.agreed == a.agreed

/-- Active lanes whose TS2 carries another lane's number (R31). -/
def misnumbered (map : List Nat) (ts2 : List TrainingSet) : List Nat :=
  ((map.zip ts2).filter fun x => x.2.lane != x.1).map Prod.fst

/-- TRAIN ends: lanes that fail it leave the map, and TS2 on the active lanes bring L0. Lanes that carry a wrong number fail
too; TRAIN then goes on with the lanes that take their places (log entry 105). -/
def Dev.linkTrained (d : Dev) (l : LinkId) (eyes : List Eye) (ts2 : List TrainingSet) : Dev :=
  let d0 := (d.recordEyes l eyes).adaptReceivers l
  if d0.lanesPassing l eyes false < 4 then d0
  else
    let d1 := d0.dropFailing l eyes false
    match misnumbered (d1.link l).map ts2 with
    | [] => if ts2Agree (d1.link l).map ts2 then (d1.toL0 l).heldReplay l else d1.syncBts l
    | wrong => (wrong.foldl (fun d p => d.modLink l fun k => k.dropLane p) d1).syncBts l

/-- TS2_AGREED (R43, R51). -/
def execTs2Agreed (l : LinkId) (eyes : List Eye) (ts2 : List TrainingSet) (s : State) : Host.Outcome State Fault Refusal :=
  s.onLink l fun d => if (d.link l).state = .train then d.linkTrained l eyes ts2 else d

/-- TRAIN_TIMEOUT (R43). -/
def execTrainTimeout (l : LinkId) (s : State) : Host.Outcome State Fault Refusal :=
  s.onLink l fun d => if (d.link l).state = .train then d.attemptFailed l else d

/-- STEP_TIMEOUT (R43): the new rate is in force. -/
def execStepTimeout (l : LinkId) (s : State) : Host.Outcome State Fault Refusal :=
  s.onLink l fun d => if (d.link l).state = .step then d.toLock l (d.link l).stepTarget .rateStep false else d

/-- DOWN_TIMEOUT (R43). -/
def execDownTimeout (l : LinkId) (s : State) : Host.Outcome State Fault Refusal :=
  s.onLink l fun d => if (d.link l).state = .down then d.toDetect l else d

/-! ### Tickets (R45) -/

/-- A ticket in L0 starts the step: one code up, or straight down to the ceiling; it goes back where no step is made now. -/
def Dev.startStep (d : Dev) (l : LinkId) : Dev :=
  let r := (d.link l).rate
  let c := d.ceiling l
  if d.stepsAllowed ∧ r < c then (d.toStep l (r + 1)).calAdvance
  else if d.stepsAllowed ∧ c < r then (d.toStep l c).calAdvance
  else (d.modLink l fun k => { k with waitTicket := false }).release (.link l)

/-- LINK_TICKET_GRANTED (R45). -/
def execLinkTicketGranted (l : LinkId) (s : State) : Host.Outcome State Fault Refusal :=
  s.onLink l fun d =>
    if (d.link l).waitTicket && d.ticketHeld (.link l) then
      match (d.link l).state with
      | .lock => d.toEye l
      | .l0 => d.startStep l
      | _ => d
    else d

/-- LINK_TICKET_RETRY (R45): 100 ms after a denial the link asks again. -/
def execLinkTicketRetry (l : LinkId) (s : State) : Host.Outcome State Fault Refusal :=
  s.onLink l fun d =>
    if (d.link l).waitTicket && !d.ticketHeld (.link l) && !d.ticketQueued (.link l) then
      match (d.link l).state with
      | .lock => d.askEye l
      | .l0 => (d.modLink l fun k => { k with waitTicket := false }).askStep l
      | _ => d
    else d

/-! ### Losses and the spare (R52 to R54) -/

/-- Clock loss after re-lock: recovery returns to its first step; the count of retrain attempts is kept (R55). -/
def Dev.relock (d : Dev) (l : LinkId) : Dev :=
  (d.modLink l fun k => { k with recPhase := .relock, bts := { k.bts with pamReq := 0 } }).syncBts l

/-- CLOCK_LANE_LOSS (R43, R55). -/
def execClockLaneLoss (l : LinkId) (s : State) : Host.Outcome State Fault Refusal :=
  s.onLink l fun d =>
    match (d.link l).state with
    | .l0 => (d.toRecovery l).calAdvance
    | .l1 => (d.toRecovery l).calAdvance
    | .recovery => d.relock l
    | _ => d

/-- DESKEW_LOSS (Table 2-13). -/
def execDeskewLoss (l : LinkId) (s : State) : Host.Outcome State Fault Refusal :=
  s.onLink l fun d => if (d.link l).state = .l0 then (d.toRecovery l).calAdvance else d

/-- The receivers of the data lanes are on (R56). -/
def Link.dataReceivers (k : Link) : Bool :=
  !([LinkState.disabled, LinkState.l1, LinkState.l2] : List LinkState).contains k.state

/-- What the detectors of a data lane show (R52): their clearing ends the fault (log entry 104); an assertion while one
stands is not counted; otherwise one counter of the lane advances, and in L0 the takeover or RECOVERY follows (R53). -/
def Dev.detectors (d : Dev) (l : LinkId) (phys : Nat) (los lol : Bool) : Dev :=
  let mark (v : Bool) (d : Dev) : Dev := d.modLink l fun k => { k with faulted := k.faulted.set phys v }
  if !los && !lol then mark false d
  else if (d.link l).faulted.getD phys false then d
  else
    ((mark true (d.count (lkey (if los then kLnkLosCount else kLnkLolCount) l) phys 1)).laneFault l phys).calAdvance

/-- HARD_LANE_FAULT (R52, R53). -/
def execHardLaneFault (l : LinkId) (phys : Nat) (los lol : Bool) (s : State) : Host.Outcome State Fault Refusal :=
  s.onLink l fun d => if (d.link l).dataReceivers ∧ phys < 5 then d.detectors l phys los lol else d

/-- SOFT_LANE_FAULT (R52): code errors are counted, and a rise beyond LANE_ERR_LIMIT is a fault. -/
def execSoftLaneFault (l : LinkId) (phys rise : Nat) (s : State) : Host.Outcome State Fault Refusal :=
  s.onLink l fun d =>
    if (d.link l).dataReceivers ∧ phys < 5 then
      let d1 := d.count (lkey kLnkCodeErr l) phys rise
      if d.par (lkey kLnkLaneErrLimit l) 0 < rise then (d1.laneFault l phys).calAdvance else d1
    else d

/-- What a DSK column does for the spare: acknowledgement, two checked intervals, the move; or the return of a cover. A copy
that disagrees starts the two intervals again. -/
def Dev.spareDsk (d : Dev) (l : LinkId) (ack : Nat) (valid agrees : Bool) : Dev :=
  match (d.link l).spareUse with
  | .idle => d
  | .cover _ => d
  | .returning _ none => (d.modLink l Link.noShadow).syncBts l
  | .returning _ (some next) => (d.modLink l fun k => k.startTakeover next).syncBts l
  | .takeover lg acked n =>
    let use (u : SpareUse) : Dev := d.modLink l fun k => { k with spareUse := u }
    if !acked then (if valid && ack == lg then use (.takeover lg true 0) else d)
    else if n < 2 then use (.takeover lg true (if agrees then n + 1 else 0))
    else d.moveLane l lg

/-- In L0 the DFE adapts continuously when DFE_ADAPT is 1 (R50); the model lets it adapt at each DSK (log entry 106). -/
def Dev.dfeInL0 (d : Dev) (l : LinkId) : Dev := if d.par (lkey kLnkDfeAdapt l) 0 = 1 then d.adaptDfe l else d

/-- DSK_RECEIVED (R53, R54, R414). -/
def execDskReceived (l : LinkId) (shadowAck : Nat) (shadowAckValid : Bool) (_mapseqAck : Nat) (copyAgrees : Bool)
    (s : State) : Host.Outcome State Fault Refusal :=
  s.onLink l fun d =>
    if (d.link l).state = .l0 then ((d.dfeInL0 l).spareDsk l shadowAck shadowAckValid copyAgrees).calDsk l else d

/-- BTS_SEND (R37). -/
def execBtsSend (l : LinkId) (s : State) : Host.Outcome State Fault Refusal :=
  s.onLink l fun d =>
    if (d.link l).backLaneOn then d.modLink l fun k => { k with btsSent := k.bts :: k.btsSent } else d

/-! ### Power states (R56) -/

/-- A cover does not outlast L0. -/
def Link.dropCover (k : Link) : Link :=
  match k.spareUse with
  | .cover _ => k.noShadow
  | .returning _ none => k.noShadow
  | _ => k

/-- L0 to L1; with L1_ALLOWED 0 it is counted. -/
def Dev.toL1 (d : Dev) (l : LinkId) : Dev :=
  let d1 := ((d.modLink l fun k => { k.dropCover with state := .l1, waitTicket := false }).release (.link l)).syncBts l
  let d2 := if d.par (lkey kLnkL1Allowed l) 0 = 0 then d1.count (lkey kLnkL1Violation l) 0 1 else d1
  (d2.postFree (l.ev 0x08)).calAdvance

/-- EIOS_L1 (R56). -/
def execEiosL1 (l : LinkId) (s : State) : Host.Outcome State Fault Refusal :=
  s.onLink l fun d => if (d.link l).state = .l0 then d.toL1 l else d

/-- EIOS_L2 (R56). -/
def execEiosL2 (l : LinkId) (s : State) : Host.Outcome State Fault Refusal :=
  s.onLink l fun d => if (d.link l).state = .l0 then (d.toL2 l).calAdvance else d

/-- L1_EXIT (R56). -/
def execL1Exit (l : LinkId) (s : State) : Host.Outcome State Fault Refusal :=
  s.onLink l fun d => if (d.link l).state = .l1 then (d.leavePower l).toL0 l else d

/-- L2 to LOCK at the previous rate, with the fast re-entry flag; the back lane starts again (Table 2-16). Its LOCK, EYE and
TRAIN need no ticket (R45). -/
def Dev.fromL2 (d : Dev) (l : LinkId) : Dev :=
  ((d.leavePower l).modLink l fun k => { k with backLaneOn := true }).toLock l (d.link l).rate .recoveryDrop true

/-- L2_EXIT (R56, R57). -/
def execL2Exit (l : LinkId) (s : State) : Host.Outcome State Fault Refusal :=
  s.onLink l fun d => if (d.link l).state = .l2 ∧ d.core.state ≠ .holdup then d.fromL2 l else d

/-! ### Recovery (R55, Table 2-14) -/

/-- The PAM4 repetition phase. -/
def Dev.toPam4 (d : Dev) (l : LinkId) : Dev :=
  (((d.modLink l fun k => { k with recPhase := .pam4, bts := { k.bts with pamReq := 2 } }).syncBts l).pumpLink l).heldReplay l

/-- RECOVERY_RELOCK. -/
def execRecoveryRelock (l : LinkId) (s : State) : Host.Outcome State Fault Refusal :=
  s.onLink l fun d => if (d.link l).state = .recovery ∧ (d.link l).recPhase = .relock then d.toPam4 l else d

/-- The recovery eye is measured in PAM4 mode, with the height threshold halved (log entry 107); every lane that fails leaves
the map, and the spare takes the place of the first. CTLE and DFE do not adapt (Table 2-12). -/
def Dev.recoveryEye (d : Dev) (l : LinkId) (pam : List PamEyes) : Dev :=
  let eyes := pam.map smallestEye
  let d2 := (d.recordEyes l eyes).dropFailing l eyes true
  (d2.modLink l fun k => { k with recPhase := .retrain, bts := { k.bts with pamReq := 0 } }).syncBts l

/-- RECOVERY_EYE_DONE. -/
def execRecoveryEyeDone (l : LinkId) (eyes : List PamEyes) (s : State) : Host.Outcome State Fault Refusal :=
  s.onLink l fun d =>
    if (d.link l).state = .recovery ∧ (d.link l).recPhase = .pam4 then d.recoveryEye l eyes else d

/-- A failed NRZ retrain: again while RECOVERY_RETRY allows; then LOCK one code lower, without a ticket, or DOWN at S1. -/
def Dev.retrainFailed (d : Dev) (l : LinkId) : Dev :=
  let d1 := (d.trainFail l).modLink l fun k => { k with retrains := k.retrains + 1 }
  let k := d1.link l
  if k.retrains < d.par (lkey kLnkRecoveryRetry l) 0 then d1.toPam4 l
  else if 1 < k.rate then d1.toLock l (k.rate - 1) .recoveryDrop false
  else d1.toDown l

/-- RECOVERY_RETRAIN_DONE: traffic needs four healthy lanes (R30). -/
def execRecoveryRetrainDone (l : LinkId) (ok : Bool) (s : State) : Host.Outcome State Fault Refusal :=
  s.onLink l fun d =>
    if (d.link l).state = .recovery ∧ (d.link l).recPhase = .retrain then
      (if ok && decide (4 ≤ (d.link l).healthy) then (d.toL0 l).heldReplay l else d.retrainFailed l)
    else d

/-- RECOVERY_TIMEOUT: 100 ms without lock. -/
def execRecoveryTimeout (l : LinkId) (s : State) : Host.Outcome State Fault Refusal :=
  s.onLink l fun d => if (d.link l).state = .recovery ∧ (d.link l).recPhase = .relock then d.toDetect l else d

end Sys2Proof.Machine
end

