-- ==== Sys2Proof/Machine/MailboxCmds.lean ====
section
/-! DEFINITION. Mailbox commands (chapter 5), each served at the head of its port (R100): what it checks, what it does, and how it
ends. -/

namespace Sys2Proof.Machine

open Sys2Proof

/-! ### Shared checks -/

/-- A command without checks 8 and 9. -/
def noCheck (_ : Cmd) : Option Nat := none

/-- BAD_ARG unless a payload is as it must be. -/
def argOk (ok : Bool) : Option Nat := if ok then none else some stBadArg

/-! ### Device commands (R114, R115, R104) -/

/-- The GET_INFO response (Table 5-5); the recovery service answers with the Acorn's ROM version (R114). -/
def Dev.infoBytes (d : Dev) : List Byte :=
  let acorn := d.core.acornService
  f32 d.devId ++ f16 d.core.activeCl ++ f16 1 ++ f32 (if acorn then 0x01000000 else d.core.fwVersion) ++
  f8 (if acorn then 0xFF else d.core.image) ++ f8 d.aon.otpRollback ++ f8 d.core.state.code ++ f8 d.core.mode ++ f64 d.now

/-- GET_INFO. -/
def execGetInfo (p : Port) (s : State) : Host.Outcome State Fault Refusal :=
  s.on fun d => d.serve p opGetInfo noCheck fun c => d.ok p c.tag d.infoBytes

/-- GET_PARAM (R113). -/
def execGetParam (p : Port) (s : State) : Host.Outcome State Fault Refusal :=
  s.on fun d => d.serve p opGetParam noCheck fun c =>
    let (st, bs) := d.getParamCmd (payloadLimit p) c.payload
    if st = stOk then d.ok p c.tag bs else d.finishWith p c.tag st

/-- SET_PARAM (R113) of a parameter that has no row of its own. -/
def execSetParam (p : Port) (s : State) : Host.Outcome State Fault Refusal :=
  s.on fun d =>
    match d.headOf p opSetParam with
    | none => d
    | some c =>
      if paramAct c.payload ≠ none then d
      else
        let (d1, st) := d.setParamCmd p c.payload
        d1.finishWith p c.tag st

/-- ABORT (R101). -/
def execAbort (p : Port) (s : State) : Host.Outcome State Fault Refusal :=
  s.on fun d => d.serve p opAbort noCheck fun c => d.abortCmd p c.tag (byteAt c.payload 0)

/-- SET_COMPAT_LEVEL (R104): silicon A1 implements level 1 only. -/
def execSetCompatLevel (p : Port) (s : State) : Host.Outcome State Fault Refusal :=
  s.on fun d => d.serve p opSetCompat noCheck fun c =>
    if leField c.payload 0 2 = 1 then ({ d with core := { d.core with activeCl := 1 } }).finishWith p c.tag stOk
    else d.finishWith p c.tag stCompat

/-! ### Beam, mode and slot mask (R116 to R119) -/

/-- BEAM_ENABLE. -/
def execBeamEnable (p : Port) (s : State) : Host.Outcome State Fault Refusal :=
  s.on fun d => d.serve p opBeamEnable (fun c => argOk (decide (byteAt c.payload 0 ≤ 3))) fun c =>
    d.beamEnableCmd p c.tag (byteAt c.payload 0)

/-- Steps 1 and 2 of R118, and the fitted geometry (R194). -/
def Dev.modeCheck (d : Dev) (p : Port) (m : Nat) : Option Nat :=
  if !modeDefined m then some stBadArg
  else if !isTestMode m && !d.modePresent m then some stNotPresent
  else if isTestMode m then (if p.classBit = 1 then some stDeniedPort else none)
  else argOk (d.geomFits m)

/-- A change that Table 8-3 does not permit in BEAM and DEGRADED, or whose only side is the failed one (R201). -/
def Dev.modeBarred (d : Dev) (m : Nat) : Bool :=
  ((d.rowOf m).dual && !d.row.dual) ||
  (d.core.state == .degraded && !(d.rowOf m).dual && d.saf.safeSides.fst)

/-- SELECT_MODE in STANDBY (R118, Table 8-3): the mode is in force on completion, once side R is as it needs. -/
def Dev.selectStandby (d : Dev) (p : Port) (tag m : Nat) : Dev :=
  let d1 := d.dropChange.moveSideR m
  if (d1.core.modeValid && m == d1.core.mode) || d1.sideRFits m then (d1.selectNow m p tag).settle
  else (({ d1 with seq := { d1.seq with change := .pending m p tag false } }).waits p tag).settle

/-- SELECT_MODE in BEAM and DEGRADED: pending, or waiting behind a bridge (R118). -/
def Dev.selectBeam (d : Dev) (p : Port) (tag m : Nat) : Dev :=
  match d.seq.change with
  | .bridging b q t n behind =>
    let d1 := match behind with
      | some (_, q2, t2) => d.finishWith q2 t2 stOverridden
      | none => d
    ({ d1 with seq := { d1.seq with change := .bridging b q t n (some (m, p, tag)) } }).waits p tag
  | _ =>
    if m = d.core.mode then d.dropChange.finishWith p tag stOk
    else if d.modeBarred m then d.finishWith p tag stOverridden
    else
      let d1 := d.dropChange
      ({ d1 with seq := { d1.seq with change := .pending m p tag false } }).waits p tag

/-- SELECT_MODE. -/
def execSelectMode (p : Port) (s : State) : Host.Outcome State Fault Refusal :=
  s.on fun d => d.serve p opSelectMode (fun c => d.modeCheck p (byteAt c.payload 0)) fun c =>
    let m := byteAt c.payload 0
    if d.core.state = .standby then d.selectStandby p c.tag m
    else if isTestMode m then d.finishWith p c.tag stOverridden
    else d.selectBeam p c.tag m

/-- Modes whose beam slots a mask must not all remove: the one in force and those on their way (R119). -/
def Dev.maskedModes (d : Dev) : List Nat :=
  (if d.core.modeValid then [d.core.mode] else []) ++
  match d.seq.change with
  | .none_ => []
  | .pending m _ _ _ => [m]
  | .bridging m _ _ _ none => [m]
  | .bridging m _ _ _ (some w) => [m, w.1]

/-- The mask is recorded for the next boundary; after the hand-off of entry 0, for the boundary after that (R230). -/
def Dev.recordMask (d : Dev) (w : Word) : Dev :=
  if d.seq.handedFirst then { d with seq := { d.seq with maskFresh := some w } }
  else { d with seq := { d.seq with maskRecorded := some w } }

/-- SET_SLOT_MASK. -/
def execSetSlotMask (p : Port) (s : State) : Host.Outcome State Fault Refusal :=
  s.on fun d =>
    let mask (c : Cmd) : Word := BitVec.ofNat 32 (leField c.payload 0 4)
    d.serve p opSlotMask (fun c => argOk (d.maskedModes.all fun m => maskKeeps (d.rowOf m) (mask c))) fun c =>
      (d.recordMask (mask c)).finishWith p c.tag stOk

/-! ### Snapshots (R120) -/

/-- SNAPSHOT. -/
def execSnapshot (p : Port) (s : State) : Host.Outcome State Fault Refusal :=
  s.on fun d => d.serve p opSnapshot noCheck fun c =>
    let d1 := d.snapshot 2
    d1.ok p c.tag (f64 (d1.latchTick.getD 0) ++ f8 d1.saf.snapCount)

/-- SNAPSHOT_READ. -/
def execSnapshotRead (p : Port) (s : State) : Host.Outcome State Fault Refusal :=
  s.on fun d => d.serve p opSnapshotRead noCheck fun c =>
    let (st, bs) := d.snapRead (payloadLimit p) c.payload
    if st = stOk then d.ok p c.tag bs else d.finishWith p c.tag st

/-! ### Layers and fences (R121, R122) -/

/-- A layer number that commands may name. -/
def hostLayer (n : Nat) : Bool := decide (1 ≤ n) && decide (n ≤ 7)

/-- LAYER_DECLARE of a free layer: placement and scalers, or what it lacks (R140, R142). -/
def Dev.layerDeclare (d : Dev) (p : Port) (tag n : Nat) (c : Decl) : Dev :=
  let pl := d.place c
  let need := if pl.code = 0 ∨ pl.code = 3 then scalersNeeded c.srcW c.srcH c.outW c.outH else 0
  if (d.layer n).st ≠ .free then d.finishWith p tag stOverridden
  else if d.cmp.dramFree < pl.dram then d.finishWith p tag stNoResource
  else if d.cmp.scalersFree.length < need then d.finishWith p tag stSpanExceeded
  else (d.declare n c pl (d.cmp.scalersFree.take need)).finishWith p tag stOk

/-- LAYER_DECLARE. -/
def execLayerDeclare (p : Port) (s : State) : Host.Outcome State Fault Refusal :=
  s.on fun d => d.serve p opLayerDeclare (fun c => argOk (hostLayer (byteAt c.payload 0) && (declOf c.payload).ok)) fun c =>
    d.layerDeclare p c.tag (byteAt c.payload 0) (declOf c.payload)

/-- LAYER_DESTROY: due at a compose-frame start (R150). -/
def execLayerDestroy (p : Port) (s : State) : Host.Outcome State Fault Refusal :=
  s.on fun d => d.serve p opLayerDestroy (fun c => argOk (hostLayer (byteAt c.payload 0))) fun c =>
    let n := byteAt c.payload 0
    if (d.layer n).st ≠ .declared then d.finishWith p c.tag stOverridden
    else (d.modLayer n fun l => { l with destroyDue := true }).waits p c.tag

/-- COMMIT_GROUP arms its group in place of an earlier commit (R122, R147). -/
def Dev.commitCmd (d : Dev) (p : Port) (tag g : Nat) (fences : List Nat) : Dev :=
  let old := d.group g
  let d1 := if old.armed then d.finishWith old.port old.tag stOverridden else d
  (d1.arm g fences p tag).waits p tag

/-- COMMIT_GROUP. -/
def execCommitGroup (p : Port) (s : State) : Host.Outcome State Fault Refusal :=
  s.on fun d => d.serve p opCommitGroup
    (fun c => argOk (decide (byteAt c.payload 0 ≤ 7) && decide (byteAt c.payload 1 ≤ 8))) fun c =>
      d.commitCmd p c.tag (byteAt c.payload 0) (leFields c.payload 4 2 (byteAt c.payload 1))

/-- FENCE_SIGNAL (R76, R122). -/
def execFenceSignal (p : Port) (s : State) : Host.Outcome State Fault Refusal :=
  s.on fun d => d.serve p opFenceSignal
    (fun c => argOk (byteAt c.payload 2 == 0xFF || hostLayer (byteAt c.payload 2))) fun c =>
      let (d1, signalled) := d.fence c.payload
      if signalled then d1.finishWith p c.tag stOk else d1.waits p c.tag

/-! ### Shutter (R123, R262) -/

/-- The longest OBJ payload: 64 objects. -/
def objMax : Nat := 16 + 32 * 64

/-- What the collected list is with one more part; none where the part is out of order or the list too long (R123). -/
def Dev.takePart (d : Dev) (p : Port) (payload : List Byte) : Option ListParts :=
  let seq := leField payload 0 2
  let part := byteAt payload 2
  let parts := byteAt payload 3
  let cur : ListParts := match d.host.parts with
    | some l => if l.seq = seq then l else { port := p, seq := seq, parts := parts, next := 0, data := [] }
    | none => { port := p, seq := seq, parts := parts, next := 0, data := [] }
  let data := cur.data ++ payload.drop 4
  if cur.port ≠ p ∨ cur.parts ≠ parts ∨ part ≠ cur.next ∨ objMax < data.length then none
  else some { cur with next := part + 1, data := data }

/-- A part is stored; the last passes the list to the engine (R258, R260). -/
def Dev.objectPart (d : Dev) (p : Port) (tag : Nat) (payload : List Byte) : Dev :=
  let clear : Dev := { d with host := { d.host with parts := none } }
  match d.takePart p payload with
  | none => clear.finishWith p tag stBadArg
  | some l =>
    if l.next < l.parts then ({ d with host := { d.host with parts := some l } }).finishWith p tag stOk
    else
      let (d1, ok) := clear.handList 2 l.data
      d1.finishWith p tag (if ok then stOk else stBadArg)

/-- OBJECT_LIST. -/
def execObjectList (p : Port) (s : State) : Host.Outcome State Fault Refusal :=
  s.on fun d => d.serve p opObjectList
    (fun c => argOk (decide (1 ≤ byteAt c.payload 3) && decide (byteAt c.payload 3 ≤ 32) &&
      decide (byteAt c.payload 2 < byteAt c.payload 3))) fun c => d.objectPart p c.tag c.payload

/-- A geometry record with its reserved bytes 0 (Table 11-5). -/
def maskGeometry (g : List Byte) : List Byte :=
  g.mapIdx fun i b => if (1 ≤ i ∧ i ≤ 3) ∨ i = 14 ∨ i = 15 ∨ i = 26 ∨ i = 27 ∨ i = 50 ∨ i = 51 then 0 else b

/-- SHUTTER_GEOMETRY: stored and mirrored; GEOMETRY_INVALID clears (Table 15-2). -/
def execShutterGeometry (p : Port) (s : State) : Host.Outcome State Fault Refusal :=
  s.on fun d => d.serve p opGeometry (fun c => argOk (d.geometryOk c.payload)) fun c =>
    ((d.storeGeometry (maskGeometry c.payload)).clearFault 0x0804 0).finishWith p c.tag stOk

/-! ### Lamps (R124) -/

/-- LAMP_ENABLE: in force from the next refresh boundary. -/
def execLampEnable (p : Port) (s : State) : Host.Outcome State Fault Refusal :=
  s.on fun d => d.serve p opLampEnable
    (fun c => if !d.dual && bitsOf (leField c.payload 0 2) 6 6 != 0 then some stNotPresent else none) fun c =>
      ({ d with lamp := { d.lamp with enableNext := BitVec.ofNat 12 (leField c.payload 0 2) } }).finishWith p c.tag stOk

/-- DIM_SET: in force from the next refresh boundary. -/
def execDimSet (p : Port) (s : State) : Host.Outcome State Fault Refusal :=
  s.on fun d => d.serve p opDimSet
    (fun c => argOk (decide (byteAt c.payload 2 ≤ 2) && decide (leField c.payload 4 2 ≤ 10000))) fun c =>
      (d.dimSet (leField c.payload 0 2) (byteAt c.payload 2) (leField c.payload 4 2)).finishWith p c.tag stOk

/-- The fields of RAMP_CURVE are within Table 5-8; GAMMA counts with CURVE 2 only. -/
def rampOk (b : List Byte) : Bool :=
  decide (byteAt b 0 ≤ 2) && decide (10 ≤ leField b 2 2 ∧ leField b 2 2 ≤ 2000) &&
  (byteAt b 0 != 2 || decide (32 ≤ byteAt b 1 ∧ byteAt b 1 ≤ 128))

/-- RAMP_SETTINGS as RAMP_CURVE leaves it (R124). -/
def Dev.rampWord (d : Dev) (b : List Byte) : Nat :=
  let gamma := if byteAt b 0 = 2 then byteAt b 1 else bitsOf (d.par kLmpRampSettings 0) 8 8
  byteAt b 0 + 0x100 * gamma + 0x10000 * leField b 2 2

/-- RAMP_CURVE: recorded and mirrored to NOR. -/
def execRampCurve (p : Port) (s : State) : Host.Outcome State Fault Refusal :=
  s.on fun d => d.serve p opRampCurve (fun c => argOk (rampOk c.payload)) fun c =>
    ((d.setPar kLmpRampSettings 0 (d.rampWord c.payload)).mirrorVal (pid kLmpRampSettings 0)).finishWith p c.tag stOk

/-! ### Integrity (R125, R351) -/

/-- The rectangle that a SIGNATURE_EXPECT arms for the pass of the next compose frame, or disables. -/
def armedRect (b : List Byte) : SigRect :=
  let act := byteAt b 2
  { SigRect.reset with
    state := if act = 1 then 2 else if act = 2 then 1 else 0
    x := leField b 4 2, y := leField b 6 2, w := leField b 8 2, h := leField b 10 2
    expected := if act = 1 then BitVec.ofNat 32 (leField b 12 4) else 0
    armNext := act != 0 }

/-- The rectangle lies within the side's composed frame. -/
def Dev.rectFits (d : Dev) (b : List Byte) : Bool :=
  decide (0 < leField b 8 2) && decide (0 < leField b 10 2) && decide (leField b 4 2 + leField b 8 2 ≤ d.row.sideW) &&
  decide (leField b 6 2 + leField b 10 2 ≤ d.row.fieldH)

/-- Checks 8 and 9 of SIGNATURE_EXPECT. -/
def Dev.signatureCheck (d : Dev) (b : List Byte) : Option Nat :=
  if byteAt b 0 = 1 ∧ !d.dual then some stNotPresent
  else argOk (decide (byteAt b 0 ≤ 1) && decide (byteAt b 1 ≤ 15) && decide (byteAt b 2 ≤ 2) && d.rectFits b)

/-- The action that a SIG_MISMATCH of this side and rectangle waits for is done (Table 15-2). -/
def Dev.signatureDone (d : Dev) (side rect : Nat) : Dev :=
  if d.saf.active.any fun f => f.code == 0x0C01 && f.inst == side && f.arg % 16 == rect then d.actionDone 0x0C01 side else d

/-- SIGNATURE_EXPECT. -/
def execSignatureExpect (p : Port) (s : State) : Host.Outcome State Fault Refusal :=
  s.on fun d => d.serve p opSignature (fun c => d.signatureCheck c.payload) fun c =>
    ((d.setRect (byteAt c.payload 0) (byteAt c.payload 1) (armedRect c.payload)).signatureDone (byteAt c.payload 0)
      (byteAt c.payload 1)).finishWith p c.tag stOk

/-! ### Journal (R126) -/

/-- JOURNAL_READ; an INTEGRITY response carries the entry too (R109). -/
def execJournalRead (p : Port) (s : State) : Host.Outcome State Fault Refusal :=
  s.on fun d => d.serve p opJournalRead noCheck fun c =>
    let (st, bs) := d.journalReadCmd (leField c.payload 0 4) ((byteAt c.payload 4).testBit 0)
    d.finish p c.tag st bs

/-- JOURNAL_SEAL. -/
def execJournalSeal (p : Port) (s : State) : Host.Outcome State Fault Refusal :=
  s.on fun d => d.serve p opJournalSeal noCheck fun c => d.journalSealCmd p c.tag

/-! ### Calibration and update (R127, R128) -/

/-- CAL_RUN. -/
def execCalRun (p : Port) (s : State) : Host.Outcome State Fault Refusal :=
  s.on fun d => d.serve p opCalRun (fun c => argOk (byteAt c.payload 0 % 8 != 0)) fun c =>
    d.calRunCmd p c.tag (BitVec.ofNat 3 (byteAt c.payload 0)) ((byteAt c.payload 1).testBit 0)

/-- FW_UPDATE_BEGIN. -/
def execFwUpdateBegin (p : Port) (s : State) : Host.Outcome State Fault Refusal :=
  s.on fun d => d.serve p opFwBegin
    (fun c => argOk (decide (leField c.payload 0 4 ≤ 0x200000) && leField c.payload 0 4 % 4 == 0)) fun c =>
      d.fwBegin p c.tag (leField c.payload 0 4)

/-- FW_UPDATE_DATA. -/
def execFwUpdateData (p : Port) (readsBack : Bool) (s : State) : Host.Outcome State Fault Refusal :=
  s.on fun d => d.serve p opFwData noCheck fun c =>
    d.fwData p c.tag (leField c.payload 0 4) (c.payload.drop 4) readsBack

/-- FW_UPDATE_COMMIT. -/
def execFwUpdateCommit (p : Port) (s : State) : Host.Outcome State Fault Refusal :=
  s.on fun d => d.serve p opFwCommit noCheck fun c => d.fwCommit p c.tag ((byteAt c.payload 0).testBit 0)

/-! ### SET_PARAM of an action -/

/-- PAT_ERASE (R155). -/
def execPatErase (p : Port) (s : State) : Host.Outcome State Fault Refusal :=
  s.on fun d => d.serveAct p .patErase fun c _ v => d.patErase p c.tag v

/-- PAT_PROGRAM (R155). -/
def execPatProgram (p : Port) (s : State) : Host.Outcome State Fault Refusal :=
  s.on fun d => d.serveAct p .patProgram fun c _ v => (d.patProgram v).finishWith p c.tag stOk

/-- PAT_VERIFY (R155). -/
def execPatVerify (p : Port) (s : State) : Host.Outcome State Fault Refusal :=
  s.on fun d => d.serveAct p .patVerify fun c _ v => (d.patVerify v).finishWith p c.tag stOk

/-- PAT_INVALIDATE (R155). -/
def execPatInvalidate (p : Port) (s : State) : Host.Outcome State Fault Refusal :=
  s.on fun d => d.serveAct p .patInvalidate fun c _ v =>
    (d.setPatValid (patSide v) (patIndex v) false).finishWith p c.tag stOk

/-- Every phase of the coefficients that would go live sums to 1,024 (R188). -/
def Dev.coefsOk (d : Dev) : Bool :=
  let t (k : Nat) : List Byte := (d.stagedArr k 0).getD (d.arr k 0)
  (List.range 64).all fun ph =>
    sumInt ((List.range 4).map fun k => coefField (t kCmpCoefV) 4 ph k) == 1024 &&
    sumInt ((List.range 8).map fun k => coefField (t kCmpCoefH) 8 ph k) == 1024

/-- TABLE_COMMIT (R188): the tables go live at the next compose-frame start. -/
def execTableCommit (p : Port) (s : State) : Host.Outcome State Fault Refusal :=
  s.on fun d => d.serveAct p .tableCommit fun c _ v =>
    if v.testBit 4 && !d.coefsOk then d.finishWith p c.tag stBadArg
    else ({ d with cmp := { d.cmp with tableCommit := d.cmp.tableCommit ||| BitVec.ofNat 5 v } }).finishWith p c.tag stOk

/-- FAULT_CLEAR (R363). -/
def execFaultClear (p : Port) (s : State) : Host.Outcome State Fault Refusal :=
  s.on fun d => d.serveAct p .faultClear fun c _ v => d.faultClear p c.tag v

/-- REACTION_SET (R369). -/
def execReactionSet (p : Port) (s : State) : Host.Outcome State Fault Refusal :=
  s.on fun d => d.serveAct p .reactionSet fun c _ v => (d.setReaction v).finishWith p c.tag stOk

/-- SNAP_RELEASE (R367). -/
def execSnapRelease (p : Port) (s : State) : Host.Outcome State Fault Refusal :=
  s.on fun d => d.serveAct p .snapRelease fun c _ _ => d.snapRelease.finishWith p c.tag stOk

/-- SEG_COMMIT (R337). -/
def execSegCommit (p : Port) (s : State) : Host.Outcome State Fault Refusal :=
  s.on fun d => d.serveAct p .segCommit fun c i v => (d.segCommit i v).finishWith p c.tag stOk

/-- The link whose RETRAIN a SET_PARAM writes. -/
def retrainLink (c : Cmd) : LinkId := if leField c.payload 0 4 = kLnkRetrain then .lnk0 else .lnk1

/-- RETRAIN_RECOVERY (R58): from L0 or L1; elsewhere the link is not in the state it needs (R105). -/
def execRetrainRecovery (p : Port) (s : State) : Host.Outcome State Fault Refusal :=
  s.on fun d => d.serveAct p .retrain1 fun c _ _ =>
    let l := retrainLink c
    if (d.link l).state = .l0 ∨ (d.link l).state = .l1 then (d.retrain1 l).finishWith p c.tag stOk
    else d.finishWith p c.tag stOverridden

/-- RETRAIN_DETECT (R58): from any state but DISABLED and L2 (Table 2-8). -/
def execRetrainDetect (p : Port) (s : State) : Host.Outcome State Fault Refusal :=
  s.on fun d => d.serveAct p .retrain2 fun c _ _ =>
    let l := retrainLink c
    if (d.link l).state = .disabled ∨ (d.link l).state = .l2 then d.finishWith p c.tag stOverridden
    else (d.toDetect l).finishWith p c.tag stOk

/-! ### Time limits -/

/-- BEAM_ENABLE_TIMEOUT (R117): 500 ms after admission; the request stays recorded. -/
def execBeamEnableTimeout (p : Port) (tag : Nat) (s : State) : Host.Outcome State Fault Refusal :=
  s.on fun d =>
    if (d.waitingOf opBeamEnable).any fun c => c.1 == p && c.2.tag == tag then d.finishWith p tag stTimeout else d

/-- JOURNAL_SEAL_TIMEOUT (R126): the oldest seal that is not in NOR 1 s after its command; the segment is still sealed. -/
def execJournalSealTimeout (s : State) : Host.Outcome State Fault Refusal :=
  s.on fun d =>
    match d.jnl.seals with
    | [] => d
    | (_, p, tag) :: rest => ({ d with jnl := { d.jnl with seals := rest } }).finishWith p tag stTimeout

end Sys2Proof.Machine
end

