-- ==== Sys2Proof/Machine/PortCmds.lean ====
section
/-! DEFINITION. Commands of the mirror ports (chapter 10). Responses reach a port whose array is powered. -/

namespace Sys2Proof.Machine

open Sys2Proof

/-- A port's meaning, on a side that the variant has. -/
def State.onPort (st : State) (s : Side) (f : Dev → Nat → Dev) : Host.Outcome State Fault Refusal :=
  st.on fun d => if d.sides.contains s.ix then f d s.ix else d

/-- A response's meaning: the array is powered. -/
def State.onArray (st : State) (s : Side) (f : Dev → Nat → Dev) : Host.Outcome State Fault Refusal :=
  st.onPort s fun d k => if (d.mport k).pwrEn then f d k else d

/-- A response frame is whole: no code error, and CHK is the CRC-8 over TYPE, RSEQ and payload (R242). -/
def rbWhole (f : RbFrame) (type : Nat) (payload : List Byte) : Bool :=
  !f.codeError && f.chk == crc8 (leBytes 1 type ++ [f.rseq] ++ payload)

/-- A response on a readback pair: one that is not whole is dropped (log entry 129); RSEQ is kept per pair. -/
def State.onResponse (st : State) (s : Side) (pair type : Nat) (payload : List Byte) (f : RbFrame) (g : Dev → Nat → Dev) :
    Host.Outcome State Fault Refusal :=
  st.onArray s fun d k =>
    if rbWhole f type payload then g (d.modMport k fun p => { p with rseq := p.rseq.set pair f.rseq }) k else d

/-! ### Plane checks (R245) -/

/-- BUS_CRC_RESPONSE. -/
def execBusCrcResponse (s : Side) (entry : Nat) (crc : Word) (st : State) (f : RbFrame := RbFrame.unread) :
    Host.Outcome State Fault Refusal :=
  st.onResponse s 0 0x01 (leBytes 2 entry ++ leBytes 4 crc.toNat) f fun d k => (d.busCrcIn k entry crc).checksDone

/-- CELL_CRC_RESPONSE. -/
def execCellCrcResponse (s : Side) (entry : Nat) (crc : Word) (st : State) (f : RbFrame := RbFrame.unread) :
    Host.Outcome State Fault Refusal :=
  st.onResponse s 1 0x02 (leBytes 2 entry ++ leBytes 4 crc.toNat) f fun d k => (d.cellCrcIn k entry crc).checksDone

/-- BUS_CRC_TIMEOUT. -/
def execBusCrcTimeout (s : Side) (st : State) : Host.Outcome State Fault Refusal :=
  st.onPort s fun d k => (d.crcLate k false).checksDone

/-- CELL_CRC_TIMEOUT. -/
def execCellCrcTimeout (s : Side) (st : State) : Host.Outcome State Fault Refusal :=
  st.onPort s fun d k => (d.crcLate k true).checksDone

/-- LANES_RESPONSE (R250); a lane that fails may take a cover from calibration (R419). -/
def execLanesResponse (s : Side) (crcs : List Byte) (st : State) (f : RbFrame := RbFrame.unread) :
    Host.Outcome State Fault Refusal :=
  st.onResponse s 0 0x05 crcs f fun d k => (d.lanesIn k crcs).calAdvance

/-! ### Park, release, power -/

/-- A STATUS: PARKED ends a park (Table 10-7), and idle gaps of a parked port take tap changes (R247). -/
def Dev.statusIn (d : Dev) (k : Nat) (status : Word) : Dev :=
  let d1 := d.modMport k fun p => { p with arrayStatus := status }
  if (d.mport k).state = .parking ∧ status.getLsbD 0 = true then ((d1.portParked k).calGap k).settle else d1

/-- STATUS_RESPONSE (R252). -/
def execStatusResponse (s : Side) (status : Word) (st : State) (f : RbFrame := RbFrame.unread) :
    Host.Outcome State Fault Refusal :=
  st.onResponse s 0 0x03 (leBytes 4 status.toNat) f fun d k => d.statusIn k status

/-- ACK_RESPONSE (R242). -/
def execAckResponse (s : Side) (cseq cmd : Nat) (st : State) (f : RbFrame := RbFrame.unread) :
    Host.Outcome State Fault Refusal :=
  st.onResponse s 0 0x07 (leBytes 1 cseq ++ leBytes 1 cmd) f fun d k => d.ackIn k cseq cmd

/-- ERROR_RESPONSE (R242): counted in CMD_ERR. -/
def execErrorResponse (s : Side) (cseq reason : Nat) (st : State) (f : RbFrame := RbFrame.unread) :
    Host.Outcome State Fault Refusal :=
  st.onResponse s 0 0x08 (leBytes 1 cseq ++ leBytes 1 reason) f fun d k => d.count kMptCmdErr k 1

/-- UNPARK_SETTLED (R252): READY; the reset ticket goes back with the last port released. -/
def execUnparkSettled (s : Side) (st : State) : Host.Outcome State Fault Refusal :=
  st.onPort s fun d k =>
    if (d.mport k).state = .unpark ∧ (d.mport k).unparkAcked = true then
      (d.modMportEv k fun p => { p with state := .ready, unparkAcked := false }).releaseResetTicket
    else d

/-- PARK_TIMEOUT (R252), 20 µs after MAL_PARK_N has fallen. -/
def execParkTimeout (s : Side) (st : State) : Host.Outcome State Fault Refusal :=
  st.onPort s fun d k =>
    if (d.mport k).state = .parking ∧ (d.mport k).parkN = false ∧ (d.mport k).parkFell + 2000 ≤ d.now then
      ((d.portParked k).raise 0x070A k (256 * k)).settle
    else d

/-- RELEASE_FROM_PARK (R253). -/
def execReleaseFromPark (s : State) : Host.Outcome State Fault Refusal := s.on Dev.releasePark

/-- MAL_PWR_EN falls 10 µs after the pairs went to the off level (R254); a mode change that waited for it follows. -/
def execPowerDownStep (s : Side) (st : State) : Host.Outcome State Fault Refusal :=
  st.onPort s fun d k =>
    let p := d.mport k
    if (p.state = .off ∨ p.state = .absent) ∧ p.pwrEn = true ∧ p.pairsOn = false then
      (d.modMport k fun p => { p with pwrEn := false, pwrDwell := true }).settle
    else d

/-- MAL_PWR_EN has been low for 10 ms (R254): a power-up that waits follows. -/
def Dev.dwellOver (d : Dev) (k : Nat) : Dev :=
  let d1 := d.modMport k fun p => { p with pwrDwell := false }
  if (d1.mport k).powerUpWanted ∧ (d1.mport k).state = .off then d1.powerUpNow k else d1

/-- PWR_EN_LOW_DWELL_EXPIRY (R254). -/
def execPwrEnLowDwellExpiry (s : Side) (st : State) : Host.Outcome State Fault Refusal :=
  st.onPort s fun d k => if (d.mport k).pwrDwell ∧ !(d.mport k).pwrEn then d.dwellOver k else d

/-! ### Array supply, training and identity -/

/-- TRAIN to PARKING (Table 10-7). -/
def MState.beyondPower : MState → Bool
  | .train => true
  | .ident => true
  | .parked => true
  | .unpark => true
  | .ready => true
  | .parking => true
  | _ => false

/-- MAL_FLT_N is low (ARRAY_FLT). -/
def Dev.fltLow (d : Dev) (k : Nat) : Dev := d.modMport k fun p => { p with fltN := false }

/-- ARRAY_FLT (R252). -/
def execArrayFlt (s : Side) (st : State) : Host.Outcome State Fault Refusal :=
  st.onPort s fun d k =>
    if (d.mport k).state.beyondPower then ((((d.fltLow k).arrayFault k).judgeHeld).calAdvance).settle else d.fltLow k

/-- ARRAY_SUPPLY_GOOD (R252): MAL_FLT_N has been high for 100 µs, and POWER goes on to TRAIN. -/
def execArraySupplyGood (s : Side) (rb0 rb1 : List Bool) (st : State) : Host.Outcome State Fault Refusal :=
  st.onArray s fun d k =>
    if (d.mport k).state = .power then d.startTrain k rb0 rb1 else d.modMport k fun p => { p with fltN := true }

/-- PORT_POWER_TIMEOUT (R252). -/
def execPortPowerTimeout (s : Side) (st : State) : Host.Outcome State Fault Refusal :=
  st.onPort s fun d k => if (d.mport k).state = .power then ((d.arrayFault k).judgeHeld).settle else d

/-- PORT_ABSENT (R252): side R, with no signal during the first 1 ms of TRAIN; power-down without a fault. -/
def execPortAbsent (s : Side) (st : State) : Host.Outcome State Fault Refusal :=
  st.onPort s fun d k =>
    if k = 1 ∧ (d.mport k).state = .train ∧ (d.mport k).sweep = [] ∧ (d.mport k).firstSweep = [] then
      (d.modMportEv k fun p => { p with state := .absent, pairsOn := false, parkN := false, powerUpWanted := false }).settle
    else d

/-- PORT_TRAIN_TIMEOUT (R252). -/
def execPortTrainTimeout (s : Side) (st : State) : Host.Outcome State Fault Refusal :=
  st.onPort s fun d k => if (d.mport k).state = .train then (d.failAndJudge k 0x0709 (256 * k)).settle else d

/-- TRAIN_RESULT_RESPONSE (R248, R249). -/
def execTrainResultResponse (s : Side) (tap : Nat) (errors : List Nat) (st : State) (f : RbFrame := RbFrame.unread) :
    Host.Outcome State Fault Refusal :=
  st.onResponse s 1 0x06 (leList 1 errors) f fun d k => (d.trainResult k tap errors).settle

/-- IDENT_RESPONSE (R255). -/
def execIdentResponse (s : Side) (payload : List Byte) (st : State) (f : RbFrame := RbFrame.unread) :
    Host.Outcome State Fault Refusal :=
  st.onResponse s 0 0x04 payload f fun d k => (d.identIn k payload).settle

/-- IDENT_NO_RESPONSE (R252). -/
def execIdentNoResponse (s : Side) (st : State) : Host.Outcome State Fault Refusal :=
  st.onPort s fun d k => (d.identMissed k).settle

end Sys2Proof.Machine
end

