-- ==== Sys2Proof/Machine/PowerCmds.lean ====
section
/-! DEFINITION. Commands of reset, boot, power and clocks (chapters 17 and 19), of HOLDUP, and of the test access port (R453 to
R456). -/

namespace Sys2Proof.Machine

open Sys2Proof

/-! ### Test access port -/

/-- Every supply reads in range, so that the test access port works (R453). -/
def Dev.tapRuns (d : Dev) : Bool := d.aon.supplies.all id

/-- EXTEST, HIGHZ and CLAMP take effect while RESET_N is asserted and JTAG_LOCK is not set (R456). -/
def Dev.scanOpen (d : Dev) : Bool := !d.aon.resetN && !d.aon.jtagLock && d.tapRuns

/-- The scanned balls follow the instruction in force (Table 20-11). -/
def Dev.syncScan (d : Dev) : Dev :=
  { d with jtag := { d.jtag with
      scanHighZ := d.scanOpen && d.jtag.ir == 0x03, scanDrive := d.scanOpen && (d.jtag.ir == 0x00 || d.jtag.ir == 0x04) } }

/-- JTAG_UPDATE_IR (R453, R456). -/
def execJtagUpdateIr (ir : Byte) (s : State) : Host.Outcome State Fault Refusal :=
  s.on fun d => if d.tapRuns then ({ d with jtag := { d.jtag with ir := ir, dr := d.captureDr ir } }).syncScan else d

/-- EXTEST_UPDATE_DR (R455): the cells drive their balls; where EXTEST acts as BYPASS the cells stay. -/
def execExtestUpdateDr (cells : BitVec 159) (s : State) : Host.Outcome State Fault Refusal :=
  s.on fun d =>
    if d.scanOpen ∧ d.jtag.ir = 0x00 then ({ d with jtag := { d.jtag with cells := cells } }).syncScan else d

/-! ### Reset and supplies -/

/-- RESET_N_ASSERTED (R424). -/
def execResetNAsserted (s : State) : Host.Outcome State Fault Refusal := s.on fun d => d.resetN.syncScan

/-- RESET_N_DEASSERTED (R456): the scanned balls return to their levels; the 1 ms towards RESET_RELEASE starts. -/
def execResetNDeasserted (s : State) : Host.Outcome State Fault Refusal :=
  s.on fun d => ({ d with aon := { d.aon with resetN := true } }).syncScan

/-- RESET_RELEASE (R424). -/
def execResetRelease (s : State) : Host.Outcome State Fault Refusal := s.on Dev.resetReleased

/-- SUPPLY_OUT_OF_RANGE (R423), with every monitor's reading. -/
def execSupplyOutOfRange (inRange : List Bool) (s : State) : Host.Outcome State Fault Refusal :=
  s.on fun d => (d.supplies inRange).syncScan

/-! ### Boot -/

/-- IMAGE_VERIFY_DONE (R428, R430). -/
def execImageVerifyDone (imageB : Bool) (failedCheck svn fwVersion : Nat) (s : State) : Host.Outcome State Fault Refusal :=
  s.on fun d => d.imageRead (b2n imageB) failedCheck svn fwVersion

/-- BOOT_COMPLETE (R432). -/
def execBootComplete (selfTestsPass : Bool) (s : State) : Host.Outcome State Fault Refusal :=
  s.on fun d => d.bootComplete selfTestsPass

/-- BOOT_PLL_LOCK_TIMEOUT (R394). -/
def execBootPllLockTimeout (p : Pll) (s : State) : Host.Outcome State Fault Refusal := s.on fun d => d.bootPllLate p.ix

/-- LINK_ENABLE (R43). -/
def execLinkEnable (l : LinkId) (s : State) : Host.Outcome State Fault Refusal := s.on fun d => d.enableLink l

/-- FW_RESTART_RESET (R433). -/
def execFwRestartReset (s : State) : Host.Outcome State Fault Refusal := s.on Dev.fwRestart

/-- MILLER_WATCHDOG (R362). -/
def execMillerWatchdog (s : State) : Host.Outcome State Fault Refusal := s.on Dev.watchdog

/-! ### Power fail -/

/-- POWER_FAIL_WARNING (R379). -/
def execPowerFailWarning (s : State) (pfwLow : Bool := true) (sense : List Nat := []) : Host.Outcome State Fault Refusal :=
  s.on fun d => if d.warns pfwLow sense then d.powerFail else d

/-- POWER_FAIL_WARNING_CLEARED (R25): boot goes on, and the 50 ms towards HOLDUP_EXIT start. -/
def execPowerFailWarningCleared (s : State) : Host.Outcome State Fault Refusal :=
  s.on fun d => { d with aon := { d.aon with warning := false } }

/-- HOLDUP_JOURNAL_DONE (R380). -/
def execHoldupJournalDone (micros : Nat) (s : State) : Host.Outcome State Fault Refusal := s.on fun d => d.holdupDone micros

/-- HOLDUP_EXIT (R25). -/
def execHoldupExit (s : State) : Host.Outcome State Fault Refusal := s.on Dev.holdupExit

/-! ### Temperature -/

/-- DIE_TEMP_CONVERSION (R397 to R400). -/
def execDieTempConversion (t rcTrim : Int) (s : State) : Host.Outcome State Fault Refusal := s.on fun d => d.dieTemp t rcTrim

/-- THERMAL_SHUTDOWN (R401). -/
def execThermalShutdown (t : Int) (s : State) : Host.Outcome State Fault Refusal := s.on fun d => d.thermalShutdown t

/-- THERMAL_OFF_EXIT (R402). -/
def execThermalOffExit (s : State) : Host.Outcome State Fault Refusal := s.on Dev.thermalExit

/-! ### Clocks -/

/-- REFCLK_LOSS (R389). -/
def execRefclkLoss (count : Nat) (s : State) : Host.Outcome State Fault Refusal := s.on fun d => d.refclkLoss count

/-- REFCLK_RESTORED (R389). -/
def execRefclkRestored (count : Nat) (s : State) : Host.Outcome State Fault Refusal := s.on fun d => d.refclkRestored count

/-- PLL_LOSS_OF_LOCK (R388, R390). -/
def execPllLossOfLock (p : Pll) (clamp : Bool) (s : State) : Host.Outcome State Fault Refusal :=
  s.on fun d => d.pllLoss p.ix clamp

/-- PLL_LOCK_DECLARED (R387, R391). -/
def execPllLockDeclared (p : Pll) (s : State) : Host.Outcome State Fault Refusal := s.on fun d => d.pllLock p.ix

/-- RELOCK_TIMEOUT (R391). -/
def execRelockTimeout (p : Pll) (s : State) : Host.Outcome State Fault Refusal := s.on fun d => d.relockTimeout p.ix

/-- PLL_Q_PHASE_STEP (R206, R395). -/
def execPllQPhaseStep (s : State) : Host.Outcome State Fault Refusal := s.on Dev.phaseStep

/-! ### The Sluice (R434 to R436) -/

/-- TICKET_REQUEST (R435). -/
def execTicketRequest (h : Holder) (s : State) : Host.Outcome State Fault Refusal := s.on fun d => d.ticketAsk h

/-- TICKET_RELEASE (R435). -/
def execTicketRelease (h : Holder) (s : State) : Host.Outcome State Fault Refusal := s.on fun d => d.ticketDone h

/-- TICKET_QUEUE_TIMEOUT (R435). -/
def execTicketQueueTimeout (h : Holder) (s : State) : Host.Outcome State Fault Refusal := s.on fun d => d.queueTimeout h

/-- TICKET_OVERRUN (R436). -/
def execTicketOverrun (h : Holder) (s : State) : Host.Outcome State Fault Refusal := s.on fun d => d.ticketOverrun h

end Sys2Proof.Machine
end

