-- ==== Sys2Proof/Machine/RegCmds.lean ====
section
/-! DEFINITION. Commands of the register map (chapter 4): writes, the doorbell and DONE, TIME_LO, the event window, the snapshot
trigger, and DBG_MBX. -/

namespace Sys2Proof.Machine

open Sys2Proof

/-- REGISTER_WRITE (R87): one whole transaction between the edges of HSPI_CS_N. -/
def execRegisterWrite (p : RegPort) (bytes : List Byte) (s : State) : Host.Outcome State Fault Refusal :=
  s.on fun d => d.transaction p bytes

/-- MBX_DOORBELL (R89): a write of MBX_DOORBELL. -/
def execMbxDoorbell (p : RegPort) (ring : Word) (s : State) : Host.Outcome State Fault Refusal :=
  s.on fun d => d.regWrite p 0x0020 ring.toNat

/-- MBX_DONE_RELEASE (R89): a write of MBX_DONE. -/
def execMbxDoneRelease (p : RegPort) (done_ : Word) (s : State) : Host.Outcome State Fault Refusal :=
  s.on fun d => d.regWrite p 0x0024 done_.toNat

/-- TIME_LO_READ (R87): TIME_HI is latched with it. -/
def execTimeLoRead (p : RegPort) (s : State) : Host.Outcome State Fault Refusal := s.on fun d => (d.startRead p).regRead p 0x0010

/-- EVT_FIFO_POP (R103): word 0x090C is read; the head record leaves once its last bit has been shifted out. -/
def execEvtFifoPop (p : RegPort) (complete : Bool) (s : State) : Host.Outcome State Fault Refusal :=
  s.on fun d =>
    let d1 := (d.startRead p).regRead p 0x090C
    if complete then d1.popEvent p else d1

/-- SNAP_TRIG (R366): TRIG of SNAP_CTRL is written with 1. -/
def execSnapTrig (_p : RegPort) (s : State) : Host.Outcome State Fault Refusal := s.on Dev.snapTrig

/-- DBG_MBX_UPDATE (R90): Update-DR while the test access port holds the instruction DBG_MBX (Table 20-11). -/
def execDbgMbxUpdate (dr : BitVec 50) (s : State) : Host.Outcome State Fault Refusal :=
  s.on fun d => if d.jtag.ir = 0x10 then d.debugUpdate dr.toNat else d

end Sys2Proof.Machine
end

