-- ==== Sys2Proof/Machine/ShutterCmds.lean ====
section
/-! DEFINITION. Commands of the Shutter engine that come with time (R264, R273). -/

namespace Sys2Proof.Machine

open Sys2Proof

/-- RASTER_END (R264). -/
def execRasterEnd (durationTicks : Nat) (s : State) : Host.Outcome State Fault Refusal := s.on fun d => d.endRaster durationTicks

/-- RASTER_TIMEOUT (R264). -/
def execRasterTimeout (s : State) : Host.Outcome State Fault Refusal := s.on Dev.rasterOverdue

/-- LIST_STALE (R273). -/
def execListStale (s : State) : Host.Outcome State Fault Refusal := s.on Dev.goStale

/-- STALE_HOLD_EXPIRY (R273). -/
def execStaleHoldExpiry (s : State) : Host.Outcome State Fault Refusal := s.on Dev.holdEnds

end Sys2Proof.Machine
end

