-- ==== Sys2Proof/Machine/TimelineCmds.lean ====
section
/-! DEFINITION. Commands of the refresh timeline, the Governor and the safe state (chapters 9, 10, 12, 13 and 15). -/

namespace Sys2Proof.Machine

open Sys2Proof

/-- REFRESH_BOUNDARY (R230). A calibration run whose ticket has been granted meanwhile starts. -/
def execRefreshBoundary (s : State) : Host.Outcome State Fault Refusal :=
  s.on fun d => if d.timelineRuns then d.refreshBoundary.calTicket else d

/-- The entry that a slot boundary begins, where the timeline runs. -/
def Dev.slotBegins (d : Dev) : Option Nat := if d.timelineRuns then d.nextEntry else none

/-- The mask words of a side among those that read as uncorrectable. -/
def maskWordsOf (s : Nat) (ms : List (Side × Nat)) : List Nat := (ms.filter fun m => m.1.ix == s).map Prod.snd

/-- SLOT_BOUNDARY (R213). -/
def execSlotBoundary (badL badR : List Nat) (badMask : List (Side × Nat)) (seqEcc : Bool) (s : State) :
    Host.Outcome State Fault Refusal :=
  s.on fun d =>
    match d.slotBegins with
    | some e => d.beginEntry e (fun k => if k = 0 then badL else badR) (fun k => maskWordsOf k badMask) seqEcc
    | none => d

/-- LOOKAHEAD_HANDOFF (R228). -/
def execLookaheadHandoff (s : State) : Host.Outcome State Fault Refusal := s.on fun d => if d.timelineRuns then d.handOff else d

/-- RESET_INSTANT (R214). The slot gap it opens is one in which the taps of READY ports may change (R247). -/
def execResetInstant (s : State) : Host.Outcome State Fault Refusal :=
  s.on fun d =>
    if d.timelineRuns && d.seq.resetDue then
      let d1 := d.resetInstant
      d1.sides.foldl (fun d k => if (d.mport k).state = .ready then d.calGap k else d) d1
    else d

/-- The interval of the park entry in which diagnostic pulses are confined, S_e + 12 µs to S_e + 42 µs (R226). -/
def Dev.inDiagWindow (d : Dev) : Bool :=
  d.timelineRuns && !d.seq.resetDue && (d.entry d.seq.displayed).diag &&
  decide (d.seq.resetAt + 1200 ≤ d.now) && decide (d.now ≤ d.seq.resetAt + 4200)

/-- DIAG_PULSE (R305). -/
def execDiagPulse (opens shorts : List Bool) (s : State) : Host.Outcome State Fault Refusal :=
  s.on fun d =>
    if d.inDiagWindow then
      (d.pulsed.foldl (fun d c => d.pulse c (opens.getD c false) (shorts.getD c false)) d).calAdvance
    else d

/-- GOVERNOR_TICK (R315). A covered channel that its check has latched off leaves the calibration run (R413, R419). -/
def execGovernorTick (x : Samples) (s : State) : Host.Outcome State Fault Refusal :=
  s.on fun d =>
    if d.govRuns then (let d1 := d.govTick x; if d1.cal.overRun = 2 then d1.calAdvance else d1) else d

/-- SAFE_STATE_COMPLETE (R364). -/
def execSafeStateComplete (s : State) : Host.Outcome State Fault Refusal := s.on Dev.safeComplete

/-- GOV_DEADLINE (R319). -/
def execGovDeadline (slot : Nat) (s : State) : Host.Outcome State Fault Refusal := s.on fun d => d.govDeadline slot

/-- FEEDBACK_LOST (R326). -/
def execFeedbackLost (slot : Nat) (outOfRange : Bool) (s : State) : Host.Outcome State Fault Refusal :=
  s.on fun d => d.feedbackLost slot outOfRange

end Sys2Proof.Machine
end

