-- ==== Sys2Proof/Machine/Dispatch.lean ====
section
/-! DEFINITION. One arm for each command: its meaning. -/

namespace Sys2Proof.Machine

open Sys2Proof

/-- A command's effect on everything but the queue. -/
def exec (i : Instr) (s : State) : Host.Outcome State Fault Refusal :=
  match i with
  | .resetNAsserted => Sys2Proof.Machine.execResetNAsserted s
  | .resetRelease => Sys2Proof.Machine.execResetRelease s
  | .supplyOutOfRange inRange => Sys2Proof.Machine.execSupplyOutOfRange inRange s
  | .imageVerifyDone imageB failedCheck svn fwVersion => Sys2Proof.Machine.execImageVerifyDone imageB failedCheck svn fwVersion s
  | .bootComplete selfTestsPass => Sys2Proof.Machine.execBootComplete selfTestsPass s
  | .linkEnable l => Sys2Proof.Machine.execLinkEnable l s
  | .powerFailWarning pfwLow sense => Sys2Proof.Machine.execPowerFailWarning s pfwLow sense
  | .holdupJournalDone micros => Sys2Proof.Machine.execHoldupJournalDone micros s
  | .holdupExit => Sys2Proof.Machine.execHoldupExit s
  | .dieTempConversion t rcTrim => Sys2Proof.Machine.execDieTempConversion t rcTrim s
  | .thermalShutdown t => Sys2Proof.Machine.execThermalShutdown t s
  | .thermalOffExit => Sys2Proof.Machine.execThermalOffExit s
  | .refclkLoss count => Sys2Proof.Machine.execRefclkLoss count s
  | .refclkRestored count => Sys2Proof.Machine.execRefclkRestored count s
  | .pllLossOfLock p clamp => Sys2Proof.Machine.execPllLossOfLock p clamp s
  | .pllLockDeclared p => Sys2Proof.Machine.execPllLockDeclared p s
  | .relockTimeout p => Sys2Proof.Machine.execRelockTimeout p s
  | .millerWatchdog => Sys2Proof.Machine.execMillerWatchdog s
  | .fwRestartReset => Sys2Proof.Machine.execFwRestartReset s
  | .ticketRequest h => Sys2Proof.Machine.execTicketRequest h s
  | .ticketRelease h => Sys2Proof.Machine.execTicketRelease h s
  | .ticketQueueTimeout h => Sys2Proof.Machine.execTicketQueueTimeout h s
  | .ticketOverrun h => Sys2Proof.Machine.execTicketOverrun h s
  | .registerWrite p bytes => Sys2Proof.Machine.execRegisterWrite p bytes s
  | .mbxDoorbell p ring => Sys2Proof.Machine.execMbxDoorbell p ring s
  | .mbxDoneRelease p done => Sys2Proof.Machine.execMbxDoneRelease p done s
  | .timeLoRead p => Sys2Proof.Machine.execTimeLoRead p s
  | .evtFifoPop p complete => Sys2Proof.Machine.execEvtFifoPop p complete s
  | .snapTrig p => Sys2Proof.Machine.execSnapTrig p s
  | .dbgMbxUpdate dr => Sys2Proof.Machine.execDbgMbxUpdate dr s
  | .getInfo p => Sys2Proof.Machine.execGetInfo p s
  | .getParam p => Sys2Proof.Machine.execGetParam p s
  | .setParam p => Sys2Proof.Machine.execSetParam p s
  | .abort p => Sys2Proof.Machine.execAbort p s
  | .setCompatLevel p => Sys2Proof.Machine.execSetCompatLevel p s
  | .beamEnable p => Sys2Proof.Machine.execBeamEnable p s
  | .selectMode p => Sys2Proof.Machine.execSelectMode p s
  | .setSlotMask p => Sys2Proof.Machine.execSetSlotMask p s
  | .snapshot p => Sys2Proof.Machine.execSnapshot p s
  | .snapshotRead p => Sys2Proof.Machine.execSnapshotRead p s
  | .layerDeclare p => Sys2Proof.Machine.execLayerDeclare p s
  | .layerDestroy p => Sys2Proof.Machine.execLayerDestroy p s
  | .commitGroup p => Sys2Proof.Machine.execCommitGroup p s
  | .fenceSignal p => Sys2Proof.Machine.execFenceSignal p s
  | .objectList p => Sys2Proof.Machine.execObjectList p s
  | .shutterGeometry p => Sys2Proof.Machine.execShutterGeometry p s
  | .lampEnable p => Sys2Proof.Machine.execLampEnable p s
  | .dimSet p => Sys2Proof.Machine.execDimSet p s
  | .rampCurve p => Sys2Proof.Machine.execRampCurve p s
  | .signatureExpect p => Sys2Proof.Machine.execSignatureExpect p s
  | .journalRead p => Sys2Proof.Machine.execJournalRead p s
  | .journalSeal p => Sys2Proof.Machine.execJournalSeal p s
  | .calRun p => Sys2Proof.Machine.execCalRun p s
  | .fwUpdateBegin p => Sys2Proof.Machine.execFwUpdateBegin p s
  | .fwUpdateData p readsBack => Sys2Proof.Machine.execFwUpdateData p readsBack s
  | .fwUpdateCommit p => Sys2Proof.Machine.execFwUpdateCommit p s
  | .patErase p => Sys2Proof.Machine.execPatErase p s
  | .patProgram p => Sys2Proof.Machine.execPatProgram p s
  | .patVerify p => Sys2Proof.Machine.execPatVerify p s
  | .patInvalidate p => Sys2Proof.Machine.execPatInvalidate p s
  | .tableCommit p => Sys2Proof.Machine.execTableCommit p s
  | .faultClear p => Sys2Proof.Machine.execFaultClear p s
  | .reactionSet p => Sys2Proof.Machine.execReactionSet p s
  | .snapRelease p => Sys2Proof.Machine.execSnapRelease p s
  | .segCommit p => Sys2Proof.Machine.execSegCommit p s
  | .retrainRecovery p => Sys2Proof.Machine.execRetrainRecovery p s
  | .retrainDetect p => Sys2Proof.Machine.execRetrainDetect p s
  | .canMailboxFrame data => Sys2Proof.Machine.execCanMailboxFrame data s
  | .canMessageTimeout => Sys2Proof.Machine.execCanMessageTimeout s
  | .vehBeamFrame data => Sys2Proof.Machine.execVehBeamFrame data s
  | .vehMotionFrame data => Sys2Proof.Machine.execVehMotionFrame data s
  | .vehTimeFrame data sofTime => Sys2Proof.Machine.execVehTimeFrame data sofTime s
  | .vehTimeout beam motion => Sys2Proof.Machine.execVehTimeout beam motion s
  | .canBusOff => Sys2Proof.Machine.execCanBusOff s
  | .detectLosQualified l => Sys2Proof.Machine.execDetectLosQualified l s
  | .lockAchieved l => Sys2Proof.Machine.execLockAchieved l s
  | .lockTimeout l => Sys2Proof.Machine.execLockTimeout l s
  | .eyeTestComplete l eyes => Sys2Proof.Machine.execEyeTestComplete l eyes s
  | .ts1Received l phys ts => Sys2Proof.Machine.execTs1Received l phys ts s
  | .tapreqAckTimeout l phys => Sys2Proof.Machine.execTapreqAckTimeout l phys s
  | .ts2Agreed l eyes ts2 => Sys2Proof.Machine.execTs2Agreed l eyes ts2 s
  | .trainTimeout l => Sys2Proof.Machine.execTrainTimeout l s
  | .stepTimeout l => Sys2Proof.Machine.execStepTimeout l s
  | .downTimeout l => Sys2Proof.Machine.execDownTimeout l s
  | .linkTicketGranted l => Sys2Proof.Machine.execLinkTicketGranted l s
  | .linkTicketRetry l => Sys2Proof.Machine.execLinkTicketRetry l s
  | .clockLaneLoss l => Sys2Proof.Machine.execClockLaneLoss l s
  | .deskewLoss l => Sys2Proof.Machine.execDeskewLoss l s
  | .hardLaneFault l phys los lol => Sys2Proof.Machine.execHardLaneFault l phys los lol s
  | .softLaneFault l phys rise => Sys2Proof.Machine.execSoftLaneFault l phys rise s
  | .dskReceived l shadowAck shadowAckValid mapseqAck copyAgrees => Sys2Proof.Machine.execDskReceived l shadowAck shadowAckValid mapseqAck copyAgrees s
  | .btsSend l => Sys2Proof.Machine.execBtsSend l s
  | .eiosL1 l => Sys2Proof.Machine.execEiosL1 l s
  | .eiosL2 l => Sys2Proof.Machine.execEiosL2 l s
  | .l1Exit l => Sys2Proof.Machine.execL1Exit l s
  | .l2Exit l => Sys2Proof.Machine.execL2Exit l s
  | .recoveryRelock l => Sys2Proof.Machine.execRecoveryRelock l s
  | .recoveryEyeDone l eyes => Sys2Proof.Machine.execRecoveryEyeDone l eyes s
  | .recoveryRetrainDone l ok => Sys2Proof.Machine.execRecoveryRetrainDone l ok s
  | .recoveryTimeout l => Sys2Proof.Machine.execRecoveryTimeout l s
  | .lineHusk l h => Sys2Proof.Machine.execLineHusk l h s
  | .objHusk l h => Sys2Proof.Machine.execObjHusk l h s
  | .mbxHusk l h => Sys2Proof.Machine.execMbxHusk l h s
  | .fenceHusk l h => Sys2Proof.Machine.execFenceHusk l h s
  | .syncHusk l h => Sys2Proof.Machine.execSyncHusk l h s
  | .ackHusk l h => Sys2Proof.Machine.execAckHusk l h s
  | .nakHusk l h => Sys2Proof.Machine.execNakHusk l h s
  | .vc1ReplayTimeout l => Sys2Proof.Machine.execVc1ReplayTimeout l s
  | .refreshBoundary => Sys2Proof.Machine.execRefreshBoundary s
  | .slotBoundary badL badR badMask seqEcc => Sys2Proof.Machine.execSlotBoundary badL badR badMask seqEcc s
  | .lookaheadHandoff => Sys2Proof.Machine.execLookaheadHandoff s
  | .resetInstant => Sys2Proof.Machine.execResetInstant s
  | .diagPulse opens shorts => Sys2Proof.Machine.execDiagPulse opens shorts s
  | .governorTick x => Sys2Proof.Machine.execGovernorTick x s
  | .safeStateComplete => Sys2Proof.Machine.execSafeStateComplete s
  | .govDeadline slot => Sys2Proof.Machine.execGovDeadline slot s
  | .feedbackLost slot outOfRange => Sys2Proof.Machine.execFeedbackLost slot outOfRange s
  | .composeFrameStart => Sys2Proof.Machine.execComposeFrameStart s
  | .composeRowStart side row dry second => Sys2Proof.Machine.execComposeRowStart side row dry second s
  | .composePassComplete side => Sys2Proof.Machine.execComposePassComplete side s
  | .dramStall => Sys2Proof.Machine.execDramStall s
  | .dramTrafficResume => Sys2Proof.Machine.execDramTrafficResume s
  | .intakeCopyDone layer => Sys2Proof.Machine.execIntakeCopyDone layer s
  | .patternLoadDone side crcGood => Sys2Proof.Machine.execPatternLoadDone side crcGood s
  | .cameraEdge input falling time boundary => Sys2Proof.Machine.execCameraEdge input falling time boundary s
  | .camTimeout => Sys2Proof.Machine.execCamTimeout s
  | .busCrcResponse side entry crc f => Sys2Proof.Machine.execBusCrcResponse side entry crc s f
  | .cellCrcResponse side entry crc f => Sys2Proof.Machine.execCellCrcResponse side entry crc s f
  | .busCrcTimeout side => Sys2Proof.Machine.execBusCrcTimeout side s
  | .cellCrcTimeout side => Sys2Proof.Machine.execCellCrcTimeout side s
  | .lanesResponse side crcs f => Sys2Proof.Machine.execLanesResponse side crcs s f
  | .statusResponse side status f => Sys2Proof.Machine.execStatusResponse side status s f
  | .ackResponse side cseq cmd f => Sys2Proof.Machine.execAckResponse side cseq cmd s f
  | .errorResponse side cseq reason f => Sys2Proof.Machine.execErrorResponse side cseq reason s f
  | .unparkSettled side => Sys2Proof.Machine.execUnparkSettled side s
  | .identResponse side payload f => Sys2Proof.Machine.execIdentResponse side payload s f
  | .identNoResponse side => Sys2Proof.Machine.execIdentNoResponse side s
  | .trainResultResponse side tap errors f => Sys2Proof.Machine.execTrainResultResponse side tap errors s f
  | .arrayFlt side => Sys2Proof.Machine.execArrayFlt side s
  | .arraySupplyGood side rb0 rb1 => Sys2Proof.Machine.execArraySupplyGood side rb0 rb1 s
  | .portPowerTimeout side => Sys2Proof.Machine.execPortPowerTimeout side s
  | .portAbsent side => Sys2Proof.Machine.execPortAbsent side s
  | .portTrainTimeout side => Sys2Proof.Machine.execPortTrainTimeout side s
  | .parkTimeout side => Sys2Proof.Machine.execParkTimeout side s
  | .releaseFromPark => Sys2Proof.Machine.execReleaseFromPark s
  | .powerDownStep side => Sys2Proof.Machine.execPowerDownStep side s
  | .rasterEnd durationTicks => Sys2Proof.Machine.execRasterEnd durationTicks s
  | .rasterTimeout => Sys2Proof.Machine.execRasterTimeout s
  | .listStale => Sys2Proof.Machine.execListStale s
  | .staleHoldExpiry => Sys2Proof.Machine.execStaleHoldExpiry s
  | .chOvercurrent ch => Sys2Proof.Machine.execChOvercurrent ch s
  | .chOpen ch => Sys2Proof.Machine.execChOpen ch s
  | .chShort ch => Sys2Proof.Machine.execChShort ch s
  | .fetShort ch => Sys2Proof.Machine.execFetShort ch s
  | .boostOvTrip side => Sys2Proof.Machine.execBoostOvTrip side s
  | .boostOvResume side => Sys2Proof.Machine.execBoostOvResume side s
  | .boostUv side => Sys2Proof.Machine.execBoostUv side s
  | .boostUvRecovery side => Sys2Proof.Machine.execBoostUvRecovery side s
  | .boostRun side => Sys2Proof.Machine.execBoostRun side s
  | .boostFail side => Sys2Proof.Machine.execBoostFail side s
  | .boardTempRead side r => Sys2Proof.Machine.execBoardTempRead side r s
  | .sensorSubstitute side => Sys2Proof.Machine.execSensorSubstitute side s
  | .dimPwmEdge period high => Sys2Proof.Machine.execDimPwmEdge period high s
  | .dimInputLoss source => Sys2Proof.Machine.execDimInputLoss source s
  | .segFrameStart side => Sys2Proof.Machine.execSegFrameStart side s
  | .mxWriteDone => Sys2Proof.Machine.execMxWriteDone s
  | .mxTeEdge target => Sys2Proof.Machine.execMxTeEdge target s
  | .mxTeTimeout target => Sys2Proof.Machine.execMxTeTimeout target s
  | .scanLine => Sys2Proof.Machine.execScanLine s
  | .snapNFall => Sys2Proof.Machine.execSnapNFall s
  | .faultAutoClear code inst => Sys2Proof.Machine.execFaultAutoClear code inst s
  | .norPageDone good => Sys2Proof.Machine.execNorPageDone good s
  | .norSectorEraseDone => Sys2Proof.Machine.execNorSectorEraseDone s
  | .norBusyTimeout => Sys2Proof.Machine.execNorBusyTimeout s
  | .calTriggerCheck calRef => Sys2Proof.Machine.execCalTriggerCheck calRef s
  | .calMeasurementDone ch v => Sys2Proof.Machine.execCalMeasurementDone ch v s
  | .powerFailWarningCleared => Sys2Proof.Machine.execPowerFailWarningCleared s
  | .bootPllLockTimeout p => Sys2Proof.Machine.execBootPllLockTimeout p s
  | .beamEnableTimeout p tag => Sys2Proof.Machine.execBeamEnableTimeout p tag s
  | .journalSealTimeout => Sys2Proof.Machine.execJournalSealTimeout s
  | .seqStoreScrub r => Sys2Proof.Machine.execSeqStoreScrub r s
  | .seqReloaded mode => Sys2Proof.Machine.execSeqReloaded mode s
  | .pllQPhaseStep => Sys2Proof.Machine.execPllQPhaseStep s
  | .imageRegionEraseDone => Sys2Proof.Machine.execImageRegionEraseDone s
  | .pwrEnLowDwellExpiry side => Sys2Proof.Machine.execPwrEnLowDwellExpiry side s
  | .jtagUpdateIr ir => Sys2Proof.Machine.execJtagUpdateIr ir s
  | .extestUpdateDr cells => Sys2Proof.Machine.execExtestUpdateDr cells s
  | .resetNDeasserted => Sys2Proof.Machine.execResetNDeasserted s

end Sys2Proof.Machine
end

