-- ==== Sys2Proof/Safety.lean ====
section
/-! DEFINITION. What claims about a run are stated in: which parts of the block a command leaves alone, what a state that a run can
reach satisfies, and when a side is dark. -/

namespace Sys2Proof.Machine

open Sys2Proof

/-! ### Frames -/

/-- The parts of the block. -/
inductive Part where
  | aon
  | core
  | prm
  | clk
  | thm
  | sluice
  | host
  | veh
  | req
  | links
  | cmp
  | seq
  | cam
  | ports
  | sht
  | lamp
  | gov
  | aux
  | saf
  | jnl
  | nor
  | upd
  | cal
  | jtag
  | free
deriving DecidableEq, Repr

/-- A part is the same in two states of the block. -/
def Part.same (a b : Dev) : Part → Prop
  | .aon => b.aon = a.aon
  | .core => b.core = a.core
  | .prm => b.prm = a.prm
  | .clk => b.clk = a.clk
  | .thm => b.thm = a.thm
  | .sluice => b.sluice = a.sluice
  | .host => b.host = a.host
  | .veh => b.veh = a.veh
  | .req => b.req = a.req
  | .links => b.links = a.links
  | .cmp => b.cmp = a.cmp
  | .seq => b.seq = a.seq
  | .cam => b.cam = a.cam
  | .ports => b.ports = a.ports
  | .sht => b.sht = a.sht
  | .lamp => b.lamp = a.lamp
  | .gov => b.gov = a.gov
  | .aux => b.aux = a.aux
  | .saf => b.saf = a.saf
  | .jnl => b.jnl = a.jnl
  | .nor => b.nor = a.nor
  | .upd => b.upd = a.upd
  | .cal => b.cal = a.cal
  | .jtag => b.jtag = a.jtag
  | .free => b.freeCount = a.freeCount

/-- Only the listed parts may differ. -/
def Dev.onlyChanges (a b : Dev) (touched : List Part) : Prop :=
  b.variant = a.variant ∧ ∀ p : Part, p ∉ touched → p.same a b

/-- Every part of the block but the listed ones. -/
def everyPartBut (l : List Part) : List Part :=
  ([.aon, .core, .prm, .clk, .thm, .sluice, .host, .veh, .req, .links, .cmp, .seq, .cam, .ports, .sht, .lamp, .gov, .aux, .saf,
    .jnl, .nor, .upd, .cal, .jtag, .free] : List Part).filter fun p => !l.contains p

/-- A link without what its VC1 transmitter holds and without the STAT Husks that wait for the lane. -/
def Link.phys (k : Link) : Link :=
  { k with txWaiting := [], unacked := [], vc1TxNext := 0, vc1Out := [], statOut := [] }

/-- What events and responses leave alone: nothing differs but the mailbox, the Husks that wait on the links, the counter
EVT_LOST, and the count of free values. -/
structure Dev.Quiet (a b : Dev) : Prop where
  frame : a.onlyChanges b [.host, .links, .prm, .free]
  phys : ∀ l, (b.link l).phys = (a.link l).phys
  vals : ∀ id, (∀ p : Port, id ≠ pid kHostEvtLost p.ix) → kvGet b.prm.vals id = kvGet a.prm.vals id
  arrays : b.prm.arrays = a.prm.arrays
  staged : b.prm.staged = a.prm.staged
  stagedArrays : b.prm.stagedArrays = a.prm.stagedArrays

/-- What the mailbox and its events touch: queues and registers, back-lane Husks, and counters. -/
def ioParts : List Part := [.host, .links, .prm]

/-- A command completes: its step answers a next state with the queue as it was, in which the block may differ in the touched parts
only, and the effect holds of the block. -/
def Runs (c : Instr) (s : State) (touched : List Part) (effect : Dev → Prop) : Prop :=
  ∃ d : Dev, exec c s = .next { s with dev := d } ∧ s.dev.onlyChanges d touched ∧ effect d

/-! ### Mailbox commands -/

/-- Command c is the one that its port serves next, it has this opcode, and the opcode runs in the present DEV_STATE (R100,
R105). -/
def Dev.serving (d : Dev) (p : Port) (op : Nat) (c : Cmd) : Prop := d.headOf p op = some c ∧ d.opStateOk op = true

/-- Command c is a SET_PARAM that its port serves next; it names the parameter of an action, and its value v for instance i has
passed every check of R113. -/
def Dev.servingAct (d : Dev) (p : Port) (a : ParamAct) (c : Cmd) (i v : Nat) : Prop :=
  d.headOf p opSetParam = some c ∧ paramAct c.payload = some a ∧
    ∃ w x, d.openWrite p c.payload = .ok w ∧ d.scalarIn w = .ok x ∧ idInst w.id = i ∧ x.toNat = v

/-- No command of this tag is open on the port, and its newest completed command has this tag, final status and response. -/
def Dev.answered (d : Dev) (p : Port) (tag st : Nat) (rsp : List Byte) : Prop :=
  d.tagOpen p tag = false ∧ ((d.port p).cache.head?.map fun e => (e.tag, e.status, e.response)) = some (tag, st, rsp)

/-- The command of this tag is open on the port and waits for its own completion. -/
def Dev.waitsFor (d : Dev) (p : Port) (tag : Nat) : Prop :=
  d.tagOpen p tag = true ∧ ∀ o ∈ (d.port p).opens, o.cmd.tag = tag → o.stage = .waiting

/-- A command answers a next state in which the block is e, but for what events and responses do (Dev.Quiet), and the effect holds
of it. -/
def Becomes (c : Instr) (s : State) (e : Dev) (effect : Dev → Prop) : Prop :=
  ∃ d : Dev, exec c s = .next { s with dev := d } ∧ e.Quiet d ∧ effect d

/-! ### Resets -/

/-- Every domain that a reset puts back holds its reset values (R425): all but the always-on domain with the die sensor and the
reference monitor, the NOR, the test access port, and the run of MAL_PWR_EN and MAR_PWR_EN. -/
structure Dev.Cleared (d : Dev) : Prop where
  prm : d.prm = Prm.reset
  sluice : d.sluice = Sluice.reset
  host : d.host = HostUnit.reset
  veh : d.veh = Veh.reset
  req : d.req = BeamReq.reset
  links : d.links = both Link.reset
  cmp : d.cmp = Compose.reset
  seq : d.seq = Seq.reset
  cam : d.cam = Cam.reset
  sht : d.sht = Shutter.reset
  gov : d.gov = Gov.reset
  aux : d.aux = Aux.reset
  saf : d.saf = Saf.reset
  jnl : d.jnl = Journal.reset
  upd : d.upd = Update.reset
  cal : d.cal = Cal.reset
  supplies : d.ports.fst.pwrEn = false ∧ d.ports.snd.pwrEn = false
  time : d.clk.timeBase = 0

/-! ### States that a run can reach -/

/-- No two tickets of one exclusive operation are held (Table 19-7, R435). -/
def exclusiveHeld (l : List (Holder × Nat × Nat × Nat)) : Prop :=
  ∀ b, (b = 0 ∨ b = 3 ∨ b = 5 ∨ b = 6) → (l.filter fun t => opBit t.1 == b).length ≤ 1

/-- What holds of a block that runs: the NOR bytes are in their canonical form, exclusive operations hold one ticket each,
ACTIVE_CL is 1 (R104: silicon A1 implements level 1 only), the lists that stand for a fixed number of units have their
lengths, and every keyed store has its keys strictly rising. -/
structure Sound (cells : List Host.Cell) (held : List (Holder × Nat × Nat × Nat)) (cl ports spiSlots jtagSlots layers groups plls chans
    loops targets rectsL rectsR : Nat) (vals : List (Nat × Int)) (arrays : List (Nat × List Byte)) (staged : List (Nat × Int))
    (stagedArrays : List (Nat × List Byte)) (mirror : List (Nat × Int)) (mirrorArrays journal : List (Nat × List Byte)) :
    Prop where
  cells : Memory.wf cells = true
  held : exclusiveHeld held
  cl : cl = 1
  ports : ports = 5
  spiSlots : spiSlots = 4
  jtagSlots : jtagSlots = 4
  layers : layers = 8
  groups : groups = 8
  plls : plls = 3
  chans : chans = 12
  loops : loops = 48
  targets : targets = 4
  rectsL : rectsL = 16
  rectsR : rectsR = 16
  vals : kvSorted vals = true
  arrays : kvSorted arrays = true
  staged : kvSorted staged = true
  stagedArrays : kvSorted stagedArrays = true
  mirror : kvSorted mirror = true
  mirrorArrays : kvSorted mirrorArrays = true
  journal : kvSorted journal = true

/-- `Sound` of a block's own parts. -/
def Dev.Inv (d : Dev) : Prop :=
  Sound d.nor.cells d.sluice.held d.core.activeCl d.host.ports.length d.host.spi.slots.length d.host.jtag.slots.length
    d.cmp.layers.length d.cmp.groups.length d.clk.plls.length d.lamp.chans.length d.gov.slots.length d.aux.targets.length
    d.saf.rects.fst.length d.saf.rects.snd.length d.prm.vals d.prm.arrays d.prm.staged d.prm.stagedArrays d.nor.mirror
    d.nor.mirrorArrays d.nor.journal

/-! ### Dark sides -/

/-- Every current set-point of a side is 0 and its gates are pulled off (Table 15-3). -/
def Dev.dark (d : Dev) (s : Nat) : Prop := ∀ c ∈ sideChans s, (d.chan c).setpoint = 0 ∧ (d.chan c).gatePulled = true

end Sys2Proof.Machine
end

