-- ==== Sys2Proof/Certificates/Slice0/Obligations.lean ====
section
/-! DEFINITION. The statements about the block: what each command does where it completes, what it leaves alone, and what every
step keeps. `Runs` and `Becomes` of Safety.lean say that a command answers a next state, name the parts that may differ, and
say what holds of the block it leaves. -/

open Sys2Proof Sys2Proof.Machine

/-- A step takes the command at the front of the queue and answers what exec answers with the queue's rest. -/
def Obligations.StepRunsFrontCommand : Prop :=
  ∀ (s : State) (c : Instr) (rest : List Instr), s.pending = c :: rest → step s = exec c { s with pending := rest }

/-- On an empty queue a step is one tick of the time base (log entry 3): the time base stands still in RESET and THERMAL_OFF,
advances by 1 while no difference is slewed, and by 0, 1 or 2 while one is. What else a tick may bring about: the bodies of a
snapshot are taken again at the end of its latch tick, Husks move on the back lanes, frames that wait leave on the array ports,
and a boot that has just begun is announced; without an announcement nothing else changes, and no fault does. -/
def Obligations.EmptyQueueTicks : Prop :=
  ∀ s : State, s.pending = [] →
    ∃ d : Dev, step s = .next { s with dev := d } ∧
      s.dev.onlyChanges d [.core, .prm, .clk, .sluice, .host, .links, .seq, .ports, .lamp, .gov, .saf, .jnl] ∧
      (s.dev.core.announce = none →
        s.dev.onlyChanges d [.clk, .links, .ports, .saf] ∧ d.saf.active = s.dev.saf.active) ∧
      (s.dev.core.state = .reset ∨ s.dev.core.state = .thermalOff → d.clk = s.dev.clk) ∧
      (s.dev.core.state ≠ .reset ∧ s.dev.core.state ≠ .thermalOff →
        (s.dev.clk.slewLeft = 0 → d.clk = { s.dev.clk with timeBase := s.dev.clk.timeBase + 1 }) ∧
        (s.dev.clk.slewLeft ≠ 0 ∧ s.dev.clk.slewCount + 1 < 1000 →
          d.clk = { s.dev.clk with timeBase := s.dev.clk.timeBase + 1, slewCount := s.dev.clk.slewCount + 1 }) ∧
        (0 < s.dev.clk.slewLeft ∧ 1000 ≤ s.dev.clk.slewCount + 1 →
          d.clk = { s.dev.clk with timeBase := s.dev.clk.timeBase + 2, slewCount := 0, slewLeft := s.dev.clk.slewLeft - 1 }) ∧
        (s.dev.clk.slewLeft < 0 ∧ 1000 ≤ s.dev.clk.slewCount + 1 →
          d.clk = { s.dev.clk with slewCount := 0, slewLeft := s.dev.clk.slewLeft + 1 }))

/-- Every command completes, whatever the state: it answers a next state, takes nothing from the queue, and never changes the
part. -/
def Obligations.EveryCommandCompletes : Prop :=
  ∀ (c : Instr) (s : State), ∃ d : Dev, exec c s = .next { s with dev := d } ∧ d.variant = s.dev.variant

/-- The invariant of Safety.lean holds right after power-on. -/
def Obligations.ResetMeetsInv : Prop := State.reset.dev.Inv

/-- The invariant of Safety.lean is kept by every step, whatever command is at the front. -/
def Obligations.StepKeepsInv : Prop := ∀ s t : State, s.dev.Inv → step s = .next t → t.dev.Inv

/-- R425, with R87: right after power-on the block is in RESET with level 1 active, its links disabled, its arrays unpowered,
its lamps dark and its mailbox empty, and no command waits. -/
def Obligations.ResetState : Prop :=
  State.reset.pending = [] ∧ State.reset.dev.core.state = .reset ∧ State.reset.dev.devStateWord = 0x00010000 ∧
  (∀ l, (State.reset.dev.link l).state = .disabled) ∧ (∀ n, (State.reset.dev.mport n).pwrEn = false) ∧
  State.reset.dev.dark 0 ∧ State.reset.dev.dark 1 ∧
  (∀ p, State.reset.dev.port p = PortState.reset) ∧ State.reset.dev.saf.active = [] ∧ State.reset.dev.Cleared

/-- Reset: RESET_N low enters RESET with cause 2 from every other state (R424), a bad supply with cause 1, or 0 where VDD_AON is
the bad one (R423), and FW_RESTART_RESET with cause 3 (R433). Every domain but the always-on one is put back, and the NOR keeps
its content. RESET_N low in RESET only takes the level of the ball. -/
def Obligations.ResetCommands : Prop :=
  (∀ s : State, s.dev.core.state ≠ .reset →
    Runs .resetNAsserted s (everyPartBut [.nor, .free]) fun d =>
      d.core.state = .reset ∧ d.devStateWord = 0x00010000 ∧ d.Cleared ∧
      d.aon = { s.dev.aon with
        resetN := false, resetCause := 2, thermalHold := s.dev.aon.thermalHold || s.dev.core.state == .thermalOff }) ∧
  (∀ s : State, s.dev.core.state = .reset →
    Runs .resetNAsserted s [.aon, .jtag] fun d => d.aon = { s.dev.aon with resetN := false }) ∧
  (∀ (s : State) (r : List Bool), s.dev.core.state ≠ .reset → r.getD 0 true = true → r.any (!·) = true →
    Runs (.supplyOutOfRange r) s (everyPartBut [.nor, .free]) fun d =>
      d.core.state = .reset ∧ d.Cleared ∧ d.aon = { s.dev.aon with supplies := r, resetCause := 1 } ∧
      d.jtag = { Jtag.reset with dr := s.dev.captureDr 0x02 }) ∧
  (∀ (s : State) (r : List Bool), r.getD 0 true = false →
    Runs (.supplyOutOfRange r) s (everyPartBut [.nor, .free]) fun d =>
      d.core.state = .reset ∧ d.Cleared ∧ d.thm = Thm.reset ∧
      d.aon = { s.dev.aon with supplies := r, resetCause := 0, shutdowns := 0, shutdownT := 0, thermalHold := false }) ∧
  (∀ s : State, s.dev.upd.restartDue = true →
    Runs .fwRestartReset s (everyPartBut [.nor, .jtag, .free]) fun d =>
      d.core.state = .reset ∧ d.Cleared ∧ d.aon = { s.dev.aon with resetCause := 3 })

/-- RESET_N high again: the ball's level is taken, and the scanned balls return to their levels (R456). RESET is left with
RESET_N high, every supply in range and no hold of R402: BOOT starts with PLL-S, at time 0 (log entry 15), with the Shutter
engine in INIT, and is announced at the next tick (log entry 93). -/
def Obligations.ResetEnds : Prop :=
  (∀ s : State, Runs .resetNDeasserted s [.aon, .jtag] fun d =>
    d.aon = { s.dev.aon with resetN := true } ∧ d.jtag = { s.dev.jtag with scanHighZ := false, scanDrive := false }) ∧
  (∀ s : State, s.dev.core.state = .reset → s.dev.aon.resetN = true → s.dev.aon.supplies.all id = true →
    s.dev.aon.thermalHold = false → s.dev.clk.plls.length = 3 →
    Runs .resetRelease s [.core, .prm, .clk, .seq, .sht, .free] fun d =>
      d.core = { s.dev.core with
        state := .boot, stateTime := 0, announce := some 0, bootStatus := 3, image := 0xFF, bootFirst := 0 } ∧
      d.clk.timeBase = 0 ∧ (d.pll 0).wanted = true ∧ d.sht.state = .init) ∧
  (∀ s : State, ¬(s.dev.core.state = .reset ∧ s.dev.aon.resetN = true ∧ s.dev.aon.supplies.all id = true ∧
      s.dev.aon.thermalHold = false) →
    Runs .resetRelease s [] fun d => d = s.dev)

/-- Images (R428, R430): the one that the Acorn reads next boots when it verifies, with its SVN and FW_VERSION; one that fails a
check leaves the other to be read, and where none is left the block goes to SAFE with the Acorn recovery service. -/
def Obligations.BootImages : Prop :=
  (∀ (s : State) (b : Bool) (svn fw : Nat), s.dev.booting = true → s.dev.core.image = 0xFF →
    s.dev.selectImage.nextImage = some (b2n b) →
    Runs (.imageVerifyDone b 0 svn fw) s [.core, .prm, .sluice, .host, .links, .seq, .ports, .lamp, .gov, .saf, .jnl, .nor,
      .upd, .cal] fun d =>
      d.core.state = .boot ∧ d.core.image = b2n b ∧ d.core.imageSvn = svn ∧ d.core.fwVersion = fw) ∧
  (∀ (s : State) (b : Bool) (check svn fw : Nat), s.dev.booting = true → s.dev.core.image = 0xFF →
    s.dev.selectImage.nextImage = some (b2n b) → check ≠ 0 → (s.dev.selectImage.setCheck (b2n b) check).nextImage ≠ none →
    Runs (.imageVerifyDone b check svn fw) s [.core, .prm, .sluice, .host, .links, .seq, .ports, .lamp, .gov, .saf, .jnl, .nor,
      .upd, .cal] fun d =>
      d.core.state = .boot ∧ d.core.image = 0xFF ∧ d.nextImage ≠ none) ∧
  (∀ (s : State) (b : Bool) (check svn fw : Nat), s.dev.booting = true → s.dev.core.image = 0xFF →
    s.dev.selectImage.nextImage = some (b2n b) → check ≠ 0 → (s.dev.selectImage.setCheck (b2n b) check).nextImage = none →
    Runs (.imageVerifyDone b check svn fw) s [.core, .prm, .sluice, .host, .links, .seq, .ports, .lamp, .gov, .saf, .jnl, .nor,
      .upd, .cal] fun d =>
      d.core.state = .safe ∧ d.core.acornService = true)

/-- The end of BOOT (Tables 1-7 and 19-6, R394): failed self-tests, or a PLL that the Acorn started and that has not locked
within 1 ms, lead to SAFE with the Acorn recovery service, as does a side L port that is not PARKED when the self-tests end
(R252); while a power-fail warning is present a late PLL changes nothing (R17). Self-tests that passed lead to STANDBY, where
the boot time is noted, and stay there while no beam is asked for. A link enabled in BOOT goes to DETECT with its back lane in
service (R43). -/
def Obligations.BootEnds : Prop :=
  (∀ s : State, s.dev.booting = true →
    Runs (.bootComplete false) s [.aon, .core, .prm, .clk, .sluice, .host, .req, .links, .cmp, .seq, .cam, .ports, .lamp, .gov,
      .saf, .jnl, .nor, .upd, .cal] fun d => d.core.state = .safe ∧ d.core.acornService = true) ∧
  (∀ s : State, s.dev.booting = true → s.dev.core.image ≠ 0xFF → (s.dev.mport 0).state = .parked →
    s.dev.req.inForce = 0 → s.dev.req.can = 0 → s.dev.req.mailbox = 0 →
    Runs (.bootComplete true) s [.aon, .core, .prm, .clk, .sluice, .host, .req, .links, .cmp, .seq, .cam, .ports, .lamp, .gov,
      .saf, .jnl, .nor, .upd, .cal] fun d =>
      d.core.state = .standby ∧ d.core.bootTime = s.dev.now ∧ d.core.stateTime = s.dev.now) ∧
  (∀ (s : State) (pass : Bool), s.dev.booting = true → s.dev.core.image ≠ 0xFF → (s.dev.mport 0).state ≠ .parked →
    Runs (.bootComplete pass) s [.aon, .core, .prm, .clk, .sluice, .host, .req, .links, .cmp, .seq, .cam, .ports, .lamp, .gov,
      .saf, .jnl, .nor, .upd, .cal] fun d => d.core.state = .safe ∧ d.core.acornService = true) ∧
  (∀ (s : State) (p : Pll), s.dev.booting = true → (s.dev.pll p.ix).wanted = true → (s.dev.pll p.ix).locked = false →
    Runs (.bootPllLockTimeout p) s [.core, .prm, .sluice, .host, .links, .seq, .ports, .lamp, .gov, .saf, .jnl, .cal] fun d =>
      d.core.state = .safe ∧ d.core.acornService = true) ∧
  (∀ (s : State) (p : Pll), s.dev.aon.warning = true → Runs (.bootPllLockTimeout p) s [] fun d => d = s.dev) ∧
  (∀ (s : State) (l : LinkId), s.dev.booting = true → s.dev.core.image ≠ 0xFF → l ∈ s.dev.linkIds →
    (s.dev.link l).state = .disabled →
    Runs (.linkEnable l) s [.prm, .sluice, .host, .links, .cmp, .seq, .ports, .lamp, .gov, .saf, .jnl, .free] fun d =>
      (d.link l).state = .detect ∧ (d.link l).backLaneOn = true ∧ (d.link l).map = [0, 1, 2, 3])

/-- Power fail (R379 to R381, R25): a warning on a source that PFW_SOURCE enables takes the block from an active state to
HOLDUP, voids every ticket, stops DRAM traffic and sets SAFE_LAMP_N low; in BOOT it only suspends progress. A level of PFW_N, or
VBAT_SENSE conversions, of a source that is not enabled, or not three of them below PFW_THRESH, change nothing. The warning's
end is taken; a closed journal is noted with its time; and HOLDUP ends in a full boot once the journal is closed and the warning
is gone. -/
def Obligations.PowerFail : Prop :=
  (∀ (s : State) (low : Bool) (sense : List Nat), s.dev.warns low sense = true → s.dev.canActive = true →
    Runs (.powerFailWarning low sense) s [.aon, .core, .prm, .sluice, .host, .links, .cmp, .seq, .ports, .sht, .lamp, .gov,
      .aux, .saf, .jnl, .upd, .cal, .free] fun d =>
      d.core.state = .holdup ∧ d.core.beamReady = false ∧ d.aon = { s.dev.aon with warning := true } ∧ d.sluice = Sluice.reset ∧
      d.cmp.dramStalled = true ∧ d.saf.safeLamp = false) ∧
  (∀ (s : State) (low : Bool) (sense : List Nat), s.dev.warns low sense = true → s.dev.canActive = false →
    Runs (.powerFailWarning low sense) s [.aon] fun d => d.aon = { s.dev.aon with warning := true }) ∧
  (∀ (s : State) (low : Bool) (sense : List Nat), (low = false ∨ (s.dev.par kJnlPfwSource 0).testBit 0 = false) →
    ((s.dev.par kJnlPfwSource 0).testBit 1 = false ∨ sense.length ≠ 3 ∨
      ∃ v ∈ sense, s.dev.par kJnlPfwThresh 0 * 256000 ≤ v * s.dev.par kJnlVbatDiv 0) →
    Runs (.powerFailWarning low sense) s [] fun d => d = s.dev) ∧
  (∀ s : State, Runs .powerFailWarningCleared s [.aon] fun d => d.aon = { s.dev.aon with warning := false }) ∧
  (∀ (s : State) (us : Nat), s.dev.jnl.closing = true → s.dev.jnl.pending = [] →
    Runs (.holdupJournalDone us) s [.jnl, .nor] fun d =>
      d.jnl = { s.dev.jnl with closing := false, closed := true } ∧ d.nor = { s.dev.nor with holdupMicros := min 0xFFFF us }) ∧
  (∀ s : State, s.dev.core.state = .holdup → s.dev.jnl.closed = true → s.dev.aon.warning = false →
    Runs .holdupExit s (everyPartBut [.nor, .jtag]) fun d =>
      d.core.state = .boot ∧ d.aon = { s.dev.aon with resetCause := 4 } ∧ d.clk.timeBase = 0 ∧ d.core.image = 0xFF)

/-- Temperature (R397, R398, R401, R402): thermal shutdown takes the block to THERMAL_OFF from every state but RESET, counts and
keeps the temperature; its end is a full boot with cause 5, or the end of the hold on RESET. A conversion is taken into the
window when it is valid, and the run counts follow. -/
def Obligations.Temperature : Prop :=
  (∀ (s : State) (t : Int), s.dev.core.state ≠ .reset → s.dev.core.state ≠ .thermalOff →
    Runs (.thermalShutdown t) s (everyPartBut [.nor, .jtag, .free]) fun d =>
      d.core.state = .thermalOff ∧ d.Cleared ∧
      d.aon = { s.dev.aon with shutdowns := min 0xFFFF (s.dev.aon.shutdowns + 1), shutdownT := t }) ∧
  (∀ s : State, s.dev.core.state = .thermalOff →
    Runs .thermalOffExit s (everyPartBut [.nor, .jtag]) fun d =>
      d.core.state = .boot ∧ d.aon = { s.dev.aon with resetCause := 5 } ∧ d.clk.timeBase = 0 ∧ d.core.image = 0xFF) ∧
  (∀ s : State, s.dev.core.state ≠ .thermalOff →
    Runs .thermalOffExit s [.aon] fun d => d.aon = { s.dev.aon with thermalHold := false }) ∧
  (∀ (s : State) (t trim : Int), -600 ≤ t → t ≤ 2000 →
    Runs (.dieTempConversion t trim) s [.prm, .thm, .host, .links, .cmp, .gov] fun d =>
      d.thm.conversions = (t :: s.dev.thm.conversions).take 16 ∧ d.thm.badRun = 0 ∧
      d.thm.goodRun = min 16 (s.dev.thm.goodRun + 1) ∧ d.thm.phase = (s.dev.thm.phase + 1) % 16) ∧
  (∀ (s : State) (t trim : Int), t < -600 ∨ 2000 < t →
    Runs (.dieTempConversion t trim) s [.prm, .thm, .host, .links, .cmp, .gov] fun d =>
      d.thm.conversions = s.dev.thm.conversions ∧ d.thm.goodRun = 0 ∧ d.thm.badRun = min 3 (s.dev.thm.badRun + 1) ∧
      d.thm.rcTrim = s.dev.thm.rcTrim)

/-- The Miller watchdog (R362): with an image running the fault MILLER_WATCHDOG becomes active, and the Miller counts as stuck.
-/
def Obligations.Watchdog : Prop :=
  ∀ s : State, s.dev.canActive = true ∨ s.dev.core.state = .boot → s.dev.core.image ≠ 0xFF → s.dev.core.acornService = false →
    s.dev.host.millerStuck = false →
    Runs .millerWatchdog s [.prm, .sluice, .host, .links, .seq, .ports, .lamp, .gov, .saf, .jnl] fun d => d.faultActive 0x0C04
      0 = true ∧ d.host.millerStuck = true

/-- Clocks (R387 to R391, R395): the loss of the reference, its return, the loss of a PLL's lock, its lock, a relock that takes
more than 1 ms, and one phase step of PLL-Q while the camera lock steers, which changes nothing while it does not. -/
def Obligations.Clocks : Prop :=
  (∀ (s : State) (n : Nat), s.dev.clk.refclkGood = true → s.dev.core.state ≠ .reset → s.dev.core.state ≠ .thermalOff →
    Runs (.refclkLoss n) s [.prm, .clk, .sluice, .host, .links, .seq, .ports, .lamp, .gov, .saf, .jnl] fun d =>
      d.clk.refclkGood = false ∧ d.clk.refclkCount = n % 0x10000 ∧ d.clk.sticky = s.dev.clk.sticky ||| 1 ∧
      d.faultActive 0x0E01 0 = true) ∧
  (∀ (s : State) (n : Nat), s.dev.clk.refclkGood = false →
    Runs (.refclkRestored n) s [.prm, .clk, .host, .links, .cam] fun d => d.clk.refclkGood = true ∧ d.clk.refclkCount = n %
      0x10000) ∧
  (∀ (s : State) (p : Pll) (clamp : Bool), (s.dev.pll p.ix).locked = true → ¬(p = .M ∧ s.dev.core.state = .holdup) →
    Runs (.pllLossOfLock p clamp) s [.prm, .clk, .sluice, .host, .links, .cmp, .seq, .cam, .ports, .lamp, .gov, .aux, .saf,
      .jnl] fun d =>
      (d.pll p.ix).locked = false ∧ d.clk.sticky = s.dev.clk.sticky ||| BitVec.ofNat 4 (2 ^ (p.ix + 1)) ∧
      d.faultActive (0x0E02 + p.ix) 0 = true) ∧
  (∀ (s : State) (p : Pll), (s.dev.pll p.ix).relocking = true →
    Runs (.pllLockDeclared p) s [.prm, .clk, .sluice, .host, .links, .lamp, .saf] fun d =>
      d.pll p.ix = { s.dev.pll p.ix with locked := true, safeDivide := false, relocking := false, attempts := 0, wanted :=
        false }) ∧
  (∀ (s : State) (p : Pll), s.dev.core.state = .boot → (s.dev.pll p.ix).relocking = false → (s.dev.pll p.ix).wanted = true →
    Runs (.pllLockDeclared p) s [.clk] fun d => (d.pll p.ix).locked = true ∧ (d.pll p.ix).wanted = false) ∧
  (∀ (s : State) (p : Pll), (s.dev.pll p.ix).relocking = true → s.dev.relocks = true →
    Runs (.relockTimeout p) s [.prm, .clk, .cam] fun d =>
      (d.pll p.ix).relocking = true ∧ (d.pll p.ix).safeDivide = true ∧ (d.pll p.ix).locked = false ∧
      (d.pll p.ix).attempts = (s.dev.pll p.ix).attempts + 1) ∧
  (∀ s : State, s.dev.steers = true → (s.dev.pll 2).locked = true →
    Runs .pllQPhaseStep s [.clk] fun d =>
      d.clk.pllqPhase + d.clk.phaseTarget = s.dev.clk.pllqPhase + s.dev.clk.phaseTarget ∧
      (s.dev.clk.phaseTarget ≠ 0 → d.clk.phaseTarget.natAbs + 1 = s.dev.clk.phaseTarget.natAbs) ∧
      (s.dev.clk.phaseTarget = 0 → d = s.dev)) ∧
  (∀ s : State, s.dev.steers = false → exec .pllQPhaseStep s = .next s)

/-- The test access port (R453, R455, R456): Update-IR takes the instruction while every supply is in range, with what the data
register it selects captures (the identification register under IDCODE, R454), and Update-DR of EXTEST the 159 cells while
RESET_N is asserted and JTAG_LOCK is not set; the scanned balls follow. -/
def Obligations.TestAccessPort : Prop :=
  (∀ (s : State) (ir : Byte), s.dev.aon.supplies.all id = true →
    Runs (.jtagUpdateIr ir) s [.jtag] fun d =>
      d.jtag.ir = ir ∧ d.jtag.dr = s.dev.captureDr ir ∧ d.jtag.cells = s.dev.jtag.cells ∧
      (d.jtag.scanHighZ = true ↔ (s.dev.aon.resetN = false ∧ s.dev.aon.jtagLock = false ∧ ir = 0x03)) ∧
      (d.jtag.scanDrive = true ↔ (s.dev.aon.resetN = false ∧ s.dev.aon.jtagLock = false ∧ (ir = 0x00 ∨ ir = 0x04)))) ∧
  (∀ (s : State) (cells : BitVec 159), s.dev.aon.supplies.all id = true → s.dev.aon.resetN = false → s.dev.aon.jtagLock = false →
    s.dev.jtag.ir = 0x00 →
    Runs (.extestUpdateDr cells) s [.jtag] fun d => d.jtag.cells = cells ∧ d.jtag.scanDrive = true)

/-- The Sluice (R435, R436): a request that fits is granted at once, one that is neither granted nor denied is queued, and a
denied one is counted and posted; a released ticket is no longer held; a request queued for QUEUE_MAX leaves the queue, and no
earlier; a ticket held beyond its hold limit (Table 19-7) is counted and posted, and stays held. Stated while no calibration
run, and of a denied request no command, waits for its ticket. -/
def Obligations.SluiceTickets : Prop :=
  (∀ (s : State) (h : Holder), s.dev.core.state ≠ .reset → s.dev.core.state ≠ .thermalOff → s.dev.cal.run = none →
    s.dev.ticketHeld h = false → s.dev.ticketQueued h = false → s.dev.deniedAtOnce (s.dev.slReq h) = false →
    s.dev.slFits (s.dev.slReq h) = true → (∀ q ∈ s.dev.sluice.queued, opBit h ≤ opBit q.holder) →
    Runs (.ticketRequest h) s [.prm, .sluice, .lamp] fun d =>
      d.sluice = { s.dev.sluice with held := s.dev.sluice.held ++ [(h, opCore h, s.dev.opLamp h, s.dev.now)] }) ∧
  (∀ (s : State) (h : Holder), s.dev.core.state ≠ .reset → s.dev.core.state ≠ .thermalOff → s.dev.cal.run = none →
    s.dev.ticketHeld h = false → s.dev.ticketQueued h = false → s.dev.deniedAtOnce (s.dev.slReq h) = false →
    (s.dev.slFits (s.dev.slReq h) = false ∨ ∃ q ∈ s.dev.sluice.queued, opBit q.holder < opBit h) →
    Runs (.ticketRequest h) s [.sluice] fun d =>
      d.sluice = { s.dev.sluice with queued := s.dev.sluice.queued ++ [s.dev.slReq h] }) ∧
  (∀ (s : State) (h : Holder), s.dev.core.state ≠ .reset → s.dev.core.state ≠ .thermalOff → s.dev.cal.run = none →
    s.dev.ticketHeld h = false → s.dev.ticketQueued h = false → s.dev.deniedAtOnce (s.dev.slReq h) = true →
    (h = .erase .journal → s.dev.jnl.seals = []) → (h = .erase .pattern → s.dev.patErasers = []) →
    (h = .erase .image → s.dev.upd.erasing = false) →
    Becomes (.ticketRequest h) s (s.dev.count kPwrDenials (opBit h) 1) fun d => d.sluice = s.dev.sluice) ∧
  (∀ (s : State) (h : Holder), s.dev.cal.run = none → s.dev.ticketHeld h = true → s.dev.sluice.queued = [] →
    h ≠ .erase .calSets → h ≠ .erase .directory → h ≠ .erase .pattern →
    Runs (.ticketRelease h) s [.sluice] fun d =>
      d.sluice = { s.dev.sluice with held := s.dev.sluice.held.filter fun t => t.1 != h }) ∧
  (∀ (s : State) (h : Holder),
    (∃ q ∈ s.dev.sluice.queued, q.holder = h ∧ q.asked + msTicks (s.dev.par kPwrQueueMax 0) ≤ s.dev.now) →
    s.dev.ticketHeld h = false →
    Runs (.ticketQueueTimeout h) s [.prm, .sluice, .host, .links, .seq, .ports, .lamp, .gov, .saf, .jnl, .upd, .cal] fun d =>
      d.sluice = { s.dev.sluice with queued := s.dev.sluice.queued.filter fun r => r.holder != h }) ∧
  (∀ (s : State) (h : Holder),
    (∀ q ∈ s.dev.sluice.queued, q.holder = h → s.dev.now < q.asked + msTicks (s.dev.par kPwrQueueMax 0)) →
    Runs (.ticketQueueTimeout h) s [] fun d => d = s.dev) ∧
  (∀ (s : State) (h : Holder), (∃ t ∈ s.dev.sluice.held, t.1 = h ∧ t.2.2.2 + s.dev.holdLimit h < s.dev.now) →
    Becomes (.ticketOverrun h) s (s.dev.count kPwrOverruns (opBit h) 1) fun d => d.sluice = s.dev.sluice)

/-- What the erase tickets were held for is done at their release, with nothing queued: the calibration sets are written (R407),
a directory sector is empty (R429), and the pattern slot of the one waiting PAT_ERASE reads erased, is not valid, and its
command is answered (R155). -/
def Obligations.EraseTicketEnds : Prop :=
  (∀ s : State, s.dev.cal.run = none → s.dev.ticketHeld (.erase .calSets) = true → s.dev.sluice.queued = [] →
    s.dev.cal.norWriteWanted = true →
    Runs (.ticketRelease (.erase .calSets)) s [.sluice, .cal, .nor] fun d =>
      d.ticketHeld (.erase .calSets) = false ∧ d.cal = { s.dev.cal with norWriteWanted := false } ∧
      d.nor = { s.dev.nor with
        calCopies := s.dev.nor.calCopies.set s.dev.nor.calNextCopy (some s.dev.cal.sets), calNextCopy := 1 -
          s.dev.nor.calNextCopy }) ∧
  (∀ s : State, s.dev.cal.run = none → s.dev.ticketHeld (.erase .directory) = true → s.dev.sluice.queued = [] →
    s.dev.upd.dirWaiting = [] →
    Runs (.ticketRelease (.erase .directory)) s [.sluice, .upd, .nor] fun d =>
      d.ticketHeld (.erase .directory) = false ∧
      d.nor = if s.dev.nor.dirSector = 0 then { s.dev.nor with dir1 := [] } else { s.dev.nor with dir0 := [] }) ∧
  (∀ (s : State) (p : Port) (tag v : Nat), s.dev.cal.run = none → s.dev.ticketHeld (.erase .pattern) = true →
    s.dev.sluice.queued = [] → s.dev.patErasers = [(p, tag, v)] → s.dev.tagOpen p tag = true →
    Runs (.ticketRelease (.erase .pattern)) s [.prm, .sluice, .host, .links, .nor] fun d =>
      d.ticketHeld (.erase .pattern) = false ∧ d.answered p tag 0 [] ∧ (d.nor.patValid.get (patSide v)).getLsbD (patIndex v) =
        false ∧
      ∀ a, patOffset (patSide v) (patIndex v) ≤ a → a < patOffset (patSide v) (patIndex v) + 0x30000 →
        norByte d.nor.cells a = 0xFF)

/-- Register writes (R87 to R89, R15): a transaction of fewer than three bytes changes nothing; one with another first byte sets
SPI_ERR and is counted on SPI; IRQ_ENABLE takes a word; IRQ_STATUS clears what is written with 1, but for bits set in this tick;
a command register of a FREE slot takes a word, and that of another slot ignores it; SNAP_CTRL takes SNAP_N's enable. While the
map is closed nothing is written (Table 1-6). -/
def Obligations.RegisterWrites : Prop :=
  (∀ (s : State) (p : RegPort) (bytes : List Byte), bytes.length < 3 → exec (.registerWrite p bytes) s = .next s) ∧
  (∀ (s : State) (bytes : List Byte), s.dev.Inv → 3 ≤ bytes.length → byteAt bytes 0 ≠ 2 → byteAt bytes 0 ≠ 3 → s.dev.mapOpen =
    true →
    Runs (.registerWrite .spi bytes) s [.prm, .host] fun d =>
      d.host.spi.irqW1c = s.dev.host.spi.irqW1c ||| 16 ∧ d.host.ports = s.dev.host.ports ∧
      d.par kHostSpiErrCount 0 = satAdd 0xFFFFFFFF (s.dev.par kHostSpiErrCount 0) 1) ∧
  (∀ (s : State) (v : BitVec 32), s.dev.mapOpen = true →
    exec (.registerWrite .spi ([0x02, 0x0C, 0x00] ++ leBytes 4 v.toNat)) s = .next { s with dev := { s.dev with
      host := { s.dev.host with spi := { s.dev.host.spi with irqEnable := v.setWidth 7 } } } }) ∧
  (∀ (s : State) (v : BitVec 32), s.dev.mapOpen = true →
    Runs (.registerWrite .spi ([0x02, 0x08, 0x00] ++ leBytes 4 v.toNat)) s [.host] fun d =>
      d.host = { s.dev.host with spi := { s.dev.host.spi with irqW1c := d.host.spi.irqW1c } } ∧
      ∀ i < 5, d.host.spi.irqW1c.getLsbD i =
        (s.dev.host.spi.irqW1c.getLsbD i &&
          (!v.getLsbD (i + 2) || (s.dev.host.spi.irqSetAt.getD i none) == some s.dev.now))) ∧
  (∀ (s : State) (p : RegPort) (n : Nat) (v : BitVec 32), s.dev.mapOpen = true → n < (s.dev.map p).slots.length → n < 4 →
    Runs (.registerWrite p ([0x02, BitVec.ofNat 8 (0x40 + 8 * n), 0x00] ++ leBytes 4 v.toNat)) s [.host] fun d =>
      let x := (s.dev.map p).slots.getD n SlotRegs.reset
      (d.map p).slots.getD n SlotRegs.reset =
        if x.st = .free then { x with cmdh := x.cmdh.extractLsb' 32 32 ++ v } else x) ∧
  (∀ (s : State) (p : RegPort) (v : BitVec 32), s.dev.mapOpen = true → v.getLsbD 0 = false →
    exec (.registerWrite p ([0x02, 0x00, 0x0A] ++ leBytes 4 v.toNat)) s = .next { s with dev := { s.dev with
      saf := { s.dev.saf with snapNEn := v.getLsbD 16 } } }) ∧
  (∀ (s : State) (p : RegPort) (bytes : List Byte), s.dev.mapOpen = false → byteAt bytes 0 = 2 →
    exec (.registerWrite p bytes) s = .next s)

/-- The other register commands (R87, R89, R90, R103, R366). MBX_DONE releases DONE slots, but for those that became DONE in
this tick; a doorbell of a slot that is not FREE is counted and sets SPI_ERR on SPI; one of a FREE slot opens its command where
admission finds no fault; TIME_LO latches TIME_HI; the event window's last word pops the head record once it is read whole; the
trigger latches a record of every unit; DBG_MBX reads port 4's registers, in its own instruction. -/
def Obligations.RegisterEvents : Prop :=
  (∀ (s : State) (p : RegPort) (w : Word), s.dev.mapOpen = true →
    Runs (.mbxDoneRelease p w) s [.host] fun d => d.host.ports = s.dev.host.ports ∧
      ∀ n, (d.map p).slots.getD n SlotRegs.reset =
        let x := (s.dev.map p).slots.getD n SlotRegs.reset
        if n < 4 ∧ w.getLsbD n = true ∧ x.st = .done ∧ x.doneAt ≠ some s.dev.now then { x with st := .free } else x) ∧
  (∀ (s : State) (p : RegPort) (n : Nat), s.dev.Inv → s.dev.mapOpen = true → s.dev.serves p.port = true → n < 4 →
    ((s.dev.map p).slots.getD n SlotRegs.reset).st ≠ .free →
    Runs (.mbxDoorbell p (BitVec.ofNat 32 (2 ^ n))) s [.prm, .host] fun d =>
      d.host.ports = s.dev.host.ports ∧ (d.map p).slots = (s.dev.map p).slots ∧
      (p = .spi → d.host.spi.irqW1c = s.dev.host.spi.irqW1c ||| 16) ∧
      d.par kHostDoorbellViol p.port.ix = satAdd 0xFFFFFFFF (s.dev.par kHostDoorbellViol p.port.ix) 1) ∧
  (∀ (s : State) (p : RegPort) (n : Nat), s.dev.mapOpen = true → s.dev.serves p.port = true → n < 4 →
    n < (s.dev.map p).slots.length → p.port.ix < s.dev.host.ports.length →
    ((s.dev.map p).slots.getD n SlotRegs.reset).st = .free →
    ∀ c : Cmd, c = { cmdOf ((s.dev.map p).slots.getD n SlotRegs.reset).cmdh.toNat [] with
        payload := ((s.dev.map p).slots.getD n SlotRegs.reset).payload.take
          (cmdOf ((s.dev.map p).slots.getD n SlotRegs.reset).cmdh.toNat []).len } →
      s.dev.cacheHit p.port c = none → s.dev.tagOpen p.port c.tag = false → s.dev.admissionCheck p.port c true = none →
      Runs (.mbxDoorbell p (BitVec.ofNat 32 (2 ^ n))) s [.host] fun d =>
        ((d.map p).slots.getD n SlotRegs.reset).st = .open_ ∧
        (d.port p.port).opens = (s.dev.port p.port).opens ++
          [{ cmd := c, slot := n, stage := .queued, pendingSent := false, admitted := s.dev.now }]) ∧
  (∀ (s : State) (p : RegPort), s.dev.mapOpen = true →
    Runs (.timeLoRead p) s [.host] fun d =>
      d.host.timeHi.toNat = s.dev.now / 2 ^ 32 % 2 ^ 32 ∧ (d.map p).lastRead.toNat = s.dev.now % 2 ^ 32 ∧
      (d.map p).readOut = [(d.map p).lastRead] ∧
      d.host.ports = s.dev.host.ports) ∧
  (∀ (s : State) (p : RegPort), s.dev.mapOpen = true → p.port.ix < s.dev.host.ports.length →
    Runs (.evtFifoPop p true) s [.host] fun d => (d.port p.port).events = (s.dev.port p.port).events.drop 1) ∧
  (∀ (s : State) (p : RegPort), s.dev.mapOpen = true →
    Runs (.evtFifoPop p false) s [.host] fun d => d.host.ports = s.dev.host.ports) ∧
  (∀ (s : State) (p : RegPort), s.dev.mapOpen = true → s.dev.latchTick ≠ some (s.dev.now + 1) →
    Runs (.snapTrig p) s [.prm, .host, .links, .saf] fun d =>
      d.saf = { s.dev.saf with
        snapSeq := s.dev.saf.snapSeq + 1, snapCount := (s.dev.saf.snapCount + 1) % 256, lastSrc := 3, live := d.saf.live } ∧
      d.saf.live = s.dev.snapBodies.map fun r => snapRecord r.1 r.2.1 3 (s.dev.saf.snapSeq + 1) (s.dev.now + 1) r.2.2) ∧
  (∀ (s : State) (dr : BitVec 50), s.dev.jtag.ir = 0x10 → dr.getLsbD 0 = false → bitsOf dr.toNat 2 16 % 4 = 0 →
    Runs (.dbgMbxUpdate dr) s [.host, .free] fun d =>
      d.host.jtag.lastRead = BitVec.ofNat 32 (s.dev.regWord .jtag (bitsOf dr.toNat 2 16)) ∧ d.host.ports = s.dev.host.ports) ∧
  (∀ (s : State) (dr : BitVec 50), s.dev.jtag.ir ≠ 0x10 → exec (.dbgMbxUpdate dr) s = .next s)

/-- Commands that only read (R113, R114, R120, R126): each served command is answered with its response, and nothing else
changes. A GET_PARAM or a SNAPSHOT_READ that fails a check is answered with its status. SNAPSHOT latches every unit first. -/
def Obligations.MailboxReads : Prop :=
  (∀ (s : State) (p : Port) (c : Cmd), s.dev.serving p opGetInfo c →
    Becomes (.getInfo p) s s.dev fun d => d.answered p c.tag 0 s.dev.infoBytes) ∧
  (∀ (s : State) (p : Port) (c : Cmd) (bs : List Byte), s.dev.serving p opGetParam c →
    s.dev.getParamCmd (payloadLimit p) c.payload = (0, bs) →
    Becomes (.getParam p) s s.dev fun d => d.answered p c.tag 0 bs) ∧
  (∀ (s : State) (p : Port) (c : Cmd) (st : Nat) (bs : List Byte), s.dev.serving p opGetParam c →
    s.dev.getParamCmd (payloadLimit p) c.payload = (st, bs) → st ≠ 0 →
    Becomes (.getParam p) s s.dev fun d => d.answered p c.tag st (if st = 7 then s.dev.devStateBytes else [])) ∧
  (∀ (s : State) (p : Port) (c : Cmd) (bs : List Byte), s.dev.serving p opSnapshotRead c →
    s.dev.snapRead (payloadLimit p) c.payload = (0, bs) →
    Becomes (.snapshotRead p) s s.dev fun d => d.answered p c.tag 0 bs) ∧
  (∀ (s : State) (p : Port) (c : Cmd) (st : Nat) (bs : List Byte), s.dev.serving p opJournalRead c →
    s.dev.journalReadCmd (leField c.payload 0 4) ((byteAt c.payload 4).testBit 0) = (st, bs) →
    Becomes (.journalRead p) s s.dev fun d => d.answered p c.tag st bs) ∧
  (∀ (s : State) (p : Port) (c : Cmd), s.dev.serving p opSnapshot c → s.dev.latchTick ≠ some (s.dev.now + 1) →
    Runs (.snapshot p) s [.prm, .host, .links, .saf] fun d =>
      d.saf.live = (s.dev.snapBodies.map fun r => snapRecord r.1 r.2.1 2 (s.dev.saf.snapSeq + 1) (s.dev.now + 1) r.2.2) ∧
      d.saf.snapSeq = s.dev.saf.snapSeq + 1 ∧ d.saf.lastSrc = 2 ∧
      d.answered p c.tag 0 (f64 (d.latchTick.getD 0) ++ f8 ((s.dev.saf.snapCount + 1) % 256)))

/-- SET_PARAM of a parameter (R113): a scalar that applies at once takes its value, with its NOR mirror where it has one, and
reads back; one that applies at the next refresh boundary, compose-frame start, commit or TABLE_COMMIT is staged, and the value
in force stays; a write that fails a check changes nothing and is answered with its status. -/
def Obligations.ParameterWrites : Prop :=
  (∀ (s : State) (p : Port) (c : Cmd) (w : ParamWrite) (v : Int), s.dev.Inv → s.dev.headOf p opSetParam = some c →
    paramAct c.payload = none → s.dev.openWrite p c.payload = .ok w → w.row.ty.size ≠ 0 → s.dev.scalarIn w = .ok v →
    w.row.apply = .now →
    w.id - idInst w.id * 0x10000 ∉ [kPlcPatGeom, kClkClkSticky, kThmTDieMax, kLnkMaxRate, lkey kLnkMaxRate .lnk1, kLnkL1Allowed,
      lkey kLnkL1Allowed .lnk1, kDevBeamSource, kDevVehLossBeam, kPlcPatLow, kPlcPatHigh, kPlcPatFallback, kAuxMxClass] →
    Becomes (.setParam p) s (if w.row.mirrored then (s.dev.putVal w.id v).mirrorVal w.id else s.dev.putVal w.id v) fun d =>
      d.answered p c.tag 0 [] ∧ ((∀ q : Port, w.id ≠ pid kHostEvtLost q.ix) → d.valOf w.id = v) ∧
      ∀ id, id ≠ w.id → (∀ q : Port, id ≠ pid kHostEvtLost q.ix) → d.valOf id = s.dev.valOf id) ∧
  (∀ (s : State) (p : Port) (c : Cmd) (w : ParamWrite) (v : Int), s.dev.headOf p opSetParam = some c →
    paramAct c.payload = none → s.dev.openWrite p c.payload = .ok w → w.row.ty.size ≠ 0 → s.dev.scalarIn w = .ok v →
    w.row.apply = .refresh ∨ w.row.apply = .composeStart ∨ w.row.apply = .commit ∨ w.row.apply = .tableCommit →
    w.id - idInst w.id * 0x10000 ∉ [kPlcPatGeom, kClkClkSticky, kThmTDieMax] →
    Becomes (.setParam p) s (s.dev.stageVal w.id v) fun d => d.answered p c.tag 0 []) ∧
  (∀ (s : State) (p : Port) (c : Cmd) (st : Nat), s.dev.headOf p opSetParam = some c → paramAct c.payload = none →
    s.dev.openWrite p c.payload = .error st →
    Becomes (.setParam p) s s.dev fun d => d.answered p c.tag st (if st = 7 then s.dev.devStateBytes else [])) ∧
  (∀ (s : State) (p : Port) (c : Cmd) (w : ParamWrite) (st : Nat), s.dev.headOf p opSetParam = some c →
    paramAct c.payload = none → s.dev.openWrite p c.payload = .ok w → w.row.ty.size ≠ 0 → s.dev.scalarIn w = .error st →
    Becomes (.setParam p) s s.dev fun d => d.answered p c.tag st (if st = 7 then s.dev.devStateBytes else []))

/-- ABORT (R101) of a command that waits its turn ends it with ABORTED and is answered OK; of a command that cannot be aborted,
BUSY; of a completed one, ALREADY_DONE; of an unknown tag, BAD_ARG. SET_COMPAT_LEVEL takes level 1 and refuses any other with
COMPAT (R104). -/
def Obligations.AbortAndLevel : Prop :=
  (∀ (s : State) (p : Port) (c : Cmd) (o : OpenCmd), s.dev.serving p opAbort c → c.tag ≠ byteAt c.payload 0 →
    ((s.dev.port p).opens.find? fun x => x.cmd.tag == byteAt c.payload 0) = some o → s.dev.abortable p o = true →
    o.stage = .queued →
    Becomes (.abort p) s s.dev fun d => d.answered p c.tag 0 [] ∧ d.tagOpen p (byteAt c.payload 0) = false ∧
      (d.port p).cache.any (fun e => e.tag == byteAt c.payload 0 && e.status == 9) = true) ∧
  (∀ (s : State) (p : Port) (c : Cmd) (o : OpenCmd), s.dev.serving p opAbort c →
    ((s.dev.port p).opens.find? fun x => x.cmd.tag == byteAt c.payload 0) = some o → s.dev.abortable p o = false →
    Becomes (.abort p) s s.dev fun d => d.answered p c.tag 2 []) ∧
  (∀ (s : State) (p : Port) (c : Cmd), s.dev.serving p opAbort c → s.dev.tagOpen p (byteAt c.payload 0) = false →
    Becomes (.abort p) s s.dev fun d => d.answered p c.tag
      (if (s.dev.port p).cache.any fun e => e.tag == byteAt c.payload 0 then 8 else 5) []) ∧
  (∀ (s : State) (p : Port) (c : Cmd), s.dev.serving p opSetCompat c → leField c.payload 0 2 = 1 →
    Becomes (.setCompatLevel p) s { s.dev with core := { s.dev.core with activeCl := 1 } } fun d => d.answered p c.tag 0 []) ∧
  (∀ (s : State) (p : Port) (c : Cmd), s.dev.serving p opSetCompat c → leField c.payload 0 2 ≠ 1 →
    Becomes (.setCompatLevel p) s s.dev fun d => d.answered p c.tag 0x0F [])

/-- BEAM_ENABLE (R117, R210): the request is recorded, unless a test mode refuses it; where BEAM_SOURCE names the mailbox's
request no source, the command completes at once. Its time limit ends a waiting one with TIMEOUT, and the request stays
recorded. -/
def Obligations.BeamEnable : Prop :=
  (∀ (s : State) (p : Port) (c : Cmd), s.dev.serving p opBeamEnable c → byteAt c.payload 0 ≤ 3 →
    ¬(isTestMode s.dev.core.mode = true ∧ (p.classBit ≤ 2 ∨ (byteAt c.payload 0 ≠ 0 ∧ s.dev.speedZero = false))) →
    Runs (.beamEnable p) s [.core, .prm, .clk, .sluice, .host, .req, .links, .cmp, .seq, .cam, .ports, .lamp, .gov, .saf, .upd]
      fun d => d.req.mailbox = byteAt c.payload 0 ∧ d.req.mailboxNewest = true) ∧
  (∀ (s : State) (p : Port) (c : Cmd), s.dev.serving p opBeamEnable c → byteAt c.payload 0 ≤ 3 →
    isTestMode s.dev.core.mode = true → p.classBit ≤ 2 ∨ (byteAt c.payload 0 ≠ 0 ∧ s.dev.speedZero = false) →
    Becomes (.beamEnable p) s s.dev fun d => d.answered p c.tag 7 s.dev.devStateBytes) ∧
  (∀ (s : State) (p : Port) (c : Cmd), s.dev.headOf p opBeamEnable = some c → 3 < byteAt c.payload 0 →
    Becomes (.beamEnable p) s s.dev fun d => d.answered p c.tag 5 []) ∧
  (∀ (s : State) (p : Port) (tag : Nat), (∃ x ∈ s.dev.waitingOf opBeamEnable, x.1 = p ∧ x.2.tag = tag) →
    Becomes (.beamEnableTimeout p tag) s s.dev fun d => d.answered p tag 0x0D [])

/-- SELECT_MODE (R118): in STANDBY, with no change under way and side R as the mode needs it, the mode is in force; in BEAM a
permitted change to another mode is pending; the mode in force is answered OK; a test mode outside STANDBY is overridden; an
undefined mode is BAD_ARG. -/
def Obligations.SelectMode : Prop :=
  (∀ (s : State) (p : Port) (c : Cmd), s.dev.serving p opSelectMode c → s.dev.modeCheck p (byteAt c.payload 0) = none →
    s.dev.core.state = .standby → s.dev.seq.change = .none_ →
    (s.dev.moveSideR (byteAt c.payload 0)).sideRFits (byteAt c.payload 0) = true →
    Runs (.selectMode p) s [.core, .prm, .clk, .sluice, .host, .req, .links, .cmp, .seq, .cam, .ports, .lamp, .saf, .upd] fun d
      => d.core.mode = byteAt c.payload 0) ∧
  (∀ (s : State) (p : Port) (c : Cmd), s.dev.serving p opSelectMode c → s.dev.modeCheck p (byteAt c.payload 0) = none →
    s.dev.core.state = .beam ∨ s.dev.core.state = .degraded → isTestMode (byteAt c.payload 0) = false → s.dev.seq.change =
      .none_ →
    byteAt c.payload 0 ≠ s.dev.core.mode → s.dev.modeBarred (byteAt c.payload 0) = false →
    Becomes (.selectMode p) s { s.dev with seq := { s.dev.seq with change := .pending (byteAt c.payload 0) p c.tag false } }
      fun d =>
      d.waitsFor p c.tag) ∧
  (∀ (s : State) (p : Port) (c : Cmd), s.dev.serving p opSelectMode c → s.dev.modeCheck p (byteAt c.payload 0) = none →
    s.dev.core.state = .beam ∨ s.dev.core.state = .degraded → isTestMode (byteAt c.payload 0) = false → s.dev.seq.change =
      .none_ →
    byteAt c.payload 0 = s.dev.core.mode →
    Becomes (.selectMode p) s s.dev fun d => d.answered p c.tag 0 []) ∧
  (∀ (s : State) (p : Port) (c : Cmd), s.dev.serving p opSelectMode c → s.dev.modeCheck p (byteAt c.payload 0) = none →
    s.dev.core.state ≠ .standby → isTestMode (byteAt c.payload 0) = true →
    Becomes (.selectMode p) s s.dev fun d => d.answered p c.tag 7 s.dev.devStateBytes) ∧
  (∀ (s : State) (p : Port) (c : Cmd), s.dev.headOf p opSelectMode = some c → modeDefined (byteAt c.payload 0) = false →
    Becomes (.selectMode p) s s.dev fun d => d.answered p c.tag 5 [])

/-- Settings that come into force at a boundary, a start or a tick (R119, R124, R125, R188, R337): each served command is
recorded and answered OK, and nothing else changes. -/
def Obligations.RecordedSettings : Prop :=
  (∀ (s : State) (p : Port) (c : Cmd), s.dev.serving p opSlotMask c →
    (s.dev.maskedModes.all fun m => maskKeeps (s.dev.rowOf m) (BitVec.ofNat 32 (leField c.payload 0 4))) = true →
    Becomes (.setSlotMask p) s (if s.dev.seq.handedFirst
        then { s.dev with seq := { s.dev.seq with maskFresh := some (BitVec.ofNat 32 (leField c.payload 0 4)) } }
        else { s.dev with seq := { s.dev.seq with maskRecorded := some (BitVec.ofNat 32 (leField c.payload 0 4)) } }) fun d =>
      d.answered p c.tag 0 []) ∧
  (∀ (s : State) (p : Port) (c : Cmd), s.dev.serving p opLampEnable c → s.dev.dual = true →
    Becomes (.lampEnable p) s
      { s.dev with lamp := { s.dev.lamp with enableNext := BitVec.ofNat 12 (leField c.payload 0 2) } } fun d =>
      d.answered p c.tag 0 []) ∧
  (∀ (s : State) (p : Port) (c : Cmd), s.dev.serving p opDimSet c → byteAt c.payload 2 ≤ 2 → leField c.payload 4 2 ≤ 10000 →
    s.dev.lamp.inLoss (byteAt c.payload 2) = false → s.dev.lamp.dimLost = false →
    Becomes (.dimSet p) s { s.dev with lamp := { s.dev.lamp with
        dimPending := some (leField c.payload 0 2, byteAt c.payload 2, leField c.payload 4 2), dimTodo := 0 } } fun d =>
      d.answered p c.tag 0 []) ∧
  (∀ (s : State) (p : Port) (c : Cmd), s.dev.serving p opRampCurve c → rampOk c.payload = true →
    Becomes (.rampCurve p) s
      ((s.dev.setPar kLmpRampSettings 0 (s.dev.rampWord c.payload)).mirrorVal (pid kLmpRampSettings 0)) fun d =>
      d.answered p c.tag 0 []) ∧
  (∀ (s : State) (p : Port) (c : Cmd), s.dev.serving p opSignature c → s.dev.signatureCheck c.payload = none →
    s.dev.faultActive 0x0C01 (byteAt c.payload 0) = false →
    Becomes (.signatureExpect p) s
      (s.dev.setRect (byteAt c.payload 0) (byteAt c.payload 1) (armedRect c.payload)) fun d => d.answered p c.tag 0 []) ∧
  (∀ (s : State) (p : Port) (c : Cmd) (i v : Nat), s.dev.servingAct p .tableCommit c i v → v.testBit 4 = false →
    Becomes (.tableCommit p) s
      { s.dev with cmp := { s.dev.cmp with tableCommit := s.dev.cmp.tableCommit ||| BitVec.ofNat 5 v } } fun d =>
      d.answered p c.tag 0 []) ∧
  (∀ (s : State) (p : Port) (c : Cmd) (i v : Nat), s.dev.servingAct p .segCommit c i v →
    Becomes (.segCommit p) s
      (s.dev.modChain i fun x => { x with commitDue := some (bitsOf v 0 16, bitsOf v 16 2) }) fun d => d.answered p c.tag 0 [])

/-- Layer commands (R121, R122, R140, R142, R147 to R150): a declaration that has memory and scalers takes the layer; without
them, or of a layer in use, it changes nothing and says why; a destruction waits for a compose-frame start; a commit arms its
group; a fence with no layer is signalled at once, and one for a frame that is still to come waits for it. -/
def Obligations.LayerCommands : Prop :=
  (∀ (s : State) (p : Port) (c : Cmd), s.dev.Inv → s.dev.serving p opLayerDeclare c → hostLayer (byteAt c.payload 0) = true →
    (declOf c.payload).ok = true → (s.dev.layer (byteAt c.payload 0)).st = .free →
    (s.dev.place (declOf c.payload)).dram ≤ s.dev.cmp.dramFree →
    ∀ need, need = (if (s.dev.place (declOf c.payload)).code = 0 ∨ (s.dev.place (declOf c.payload)).code = 3 then
        scalersNeeded (declOf c.payload).srcW (declOf c.payload).srcH (declOf c.payload).outW (declOf c.payload).outH else 0) →
      need ≤ s.dev.cmp.scalersFree.length →
      Becomes (.layerDeclare p) s (s.dev.declare (byteAt c.payload 0) (declOf c.payload) (s.dev.place (declOf c.payload))
          (s.dev.cmp.scalersFree.take need)) fun d =>
        d.answered p c.tag 0 [] ∧ (d.layer (byteAt c.payload 0)).st = .declared ∧
        (d.layer (byteAt c.payload 0)).decl = declOf c.payload ∧
        d.cmp.dramFree = s.dev.cmp.dramFree - (s.dev.place (declOf c.payload)).dram) ∧
  (∀ (s : State) (p : Port) (c : Cmd), s.dev.serving p opLayerDeclare c → hostLayer (byteAt c.payload 0) = true →
    (declOf c.payload).ok = true → (s.dev.layer (byteAt c.payload 0)).st ≠ .free →
    Becomes (.layerDeclare p) s s.dev fun d => d.answered p c.tag 7 s.dev.devStateBytes) ∧
  (∀ (s : State) (p : Port) (c : Cmd), s.dev.serving p opLayerDeclare c → hostLayer (byteAt c.payload 0) = true →
    (declOf c.payload).ok = true → (s.dev.layer (byteAt c.payload 0)).st = .free →
    s.dev.cmp.dramFree < (s.dev.place (declOf c.payload)).dram →
    Becomes (.layerDeclare p) s s.dev fun d => d.answered p c.tag 0x0A []) ∧
  (∀ (s : State) (p : Port) (c : Cmd), s.dev.serving p opLayerDestroy c → hostLayer (byteAt c.payload 0) = true →
    (s.dev.layer (byteAt c.payload 0)).st = .declared →
    Becomes (.layerDestroy p) s (s.dev.modLayer (byteAt c.payload 0) fun l => { l with destroyDue := true }) fun d =>
      d.waitsFor p c.tag) ∧
  (∀ (s : State) (p : Port) (c : Cmd), s.dev.serving p opLayerDestroy c → hostLayer (byteAt c.payload 0) = true →
    (s.dev.layer (byteAt c.payload 0)).st ≠ .declared →
    Becomes (.layerDestroy p) s s.dev fun d => d.answered p c.tag 7 s.dev.devStateBytes) ∧
  (∀ (s : State) (p : Port) (c : Cmd), s.dev.Inv → s.dev.serving p opCommitGroup c → byteAt c.payload 0 ≤ 7 → byteAt c.payload
    1 ≤ 8 →
    (s.dev.group (byteAt c.payload 0)).armed = false →
    Becomes (.commitGroup p) s (s.dev.arm (byteAt c.payload 0) (leFields c.payload 4 2 (byteAt c.payload 1)) p c.tag) fun d =>
      d.waitsFor p c.tag ∧ (d.group (byteAt c.payload 0)).armed = true) ∧
  (∀ (s : State) (p : Port) (c : Cmd), s.dev.serving p opFenceSignal c → byteAt c.payload 2 = 0xFF →
    s.dev.waitingOf opFenceSignal = [] →
    Becomes (.fenceSignal p) s (s.dev.signalFence (leField c.payload 0 2)) fun d => d.answered p c.tag 0 []) ∧
  (∀ (s : State) (p : Port) (c : Cmd), s.dev.serving p opFenceSignal c → hostLayer (byteAt c.payload 2) = true →
    (s.dev.layer (byteAt c.payload 2)).intake = false → (s.dev.layer (byteAt c.payload 2)).frameSt = .idle →
    (s.dev.layer (byteAt c.payload 2)).newFrame (leField c.payload 4 2) = true →
    Becomes (.fenceSignal p) s (s.dev.modLayer (byteAt c.payload 2) fun l => { l with
        fences := l.fences ++ [{ fence := leField c.payload 0 2, frame := leField c.payload 4 2, atCopy := false }] }) fun d =>
      d.waitsFor p c.tag)

/-- OBJECT_LIST and SHUTTER_GEOMETRY (R123, R258 to R262): a part in order is kept; one out of order drops the list; the last
part of a good list hands it to the engine. A good geometry record is stored and mirrored, and GEOMETRY_INVALID clears. -/
def Obligations.ShutterMailbox : Prop :=
  (∀ (s : State) (p : Port) (c : Cmd) (l : ListParts), s.dev.serving p opObjectList c → 1 ≤ byteAt c.payload 3 →
    byteAt c.payload 3 ≤ 32 → byteAt c.payload 2 < byteAt c.payload 3 → s.dev.takePart p c.payload = some l → l.next < l.parts →
    Becomes (.objectList p) s { s.dev with host := { s.dev.host with parts := some l } } fun d => d.answered p c.tag 0 []) ∧
  (∀ (s : State) (p : Port) (c : Cmd), s.dev.serving p opObjectList c → 1 ≤ byteAt c.payload 3 →
    byteAt c.payload 3 ≤ 32 → byteAt c.payload 2 < byteAt c.payload 3 → s.dev.takePart p c.payload = none →
    Becomes (.objectList p) s { s.dev with host := { s.dev.host with parts := none } } fun d => d.answered p c.tag 5 []) ∧
  (∀ (s : State) (p : Port) (c : Cmd) (l : ListParts), s.dev.serving p opObjectList c → 1 ≤ byteAt c.payload 3 →
    byteAt c.payload 3 ≤ 32 → byteAt c.payload 2 < byteAt c.payload 3 → s.dev.takePart p c.payload = some l → l.parts ≤ l.next →
    s.dev.listReason l.data = 0 →
    Runs (.objectList p) s [.prm, .host, .links, .seq, .sht, .free] fun d => d.host.parts = none ∧
      (d.sht.newest.map fun x => (x.time, x.count)) = some (leField l.data 0 8, byteAt l.data 8)) ∧
  (∀ (s : State) (p : Port) (c : Cmd), s.dev.serving p opGeometry c → s.dev.geometryOk c.payload = true →
    Runs (.shutterGeometry p) s [.prm, .host, .links, .sht, .saf, .nor] fun d =>
      d.sht = { s.dev.sht with geometry := maskGeometry c.payload, geomValid := true } ∧
      d.nor = { s.dev.nor with geometry := some (maskGeometry c.payload), geometryCheck := true } ∧
      d.faultActive 0x0804 0 = false ∧ d.answered p c.tag 0 [])

/-- Journal and calibration commands (R126, R127, R407): a seal waits for its record in NOR, and its time limit ends the oldest
with TIMEOUT; a calibration that is not due is answered with zero units; one that finds another at work waits behind it, and a
third is BUDGET_DENIED. The seal is stated for a journal whose flush is under way, so that no new erase ticket is asked for. -/
def Obligations.JournalAndCalCommands : Prop :=
  (∀ (s : State) (p : Port) (c : Cmd), s.dev.serving p opJournalSeal c → s.dev.jnl.flushing = true →
    ∀ e, e = s.dev.sealSegment 1 →
    Becomes (.journalSeal p) s { e with jnl := { e.jnl with seals := s.dev.jnl.seals ++ [(s.dev.jnl.next, p, c.tag)] } } fun d =>
      d.waitsFor p c.tag ∧ d.jnl.next = entryMod (s.dev.jnl.next + 1) ∧ d.jnl.segment = entryMod (s.dev.jnl.segment + 1) ∧
      d.jnl.segFirst = d.jnl.next ∧ d.jnl.seals = s.dev.jnl.seals ++ [(s.dev.jnl.next, p, c.tag)]) ∧
  (∀ (s : State) (p : Port) (e tag : Nat) (rest : List (Nat × Port × Nat)), s.dev.jnl.seals = (e, p, tag) :: rest →
    s.dev.tagOpen p tag = true →
    Becomes .journalSealTimeout s { s.dev with jnl := { s.dev.jnl with seals := rest } } fun d => d.answered p tag 0x0D []) ∧
  (∀ (s : State) (p : Port) (c : Cmd), s.dev.serving p opCalRun c → byteAt c.payload 0 % 8 ≠ 0 →
    (byteAt c.payload 1).testBit 0 = false →
    (∀ i < 3, (BitVec.ofNat 3 (byteAt c.payload 0)).getLsbD i = true →
      (s.dev.thm.tDie - s.dev.cal.lastRunT.getD i 0).natAbs ≤ 10 * s.dev.par kCalCalDeltaT 0) →
    Becomes (.calRun p) s s.dev fun d => d.answered p c.tag 0 (leBytes 4 0)) ∧
  (∀ (s : State) (p : Port) (c : Cmd), s.dev.serving p opCalRun c → byteAt c.payload 0 % 8 ≠ 0 →
    (byteAt c.payload 1).testBit 0 = true → s.dev.cal.run.isSome = true → s.dev.cal.queuedRun = none →
    Becomes (.calRun p) s { s.dev with cal := { s.dev.cal with
        queuedRun := some (BitVec.ofNat 3 (byteAt c.payload 0), p, c.tag) } } fun d => d.waitsFor p c.tag) ∧
  (∀ (s : State) (p : Port) (c : Cmd), s.dev.serving p opCalRun c → byteAt c.payload 0 % 8 ≠ 0 →
    (byteAt c.payload 1).testBit 0 = true → s.dev.cal.run.isSome = true → s.dev.cal.queuedRun ≠ none →
    Becomes (.calRun p) s s.dev fun d => d.answered p c.tag 0x0C [])

/-- Firmware update (R128, R433): BEGIN clears the target's valid flag and starts the erase; DATA programs a verified range, or
answers INTEGRITY where it does not read back; COMMIT of an image that passes every check makes it the preferred one on trial
and ends the session; without the session DATA and COMMIT are overridden. -/
def Obligations.FirmwareUpdate : Prop :=
  (∀ (s : State) (p : Port) (c : Cmd), s.dev.serving p opFwBegin c → leField c.payload 0 4 ≤ 0x200000 →
    leField c.payload 0 4 % 4 = 0 → s.dev.updating = false → s.dev.core.acornService = true ∨ s.dev.speedZero = true →
    ∀ e, e = s.dev.writeDir (fun r => r.setValid s.dev.updateTarget false) →
      e.ticketHeld (.erase .image) = true ∨ e.ticketQueued (.erase .image) = true ∨
        e.deniedAtOnce (e.slReq (.erase .image)) = false →
      Runs (.fwUpdateBegin p) s [.prm, .sluice, .host, .links, .lamp, .nor, .upd] fun d =>
        d.upd.erasing = true ∧ d.upd.target = s.dev.updateTarget ∧ d.upd.size = leField c.payload 0 4 ∧ d.upd.eraseBlock = 0 ∧
        d.upd.session = none ∧ d.nor = e.nor) ∧
  (∀ (s : State) (p : Port) (c : Cmd), s.dev.Inv → s.dev.serving p opFwData c → leField c.payload 0 4 % 4 = 0 →
    leField c.payload 0 4 + (c.payload.drop 4).length ≤ s.dev.upd.size → s.dev.upd.session = some p →
    Becomes (.fwUpdateData p true) s { s.dev with
        nor := { s.dev.nor with
          cells := norStore s.dev.nor.cells (imageOffset s.dev.upd.target + leField c.payload 0 4) (c.payload.drop 4) }
        upd := { s.dev.upd with ranges := s.dev.upd.ranges ++
          [(leField c.payload 0 4, (c.payload.drop 4).length, crc32 (c.payload.drop 4))] } } fun d =>
      d.answered p c.tag 0 [] ∧ ∀ i, (h : i < (c.payload.drop 4).length) →
        norByte d.nor.cells (imageOffset s.dev.upd.target + leField c.payload 0 4 + i) = (c.payload.drop 4)[i]) ∧
  (∀ (s : State) (p : Port) (c : Cmd), s.dev.serving p opFwData c → leField c.payload 0 4 % 4 = 0 →
    leField c.payload 0 4 + (c.payload.drop 4).length ≤ s.dev.upd.size → s.dev.upd.session = some p →
    Runs (.fwUpdateData p false) s [.prm, .host, .links, .nor, .free] fun d => d.answered p c.tag 0x0E [1] ∧ d.upd = s.dev.upd) ∧
  (∀ (s : State) (p : Port) (c : Cmd) (b : Bool), s.dev.serving p opFwData c → leField c.payload 0 4 % 4 = 0 →
    s.dev.upd.session ≠ some p →
    Becomes (.fwUpdateData p b) s s.dev fun d => d.answered p c.tag 7 s.dev.devStateBytes) ∧
  (∀ (s : State) (p : Port) (c : Cmd), s.dev.serving p opFwCommit c → s.dev.upd.session = some p →
    s.dev.imageCheck s.dev.upd.target = 0 →
    ∀ e, e = s.dev.writeDir (fun r => { r.setValid s.dev.upd.target true with pref := s.dev.upd.target, trial := true, tries :=
      0 }) →
      Runs (.fwUpdateCommit p) s [.prm, .sluice, .host, .links, .lamp, .nor, .upd] fun d =>
        d.nor = e.nor ∧ d.upd = { Update.reset with
          restartDue := s.dev.upd.restartDue || (byteAt c.payload 0).testBit 0, dirWaiting := e.upd.dirWaiting } ∧
        d.answered p c.tag 0 []) ∧
  (∀ (s : State) (p : Port) (c : Cmd), s.dev.serving p opFwCommit c → s.dev.upd.session = some p →
    s.dev.imageCheck s.dev.upd.target ≠ 0 →
    Becomes (.fwUpdateCommit p) s s.dev fun d =>
      d.answered p c.tag 0x0E (leBytes 1 (s.dev.commitReason (s.dev.imageCheck s.dev.upd.target)))) ∧
  (∀ (s : State) (p : Port) (c : Cmd), s.dev.serving p opFwCommit c → s.dev.upd.session ≠ some p →
    Becomes (.fwUpdateCommit p) s s.dev fun d => d.answered p c.tag 7 s.dev.devStateBytes)

/-- The pattern library (R155): an erase that gets or waits for its ticket takes the image's valid flag; a program of erased
bytes stores the staged block; a verify sets the valid flag when the CRC fits, and changes nothing else; an invalidation takes
the flag. -/
def Obligations.PatternLibrary : Prop :=
  (∀ (s : State) (p : Port) (c : Cmd) (i v : Nat), s.dev.servingAct p .patErase c i v →
    s.dev.ticketHeld (.erase .pattern) = true ∨ s.dev.ticketQueued (.erase .pattern) = true ∨
      s.dev.deniedAtOnce (s.dev.slReq (.erase .pattern)) = false →
    Runs (.patErase p) s [.prm, .sluice, .host, .links, .nor] fun d => d.waitsFor p c.tag ∧
      (d.nor.patValid.get (patSide v)).getLsbD (patIndex v) = false ∧ d.nor.cells = s.dev.nor.cells) ∧
  (∀ (s : State) (p : Port) (c : Cmd) (i v : Nat), s.dev.Inv → s.dev.servingAct p .patProgram c i v →
    4096 * bitsOf v 16 16 + 4096 ≤ imageBytes s.dev.nor.patGeom → (s.dev.arr kPlcPatStage 0).length = 4096 →
    (∀ k < 4096, norByte s.dev.nor.cells (patOffset (patSide v) (patIndex v) + 4096 * bitsOf v 16 16 + k) = 0xFF) →
    Runs (.patProgram p) s [.prm, .host, .links, .nor, .free] fun d => d.answered p c.tag 0 [] ∧
      d.nor.patValid = s.dev.nor.patValid ∧
      (∀ k < 4096, norByte d.nor.cells (patOffset (patSide v) (patIndex v) + 4096 * bitsOf v 16 16 + k) =
        (s.dev.arr kPlcPatStage 0).getD k 0) ∧
      ∀ a, a < patOffset (patSide v) (patIndex v) + 4096 * bitsOf v 16 16 ∨
          patOffset (patSide v) (patIndex v) + 4096 * bitsOf v 16 16 + 4096 ≤ a →
        norByte d.nor.cells a = norByte s.dev.nor.cells a) ∧
  (∀ (s : State) (p : Port) (c : Cmd) (i v : Nat), s.dev.servingAct p .patVerify c i v →
    crc32 (s.dev.patBytes (patSide v) (patIndex v)) = BitVec.ofNat 32 (s.dev.par kPlcPatCrc 0) →
    Runs (.patVerify p) s [.prm, .host, .links, .nor] fun d => d.answered p c.tag 0 [] ∧
      (d.nor.patValid.get (patSide v)).getLsbD (patIndex v) = true ∧ d.nor.cells = s.dev.nor.cells) ∧
  (∀ (s : State) (p : Port) (c : Cmd) (i v : Nat), s.dev.servingAct p .patVerify c i v →
    crc32 (s.dev.patBytes (patSide v) (patIndex v)) ≠ BitVec.ofNat 32 (s.dev.par kPlcPatCrc 0) →
    Becomes (.patVerify p) s s.dev fun d => d.answered p c.tag 0 []) ∧
  (∀ (s : State) (p : Port) (c : Cmd) (i v : Nat), s.dev.servingAct p .patInvalidate c i v →
    Runs (.patInvalidate p) s [.prm, .host, .links, .nor] fun d => d.answered p c.tag 0 [] ∧
      (d.nor.patValid.get (patSide v)).getLsbD (patIndex v) = false ∧ d.nor.cells = s.dev.nor.cells)

/-- Fault commands (R363, R367, R369): FAULT_CLEAR clears the one fault it names, where its condition holds, and is overridden
where it clears none; REACTION_SET puts a row's reaction in force and in the mirror; SNAP_RELEASE empties the held bank. -/
def Obligations.FaultCommands : Prop :=
  (∀ (s : State) (p : Port) (c : Cmd) (i v : Nat) (f : ActiveFault), s.dev.servingAct p .faultClear c i v → s.dev.clears v = [f] →
    s.dev.core.state = .beam ∨ s.dev.core.state = .degraded →
    Runs (.faultClear p) s [.core, .prm, .clk, .sluice, .host, .req, .links, .cmp, .seq, .cam, .ports, .lamp, .gov, .saf, .upd]
      fun d => d.answered p c.tag 0 [] ∧ d.faultActive f.code f.inst = false) ∧
  (∀ (s : State) (p : Port) (c : Cmd) (i v : Nat), s.dev.servingAct p .faultClear c i v → s.dev.clears v = [] →
    Becomes (.faultClear p) s s.dev fun d => d.answered p c.tag 7 s.dev.devStateBytes) ∧
  (∀ (s : State) (p : Port) (c : Cmd) (i v : Nat) (r : Reaction), s.dev.servingAct p .reactionSet c i v → r.code = bitsOf v 16 2 →
    Becomes (.reactionSet p) s { s.dev with
        saf := { s.dev.saf with reactions := kvSet s.dev.saf.reactions (v % 0x10000) r }
        nor := { s.dev.nor with mirrorReactions := kvSet s.dev.saf.reactions (v % 0x10000) r } } fun d =>
      d.answered p c.tag 0 [] ∧ kvGet d.saf.reactions (v % 0x10000) = some r) ∧
  (∀ (s : State) (p : Port) (c : Cmd) (i v : Nat), s.dev.servingAct p .snapRelease c i v →
    Becomes (.snapRelease p) s { s.dev with saf := { s.dev.saf with held := [], snapHeld := false } } fun d =>
      d.answered p c.tag 0 [])

/-- RETRAIN (R58, Table 2-8): 1 takes a link in L0 or L1 to RECOVERY, 2 takes one in service to DETECT; elsewhere the command is
overridden and the link stays. -/
def Obligations.Retrain : Prop :=
  (∀ (s : State) (p : Port) (c : Cmd) (i v : Nat), s.dev.servingAct p .retrain1 c i v →
    (s.dev.link (retrainLink c)).state = .l0 ∨ (s.dev.link (retrainLink c)).state = .l1 →
    Runs (.retrainRecovery p) s [.prm, .sluice, .host, .links, .lamp, .free] fun d => (d.link (retrainLink c)).state =
      .recovery) ∧
  (∀ (s : State) (p : Port) (c : Cmd) (i v : Nat), s.dev.servingAct p .retrain1 c i v →
    (s.dev.link (retrainLink c)).state ≠ .l0 → (s.dev.link (retrainLink c)).state ≠ .l1 →
    Becomes (.retrainRecovery p) s s.dev fun d => d.answered p c.tag 7 s.dev.devStateBytes) ∧
  (∀ (s : State) (p : Port) (c : Cmd) (i v : Nat), s.dev.servingAct p .retrain2 c i v →
    (s.dev.link (retrainLink c)).state ≠ .disabled → (s.dev.link (retrainLink c)).state ≠ .l2 →
    Runs (.retrainDetect p) s [.prm, .sluice, .host, .links, .cmp, .seq, .ports, .lamp, .gov, .saf, .jnl, .free] fun d =>
      (d.link (retrainLink c)).state = .detect ∧ (d.link (retrainLink c)).rate = 0) ∧
  (∀ (s : State) (p : Port) (c : Cmd) (i v : Nat), s.dev.servingAct p .retrain2 c i v →
    (s.dev.link (retrainLink c)).state = .disabled ∨ (s.dev.link (retrainLink c)).state = .l2 →
    Becomes (.retrainDetect p) s s.dev fun d => d.answered p c.tag 7 s.dev.devStateBytes)

/-- CAN mailbox frames (R92): FIRST starts a message and each later segment joins it; the LAST segment hands over the command,
which a port with room queues; a segment that follows none, and a message in collection whose time is out, are dropped. -/
def Obligations.CanMailbox : Prop :=
  (∀ (s : State) (seg : Byte) (body : List Byte), s.dev.canActive = true → seg.toNat.testBit 0 = true → seg.toNat.testBit 1 =
    false →
    exec (.canMailboxFrame (seg :: body)) s = .next { s with dev := { s.dev with host := { s.dev.host with
      canRx := some { bytes := body, segments := 1, whole := body.length == 63 } } } }) ∧
  (∀ (s : State) (seg : Byte) (body : List Byte) (m : CanRx), s.dev.canActive = true → seg.toNat.testBit 0 = false →
    seg.toNat.testBit 1 = false → s.dev.host.canRx = some m →
    exec (.canMailboxFrame (seg :: body)) s = .next { s with dev := { s.dev with host := { s.dev.host with
      canRx := some { bytes := m.bytes ++ body, segments := m.segments + 1, whole := m.whole && body.length == 63 } } } }) ∧
  (∀ (s : State) (seg : Byte) (body : List Byte), seg.toNat.testBit 0 = false → s.dev.host.canRx = none →
    exec (.canMailboxFrame (seg :: body)) s = .next s) ∧
  (∀ (s : State) (seg : Byte) (body : List Byte) (c : Cmd), s.dev.host.ports.length = 5 → s.dev.serves .can = true →
    seg.toNat.testBit 0 = true →
    seg.toNat.testBit 1 = true → body.length ≤ 63 → 8 ≤ body.length → c = cmdOf (leField body 0 8) (body.drop 8) →
    8 + c.len ≤ body.length → s.dev.cacheHit .can { c with payload := c.payload.take c.len } = none →
    (s.dev.port .can).opens.length < 4 → s.dev.tagOpen .can c.tag = false →
    s.dev.admissionCheck .can { c with payload := c.payload.take c.len } true = none →
    Runs (.canMailboxFrame (seg :: body)) s [.prm, .host] fun d => d.host.canRx = none ∧
      (d.port .can).opens = (s.dev.port .can).opens ++
        [{ cmd := { c with payload := c.payload.take c.len }, slot := 0, stage := .queued, pendingSent := false, admitted :=
          s.dev.now }]) ∧
  (∀ (s : State), s.dev.host.canStaged = [] →
    exec .canMessageTimeout s = .next { s with dev := { s.dev with host := { s.dev.host with canRx := none } } })

/-- Vehicle frames (R93, R94, R116): a valid frame (right length and CRC-8, a CNT that is not the last one's) is taken as the
vehicle's request or motion and ends that frame's loss, and any other has no effect. A valid VEH_TIME one CNT after the last
aligns the time base: up to two ticks at once, up to 1 ms by slewing, more by a step forward. -/
def Obligations.VehicleSignals : Prop :=
  (∀ (s : State) (b : List Byte), s.dev.canActive = true → vehValid b 8 1 s.dev.veh.beamCnt = true → byteAt b 0 % 8 ≤ 3 →
    Runs (.vehBeamFrame b) s [.core, .prm, .clk, .sluice, .host, .veh, .req, .links, .cmp, .seq, .cam, .ports, .lamp, .gov,
      .saf, .upd] fun d =>
      d.veh = { s.dev.veh with
        beamCnt := some (byteAt b 1 % 16), beamTime := s.dev.now, beamLost := false, beamReq := byteAt b 0 % 8 } ∧
      d.req.can = byteAt b 0 % 8 ∧ d.req.canLoss = false) ∧
  (∀ (s : State) (b : List Byte), vehValid b 8 1 s.dev.veh.beamCnt = false ∨ 3 < byteAt b 0 % 8 →
    exec (.vehBeamFrame b) s = .next s) ∧
  (∀ (s : State) (b : List Byte), s.dev.canActive = true → vehValid b 16 8 s.dev.veh.motionCnt = true →
    Runs (.vehMotionFrame b) s [.core, .prm, .clk, .sluice, .host, .veh, .req, .links, .cmp, .seq, .cam, .ports, .lamp, .gov,
      .saf, .upd] fun d =>
      d.veh = { s.dev.veh with
        motionCnt := some (byteAt b 8 % 16), motionSeen := true, motionTime := s.dev.now, motionLost := false,
        speed := leField b 0 2, yaw := leInt b 2 2, steer := leInt b 4 2, pitch := leInt b 6 2 }) ∧
  (∀ (s : State) (b : List Byte), vehValid b 16 8 s.dev.veh.motionCnt = false → exec (.vehMotionFrame b) s = .next s) ∧
  (∀ (s : State) (b : List Byte) (sof : Nat), s.dev.canActive = true → s.dev.par kHostTimeSource 0 = 1 →
    vehValid b 16 8 s.dev.veh.timeCnt = true → s.dev.veh.timeCnt ≠ some ((byteAt b 8 % 16 + 15) % 16) →
    exec (.vehTimeFrame b sof) s = .next { s with dev := { s.dev with veh := { s.dev.veh with
      timeCnt := some (byteAt b 8 % 16), timeLatch := sof } } }) ∧
  (∀ (s : State) (b : List Byte) (sof : Nat), s.dev.canActive = true → s.dev.par kHostTimeSource 0 = 1 →
    vehValid b 16 8 s.dev.veh.timeCnt = true → s.dev.veh.timeCnt = some ((byteAt b 8 % 16 + 15) % 16) →
    ∀ diff : Int, diff = (leField b 0 8 : Int) + nsTicks (s.dev.par kHostCanTimeDelay 0) - s.dev.veh.timeLatch →
    Runs (.vehTimeFrame b sof) s [.clk, .veh] fun d =>
      d.veh = { s.dev.veh with timeCnt := some (byteAt b 8 % 16), timeLatch := sof } ∧
      (diff.natAbs ≤ 2 → d.clk = { s.dev.clk with slewLeft := 0, slewCount := 0 }) ∧
      (2 < diff.natAbs ∧ diff.natAbs ≤ 100000 → d.clk = { s.dev.clk with slewLeft := diff, slewCount := 0 }) ∧
      (100000 < diff → d.clk = { s.dev.clk with timeBase := s.dev.clk.timeBase + diff.toNat, slewLeft := 0, slewCount := 0 }) ∧
      (diff < -100000 → d.clk = s.dev.clk)) ∧
  (∀ (s : State) (b : List Byte) (sof : Nat), s.dev.par kHostTimeSource 0 ≠ 1 ∨ vehValid b 16 8 s.dev.veh.timeCnt = false →
    exec (.vehTimeFrame b sof) s = .next s)

/-- Loss on the CAN bus (R93, R107, R116): a VEH_BEAM or VEH_MOTION that has not arrived for VEH_TIMEOUT is lost until a valid
frame, raises VEH_TIMEOUT, and where VEH_LOSS_BEAM is 1 a lost VEH_BEAM takes a request above 1 down to 1; before that time, and
for a frame already lost, nothing changes; bus-off is counted, saturating. -/
def Obligations.CanLoss : Prop :=
  (∀ (s : State) (beam motion : Bool), s.dev.canActive = true → ∀ lb lm : Bool,
    lb = (beam && decide (s.dev.veh.beamTime + msTicks (s.dev.par kHostVehTimeout 0) ≤ s.dev.now)) →
    lm = (motion && decide (s.dev.veh.motionTime + msTicks (s.dev.par kHostVehTimeout 0) ≤ s.dev.now)) →
    (lb = true ∧ s.dev.veh.beamLost = false) ∨ (lm = true ∧ s.dev.veh.motionLost = false) →
    Runs (.vehTimeout beam motion) s [.core, .prm, .clk, .sluice, .host, .veh, .req, .links, .cmp, .seq, .cam, .ports, .lamp,
      .gov, .saf, .jnl, .upd] fun d =>
      d.veh = { s.dev.veh with beamLost := s.dev.veh.beamLost || lb, motionLost := s.dev.veh.motionLost || lm } ∧
      (d.req.can = if lb = true ∧ s.dev.veh.beamLost = false ∧ s.dev.par kDevVehLossBeam 0 = 1 ∧ 1 < s.dev.req.can then 1
        else s.dev.req.can) ∧
      (s.dev.core.state = .standby ∧ s.dev.par kDevVehLossBeam 0 ≠ 1 → d.faultActive 0x0304 0 = true)) ∧
  (∀ (s : State) (beam motion : Bool),
    (beam = true → s.dev.veh.beamLost = true ∨ s.dev.now < s.dev.veh.beamTime + msTicks (s.dev.par kHostVehTimeout 0)) →
    (motion = true → s.dev.veh.motionLost = true ∨ s.dev.now < s.dev.veh.motionTime + msTicks (s.dev.par kHostVehTimeout 0)) →
    exec (.vehTimeout beam motion) s = .next s) ∧
  (∀ (s : State), s.dev.Inv → s.dev.canActive = true →
    Becomes .canBusOff s (s.dev.count kHostCanBusOffCount 0 1) fun d =>
      d.par kHostCanBusOffCount 0 = satAdd 65535 (s.dev.par kHostCanBusOffCount 0) 1)

/-- The slot timeline (R213, R214, R228, R320): at B_e the next entry begins and its load on a READY projecting side starts; the
hand-off gives each side the word of the entry it is for, unless it comes after that entry's S_e (R320); at S_e the entry is
displayed. -/
def Obligations.SlotTimeline : Prop :=
  (∀ (s : State) (e : Nat), s.dev.timelineRuns = true → s.dev.nextEntry = some e →
    ∀ (l r : List Nat) (m : List (Side × Nat)) (bad : Bool),
    Runs (.slotBoundary l r m bad) s [.prm, .sluice, .host, .links, .seq, .ports, .sht, .lamp, .gov, .saf, .jnl] fun d =>
      d.seq.entry = e ∧ d.seq.resetDue = true ∧ d.seq.boundaryOpen = false ∧ d.seq.displayed = s.dev.seq.displayed) ∧
  (∀ (s : State), s.dev.timelineRuns = true → s.dev.nextEntry = none →
    ∀ (l r : List Nat) (m : List (Side × Nat)) (bad : Bool), exec (.slotBoundary l r m bad) s = .next s) ∧
  (∀ (s : State), s.dev.timelineRuns = true → s.dev.lateWord = true → exec .lookaheadHandoff s = .next s) ∧
  (∀ (s : State), s.dev.timelineRuns = true → s.dev.lateWord = false →
    Runs .lookaheadHandoff s [.seq] fun d => ∀ k ∈ s.dev.sides,
      (d.seq.words.get k).getLast? =
        some (s.dev.wordFor k s.dev.handEntry (s.dev.handEntry == 0 && !(s.dev.seq.boundaryOpen && s.dev.seq.started))) ∧
      ∀ w ∈ s.dev.seq.words.get k, w.entry ≠ s.dev.handEntry → w ∈ d.seq.words.get k) ∧
  (∀ (s : State), s.dev.timelineRuns = true → s.dev.seq.resetDue = true →
    Runs .resetInstant s [.prm, .sluice, .host, .links, .seq, .ports, .lamp, .gov, .saf, .jnl, .cal] fun d =>
      d.seq.displayed = s.dev.seq.entry ∧ d.seq.entry = s.dev.seq.entry ∧ d.seq.resetDue = false ∧ d.gov.sinceReset = 0) ∧
  (∀ (s : State), s.dev.seq.resetDue = false → exec .resetInstant s = .next s)

/-- The refresh boundary (R22, R119, R230), where no mode change is under way: the refresh counts, but for the first; the place
in the cycle and in the compose frame moves on, modulo their lengths; the dither phase follows; a recorded mask applies. Stated
for BEAM and DEGRADED with no ramp down. -/
def Obligations.RefreshBoundary : Prop :=
  (∀ (s : State), s.dev.timelineRuns = true → s.dev.core.state = .beam ∨ s.dev.core.state = .degraded →
    s.dev.core.rampingDown = false → s.dev.seq.change = .none_ →
    Runs .refreshBoundary s [.core, .prm, .clk, .sluice, .host, .req, .links, .cmp, .seq, .cam, .ports, .sht, .lamp, .gov,
      .aux, .saf, .jnl, .nor, .upd, .cal, .free] fun d =>
      d.seq.started = true ∧
      (s.dev.seq.started = true →
        d.seq.refreshCount = (s.dev.seq.refreshCount + 1) % 0x100000000 ∧
        d.seq.refreshInCycle = (s.dev.seq.refreshInCycle + 1) % s.dev.row.perCycle ∧
        d.seq.refreshInFrame = (s.dev.seq.refreshInFrame + 1) % s.dev.row.perFrame) ∧
      (s.dev.seq.started = false →
        d.seq.refreshCount = s.dev.seq.refreshCount ∧ d.seq.refreshInCycle = 0 ∧ d.seq.refreshInFrame = 0) ∧
      d.seq.dither = d.seq.refreshInCycle % 4 ∧ d.seq.maskInForce = (s.dev.seq.maskRecorded.map fun m => s.dev.maskFor
        s.dev.row m).getD s.dev.seq.maskInForce ∧
      d.seq.maskRecorded = s.dev.seq.maskFresh ∧ d.seq.maskFresh = none ∧
      d.core.state = s.dev.core.state ∧ d.core.mode = s.dev.core.mode) ∧
  (∀ (s : State), s.dev.timelineRuns = false → exec .refreshBoundary s = .next s)

/-- The Governor and the diagnostic pulse (R193, R305, R315, R319, R326): a tick is counted and moves the reset's age on; a slot
that has missed its limit of deadlines, or whose feedback is out of range or frozen, takes its fault and goes to SAFE, the fault
of a side R slot in a single-side mode not being raised (R193); a good pulse is counted and clears the two runs of failures. -/
def Obligations.GovernorTicks : Prop :=
  (∀ (s : State) (x : Samples), s.dev.govRuns = true →
    Runs (.governorTick x) s [.prm, .clk, .sluice, .host, .links, .seq, .ports, .lamp, .gov, .aux, .saf, .jnl, .cal, .free] fun
      d =>
      d.gov.tick = s.dev.gov.tick + 1 ∧ d.gov.refreshDue = false ∧ d.gov.sinceReset = min 0xFFFF (s.dev.gov.sinceReset + 1)) ∧
  (∀ (s : State) (x : Samples), s.dev.govRuns = false → exec (.governorTick x) s = .next s) ∧
  (∀ (s : State) (n : Nat), s.dev.slotPresent n = true → (s.dev.slot n).st = .run →
    s.dev.par kGovMissLimit 0 ≤ (s.dev.slot n).misses →
    Runs (.govDeadline n) s [.prm, .sluice, .host, .links, .seq, .ports, .lamp, .gov, .saf, .jnl] fun d =>
      (s.dev.mutedFault 0x0902 n = false → d.faultActive 0x0902 n = true) ∧
      (s.dev.core.state = .standby ∨ s.dev.mutedFault 0x0902 n = true → d.gov = (s.dev.slotSafe n).gov)) ∧
  (∀ (s : State) (n : Nat), (s.dev.slot n).st ≠ .run ∨ (s.dev.slot n).misses < s.dev.par kGovMissLimit 0 →
    exec (.govDeadline n) s = .next s) ∧
  (∀ (s : State) (n : Nat), s.dev.slotPresent n = true → (s.dev.slot n).st = .run → s.dev.lampDecided n = false →
    4 ≤ (s.dev.slot n).outRange → Runs (.feedbackLost n true) s [.prm, .sluice, .host, .links, .seq, .ports, .lamp, .gov, .saf,
      .jnl] fun d =>
      (s.dev.mutedFault 0x0901 n = false → d.faultActive 0x0901 n = true) ∧
      (s.dev.core.state = .standby ∨ s.dev.mutedFault 0x0901 n = true → d.gov = (s.dev.slotSafe n).gov)) ∧
  (∀ (s : State) (n : Nat), s.dev.slotPresent n = true → (s.dev.slot n).st = .run → s.dev.lampDecided n = false →
    s.dev.frozen n = true → Runs (.feedbackLost n false) s [.prm, .sluice, .host, .links, .seq, .ports, .lamp, .gov, .saf,
      .jnl] fun d =>
      (s.dev.mutedFault 0x0901 n = false → d.faultActive 0x0901 n = true) ∧
      (s.dev.core.state = .standby ∨ s.dev.mutedFault 0x0901 n = true → d.gov = (s.dev.slotSafe n).gov)) ∧
  (∀ (s : State) (opens shorts : List Bool), s.dev.Inv → s.dev.inDiagWindow = true → s.dev.cal.run = none →
    (∀ c ∈ s.dev.pulsed, opens.getD c false = false ∧ shorts.getD c false = false) →
    Runs (.diagPulse opens shorts) s [.prm, .lamp] fun d => ∀ c ∈ s.dev.pulsed,
      (d.chan c).pulseOpen = 0 ∧ (d.chan c).pulseShort = 0 ∧
      d.par kLmpDiagPulses c = satAdd 0xFFFFFFFF (s.dev.par kLmpDiagPulses c) 1)

/-- SAFE_STATE_COMPLETE (R364): once every side that entered safe state is parked, DEV_STATE becomes DEGRADED or SAFE. Until
then, and where no safe state is pending, nothing changes. The SAFE clause is where a SIDE or DEV fault is active, so that SAFE
stays (R363); both are stated for a state with no calibration run under way and no mode bridge. -/
def Obligations.SafeStateCompletes : Prop :=
  (∀ (s : State) (t : DevState) (cause : Nat) (a b), s.dev.saf.safePending = some (t, cause, a, b) → t ≠ .safe → s.dev.cal.run
    = none →
    (∀ k ∈ s.dev.sides, s.dev.saf.safeSides.get k = true → (s.dev.mport k).parkDone s.dev.now = true) →
    Runs .safeStateComplete s [.core, .prm, .clk, .sluice, .host, .req, .links, .cmp, .seq, .cam, .ports, .lamp, .gov, .aux,
      .saf, .jnl, .upd, .cal] fun d =>
      d.core.state = .degraded ∧ d.saf.safePending = none ∧ d.core.beamReady = false) ∧
  (∀ (s : State) (cause : Nat) (a b), s.dev.saf.safePending = some (.safe, cause, a, b) → s.dev.sideOrDevActive = true →
    s.dev.cal.run = none → (∀ m p g x y, s.dev.seq.change ≠ .bridging m p g x y) →
    (∀ k ∈ s.dev.sides, s.dev.saf.safeSides.get k = true → (s.dev.mport k).parkDone s.dev.now = true) →
    Runs .safeStateComplete s [.core, .prm, .clk, .sluice, .host, .req, .links, .cmp, .seq, .cam, .ports, .lamp, .gov, .aux,
      .saf, .jnl, .upd, .cal] fun d =>
      d.core.state = .safe ∧ d.saf.safePending = none ∧ d.core.beamReady = false ∧ d.core.rampingDown = false ∧ d.req.effective
        = 0 ∧
      d.seq.change = .none_) ∧
  (∀ s : State, s.dev.saf.safePending = none ∨
      (∃ k ∈ s.dev.sides, s.dev.saf.safeSides.get k = true ∧ (s.dev.mport k).parkDone s.dev.now = false) →
    exec .safeStateComplete s = .next s)

/-- Link bring-up (R43, R45, R51, Table 2-8): DETECT to LOCK at S1, LOCK to EYE where the ticket is held and to TRAIN on fast
re-entry, EYE to TRAIN with four lanes whose smallest PAM4 eye passes and the ticket; a failed eye test lowers rate and ceiling
by one code each and goes to LOCK, or to DOWN at S1. -/
def Obligations.LinkBringUp : Prop :=
  (∀ (s : State) (l : LinkId), s.dev.linkIds.contains l = true → (s.dev.link l).state = .detect →
    Runs (.detectLosQualified l) s [.prm, .sluice, .host, .links, .seq, .ports, .lamp, .gov, .saf, .jnl] fun d =>
      (d.link l).state = .lock ∧ (d.link l).rate = 1 ∧ (d.link l).purpose = .bringUp ∧ (d.link l).fastReentry = false) ∧
  (∀ (s : State) (l : LinkId), s.dev.linkIds.contains l = true → (s.dev.link l).state = .lock → (s.dev.link l).waitTicket =
    false →
    Runs (.lockAchieved l) s [.prm, .sluice, .host, .links, .lamp] fun d =>
      ((s.dev.link l).fastReentry = true → (d.link l).state = .train ∧ (d.link l).fastReentry = false) ∧
      ((s.dev.link l).fastReentry = false → (s.dev.link l).purpose ≠ .bringUp → (d.link l).state = .eye) ∧
      ((s.dev.link l).fastReentry = false → (s.dev.link l).purpose = .bringUp →
        (d.link l).state = if d.ticketHeld (.link l) then .eye else .lock)) ∧
  (∀ (s : State) (l : LinkId), s.dev.linkIds.contains l = true → (s.dev.link l).state = .lock → (s.dev.link l).waitTicket =
    false →
    Runs (.lockTimeout l) s [.prm, .sluice, .host, .links, .cmp, .seq, .ports, .lamp, .gov, .saf, .jnl, .free] fun d =>
      (d.link l).state = .detect ∧ (d.link l).map = [0, 1, 2, 3] ∧ (d.link l).spare = some 4) ∧
  (∀ (s : State) (l : LinkId) (pam : List PamEyes) (eyes : List Eye), s.dev.linkIds.contains l = true → (s.dev.link l).state =
    .eye →
    eyes = pam.map smallestEye →
    Runs (.eyeTestComplete l pam) s [.prm, .sluice, .host, .links, .seq, .ports, .lamp, .gov, .saf, .jnl, .free] fun d =>
      (4 ≤ s.dev.lanesPassing l eyes true → s.dev.eyeTicket l = true → (d.link l).state = .train) ∧
      (4 ≤ s.dev.lanesPassing l eyes true → s.dev.eyeTicket l = false → (d.link l).state = .eye) ∧
      (s.dev.lanesPassing l eyes true < 4 → 1 < (s.dev.link l).rate → (d.link l).state = .lock ∧
        (d.link l).rate = (s.dev.link l).rate - 1 ∧ (d.link l).cap = max 1 (s.dev.ceiling l - 1)) ∧
      (s.dev.lanesPassing l eyes true < 4 → (s.dev.link l).rate ≤ 1 → (d.link l).state = .down)) ∧
  (∀ (s : State) (l : LinkId), s.dev.linkIds.contains l = true → (s.dev.link l).state = .step →
    Runs (.stepTimeout l) s [.links] fun d => (d.link l).state = .lock ∧ (d.link l).rate = (s.dev.link l).stepTarget) ∧
  (∀ (s : State) (l : LinkId), s.dev.linkIds.contains l = true → (s.dev.link l).state = .down →
    Runs (.downTimeout l) s [.prm, .sluice, .host, .links, .cmp, .seq, .ports, .lamp, .gov, .saf, .jnl, .free] fun d =>
      (d.link l).state = .detect ∧ (d.link l).map = [0, 1, 2, 3] ∧ (d.link l).spare = some 4) ∧
  (∀ (s : State) (l : LinkId), s.dev.linkIds.contains l = true → (s.dev.link l).waitTicket = true → s.dev.ticketHeld (.link l)
    = true →
    Runs (.linkTicketGranted l) s [.prm, .sluice, .host, .links, .seq, .ports, .lamp, .gov, .saf, .jnl, .cal] fun d =>
      ((s.dev.link l).state = .lock → (d.link l).state = .eye) ∧
      ((s.dev.link l).state = .l0 → s.dev.stepsAllowed = true → (s.dev.link l).rate < s.dev.ceiling l →
        (d.link l).state = .step ∧ (d.link l).stepTarget = (s.dev.link l).rate + 1) ∧
      ((s.dev.link l).state = .l0 → s.dev.stepsAllowed = true → s.dev.ceiling l < (s.dev.link l).rate →
        (d.link l).state = .step ∧ (d.link l).stepTarget = s.dev.ceiling l)) ∧
  (∀ (s : State) (l : LinkId), s.dev.linkIds.contains l = true → (s.dev.link l).waitTicket = true → s.dev.ticketHeld (.link l)
    = false →
    s.dev.ticketQueued (.link l) = false → (s.dev.link l).state = .lock →
    Runs (.linkTicketRetry l) s [.prm, .sluice, .host, .links, .lamp] fun d =>
      (d.link l).state = if d.ticketHeld (.link l) then .eye else .lock)

/-- TRAIN (R31, R49, R50, R51): a TS1 with another lane's number fails its lane; polarity, the ECU's rates and coefficients are
taken; each preset follows the last in turn; a request without an answer goes out three times, then its lane fails; agreeing TS2
bring L0, while TRAIN goes on with fewer than four passing lanes; a failed TRAIN lowers rate and ceiling. L0 is stated where no
replay waits. -/
def Obligations.LinkTraining : Prop :=
  (∀ (s : State) (l : LinkId) (phys : Nat) (ts : TrainingSet), s.dev.linkIds.contains l = true → (s.dev.link l).state = .train →
    phys < 5 → (s.dev.link l).failed.getD phys false = false → ts.lane ≠ phys →
    exec (.ts1Received l phys ts) s = .next { s with dev := (s.dev.modLink l fun k => k.dropLane phys).syncBts l }) ∧
  (∀ (s : State) (l : LinkId) (phys : Nat) (ts : TrainingSet), s.dev.Inv → s.dev.linkIds.contains l = true →
    (s.dev.link l).state = .train → phys < 5 → (s.dev.link l).failed.getD phys false = false → ts.lane = phys →
    (s.dev.link l).tapReqs.getD phys none = none →
    Runs (.ts1Received l phys ts) s [.prm, .links] fun d =>
      d.link l = { s.dev.link l with ecuRates := ts.rates % 16, inverted := (s.dev.link l).inverted.set phys ts.inverted } ∧
      d.par (lkey kLnkTxCoeff l) phys = ts.pre % 8 + 16 * (ts.post % 16) + 256 * (ts.presetUsed % 8)) ∧
  (∀ (s : State) (l : LinkId) (phys : Nat) (ts : TrainingSet) (r : TapReq), s.dev.linkIds.contains l = true →
    (s.dev.link l).state = .train → phys < 5 → (s.dev.link l).failed.getD phys false = false → ts.lane = phys →
    (s.dev.link l).tapReqs.getD phys none = some r → r.matched = false → ts.ackSeq = r.seq → r.count < 8 →
    s.dev.par (lkey kLnkEqMode l) 0 ≠ 1 →
    Runs (.ts1Received l phys ts) s [.prm, .links] fun d =>
      d.link l = ({ s.dev.link l with
        ecuRates := ts.rates % 16, inverted := (s.dev.link l).inverted.set phys ts.inverted } : Link).sendTap phys
        (presetWord r.count phys ((r.seq + 1) % 16)) ((r.seq + 1) % 16) 1 (r.count + 1)) ∧
  (∀ (s : State) (l : LinkId) (phys : Nat) (r : TapReq), s.dev.linkIds.contains l = true → (s.dev.link l).state = .train →
    (s.dev.link l).tapReqs.getD phys none = some r → r.matched = false →
    exec (.tapreqAckTimeout l phys) s = .next { s with
      dev := if r.sends < 3 then s.dev.modLink l fun k => k.sendTap phys r.word.toNat r.seq (r.sends + 1) r.count
        else (s.dev.modLink l fun k => { k.dropLane phys with tapReqs := k.tapReqs.set phys none }).syncBts l }) ∧
  (∀ (s : State) (l : LinkId) (eyes : List Eye) (ts2 : List TrainingSet), s.dev.linkIds.contains l = true →
    (s.dev.link l).state = .train → (∀ i < 5, s.dev.eyePasses l (eyeOf eyes i) false = true) →
    4 ≤ s.dev.lanesPassing l eyes false → ts2Agree (s.dev.link l).map ts2 = true → (s.dev.link l).replayHeld = false →
    Runs (.ts2Agreed l eyes ts2) s [.prm, .sluice, .host, .links, .lamp, .saf, .free] fun d =>
      (d.link l).state = .l0 ∧ (d.link l).prevL0Rate = (s.dev.link l).rate ∧ (d.link l).rate = (s.dev.link l).rate ∧
      (d.link l).upSinceDetect = true) ∧
  (∀ (s : State) (l : LinkId) (eyes : List Eye) (ts2 : List TrainingSet), s.dev.linkIds.contains l = true →
    (s.dev.link l).state = .train → s.dev.lanesPassing l eyes false < 4 →
    Runs (.ts2Agreed l eyes ts2) s [.prm, .sluice, .host, .links, .lamp, .saf, .free] fun d => (d.link l).state = .train ∧
      (d.link l).map = (s.dev.link l).map) ∧
  (∀ (s : State) (l : LinkId) (eyes : List Eye) (ts2 : List TrainingSet), (s.dev.link l).state ≠ .train →
    exec (.ts2Agreed l eyes ts2) s = .next s) ∧
  (∀ (s : State) (l : LinkId), s.dev.linkIds.contains l = true → (s.dev.link l).state = .train →
    Runs (.trainTimeout l) s [.prm, .sluice, .host, .links, .seq, .ports, .lamp, .gov, .saf, .jnl, .free] fun d =>
      (1 < (s.dev.link l).rate → (d.link l).state = .lock ∧
        (d.link l).rate = (s.dev.link l).rate - 1 ∧ (d.link l).cap = max 1 (s.dev.ceiling l - 1)) ∧
      ((s.dev.link l).rate ≤ 1 → (d.link l).state = .down))

/-- Recovery (R43, R55, Table 2-14): a loss of the clock or of deskew enters it; re-lock, PAM4 phase and retrain follow each
other; a good retrain with four healthy lanes ends in L0 (stated where no replay waits); a failed one repeats up to
RECOVERY_RETRY, then LOCK one code lower, or DOWN at S1. -/
def Obligations.LinkRecovery : Prop :=
  (∀ (s : State) (l : LinkId), s.dev.linkIds.contains l = true → (s.dev.link l).state = .l0 ∨ (s.dev.link l).state = .l1 →
    Runs (.clockLaneLoss l) s [.prm, .sluice, .host, .links, .seq, .ports, .lamp, .gov, .saf, .jnl, .cal, .free] fun d =>
      (d.link l).state = .recovery ∧ (d.link l).recPhase = .relock ∧ (d.link l).retrains = 0 ∧ (d.link l).fastReentry = false) ∧
  (∀ (s : State) (l : LinkId), s.dev.linkIds.contains l = true → (s.dev.link l).state = .recovery →
    Runs (.clockLaneLoss l) s [.links] fun d =>
      (d.link l).state = .recovery ∧ (d.link l).recPhase = .relock ∧ (d.link l).retrains = (s.dev.link l).retrains ∧
      (d.link l).bts.pamReq = 0) ∧
  (∀ (s : State) (l : LinkId), s.dev.linkIds.contains l = true → (s.dev.link l).state = .l0 →
    Runs (.deskewLoss l) s [.prm, .sluice, .host, .links, .seq, .ports, .lamp, .gov, .saf, .jnl, .cal, .free] fun d => (d.link
      l).state = .recovery ∧ (d.link l).recPhase = .relock) ∧
  (∀ (s : State) (l : LinkId), s.dev.linkIds.contains l = true → (s.dev.link l).state = .recovery → (s.dev.link l).recPhase =
    .relock →
    Runs (.recoveryRelock l) s [.prm, .sluice, .host, .links, .lamp, .free] fun d =>
      (d.link l).state = .recovery ∧ (d.link l).recPhase = .pam4 ∧ (d.link l).bts.pamReq = 2 ∧ (d.link l).receives = true) ∧
  (∀ (s : State) (l : LinkId) (eyes : List PamEyes), s.dev.linkIds.contains l = true → (s.dev.link l).state = .recovery →
    (s.dev.link l).recPhase = .pam4 →
    Runs (.recoveryEyeDone l eyes) s [.prm, .links] fun d =>
      (d.link l).state = .recovery ∧ (d.link l).recPhase = .retrain ∧ (d.link l).bts.pamReq = 0 ∧ (d.link l).receives = false) ∧
  (∀ (s : State) (l : LinkId) (ok : Bool), s.dev.linkIds.contains l = true → (s.dev.link l).state = .recovery →
    (s.dev.link l).recPhase = .retrain →
    Runs (.recoveryRetrainDone l ok) s [.prm, .sluice, .host, .links, .seq, .ports, .lamp, .gov, .saf, .jnl, .free] fun d =>
      (ok = true ∧ 4 ≤ (s.dev.link l).healthy → (s.dev.link l).replayHeld = false → (d.link l).state = .l0) ∧
      (ok = false ∨ (s.dev.link l).healthy < 4 →
        ((s.dev.link l).retrains + 1 < s.dev.par (lkey kLnkRecoveryRetry l) 0 →
          (d.link l).state = .recovery ∧ (d.link l).recPhase = .pam4 ∧ (d.link l).retrains = (s.dev.link l).retrains + 1) ∧
        (s.dev.par (lkey kLnkRecoveryRetry l) 0 ≤ (s.dev.link l).retrains + 1 → 1 < (s.dev.link l).rate →
          (d.link l).state = .lock ∧ (d.link l).rate = (s.dev.link l).rate - 1 ∧ (d.link l).purpose = .recoveryDrop) ∧
        (s.dev.par (lkey kLnkRecoveryRetry l) 0 ≤ (s.dev.link l).retrains + 1 → (s.dev.link l).rate ≤ 1 →
          (d.link l).state = .down))) ∧
  (∀ (s : State) (l : LinkId), s.dev.linkIds.contains l = true → (s.dev.link l).state = .recovery → (s.dev.link l).recPhase =
    .relock →
    Runs (.recoveryTimeout l) s [.prm, .sluice, .host, .links, .cmp, .seq, .ports, .lamp, .gov, .saf, .jnl, .free] fun d =>
      (d.link l).state = .detect)

/-- Lane faults and the spare (R52, R53): a hard fault is counted once until both detectors have cleared, soft faults are
counted; in L0 the spare takes over: SHADOW, acknowledgement, two checked intervals, then the move, with MAPSEQ one more;
without a spare the link recovers, with SPARE_EXHAUSTED. Stated with no calibration run under way. -/
def Obligations.LaneFaults : Prop :=
  (∀ (s : State) (l : LinkId) (phys : Nat) (los lol : Bool), s.dev.linkIds.contains l = true → s.dev.cal.run = none →
    (s.dev.link l).dataReceivers = true → (s.dev.link l).state ≠ .l0 → phys < 5 → (los || lol) = true →
    exec (.hardLaneFault l phys los lol) s = .next { s with
      dev := if (s.dev.link l).faulted.getD phys false then s.dev
        else (s.dev.count (lkey (if los then kLnkLosCount else kLnkLolCount) l) phys 1).modLink l fun k =>
          { k with faulted := k.faulted.set phys true } }) ∧
  (∀ (s : State) (l : LinkId) (phys : Nat), s.dev.linkIds.contains l = true → (s.dev.link l).dataReceivers = true → phys < 5 →
    exec (.hardLaneFault l phys false false) s = .next { s with
      dev := s.dev.modLink l fun k => { k with faulted := k.faulted.set phys false } }) ∧
  (∀ (s : State) (l : LinkId) (phys rise : Nat), s.dev.linkIds.contains l = true → (s.dev.link l).dataReceivers = true → phys <
    5 →
    rise ≤ s.dev.par (lkey kLnkLaneErrLimit l) 0 →
    exec (.softLaneFault l phys rise) s = .next { s with dev := s.dev.count (lkey kLnkCodeErr l) phys rise }) ∧
  (∀ (s : State) (l : LinkId) (phys logical sp : Nat) (los lol : Bool) (rise : Nat), s.dev.linkIds.contains l = true →
    s.dev.cal.run = none →
    (s.dev.link l).state = .l0 → phys < 5 → (s.dev.link l).failed.getD phys false = false → (s.dev.link l).spare = some sp → sp
      ≠ phys →
    (s.dev.link l).map.findIdx? (· == phys) = some logical → (s.dev.link l).spareUse = .idle → (los || lol) = true →
    (s.dev.link l).faulted.getD phys false = false → s.dev.par (lkey kLnkLaneErrLimit l) 0 < rise →
    Runs (.hardLaneFault l phys los lol) s [.prm, .links] (fun d => (d.link l).spareUse = .takeover logical false 0 ∧
      (d.link l).state = .l0 ∧ (d.link l).bts.shadow = logical ∧ (d.link l).bts.shadowValid = true) ∧
    Runs (.softLaneFault l phys rise) s [.prm, .links] (fun d => (d.link l).spareUse = .takeover logical false 0 ∧
      (d.link l).state = .l0 ∧ (d.link l).bts.shadow = logical ∧ (d.link l).bts.shadowValid = true)) ∧
  (∀ (s : State) (l : LinkId) (phys : Nat) (los lol : Bool), s.dev.linkIds.contains l = true → s.dev.cal.run = none →
    (s.dev.link l).state = .l0 → phys < 5 → (s.dev.link l).failed.getD phys false = false → (s.dev.link l).spare = none →
    (s.dev.link l).map.contains phys = true → (los || lol) = true → (s.dev.link l).faulted.getD phys false = false →
    Runs (.hardLaneFault l phys los lol) s [.prm, .sluice, .host, .links, .seq, .ports, .lamp, .gov, .saf, .jnl, .cal, .free]
      fun d => (d.link l).state = .recovery ∧ d.faultActive (l.ev 0x07) 0 = true) ∧
  (∀ (s : State) (l : LinkId) (ack seq n lg : Nat) (valid agrees acked : Bool), s.dev.linkIds.contains l = true → s.dev.cal.run
    = none → s.dev.cal.interp = [] →
    (s.dev.link l).state = .l0 → (s.dev.link l).spareUse = .takeover lg acked n → acked = false ∨ n < 2 →
    Runs (.dskReceived l ack valid seq agrees) s [.links, .free] fun d =>
      d.link l = { s.dev.link l with
        dfe := (d.link l).dfe
        spareUse := if acked then .takeover lg true (if agrees then n + 1 else 0)
          else if valid && ack == lg then .takeover lg true 0 else .takeover lg acked n } ∧
      (s.dev.par (lkey kLnkDfeAdapt l) 0 ≠ 1 → (d.link l).dfe = (s.dev.link l).dfe)) ∧
  (∀ (s : State) (l : LinkId) (ack seq n lg sp : Nat) (valid agrees : Bool), s.dev.linkIds.contains l = true → s.dev.cal.run =
    none → s.dev.cal.interp = [] →
    (s.dev.link l).state = .l0 → (s.dev.link l).spareUse = .takeover lg true n → 2 ≤ n → (s.dev.link l).spare = some sp →
    Runs (.dskReceived l ack valid seq agrees) s [.prm, .host, .links, .free] fun d =>
      (d.link l).map = (s.dev.link l).map.set lg sp ∧ (d.link l).spare = none ∧ (d.link l).spareUse = .idle ∧
      (d.link l).failed = (s.dev.link l).failed.set ((s.dev.link l).map.getD lg 0) true ∧
      (d.link l).bts.mapseq = ((s.dev.link l).bts.mapseq + 1) % 16)

/-- Power states and BTS (R37, R56): EIOS of type L1 or L2 takes the link from L0 there, and only L2 stops the back lane; L1
exits to L0, L2 to LOCK at its rate with the fast re-entry flag, but not in HOLDUP. A BTS goes out where the back lane runs. -/
def Obligations.LinkPowerStates : Prop :=
  (∀ (s : State) (l : LinkId), s.dev.linkIds.contains l = true → (s.dev.link l).state = .l0 →
    Runs (.eiosL1 l) s [.prm, .sluice, .host, .links, .seq, .ports, .lamp, .gov, .saf, .jnl, .cal, .free] fun d => (d.link
      l).state = .l1 ∧ (d.link l).backLaneOn = (s.dev.link l).backLaneOn ∧
      (d.link l).rate = (s.dev.link l).rate) ∧
  (∀ (s : State) (l : LinkId), s.dev.linkIds.contains l = true → (s.dev.link l).state = .l0 →
    Runs (.eiosL2 l) s [.prm, .sluice, .host, .links, .seq, .ports, .lamp, .gov, .saf, .jnl, .cal, .free] fun d => (d.link
      l).state = .l2 ∧ (d.link l).backLaneOn = false ∧
      (d.link l).rate = (s.dev.link l).rate) ∧
  (∀ (s : State) (l : LinkId), s.dev.linkIds.contains l = true → (s.dev.link l).state = .l1 →
    Runs (.l1Exit l) s [.prm, .sluice, .host, .links, .lamp, .saf, .free] fun d => (d.link l).state = .l0 ∧ (d.link l).rate =
      (s.dev.link l).rate) ∧
  (∀ (s : State) (l : LinkId), s.dev.linkIds.contains l = true → (s.dev.link l).state = .l2 → s.dev.core.state ≠ .holdup →
    Runs (.l2Exit l) s [.prm, .host, .links, .free] fun d => (d.link l).state = .lock ∧ (d.link l).rate = (s.dev.link l).rate ∧
      (d.link l).fastReentry = true ∧ (d.link l).backLaneOn = true) ∧
  (∀ (s : State) (l : LinkId), s.dev.core.state = .holdup → exec (.l2Exit l) s = .next s) ∧
  (∀ (s : State) (l : LinkId), s.dev.linkIds.contains l = true → (s.dev.link l).backLaneOn = true →
    exec (.btsSend l) s = .next { s with dev := s.dev.modLink l fun k => { k with btsSent := k.bts :: k.btsSent } })

/-- HCRC (R61): CRC-16 that takes each byte from its most significant bit, the polynomial 0x1021, from 0xFFFF, with no final
XOR; the check value over "123456789" is 0x29B1. -/
def Obligations.HeaderCrc : Prop :=
  crc16 [] = 0xFFFF ∧
  (∀ (bs : List Byte) (b : Byte), crc16 (bs ++ [b]) =
    ([7, 6, 5, 4, 3, 2, 1, 0] : List Nat).foldl
      (fun (c : BitVec 16) i => (c <<< 1) ^^^ (if (c.getLsbD 15 != b.getLsbD i) = true then 0x1021#16 else 0#16)) (crc16 bs)) ∧
  crc16 [0x31, 0x32, 0x33, 0x34, 0x35, 0x36, 0x37, 0x38, 0x39] = 0x29B1

/-- The mask gate (R224): each pixel's gate compares its Bayer threshold, at a place that rotates with entry and phase, with the
level of the mask sample above it; exactly n of the 16 pixels of a sample are on, none for mask value 0 and all for 15, and a
gate does not fall as m rises. Where no mask is in force n is 16. Word errors of the mask buffer (R234) are left out. -/
def Obligations.MaskGate : Prop :=
  (∀ (d : Dev) (s e x y : Nat) (m : BitVec 4), (d.seq.masks.get s).badWords = [] →
    (d.seq.masks.get s).front[y / 4 * (d.row.sideW / 4) + x / 4]? = some m →
    let n := if d.maskOn s then (16 * m.toNat + 7) / 15 else 16
    let o := (5 * e + 7 * d.seq.dither) % 16
    let u := (x + o) % 4
    let v := (y + o / 4) % 4
    d.gate s e x y =
      decide ((([[0, 8, 2, 10], [12, 4, 14, 6], [3, 11, 1, 9], [15, 7, 13, 5]] : List (List Nat)).getD v []).getD u 0 < n)) ∧
  (∀ (d : Dev) (s e x y : Nat), d.maskOn s = false → d.gate s e x y = true) ∧
  (∀ (d : Dev) (s : Nat), d.req.inForce ≠ 3 ∨ isTestMode d.core.mode = true ∨
    (∃ m p t g b, d.seq.change = .bridging m p t g b) ∨ (d.seq.masks.get s).front = [] → d.maskOn s = false) ∧
  (∀ e p mx my m : Nat, m ≤ 15 →
    ((List.range 16).filter fun i => gateOf e p (4 * mx + i % 4) (4 * my + i / 4) (gateLevel m)).length = (16 * m + 7) / 15) ∧
  (∀ e p x y : Nat, gateOf e p x y (gateLevel 0) = false ∧ gateOf e p x y (gateLevel 15) = true) ∧
  (∀ e p x y m k : Nat, m ≤ k → gateOf e p x y (gateLevel m) = true → gateOf e p x y (gateLevel k) = true)

/-- The monotonic counter (R431): at the confirmation an image's SVN above the counter becomes the counter, with
ROLLBACK_ADVANCED posted last; any other SVN leaves it; and no command lowers it. -/
def Obligations.RollbackCounter : Prop :=
  (∀ d : Dev, d.core.trialRun = true → d.aon.otpRollback < d.core.imageSvn →
    d.confirmImage.aon = { d.aon with otpRollback := d.core.imageSvn } ∧
    ∃ e : Dev, d.confirmImage = e.post 0x1102 (d.core.imageSvn + 256 * d.aon.otpRollback)) ∧
  (∀ d : Dev, d.core.imageSvn ≤ d.aon.otpRollback → d.confirmImage.aon = d.aon) ∧
  (∀ (c : Instr) (s t : State), exec c s = .next t → s.dev.aon.otpRollback ≤ t.dev.aon.otpRollback) ∧
  (∀ s t : State, Sys2Proof.Machine.step s = .next t → s.dev.aon.otpRollback ≤ t.dev.aon.otpRollback)

/-- Reception of forward Husks (R44, R64, R68, Table 3-3): outside L0 and the PAM4 phase a Husk has no effect; the first failed
check discards and counts, with a NAK for check 3 on VC1 and VC2; a duplicate VC1 Husk is acknowledged again, one beyond the
credit is counted, and one ahead brings one NAK. -/
def Obligations.HuskChecks : Prop :=
  (∀ (s : State) (l : LinkId) (h : RxHusk), s.dev.linkIds.contains l = false ∨ (s.dev.link l).receives = false →
    ∀ c ∈ ([.lineHusk l h, .objHusk l h, .mbxHusk l h, .fenceHusk l h, .syncHusk l h, .ackHusk l h, .nakHusk l h] : List Instr),
      exec c s = .next s) ∧
  (∀ (s : State) (l : LinkId) (h : RxHusk), s.dev.linkIds.contains l = true → (s.dev.link l).receives = true →
    h.headerDamaged = true ∨ h.bytes.length < 8 ∨ leField h.bytes 6 2 ≠ (crc16 (h.bytes.take 6)).toNat →
    ∀ c ∈ ([.lineHusk l h, .objHusk l h, .mbxHusk l h, .fenceHusk l h, .syncHusk l h, .ackHusk l h, .nakHusk l h] : List Instr),
      exec c s = .next { s with dev := s.dev.count (lkey kLnkHcrcErr l) 0 1 }) ∧
  (∀ (s : State) (l : LinkId) (h : RxHusk), s.dev.linkIds.contains l = true → (s.dev.link l).receives = true →
    h.headerDamaged = false → 8 ≤ h.bytes.length → leField h.bytes 6 2 = (crc16 (h.bytes.take 6)).toNat →
    forwardVc (huskHdr h.bytes).type ≠ some (huskHdr h.bytes).vc ∨ 4096 < (huskHdr h.bytes).len →
    ∀ c ∈ ([.lineHusk l h, .objHusk l h, .mbxHusk l h, .fenceHusk l h, .syncHusk l h, .ackHusk l h, .nakHusk l h] : List Instr),
      exec c s = .next { s with dev := s.dev.count (lkey kLnkFormatErr l) 0 1 }) ∧
  (∀ (s : State) (l : LinkId) (h : RxHusk), s.dev.linkIds.contains l = true → (s.dev.link l).receives = true →
    h.headerDamaged = false → 8 ≤ h.bytes.length → leField h.bytes 6 2 = (crc16 (h.bytes.take 6)).toNat →
    forwardVc (huskHdr h.bytes).type = some (huskHdr h.bytes).vc → (huskHdr h.bytes).len ≤ 4096 →
    h.bodyDamaged = true ∨ (h.bytes.length = 12 + (huskHdr h.bytes).len ∧
      leField h.bytes (8 + (huskHdr h.bytes).len) 4 ≠ (crc32 (h.bytes.take (8 + (huskHdr h.bytes).len))).toNat) →
    ∀ c ∈ ([.lineHusk l h, .objHusk l h, .mbxHusk l h, .fenceHusk l h, .syncHusk l h, .ackHusk l h, .nakHusk l h] : List Instr),
      exec c s = .next { s with
        dev := (if (huskHdr h.bytes).vc = 1 ∨ (huskHdr h.bytes).vc = 2 then s.dev.sendNak l (huskHdr h.bytes).vc else s.dev).count
          (lkey kLnkDcrcErr l) 0 1 }) ∧
  (∀ (s : State) (l : LinkId) (h : RxHusk) (hd : HuskHdr) (b : Nat), s.dev.linkIds.contains l = true →
    (s.dev.link l).receives = true → s.dev.checkHusk l h = (s.dev, some hd) →
    b = ((s.dev.link l).vc1RxNext + 256 - hd.seq) % 256 → hd.seq ≠ (s.dev.link l).vc1RxNext →
    ∀ c, (c = .mbxHusk l h ∧ hd.type = 3) ∨ (c = .fenceHusk l h ∧ hd.type = 4) ∨ (c = .syncHusk l h ∧ hd.type = 5) →
      exec c s = .next { s with
        dev := if 1 ≤ b ∧ b ≤ 127 then s.dev.sendAck l 1
          else if creditOk (s.dev.link l).rxCredit hd.seq = false then s.dev.count (lkey kLnkVc1CreditViol l) 0 1
          else if (s.dev.link l).nakOutstanding = true then s.dev
          else s.dev.sendNak l 1 })

/-- LINE and OBJ Husks that pass the checks (R71 to R75): a LINE for no declared layer is discarded and counted; FRAME_START of
a newer frame opens it and data lines go into the open frame of the same link; an OBJ that is not newer is counted and
acknowledged, a newer one becomes the last. -/
def Obligations.LayerAndListHusks : Prop :=
  (∀ (s : State) (l : LinkId) (h : RxHusk) (hd : HuskHdr), s.dev.linkIds.contains l = true → (s.dev.link l).receives = true →
    s.dev.checkHusk l h = (s.dev, some hd) → hd.type = 1 →
    bitsOf hd.sub 0 3 = 0 ∨ (s.dev.layer (bitsOf hd.sub 0 3)).st ≠ .declared →
    exec (.lineHusk l h) s = .next { s with dev := s.dev.count (lkey kLnkLineDiscard l) 0 1 }) ∧
  (∀ (s : State) (l : LinkId) (h : RxHusk) (hd : HuskHdr) (n f : Nat), s.dev.linkIds.contains l = true →
    (s.dev.link l).receives = true → s.dev.checkHusk l h = (s.dev, some hd) → hd.type = 1 →
    n = bitsOf hd.sub 0 3 → n ≠ 0 → n < s.dev.cmp.layers.length → (s.dev.layer n).st = .declared → bitsOf hd.sub 4 2 = 1 →
    bitsOf hd.sub 6 2 < (planeSizes (s.dev.layer n).decl.format (s.dev.layer n).decl.srcW (s.dev.layer n).decl.srcH).length →
    8 ≤ hd.payload.length → f = leField hd.payload 0 2 → (s.dev.layer n).frameSt = .idle → (s.dev.layer n).newFrame f = true →
    Runs (.lineHusk l h) s [.prm, .host, .links, .cmp] fun d =>
      (d.layer n).frameSt = .open_ f l ∧ (d.layer n).lastFrame = some f ∧ (d.layer n).linesRx = 0) ∧
  (∀ (s : State) (l : LinkId) (h : RxHusk) (hd : HuskHdr) (n f : Nat), s.dev.linkIds.contains l = true →
    (s.dev.link l).receives = true → s.dev.checkHusk l h = (s.dev, some hd) → hd.type = 1 →
    s.dev.cmp.dramStalled = false ∨ (s.dev.layer n).placement = 0 →
    n = bitsOf hd.sub 0 3 → n ≠ 0 → (s.dev.layer n).st = .declared → bitsOf hd.sub 4 2 = 0 → 8 ≤ hd.payload.length →
    lineFits (s.dev.layer n).decl (bitsOf hd.sub 6 2) (leField hd.payload 2 2) (leField hd.payload 4 2) (leField hd.payload 6 2)
      (hd.payload.drop 8).length = true →
    f = leField hd.payload 0 2 → (s.dev.layer n).frameSt = .open_ f l →
    exec (.lineHusk l h) s = .next { s with
      dev := s.dev.writeLine n (bitsOf hd.sub 6 2) (leField hd.payload 2 2) (leField hd.payload 4 2) (leField hd.payload 6 2)
        (hd.payload.drop 8) }) ∧
  (∀ (s : State) (l : LinkId) (h : RxHusk) (hd : HuskHdr) (last : Nat), s.dev.linkIds.contains l = true →
    (s.dev.link l).receives = true → s.dev.checkHusk l h = (s.dev, some hd) → hd.type = 2 → (s.dev.link l).vc2Last = some last →
    (hd.seq + 256 - last) % 256 = 0 ∨ 127 < (hd.seq + 256 - last) % 256 →
    exec (.objHusk l h) s = .next { s with dev := (s.dev.count (lkey kLnkObjSuperseded l) 0 1).sendAck l 2 }) ∧
  (∀ (s : State) (l : LinkId) (h : RxHusk) (hd : HuskHdr), s.dev.linkIds.contains l = true → (s.dev.link l).receives = true →
    s.dev.checkHusk l h = (s.dev, some hd) → hd.type = 2 →
    (∀ last, (s.dev.link l).vc2Last = some last → 1 ≤ (hd.seq + 256 - last) % 256 ∧ (hd.seq + 256 - last) % 256 ≤ 127) →
    Runs (.objHusk l h) s [.prm, .host, .links, .seq, .sht, .free] fun d => (d.link l).vc2Last = some hd.seq ∧
      (s.dev.core.state = .standby ∧ s.dev.listReason hd.payload = 0 → d.sht.newest.map (·.time) = some (leField hd.payload 0 8)))

/-- VC1 Husks that are accepted (R67, R68, R70, R76, R77, R91): NEXT and the credit move on; a command is queued; a fence for a
frame still to come is bound to its layer; SYNC aligns the time base; ACK and NAK drop what they acknowledge, and a NAK or 50 µs
without progress replays the rest. -/
def Obligations.ControlHusks : Prop :=
  (∀ (s : State) (l : LinkId) (h : RxHusk) (hd : HuskHdr), s.dev.linkIds.contains l = true → (s.dev.link l).receives = true →
    s.dev.checkHusk l h = (s.dev, some hd) → hd.seq = (s.dev.link l).vc1RxNext →
    (hd.type = 3 → Runs (.mbxHusk l h) s [.prm, .host, .links] fun d =>
      (d.link l).vc1RxNext = (hd.seq + 1) % 256 ∧ (d.link l).rxCredit = (hd.seq + 9) % 256 ∧ (d.link l).nakOutstanding = false) ∧
    (hd.type = 4 → Runs (.fenceHusk l h) s [.prm, .host, .links, .cmp] fun d =>
      (d.link l).vc1RxNext = (hd.seq + 1) % 256 ∧ (d.link l).rxCredit = (hd.seq + 9) % 256 ∧ (d.link l).nakOutstanding = false) ∧
    (hd.type = 5 → Runs (.syncHusk l h) s [.prm, .clk, .host, .links, .free] fun d =>
      (d.link l).vc1RxNext = (hd.seq + 1) % 256 ∧ (d.link l).rxCredit = (hd.seq + 9) % 256 ∧ (d.link l).nakOutstanding = false ∧
      ∀ diff : Int, s.dev.syncTaken l hd = true → diff = s.dev.syncDiff l hd h.sohTime →
        (diff.natAbs ≤ 2 → d.clk = { s.dev.clk with slewLeft := 0, slewCount := 0 }) ∧
        (2 < diff.natAbs ∧ diff.natAbs ≤ 100000 → d.clk = { s.dev.clk with slewLeft := diff, slewCount := 0 }) ∧
        (100000 < diff →
          d.clk = { s.dev.clk with timeBase := s.dev.clk.timeBase + diff.toNat, slewLeft := 0, slewCount := 0 }) ∧
        (diff < -100000 → s.dev.core.state ≠ .boot → d.clk = s.dev.clk))) ∧
  (∀ (s : State) (l : LinkId) (h : RxHusk) (hd : HuskHdr) (n f : Nat), s.dev.linkIds.contains l = true →
    (s.dev.link l).receives = true → s.dev.checkHusk l h = (s.dev, some hd) → hd.seq = (s.dev.link l).vc1RxNext → hd.type = 4 →
    8 ≤ hd.payload.length → n = byteAt hd.payload 2 → f = leField hd.payload 4 2 → n < s.dev.cmp.layers.length → 1 ≤ n → n ≤ 7 →
    (s.dev.layer n).frameSt = .idle → (s.dev.layer n).intake = false → (s.dev.layer n).newFrame f = true →
    Runs (.fenceHusk l h) s [.links, .cmp] fun d =>
      (d.layer n).fences = (s.dev.layer n).fences ++ [{ fence := leField hd.payload 0 2, frame := f, atCopy := false }]) ∧
  (∀ (s : State) (l : LinkId) (h : RxHusk) (hd : HuskHdr) (rest : List TxHusk), s.dev.linkIds.contains l = true →
    (s.dev.link l).receives = true → s.dev.checkHusk l h = (s.dev, some hd) → byteAt hd.payload 0 = 1 → 4 ≤ hd.payload.length →
    rest = (s.dev.link l).unacked.filter (fun q => (byteAt hd.payload 1 + 256 - q.seq) % 256 = 0 ∨
      127 < (byteAt hd.payload 1 + 256 - q.seq) % 256) →
    (s.dev.link l).txWaiting = [] → (s.dev.port l.port).events = [] →
    (hd.type = 6 → exec (.ackHusk l h) s = .next { s with
      dev := s.dev.modLink l fun k => { k with
        unacked := rest, vc1Out := k.vc1Out.filter (fun h => rest.any fun q => q.seq == h.seq),
        txCredit := some (byteAt hd.payload 2),
        replays := if rest.length < k.unacked.length then 0 else k.replays } }) ∧
    (hd.type = 7 → rest ≠ [] → rest.length < (s.dev.link l).unacked.length →
      Runs (.nakHusk l h) s [.prm, .links] fun d =>
        (d.link l).unacked = rest.map (fun q => { q with retry := true }) ∧ (d.link l).replays = 1 ∧
        (d.link l).vc1Out = rest.map (fun q => { q with retry := true }))) ∧
  (∀ (s : State) (l : LinkId), s.dev.linkIds.contains l = true → (s.dev.link l).streams = true → (s.dev.link l).unacked ≠ [] →
    (s.dev.link l).receives = true ∨ (s.dev.link l).state = .l1 → s.dev.cal.run = none →
    ((s.dev.link l).replays + 1 < 4 → Runs (.vc1ReplayTimeout l) s [.prm, .links] fun d =>
      (d.link l).unacked = (s.dev.link l).unacked.map (fun q => { q with retry := true }) ∧
      (d.link l).replays = (s.dev.link l).replays + 1 ∧
      (d.link l).vc1Out = (s.dev.link l).unacked.map (fun q => { q with retry := true })) ∧
    (4 ≤ (s.dev.link l).replays + 1 → (s.dev.link l).state = .l0 ∨ (s.dev.link l).state = .l1 →
      Runs (.vc1ReplayTimeout l) s [.prm, .sluice, .host, .links, .seq, .ports, .lamp, .gov, .saf, .jnl, .cal, .free] fun d =>
        (d.link l).state = .recovery))

/-- The camera lock (R205, R206, R207, Table 8-4): an edge below 0.98 P_n is ignored and one above 1.02 P_n becomes the
reference, each with RANGE and its count; a valid pulse becomes the reference, the second in a row starts ACQUIRE, eight within
CAM_LOCK_WIN lock, one beyond four times it unlocks; no pulse in time frees the lock. -/
def Obligations.CameraLock : Prop :=
  (∀ (s : State) (input time boundary : Nat) (falling : Bool), s.dev.camRuns = true → s.dev.par kMstCamSel 0 = input + 1 →
    s.dev.par kMstCamEdge 0 = b2n falling → s.dev.cam.reference = none →
    exec (.cameraEdge input falling time boundary) s = .next { s with
      dev := { s.dev with cam := { s.dev.cam with reference := some time, validRun := 0 } } }) ∧
  (∀ (s : State) (input time boundary r : Nat) (falling : Bool), s.dev.Inv → s.dev.camRuns = true →
    s.dev.par kMstCamSel 0 = input + 1 → s.dev.par kMstCamEdge 0 = b2n falling → s.dev.cam.reference = some r →
    300 * (time - r) < 98 * s.dev.camNominal ∨ 102 * s.dev.camNominal < 300 * (time - r) →
    Runs (.cameraEdge input falling time boundary) s [.prm, .cam] fun d =>
      (d.cam = if 300 * (time - r) < 98 * s.dev.camNominal then s.dev.cam
        else { s.dev.cam with reference := some time, validRun := 0, winRun := 0 }) ∧
      d.par kMstCamFlags 0 = s.dev.par kMstCamFlags 0 ||| 2 ∧
      d.par kMstCamRangeErr 0 = satAdd 0xFFFFFFFF (s.dev.par kMstCamRangeErr 0) 1) ∧
  (∀ (s : State) (input time boundary r : Nat) (falling : Bool), s.dev.camRuns = true → s.dev.par kMstCamSel 0 = input + 1 →
    s.dev.par kMstCamEdge 0 = b2n falling → s.dev.cam.reference = some r → 98 * s.dev.camNominal ≤ 300 * (time - r) →
    300 * (time - r) ≤ 102 * s.dev.camNominal → s.dev.cam.state = 1 →
    Runs (.cameraEdge input falling time boundary) s [.cam] fun d =>
      d.cam.reference = some time ∧ d.cam.validRun = s.dev.cam.validRun + 1 ∧
      d.cam.periods = ((time - r) :: s.dev.cam.periods).take 4 ∧
      d.cam.state = if 1 ≤ s.dev.cam.validRun then 2 else 1) ∧
  (∀ (s : State) (input time boundary r : Nat) (falling : Bool) (e : Int), s.dev.camRuns = true → s.dev.par kMstCamSel 0 =
    input + 1 →
    s.dev.par kMstCamEdge 0 = b2n falling → s.dev.cam.reference = some r → 98 * s.dev.camNominal ≤ 300 * (time - r) →
    300 * (time - r) ≤ 102 * s.dev.camNominal → 2 ≤ s.dev.cam.state → e = s.dev.camError time boundary →
    ∀ run, run = (if e.natAbs ≤ s.dev.par kMstCamLockWin 0 then s.dev.cam.winRun + 1 else 0) →
    Runs (.cameraEdge input falling time boundary) s [.prm, .clk, .host, .links, .cam] fun d =>
      d.cam.reference = some time ∧ d.cam.phaseErr = e ∧ d.clk.phaseTarget = phaseSteps e ∧
      (s.dev.cam.state = 2 → d.cam.state = (if 8 ≤ run then 3 else 2) ∧ d.cam.winRun = run) ∧
      (s.dev.cam.state = 3 → d.cam.state = if 4 * s.dev.par kMstCamLockWin 0 < e.natAbs then 2 else 3)) ∧
  (∀ (s : State) (input time boundary : Nat) (falling : Bool), s.dev.camRuns = false ∨ s.dev.par kMstCamSel 0 ≠ input + 1 ∨
    s.dev.par kMstCamEdge 0 ≠ b2n falling → exec (.cameraEdge input falling time boundary) s = .next s) ∧
  (∀ (s : State), s.dev.camRuns = true → 2 ≤ s.dev.cam.state → s.dev.camSilent = true →
    Runs .camTimeout s [.prm, .clk, .host, .links, .cam] fun d => d.cam = { s.dev.cam with
      state := 1, reference := none, validRun := 0, periods := [], winRun := 0, groupReset := false } ∧
      d.clk = { s.dev.clk with phaseTarget := 0 }) ∧
  (∀ (s : State), s.dev.camRuns = false ∨ s.dev.cam.state < 2 ∨ s.dev.camSilent = false → exec .camTimeout s = .next s)

/-- The Shutter engine in time (R264, R273, Table 11-7): a raster's end makes its sides' back buffers ready under the next
generation; an overdue one is abandoned, with its fault; a list past STALE_MS leads to STALE_HOLD, or to STALE with the stale
raster; the hold ends in STALE. The ready marks are stated for a raster that is no list raster, whose freeze detector (R355) may
react. -/
def Obligations.ShutterTime : Prop :=
  (∀ (s : State) (ticks : Nat) (r : Raster), s.dev.sht.raster = some r → s.dev.sht.pending = none →
    Runs (.rasterEnd ticks) s [.prm, .sluice, .host, .links, .seq, .ports, .sht, .lamp, .gov, .saf, .jnl, .free] fun d =>
      d.sht.raster = none ∧ d.sht.generation = (s.dev.sht.generation + 1) % 65536 ∧ d.sht.state = s.dev.sht.state ∧
      d.sht.newest = s.dev.sht.newest) ∧
  (∀ (s : State) (ticks : Nat) (r : Raster), s.dev.sht.raster = some r → s.dev.sht.pending = none → r.kind ≠ .list →
    Runs (.rasterEnd ticks) s [.prm, .seq, .sht] fun d => ∀ k ∈ r.sides, k < 2 →
      (d.seq.masks.get k).ready = true ∧ (d.seq.masks.get k).genBack = (s.dev.sht.generation + 1) % 65536 ∧
      (d.seq.masks.get k).back = (s.dev.seq.masks.get k).back) ∧
  (∀ (s : State) (ticks : Nat), s.dev.sht.raster = none →
    exec (.rasterEnd ticks) s = .next s ∧ exec .rasterTimeout s = .next s) ∧
  (∀ (s : State) (r : Raster), s.dev.sht.raster = some r → s.dev.now < r.start + usTicks 100 → exec .rasterTimeout s = .next s) ∧
  (∀ (s : State) (r : Raster), s.dev.sht.raster = some r → r.start + usTicks 100 ≤ s.dev.now →
    Runs .rasterTimeout s [.prm, .sluice, .host, .links, .seq, .ports, .sht, .lamp, .gov, .saf, .jnl, .free] fun d =>
      d.faultActive 0x0805 0 = true ∧ d.sht.generation = s.dev.sht.generation ∧
      d.sht.pending = none ∧
      (s.dev.sht.pending = none → d.sht.raster = none) ∧
      (s.dev.sht.pending ≠ none → ∃ q, d.sht.raster = some q ∧ q.kind = .list)) ∧
  (∀ (s : State), s.dev.listsStale = true →
    Runs .listStale s [.prm, .host, .links, .seq, .sht, .free] fun d =>
      (s.dev.par kShtStaleAction 0 = 1 → d.sht.state = .staleHold ∧ d.sht.raster = none ∧
        ∀ k ∈ s.dev.sides, (d.seq.masks.get k).ready = false) ∧
      (s.dev.par kShtStaleAction 0 ≠ 1 → d.sht.state = .stale ∧ ∃ q, d.sht.raster = some q ∧ q.kind = .stale)) ∧
  (∀ (s : State), s.dev.listsStale = false → exec .listStale s = .next s) ∧
  (∀ (s : State), s.dev.sht.state = .staleHold → s.dev.sht.holdFrom + msTicks (s.dev.par kShtStaleHoldMs 0) ≤ s.dev.now →
    Runs .staleHoldExpiry s [.prm, .seq, .sht, .free] fun d => d.sht.state = .stale ∧ ∃ q, d.sht.raster = some q ∧ q.kind =
      .stale) ∧
  (∀ (s : State), s.dev.sht.state ≠ .staleHold ∨ s.dev.now < s.dev.sht.holdFrom + msTicks (s.dev.par kShtStaleHoldMs 0) → exec
    .staleHoldExpiry s = .next s)

/-- Array responses (R242, R245, R250, R252): one that is not whole is dropped; a check value that matches closes its check; a
mismatch or a missing value drives the side to 0 A, counts and raises; LANES counts the differing lanes and a lane at its limit
asks for the free spare; STATUS, ACK and ERROR have their effect. -/
def Obligations.ArrayPortChecks : Prop :=
  (∀ (s : State) (sd : Side) (f : RbFrame), s.dev.sides.contains sd.ix = false ∨ (s.dev.mport sd.ix).pwrEn = false →
    ∀ entry crc crcs status cseq cmd reason payload tap errors,
      ∀ c ∈ ([.busCrcResponse sd entry crc f, .cellCrcResponse sd entry crc f, .lanesResponse sd crcs f, .statusResponse sd
        status f,
        .ackResponse sd cseq cmd f, .errorResponse sd cseq reason f, .identResponse sd payload f,
        .trainResultResponse sd tap errors f] : List Instr), exec c s = .next s) ∧
  (∀ (s : State) (sd : Side) (f : RbFrame),
    (∀ entry crc, rbWhole f 0x01 (leBytes 2 entry ++ leBytes 4 crc.toNat) = false → exec (.busCrcResponse sd entry crc f) s =
      .next s) ∧
    (∀ entry crc, rbWhole f 0x02 (leBytes 2 entry ++ leBytes 4 crc.toNat) = false → exec (.cellCrcResponse sd entry crc f) s =
      .next s) ∧
    (∀ crcs, rbWhole f 0x05 crcs = false → exec (.lanesResponse sd crcs f) s = .next s) ∧
    (∀ status, rbWhole f 0x03 (leBytes 4 status.toNat) = false → exec (.statusResponse sd status f) s = .next s) ∧
    (∀ cseq cmd, rbWhole f 0x07 (leBytes 1 cseq ++ leBytes 1 cmd) = false → exec (.ackResponse sd cseq cmd f) s = .next s) ∧
    (∀ cseq reason, rbWhole f 0x08 (leBytes 1 cseq ++ leBytes 1 reason) = false → exec (.errorResponse sd cseq reason f) s =
      .next s) ∧
    (∀ payload, rbWhole f 0x04 payload = false → exec (.identResponse sd payload f) s = .next s) ∧
    (∀ tap errors, rbWhole f 0x06 (leList 1 errors) = false → exec (.trainResultResponse sd tap errors f) s = .next s)) ∧
  (∀ (s : State) (sd : Side) (entry : Nat) (crc : Word) (f : RbFrame) (l : Loaded), s.dev.Inv → s.dev.sides.contains sd.ix =
    true →
    (s.dev.mport sd.ix).pwrEn = true → rbWhole f 0x01 (leBytes 2 entry ++ leBytes 4 crc.toNat) = true →
    s.dev.awaits sd.ix false = some l → l.entry = entry →
    Runs (.busCrcResponse sd entry crc f) s [.core, .prm, .sluice, .host, .req, .links, .seq, .ports, .lamp, .gov, .saf, .jnl]
      fun d =>
      d.seq.checking.get sd.ix = some { l with bus := some crc, busClosed := true } ∧
      (crc = l.crc → d.gov = s.dev.gov ∧ d.ports = s.dev.ports.mod sd.ix (fun p => { p with rseq := p.rseq.set 0 f.rseq }) ∧
        ((∀ k, s.dev.seq.ended.get k = none) → s.dev.beamReadyNow = false → d.saf = s.dev.saf ∧ d.prm = s.dev.prm)) ∧
      (crc ≠ l.crc → d.gov.zeroNow.get sd.ix = true ∧ (s.dev.mutedFault 0x0702 sd.ix = false → d.faultActive 0x0702 sd.ix =
        true) ∧
        d.par kMptBusCrcErr sd.ix = satAdd 0xFFFFFFFF (s.dev.par kMptBusCrcErr sd.ix) 1 ∧
        ((d.mport sd.ix).state = .ready → (d.mport sd.ix).lanesAsked = true ∧
          (d.mport sd.ix).queue.getLast?.map (·.cmd) = some 0x05))) ∧
  (∀ (s : State) (sd : Side) (entry : Nat) (crc : Word) (f : RbFrame) (l : Loaded), s.dev.Inv → s.dev.sides.contains sd.ix =
    true →
    (s.dev.mport sd.ix).pwrEn = true → rbWhole f 0x02 (leBytes 2 entry ++ leBytes 4 crc.toNat) = true →
    s.dev.awaits sd.ix true = some l → l.entry = entry →
    Runs (.cellCrcResponse sd entry crc f) s [.core, .prm, .sluice, .host, .req, .links, .seq, .ports, .lamp, .gov, .saf, .jnl]
      fun d =>
      d.seq.checking.get sd.ix = some { l with cell := some crc, cellClosed := true } ∧
      (s.dev.seq.ended.get sd.ix = none →
        d.seq.rxAgg.get sd.ix = s.dev.seq.rxAgg.get sd.ix ++ [crc] ∧ d.seq.exAgg.get sd.ix = s.dev.seq.exAgg.get sd.ix ++
          [l.crc]) ∧
      (crc = l.crc → d.gov = s.dev.gov ∧
        ((∀ k, s.dev.seq.ended.get k = none) → s.dev.beamReadyNow = false → d.saf = s.dev.saf ∧ d.prm = s.dev.prm)) ∧
      (crc ≠ l.crc → d.gov.zeroNow.get sd.ix = true ∧ (s.dev.mutedFault 0x0702 sd.ix = false → d.faultActive 0x0702 sd.ix =
        true) ∧
        d.par kMptCellCrcErr sd.ix = satAdd 0xFFFFFFFF (s.dev.par kMptCellCrcErr sd.ix) 1)) ∧
  (∀ (s : State) (sd : Side) (entry : Nat) (crc : Word) (f : RbFrame), s.dev.sides.contains sd.ix = true →
    (s.dev.mport sd.ix).pwrEn = true → (∀ k, s.dev.seq.ended.get k = none) → s.dev.beamReadyNow = false →
    (rbWhole f 0x01 (leBytes 2 entry ++ leBytes 4 crc.toNat) = true →
      s.dev.awaits sd.ix false = none ∨ (∃ l, s.dev.awaits sd.ix false = some l ∧ l.entry ≠ entry) →
      exec (.busCrcResponse sd entry crc f) s = .next { s with
        dev := s.dev.modMport sd.ix fun p => { p with rseq := p.rseq.set 0 f.rseq } }) ∧
    (rbWhole f 0x02 (leBytes 2 entry ++ leBytes 4 crc.toNat) = true →
      s.dev.awaits sd.ix true = none ∨ (∃ l, s.dev.awaits sd.ix true = some l ∧ l.entry ≠ entry) →
      exec (.cellCrcResponse sd entry crc f) s = .next { s with
        dev := s.dev.modMport sd.ix fun p => { p with rseq := p.rseq.set 1 f.rseq } })) ∧
  (∀ (s : State) (sd : Side) (l : Loaded), s.dev.Inv → s.dev.sides.contains sd.ix = true →
    (s.dev.awaits sd.ix false = some l →
      Runs (.busCrcTimeout sd) s [.core, .prm, .sluice, .host, .req, .links, .seq, .ports, .lamp, .gov, .saf, .jnl] fun d =>
        d.seq.checking.get sd.ix = some { l with busClosed := true } ∧ d.gov.zeroNow.get sd.ix = true ∧
        (s.dev.mutedFault 0x0703 sd.ix = false → d.faultActive 0x0703 sd.ix = true) ∧ d.par kMptRbTimeout sd.ix = satAdd
          0xFFFFFFFF (s.dev.par kMptRbTimeout sd.ix) 1) ∧
    (s.dev.awaits sd.ix true = some l →
      Runs (.cellCrcTimeout sd) s [.core, .prm, .sluice, .host, .req, .links, .seq, .ports, .lamp, .gov, .saf, .jnl] fun d =>
        d.seq.checking.get sd.ix = some { l with cell := none, cellClosed := true } ∧ d.gov.zeroNow.get sd.ix = true ∧
        (s.dev.seq.ended.get sd.ix = none →
          d.seq.rxAgg.get sd.ix = s.dev.seq.rxAgg.get sd.ix ++ [0] ∧ d.seq.exAgg.get sd.ix = s.dev.seq.exAgg.get sd.ix ++
            [l.crc]) ∧
        (s.dev.mutedFault 0x0703 sd.ix = false → d.faultActive 0x0703 sd.ix = true) ∧ d.par kMptRbTimeout sd.ix = satAdd
          0xFFFFFFFF (s.dev.par kMptRbTimeout sd.ix) 1) ∧
    ((∀ k, s.dev.seq.ended.get k = none) → s.dev.beamReadyNow = false →
      (s.dev.awaits sd.ix false = none → exec (.busCrcTimeout sd) s = .next s) ∧
      (s.dev.awaits sd.ix true = none → exec (.cellCrcTimeout sd) s = .next s))) ∧
  (∀ (s : State) (sd : Side) (crcs : List Byte) (f : RbFrame) (l : Loaded), s.dev.sides.contains sd.ix = true → s.dev.cal.run =
    none →
    (s.dev.mport sd.ix).pwrEn = true → rbWhole f 0x05 crcs = true → (s.dev.mport sd.ix).lanesAsked = true →
    s.dev.seq.checking.get sd.ix = some l → (s.dev.mport sd.ix).laneErr.length = 33 →
    Runs (.lanesResponse sd crcs f) s [.prm, .sluice, .host, .links, .seq, .ports, .lamp, .gov, .saf, .jnl, .cal] fun d =>
      (d.mport sd.ix).lanesAsked = false ∧
      ∀ j, j < 33 → (d.mport sd.ix).laneErr.getD j 0 = if crcs.getD j 0 = l.lanes.getD j 0
        then (s.dev.mport sd.ix).laneErr.getD j 0 else min 0xFFFF ((s.dev.mport sd.ix).laneErr.getD j 0 + 1)) ∧
  (∀ (s : State) (sd : Side) (crcs : List Byte) (f : RbFrame) (l : Loaded) (j : Nat), s.dev.sides.contains sd.ix = true →
    s.dev.cal.run = none → (s.dev.mport sd.ix).pwrEn = true → rbWhole f 0x05 crcs = true → (s.dev.mport sd.ix).lanesAsked = true →
    s.dev.seq.checking.get sd.ix = some l → j < 32 →
    (∀ i, i < 33 → (crcs.getD i 0 ≠ l.lanes.getD i 0 ↔ i = j)) → (s.dev.mport sd.ix).failedLanes.getLsbD j = false →
    s.dev.par kMptPairErrLimit sd.ix ≤ (((s.dev.mport sd.ix).laneHist.getD j []).filter fun n =>
      decide ((s.dev.mport sd.ix).loadNo < n + 8) && n != (s.dev.mport sd.ix).loadNo).length + 1 →
    (s.dev.mport sd.ix).lane32Failed = false → (s.dev.mport sd.ix).sparePermanent = false →
    (s.dev.mport sd.ix).sparePending = none → (s.dev.mport sd.ix).spareFor ≠ j →
    Runs (.lanesResponse sd crcs f) s [.prm, .host, .links, .ports] fun d =>
      (d.mport sd.ix).failedLanes = (s.dev.mport sd.ix).failedLanes ||| BitVec.ofNat 32 (2 ^ j) ∧
      (d.mport sd.ix).sparePending = some j ∧
      (d.mport sd.ix).queue.getLast?.map (fun f => (f.cmd, f.arg0)) = some (0x06, j)) ∧
  (∀ (s : State) (sd : Side) (crcs : List Byte) (f : RbFrame), s.dev.sides.contains sd.ix = true → s.dev.cal.run = none →
    (s.dev.mport sd.ix).pwrEn = true → rbWhole f 0x05 crcs = true → (s.dev.mport sd.ix).lanesAsked = false →
    exec (.lanesResponse sd crcs f) s = .next { s with
      dev := s.dev.modMport sd.ix fun p => { p with rseq := p.rseq.set 0 f.rseq } }) ∧
  (∀ (s : State) (sd : Side) (status : Word) (f : RbFrame), s.dev.sides.contains sd.ix = true → (s.dev.mport sd.ix).pwrEn = true →
    rbWhole f 0x03 (leBytes 4 status.toNat) = true →
    ((s.dev.mport sd.ix).state ≠ .parking ∨ status.getLsbD 0 = false →
      exec (.statusResponse sd status f) s = .next { s with
        dev := s.dev.modMport sd.ix fun p => { p with rseq := p.rseq.set 0 f.rseq, arrayStatus := status } }) ∧
    ((s.dev.mport sd.ix).state = .parking → status.getLsbD 0 = true → s.dev.cal.run = none → s.dev.cal.interp = [] →
      Runs (.statusResponse sd status f) s [.core, .prm, .clk, .sluice, .host, .req, .links, .cmp, .seq, .cam, .ports, .lamp,
        .gov, .saf, .jnl, .upd, .cal] fun d => (d.mport sd.ix).arrayStatus = status ∧
        (d.mport sd.ix).parkN = false ∧
        (d.mport sd.ix).state = if (s.dev.mport sd.ix).powerDownWanted then .off else .parked)) ∧
  (∀ (s : State) (sd : Side) (cseq cmd : Nat) (f : RbFrame) (q : MFrame), s.dev.sides.contains sd.ix = true →
    (s.dev.mport sd.ix).pwrEn = true → rbWhole f 0x07 (leBytes 1 cseq ++ leBytes 1 cmd) = true →
    ((s.dev.mport sd.ix).sent.find? fun f => f.cseq == cseq && f.cmd == cmd) = some q →
    (cmd = 0x04 → (s.dev.mport sd.ix).state = .unpark →
      exec (.ackResponse sd cseq cmd f) s = .next { s with
        dev := s.dev.modMport sd.ix fun p => { p with rseq := p.rseq.set 0 f.rseq, unparkAcked := true } }) ∧
    (cmd = 0x06 → q.arg0 ≠ 0x3F → (s.dev.mport sd.ix).sparePending = some q.arg0 →
      Runs (.ackResponse sd cseq cmd f) s [.prm, .host, .links, .ports] fun d => (d.mport sd.ix).spareLane = q.arg0 ∧
        (d.mport sd.ix).sparePermanent = true ∧ (d.mport sd.ix).sparePending = none)) ∧
  (∀ (s : State) (sd : Side) (cseq cmd : Nat) (f : RbFrame), s.dev.sides.contains sd.ix = true → (s.dev.mport sd.ix).pwrEn =
    true →
    rbWhole f 0x07 (leBytes 1 cseq ++ leBytes 1 cmd) = true →
    ((s.dev.mport sd.ix).sent.find? fun f => f.cseq == cseq && f.cmd == cmd) = none →
    exec (.ackResponse sd cseq cmd f) s = .next { s with
      dev := s.dev.modMport sd.ix fun p => { p with rseq := p.rseq.set 0 f.rseq } }) ∧
  (∀ (s : State) (sd : Side) (cseq reason : Nat) (f : RbFrame), s.dev.Inv → s.dev.sides.contains sd.ix = true →
    (s.dev.mport sd.ix).pwrEn = true → rbWhole f 0x08 (leBytes 1 cseq ++ leBytes 1 reason) = true →
    Runs (.errorResponse sd cseq reason f) s [.prm, .ports] fun d =>
      d.par kMptCmdErr sd.ix = satAdd 0xFFFFFFFF (s.dev.par kMptCmdErr sd.ix) 1)

/-- Power and identity of a mirror port (R248, R249, R252, R253, R254, R255, Table 10-7): each event moves the port from the
state it belongs to, and has no effect on the port in another; a fault raises its code and counts. The clauses on failures are
stated for a side R that holds no IDENT. -/
def Obligations.ArrayPortPower : Prop :=
  (∀ (s : State) (sd : Side), s.dev.sides.contains sd.ix = true →
    ((s.dev.mport sd.ix).state = .unpark → (s.dev.mport sd.ix).unparkAcked = true →
      Runs (.unparkSettled sd) s [.prm, .sluice, .host, .links, .ports, .lamp] fun d => (d.mport sd.ix).state = .ready ∧
        (d.mport sd.ix).unparkAcked = false) ∧
    ((s.dev.mport sd.ix).state = .parking → (s.dev.mport sd.ix).parkN = false →
      (s.dev.mport sd.ix).parkFell + 2000 ≤ s.dev.now →
      Runs (.parkTimeout sd) s [.core, .prm, .clk, .sluice, .host, .req, .links, .cmp, .seq, .cam, .ports, .lamp, .gov, .saf,
        .jnl, .upd] fun d => (s.dev.mutedFault 0x070A sd.ix = false → d.faultActive 0x070A sd.ix = true) ∧
        (d.mport sd.ix).state = if (s.dev.mport sd.ix).powerDownWanted then .off else .parked) ∧
    ((s.dev.mport sd.ix).state = .off ∨ (s.dev.mport sd.ix).state = .absent → (s.dev.mport sd.ix).pwrEn = true →
      (s.dev.mport sd.ix).pairsOn = false →
      Runs (.powerDownStep sd) s [.core, .prm, .clk, .sluice, .host, .req, .links, .cmp, .seq, .cam, .ports, .lamp, .saf, .upd]
        fun d =>
        d.ports = s.dev.ports.mod sd.ix fun p => { p with pwrEn := false, pwrDwell := true }) ∧
    ((s.dev.mport sd.ix).pwrDwell = true → (s.dev.mport sd.ix).pwrEn = false →
      ((s.dev.mport sd.ix).powerUpWanted = true → (s.dev.mport sd.ix).state = .off →
        Runs (.pwrEnLowDwellExpiry sd) s [.prm, .host, .links, .ports, .saf] fun d => (d.mport sd.ix).state = .power ∧
          (d.mport sd.ix).pwrEn = true ∧ (d.mport sd.ix).parkN = false ∧ (d.mport sd.ix).pairsOn = true ∧
          (d.mport sd.ix).pwrDwell = false ∧ (d.mport sd.ix).failedLanes = 0 ∧ (d.mport sd.ix).spareLane = 0x3F) ∧
      ((s.dev.mport sd.ix).powerUpWanted = false → exec (.pwrEnLowDwellExpiry sd) s = .next { s with
        dev := s.dev.modMport sd.ix fun p => { p with pwrDwell := false } })) ∧
    ((s.dev.mport sd.ix).pwrEn = true → (s.dev.mport sd.ix).state = .power → ∀ rb0 rb1,
      Runs (.arraySupplyGood sd rb0 rb1) s [.prm, .host, .links, .ports, .cal] fun d => (d.mport sd.ix).state = .train ∧
        (d.mport sd.ix).fltN = true ∧ (d.mport sd.ix).sweep = [] ∧ (d.mport sd.ix).queue.getLast?.map (·.cmd) = some 0x07) ∧
    (sd.ix = 1 → (s.dev.mport sd.ix).state = .train → (s.dev.mport sd.ix).sweep = [] → (s.dev.mport sd.ix).firstSweep = [] →
      Runs (.portAbsent sd) s [.core, .prm, .clk, .sluice, .host, .req, .links, .cmp, .seq, .cam, .ports, .lamp, .saf, .upd]
        fun d => (d.mport sd.ix).state = .absent ∧ (d.mport sd.ix).pairsOn = false ∧
        (d.mport sd.ix).parkN = false)) ∧
  (∀ (s : State) (sd : Side),
    ((s.dev.mport sd.ix).state ≠ .unpark ∨ (s.dev.mport sd.ix).unparkAcked = false → exec (.unparkSettled sd) s = .next s) ∧
    ((s.dev.mport sd.ix).state ≠ .parking ∨ (s.dev.mport sd.ix).parkN = true ∨ s.dev.now < (s.dev.mport sd.ix).parkFell + 2000 →
      exec (.parkTimeout sd) s = .next s) ∧
    ((s.dev.mport sd.ix).pwrEn = false ∨ (s.dev.mport sd.ix).pairsOn = true → exec (.powerDownStep sd) s = .next s) ∧
    ((s.dev.mport sd.ix).pwrDwell = false ∨ (s.dev.mport sd.ix).pwrEn = true → exec (.pwrEnLowDwellExpiry sd) s = .next s) ∧
    ((s.dev.mport sd.ix).state ≠ .power → exec (.portPowerTimeout sd) s = .next s) ∧
    ((s.dev.mport sd.ix).state ≠ .train → exec (.portAbsent sd) s = .next s ∧ exec (.portTrainTimeout sd) s = .next s) ∧
    ((s.dev.mport sd.ix).state.beyondPower = false → s.dev.sides.contains sd.ix = true →
      exec (.arrayFlt sd) s = .next { s with dev := s.dev.modMport sd.ix fun p => { p with fltN := false } })) ∧
  (∀ (s : State) (sd : Side), s.dev.Inv → s.dev.sides.contains sd.ix = true → (s.dev.mport 1).heldIdent = none →
    ∀ c code, (c = .arrayFlt sd ∧ code = 0x0707 ∧ (s.dev.mport sd.ix).state.beyondPower = true ∧ s.dev.cal.run = none) ∨
      (c = .portPowerTimeout sd ∧ code = 0x0707 ∧ (s.dev.mport sd.ix).state = .power) ∨
      (c = .portTrainTimeout sd ∧ code = 0x0709 ∧ (s.dev.mport sd.ix).state = .train) ∨
      (c = .identNoResponse sd ∧ code = 0x0703 ∧ (s.dev.mport sd.ix).state = .ident ∧ (s.dev.mport sd.ix).heldIdent = none ∧
        2 ≤ (s.dev.mport sd.ix).identTries) →
    Runs c s [.core, .prm, .clk, .sluice, .host, .req, .links, .cmp, .seq, .cam, .ports, .lamp, .gov, .saf, .jnl, .upd, .cal]
      fun d => (s.dev.mutedFault code sd.ix = false → d.faultActive code sd.ix = true) ∧
      (d.mport sd.ix).state = (if (s.dev.mport sd.ix).powerDownWanted then .off else .fault) ∧ (d.mport sd.ix).parkN = false ∧
      (code = 0x0707 → d.par kMptFltCount sd.ix = satAdd 0xFFFF (s.dev.par kMptFltCount sd.ix) 1) ∧
      (code = 0x0703 → d.par kMptRbTimeout sd.ix = satAdd 0xFFFFFFFF (s.dev.par kMptRbTimeout sd.ix) 1)) ∧
  (∀ (s : State) (sd : Side), s.dev.sides.contains sd.ix = true → (s.dev.mport sd.ix).state = .ident →
    (s.dev.mport sd.ix).heldIdent = none → (s.dev.mport sd.ix).identTries < 2 →
    Runs (.identNoResponse sd) s [.core, .prm, .clk, .sluice, .host, .req, .links, .cmp, .seq, .cam, .ports, .lamp, .gov, .saf,
      .jnl, .upd] fun d => (d.mport sd.ix).state = .ident ∧
      (d.mport sd.ix).identTries = (s.dev.mport sd.ix).identTries + 1 ∧ (d.mport sd.ix).queue.getLast?.map (·.cmd) = some 0x08) ∧
  (∀ (s : State) (sd : Side) (tap : Nat) (errors : List Nat) (f : RbFrame), s.dev.sides.contains sd.ix = true →
    (s.dev.mport sd.ix).pwrEn = true → rbWhole f 0x06 (leList 1 errors) = true →
    ((s.dev.mport sd.ix).state ≠ .ready → (s.dev.mport sd.ix).state ≠ .train ∨ tap ≠ (s.dev.mport sd.ix).sweep.length →
      Runs (.trainResultResponse sd tap errors f) s
        [.core, .prm, .clk, .sluice, .host, .req, .links, .cmp, .seq, .cam, .ports, .lamp, .saf, .upd]
        fun d => d.ports = s.dev.ports.mod sd.ix fun p => { p with rseq := p.rseq.set 1 f.rseq }) ∧
    (∀ k, (s.dev.mport sd.ix).state = .ready → (s.dev.mport sd.ix).covered = some k →
      tap = (s.dev.trialTaps sd.ix k).1 + (s.dev.mport sd.ix).trial.length → tap ≤ (s.dev.trialTaps sd.ix k).2 →
      Runs (.trainResultResponse sd tap errors f) s
        [.core, .prm, .clk, .sluice, .host, .req, .links, .cmp, .seq, .cam, .ports, .lamp, .saf, .upd]
        fun d => d.ports = s.dev.ports.mod sd.ix fun p => { p with
          rseq := p.rseq.set 1 f.rseq, trial := (errors.getD k 255 == 0) :: p.trial }) ∧
    ((s.dev.mport sd.ix).state = .train → tap = (s.dev.mport sd.ix).sweep.length →
      (tap < 127 → Runs (.trainResultResponse sd tap errors f) s
        [.core, .prm, .clk, .sluice, .host, .req, .links, .cmp, .seq, .cam, .ports, .lamp, .saf, .upd] fun d =>
        d.ports = s.dev.ports.mod sd.ix fun p => { p with rseq := p.rseq.set 1 f.rseq, sweep := errors :: p.sweep }) ∧
      (127 ≤ tap → s.dev.core.state = .boot → (s.dev.mport sd.ix).firstSweep = [] →
        Runs (.trainResultResponse sd tap errors f) s
        [.core, .prm, .clk, .sluice, .host, .req, .links, .cmp, .seq, .cam, .ports, .lamp, .saf, .upd] fun d =>
          d.ports = s.dev.ports.mod sd.ix fun p => { p with
            rseq := p.rseq.set 1 f.rseq, firstSweep := sweepRuns (errors :: (s.dev.mport sd.ix).sweep), sweep := [] }) ∧
      (127 ≤ tap → s.dev.core.state ≠ .boot → (s.dev.mport sd.ix).firstSweep = [] → (s.dev.mport 1).heldIdent = none → ∀ bad,
        bad = ((List.range 33).filter fun j =>
          decide (((sweepRuns (errors :: (s.dev.mport sd.ix).sweep)).getD j (0, s.dev.par kMptEyeMin sd.ix)).2 <
            s.dev.par kMptEyeMin sd.ix)) →
        Runs (.trainResultResponse sd tap errors f) s [.core, .prm, .clk, .sluice, .host, .req, .links, .cmp, .seq, .cam,
          .ports, .lamp, .gov, .saf, .jnl, .upd, .cal] fun d =>
          (2 ≤ bad.length → (s.dev.mutedFault 0x0709 sd.ix = false → d.faultActive 0x0709 sd.ix = true) ∧
            (d.mport sd.ix).state = if (s.dev.mport sd.ix).powerDownWanted then .off else .fault) ∧
          (bad.length ≤ 1 → (d.mport sd.ix).state = .ident ∧ (d.mport sd.ix).identTries = 0) ∧
          (bad = [32] → (d.mport sd.ix).lane32Failed = true) ∧
          (∀ j, bad = [j] → j ≠ 32 → (d.mport sd.ix).spareLane = j ∧ (d.mport sd.ix).sparePermanent = true)))) ∧
  (∀ (s : State) (sd : Side) (payload : List Byte) (f : RbFrame), s.dev.sides.contains sd.ix = true →
    (s.dev.mport sd.ix).pwrEn = true → rbWhole f 0x04 payload = true →
    (s.dev.mport sd.ix).state = .ident → (s.dev.mport sd.ix).heldIdent = none → (s.dev.mport 1).heldIdent = none →
    (sd.ix = 1 → (s.dev.mport 0).recordedGeom = none → (s.dev.mport 0).state ≠ .fault →
      Runs (.identResponse sd payload f) s [.core, .prm, .clk, .sluice, .host, .req, .links, .cmp, .seq, .cam, .ports, .lamp,
        .saf, .upd] fun d =>
        d.ports = s.dev.ports.mod 1 fun p => { p with rseq := p.rseq.set 0 f.rseq, heldIdent := some payload }) ∧
    (sd.ix = 0 ∨ (s.dev.mport 0).recordedGeom ≠ none ∨ (s.dev.mport 0).state = .fault →
      Runs (.identResponse sd payload f) s [.core, .prm, .clk, .sluice, .host, .req, .links, .cmp, .seq, .cam, .ports, .lamp,
        .gov, .saf, .jnl, .upd] fun d =>
        (s.dev.identOk sd.ix (byteAt payload 0) = true →
          (d.mport sd.ix).state = (if (s.dev.mport sd.ix).powerDownWanted then .off else .parked) ∧
          (d.mport sd.ix).recordedGeom = some (byteAt payload 0) ∧ (d.mport sd.ix).arrayId = padTo 8 payload) ∧
        (s.dev.identOk sd.ix (byteAt payload 0) = false → (s.dev.mutedFault 0x0708 sd.ix = false → d.faultActive 0x0708 sd.ix =
          true) ∧
          (d.mport sd.ix).state = (if sd.ix = 1 ∨ (s.dev.mport sd.ix).powerDownWanted = true then .off else .fault)))) ∧
  (∀ (s : State), s.dev.core.state = .beam → s.dev.core.releaseStage = releaseTickets → s.dev.ticketHeld .ignition = true →
    s.dev.ticketHeld .globalReset = true → s.dev.frontsReady = true → s.dev.boostsRun = true →
    (∀ k ∈ s.dev.modeSides, (s.dev.mport k).state = .parked) →
    Runs .releaseFromPark s [.core, .prm, .host, .links, .ports, .lamp] fun d => d.core.releaseStage = releaseUnpark ∧ ∀ k ∈
      s.dev.litSides,
      (d.mport k).state = .unpark ∧ (d.mport k).parkN = true ∧ (d.lside k).ignited = true ∧
      (d.mport k).queue.getLast?.map (·.cmd) = some 0x04) ∧
  (∀ (s : State), s.dev.core.state ≠ .beam ∨ s.dev.core.releaseStage ≠ releaseTickets ∨ s.dev.ticketHeld .ignition = false ∨
    s.dev.ticketHeld .globalReset = false → exec .releaseFromPark s = .next s)

/-- Composition events (R20, R145, R153, R160, R161, R162, R163, R169, R188, R393): a compose-frame start exchanges complete
buffers and starts the passes; rows are composed in order, each no earlier than its line slot; a complete pass waits for the
exchange; DRAM stalls end passes that fetch; copies and pattern loads arrive. -/
def Obligations.ComposeEvents : Prop :=
  (∀ (s : State), s.dev.timelineRuns = true → s.dev.seq.frameDue = true → s.dev.composes = true → s.dev.thm.stage ≠ 1 →
    s.dev.thm.stage ≠ 2 →
    s.dev.seq.change = .none_ → s.dev.cmp.dramStalled = false →
    Runs .composeFrameStart s [.prm, .sluice, .host, .req, .links, .cmp, .seq, .ports, .sht, .lamp, .gov, .aux, .saf, .jnl,
      .free] fun d => d.cmp.tableCommit = 0 ∧ d.seq.frameDue = false ∧ ∀ k ∈ s.dev.composeSides,
      (d.pipe k).running = true ∧ (d.pipe k).nextRow = 0 ∧ (d.pipe k).mode = s.dev.core.mode ∧ (d.pipe k).back = [] ∧
      (d.pipe k).backReady = false ∧
      (d.pipe k).front = if (s.dev.pipe k).backReady then (s.dev.pipe k).back else (s.dev.pipe k).front) ∧
  (∀ (s : State), s.dev.timelineRuns = false ∨ s.dev.seq.frameDue = false → exec .composeFrameStart s = .next s) ∧
  (∀ (s : State) (sd : Side) (y : Nat) (dry second : List (Nat × Nat)) (slot line : Nat), s.dev.rowWaits sd.ix = true →
    y = (s.dev.pipe sd.ix).nextRow →
    slot = s.dev.lineSlot sd.ix → line = (s.dev.rowOf (s.dev.pipe sd.ix).mode).lineTicks →
    (if s.dev.inBridge then True
      else if (s.dev.pipe sd.ix).behind then s.dev.ticketHeld (.catchup sd) = true ∨ (s.dev.pipe sd.ix).rowAt + line ≤ s.dev.now
      else slot ≤ s.dev.now) →
    Runs (.composeRowStart sd y dry second) s [.prm, .sluice, .host, .links, .cmp, .lamp] fun d =>
      (d.pipe sd.ix).nextRow = y + 1 ∧ (d.pipe sd.ix).rowAt = s.dev.now ∧
      (∃ row tap, (d.pipe sd.ix).back = (s.dev.pipe sd.ix).back ++ [row] ∧
        (d.pipe sd.ix).backTap = (s.dev.pipe sd.ix).backTap ++ [tap]) ∧
      (d.pipe sd.ix).behind = (if s.dev.inBridge then (s.dev.pipe sd.ix).behind
        else if slot + 8 * line < s.dev.now then true
        else if s.dev.now ≤ slot then false else (s.dev.pipe sd.ix).behind) ∧
      (s.dev.dryOf sd.ix y (s.dev.dryLists dry second) = [] → s.dev.inBridge = true ∨ (slot < s.dev.now ∧ s.dev.now ≤ slot + 8
        * line) →
        d = s.dev.modPipe sd.ix fun p => { p with
          back := p.back ++ [(s.dev.composeRow sd.ix y []).1], rowAt := s.dev.now,
          backTap := p.backTap ++ [(s.dev.composeRow sd.ix y []).2], nextRow := y + 1 })) ∧
  (∀ (s : State) (sd : Side) (y : Nat) (dry second : List (Nat × Nat)),
    s.dev.rowWaits sd.ix = false ∨ y ≠ (s.dev.pipe sd.ix).nextRow ∨ (s.dev.inBridge = false ∧
      (if (s.dev.pipe sd.ix).behind then s.dev.ticketHeld (.catchup sd) = false ∧
        s.dev.now < (s.dev.pipe sd.ix).rowAt + (s.dev.rowOf (s.dev.pipe sd.ix).mode).lineTicks
      else s.dev.now < s.dev.lineSlot sd.ix)) →
    exec (.composeRowStart sd y dry second) s = .next s) ∧
  (∀ (s : State) (sd : Side) (n x : Nat), s.dev.Inv → s.dev.rowWaits sd.ix = true → s.dev.rowMayStart sd = true →
    s.dev.dryOf sd.ix (s.dev.pipe sd.ix).nextRow [(n, x)] = [(n, x)] →
    Runs (.composeRowStart sd (s.dev.pipe sd.ix).nextRow [(n, x)] []) s [.prm, .sluice, .host, .links, .cmp, .lamp] fun d =>
      d.par kCmpUnderrun n = satAdd 0xFFFFFFFF (s.dev.par kCmpUnderrun n) 1 ∧ n ∈ (d.pipe sd.ix).dryLayers) ∧
  (∀ (s : State) (sd : Side), s.dev.sides.contains sd.ix = true → (s.dev.pipe sd.ix).running = true →
    (s.dev.pipe sd.ix).nextRow = (s.dev.rowOf (s.dev.pipe sd.ix).mode).fieldH →
    Runs (.composePassComplete sd) s [.prm, .sluice, .host, .links, .cmp, .seq, .ports, .lamp, .gov, .saf, .jnl] fun d =>
      (d.pipe sd.ix).running = false ∧ (d.pipe sd.ix).behind = false ∧ (d.pipe sd.ix).back = (s.dev.pipe sd.ix).back ∧
      (d.pipe sd.ix).backReady = (!(d.pipe sd.ix).withheld) ∧
      (s.dev.suspended sd.ix = true → (d.pipe sd.ix).withheld = (s.dev.pipe sd.ix).withheld)) ∧
  (∀ (s : State) (sd : Side), (s.dev.pipe sd.ix).running = false → exec (.composePassComplete sd) s = .next s) ∧
  (∀ (s : State), s.dev.canActive = true → Runs .dramStall s [.prm, .sluice, .host, .links, .cmp, .lamp] fun d =>
    d.cmp.dramStalled = true ∧
    d.cmp.dramRetrain = s.dev.cmp.dramRetrain ∧ ∀ k ∈ s.dev.sides, k < 2 → (s.dev.pipe k).running = true →
      s.dev.fetchesDram k = true → (d.pipe k).running = false ∧ (d.pipe k).back = [] ∧ (d.pipe k).backReady = false) ∧
  (∀ (s : State), s.dev.canActive = false → exec .dramStall s = .next s) ∧
  (∀ (s : State), (s.dev.cmp.dramStalled = true → s.dev.relocks = true → s.dev.cmp.dramRetrain = false →
      exec .dramTrafficResume s = .next { s with dev := { s.dev with
        cmp := { s.dev.cmp with dramStalled := false, dramRetrain := false } } }) ∧
    (s.dev.cmp.dramStalled = true → s.dev.relocks = true → (s.dev.pll 1).locked = true → s.dev.ticketHeld .dram = true →
      Runs .dramTrafficResume s [.prm, .sluice, .cmp, .lamp] fun d => d.cmp.dramStalled = false ∧ d.cmp.dramRetrain = false) ∧
    (s.dev.cmp.dramStalled = false ∨ s.dev.relocks = false ∨ (s.dev.cmp.dramRetrain = true ∧ (s.dev.pll 1).locked = false) ∨
      (s.dev.cmp.dramRetrain = true ∧ s.dev.ticketHeld .dram = false) → exec .dramTrafficResume s = .next s)) ∧
  (∀ (s : State) (n i : Nat), s.dev.canActive = true → s.dev.cmp.dramStalled = false → n ≤ 7 → n < s.dev.cmp.layers.length →
    (s.dev.layer n).copying = some i → i < (s.dev.layer n).staging.length →
    Runs (.intakeCopyDone n) s [.prm, .host, .links, .cmp] fun d => (d.layer n).copying = (s.dev.layer n).awaiting ∧
      (d.layer n).awaiting = none ∧ (d.layer n).staging = (s.dev.layer n).staging.set i Buf.empty ∧
      (d.layer n).fences = (s.dev.layer n).fences.filter (fun f =>
        !(f.atCopy && f.frame == ((s.dev.layer n).staging.getD i Buf.empty).frame)) ∧
      ((s.dev.layer n).bufs ≠ [] → ∃ b ∈ (d.layer n).bufs, b.role = .ready ∧
        b.frame = ((s.dev.layer n).staging.getD i Buf.empty).frame)) ∧
  (∀ (s : State) (n : Nat), s.dev.canActive = false ∨ s.dev.cmp.dramStalled = true ∨ 7 < n ∨ (s.dev.layer n).copying = none →
    exec (.intakeCopyDone n) s = .next s) ∧
  (∀ (s : State) (sd : Side) (good : Bool), s.dev.sides.contains sd.ix = true →
    (∀ slot img rest, (s.dev.base sd.ix).loads = (slot, img) :: rest → (s.dev.base sd.ix).ready = none →
      exec (.patternLoadDone sd good) s = .next { s with dev := s.dev.modBase sd.ix fun b => { b with
        loads := rest, ready := some (slot, s.dev.loadImage sd.ix img good) } }) ∧
    ((s.dev.base sd.ix).loads = [] ∨ (s.dev.base sd.ix).ready ≠ none → exec (.patternLoadDone sd good) s = .next s))

/-- Channel faults (R285, R302, Table 12-7): a detected fault sets its CH_FAULT bit, drives the channel to 0 A and latches it
off; a FET short stops the side's boost and latches every configured channel of the side off. A fault that R193 does not mute is
active. With no calibration run in progress, an observation that meets no fault condition leaves the block as it is. -/
def Obligations.LampChannels : Prop :=
  (∀ (s : State) (ch : Nat), s.dev.Inv → s.dev.canActive = true → s.dev.chans.contains ch = true → s.dev.primary ch ≠ 3 →
    Runs (.chOvercurrent ch) s [.prm, .sluice, .host, .links, .seq, .ports, .lamp, .gov, .saf, .jnl, .cal] fun d =>
      (d.chan ch).fault = (s.dev.chan ch).fault ||| 8 ∧ (d.chan ch).setpoint = 0 ∧ 0x0A04 ∈ (d.chan ch).latches ∧
      (∀ k, k ≠ ch → (d.chan k).fault = (s.dev.chan k).fault) ∧
      (s.dev.mutedFault 0x0A04 ch = false → s.dev.cal.run = none → d.faultActive 0x0A04 ch = true)) ∧
  (∀ (s : State) (ch : Nat), s.dev.Inv → s.dev.canActive = true → s.dev.chans.contains ch = true → s.dev.driven ch = true →
    diagMin ≤ (s.dev.chan ch).setpoint →
    Runs (.chOpen ch) s [.prm, .sluice, .host, .links, .seq, .ports, .lamp, .gov, .saf, .jnl, .cal] (fun d =>
      (d.chan ch).fault = (s.dev.chan ch).fault ||| 1 ∧ (d.chan ch).setpoint = 0 ∧ 0x0A01 ∈ (d.chan ch).latches ∧
      (∀ k, k ≠ ch → (d.chan k).fault = (s.dev.chan k).fault) ∧
      (s.dev.mutedFault 0x0A01 ch = false → s.dev.cal.run = none → d.faultActive 0x0A01 ch = true)) ∧
    Runs (.chShort ch) s [.prm, .sluice, .host, .links, .seq, .ports, .lamp, .gov, .saf, .jnl, .cal] fun d =>
      (d.chan ch).fault = (s.dev.chan ch).fault ||| 2 ∧ (d.chan ch).setpoint = 0 ∧ 0x0A02 ∈ (d.chan ch).latches ∧
      (∀ k, k ≠ ch → (d.chan k).fault = (s.dev.chan k).fault) ∧
      (s.dev.mutedFault 0x0A02 ch = false → s.dev.cal.run = none → d.faultActive 0x0A02 ch = true)) ∧
  (∀ (s : State) (ch : Nat), s.dev.Inv → s.dev.canActive = true → s.dev.chans.contains ch = true →
    (s.dev.lside (chanSide ch)).boost.running = true → (s.dev.chan ch).setpoint = 0 → s.dev.primary ch ≠ 3 →
    Runs (.fetShort ch) s [.prm, .sluice, .host, .links, .seq, .ports, .lamp, .gov, .saf, .jnl, .cal] fun d =>
      (d.chan ch).fault = (s.dev.chan ch).fault ||| 16 ∧ (∀ k, k ≠ ch → (d.chan k).fault = (s.dev.chan k).fault) ∧
      (∀ k ∈ sideChans (chanSide ch), s.dev.primary k ≠ 3 → 0x0A05 ∈ (d.chan k).latches ∧ (d.chan k).setpoint = 0) ∧
      (s.dev.cal.run = none → (d.lside (chanSide ch)).boost = .off) ∧
      (s.dev.mutedFault 0x0A05 ch = false → s.dev.cal.run = none → d.faultActive 0x0A05 ch = true)) ∧
  (∀ (s : State) (ch : Nat), s.dev.cal.run = none →
    (s.dev.canActive = false ∨ s.dev.chans.contains ch = false → ∀ c ∈ ([.chOvercurrent ch, .chOpen ch, .chShort ch, .fetShort
      ch] : List Instr),
      exec c s = .next s) ∧
    (s.dev.primary ch = 3 → exec (.chOvercurrent ch) s = .next s) ∧
    (s.dev.driven ch = false ∨ (s.dev.chan ch).setpoint < diagMin → exec (.chOpen ch) s = .next s ∧ exec (.chShort ch) s =
      .next s) ∧
    ((s.dev.lside (chanSide ch)).boost.running = false ∨ (s.dev.chan ch).setpoint ≠ 0 ∨ s.dev.primary ch = 3 →
      exec (.fetShort ch) s = .next s))

/-- Boost events (R295 to R297): an overvoltage trip stops switching, counts and returns to where the boost was; an undervoltage
stop waits for VIN and then for a new ticket; a start ends in RUN, which lets the release go on, or fails and stops the boost. A
reaction of the fault may stop the boost in BEAM and DEGRADED. Other states of the boost ignore the observation. -/
def Obligations.BoostEvents : Prop :=
  (∀ (s : State) (sd : Side), s.dev.Inv → s.dev.govRuns = true → s.dev.sides.contains sd.ix = true →
    (s.dev.lside sd.ix).boost = .start ∨ (s.dev.lside sd.ix).boost = .run →
    Runs (.boostOvTrip sd) s [.prm, .sluice, .host, .links, .seq, .ports, .lamp, .gov, .saf, .jnl] fun d =>
      ((d.lside sd.ix).boost = .ovTrip ((s.dev.lside sd.ix).boost == .run) ∨
        (d.lside sd.ix).boost = .off ∧ (s.dev.core.state = .beam ∨ s.dev.core.state = .degraded)) ∧
      d.par kLmpBstOvTrips sd.ix = satAdd 0xFFFFFFFF (s.dev.par kLmpBstOvTrips sd.ix) 1 ∧
      (s.dev.mutedFault 0x0A08 sd.ix = false → d.faultActive 0x0A08 sd.ix = true)) ∧
  (∀ (s : State) (sd : Side) (back : Bool), s.dev.govRuns = true → s.dev.sides.contains sd.ix = true →
    (s.dev.lside sd.ix).boost = .ovTrip back →
    exec (.boostOvResume sd) s =
      .next { s with dev := s.dev.modLside sd.ix fun p => { p with boost := if back then .run else .start } }) ∧
  (∀ (s : State) (sd : Side), s.dev.govRuns = true → s.dev.sides.contains sd.ix = true →
    (s.dev.lside sd.ix).boost.running = true ∨ (∃ back, (s.dev.lside sd.ix).boost = .ovTrip back) →
    Runs (.boostUv sd) s [.prm, .sluice, .host, .links, .seq, .ports, .lamp, .gov, .saf, .jnl] fun d =>
      ((d.lside sd.ix).boost = .uvStop ∨
        (d.lside sd.ix).boost = .off ∧ (s.dev.core.state = .beam ∨ s.dev.core.state = .degraded)) ∧
      (s.dev.mutedFault 0x0A09 sd.ix = false → d.faultActive 0x0A09 sd.ix = true)) ∧
  (∀ (s : State) (sd : Side), s.dev.govRuns = true → s.dev.sides.contains sd.ix = true → (s.dev.lside sd.ix).boost = .uvStop →
    Runs (.boostUvRecovery sd) s [.prm, .sluice, .host, .links, .lamp] fun d => (d.lside sd.ix).boost = .uvWait ∨
      ((d.lside sd.ix).boost = .start ∧ (d.lside sd.ix).softTicks = 0 ∧ (d.lside sd.ix).softFrom = (s.dev.lside sd.ix).vin ∧
        d.ticketHeld (.boost sd) = true)) ∧
  (∀ (s : State) (sd : Side), s.dev.govRuns = true → s.dev.sides.contains sd.ix = true →
    (s.dev.core.state = .beam ∨ s.dev.core.state = .degraded) → (s.dev.lside sd.ix).boost = .start ∨ (s.dev.lside sd.ix).boost
      = .ovTrip false →
    Runs (.boostRun sd) s [.core, .prm, .clk, .sluice, .host, .req, .links, .cmp, .seq, .cam, .ports, .lamp, .gov, .saf, .upd]
      fun d =>
      (d.lside sd.ix).boost = (if (s.dev.lside sd.ix).boost = .start then .run else .ovTrip true) ∧
      d.faultActive 0x0A09 sd.ix = false ∧ d.core.state = s.dev.core.state ∧
      d.core.releaseStage = if s.dev.core.releaseStage = releaseBoosts ∧ s.dev.core.state = .beam ∧ d.boostsRun = true then
        releaseTickets
        else s.dev.core.releaseStage) ∧
  (∀ (s : State) (sd : Side), s.dev.govRuns = true → s.dev.sides.contains sd.ix = true →
    Runs (.boostRun sd) s [.core, .prm, .clk, .sluice, .host, .req, .links, .cmp, .seq, .cam, .ports, .lamp, .gov, .saf, .upd]
      fun _ => True) ∧
  (∀ (s : State) (sd : Side), s.dev.govRuns = true → s.dev.sides.contains sd.ix = true →
    (s.dev.lside sd.ix).boost = .start ∨ (s.dev.lside sd.ix).boost = .ovTrip false →
    Runs (.boostFail sd) s [.prm, .sluice, .host, .links, .seq, .ports, .lamp, .gov, .saf, .jnl] fun d => (d.lside sd.ix).boost
      = .off ∧
      (s.dev.mutedFault 0x0A06 sd.ix = false → d.faultActive 0x0A06 sd.ix = true)) ∧
  (∀ (s : State) (sd : Side), s.dev.govRuns = false ∨ s.dev.sides.contains sd.ix = false →
    ∀ c ∈ ([.boostOvTrip sd, .boostOvResume sd, .boostUv sd, .boostUvRecovery sd, .boostRun sd, .boostFail sd] : List Instr),
      exec c s = .next s) ∧
  (∀ (s : State) (sd : Side), (s.dev.lside sd.ix).boost = .off →
    ∀ c ∈ ([.boostOvTrip sd, .boostOvResume sd, .boostUv sd, .boostUvRecovery sd, .boostFail sd] : List Instr), exec c s =
      .next s)

/-- Lamp inputs (R289, R290, R299): an accepted reading of the side's own sensor gives its temperature and after ten in a row
ends a substitution; a bad one breaks the row. The substitute raises LAMP_SENSOR. A DIM_PWM period is taken and counted or
breaks the row of valid input; a lost input is in loss at once, and the selected one raises DIM_INPUT_LOST. -/
def Obligations.LampInputs : Prop :=
  (∀ (s : State) (sd : Side) (r : BoardReading), s.dev.govRuns = true → s.dev.sides.contains sd.ix = true →
    (match r with | .ntc _ => s.dev.par kLmpSensorSel sd.ix == 0 | _ => s.dev.par kLmpSensorSel sd.ix == 1) = true →
    (∀ t, (s.dev.boardT sd.ix r).1 = some t → (s.dev.lside sd.ix).acceptsT t = true →
      Runs (.boardTempRead sd r) s [.core, .prm, .clk, .sluice, .host, .req, .links, .cmp, .seq, .cam, .ports, .lamp, .gov,
        .saf, .upd, .free] fun d =>
        (d.lside sd.ix).tFine = t ∧ (d.lside sd.ix).tBoard = openRound 0 t fxOne.toNat ∧ (d.lside sd.ix).everValid = true ∧
        (d.lside sd.ix).goodReads = min 10 ((s.dev.lside sd.ix).goodReads + 1) ∧
        (d.lside sd.ix).substituted = ((s.dev.lside sd.ix).substituted && !decide (9 ≤ (s.dev.lside sd.ix).goodReads)) ∧
        (s.dev.core.state = .beam ∨ s.dev.core.state = .degraded → (s.dev.lside sd.ix).substituted = true →
          9 ≤ (s.dev.lside sd.ix).goodReads → d.faultActive 0x0A0A sd.ix = false)) ∧
    ((∀ t, (s.dev.boardT sd.ix r).1 = some t → (s.dev.lside sd.ix).acceptsT t = false) →
      Runs (.boardTempRead sd r) s [.core, .prm, .clk, .sluice, .host, .req, .links, .cmp, .seq, .cam, .ports, .lamp, .gov,
        .saf, .upd, .free] fun d =>
        (d.lside sd.ix).goodReads = 0 ∧ (d.lside sd.ix).tFine = (s.dev.lside sd.ix).tFine ∧
        (d.lside sd.ix).tBoard = (s.dev.lside sd.ix).tBoard ∧ (d.lside sd.ix).everValid = (s.dev.lside sd.ix).everValid ∧
        (d.lside sd.ix).substituted = (s.dev.lside sd.ix).substituted)) ∧
  (∀ (s : State) (sd : Side) (r : BoardReading), s.dev.govRuns = true → s.dev.sides.contains sd.ix = true →
    (match r with | .ntc _ => s.dev.par kLmpSensorSel sd.ix == 0 | _ => s.dev.par kLmpSensorSel sd.ix == 1) = false →
    Runs (.boardTempRead sd r) s [.core, .prm, .clk, .sluice, .host, .req, .links, .cmp, .seq, .cam, .ports, .lamp, .gov, .saf,
      .upd, .free] fun d =>
      (d.lside sd.ix).goodReads = (s.dev.lside sd.ix).goodReads ∧ (d.lside sd.ix).tFine = (s.dev.lside sd.ix).tFine ∧
      (d.lside sd.ix).tBoard = (s.dev.lside sd.ix).tBoard ∧ (d.lside sd.ix).everValid = (s.dev.lside sd.ix).everValid ∧
      (d.lside sd.ix).substituted = (s.dev.lside sd.ix).substituted) ∧
  (∀ (s : State) (sd : Side), s.dev.govRuns = true → s.dev.sides.contains sd.ix = true → (s.dev.lside sd.ix).substituted = false →
    Runs (.sensorSubstitute sd) s [.prm, .sluice, .host, .links, .seq, .ports, .lamp, .gov, .saf, .jnl] fun d =>
      (d.lside sd.ix).substituted = true ∧ (d.lside sd.ix).goodReads = 0 ∧ (d.lside sd.ix).tFine = (s.dev.lside sd.ix).tFine ∧
      (s.dev.mutedFault 0x0A0A sd.ix = false → d.faultActive 0x0A0A sd.ix = true)) ∧
  (∀ (s : State) (sd : Side) (r : BoardReading),
    (s.dev.govRuns = false ∨ s.dev.sides.contains sd.ix = false →
      exec (.boardTempRead sd r) s = .next s ∧ exec (.sensorSubstitute sd) s = .next s) ∧
    ((s.dev.lside sd.ix).substituted = true → exec (.sensorSubstitute sd) s = .next s)) ∧
  (∀ (s : State) (period high : Nat), s.dev.govRuns = true →
    (5000 ≤ period → period ≤ 1000000 → Runs (.dimPwmEdge period high) s [.core, .prm, .clk, .sluice, .host, .req, .links,
      .cmp, .seq, .cam, .ports, .lamp, .gov, .saf, .upd] fun d =>
      d.lamp.pwmPeriod = period ∧
      d.lamp.pwm.accum = (roundHalfUp ((min high period : Nat) * 65535) period).toNat :: s.dev.lamp.pwm.accum ∧
      d.lamp.pwm.validRun = min 4 (s.dev.lamp.pwm.validRun + 1) ∧
      d.lamp.pwm.loss = (s.dev.lamp.pwm.loss && decide (s.dev.lamp.pwm.validRun < 3)) ∧
      d.lamp.dimLost = (s.dev.lamp.dimLost &&
        !(s.dev.lamp.pwm.loss && decide (3 ≤ s.dev.lamp.pwm.validRun) && decide (s.dev.dimSelected = 1)))) ∧
    (period < 5000 ∨ 1000000 < period → Runs (.dimPwmEdge period high) s [.core, .prm, .clk, .sluice, .host, .req, .links,
      .cmp, .seq, .cam, .ports, .lamp, .gov, .saf, .upd] fun d =>
      d.lamp.pwm = { s.dev.lamp.pwm with validRun := 0 } ∧ d.lamp.pwmPeriod = s.dev.lamp.pwmPeriod ∧
      d.lamp.dimLost = s.dev.lamp.dimLost)) ∧
  (∀ (s : State) (source : Nat), s.dev.govRuns = true → source = 1 ∨ source = 2 → (s.dev.lamp.dimIn source).loss = false →
    Runs (.dimInputLoss source) s [.prm, .sluice, .host, .links, .seq, .ports, .lamp, .gov, .saf, .jnl] fun d =>
      (d.lamp.dimIn source).loss = true ∧ (d.lamp.dimIn source).validRun = 0 ∧
      d.lamp.dimIn (3 - source) = s.dev.lamp.dimIn (3 - source) ∧
      (s.dev.dimSelected ≠ source → d.lamp.dimLost = s.dev.lamp.dimLost ∧ d.saf = s.dev.saf) ∧
      (s.dev.dimSelected = source → d.lamp.dimLost = true ∧
        d.lamp.dimTodo = (if s.dev.lamp.dimPending.isSome then 0 else 1) ∧
        (s.dev.mutedFault 0x0A0B 0 = false → d.faultActive 0x0A0B 0 = true))) ∧
  (∀ (s : State) (source period high : Nat),
    (s.dev.govRuns = false ∨ source = 0 ∨ 2 < source ∨ (s.dev.lamp.dimIn source).loss = true →
      exec (.dimInputLoss source) s = .next s) ∧
    (s.dev.govRuns = false → exec (.dimPwmEdge period high) s = .next s))

/-- Auxiliary outputs (R334 to R337, R342 to R347): a chain frame sends the codes of the levels in force; a written matrix frame
waits for its swap; tearing edges free a target and count towards restoring a lost one, and their absence loses it; a scan line
is one SCAN packet and the LINE packet of the next line. -/
def Obligations.AuxOutputs : Prop :=
  (∀ (s : State) (sd : Side) (n : Nat), s.dev.Inv → s.dev.sides.contains sd.ix = true →
    s.dev.auxRuns = true ∨ (s.dev.core.state = .safe ∧ s.dev.core.acornService = false) →
    n = ((s.dev.applyVal (pid kAuxSegCount sd.ix)).applyVal (pid kAuxSegPeriod sd.ix)).par kAuxSegCount sd.ix →
    Runs (.segFrameStart sd) s [.prm, .host, .links, .aux] fun d =>
      (n = 0 → (d.chain sd.ix).running = false ∧ (d.chain sd.ix).frameBits = [] ∧
        (d.chain sd.ix).level = (s.dev.chain sd.ix).level) ∧
      (n ≠ 0 → (d.chain sd.ix).running = true ∧
        (d.chain sd.ix).frameBits = (((d.chain sd.ix).level.take (12 * n)).map fun l =>
          if s.dev.core.state = .safe ∧ d.par kAuxSegSafeAction sd.ix = 1 then 0 else d.segCode sd.ix l).flatMap codeBits ∧
        d.par kAuxSegFrames sd.ix = satAdd 0xFFFFFFFF (s.dev.par kAuxSegFrames sd.ix) 1 ∧
        (s.dev.core.state = .safe → (d.chain sd.ix).level = (s.dev.chain sd.ix).level))) ∧
  (∀ (s : State) (sd : Side), s.dev.sides.contains sd.ix = false ∨
    (s.dev.auxRuns = false ∧ (s.dev.core.state ≠ .safe ∨ s.dev.core.acornService = true)) → exec (.segFrameStart sd) s = .next
      s) ∧
  (∀ (s : State), s.dev.Inv → s.dev.auxRuns = true → (∃ t, t < 4 ∧ (s.dev.target t).st = .write) →
    Runs .mxWriteDone s [.prm, .aux] fun d =>
      d.par kAuxMxFrames 0 = satAdd 0xFFFFFFFF (s.dev.par kAuxMxFrames 0) 1 ∧
      ∀ t, t < 4 → d.target t = if (s.dev.target t).st = .write then { s.dev.target t with st := .swapWait, syncTime :=
        s.dev.now }
        else s.dev.target t) ∧
  (∀ (s : State), s.dev.auxRuns = false ∨ (∀ t, t < 4 → (s.dev.target t).st ≠ .write) → exec .mxWriteDone s = .next s) ∧
  (∀ (s : State) (t : Nat), s.dev.Inv → t < 4 → (s.dev.target t).st ≠ .off →
    Runs (.mxTeEdge t) s [.aux] fun d => (d.target t).lastTe = some s.dev.now ∧
      (∀ j, j ≠ t → d.target j = s.dev.target j) ∧
      ((s.dev.target t).lastTe = none → (d.target t).tePeriod = (s.dev.target t).tePeriod ∧ (d.target t).goodTe = 0) ∧
      (∀ v, (s.dev.target t).lastTe = some v → (d.target t).tePeriod = min 0xFFFFFFFF (s.dev.now - v) ∧
        (d.target t).goodTe = if (s.dev.target t).st = .lost ∧ msTicks 2 ≤ s.dev.now - v ∧ s.dev.now - v ≤ msTicks 100
          then min 3 ((s.dev.target t).goodTe + 1) else 0) ∧
      (d.target t).st = if (s.dev.target t).st = .swapWait ∧ (s.dev.target t).syncTime + usTicks 2 ≤ s.dev.now then .free
        else (s.dev.target t).st) ∧
  (∀ (s : State) (t : Nat), 4 ≤ t ∨ (s.dev.target t).st = .off →
    exec (.mxTeEdge t) s = .next s ∧ exec (.mxTeTimeout t) s = .next s) ∧
  (∀ (s : State) (t : Nat), s.dev.Inv → t < 4 → (s.dev.target t).st ≠ .off → (s.dev.target t).st ≠ .lost →
    (s.dev.target t).lastTe.getD (s.dev.target t).since + msTicks (s.dev.par kAuxMxTeTimeout 0) ≤ s.dev.now →
    Runs (.mxTeTimeout t) s [.prm, .sluice, .host, .links, .seq, .ports, .lamp, .gov, .aux, .saf, .jnl] fun d => (d.target
      t).st = .lost ∧ (d.target t).goodTe = 0 ∧
      (d.target t).lastTe = none ∧ (∀ j, j ≠ t → d.target j = s.dev.target j) ∧
      (s.dev.mutedFault 0x0B01 t = false → d.faultActive 0x0B01 t = true)) ∧
  (∀ (s : State) (t : Nat), (s.dev.target t).st = .lost ∨
    s.dev.now < (s.dev.target t).lastTe.getD (s.dev.target t).since + msTicks (s.dev.par kAuxMxTeTimeout 0) →
    exec (.mxTeTimeout t) s = .next s) ∧
  (∀ (s : State) (k next : Nat), s.dev.Inv → s.dev.auxRuns = true → s.dev.par kAuxMxClass 0 = 1 → (s.dev.mxOf 0).en = true →
    k = s.dev.aux.scanLineNo → next = (k + 1) % scanRatio (s.dev.par kAuxMxScan 0) →
    Runs .scanLine s [.prm, .aux] fun d => d.aux.scanLineNo = next ∧
      d.aux.mxSent = mxPacket 0x01 0 next (s.dev.lineBytes d.aux.scanSource (mxRec d.aux.scanRec) next) ::
        mxPacket 0x02 0 k (leBytes 2 (scanPre (s.dev.par kAuxMxScan 0)) ++ leBytes 2 s.dev.onNs) :: s.dev.aux.mxSent ∧
      (next ≠ 0 → d.aux.scanSource = s.dev.aux.scanSource ∧ d.aux.scanRec = s.dev.aux.scanRec ∧
        d.aux.scanFrame = s.dev.aux.scanFrame ∧ d.par kAuxMxFrames 0 = s.dev.par kAuxMxFrames 0) ∧
      (next = 0 → (d.aux.scanSource, d.aux.scanRec) = s.dev.comingTap ∧
        d.par kAuxMxFrames 0 = satAdd 0xFFFFFFFF (s.dev.par kAuxMxFrames 0) 1)) ∧
  (∀ (s : State), s.dev.auxRuns = false ∨ s.dev.par kAuxMxClass 0 ≠ 1 ∨ (s.dev.mxOf 0).en = false →
    exec .scanLine s = .next s)

/-- Events of the stores (R218, R362, R366, R376 to R378, R406, R408, R433): a snapshot is latched, an AUTO fault whose
condition holds is cleared, journal pages, erases and their failures take effect, an image region is erased block by block,
calibration takes its reference and judges a channel, and the sequence store is scrubbed and reloaded. -/
def Obligations.StoreEvents : Prop :=
  (∀ (s : State), s.dev.govRuns = true → s.dev.saf.snapNEn = true →
    Runs .snapNFall s [.prm, .host, .links, .saf] fun d => d.saf.held = s.dev.saf.held ∧ d.saf.snapHeld = s.dev.saf.snapHeld ∧
      (s.dev.latchTick ≠ some (s.dev.now + 1) → d.saf.snapSeq = s.dev.saf.snapSeq + 1 ∧
        d.saf.snapCount = (s.dev.saf.snapCount + 1) % 256 ∧ d.saf.lastSrc = 1 ∧
        d.saf.live = s.dev.latchRecords 1 (s.dev.saf.snapSeq + 1) (s.dev.now + 1)) ∧
      (s.dev.latchTick = some (s.dev.now + 1) → d.saf.snapSeq = s.dev.saf.snapSeq ∧ d.saf.snapCount = s.dev.saf.snapCount)) ∧
  (∀ (s : State), s.dev.govRuns = false ∨ s.dev.saf.snapNEn = false → exec .snapNFall s = .next s) ∧
  (∀ (s : State) (code inst : Nat), s.dev.faultActive code inst = true →
    ((faultRow? code).any fun r => r.recovery == .auto) = true → s.dev.autoHolds code inst = true →
    Runs (.faultAutoClear code inst) s [.core, .prm, .clk, .sluice, .host, .req, .links, .cmp, .seq, .cam, .ports, .lamp, .gov,
      .saf, .upd] fun d => s.dev.core.state ≠ .safe → s.dev.core.state ≠ .standby →
      d.faultActive code inst = false ∧ (code ≠ 0x0703 → d = s.dev.clearFault code inst)) ∧
  (∀ (s : State) (code inst : Nat), s.dev.faultActive code inst = false ∨
    ((faultRow? code).any fun r => r.recovery == .auto) = false ∨ s.dev.autoHolds code inst = false →
    exec (.faultAutoClear code inst) s = .next s) ∧
  (∀ (s : State) (f : ActiveFault), f ∈ s.dev.saf.active → s.dev.now < f.raisedAt + 100000000 →
    ([0x0602, 0x0603, 0x0702, 0x0703, 0x0805, 0x0903, 0x0A08] : List Nat).contains f.code = true →
    exec (.faultAutoClear f.code f.inst) s = .next s) ∧
  (∀ (s : State) (good : Bool), Runs (.norPageDone good) s [.core, .prm, .clk, .sluice, .host, .req, .links, .cmp, .seq, .cam,
    .ports, .lamp, .gov, .saf, .jnl, .nor, .upd] fun d =>
    (s.dev.jnl.flushing = false → d.jnl = s.dev.jnl ∧ d.nor = s.dev.nor) ∧
    (s.dev.jnl.flushing = true → good = false → d.nor = s.dev.nor ∧ d.jnl.pending = s.dev.jnl.pending ∧
      d.jnl.flushing = (s.dev.jnl.pageFails == 0) ∧ d.jnl.pageFails = if s.dev.jnl.pageFails = 0 then 1 else 0) ∧
    (s.dev.jnl.flushing = true → good = true → ∀ e ∈ s.dev.pageInHand, (s.dev.ringEntry e).isSome = true →
      e ∉ d.jnl.pending ∧ (kvGet d.nor.journal (s.dev.norSlot e)).isSome = true)) ∧
  (∀ (s : State), s.dev.ticketHeld (.erase .journal) = true →
    Runs .norSectorEraseDone s [.prm, .sluice, .host, .links, .lamp, .jnl, .nor] fun d => d.jnl.pending = s.dev.jnl.pending ∧
      d.jnl.ring = s.dev.jnl.ring ∧
      d.nor.journal = match s.dev.dirtySectors with
        | k :: _ => s.dev.nor.journal.filter fun r => r.1 / 32 != k
        | [] => s.dev.nor.journal) ∧
  (∀ (s : State), s.dev.ticketHeld (.erase .journal) = false → exec .norSectorEraseDone s = .next s) ∧
  (∀ (s : State), s.dev.Inv → s.dev.jnl.flushing = true →
    Runs .norBusyTimeout s [.prm, .sluice, .host, .links, .seq, .ports, .lamp, .gov, .saf, .jnl] fun d => d.jnl.flushing =
      false ∧ d.jnl.pageFails = 0 ∧
      d.jnl.pending = s.dev.jnl.pending ∧ d.faultActive 0x0D01 0 = true ∧
      d.par kJnlNorFails 0 = satAdd 0xFFFFFFFF (s.dev.par kJnlNorFails 0) 1) ∧
  (∀ (s : State), s.dev.jnl.flushing = false → exec .norBusyTimeout s = .next s) ∧
  (∀ (s : State), s.dev.upd.erasing = true → s.dev.ticketHeld (.erase .image) = true →
    Runs .imageRegionEraseDone s [.prm, .sluice, .host, .links, .lamp, .nor, .upd] fun d =>
      d.nor.cells = norErase s.dev.nor.cells (imageOffset s.dev.upd.target + 0x10000 * s.dev.upd.eraseBlock) 0x10000 ∧
      (31 ≤ s.dev.upd.eraseBlock → d.upd.session = some .spi ∧ d.upd.erasing = false) ∧
      (s.dev.upd.eraseBlock < 31 → d.upd.erasing = true → d.upd.eraseBlock = s.dev.upd.eraseBlock + 1)) ∧
  (∀ (s : State), s.dev.upd.erasing = false ∨ s.dev.ticketHeld (.erase .image) = false → exec .imageRegionEraseDone s = .next s) ∧
  (∀ (s : State) (ref : Nat),
    (s.dev.canActive = true → Runs (.calTriggerCheck ref) s [.prm, .sluice, .host, .links, .seq, .ports, .lamp, .gov, .saf,
      .jnl, .cal] fun d => d.cal.calRef = ref) ∧
    (s.dev.canActive = false → exec (.calTriggerCheck ref) s = .next s)) ∧
  (∀ (s : State) (ch : Nat) (v : CalValue) (r : CalRun), s.dev.Inv → s.dev.cal.run = some r →
    s.dev.calMeasurable r ch = true → calFormOk ch v = true →
    Runs (.calMeasurementDone ch v) s [.prm, .sluice, .host, .links, .seq, .ports, .lamp, .gov, .saf, .jnl, .cal] fun d =>
      d.cal.calRef = s.dev.cal.calRef ∧
      d.par kCalCalDisagreeCount 0 = if calJudge ch ((kvGet r.current ch).getD [] ++ [s.dev.measured ch v]) = some none
        then satAdd 0xFFFFFFFF (s.dev.par kCalCalDisagreeCount 0) 1 else s.dev.par kCalCalDisagreeCount 0) ∧
  (∀ (s : State) (ch : Nat) (v : CalValue), s.dev.cal.run = none → exec (.calMeasurementDone ch v) s = .next s) ∧
  (∀ (s : State) (r : ScrubResult), s.dev.Inv → s.dev.govRuns = true →
    Runs (.seqStoreScrub r) s [.prm, .seq] fun d =>
      d.par kMstSeqEccCorr 0 = satAdd 0xFFFFFFFF (s.dev.par kMstSeqEccCorr 0) r.corrected ∧
      d.seq.eccWords = s.dev.seq.eccWords ++ r.uncorrectable.filter fun ix =>
        !s.dev.inForceWord ix && !s.dev.seq.eccWords.contains ix && decide (ix < 65536)) ∧
  (∀ (s : State) (r : ScrubResult), s.dev.govRuns = false → exec (.seqStoreScrub r) s = .next s) ∧
  (∀ (s : State) (mode : Nat), (∃ ix ∈ s.dev.seq.eccWords, ix / 2048 = mode) →
    Runs (.seqReloaded mode) s [.core, .prm, .clk, .sluice, .host, .req, .links, .cmp, .seq, .cam, .ports, .lamp, .gov, .saf,
      .upd] fun d =>
      d.seq.eccWords = s.dev.seq.eccWords.filter (fun ix => ix / 2048 != mode) ∧
      (s.dev.core.state ≠ .safe → s.dev.core.state ≠ .standby → d.faultActive 0x0601 0 = false)) ∧
  (∀ (s : State) (mode : Nat), (∀ ix ∈ s.dev.seq.eccWords, ix / 2048 ≠ mode) → exec (.seqReloaded mode) s = .next s)
end

