-- ==== Sys2Proof/Laws/FrameBase.lean ====
section
/-! SUPPORT. Frames: which parts of the block each shared operation (parameters, events, tickets, faults, the time base) may change. -/

namespace Sys2Proof.Machine

open Sys2Proof

/-! ### Frames, put together -/

/-- Every part of a list stands in another. -/
def Part.within (m l : List Part) : Bool := m.all fun p => l.contains p

theorem Part.within_mem {m l : List Part} (h : Part.within m l = true) {p : Part} (hp : p ∈ m) : p ∈ l := by
  have := List.all_eq_true.1 h p hp
  simpa using this

theorem Part.same_trans {a b c : Dev} {p : Part} (h : p.same a b) (g : p.same b c) : p.same a c := by
  cases p <;> exact Eq.trans g h

theorem Dev.only_refl (d : Dev) (l : List Part) : d.onlyChanges d l := ⟨rfl, fun p _ => by cases p <;> rfl⟩

/-- One more operation. -/
theorem Dev.only_then {a b c : Dev} {l m : List Part} (g : b.onlyChanges c m) (hm : Part.within m l = true)
    (h : a.onlyChanges b l) : a.onlyChanges c l :=
  ⟨g.1.trans h.1, fun p hp => Part.same_trans (h.2 p hp) (g.2 p fun hq => hp (Part.within_mem hm hq))⟩

/-- A record update of parts that the list names. -/
theorem Dev.only_set {a b c : Dev} {l : List Part} (h : a.onlyChanges b l) (e : ∀ p, p ∉ l → p.same b c)
    (v : c.variant = b.variant) : a.onlyChanges c l :=
  ⟨v.trans h.1, fun p hp => Part.same_trans (h.2 p hp) (e p hp)⟩

/-- A record update: each part is named, or is that of the state before. -/
theorem Dev.only_mk {a b : Dev} {l : List Part} {x0 x1 x2 x3 x4 x5 x6 x7 x8 x9 x10 x11 x12 x13 x14 x15 x16 x17 x18 x19 x20 x21 x22 x23 x24} (h : a.onlyChanges b l)
    (e : (Part.aon ∈ l ∨ x0 = b.aon) ∧
      (Part.core ∈ l ∨ x1 = b.core) ∧
      (Part.prm ∈ l ∨ x2 = b.prm) ∧
      (Part.clk ∈ l ∨ x3 = b.clk) ∧
      (Part.thm ∈ l ∨ x4 = b.thm) ∧
      (Part.sluice ∈ l ∨ x5 = b.sluice) ∧
      (Part.host ∈ l ∨ x6 = b.host) ∧
      (Part.veh ∈ l ∨ x7 = b.veh) ∧
      (Part.req ∈ l ∨ x8 = b.req) ∧
      (Part.links ∈ l ∨ x9 = b.links) ∧
      (Part.cmp ∈ l ∨ x10 = b.cmp) ∧
      (Part.seq ∈ l ∨ x11 = b.seq) ∧
      (Part.cam ∈ l ∨ x12 = b.cam) ∧
      (Part.ports ∈ l ∨ x13 = b.ports) ∧
      (Part.sht ∈ l ∨ x14 = b.sht) ∧
      (Part.lamp ∈ l ∨ x15 = b.lamp) ∧
      (Part.gov ∈ l ∨ x16 = b.gov) ∧
      (Part.aux ∈ l ∨ x17 = b.aux) ∧
      (Part.saf ∈ l ∨ x18 = b.saf) ∧
      (Part.jnl ∈ l ∨ x19 = b.jnl) ∧
      (Part.nor ∈ l ∨ x20 = b.nor) ∧
      (Part.upd ∈ l ∨ x21 = b.upd) ∧
      (Part.cal ∈ l ∨ x22 = b.cal) ∧
      (Part.jtag ∈ l ∨ x23 = b.jtag) ∧
      (Part.free ∈ l ∨ x24 = b.freeCount)) :
    a.onlyChanges ⟨b.variant, x0, x1, x2, x3, x4, x5, x6, x7, x8, x9, x10, x11, x12, x13, x14, x15, x16, x17, x18, x19, x20, x21, x22, x23, x24⟩ l := by
  obtain ⟨e0, e1, e2, e3, e4, e5, e6, e7, e8, e9, e10, e11, e12, e13, e14, e15, e16, e17, e18, e19, e20, e21, e22, e23, e24⟩ := e
  refine Dev.only_set h (fun p hp => ?_) rfl
  cases p
  · exact e0.resolve_left hp
  · exact e1.resolve_left hp
  · exact e2.resolve_left hp
  · exact e3.resolve_left hp
  · exact e4.resolve_left hp
  · exact e5.resolve_left hp
  · exact e6.resolve_left hp
  · exact e7.resolve_left hp
  · exact e8.resolve_left hp
  · exact e9.resolve_left hp
  · exact e10.resolve_left hp
  · exact e11.resolve_left hp
  · exact e12.resolve_left hp
  · exact e13.resolve_left hp
  · exact e14.resolve_left hp
  · exact e15.resolve_left hp
  · exact e16.resolve_left hp
  · exact e17.resolve_left hp
  · exact e18.resolve_left hp
  · exact e19.resolve_left hp
  · exact e20.resolve_left hp
  · exact e21.resolve_left hp
  · exact e22.resolve_left hp
  · exact e23.resolve_left hp
  · exact e24.resolve_left hp

theorem Dev.only_foldl {α : Type} {f : Dev → α → Dev} {a b : Dev} {l : List Part} (xs : List α)
    (hf : ∀ (e : Dev) x, e.onlyChanges (f e x) l) (h : a.onlyChanges b l) : a.onlyChanges (xs.foldl f b) l := by
  induction xs generalizing b with
  | nil => exact h
  | cons x xs ih => exact ih (Dev.only_then (hf b x) (List.all_eq_true.2 fun p hp => by simpa using hp) h)

theorem Dev.only_foldl_fst {α β : Type} {f : Dev × β → α → Dev × β} {a : Dev} {r : Dev × β} {l : List Part} (xs : List α)
    (hf : ∀ (r : Dev × β) x, r.1.onlyChanges (f r x).1 l) (h : a.onlyChanges r.1 l) : a.onlyChanges (xs.foldl f r).1 l := by
  induction xs generalizing r with
  | nil => exact h
  | cons x xs ih => exact ih (Dev.only_then (hf r x) (List.all_eq_true.2 fun p hp => by simpa using hp) h)

theorem Dev.only_ite {c : Prop} [Decidable c] {a x y : Dev} {l : List Part} (hx : c → a.onlyChanges x l)
    (hy : ¬c → a.onlyChanges y l) : a.onlyChanges (if c then x else y) l := by
  split
  · next h => exact hx h
  · next h => exact hy h

/-! ### Base.lean -/

theorem Dev.modLink_only (d : Dev) (l : LinkId) (f : Link → Link) : d.onlyChanges (Dev.modLink d l f) [.links] := by
  unfold Dev.modLink
  repeat' first | with_reducible apply Dev.only_refl | (with_reducible show Part.within _ _ = true; decide) | dsimp only | fail_if_no_progress with_reducible refine Dev.only_mk ?_ (by and_intros <;> first | exact Or.inr (by with_reducible rfl) | exact Or.inl (by decide)) | split | with_reducible intro _

theorem Dev.modPort_only (d : Dev) (p : Port) (f : PortState → PortState) : d.onlyChanges (Dev.modPort d p f) [.host] := by
  unfold Dev.modPort
  repeat' first | with_reducible apply Dev.only_refl | (with_reducible show Part.within _ _ = true; decide) | dsimp only | fail_if_no_progress with_reducible refine Dev.only_mk ?_ (by and_intros <;> first | exact Or.inr (by with_reducible rfl) | exact Or.inl (by decide)) | split | with_reducible intro _

theorem Dev.modMap_only (d : Dev) (p : RegPort) (f : RegMap → RegMap) : d.onlyChanges (Dev.modMap d p f) [.host] := by
  unfold Dev.modMap
  repeat' first | with_reducible apply Dev.only_refl | (with_reducible show Part.within _ _ = true; decide) | dsimp only | fail_if_no_progress with_reducible refine Dev.only_mk ?_ (by and_intros <;> first | exact Or.inr (by with_reducible rfl) | exact Or.inl (by decide)) | split | with_reducible intro _

theorem Dev.modLayer_only (d : Dev) (n : Nat) (f : Layer → Layer) : d.onlyChanges (Dev.modLayer d n f) [.cmp] := by
  unfold Dev.modLayer
  repeat' first | with_reducible apply Dev.only_refl | (with_reducible show Part.within _ _ = true; decide) | dsimp only | fail_if_no_progress with_reducible refine Dev.only_mk ?_ (by and_intros <;> first | exact Or.inr (by with_reducible rfl) | exact Or.inl (by decide)) | split | with_reducible intro _

theorem Dev.modGroup_only (d : Dev) (g : Nat) (f : Group → Group) : d.onlyChanges (Dev.modGroup d g f) [.cmp] := by
  unfold Dev.modGroup
  repeat' first | with_reducible apply Dev.only_refl | (with_reducible show Part.within _ _ = true; decide) | dsimp only | fail_if_no_progress with_reducible refine Dev.only_mk ?_ (by and_intros <;> first | exact Or.inr (by with_reducible rfl) | exact Or.inl (by decide)) | split | with_reducible intro _

theorem Dev.modBase_only (d : Dev) (s : Nat) (f : Base → Base) : d.onlyChanges (Dev.modBase d s f) [.cmp] := by
  unfold Dev.modBase
  repeat' first | with_reducible apply Dev.only_refl | (with_reducible show Part.within _ _ = true; decide) | dsimp only | fail_if_no_progress with_reducible refine Dev.only_mk ?_ (by and_intros <;> first | exact Or.inr (by with_reducible rfl) | exact Or.inl (by decide)) | split | with_reducible intro _

theorem Dev.modPipe_only (d : Dev) (s : Nat) (f : Pipe → Pipe) : d.onlyChanges (Dev.modPipe d s f) [.cmp] := by
  unfold Dev.modPipe
  repeat' first | with_reducible apply Dev.only_refl | (with_reducible show Part.within _ _ = true; decide) | dsimp only | fail_if_no_progress with_reducible refine Dev.only_mk ?_ (by and_intros <;> first | exact Or.inr (by with_reducible rfl) | exact Or.inl (by decide)) | split | with_reducible intro _

theorem Dev.modMport_only (d : Dev) (s : Nat) (f : MPort → MPort) : d.onlyChanges (Dev.modMport d s f) [.ports] := by
  unfold Dev.modMport
  repeat' first | with_reducible apply Dev.only_refl | (with_reducible show Part.within _ _ = true; decide) | dsimp only | fail_if_no_progress with_reducible refine Dev.only_mk ?_ (by and_intros <;> first | exact Or.inr (by with_reducible rfl) | exact Or.inl (by decide)) | split | with_reducible intro _

theorem Dev.modChan_only (d : Dev) (c : Nat) (f : Chan → Chan) : d.onlyChanges (Dev.modChan d c f) [.lamp] := by
  unfold Dev.modChan
  repeat' first | with_reducible apply Dev.only_refl | (with_reducible show Part.within _ _ = true; decide) | dsimp only | fail_if_no_progress with_reducible refine Dev.only_mk ?_ (by and_intros <;> first | exact Or.inr (by with_reducible rfl) | exact Or.inl (by decide)) | split | with_reducible intro _

theorem Dev.modLside_only (d : Dev) (s : Nat) (f : LampSide → LampSide) : d.onlyChanges (Dev.modLside d s f) [.lamp] := by
  unfold Dev.modLside
  repeat' first | with_reducible apply Dev.only_refl | (with_reducible show Part.within _ _ = true; decide) | dsimp only | fail_if_no_progress with_reducible refine Dev.only_mk ?_ (by and_intros <;> first | exact Or.inr (by with_reducible rfl) | exact Or.inl (by decide)) | split | with_reducible intro _

theorem Dev.modSlot_only (d : Dev) (n : Nat) (f : Slot → Slot) : d.onlyChanges (Dev.modSlot d n f) [.gov] := by
  unfold Dev.modSlot
  repeat' first | with_reducible apply Dev.only_refl | (with_reducible show Part.within _ _ = true; decide) | dsimp only | fail_if_no_progress with_reducible refine Dev.only_mk ?_ (by and_intros <;> first | exact Or.inr (by with_reducible rfl) | exact Or.inl (by decide)) | split | with_reducible intro _

theorem Dev.modTarget_only (d : Dev) (n : Nat) (f : MxTarget → MxTarget) : d.onlyChanges (Dev.modTarget d n f) [.aux] := by
  unfold Dev.modTarget
  repeat' first | with_reducible apply Dev.only_refl | (with_reducible show Part.within _ _ = true; decide) | dsimp only | fail_if_no_progress with_reducible refine Dev.only_mk ?_ (by and_intros <;> first | exact Or.inr (by with_reducible rfl) | exact Or.inl (by decide)) | split | with_reducible intro _

theorem Dev.modPll_only (d : Dev) (p : Nat) (f : PllSt → PllSt) : d.onlyChanges (Dev.modPll d p f) [.clk] := by
  unfold Dev.modPll
  repeat' first | with_reducible apply Dev.only_refl | (with_reducible show Part.within _ _ = true; decide) | dsimp only | fail_if_no_progress with_reducible refine Dev.only_mk ?_ (by and_intros <;> first | exact Or.inr (by with_reducible rfl) | exact Or.inl (by decide)) | split | with_reducible intro _

theorem Dev.modMask_only (d : Dev) (s : Nat) (f : MaskBuf → MaskBuf) : d.onlyChanges (Dev.modMask d s f) [.seq] := by
  unfold Dev.modMask
  repeat' first | with_reducible apply Dev.only_refl | (with_reducible show Part.within _ _ = true; decide) | dsimp only | fail_if_no_progress with_reducible refine Dev.only_mk ?_ (by and_intros <;> first | exact Or.inr (by with_reducible rfl) | exact Or.inl (by decide)) | split | with_reducible intro _

theorem Dev.setCorr_only (d : Dev) (ch : Nat) (v : Int × Int) : d.onlyChanges (Dev.setCorr d ch v) [.cal] := by
  unfold Dev.setCorr
  repeat' first | with_reducible apply Dev.only_refl | (with_reducible show Part.within _ _ = true; decide) | dsimp only | fail_if_no_progress with_reducible refine Dev.only_mk ?_ (by and_intros <;> first | exact Or.inr (by with_reducible rfl) | exact Or.inl (by decide)) | split | with_reducible intro _

theorem Dev.drawn_only (d : Dev) : d.onlyChanges (Dev.drawn d) [.free] := by
  unfold Dev.drawn
  repeat' first | with_reducible apply Dev.only_refl | (with_reducible show Part.within _ _ = true; decide) | dsimp only | fail_if_no_progress with_reducible refine Dev.only_mk ?_ (by and_intros <;> first | exact Or.inr (by with_reducible rfl) | exact Or.inl (by decide)) | split | with_reducible intro _

theorem Dev.putVal_only (d : Dev) (id : Nat) (v : Int) : d.onlyChanges (Dev.putVal d id v) [.prm] := by
  unfold Dev.putVal
  repeat' first | with_reducible apply Dev.only_refl | (with_reducible show Part.within _ _ = true; decide) | dsimp only | fail_if_no_progress with_reducible refine Dev.only_mk ?_ (by and_intros <;> first | exact Or.inr (by with_reducible rfl) | exact Or.inl (by decide)) | split | with_reducible intro _

theorem Dev.putArr_only (d : Dev) (id : Nat) (v : List Byte) : d.onlyChanges (Dev.putArr d id v) [.prm] := by
  unfold Dev.putArr
  repeat' first | with_reducible apply Dev.only_refl | (with_reducible show Part.within _ _ = true; decide) | dsimp only | fail_if_no_progress with_reducible refine Dev.only_mk ?_ (by and_intros <;> first | exact Or.inr (by with_reducible rfl) | exact Or.inl (by decide)) | split | with_reducible intro _

theorem Dev.setPar_only (d : Dev) (key inst : Nat) (v : Int) : d.onlyChanges (Dev.setPar d key inst v) [.prm] := by
  unfold Dev.setPar
  repeat' first | with_reducible apply Dev.only_refl | (with_reducible show Part.within _ _ = true; decide) | with_reducible apply Dev.only_then (Dev.putVal_only _ _ _) | dsimp only | fail_if_no_progress with_reducible refine Dev.only_mk ?_ (by and_intros <;> first | exact Or.inr (by with_reducible rfl) | exact Or.inl (by decide)) | split | with_reducible intro _

theorem Dev.setArr_only (d : Dev) (key inst : Nat) (v : List Byte) : d.onlyChanges (Dev.setArr d key inst v) [.prm] := by
  unfold Dev.setArr
  repeat' first | with_reducible apply Dev.only_refl | (with_reducible show Part.within _ _ = true; decide) | with_reducible apply Dev.only_then (Dev.putArr_only _ _ _) | dsimp only | fail_if_no_progress with_reducible refine Dev.only_mk ?_ (by and_intros <;> first | exact Or.inr (by with_reducible rfl) | exact Or.inl (by decide)) | split | with_reducible intro _

theorem Dev.stageVal_only (d : Dev) (id : Nat) (v : Int) : d.onlyChanges (Dev.stageVal d id v) [.prm] := by
  unfold Dev.stageVal
  repeat' first | with_reducible apply Dev.only_refl | (with_reducible show Part.within _ _ = true; decide) | dsimp only | fail_if_no_progress with_reducible refine Dev.only_mk ?_ (by and_intros <;> first | exact Or.inr (by with_reducible rfl) | exact Or.inl (by decide)) | split | with_reducible intro _

theorem Dev.stageArr_only (d : Dev) (id : Nat) (v : List Byte) : d.onlyChanges (Dev.stageArr d id v) [.prm] := by
  unfold Dev.stageArr
  repeat' first | with_reducible apply Dev.only_refl | (with_reducible show Part.within _ _ = true; decide) | dsimp only | fail_if_no_progress with_reducible refine Dev.only_mk ?_ (by and_intros <;> first | exact Or.inr (by with_reducible rfl) | exact Or.inl (by decide)) | split | with_reducible intro _

theorem Dev.dropStaged_only (d : Dev) (id : Nat) : d.onlyChanges (Dev.dropStaged d id) [.prm] := by
  unfold Dev.dropStaged
  repeat' first | with_reducible apply Dev.only_refl | (with_reducible show Part.within _ _ = true; decide) | dsimp only | fail_if_no_progress with_reducible refine Dev.only_mk ?_ (by and_intros <;> first | exact Or.inr (by with_reducible rfl) | exact Or.inl (by decide)) | split | with_reducible intro _

theorem Dev.applyVal_only (d : Dev) (id : Nat) : d.onlyChanges (Dev.applyVal d id) [.prm] := by
  unfold Dev.applyVal
  repeat' first | with_reducible apply Dev.only_refl | (with_reducible show Part.within _ _ = true; decide) | with_reducible apply Dev.only_then (Dev.putVal_only _ _ _) | dsimp only | fail_if_no_progress with_reducible refine Dev.only_mk ?_ (by and_intros <;> first | exact Or.inr (by with_reducible rfl) | exact Or.inl (by decide)) | split | with_reducible intro _

theorem Dev.applyArr_only (d : Dev) (id : Nat) : d.onlyChanges (Dev.applyArr d id) [.prm] := by
  unfold Dev.applyArr
  repeat' first | with_reducible apply Dev.only_refl | (with_reducible show Part.within _ _ = true; decide) | with_reducible apply Dev.only_then (Dev.putArr_only _ _ _) | with_reducible apply Dev.only_then (Dev.dropStaged_only _ _) | dsimp only | fail_if_no_progress with_reducible refine Dev.only_mk ?_ (by and_intros <;> first | exact Or.inr (by with_reducible rfl) | exact Or.inl (by decide)) | split | with_reducible intro _

theorem Dev.mirrorVal_only (d : Dev) (id : Nat) : d.onlyChanges (Dev.mirrorVal d id) [.nor] := by
  unfold Dev.mirrorVal
  repeat' first | with_reducible apply Dev.only_refl | (with_reducible show Part.within _ _ = true; decide) | dsimp only | fail_if_no_progress with_reducible refine Dev.only_mk ?_ (by and_intros <;> first | exact Or.inr (by with_reducible rfl) | exact Or.inl (by decide)) | split | with_reducible intro _

theorem Dev.mirrorArr_only (d : Dev) (id : Nat) : d.onlyChanges (Dev.mirrorArr d id) [.nor] := by
  unfold Dev.mirrorArr
  repeat' first | with_reducible apply Dev.only_refl | (with_reducible show Part.within _ _ = true; decide) | dsimp only | fail_if_no_progress with_reducible refine Dev.only_mk ?_ (by and_intros <;> first | exact Or.inr (by with_reducible rfl) | exact Or.inl (by decide)) | split | with_reducible intro _

theorem Dev.count_only (d : Dev) (key inst k : Nat) : d.onlyChanges (Dev.count d key inst k) [.prm] := by
  unfold Dev.count
  repeat' first | with_reducible apply Dev.only_refl | (with_reducible show Part.within _ _ = true; decide) | with_reducible apply Dev.only_then (Dev.setPar_only _ _ _ _) | dsimp only | fail_if_no_progress with_reducible refine Dev.only_mk ?_ (by and_intros <;> first | exact Or.inr (by with_reducible rfl) | exact Or.inl (by decide)) | split | with_reducible intro _

/-! ### Events.lean -/

theorem Dev.pumpVc1_only (d : Dev) (l : LinkId) (n : Nat) : d.onlyChanges (d.pumpVc1 l n) [.host, .links] := by
  induction n generalizing d with
  | zero => exact Dev.only_refl _ _
  | succ n ih =>
    unfold Dev.pumpVc1
    dsimp only
    repeat' split
    · exact Dev.only_then (ih _) (by decide) (Dev.only_then (Dev.modLink_only ..) (by decide) (Dev.only_refl _ _))
    · exact Dev.only_then (ih _) (by decide) (Dev.only_then (Dev.modLink_only ..) (by decide)
        (Dev.only_then (Dev.modPort_only ..) (by decide) (Dev.only_refl _ _)))
    · exact Dev.only_refl _ _
    · exact Dev.only_refl _ _

theorem Dev.backLanes_only (d : Dev) : d.onlyChanges (Dev.backLanes d) [.links] := by
  unfold Dev.backLanes
  repeat' first | with_reducible apply Dev.only_refl | (with_reducible show Part.within _ _ = true; decide) | with_reducible apply Dev.only_foldl | with_reducible apply Dev.only_foldl_fst | with_reducible apply Dev.only_then (Dev.modLink_only _ _ _) | dsimp only | fail_if_no_progress with_reducible refine Dev.only_mk ?_ (by and_intros <;> first | exact Or.inr (by with_reducible rfl) | exact Or.inl (by decide)) | split | with_reducible intro _

theorem Dev.pumpLink_only (d : Dev) (l : LinkId) : d.onlyChanges (Dev.pumpLink d l) [.host, .links] := by
  unfold Dev.pumpLink
  repeat' first | with_reducible apply Dev.only_refl | (with_reducible show Part.within _ _ = true; decide) | with_reducible apply Dev.only_then (Dev.pumpVc1_only _ _ _) | dsimp only | fail_if_no_progress with_reducible refine Dev.only_mk ?_ (by and_intros <;> first | exact Or.inr (by with_reducible rfl) | exact Or.inl (by decide)) | split | with_reducible intro _

theorem Dev.canSend_only (d : Dev) (id : Nat) (msg : List Byte) : d.onlyChanges (Dev.canSend d id msg) [.host] := by
  unfold Dev.canSend
  repeat' first | with_reducible apply Dev.only_refl | (with_reducible show Part.within _ _ = true; decide) | dsimp only | fail_if_no_progress with_reducible refine Dev.only_mk ?_ (by and_intros <;> first | exact Or.inr (by with_reducible rfl) | exact Or.inl (by decide)) | split | with_reducible intro _

theorem Dev.flushCan_only (d : Dev) : d.onlyChanges (Dev.flushCan d) [.host] := by
  unfold Dev.flushCan
  repeat' first | with_reducible apply Dev.only_refl | (with_reducible show Part.within _ _ = true; decide) | with_reducible apply Dev.only_foldl | with_reducible apply Dev.only_foldl_fst | with_reducible apply Dev.only_then (Dev.modPort_only _ _ _) | with_reducible apply Dev.only_then (Dev.canSend_only _ _ _) | with_reducible apply Dev.only_ite | dsimp only | fail_if_no_progress with_reducible refine Dev.only_mk ?_ (by and_intros <;> first | exact Or.inr (by with_reducible rfl) | exact Or.inl (by decide)) | split | with_reducible intro _

theorem Dev.setIrq_only (d : Dev) (bit : Nat) : d.onlyChanges (Dev.setIrq d bit) [.host] := by
  unfold Dev.setIrq
  repeat' first | with_reducible apply Dev.only_refl | (with_reducible show Part.within _ _ = true; decide) | with_reducible apply Dev.only_then (Dev.modMap_only _ _ _) | dsimp only | fail_if_no_progress with_reducible refine Dev.only_mk ?_ (by and_intros <;> first | exact Or.inr (by with_reducible rfl) | exact Or.inl (by decide)) | split | with_reducible intro _

theorem Dev.postTo_only (d : Dev) (p : Port) (code arg : Nat) : d.onlyChanges (Dev.postTo d p code arg) [.prm, .host, .links] := by
  unfold Dev.postTo
  extract_lets q d0 d1
  have h1 : d.onlyChanges d1 [.prm, .host, .links] := by
    show d.onlyChanges (if _ then _ else _) _
    split
    · exact Dev.only_then (Dev.modPort_only ..) (by decide) (Dev.only_refl _ _)
    · have h0 : d.onlyChanges d0 [.prm, .host, .links] := Dev.only_then (Dev.count_only ..) (by decide)
        (Dev.only_then (Dev.modPort_only ..) (by decide) (Dev.only_refl _ _))
      split
      · exact Dev.only_then (Dev.setIrq_only ..) (by decide) h0
      · exact h0
  split
  · exact Dev.only_then (Dev.pumpLink_only ..) (by decide) h1
  · exact Dev.only_then (Dev.pumpLink_only ..) (by decide) h1
  · exact Dev.only_then (Dev.flushCan_only ..) (by decide) h1
  · exact h1
theorem Dev.postFuel_only (n : Nat) (d : Dev) (code arg : Nat) : d.onlyChanges (Dev.postFuel n d code arg) [.prm, .host, .links] := by
  induction n generalizing d code arg with
  | zero => exact Dev.only_refl _ _
  | succ n ih =>
    unfold Dev.postFuel
    refine Dev.only_foldl _ (fun e p => ih e _ _) (Dev.only_foldl _ (fun e p => ?_) (Dev.only_refl _ _))
    exact Dev.only_then (Dev.postTo_only ..) (by decide) (Dev.only_refl _ _)

theorem Dev.post_only (d : Dev) (code arg : Nat) : d.onlyChanges (Dev.post d code arg) [.prm, .host, .links] := by
  unfold Dev.post
  repeat' first | with_reducible apply Dev.only_refl | (with_reducible show Part.within _ _ = true; decide) | with_reducible apply Dev.only_then (Dev.postFuel_only _ _ _ _) | dsimp only | fail_if_no_progress with_reducible refine Dev.only_mk ?_ (by and_intros <;> first | exact Or.inr (by with_reducible rfl) | exact Or.inl (by decide)) | split | with_reducible intro _

theorem Dev.postFree_only (d : Dev) (code : Nat) : d.onlyChanges (Dev.postFree d code) [.prm, .host, .links, .free] := by
  unfold Dev.postFree
  repeat' first | with_reducible apply Dev.only_refl | (with_reducible show Part.within _ _ = true; decide) | with_reducible apply Dev.only_then (Dev.drawn_only _) | with_reducible apply Dev.only_then (Dev.post_only _ _ _) | dsimp only | fail_if_no_progress with_reducible refine Dev.only_mk ?_ (by and_intros <;> first | exact Or.inr (by with_reducible rfl) | exact Or.inl (by decide)) | split | with_reducible intro _

theorem Dev.respond_only (d : Dev) (p : Port) (slot opcode tag status : Nat) (payload : List Byte) : d.onlyChanges (Dev.respond d p slot opcode tag status payload) [.host, .links] := by
  unfold Dev.respond
  repeat' first | with_reducible apply Dev.only_refl | (with_reducible show Part.within _ _ = true; decide) | with_reducible apply Dev.only_then (Dev.modLink_only _ _ _) | with_reducible apply Dev.only_then (Dev.modMap_only _ _ _) | with_reducible apply Dev.only_then (Dev.pumpLink_only _ _) | with_reducible apply Dev.only_then (Dev.canSend_only _ _ _) | with_reducible apply Dev.only_ite | dsimp only | fail_if_no_progress with_reducible refine Dev.only_mk ?_ (by and_intros <;> first | exact Or.inr (by with_reducible rfl) | exact Or.inl (by decide)) | split | with_reducible intro _

theorem Dev.finish_only (d : Dev) (p : Port) (tag status : Nat) (payload : List Byte) : d.onlyChanges (Dev.finish d p tag status payload) [.prm, .host, .links] := by
  unfold Dev.finish
  repeat' first | with_reducible apply Dev.only_refl | (with_reducible show Part.within _ _ = true; decide) | with_reducible apply Dev.only_then (Dev.modPort_only _ _ _) | with_reducible apply Dev.only_then (Dev.post_only _ _ _) | with_reducible apply Dev.only_then (Dev.respond_only _ _ _ _ _ _ _) | with_reducible apply Dev.only_ite | dsimp only | fail_if_no_progress with_reducible refine Dev.only_mk ?_ (by and_intros <;> first | exact Or.inr (by with_reducible rfl) | exact Or.inl (by decide)) | split | with_reducible intro _

theorem Dev.finishWith_only (d : Dev) (p : Port) (tag status : Nat) : d.onlyChanges (Dev.finishWith d p tag status) [.prm, .host, .links] := by
  unfold Dev.finishWith
  repeat' first | with_reducible apply Dev.only_refl | (with_reducible show Part.within _ _ = true; decide) | with_reducible apply Dev.only_then (Dev.finish_only _ _ _ _ _) | with_reducible apply Dev.only_ite | dsimp only | fail_if_no_progress with_reducible refine Dev.only_mk ?_ (by and_intros <;> first | exact Or.inr (by with_reducible rfl) | exact Or.inl (by decide)) | split | with_reducible intro _

theorem Dev.waits_only (d : Dev) (p : Port) (tag : Nat) : d.onlyChanges (Dev.waits d p tag) [.host, .links] := by
  unfold Dev.waits
  repeat' first | with_reducible apply Dev.only_refl | (with_reducible show Part.within _ _ = true; decide) | with_reducible apply Dev.only_then (Dev.modPort_only _ _ _) | with_reducible apply Dev.only_then (Dev.respond_only _ _ _ _ _ _ _) | with_reducible apply Dev.only_ite | dsimp only | fail_if_no_progress with_reducible refine Dev.only_mk ?_ (by and_intros <;> first | exact Or.inr (by with_reducible rfl) | exact Or.inl (by decide)) | split | with_reducible intro _

theorem Dev.sendStat_only (d : Dev) : d.onlyChanges (Dev.sendStat d) [.links] := by
  unfold Dev.sendStat
  repeat' first | with_reducible apply Dev.only_refl | (with_reducible show Part.within _ _ = true; decide) | with_reducible apply Dev.only_foldl | with_reducible apply Dev.only_foldl_fst | with_reducible apply Dev.only_then (Dev.modLink_only _ _ _) | with_reducible apply Dev.only_ite | dsimp only | fail_if_no_progress with_reducible refine Dev.only_mk ?_ (by and_intros <;> first | exact Or.inr (by with_reducible rfl) | exact Or.inl (by decide)) | split | with_reducible intro _

/-! ### Snapshot.lean -/

theorem Dev.relatch_only (d : Dev) : d.onlyChanges (Dev.relatch d) [.saf] := by
  unfold Dev.relatch
  repeat' first | with_reducible apply Dev.only_refl | (with_reducible show Part.within _ _ = true; decide) | with_reducible apply Dev.only_ite | dsimp only | fail_if_no_progress with_reducible refine Dev.only_mk ?_ (by and_intros <;> first | exact Or.inr (by with_reducible rfl) | exact Or.inl (by decide)) | split | with_reducible intro _

theorem Dev.snapshot_only (d : Dev) (source : Nat) : d.onlyChanges (Dev.snapshot d source) [.prm, .host, .links, .saf] := by
  unfold Dev.snapshot
  repeat' first | with_reducible apply Dev.only_refl | (with_reducible show Part.within _ _ = true; decide) | with_reducible apply Dev.only_then (Dev.setIrq_only _ _) | with_reducible apply Dev.only_then (Dev.post_only _ _ _) | with_reducible apply Dev.only_ite | dsimp only | fail_if_no_progress with_reducible refine Dev.only_mk ?_ (by and_intros <;> first | exact Or.inr (by with_reducible rfl) | exact Or.inl (by decide)) | split | with_reducible intro _

/-! ### Sluice.lean -/

theorem Dev.grant_only (d : Dev) (q : SlReq) : d.onlyChanges (Dev.grant d q) [.prm, .sluice, .lamp] := by
  unfold Dev.grant
  repeat' first | with_reducible apply Dev.only_refl | (with_reducible show Part.within _ _ = true; decide) | with_reducible apply Dev.only_then (Dev.modLside_only _ _ _) | with_reducible apply Dev.only_then (Dev.applyVal_only _ _) | with_reducible apply Dev.only_then (Dev.count_only _ _ _ _) | with_reducible apply Dev.only_ite | dsimp only | fail_if_no_progress with_reducible refine Dev.only_mk ?_ (by and_intros <;> first | exact Or.inr (by with_reducible rfl) | exact Or.inl (by decide)) | split | with_reducible intro _

theorem Dev.deny_only (d : Dev) (h : Holder) (afterQueue : Bool) : d.onlyChanges (Dev.deny d h afterQueue) [.prm, .host, .links] := by
  unfold Dev.deny
  repeat' first | with_reducible apply Dev.only_refl | (with_reducible show Part.within _ _ = true; decide) | with_reducible apply Dev.only_then (Dev.count_only _ _ _ _) | with_reducible apply Dev.only_then (Dev.post_only _ _ _) | dsimp only | fail_if_no_progress with_reducible refine Dev.only_mk ?_ (by and_intros <;> first | exact Or.inr (by with_reducible rfl) | exact Or.inl (by decide)) | split | with_reducible intro _

theorem Dev.request_only (d : Dev) (h : Holder) : d.onlyChanges (Dev.request d h) [.prm, .sluice, .host, .links, .lamp] := by
  unfold Dev.request
  repeat' first | with_reducible apply Dev.only_refl | (with_reducible show Part.within _ _ = true; decide) | with_reducible apply Dev.only_then (Dev.grant_only _ _) | with_reducible apply Dev.only_then (Dev.deny_only _ _ _) | with_reducible apply Dev.only_ite | dsimp only | fail_if_no_progress with_reducible refine Dev.only_mk ?_ (by and_intros <;> first | exact Or.inr (by with_reducible rfl) | exact Or.inl (by decide)) | split | with_reducible intro _
theorem Dev.examine_only (n : Nat) (d : Dev) : d.onlyChanges (Dev.examine n d) [.prm, .sluice, .lamp] := by
  induction n generalizing d with
  | zero => exact Dev.only_refl _ _
  | succ n ih =>
    unfold Dev.examine
    split
    · exact Dev.only_refl _ _
    · split
      · refine Dev.only_then (ih _) (by decide) (Dev.only_then (Dev.grant_only ..) (by decide) ?_)
        with_reducible refine Dev.only_mk (Dev.only_refl _ _) (by and_intros <;> first | exact Or.inr (by with_reducible rfl) | exact Or.inl (by decide))
      · exact Dev.only_refl _ _

theorem Dev.release_only (d : Dev) (h : Holder) : d.onlyChanges (Dev.release d h) [.prm, .sluice, .lamp] := by
  unfold Dev.release
  repeat' first | with_reducible apply Dev.only_refl | (with_reducible show Part.within _ _ = true; decide) | with_reducible apply Dev.only_then (Dev.examine_only _ _) | with_reducible apply Dev.only_ite | dsimp only | fail_if_no_progress with_reducible refine Dev.only_mk ?_ (by and_intros <;> first | exact Or.inr (by with_reducible rfl) | exact Or.inl (by decide)) | split | with_reducible intro _

theorem Dev.voidTickets_only (d : Dev) : d.onlyChanges (Dev.voidTickets d) [.sluice] := by
  unfold Dev.voidTickets
  repeat' first | with_reducible apply Dev.only_refl | (with_reducible show Part.within _ _ = true; decide) | dsimp only | fail_if_no_progress with_reducible refine Dev.only_mk ?_ (by and_intros <;> first | exact Or.inr (by with_reducible rfl) | exact Or.inl (by decide)) | split | with_reducible intro _

/-! ### Faults.lean -/

theorem Dev.setState_only (d : Dev) (new : DevState) (cause : Nat) : d.onlyChanges (Dev.setState d new cause) [.core, .prm, .host, .links] := by
  unfold Dev.setState
  repeat' first | with_reducible apply Dev.only_refl | (with_reducible show Part.within _ _ = true; decide) | with_reducible apply Dev.only_then (Dev.setIrq_only _ _) | with_reducible apply Dev.only_then (Dev.post_only _ _ _) | with_reducible apply Dev.only_then (Dev.sendStat_only _) | with_reducible apply Dev.only_ite | dsimp only | fail_if_no_progress with_reducible refine Dev.only_mk ?_ (by and_intros <;> first | exact Or.inr (by with_reducible rfl) | exact Or.inl (by decide)) | split | with_reducible intro _

theorem Dev.modMportEv_only (d : Dev) (s : Nat) (f : MPort → MPort) : d.onlyChanges (Dev.modMportEv d s f) [.prm, .host, .links, .ports] := by
  unfold Dev.modMportEv
  repeat' first | with_reducible apply Dev.only_refl | (with_reducible show Part.within _ _ = true; decide) | with_reducible apply Dev.only_then (Dev.modMport_only _ _ _) | with_reducible apply Dev.only_then (Dev.post_only _ _ _) | with_reducible apply Dev.only_ite | dsimp only | fail_if_no_progress with_reducible refine Dev.only_mk ?_ (by and_intros <;> first | exact Or.inr (by with_reducible rfl) | exact Or.inl (by decide)) | split | with_reducible intro _

theorem Dev.darkSide_only (d : Dev) (s : Nat) : d.onlyChanges (Dev.darkSide d s) [.lamp, .gov] := by
  unfold Dev.darkSide
  repeat' first | with_reducible apply Dev.only_refl | (with_reducible show Part.within _ _ = true; decide) | with_reducible apply Dev.only_foldl | with_reducible apply Dev.only_foldl_fst | with_reducible apply Dev.only_then (Dev.modChan_only _ _ _) | dsimp only | fail_if_no_progress with_reducible refine Dev.only_mk ?_ (by and_intros <;> first | exact Or.inr (by with_reducible rfl) | exact Or.inl (by decide)) | split | with_reducible intro _

theorem Dev.stopBoost_only (d : Dev) (s : Nat) : d.onlyChanges (Dev.stopBoost d s) [.prm, .sluice, .lamp] := by
  unfold Dev.stopBoost
  repeat' first | with_reducible apply Dev.only_refl | (with_reducible show Part.within _ _ = true; decide) | with_reducible apply Dev.only_then (Dev.modLside_only _ _ _) | with_reducible apply Dev.only_then (Dev.release_only _ _) | with_reducible apply Dev.only_ite | dsimp only | fail_if_no_progress with_reducible refine Dev.only_mk ?_ (by and_intros <;> first | exact Or.inr (by with_reducible rfl) | exact Or.inl (by decide)) | split | with_reducible intro _

theorem Dev.zeroWords_only (d : Dev) (s : Nat) : d.onlyChanges (Dev.zeroWords d s) [.seq] := by
  unfold Dev.zeroWords
  repeat' first | with_reducible apply Dev.only_refl | (with_reducible show Part.within _ _ = true; decide) | dsimp only | fail_if_no_progress with_reducible refine Dev.only_mk ?_ (by and_intros <;> first | exact Or.inr (by with_reducible rfl) | exact Or.inl (by decide)) | split | with_reducible intro _

theorem Dev.safeSide_only (d : Dev) (s : Nat) (forced : Bool) : d.onlyChanges (Dev.safeSide d s forced) [.prm, .sluice, .host, .links, .seq, .ports, .lamp, .gov, .saf] := by
  unfold Dev.safeSide
  repeat' first | with_reducible apply Dev.only_refl | (with_reducible show Part.within _ _ = true; decide) | with_reducible apply Dev.only_then (Dev.modLside_only _ _ _) | with_reducible apply Dev.only_then (Dev.modMportEv_only _ _ _) | with_reducible apply Dev.only_then (Dev.darkSide_only _ _) | with_reducible apply Dev.only_then (Dev.stopBoost_only _ _) | with_reducible apply Dev.only_then (Dev.zeroWords_only _ _) | dsimp only | fail_if_no_progress with_reducible refine Dev.only_mk ?_ (by and_intros <;> first | exact Or.inr (by with_reducible rfl) | exact Or.inl (by decide)) | split | with_reducible intro _

theorem Dev.enterSafe_only (d : Dev) (s : Nat) (forced : Bool) : d.onlyChanges (Dev.enterSafe d s forced) [.prm, .sluice, .host, .links, .seq, .ports, .lamp, .gov, .saf] := by
  unfold Dev.enterSafe
  repeat' first | with_reducible apply Dev.only_refl | (with_reducible show Part.within _ _ = true; decide) | with_reducible apply Dev.only_then (Dev.modMportEv_only _ _ _) | with_reducible apply Dev.only_then (Dev.safeSide_only _ _ _) | with_reducible apply Dev.only_ite | dsimp only | fail_if_no_progress with_reducible refine Dev.only_mk ?_ (by and_intros <;> first | exact Or.inr (by with_reducible rfl) | exact Or.inl (by decide)) | split | with_reducible intro _

theorem Dev.pend_only (d : Dev) (target : DevState) (cause rank : Nat) : d.onlyChanges (Dev.pend d target cause rank) [.saf] := by
  unfold Dev.pend
  repeat' first | with_reducible apply Dev.only_refl | (with_reducible show Part.within _ _ = true; decide) | with_reducible apply Dev.only_ite | dsimp only | fail_if_no_progress with_reducible refine Dev.only_mk ?_ (by and_intros <;> first | exact Or.inr (by with_reducible rfl) | exact Or.inl (by decide)) | split | with_reducible intro _

theorem Dev.safeAll_only (d : Dev) (cause rank : Nat) (forced : Bool) : d.onlyChanges (Dev.safeAll d cause rank forced) [.prm, .sluice, .host, .links, .seq, .ports, .lamp, .gov, .saf] := by
  unfold Dev.safeAll
  repeat' first | with_reducible apply Dev.only_refl | (with_reducible show Part.within _ _ = true; decide) | with_reducible apply Dev.only_foldl | with_reducible apply Dev.only_foldl_fst | with_reducible apply Dev.only_then (Dev.release_only _ _) | with_reducible apply Dev.only_then (Dev.enterSafe_only _ _ _) | with_reducible apply Dev.only_then (Dev.pend_only _ _ _ _) | dsimp only | fail_if_no_progress with_reducible refine Dev.only_mk ?_ (by and_intros <;> first | exact Or.inr (by with_reducible rfl) | exact Or.inl (by decide)) | split | with_reducible intro _

theorem Dev.sameTick_only (d : Dev) (cause rank : Nat) : d.onlyChanges (Dev.sameTick d cause rank) [.saf] := by
  unfold Dev.sameTick
  repeat' first | with_reducible apply Dev.only_refl | (with_reducible show Part.within _ _ = true; decide) | with_reducible apply Dev.only_ite | dsimp only | fail_if_no_progress with_reducible refine Dev.only_mk ?_ (by and_intros <;> first | exact Or.inr (by with_reducible rfl) | exact Or.inl (by decide)) | split | with_reducible intro _

theorem Dev.reactSide_only (d : Dev) (s cause : Nat) (forced : Bool) : d.onlyChanges (Dev.reactSide d s cause forced) [.prm, .sluice, .host, .links, .seq, .ports, .lamp, .gov, .saf] := by
  unfold Dev.reactSide
  repeat' first | with_reducible apply Dev.only_refl | (with_reducible show Part.within _ _ = true; decide) | with_reducible apply Dev.only_then (Dev.enterSafe_only _ _ _) | with_reducible apply Dev.only_then (Dev.pend_only _ _ _ _) | with_reducible apply Dev.only_then (Dev.safeAll_only _ _ _ _) | with_reducible apply Dev.only_then (Dev.sameTick_only _ _ _) | with_reducible apply Dev.only_ite | dsimp only | fail_if_no_progress with_reducible refine Dev.only_mk ?_ (by and_intros <;> first | exact Or.inr (by with_reducible rfl) | exact Or.inl (by decide)) | split | with_reducible intro _

theorem Dev.latch_only (d : Dev) (c code : Nat) : d.onlyChanges (Dev.latch d c code) [.lamp] := by
  unfold Dev.latch
  repeat' first | with_reducible apply Dev.only_refl | (with_reducible show Part.within _ _ = true; decide) | with_reducible apply Dev.only_then (Dev.modChan_only _ _ _) | with_reducible apply Dev.only_ite | dsimp only | fail_if_no_progress with_reducible refine Dev.only_mk ?_ (by and_intros <;> first | exact Or.inr (by with_reducible rfl) | exact Or.inl (by decide)) | split | with_reducible intro _

theorem Dev.markSide_only (d : Dev) (code inst : Nat) : d.onlyChanges (Dev.markSide d code inst) [.saf] := by
  unfold Dev.markSide
  repeat' first | with_reducible apply Dev.only_refl | (with_reducible show Part.within _ _ = true; decide) | with_reducible apply Dev.only_ite | dsimp only | fail_if_no_progress with_reducible refine Dev.only_mk ?_ (by and_intros <;> first | exact Or.inr (by with_reducible rfl) | exact Or.inl (by decide)) | split | with_reducible intro _

theorem Dev.reactCh_only (d : Dev) (c code : Nat) : d.onlyChanges (Dev.reactCh d c code) [.prm, .sluice, .host, .links, .seq, .ports, .lamp, .gov, .saf] := by
  unfold Dev.reactCh
  repeat' first | with_reducible apply Dev.only_refl | (with_reducible show Part.within _ _ = true; decide) | with_reducible apply Dev.only_then (Dev.reactSide_only _ _ _ _) | with_reducible apply Dev.only_then (Dev.latch_only _ _ _) | with_reducible apply Dev.only_then (Dev.markSide_only _ _ _) | with_reducible apply Dev.only_ite | dsimp only | fail_if_no_progress with_reducible refine Dev.only_mk ?_ (by and_intros <;> first | exact Or.inr (by with_reducible rfl) | exact Or.inl (by decide)) | split | with_reducible intro _

theorem Dev.react_only (d : Dev) (code inst : Nat) (r : Reaction) (forced : Bool) : d.onlyChanges (Dev.react d code inst r forced) [.prm, .sluice, .host, .links, .seq, .ports, .lamp, .gov, .saf] := by
  unfold Dev.react
  repeat' first | with_reducible apply Dev.only_refl | (with_reducible show Part.within _ _ = true; decide) | with_reducible apply Dev.only_foldl | with_reducible apply Dev.only_foldl_fst | with_reducible apply Dev.only_then (Dev.safeAll_only _ _ _ _) | with_reducible apply Dev.only_then (Dev.reactSide_only _ _ _ _) | with_reducible apply Dev.only_then (Dev.reactCh_only _ _ _) | with_reducible apply Dev.only_ite | dsimp only | fail_if_no_progress with_reducible refine Dev.only_mk ?_ (by and_intros <;> first | exact Or.inr (by with_reducible rfl) | exact Or.inl (by decide)) | split | with_reducible intro _

theorem Dev.listFault_only (d : Dev) (code inst : Nat) (r : Reaction) : d.onlyChanges (Dev.listFault d code inst r) [.prm, .saf] := by
  unfold Dev.listFault
  repeat' first | with_reducible apply Dev.only_refl | (with_reducible show Part.within _ _ = true; decide) | with_reducible apply Dev.only_then (Dev.count_only _ _ _ _) | with_reducible apply Dev.only_ite | dsimp only | fail_if_no_progress with_reducible refine Dev.only_mk ?_ (by and_intros <;> first | exact Or.inr (by with_reducible rfl) | exact Or.inl (by decide)) | split | with_reducible intro _

theorem Dev.activate_only (d : Dev) (code inst arg : Nat) (r : Reaction) : d.onlyChanges (Dev.activate d code inst arg r) [.prm, .saf, .jnl] := by
  unfold Dev.activate
  repeat' first | with_reducible apply Dev.only_refl | (with_reducible show Part.within _ _ = true; decide) | with_reducible apply Dev.only_then (Dev.listFault_only _ _ _ _) | with_reducible apply Dev.only_ite | dsimp only | fail_if_no_progress with_reducible refine Dev.only_mk ?_ (by and_intros <;> first | exact Or.inr (by with_reducible rfl) | exact Or.inl (by decide)) | split | with_reducible intro _

theorem Dev.raiseWith_only (d : Dev) (code inst arg : Nat) (portFault forced : Bool) : d.onlyChanges (Dev.raiseWith d code inst arg portFault forced) [.prm, .sluice, .host, .links, .seq, .ports, .lamp, .gov, .saf, .jnl] := by
  unfold Dev.raiseWith
  repeat' first | with_reducible apply Dev.only_refl | (with_reducible show Part.within _ _ = true; decide) | with_reducible apply Dev.only_then (Dev.setIrq_only _ _) | with_reducible apply Dev.only_then (Dev.post_only _ _ _) | with_reducible apply Dev.only_then (Dev.snapshot_only _ _) | with_reducible apply Dev.only_then (Dev.react_only _ _ _ _ _) | with_reducible apply Dev.only_then (Dev.activate_only _ _ _ _ _) | with_reducible apply Dev.only_ite | dsimp only | fail_if_no_progress with_reducible refine Dev.only_mk ?_ (by and_intros <;> first | exact Or.inr (by with_reducible rfl) | exact Or.inl (by decide)) | split | with_reducible intro _

theorem Dev.raise_only (d : Dev) (code inst arg : Nat) : d.onlyChanges (Dev.raise d code inst arg) [.prm, .sluice, .host, .links, .seq, .ports, .lamp, .gov, .saf, .jnl] := by
  unfold Dev.raise
  repeat' first | with_reducible apply Dev.only_refl | (with_reducible show Part.within _ _ = true; decide) | with_reducible apply Dev.only_then (Dev.raiseWith_only _ _ _ _ _ _) | dsimp only | fail_if_no_progress with_reducible refine Dev.only_mk ?_ (by and_intros <;> first | exact Or.inr (by with_reducible rfl) | exact Or.inl (by decide)) | split | with_reducible intro _

theorem Dev.clearFault_only (d : Dev) (code inst : Nat) : d.onlyChanges (Dev.clearFault d code inst) [.prm, .host, .links, .saf] := by
  unfold Dev.clearFault
  repeat' first | with_reducible apply Dev.only_refl | (with_reducible show Part.within _ _ = true; decide) | with_reducible apply Dev.only_then (Dev.post_only _ _ _) | with_reducible apply Dev.only_ite | dsimp only | fail_if_no_progress with_reducible refine Dev.only_mk ?_ (by and_intros <;> first | exact Or.inr (by with_reducible rfl) | exact Or.inl (by decide)) | split | with_reducible intro _

theorem Dev.actionDone_only (d : Dev) (code inst : Nat) : d.onlyChanges (Dev.actionDone d code inst) [.saf] := by
  unfold Dev.actionDone
  repeat' first | with_reducible apply Dev.only_refl | (with_reducible show Part.within _ _ = true; decide) | with_reducible apply Dev.only_ite | dsimp only | fail_if_no_progress with_reducible refine Dev.only_mk ?_ (by and_intros <;> first | exact Or.inr (by with_reducible rfl) | exact Or.inl (by decide)) | split | with_reducible intro _

/-! ### Tick.lean -/

theorem Dev.tick_only (d : Dev) : d.onlyChanges (Dev.tick d) [.clk] := by
  unfold Dev.tick
  repeat' first | with_reducible apply Dev.only_refl | (with_reducible show Part.within _ _ = true; decide) | with_reducible apply Dev.only_ite | dsimp only | fail_if_no_progress with_reducible refine Dev.only_mk ?_ (by and_intros <;> first | exact Or.inr (by with_reducible rfl) | exact Or.inl (by decide)) | split | with_reducible intro _

theorem Dev.align_only (d : Dev) (diff : Int) (link : Option LinkId) : d.onlyChanges (Dev.align d diff link) [.prm, .clk, .host, .links, .free] := by
  unfold Dev.align
  repeat' first | with_reducible apply Dev.only_refl | (with_reducible show Part.within _ _ = true; decide) | with_reducible apply Dev.only_then (Dev.count_only _ _ _ _) | with_reducible apply Dev.only_then (Dev.postFree_only _ _) | with_reducible apply Dev.only_ite | dsimp only | fail_if_no_progress with_reducible refine Dev.only_mk ?_ (by and_intros <;> first | exact Or.inr (by with_reducible rfl) | exact Or.inl (by decide)) | split | with_reducible intro _

end Sys2Proof.Machine
end

