-- ==== Sys2Proof/Laws/FrameUnits.lean ====
section
/-! SUPPORT. Frames of the operations of the ports, layers, composition, sequencer, lamps, Governor, auxiliary outputs, clocks and links. -/

namespace Sys2Proof.Machine

open Sys2Proof

/-! ### PortOps.lean -/

theorem Dev.portFrame_only (d : Dev) (s : Nat) : d.onlyChanges (Dev.portFrame d s) [.ports] := by
  unfold Dev.portFrame
  repeat' first | with_reducible apply Dev.only_refl | (with_reducible show Part.within _ _ = true; decide) | with_reducible apply Dev.only_then (Dev.modMport_only _ _ _) | with_reducible apply Dev.only_ite | dsimp only | fail_if_no_progress with_reducible refine Dev.only_mk ?_ (by and_intros <;> first | exact Or.inr (by with_reducible rfl) | exact Or.inl (by decide)) | split | with_reducible intro _

theorem Dev.portFrames_only (d : Dev) : d.onlyChanges (Dev.portFrames d) [.ports] := by
  unfold Dev.portFrames
  repeat' first | with_reducible apply Dev.only_refl | (with_reducible show Part.within _ _ = true; decide) | with_reducible apply Dev.only_foldl | with_reducible apply Dev.only_foldl_fst | with_reducible apply Dev.only_then (Dev.portFrame_only _ _) | dsimp only | fail_if_no_progress with_reducible refine Dev.only_mk ?_ (by and_intros <;> first | exact Or.inr (by with_reducible rfl) | exact Or.inl (by decide)) | split | with_reducible intro _

theorem Dev.powerUpNow_only (d : Dev) (s : Nat) : d.onlyChanges (Dev.powerUpNow d s) [.prm, .host, .links, .ports, .saf] := by
  unfold Dev.powerUpNow
  repeat' first | with_reducible apply Dev.only_refl | (with_reducible show Part.within _ _ = true; decide) | with_reducible apply Dev.only_then (Dev.modMportEv_only _ _ _) | with_reducible apply Dev.only_then (Dev.clearFault_only _ _ _) | dsimp only | fail_if_no_progress with_reducible refine Dev.only_mk ?_ (by and_intros <;> first | exact Or.inr (by with_reducible rfl) | exact Or.inl (by decide)) | split | with_reducible intro _

theorem Dev.powerUp_only (d : Dev) (s : Nat) : d.onlyChanges (Dev.powerUp d s) [.prm, .host, .links, .ports, .saf] := by
  unfold Dev.powerUp
  repeat' first | with_reducible apply Dev.only_refl | (with_reducible show Part.within _ _ = true; decide) | with_reducible apply Dev.only_then (Dev.modMport_only _ _ _) | with_reducible apply Dev.only_then (Dev.powerUpNow_only _ _) | with_reducible apply Dev.only_ite | dsimp only | fail_if_no_progress with_reducible refine Dev.only_mk ?_ (by and_intros <;> first | exact Or.inr (by with_reducible rfl) | exact Or.inl (by decide)) | split | with_reducible intro _

theorem Dev.powerDownNow_only (d : Dev) (s : Nat) : d.onlyChanges (Dev.powerDownNow d s) [.prm, .host, .links, .ports] := by
  unfold Dev.powerDownNow
  repeat' first | with_reducible apply Dev.only_refl | (with_reducible show Part.within _ _ = true; decide) | with_reducible apply Dev.only_then (Dev.modMportEv_only _ _ _) | dsimp only | fail_if_no_progress with_reducible refine Dev.only_mk ?_ (by and_intros <;> first | exact Or.inr (by with_reducible rfl) | exact Or.inl (by decide)) | split | with_reducible intro _

theorem Dev.powerDown_only (d : Dev) (s : Nat) : d.onlyChanges (Dev.powerDown d s) [.prm, .host, .links, .ports] := by
  unfold Dev.powerDown
  repeat' first | with_reducible apply Dev.only_refl | (with_reducible show Part.within _ _ = true; decide) | with_reducible apply Dev.only_then (Dev.modMport_only _ _ _) | with_reducible apply Dev.only_then (Dev.modMportEv_only _ _ _) | with_reducible apply Dev.only_then (Dev.powerDownNow_only _ _) | dsimp only | fail_if_no_progress with_reducible refine Dev.only_mk ?_ (by and_intros <;> first | exact Or.inr (by with_reducible rfl) | exact Or.inl (by decide)) | split | with_reducible intro _

theorem Dev.portParked_only (d : Dev) (s : Nat) : d.onlyChanges (Dev.portParked d s) [.prm, .host, .links, .ports] := by
  unfold Dev.portParked
  repeat' first | with_reducible apply Dev.only_refl | (with_reducible show Part.within _ _ = true; decide) | with_reducible apply Dev.only_then (Dev.modMportEv_only _ _ _) | with_reducible apply Dev.only_then (Dev.powerDownNow_only _ _) | with_reducible apply Dev.only_ite | dsimp only | fail_if_no_progress with_reducible refine Dev.only_mk ?_ (by and_intros <;> first | exact Or.inr (by with_reducible rfl) | exact Or.inl (by decide)) | split | with_reducible intro _

theorem Dev.releaseResetTicket_only (d : Dev) : d.onlyChanges (Dev.releaseResetTicket d) [.prm, .sluice, .lamp] := by
  unfold Dev.releaseResetTicket
  repeat' first | with_reducible apply Dev.only_refl | (with_reducible show Part.within _ _ = true; decide) | with_reducible apply Dev.only_then (Dev.release_only _ _) | with_reducible apply Dev.only_ite | dsimp only | fail_if_no_progress with_reducible refine Dev.only_mk ?_ (by and_intros <;> first | exact Or.inr (by with_reducible rfl) | exact Or.inl (by decide)) | split | with_reducible intro _

theorem Dev.portHoldup_only (d : Dev) (s : Nat) : d.onlyChanges (Dev.portHoldup d s) [.prm, .host, .links, .ports] := by
  unfold Dev.portHoldup
  repeat' first | with_reducible apply Dev.only_refl | (with_reducible show Part.within _ _ = true; decide) | with_reducible apply Dev.only_then (Dev.modMportEv_only _ _ _) | with_reducible apply Dev.only_ite | dsimp only | fail_if_no_progress with_reducible refine Dev.only_mk ?_ (by and_intros <;> first | exact Or.inr (by with_reducible rfl) | exact Or.inl (by decide)) | split | with_reducible intro _

theorem Dev.portFail_only (d : Dev) (s code arg : Nat) : d.onlyChanges (Dev.portFail d s code arg) [.prm, .sluice, .host, .links, .seq, .ports, .lamp, .gov, .saf, .jnl] := by
  unfold Dev.portFail
  repeat' first | with_reducible apply Dev.only_refl | (with_reducible show Part.within _ _ = true; decide) | with_reducible apply Dev.only_then (Dev.modMportEv_only _ _ _) | with_reducible apply Dev.only_then (Dev.raiseWith_only _ _ _ _ _ _) | with_reducible apply Dev.only_then (Dev.powerDownNow_only _ _) | with_reducible apply Dev.only_then (Dev.releaseResetTicket_only _) | with_reducible apply Dev.only_ite | dsimp only | fail_if_no_progress with_reducible refine Dev.only_mk ?_ (by and_intros <;> first | exact Or.inr (by with_reducible rfl) | exact Or.inl (by decide)) | split | with_reducible intro _

theorem Dev.arrayFault_only (d : Dev) (s : Nat) : d.onlyChanges (Dev.arrayFault d s) [.prm, .sluice, .host, .links, .seq, .ports, .lamp, .gov, .saf, .jnl] := by
  unfold Dev.arrayFault
  repeat' first | with_reducible apply Dev.only_refl | (with_reducible show Part.within _ _ = true; decide) | with_reducible apply Dev.only_then (Dev.count_only _ _ _ _) | with_reducible apply Dev.only_then (Dev.portFail_only _ _ _ _) | dsimp only | fail_if_no_progress with_reducible refine Dev.only_mk ?_ (by and_intros <;> first | exact Or.inr (by with_reducible rfl) | exact Or.inl (by decide)) | split | with_reducible intro _

theorem Dev.judgeIdent_only (d : Dev) (s : Nat) (payload : List Byte) : d.onlyChanges (Dev.judgeIdent d s payload) [.prm, .sluice, .host, .links, .seq, .ports, .lamp, .gov, .saf, .jnl] := by
  unfold Dev.judgeIdent
  repeat' first | with_reducible apply Dev.only_refl | (with_reducible show Part.within _ _ = true; decide) | with_reducible apply Dev.only_then (Dev.modMport_only _ _ _) | with_reducible apply Dev.only_then (Dev.powerDown_only _ _) | with_reducible apply Dev.only_then (Dev.portParked_only _ _) | with_reducible apply Dev.only_then (Dev.portFail_only _ _ _ _) | with_reducible apply Dev.only_ite | dsimp only | fail_if_no_progress with_reducible refine Dev.only_mk ?_ (by and_intros <;> first | exact Or.inr (by with_reducible rfl) | exact Or.inl (by decide)) | split | with_reducible intro _

theorem Dev.judgeHeld_only (d : Dev) : d.onlyChanges (Dev.judgeHeld d) [.prm, .sluice, .host, .links, .seq, .ports, .lamp, .gov, .saf, .jnl] := by
  unfold Dev.judgeHeld
  repeat' first | with_reducible apply Dev.only_refl | (with_reducible show Part.within _ _ = true; decide) | with_reducible apply Dev.only_then (Dev.judgeIdent_only _ _ _) | with_reducible apply Dev.only_ite | dsimp only | fail_if_no_progress with_reducible refine Dev.only_mk ?_ (by and_intros <;> first | exact Or.inr (by with_reducible rfl) | exact Or.inl (by decide)) | split | with_reducible intro _

theorem Dev.identIn_only (d : Dev) (s : Nat) (payload : List Byte) : d.onlyChanges (Dev.identIn d s payload) [.prm, .sluice, .host, .links, .seq, .ports, .lamp, .gov, .saf, .jnl] := by
  unfold Dev.identIn
  repeat' first | with_reducible apply Dev.only_refl | (with_reducible show Part.within _ _ = true; decide) | with_reducible apply Dev.only_then (Dev.modMport_only _ _ _) | with_reducible apply Dev.only_then (Dev.judgeIdent_only _ _ _) | with_reducible apply Dev.only_then (Dev.judgeHeld_only _) | with_reducible apply Dev.only_ite | dsimp only | fail_if_no_progress with_reducible refine Dev.only_mk ?_ (by and_intros <;> first | exact Or.inr (by with_reducible rfl) | exact Or.inl (by decide)) | split | with_reducible intro _

theorem Dev.failAndJudge_only (d : Dev) (s code arg : Nat) : d.onlyChanges (Dev.failAndJudge d s code arg) [.prm, .sluice, .host, .links, .seq, .ports, .lamp, .gov, .saf, .jnl] := by
  unfold Dev.failAndJudge
  repeat' first | with_reducible apply Dev.only_refl | (with_reducible show Part.within _ _ = true; decide) | with_reducible apply Dev.only_then (Dev.portFail_only _ _ _ _) | with_reducible apply Dev.only_then (Dev.judgeHeld_only _) | dsimp only | fail_if_no_progress with_reducible refine Dev.only_mk ?_ (by and_intros <;> first | exact Or.inr (by with_reducible rfl) | exact Or.inl (by decide)) | split | with_reducible intro _

theorem Dev.identMissed_only (d : Dev) (s : Nat) : d.onlyChanges (Dev.identMissed d s) [.prm, .sluice, .host, .links, .seq, .ports, .lamp, .gov, .saf, .jnl] := by
  unfold Dev.identMissed
  repeat' first | with_reducible apply Dev.only_refl | (with_reducible show Part.within _ _ = true; decide) | with_reducible apply Dev.only_then (Dev.modMport_only _ _ _) | with_reducible apply Dev.only_then (Dev.count_only _ _ _ _) | with_reducible apply Dev.only_then (Dev.failAndJudge_only _ _ _ _) | with_reducible apply Dev.only_ite | dsimp only | fail_if_no_progress with_reducible refine Dev.only_mk ?_ (by and_intros <;> first | exact Or.inr (by with_reducible rfl) | exact Or.inl (by decide)) | split | with_reducible intro _

theorem Dev.startTrain_only (d : Dev) (s : Nat) (rb0 rb1 : List Bool) : d.onlyChanges (Dev.startTrain d s rb0 rb1) [.prm, .host, .links, .ports, .cal] := by
  unfold Dev.startTrain
  repeat' first | with_reducible apply Dev.only_refl | (with_reducible show Part.within _ _ = true; decide) | with_reducible apply Dev.only_then (Dev.setCorr_only _ _ _) | with_reducible apply Dev.only_then (Dev.applyVal_only _ _) | with_reducible apply Dev.only_then (Dev.modMportEv_only _ _ _) | dsimp only | fail_if_no_progress with_reducible refine Dev.only_mk ?_ (by and_intros <;> first | exact Or.inr (by with_reducible rfl) | exact Or.inl (by decide)) | split | with_reducible intro _

theorem Dev.setTaps_only (d : Dev) (s : Nat) (first last : List (Nat × Nat)) : d.onlyChanges (Dev.setTaps d s first last) [.prm, .sluice, .host, .links, .seq, .ports, .lamp, .gov, .saf, .jnl, .cal] := by
  unfold Dev.setTaps
  repeat' first | with_reducible apply Dev.only_refl | (with_reducible show Part.within _ _ = true; decide) | with_reducible apply Dev.only_foldl | with_reducible apply Dev.only_foldl_fst | with_reducible apply Dev.only_then (Dev.setCorr_only _ _ _) | with_reducible apply Dev.only_then (Dev.count_only _ _ _ _) | with_reducible apply Dev.only_then (Dev.raise_only _ _ _ _) | with_reducible apply Dev.only_then (Dev.clearFault_only _ _ _) | with_reducible apply Dev.only_ite | dsimp only | fail_if_no_progress with_reducible refine Dev.only_mk ?_ (by and_intros <;> first | exact Or.inr (by with_reducible rfl) | exact Or.inl (by decide)) | split | with_reducible intro _

theorem Dev.assignLanes_only (d : Dev) (s : Nat) (bad : List Nat) : d.onlyChanges (Dev.assignLanes d s bad) [.ports] := by
  unfold Dev.assignLanes
  repeat' first | with_reducible apply Dev.only_refl | (with_reducible show Part.within _ _ = true; decide) | with_reducible apply Dev.only_then (Dev.modMport_only _ _ _) | with_reducible apply Dev.only_ite | dsimp only | fail_if_no_progress with_reducible refine Dev.only_mk ?_ (by and_intros <;> first | exact Or.inr (by with_reducible rfl) | exact Or.inl (by decide)) | split | with_reducible intro _

theorem Dev.trainDone_only (d : Dev) (s : Nat) : d.onlyChanges (Dev.trainDone d s) [.prm, .sluice, .host, .links, .seq, .ports, .lamp, .gov, .saf, .jnl, .cal] := by
  unfold Dev.trainDone
  repeat' first | with_reducible apply Dev.only_refl | (with_reducible show Part.within _ _ = true; decide) | with_reducible apply Dev.only_then (Dev.modMport_only _ _ _) | with_reducible apply Dev.only_then (Dev.modMportEv_only _ _ _) | with_reducible apply Dev.only_then (Dev.failAndJudge_only _ _ _ _) | with_reducible apply Dev.only_then (Dev.setTaps_only _ _ _ _) | with_reducible apply Dev.only_then (Dev.assignLanes_only _ _ _) | with_reducible apply Dev.only_ite | dsimp only | fail_if_no_progress with_reducible refine Dev.only_mk ?_ (by and_intros <;> first | exact Or.inr (by with_reducible rfl) | exact Or.inl (by decide)) | split | with_reducible intro _

theorem Dev.trialResult_only (d : Dev) (s tap : Nat) (errors : List Nat) : d.onlyChanges (Dev.trialResult d s tap errors) [.ports] := by
  unfold Dev.trialResult
  repeat' first | with_reducible apply Dev.only_refl | (with_reducible show Part.within _ _ = true; decide) | with_reducible apply Dev.only_then (Dev.modMport_only _ _ _) | with_reducible apply Dev.only_ite | dsimp only | fail_if_no_progress with_reducible refine Dev.only_mk ?_ (by and_intros <;> first | exact Or.inr (by with_reducible rfl) | exact Or.inl (by decide)) | split | with_reducible intro _

theorem Dev.trainResult_only (d : Dev) (s tap : Nat) (errors : List Nat) : d.onlyChanges (Dev.trainResult d s tap errors) [.prm, .sluice, .host, .links, .seq, .ports, .lamp, .gov, .saf, .jnl, .cal] := by
  unfold Dev.trainResult
  repeat' first | with_reducible apply Dev.only_refl | (with_reducible show Part.within _ _ = true; decide) | with_reducible apply Dev.only_then (Dev.modMport_only _ _ _) | with_reducible apply Dev.only_then (Dev.trainDone_only _ _) | with_reducible apply Dev.only_then (Dev.trialResult_only _ _ _ _) | with_reducible apply Dev.only_ite | dsimp only | fail_if_no_progress with_reducible refine Dev.only_mk ?_ (by and_intros <;> first | exact Or.inr (by with_reducible rfl) | exact Or.inl (by decide)) | split | with_reducible intro _

theorem Dev.laneFails_only (d : Dev) (s k : Nat) : d.onlyChanges (Dev.laneFails d s k) [.prm, .sluice, .host, .links, .seq, .ports, .lamp, .gov, .saf, .jnl] := by
  unfold Dev.laneFails
  repeat' first | with_reducible apply Dev.only_refl | (with_reducible show Part.within _ _ = true; decide) | with_reducible apply Dev.only_then (Dev.modMport_only _ _ _) | with_reducible apply Dev.only_then (Dev.post_only _ _ _) | with_reducible apply Dev.only_then (Dev.raise_only _ _ _ _) | with_reducible apply Dev.only_ite | dsimp only | fail_if_no_progress with_reducible refine Dev.only_mk ?_ (by and_intros <;> first | exact Or.inr (by with_reducible rfl) | exact Or.inl (by decide)) | split | with_reducible intro _

theorem Dev.lane32Fails_only (d : Dev) (s : Nat) : d.onlyChanges (Dev.lane32Fails d s) [.prm, .sluice, .host, .links, .seq, .ports, .lamp, .gov, .saf, .jnl] := by
  unfold Dev.lane32Fails
  repeat' first | with_reducible apply Dev.only_refl | (with_reducible show Part.within _ _ = true; decide) | with_reducible apply Dev.only_foldl | with_reducible apply Dev.only_foldl_fst | with_reducible apply Dev.only_then (Dev.modMport_only _ _ _) | with_reducible apply Dev.only_then (Dev.raise_only _ _ _ _) | with_reducible apply Dev.only_ite | dsimp only | fail_if_no_progress with_reducible refine Dev.only_mk ?_ (by and_intros <;> first | exact Or.inr (by with_reducible rfl) | exact Or.inl (by decide)) | split | with_reducible intro _

theorem Dev.laneError_only (d : Dev) (s k : Nat) : d.onlyChanges (Dev.laneError d s k) [.prm, .sluice, .host, .links, .seq, .ports, .lamp, .gov, .saf, .jnl] := by
  unfold Dev.laneError
  repeat' first | with_reducible apply Dev.only_refl | (with_reducible show Part.within _ _ = true; decide) | with_reducible apply Dev.only_then (Dev.modMport_only _ _ _) | with_reducible apply Dev.only_then (Dev.laneFails_only _ _ _) | with_reducible apply Dev.only_then (Dev.lane32Fails_only _ _) | with_reducible apply Dev.only_ite | dsimp only | fail_if_no_progress with_reducible refine Dev.only_mk ?_ (by and_intros <;> first | exact Or.inr (by with_reducible rfl) | exact Or.inl (by decide)) | split | with_reducible intro _

theorem Dev.lanesIn_only (d : Dev) (s : Nat) (crcs : List Byte) : d.onlyChanges (Dev.lanesIn d s crcs) [.prm, .sluice, .host, .links, .seq, .ports, .lamp, .gov, .saf, .jnl] := by
  unfold Dev.lanesIn
  repeat' first | with_reducible apply Dev.only_refl | (with_reducible show Part.within _ _ = true; decide) | with_reducible apply Dev.only_foldl | with_reducible apply Dev.only_foldl_fst | with_reducible apply Dev.only_then (Dev.modMport_only _ _ _) | with_reducible apply Dev.only_then (Dev.laneError_only _ _ _) | with_reducible apply Dev.only_ite | dsimp only | fail_if_no_progress with_reducible refine Dev.only_mk ?_ (by and_intros <;> first | exact Or.inr (by with_reducible rfl) | exact Or.inl (by decide)) | split | with_reducible intro _

theorem Dev.ackIn_only (d : Dev) (s cseq cmd : Nat) : d.onlyChanges (Dev.ackIn d s cseq cmd) [.prm, .host, .links, .ports] := by
  unfold Dev.ackIn
  repeat' first | with_reducible apply Dev.only_refl | (with_reducible show Part.within _ _ = true; decide) | with_reducible apply Dev.only_then (Dev.modMport_only _ _ _) | with_reducible apply Dev.only_then (Dev.post_only _ _ _) | with_reducible apply Dev.only_ite | dsimp only | fail_if_no_progress with_reducible refine Dev.only_mk ?_ (by and_intros <;> first | exact Or.inr (by with_reducible rfl) | exact Or.inl (by decide)) | split | with_reducible intro _

theorem Dev.darkUntilNext_only (d : Dev) (s : Nat) : d.onlyChanges (Dev.darkUntilNext d s) [.seq, .gov] := by
  unfold Dev.darkUntilNext
  repeat' first | with_reducible apply Dev.only_refl | (with_reducible show Part.within _ _ = true; decide) | dsimp only | fail_if_no_progress with_reducible refine Dev.only_mk ?_ (by and_intros <;> first | exact Or.inr (by with_reducible rfl) | exact Or.inl (by decide)) | split | with_reducible intro _

theorem Dev.modChecking_only (d : Dev) (s : Nat) (f : Loaded → Loaded) : d.onlyChanges (Dev.modChecking d s f) [.seq] := by
  unfold Dev.modChecking
  repeat' first | with_reducible apply Dev.only_refl | (with_reducible show Part.within _ _ = true; decide) | dsimp only | fail_if_no_progress with_reducible refine Dev.only_mk ?_ (by and_intros <;> first | exact Or.inr (by with_reducible rfl) | exact Or.inl (by decide)) | split | with_reducible intro _

theorem Dev.aggregate_only (d : Dev) (s : Nat) (got want : BitVec 32) : d.onlyChanges (Dev.aggregate d s got want) [.seq] := by
  unfold Dev.aggregate
  repeat' first | with_reducible apply Dev.only_refl | (with_reducible show Part.within _ _ = true; decide) | dsimp only | fail_if_no_progress with_reducible refine Dev.only_mk ?_ (by and_intros <;> first | exact Or.inr (by with_reducible rfl) | exact Or.inl (by decide)) | split | with_reducible intro _

theorem Dev.closeCell_only (d : Dev) (s : Nat) (l : Loaded) (got : Option (BitVec 32)) : d.onlyChanges (Dev.closeCell d s l got) [.seq] := by
  unfold Dev.closeCell
  repeat' first | with_reducible apply Dev.only_refl | (with_reducible show Part.within _ _ = true; decide) | with_reducible apply Dev.only_then (Dev.aggregate_only _ _ _ _) | dsimp only | fail_if_no_progress with_reducible refine Dev.only_mk ?_ (by and_intros <;> first | exact Or.inr (by with_reducible rfl) | exact Or.inl (by decide)) | split | with_reducible intro _

theorem Dev.busCrcIn_only (d : Dev) (s entry : Nat) (crc : BitVec 32) : d.onlyChanges (Dev.busCrcIn d s entry crc) [.prm, .sluice, .host, .links, .seq, .ports, .lamp, .gov, .saf, .jnl] := by
  unfold Dev.busCrcIn
  repeat' first | with_reducible apply Dev.only_refl | (with_reducible show Part.within _ _ = true; decide) | with_reducible apply Dev.only_then (Dev.modMport_only _ _ _) | with_reducible apply Dev.only_then (Dev.count_only _ _ _ _) | with_reducible apply Dev.only_then (Dev.raise_only _ _ _ _) | with_reducible apply Dev.only_then (Dev.darkUntilNext_only _ _) | with_reducible apply Dev.only_then (Dev.modChecking_only _ _ _) | with_reducible apply Dev.only_ite | dsimp only | fail_if_no_progress with_reducible refine Dev.only_mk ?_ (by and_intros <;> first | exact Or.inr (by with_reducible rfl) | exact Or.inl (by decide)) | split | with_reducible intro _

theorem Dev.cellCrcIn_only (d : Dev) (s entry : Nat) (crc : BitVec 32) : d.onlyChanges (Dev.cellCrcIn d s entry crc) [.prm, .sluice, .host, .links, .seq, .ports, .lamp, .gov, .saf, .jnl] := by
  unfold Dev.cellCrcIn
  repeat' first | with_reducible apply Dev.only_refl | (with_reducible show Part.within _ _ = true; decide) | with_reducible apply Dev.only_then (Dev.count_only _ _ _ _) | with_reducible apply Dev.only_then (Dev.raise_only _ _ _ _) | with_reducible apply Dev.only_then (Dev.darkUntilNext_only _ _) | with_reducible apply Dev.only_then (Dev.closeCell_only _ _ _ _) | with_reducible apply Dev.only_ite | dsimp only | fail_if_no_progress with_reducible refine Dev.only_mk ?_ (by and_intros <;> first | exact Or.inr (by with_reducible rfl) | exact Or.inl (by decide)) | split | with_reducible intro _

theorem Dev.crcLate_only (d : Dev) (s : Nat) (cell : Bool) : d.onlyChanges (Dev.crcLate d s cell) [.prm, .sluice, .host, .links, .seq, .ports, .lamp, .gov, .saf, .jnl] := by
  unfold Dev.crcLate
  repeat' first | with_reducible apply Dev.only_refl | (with_reducible show Part.within _ _ = true; decide) | with_reducible apply Dev.only_then (Dev.count_only _ _ _ _) | with_reducible apply Dev.only_then (Dev.raise_only _ _ _ _) | with_reducible apply Dev.only_then (Dev.darkUntilNext_only _ _) | with_reducible apply Dev.only_then (Dev.modChecking_only _ _ _) | with_reducible apply Dev.only_then (Dev.closeCell_only _ _ _ _) | with_reducible apply Dev.only_ite | dsimp only | fail_if_no_progress with_reducible refine Dev.only_mk ?_ (by and_intros <;> first | exact Or.inr (by with_reducible rfl) | exact Or.inl (by decide)) | split | with_reducible intro _

/-! ### LayerOps.lean -/

theorem Dev.declare_only (d : Dev) (n : Nat) (c : Decl) (p : Placed) (scalers : List Nat) : d.onlyChanges (Dev.declare d n c p scalers) [.cmp] := by
  unfold Dev.declare
  repeat' first | with_reducible apply Dev.only_refl | (with_reducible show Part.within _ _ = true; decide) | with_reducible apply Dev.only_ite | dsimp only | fail_if_no_progress with_reducible refine Dev.only_mk ?_ (by and_intros <;> first | exact Or.inr (by with_reducible rfl) | exact Or.inl (by decide)) | split | with_reducible intro _

theorem Dev.retire_only (d : Dev) (n frame : Nat) (shown : Bool) : d.onlyChanges (Dev.retire d n frame shown) [.prm, .host, .links] := by
  unfold Dev.retire
  repeat' first | with_reducible apply Dev.only_refl | (with_reducible show Part.within _ _ = true; decide) | with_reducible apply Dev.only_then (Dev.setPar_only _ _ _ _) | with_reducible apply Dev.only_then (Dev.post_only _ _ _) | with_reducible apply Dev.only_ite | dsimp only | fail_if_no_progress with_reducible refine Dev.only_mk ?_ (by and_intros <;> first | exact Or.inr (by with_reducible rfl) | exact Or.inl (by decide)) | split | with_reducible intro _

theorem Dev.storeEarly_only (d : Dev) (f t : Nat) : d.onlyChanges (Dev.storeEarly d f t) [.prm, .cmp] := by
  unfold Dev.storeEarly
  repeat' first | with_reducible apply Dev.only_refl | (with_reducible show Part.within _ _ = true; decide) | with_reducible apply Dev.only_then (Dev.count_only _ _ _ _) | with_reducible apply Dev.only_ite | dsimp only | fail_if_no_progress with_reducible refine Dev.only_mk ?_ (by and_intros <;> first | exact Or.inr (by with_reducible rfl) | exact Or.inl (by decide)) | split | with_reducible intro _

theorem Dev.finishSignals_only (d : Dev) (f : Nat) : d.onlyChanges (Dev.finishSignals d f) [.prm, .host, .links] := by
  unfold Dev.finishSignals
  repeat' first | with_reducible apply Dev.only_refl | (with_reducible show Part.within _ _ = true; decide) | with_reducible apply Dev.only_foldl | with_reducible apply Dev.only_foldl_fst | with_reducible apply Dev.only_then (Dev.finish_only _ _ _ _ _) | dsimp only | fail_if_no_progress with_reducible refine Dev.only_mk ?_ (by and_intros <;> first | exact Or.inr (by with_reducible rfl) | exact Or.inl (by decide)) | split | with_reducible intro _

theorem Dev.signalFence_only (d : Dev) (f : Nat) : d.onlyChanges (Dev.signalFence d f) [.prm, .host, .links, .cmp] := by
  unfold Dev.signalFence
  repeat' first | with_reducible apply Dev.only_refl | (with_reducible show Part.within _ _ = true; decide) | with_reducible apply Dev.only_then (Dev.storeEarly_only _ _ _) | with_reducible apply Dev.only_then (Dev.finishSignals_only _ _) | with_reducible apply Dev.only_ite | dsimp only | fail_if_no_progress with_reducible refine Dev.only_mk ?_ (by and_intros <;> first | exact Or.inr (by with_reducible rfl) | exact Or.inl (by decide)) | split | with_reducible intro _

theorem Dev.storeUnnamed_only (d : Dev) (fences : List (Nat × Option Nat)) : d.onlyChanges (Dev.storeUnnamed d fences) [.prm, .cmp] := by
  unfold Dev.storeUnnamed
  repeat' first | with_reducible apply Dev.only_refl | (with_reducible show Part.within _ _ = true; decide) | with_reducible apply Dev.only_foldl | with_reducible apply Dev.only_foldl_fst | with_reducible apply Dev.only_then (Dev.storeEarly_only _ _ _) | with_reducible apply Dev.only_ite | dsimp only | fail_if_no_progress with_reducible refine Dev.only_mk ?_ (by and_intros <;> first | exact Or.inr (by with_reducible rfl) | exact Or.inl (by decide)) | split | with_reducible intro _

theorem Dev.disarm_only (d : Dev) (g : Nat) : d.onlyChanges (Dev.disarm d g) [.prm, .cmp] := by
  unfold Dev.disarm
  repeat' first | with_reducible apply Dev.only_refl | (with_reducible show Part.within _ _ = true; decide) | with_reducible apply Dev.only_then (Dev.modGroup_only _ _ _) | with_reducible apply Dev.only_then (Dev.storeUnnamed_only _ _) | dsimp only | fail_if_no_progress with_reducible refine Dev.only_mk ?_ (by and_intros <;> first | exact Or.inr (by with_reducible rfl) | exact Or.inl (by decide)) | split | with_reducible intro _

theorem Dev.arm_only (d : Dev) (g : Nat) (fences : List Nat) (p : Port) (tag : Nat) : d.onlyChanges (Dev.arm d g fences p tag) [.prm, .cmp] := by
  unfold Dev.arm
  repeat' first | with_reducible apply Dev.only_refl | (with_reducible show Part.within _ _ = true; decide) | with_reducible apply Dev.only_then (Dev.storeUnnamed_only _ _) | dsimp only | fail_if_no_progress with_reducible refine Dev.only_mk ?_ (by and_intros <;> first | exact Or.inr (by with_reducible rfl) | exact Or.inl (by decide)) | split | with_reducible intro _

theorem Dev.signalBound_only (d : Dev) (n : Nat) (p : BoundFence → Bool) : d.onlyChanges (Dev.signalBound d n p) [.prm, .host, .links, .cmp] := by
  unfold Dev.signalBound
  repeat' first | with_reducible apply Dev.only_refl | (with_reducible show Part.within _ _ = true; decide) | with_reducible apply Dev.only_foldl | with_reducible apply Dev.only_foldl_fst | with_reducible apply Dev.only_then (Dev.modLayer_only _ _ _) | with_reducible apply Dev.only_then (Dev.signalFence_only _ _) | dsimp only | fail_if_no_progress with_reducible refine Dev.only_mk ?_ (by and_intros <;> first | exact Or.inr (by with_reducible rfl) | exact Or.inl (by decide)) | split | with_reducible intro _

theorem Dev.openFrame_only (d : Dev) (n f : Nat) (link : LinkId) : d.onlyChanges (Dev.openFrame d n f link) [.prm, .host, .links, .cmp] := by
  unfold Dev.openFrame
  repeat' first | with_reducible apply Dev.only_refl | (with_reducible show Part.within _ _ = true; decide) | with_reducible apply Dev.only_then (Dev.modLayer_only _ _ _) | with_reducible apply Dev.only_then (Dev.count_only _ _ _ _) | with_reducible apply Dev.only_then (Dev.signalBound_only _ _ _) | with_reducible apply Dev.only_ite | dsimp only | fail_if_no_progress with_reducible refine Dev.only_mk ?_ (by and_intros <;> first | exact Or.inr (by with_reducible rfl) | exact Or.inl (by decide)) | split | with_reducible intro _

theorem Dev.closeFrame_only (d : Dev) (n : Nat) : d.onlyChanges (Dev.closeFrame d n) [.prm, .host, .links, .cmp] := by
  unfold Dev.closeFrame
  repeat' first | with_reducible apply Dev.only_refl | (with_reducible show Part.within _ _ = true; decide) | with_reducible apply Dev.only_then (Dev.modLayer_only _ _ _) | with_reducible apply Dev.only_then (Dev.count_only _ _ _ _) | with_reducible apply Dev.only_then (Dev.post_only _ _ _) | with_reducible apply Dev.only_then (Dev.retire_only _ _ _ _) | with_reducible apply Dev.only_then (Dev.signalBound_only _ _ _) | with_reducible apply Dev.only_ite | dsimp only | fail_if_no_progress with_reducible refine Dev.only_mk ?_ (by and_intros <;> first | exact Or.inr (by with_reducible rfl) | exact Or.inl (by decide)) | split | with_reducible intro _

theorem Dev.closeMissing_only (d : Dev) (n : Nat) : d.onlyChanges (Dev.closeMissing d n) [.prm, .host, .links, .cmp] := by
  unfold Dev.closeMissing
  repeat' first | with_reducible apply Dev.only_refl | (with_reducible show Part.within _ _ = true; decide) | with_reducible apply Dev.only_then (Dev.count_only _ _ _ _) | with_reducible apply Dev.only_then (Dev.closeFrame_only _ _) | dsimp only | fail_if_no_progress with_reducible refine Dev.only_mk ?_ (by and_intros <;> first | exact Or.inr (by with_reducible rfl) | exact Or.inl (by decide)) | split | with_reducible intro _

theorem Dev.closeFramesOf_only (d : Dev) (l : LinkId) : d.onlyChanges (Dev.closeFramesOf d l) [.prm, .host, .links, .cmp] := by
  unfold Dev.closeFramesOf
  repeat' first | with_reducible apply Dev.only_refl | (with_reducible show Part.within _ _ = true; decide) | with_reducible apply Dev.only_foldl | with_reducible apply Dev.only_foldl_fst | with_reducible apply Dev.only_then (Dev.closeMissing_only _ _) | with_reducible apply Dev.only_ite | dsimp only | fail_if_no_progress with_reducible refine Dev.only_mk ?_ (by and_intros <;> first | exact Or.inr (by with_reducible rfl) | exact Or.inl (by decide)) | split | with_reducible intro _

theorem Dev.copyDone_only (d : Dev) (n : Nat) : d.onlyChanges (Dev.copyDone d n) [.prm, .host, .links, .cmp] := by
  unfold Dev.copyDone
  repeat' first | with_reducible apply Dev.only_refl | (with_reducible show Part.within _ _ = true; decide) | with_reducible apply Dev.only_then (Dev.modLayer_only _ _ _) | with_reducible apply Dev.only_then (Dev.count_only _ _ _ _) | with_reducible apply Dev.only_then (Dev.retire_only _ _ _ _) | with_reducible apply Dev.only_then (Dev.signalBound_only _ _ _) | with_reducible apply Dev.only_ite | dsimp only | fail_if_no_progress with_reducible refine Dev.only_mk ?_ (by and_intros <;> first | exact Or.inr (by with_reducible rfl) | exact Or.inl (by decide)) | split | with_reducible intro _

theorem Dev.discardLine_only (d : Dev) (link : LinkId) : d.onlyChanges (Dev.discardLine d link) [.prm] := by
  unfold Dev.discardLine
  repeat' first | with_reducible apply Dev.only_refl | (with_reducible show Part.within _ _ = true; decide) | with_reducible apply Dev.only_then (Dev.count_only _ _ _ _) | dsimp only | fail_if_no_progress with_reducible refine Dev.only_mk ?_ (by and_intros <;> first | exact Or.inr (by with_reducible rfl) | exact Or.inl (by decide)) | split | with_reducible intro _

theorem Dev.writeLine_only (d : Dev) (n plane row x0 count : Nat) (data : List Byte) : d.onlyChanges (Dev.writeLine d n plane row x0 count data) [.prm, .cmp] := by
  unfold Dev.writeLine
  repeat' first | with_reducible apply Dev.only_refl | (with_reducible show Part.within _ _ = true; decide) | with_reducible apply Dev.only_then (Dev.modLayer_only _ _ _) | with_reducible apply Dev.only_then (Dev.count_only _ _ _ _) | dsimp only | fail_if_no_progress with_reducible refine Dev.only_mk ?_ (by and_intros <;> first | exact Or.inr (by with_reducible rfl) | exact Or.inl (by decide)) | split | with_reducible intro _

theorem Dev.lineIn_only (d : Dev) (link : LinkId) (sub : Nat) (p : List Byte) : d.onlyChanges (Dev.lineIn d link sub p) [.prm, .host, .links, .cmp] := by
  unfold Dev.lineIn
  repeat' first | with_reducible apply Dev.only_refl | (with_reducible show Part.within _ _ = true; decide) | with_reducible apply Dev.only_then (Dev.count_only _ _ _ _) | with_reducible apply Dev.only_then (Dev.openFrame_only _ _ _ _) | with_reducible apply Dev.only_then (Dev.closeFrame_only _ _) | with_reducible apply Dev.only_then (Dev.closeMissing_only _ _) | with_reducible apply Dev.only_then (Dev.discardLine_only _ _) | with_reducible apply Dev.only_then (Dev.writeLine_only _ _ _ _ _ _ _) | with_reducible apply Dev.only_ite | dsimp only | fail_if_no_progress with_reducible refine Dev.only_mk ?_ (by and_intros <;> first | exact Or.inr (by with_reducible rfl) | exact Or.inl (by decide)) | split | with_reducible intro _

theorem Dev.fence_only (d : Dev) (p : List Byte) : d.onlyChanges (Dev.fence d p).1 [.prm, .host, .links, .cmp] := by
  unfold Dev.fence
  repeat' first | with_reducible apply Dev.only_refl | (with_reducible show Part.within _ _ = true; decide) | with_reducible apply Dev.only_then (Dev.modLayer_only _ _ _) | with_reducible apply Dev.only_then (Dev.signalFence_only _ _) | with_reducible apply Dev.only_then (Dev.closeMissing_only _ _) | with_reducible apply Dev.only_ite | dsimp only | fail_if_no_progress with_reducible refine Dev.only_mk ?_ (by and_intros <;> first | exact Or.inr (by with_reducible rfl) | exact Or.inl (by decide)) | split | with_reducible intro _

/-! ### ComposeOps.lean -/

theorem Dev.modRects_only (d : Dev) (s : Nat) (f : SigRect → SigRect) : d.onlyChanges (Dev.modRects d s f) [.saf] := by
  unfold Dev.modRects
  repeat' first | with_reducible apply Dev.only_refl | (with_reducible show Part.within _ _ = true; decide) | dsimp only | fail_if_no_progress with_reducible refine Dev.only_mk ?_ (by and_intros <;> first | exact Or.inr (by with_reducible rfl) | exact Or.inl (by decide)) | split | with_reducible intro _

theorem Dev.setRect_only (d : Dev) (s i : Nat) (r : SigRect) : d.onlyChanges (Dev.setRect d s i r) [.saf] := by
  unfold Dev.setRect
  repeat' first | with_reducible apply Dev.only_refl | (with_reducible show Part.within _ _ = true; decide) | dsimp only | fail_if_no_progress with_reducible refine Dev.only_mk ?_ (by and_intros <;> first | exact Or.inr (by with_reducible rfl) | exact Or.inl (by decide)) | split | with_reducible intro _

theorem Dev.rectsModeChange_only (d : Dev) (r : ModeRow) : d.onlyChanges (Dev.rectsModeChange d r) [.prm, .host, .links, .saf] := by
  unfold Dev.rectsModeChange
  repeat' first | with_reducible apply Dev.only_refl | (with_reducible show Part.within _ _ = true; decide) | with_reducible apply Dev.only_foldl | with_reducible apply Dev.only_foldl_fst | with_reducible apply Dev.only_then (Dev.post_only _ _ _) | with_reducible apply Dev.only_then (Dev.setRect_only _ _ _ _) | with_reducible apply Dev.only_ite | dsimp only | fail_if_no_progress with_reducible refine Dev.only_mk ?_ (by and_intros <;> first | exact Or.inr (by with_reducible rfl) | exact Or.inl (by decide)) | split | with_reducible intro _

theorem Dev.judgeRect_only (d : Dev) (s i : Nat) : d.onlyChanges (Dev.judgeRect d s i).1 [.prm, .sluice, .host, .links, .seq, .ports, .lamp, .gov, .saf, .jnl] := by
  unfold Dev.judgeRect
  repeat' first | with_reducible apply Dev.only_refl | (with_reducible show Part.within _ _ = true; decide) | with_reducible apply Dev.only_then (Dev.count_only _ _ _ _) | with_reducible apply Dev.only_then (Dev.post_only _ _ _) | with_reducible apply Dev.only_then (Dev.raise_only _ _ _ _) | with_reducible apply Dev.only_then (Dev.setRect_only _ _ _ _) | with_reducible apply Dev.only_ite | dsimp only | fail_if_no_progress with_reducible refine Dev.only_mk ?_ (by and_intros <;> first | exact Or.inr (by with_reducible rfl) | exact Or.inl (by decide)) | split | with_reducible intro _

theorem Dev.judgeRects_only (d : Dev) (s : Nat) : d.onlyChanges (Dev.judgeRects d s) [.prm, .sluice, .host, .links, .cmp, .seq, .ports, .lamp, .gov, .saf, .jnl] := by
  unfold Dev.judgeRects
  repeat' first | with_reducible apply Dev.only_refl | (with_reducible show Part.within _ _ = true; decide) | with_reducible apply Dev.only_foldl | with_reducible apply Dev.only_foldl_fst | with_reducible apply Dev.only_then (Dev.modPipe_only _ _ _) | with_reducible apply Dev.only_then (Dev.count_only _ _ _ _) | with_reducible apply Dev.only_then (Dev.judgeRect_only _ _ _) | with_reducible apply Dev.only_ite | dsimp only | fail_if_no_progress with_reducible refine Dev.only_mk ?_ (by and_intros <;> first | exact Or.inr (by with_reducible rfl) | exact Or.inl (by decide)) | split | with_reducible intro _

theorem Dev.judgeFreeze_only (d : Dev) (s : Nat) : d.onlyChanges (Dev.judgeFreeze d s) [.prm, .sluice, .host, .links, .seq, .ports, .lamp, .gov, .saf, .jnl] := by
  unfold Dev.judgeFreeze
  repeat' first | with_reducible apply Dev.only_refl | (with_reducible show Part.within _ _ = true; decide) | with_reducible apply Dev.only_then (Dev.raise_only _ _ _ _) | with_reducible apply Dev.only_ite | dsimp only | fail_if_no_progress with_reducible refine Dev.only_mk ?_ (by and_intros <;> first | exact Or.inr (by with_reducible rfl) | exact Or.inl (by decide)) | split | with_reducible intro _

theorem Dev.passDone_only (d : Dev) (s : Nat) : d.onlyChanges (Dev.passDone d s) [.prm, .sluice, .host, .links, .cmp, .seq, .ports, .lamp, .gov, .saf, .jnl] := by
  unfold Dev.passDone
  repeat' first | with_reducible apply Dev.only_refl | (with_reducible show Part.within _ _ = true; decide) | with_reducible apply Dev.only_then (Dev.modPipe_only _ _ _) | with_reducible apply Dev.only_then (Dev.release_only _ _) | with_reducible apply Dev.only_then (Dev.judgeRects_only _ _) | with_reducible apply Dev.only_then (Dev.judgeFreeze_only _ _) | with_reducible apply Dev.only_ite | dsimp only | fail_if_no_progress with_reducible refine Dev.only_mk ?_ (by and_intros <;> first | exact Or.inr (by with_reducible rfl) | exact Or.inl (by decide)) | split | with_reducible intro _

theorem Dev.dropPass_only (d : Dev) (s : Nat) : d.onlyChanges (Dev.dropPass d s) [.prm, .sluice, .cmp, .lamp] := by
  unfold Dev.dropPass
  repeat' first | with_reducible apply Dev.only_refl | (with_reducible show Part.within _ _ = true; decide) | with_reducible apply Dev.only_then (Dev.modPipe_only _ _ _) | with_reducible apply Dev.only_then (Dev.release_only _ _) | with_reducible apply Dev.only_ite | dsimp only | fail_if_no_progress with_reducible refine Dev.only_mk ?_ (by and_intros <;> first | exact Or.inr (by with_reducible rfl) | exact Or.inl (by decide)) | split | with_reducible intro _

theorem Dev.exchange_only (d : Dev) (s : Nat) : d.onlyChanges (Dev.exchange d s) [.cmp, .saf] := by
  unfold Dev.exchange
  repeat' first | with_reducible apply Dev.only_refl | (with_reducible show Part.within _ _ = true; decide) | with_reducible apply Dev.only_then (Dev.modPipe_only _ _ _) | with_reducible apply Dev.only_ite | dsimp only | fail_if_no_progress with_reducible refine Dev.only_mk ?_ (by and_intros <;> first | exact Or.inr (by with_reducible rfl) | exact Or.inl (by decide)) | split | with_reducible intro _

theorem Dev.stopPasses_only (d : Dev) : d.onlyChanges (Dev.stopPasses d) [.prm, .sluice, .cmp, .lamp] := by
  unfold Dev.stopPasses
  repeat' first | with_reducible apply Dev.only_refl | (with_reducible show Part.within _ _ = true; decide) | with_reducible apply Dev.only_foldl | with_reducible apply Dev.only_foldl_fst | with_reducible apply Dev.only_then (Dev.dropPass_only _ _) | dsimp only | fail_if_no_progress with_reducible refine Dev.only_mk ?_ (by and_intros <;> first | exact Or.inr (by with_reducible rfl) | exact Or.inl (by decide)) | split | with_reducible intro _

theorem Dev.startPass_only (d : Dev) (s mode : Nat) (bridge expects : Bool) : d.onlyChanges (Dev.startPass d s mode bridge expects) [.cmp, .saf] := by
  unfold Dev.startPass
  repeat' first | with_reducible apply Dev.only_refl | (with_reducible show Part.within _ _ = true; decide) | with_reducible apply Dev.only_then (Dev.modPipe_only _ _ _) | with_reducible apply Dev.only_then (Dev.modRects_only _ _ _) | with_reducible apply Dev.only_ite | dsimp only | fail_if_no_progress with_reducible refine Dev.only_mk ?_ (by and_intros <;> first | exact Or.inr (by with_reducible rfl) | exact Or.inl (by decide)) | split | with_reducible intro _

theorem Dev.abandon_only (d : Dev) (s : Nat) (pllM : Bool) : d.onlyChanges (Dev.abandon d s pllM) [.prm, .sluice, .host, .links, .cmp, .lamp] := by
  unfold Dev.abandon
  repeat' first | with_reducible apply Dev.only_refl | (with_reducible show Part.within _ _ = true; decide) | with_reducible apply Dev.only_then (Dev.post_only _ _ _) | with_reducible apply Dev.only_then (Dev.dropPass_only _ _) | with_reducible apply Dev.only_ite | dsimp only | fail_if_no_progress with_reducible refine Dev.only_mk ?_ (by and_intros <;> first | exact Or.inr (by with_reducible rfl) | exact Or.inl (by decide)) | split | with_reducible intro _

theorem Dev.stepOffset_only (d : Dev) : d.onlyChanges (Dev.stepOffset d) [.cmp] := by
  unfold Dev.stepOffset
  repeat' first | with_reducible apply Dev.only_refl | (with_reducible show Part.within _ _ = true; decide) | with_reducible apply Dev.only_ite | dsimp only | fail_if_no_progress with_reducible refine Dev.only_mk ?_ (by and_intros <;> first | exact Or.inr (by with_reducible rfl) | exact Or.inl (by decide)) | split | with_reducible intro _

theorem Dev.applyLayer_only (d : Dev) (n : Nat) : d.onlyChanges (Dev.applyLayer d n) [.prm, .cmp] := by
  unfold Dev.applyLayer
  repeat' first | with_reducible apply Dev.only_refl | (with_reducible show Part.within _ _ = true; decide) | with_reducible apply Dev.only_foldl | with_reducible apply Dev.only_foldl_fst | with_reducible apply Dev.only_then (Dev.modLayer_only _ _ _) | with_reducible apply Dev.only_then (Dev.applyVal_only _ _) | with_reducible apply Dev.only_then (Dev.applyArr_only _ _) | dsimp only | fail_if_no_progress with_reducible refine Dev.only_mk ?_ (by and_intros <;> first | exact Or.inr (by with_reducible rfl) | exact Or.inl (by decide)) | split | with_reducible intro _

theorem Dev.commitGroup_only (d : Dev) (w : CfsWork) (g : Nat) : d.onlyChanges (Dev.commitGroup d w g).1 [.prm, .host, .links, .cmp] := by
  unfold Dev.commitGroup
  repeat' first | with_reducible apply Dev.only_refl | (with_reducible show Part.within _ _ = true; decide) | with_reducible apply Dev.only_foldl | with_reducible apply Dev.only_foldl_fst | with_reducible apply Dev.only_then (Dev.modLayer_only _ _ _) | with_reducible apply Dev.only_then (Dev.modGroup_only _ _ _) | with_reducible apply Dev.only_then (Dev.count_only _ _ _ _) | with_reducible apply Dev.only_then (Dev.post_only _ _ _) | with_reducible apply Dev.only_then (Dev.finish_only _ _ _ _ _) | with_reducible apply Dev.only_then (Dev.finishWith_only _ _ _ _) | with_reducible apply Dev.only_then (Dev.disarm_only _ _) | with_reducible apply Dev.only_then (Dev.applyLayer_only _ _) | with_reducible apply Dev.only_ite | dsimp only | fail_if_no_progress with_reducible refine Dev.only_mk ?_ (by and_intros <;> first | exact Or.inr (by with_reducible rfl) | exact Or.inl (by decide)) | split | with_reducible intro _

theorem Dev.commitGroups_only (d : Dev) : d.onlyChanges (Dev.commitGroups d).1 [.prm, .host, .links, .cmp] := by
  unfold Dev.commitGroups
  repeat' first | with_reducible apply Dev.only_refl | (with_reducible show Part.within _ _ = true; decide) | with_reducible apply Dev.only_foldl | with_reducible apply Dev.only_foldl_fst | with_reducible apply Dev.only_then (Dev.commitGroup_only _ _ _) | with_reducible apply Dev.only_ite | dsimp only | fail_if_no_progress with_reducible refine Dev.only_mk ?_ (by and_intros <;> first | exact Or.inr (by with_reducible rfl) | exact Or.inl (by decide)) | split | with_reducible intro _

theorem Dev.countLate_only (d : Dev) : d.onlyChanges (Dev.countLate d) [.prm, .host, .links, .cmp] := by
  unfold Dev.countLate
  repeat' first | with_reducible apply Dev.only_refl | (with_reducible show Part.within _ _ = true; decide) | with_reducible apply Dev.only_foldl | with_reducible apply Dev.only_foldl_fst | with_reducible apply Dev.only_then (Dev.modLayer_only _ _ _) | with_reducible apply Dev.only_then (Dev.modGroup_only _ _ _) | with_reducible apply Dev.only_then (Dev.count_only _ _ _ _) | with_reducible apply Dev.only_then (Dev.post_only _ _ _) | with_reducible apply Dev.only_ite | dsimp only | fail_if_no_progress with_reducible refine Dev.only_mk ?_ (by and_intros <;> first | exact Or.inr (by with_reducible rfl) | exact Or.inl (by decide)) | split | with_reducible intro _

theorem Dev.reclaim_only (d : Dev) (n : Nat) (l : Layer) : d.onlyChanges (Dev.reclaim d n l) [.prm, .cmp] := by
  unfold Dev.reclaim
  repeat' first | with_reducible apply Dev.only_refl | (with_reducible show Part.within _ _ = true; decide) | dsimp only | fail_if_no_progress with_reducible refine Dev.only_mk ?_ (by and_intros <;> first | exact Or.inr (by with_reducible rfl) | exact Or.inl (by decide)) | split | with_reducible intro _

theorem Dev.destroyLayer_only (d : Dev) (n : Nat) : d.onlyChanges (Dev.destroyLayer d n) [.prm, .host, .links, .cmp] := by
  unfold Dev.destroyLayer
  repeat' first | with_reducible apply Dev.only_refl | (with_reducible show Part.within _ _ = true; decide) | with_reducible apply Dev.only_foldl | with_reducible apply Dev.only_foldl_fst | with_reducible apply Dev.only_then (Dev.modLayer_only _ _ _) | with_reducible apply Dev.only_then (Dev.finish_only _ _ _ _ _) | dsimp only | fail_if_no_progress with_reducible refine Dev.only_mk ?_ (by and_intros <;> first | exact Or.inr (by with_reducible rfl) | exact Or.inl (by decide)) | split | with_reducible intro _

theorem Dev.retireLayer_only (d : Dev) (n : Nat) (moved : Bool) : d.onlyChanges (Dev.retireLayer d n moved) [.prm, .host, .links, .cmp] := by
  unfold Dev.retireLayer
  repeat' first | with_reducible apply Dev.only_refl | (with_reducible show Part.within _ _ = true; decide) | with_reducible apply Dev.only_foldl | with_reducible apply Dev.only_foldl_fst | with_reducible apply Dev.only_then (Dev.retire_only _ _ _ _) | with_reducible apply Dev.only_then (Dev.reclaim_only _ _ _) | dsimp only | fail_if_no_progress with_reducible refine Dev.only_mk ?_ (by and_intros <;> first | exact Or.inr (by with_reducible rfl) | exact Or.inl (by decide)) | split | with_reducible intro _

theorem Dev.destroyDueLayers_only (d : Dev) : d.onlyChanges (Dev.destroyDueLayers d) [.prm, .host, .links, .cmp] := by
  unfold Dev.destroyDueLayers
  repeat' first | with_reducible apply Dev.only_refl | (with_reducible show Part.within _ _ = true; decide) | with_reducible apply Dev.only_foldl | with_reducible apply Dev.only_foldl_fst | with_reducible apply Dev.only_then (Dev.destroyLayer_only _ _) | with_reducible apply Dev.only_ite | dsimp only | fail_if_no_progress with_reducible refine Dev.only_mk ?_ (by and_intros <;> first | exact Or.inr (by with_reducible rfl) | exact Or.inl (by decide)) | split | with_reducible intro _

theorem Dev.retireDue_only (d : Dev) (w : CfsWork) : d.onlyChanges (Dev.retireDue d w) [.prm, .host, .links, .cmp] := by
  unfold Dev.retireDue
  repeat' first | with_reducible apply Dev.only_refl | (with_reducible show Part.within _ _ = true; decide) | with_reducible apply Dev.only_foldl | with_reducible apply Dev.only_foldl_fst | with_reducible apply Dev.only_then (Dev.retire_only _ _ _ _) | with_reducible apply Dev.only_then (Dev.retireLayer_only _ _ _) | with_reducible apply Dev.only_ite | dsimp only | fail_if_no_progress with_reducible refine Dev.only_mk ?_ (by and_intros <;> first | exact Or.inr (by with_reducible rfl) | exact Or.inl (by decide)) | split | with_reducible intro _

theorem Dev.stalePolicies_only (d : Dev) (committed : List Nat) : d.onlyChanges (Dev.stalePolicies d committed) [.prm, .host, .links, .cmp] := by
  unfold Dev.stalePolicies
  repeat' first | with_reducible apply Dev.only_refl | (with_reducible show Part.within _ _ = true; decide) | with_reducible apply Dev.only_foldl | with_reducible apply Dev.only_foldl_fst | with_reducible apply Dev.only_then (Dev.modLayer_only _ _ _) | with_reducible apply Dev.only_then (Dev.post_only _ _ _) | with_reducible apply Dev.only_ite | dsimp only | fail_if_no_progress with_reducible refine Dev.only_mk ?_ (by and_intros <;> first | exact Or.inr (by with_reducible rfl) | exact Or.inl (by decide)) | split | with_reducible intro _

theorem Dev.stepBase_only (d : Dev) (s : Nat) : d.onlyChanges (Dev.stepBase d s) [.prm, .sluice, .host, .links, .cmp, .seq, .ports, .lamp, .gov, .saf, .jnl] := by
  unfold Dev.stepBase
  repeat' first | with_reducible apply Dev.only_refl | (with_reducible show Part.within _ _ = true; decide) | with_reducible apply Dev.only_then (Dev.modBase_only _ _ _) | with_reducible apply Dev.only_then (Dev.raise_only _ _ _ _) | with_reducible apply Dev.only_then (Dev.modRects_only _ _ _) | with_reducible apply Dev.only_ite | dsimp only | fail_if_no_progress with_reducible refine Dev.only_mk ?_ (by and_intros <;> first | exact Or.inr (by with_reducible rfl) | exact Or.inl (by decide)) | split | with_reducible intro _

theorem Dev.reqEffective_only (d : Dev) (req : Nat) : d.onlyChanges (Dev.reqEffective d req) [.prm, .host, .req, .links] := by
  unfold Dev.reqEffective
  repeat' first | with_reducible apply Dev.only_refl | (with_reducible show Part.within _ _ = true; decide) | with_reducible apply Dev.only_foldl | with_reducible apply Dev.only_foldl_fst | with_reducible apply Dev.only_then (Dev.finish_only _ _ _ _ _) | dsimp only | fail_if_no_progress with_reducible refine Dev.only_mk ?_ (by and_intros <;> first | exact Or.inr (by with_reducible rfl) | exact Or.inl (by decide)) | split | with_reducible intro _

theorem Dev.layer0Request_only (d : Dev) : d.onlyChanges (Dev.layer0Request d) [.prm, .host, .req, .links] := by
  unfold Dev.layer0Request
  repeat' first | with_reducible apply Dev.only_refl | (with_reducible show Part.within _ _ = true; decide) | with_reducible apply Dev.only_then (Dev.reqEffective_only _ _) | with_reducible apply Dev.only_ite | dsimp only | fail_if_no_progress with_reducible refine Dev.only_mk ?_ (by and_intros <;> first | exact Or.inr (by with_reducible rfl) | exact Or.inl (by decide)) | split | with_reducible intro _

theorem Dev.applyTables_only (d : Dev) : d.onlyChanges (Dev.applyTables d) [.prm, .host, .links, .cmp, .saf] := by
  unfold Dev.applyTables
  repeat' first | with_reducible apply Dev.only_refl | (with_reducible show Part.within _ _ = true; decide) | with_reducible apply Dev.only_foldl | with_reducible apply Dev.only_foldl_fst | with_reducible apply Dev.only_then (Dev.applyArr_only _ _) | with_reducible apply Dev.only_then (Dev.post_only _ _ _) | with_reducible apply Dev.only_then (Dev.modRects_only _ _ _) | with_reducible apply Dev.only_ite | dsimp only | fail_if_no_progress with_reducible refine Dev.only_mk ?_ (by and_intros <;> first | exact Or.inr (by with_reducible rfl) | exact Or.inl (by decide)) | split | with_reducible intro _

theorem Dev.endUnfinished_only (d : Dev) (s : Nat) : d.onlyChanges (Dev.endUnfinished d s) [.prm, .sluice, .host, .links, .cmp, .lamp] := by
  unfold Dev.endUnfinished
  repeat' first | with_reducible apply Dev.only_refl | (with_reducible show Part.within _ _ = true; decide) | with_reducible apply Dev.only_then (Dev.count_only _ _ _ _) | with_reducible apply Dev.only_then (Dev.post_only _ _ _) | with_reducible apply Dev.only_then (Dev.dropPass_only _ _) | with_reducible apply Dev.only_ite | dsimp only | fail_if_no_progress with_reducible refine Dev.only_mk ?_ (by and_intros <;> first | exact Or.inr (by with_reducible rfl) | exact Or.inl (by decide)) | split | with_reducible intro _

theorem Dev.startPasses_only (d : Dev) (moved : List Nat) : d.onlyChanges (Dev.startPasses d moved) [.prm, .sluice, .host, .links, .cmp, .lamp, .saf] := by
  unfold Dev.startPasses
  repeat' first | with_reducible apply Dev.only_refl | (with_reducible show Part.within _ _ = true; decide) | with_reducible apply Dev.only_foldl | with_reducible apply Dev.only_foldl_fst | with_reducible apply Dev.only_then (Dev.startPass_only _ _ _ _ _) | with_reducible apply Dev.only_then (Dev.abandon_only _ _ _) | with_reducible apply Dev.only_ite | dsimp only | fail_if_no_progress with_reducible refine Dev.only_mk ?_ (by and_intros <;> first | exact Or.inr (by with_reducible rfl) | exact Or.inl (by decide)) | split | with_reducible intro _

theorem Dev.composeStart_only (d : Dev) : d.onlyChanges (Dev.composeStart d) [.prm, .sluice, .host, .req, .links, .cmp, .seq, .ports, .lamp, .gov, .saf, .jnl] := by
  unfold Dev.composeStart
  repeat' first | with_reducible apply Dev.only_refl | (with_reducible show Part.within _ _ = true; decide) | with_reducible apply Dev.only_foldl | with_reducible apply Dev.only_foldl_fst | with_reducible apply Dev.only_then (Dev.applyVal_only _ _) | with_reducible apply Dev.only_then (Dev.exchange_only _ _) | with_reducible apply Dev.only_then (Dev.stepOffset_only _) | with_reducible apply Dev.only_then (Dev.commitGroups_only _) | with_reducible apply Dev.only_then (Dev.countLate_only _) | with_reducible apply Dev.only_then (Dev.destroyDueLayers_only _) | with_reducible apply Dev.only_then (Dev.retireDue_only _ _) | with_reducible apply Dev.only_then (Dev.stalePolicies_only _ _) | with_reducible apply Dev.only_then (Dev.stepBase_only _ _) | with_reducible apply Dev.only_then (Dev.layer0Request_only _) | with_reducible apply Dev.only_then (Dev.applyTables_only _) | with_reducible apply Dev.only_then (Dev.endUnfinished_only _ _) | with_reducible apply Dev.only_then (Dev.startPasses_only _ _) | with_reducible apply Dev.only_ite | dsimp only | fail_if_no_progress with_reducible refine Dev.only_mk ?_ (by and_intros <;> first | exact Or.inr (by with_reducible rfl) | exact Or.inl (by decide)) | split | with_reducible intro _

/-! ### SeqOps.lean -/

theorem Dev.handOff_only (d : Dev) : d.onlyChanges (Dev.handOff d) [.seq] := by
  unfold Dev.handOff
  repeat' first | with_reducible apply Dev.only_refl | (with_reducible show Part.within _ _ = true; decide) | with_reducible apply Dev.only_foldl | with_reducible apply Dev.only_foldl_fst | with_reducible apply Dev.only_ite | dsimp only | fail_if_no_progress with_reducible refine Dev.only_mk ?_ (by and_intros <;> first | exact Or.inr (by with_reducible rfl) | exact Or.inl (by decide)) | split | with_reducible intro _

theorem Dev.zeroWord_only (d : Dev) (s e : Nat) : d.onlyChanges (Dev.zeroWord d s e) [.seq] := by
  unfold Dev.zeroWord
  repeat' first | with_reducible apply Dev.only_refl | (with_reducible show Part.within _ _ = true; decide) | with_reducible apply Dev.only_ite | dsimp only | fail_if_no_progress with_reducible refine Dev.only_mk ?_ (by and_intros <;> first | exact Or.inr (by with_reducible rfl) | exact Or.inl (by decide)) | split | with_reducible intro _

theorem Dev.voidEntry_only (d : Dev) (s e : Nat) : d.onlyChanges (Dev.voidEntry d s e) [.prm, .sluice, .host, .links, .seq, .ports, .lamp, .gov, .saf, .jnl] := by
  unfold Dev.voidEntry
  repeat' first | with_reducible apply Dev.only_refl | (with_reducible show Part.within _ _ = true; decide) | with_reducible apply Dev.only_then (Dev.count_only _ _ _ _) | with_reducible apply Dev.only_then (Dev.raise_only _ _ _ _) | with_reducible apply Dev.only_then (Dev.zeroWord_only _ _ _) | dsimp only | fail_if_no_progress with_reducible refine Dev.only_mk ?_ (by and_intros <;> first | exact Or.inr (by with_reducible rfl) | exact Or.inl (by decide)) | split | with_reducible intro _

theorem Dev.beginLoad_only (d : Dev) (s e : Nat) (bad : List Nat) : d.onlyChanges (Dev.beginLoad d s e bad) [.prm, .sluice, .host, .links, .seq, .ports, .lamp, .gov, .saf, .jnl] := by
  unfold Dev.beginLoad
  repeat' first | with_reducible apply Dev.only_refl | (with_reducible show Part.within _ _ = true; decide) | with_reducible apply Dev.only_then (Dev.modMport_only _ _ _) | with_reducible apply Dev.only_then (Dev.voidEntry_only _ _ _) | with_reducible apply Dev.only_ite | dsimp only | fail_if_no_progress with_reducible refine Dev.only_mk ?_ (by and_intros <;> first | exact Or.inr (by with_reducible rfl) | exact Or.inl (by decide)) | split | with_reducible intro _

theorem Dev.exchangeMask_only (d : Dev) (s : Nat) : d.onlyChanges (Dev.exchangeMask d s) [.prm, .seq] := by
  unfold Dev.exchangeMask
  repeat' first | with_reducible apply Dev.only_refl | (with_reducible show Part.within _ _ = true; decide) | with_reducible apply Dev.only_then (Dev.modMask_only _ _ _) | with_reducible apply Dev.only_then (Dev.count_only _ _ _ _) | with_reducible apply Dev.only_ite | dsimp only | fail_if_no_progress with_reducible refine Dev.only_mk ?_ (by and_intros <;> first | exact Or.inr (by with_reducible rfl) | exact Or.inl (by decide)) | split | with_reducible intro _

theorem Dev.evalAge_only (d : Dev) : d.onlyChanges (Dev.evalAge d) [.sht] := by
  unfold Dev.evalAge
  repeat' first | with_reducible apply Dev.only_refl | (with_reducible show Part.within _ _ = true; decide) | dsimp only | fail_if_no_progress with_reducible refine Dev.only_mk ?_ (by and_intros <;> first | exact Or.inr (by with_reducible rfl) | exact Or.inl (by decide)) | split | with_reducible intro _

theorem Dev.seqEcc_only (d : Dev) (e : Nat) : d.onlyChanges (Dev.seqEcc d e) [.prm, .sluice, .host, .links, .seq, .ports, .lamp, .gov, .saf, .jnl] := by
  unfold Dev.seqEcc
  repeat' first | with_reducible apply Dev.only_refl | (with_reducible show Part.within _ _ = true; decide) | with_reducible apply Dev.only_then (Dev.raise_only _ _ _ _) | with_reducible apply Dev.only_ite | dsimp only | fail_if_no_progress with_reducible refine Dev.only_mk ?_ (by and_intros <;> first | exact Or.inr (by with_reducible rfl) | exact Or.inl (by decide)) | split | with_reducible intro _

theorem Dev.planeEcc_only (d : Dev) (s e : Nat) : d.onlyChanges (Dev.planeEcc d s e) [.prm, .sluice, .host, .links, .seq, .ports, .lamp, .gov, .saf, .jnl] := by
  unfold Dev.planeEcc
  repeat' first | with_reducible apply Dev.only_refl | (with_reducible show Part.within _ _ = true; decide) | with_reducible apply Dev.only_then (Dev.count_only _ _ _ _) | with_reducible apply Dev.only_then (Dev.raise_only _ _ _ _) | dsimp only | fail_if_no_progress with_reducible refine Dev.only_mk ?_ (by and_intros <;> first | exact Or.inr (by with_reducible rfl) | exact Or.inl (by decide)) | split | with_reducible intro _

theorem Dev.beginEntry_only (d : Dev) (e : Nat) (bad masks : Nat → List Nat) (seqEcc : Bool) : d.onlyChanges (Dev.beginEntry d e bad masks seqEcc) [.prm, .sluice, .host, .links, .seq, .ports, .sht, .lamp, .gov, .saf, .jnl] := by
  unfold Dev.beginEntry
  repeat' first | with_reducible apply Dev.only_refl | (with_reducible show Part.within _ _ = true; decide) | with_reducible apply Dev.only_foldl | with_reducible apply Dev.only_foldl_fst | with_reducible apply Dev.only_then (Dev.modMask_only _ _ _) | with_reducible apply Dev.only_then (Dev.beginLoad_only _ _ _ _) | with_reducible apply Dev.only_then (Dev.exchangeMask_only _ _) | with_reducible apply Dev.only_then (Dev.evalAge_only _) | with_reducible apply Dev.only_then (Dev.seqEcc_only _ _) | with_reducible apply Dev.only_then (Dev.planeEcc_only _ _ _) | with_reducible apply Dev.only_ite | dsimp only | fail_if_no_progress with_reducible refine Dev.only_mk ?_ (by and_intros <;> first | exact Or.inr (by with_reducible rfl) | exact Or.inl (by decide)) | split | with_reducible intro _

theorem Dev.endAggregates_only (d : Dev) (s : Nat) : d.onlyChanges (Dev.endAggregates d s) [.seq] := by
  unfold Dev.endAggregates
  repeat' first | with_reducible apply Dev.only_refl | (with_reducible show Part.within _ _ = true; decide) | dsimp only | fail_if_no_progress with_reducible refine Dev.only_mk ?_ (by and_intros <;> first | exact Or.inr (by with_reducible rfl) | exact Or.inl (by decide)) | split | with_reducible intro _

theorem Dev.closeAggregates_only (d : Dev) (s : Nat) (now_ : Bool) : d.onlyChanges (Dev.closeAggregates d s now_) [.prm, .seq, .saf, .jnl] := by
  unfold Dev.closeAggregates
  repeat' first | with_reducible apply Dev.only_refl | (with_reducible show Part.within _ _ = true; decide) | with_reducible apply Dev.only_then (Dev.count_only _ _ _ _) | with_reducible apply Dev.only_ite | dsimp only | fail_if_no_progress with_reducible refine Dev.only_mk ?_ (by and_intros <;> first | exact Or.inr (by with_reducible rfl) | exact Or.inl (by decide)) | split | with_reducible intro _

theorem Dev.openAggregates_only (d : Dev) (s : Nat) : d.onlyChanges (Dev.openAggregates d s) [.seq] := by
  unfold Dev.openAggregates
  repeat' first | with_reducible apply Dev.only_refl | (with_reducible show Part.within _ _ = true; decide) | dsimp only | fail_if_no_progress with_reducible refine Dev.only_mk ?_ (by and_intros <;> first | exact Or.inr (by with_reducible rfl) | exact Or.inl (by decide)) | split | with_reducible intro _

theorem Dev.applyWord_only (d : Dev) (s e : Nat) : d.onlyChanges (Dev.applyWord d s e) [.prm, .sluice, .host, .links, .seq, .ports, .lamp, .gov, .saf, .jnl] := by
  unfold Dev.applyWord
  repeat' first | with_reducible apply Dev.only_refl | (with_reducible show Part.within _ _ = true; decide) | with_reducible apply Dev.only_then (Dev.count_only _ _ _ _) | with_reducible apply Dev.only_then (Dev.raise_only _ _ _ _) | dsimp only | fail_if_no_progress with_reducible refine Dev.only_mk ?_ (by and_intros <;> first | exact Or.inr (by with_reducible rfl) | exact Or.inl (by decide)) | split | with_reducible intro _

theorem Dev.endLoad_only (d : Dev) (s e : Nat) : d.onlyChanges (Dev.endLoad d s e) [.prm, .sluice, .host, .links, .seq, .ports, .lamp, .gov, .saf, .jnl] := by
  unfold Dev.endLoad
  repeat' first | with_reducible apply Dev.only_refl | (with_reducible show Part.within _ _ = true; decide) | with_reducible apply Dev.only_then (Dev.modMport_only _ _ _) | with_reducible apply Dev.only_then (Dev.zeroWord_only _ _ _) | with_reducible apply Dev.only_then (Dev.voidEntry_only _ _ _) | with_reducible apply Dev.only_ite | dsimp only | fail_if_no_progress with_reducible refine Dev.only_mk ?_ (by and_intros <;> first | exact Or.inr (by with_reducible rfl) | exact Or.inl (by decide)) | split | with_reducible intro _

theorem Dev.resetInstant_only (d : Dev) : d.onlyChanges (Dev.resetInstant d) [.prm, .sluice, .host, .links, .seq, .ports, .lamp, .gov, .saf, .jnl] := by
  unfold Dev.resetInstant
  repeat' first | with_reducible apply Dev.only_refl | (with_reducible show Part.within _ _ = true; decide) | with_reducible apply Dev.only_foldl | with_reducible apply Dev.only_foldl_fst | with_reducible apply Dev.only_then (Dev.closeAggregates_only _ _ _) | with_reducible apply Dev.only_then (Dev.applyWord_only _ _ _) | with_reducible apply Dev.only_then (Dev.endLoad_only _ _ _) | dsimp only | fail_if_no_progress with_reducible refine Dev.only_mk ?_ (by and_intros <;> first | exact Or.inr (by with_reducible rfl) | exact Or.inl (by decide)) | split | with_reducible intro _

/-! ### LampOps.lean -/

theorem Dev.boardT_only (d : Dev) (s : Nat) (r : BoardReading) : d.onlyChanges (Dev.boardT d s r).2 [.free] := by
  unfold Dev.boardT
  repeat' first | with_reducible apply Dev.only_refl | (with_reducible show Part.within _ _ = true; decide) | with_reducible apply Dev.only_then (Dev.drawn_only _) | with_reducible apply Dev.only_ite | dsimp only | fail_if_no_progress with_reducible refine Dev.only_mk ?_ (by and_intros <;> first | exact Or.inr (by with_reducible rfl) | exact Or.inl (by decide)) | split | with_reducible intro _

theorem Dev.takeBoard_only (d : Dev) (s : Nat) (t : Option Int) : d.onlyChanges (Dev.takeBoard d s t) [.prm, .host, .links, .lamp, .gov, .saf] := by
  unfold Dev.takeBoard
  repeat' first | with_reducible apply Dev.only_refl | (with_reducible show Part.within _ _ = true; decide) | with_reducible apply Dev.only_then (Dev.modLside_only _ _ _) | with_reducible apply Dev.only_then (Dev.clearFault_only _ _ _) | with_reducible apply Dev.only_ite | dsimp only | fail_if_no_progress with_reducible refine Dev.only_mk ?_ (by and_intros <;> first | exact Or.inr (by with_reducible rfl) | exact Or.inl (by decide)) | split | with_reducible intro _

theorem Dev.boardRead_only (d : Dev) (s : Nat) (r : BoardReading) : d.onlyChanges (Dev.boardRead d s r) [.prm, .host, .links, .lamp, .gov, .saf, .free] := by
  unfold Dev.boardRead
  repeat' first | with_reducible apply Dev.only_refl | (with_reducible show Part.within _ _ = true; decide) | with_reducible apply Dev.only_then (Dev.boardT_only _ _ _) | with_reducible apply Dev.only_then (Dev.takeBoard_only _ _ _) | with_reducible apply Dev.only_ite | dsimp only | fail_if_no_progress with_reducible refine Dev.only_mk ?_ (by and_intros <;> first | exact Or.inr (by with_reducible rfl) | exact Or.inl (by decide)) | split | with_reducible intro _

theorem Dev.substitute_only (d : Dev) (s : Nat) : d.onlyChanges (Dev.substitute d s) [.prm, .sluice, .host, .links, .seq, .ports, .lamp, .gov, .saf, .jnl] := by
  unfold Dev.substitute
  repeat' first | with_reducible apply Dev.only_refl | (with_reducible show Part.within _ _ = true; decide) | with_reducible apply Dev.only_then (Dev.modLside_only _ _ _) | with_reducible apply Dev.only_then (Dev.raise_only _ _ _ _) | with_reducible apply Dev.only_ite | dsimp only | fail_if_no_progress with_reducible refine Dev.only_mk ?_ (by and_intros <;> first | exact Or.inr (by with_reducible rfl) | exact Or.inl (by decide)) | split | with_reducible intro _

theorem Dev.stepJunctions_only (d : Dev) (s : Nat) : d.onlyChanges (Dev.stepJunctions d s) [.prm, .host, .links, .lamp, .gov] := by
  unfold Dev.stepJunctions
  repeat' first | with_reducible apply Dev.only_refl | (with_reducible show Part.within _ _ = true; decide) | with_reducible apply Dev.only_foldl | with_reducible apply Dev.only_foldl_fst | with_reducible apply Dev.only_then (Dev.modChan_only _ _ _) | with_reducible apply Dev.only_then (Dev.modLside_only _ _ _) | with_reducible apply Dev.only_then (Dev.post_only _ _ _) | with_reducible apply Dev.only_ite | dsimp only | fail_if_no_progress with_reducible refine Dev.only_mk ?_ (by and_intros <;> first | exact Or.inr (by with_reducible rfl) | exact Or.inl (by decide)) | split | with_reducible intro _

theorem Dev.startBoost_only (d : Dev) (s : Nat) : d.onlyChanges (Dev.startBoost d s) [.prm, .sluice, .host, .links, .lamp] := by
  unfold Dev.startBoost
  repeat' first | with_reducible apply Dev.only_refl | (with_reducible show Part.within _ _ = true; decide) | with_reducible apply Dev.only_then (Dev.modLside_only _ _ _) | with_reducible apply Dev.only_then (Dev.request_only _ _) | with_reducible apply Dev.only_ite | dsimp only | fail_if_no_progress with_reducible refine Dev.only_mk ?_ (by and_intros <;> first | exact Or.inr (by with_reducible rfl) | exact Or.inl (by decide)) | split | with_reducible intro _

theorem Dev.retryBoost_only (d : Dev) (s : Nat) : d.onlyChanges (Dev.retryBoost d s) [.prm, .sluice, .host, .links, .lamp] := by
  unfold Dev.retryBoost
  repeat' first | with_reducible apply Dev.only_refl | (with_reducible show Part.within _ _ = true; decide) | with_reducible apply Dev.only_then (Dev.request_only _ _) | dsimp only | fail_if_no_progress with_reducible refine Dev.only_mk ?_ (by and_intros <;> first | exact Or.inr (by with_reducible rfl) | exact Or.inl (by decide)) | split | with_reducible intro _

theorem Dev.boostRuns_only (d : Dev) (s : Nat) : d.onlyChanges (Dev.boostRuns d s) [.prm, .sluice, .host, .links, .lamp, .saf] := by
  unfold Dev.boostRuns
  repeat' first | with_reducible apply Dev.only_refl | (with_reducible show Part.within _ _ = true; decide) | with_reducible apply Dev.only_then (Dev.modLside_only _ _ _) | with_reducible apply Dev.only_then (Dev.release_only _ _) | with_reducible apply Dev.only_then (Dev.clearFault_only _ _ _) | dsimp only | fail_if_no_progress with_reducible refine Dev.only_mk ?_ (by and_intros <;> first | exact Or.inr (by with_reducible rfl) | exact Or.inl (by decide)) | split | with_reducible intro _

theorem Dev.boostFails_only (d : Dev) (s : Nat) : d.onlyChanges (Dev.boostFails d s) [.prm, .sluice, .host, .links, .seq, .ports, .lamp, .gov, .saf, .jnl] := by
  unfold Dev.boostFails
  repeat' first | with_reducible apply Dev.only_refl | (with_reducible show Part.within _ _ = true; decide) | with_reducible apply Dev.only_then (Dev.stopBoost_only _ _) | with_reducible apply Dev.only_then (Dev.raise_only _ _ _ _) | dsimp only | fail_if_no_progress with_reducible refine Dev.only_mk ?_ (by and_intros <;> first | exact Or.inr (by with_reducible rfl) | exact Or.inl (by decide)) | split | with_reducible intro _

theorem Dev.boostOv_only (d : Dev) (s : Nat) : d.onlyChanges (Dev.boostOv d s) [.prm, .sluice, .host, .links, .seq, .ports, .lamp, .gov, .saf, .jnl] := by
  unfold Dev.boostOv
  repeat' first | with_reducible apply Dev.only_refl | (with_reducible show Part.within _ _ = true; decide) | with_reducible apply Dev.only_then (Dev.modLside_only _ _ _) | with_reducible apply Dev.only_then (Dev.count_only _ _ _ _) | with_reducible apply Dev.only_then (Dev.raise_only _ _ _ _) | dsimp only | fail_if_no_progress with_reducible refine Dev.only_mk ?_ (by and_intros <;> first | exact Or.inr (by with_reducible rfl) | exact Or.inl (by decide)) | split | with_reducible intro _

theorem Dev.boostOvEnds_only (d : Dev) (s : Nat) : d.onlyChanges (Dev.boostOvEnds d s) [.lamp] := by
  unfold Dev.boostOvEnds
  repeat' first | with_reducible apply Dev.only_refl | (with_reducible show Part.within _ _ = true; decide) | with_reducible apply Dev.only_then (Dev.modLside_only _ _ _) | with_reducible apply Dev.only_ite | dsimp only | fail_if_no_progress with_reducible refine Dev.only_mk ?_ (by and_intros <;> first | exact Or.inr (by with_reducible rfl) | exact Or.inl (by decide)) | split | with_reducible intro _

theorem Dev.boostUv_only (d : Dev) (s : Nat) : d.onlyChanges (Dev.boostUv d s) [.prm, .sluice, .host, .links, .seq, .ports, .lamp, .gov, .saf, .jnl] := by
  unfold Dev.boostUv
  repeat' first | with_reducible apply Dev.only_refl | (with_reducible show Part.within _ _ = true; decide) | with_reducible apply Dev.only_then (Dev.modLside_only _ _ _) | with_reducible apply Dev.only_then (Dev.release_only _ _) | with_reducible apply Dev.only_then (Dev.raise_only _ _ _ _) | dsimp only | fail_if_no_progress with_reducible refine Dev.only_mk ?_ (by and_intros <;> first | exact Or.inr (by with_reducible rfl) | exact Or.inl (by decide)) | split | with_reducible intro _

theorem Dev.boostUvEnds_only (d : Dev) (s : Nat) : d.onlyChanges (Dev.boostUvEnds d s) [.prm, .sluice, .host, .links, .lamp] := by
  unfold Dev.boostUvEnds
  repeat' first | with_reducible apply Dev.only_refl | (with_reducible show Part.within _ _ = true; decide) | with_reducible apply Dev.only_then (Dev.modLside_only _ _ _) | with_reducible apply Dev.only_then (Dev.request_only _ _) | dsimp only | fail_if_no_progress with_reducible refine Dev.only_mk ?_ (by and_intros <;> first | exact Or.inr (by with_reducible rfl) | exact Or.inl (by decide)) | split | with_reducible intro _

theorem Dev.stepSoft_only (d : Dev) (s : Nat) : d.onlyChanges (Dev.stepSoft d s) [.lamp] := by
  unfold Dev.stepSoft
  repeat' first | with_reducible apply Dev.only_refl | (with_reducible show Part.within _ _ = true; decide) | with_reducible apply Dev.only_then (Dev.modLside_only _ _ _) | dsimp only | fail_if_no_progress with_reducible refine Dev.only_mk ?_ (by and_intros <;> first | exact Or.inr (by with_reducible rfl) | exact Or.inl (by decide)) | split | with_reducible intro _

theorem Dev.dimSet_only (d : Dev) (level source ms : Nat) : d.onlyChanges (Dev.dimSet d level source ms) [.prm, .sluice, .host, .links, .seq, .ports, .lamp, .gov, .saf, .jnl] := by
  unfold Dev.dimSet
  repeat' first | with_reducible apply Dev.only_refl | (with_reducible show Part.within _ _ = true; decide) | with_reducible apply Dev.only_then (Dev.raise_only _ _ _ _) | with_reducible apply Dev.only_then (Dev.clearFault_only _ _ _) | with_reducible apply Dev.only_ite | dsimp only | fail_if_no_progress with_reducible refine Dev.only_mk ?_ (by and_intros <;> first | exact Or.inr (by with_reducible rfl) | exact Or.inl (by decide)) | split | with_reducible intro _

theorem Dev.dimLoss_only (d : Dev) (source : Nat) : d.onlyChanges (Dev.dimLoss d source) [.prm, .sluice, .host, .links, .seq, .ports, .lamp, .gov, .saf, .jnl] := by
  unfold Dev.dimLoss
  repeat' first | with_reducible apply Dev.only_refl | (with_reducible show Part.within _ _ = true; decide) | with_reducible apply Dev.only_then (Dev.raise_only _ _ _ _) | with_reducible apply Dev.only_ite | dsimp only | fail_if_no_progress with_reducible refine Dev.only_mk ?_ (by and_intros <;> first | exact Or.inr (by with_reducible rfl) | exact Or.inl (by decide)) | split | with_reducible intro _

theorem Dev.dimRestored_only (d : Dev) (source : Nat) : d.onlyChanges (Dev.dimRestored d source) [.prm, .host, .links, .lamp, .saf] := by
  unfold Dev.dimRestored
  repeat' first | with_reducible apply Dev.only_refl | (with_reducible show Part.within _ _ = true; decide) | with_reducible apply Dev.only_then (Dev.post_only _ _ _) | with_reducible apply Dev.only_then (Dev.clearFault_only _ _ _) | with_reducible apply Dev.only_ite | dsimp only | fail_if_no_progress with_reducible refine Dev.only_mk ?_ (by and_intros <;> first | exact Or.inr (by with_reducible rfl) | exact Or.inl (by decide)) | split | with_reducible intro _

theorem Dev.pwmEdge_only (d : Dev) (period high : Nat) : d.onlyChanges (Dev.pwmEdge d period high) [.prm, .host, .links, .lamp, .saf] := by
  unfold Dev.pwmEdge
  repeat' first | with_reducible apply Dev.only_refl | (with_reducible show Part.within _ _ = true; decide) | with_reducible apply Dev.only_then (Dev.dimRestored_only _ _) | with_reducible apply Dev.only_ite | dsimp only | fail_if_no_progress with_reducible refine Dev.only_mk ?_ (by and_intros <;> first | exact Or.inr (by with_reducible rfl) | exact Or.inl (by decide)) | split | with_reducible intro _

theorem Dev.latchDim_only (d : Dev) : d.onlyChanges (Dev.latchDim d) [.prm, .host, .links, .lamp, .saf] := by
  unfold Dev.latchDim
  repeat' first | with_reducible apply Dev.only_refl | (with_reducible show Part.within _ _ = true; decide) | with_reducible apply Dev.only_then (Dev.dimRestored_only _ _) | with_reducible apply Dev.only_ite | dsimp only | fail_if_no_progress with_reducible refine Dev.only_mk ?_ (by and_intros <;> first | exact Or.inr (by with_reducible rfl) | exact Or.inl (by decide)) | split | with_reducible intro _

theorem Dev.stepDim_only (d : Dev) : d.onlyChanges (Dev.stepDim d) [.prm, .host, .links, .lamp, .saf] := by
  unfold Dev.stepDim
  repeat' first | with_reducible apply Dev.only_refl | (with_reducible show Part.within _ _ = true; decide) | with_reducible apply Dev.only_then (Dev.latchDim_only _) | with_reducible apply Dev.only_ite | dsimp only | fail_if_no_progress with_reducible refine Dev.only_mk ?_ (by and_intros <;> first | exact Or.inr (by with_reducible rfl) | exact Or.inl (by decide)) | split | with_reducible intro _

theorem Dev.rampR_only (d : Dev) (s target : Nat) (waits : Bool) : d.onlyChanges (Dev.rampR d s target waits) [.host, .links, .lamp] := by
  unfold Dev.rampR
  repeat' first | with_reducible apply Dev.only_refl | (with_reducible show Part.within _ _ = true; decide) | with_reducible apply Dev.only_then (Dev.modLside_only _ _ _) | with_reducible apply Dev.only_then (Dev.waits_only _ _ _) | with_reducible apply Dev.only_ite | dsimp only | fail_if_no_progress with_reducible refine Dev.only_mk ?_ (by and_intros <;> first | exact Or.inr (by with_reducible rfl) | exact Or.inl (by decide)) | split | with_reducible intro _

theorem Dev.stepR_only (d : Dev) (s : Nat) : d.onlyChanges (Dev.stepR d s) [.lamp] := by
  unfold Dev.stepR
  repeat' first | with_reducible apply Dev.only_refl | (with_reducible show Part.within _ _ = true; decide) | with_reducible apply Dev.only_then (Dev.modLside_only _ _ _) | with_reducible apply Dev.only_ite | dsimp only | fail_if_no_progress with_reducible refine Dev.only_mk ?_ (by and_intros <;> first | exact Or.inr (by with_reducible rfl) | exact Or.inl (by decide)) | split | with_reducible intro _

theorem Dev.detect_only (d : Dev) (c bit code arg : Nat) : d.onlyChanges (Dev.detect d c bit code arg) [.prm, .sluice, .host, .links, .seq, .ports, .lamp, .gov, .saf, .jnl] := by
  unfold Dev.detect
  repeat' first | with_reducible apply Dev.only_refl | (with_reducible show Part.within _ _ = true; decide) | with_reducible apply Dev.only_then (Dev.modChan_only _ _ _) | with_reducible apply Dev.only_then (Dev.latch_only _ _ _) | with_reducible apply Dev.only_then (Dev.raise_only _ _ _ _) | dsimp only | fail_if_no_progress with_reducible refine Dev.only_mk ?_ (by and_intros <;> first | exact Or.inr (by with_reducible rfl) | exact Or.inl (by decide)) | split | with_reducible intro _

theorem Dev.litFault_only (d : Dev) (c bit : Nat) : d.onlyChanges (Dev.litFault d c bit) [.prm, .sluice, .host, .links, .seq, .ports, .lamp, .gov, .saf, .jnl] := by
  unfold Dev.litFault
  repeat' first | with_reducible apply Dev.only_refl | (with_reducible show Part.within _ _ = true; decide) | with_reducible apply Dev.only_then (Dev.detect_only _ _ _ _ _) | with_reducible apply Dev.only_ite | dsimp only | fail_if_no_progress with_reducible refine Dev.only_mk ?_ (by and_intros <;> first | exact Or.inr (by with_reducible rfl) | exact Or.inl (by decide)) | split | with_reducible intro _

theorem Dev.fetFault_only (d : Dev) (c : Nat) : d.onlyChanges (Dev.fetFault d c) [.prm, .sluice, .host, .links, .seq, .ports, .lamp, .gov, .saf, .jnl] := by
  unfold Dev.fetFault
  repeat' first | with_reducible apply Dev.only_refl | (with_reducible show Part.within _ _ = true; decide) | with_reducible apply Dev.only_foldl | with_reducible apply Dev.only_foldl_fst | with_reducible apply Dev.only_then (Dev.modChan_only _ _ _) | with_reducible apply Dev.only_then (Dev.stopBoost_only _ _) | with_reducible apply Dev.only_then (Dev.latch_only _ _ _) | with_reducible apply Dev.only_then (Dev.raise_only _ _ _ _) | with_reducible apply Dev.only_ite | dsimp only | fail_if_no_progress with_reducible refine Dev.only_mk ?_ (by and_intros <;> first | exact Or.inr (by with_reducible rfl) | exact Or.inl (by decide)) | split | with_reducible intro _

theorem Dev.pulse_only (d : Dev) (c : Nat) (isOpen short : Bool) : d.onlyChanges (Dev.pulse d c isOpen short) [.prm, .sluice, .host, .links, .seq, .ports, .lamp, .gov, .saf, .jnl] := by
  unfold Dev.pulse
  repeat' first | with_reducible apply Dev.only_refl | (with_reducible show Part.within _ _ = true; decide) | with_reducible apply Dev.only_then (Dev.modChan_only _ _ _) | with_reducible apply Dev.only_then (Dev.count_only _ _ _ _) | with_reducible apply Dev.only_then (Dev.detect_only _ _ _ _ _) | with_reducible apply Dev.only_ite | dsimp only | fail_if_no_progress with_reducible refine Dev.only_mk ?_ (by and_intros <;> first | exact Or.inr (by with_reducible rfl) | exact Or.inl (by decide)) | split | with_reducible intro _

theorem Dev.partialShort_only (d : Dev) (c : Nat) : d.onlyChanges (Dev.partialShort d c) [.prm, .sluice, .host, .links, .seq, .ports, .lamp, .gov, .saf, .jnl] := by
  unfold Dev.partialShort
  repeat' first | with_reducible apply Dev.only_refl | (with_reducible show Part.within _ _ = true; decide) | with_reducible apply Dev.only_then (Dev.modChan_only _ _ _) | with_reducible apply Dev.only_then (Dev.raise_only _ _ _ _) | with_reducible apply Dev.only_then (Dev.clearFault_only _ _ _) | with_reducible apply Dev.only_ite | dsimp only | fail_if_no_progress with_reducible refine Dev.only_mk ?_ (by and_intros <;> first | exact Or.inr (by with_reducible rfl) | exact Or.inl (by decide)) | split | with_reducible intro _

theorem Dev.boostLimit_only (d : Dev) (s : Nat) : d.onlyChanges (Dev.boostLimit d s) [.prm, .sluice, .host, .links, .seq, .ports, .lamp, .gov, .saf, .jnl] := by
  unfold Dev.boostLimit
  repeat' first | with_reducible apply Dev.only_refl | (with_reducible show Part.within _ _ = true; decide) | with_reducible apply Dev.only_then (Dev.modLside_only _ _ _) | with_reducible apply Dev.only_then (Dev.raise_only _ _ _ _) | with_reducible apply Dev.only_then (Dev.clearFault_only _ _ _) | with_reducible apply Dev.only_ite | dsimp only | fail_if_no_progress with_reducible refine Dev.only_mk ?_ (by and_intros <;> first | exact Or.inr (by with_reducible rfl) | exact Or.inl (by decide)) | split | with_reducible intro _

theorem Dev.releaseChan_only (d : Dev) (c : Nat) : d.onlyChanges (Dev.releaseChan d c) [.lamp] := by
  unfold Dev.releaseChan
  repeat' first | with_reducible apply Dev.only_refl | (with_reducible show Part.within _ _ = true; decide) | with_reducible apply Dev.only_then (Dev.modChan_only _ _ _) | with_reducible apply Dev.only_ite | dsimp only | fail_if_no_progress with_reducible refine Dev.only_mk ?_ (by and_intros <;> first | exact Or.inr (by with_reducible rfl) | exact Or.inl (by decide)) | split | with_reducible intro _

theorem Dev.lampTables_only (d : Dev) (s : Nat) : d.onlyChanges (Dev.lampTables d s) [.prm, .host, .links, .lamp, .nor] := by
  unfold Dev.lampTables
  repeat' first | with_reducible apply Dev.only_refl | (with_reducible show Part.within _ _ = true; decide) | with_reducible apply Dev.only_then (Dev.applyArr_only _ _) | with_reducible apply Dev.only_then (Dev.mirrorArr_only _ _) | with_reducible apply Dev.only_then (Dev.post_only _ _ _) | with_reducible apply Dev.only_ite | dsimp only | fail_if_no_progress with_reducible refine Dev.only_mk ?_ (by and_intros <;> first | exact Or.inr (by with_reducible rfl) | exact Or.inl (by decide)) | split | with_reducible intro _

theorem Dev.lampRefresh_only (d : Dev) : d.onlyChanges (Dev.lampRefresh d) [.prm, .sluice, .host, .links, .seq, .ports, .lamp, .gov, .saf, .jnl, .nor] := by
  unfold Dev.lampRefresh
  repeat' first | with_reducible apply Dev.only_refl | (with_reducible show Part.within _ _ = true; decide) | with_reducible apply Dev.only_foldl | with_reducible apply Dev.only_foldl_fst | with_reducible apply Dev.only_then (Dev.modChan_only _ _ _) | with_reducible apply Dev.only_then (Dev.modLside_only _ _ _) | with_reducible apply Dev.only_then (Dev.stepJunctions_only _ _) | with_reducible apply Dev.only_then (Dev.retryBoost_only _ _) | with_reducible apply Dev.only_then (Dev.stepDim_only _) | with_reducible apply Dev.only_then (Dev.stepR_only _ _) | with_reducible apply Dev.only_then (Dev.partialShort_only _ _) | with_reducible apply Dev.only_then (Dev.boostLimit_only _ _) | with_reducible apply Dev.only_then (Dev.releaseChan_only _ _) | with_reducible apply Dev.only_then (Dev.lampTables_only _ _) | dsimp only | fail_if_no_progress with_reducible refine Dev.only_mk ?_ (by and_intros <;> first | exact Or.inr (by with_reducible rfl) | exact Or.inl (by decide)) | split | with_reducible intro _

/-! ### GovOps.lean -/

theorem Dev.stepFunction_only (d : Dev) (n : Nat) : d.onlyChanges (Dev.stepFunction d n) [.gov] := by
  unfold Dev.stepFunction
  repeat' first | with_reducible apply Dev.only_refl | (with_reducible show Part.within _ _ = true; decide) | with_reducible apply Dev.only_then (Dev.modSlot_only _ _ _) | with_reducible apply Dev.only_ite | dsimp only | fail_if_no_progress with_reducible refine Dev.only_mk ?_ (by and_intros <;> first | exact Or.inr (by with_reducible rfl) | exact Or.inl (by decide)) | split | with_reducible intro _

theorem Dev.takeRecord_only (d : Dev) (n : Nat) (held : Bool) : d.onlyChanges (Dev.takeRecord d n held) [.gov] := by
  unfold Dev.takeRecord
  repeat' first | with_reducible apply Dev.only_refl | (with_reducible show Part.within _ _ = true; decide) | with_reducible apply Dev.only_then (Dev.modSlot_only _ _ _) | with_reducible apply Dev.only_ite | dsimp only | fail_if_no_progress with_reducible refine Dev.only_mk ?_ (by and_intros <;> first | exact Or.inr (by with_reducible rfl) | exact Or.inl (by decide)) | split | with_reducible intro _

theorem Dev.slotSafe_only (d : Dev) (n : Nat) : d.onlyChanges (Dev.slotSafe d n) [.prm, .sluice, .lamp, .gov] := by
  unfold Dev.slotSafe
  repeat' first | with_reducible apply Dev.only_refl | (with_reducible show Part.within _ _ = true; decide) | with_reducible apply Dev.only_then (Dev.modChan_only _ _ _) | with_reducible apply Dev.only_then (Dev.modSlot_only _ _ _) | with_reducible apply Dev.only_then (Dev.stopBoost_only _ _) | with_reducible apply Dev.only_ite | dsimp only | fail_if_no_progress with_reducible refine Dev.only_mk ?_ (by and_intros <;> first | exact Or.inr (by with_reducible rfl) | exact Or.inl (by decide)) | split | with_reducible intro _

theorem Dev.slotFault_only (d : Dev) (n code arg : Nat) : d.onlyChanges (Dev.slotFault d n code arg) [.prm, .sluice, .host, .links, .seq, .ports, .lamp, .gov, .saf, .jnl] := by
  unfold Dev.slotFault
  repeat' first | with_reducible apply Dev.only_refl | (with_reducible show Part.within _ _ = true; decide) | with_reducible apply Dev.only_then (Dev.latch_only _ _ _) | with_reducible apply Dev.only_then (Dev.raise_only _ _ _ _) | with_reducible apply Dev.only_then (Dev.slotSafe_only _ _) | with_reducible apply Dev.only_ite | dsimp only | fail_if_no_progress with_reducible refine Dev.only_mk ?_ (by and_intros <;> first | exact Or.inr (by with_reducible rfl) | exact Or.inl (by decide)) | split | with_reducible intro _

theorem Dev.recoverSlot_only (d : Dev) (n : Nat) : d.onlyChanges (Dev.recoverSlot d n) [.gov] := by
  unfold Dev.recoverSlot
  repeat' first | with_reducible apply Dev.only_refl | (with_reducible show Part.within _ _ = true; decide) | with_reducible apply Dev.only_then (Dev.modSlot_only _ _ _) | with_reducible apply Dev.only_ite | dsimp only | fail_if_no_progress with_reducible refine Dev.only_mk ?_ (by and_intros <;> first | exact Or.inr (by with_reducible rfl) | exact Or.inl (by decide)) | split | with_reducible intro _

theorem Dev.stepSafe_only (d : Dev) (n : Nat) : d.onlyChanges (Dev.stepSafe d n) [.lamp, .gov] := by
  unfold Dev.stepSafe
  repeat' first | with_reducible apply Dev.only_refl | (with_reducible show Part.within _ _ = true; decide) | with_reducible apply Dev.only_then (Dev.modChan_only _ _ _) | with_reducible apply Dev.only_then (Dev.modSlot_only _ _ _) | with_reducible apply Dev.only_ite | dsimp only | fail_if_no_progress with_reducible refine Dev.only_mk ?_ (by and_intros <;> first | exact Or.inr (by with_reducible rfl) | exact Or.inl (by decide)) | split | with_reducible intro _

theorem Dev.enableSlots_only (d : Dev) : d.onlyChanges (Dev.enableSlots d) [.gov] := by
  unfold Dev.enableSlots
  repeat' first | with_reducible apply Dev.only_refl | (with_reducible show Part.within _ _ = true; decide) | with_reducible apply Dev.only_foldl | with_reducible apply Dev.only_foldl_fst | with_reducible apply Dev.only_then (Dev.modSlot_only _ _ _) | with_reducible apply Dev.only_ite | dsimp only | fail_if_no_progress with_reducible refine Dev.only_mk ?_ (by and_intros <;> first | exact Or.inr (by with_reducible rfl) | exact Or.inl (by decide)) | split | with_reducible intro _

theorem Dev.slotsOff_only (d : Dev) : d.onlyChanges (Dev.slotsOff d) [.gov] := by
  unfold Dev.slotsOff
  repeat' first | with_reducible apply Dev.only_refl | (with_reducible show Part.within _ _ = true; decide) | dsimp only | fail_if_no_progress with_reducible refine Dev.only_mk ?_ (by and_intros <;> first | exact Or.inr (by with_reducible rfl) | exact Or.inl (by decide)) | split | with_reducible intro _

theorem Dev.takeSample_only (d : Dev) (x : Samples) (c : Nat) : d.onlyChanges (Dev.takeSample d x c) [.lamp] := by
  unfold Dev.takeSample
  repeat' first | with_reducible apply Dev.only_refl | (with_reducible show Part.within _ _ = true; decide) | with_reducible apply Dev.only_then (Dev.modChan_only _ _ _) | with_reducible apply Dev.only_ite | dsimp only | fail_if_no_progress with_reducible refine Dev.only_mk ?_ (by and_intros <;> first | exact Or.inr (by with_reducible rfl) | exact Or.inl (by decide)) | split | with_reducible intro _

theorem Dev.takeVh_only (d : Dev) (x : Samples) (s : Nat) : d.onlyChanges (Dev.takeVh d x s) [.lamp] := by
  unfold Dev.takeVh
  repeat' first | with_reducible apply Dev.only_refl | (with_reducible show Part.within _ _ = true; decide) | with_reducible apply Dev.only_foldl | with_reducible apply Dev.only_foldl_fst | with_reducible apply Dev.only_then (Dev.modLside_only _ _ _) | with_reducible apply Dev.only_ite | dsimp only | fail_if_no_progress with_reducible refine Dev.only_mk ?_ (by and_intros <;> first | exact Or.inr (by with_reducible rfl) | exact Or.inl (by decide)) | split | with_reducible intro _

theorem Dev.takeBoostSamples_only (d : Dev) (x : Samples) (s : Nat) : d.onlyChanges (Dev.takeBoostSamples d x s) [.lamp] := by
  unfold Dev.takeBoostSamples
  repeat' first | with_reducible apply Dev.only_refl | (with_reducible show Part.within _ _ = true; decide) | with_reducible apply Dev.only_then (Dev.modLside_only _ _ _) | dsimp only | fail_if_no_progress with_reducible refine Dev.only_mk ?_ (by and_intros <;> first | exact Or.inr (by with_reducible rfl) | exact Or.inl (by decide)) | split | with_reducible intro _

theorem Dev.takeSamples_only (d : Dev) (x : Samples) : d.onlyChanges (Dev.takeSamples d x) [.lamp, .gov, .aux] := by
  unfold Dev.takeSamples
  repeat' first | with_reducible apply Dev.only_refl | (with_reducible show Part.within _ _ = true; decide) | with_reducible apply Dev.only_foldl | with_reducible apply Dev.only_foldl_fst | with_reducible apply Dev.only_then (Dev.takeSample_only _ _ _) | with_reducible apply Dev.only_then (Dev.takeVh_only _ _ _) | with_reducible apply Dev.only_then (Dev.takeBoostSamples_only _ _ _) | dsimp only | fail_if_no_progress with_reducible refine Dev.only_mk ?_ (by and_intros <;> first | exact Or.inr (by with_reducible rfl) | exact Or.inl (by decide)) | split | with_reducible intro _

theorem Dev.coverCheck_only (d : Dev) (x : Samples) : d.onlyChanges (Dev.coverCheck d x) [.prm, .sluice, .host, .links, .seq, .ports, .lamp, .gov, .saf, .jnl, .cal] := by
  unfold Dev.coverCheck
  repeat' first | with_reducible apply Dev.only_refl | (with_reducible show Part.within _ _ = true; decide) | with_reducible apply Dev.only_then (Dev.detect_only _ _ _ _ _) | with_reducible apply Dev.only_ite | dsimp only | fail_if_no_progress with_reducible refine Dev.only_mk ?_ (by and_intros <;> first | exact Or.inr (by with_reducible rfl) | exact Or.inl (by decide)) | split | with_reducible intro _

theorem Dev.stepTo_only (d : Dev) (c sp : Nat) : d.onlyChanges (Dev.stepTo d c sp) [.lamp, .gov] := by
  unfold Dev.stepTo
  repeat' first | with_reducible apply Dev.only_refl | (with_reducible show Part.within _ _ = true; decide) | with_reducible apply Dev.only_then (Dev.modChan_only _ _ _) | with_reducible apply Dev.only_then (Dev.modSlot_only _ _ _) | with_reducible apply Dev.only_ite | dsimp only | fail_if_no_progress with_reducible refine Dev.only_mk ?_ (by and_intros <;> first | exact Or.inr (by with_reducible rfl) | exact Or.inl (by decide)) | split | with_reducible intro _

theorem Dev.driveDiag_only (d : Dev) (s : Nat) : d.onlyChanges (Dev.driveDiag d s) [.lamp, .gov] := by
  unfold Dev.driveDiag
  repeat' first | with_reducible apply Dev.only_refl | (with_reducible show Part.within _ _ = true; decide) | with_reducible apply Dev.only_foldl | with_reducible apply Dev.only_foldl_fst | with_reducible apply Dev.only_then (Dev.modChan_only _ _ _) | with_reducible apply Dev.only_then (Dev.stepTo_only _ _ _) | with_reducible apply Dev.only_ite | dsimp only | fail_if_no_progress with_reducible refine Dev.only_mk ?_ (by and_intros <;> first | exact Or.inr (by with_reducible rfl) | exact Or.inl (by decide)) | split | with_reducible intro _

theorem Dev.applySetpoints_only (d : Dev) (s : Nat) : d.onlyChanges (Dev.applySetpoints d s) [.lamp, .gov] := by
  unfold Dev.applySetpoints
  repeat' first | with_reducible apply Dev.only_refl | (with_reducible show Part.within _ _ = true; decide) | with_reducible apply Dev.only_foldl | with_reducible apply Dev.only_foldl_fst | with_reducible apply Dev.only_then (Dev.modChan_only _ _ _) | with_reducible apply Dev.only_then (Dev.stepTo_only _ _ _) | with_reducible apply Dev.only_ite | dsimp only | fail_if_no_progress with_reducible refine Dev.only_mk ?_ (by and_intros <;> first | exact Or.inr (by with_reducible rfl) | exact Or.inl (by decide)) | split | with_reducible intro _

theorem Dev.forceZero_only (d : Dev) (s : Nat) : d.onlyChanges (Dev.forceZero d s) [.lamp] := by
  unfold Dev.forceZero
  repeat' first | with_reducible apply Dev.only_refl | (with_reducible show Part.within _ _ = true; decide) | with_reducible apply Dev.only_foldl | with_reducible apply Dev.only_foldl_fst | with_reducible apply Dev.only_then (Dev.modChan_only _ _ _) | with_reducible apply Dev.only_ite | dsimp only | fail_if_no_progress with_reducible refine Dev.only_mk ?_ (by and_intros <;> first | exact Or.inr (by with_reducible rfl) | exact Or.inl (by decide)) | split | with_reducible intro _

theorem Dev.stepDivide_only (d : Dev) (n : Nat) : d.onlyChanges (Dev.stepDivide d n) [.clk, .gov] := by
  unfold Dev.stepDivide
  repeat' first | with_reducible apply Dev.only_refl | (with_reducible show Part.within _ _ = true; decide) | with_reducible apply Dev.only_then (Dev.modSlot_only _ _ _) | with_reducible apply Dev.only_then (Dev.tick_only _) | with_reducible apply Dev.only_ite | dsimp only | fail_if_no_progress with_reducible refine Dev.only_mk ?_ (by and_intros <;> first | exact Or.inr (by with_reducible rfl) | exact Or.inl (by decide)) | split | with_reducible intro _

theorem Dev.evalDue_only (d : Dev) (x : Samples) (n : Nat) : d.onlyChanges (Dev.evalDue d x n) [.prm, .lamp, .gov] := by
  unfold Dev.evalDue
  repeat' first | with_reducible apply Dev.only_refl | (with_reducible show Part.within _ _ = true; decide) | with_reducible apply Dev.only_then (Dev.modSlot_only _ _ _) | with_reducible apply Dev.only_then (Dev.count_only _ _ _ _) | with_reducible apply Dev.only_then (Dev.stepSafe_only _ _) | with_reducible apply Dev.only_ite | dsimp only | fail_if_no_progress with_reducible refine Dev.only_mk ?_ (by and_intros <;> first | exact Or.inr (by with_reducible rfl) | exact Or.inl (by decide)) | split | with_reducible intro _

theorem Dev.resolve_only (d : Dev) (g : Nat) : d.onlyChanges (Dev.resolve d g) [.prm, .lamp, .gov] := by
  unfold Dev.resolve
  repeat' first | with_reducible apply Dev.only_refl | (with_reducible show Part.within _ _ = true; decide) | with_reducible apply Dev.only_foldl | with_reducible apply Dev.only_foldl_fst | with_reducible apply Dev.only_then (Dev.modLside_only _ _ _) | with_reducible apply Dev.only_then (Dev.modSlot_only _ _ _) | with_reducible apply Dev.only_then (Dev.count_only _ _ _ _) | with_reducible apply Dev.only_ite | dsimp only | fail_if_no_progress with_reducible refine Dev.only_mk ?_ (by and_intros <;> first | exact Or.inr (by with_reducible rfl) | exact Or.inl (by decide)) | split | with_reducible intro _

theorem Dev.countLit_only (d : Dev) : d.onlyChanges (Dev.countLit d) [.lamp] := by
  unfold Dev.countLit
  repeat' first | with_reducible apply Dev.only_refl | (with_reducible show Part.within _ _ = true; decide) | with_reducible apply Dev.only_foldl | with_reducible apply Dev.only_foldl_fst | with_reducible apply Dev.only_then (Dev.modChan_only _ _ _) | with_reducible apply Dev.only_ite | dsimp only | fail_if_no_progress with_reducible refine Dev.only_mk ?_ (by and_intros <;> first | exact Or.inr (by with_reducible rfl) | exact Or.inl (by decide)) | split | with_reducible intro _

theorem Dev.govBegin_only (d : Dev) (x : Samples) : d.onlyChanges (Dev.govBegin d x) [.prm, .sluice, .host, .links, .seq, .ports, .lamp, .gov, .saf, .jnl] := by
  unfold Dev.govBegin
  repeat' first | with_reducible apply Dev.only_refl | (with_reducible show Part.within _ _ = true; decide) | with_reducible apply Dev.only_then (Dev.count_only _ _ _ _) | with_reducible apply Dev.only_then (Dev.slotFault_only _ _ _ _) | with_reducible apply Dev.only_ite | dsimp only | fail_if_no_progress with_reducible refine Dev.only_mk ?_ (by and_intros <;> first | exact Or.inr (by with_reducible rfl) | exact Or.inl (by decide)) | split | with_reducible intro _

theorem Dev.govEnd_only (d : Dev) : d.onlyChanges (Dev.govEnd d) [.clk, .gov] := by
  unfold Dev.govEnd
  repeat' first | with_reducible apply Dev.only_refl | (with_reducible show Part.within _ _ = true; decide) | with_reducible apply Dev.only_then (Dev.tick_only _) | dsimp only | fail_if_no_progress with_reducible refine Dev.only_mk ?_ (by and_intros <;> first | exact Or.inr (by with_reducible rfl) | exact Or.inl (by decide)) | split | with_reducible intro _

theorem Dev.govTick_only (d : Dev) (x : Samples) : d.onlyChanges (Dev.govTick d x) [.prm, .clk, .sluice, .host, .links, .seq, .ports, .lamp, .gov, .aux, .saf, .jnl, .cal, .free] := by
  unfold Dev.govTick
  repeat' first | with_reducible apply Dev.only_refl | (with_reducible show Part.within _ _ = true; decide) | with_reducible apply Dev.only_foldl | with_reducible apply Dev.only_foldl_fst | with_reducible apply Dev.only_then (Dev.drawn_only _) | with_reducible apply Dev.only_then (Dev.stepSoft_only _ _) | with_reducible apply Dev.only_then (Dev.stepFunction_only _ _) | with_reducible apply Dev.only_then (Dev.takeRecord_only _ _ _) | with_reducible apply Dev.only_then (Dev.takeSamples_only _ _) | with_reducible apply Dev.only_then (Dev.coverCheck_only _ _) | with_reducible apply Dev.only_then (Dev.driveDiag_only _ _) | with_reducible apply Dev.only_then (Dev.applySetpoints_only _ _) | with_reducible apply Dev.only_then (Dev.forceZero_only _ _) | with_reducible apply Dev.only_then (Dev.stepDivide_only _ _) | with_reducible apply Dev.only_then (Dev.evalDue_only _ _ _) | with_reducible apply Dev.only_then (Dev.resolve_only _ _) | with_reducible apply Dev.only_then (Dev.countLit_only _) | with_reducible apply Dev.only_then (Dev.govBegin_only _ _) | with_reducible apply Dev.only_then (Dev.govEnd_only _) | with_reducible apply Dev.only_ite | dsimp only | fail_if_no_progress with_reducible refine Dev.only_mk ?_ (by and_intros <;> first | exact Or.inr (by with_reducible rfl) | exact Or.inl (by decide)) | split | with_reducible intro _

theorem Dev.feedbackLost_only (d : Dev) (n : Nat) (range : Bool) : d.onlyChanges (Dev.feedbackLost d n range) [.prm, .sluice, .host, .links, .seq, .ports, .lamp, .gov, .saf, .jnl] := by
  unfold Dev.feedbackLost
  repeat' first | with_reducible apply Dev.only_refl | (with_reducible show Part.within _ _ = true; decide) | with_reducible apply Dev.only_then (Dev.slotFault_only _ _ _ _) | with_reducible apply Dev.only_ite | dsimp only | fail_if_no_progress with_reducible refine Dev.only_mk ?_ (by and_intros <;> first | exact Or.inr (by with_reducible rfl) | exact Or.inl (by decide)) | split | with_reducible intro _

theorem Dev.govDeadline_only (d : Dev) (n : Nat) : d.onlyChanges (Dev.govDeadline d n) [.prm, .sluice, .host, .links, .seq, .ports, .lamp, .gov, .saf, .jnl] := by
  unfold Dev.govDeadline
  repeat' first | with_reducible apply Dev.only_refl | (with_reducible show Part.within _ _ = true; decide) | with_reducible apply Dev.only_then (Dev.slotFault_only _ _ _ _) | with_reducible apply Dev.only_ite | dsimp only | fail_if_no_progress with_reducible refine Dev.only_mk ?_ (by and_intros <;> first | exact Or.inr (by with_reducible rfl) | exact Or.inl (by decide)) | split | with_reducible intro _

/-! ### AuxOps.lean -/

theorem Dev.modChain_only (d : Dev) (s : Nat) (f : Chain → Chain) : d.onlyChanges (Dev.modChain d s f) [.aux] := by
  unfold Dev.modChain
  repeat' first | with_reducible apply Dev.only_refl | (with_reducible show Part.within _ _ = true; decide) | dsimp only | fail_if_no_progress with_reducible refine Dev.only_mk ?_ (by and_intros <;> first | exact Or.inr (by with_reducible rfl) | exact Or.inl (by decide)) | split | with_reducible intro _

theorem Dev.fadeDone_only (d : Dev) (s : Nat) : d.onlyChanges (Dev.fadeDone d s) [.prm, .host, .links, .aux] := by
  unfold Dev.fadeDone
  repeat' first | with_reducible apply Dev.only_refl | (with_reducible show Part.within _ _ = true; decide) | with_reducible apply Dev.only_then (Dev.post_only _ _ _) | with_reducible apply Dev.only_then (Dev.modChain_only _ _ _) | with_reducible apply Dev.only_ite | dsimp only | fail_if_no_progress with_reducible refine Dev.only_mk ?_ (by and_intros <;> first | exact Or.inr (by with_reducible rfl) | exact Or.inl (by decide)) | split | with_reducible intro _

theorem Dev.stepFade_only (d : Dev) (s : Nat) : d.onlyChanges (Dev.stepFade d s) [.prm, .host, .links, .aux] := by
  unfold Dev.stepFade
  repeat' first | with_reducible apply Dev.only_refl | (with_reducible show Part.within _ _ = true; decide) | with_reducible apply Dev.only_then (Dev.modChain_only _ _ _) | with_reducible apply Dev.only_then (Dev.fadeDone_only _ _) | with_reducible apply Dev.only_ite | dsimp only | fail_if_no_progress with_reducible refine Dev.only_mk ?_ (by and_intros <;> first | exact Or.inr (by with_reducible rfl) | exact Or.inl (by decide)) | split | with_reducible intro _

theorem Dev.takeCommit_only (d : Dev) (s : Nat) : d.onlyChanges (Dev.takeCommit d s) [.prm, .host, .links, .aux] := by
  unfold Dev.takeCommit
  repeat' first | with_reducible apply Dev.only_refl | (with_reducible show Part.within _ _ = true; decide) | with_reducible apply Dev.only_then (Dev.modChain_only _ _ _) | with_reducible apply Dev.only_then (Dev.fadeDone_only _ _) | dsimp only | fail_if_no_progress with_reducible refine Dev.only_mk ?_ (by and_intros <;> first | exact Or.inr (by with_reducible rfl) | exact Or.inl (by decide)) | split | with_reducible intro _

theorem Dev.segFrame_only (d : Dev) (s : Nat) : d.onlyChanges (Dev.segFrame d s) [.prm, .host, .links, .aux] := by
  unfold Dev.segFrame
  repeat' first | with_reducible apply Dev.only_refl | (with_reducible show Part.within _ _ = true; decide) | with_reducible apply Dev.only_then (Dev.applyVal_only _ _) | with_reducible apply Dev.only_then (Dev.count_only _ _ _ _) | with_reducible apply Dev.only_then (Dev.modChain_only _ _ _) | with_reducible apply Dev.only_then (Dev.stepFade_only _ _) | with_reducible apply Dev.only_then (Dev.takeCommit_only _ _) | with_reducible apply Dev.only_ite | dsimp only | fail_if_no_progress with_reducible refine Dev.only_mk ?_ (by and_intros <;> first | exact Or.inr (by with_reducible rfl) | exact Or.inl (by decide)) | split | with_reducible intro _

theorem Dev.segCommit_only (d : Dev) (s v : Nat) : d.onlyChanges (Dev.segCommit d s v) [.aux] := by
  unfold Dev.segCommit
  repeat' first | with_reducible apply Dev.only_refl | (with_reducible show Part.within _ _ = true; decide) | with_reducible apply Dev.only_then (Dev.modChain_only _ _ _) | dsimp only | fail_if_no_progress with_reducible refine Dev.only_mk ?_ (by and_intros <;> first | exact Or.inr (by with_reducible rfl) | exact Or.inl (by decide)) | split | with_reducible intro _

theorem Dev.segStop_only (d : Dev) : d.onlyChanges (Dev.segStop d) [.aux] := by
  unfold Dev.segStop
  repeat' first | with_reducible apply Dev.only_refl | (with_reducible show Part.within _ _ = true; decide) | dsimp only | fail_if_no_progress with_reducible refine Dev.only_mk ?_ (by and_intros <;> first | exact Or.inr (by with_reducible rfl) | exact Or.inl (by decide)) | split | with_reducible intro _

theorem Dev.mxSend_only (d : Dev) (p : List Byte) : d.onlyChanges (Dev.mxSend d p) [.aux] := by
  unfold Dev.mxSend
  repeat' first | with_reducible apply Dev.only_refl | (with_reducible show Part.within _ _ = true; decide) | dsimp only | fail_if_no_progress with_reducible refine Dev.only_mk ?_ (by and_intros <;> first | exact Or.inr (by with_reducible rfl) | exact Or.inl (by decide)) | split | with_reducible intro _

theorem Dev.mxConfigure_only (d : Dev) : d.onlyChanges (Dev.mxConfigure d) [.aux] := by
  unfold Dev.mxConfigure
  repeat' first | with_reducible apply Dev.only_refl | (with_reducible show Part.within _ _ = true; decide) | with_reducible apply Dev.only_foldl | with_reducible apply Dev.only_foldl_fst | with_reducible apply Dev.only_then (Dev.modTarget_only _ _ _) | with_reducible apply Dev.only_ite | dsimp only | fail_if_no_progress with_reducible refine Dev.only_mk ?_ (by and_intros <;> first | exact Or.inr (by with_reducible rfl) | exact Or.inl (by decide)) | split | with_reducible intro _

theorem Dev.scanRestart_only (d : Dev) : d.onlyChanges (Dev.scanRestart d) [.aux] := by
  unfold Dev.scanRestart
  repeat' first | with_reducible apply Dev.only_refl | (with_reducible show Part.within _ _ = true; decide) | with_reducible apply Dev.only_ite | dsimp only | fail_if_no_progress with_reducible refine Dev.only_mk ?_ (by and_intros <;> first | exact Or.inr (by with_reducible rfl) | exact Or.inl (by decide)) | split | with_reducible intro _

theorem Dev.scanStep_only (d : Dev) : d.onlyChanges (Dev.scanStep d) [.prm, .aux] := by
  unfold Dev.scanStep
  repeat' first | with_reducible apply Dev.only_refl | (with_reducible show Part.within _ _ = true; decide) | with_reducible apply Dev.only_then (Dev.count_only _ _ _ _) | with_reducible apply Dev.only_then (Dev.mxSend_only _ _) | with_reducible apply Dev.only_ite | dsimp only | fail_if_no_progress with_reducible refine Dev.only_mk ?_ (by and_intros <;> first | exact Or.inr (by with_reducible rfl) | exact Or.inl (by decide)) | split | with_reducible intro _

theorem Dev.mxFrame_only (d : Dev) (t : Nat) : d.onlyChanges (Dev.mxFrame d t) [.aux] := by
  unfold Dev.mxFrame
  repeat' first | with_reducible apply Dev.only_refl | (with_reducible show Part.within _ _ = true; decide) | with_reducible apply Dev.only_foldl | with_reducible apply Dev.only_foldl_fst | with_reducible apply Dev.only_then (Dev.mxSend_only _ _) | dsimp only | fail_if_no_progress with_reducible refine Dev.only_mk ?_ (by and_intros <;> first | exact Or.inr (by with_reducible rfl) | exact Or.inl (by decide)) | split | with_reducible intro _

theorem Dev.mxCompose_only (d : Dev) : d.onlyChanges (Dev.mxCompose d) [.prm, .host, .links, .aux, .saf] := by
  unfold Dev.mxCompose
  repeat' first | with_reducible apply Dev.only_refl | (with_reducible show Part.within _ _ = true; decide) | with_reducible apply Dev.only_foldl | with_reducible apply Dev.only_foldl_fst | with_reducible apply Dev.only_then (Dev.modTarget_only _ _ _) | with_reducible apply Dev.only_then (Dev.applyArr_only _ _) | with_reducible apply Dev.only_then (Dev.count_only _ _ _ _) | with_reducible apply Dev.only_then (Dev.post_only _ _ _) | with_reducible apply Dev.only_then (Dev.clearFault_only _ _ _) | with_reducible apply Dev.only_then (Dev.mxFrame_only _ _) | with_reducible apply Dev.only_ite | dsimp only | fail_if_no_progress with_reducible refine Dev.only_mk ?_ (by and_intros <;> first | exact Or.inr (by with_reducible rfl) | exact Or.inl (by decide)) | split | with_reducible intro _

theorem Dev.mxWritten_only (d : Dev) : d.onlyChanges (Dev.mxWritten d) [.prm, .aux] := by
  unfold Dev.mxWritten
  repeat' first | with_reducible apply Dev.only_refl | (with_reducible show Part.within _ _ = true; decide) | with_reducible apply Dev.only_foldl | with_reducible apply Dev.only_foldl_fst | with_reducible apply Dev.only_then (Dev.modTarget_only _ _ _) | with_reducible apply Dev.only_then (Dev.count_only _ _ _ _) | with_reducible apply Dev.only_ite | dsimp only | fail_if_no_progress with_reducible refine Dev.only_mk ?_ (by and_intros <;> first | exact Or.inr (by with_reducible rfl) | exact Or.inl (by decide)) | split | with_reducible intro _

theorem Dev.mxEdge_only (d : Dev) (t : Nat) : d.onlyChanges (Dev.mxEdge d t) [.aux] := by
  unfold Dev.mxEdge
  repeat' first | with_reducible apply Dev.only_refl | (with_reducible show Part.within _ _ = true; decide) | with_reducible apply Dev.only_then (Dev.modTarget_only _ _ _) | with_reducible apply Dev.only_ite | dsimp only | fail_if_no_progress with_reducible refine Dev.only_mk ?_ (by and_intros <;> first | exact Or.inr (by with_reducible rfl) | exact Or.inl (by decide)) | split | with_reducible intro _

theorem Dev.mxLost_only (d : Dev) (t : Nat) : d.onlyChanges (Dev.mxLost d t) [.prm, .sluice, .host, .links, .seq, .ports, .lamp, .gov, .aux, .saf, .jnl] := by
  unfold Dev.mxLost
  repeat' first | with_reducible apply Dev.only_refl | (with_reducible show Part.within _ _ = true; decide) | with_reducible apply Dev.only_then (Dev.modTarget_only _ _ _) | with_reducible apply Dev.only_then (Dev.raise_only _ _ _ _) | with_reducible apply Dev.only_ite | dsimp only | fail_if_no_progress with_reducible refine Dev.only_mk ?_ (by and_intros <;> first | exact Or.inr (by with_reducible rfl) | exact Or.inl (by decide)) | split | with_reducible intro _

theorem Dev.mxBlank_only (d : Dev) : d.onlyChanges (Dev.mxBlank d) [.aux] := by
  unfold Dev.mxBlank
  repeat' first | with_reducible apply Dev.only_refl | (with_reducible show Part.within _ _ = true; decide) | with_reducible apply Dev.only_foldl | with_reducible apply Dev.only_foldl_fst | with_reducible apply Dev.only_then (Dev.mxSend_only _ _) | with_reducible apply Dev.only_ite | dsimp only | fail_if_no_progress with_reducible refine Dev.only_mk ?_ (by and_intros <;> first | exact Or.inr (by with_reducible rfl) | exact Or.inl (by decide)) | split | with_reducible intro _

theorem Dev.sendThumb_only (d : Dev) : d.onlyChanges (Dev.sendThumb d) [.links, .cmp] := by
  unfold Dev.sendThumb
  repeat' first | with_reducible apply Dev.only_refl | (with_reducible show Part.within _ _ = true; decide) | with_reducible apply Dev.only_foldl | with_reducible apply Dev.only_foldl_fst | with_reducible apply Dev.only_then (Dev.modLink_only _ _ _) | with_reducible apply Dev.only_ite | dsimp only | fail_if_no_progress with_reducible refine Dev.only_mk ?_ (by and_intros <;> first | exact Or.inr (by with_reducible rfl) | exact Or.inl (by decide)) | split | with_reducible intro _

/-! ### ClockOps.lean -/

theorem Dev.throttle_only (n : Nat) (d : Dev) : d.onlyChanges (Dev.throttle n d) [.prm, .thm, .host, .links, .cmp] := by
  induction n generalizing d with
  | zero => exact Dev.only_refl _ _
  | succ n ih =>
    unfold Dev.throttle
    repeat' first | with_reducible apply Dev.only_refl | (with_reducible show Part.within _ _ = true; decide) | with_reducible apply Dev.only_then (ih _) | with_reducible apply Dev.only_then (Dev.post_only _ _ _) | with_reducible apply Dev.only_then (Dev.count_only _ _ _ _) | with_reducible apply Dev.only_ite | dsimp only | fail_if_no_progress with_reducible refine Dev.only_mk ?_ (by and_intros <;> first | exact Or.inr (by with_reducible rfl) | exact Or.inl (by decide)) | split | with_reducible intro _

theorem Dev.setSticky_only (d : Dev) (bit : Nat) : d.onlyChanges (Dev.setSticky d bit) [.clk] := by
  unfold Dev.setSticky
  repeat' first | with_reducible apply Dev.only_refl | (with_reducible show Part.within _ _ = true; decide) | dsimp only | fail_if_no_progress with_reducible refine Dev.only_mk ?_ (by and_intros <;> first | exact Or.inr (by with_reducible rfl) | exact Or.inl (by decide)) | split | with_reducible intro _

theorem Dev.zeroPllQ_only (d : Dev) : d.onlyChanges (Dev.zeroPllQ d) [.clk, .cam] := by
  unfold Dev.zeroPllQ
  repeat' first | with_reducible apply Dev.only_refl | (with_reducible show Part.within _ _ = true; decide) | dsimp only | fail_if_no_progress with_reducible refine Dev.only_mk ?_ (by and_intros <;> first | exact Or.inr (by with_reducible rfl) | exact Or.inl (by decide)) | split | with_reducible intro _

theorem Dev.startRelock_only (d : Dev) (p : Nat) : d.onlyChanges (Dev.startRelock d p) [.clk, .cam] := by
  unfold Dev.startRelock
  repeat' first | with_reducible apply Dev.only_refl | (with_reducible show Part.within _ _ = true; decide) | with_reducible apply Dev.only_then (Dev.modPll_only _ _ _) | with_reducible apply Dev.only_then (Dev.zeroPllQ_only _) | with_reducible apply Dev.only_ite | dsimp only | fail_if_no_progress with_reducible refine Dev.only_mk ?_ (by and_intros <;> first | exact Or.inr (by with_reducible rfl) | exact Or.inl (by decide)) | split | with_reducible intro _

theorem Dev.startWanted_only (d : Dev) : d.onlyChanges (Dev.startWanted d) [.clk, .cam] := by
  unfold Dev.startWanted
  repeat' first | with_reducible apply Dev.only_refl | (with_reducible show Part.within _ _ = true; decide) | with_reducible apply Dev.only_foldl | with_reducible apply Dev.only_foldl_fst | with_reducible apply Dev.only_then (Dev.startRelock_only _ _) | with_reducible apply Dev.only_ite | dsimp only | fail_if_no_progress with_reducible refine Dev.only_mk ?_ (by and_intros <;> first | exact Or.inr (by with_reducible rfl) | exact Or.inl (by decide)) | split | with_reducible intro _

theorem Dev.wantRelock_only (d : Dev) (p : Nat) : d.onlyChanges (Dev.wantRelock d p) [.clk, .cam] := by
  unfold Dev.wantRelock
  repeat' first | with_reducible apply Dev.only_refl | (with_reducible show Part.within _ _ = true; decide) | with_reducible apply Dev.only_then (Dev.modPll_only _ _ _) | with_reducible apply Dev.only_then (Dev.startRelock_only _ _) | with_reducible apply Dev.only_ite | dsimp only | fail_if_no_progress with_reducible refine Dev.only_mk ?_ (by and_intros <;> first | exact Or.inr (by with_reducible rfl) | exact Or.inl (by decide)) | split | with_reducible intro _

theorem Dev.stallDram_only (d : Dev) (pllM : Bool) : d.onlyChanges (Dev.stallDram d pllM) [.prm, .sluice, .host, .links, .cmp, .lamp] := by
  unfold Dev.stallDram
  repeat' first | with_reducible apply Dev.only_refl | (with_reducible show Part.within _ _ = true; decide) | with_reducible apply Dev.only_foldl | with_reducible apply Dev.only_foldl_fst | with_reducible apply Dev.only_then (Dev.abandon_only _ _ _) | dsimp only | fail_if_no_progress with_reducible refine Dev.only_mk ?_ (by and_intros <;> first | exact Or.inr (by with_reducible rfl) | exact Or.inl (by decide)) | split | with_reducible intro _

theorem Dev.pllLoss_only (d : Dev) (p : Nat) (clamp : Bool) : d.onlyChanges (Dev.pllLoss d p clamp) [.prm, .clk, .sluice, .host, .links, .cmp, .seq, .cam, .ports, .lamp, .gov, .aux, .saf, .jnl] := by
  unfold Dev.pllLoss
  repeat' first | with_reducible apply Dev.only_refl | (with_reducible show Part.within _ _ = true; decide) | with_reducible apply Dev.only_then (Dev.modPll_only _ _ _) | with_reducible apply Dev.only_then (Dev.count_only _ _ _ _) | with_reducible apply Dev.only_then (Dev.raiseWith_only _ _ _ _ _ _) | with_reducible apply Dev.only_then (Dev.segStop_only _) | with_reducible apply Dev.only_then (Dev.setSticky_only _ _) | with_reducible apply Dev.only_then (Dev.startRelock_only _ _) | with_reducible apply Dev.only_then (Dev.wantRelock_only _ _) | with_reducible apply Dev.only_then (Dev.stallDram_only _ _) | with_reducible apply Dev.only_ite | dsimp only | fail_if_no_progress with_reducible refine Dev.only_mk ?_ (by and_intros <;> first | exact Or.inr (by with_reducible rfl) | exact Or.inl (by decide)) | split | with_reducible intro _

theorem Dev.pllLock_only (d : Dev) (p : Nat) : d.onlyChanges (Dev.pllLock d p) [.prm, .clk, .sluice, .host, .links, .lamp, .saf] := by
  unfold Dev.pllLock
  repeat' first | with_reducible apply Dev.only_refl | (with_reducible show Part.within _ _ = true; decide) | with_reducible apply Dev.only_then (Dev.modPll_only _ _ _) | with_reducible apply Dev.only_then (Dev.post_only _ _ _) | with_reducible apply Dev.only_then (Dev.request_only _ _) | with_reducible apply Dev.only_then (Dev.clearFault_only _ _ _) | with_reducible apply Dev.only_ite | dsimp only | fail_if_no_progress with_reducible refine Dev.only_mk ?_ (by and_intros <;> first | exact Or.inr (by with_reducible rfl) | exact Or.inl (by decide)) | split | with_reducible intro _

theorem Dev.relockTimeout_only (d : Dev) (p : Nat) : d.onlyChanges (Dev.relockTimeout d p) [.prm, .clk, .cam] := by
  unfold Dev.relockTimeout
  repeat' first | with_reducible apply Dev.only_refl | (with_reducible show Part.within _ _ = true; decide) | with_reducible apply Dev.only_then (Dev.count_only _ _ _ _) | with_reducible apply Dev.only_then (Dev.startRelock_only _ _) | with_reducible apply Dev.only_ite | dsimp only | fail_if_no_progress with_reducible refine Dev.only_mk ?_ (by and_intros <;> first | exact Or.inr (by with_reducible rfl) | exact Or.inl (by decide)) | split | with_reducible intro _

theorem Dev.dramResume_only (d : Dev) : d.onlyChanges (Dev.dramResume d) [.prm, .sluice, .cmp, .lamp] := by
  unfold Dev.dramResume
  repeat' first | with_reducible apply Dev.only_refl | (with_reducible show Part.within _ _ = true; decide) | with_reducible apply Dev.only_then (Dev.release_only _ _) | with_reducible apply Dev.only_ite | dsimp only | fail_if_no_progress with_reducible refine Dev.only_mk ?_ (by and_intros <;> first | exact Or.inr (by with_reducible rfl) | exact Or.inl (by decide)) | split | with_reducible intro _

theorem Dev.setRefclk_only (d : Dev) (good : Bool) (count : Nat) : d.onlyChanges (Dev.setRefclk d good count) [.prm, .clk] := by
  unfold Dev.setRefclk
  repeat' first | with_reducible apply Dev.only_refl | (with_reducible show Part.within _ _ = true; decide) | with_reducible apply Dev.only_then (Dev.count_only _ _ _ _) | dsimp only | fail_if_no_progress with_reducible refine Dev.only_mk ?_ (by and_intros <;> first | exact Or.inr (by with_reducible rfl) | exact Or.inl (by decide)) | split | with_reducible intro _

theorem Dev.wantAll_only (d : Dev) : d.onlyChanges (Dev.wantAll d) [.clk] := by
  unfold Dev.wantAll
  repeat' first | with_reducible apply Dev.only_refl | (with_reducible show Part.within _ _ = true; decide) | dsimp only | fail_if_no_progress with_reducible refine Dev.only_mk ?_ (by and_intros <;> first | exact Or.inr (by with_reducible rfl) | exact Or.inl (by decide)) | split | with_reducible intro _

theorem Dev.refclkLoss_only (d : Dev) (count : Nat) : d.onlyChanges (Dev.refclkLoss d count) [.prm, .clk, .sluice, .host, .links, .seq, .ports, .lamp, .gov, .saf, .jnl] := by
  unfold Dev.refclkLoss
  repeat' first | with_reducible apply Dev.only_refl | (with_reducible show Part.within _ _ = true; decide) | with_reducible apply Dev.only_then (Dev.count_only _ _ _ _) | with_reducible apply Dev.only_then (Dev.raise_only _ _ _ _) | with_reducible apply Dev.only_then (Dev.setSticky_only _ _) | with_reducible apply Dev.only_then (Dev.setRefclk_only _ _ _) | with_reducible apply Dev.only_then (Dev.wantAll_only _) | with_reducible apply Dev.only_ite | dsimp only | fail_if_no_progress with_reducible refine Dev.only_mk ?_ (by and_intros <;> first | exact Or.inr (by with_reducible rfl) | exact Or.inl (by decide)) | split | with_reducible intro _

theorem Dev.refclkRestored_only (d : Dev) (count : Nat) : d.onlyChanges (Dev.refclkRestored d count) [.prm, .clk, .host, .links, .cam] := by
  unfold Dev.refclkRestored
  repeat' first | with_reducible apply Dev.only_refl | (with_reducible show Part.within _ _ = true; decide) | with_reducible apply Dev.only_then (Dev.count_only _ _ _ _) | with_reducible apply Dev.only_then (Dev.post_only _ _ _) | with_reducible apply Dev.only_then (Dev.startWanted_only _) | with_reducible apply Dev.only_then (Dev.setRefclk_only _ _ _) | with_reducible apply Dev.only_ite | dsimp only | fail_if_no_progress with_reducible refine Dev.only_mk ?_ (by and_intros <;> first | exact Or.inr (by with_reducible rfl) | exact Or.inl (by decide)) | split | with_reducible intro _

theorem Dev.phaseStep_only (d : Dev) : d.onlyChanges (Dev.phaseStep d) [.clk] := by
  unfold Dev.phaseStep
  repeat' first | with_reducible apply Dev.only_refl | (with_reducible show Part.within _ _ = true; decide) | with_reducible apply Dev.only_ite | dsimp only | fail_if_no_progress with_reducible refine Dev.only_mk ?_ (by and_intros <;> first | exact Or.inr (by with_reducible rfl) | exact Or.inl (by decide)) | split | with_reducible intro _

theorem Dev.updateTDie_only (d : Dev) : d.onlyChanges (Dev.updateTDie d) [.prm, .thm, .host, .links, .cmp, .gov] := by
  unfold Dev.updateTDie
  repeat' first | with_reducible apply Dev.only_refl | (with_reducible show Part.within _ _ = true; decide) | with_reducible apply Dev.only_then (Dev.post_only _ _ _) | with_reducible apply Dev.only_then (Dev.throttle_only _ _) | with_reducible apply Dev.only_ite | dsimp only | fail_if_no_progress with_reducible refine Dev.only_mk ?_ (by and_intros <;> first | exact Or.inr (by with_reducible rfl) | exact Or.inl (by decide)) | split | with_reducible intro _

theorem Dev.takeConversion_only (d : Dev) (t rcTrim : Int) : d.onlyChanges (Dev.takeConversion d t rcTrim) [.thm] := by
  unfold Dev.takeConversion
  repeat' first | with_reducible apply Dev.only_refl | (with_reducible show Part.within _ _ = true; decide) | with_reducible apply Dev.only_ite | dsimp only | fail_if_no_progress with_reducible refine Dev.only_mk ?_ (by and_intros <;> first | exact Or.inr (by with_reducible rfl) | exact Or.inl (by decide)) | split | with_reducible intro _

theorem Dev.dieTemp_only (d : Dev) (t rcTrim : Int) : d.onlyChanges (Dev.dieTemp d t rcTrim) [.prm, .thm, .host, .links, .cmp, .gov] := by
  unfold Dev.dieTemp
  repeat' first | with_reducible apply Dev.only_refl | (with_reducible show Part.within _ _ = true; decide) | with_reducible apply Dev.only_then (Dev.post_only _ _ _) | with_reducible apply Dev.only_then (Dev.updateTDie_only _) | with_reducible apply Dev.only_then (Dev.takeConversion_only _ _ _) | with_reducible apply Dev.only_then (Dev.throttle_only _ _) | with_reducible apply Dev.only_ite | dsimp only | fail_if_no_progress with_reducible refine Dev.only_mk ?_ (by and_intros <;> first | exact Or.inr (by with_reducible rfl) | exact Or.inl (by decide)) | split | with_reducible intro _

/-! ### LinkOps.lean -/

theorem Dev.syncBts_only (d : Dev) (l : LinkId) : d.onlyChanges (Dev.syncBts d l) [.links] := by
  unfold Dev.syncBts
  repeat' first | with_reducible apply Dev.only_refl | (with_reducible show Part.within _ _ = true; decide) | with_reducible apply Dev.only_then (Dev.modLink_only _ _ _) | with_reducible apply Dev.only_ite | dsimp only | fail_if_no_progress with_reducible refine Dev.only_mk ?_ (by and_intros <;> first | exact Or.inr (by with_reducible rfl) | exact Or.inl (by decide)) | split | with_reducible intro _

theorem Dev.askStep_only (d : Dev) (l : LinkId) : d.onlyChanges (Dev.askStep d l) [.prm, .sluice, .host, .links, .lamp] := by
  unfold Dev.askStep
  repeat' first | with_reducible apply Dev.only_refl | (with_reducible show Part.within _ _ = true; decide) | with_reducible apply Dev.only_then (Dev.modLink_only _ _ _) | with_reducible apply Dev.only_then (Dev.request_only _ _) | with_reducible apply Dev.only_ite | dsimp only | fail_if_no_progress with_reducible refine Dev.only_mk ?_ (by and_intros <;> first | exact Or.inr (by with_reducible rfl) | exact Or.inl (by decide)) | split | with_reducible intro _

theorem Dev.adaptDfe_only (d : Dev) (l : LinkId) : d.onlyChanges (Dev.adaptDfe d l) [.links, .free] := by
  unfold Dev.adaptDfe
  repeat' first | with_reducible apply Dev.only_refl | (with_reducible show Part.within _ _ = true; decide) | with_reducible apply Dev.only_foldl | with_reducible apply Dev.only_foldl_fst | with_reducible apply Dev.only_then (Dev.modLink_only _ _ _) | with_reducible apply Dev.only_then (Dev.drawn_only _) | dsimp only | fail_if_no_progress with_reducible refine Dev.only_mk ?_ (by and_intros <;> first | exact Or.inr (by with_reducible rfl) | exact Or.inl (by decide)) | split | with_reducible intro _

theorem Dev.adaptReceivers_only (d : Dev) (l : LinkId) : d.onlyChanges (Dev.adaptReceivers d l) [.prm, .links, .free] := by
  unfold Dev.adaptReceivers
  repeat' first | with_reducible apply Dev.only_refl | (with_reducible show Part.within _ _ = true; decide) | with_reducible apply Dev.only_foldl | with_reducible apply Dev.only_foldl_fst | with_reducible apply Dev.only_then (Dev.drawn_only _) | with_reducible apply Dev.only_then (Dev.setPar_only _ _ _ _) | with_reducible apply Dev.only_then (Dev.adaptDfe_only _ _) | dsimp only | fail_if_no_progress with_reducible refine Dev.only_mk ?_ (by and_intros <;> first | exact Or.inr (by with_reducible rfl) | exact Or.inl (by decide)) | split | with_reducible intro _

theorem Dev.recordEyes_only (d : Dev) (l : LinkId) (eyes : List Eye) : d.onlyChanges (Dev.recordEyes d l eyes) [.prm] := by
  unfold Dev.recordEyes
  repeat' first | with_reducible apply Dev.only_refl | (with_reducible show Part.within _ _ = true; decide) | with_reducible apply Dev.only_foldl | with_reducible apply Dev.only_foldl_fst | with_reducible apply Dev.only_then (Dev.setPar_only _ _ _ _) | dsimp only | fail_if_no_progress with_reducible refine Dev.only_mk ?_ (by and_intros <;> first | exact Or.inr (by with_reducible rfl) | exact Or.inl (by decide)) | split | with_reducible intro _

theorem Dev.dropFailing_only (d : Dev) (l : LinkId) (eyes : List Eye) (pam4 : Bool) : d.onlyChanges (Dev.dropFailing d l eyes pam4) [.links] := by
  unfold Dev.dropFailing
  repeat' first | with_reducible apply Dev.only_refl | (with_reducible show Part.within _ _ = true; decide) | with_reducible apply Dev.only_foldl | with_reducible apply Dev.only_foldl_fst | with_reducible apply Dev.only_then (Dev.modLink_only _ _ _) | with_reducible apply Dev.only_ite | dsimp only | fail_if_no_progress with_reducible refine Dev.only_mk ?_ (by and_intros <;> first | exact Or.inr (by with_reducible rfl) | exact Or.inl (by decide)) | split | with_reducible intro _

theorem Dev.leavePower_only (d : Dev) (l : LinkId) : d.onlyChanges (Dev.leavePower d l) [.prm, .host, .links, .free] := by
  unfold Dev.leavePower
  repeat' first | with_reducible apply Dev.only_refl | (with_reducible show Part.within _ _ = true; decide) | with_reducible apply Dev.only_then (Dev.postFree_only _ _) | with_reducible apply Dev.only_ite | dsimp only | fail_if_no_progress with_reducible refine Dev.only_mk ?_ (by and_intros <;> first | exact Or.inr (by with_reducible rfl) | exact Or.inl (by decide)) | split | with_reducible intro _

theorem Dev.toDetect_only (d : Dev) (l : LinkId) : d.onlyChanges (Dev.toDetect d l) [.prm, .sluice, .host, .links, .cmp, .seq, .ports, .lamp, .gov, .saf, .jnl, .free] := by
  unfold Dev.toDetect
  repeat' first | with_reducible apply Dev.only_refl | (with_reducible show Part.within _ _ = true; decide) | with_reducible apply Dev.only_then (Dev.modLink_only _ _ _) | with_reducible apply Dev.only_then (Dev.release_only _ _) | with_reducible apply Dev.only_then (Dev.clearFault_only _ _ _) | with_reducible apply Dev.only_then (Dev.closeFramesOf_only _ _) | with_reducible apply Dev.only_then (Dev.detect_only _ _ _ _ _) | with_reducible apply Dev.only_then (Dev.syncBts_only _ _) | with_reducible apply Dev.only_then (Dev.leavePower_only _ _) | with_reducible apply Dev.only_ite | dsimp only | fail_if_no_progress with_reducible refine Dev.only_mk ?_ (by and_intros <;> first | exact Or.inr (by with_reducible rfl) | exact Or.inl (by decide)) | split | with_reducible intro _

theorem Dev.toLock_only (d : Dev) (l : LinkId) (rate : Nat) (purpose : LockPurpose) (fast : Bool) : d.onlyChanges (Dev.toLock d l rate purpose fast) [.links] := by
  unfold Dev.toLock
  repeat' first | with_reducible apply Dev.only_refl | (with_reducible show Part.within _ _ = true; decide) | with_reducible apply Dev.only_then (Dev.modLink_only _ _ _) | with_reducible apply Dev.only_then (Dev.syncBts_only _ _) | dsimp only | fail_if_no_progress with_reducible refine Dev.only_mk ?_ (by and_intros <;> first | exact Or.inr (by with_reducible rfl) | exact Or.inl (by decide)) | split | with_reducible intro _

theorem Dev.takeTraining_only (d : Dev) (l : LinkId) : d.onlyChanges (Dev.takeTraining d l) [.prm] := by
  unfold Dev.takeTraining
  repeat' first | with_reducible apply Dev.only_refl | (with_reducible show Part.within _ _ = true; decide) | with_reducible apply Dev.only_then (Dev.applyVal_only _ _) | dsimp only | fail_if_no_progress with_reducible refine Dev.only_mk ?_ (by and_intros <;> first | exact Or.inr (by with_reducible rfl) | exact Or.inl (by decide)) | split | with_reducible intro _

theorem Dev.toEye_only (d : Dev) (l : LinkId) : d.onlyChanges (Dev.toEye d l) [.prm, .links] := by
  unfold Dev.toEye
  repeat' first | with_reducible apply Dev.only_refl | (with_reducible show Part.within _ _ = true; decide) | with_reducible apply Dev.only_then (Dev.modLink_only _ _ _) | with_reducible apply Dev.only_then (Dev.syncBts_only _ _) | with_reducible apply Dev.only_then (Dev.takeTraining_only _ _) | dsimp only | fail_if_no_progress with_reducible refine Dev.only_mk ?_ (by and_intros <;> first | exact Or.inr (by with_reducible rfl) | exact Or.inl (by decide)) | split | with_reducible intro _

theorem Dev.trainFail_only (d : Dev) (l : LinkId) : d.onlyChanges (Dev.trainFail d l) [.prm] := by
  unfold Dev.trainFail
  repeat' first | with_reducible apply Dev.only_refl | (with_reducible show Part.within _ _ = true; decide) | with_reducible apply Dev.only_then (Dev.count_only _ _ _ _) | dsimp only | fail_if_no_progress with_reducible refine Dev.only_mk ?_ (by and_intros <;> first | exact Or.inr (by with_reducible rfl) | exact Or.inl (by decide)) | split | with_reducible intro _

theorem Dev.toDown_only (d : Dev) (l : LinkId) : d.onlyChanges (Dev.toDown d l) [.prm, .sluice, .host, .links, .seq, .ports, .lamp, .gov, .saf, .jnl, .free] := by
  unfold Dev.toDown
  repeat' first | with_reducible apply Dev.only_refl | (with_reducible show Part.within _ _ = true; decide) | with_reducible apply Dev.only_then (Dev.modLink_only _ _ _) | with_reducible apply Dev.only_then (Dev.drawn_only _) | with_reducible apply Dev.only_then (Dev.release_only _ _) | with_reducible apply Dev.only_then (Dev.raise_only _ _ _ _) | with_reducible apply Dev.only_then (Dev.syncBts_only _ _) | dsimp only | fail_if_no_progress with_reducible refine Dev.only_mk ?_ (by and_intros <;> first | exact Or.inr (by with_reducible rfl) | exact Or.inl (by decide)) | split | with_reducible intro _

theorem Dev.attemptFailed_only (d : Dev) (l : LinkId) : d.onlyChanges (Dev.attemptFailed d l) [.prm, .sluice, .host, .links, .seq, .ports, .lamp, .gov, .saf, .jnl, .free] := by
  unfold Dev.attemptFailed
  repeat' first | with_reducible apply Dev.only_refl | (with_reducible show Part.within _ _ = true; decide) | with_reducible apply Dev.only_then (Dev.modLink_only _ _ _) | with_reducible apply Dev.only_then (Dev.toLock_only _ _ _ _ _) | with_reducible apply Dev.only_then (Dev.trainFail_only _ _) | with_reducible apply Dev.only_then (Dev.toDown_only _ _) | with_reducible apply Dev.only_ite | dsimp only | fail_if_no_progress with_reducible refine Dev.only_mk ?_ (by and_intros <;> first | exact Or.inr (by with_reducible rfl) | exact Or.inl (by decide)) | split | with_reducible intro _

theorem Dev.toRecovery_only (d : Dev) (l : LinkId) : d.onlyChanges (Dev.toRecovery d l) [.prm, .sluice, .host, .links, .lamp, .free] := by
  unfold Dev.toRecovery
  repeat' first | with_reducible apply Dev.only_refl | (with_reducible show Part.within _ _ = true; decide) | with_reducible apply Dev.only_then (Dev.modLink_only _ _ _) | with_reducible apply Dev.only_then (Dev.count_only _ _ _ _) | with_reducible apply Dev.only_then (Dev.postFree_only _ _) | with_reducible apply Dev.only_then (Dev.release_only _ _) | with_reducible apply Dev.only_then (Dev.syncBts_only _ _) | with_reducible apply Dev.only_then (Dev.leavePower_only _ _) | dsimp only | fail_if_no_progress with_reducible refine Dev.only_mk ?_ (by and_intros <;> first | exact Or.inr (by with_reducible rfl) | exact Or.inl (by decide)) | split | with_reducible intro _

theorem Dev.toStep_only (d : Dev) (l : LinkId) (rate : Nat) : d.onlyChanges (Dev.toStep d l rate) [.links] := by
  unfold Dev.toStep
  repeat' first | with_reducible apply Dev.only_refl | (with_reducible show Part.within _ _ = true; decide) | with_reducible apply Dev.only_then (Dev.modLink_only _ _ _) | with_reducible apply Dev.only_then (Dev.syncBts_only _ _) | dsimp only | fail_if_no_progress with_reducible refine Dev.only_mk ?_ (by and_intros <;> first | exact Or.inr (by with_reducible rfl) | exact Or.inl (by decide)) | split | with_reducible intro _

theorem Dev.sendAck_only (d : Dev) (l : LinkId) (vc : Nat) : d.onlyChanges (Dev.sendAck d l vc) [.links] := by
  unfold Dev.sendAck
  repeat' first | with_reducible apply Dev.only_refl | (with_reducible show Part.within _ _ = true; decide) | with_reducible apply Dev.only_then (Dev.modLink_only _ _ _) | with_reducible apply Dev.only_ite | dsimp only | fail_if_no_progress with_reducible refine Dev.only_mk ?_ (by and_intros <;> first | exact Or.inr (by with_reducible rfl) | exact Or.inl (by decide)) | split | with_reducible intro _

theorem Dev.sendNak_only (d : Dev) (l : LinkId) (vc : Nat) : d.onlyChanges (Dev.sendNak d l vc) [.prm, .links] := by
  unfold Dev.sendNak
  repeat' first | with_reducible apply Dev.only_refl | (with_reducible show Part.within _ _ = true; decide) | with_reducible apply Dev.only_then (Dev.modLink_only _ _ _) | with_reducible apply Dev.only_then (Dev.count_only _ _ _ _) | with_reducible apply Dev.only_ite | dsimp only | fail_if_no_progress with_reducible refine Dev.only_mk ?_ (by and_intros <;> first | exact Or.inr (by with_reducible rfl) | exact Or.inl (by decide)) | split | with_reducible intro _

theorem Dev.toL0_only (d : Dev) (l : LinkId) : d.onlyChanges (Dev.toL0 d l) [.prm, .sluice, .host, .links, .lamp, .saf, .free] := by
  unfold Dev.toL0
  repeat' first | with_reducible apply Dev.only_refl | (with_reducible show Part.within _ _ = true; decide) | with_reducible apply Dev.only_then (Dev.modLink_only _ _ _) | with_reducible apply Dev.only_then (Dev.pumpLink_only _ _) | with_reducible apply Dev.only_then (Dev.postFree_only _ _) | with_reducible apply Dev.only_then (Dev.release_only _ _) | with_reducible apply Dev.only_then (Dev.clearFault_only _ _ _) | with_reducible apply Dev.only_then (Dev.syncBts_only _ _) | with_reducible apply Dev.only_then (Dev.askStep_only _ _) | with_reducible apply Dev.only_then (Dev.sendAck_only _ _ _) | with_reducible apply Dev.only_ite | dsimp only | fail_if_no_progress with_reducible refine Dev.only_mk ?_ (by and_intros <;> first | exact Or.inr (by with_reducible rfl) | exact Or.inl (by decide)) | split | with_reducible intro _

theorem Dev.toL2_only (d : Dev) (l : LinkId) : d.onlyChanges (Dev.toL2 d l) [.prm, .sluice, .host, .links, .lamp, .free] := by
  unfold Dev.toL2
  repeat' first | with_reducible apply Dev.only_refl | (with_reducible show Part.within _ _ = true; decide) | with_reducible apply Dev.only_then (Dev.modLink_only _ _ _) | with_reducible apply Dev.only_then (Dev.postFree_only _ _) | with_reducible apply Dev.only_then (Dev.release_only _ _) | with_reducible apply Dev.only_then (Dev.syncBts_only _ _) | with_reducible apply Dev.only_ite | dsimp only | fail_if_no_progress with_reducible refine Dev.only_mk ?_ (by and_intros <;> first | exact Or.inr (by with_reducible rfl) | exact Or.inl (by decide)) | split | with_reducible intro _

theorem Dev.toTrain_only (d : Dev) (l : LinkId) (stored : Bool) : d.onlyChanges (Dev.toTrain d l stored) [.prm, .links] := by
  unfold Dev.toTrain
  repeat' first | with_reducible apply Dev.only_refl | (with_reducible show Part.within _ _ = true; decide) | with_reducible apply Dev.only_foldl | with_reducible apply Dev.only_foldl_fst | with_reducible apply Dev.only_then (Dev.modLink_only _ _ _) | with_reducible apply Dev.only_then (Dev.syncBts_only _ _) | with_reducible apply Dev.only_then (Dev.takeTraining_only _ _) | with_reducible apply Dev.only_ite | dsimp only | fail_if_no_progress with_reducible refine Dev.only_mk ?_ (by and_intros <;> first | exact Or.inr (by with_reducible rfl) | exact Or.inl (by decide)) | split | with_reducible intro _

theorem Dev.nextTap_only (d : Dev) (l : LinkId) (phys : Nat) (r : TapReq) : d.onlyChanges (Dev.nextTap d l phys r) [.prm, .links, .free] := by
  unfold Dev.nextTap
  repeat' first | with_reducible apply Dev.only_refl | (with_reducible show Part.within _ _ = true; decide) | with_reducible apply Dev.only_then (Dev.modLink_only _ _ _) | with_reducible apply Dev.only_then (Dev.drawn_only _) | with_reducible apply Dev.only_then (Dev.count_only _ _ _ _) | with_reducible apply Dev.only_ite | dsimp only | fail_if_no_progress with_reducible refine Dev.only_mk ?_ (by and_intros <;> first | exact Or.inr (by with_reducible rfl) | exact Or.inl (by decide)) | split | with_reducible intro _

theorem Dev.spareExhausted_only (d : Dev) (l : LinkId) : d.onlyChanges (Dev.spareExhausted d l) [.prm, .sluice, .host, .links, .seq, .ports, .lamp, .gov, .saf, .jnl, .free] := by
  unfold Dev.spareExhausted
  repeat' first | with_reducible apply Dev.only_refl | (with_reducible show Part.within _ _ = true; decide) | with_reducible apply Dev.only_then (Dev.drawn_only _) | with_reducible apply Dev.only_then (Dev.raise_only _ _ _ _) | with_reducible apply Dev.only_then (Dev.toRecovery_only _ _) | dsimp only | fail_if_no_progress with_reducible refine Dev.only_mk ?_ (by and_intros <;> first | exact Or.inr (by with_reducible rfl) | exact Or.inl (by decide)) | split | with_reducible intro _

theorem Dev.laneFault_only (d : Dev) (l : LinkId) (phys : Nat) : d.onlyChanges (Dev.laneFault d l phys) [.prm, .sluice, .host, .links, .seq, .ports, .lamp, .gov, .saf, .jnl, .free] := by
  unfold Dev.laneFault
  repeat' first | with_reducible apply Dev.only_refl | (with_reducible show Part.within _ _ = true; decide) | with_reducible apply Dev.only_then (Dev.modLink_only _ _ _) | with_reducible apply Dev.only_then (Dev.syncBts_only _ _) | with_reducible apply Dev.only_then (Dev.spareExhausted_only _ _) | with_reducible apply Dev.only_ite | dsimp only | fail_if_no_progress with_reducible refine Dev.only_mk ?_ (by and_intros <;> first | exact Or.inr (by with_reducible rfl) | exact Or.inl (by decide)) | split | with_reducible intro _

theorem Dev.moveLane_only (d : Dev) (l : LinkId) (logical : Nat) : d.onlyChanges (Dev.moveLane d l logical) [.prm, .host, .links, .free] := by
  unfold Dev.moveLane
  repeat' first | with_reducible apply Dev.only_refl | (with_reducible show Part.within _ _ = true; decide) | with_reducible apply Dev.only_then (Dev.modLink_only _ _ _) | with_reducible apply Dev.only_then (Dev.postFree_only _ _) | with_reducible apply Dev.only_then (Dev.syncBts_only _ _) | dsimp only | fail_if_no_progress with_reducible refine Dev.only_mk ?_ (by and_intros <;> first | exact Or.inr (by with_reducible rfl) | exact Or.inl (by decide)) | split | with_reducible intro _

theorem Dev.checkHusk_only (d : Dev) (l : LinkId) (h : RxHusk) : d.onlyChanges (Dev.checkHusk d l h).1 [.prm, .links] := by
  unfold Dev.checkHusk
  repeat' first | with_reducible apply Dev.only_refl | (with_reducible show Part.within _ _ = true; decide) | with_reducible apply Dev.only_then (Dev.count_only _ _ _ _) | with_reducible apply Dev.only_then (Dev.sendNak_only _ _ _) | with_reducible apply Dev.only_ite | dsimp only | fail_if_no_progress with_reducible refine Dev.only_mk ?_ (by and_intros <;> first | exact Or.inr (by with_reducible rfl) | exact Or.inl (by decide)) | split | with_reducible intro _

theorem Dev.acceptVc1_only (d : Dev) (l : LinkId) (seq : Nat) : d.onlyChanges (Dev.acceptVc1 d l seq).1 [.prm, .links] := by
  unfold Dev.acceptVc1
  repeat' first | with_reducible apply Dev.only_refl | (with_reducible show Part.within _ _ = true; decide) | with_reducible apply Dev.only_then (Dev.modLink_only _ _ _) | with_reducible apply Dev.only_then (Dev.count_only _ _ _ _) | with_reducible apply Dev.only_then (Dev.sendAck_only _ _ _) | with_reducible apply Dev.only_then (Dev.sendNak_only _ _ _) | with_reducible apply Dev.only_ite | dsimp only | fail_if_no_progress with_reducible refine Dev.only_mk ?_ (by and_intros <;> first | exact Or.inr (by with_reducible rfl) | exact Or.inl (by decide)) | split | with_reducible intro _

theorem Dev.ackVc1_only (d : Dev) (l : LinkId) (next credit : Nat) : d.onlyChanges (Dev.ackVc1 d l next credit) [.links] := by
  unfold Dev.ackVc1
  repeat' first | with_reducible apply Dev.only_refl | (with_reducible show Part.within _ _ = true; decide) | with_reducible apply Dev.only_then (Dev.modLink_only _ _ _) | with_reducible apply Dev.only_ite | dsimp only | fail_if_no_progress with_reducible refine Dev.only_mk ?_ (by and_intros <;> first | exact Or.inr (by with_reducible rfl) | exact Or.inl (by decide)) | split | with_reducible intro _

theorem Dev.replayVc1_only (d : Dev) (l : LinkId) : d.onlyChanges (Dev.replayVc1 d l) [.prm, .links] := by
  unfold Dev.replayVc1
  repeat' first | with_reducible apply Dev.only_refl | (with_reducible show Part.within _ _ = true; decide) | with_reducible apply Dev.only_then (Dev.modLink_only _ _ _) | with_reducible apply Dev.only_then (Dev.count_only _ _ _ _) | dsimp only | fail_if_no_progress with_reducible refine Dev.only_mk ?_ (by and_intros <;> first | exact Or.inr (by with_reducible rfl) | exact Or.inl (by decide)) | split | with_reducible intro _

theorem Dev.retrain1_only (d : Dev) (l : LinkId) : d.onlyChanges (Dev.retrain1 d l) [.prm, .sluice, .host, .links, .lamp, .free] := by
  unfold Dev.retrain1
  repeat' first | with_reducible apply Dev.only_refl | (with_reducible show Part.within _ _ = true; decide) | with_reducible apply Dev.only_then (Dev.toRecovery_only _ _) | with_reducible apply Dev.only_ite | dsimp only | fail_if_no_progress with_reducible refine Dev.only_mk ?_ (by and_intros <;> first | exact Or.inr (by with_reducible rfl) | exact Or.inl (by decide)) | split | with_reducible intro _

theorem Dev.replayLimit_only (d : Dev) (l : LinkId) : d.onlyChanges (Dev.replayLimit d l) [.prm, .sluice, .host, .links, .lamp, .free] := by
  unfold Dev.replayLimit
  repeat' first | with_reducible apply Dev.only_refl | (with_reducible show Part.within _ _ = true; decide) | with_reducible apply Dev.only_then (Dev.modLink_only _ _ _) | with_reducible apply Dev.only_then (Dev.postFree_only _ _) | with_reducible apply Dev.only_then (Dev.retrain1_only _ _) | with_reducible apply Dev.only_ite | dsimp only | fail_if_no_progress with_reducible refine Dev.only_mk ?_ (by and_intros <;> first | exact Or.inr (by with_reducible rfl) | exact Or.inl (by decide)) | split | with_reducible intro _

theorem Dev.heldReplay_only (d : Dev) (l : LinkId) : d.onlyChanges (Dev.heldReplay d l) [.prm, .sluice, .host, .links, .lamp, .free] := by
  unfold Dev.heldReplay
  repeat' first | with_reducible apply Dev.only_refl | (with_reducible show Part.within _ _ = true; decide) | with_reducible apply Dev.only_then (Dev.modLink_only _ _ _) | with_reducible apply Dev.only_then (Dev.replayVc1_only _ _) | with_reducible apply Dev.only_then (Dev.replayLimit_only _ _) | with_reducible apply Dev.only_ite | dsimp only | fail_if_no_progress with_reducible refine Dev.only_mk ?_ (by and_intros <;> first | exact Or.inr (by with_reducible rfl) | exact Or.inl (by decide)) | split | with_reducible intro _

end Sys2Proof.Machine
end

