-- ==== Sys2Proof/Laws/FrameBeam.lean ====
section
/-! SUPPORT. Frames of the operations of calibration, Shutter, NOR, beam and mode, journal, refresh and boot. -/

namespace Sys2Proof.Machine

open Sys2Proof

/-! ### CalOps.lean -/

theorem Dev.startCover_only (d : Dev) (ch : Nat) : d.onlyChanges (Dev.startCover d ch) [.links, .ports, .cal] := by
  unfold Dev.startCover
  repeat' first | with_reducible apply Dev.only_refl | (with_reducible show Part.within _ _ = true; decide) | with_reducible apply Dev.only_then (Dev.modLink_only _ _ _) | with_reducible apply Dev.only_then (Dev.modMport_only _ _ _) | with_reducible apply Dev.only_then (Dev.syncBts_only _ _) | dsimp only | fail_if_no_progress with_reducible refine Dev.only_mk ?_ (by and_intros <;> first | exact Or.inr (by with_reducible rfl) | exact Or.inl (by decide)) | split | with_reducible intro _

theorem Dev.endCover_only (d : Dev) (ch : Nat) : d.onlyChanges (Dev.endCover d ch) [.links, .ports, .cal] := by
  unfold Dev.endCover
  repeat' first | with_reducible apply Dev.only_refl | (with_reducible show Part.within _ _ = true; decide) | with_reducible apply Dev.only_then (Dev.modLink_only _ _ _) | with_reducible apply Dev.only_then (Dev.modMport_only _ _ _) | with_reducible apply Dev.only_then (Dev.syncBts_only _ _) | with_reducible apply Dev.only_ite | dsimp only | fail_if_no_progress with_reducible refine Dev.only_mk ?_ (by and_intros <;> first | exact Or.inr (by with_reducible rfl) | exact Or.inl (by decide)) | split | with_reducible intro _

theorem Dev.withdrawCover_only (d : Dev) (ch : Nat) : d.onlyChanges (Dev.withdrawCover d ch) [.links, .ports, .cal] := by
  unfold Dev.withdrawCover
  repeat' first | with_reducible apply Dev.only_refl | (with_reducible show Part.within _ _ = true; decide) | with_reducible apply Dev.only_then (Dev.modLink_only _ _ _) | with_reducible apply Dev.only_then (Dev.endCover_only _ _) | dsimp only | fail_if_no_progress with_reducible refine Dev.only_mk ?_ (by and_intros <;> first | exact Or.inr (by with_reducible rfl) | exact Or.inl (by decide)) | split | with_reducible intro _

theorem Dev.modRun_only (d : Dev) (f : CalRun → CalRun) : d.onlyChanges (Dev.modRun d f) [.cal] := by
  unfold Dev.modRun
  repeat' first | with_reducible apply Dev.only_refl | (with_reducible show Part.within _ _ = true; decide) | dsimp only | fail_if_no_progress with_reducible refine Dev.only_mk ?_ (by and_intros <;> first | exact Or.inr (by with_reducible rfl) | exact Or.inl (by decide)) | split | with_reducible intro _

theorem Dev.applyCorr_only (d : Dev) (w : Nat × Int × Int) : d.onlyChanges (Dev.applyCorr d w) [.cal] := by
  unfold Dev.applyCorr
  repeat' first | with_reducible apply Dev.only_refl | (with_reducible show Part.within _ _ = true; decide) | with_reducible apply Dev.only_then (Dev.setCorr_only _ _ _) | with_reducible apply Dev.only_then (Dev.modRun_only _ _) | dsimp only | fail_if_no_progress with_reducible refine Dev.only_mk ?_ (by and_intros <;> first | exact Or.inr (by with_reducible rfl) | exact Or.inl (by decide)) | split | with_reducible intro _

theorem Dev.skipChannels_only (d : Dev) (chs : List Nat) : d.onlyChanges (Dev.skipChannels d chs) [.prm, .cal] := by
  unfold Dev.skipChannels
  repeat' first | with_reducible apply Dev.only_refl | (with_reducible show Part.within _ _ = true; decide) | with_reducible apply Dev.only_then (Dev.count_only _ _ _ _) | with_reducible apply Dev.only_then (Dev.modRun_only _ _) | with_reducible apply Dev.only_ite | dsimp only | fail_if_no_progress with_reducible refine Dev.only_mk ?_ (by and_intros <;> first | exact Or.inr (by with_reducible rfl) | exact Or.inl (by decide)) | split | with_reducible intro _

theorem Dev.dropLost_only (d : Dev) : d.onlyChanges (Dev.dropLost d) [.prm, .links, .ports, .cal] := by
  unfold Dev.dropLost
  repeat' first | with_reducible apply Dev.only_refl | (with_reducible show Part.within _ _ = true; decide) | with_reducible apply Dev.only_foldl | with_reducible apply Dev.only_foldl_fst | with_reducible apply Dev.only_then (Dev.endCover_only _ _) | with_reducible apply Dev.only_then (Dev.modRun_only _ _) | with_reducible apply Dev.only_then (Dev.skipChannels_only _ _) | dsimp only | fail_if_no_progress with_reducible refine Dev.only_mk ?_ (by and_intros <;> first | exact Or.inr (by with_reducible rfl) | exact Or.inl (by decide)) | split | with_reducible intro _

theorem Dev.nextCover_only (d : Dev) (scope : Nat) : d.onlyChanges (Dev.nextCover d scope) [.links, .ports, .cal] := by
  unfold Dev.nextCover
  repeat' first | with_reducible apply Dev.only_refl | (with_reducible show Part.within _ _ = true; decide) | with_reducible apply Dev.only_then (Dev.startCover_only _ _) | with_reducible apply Dev.only_then (Dev.modRun_only _ _) | with_reducible apply Dev.only_ite | dsimp only | fail_if_no_progress with_reducible refine Dev.only_mk ?_ (by and_intros <;> first | exact Or.inr (by with_reducible rfl) | exact Or.inl (by decide)) | split | with_reducible intro _

theorem Dev.releaseCovers_only (d : Dev) (p : Nat → Bool) : d.onlyChanges (Dev.releaseCovers d p) [.links, .ports, .cal] := by
  unfold Dev.releaseCovers
  repeat' first | with_reducible apply Dev.only_refl | (with_reducible show Part.within _ _ = true; decide) | with_reducible apply Dev.only_foldl | with_reducible apply Dev.only_foldl_fst | with_reducible apply Dev.only_then (Dev.endCover_only _ _) | with_reducible apply Dev.only_then (Dev.modRun_only _ _) | dsimp only | fail_if_no_progress with_reducible refine Dev.only_mk ?_ (by and_intros <;> first | exact Or.inr (by with_reducible rfl) | exact Or.inl (by decide)) | split | with_reducible intro _

theorem Dev.applyWaiting_only (d : Dev) (p : Nat → Bool) : d.onlyChanges (Dev.applyWaiting d p) [.cal] := by
  unfold Dev.applyWaiting
  repeat' first | with_reducible apply Dev.only_refl | (with_reducible show Part.within _ _ = true; decide) | with_reducible apply Dev.only_foldl | with_reducible apply Dev.only_foldl_fst | with_reducible apply Dev.only_then (Dev.setCorr_only _ _ _) | with_reducible apply Dev.only_then (Dev.applyCorr_only _ _) | dsimp only | fail_if_no_progress with_reducible refine Dev.only_mk ?_ (by and_intros <;> first | exact Or.inr (by with_reducible rfl) | exact Or.inl (by decide)) | split | with_reducible intro _

theorem Dev.storeSet_only (d : Dev) (r : CalRun) : d.onlyChanges (Dev.storeSet d r) [.prm, .sluice, .host, .links, .seq, .lamp, .cal] := by
  unfold Dev.storeSet
  repeat' first | with_reducible apply Dev.only_refl | (with_reducible show Part.within _ _ = true; decide) | with_reducible apply Dev.only_then (Dev.request_only _ _) | with_reducible apply Dev.only_ite | dsimp only | fail_if_no_progress with_reducible refine Dev.only_mk ?_ (by and_intros <;> first | exact Or.inr (by with_reducible rfl) | exact Or.inl (by decide)) | split | with_reducible intro _

theorem Dev.calSetsWritten_only (d : Dev) : d.onlyChanges (Dev.calSetsWritten d) [.prm, .sluice, .lamp, .nor, .cal] := by
  unfold Dev.calSetsWritten
  repeat' first | with_reducible apply Dev.only_refl | (with_reducible show Part.within _ _ = true; decide) | with_reducible apply Dev.only_then (Dev.release_only _ _) | with_reducible apply Dev.only_ite | dsimp only | fail_if_no_progress with_reducible refine Dev.only_mk ?_ (by and_intros <;> first | exact Or.inr (by with_reducible rfl) | exact Or.inl (by decide)) | split | with_reducible intro _

theorem Dev.followSets_only (d : Dev) : d.onlyChanges (Dev.followSets d) [.cal] := by
  unfold Dev.followSets
  repeat' first | with_reducible apply Dev.only_refl | (with_reducible show Part.within _ _ = true; decide) | with_reducible apply Dev.only_ite | dsimp only | fail_if_no_progress with_reducible refine Dev.only_mk ?_ (by and_intros <;> first | exact Or.inr (by with_reducible rfl) | exact Or.inl (by decide)) | split | with_reducible intro _

theorem Dev.checkRef_only (d : Dev) : d.onlyChanges (Dev.checkRef d) [.prm, .sluice, .host, .links, .seq, .ports, .lamp, .gov, .saf, .jnl, .cal] := by
  unfold Dev.checkRef
  repeat' first | with_reducible apply Dev.only_refl | (with_reducible show Part.within _ _ = true; decide) | with_reducible apply Dev.only_then (Dev.post_only _ _ _) | with_reducible apply Dev.only_then (Dev.raise_only _ _ _ _) | with_reducible apply Dev.only_then (Dev.clearFault_only _ _ _) | with_reducible apply Dev.only_then (Dev.skipChannels_only _ _) | with_reducible apply Dev.only_ite | dsimp only | fail_if_no_progress with_reducible refine Dev.only_mk ?_ (by and_intros <;> first | exact Or.inr (by with_reducible rfl) | exact Or.inl (by decide)) | split | with_reducible intro _

theorem Dev.openRun_only (d : Dev) (scopes : BitVec 3) (auto startup : Bool) (p : Port) (tag : Nat) : d.onlyChanges (Dev.openRun d scopes auto startup p tag) [.cal] := by
  unfold Dev.openRun
  repeat' first | with_reducible apply Dev.only_refl | (with_reducible show Part.within _ _ = true; decide) | dsimp only | fail_if_no_progress with_reducible refine Dev.only_mk ?_ (by and_intros <;> first | exact Or.inr (by with_reducible rfl) | exact Or.inl (by decide)) | split | with_reducible intro _

theorem Dev.beginRun_only (d : Dev) : d.onlyChanges (Dev.beginRun d) [.prm, .sluice, .host, .links, .seq, .ports, .lamp, .gov, .saf, .jnl, .cal] := by
  unfold Dev.beginRun
  repeat' first | with_reducible apply Dev.only_refl | (with_reducible show Part.within _ _ = true; decide) | with_reducible apply Dev.only_then (Dev.dropLost_only _) | with_reducible apply Dev.only_then (Dev.nextCover_only _ _) | with_reducible apply Dev.only_then (Dev.checkRef_only _) | dsimp only | fail_if_no_progress with_reducible refine Dev.only_mk ?_ (by and_intros <;> first | exact Or.inr (by with_reducible rfl) | exact Or.inl (by decide)) | split | with_reducible intro _

theorem Dev.askRun_only (d : Dev) (scopes : BitVec 3) (auto : Bool) (p : Port) (tag : Nat) : d.onlyChanges (Dev.askRun d scopes auto p tag).1 [.prm, .sluice, .host, .links, .seq, .ports, .lamp, .gov, .saf, .jnl, .cal] := by
  unfold Dev.askRun
  repeat' first | with_reducible apply Dev.only_refl | (with_reducible show Part.within _ _ = true; decide) | with_reducible apply Dev.only_then (Dev.request_only _ _) | with_reducible apply Dev.only_then (Dev.openRun_only _ _ _ _ _ _) | with_reducible apply Dev.only_then (Dev.beginRun_only _) | with_reducible apply Dev.only_ite | dsimp only | fail_if_no_progress with_reducible refine Dev.only_mk ?_ (by and_intros <;> first | exact Or.inr (by with_reducible rfl) | exact Or.inl (by decide)) | split | with_reducible intro _

theorem Dev.markScopes_only (d : Dev) (r : CalRun) (n : BitVec 3) : d.onlyChanges (Dev.markScopes d r n) [.prm, .host, .links, .cal] := by
  unfold Dev.markScopes
  repeat' first | with_reducible apply Dev.only_refl | (with_reducible show Part.within _ _ = true; decide) | with_reducible apply Dev.only_then (Dev.post_only _ _ _) | with_reducible apply Dev.only_then (Dev.modRun_only _ _) | with_reducible apply Dev.only_ite | dsimp only | fail_if_no_progress with_reducible refine Dev.only_mk ?_ (by and_intros <;> first | exact Or.inr (by with_reducible rfl) | exact Or.inl (by decide)) | split | with_reducible intro _

theorem Dev.finishRun_only (d : Dev) : d.onlyChanges (Dev.finishRun d) [.prm, .sluice, .host, .links, .seq, .ports, .lamp, .gov, .saf, .jnl, .cal] := by
  unfold Dev.finishRun
  repeat' first | with_reducible apply Dev.only_refl | (with_reducible show Part.within _ _ = true; decide) | with_reducible apply Dev.only_then (Dev.count_only _ _ _ _) | with_reducible apply Dev.only_then (Dev.finish_only _ _ _ _ _) | with_reducible apply Dev.only_then (Dev.finishWith_only _ _ _ _) | with_reducible apply Dev.only_then (Dev.release_only _ _) | with_reducible apply Dev.only_then (Dev.storeSet_only _ _) | with_reducible apply Dev.only_then (Dev.askRun_only _ _ _ _ _) | with_reducible apply Dev.only_then (Dev.markScopes_only _ _ _) | with_reducible apply Dev.only_ite | dsimp only | fail_if_no_progress with_reducible refine Dev.only_mk ?_ (by and_intros <;> first | exact Or.inr (by with_reducible rfl) | exact Or.inl (by decide)) | split | with_reducible intro _

theorem Dev.calAdvance_only (d : Dev) : d.onlyChanges (Dev.calAdvance d) [.prm, .sluice, .host, .links, .seq, .ports, .lamp, .gov, .saf, .jnl, .cal] := by
  unfold Dev.calAdvance
  repeat' first | with_reducible apply Dev.only_refl | (with_reducible show Part.within _ _ = true; decide) | with_reducible apply Dev.only_then (Dev.dropLost_only _) | with_reducible apply Dev.only_then (Dev.nextCover_only _ _) | with_reducible apply Dev.only_then (Dev.finishRun_only _) | with_reducible apply Dev.only_ite | dsimp only | fail_if_no_progress with_reducible refine Dev.only_mk ?_ (by and_intros <;> first | exact Or.inr (by with_reducible rfl) | exact Or.inl (by decide)) | split | with_reducible intro _

theorem Dev.calDsk_only (d : Dev) (l : LinkId) : d.onlyChanges (Dev.calDsk d l) [.prm, .sluice, .host, .links, .seq, .ports, .lamp, .gov, .saf, .jnl, .cal] := by
  unfold Dev.calDsk
  repeat' first | with_reducible apply Dev.only_refl | (with_reducible show Part.within _ _ = true; decide) | with_reducible apply Dev.only_then (Dev.releaseCovers_only _ _) | with_reducible apply Dev.only_then (Dev.applyWaiting_only _ _) | with_reducible apply Dev.only_then (Dev.calAdvance_only _) | dsimp only | fail_if_no_progress with_reducible refine Dev.only_mk ?_ (by and_intros <;> first | exact Or.inr (by with_reducible rfl) | exact Or.inl (by decide)) | split | with_reducible intro _

theorem Dev.calGap_only (d : Dev) (s : Nat) : d.onlyChanges (Dev.calGap d s) [.prm, .sluice, .host, .links, .seq, .ports, .lamp, .gov, .saf, .jnl, .cal] := by
  unfold Dev.calGap
  repeat' first | with_reducible apply Dev.only_refl | (with_reducible show Part.within _ _ = true; decide) | with_reducible apply Dev.only_then (Dev.releaseCovers_only _ _) | with_reducible apply Dev.only_then (Dev.applyWaiting_only _ _) | with_reducible apply Dev.only_then (Dev.calAdvance_only _) | dsimp only | fail_if_no_progress with_reducible refine Dev.only_mk ?_ (by and_intros <;> first | exact Or.inr (by with_reducible rfl) | exact Or.inl (by decide)) | split | with_reducible intro _

theorem Dev.calRefresh_only (d : Dev) : d.onlyChanges (Dev.calRefresh d) [.prm, .sluice, .host, .links, .seq, .ports, .lamp, .gov, .saf, .jnl, .cal] := by
  unfold Dev.calRefresh
  repeat' first | with_reducible apply Dev.only_refl | (with_reducible show Part.within _ _ = true; decide) | with_reducible apply Dev.only_then (Dev.dropLost_only _) | with_reducible apply Dev.only_then (Dev.nextCover_only _ _) | with_reducible apply Dev.only_then (Dev.releaseCovers_only _ _) | with_reducible apply Dev.only_then (Dev.applyWaiting_only _ _) | with_reducible apply Dev.only_then (Dev.calAdvance_only _) | with_reducible apply Dev.only_ite | dsimp only | fail_if_no_progress with_reducible refine Dev.only_mk ?_ (by and_intros <;> first | exact Or.inr (by with_reducible rfl) | exact Or.inl (by decide)) | split | with_reducible intro _

theorem Dev.calIdle_only (d : Dev) : d.onlyChanges (Dev.calIdle d) [.prm, .sluice, .host, .links, .seq, .ports, .lamp, .gov, .saf, .jnl, .cal] := by
  unfold Dev.calIdle
  repeat' first | with_reducible apply Dev.only_refl | (with_reducible show Part.within _ _ = true; decide) | with_reducible apply Dev.only_foldl | with_reducible apply Dev.only_foldl_fst | with_reducible apply Dev.only_then (Dev.applyWaiting_only _ _) | with_reducible apply Dev.only_then (Dev.finishRun_only _) | with_reducible apply Dev.only_then (Dev.calGap_only _ _) | with_reducible apply Dev.only_ite | dsimp only | fail_if_no_progress with_reducible refine Dev.only_mk ?_ (by and_intros <;> first | exact Or.inr (by with_reducible rfl) | exact Or.inl (by decide)) | split | with_reducible intro _

theorem Dev.judgeChannel_only (d : Dev) (r : CalRun) (ch : Nat) (vs : List CalValue) : d.onlyChanges (Dev.judgeChannel d r ch vs) [.prm, .sluice, .host, .links, .seq, .ports, .lamp, .gov, .saf, .jnl, .cal] := by
  unfold Dev.judgeChannel
  repeat' first | with_reducible apply Dev.only_refl | (with_reducible show Part.within _ _ = true; decide) | with_reducible apply Dev.only_then (Dev.count_only _ _ _ _) | with_reducible apply Dev.only_then (Dev.raise_only _ _ _ _) | with_reducible apply Dev.only_then (Dev.clearFault_only _ _ _) | with_reducible apply Dev.only_then (Dev.modRun_only _ _) | dsimp only | fail_if_no_progress with_reducible refine Dev.only_mk ?_ (by and_intros <;> first | exact Or.inr (by with_reducible rfl) | exact Or.inl (by decide)) | split | with_reducible intro _

theorem Dev.clearTrial_only (d : Dev) (ch : Nat) : d.onlyChanges (Dev.clearTrial d ch) [.ports] := by
  unfold Dev.clearTrial
  repeat' first | with_reducible apply Dev.only_refl | (with_reducible show Part.within _ _ = true; decide) | with_reducible apply Dev.only_then (Dev.modMport_only _ _ _) | dsimp only | fail_if_no_progress with_reducible refine Dev.only_mk ?_ (by and_intros <;> first | exact Or.inr (by with_reducible rfl) | exact Or.inl (by decide)) | split | with_reducible intro _

theorem Dev.calMeasured_only (d : Dev) (ch : Nat) (v : CalValue) : d.onlyChanges (Dev.calMeasured d ch v) [.prm, .sluice, .host, .links, .seq, .ports, .lamp, .gov, .saf, .jnl, .cal] := by
  unfold Dev.calMeasured
  repeat' first | with_reducible apply Dev.only_refl | (with_reducible show Part.within _ _ = true; decide) | with_reducible apply Dev.only_then (Dev.calAdvance_only _) | with_reducible apply Dev.only_then (Dev.calIdle_only _) | with_reducible apply Dev.only_then (Dev.judgeChannel_only _ _ _ _) | with_reducible apply Dev.only_then (Dev.clearTrial_only _ _) | with_reducible apply Dev.only_ite | dsimp only | fail_if_no_progress with_reducible refine Dev.only_mk ?_ (by and_intros <;> first | exact Or.inr (by with_reducible rfl) | exact Or.inl (by decide)) | split | with_reducible intro _

theorem Dev.calTrigger_only (d : Dev) (ref : Nat) : d.onlyChanges (Dev.calTrigger d ref) [.prm, .sluice, .host, .links, .seq, .ports, .lamp, .gov, .saf, .jnl, .cal] := by
  unfold Dev.calTrigger
  repeat' first | with_reducible apply Dev.only_refl | (with_reducible show Part.within _ _ = true; decide) | with_reducible apply Dev.only_then (Dev.request_only _ _) | with_reducible apply Dev.only_then (Dev.followSets_only _) | with_reducible apply Dev.only_then (Dev.askRun_only _ _ _ _ _) | with_reducible apply Dev.only_then (Dev.calAdvance_only _) | with_reducible apply Dev.only_then (Dev.calIdle_only _) | with_reducible apply Dev.only_ite | dsimp only | fail_if_no_progress with_reducible refine Dev.only_mk ?_ (by and_intros <;> first | exact Or.inr (by with_reducible rfl) | exact Or.inl (by decide)) | split | with_reducible intro _

theorem Dev.calTicket_only (d : Dev) : d.onlyChanges (Dev.calTicket d) [.prm, .sluice, .host, .links, .seq, .ports, .lamp, .gov, .saf, .jnl, .cal] := by
  unfold Dev.calTicket
  repeat' first | with_reducible apply Dev.only_refl | (with_reducible show Part.within _ _ = true; decide) | with_reducible apply Dev.only_then (Dev.finishWith_only _ _ _ _) | with_reducible apply Dev.only_then (Dev.beginRun_only _) | with_reducible apply Dev.only_then (Dev.calAdvance_only _) | with_reducible apply Dev.only_then (Dev.calIdle_only _) | with_reducible apply Dev.only_ite | dsimp only | fail_if_no_progress with_reducible refine Dev.only_mk ?_ (by and_intros <;> first | exact Or.inr (by with_reducible rfl) | exact Or.inl (by decide)) | split | with_reducible intro _

theorem Dev.calRunCmd_only (d : Dev) (p : Port) (tag : Nat) (scopes : BitVec 3) (force : Bool) : d.onlyChanges (Dev.calRunCmd d p tag scopes force) [.prm, .sluice, .host, .links, .seq, .ports, .lamp, .gov, .saf, .jnl, .cal] := by
  unfold Dev.calRunCmd
  repeat' first | with_reducible apply Dev.only_refl | (with_reducible show Part.within _ _ = true; decide) | with_reducible apply Dev.only_then (Dev.finish_only _ _ _ _ _) | with_reducible apply Dev.only_then (Dev.finishWith_only _ _ _ _) | with_reducible apply Dev.only_then (Dev.waits_only _ _ _) | with_reducible apply Dev.only_then (Dev.askRun_only _ _ _ _ _) | with_reducible apply Dev.only_then (Dev.calAdvance_only _) | with_reducible apply Dev.only_then (Dev.calIdle_only _) | with_reducible apply Dev.only_ite | dsimp only | fail_if_no_progress with_reducible refine Dev.only_mk ?_ (by and_intros <;> first | exact Or.inr (by with_reducible rfl) | exact Or.inl (by decide)) | split | with_reducible intro _

theorem Dev.endRun_only (d : Dev) : d.onlyChanges (Dev.endRun d) [.prm, .sluice, .links, .ports, .lamp, .cal] := by
  unfold Dev.endRun
  repeat' first | with_reducible apply Dev.only_refl | (with_reducible show Part.within _ _ = true; decide) | with_reducible apply Dev.only_foldl | with_reducible apply Dev.only_foldl_fst | with_reducible apply Dev.only_then (Dev.release_only _ _) | with_reducible apply Dev.only_then (Dev.withdrawCover_only _ _) | dsimp only | fail_if_no_progress with_reducible refine Dev.only_mk ?_ (by and_intros <;> first | exact Or.inr (by with_reducible rfl) | exact Or.inl (by decide)) | split | with_reducible intro _

theorem Dev.abortRun_only (d : Dev) (p : Port) (tag : Nat) : d.onlyChanges (Dev.abortRun d p tag) [.prm, .sluice, .host, .links, .seq, .ports, .lamp, .gov, .saf, .jnl, .cal] := by
  unfold Dev.abortRun
  repeat' first | with_reducible apply Dev.only_refl | (with_reducible show Part.within _ _ = true; decide) | with_reducible apply Dev.only_foldl | with_reducible apply Dev.only_foldl_fst | with_reducible apply Dev.only_then (Dev.finishWith_only _ _ _ _) | with_reducible apply Dev.only_then (Dev.askRun_only _ _ _ _ _) | with_reducible apply Dev.only_then (Dev.calIdle_only _) | with_reducible apply Dev.only_then (Dev.endRun_only _) | with_reducible apply Dev.only_ite | dsimp only | fail_if_no_progress with_reducible refine Dev.only_mk ?_ (by and_intros <;> first | exact Or.inr (by with_reducible rfl) | exact Or.inl (by decide)) | split | with_reducible intro _

theorem Dev.calProjection_only (d : Dev) (s : Nat) : d.onlyChanges (Dev.calProjection d s) [.cal] := by
  unfold Dev.calProjection
  repeat' first | with_reducible apply Dev.only_refl | (with_reducible show Part.within _ _ = true; decide) | with_reducible apply Dev.only_then (Dev.modRun_only _ _) | dsimp only | fail_if_no_progress with_reducible refine Dev.only_mk ?_ (by and_intros <;> first | exact Or.inr (by with_reducible rfl) | exact Or.inl (by decide)) | split | with_reducible intro _

theorem Dev.startupRun_only (d : Dev) : d.onlyChanges (Dev.startupRun d) [.prm, .sluice, .host, .links, .seq, .ports, .lamp, .gov, .saf, .jnl, .cal] := by
  unfold Dev.startupRun
  repeat' first | with_reducible apply Dev.only_refl | (with_reducible show Part.within _ _ = true; decide) | with_reducible apply Dev.only_then (Dev.checkRef_only _) | with_reducible apply Dev.only_then (Dev.openRun_only _ _ _ _ _ _) | dsimp only | fail_if_no_progress with_reducible refine Dev.only_mk ?_ (by and_intros <;> first | exact Or.inr (by with_reducible rfl) | exact Or.inl (by decide)) | split | with_reducible intro _

theorem Dev.endStartup_only (d : Dev) : d.onlyChanges (Dev.endStartup d) [.prm, .sluice, .host, .links, .seq, .ports, .lamp, .gov, .saf, .jnl, .cal] := by
  unfold Dev.endStartup
  repeat' first | with_reducible apply Dev.only_refl | (with_reducible show Part.within _ _ = true; decide) | with_reducible apply Dev.only_then (Dev.modRun_only _ _) | with_reducible apply Dev.only_then (Dev.applyWaiting_only _ _) | with_reducible apply Dev.only_then (Dev.finishRun_only _) | with_reducible apply Dev.only_ite | dsimp only | fail_if_no_progress with_reducible refine Dev.only_mk ?_ (by and_intros <;> first | exact Or.inr (by with_reducible rfl) | exact Or.inl (by decide)) | split | with_reducible intro _

/-! ### ShutterOps.lean -/

theorem Dev.abandonRaster_only (d : Dev) : d.onlyChanges (Dev.abandonRaster d) [.sht] := by
  unfold Dev.abandonRaster
  repeat' first | with_reducible apply Dev.only_refl | (with_reducible show Part.within _ _ = true; decide) | dsimp only | fail_if_no_progress with_reducible refine Dev.only_mk ?_ (by and_intros <;> first | exact Or.inr (by with_reducible rfl) | exact Or.inl (by decide)) | split | with_reducible intro _

theorem Dev.clearReady_only (d : Dev) : d.onlyChanges (Dev.clearReady d) [.seq] := by
  unfold Dev.clearReady
  repeat' first | with_reducible apply Dev.only_refl | (with_reducible show Part.within _ _ = true; decide) | with_reducible apply Dev.only_foldl | with_reducible apply Dev.only_foldl_fst | with_reducible apply Dev.only_then (Dev.modMask_only _ _ _) | dsimp only | fail_if_no_progress with_reducible refine Dev.only_mk ?_ (by and_intros <;> first | exact Or.inr (by with_reducible rfl) | exact Or.inl (by decide)) | split | with_reducible intro _

theorem Dev.applySht_only (d : Dev) : d.onlyChanges (Dev.applySht d) [.prm] := by
  unfold Dev.applySht
  repeat' first | with_reducible apply Dev.only_refl | (with_reducible show Part.within _ _ = true; decide) | with_reducible apply Dev.only_foldl | with_reducible apply Dev.only_foldl_fst | with_reducible apply Dev.only_then (Dev.applyVal_only _ _) | with_reducible apply Dev.only_then (Dev.applyArr_only _ _) | dsimp only | fail_if_no_progress with_reducible refine Dev.only_mk ?_ (by and_intros <;> first | exact Or.inr (by with_reducible rfl) | exact Or.inl (by decide)) | split | with_reducible intro _

theorem Dev.startRaster_only (d : Dev) (kind : RasterKind) (l : Option ObjList) : d.onlyChanges (Dev.startRaster d kind l) [.prm, .seq, .sht, .free] := by
  unfold Dev.startRaster
  repeat' first | with_reducible apply Dev.only_refl | (with_reducible show Part.within _ _ = true; decide) | with_reducible apply Dev.only_foldl | with_reducible apply Dev.only_foldl_fst | with_reducible apply Dev.only_then (Dev.modMask_only _ _ _) | with_reducible apply Dev.only_then (Dev.drawn_only _) | with_reducible apply Dev.only_then (Dev.clearReady_only _) | with_reducible apply Dev.only_then (Dev.applySht_only _) | with_reducible apply Dev.only_ite | dsimp only | fail_if_no_progress with_reducible refine Dev.only_mk ?_ (by and_intros <;> first | exact Or.inr (by with_reducible rfl) | exact Or.inl (by decide)) | split | with_reducible intro _

theorem Dev.judgeMask_only (d : Dev) (kind : RasterKind) (s : Nat) : d.onlyChanges (Dev.judgeMask d kind s) [.prm, .sluice, .host, .links, .seq, .ports, .sht, .lamp, .gov, .saf, .jnl] := by
  unfold Dev.judgeMask
  repeat' first | with_reducible apply Dev.only_refl | (with_reducible show Part.within _ _ = true; decide) | with_reducible apply Dev.only_then (Dev.modMask_only _ _ _) | with_reducible apply Dev.only_then (Dev.raise_only _ _ _ _) | with_reducible apply Dev.only_ite | dsimp only | fail_if_no_progress with_reducible refine Dev.only_mk ?_ (by and_intros <;> first | exact Or.inr (by with_reducible rfl) | exact Or.inl (by decide)) | split | with_reducible intro _

theorem Dev.startPending_only (d : Dev) : d.onlyChanges (Dev.startPending d) [.prm, .seq, .sht, .free] := by
  unfold Dev.startPending
  repeat' first | with_reducible apply Dev.only_refl | (with_reducible show Part.within _ _ = true; decide) | with_reducible apply Dev.only_then (Dev.startRaster_only _ _ _) | dsimp only | fail_if_no_progress with_reducible refine Dev.only_mk ?_ (by and_intros <;> first | exact Or.inr (by with_reducible rfl) | exact Or.inl (by decide)) | split | with_reducible intro _

theorem Dev.endRaster_only (d : Dev) (ticks : Nat) : d.onlyChanges (Dev.endRaster d ticks) [.prm, .sluice, .host, .links, .seq, .ports, .sht, .lamp, .gov, .saf, .jnl, .free] := by
  unfold Dev.endRaster
  repeat' first | with_reducible apply Dev.only_refl | (with_reducible show Part.within _ _ = true; decide) | with_reducible apply Dev.only_foldl | with_reducible apply Dev.only_foldl_fst | with_reducible apply Dev.only_then (Dev.modMask_only _ _ _) | with_reducible apply Dev.only_then (Dev.setPar_only _ _ _ _) | with_reducible apply Dev.only_then (Dev.judgeMask_only _ _ _) | with_reducible apply Dev.only_then (Dev.startPending_only _) | with_reducible apply Dev.only_ite | dsimp only | fail_if_no_progress with_reducible refine Dev.only_mk ?_ (by and_intros <;> first | exact Or.inr (by with_reducible rfl) | exact Or.inl (by decide)) | split | with_reducible intro _

theorem Dev.rasterOverdue_only (d : Dev) : d.onlyChanges (Dev.rasterOverdue d) [.prm, .sluice, .host, .links, .seq, .ports, .sht, .lamp, .gov, .saf, .jnl, .free] := by
  unfold Dev.rasterOverdue
  repeat' first | with_reducible apply Dev.only_refl | (with_reducible show Part.within _ _ = true; decide) | with_reducible apply Dev.only_then (Dev.count_only _ _ _ _) | with_reducible apply Dev.only_then (Dev.raise_only _ _ _ _) | with_reducible apply Dev.only_then (Dev.abandonRaster_only _) | with_reducible apply Dev.only_then (Dev.startPending_only _) | with_reducible apply Dev.only_ite | dsimp only | fail_if_no_progress with_reducible refine Dev.only_mk ?_ (by and_intros <;> first | exact Or.inr (by with_reducible rfl) | exact Or.inl (by decide)) | split | with_reducible intro _

theorem Dev.repredict_only (d : Dev) : d.onlyChanges (Dev.repredict d) [.prm, .seq, .sht, .free] := by
  unfold Dev.repredict
  repeat' first | with_reducible apply Dev.only_refl | (with_reducible show Part.within _ _ = true; decide) | with_reducible apply Dev.only_then (Dev.startRaster_only _ _ _) | with_reducible apply Dev.only_ite | dsimp only | fail_if_no_progress with_reducible refine Dev.only_mk ?_ (by and_intros <;> first | exact Or.inr (by with_reducible rfl) | exact Or.inl (by decide)) | split | with_reducible intro _

theorem Dev.staleRaster_only (d : Dev) : d.onlyChanges (Dev.staleRaster d) [.prm, .seq, .sht, .free] := by
  unfold Dev.staleRaster
  repeat' first | with_reducible apply Dev.only_refl | (with_reducible show Part.within _ _ = true; decide) | with_reducible apply Dev.only_then (Dev.abandonRaster_only _) | with_reducible apply Dev.only_then (Dev.startRaster_only _ _ _) | dsimp only | fail_if_no_progress with_reducible refine Dev.only_mk ?_ (by and_intros <;> first | exact Or.inr (by with_reducible rfl) | exact Or.inl (by decide)) | split | with_reducible intro _

theorem Dev.rasterList_only (d : Dev) (l : ObjList) : d.onlyChanges (Dev.rasterList d l) [.prm, .seq, .sht, .free] := by
  unfold Dev.rasterList
  repeat' first | with_reducible apply Dev.only_refl | (with_reducible show Part.within _ _ = true; decide) | with_reducible apply Dev.only_then (Dev.count_only _ _ _ _) | with_reducible apply Dev.only_then (Dev.abandonRaster_only _) | with_reducible apply Dev.only_then (Dev.startRaster_only _ _ _) | with_reducible apply Dev.only_ite | dsimp only | fail_if_no_progress with_reducible refine Dev.only_mk ?_ (by and_intros <;> first | exact Or.inr (by with_reducible rfl) | exact Or.inl (by decide)) | split | with_reducible intro _

theorem Dev.acceptList_only (d : Dev) (b : List Byte) : d.onlyChanges (Dev.acceptList d b) [.prm, .host, .links, .seq, .sht, .free] := by
  unfold Dev.acceptList
  repeat' first | with_reducible apply Dev.only_refl | (with_reducible show Part.within _ _ = true; decide) | with_reducible apply Dev.only_then (Dev.count_only _ _ _ _) | with_reducible apply Dev.only_then (Dev.post_only _ _ _) | with_reducible apply Dev.only_then (Dev.rasterList_only _ _) | with_reducible apply Dev.only_ite | dsimp only | fail_if_no_progress with_reducible refine Dev.only_mk ?_ (by and_intros <;> first | exact Or.inr (by with_reducible rfl) | exact Or.inl (by decide)) | split | with_reducible intro _

theorem Dev.handList_only (d : Dev) (path : Nat) (b : List Byte) : d.onlyChanges (Dev.handList d path b).1 [.prm, .host, .links, .seq, .sht, .free] := by
  unfold Dev.handList
  repeat' first | with_reducible apply Dev.only_refl | (with_reducible show Part.within _ _ = true; decide) | with_reducible apply Dev.only_then (Dev.count_only _ _ _ _) | with_reducible apply Dev.only_then (Dev.post_only _ _ _) | with_reducible apply Dev.only_then (Dev.acceptList_only _ _) | with_reducible apply Dev.only_ite | dsimp only | fail_if_no_progress with_reducible refine Dev.only_mk ?_ (by and_intros <;> first | exact Or.inr (by with_reducible rfl) | exact Or.inl (by decide)) | split | with_reducible intro _

theorem Dev.skipPending_only (d : Dev) : d.onlyChanges (Dev.skipPending d) [.prm, .sht] := by
  unfold Dev.skipPending
  repeat' first | with_reducible apply Dev.only_refl | (with_reducible show Part.within _ _ = true; decide) | with_reducible apply Dev.only_then (Dev.count_only _ _ _ _) | with_reducible apply Dev.only_ite | dsimp only | fail_if_no_progress with_reducible refine Dev.only_mk ?_ (by and_intros <;> first | exact Or.inr (by with_reducible rfl) | exact Or.inl (by decide)) | split | with_reducible intro _

theorem Dev.goStale_only (d : Dev) : d.onlyChanges (Dev.goStale d) [.prm, .host, .links, .seq, .sht, .free] := by
  unfold Dev.goStale
  repeat' first | with_reducible apply Dev.only_refl | (with_reducible show Part.within _ _ = true; decide) | with_reducible apply Dev.only_then (Dev.count_only _ _ _ _) | with_reducible apply Dev.only_then (Dev.post_only _ _ _) | with_reducible apply Dev.only_then (Dev.abandonRaster_only _) | with_reducible apply Dev.only_then (Dev.clearReady_only _) | with_reducible apply Dev.only_then (Dev.staleRaster_only _) | with_reducible apply Dev.only_then (Dev.skipPending_only _) | with_reducible apply Dev.only_ite | dsimp only | fail_if_no_progress with_reducible refine Dev.only_mk ?_ (by and_intros <;> first | exact Or.inr (by with_reducible rfl) | exact Or.inl (by decide)) | split | with_reducible intro _

theorem Dev.holdEnds_only (d : Dev) : d.onlyChanges (Dev.holdEnds d) [.prm, .seq, .sht, .free] := by
  unfold Dev.holdEnds
  repeat' first | with_reducible apply Dev.only_refl | (with_reducible show Part.within _ _ = true; decide) | with_reducible apply Dev.only_then (Dev.staleRaster_only _) | with_reducible apply Dev.only_ite | dsimp only | fail_if_no_progress with_reducible refine Dev.only_mk ?_ (by and_intros <;> first | exact Or.inr (by with_reducible rfl) | exact Or.inl (by decide)) | split | with_reducible intro _

theorem Dev.restale_only (d : Dev) (old : Int × Int) : d.onlyChanges (Dev.restale d old) [.prm, .seq, .sht, .free] := by
  unfold Dev.restale
  repeat' first | with_reducible apply Dev.only_refl | (with_reducible show Part.within _ _ = true; decide) | with_reducible apply Dev.only_then (Dev.staleRaster_only _) | with_reducible apply Dev.only_ite | dsimp only | fail_if_no_progress with_reducible refine Dev.only_mk ?_ (by and_intros <;> first | exact Or.inr (by with_reducible rfl) | exact Or.inl (by decide)) | split | with_reducible intro _

theorem Dev.bootShutter_only (d : Dev) : d.onlyChanges (Dev.bootShutter d) [.prm, .seq, .sht, .free] := by
  unfold Dev.bootShutter
  repeat' first | with_reducible apply Dev.only_refl | (with_reducible show Part.within _ _ = true; decide) | with_reducible apply Dev.only_then (Dev.staleRaster_only _) | with_reducible apply Dev.only_ite | dsimp only | fail_if_no_progress with_reducible refine Dev.only_mk ?_ (by and_intros <;> first | exact Or.inr (by with_reducible rfl) | exact Or.inl (by decide)) | split | with_reducible intro _

theorem Dev.reformMasks_only (d : Dev) : d.onlyChanges (Dev.reformMasks d) [.seq] := by
  unfold Dev.reformMasks
  repeat' first | with_reducible apply Dev.only_refl | (with_reducible show Part.within _ _ = true; decide) | with_reducible apply Dev.only_foldl | with_reducible apply Dev.only_foldl_fst | with_reducible apply Dev.only_then (Dev.modMask_only _ _ _) | dsimp only | fail_if_no_progress with_reducible refine Dev.only_mk ?_ (by and_intros <;> first | exact Or.inr (by with_reducible rfl) | exact Or.inl (by decide)) | split | with_reducible intro _

theorem Dev.storeGeometry_only (d : Dev) (g : List Byte) : d.onlyChanges (Dev.storeGeometry d g) [.sht, .nor] := by
  unfold Dev.storeGeometry
  repeat' first | with_reducible apply Dev.only_refl | (with_reducible show Part.within _ _ = true; decide) | dsimp only | fail_if_no_progress with_reducible refine Dev.only_mk ?_ (by and_intros <;> first | exact Or.inr (by with_reducible rfl) | exact Or.inl (by decide)) | split | with_reducible intro _

/-! ### NorOps.lean -/

theorem Dev.modCells_only (d : Dev) (f : List Host.Cell → List Host.Cell) : d.onlyChanges (Dev.modCells d f) [.nor] := by
  unfold Dev.modCells
  repeat' first | with_reducible apply Dev.only_refl | (with_reducible show Part.within _ _ = true; decide) | dsimp only | fail_if_no_progress with_reducible refine Dev.only_mk ?_ (by and_intros <;> first | exact Or.inr (by with_reducible rfl) | exact Or.inl (by decide)) | split | with_reducible intro _

theorem Dev.norProgram_only (d : Dev) (off : Nat) (bs : List Byte) : d.onlyChanges (Dev.norProgram d off bs) [.nor, .free] := by
  unfold Dev.norProgram
  repeat' first | with_reducible apply Dev.only_refl | (with_reducible show Part.within _ _ = true; decide) | with_reducible apply Dev.only_then (Dev.modCells_only _ _) | dsimp only | fail_if_no_progress with_reducible refine Dev.only_mk ?_ (by and_intros <;> first | exact Or.inr (by with_reducible rfl) | exact Or.inl (by decide)) | split | with_reducible intro _

theorem Dev.norBad_only (d : Dev) (off n : Nat) : d.onlyChanges (Dev.norBad d off n) [.nor, .free] := by
  unfold Dev.norBad
  repeat' first | with_reducible apply Dev.only_refl | (with_reducible show Part.within _ _ = true; decide) | with_reducible apply Dev.only_then (Dev.modCells_only _ _) | dsimp only | fail_if_no_progress with_reducible refine Dev.only_mk ?_ (by and_intros <;> first | exact Or.inr (by with_reducible rfl) | exact Or.inl (by decide)) | split | with_reducible intro _

theorem Dev.loadResident_only (d : Dev) (s : Nat) : d.onlyChanges (Dev.loadResident d s) [.cmp] := by
  unfold Dev.loadResident
  repeat' first | with_reducible apply Dev.only_refl | (with_reducible show Part.within _ _ = true; decide) | with_reducible apply Dev.only_then (Dev.modBase_only _ _ _) | dsimp only | fail_if_no_progress with_reducible refine Dev.only_mk ?_ (by and_intros <;> first | exact Or.inr (by with_reducible rfl) | exact Or.inl (by decide)) | split | with_reducible intro _

theorem Dev.putDir_only (d : Dev) (r : DirRec) : d.onlyChanges (Dev.putDir d r) [.prm, .sluice, .host, .links, .lamp, .nor, .upd] := by
  unfold Dev.putDir
  repeat' first | with_reducible apply Dev.only_refl | (with_reducible show Part.within _ _ = true; decide) | with_reducible apply Dev.only_then (Dev.request_only _ _) | with_reducible apply Dev.only_ite | dsimp only | fail_if_no_progress with_reducible refine Dev.only_mk ?_ (by and_intros <;> first | exact Or.inr (by with_reducible rfl) | exact Or.inl (by decide)) | split | with_reducible intro _

theorem Dev.writeDir_only (d : Dev) (f : DirRec → DirRec) : d.onlyChanges (Dev.writeDir d f) [.prm, .sluice, .host, .links, .lamp, .nor, .upd] := by
  unfold Dev.writeDir
  repeat' first | with_reducible apply Dev.only_refl | (with_reducible show Part.within _ _ = true; decide) | with_reducible apply Dev.only_then (Dev.putDir_only _ _) | dsimp only | fail_if_no_progress with_reducible refine Dev.only_mk ?_ (by and_intros <;> first | exact Or.inr (by with_reducible rfl) | exact Or.inl (by decide)) | split | with_reducible intro _

theorem Dev.dirRoom_only (d : Dev) : d.onlyChanges (Dev.dirRoom d) [.prm, .sluice, .host, .links, .lamp] := by
  unfold Dev.dirRoom
  repeat' first | with_reducible apply Dev.only_refl | (with_reducible show Part.within _ _ = true; decide) | with_reducible apply Dev.only_then (Dev.request_only _ _) | with_reducible apply Dev.only_ite | dsimp only | fail_if_no_progress with_reducible refine Dev.only_mk ?_ (by and_intros <;> first | exact Or.inr (by with_reducible rfl) | exact Or.inl (by decide)) | split | with_reducible intro _

theorem Dev.dirErased_only (d : Dev) : d.onlyChanges (Dev.dirErased d) [.prm, .sluice, .host, .links, .lamp, .nor, .upd] := by
  unfold Dev.dirErased
  repeat' first | with_reducible apply Dev.only_refl | (with_reducible show Part.within _ _ = true; decide) | with_reducible apply Dev.only_foldl | with_reducible apply Dev.only_foldl_fst | with_reducible apply Dev.only_then (Dev.release_only _ _) | with_reducible apply Dev.only_then (Dev.putDir_only _ _) | with_reducible apply Dev.only_ite | dsimp only | fail_if_no_progress with_reducible refine Dev.only_mk ?_ (by and_intros <;> first | exact Or.inr (by with_reducible rfl) | exact Or.inl (by decide)) | split | with_reducible intro _

/-! ### BeamOps.lean -/

theorem Dev.closeSession_only (d : Dev) : d.onlyChanges (Dev.closeSession d) [.prm, .sluice, .host, .links, .lamp, .upd] := by
  unfold Dev.closeSession
  repeat' first | with_reducible apply Dev.only_refl | (with_reducible show Part.within _ _ = true; decide) | with_reducible apply Dev.only_foldl | with_reducible apply Dev.only_foldl_fst | with_reducible apply Dev.only_then (Dev.finishWith_only _ _ _ _) | with_reducible apply Dev.only_then (Dev.release_only _ _) | with_reducible apply Dev.only_ite | dsimp only | fail_if_no_progress with_reducible refine Dev.only_mk ?_ (by and_intros <;> first | exact Or.inr (by with_reducible rfl) | exact Or.inl (by decide)) | split | with_reducible intro _

theorem Dev.goTo_only (d : Dev) (new : DevState) (cause : Nat) : d.onlyChanges (Dev.goTo d new cause) [.core, .prm, .sluice, .host, .links, .lamp, .upd] := by
  unfold Dev.goTo
  repeat' first | with_reducible apply Dev.only_refl | (with_reducible show Part.within _ _ = true; decide) | with_reducible apply Dev.only_then (Dev.setState_only _ _ _) | with_reducible apply Dev.only_then (Dev.closeSession_only _) | dsimp only | fail_if_no_progress with_reducible refine Dev.only_mk ?_ (by and_intros <;> first | exact Or.inr (by with_reducible rfl) | exact Or.inl (by decide)) | split | with_reducible intro _

theorem Dev.carryMask_only (d : Dev) (m : Nat) : d.onlyChanges (Dev.carryMask d m) [.prm, .host, .links, .seq] := by
  unfold Dev.carryMask
  repeat' first | with_reducible apply Dev.only_refl | (with_reducible show Part.within _ _ = true; decide) | with_reducible apply Dev.only_then (Dev.post_only _ _ _) | with_reducible apply Dev.only_ite | dsimp only | fail_if_no_progress with_reducible refine Dev.only_mk ?_ (by and_intros <;> first | exact Or.inr (by with_reducible rfl) | exact Or.inl (by decide)) | split | with_reducible intro _

theorem Dev.keepTestFrame_only (d : Dev) (m : Nat) : d.onlyChanges (Dev.keepTestFrame d m) [.cmp] := by
  unfold Dev.keepTestFrame
  repeat' first | with_reducible apply Dev.only_refl | (with_reducible show Part.within _ _ = true; decide) | with_reducible apply Dev.only_foldl | with_reducible apply Dev.only_foldl_fst | with_reducible apply Dev.only_then (Dev.modPipe_only _ _ _) | with_reducible apply Dev.only_ite | dsimp only | fail_if_no_progress with_reducible refine Dev.only_mk ?_ (by and_intros <;> first | exact Or.inr (by with_reducible rfl) | exact Or.inl (by decide)) | split | with_reducible intro _

theorem Dev.camModeChange_only (d : Dev) (m : Nat) : d.onlyChanges (Dev.camModeChange d m) [.clk, .cam] := by
  unfold Dev.camModeChange
  repeat' first | with_reducible apply Dev.only_refl | (with_reducible show Part.within _ _ = true; decide) | with_reducible apply Dev.only_ite | dsimp only | fail_if_no_progress with_reducible refine Dev.only_mk ?_ (by and_intros <;> first | exact Or.inr (by with_reducible rfl) | exact Or.inl (by decide)) | split | with_reducible intro _

theorem Dev.rechoose_only (d : Dev) : d.onlyChanges (Dev.rechoose d) [.prm, .sluice, .host, .req, .links, .lamp, .upd] := by
  unfold Dev.rechoose
  repeat' first | with_reducible apply Dev.only_refl | (with_reducible show Part.within _ _ = true; decide) | with_reducible apply Dev.only_foldl | with_reducible apply Dev.only_foldl_fst | with_reducible apply Dev.only_then (Dev.post_only _ _ _) | with_reducible apply Dev.only_then (Dev.finishWith_only _ _ _ _) | with_reducible apply Dev.only_then (Dev.closeSession_only _) | with_reducible apply Dev.only_ite | dsimp only | fail_if_no_progress with_reducible refine Dev.only_mk ?_ (by and_intros <;> first | exact Or.inr (by with_reducible rfl) | exact Or.inl (by decide)) | split | with_reducible intro _

theorem Dev.takeMode_only (d : Dev) (m : Nat) (bridged : Bool) : d.onlyChanges (Dev.takeMode d m bridged) [.core, .prm, .clk, .sluice, .host, .req, .links, .cmp, .seq, .cam, .lamp, .saf, .upd] := by
  unfold Dev.takeMode
  repeat' first | with_reducible apply Dev.only_refl | (with_reducible show Part.within _ _ = true; decide) | with_reducible apply Dev.only_then (Dev.rectsModeChange_only _ _) | with_reducible apply Dev.only_then (Dev.carryMask_only _ _) | with_reducible apply Dev.only_then (Dev.keepTestFrame_only _ _) | with_reducible apply Dev.only_then (Dev.camModeChange_only _ _) | with_reducible apply Dev.only_then (Dev.rechoose_only _) | with_reducible apply Dev.only_ite | dsimp only | fail_if_no_progress with_reducible refine Dev.only_mk ?_ (by and_intros <;> first | exact Or.inr (by with_reducible rfl) | exact Or.inl (by decide)) | split | with_reducible intro _

theorem Dev.changeMode_only (d : Dev) (m : Nat) (bridged : Bool) : d.onlyChanges (Dev.changeMode d m bridged) [.core, .prm, .clk, .sluice, .host, .req, .links, .cmp, .seq, .cam, .lamp, .saf, .upd] := by
  unfold Dev.changeMode
  repeat' first | with_reducible apply Dev.only_refl | (with_reducible show Part.within _ _ = true; decide) | with_reducible apply Dev.only_then (Dev.count_only _ _ _ _) | with_reducible apply Dev.only_then (Dev.post_only _ _ _) | with_reducible apply Dev.only_then (Dev.takeMode_only _ _ _) | dsimp only | fail_if_no_progress with_reducible refine Dev.only_mk ?_ (by and_intros <;> first | exact Or.inr (by with_reducible rfl) | exact Or.inl (by decide)) | split | with_reducible intro _

theorem Dev.restartTimeline_only (d : Dev) : d.onlyChanges (Dev.restartTimeline d) [.prm, .sluice, .cmp, .seq, .lamp] := by
  unfold Dev.restartTimeline
  repeat' first | with_reducible apply Dev.only_refl | (with_reducible show Part.within _ _ = true; decide) | with_reducible apply Dev.only_foldl | with_reducible apply Dev.only_foldl_fst | with_reducible apply Dev.only_then (Dev.dropPass_only _ _) | dsimp only | fail_if_no_progress with_reducible refine Dev.only_mk ?_ (by and_intros <;> first | exact Or.inr (by with_reducible rfl) | exact Or.inl (by decide)) | split | with_reducible intro _

theorem Dev.moveSideR_only (d : Dev) (m : Nat) : d.onlyChanges (Dev.moveSideR d m) [.prm, .host, .links, .ports, .saf] := by
  unfold Dev.moveSideR
  repeat' first | with_reducible apply Dev.only_refl | (with_reducible show Part.within _ _ = true; decide) | with_reducible apply Dev.only_then (Dev.powerUp_only _ _) | with_reducible apply Dev.only_then (Dev.powerDown_only _ _) | with_reducible apply Dev.only_ite | dsimp only | fail_if_no_progress with_reducible refine Dev.only_mk ?_ (by and_intros <;> first | exact Or.inr (by with_reducible rfl) | exact Or.inl (by decide)) | split | with_reducible intro _

theorem Dev.selectNow_only (d : Dev) (m : Nat) (p : Port) (tag : Nat) : d.onlyChanges (Dev.selectNow d m p tag) [.core, .prm, .clk, .sluice, .host, .req, .links, .cmp, .seq, .cam, .lamp, .saf, .upd] := by
  unfold Dev.selectNow
  repeat' first | with_reducible apply Dev.only_refl | (with_reducible show Part.within _ _ = true; decide) | with_reducible apply Dev.only_then (Dev.finish_only _ _ _ _ _) | with_reducible apply Dev.only_then (Dev.changeMode_only _ _ _) | with_reducible apply Dev.only_then (Dev.restartTimeline_only _) | with_reducible apply Dev.only_ite | dsimp only | fail_if_no_progress with_reducible refine Dev.only_mk ?_ (by and_intros <;> first | exact Or.inr (by with_reducible rfl) | exact Or.inl (by decide)) | split | with_reducible intro _

theorem Dev.settleMode_only (d : Dev) : d.onlyChanges (Dev.settleMode d) [.core, .prm, .clk, .sluice, .host, .req, .links, .cmp, .seq, .cam, .lamp, .saf, .upd] := by
  unfold Dev.settleMode
  repeat' first | with_reducible apply Dev.only_refl | (with_reducible show Part.within _ _ = true; decide) | with_reducible apply Dev.only_then (Dev.finishWith_only _ _ _ _) | with_reducible apply Dev.only_then (Dev.selectNow_only _ _ _ _) | with_reducible apply Dev.only_ite | dsimp only | fail_if_no_progress with_reducible refine Dev.only_mk ?_ (by and_intros <;> first | exact Or.inr (by with_reducible rfl) | exact Or.inl (by decide)) | split | with_reducible intro _

theorem Dev.dropChange_only (d : Dev) : d.onlyChanges (Dev.dropChange d) [.prm, .host, .links, .seq] := by
  unfold Dev.dropChange
  repeat' first | with_reducible apply Dev.only_refl | (with_reducible show Part.within _ _ = true; decide) | with_reducible apply Dev.only_then (Dev.finishWith_only _ _ _ _) | dsimp only | fail_if_no_progress with_reducible refine Dev.only_mk ?_ (by and_intros <;> first | exact Or.inr (by with_reducible rfl) | exact Or.inl (by decide)) | split | with_reducible intro _

theorem Dev.beamOn_only (d : Dev) : d.onlyChanges (Dev.beamOn d) [.core, .prm, .sluice, .host, .links, .lamp, .upd] := by
  unfold Dev.beamOn
  repeat' first | with_reducible apply Dev.only_refl | (with_reducible show Part.within _ _ = true; decide) | with_reducible apply Dev.only_foldl | with_reducible apply Dev.only_foldl_fst | with_reducible apply Dev.only_then (Dev.startBoost_only _ _) | with_reducible apply Dev.only_then (Dev.goTo_only _ _ _) | dsimp only | fail_if_no_progress with_reducible refine Dev.only_mk ?_ (by and_intros <;> first | exact Or.inr (by with_reducible rfl) | exact Or.inl (by decide)) | split | with_reducible intro _

theorem Dev.boostsReady_only (d : Dev) : d.onlyChanges (Dev.boostsReady d) [.core, .prm, .sluice, .host, .links, .lamp] := by
  unfold Dev.boostsReady
  repeat' first | with_reducible apply Dev.only_refl | (with_reducible show Part.within _ _ = true; decide) | with_reducible apply Dev.only_then (Dev.request_only _ _) | with_reducible apply Dev.only_ite | dsimp only | fail_if_no_progress with_reducible refine Dev.only_mk ?_ (by and_intros <;> first | exact Or.inr (by with_reducible rfl) | exact Or.inl (by decide)) | split | with_reducible intro _

theorem Dev.settle_only (d : Dev) : d.onlyChanges (Dev.settle d) [.core, .prm, .clk, .sluice, .host, .req, .links, .cmp, .seq, .cam, .lamp, .saf, .upd] := by
  unfold Dev.settle
  repeat' first | with_reducible apply Dev.only_refl | (with_reducible show Part.within _ _ = true; decide) | with_reducible apply Dev.only_then (Dev.settleMode_only _) | with_reducible apply Dev.only_then (Dev.beamOn_only _) | with_reducible apply Dev.only_ite | dsimp only | fail_if_no_progress with_reducible refine Dev.only_mk ?_ (by and_intros <;> first | exact Or.inr (by with_reducible rfl) | exact Or.inl (by decide)) | split | with_reducible intro _

theorem Dev.putInForce_only (d : Dev) (m : Nat) (p : Port) (tag : Nat) : d.onlyChanges (Dev.putInForce d m p tag) [.core, .prm, .clk, .sluice, .host, .req, .links, .cmp, .seq, .cam, .ports, .lamp, .saf, .upd] := by
  unfold Dev.putInForce
  repeat' first | with_reducible apply Dev.only_refl | (with_reducible show Part.within _ _ = true; decide) | with_reducible apply Dev.only_then (Dev.finish_only _ _ _ _ _) | with_reducible apply Dev.only_then (Dev.changeMode_only _ _ _) | with_reducible apply Dev.only_then (Dev.restartTimeline_only _) | with_reducible apply Dev.only_then (Dev.moveSideR_only _ _) | with_reducible apply Dev.only_ite | dsimp only | fail_if_no_progress with_reducible refine Dev.only_mk ?_ (by and_intros <;> first | exact Or.inr (by with_reducible rfl) | exact Or.inl (by decide)) | split | with_reducible intro _

theorem Dev.changeAtStandby_only (d : Dev) : d.onlyChanges (Dev.changeAtStandby d) [.core, .prm, .clk, .sluice, .host, .req, .links, .cmp, .seq, .cam, .ports, .lamp, .saf, .upd] := by
  unfold Dev.changeAtStandby
  repeat' first | with_reducible apply Dev.only_refl | (with_reducible show Part.within _ _ = true; decide) | with_reducible apply Dev.only_then (Dev.finish_only _ _ _ _ _) | with_reducible apply Dev.only_then (Dev.changeMode_only _ _ _) | with_reducible apply Dev.only_then (Dev.restartTimeline_only _) | with_reducible apply Dev.only_then (Dev.putInForce_only _ _ _ _) | dsimp only | fail_if_no_progress with_reducible refine Dev.only_mk ?_ (by and_intros <;> first | exact Or.inr (by with_reducible rfl) | exact Or.inl (by decide)) | split | with_reducible intro _

theorem Dev.freeCam_only (d : Dev) : d.onlyChanges (Dev.freeCam d) [.cam] := by
  unfold Dev.freeCam
  repeat' first | with_reducible apply Dev.only_refl | (with_reducible show Part.within _ _ = true; decide) | with_reducible apply Dev.only_ite | dsimp only | fail_if_no_progress with_reducible refine Dev.only_mk ?_ (by and_intros <;> first | exact Or.inr (by with_reducible rfl) | exact Or.inl (by decide)) | split | with_reducible intro _

theorem Dev.standbyEntered_only (d : Dev) : d.onlyChanges (Dev.standbyEntered d) [.prm, .sluice, .host, .links, .lamp] := by
  unfold Dev.standbyEntered
  repeat' first | with_reducible apply Dev.only_refl | (with_reducible show Part.within _ _ = true; decide) | with_reducible apply Dev.only_foldl | with_reducible apply Dev.only_foldl_fst | with_reducible apply Dev.only_then (Dev.askStep_only _ _) | with_reducible apply Dev.only_then (Dev.dirRoom_only _) | dsimp only | fail_if_no_progress with_reducible refine Dev.only_mk ?_ (by and_intros <;> first | exact Or.inr (by with_reducible rfl) | exact Or.inl (by decide)) | split | with_reducible intro _

theorem Dev.enterStandby_only (d : Dev) : d.onlyChanges (Dev.enterStandby d) [.core, .prm, .clk, .sluice, .host, .req, .links, .cmp, .seq, .cam, .ports, .lamp, .gov, .saf, .upd] := by
  unfold Dev.enterStandby
  repeat' first | with_reducible apply Dev.only_refl | (with_reducible show Part.within _ _ = true; decide) | with_reducible apply Dev.only_foldl | with_reducible apply Dev.only_foldl_fst | with_reducible apply Dev.only_then (Dev.modLside_only _ _ _) | with_reducible apply Dev.only_then (Dev.release_only _ _) | with_reducible apply Dev.only_then (Dev.modMportEv_only _ _ _) | with_reducible apply Dev.only_then (Dev.darkSide_only _ _) | with_reducible apply Dev.only_then (Dev.stopBoost_only _ _) | with_reducible apply Dev.only_then (Dev.zeroWords_only _ _) | with_reducible apply Dev.only_then (Dev.reqEffective_only _ _) | with_reducible apply Dev.only_then (Dev.goTo_only _ _ _) | with_reducible apply Dev.only_then (Dev.changeAtStandby_only _) | with_reducible apply Dev.only_then (Dev.freeCam_only _) | with_reducible apply Dev.only_then (Dev.standbyEntered_only _) | dsimp only | fail_if_no_progress with_reducible refine Dev.only_mk ?_ (by and_intros <;> first | exact Or.inr (by with_reducible rfl) | exact Or.inl (by decide)) | split | with_reducible intro _

theorem Dev.beamOff_only (d : Dev) : d.onlyChanges (Dev.beamOff d) [.core, .prm, .clk, .sluice, .host, .req, .links, .cmp, .seq, .cam, .ports, .lamp, .gov, .saf, .upd] := by
  unfold Dev.beamOff
  repeat' first | with_reducible apply Dev.only_refl | (with_reducible show Part.within _ _ = true; decide) | with_reducible apply Dev.only_foldl | with_reducible apply Dev.only_foldl_fst | with_reducible apply Dev.only_then (Dev.rampR_only _ _ _ _) | with_reducible apply Dev.only_then (Dev.enterStandby_only _) | with_reducible apply Dev.only_ite | dsimp only | fail_if_no_progress with_reducible refine Dev.only_mk ?_ (by and_intros <;> first | exact Or.inr (by with_reducible rfl) | exact Or.inl (by decide)) | split | with_reducible intro _

theorem Dev.beamBack_only (d : Dev) : d.onlyChanges (Dev.beamBack d) [.core, .host, .links, .lamp] := by
  unfold Dev.beamBack
  repeat' first | with_reducible apply Dev.only_refl | (with_reducible show Part.within _ _ = true; decide) | with_reducible apply Dev.only_foldl | with_reducible apply Dev.only_foldl_fst | with_reducible apply Dev.only_then (Dev.rampR_only _ _ _ _) | with_reducible apply Dev.only_ite | dsimp only | fail_if_no_progress with_reducible refine Dev.only_mk ?_ (by and_intros <;> first | exact Or.inr (by with_reducible rfl) | exact Or.inl (by decide)) | split | with_reducible intro _

theorem Dev.selectDefault_only (d : Dev) : d.onlyChanges (Dev.selectDefault d) [.core, .prm, .clk, .sluice, .host, .req, .links, .cmp, .seq, .cam, .ports, .lamp, .saf, .upd] := by
  unfold Dev.selectDefault
  repeat' first | with_reducible apply Dev.only_refl | (with_reducible show Part.within _ _ = true; decide) | with_reducible apply Dev.only_then (Dev.post_only _ _ _) | with_reducible apply Dev.only_then (Dev.changeMode_only _ _ _) | with_reducible apply Dev.only_then (Dev.restartTimeline_only _) | with_reducible apply Dev.only_then (Dev.moveSideR_only _ _) | with_reducible apply Dev.only_ite | dsimp only | fail_if_no_progress with_reducible refine Dev.only_mk ?_ (by and_intros <;> first | exact Or.inr (by with_reducible rfl) | exact Or.inl (by decide)) | split | with_reducible intro _

theorem Dev.beamOffDone_only (d : Dev) : d.onlyChanges (Dev.beamOffDone d) [.core, .prm, .clk, .sluice, .host, .req, .links, .cmp, .seq, .cam, .ports, .lamp, .gov, .saf, .upd] := by
  unfold Dev.beamOffDone
  repeat' first | with_reducible apply Dev.only_refl | (with_reducible show Part.within _ _ = true; decide) | with_reducible apply Dev.only_then (Dev.enterStandby_only _) | with_reducible apply Dev.only_then (Dev.selectDefault_only _) | with_reducible apply Dev.only_ite | dsimp only | fail_if_no_progress with_reducible refine Dev.only_mk ?_ (by and_intros <;> first | exact Or.inr (by with_reducible rfl) | exact Or.inl (by decide)) | split | with_reducible intro _

theorem Dev.followReq_only (d : Dev) (old : Nat) : d.onlyChanges (Dev.followReq d old) [.core, .prm, .clk, .sluice, .host, .req, .links, .cmp, .seq, .cam, .ports, .lamp, .gov, .saf, .upd] := by
  unfold Dev.followReq
  repeat' first | with_reducible apply Dev.only_refl | (with_reducible show Part.within _ _ = true; decide) | with_reducible apply Dev.only_then (Dev.beamOff_only _) | with_reducible apply Dev.only_then (Dev.beamBack_only _) | with_reducible apply Dev.only_ite | dsimp only | fail_if_no_progress with_reducible refine Dev.only_mk ?_ (by and_intros <;> first | exact Or.inr (by with_reducible rfl) | exact Or.inl (by decide)) | split | with_reducible intro _

theorem Dev.updateReq_only (d : Dev) : d.onlyChanges (Dev.updateReq d) [.core, .prm, .clk, .sluice, .host, .req, .links, .cmp, .seq, .cam, .ports, .lamp, .gov, .saf, .upd] := by
  unfold Dev.updateReq
  repeat' first | with_reducible apply Dev.only_refl | (with_reducible show Part.within _ _ = true; decide) | with_reducible apply Dev.only_then (Dev.rechoose_only _) | with_reducible apply Dev.only_then (Dev.followReq_only _ _) | dsimp only | fail_if_no_progress with_reducible refine Dev.only_mk ?_ (by and_intros <;> first | exact Or.inr (by with_reducible rfl) | exact Or.inl (by decide)) | split | with_reducible intro _

theorem Dev.speedChanged_only (d : Dev) : d.onlyChanges (Dev.speedChanged d) [.core, .prm, .clk, .sluice, .host, .req, .links, .cmp, .seq, .cam, .ports, .lamp, .gov, .saf, .upd] := by
  unfold Dev.speedChanged
  repeat' first | with_reducible apply Dev.only_refl | (with_reducible show Part.within _ _ = true; decide) | with_reducible apply Dev.only_then (Dev.closeSession_only _) | with_reducible apply Dev.only_then (Dev.beamOff_only _) | with_reducible apply Dev.only_then (Dev.beamOffDone_only _) | with_reducible apply Dev.only_ite | dsimp only | fail_if_no_progress with_reducible refine Dev.only_mk ?_ (by and_intros <;> first | exact Or.inr (by with_reducible rfl) | exact Or.inl (by decide)) | split | with_reducible intro _

theorem Dev.canRequest_only (d : Dev) (v : Nat) (first : Bool) : d.onlyChanges (Dev.canRequest d v first) [.core, .prm, .clk, .sluice, .host, .veh, .req, .links, .cmp, .seq, .cam, .ports, .lamp, .gov, .saf, .upd] := by
  unfold Dev.canRequest
  repeat' first | with_reducible apply Dev.only_refl | (with_reducible show Part.within _ _ = true; decide) | with_reducible apply Dev.only_then (Dev.settle_only _) | with_reducible apply Dev.only_then (Dev.updateReq_only _) | dsimp only | fail_if_no_progress with_reducible refine Dev.only_mk ?_ (by and_intros <;> first | exact Or.inr (by with_reducible rfl) | exact Or.inl (by decide)) | split | with_reducible intro _

theorem Dev.canRequestLost_only (d : Dev) : d.onlyChanges (Dev.canRequestLost d) [.core, .prm, .clk, .sluice, .host, .req, .links, .cmp, .seq, .cam, .ports, .lamp, .gov, .saf, .upd] := by
  unfold Dev.canRequestLost
  repeat' first | with_reducible apply Dev.only_refl | (with_reducible show Part.within _ _ = true; decide) | with_reducible apply Dev.only_then (Dev.settle_only _) | with_reducible apply Dev.only_then (Dev.updateReq_only _) | with_reducible apply Dev.only_ite | dsimp only | fail_if_no_progress with_reducible refine Dev.only_mk ?_ (by and_intros <;> first | exact Or.inr (by with_reducible rfl) | exact Or.inl (by decide)) | split | with_reducible intro _

theorem Dev.beamEnableCmd_only (d : Dev) (p : Port) (tag req : Nat) : d.onlyChanges (Dev.beamEnableCmd d p tag req) [.core, .prm, .clk, .sluice, .host, .req, .links, .cmp, .seq, .cam, .ports, .lamp, .gov, .saf, .upd] := by
  unfold Dev.beamEnableCmd
  repeat' first | with_reducible apply Dev.only_refl | (with_reducible show Part.within _ _ = true; decide) | with_reducible apply Dev.only_then (Dev.finish_only _ _ _ _ _) | with_reducible apply Dev.only_then (Dev.finishWith_only _ _ _ _) | with_reducible apply Dev.only_then (Dev.waits_only _ _ _) | with_reducible apply Dev.only_then (Dev.closeSession_only _) | with_reducible apply Dev.only_then (Dev.settle_only _) | with_reducible apply Dev.only_then (Dev.updateReq_only _) | with_reducible apply Dev.only_ite | dsimp only | fail_if_no_progress with_reducible refine Dev.only_mk ?_ (by and_intros <;> first | exact Or.inr (by with_reducible rfl) | exact Or.inl (by decide)) | split | with_reducible intro _

theorem Dev.endChange_only (d : Dev) : d.onlyChanges (Dev.endChange d) [.core, .prm, .clk, .sluice, .host, .req, .links, .cmp, .seq, .cam, .lamp, .saf, .upd] := by
  unfold Dev.endChange
  repeat' first | with_reducible apply Dev.only_refl | (with_reducible show Part.within _ _ = true; decide) | with_reducible apply Dev.only_then (Dev.finish_only _ _ _ _ _) | with_reducible apply Dev.only_then (Dev.finishWith_only _ _ _ _) | with_reducible apply Dev.only_then (Dev.changeMode_only _ _ _) | with_reducible apply Dev.only_then (Dev.restartTimeline_only _) | dsimp only | fail_if_no_progress with_reducible refine Dev.only_mk ?_ (by and_intros <;> first | exact Or.inr (by with_reducible rfl) | exact Or.inl (by decide)) | split | with_reducible intro _

theorem Dev.enterSafeState_only (d : Dev) (cause : Nat) : d.onlyChanges (Dev.enterSafeState d cause) [.core, .prm, .clk, .sluice, .host, .req, .links, .cmp, .seq, .cam, .lamp, .aux, .saf, .upd] := by
  unfold Dev.enterSafeState
  repeat' first | with_reducible apply Dev.only_refl | (with_reducible show Part.within _ _ = true; decide) | with_reducible apply Dev.only_foldl | with_reducible apply Dev.only_foldl_fst | with_reducible apply Dev.only_then (Dev.finishWith_only _ _ _ _) | with_reducible apply Dev.only_then (Dev.stopPasses_only _) | with_reducible apply Dev.only_then (Dev.mxBlank_only _) | with_reducible apply Dev.only_then (Dev.goTo_only _ _ _) | with_reducible apply Dev.only_then (Dev.endChange_only _) | dsimp only | fail_if_no_progress with_reducible refine Dev.only_mk ?_ (by and_intros <;> first | exact Or.inr (by with_reducible rfl) | exact Or.inl (by decide)) | split | with_reducible intro _

theorem Dev.leaveSafe_only (d : Dev) : d.onlyChanges (Dev.leaveSafe d) [.core, .prm, .clk, .sluice, .host, .req, .links, .cmp, .seq, .cam, .ports, .lamp, .gov, .saf, .upd] := by
  unfold Dev.leaveSafe
  repeat' first | with_reducible apply Dev.only_refl | (with_reducible show Part.within _ _ = true; decide) | with_reducible apply Dev.only_then (Dev.settle_only _) | with_reducible apply Dev.only_then (Dev.enterStandby_only _) | with_reducible apply Dev.only_ite | dsimp only | fail_if_no_progress with_reducible refine Dev.only_mk ?_ (by and_intros <;> first | exact Or.inr (by with_reducible rfl) | exact Or.inl (by decide)) | split | with_reducible intro _

/-! ### JournalOps.lean -/

theorem Dev.closeInterval_only (d : Dev) : d.onlyChanges (Dev.closeInterval d) [.lamp, .jnl] := by
  unfold Dev.closeInterval
  repeat' first | with_reducible apply Dev.only_refl | (with_reducible show Part.within _ _ = true; decide) | dsimp only | fail_if_no_progress with_reducible refine Dev.only_mk ?_ (by and_intros <;> first | exact Or.inr (by with_reducible rfl) | exact Or.inl (by decide)) | split | with_reducible intro _

theorem Dev.addRecord_only (d : Dev) (first120 : List Byte) : d.onlyChanges (Dev.addRecord d first120) [.prm, .jnl] := by
  unfold Dev.addRecord
  repeat' first | with_reducible apply Dev.only_refl | (with_reducible show Part.within _ _ = true; decide) | with_reducible apply Dev.only_then (Dev.count_only _ _ _ _) | with_reducible apply Dev.only_ite | dsimp only | fail_if_no_progress with_reducible refine Dev.only_mk ?_ (by and_intros <;> first | exact Or.inr (by with_reducible rfl) | exact Or.inl (by decide)) | split | with_reducible intro _

theorem Dev.sealSegment_only (d : Dev) (reason : Nat) : d.onlyChanges (Dev.sealSegment d reason) [.prm, .jnl] := by
  unfold Dev.sealSegment
  repeat' first | with_reducible apply Dev.only_refl | (with_reducible show Part.within _ _ = true; decide) | with_reducible apply Dev.only_then (Dev.addRecord_only _ _) | dsimp only | fail_if_no_progress with_reducible refine Dev.only_mk ?_ (by and_intros <;> first | exact Or.inr (by with_reducible rfl) | exact Or.inl (by decide)) | split | with_reducible intro _

theorem Dev.failSeals_only (d : Dev) (status : Nat) : d.onlyChanges (Dev.failSeals d status) [.prm, .host, .links, .jnl] := by
  unfold Dev.failSeals
  repeat' first | with_reducible apply Dev.only_refl | (with_reducible show Part.within _ _ = true; decide) | with_reducible apply Dev.only_foldl | with_reducible apply Dev.only_foldl_fst | with_reducible apply Dev.only_then (Dev.finishWith_only _ _ _ _) | dsimp only | fail_if_no_progress with_reducible refine Dev.only_mk ?_ (by and_intros <;> first | exact Or.inr (by with_reducible rfl) | exact Or.inl (by decide)) | split | with_reducible intro _

theorem Dev.eraseAhead_only (d : Dev) : d.onlyChanges (Dev.eraseAhead d) [.prm, .sluice, .host, .links, .lamp, .jnl] := by
  unfold Dev.eraseAhead
  repeat' first | with_reducible apply Dev.only_refl | (with_reducible show Part.within _ _ = true; decide) | with_reducible apply Dev.only_then (Dev.request_only _ _) | with_reducible apply Dev.only_then (Dev.failSeals_only _ _) | with_reducible apply Dev.only_ite | dsimp only | fail_if_no_progress with_reducible refine Dev.only_mk ?_ (by and_intros <;> first | exact Or.inr (by with_reducible rfl) | exact Or.inl (by decide)) | split | with_reducible intro _

theorem Dev.norFail_only (d : Dev) (cause : Nat) : d.onlyChanges (Dev.norFail d cause) [.prm, .sluice, .host, .links, .seq, .ports, .lamp, .gov, .saf, .jnl] := by
  unfold Dev.norFail
  repeat' first | with_reducible apply Dev.only_refl | (with_reducible show Part.within _ _ = true; decide) | with_reducible apply Dev.only_then (Dev.count_only _ _ _ _) | with_reducible apply Dev.only_then (Dev.raise_only _ _ _ _) | dsimp only | fail_if_no_progress with_reducible refine Dev.only_mk ?_ (by and_intros <;> first | exact Or.inr (by with_reducible rfl) | exact Or.inl (by decide)) | split | with_reducible intro _

theorem Dev.startPage_only (d : Dev) : d.onlyChanges (Dev.startPage d) [.prm, .sluice, .host, .links, .seq, .ports, .lamp, .gov, .saf, .jnl] := by
  unfold Dev.startPage
  repeat' first | with_reducible apply Dev.only_refl | (with_reducible show Part.within _ _ = true; decide) | with_reducible apply Dev.only_then (Dev.eraseAhead_only _) | with_reducible apply Dev.only_then (Dev.norFail_only _ _) | with_reducible apply Dev.only_ite | dsimp only | fail_if_no_progress with_reducible refine Dev.only_mk ?_ (by and_intros <;> first | exact Or.inr (by with_reducible rfl) | exact Or.inl (by decide)) | split | with_reducible intro _

theorem Dev.kick_only (d : Dev) (now : Bool) : d.onlyChanges (Dev.kick d now) [.prm, .sluice, .host, .links, .seq, .ports, .lamp, .gov, .saf, .jnl] := by
  unfold Dev.kick
  repeat' first | with_reducible apply Dev.only_refl | (with_reducible show Part.within _ _ = true; decide) | with_reducible apply Dev.only_then (Dev.startPage_only _) | with_reducible apply Dev.only_ite | dsimp only | fail_if_no_progress with_reducible refine Dev.only_mk ?_ (by and_intros <;> first | exact Or.inr (by with_reducible rfl) | exact Or.inl (by decide)) | split | with_reducible intro _

theorem Dev.keepRecord_only (d : Dev) (e : Nat) (r : List Byte) : d.onlyChanges (Dev.keepRecord d e r) [.jnl, .nor] := by
  unfold Dev.keepRecord
  repeat' first | with_reducible apply Dev.only_refl | (with_reducible show Part.within _ _ = true; decide) | with_reducible apply Dev.only_ite | dsimp only | fail_if_no_progress with_reducible refine Dev.only_mk ?_ (by and_intros <;> first | exact Or.inr (by with_reducible rfl) | exact Or.inl (by decide)) | split | with_reducible intro _

theorem Dev.eraseJournal_only (d : Dev) (sector : Nat) : d.onlyChanges (Dev.eraseJournal d sector) [.nor] := by
  unfold Dev.eraseJournal
  repeat' first | with_reducible apply Dev.only_refl | (with_reducible show Part.within _ _ = true; decide) | dsimp only | fail_if_no_progress with_reducible refine Dev.only_mk ?_ (by and_intros <;> first | exact Or.inr (by with_reducible rfl) | exact Or.inl (by decide)) | split | with_reducible intro _

theorem Dev.storeRecord_only (d : Dev) (e : Nat) : d.onlyChanges (Dev.storeRecord d e) [.prm, .host, .links, .jnl, .nor] := by
  unfold Dev.storeRecord
  repeat' first | with_reducible apply Dev.only_refl | (with_reducible show Part.within _ _ = true; decide) | with_reducible apply Dev.only_foldl | with_reducible apply Dev.only_foldl_fst | with_reducible apply Dev.only_then (Dev.post_only _ _ _) | with_reducible apply Dev.only_then (Dev.finish_only _ _ _ _ _) | with_reducible apply Dev.only_then (Dev.keepRecord_only _ _ _) | with_reducible apply Dev.only_ite | dsimp only | fail_if_no_progress with_reducible refine Dev.only_mk ?_ (by and_intros <;> first | exact Or.inr (by with_reducible rfl) | exact Or.inl (by decide)) | split | with_reducible intro _

theorem Dev.pageDone_only (d : Dev) (good : Bool) : d.onlyChanges (Dev.pageDone d good) [.prm, .sluice, .host, .links, .seq, .ports, .lamp, .gov, .saf, .jnl, .nor] := by
  unfold Dev.pageDone
  repeat' first | with_reducible apply Dev.only_refl | (with_reducible show Part.within _ _ = true; decide) | with_reducible apply Dev.only_foldl | with_reducible apply Dev.only_foldl_fst | with_reducible apply Dev.only_then (Dev.clearFault_only _ _ _) | with_reducible apply Dev.only_then (Dev.norFail_only _ _) | with_reducible apply Dev.only_then (Dev.startPage_only _) | with_reducible apply Dev.only_then (Dev.storeRecord_only _ _) | with_reducible apply Dev.only_ite | dsimp only | fail_if_no_progress with_reducible refine Dev.only_mk ?_ (by and_intros <;> first | exact Or.inr (by with_reducible rfl) | exact Or.inl (by decide)) | split | with_reducible intro _

theorem Dev.norBusy_only (d : Dev) : d.onlyChanges (Dev.norBusy d) [.prm, .sluice, .host, .links, .seq, .ports, .lamp, .gov, .saf, .jnl] := by
  unfold Dev.norBusy
  repeat' first | with_reducible apply Dev.only_refl | (with_reducible show Part.within _ _ = true; decide) | with_reducible apply Dev.only_then (Dev.norFail_only _ _) | with_reducible apply Dev.only_ite | dsimp only | fail_if_no_progress with_reducible refine Dev.only_mk ?_ (by and_intros <;> first | exact Or.inr (by with_reducible rfl) | exact Or.inl (by decide)) | split | with_reducible intro _

theorem Dev.eraseDone_only (d : Dev) : d.onlyChanges (Dev.eraseDone d) [.prm, .sluice, .host, .links, .lamp, .jnl, .nor] := by
  unfold Dev.eraseDone
  repeat' first | with_reducible apply Dev.only_refl | (with_reducible show Part.within _ _ = true; decide) | with_reducible apply Dev.only_then (Dev.release_only _ _) | with_reducible apply Dev.only_then (Dev.eraseAhead_only _) | with_reducible apply Dev.only_then (Dev.eraseJournal_only _ _) | with_reducible apply Dev.only_ite | dsimp only | fail_if_no_progress with_reducible refine Dev.only_mk ?_ (by and_intros <;> first | exact Or.inr (by with_reducible rfl) | exact Or.inl (by decide)) | split | with_reducible intro _

theorem Dev.openJournal_only (d : Dev) : d.onlyChanges (Dev.openJournal d) [.prm, .sluice, .host, .links, .seq, .ports, .lamp, .gov, .saf, .jnl] := by
  unfold Dev.openJournal
  repeat' first | with_reducible apply Dev.only_refl | (with_reducible show Part.within _ _ = true; decide) | with_reducible apply Dev.only_then (Dev.post_only _ _ _) | with_reducible apply Dev.only_then (Dev.addRecord_only _ _) | with_reducible apply Dev.only_then (Dev.sealSegment_only _ _) | with_reducible apply Dev.only_then (Dev.eraseAhead_only _) | with_reducible apply Dev.only_then (Dev.kick_only _ _) | with_reducible apply Dev.only_ite | dsimp only | fail_if_no_progress with_reducible refine Dev.only_mk ?_ (by and_intros <;> first | exact Or.inr (by with_reducible rfl) | exact Or.inl (by decide)) | split | with_reducible intro _

theorem Dev.formPeriodic_only (d : Dev) (shortened : Bool) : d.onlyChanges (Dev.formPeriodic d shortened) [.prm, .lamp, .jnl] := by
  unfold Dev.formPeriodic
  repeat' first | with_reducible apply Dev.only_refl | (with_reducible show Part.within _ _ = true; decide) | with_reducible apply Dev.only_then (Dev.closeInterval_only _) | with_reducible apply Dev.only_then (Dev.addRecord_only _ _) | dsimp only | fail_if_no_progress with_reducible refine Dev.only_mk ?_ (by and_intros <;> first | exact Or.inr (by with_reducible rfl) | exact Or.inl (by decide)) | split | with_reducible intro _

theorem Dev.sealIfFull_only (d : Dev) : d.onlyChanges (Dev.sealIfFull d) [.prm, .sluice, .host, .links, .seq, .ports, .lamp, .gov, .saf, .jnl] := by
  unfold Dev.sealIfFull
  repeat' first | with_reducible apply Dev.only_refl | (with_reducible show Part.within _ _ = true; decide) | with_reducible apply Dev.only_then (Dev.sealSegment_only _ _) | with_reducible apply Dev.only_then (Dev.kick_only _ _) | with_reducible apply Dev.only_ite | dsimp only | fail_if_no_progress with_reducible refine Dev.only_mk ?_ (by and_intros <;> first | exact Or.inr (by with_reducible rfl) | exact Or.inl (by decide)) | split | with_reducible intro _

theorem Dev.periodicEntry_only (d : Dev) (shortened : Bool) : d.onlyChanges (Dev.periodicEntry d shortened) [.prm, .sluice, .host, .links, .seq, .ports, .lamp, .gov, .saf, .jnl] := by
  unfold Dev.periodicEntry
  repeat' first | with_reducible apply Dev.only_refl | (with_reducible show Part.within _ _ = true; decide) | with_reducible apply Dev.only_then (Dev.formPeriodic_only _ _) | with_reducible apply Dev.only_then (Dev.sealIfFull_only _) | with_reducible apply Dev.only_ite | dsimp only | fail_if_no_progress with_reducible refine Dev.only_mk ?_ (by and_intros <;> first | exact Or.inr (by with_reducible rfl) | exact Or.inl (by decide)) | split | with_reducible intro _

theorem Dev.journalSealCmd_only (d : Dev) (p : Port) (tag : Nat) : d.onlyChanges (Dev.journalSealCmd d p tag) [.prm, .sluice, .host, .links, .seq, .ports, .lamp, .gov, .saf, .jnl] := by
  unfold Dev.journalSealCmd
  repeat' first | with_reducible apply Dev.only_refl | (with_reducible show Part.within _ _ = true; decide) | with_reducible apply Dev.only_then (Dev.waits_only _ _ _) | with_reducible apply Dev.only_then (Dev.sealSegment_only _ _) | with_reducible apply Dev.only_then (Dev.kick_only _ _) | dsimp only | fail_if_no_progress with_reducible refine Dev.only_mk ?_ (by and_intros <;> first | exact Or.inr (by with_reducible rfl) | exact Or.inl (by decide)) | split | with_reducible intro _

theorem Dev.closeJournal_only (d : Dev) (dropped : Nat) : d.onlyChanges (Dev.closeJournal d dropped) [.prm, .sluice, .host, .links, .seq, .ports, .lamp, .gov, .saf, .jnl] := by
  unfold Dev.closeJournal
  repeat' first | with_reducible apply Dev.only_refl | (with_reducible show Part.within _ _ = true; decide) | with_reducible apply Dev.only_then (Dev.closeInterval_only _) | with_reducible apply Dev.only_then (Dev.addRecord_only _ _) | with_reducible apply Dev.only_then (Dev.startPage_only _) | with_reducible apply Dev.only_ite | dsimp only | fail_if_no_progress with_reducible refine Dev.only_mk ?_ (by and_intros <;> first | exact Or.inr (by with_reducible rfl) | exact Or.inl (by decide)) | split | with_reducible intro _

theorem Dev.holdupDone_only (d : Dev) (micros : Nat) : d.onlyChanges (Dev.holdupDone d micros) [.jnl, .nor] := by
  unfold Dev.holdupDone
  repeat' first | with_reducible apply Dev.only_refl | (with_reducible show Part.within _ _ = true; decide) | with_reducible apply Dev.only_ite | dsimp only | fail_if_no_progress with_reducible refine Dev.only_mk ?_ (by and_intros <;> first | exact Or.inr (by with_reducible rfl) | exact Or.inl (by decide)) | split | with_reducible intro _

/-! ### RefreshOps.lean -/

theorem Dev.takeBeamReady_only (d : Dev) : d.onlyChanges (Dev.takeBeamReady d) [.core, .prm, .host, .req, .links, .saf] := by
  unfold Dev.takeBeamReady
  repeat' first | with_reducible apply Dev.only_refl | (with_reducible show Part.within _ _ = true; decide) | with_reducible apply Dev.only_then (Dev.post_only _ _ _) | with_reducible apply Dev.only_then (Dev.reqEffective_only _ _) | dsimp only | fail_if_no_progress with_reducible refine Dev.only_mk ?_ (by and_intros <;> first | exact Or.inr (by with_reducible rfl) | exact Or.inl (by decide)) | split | with_reducible intro _

theorem Dev.noteBoundary_only (d : Dev) : d.onlyChanges (Dev.noteBoundary d) [.jnl] := by
  unfold Dev.noteBoundary
  repeat' first | with_reducible apply Dev.only_refl | (with_reducible show Part.within _ _ = true; decide) | dsimp only | fail_if_no_progress with_reducible refine Dev.only_mk ?_ (by and_intros <;> first | exact Or.inr (by with_reducible rfl) | exact Or.inl (by decide)) | split | with_reducible intro _

theorem Dev.checksDone_only (d : Dev) : d.onlyChanges (Dev.checksDone d) [.core, .prm, .host, .req, .links, .seq, .saf, .jnl] := by
  unfold Dev.checksDone
  repeat' first | with_reducible apply Dev.only_refl | (with_reducible show Part.within _ _ = true; decide) | with_reducible apply Dev.only_foldl | with_reducible apply Dev.only_foldl_fst | with_reducible apply Dev.only_then (Dev.closeAggregates_only _ _ _) | with_reducible apply Dev.only_then (Dev.takeBeamReady_only _) | with_reducible apply Dev.only_ite | dsimp only | fail_if_no_progress with_reducible refine Dev.only_mk ?_ (by and_intros <;> first | exact Or.inr (by with_reducible rfl) | exact Or.inl (by decide)) | split | with_reducible intro _

theorem Dev.endRefresh_only (d : Dev) : d.onlyChanges (Dev.endRefresh d) [.core, .prm, .host, .req, .links, .seq, .saf, .jnl] := by
  unfold Dev.endRefresh
  repeat' first | with_reducible apply Dev.only_refl | (with_reducible show Part.within _ _ = true; decide) | with_reducible apply Dev.only_foldl | with_reducible apply Dev.only_foldl_fst | with_reducible apply Dev.only_then (Dev.endAggregates_only _ _) | with_reducible apply Dev.only_then (Dev.noteBoundary_only _) | with_reducible apply Dev.only_then (Dev.checksDone_only _) | with_reducible apply Dev.only_ite | dsimp only | fail_if_no_progress with_reducible refine Dev.only_mk ?_ (by and_intros <;> first | exact Or.inr (by with_reducible rfl) | exact Or.inl (by decide)) | split | with_reducible intro _

theorem Dev.carryFronts_only (d : Dev) : d.onlyChanges (Dev.carryFronts d) [.prm, .sluice, .cmp, .lamp, .saf] := by
  unfold Dev.carryFronts
  repeat' first | with_reducible apply Dev.only_refl | (with_reducible show Part.within _ _ = true; decide) | with_reducible apply Dev.only_foldl | with_reducible apply Dev.only_foldl_fst | with_reducible apply Dev.only_then (Dev.dropPass_only _ _) | with_reducible apply Dev.only_then (Dev.exchange_only _ _) | dsimp only | fail_if_no_progress with_reducible refine Dev.only_mk ?_ (by and_intros <;> first | exact Or.inr (by with_reducible rfl) | exact Or.inl (by decide)) | split | with_reducible intro _

theorem Dev.newTimeline_only (d : Dev) : d.onlyChanges (Dev.newTimeline d) [.seq] := by
  unfold Dev.newTimeline
  repeat' first | with_reducible apply Dev.only_refl | (with_reducible show Part.within _ _ = true; decide) | dsimp only | fail_if_no_progress with_reducible refine Dev.only_mk ?_ (by and_intros <;> first | exact Or.inr (by with_reducible rfl) | exact Or.inl (by decide)) | split | with_reducible intro _

theorem Dev.changeBeam_only (d : Dev) (m : Nat) (bridged : Bool) : d.onlyChanges (Dev.changeBeam d m bridged) [.core, .prm, .clk, .sluice, .host, .req, .links, .cmp, .seq, .cam, .ports, .lamp, .gov, .saf, .upd] := by
  unfold Dev.changeBeam
  repeat' first | with_reducible apply Dev.only_refl | (with_reducible show Part.within _ _ = true; decide) | with_reducible apply Dev.only_then (Dev.changeMode_only _ _ _) | with_reducible apply Dev.only_then (Dev.followReq_only _ _) | dsimp only | fail_if_no_progress with_reducible refine Dev.only_mk ?_ (by and_intros <;> first | exact Or.inr (by with_reducible rfl) | exact Or.inl (by decide)) | split | with_reducible intro _

theorem Dev.takeSeamless_only (d : Dev) (m : Nat) (p : Port) (tag : Nat) : d.onlyChanges (Dev.takeSeamless d m p tag) [.core, .prm, .clk, .sluice, .host, .req, .links, .cmp, .seq, .cam, .ports, .lamp, .gov, .saf, .upd] := by
  unfold Dev.takeSeamless
  repeat' first | with_reducible apply Dev.only_refl | (with_reducible show Part.within _ _ = true; decide) | with_reducible apply Dev.only_then (Dev.finish_only _ _ _ _ _) | with_reducible apply Dev.only_then (Dev.carryFronts_only _) | with_reducible apply Dev.only_then (Dev.newTimeline_only _) | with_reducible apply Dev.only_then (Dev.changeBeam_only _ _ _) | dsimp only | fail_if_no_progress with_reducible refine Dev.only_mk ?_ (by and_intros <;> first | exact Or.inr (by with_reducible rfl) | exact Or.inl (by decide)) | split | with_reducible intro _

theorem Dev.leaveSideR_only (d : Dev) : d.onlyChanges (Dev.leaveSideR d) [.prm, .sluice, .host, .links, .seq, .ports, .lamp, .gov, .cal] := by
  unfold Dev.leaveSideR
  repeat' first | with_reducible apply Dev.only_refl | (with_reducible show Part.within _ _ = true; decide) | with_reducible apply Dev.only_then (Dev.modLside_only _ _ _) | with_reducible apply Dev.only_then (Dev.darkSide_only _ _) | with_reducible apply Dev.only_then (Dev.stopBoost_only _ _) | with_reducible apply Dev.only_then (Dev.powerDown_only _ _) | with_reducible apply Dev.only_then (Dev.calProjection_only _ _) | with_reducible apply Dev.only_ite | dsimp only | fail_if_no_progress with_reducible refine Dev.only_mk ?_ (by and_intros <;> first | exact Or.inr (by with_reducible rfl) | exact Or.inl (by decide)) | split | with_reducible intro _

theorem Dev.firstPass_only (d : Dev) (m : Nat) : d.onlyChanges (Dev.firstPass d m) [.prm, .sluice, .host, .links, .cmp, .lamp, .saf] := by
  unfold Dev.firstPass
  repeat' first | with_reducible apply Dev.only_refl | (with_reducible show Part.within _ _ = true; decide) | with_reducible apply Dev.only_then (Dev.startPass_only _ _ _ _ _) | with_reducible apply Dev.only_then (Dev.abandon_only _ _ _) | with_reducible apply Dev.only_ite | dsimp only | fail_if_no_progress with_reducible refine Dev.only_mk ?_ (by and_intros <;> first | exact Or.inr (by with_reducible rfl) | exact Or.inl (by decide)) | split | with_reducible intro _

theorem Dev.beginBridge_only (d : Dev) (m : Nat) (p : Port) (tag : Nat) : d.onlyChanges (Dev.beginBridge d m p tag) [.prm, .clk, .sluice, .host, .links, .cmp, .seq, .cam, .ports, .lamp, .gov, .saf, .cal] := by
  unfold Dev.beginBridge
  repeat' first | with_reducible apply Dev.only_refl | (with_reducible show Part.within _ _ = true; decide) | with_reducible apply Dev.only_then (Dev.dropPass_only _ _) | with_reducible apply Dev.only_then (Dev.exchange_only _ _) | with_reducible apply Dev.only_then (Dev.carryMask_only _ _) | with_reducible apply Dev.only_then (Dev.camModeChange_only _ _) | with_reducible apply Dev.only_then (Dev.newTimeline_only _) | with_reducible apply Dev.only_then (Dev.leaveSideR_only _) | with_reducible apply Dev.only_then (Dev.firstPass_only _ _) | dsimp only | fail_if_no_progress with_reducible refine Dev.only_mk ?_ (by and_intros <;> first | exact Or.inr (by with_reducible rfl) | exact Or.inl (by decide)) | split | with_reducible intro _

theorem Dev.stepBridge_only (d : Dev) (m : Nat) (p : Port) (tag n : Nat) (behind : Option (Nat × Port × Nat)) : d.onlyChanges (Dev.stepBridge d m p tag n behind) [.core, .prm, .clk, .sluice, .host, .req, .links, .cmp, .seq, .cam, .ports, .lamp, .gov, .saf, .upd] := by
  unfold Dev.stepBridge
  repeat' first | with_reducible apply Dev.only_refl | (with_reducible show Part.within _ _ = true; decide) | with_reducible apply Dev.only_then (Dev.count_only _ _ _ _) | with_reducible apply Dev.only_then (Dev.post_only _ _ _) | with_reducible apply Dev.only_then (Dev.finish_only _ _ _ _ _) | with_reducible apply Dev.only_then (Dev.finishWith_only _ _ _ _) | with_reducible apply Dev.only_then (Dev.exchange_only _ _) | with_reducible apply Dev.only_then (Dev.changeBeam_only _ _ _) | with_reducible apply Dev.only_then (Dev.firstPass_only _ _) | with_reducible apply Dev.only_ite | dsimp only | fail_if_no_progress with_reducible refine Dev.only_mk ?_ (by and_intros <;> first | exact Or.inr (by with_reducible rfl) | exact Or.inl (by decide)) | split | with_reducible intro _

theorem Dev.stepChange_only (d : Dev) : d.onlyChanges (Dev.stepChange d) [.core, .prm, .clk, .sluice, .host, .req, .links, .cmp, .seq, .cam, .ports, .lamp, .gov, .saf, .upd, .cal] := by
  unfold Dev.stepChange
  repeat' first | with_reducible apply Dev.only_refl | (with_reducible show Part.within _ _ = true; decide) | with_reducible apply Dev.only_foldl | with_reducible apply Dev.only_foldl_fst | with_reducible apply Dev.only_then (Dev.dropPass_only _ _) | with_reducible apply Dev.only_then (Dev.startPass_only _ _ _ _ _) | with_reducible apply Dev.only_then (Dev.takeSeamless_only _ _ _ _) | with_reducible apply Dev.only_then (Dev.beginBridge_only _ _ _ _) | with_reducible apply Dev.only_then (Dev.stepBridge_only _ _ _ _ _ _) | with_reducible apply Dev.only_ite | dsimp only | fail_if_no_progress with_reducible refine Dev.only_mk ?_ (by and_intros <;> first | exact Or.inr (by with_reducible rfl) | exact Or.inl (by decide)) | split | with_reducible intro _

theorem Dev.stepMask_only (d : Dev) : d.onlyChanges (Dev.stepMask d) [.prm, .host, .links, .seq] := by
  unfold Dev.stepMask
  repeat' first | with_reducible apply Dev.only_refl | (with_reducible show Part.within _ _ = true; decide) | with_reducible apply Dev.only_then (Dev.post_only _ _ _) | dsimp only | fail_if_no_progress with_reducible refine Dev.only_mk ?_ (by and_intros <;> first | exact Or.inr (by with_reducible rfl) | exact Or.inl (by decide)) | split | with_reducible intro _

theorem Dev.takeCamParams_only (d : Dev) : d.onlyChanges (Dev.takeCamParams d) [.prm, .clk, .cam] := by
  unfold Dev.takeCamParams
  repeat' first | with_reducible apply Dev.only_refl | (with_reducible show Part.within _ _ = true; decide) | with_reducible apply Dev.only_foldl | with_reducible apply Dev.only_foldl_fst | with_reducible apply Dev.only_then (Dev.applyVal_only _ _) | with_reducible apply Dev.only_ite | dsimp only | fail_if_no_progress with_reducible refine Dev.only_mk ?_ (by and_intros <;> first | exact Or.inr (by with_reducible rfl) | exact Or.inl (by decide)) | split | with_reducible intro _

theorem Dev.stepPeriod_only (d : Dev) : d.onlyChanges (Dev.stepPeriod d) [.clk, .cam] := by
  unfold Dev.stepPeriod
  repeat' first | with_reducible apply Dev.only_refl | (with_reducible show Part.within _ _ = true; decide) | with_reducible apply Dev.only_ite | dsimp only | fail_if_no_progress with_reducible refine Dev.only_mk ?_ (by and_intros <;> first | exact Or.inr (by with_reducible rfl) | exact Or.inl (by decide)) | split | with_reducible intro _

theorem Dev.stepGroup_only (d : Dev) : d.onlyChanges (Dev.stepGroup d) [.cam] := by
  unfold Dev.stepGroup
  repeat' first | with_reducible apply Dev.only_refl | (with_reducible show Part.within _ _ = true; decide) | with_reducible apply Dev.only_ite | dsimp only | fail_if_no_progress with_reducible refine Dev.only_mk ?_ (by and_intros <;> first | exact Or.inr (by with_reducible rfl) | exact Or.inl (by decide)) | split | with_reducible intro _

theorem Dev.askRelease_only (d : Dev) : d.onlyChanges (Dev.askRelease d) [.prm, .sluice, .host, .links, .lamp] := by
  unfold Dev.askRelease
  repeat' first | with_reducible apply Dev.only_refl | (with_reducible show Part.within _ _ = true; decide) | with_reducible apply Dev.only_then (Dev.request_only _ _) | with_reducible apply Dev.only_ite | dsimp only | fail_if_no_progress with_reducible refine Dev.only_mk ?_ (by and_intros <;> first | exact Or.inr (by with_reducible rfl) | exact Or.inl (by decide)) | split | with_reducible intro _

theorem Dev.startProjecting_only (d : Dev) : d.onlyChanges (Dev.startProjecting d) [.core, .seq, .cal] := by
  unfold Dev.startProjecting
  repeat' first | with_reducible apply Dev.only_refl | (with_reducible show Part.within _ _ = true; decide) | with_reducible apply Dev.only_foldl | with_reducible apply Dev.only_foldl_fst | with_reducible apply Dev.only_then (Dev.calProjection_only _ _) | with_reducible apply Dev.only_ite | dsimp only | fail_if_no_progress with_reducible refine Dev.only_mk ?_ (by and_intros <;> first | exact Or.inr (by with_reducible rfl) | exact Or.inl (by decide)) | split | with_reducible intro _

theorem Dev.releasePark_only (d : Dev) : d.onlyChanges (Dev.releasePark d) [.core, .prm, .host, .links, .ports, .lamp] := by
  unfold Dev.releasePark
  repeat' first | with_reducible apply Dev.only_refl | (with_reducible show Part.within _ _ = true; decide) | with_reducible apply Dev.only_foldl | with_reducible apply Dev.only_foldl_fst | with_reducible apply Dev.only_then (Dev.modLside_only _ _ _) | with_reducible apply Dev.only_then (Dev.modMportEv_only _ _ _) | with_reducible apply Dev.only_then (Dev.rampR_only _ _ _ _) | with_reducible apply Dev.only_ite | dsimp only | fail_if_no_progress with_reducible refine Dev.only_mk ?_ (by and_intros <;> first | exact Or.inr (by with_reducible rfl) | exact Or.inl (by decide)) | split | with_reducible intro _

theorem Dev.afterRamps_only (d : Dev) : d.onlyChanges (Dev.afterRamps d) [.core, .prm, .clk, .sluice, .host, .req, .links, .cmp, .seq, .cam, .ports, .lamp, .gov, .saf, .upd] := by
  unfold Dev.afterRamps
  repeat' first | with_reducible apply Dev.only_refl | (with_reducible show Part.within _ _ = true; decide) | with_reducible apply Dev.only_then (Dev.release_only _ _) | with_reducible apply Dev.only_then (Dev.beamOffDone_only _) | with_reducible apply Dev.only_ite | dsimp only | fail_if_no_progress with_reducible refine Dev.only_mk ?_ (by and_intros <;> first | exact Or.inr (by with_reducible rfl) | exact Or.inl (by decide)) | split | with_reducible intro _

theorem Dev.stepPlace_only (d : Dev) (restart : Bool) : d.onlyChanges (Dev.stepPlace d restart) [.seq] := by
  unfold Dev.stepPlace
  repeat' first | with_reducible apply Dev.only_refl | (with_reducible show Part.within _ _ = true; decide) | with_reducible apply Dev.only_ite | dsimp only | fail_if_no_progress with_reducible refine Dev.only_mk ?_ (by and_intros <;> first | exact Or.inr (by with_reducible rfl) | exact Or.inl (by decide)) | split | with_reducible intro _

theorem Dev.noteRefresh_only (d : Dev) : d.onlyChanges (Dev.noteRefresh d) [.gov, .jnl] := by
  unfold Dev.noteRefresh
  repeat' first | with_reducible apply Dev.only_refl | (with_reducible show Part.within _ _ = true; decide) | dsimp only | fail_if_no_progress with_reducible refine Dev.only_mk ?_ (by and_intros <;> first | exact Or.inr (by with_reducible rfl) | exact Or.inl (by decide)) | split | with_reducible intro _

theorem Dev.startRefresh_only (d : Dev) : d.onlyChanges (Dev.startRefresh d) [.core, .prm, .clk, .sluice, .host, .req, .links, .cmp, .seq, .cam, .ports, .sht, .lamp, .gov, .aux, .saf, .jnl, .nor, .upd, .cal, .free] := by
  unfold Dev.startRefresh
  repeat' first | with_reducible apply Dev.only_refl | (with_reducible show Part.within _ _ = true; decide) | with_reducible apply Dev.only_foldl | with_reducible apply Dev.only_foldl_fst | with_reducible apply Dev.only_then (Dev.sendStat_only _) | with_reducible apply Dev.only_then (Dev.openAggregates_only _ _) | with_reducible apply Dev.only_then (Dev.lampRefresh_only _) | with_reducible apply Dev.only_then (Dev.scanRestart_only _) | with_reducible apply Dev.only_then (Dev.sendThumb_only _) | with_reducible apply Dev.only_then (Dev.calRefresh_only _) | with_reducible apply Dev.only_then (Dev.repredict_only _) | with_reducible apply Dev.only_then (Dev.askRelease_only _) | with_reducible apply Dev.only_then (Dev.startProjecting_only _) | with_reducible apply Dev.only_then (Dev.afterRamps_only _) | with_reducible apply Dev.only_then (Dev.noteRefresh_only _) | with_reducible apply Dev.only_ite | dsimp only | fail_if_no_progress with_reducible refine Dev.only_mk ?_ (by and_intros <;> first | exact Or.inr (by with_reducible rfl) | exact Or.inl (by decide)) | split | with_reducible intro _

theorem Dev.refreshBoundary_only (d : Dev) : d.onlyChanges (Dev.refreshBoundary d) [.core, .prm, .clk, .sluice, .host, .req, .links, .cmp, .seq, .cam, .ports, .sht, .lamp, .gov, .aux, .saf, .jnl, .nor, .upd, .cal, .free] := by
  unfold Dev.refreshBoundary
  repeat' first | with_reducible apply Dev.only_refl | (with_reducible show Part.within _ _ = true; decide) | with_reducible apply Dev.only_foldl | with_reducible apply Dev.only_foldl_fst | with_reducible apply Dev.only_then (Dev.applyVal_only _ _) | with_reducible apply Dev.only_then (Dev.exchangeMask_only _ _) | with_reducible apply Dev.only_then (Dev.settle_only _) | with_reducible apply Dev.only_then (Dev.periodicEntry_only _ _) | with_reducible apply Dev.only_then (Dev.endRefresh_only _) | with_reducible apply Dev.only_then (Dev.stepChange_only _) | with_reducible apply Dev.only_then (Dev.stepMask_only _) | with_reducible apply Dev.only_then (Dev.takeCamParams_only _) | with_reducible apply Dev.only_then (Dev.stepPeriod_only _) | with_reducible apply Dev.only_then (Dev.stepGroup_only _) | with_reducible apply Dev.only_then (Dev.stepPlace_only _ _) | with_reducible apply Dev.only_then (Dev.startRefresh_only _) | with_reducible apply Dev.only_ite | dsimp only | fail_if_no_progress with_reducible refine Dev.only_mk ?_ (by and_intros <;> first | exact Or.inr (by with_reducible rfl) | exact Or.inl (by decide)) | split | with_reducible intro _

/-! ### BootOps.lean -/

theorem Dev.afterReset_only (d : Dev) (state : DevState) : d.onlyChanges (Dev.afterReset d state) [.core, .prm, .clk, .thm, .sluice, .host, .veh, .req, .links, .cmp, .seq, .cam, .ports, .sht, .lamp, .gov, .aux, .saf, .jnl, .upd, .cal] := by
  unfold Dev.afterReset
  repeat' first | with_reducible apply Dev.only_refl | (with_reducible show Part.within _ _ = true; decide) | with_reducible apply Dev.only_ite | dsimp only | fail_if_no_progress with_reducible refine Dev.only_mk ?_ (by and_intros <;> first | exact Or.inr (by with_reducible rfl) | exact Or.inl (by decide)) | split | with_reducible intro _

theorem Dev.toReset_only (d : Dev) (cause : Nat) : d.onlyChanges (Dev.toReset d cause) [.aon, .core, .prm, .clk, .thm, .sluice, .host, .veh, .req, .links, .cmp, .seq, .cam, .ports, .sht, .lamp, .gov, .aux, .saf, .jnl, .upd, .cal] := by
  unfold Dev.toReset
  repeat' first | with_reducible apply Dev.only_refl | (with_reducible show Part.within _ _ = true; decide) | with_reducible apply Dev.only_then (Dev.afterReset_only _ _) | dsimp only | fail_if_no_progress with_reducible refine Dev.only_mk ?_ (by and_intros <;> first | exact Or.inr (by with_reducible rfl) | exact Or.inl (by decide)) | split | with_reducible intro _

theorem Dev.resetN_only (d : Dev) : d.onlyChanges (Dev.resetN d) [.aon, .core, .prm, .clk, .thm, .sluice, .host, .veh, .req, .links, .cmp, .seq, .cam, .ports, .sht, .lamp, .gov, .aux, .saf, .jnl, .upd, .cal] := by
  unfold Dev.resetN
  repeat' first | with_reducible apply Dev.only_refl | (with_reducible show Part.within _ _ = true; decide) | with_reducible apply Dev.only_then (Dev.toReset_only _ _) | with_reducible apply Dev.only_ite | dsimp only | fail_if_no_progress with_reducible refine Dev.only_mk ?_ (by and_intros <;> first | exact Or.inr (by with_reducible rfl) | exact Or.inl (by decide)) | split | with_reducible intro _

theorem Dev.supplies_only (d : Dev) (inRange : List Bool) : d.onlyChanges (Dev.supplies d inRange) [.aon, .core, .prm, .clk, .thm, .sluice, .host, .veh, .req, .links, .cmp, .seq, .cam, .ports, .sht, .lamp, .gov, .aux, .saf, .jnl, .upd, .cal, .jtag] := by
  unfold Dev.supplies
  repeat' first | with_reducible apply Dev.only_refl | (with_reducible show Part.within _ _ = true; decide) | with_reducible apply Dev.only_then (Dev.toReset_only _ _) | with_reducible apply Dev.only_ite | dsimp only | fail_if_no_progress with_reducible refine Dev.only_mk ?_ (by and_intros <;> first | exact Or.inr (by with_reducible rfl) | exact Or.inl (by decide)) | split | with_reducible intro _

theorem Dev.enterBoot_only (d : Dev) : d.onlyChanges (Dev.enterBoot d) [.core, .prm, .clk, .seq, .sht, .free] := by
  unfold Dev.enterBoot
  repeat' first | with_reducible apply Dev.only_refl | (with_reducible show Part.within _ _ = true; decide) | with_reducible apply Dev.only_then (Dev.modPll_only _ _ _) | with_reducible apply Dev.only_then (Dev.bootShutter_only _) | dsimp only | fail_if_no_progress with_reducible refine Dev.only_mk ?_ (by and_intros <;> first | exact Or.inr (by with_reducible rfl) | exact Or.inl (by decide)) | split | with_reducible intro _

theorem Dev.bootAnnounced_only (d : Dev) : d.onlyChanges (Dev.bootAnnounced d) [.core, .prm, .sluice, .host, .links, .seq, .ports, .lamp, .gov, .saf, .jnl] := by
  unfold Dev.bootAnnounced
  repeat' first | with_reducible apply Dev.only_refl | (with_reducible show Part.within _ _ = true; decide) | with_reducible apply Dev.only_then (Dev.setIrq_only _ _) | with_reducible apply Dev.only_then (Dev.post_only _ _ _) | with_reducible apply Dev.only_then (Dev.sendStat_only _) | with_reducible apply Dev.only_then (Dev.raise_only _ _ _ _) | with_reducible apply Dev.only_ite | dsimp only | fail_if_no_progress with_reducible refine Dev.only_mk ?_ (by and_intros <;> first | exact Or.inr (by with_reducible rfl) | exact Or.inl (by decide)) | split | with_reducible intro _

theorem Dev.resetReleased_only (d : Dev) : d.onlyChanges (Dev.resetReleased d) [.aon, .core, .prm, .clk, .thm, .sluice, .host, .veh, .req, .links, .cmp, .seq, .cam, .ports, .sht, .lamp, .gov, .aux, .saf, .jnl, .upd, .cal, .jtag, .free] := by
  unfold Dev.resetReleased
  repeat' first | with_reducible apply Dev.only_refl | (with_reducible show Part.within _ _ = true; decide) | with_reducible apply Dev.only_then (Dev.resetN_only _) | with_reducible apply Dev.only_then (Dev.supplies_only _ _) | with_reducible apply Dev.only_then (Dev.enterBoot_only _) | with_reducible apply Dev.only_ite | dsimp only | fail_if_no_progress with_reducible refine Dev.only_mk ?_ (by and_intros <;> first | exact Or.inr (by with_reducible rfl) | exact Or.inl (by decide)) | split | with_reducible intro _

theorem Dev.fullBoot_only (d : Dev) (cause : Nat) : d.onlyChanges (Dev.fullBoot d cause) [.aon, .core, .prm, .clk, .thm, .sluice, .host, .veh, .req, .links, .cmp, .seq, .cam, .ports, .sht, .lamp, .gov, .aux, .saf, .jnl, .upd, .cal, .free] := by
  unfold Dev.fullBoot
  repeat' first | with_reducible apply Dev.only_refl | (with_reducible show Part.within _ _ = true; decide) | with_reducible apply Dev.only_then (Dev.afterReset_only _ _) | with_reducible apply Dev.only_then (Dev.enterBoot_only _) | dsimp only | fail_if_no_progress with_reducible refine Dev.only_mk ?_ (by and_intros <;> first | exact Or.inr (by with_reducible rfl) | exact Or.inl (by decide)) | split | with_reducible intro _

theorem Dev.bootFailed_only (d : Dev) : d.onlyChanges (Dev.bootFailed d) [.core, .prm, .sluice, .host, .links, .seq, .ports, .lamp, .gov, .saf, .jnl, .cal] := by
  unfold Dev.bootFailed
  repeat' first | with_reducible apply Dev.only_refl | (with_reducible show Part.within _ _ = true; decide) | with_reducible apply Dev.only_then (Dev.release_only _ _) | with_reducible apply Dev.only_then (Dev.setState_only _ _ _) | with_reducible apply Dev.only_then (Dev.endRun_only _) | with_reducible apply Dev.only_then (Dev.bootAnnounced_only _) | dsimp only | fail_if_no_progress with_reducible refine Dev.only_mk ?_ (by and_intros <;> first | exact Or.inr (by with_reducible rfl) | exact Or.inl (by decide)) | split | with_reducible intro _

theorem Dev.setCheck_only (d : Dev) (img check : Nat) : d.onlyChanges (Dev.setCheck d img check) [.core] := by
  unfold Dev.setCheck
  repeat' first | with_reducible apply Dev.only_refl | (with_reducible show Part.within _ _ = true; decide) | dsimp only | fail_if_no_progress with_reducible refine Dev.only_mk ?_ (by and_intros <;> first | exact Or.inr (by with_reducible rfl) | exact Or.inl (by decide)) | split | with_reducible intro _

theorem Dev.selectImage_only (d : Dev) : d.onlyChanges (Dev.selectImage d) [.core, .prm, .sluice, .host, .links, .lamp, .nor, .upd] := by
  unfold Dev.selectImage
  repeat' first | with_reducible apply Dev.only_refl | (with_reducible show Part.within _ _ = true; decide) | with_reducible apply Dev.only_then (Dev.writeDir_only _ _) | with_reducible apply Dev.only_ite | dsimp only | fail_if_no_progress with_reducible refine Dev.only_mk ?_ (by and_intros <;> first | exact Or.inr (by with_reducible rfl) | exact Or.inl (by decide)) | split | with_reducible intro _

theorem Dev.loadMirror_only (d : Dev) : d.onlyChanges (Dev.loadMirror d) [.prm, .gov, .saf, .cal] := by
  unfold Dev.loadMirror
  repeat' first | with_reducible apply Dev.only_refl | (with_reducible show Part.within _ _ = true; decide) | dsimp only | fail_if_no_progress with_reducible refine Dev.only_mk ?_ (by and_intros <;> first | exact Or.inr (by with_reducible rfl) | exact Or.inl (by decide)) | split | with_reducible intro _

theorem Dev.millerStarts_only (d : Dev) : d.onlyChanges (Dev.millerStarts d) [.prm, .sluice, .host, .links, .seq, .ports, .lamp, .gov, .saf, .jnl, .cal] := by
  unfold Dev.millerStarts
  repeat' first | with_reducible apply Dev.only_refl | (with_reducible show Part.within _ _ = true; decide) | with_reducible apply Dev.only_foldl | with_reducible apply Dev.only_foldl_fst | with_reducible apply Dev.only_then (Dev.request_only _ _) | with_reducible apply Dev.only_then (Dev.powerUp_only _ _) | with_reducible apply Dev.only_then (Dev.startupRun_only _) | with_reducible apply Dev.only_then (Dev.loadMirror_only _) | dsimp only | fail_if_no_progress with_reducible refine Dev.only_mk ?_ (by and_intros <;> first | exact Or.inr (by with_reducible rfl) | exact Or.inl (by decide)) | split | with_reducible intro _

theorem Dev.bootImage_only (d : Dev) (img svn fwVersion : Nat) : d.onlyChanges (Dev.bootImage d img svn fwVersion) [.core, .prm, .sluice, .host, .links, .seq, .ports, .lamp, .gov, .saf, .jnl, .nor, .upd, .cal] := by
  unfold Dev.bootImage
  repeat' first | with_reducible apply Dev.only_refl | (with_reducible show Part.within _ _ = true; decide) | with_reducible apply Dev.only_then (Dev.post_only _ _ _) | with_reducible apply Dev.only_then (Dev.writeDir_only _ _) | with_reducible apply Dev.only_then (Dev.millerStarts_only _) | with_reducible apply Dev.only_ite | dsimp only | fail_if_no_progress with_reducible refine Dev.only_mk ?_ (by and_intros <;> first | exact Or.inr (by with_reducible rfl) | exact Or.inl (by decide)) | split | with_reducible intro _

theorem Dev.imageRead_only (d : Dev) (img check svn fwVersion : Nat) : d.onlyChanges (Dev.imageRead d img check svn fwVersion) [.core, .prm, .sluice, .host, .links, .seq, .ports, .lamp, .gov, .saf, .jnl, .nor, .upd, .cal] := by
  unfold Dev.imageRead
  repeat' first | with_reducible apply Dev.only_refl | (with_reducible show Part.within _ _ = true; decide) | with_reducible apply Dev.only_then (Dev.bootFailed_only _) | with_reducible apply Dev.only_then (Dev.setCheck_only _ _ _) | with_reducible apply Dev.only_then (Dev.selectImage_only _) | with_reducible apply Dev.only_then (Dev.bootImage_only _ _ _ _) | with_reducible apply Dev.only_ite | dsimp only | fail_if_no_progress with_reducible refine Dev.only_mk ?_ (by and_intros <;> first | exact Or.inr (by with_reducible rfl) | exact Or.inl (by decide)) | split | with_reducible intro _

theorem Dev.confirmImage_only (d : Dev) : d.onlyChanges (Dev.confirmImage d) [.aon, .core, .prm, .sluice, .host, .links, .lamp, .nor, .upd] := by
  unfold Dev.confirmImage
  repeat' first | with_reducible apply Dev.only_refl | (with_reducible show Part.within _ _ = true; decide) | with_reducible apply Dev.only_then (Dev.post_only _ _ _) | with_reducible apply Dev.only_then (Dev.writeDir_only _ _) | with_reducible apply Dev.only_ite | dsimp only | fail_if_no_progress with_reducible refine Dev.only_mk ?_ (by and_intros <;> first | exact Or.inr (by with_reducible rfl) | exact Or.inl (by decide)) | split | with_reducible intro _

theorem Dev.firstMode_only (d : Dev) : d.onlyChanges (Dev.firstMode d) [.core, .prm, .clk, .sluice, .host, .req, .links, .cmp, .seq, .cam, .ports, .lamp, .saf, .upd] := by
  unfold Dev.firstMode
  repeat' first | with_reducible apply Dev.only_refl | (with_reducible show Part.within _ _ = true; decide) | with_reducible apply Dev.only_then (Dev.takeMode_only _ _ _) | with_reducible apply Dev.only_then (Dev.moveSideR_only _ _) | dsimp only | fail_if_no_progress with_reducible refine Dev.only_mk ?_ (by and_intros <;> first | exact Or.inr (by with_reducible rfl) | exact Or.inl (by decide)) | split | with_reducible intro _

theorem Dev.noteReplaced_only (d : Dev) : d.onlyChanges (Dev.noteReplaced d) [.prm, .host, .links] := by
  unfold Dev.noteReplaced
  repeat' first | with_reducible apply Dev.only_refl | (with_reducible show Part.within _ _ = true; decide) | with_reducible apply Dev.only_then (Dev.post_only _ _ _) | with_reducible apply Dev.only_ite | dsimp only | fail_if_no_progress with_reducible refine Dev.only_mk ?_ (by and_intros <;> first | exact Or.inr (by with_reducible rfl) | exact Or.inl (by decide)) | split | with_reducible intro _

theorem Dev.bootDone_only (d : Dev) : d.onlyChanges (Dev.bootDone d) [.aon, .core, .prm, .clk, .sluice, .host, .req, .links, .cmp, .seq, .cam, .ports, .lamp, .gov, .saf, .jnl, .nor, .upd, .cal] := by
  unfold Dev.bootDone
  repeat' first | with_reducible apply Dev.only_refl | (with_reducible show Part.within _ _ = true; decide) | with_reducible apply Dev.only_foldl | with_reducible apply Dev.only_foldl_fst | with_reducible apply Dev.only_then (Dev.release_only _ _) | with_reducible apply Dev.only_then (Dev.setState_only _ _ _) | with_reducible apply Dev.only_then (Dev.enableSlots_only _) | with_reducible apply Dev.only_then (Dev.endStartup_only _) | with_reducible apply Dev.only_then (Dev.reformMasks_only _) | with_reducible apply Dev.only_then (Dev.loadResident_only _ _) | with_reducible apply Dev.only_then (Dev.settle_only _) | with_reducible apply Dev.only_then (Dev.standbyEntered_only _) | with_reducible apply Dev.only_then (Dev.openJournal_only _) | with_reducible apply Dev.only_then (Dev.bootAnnounced_only _) | with_reducible apply Dev.only_then (Dev.confirmImage_only _) | with_reducible apply Dev.only_then (Dev.firstMode_only _) | with_reducible apply Dev.only_then (Dev.noteReplaced_only _) | with_reducible apply Dev.only_ite | dsimp only | fail_if_no_progress with_reducible refine Dev.only_mk ?_ (by and_intros <;> first | exact Or.inr (by with_reducible rfl) | exact Or.inl (by decide)) | split | with_reducible intro _

theorem Dev.bootComplete_only (d : Dev) (pass : Bool) : d.onlyChanges (Dev.bootComplete d pass) [.aon, .core, .prm, .clk, .sluice, .host, .req, .links, .cmp, .seq, .cam, .ports, .lamp, .gov, .saf, .jnl, .nor, .upd, .cal] := by
  unfold Dev.bootComplete
  repeat' first | with_reducible apply Dev.only_refl | (with_reducible show Part.within _ _ = true; decide) | with_reducible apply Dev.only_then (Dev.bootFailed_only _) | with_reducible apply Dev.only_then (Dev.bootDone_only _) | with_reducible apply Dev.only_ite | dsimp only | fail_if_no_progress with_reducible refine Dev.only_mk ?_ (by and_intros <;> first | exact Or.inr (by with_reducible rfl) | exact Or.inl (by decide)) | split | with_reducible intro _

theorem Dev.bootPllLate_only (d : Dev) (p : Nat) : d.onlyChanges (Dev.bootPllLate d p) [.core, .prm, .sluice, .host, .links, .seq, .ports, .lamp, .gov, .saf, .jnl, .cal] := by
  unfold Dev.bootPllLate
  repeat' first | with_reducible apply Dev.only_refl | (with_reducible show Part.within _ _ = true; decide) | with_reducible apply Dev.only_then (Dev.bootFailed_only _) | with_reducible apply Dev.only_ite | dsimp only | fail_if_no_progress with_reducible refine Dev.only_mk ?_ (by and_intros <;> first | exact Or.inr (by with_reducible rfl) | exact Or.inl (by decide)) | split | with_reducible intro _

theorem Dev.enableLink_only (d : Dev) (l : LinkId) : d.onlyChanges (Dev.enableLink d l) [.prm, .sluice, .host, .links, .cmp, .seq, .ports, .lamp, .gov, .saf, .jnl, .free] := by
  unfold Dev.enableLink
  repeat' first | with_reducible apply Dev.only_refl | (with_reducible show Part.within _ _ = true; decide) | with_reducible apply Dev.only_then (Dev.modLink_only _ _ _) | with_reducible apply Dev.only_then (Dev.toDetect_only _ _) | with_reducible apply Dev.only_ite | dsimp only | fail_if_no_progress with_reducible refine Dev.only_mk ?_ (by and_intros <;> first | exact Or.inr (by with_reducible rfl) | exact Or.inl (by decide)) | split | with_reducible intro _

theorem Dev.safeComplete_only (d : Dev) : d.onlyChanges (Dev.safeComplete d) [.core, .prm, .clk, .sluice, .host, .req, .links, .cmp, .seq, .cam, .ports, .lamp, .gov, .aux, .saf, .jnl, .upd, .cal] := by
  unfold Dev.safeComplete
  repeat' first | with_reducible apply Dev.only_refl | (with_reducible show Part.within _ _ = true; decide) | with_reducible apply Dev.only_then (Dev.startWanted_only _) | with_reducible apply Dev.only_then (Dev.dropLost_only _) | with_reducible apply Dev.only_then (Dev.calAdvance_only _) | with_reducible apply Dev.only_then (Dev.goTo_only _ _ _) | with_reducible apply Dev.only_then (Dev.enterSafeState_only _ _) | with_reducible apply Dev.only_then (Dev.leaveSafe_only _) | with_reducible apply Dev.only_ite | dsimp only | fail_if_no_progress with_reducible refine Dev.only_mk ?_ (by and_intros <;> first | exact Or.inr (by with_reducible rfl) | exact Or.inl (by decide)) | split | with_reducible intro _

theorem Dev.dropCommands_only (d : Dev) : d.onlyChanges (Dev.dropCommands d) [.host] := by
  unfold Dev.dropCommands
  repeat' first | with_reducible apply Dev.only_refl | (with_reducible show Part.within _ _ = true; decide) | dsimp only | fail_if_no_progress with_reducible refine Dev.only_mk ?_ (by and_intros <;> first | exact Or.inr (by with_reducible rfl) | exact Or.inl (by decide)) | split | with_reducible intro _

theorem Dev.stopAll_only (d : Dev) : d.onlyChanges (Dev.stopAll d) [.core, .prm, .sluice, .host, .links, .cmp, .seq, .ports, .sht, .lamp, .gov, .aux, .saf, .cal, .free] := by
  unfold Dev.stopAll
  repeat' first | with_reducible apply Dev.only_refl | (with_reducible show Part.within _ _ = true; decide) | with_reducible apply Dev.only_foldl | with_reducible apply Dev.only_foldl_fst | with_reducible apply Dev.only_then (Dev.modLside_only _ _ _) | with_reducible apply Dev.only_then (Dev.darkSide_only _ _) | with_reducible apply Dev.only_then (Dev.stopBoost_only _ _) | with_reducible apply Dev.only_then (Dev.zeroWords_only _ _) | with_reducible apply Dev.only_then (Dev.portHoldup_only _ _) | with_reducible apply Dev.only_then (Dev.dropPass_only _ _) | with_reducible apply Dev.only_then (Dev.slotsOff_only _) | with_reducible apply Dev.only_then (Dev.segStop_only _) | with_reducible apply Dev.only_then (Dev.toL2_only _ _) | with_reducible apply Dev.only_then (Dev.endRun_only _) | with_reducible apply Dev.only_then (Dev.abandonRaster_only _) | with_reducible apply Dev.only_ite | dsimp only | fail_if_no_progress with_reducible refine Dev.only_mk ?_ (by and_intros <;> first | exact Or.inr (by with_reducible rfl) | exact Or.inl (by decide)) | split | with_reducible intro _

theorem Dev.overrideBeam_only (d : Dev) : d.onlyChanges (Dev.overrideBeam d) [.prm, .host, .links] := by
  unfold Dev.overrideBeam
  repeat' first | with_reducible apply Dev.only_refl | (with_reducible show Part.within _ _ = true; decide) | with_reducible apply Dev.only_foldl | with_reducible apply Dev.only_foldl_fst | with_reducible apply Dev.only_then (Dev.finishWith_only _ _ _ _) | dsimp only | fail_if_no_progress with_reducible refine Dev.only_mk ?_ (by and_intros <;> first | exact Or.inr (by with_reducible rfl) | exact Or.inl (by decide)) | split | with_reducible intro _

theorem Dev.powerFail_only (d : Dev) : d.onlyChanges (Dev.powerFail d) [.aon, .core, .prm, .sluice, .host, .links, .cmp, .seq, .ports, .sht, .lamp, .gov, .aux, .saf, .jnl, .upd, .cal, .free] := by
  unfold Dev.powerFail
  repeat' first | with_reducible apply Dev.only_refl | (with_reducible show Part.within _ _ = true; decide) | with_reducible apply Dev.only_then (Dev.voidTickets_only _) | with_reducible apply Dev.only_then (Dev.goTo_only _ _ _) | with_reducible apply Dev.only_then (Dev.closeJournal_only _ _) | with_reducible apply Dev.only_then (Dev.dropCommands_only _) | with_reducible apply Dev.only_then (Dev.stopAll_only _) | with_reducible apply Dev.only_then (Dev.overrideBeam_only _) | with_reducible apply Dev.only_ite | dsimp only | fail_if_no_progress with_reducible refine Dev.only_mk ?_ (by and_intros <;> first | exact Or.inr (by with_reducible rfl) | exact Or.inl (by decide)) | split | with_reducible intro _

theorem Dev.holdupExit_only (d : Dev) : d.onlyChanges (Dev.holdupExit d) [.aon, .core, .prm, .clk, .thm, .sluice, .host, .veh, .req, .links, .cmp, .seq, .cam, .ports, .sht, .lamp, .gov, .aux, .saf, .jnl, .upd, .cal, .free] := by
  unfold Dev.holdupExit
  repeat' first | with_reducible apply Dev.only_refl | (with_reducible show Part.within _ _ = true; decide) | with_reducible apply Dev.only_then (Dev.fullBoot_only _ _) | with_reducible apply Dev.only_ite | dsimp only | fail_if_no_progress with_reducible refine Dev.only_mk ?_ (by and_intros <;> first | exact Or.inr (by with_reducible rfl) | exact Or.inl (by decide)) | split | with_reducible intro _

theorem Dev.thermalShutdown_only (d : Dev) (t : Int) : d.onlyChanges (Dev.thermalShutdown d t) [.aon, .core, .prm, .clk, .thm, .sluice, .host, .veh, .req, .links, .cmp, .seq, .cam, .ports, .sht, .lamp, .gov, .aux, .saf, .jnl, .upd, .cal] := by
  unfold Dev.thermalShutdown
  repeat' first | with_reducible apply Dev.only_refl | (with_reducible show Part.within _ _ = true; decide) | with_reducible apply Dev.only_then (Dev.afterReset_only _ _) | with_reducible apply Dev.only_ite | dsimp only | fail_if_no_progress with_reducible refine Dev.only_mk ?_ (by and_intros <;> first | exact Or.inr (by with_reducible rfl) | exact Or.inl (by decide)) | split | with_reducible intro _

theorem Dev.thermalExit_only (d : Dev) : d.onlyChanges (Dev.thermalExit d) [.aon, .core, .prm, .clk, .thm, .sluice, .host, .veh, .req, .links, .cmp, .seq, .cam, .ports, .sht, .lamp, .gov, .aux, .saf, .jnl, .upd, .cal, .free] := by
  unfold Dev.thermalExit
  repeat' first | with_reducible apply Dev.only_refl | (with_reducible show Part.within _ _ = true; decide) | with_reducible apply Dev.only_then (Dev.fullBoot_only _ _) | with_reducible apply Dev.only_ite | dsimp only | fail_if_no_progress with_reducible refine Dev.only_mk ?_ (by and_intros <;> first | exact Or.inr (by with_reducible rfl) | exact Or.inl (by decide)) | split | with_reducible intro _

theorem Dev.watchdog_only (d : Dev) : d.onlyChanges (Dev.watchdog d) [.prm, .sluice, .host, .links, .seq, .ports, .lamp, .gov, .saf, .jnl] := by
  unfold Dev.watchdog
  repeat' first | with_reducible apply Dev.only_refl | (with_reducible show Part.within _ _ = true; decide) | with_reducible apply Dev.only_then (Dev.raise_only _ _ _ _) | with_reducible apply Dev.only_ite | dsimp only | fail_if_no_progress with_reducible refine Dev.only_mk ?_ (by and_intros <;> first | exact Or.inr (by with_reducible rfl) | exact Or.inl (by decide)) | split | with_reducible intro _

theorem Dev.fwRestart_only (d : Dev) : d.onlyChanges (Dev.fwRestart d) [.aon, .core, .prm, .clk, .thm, .sluice, .host, .veh, .req, .links, .cmp, .seq, .cam, .ports, .sht, .lamp, .gov, .aux, .saf, .jnl, .upd, .cal] := by
  unfold Dev.fwRestart
  repeat' first | with_reducible apply Dev.only_refl | (with_reducible show Part.within _ _ = true; decide) | with_reducible apply Dev.only_then (Dev.toReset_only _ _) | with_reducible apply Dev.only_ite | dsimp only | fail_if_no_progress with_reducible refine Dev.only_mk ?_ (by and_intros <;> first | exact Or.inr (by with_reducible rfl) | exact Or.inl (by decide)) | split | with_reducible intro _

end Sys2Proof.Machine
end

