-- ==== Sys2Proof/Laws/FrameCmds.lean ====
section
/-! SUPPORT. Frames of the operations of parameters, the mailbox and the commands. -/

namespace Sys2Proof.Machine

open Sys2Proof

/-! ### Params.lean -/

theorem Dev.mirrorPut_only (d : Dev) (id : Nat) (v : Int) : d.onlyChanges (Dev.mirrorPut d id v) [.nor] := by
  unfold Dev.mirrorPut
  repeat' first | with_reducible apply Dev.only_refl | (with_reducible show Part.within _ _ = true; decide) | dsimp only | fail_if_no_progress with_reducible refine Dev.only_mk ?_ (by and_intros <;> first | exact Or.inr (by with_reducible rfl) | exact Or.inl (by decide)) | split | with_reducible intro _

theorem Dev.mirrorPutArr_only (d : Dev) (id : Nat) (v : List Byte) : d.onlyChanges (Dev.mirrorPutArr d id v) [.nor] := by
  unfold Dev.mirrorPutArr
  repeat' first | with_reducible apply Dev.only_refl | (with_reducible show Part.within _ _ = true; decide) | dsimp only | fail_if_no_progress with_reducible refine Dev.only_mk ?_ (by and_intros <;> first | exact Or.inr (by with_reducible rfl) | exact Or.inl (by decide)) | split | with_reducible intro _

theorem Dev.afterWrite_only (d : Dev) (key i : Nat) (v : Int) : d.onlyChanges (Dev.afterWrite d key i v) [.core, .prm, .clk, .sluice, .host, .req, .links, .cmp, .seq, .cam, .ports, .lamp, .gov, .aux, .saf, .upd] := by
  unfold Dev.afterWrite
  repeat' first | with_reducible apply Dev.only_refl | (with_reducible show Part.within _ _ = true; decide) | with_reducible apply Dev.only_then (Dev.modBase_only _ _ _) | with_reducible apply Dev.only_then (Dev.mxConfigure_only _) | with_reducible apply Dev.only_then (Dev.syncBts_only _ _) | with_reducible apply Dev.only_then (Dev.askStep_only _ _) | with_reducible apply Dev.only_then (Dev.settle_only _) | with_reducible apply Dev.only_then (Dev.updateReq_only _) | with_reducible apply Dev.only_ite | dsimp only | fail_if_no_progress with_reducible refine Dev.only_mk ?_ (by and_intros <;> first | exact Or.inr (by with_reducible rfl) | exact Or.inl (by decide)) | split | with_reducible intro _

theorem Dev.writeScalar_only (d : Dev) (r : ParamRow) (id key i : Nat) (v : Int) : d.onlyChanges (Dev.writeScalar d r id key i v) [.core, .prm, .clk, .thm, .sluice, .host, .req, .links, .cmp, .seq, .cam, .ports, .lamp, .gov, .aux, .saf, .jnl, .nor, .upd] := by
  unfold Dev.writeScalar
  repeat' first | with_reducible apply Dev.only_refl | (with_reducible show Part.within _ _ = true; decide) | with_reducible apply Dev.only_then (Dev.putVal_only _ _ _) | with_reducible apply Dev.only_then (Dev.stageVal_only _ _ _) | with_reducible apply Dev.only_then (Dev.mirrorVal_only _ _) | with_reducible apply Dev.only_then (Dev.composeStart_only _) | with_reducible apply Dev.only_then (Dev.mirrorPut_only _ _ _) | with_reducible apply Dev.only_then (Dev.afterWrite_only _ _ _ _) | with_reducible apply Dev.only_ite | dsimp only | fail_if_no_progress with_reducible refine Dev.only_mk ?_ (by and_intros <;> first | exact Or.inr (by with_reducible rfl) | exact Or.inl (by decide)) | split | with_reducible intro _

theorem Dev.canIdleNow_only (d : Dev) : d.onlyChanges (Dev.canIdleNow d) [.prm, .host] := by
  unfold Dev.canIdleNow
  repeat' first | with_reducible apply Dev.only_refl | (with_reducible show Part.within _ _ = true; decide) | with_reducible apply Dev.only_foldl | with_reducible apply Dev.only_foldl_fst | with_reducible apply Dev.only_then (Dev.putVal_only _ _ _) | dsimp only | fail_if_no_progress with_reducible refine Dev.only_mk ?_ (by and_intros <;> first | exact Or.inr (by with_reducible rfl) | exact Or.inl (by decide)) | split | with_reducible intro _

theorem Dev.writeSlot_only (d : Dev) (id n : Nat) (b : List Byte) : d.onlyChanges (Dev.writeSlot d id n b).1 [.prm, .gov, .saf, .nor] := by
  unfold Dev.writeSlot
  repeat' first | with_reducible apply Dev.only_refl | (with_reducible show Part.within _ _ = true; decide) | with_reducible apply Dev.only_then (Dev.modSlot_only _ _ _) | with_reducible apply Dev.only_then (Dev.putArr_only _ _ _) | with_reducible apply Dev.only_then (Dev.mirrorArr_only _ _) | with_reducible apply Dev.only_then (Dev.actionDone_only _ _ _) | with_reducible apply Dev.only_ite | dsimp only | fail_if_no_progress with_reducible refine Dev.only_mk ?_ (by and_intros <;> first | exact Or.inr (by with_reducible rfl) | exact Or.inl (by decide)) | split | with_reducible intro _

theorem Dev.writeTarget_only (d : Dev) (id t : Nat) (b : List Byte) : d.onlyChanges (Dev.writeTarget d id t b).1 [.prm, .aux] := by
  unfold Dev.writeTarget
  repeat' first | with_reducible apply Dev.only_refl | (with_reducible show Part.within _ _ = true; decide) | with_reducible apply Dev.only_then (Dev.putArr_only _ _ _) | with_reducible apply Dev.only_then (Dev.stageArr_only _ _ _) | with_reducible apply Dev.only_then (Dev.dropStaged_only _ _) | with_reducible apply Dev.only_then (Dev.mxConfigure_only _) | with_reducible apply Dev.only_ite | dsimp only | fail_if_no_progress with_reducible refine Dev.only_mk ?_ (by and_intros <;> first | exact Or.inr (by with_reducible rfl) | exact Or.inl (by decide)) | split | with_reducible intro _

theorem Dev.writeArray_only (d : Dev) (r : ParamRow) (id off : Nat) (vs : List Byte) : d.onlyChanges (Dev.writeArray d r id off vs).1 [.prm, .lamp, .gov, .aux, .saf, .nor] := by
  unfold Dev.writeArray
  repeat' first | with_reducible apply Dev.only_refl | (with_reducible show Part.within _ _ = true; decide) | with_reducible apply Dev.only_then (Dev.putArr_only _ _ _) | with_reducible apply Dev.only_then (Dev.stageArr_only _ _ _) | with_reducible apply Dev.only_then (Dev.mirrorArr_only _ _) | with_reducible apply Dev.only_then (Dev.mirrorPutArr_only _ _ _) | with_reducible apply Dev.only_then (Dev.writeSlot_only _ _ _ _) | with_reducible apply Dev.only_then (Dev.writeTarget_only _ _ _ _) | with_reducible apply Dev.only_ite | dsimp only | fail_if_no_progress with_reducible refine Dev.only_mk ?_ (by and_intros <;> first | exact Or.inr (by with_reducible rfl) | exact Or.inl (by decide)) | split | with_reducible intro _

theorem Dev.setParamCmd_only (d : Dev) (p : Port) (payload : List Byte) : d.onlyChanges (Dev.setParamCmd d p payload).1 [.core, .prm, .clk, .thm, .sluice, .host, .req, .links, .cmp, .seq, .cam, .ports, .lamp, .gov, .aux, .saf, .jnl, .nor, .upd] := by
  unfold Dev.setParamCmd
  repeat' first | with_reducible apply Dev.only_refl | (with_reducible show Part.within _ _ = true; decide) | with_reducible apply Dev.only_then (Dev.writeScalar_only _ _ _ _ _ _) | with_reducible apply Dev.only_then (Dev.writeArray_only _ _ _ _ _) | dsimp only | fail_if_no_progress with_reducible refine Dev.only_mk ?_ (by and_intros <;> first | exact Or.inr (by with_reducible rfl) | exact Or.inl (by decide)) | split | with_reducible intro _

/-! ### Ops.lean -/

theorem Dev.freeSlot_only (d : Dev) (p : Port) (slot : Nat) : d.onlyChanges (Dev.freeSlot d p slot) [.host] := by
  unfold Dev.freeSlot
  repeat' first | with_reducible apply Dev.only_refl | (with_reducible show Part.within _ _ = true; decide) | with_reducible apply Dev.only_then (Dev.modMap_only _ _ _) | dsimp only | fail_if_no_progress with_reducible refine Dev.only_mk ?_ (by and_intros <;> first | exact Or.inr (by with_reducible rfl) | exact Or.inl (by decide)) | split | with_reducible intro _

theorem Dev.openCmd_only (d : Dev) (p : Port) (slot : Nat) (c : Cmd) : d.onlyChanges (Dev.openCmd d p slot c) [.host] := by
  unfold Dev.openCmd
  repeat' first | with_reducible apply Dev.only_refl | (with_reducible show Part.within _ _ = true; decide) | with_reducible apply Dev.only_then (Dev.modPort_only _ _ _) | dsimp only | fail_if_no_progress with_reducible refine Dev.only_mk ?_ (by and_intros <;> first | exact Or.inr (by with_reducible rfl) | exact Or.inl (by decide)) | split | with_reducible intro _

theorem Dev.accept_only (d : Dev) (p : Port) (slot : Nat) (c : Cmd) (carried : Bool) : d.onlyChanges (Dev.accept d p slot c carried) [.prm, .host, .links] := by
  unfold Dev.accept
  repeat' first | with_reducible apply Dev.only_refl | (with_reducible show Part.within _ _ = true; decide) | with_reducible apply Dev.only_then (Dev.count_only _ _ _ _) | with_reducible apply Dev.only_then (Dev.post_only _ _ _) | with_reducible apply Dev.only_then (Dev.respond_only _ _ _ _ _ _ _) | with_reducible apply Dev.only_then (Dev.finishWith_only _ _ _ _) | with_reducible apply Dev.only_then (Dev.freeSlot_only _ _ _) | with_reducible apply Dev.only_then (Dev.openCmd_only _ _ _ _) | with_reducible apply Dev.only_ite | dsimp only | fail_if_no_progress with_reducible refine Dev.only_mk ?_ (by and_intros <;> first | exact Or.inr (by with_reducible rfl) | exact Or.inl (by decide)) | split | with_reducible intro _

theorem Dev.ok_only (d : Dev) (p : Port) (tag : Nat) (payload : List Byte) : d.onlyChanges (Dev.ok d p tag payload) [.prm, .host, .links] := by
  unfold Dev.ok
  repeat' first | with_reducible apply Dev.only_refl | (with_reducible show Part.within _ _ = true; decide) | with_reducible apply Dev.only_then (Dev.finish_only _ _ _ _ _) | dsimp only | fail_if_no_progress with_reducible refine Dev.only_mk ?_ (by and_intros <;> first | exact Or.inr (by with_reducible rfl) | exact Or.inl (by decide)) | split | with_reducible intro _

theorem Dev.serve_only {l : List Part} (d : Dev) (p : Port) (op : Nat) (check : Cmd → Option Nat) (act : Cmd → Dev)
    (hl : Part.within ioParts l = true) (ha : ∀ c, d.onlyChanges (act c) l) : d.onlyChanges (d.serve p op check act) l := by
  have hf : ∀ t st, d.onlyChanges (d.finishWith p t st) l := fun t st =>
    Dev.only_then (Dev.finishWith_only d p t st) (by
      rw [Part.within, List.all_eq_true] at hl ⊢
      intro q hq; apply hl; revert q; decide) (Dev.only_refl _ _)
  unfold Dev.serve
  repeat' split
  · exact Dev.only_refl _ _
  · exact hf _ _
  · exact ha _
  · exact hf _ _

theorem Dev.serveAct_only {l : List Part} (d : Dev) (p : Port) (a : ParamAct) (act : Cmd → Nat → Nat → Dev)
    (hl : Part.within ioParts l = true) (ha : ∀ c i v, d.onlyChanges (act c i v) l) : d.onlyChanges (d.serveAct p a act) l := by
  have hf : ∀ t st, d.onlyChanges (d.finishWith p t st) l := fun t st =>
    Dev.only_then (Dev.finishWith_only d p t st) (by
      rw [Part.within, List.all_eq_true] at hl ⊢
      intro q hq; apply hl; revert q; decide) (Dev.only_refl _ _)
  unfold Dev.serveAct
  repeat' split
  · exact Dev.only_refl _ _
  · exact Dev.only_refl _ _
  · exact hf _ _
  · exact hf _ _
  · exact ha _ _ _

theorem Dev.abortOpen_only (d : Dev) (p : Port) (c : OpenCmd) : d.onlyChanges (Dev.abortOpen d p c) [.prm, .sluice, .host, .links, .seq, .ports, .lamp, .gov, .saf, .jnl, .upd, .cal] := by
  unfold Dev.abortOpen
  repeat' first | with_reducible apply Dev.only_refl | (with_reducible show Part.within _ _ = true; decide) | with_reducible apply Dev.only_then (Dev.finishWith_only _ _ _ _) | with_reducible apply Dev.only_then (Dev.release_only _ _) | with_reducible apply Dev.only_then (Dev.abortRun_only _ _ _) | with_reducible apply Dev.only_ite | dsimp only | fail_if_no_progress with_reducible refine Dev.only_mk ?_ (by and_intros <;> first | exact Or.inr (by with_reducible rfl) | exact Or.inl (by decide)) | split | with_reducible intro _

theorem Dev.abortCmd_only (d : Dev) (p : Port) (tag target : Nat) : d.onlyChanges (Dev.abortCmd d p tag target) [.prm, .sluice, .host, .links, .seq, .ports, .lamp, .gov, .saf, .jnl, .upd, .cal] := by
  unfold Dev.abortCmd
  repeat' first | with_reducible apply Dev.only_refl | (with_reducible show Part.within _ _ = true; decide) | with_reducible apply Dev.only_then (Dev.finishWith_only _ _ _ _) | with_reducible apply Dev.only_then (Dev.abortOpen_only _ _ _) | with_reducible apply Dev.only_ite | dsimp only | fail_if_no_progress with_reducible refine Dev.only_mk ?_ (by and_intros <;> first | exact Or.inr (by with_reducible rfl) | exact Or.inl (by decide)) | split | with_reducible intro _

theorem Dev.regRead_only (d : Dev) (p : RegPort) (a : Nat) : d.onlyChanges (Dev.regRead d p a) [.host, .free] := by
  unfold Dev.regRead
  repeat' first | with_reducible apply Dev.only_refl | (with_reducible show Part.within _ _ = true; decide) | with_reducible apply Dev.only_then (Dev.modMap_only _ _ _) | with_reducible apply Dev.only_then (Dev.drawn_only _) | with_reducible apply Dev.only_ite | dsimp only | fail_if_no_progress with_reducible refine Dev.only_mk ?_ (by and_intros <;> first | exact Or.inr (by with_reducible rfl) | exact Or.inl (by decide)) | split | with_reducible intro _

theorem Dev.startRead_only (d : Dev) (p : RegPort) : d.onlyChanges (Dev.startRead d p) [.host] := by
  unfold Dev.startRead
  repeat' first | with_reducible apply Dev.only_refl | (with_reducible show Part.within _ _ = true; decide) | with_reducible apply Dev.only_then (Dev.modMap_only _ _ _) | dsimp only | fail_if_no_progress with_reducible refine Dev.only_mk ?_ (by and_intros <;> first | exact Or.inr (by with_reducible rfl) | exact Or.inl (by decide)) | split | with_reducible intro _

theorem Dev.popEvent_only (d : Dev) (p : RegPort) : d.onlyChanges (Dev.popEvent d p) [.host] := by
  unfold Dev.popEvent
  repeat' first | with_reducible apply Dev.only_refl | (with_reducible show Part.within _ _ = true; decide) | with_reducible apply Dev.only_then (Dev.modPort_only _ _ _) | with_reducible apply Dev.only_ite | dsimp only | fail_if_no_progress with_reducible refine Dev.only_mk ?_ (by and_intros <;> first | exact Or.inr (by with_reducible rfl) | exact Or.inl (by decide)) | split | with_reducible intro _

theorem Dev.clearIrq_only (d : Dev) (w : BitVec 5) : d.onlyChanges (Dev.clearIrq d w) [.host] := by
  unfold Dev.clearIrq
  repeat' first | with_reducible apply Dev.only_refl | (with_reducible show Part.within _ _ = true; decide) | with_reducible apply Dev.only_then (Dev.modMap_only _ _ _) | dsimp only | fail_if_no_progress with_reducible refine Dev.only_mk ?_ (by and_intros <;> first | exact Or.inr (by with_reducible rfl) | exact Or.inl (by decide)) | split | with_reducible intro _

theorem Dev.ringSlot_only (d : Dev) (p : RegPort) (n : Nat) : d.onlyChanges (Dev.ringSlot d p n) [.prm, .host, .links] := by
  unfold Dev.ringSlot
  repeat' first | with_reducible apply Dev.only_refl | (with_reducible show Part.within _ _ = true; decide) | with_reducible apply Dev.only_then (Dev.modMap_only _ _ _) | with_reducible apply Dev.only_then (Dev.count_only _ _ _ _) | with_reducible apply Dev.only_then (Dev.setIrq_only _ _) | with_reducible apply Dev.only_then (Dev.accept_only _ _ _ _ _) | with_reducible apply Dev.only_ite | dsimp only | fail_if_no_progress with_reducible refine Dev.only_mk ?_ (by and_intros <;> first | exact Or.inr (by with_reducible rfl) | exact Or.inl (by decide)) | split | with_reducible intro _

theorem Dev.ringBell_only (d : Dev) (p : RegPort) (ring : Nat) : d.onlyChanges (Dev.ringBell d p ring) [.prm, .host, .links] := by
  unfold Dev.ringBell
  repeat' first | with_reducible apply Dev.only_refl | (with_reducible show Part.within _ _ = true; decide) | with_reducible apply Dev.only_foldl | with_reducible apply Dev.only_foldl_fst | with_reducible apply Dev.only_then (Dev.ringSlot_only _ _ _) | with_reducible apply Dev.only_ite | dsimp only | fail_if_no_progress with_reducible refine Dev.only_mk ?_ (by and_intros <;> first | exact Or.inr (by with_reducible rfl) | exact Or.inl (by decide)) | split | with_reducible intro _

theorem Dev.releaseDone_only (d : Dev) (p : RegPort) (w : Nat) : d.onlyChanges (Dev.releaseDone d p w) [.host] := by
  unfold Dev.releaseDone
  repeat' first | with_reducible apply Dev.only_refl | (with_reducible show Part.within _ _ = true; decide) | with_reducible apply Dev.only_then (Dev.modMap_only _ _ _) | with_reducible apply Dev.only_ite | dsimp only | fail_if_no_progress with_reducible refine Dev.only_mk ?_ (by and_intros <;> first | exact Or.inr (by with_reducible rfl) | exact Or.inl (by decide)) | split | with_reducible intro _

theorem Dev.writeSlotReg_only (d : Dev) (p : RegPort) (n : Nat) (f : SlotRegs → SlotRegs) : d.onlyChanges (Dev.writeSlotReg d p n f) [.host] := by
  unfold Dev.writeSlotReg
  repeat' first | with_reducible apply Dev.only_refl | (with_reducible show Part.within _ _ = true; decide) | with_reducible apply Dev.only_then (Dev.modMap_only _ _ _) | with_reducible apply Dev.only_ite | dsimp only | fail_if_no_progress with_reducible refine Dev.only_mk ?_ (by and_intros <;> first | exact Or.inr (by with_reducible rfl) | exact Or.inl (by decide)) | split | with_reducible intro _

theorem Dev.snapTrig_only (d : Dev) : d.onlyChanges (Dev.snapTrig d) [.prm, .host, .links, .saf] := by
  unfold Dev.snapTrig
  repeat' first | with_reducible apply Dev.only_refl | (with_reducible show Part.within _ _ = true; decide) | with_reducible apply Dev.only_then (Dev.snapshot_only _ _) | with_reducible apply Dev.only_ite | dsimp only | fail_if_no_progress with_reducible refine Dev.only_mk ?_ (by and_intros <;> first | exact Or.inr (by with_reducible rfl) | exact Or.inl (by decide)) | split | with_reducible intro _

theorem Dev.regWrite_only (d : Dev) (p : RegPort) (a v : Nat) : d.onlyChanges (Dev.regWrite d p a v) [.prm, .host, .links, .saf] := by
  unfold Dev.regWrite
  repeat' first | with_reducible apply Dev.only_refl | (with_reducible show Part.within _ _ = true; decide) | with_reducible apply Dev.only_then (Dev.modMap_only _ _ _) | with_reducible apply Dev.only_then (Dev.clearIrq_only _ _) | with_reducible apply Dev.only_then (Dev.ringBell_only _ _ _) | with_reducible apply Dev.only_then (Dev.releaseDone_only _ _ _) | with_reducible apply Dev.only_then (Dev.writeSlotReg_only _ _ _ _) | with_reducible apply Dev.only_then (Dev.snapTrig_only _) | with_reducible apply Dev.only_ite | dsimp only | fail_if_no_progress with_reducible refine Dev.only_mk ?_ (by and_intros <;> first | exact Or.inr (by with_reducible rfl) | exact Or.inl (by decide)) | split | with_reducible intro _

theorem Dev.spiError_only (d : Dev) (p : RegPort) : d.onlyChanges (Dev.spiError d p) [.prm, .host] := by
  unfold Dev.spiError
  repeat' first | with_reducible apply Dev.only_refl | (with_reducible show Part.within _ _ = true; decide) | with_reducible apply Dev.only_then (Dev.count_only _ _ _ _) | with_reducible apply Dev.only_then (Dev.setIrq_only _ _) | with_reducible apply Dev.only_ite | dsimp only | fail_if_no_progress with_reducible refine Dev.only_mk ?_ (by and_intros <;> first | exact Or.inr (by with_reducible rfl) | exact Or.inl (by decide)) | split | with_reducible intro _
theorem Dev.writeWords_only (p : RegPort) (n : Nat) (d : Dev) (a : Nat) (bs : List Byte) :
    d.onlyChanges (d.writeWords p n a bs) [.prm, .host, .links, .saf] := by
  induction n generalizing d a bs with
  | zero => exact Dev.only_refl _ _
  | succ n ih =>
    unfold Dev.writeWords
    split
    · exact Dev.only_refl _ _
    · exact Dev.only_then (ih _ _ _) (by decide) (Dev.only_then (Dev.regWrite_only ..) (by decide) (Dev.only_refl _ _))

theorem Dev.readWords_only (p : RegPort) (n : Nat) (d : Dev) (a : Nat) (bs : List Byte) :
    d.onlyChanges (d.readWords p n a bs) [.host, .free] := by
  induction n generalizing d a bs with
  | zero => exact Dev.only_refl _ _
  | succ n ih =>
    unfold Dev.readWords
    extract_lets d1 d2
    have h1 : d.onlyChanges d1 [.host, .free] := Dev.only_then (Dev.regRead_only ..) (by decide) (Dev.only_refl _ _)
    have h2 : d.onlyChanges d2 [.host, .free] := by
      show d.onlyChanges (if _ then d1.popEvent p else d1) _
      split
      · exact Dev.only_then (Dev.popEvent_only ..) (by decide) h1
      · exact h1
    split
    · exact Dev.only_refl _ _
    · exact Dev.only_then (ih _ _ _) (by decide) h2

theorem Dev.transaction_only (d : Dev) (p : RegPort) (bs : List Byte) : d.onlyChanges (Dev.transaction d p bs) [.prm, .host, .links, .saf, .free] := by
  unfold Dev.transaction
  repeat' first | with_reducible apply Dev.only_refl | (with_reducible show Part.within _ _ = true; decide) | with_reducible apply Dev.only_then (Dev.startRead_only _ _) | with_reducible apply Dev.only_then (Dev.spiError_only _ _) | with_reducible apply Dev.only_then (Dev.readWords_only _ _ _ _ _) | with_reducible apply Dev.only_then (Dev.writeWords_only _ _ _ _ _) | with_reducible apply Dev.only_ite | dsimp only | fail_if_no_progress with_reducible refine Dev.only_mk ?_ (by and_intros <;> first | exact Or.inr (by with_reducible rfl) | exact Or.inl (by decide)) | split | with_reducible intro _

theorem Dev.debugUpdate_only (d : Dev) (dr : Nat) : d.onlyChanges (Dev.debugUpdate d dr) [.prm, .host, .links, .saf, .free] := by
  unfold Dev.debugUpdate
  repeat' first | with_reducible apply Dev.only_refl | (with_reducible show Part.within _ _ = true; decide) | with_reducible apply Dev.only_then (Dev.regRead_only _ _ _) | with_reducible apply Dev.only_then (Dev.startRead_only _ _) | with_reducible apply Dev.only_then (Dev.regWrite_only _ _ _ _) | with_reducible apply Dev.only_ite | dsimp only | fail_if_no_progress with_reducible refine Dev.only_mk ?_ (by and_intros <;> first | exact Or.inr (by with_reducible rfl) | exact Or.inl (by decide)) | split | with_reducible intro _

/-! ### SafeOps.lean -/

theorem Dev.repower_only (d : Dev) (s : Nat) : d.onlyChanges (Dev.repower d s) [.prm, .host, .links, .ports, .saf] := by
  unfold Dev.repower
  repeat' first | with_reducible apply Dev.only_refl | (with_reducible show Part.within _ _ = true; decide) | with_reducible apply Dev.only_then (Dev.modMport_only _ _ _) | with_reducible apply Dev.only_then (Dev.powerUp_only _ _) | with_reducible apply Dev.only_then (Dev.powerDownNow_only _ _) | dsimp only | fail_if_no_progress with_reducible refine Dev.only_mk ?_ (by and_intros <;> first | exact Or.inr (by with_reducible rfl) | exact Or.inl (by decide)) | split | with_reducible intro _

theorem Dev.recoverIfFree_only (d : Dev) (n : Nat) : d.onlyChanges (Dev.recoverIfFree d n) [.gov] := by
  unfold Dev.recoverIfFree
  repeat' first | with_reducible apply Dev.only_refl | (with_reducible show Part.within _ _ = true; decide) | with_reducible apply Dev.only_then (Dev.recoverSlot_only _ _) | with_reducible apply Dev.only_ite | dsimp only | fail_if_no_progress with_reducible refine Dev.only_mk ?_ (by and_intros <;> first | exact Or.inr (by with_reducible rfl) | exact Or.inl (by decide)) | split | with_reducible intro _

theorem Dev.recover_only (d : Dev) (code inst : Nat) : d.onlyChanges (Dev.recover d code inst) [.prm, .host, .links, .ports, .gov, .saf] := by
  unfold Dev.recover
  repeat' first | with_reducible apply Dev.only_refl | (with_reducible show Part.within _ _ = true; decide) | with_reducible apply Dev.only_then (Dev.clearFault_only _ _ _) | with_reducible apply Dev.only_then (Dev.repower_only _ _) | with_reducible apply Dev.only_then (Dev.recoverIfFree_only _ _) | with_reducible apply Dev.only_ite | dsimp only | fail_if_no_progress with_reducible refine Dev.only_mk ?_ (by and_intros <;> first | exact Or.inr (by with_reducible rfl) | exact Or.inl (by decide)) | split | with_reducible intro _

theorem Dev.afterClear_only (d : Dev) : d.onlyChanges (Dev.afterClear d) [.core, .prm, .clk, .sluice, .host, .req, .links, .cmp, .seq, .cam, .ports, .lamp, .gov, .saf, .upd] := by
  unfold Dev.afterClear
  repeat' first | with_reducible apply Dev.only_refl | (with_reducible show Part.within _ _ = true; decide) | with_reducible apply Dev.only_then (Dev.settle_only _) | with_reducible apply Dev.only_then (Dev.leaveSafe_only _) | dsimp only | fail_if_no_progress with_reducible refine Dev.only_mk ?_ (by and_intros <;> first | exact Or.inr (by with_reducible rfl) | exact Or.inl (by decide)) | split | with_reducible intro _

theorem Dev.faultClear_only (d : Dev) (p : Port) (tag v : Nat) : d.onlyChanges (Dev.faultClear d p tag v) [.core, .prm, .clk, .sluice, .host, .req, .links, .cmp, .seq, .cam, .ports, .lamp, .gov, .saf, .upd] := by
  unfold Dev.faultClear
  repeat' first | with_reducible apply Dev.only_refl | (with_reducible show Part.within _ _ = true; decide) | with_reducible apply Dev.only_foldl | with_reducible apply Dev.only_foldl_fst | with_reducible apply Dev.only_then (Dev.finishWith_only _ _ _ _) | with_reducible apply Dev.only_then (Dev.recover_only _ _ _) | with_reducible apply Dev.only_then (Dev.afterClear_only _) | dsimp only | fail_if_no_progress with_reducible refine Dev.only_mk ?_ (by and_intros <;> first | exact Or.inr (by with_reducible rfl) | exact Or.inl (by decide)) | split | with_reducible intro _

theorem Dev.autoClear_only (d : Dev) (code inst : Nat) : d.onlyChanges (Dev.autoClear d code inst) [.core, .prm, .clk, .sluice, .host, .req, .links, .cmp, .seq, .cam, .ports, .lamp, .gov, .saf, .upd] := by
  unfold Dev.autoClear
  repeat' first | with_reducible apply Dev.only_refl | (with_reducible show Part.within _ _ = true; decide) | with_reducible apply Dev.only_then (Dev.clearFault_only _ _ _) | with_reducible apply Dev.only_then (Dev.repower_only _ _) | with_reducible apply Dev.only_then (Dev.afterClear_only _) | with_reducible apply Dev.only_ite | dsimp only | fail_if_no_progress with_reducible refine Dev.only_mk ?_ (by and_intros <;> first | exact Or.inr (by with_reducible rfl) | exact Or.inl (by decide)) | split | with_reducible intro _

theorem Dev.setReaction_only (d : Dev) (v : Nat) : d.onlyChanges (Dev.setReaction d v) [.saf, .nor] := by
  unfold Dev.setReaction
  repeat' first | with_reducible apply Dev.only_refl | (with_reducible show Part.within _ _ = true; decide) | dsimp only | fail_if_no_progress with_reducible refine Dev.only_mk ?_ (by and_intros <;> first | exact Or.inr (by with_reducible rfl) | exact Or.inl (by decide)) | split | with_reducible intro _

theorem Dev.snapRelease_only (d : Dev) : d.onlyChanges (Dev.snapRelease d) [.saf] := by
  unfold Dev.snapRelease
  repeat' first | with_reducible apply Dev.only_refl | (with_reducible show Part.within _ _ = true; decide) | dsimp only | fail_if_no_progress with_reducible refine Dev.only_mk ?_ (by and_intros <;> first | exact Or.inr (by with_reducible rfl) | exact Or.inl (by decide)) | split | with_reducible intro _

/-! ### CameraCmds.lean -/

theorem Dev.modCam_only (d : Dev) (f : Cam → Cam) : d.onlyChanges (Dev.modCam d f) [.cam] := by
  unfold Dev.modCam
  repeat' first | with_reducible apply Dev.only_refl | (with_reducible show Part.within _ _ = true; decide) | dsimp only | fail_if_no_progress with_reducible refine Dev.only_mk ?_ (by and_intros <;> first | exact Or.inr (by with_reducible rfl) | exact Or.inl (by decide)) | split | with_reducible intro _

theorem Dev.camRange_only (d : Dev) : d.onlyChanges (Dev.camRange d) [.prm] := by
  unfold Dev.camRange
  repeat' first | with_reducible apply Dev.only_refl | (with_reducible show Part.within _ _ = true; decide) | with_reducible apply Dev.only_then (Dev.setPar_only _ _ _ _) | with_reducible apply Dev.only_then (Dev.count_only _ _ _ _) | dsimp only | fail_if_no_progress with_reducible refine Dev.only_mk ?_ (by and_intros <;> first | exact Or.inr (by with_reducible rfl) | exact Or.inl (by decide)) | split | with_reducible intro _

theorem Dev.camJudge_only (d : Dev) (e : Int) : d.onlyChanges (Dev.camJudge d e) [.prm, .clk, .host, .links, .cam] := by
  unfold Dev.camJudge
  repeat' first | with_reducible apply Dev.only_refl | (with_reducible show Part.within _ _ = true; decide) | with_reducible apply Dev.only_then (Dev.post_only _ _ _) | with_reducible apply Dev.only_then (Dev.modCam_only _ _) | with_reducible apply Dev.only_ite | dsimp only | fail_if_no_progress with_reducible refine Dev.only_mk ?_ (by and_intros <;> first | exact Or.inr (by with_reducible rfl) | exact Or.inl (by decide)) | split | with_reducible intro _

theorem Dev.camValid_only (d : Dev) (interval time boundary : Nat) : d.onlyChanges (Dev.camValid d interval time boundary) [.prm, .clk, .host, .links, .cam] := by
  unfold Dev.camValid
  repeat' first | with_reducible apply Dev.only_refl | (with_reducible show Part.within _ _ = true; decide) | with_reducible apply Dev.only_then (Dev.modCam_only _ _) | with_reducible apply Dev.only_then (Dev.camJudge_only _ _) | with_reducible apply Dev.only_ite | dsimp only | fail_if_no_progress with_reducible refine Dev.only_mk ?_ (by and_intros <;> first | exact Or.inr (by with_reducible rfl) | exact Or.inl (by decide)) | split | with_reducible intro _

theorem Dev.camEdge_only (d : Dev) (time boundary : Nat) : d.onlyChanges (Dev.camEdge d time boundary) [.prm, .clk, .host, .links, .cam] := by
  unfold Dev.camEdge
  repeat' first | with_reducible apply Dev.only_refl | (with_reducible show Part.within _ _ = true; decide) | with_reducible apply Dev.only_then (Dev.modCam_only _ _) | with_reducible apply Dev.only_then (Dev.camRange_only _) | with_reducible apply Dev.only_then (Dev.camValid_only _ _ _ _) | with_reducible apply Dev.only_ite | dsimp only | fail_if_no_progress with_reducible refine Dev.only_mk ?_ (by and_intros <;> first | exact Or.inr (by with_reducible rfl) | exact Or.inl (by decide)) | split | with_reducible intro _

/-! ### CanCmds.lean -/

theorem Dev.canWhole_only (d : Dev) (m : CanRx) : d.onlyChanges (Dev.canWhole d m) [.prm, .host, .links] := by
  unfold Dev.canWhole
  repeat' first | with_reducible apply Dev.only_refl | (with_reducible show Part.within _ _ = true; decide) | with_reducible apply Dev.only_then (Dev.accept_only _ _ _ _ _) | with_reducible apply Dev.only_ite | dsimp only | fail_if_no_progress with_reducible refine Dev.only_mk ?_ (by and_intros <;> first | exact Or.inr (by with_reducible rfl) | exact Or.inl (by decide)) | split | with_reducible intro _

theorem Dev.canMessage_only (d : Dev) (m : Option CanRx) : d.onlyChanges (Dev.canMessage d m) [.host] := by
  unfold Dev.canMessage
  repeat' first | with_reducible apply Dev.only_refl | (with_reducible show Part.within _ _ = true; decide) | dsimp only | fail_if_no_progress with_reducible refine Dev.only_mk ?_ (by and_intros <;> first | exact Or.inr (by with_reducible rfl) | exact Or.inl (by decide)) | split | with_reducible intro _

theorem Dev.canFrame_only (d : Dev) (data : List Byte) : d.onlyChanges (Dev.canFrame d data) [.prm, .host, .links] := by
  unfold Dev.canFrame
  repeat' first | with_reducible apply Dev.only_refl | (with_reducible show Part.within _ _ = true; decide) | with_reducible apply Dev.only_then (Dev.canIdleNow_only _) | with_reducible apply Dev.only_then (Dev.canWhole_only _ _) | with_reducible apply Dev.only_then (Dev.canMessage_only _ _) | with_reducible apply Dev.only_ite | dsimp only | fail_if_no_progress with_reducible refine Dev.only_mk ?_ (by and_intros <;> first | exact Or.inr (by with_reducible rfl) | exact Or.inl (by decide)) | split | with_reducible intro _

theorem Dev.vehBack_only (d : Dev) : d.onlyChanges (Dev.vehBack d) [.core, .prm, .clk, .sluice, .host, .req, .links, .cmp, .seq, .cam, .ports, .lamp, .gov, .saf, .upd] := by
  unfold Dev.vehBack
  repeat' first | with_reducible apply Dev.only_refl | (with_reducible show Part.within _ _ = true; decide) | with_reducible apply Dev.only_then (Dev.clearFault_only _ _ _) | with_reducible apply Dev.only_then (Dev.afterClear_only _) | with_reducible apply Dev.only_ite | dsimp only | fail_if_no_progress with_reducible refine Dev.only_mk ?_ (by and_intros <;> first | exact Or.inr (by with_reducible rfl) | exact Or.inl (by decide)) | split | with_reducible intro _

theorem Dev.vehBeam_only (d : Dev) (data : List Byte) : d.onlyChanges (Dev.vehBeam d data) [.core, .prm, .clk, .sluice, .host, .veh, .req, .links, .cmp, .seq, .cam, .ports, .lamp, .gov, .saf, .upd] := by
  unfold Dev.vehBeam
  repeat' first | with_reducible apply Dev.only_refl | (with_reducible show Part.within _ _ = true; decide) | with_reducible apply Dev.only_then (Dev.canRequest_only _ _ _) | with_reducible apply Dev.only_then (Dev.vehBack_only _) | dsimp only | fail_if_no_progress with_reducible refine Dev.only_mk ?_ (by and_intros <;> first | exact Or.inr (by with_reducible rfl) | exact Or.inl (by decide)) | split | with_reducible intro _

theorem Dev.vehMotion_only (d : Dev) (data : List Byte) : d.onlyChanges (Dev.vehMotion d data) [.core, .prm, .clk, .sluice, .host, .veh, .req, .links, .cmp, .seq, .cam, .ports, .lamp, .gov, .saf, .upd] := by
  unfold Dev.vehMotion
  repeat' first | with_reducible apply Dev.only_refl | (with_reducible show Part.within _ _ = true; decide) | with_reducible apply Dev.only_then (Dev.speedChanged_only _) | with_reducible apply Dev.only_then (Dev.vehBack_only _) | dsimp only | fail_if_no_progress with_reducible refine Dev.only_mk ?_ (by and_intros <;> first | exact Or.inr (by with_reducible rfl) | exact Or.inl (by decide)) | split | with_reducible intro _

theorem Dev.vehTime_only (d : Dev) (data : List Byte) (sof : Nat) : d.onlyChanges (Dev.vehTime d data sof) [.prm, .clk, .host, .veh, .links, .free] := by
  unfold Dev.vehTime
  repeat' first | with_reducible apply Dev.only_refl | (with_reducible show Part.within _ _ = true; decide) | with_reducible apply Dev.only_then (Dev.align_only _ _ _) | with_reducible apply Dev.only_ite | dsimp only | fail_if_no_progress with_reducible refine Dev.only_mk ?_ (by and_intros <;> first | exact Or.inr (by with_reducible rfl) | exact Or.inl (by decide)) | split | with_reducible intro _

theorem Dev.vehLost_only (d : Dev) (beam motion : Bool) : d.onlyChanges (Dev.vehLost d beam motion) [.core, .prm, .clk, .sluice, .host, .veh, .req, .links, .cmp, .seq, .cam, .ports, .lamp, .gov, .saf, .jnl, .upd] := by
  unfold Dev.vehLost
  repeat' first | with_reducible apply Dev.only_refl | (with_reducible show Part.within _ _ = true; decide) | with_reducible apply Dev.only_then (Dev.raise_only _ _ _ _) | with_reducible apply Dev.only_then (Dev.speedChanged_only _) | with_reducible apply Dev.only_then (Dev.canRequestLost_only _) | with_reducible apply Dev.only_ite | dsimp only | fail_if_no_progress with_reducible refine Dev.only_mk ?_ (by and_intros <;> first | exact Or.inr (by with_reducible rfl) | exact Or.inl (by decide)) | split | with_reducible intro _

/-! ### ComposeCmds.lean -/

theorem Dev.paceRow_only (d : Dev) (s : Side) : d.onlyChanges (Dev.paceRow d s) [.prm, .sluice, .host, .links, .cmp, .lamp] := by
  unfold Dev.paceRow
  repeat' first | with_reducible apply Dev.only_refl | (with_reducible show Part.within _ _ = true; decide) | with_reducible apply Dev.only_then (Dev.modPipe_only _ _ _) | with_reducible apply Dev.only_then (Dev.request_only _ _) | with_reducible apply Dev.only_then (Dev.release_only _ _) | with_reducible apply Dev.only_ite | dsimp only | fail_if_no_progress with_reducible refine Dev.only_mk ?_ (by and_intros <;> first | exact Or.inr (by with_reducible rfl) | exact Or.inl (by decide)) | split | with_reducible intro _

theorem Dev.dryRow_only (d : Dev) (s y n : Nat) : d.onlyChanges (Dev.dryRow d s y n) [.prm, .host, .links, .cmp] := by
  unfold Dev.dryRow
  repeat' first | with_reducible apply Dev.only_refl | (with_reducible show Part.within _ _ = true; decide) | with_reducible apply Dev.only_then (Dev.modPipe_only _ _ _) | with_reducible apply Dev.only_then (Dev.count_only _ _ _ _) | with_reducible apply Dev.only_then (Dev.post_only _ _ _) | with_reducible apply Dev.only_ite | dsimp only | fail_if_no_progress with_reducible refine Dev.only_mk ?_ (by and_intros <;> first | exact Or.inr (by with_reducible rfl) | exact Or.inl (by decide)) | split | with_reducible intro _

theorem Dev.storeRow_only (d : Dev) (s : Nat) (dry : List (Nat × Nat)) : d.onlyChanges (Dev.storeRow d s dry) [.prm, .host, .links, .cmp] := by
  unfold Dev.storeRow
  repeat' first | with_reducible apply Dev.only_refl | (with_reducible show Part.within _ _ = true; decide) | with_reducible apply Dev.only_foldl | with_reducible apply Dev.only_foldl_fst | with_reducible apply Dev.only_then (Dev.modPipe_only _ _ _) | with_reducible apply Dev.only_then (Dev.dryRow_only _ _ _ _) | dsimp only | fail_if_no_progress with_reducible refine Dev.only_mk ?_ (by and_intros <;> first | exact Or.inr (by with_reducible rfl) | exact Or.inl (by decide)) | split | with_reducible intro _

theorem Dev.loadDone_only (d : Dev) (s : Nat) (good : Bool) : d.onlyChanges (Dev.loadDone d s good) [.cmp] := by
  unfold Dev.loadDone
  repeat' first | with_reducible apply Dev.only_refl | (with_reducible show Part.within _ _ = true; decide) | with_reducible apply Dev.only_then (Dev.modBase_only _ _ _) | dsimp only | fail_if_no_progress with_reducible refine Dev.only_mk ?_ (by and_intros <;> first | exact Or.inr (by with_reducible rfl) | exact Or.inl (by decide)) | split | with_reducible intro _

/-! ### HuskCmds.lean -/

theorem Dev.husk_only {l : List Part} (d : Dev) (k : LinkId) (type : Nat) (h : RxHusk) (act : Dev → HuskHdr → Dev)
    (hl : Part.within ioParts l = true) (ha : ∀ (e : Dev) x, e.onlyChanges (act e x) l) : d.onlyChanges (d.husk k type h act) l := by
  have h1 : d.onlyChanges (d.checkHusk k h).1 l := Dev.only_then (Dev.checkHusk_only d k h) (by
      rw [Part.within, List.all_eq_true] at hl ⊢
      intro q hq; apply hl; revert q; decide) (Dev.only_refl _ _)
  have hll : Part.within l l = true := List.all_eq_true.2 fun p hp => by simpa using hp
  unfold Dev.husk
  split
  · split
    · next e => rw [e] at h1; exact h1
    · next e =>
      rw [e] at h1
      split
      · exact Dev.only_then (ha _ _) hll h1
      · exact h1
  · exact Dev.only_refl _ _

theorem Dev.vc1_only {l : List Part} (d : Dev) (k : LinkId) (x : HuskHdr) (act : Dev → Dev) (hl : Part.within ioParts l = true)
    (ha : ∀ e : Dev, e.onlyChanges (act e) l) : d.onlyChanges (d.vc1 k x act) l := by
  have h1 : d.onlyChanges (d.acceptVc1 k x.seq).1 l := Dev.only_then (Dev.acceptVc1_only d k x.seq) (by
      rw [Part.within, List.all_eq_true] at hl ⊢
      intro q hq; apply hl; revert q; decide) (Dev.only_refl _ _)
  have hll : Part.within l l = true := List.all_eq_true.2 fun p hp => by simpa using hp
  unfold Dev.vc1
  split
  · next e => rw [e] at h1; exact Dev.only_then (ha _) hll h1
  · next e => rw [e] at h1; exact h1

theorem Dev.vc2_only (d : Dev) (l : LinkId) (hd : HuskHdr) : d.onlyChanges (Dev.vc2 d l hd) [.prm, .host, .links, .seq, .sht, .free] := by
  unfold Dev.vc2
  repeat' first | with_reducible apply Dev.only_refl | (with_reducible show Part.within _ _ = true; decide) | with_reducible apply Dev.only_then (Dev.modLink_only _ _ _) | with_reducible apply Dev.only_then (Dev.count_only _ _ _ _) | with_reducible apply Dev.only_then (Dev.sendAck_only _ _ _) | with_reducible apply Dev.only_then (Dev.handList_only _ _ _) | with_reducible apply Dev.only_ite | dsimp only | fail_if_no_progress with_reducible refine Dev.only_mk ?_ (by and_intros <;> first | exact Or.inr (by with_reducible rfl) | exact Or.inl (by decide)) | split | with_reducible intro _

theorem Dev.mbxIn_only (d : Dev) (l : LinkId) (hd : HuskHdr) : d.onlyChanges (Dev.mbxIn d l hd) [.prm, .host, .links] := by
  unfold Dev.mbxIn
  repeat' first | with_reducible apply Dev.only_refl | (with_reducible show Part.within _ _ = true; decide) | with_reducible apply Dev.only_then (Dev.accept_only _ _ _ _ _) | with_reducible apply Dev.only_ite | dsimp only | fail_if_no_progress with_reducible refine Dev.only_mk ?_ (by and_intros <;> first | exact Or.inr (by with_reducible rfl) | exact Or.inl (by decide)) | split | with_reducible intro _

theorem Dev.replayTimer_only (d : Dev) (l : LinkId) : d.onlyChanges (Dev.replayTimer d l) [.prm, .sluice, .host, .links, .seq, .ports, .lamp, .gov, .saf, .jnl, .cal, .free] := by
  unfold Dev.replayTimer
  repeat' first | with_reducible apply Dev.only_refl | (with_reducible show Part.within _ _ = true; decide) | with_reducible apply Dev.only_then (Dev.modLink_only _ _ _) | with_reducible apply Dev.only_then (Dev.replayVc1_only _ _) | with_reducible apply Dev.only_then (Dev.replayLimit_only _ _) | with_reducible apply Dev.only_then (Dev.calAdvance_only _) | with_reducible apply Dev.only_ite | dsimp only | fail_if_no_progress with_reducible refine Dev.only_mk ?_ (by and_intros <;> first | exact Or.inr (by with_reducible rfl) | exact Or.inl (by decide)) | split | with_reducible intro _

/-! ### UpdateOps.lean -/

theorem Dev.setPatValid_only (d : Dev) (s i : Nat) (v : Bool) : d.onlyChanges (Dev.setPatValid d s i v) [.nor] := by
  unfold Dev.setPatValid
  repeat' first | with_reducible apply Dev.only_refl | (with_reducible show Part.within _ _ = true; decide) | with_reducible apply Dev.only_ite | dsimp only | fail_if_no_progress with_reducible refine Dev.only_mk ?_ (by and_intros <;> first | exact Or.inr (by with_reducible rfl) | exact Or.inl (by decide)) | split | with_reducible intro _

theorem Dev.patErase_only (d : Dev) (p : Port) (tag v : Nat) : d.onlyChanges (Dev.patErase d p tag v) [.prm, .sluice, .host, .links, .lamp, .nor] := by
  unfold Dev.patErase
  repeat' first | with_reducible apply Dev.only_refl | (with_reducible show Part.within _ _ = true; decide) | with_reducible apply Dev.only_then (Dev.finishWith_only _ _ _ _) | with_reducible apply Dev.only_then (Dev.waits_only _ _ _) | with_reducible apply Dev.only_then (Dev.request_only _ _) | with_reducible apply Dev.only_then (Dev.setPatValid_only _ _ _ _) | with_reducible apply Dev.only_ite | dsimp only | fail_if_no_progress with_reducible refine Dev.only_mk ?_ (by and_intros <;> first | exact Or.inr (by with_reducible rfl) | exact Or.inl (by decide)) | split | with_reducible intro _

theorem Dev.patErased_only (d : Dev) : d.onlyChanges (Dev.patErased d) [.prm, .sluice, .host, .links, .lamp, .nor] := by
  unfold Dev.patErased
  repeat' first | with_reducible apply Dev.only_refl | (with_reducible show Part.within _ _ = true; decide) | with_reducible apply Dev.only_then (Dev.finishWith_only _ _ _ _) | with_reducible apply Dev.only_then (Dev.release_only _ _) | with_reducible apply Dev.only_then (Dev.modCells_only _ _) | with_reducible apply Dev.only_then (Dev.setPatValid_only _ _ _ _) | with_reducible apply Dev.only_then (Dev.patErase_only _ _ _ _) | with_reducible apply Dev.only_ite | dsimp only | fail_if_no_progress with_reducible refine Dev.only_mk ?_ (by and_intros <;> first | exact Or.inr (by with_reducible rfl) | exact Or.inl (by decide)) | split | with_reducible intro _

theorem Dev.patProgram_only (d : Dev) (v : Nat) : d.onlyChanges (Dev.patProgram d v) [.nor, .free] := by
  unfold Dev.patProgram
  repeat' first | with_reducible apply Dev.only_refl | (with_reducible show Part.within _ _ = true; decide) | with_reducible apply Dev.only_then (Dev.norProgram_only _ _ _) | dsimp only | fail_if_no_progress with_reducible refine Dev.only_mk ?_ (by and_intros <;> first | exact Or.inr (by with_reducible rfl) | exact Or.inl (by decide)) | split | with_reducible intro _

theorem Dev.patVerify_only (d : Dev) (v : Nat) : d.onlyChanges (Dev.patVerify d v) [.nor] := by
  unfold Dev.patVerify
  repeat' first | with_reducible apply Dev.only_refl | (with_reducible show Part.within _ _ = true; decide) | with_reducible apply Dev.only_then (Dev.setPatValid_only _ _ _ _) | with_reducible apply Dev.only_ite | dsimp only | fail_if_no_progress with_reducible refine Dev.only_mk ?_ (by and_intros <;> first | exact Or.inr (by with_reducible rfl) | exact Or.inl (by decide)) | split | with_reducible intro _

theorem Dev.askBlock_only (d : Dev) (p : Port) (tag : Nat) : d.onlyChanges (Dev.askBlock d p tag) [.prm, .sluice, .host, .links, .lamp, .upd] := by
  unfold Dev.askBlock
  repeat' first | with_reducible apply Dev.only_refl | (with_reducible show Part.within _ _ = true; decide) | with_reducible apply Dev.only_then (Dev.finishWith_only _ _ _ _) | with_reducible apply Dev.only_then (Dev.request_only _ _) | with_reducible apply Dev.only_ite | dsimp only | fail_if_no_progress with_reducible refine Dev.only_mk ?_ (by and_intros <;> first | exact Or.inr (by with_reducible rfl) | exact Or.inl (by decide)) | split | with_reducible intro _

theorem Dev.fwBegin_only (d : Dev) (p : Port) (tag size : Nat) : d.onlyChanges (Dev.fwBegin d p tag size) [.prm, .sluice, .host, .links, .lamp, .nor, .upd] := by
  unfold Dev.fwBegin
  repeat' first | with_reducible apply Dev.only_refl | (with_reducible show Part.within _ _ = true; decide) | with_reducible apply Dev.only_then (Dev.finishWith_only _ _ _ _) | with_reducible apply Dev.only_then (Dev.waits_only _ _ _) | with_reducible apply Dev.only_then (Dev.writeDir_only _ _) | with_reducible apply Dev.only_then (Dev.askBlock_only _ _ _) | with_reducible apply Dev.only_ite | dsimp only | fail_if_no_progress with_reducible refine Dev.only_mk ?_ (by and_intros <;> first | exact Or.inr (by with_reducible rfl) | exact Or.inl (by decide)) | split | with_reducible intro _

theorem Dev.imageErased_only (d : Dev) : d.onlyChanges (Dev.imageErased d) [.prm, .sluice, .host, .links, .lamp, .nor, .upd] := by
  unfold Dev.imageErased
  repeat' first | with_reducible apply Dev.only_refl | (with_reducible show Part.within _ _ = true; decide) | with_reducible apply Dev.only_then (Dev.finishWith_only _ _ _ _) | with_reducible apply Dev.only_then (Dev.release_only _ _) | with_reducible apply Dev.only_then (Dev.modCells_only _ _) | with_reducible apply Dev.only_then (Dev.askBlock_only _ _ _) | with_reducible apply Dev.only_ite | dsimp only | fail_if_no_progress with_reducible refine Dev.only_mk ?_ (by and_intros <;> first | exact Or.inr (by with_reducible rfl) | exact Or.inl (by decide)) | split | with_reducible intro _

theorem Dev.integrity_only (d : Dev) (p : Port) (tag reason : Nat) : d.onlyChanges (Dev.integrity d p tag reason) [.prm, .host, .links] := by
  unfold Dev.integrity
  repeat' first | with_reducible apply Dev.only_refl | (with_reducible show Part.within _ _ = true; decide) | with_reducible apply Dev.only_then (Dev.finish_only _ _ _ _ _) | dsimp only | fail_if_no_progress with_reducible refine Dev.only_mk ?_ (by and_intros <;> first | exact Or.inr (by with_reducible rfl) | exact Or.inl (by decide)) | split | with_reducible intro _

theorem Dev.fwData_only (d : Dev) (p : Port) (tag off : Nat) (bytes : List Byte) (readsBack : Bool) : d.onlyChanges (Dev.fwData d p tag off bytes readsBack) [.prm, .host, .links, .nor, .upd, .free] := by
  unfold Dev.fwData
  repeat' first | with_reducible apply Dev.only_refl | (with_reducible show Part.within _ _ = true; decide) | with_reducible apply Dev.only_then (Dev.finishWith_only _ _ _ _) | with_reducible apply Dev.only_then (Dev.modCells_only _ _) | with_reducible apply Dev.only_then (Dev.norBad_only _ _ _) | with_reducible apply Dev.only_then (Dev.integrity_only _ _ _ _) | with_reducible apply Dev.only_ite | dsimp only | fail_if_no_progress with_reducible refine Dev.only_mk ?_ (by and_intros <;> first | exact Or.inr (by with_reducible rfl) | exact Or.inl (by decide)) | split | with_reducible intro _

theorem Dev.fwCommit_only (d : Dev) (p : Port) (tag : Nat) (restart : Bool) : d.onlyChanges (Dev.fwCommit d p tag restart) [.prm, .sluice, .host, .links, .lamp, .nor, .upd] := by
  unfold Dev.fwCommit
  repeat' first | with_reducible apply Dev.only_refl | (with_reducible show Part.within _ _ = true; decide) | with_reducible apply Dev.only_then (Dev.finishWith_only _ _ _ _) | with_reducible apply Dev.only_then (Dev.writeDir_only _ _) | with_reducible apply Dev.only_then (Dev.integrity_only _ _ _ _) | with_reducible apply Dev.only_ite | dsimp only | fail_if_no_progress with_reducible refine Dev.only_mk ?_ (by and_intros <;> first | exact Or.inr (by with_reducible rfl) | exact Or.inl (by decide)) | split | with_reducible intro _

theorem Dev.ticketDone_only (d : Dev) (h : Holder) : d.onlyChanges (Dev.ticketDone d h) [.prm, .sluice, .host, .links, .seq, .ports, .lamp, .gov, .saf, .jnl, .nor, .upd, .cal] := by
  unfold Dev.ticketDone
  repeat' first | with_reducible apply Dev.only_refl | (with_reducible show Part.within _ _ = true; decide) | with_reducible apply Dev.only_then (Dev.release_only _ _) | with_reducible apply Dev.only_then (Dev.calSetsWritten_only _) | with_reducible apply Dev.only_then (Dev.calTicket_only _) | with_reducible apply Dev.only_then (Dev.dirErased_only _) | with_reducible apply Dev.only_then (Dev.patErased_only _) | with_reducible apply Dev.only_ite | dsimp only | fail_if_no_progress with_reducible refine Dev.only_mk ?_ (by and_intros <;> first | exact Or.inr (by with_reducible rfl) | exact Or.inl (by decide)) | split | with_reducible intro _

theorem Dev.deniedLate_only (d : Dev) (h : Holder) : d.onlyChanges (Dev.deniedLate d h) [.prm, .sluice, .host, .links, .seq, .ports, .lamp, .gov, .saf, .jnl, .upd, .cal] := by
  unfold Dev.deniedLate
  repeat' first | with_reducible apply Dev.only_refl | (with_reducible show Part.within _ _ = true; decide) | with_reducible apply Dev.only_foldl | with_reducible apply Dev.only_foldl_fst | with_reducible apply Dev.only_then (Dev.finishWith_only _ _ _ _) | with_reducible apply Dev.only_then (Dev.calTicket_only _) | with_reducible apply Dev.only_then (Dev.failSeals_only _ _) | with_reducible apply Dev.only_ite | dsimp only | fail_if_no_progress with_reducible refine Dev.only_mk ?_ (by and_intros <;> first | exact Or.inr (by with_reducible rfl) | exact Or.inl (by decide)) | split | with_reducible intro _

theorem Dev.queueTimeout_only (d : Dev) (h : Holder) : d.onlyChanges (Dev.queueTimeout d h) [.prm, .sluice, .host, .links, .seq, .ports, .lamp, .gov, .saf, .jnl, .upd, .cal] := by
  unfold Dev.queueTimeout
  repeat' first | with_reducible apply Dev.only_refl | (with_reducible show Part.within _ _ = true; decide) | with_reducible apply Dev.only_then (Dev.deny_only _ _ _) | with_reducible apply Dev.only_then (Dev.deniedLate_only _ _) | with_reducible apply Dev.only_ite | dsimp only | fail_if_no_progress with_reducible refine Dev.only_mk ?_ (by and_intros <;> first | exact Or.inr (by with_reducible rfl) | exact Or.inl (by decide)) | split | with_reducible intro _

theorem Dev.ticketOverrun_only (d : Dev) (h : Holder) : d.onlyChanges (Dev.ticketOverrun d h) [.prm, .host, .links] := by
  unfold Dev.ticketOverrun
  repeat' first | with_reducible apply Dev.only_refl | (with_reducible show Part.within _ _ = true; decide) | with_reducible apply Dev.only_then (Dev.count_only _ _ _ _) | with_reducible apply Dev.only_then (Dev.post_only _ _ _) | with_reducible apply Dev.only_ite | dsimp only | fail_if_no_progress with_reducible refine Dev.only_mk ?_ (by and_intros <;> first | exact Or.inr (by with_reducible rfl) | exact Or.inl (by decide)) | split | with_reducible intro _

theorem Dev.ticketAsk_only (d : Dev) (h : Holder) : d.onlyChanges (Dev.ticketAsk d h) [.prm, .sluice, .host, .links, .seq, .ports, .lamp, .gov, .saf, .jnl, .upd, .cal] := by
  unfold Dev.ticketAsk
  repeat' first | with_reducible apply Dev.only_refl | (with_reducible show Part.within _ _ = true; decide) | with_reducible apply Dev.only_then (Dev.request_only _ _) | with_reducible apply Dev.only_then (Dev.calTicket_only _) | with_reducible apply Dev.only_then (Dev.deniedLate_only _ _) | with_reducible apply Dev.only_ite | dsimp only | fail_if_no_progress with_reducible refine Dev.only_mk ?_ (by and_intros <;> first | exact Or.inr (by with_reducible rfl) | exact Or.inl (by decide)) | split | with_reducible intro _

/-! ### IntegrityCmds.lean -/

theorem Dev.reloaded_only (d : Dev) (mode : Nat) : d.onlyChanges (Dev.reloaded d mode) [.core, .prm, .clk, .sluice, .host, .req, .links, .cmp, .seq, .cam, .ports, .lamp, .gov, .saf, .upd] := by
  unfold Dev.reloaded
  repeat' first | with_reducible apply Dev.only_refl | (with_reducible show Part.within _ _ = true; decide) | with_reducible apply Dev.only_then (Dev.post_only _ _ _) | with_reducible apply Dev.only_then (Dev.clearFault_only _ _ _) | with_reducible apply Dev.only_then (Dev.afterClear_only _) | dsimp only | fail_if_no_progress with_reducible refine Dev.only_mk ?_ (by and_intros <;> first | exact Or.inr (by with_reducible rfl) | exact Or.inl (by decide)) | split | with_reducible intro _

/-! ### LinkCmds.lean -/

theorem Dev.askEye_only (d : Dev) (l : LinkId) : d.onlyChanges (Dev.askEye d l) [.prm, .sluice, .host, .links, .lamp] := by
  unfold Dev.askEye
  repeat' first | with_reducible apply Dev.only_refl | (with_reducible show Part.within _ _ = true; decide) | with_reducible apply Dev.only_then (Dev.modLink_only _ _ _) | with_reducible apply Dev.only_then (Dev.request_only _ _) | with_reducible apply Dev.only_then (Dev.toEye_only _ _) | with_reducible apply Dev.only_ite | dsimp only | fail_if_no_progress with_reducible refine Dev.only_mk ?_ (by and_intros <;> first | exact Or.inr (by with_reducible rfl) | exact Or.inl (by decide)) | split | with_reducible intro _

theorem Dev.lockDone_only (d : Dev) (l : LinkId) : d.onlyChanges (Dev.lockDone d l) [.prm, .sluice, .host, .links, .lamp] := by
  unfold Dev.lockDone
  repeat' first | with_reducible apply Dev.only_refl | (with_reducible show Part.within _ _ = true; decide) | with_reducible apply Dev.only_then (Dev.toEye_only _ _) | with_reducible apply Dev.only_then (Dev.toTrain_only _ _ _) | with_reducible apply Dev.only_then (Dev.askEye_only _ _) | with_reducible apply Dev.only_ite | dsimp only | fail_if_no_progress with_reducible refine Dev.only_mk ?_ (by and_intros <;> first | exact Or.inr (by with_reducible rfl) | exact Or.inl (by decide)) | split | with_reducible intro _

theorem Dev.eyeDone_only (d : Dev) (l : LinkId) (pam : List PamEyes) : d.onlyChanges (Dev.eyeDone d l pam) [.prm, .sluice, .host, .links, .seq, .ports, .lamp, .gov, .saf, .jnl, .free] := by
  unfold Dev.eyeDone
  repeat' first | with_reducible apply Dev.only_refl | (with_reducible show Part.within _ _ = true; decide) | with_reducible apply Dev.only_then (Dev.adaptReceivers_only _ _) | with_reducible apply Dev.only_then (Dev.recordEyes_only _ _ _) | with_reducible apply Dev.only_then (Dev.dropFailing_only _ _ _ _) | with_reducible apply Dev.only_then (Dev.attemptFailed_only _ _) | with_reducible apply Dev.only_then (Dev.toTrain_only _ _ _) | with_reducible apply Dev.only_ite | dsimp only | fail_if_no_progress with_reducible refine Dev.only_mk ?_ (by and_intros <;> first | exact Or.inr (by with_reducible rfl) | exact Or.inl (by decide)) | split | with_reducible intro _

theorem Dev.ts1In_only (d : Dev) (l : LinkId) (phys : Nat) (ts : TrainingSet) : d.onlyChanges (Dev.ts1In d l phys ts) [.prm, .host, .links, .free] := by
  unfold Dev.ts1In
  repeat' first | with_reducible apply Dev.only_refl | (with_reducible show Part.within _ _ = true; decide) | with_reducible apply Dev.only_then (Dev.modLink_only _ _ _) | with_reducible apply Dev.only_then (Dev.setPar_only _ _ _ _) | with_reducible apply Dev.only_then (Dev.post_only _ _ _) | with_reducible apply Dev.only_then (Dev.syncBts_only _ _) | with_reducible apply Dev.only_then (Dev.nextTap_only _ _ _ _) | with_reducible apply Dev.only_ite | dsimp only | fail_if_no_progress with_reducible refine Dev.only_mk ?_ (by and_intros <;> first | exact Or.inr (by with_reducible rfl) | exact Or.inl (by decide)) | split | with_reducible intro _

theorem Dev.tapLate_only (d : Dev) (l : LinkId) (phys : Nat) (r : TapReq) : d.onlyChanges (Dev.tapLate d l phys r) [.prm, .links] := by
  unfold Dev.tapLate
  repeat' first | with_reducible apply Dev.only_refl | (with_reducible show Part.within _ _ = true; decide) | with_reducible apply Dev.only_then (Dev.modLink_only _ _ _) | with_reducible apply Dev.only_then (Dev.count_only _ _ _ _) | with_reducible apply Dev.only_then (Dev.syncBts_only _ _) | with_reducible apply Dev.only_ite | dsimp only | fail_if_no_progress with_reducible refine Dev.only_mk ?_ (by and_intros <;> first | exact Or.inr (by with_reducible rfl) | exact Or.inl (by decide)) | split | with_reducible intro _

theorem Dev.linkTrained_only (d : Dev) (l : LinkId) (eyes : List Eye) (ts2 : List TrainingSet) : d.onlyChanges (Dev.linkTrained d l eyes ts2) [.prm, .sluice, .host, .links, .lamp, .saf, .free] := by
  unfold Dev.linkTrained
  repeat' first | with_reducible apply Dev.only_refl | (with_reducible show Part.within _ _ = true; decide) | with_reducible apply Dev.only_foldl | with_reducible apply Dev.only_foldl_fst | with_reducible apply Dev.only_then (Dev.modLink_only _ _ _) | with_reducible apply Dev.only_then (Dev.syncBts_only _ _) | with_reducible apply Dev.only_then (Dev.adaptReceivers_only _ _) | with_reducible apply Dev.only_then (Dev.recordEyes_only _ _ _) | with_reducible apply Dev.only_then (Dev.dropFailing_only _ _ _ _) | with_reducible apply Dev.only_then (Dev.toL0_only _ _) | with_reducible apply Dev.only_then (Dev.heldReplay_only _ _) | with_reducible apply Dev.only_ite | dsimp only | fail_if_no_progress with_reducible refine Dev.only_mk ?_ (by and_intros <;> first | exact Or.inr (by with_reducible rfl) | exact Or.inl (by decide)) | split | with_reducible intro _

theorem Dev.startStep_only (d : Dev) (l : LinkId) : d.onlyChanges (Dev.startStep d l) [.prm, .sluice, .host, .links, .seq, .ports, .lamp, .gov, .saf, .jnl, .cal] := by
  unfold Dev.startStep
  repeat' first | with_reducible apply Dev.only_refl | (with_reducible show Part.within _ _ = true; decide) | with_reducible apply Dev.only_then (Dev.modLink_only _ _ _) | with_reducible apply Dev.only_then (Dev.release_only _ _) | with_reducible apply Dev.only_then (Dev.toStep_only _ _ _) | with_reducible apply Dev.only_then (Dev.calAdvance_only _) | with_reducible apply Dev.only_ite | dsimp only | fail_if_no_progress with_reducible refine Dev.only_mk ?_ (by and_intros <;> first | exact Or.inr (by with_reducible rfl) | exact Or.inl (by decide)) | split | with_reducible intro _

theorem Dev.relock_only (d : Dev) (l : LinkId) : d.onlyChanges (Dev.relock d l) [.links] := by
  unfold Dev.relock
  repeat' first | with_reducible apply Dev.only_refl | (with_reducible show Part.within _ _ = true; decide) | with_reducible apply Dev.only_then (Dev.modLink_only _ _ _) | with_reducible apply Dev.only_then (Dev.syncBts_only _ _) | dsimp only | fail_if_no_progress with_reducible refine Dev.only_mk ?_ (by and_intros <;> first | exact Or.inr (by with_reducible rfl) | exact Or.inl (by decide)) | split | with_reducible intro _

theorem Dev.detectors_only (d : Dev) (l : LinkId) (phys : Nat) (los lol : Bool) : d.onlyChanges (Dev.detectors d l phys los lol) [.prm, .sluice, .host, .links, .seq, .ports, .lamp, .gov, .saf, .jnl, .cal, .free] := by
  unfold Dev.detectors
  repeat' first | with_reducible apply Dev.only_refl | (with_reducible show Part.within _ _ = true; decide) | with_reducible apply Dev.only_then (Dev.modLink_only _ _ _) | with_reducible apply Dev.only_then (Dev.count_only _ _ _ _) | with_reducible apply Dev.only_then (Dev.laneFault_only _ _ _) | with_reducible apply Dev.only_then (Dev.calAdvance_only _) | with_reducible apply Dev.only_ite | dsimp only | fail_if_no_progress with_reducible refine Dev.only_mk ?_ (by and_intros <;> first | exact Or.inr (by with_reducible rfl) | exact Or.inl (by decide)) | split | with_reducible intro _

theorem Dev.spareDsk_only (d : Dev) (l : LinkId) (ack : Nat) (valid agrees : Bool) : d.onlyChanges (Dev.spareDsk d l ack valid agrees) [.prm, .host, .links, .free] := by
  unfold Dev.spareDsk
  repeat' first | with_reducible apply Dev.only_refl | (with_reducible show Part.within _ _ = true; decide) | with_reducible apply Dev.only_then (Dev.modLink_only _ _ _) | with_reducible apply Dev.only_then (Dev.syncBts_only _ _) | with_reducible apply Dev.only_then (Dev.moveLane_only _ _ _) | with_reducible apply Dev.only_ite | dsimp only | fail_if_no_progress with_reducible refine Dev.only_mk ?_ (by and_intros <;> first | exact Or.inr (by with_reducible rfl) | exact Or.inl (by decide)) | split | with_reducible intro _

theorem Dev.dfeInL0_only (d : Dev) (l : LinkId) : d.onlyChanges (Dev.dfeInL0 d l) [.links, .free] := by
  unfold Dev.dfeInL0
  repeat' first | with_reducible apply Dev.only_refl | (with_reducible show Part.within _ _ = true; decide) | with_reducible apply Dev.only_then (Dev.adaptDfe_only _ _) | with_reducible apply Dev.only_ite | dsimp only | fail_if_no_progress with_reducible refine Dev.only_mk ?_ (by and_intros <;> first | exact Or.inr (by with_reducible rfl) | exact Or.inl (by decide)) | split | with_reducible intro _

theorem Dev.toL1_only (d : Dev) (l : LinkId) : d.onlyChanges (Dev.toL1 d l) [.prm, .sluice, .host, .links, .seq, .ports, .lamp, .gov, .saf, .jnl, .cal, .free] := by
  unfold Dev.toL1
  repeat' first | with_reducible apply Dev.only_refl | (with_reducible show Part.within _ _ = true; decide) | with_reducible apply Dev.only_then (Dev.modLink_only _ _ _) | with_reducible apply Dev.only_then (Dev.count_only _ _ _ _) | with_reducible apply Dev.only_then (Dev.postFree_only _ _) | with_reducible apply Dev.only_then (Dev.release_only _ _) | with_reducible apply Dev.only_then (Dev.syncBts_only _ _) | with_reducible apply Dev.only_then (Dev.calAdvance_only _) | with_reducible apply Dev.only_ite | dsimp only | fail_if_no_progress with_reducible refine Dev.only_mk ?_ (by and_intros <;> first | exact Or.inr (by with_reducible rfl) | exact Or.inl (by decide)) | split | with_reducible intro _

theorem Dev.fromL2_only (d : Dev) (l : LinkId) : d.onlyChanges (Dev.fromL2 d l) [.prm, .host, .links, .free] := by
  unfold Dev.fromL2
  repeat' first | with_reducible apply Dev.only_refl | (with_reducible show Part.within _ _ = true; decide) | with_reducible apply Dev.only_then (Dev.modLink_only _ _ _) | with_reducible apply Dev.only_then (Dev.leavePower_only _ _) | with_reducible apply Dev.only_then (Dev.toLock_only _ _ _ _ _) | dsimp only | fail_if_no_progress with_reducible refine Dev.only_mk ?_ (by and_intros <;> first | exact Or.inr (by with_reducible rfl) | exact Or.inl (by decide)) | split | with_reducible intro _

theorem Dev.toPam4_only (d : Dev) (l : LinkId) : d.onlyChanges (Dev.toPam4 d l) [.prm, .sluice, .host, .links, .lamp, .free] := by
  unfold Dev.toPam4
  repeat' first | with_reducible apply Dev.only_refl | (with_reducible show Part.within _ _ = true; decide) | with_reducible apply Dev.only_then (Dev.modLink_only _ _ _) | with_reducible apply Dev.only_then (Dev.pumpLink_only _ _) | with_reducible apply Dev.only_then (Dev.syncBts_only _ _) | with_reducible apply Dev.only_then (Dev.heldReplay_only _ _) | dsimp only | fail_if_no_progress with_reducible refine Dev.only_mk ?_ (by and_intros <;> first | exact Or.inr (by with_reducible rfl) | exact Or.inl (by decide)) | split | with_reducible intro _

theorem Dev.recoveryEye_only (d : Dev) (l : LinkId) (pam : List PamEyes) : d.onlyChanges (Dev.recoveryEye d l pam) [.prm, .links] := by
  unfold Dev.recoveryEye
  repeat' first | with_reducible apply Dev.only_refl | (with_reducible show Part.within _ _ = true; decide) | with_reducible apply Dev.only_then (Dev.modLink_only _ _ _) | with_reducible apply Dev.only_then (Dev.syncBts_only _ _) | with_reducible apply Dev.only_then (Dev.recordEyes_only _ _ _) | with_reducible apply Dev.only_then (Dev.dropFailing_only _ _ _ _) | dsimp only | fail_if_no_progress with_reducible refine Dev.only_mk ?_ (by and_intros <;> first | exact Or.inr (by with_reducible rfl) | exact Or.inl (by decide)) | split | with_reducible intro _

theorem Dev.retrainFailed_only (d : Dev) (l : LinkId) : d.onlyChanges (Dev.retrainFailed d l) [.prm, .sluice, .host, .links, .seq, .ports, .lamp, .gov, .saf, .jnl, .free] := by
  unfold Dev.retrainFailed
  repeat' first | with_reducible apply Dev.only_refl | (with_reducible show Part.within _ _ = true; decide) | with_reducible apply Dev.only_then (Dev.modLink_only _ _ _) | with_reducible apply Dev.only_then (Dev.toLock_only _ _ _ _ _) | with_reducible apply Dev.only_then (Dev.trainFail_only _ _) | with_reducible apply Dev.only_then (Dev.toDown_only _ _) | with_reducible apply Dev.only_then (Dev.toPam4_only _ _) | with_reducible apply Dev.only_ite | dsimp only | fail_if_no_progress with_reducible refine Dev.only_mk ?_ (by and_intros <;> first | exact Or.inr (by with_reducible rfl) | exact Or.inl (by decide)) | split | with_reducible intro _

/-! ### MailboxCmds.lean -/

theorem Dev.selectStandby_only (d : Dev) (p : Port) (tag m : Nat) : d.onlyChanges (Dev.selectStandby d p tag m) [.core, .prm, .clk, .sluice, .host, .req, .links, .cmp, .seq, .cam, .ports, .lamp, .saf, .upd] := by
  unfold Dev.selectStandby
  repeat' first | with_reducible apply Dev.only_refl | (with_reducible show Part.within _ _ = true; decide) | with_reducible apply Dev.only_then (Dev.waits_only _ _ _) | with_reducible apply Dev.only_then (Dev.moveSideR_only _ _) | with_reducible apply Dev.only_then (Dev.selectNow_only _ _ _ _) | with_reducible apply Dev.only_then (Dev.dropChange_only _) | with_reducible apply Dev.only_then (Dev.settle_only _) | with_reducible apply Dev.only_ite | dsimp only | fail_if_no_progress with_reducible refine Dev.only_mk ?_ (by and_intros <;> first | exact Or.inr (by with_reducible rfl) | exact Or.inl (by decide)) | split | with_reducible intro _

theorem Dev.selectBeam_only (d : Dev) (p : Port) (tag m : Nat) : d.onlyChanges (Dev.selectBeam d p tag m) [.prm, .host, .links, .seq] := by
  unfold Dev.selectBeam
  repeat' first | with_reducible apply Dev.only_refl | (with_reducible show Part.within _ _ = true; decide) | with_reducible apply Dev.only_then (Dev.finishWith_only _ _ _ _) | with_reducible apply Dev.only_then (Dev.waits_only _ _ _) | with_reducible apply Dev.only_then (Dev.dropChange_only _) | with_reducible apply Dev.only_ite | dsimp only | fail_if_no_progress with_reducible refine Dev.only_mk ?_ (by and_intros <;> first | exact Or.inr (by with_reducible rfl) | exact Or.inl (by decide)) | split | with_reducible intro _

theorem Dev.recordMask_only (d : Dev) (w : Word) : d.onlyChanges (Dev.recordMask d w) [.seq] := by
  unfold Dev.recordMask
  repeat' first | with_reducible apply Dev.only_refl | (with_reducible show Part.within _ _ = true; decide) | with_reducible apply Dev.only_ite | dsimp only | fail_if_no_progress with_reducible refine Dev.only_mk ?_ (by and_intros <;> first | exact Or.inr (by with_reducible rfl) | exact Or.inl (by decide)) | split | with_reducible intro _

theorem Dev.layerDeclare_only (d : Dev) (p : Port) (tag n : Nat) (c : Decl) : d.onlyChanges (Dev.layerDeclare d p tag n c) [.prm, .host, .links, .cmp] := by
  unfold Dev.layerDeclare
  repeat' first | with_reducible apply Dev.only_refl | (with_reducible show Part.within _ _ = true; decide) | with_reducible apply Dev.only_then (Dev.finishWith_only _ _ _ _) | with_reducible apply Dev.only_then (Dev.declare_only _ _ _ _ _) | with_reducible apply Dev.only_ite | dsimp only | fail_if_no_progress with_reducible refine Dev.only_mk ?_ (by and_intros <;> first | exact Or.inr (by with_reducible rfl) | exact Or.inl (by decide)) | split | with_reducible intro _

theorem Dev.commitCmd_only (d : Dev) (p : Port) (tag g : Nat) (fences : List Nat) : d.onlyChanges (Dev.commitCmd d p tag g fences) [.prm, .host, .links, .cmp] := by
  unfold Dev.commitCmd
  repeat' first | with_reducible apply Dev.only_refl | (with_reducible show Part.within _ _ = true; decide) | with_reducible apply Dev.only_then (Dev.finishWith_only _ _ _ _) | with_reducible apply Dev.only_then (Dev.waits_only _ _ _) | with_reducible apply Dev.only_then (Dev.arm_only _ _ _ _ _) | with_reducible apply Dev.only_ite | dsimp only | fail_if_no_progress with_reducible refine Dev.only_mk ?_ (by and_intros <;> first | exact Or.inr (by with_reducible rfl) | exact Or.inl (by decide)) | split | with_reducible intro _

theorem Dev.objectPart_only (d : Dev) (p : Port) (tag : Nat) (payload : List Byte) : d.onlyChanges (Dev.objectPart d p tag payload) [.prm, .host, .links, .seq, .sht, .free] := by
  unfold Dev.objectPart
  repeat' first | with_reducible apply Dev.only_refl | (with_reducible show Part.within _ _ = true; decide) | with_reducible apply Dev.only_then (Dev.finishWith_only _ _ _ _) | with_reducible apply Dev.only_then (Dev.handList_only _ _ _) | with_reducible apply Dev.only_then (Dev.ok_only _ _ _ _) | with_reducible apply Dev.only_ite | dsimp only | fail_if_no_progress with_reducible refine Dev.only_mk ?_ (by and_intros <;> first | exact Or.inr (by with_reducible rfl) | exact Or.inl (by decide)) | split | with_reducible intro _

theorem Dev.signatureDone_only (d : Dev) (side rect : Nat) : d.onlyChanges (Dev.signatureDone d side rect) [.saf] := by
  unfold Dev.signatureDone
  repeat' first | with_reducible apply Dev.only_refl | (with_reducible show Part.within _ _ = true; decide) | with_reducible apply Dev.only_then (Dev.actionDone_only _ _ _) | with_reducible apply Dev.only_ite | dsimp only | fail_if_no_progress with_reducible refine Dev.only_mk ?_ (by and_intros <;> first | exact Or.inr (by with_reducible rfl) | exact Or.inl (by decide)) | split | with_reducible intro _

/-! ### PortCmds.lean -/

theorem Dev.statusIn_only (d : Dev) (k : Nat) (status : Word) : d.onlyChanges (Dev.statusIn d k status) [.core, .prm, .clk, .sluice, .host, .req, .links, .cmp, .seq, .cam, .ports, .lamp, .gov, .saf, .jnl, .upd, .cal] := by
  unfold Dev.statusIn
  repeat' first | with_reducible apply Dev.only_refl | (with_reducible show Part.within _ _ = true; decide) | with_reducible apply Dev.only_then (Dev.modMport_only _ _ _) | with_reducible apply Dev.only_then (Dev.portParked_only _ _) | with_reducible apply Dev.only_then (Dev.calGap_only _ _) | with_reducible apply Dev.only_then (Dev.settle_only _) | with_reducible apply Dev.only_ite | dsimp only | fail_if_no_progress with_reducible refine Dev.only_mk ?_ (by and_intros <;> first | exact Or.inr (by with_reducible rfl) | exact Or.inl (by decide)) | split | with_reducible intro _

theorem Dev.dwellOver_only (d : Dev) (k : Nat) : d.onlyChanges (Dev.dwellOver d k) [.prm, .host, .links, .ports, .saf] := by
  unfold Dev.dwellOver
  repeat' first | with_reducible apply Dev.only_refl | (with_reducible show Part.within _ _ = true; decide) | with_reducible apply Dev.only_then (Dev.modMport_only _ _ _) | with_reducible apply Dev.only_then (Dev.powerUpNow_only _ _) | with_reducible apply Dev.only_ite | dsimp only | fail_if_no_progress with_reducible refine Dev.only_mk ?_ (by and_intros <;> first | exact Or.inr (by with_reducible rfl) | exact Or.inl (by decide)) | split | with_reducible intro _

theorem Dev.fltLow_only (d : Dev) (k : Nat) : d.onlyChanges (Dev.fltLow d k) [.ports] := by
  unfold Dev.fltLow
  repeat' first | with_reducible apply Dev.only_refl | (with_reducible show Part.within _ _ = true; decide) | with_reducible apply Dev.only_then (Dev.modMport_only _ _ _) | dsimp only | fail_if_no_progress with_reducible refine Dev.only_mk ?_ (by and_intros <;> first | exact Or.inr (by with_reducible rfl) | exact Or.inl (by decide)) | split | with_reducible intro _

/-! ### PowerCmds.lean -/

theorem Dev.syncScan_only (d : Dev) : d.onlyChanges (Dev.syncScan d) [.jtag] := by
  unfold Dev.syncScan
  repeat' first | with_reducible apply Dev.only_refl | (with_reducible show Part.within _ _ = true; decide) | dsimp only | fail_if_no_progress with_reducible refine Dev.only_mk ?_ (by and_intros <;> first | exact Or.inr (by with_reducible rfl) | exact Or.inl (by decide)) | split | with_reducible intro _

end Sys2Proof.Machine
end

