-- ==== Sys2Proof/Laws/Memory.lean ====
section
/-! SUPPORT. Laws of sorted key-value lists and of the NOR bytes: reads after writes, and the canonical form that every write
keeps. -/

namespace Sys2Proof.Machine

open Sys2Proof

/-! ### Sorted lists -/

theorem kvSorted_iff {α : Type} (l : List (Nat × α)) : kvSorted l = true ↔ l.Pairwise fun a b => a.1 < b.1 := by
  induction l with
  | nil => simp [kvSorted]
  | cons a l ih =>
    cases l with
    | nil => simp [kvSorted]
    | cons b l =>
      simp only [kvSorted, Bool.and_eq_true, decide_eq_true_eq, ih, List.pairwise_cons, List.mem_cons]
      constructor
      · rintro ⟨h, h1, h2⟩
        refine ⟨?_, h1, h2⟩
        rintro c (rfl | hc)
        · exact h
        · exact Nat.lt_trans h (h1 c hc)
      · rintro ⟨h, h1, h2⟩
        exact ⟨h b (Or.inl rfl), h1, h2⟩

theorem kvErase_sublist {α : Type} (l : List (Nat × α)) (k : Nat) : (kvErase l k).Sublist l := by
  induction l with
  | nil => exact List.Sublist.refl _
  | cons a l ih =>
    obtain ⟨j, v⟩ := a
    simp only [kvErase]
    split
    · exact List.sublist_cons_self _ _
    · exact ih.cons_cons _

theorem kvErase_sorted {α : Type} {l : List (Nat × α)} (k : Nat) (h : kvSorted l = true) : kvSorted (kvErase l k) = true :=
  (kvSorted_iff _).2 (((kvSorted_iff _).1 h).sublist (kvErase_sublist l k))

theorem kvSet_mem {α : Type} {l : List (Nat × α)} {k : Nat} {v : α} {c : Nat × α} (h : c ∈ kvSet l k v) : c = (k, v) ∨ c ∈ l := by
  induction l with
  | nil => simpa [kvSet] using h
  | cons a l ih =>
    obtain ⟨j, w⟩ := a
    simp only [kvSet] at h
    split at h
    · simpa using h
    · split at h
      · rcases List.mem_cons.1 h with h | h
        · exact Or.inl h
        · exact Or.inr (List.mem_cons_of_mem _ h)
      · rcases List.mem_cons.1 h with h | h
        · exact Or.inr (h ▸ List.mem_cons_self)
        · rcases ih h with h | h
          · exact Or.inl h
          · exact Or.inr (List.mem_cons_of_mem _ h)

theorem kvSet_sorted {α : Type} {l : List (Nat × α)} (k : Nat) (v : α) (h : kvSorted l = true) : kvSorted (kvSet l k v) = true := by
  rw [kvSorted_iff] at h ⊢
  induction l with
  | nil => simp [kvSet]
  | cons a l ih =>
    obtain ⟨j, w⟩ := a
    rw [List.pairwise_cons] at h
    simp only [kvSet]
    split
    · next hk =>
      refine List.pairwise_cons.2 ⟨?_, List.pairwise_cons.2 h⟩
      intro c hc
      rcases List.mem_cons.1 hc with rfl | hc
      · exact hk
      · exact Nat.lt_trans hk (h.1 c hc)
    · split
      · next hj => subst hj; exact List.pairwise_cons.2 h
      · next hk hj =>
        refine List.pairwise_cons.2 ⟨?_, ih h.2⟩
        intro c hc
        rcases kvSet_mem hc with rfl | hc
        · change j < k; omega
        · exact h.1 c hc

theorem kvGet_kvSet_self {α : Type} (l : List (Nat × α)) (k : Nat) (v : α) : kvGet (kvSet l k v) k = some v := by
  induction l with
  | nil => simp [kvSet, kvGet]
  | cons a l ih =>
    obtain ⟨j, w⟩ := a
    simp only [kvSet]
    split
    · simp [kvGet]
    · split
      · simp [kvGet]
      · next hj => simp [kvGet, hj, ih]

theorem kvGet_kvSet_ne {α : Type} (l : List (Nat × α)) {k j : Nat} (v : α) (h : j ≠ k) : kvGet (kvSet l k v) j = kvGet l j := by
  induction l with
  | nil => simp [kvSet, kvGet, Ne.symm h]
  | cons a l ih =>
    obtain ⟨i, w⟩ := a
    simp only [kvSet]
    split
    · simp [kvGet, Ne.symm h]
    · split
      · next hi => subst hi; simp [kvGet, Ne.symm h]
      · simp only [kvGet, ih]

theorem kvGet_none_of_lt {α : Type} {l : List (Nat × α)} {k : Nat} (h : ∀ c ∈ l, k < c.1) : kvGet l k = none := by
  induction l with
  | nil => rfl
  | cons a l ih =>
    obtain ⟨j, w⟩ := a
    have hj : k < j := h (j, w) List.mem_cons_self
    simp only [kvGet, Nat.ne_of_gt hj, if_false]
    exact ih fun c hc => h c (List.mem_cons_of_mem _ hc)

theorem kvGet_kvErase_self {α : Type} {l : List (Nat × α)} (k : Nat) (h : kvSorted l = true) : kvGet (kvErase l k) k = none := by
  rw [kvSorted_iff] at h
  induction l with
  | nil => rfl
  | cons a l ih =>
    obtain ⟨j, w⟩ := a
    rw [List.pairwise_cons] at h
    simp only [kvErase]
    split
    · next hj => subst hj; exact kvGet_none_of_lt h.1
    · next hj => simp only [kvGet, hj, if_false]; exact ih h.2

theorem kvGet_kvErase_ne {α : Type} (l : List (Nat × α)) {k j : Nat} (h : j ≠ k) : kvGet (kvErase l k) j = kvGet l j := by
  induction l with
  | nil => rfl
  | cons a l ih =>
    obtain ⟨i, w⟩ := a
    simp only [kvErase]
    split
    · next hi => subst hi; simp [kvGet, Ne.symm h]
    · simp only [kvGet, ih]

theorem kvPut_sorted {α : Type} [DecidableEq α] {l : List (Nat × α)} (k : Nat) (v dflt : α) (h : kvSorted l = true) :
    kvSorted (kvPut l k v dflt) = true := by
  unfold kvPut
  split
  · exact kvErase_sorted k h
  · exact kvSet_sorted k v h

/-- Reading back what was put. -/
theorem kvPut_self {α : Type} [DecidableEq α] {l : List (Nat × α)} (k : Nat) (v dflt : α) (h : kvSorted l = true) :
    (kvGet (kvPut l k v dflt) k).getD dflt = v := by
  unfold kvPut
  split
  · next hv => rw [kvGet_kvErase_self k h, hv]; rfl
  · rw [kvGet_kvSet_self]; rfl

theorem kvPut_ne {α : Type} [DecidableEq α] (l : List (Nat × α)) {k j : Nat} (v dflt : α) (h : j ≠ k) :
    kvGet (kvPut l k v dflt) j = kvGet l j := by
  unfold kvPut
  split
  · exact kvGet_kvErase_ne l h
  · exact kvGet_kvSet_ne l v h

/-! ### NOR bytes -/

theorem Memory.wf_iff (l : List Host.Cell) : Memory.wf l = true ↔ kvSorted l = true ∧ ∀ c ∈ l, c.2 ≠ Config.erasedByte := by
  simp only [Memory.wf, Bool.and_eq_true, List.all_eq_true, bne_iff_ne, ne_eq]

theorem norPut_wf {l : List Host.Cell} (a : Nat) (b : Byte) (h : Memory.wf l = true) : Memory.wf (norPut l a b) = true := by
  rw [Memory.wf_iff] at h ⊢
  refine ⟨kvPut_sorted a b _ h.1, ?_⟩
  intro c hc
  unfold norPut kvPut at hc
  split at hc
  · exact h.2 c ((kvErase_sublist l a).subset hc)
  · next hb =>
    rcases kvSet_mem hc with rfl | hc
    · exact hb
    · exact h.2 c hc

theorem norStore_wf (bs : List Byte) {l : List Host.Cell} (off : Nat) (h : Memory.wf l = true) :
    Memory.wf (norStore l off bs) = true := by
  induction bs generalizing l off with
  | nil => exact h
  | cons b bs ih => exact ih (off + 1) (norPut_wf off b h)

theorem norErase_wf {l : List Host.Cell} (off n : Nat) (h : Memory.wf l = true) : Memory.wf (norErase l off n) = true := by
  rw [Memory.wf_iff] at h ⊢
  exact ⟨(kvSorted_iff _).2 (((kvSorted_iff _).1 h.1).sublist List.filter_sublist),
    fun c hc => h.2 c (List.mem_filter.1 hc).1⟩

/-- A stored byte reads back. -/
theorem norByte_norPut_self {l : List Host.Cell} (a : Nat) (b : Byte) (h : Memory.wf l = true) : norByte (norPut l a b) a = b :=
  kvPut_self a b _ ((Memory.wf_iff l).1 h).1

/-- Storing a byte leaves every other address alone. -/
theorem norByte_norPut_ne (l : List Host.Cell) {a c : Nat} (b : Byte) (h : c ≠ a) : norByte (norPut l a b) c = norByte l c := by
  unfold norByte norPut
  rw [kvPut_ne l b _ h]

/-- Storing bytes leaves every address outside them alone. -/
theorem norByte_norStore_out (bs : List Byte) (l : List Host.Cell) {off c : Nat} (h : c < off ∨ off + bs.length ≤ c) :
    norByte (norStore l off bs) c = norByte l c := by
  induction bs generalizing l off with
  | nil => rfl
  | cons b bs ih =>
    simp only [List.length_cons] at h
    rw [norStore, ih _ (by omega), norByte_norPut_ne _ _ (by omega)]

/-- Stored bytes read back. -/
theorem norByte_norStore_in (bs : List Byte) {l : List Host.Cell} (off i : Nat) (hl : Memory.wf l = true) (h : i < bs.length) :
    norByte (norStore l off bs) (off + i) = bs[i] := by
  induction bs generalizing l off i with
  | nil => simp at h
  | cons b bs ih =>
    rw [norStore]
    cases i with
    | zero => rw [norByte_norStore_out _ _ (by omega)]; exact norByte_norPut_self off b hl
    | succ i =>
      have := ih (off + 1) i (norPut_wf off b hl) (by simpa using h)
      rw [show off + (i + 1) = off + 1 + i by omega, this]
      rfl

theorem kvGet_filter {α : Type} (l : List (Nat × α)) (P : Nat → Bool) (k : Nat) :
    kvGet (l.filter fun c => P c.1) k = if P k then kvGet l k else none := by
  induction l with
  | nil => simp [kvGet]
  | cons c l ih =>
    by_cases hp : P c.1 = true
    · rw [List.filter_cons_of_pos (p := fun c : Nat × α => P c.1) hp]
      by_cases hk : c.1 = k
      · subst hk; simp [kvGet, hp]
      · simp only [kvGet, hk, if_false] at ih ⊢; exact ih
    · rw [List.filter_cons_of_neg (p := fun c : Nat × α => P c.1) hp, ih]
      by_cases hk : c.1 = k
      · subst hk; simp [hp]
      · simp [kvGet, hk]

/-- An erased byte reads erased. -/
theorem norByte_norErase_in (l : List Host.Cell) {off n a : Nat} (h1 : off ≤ a) (h2 : a < off + n) :
    norByte (norErase l off n) a = Config.erasedByte := by
  unfold norByte norErase
  rw [kvGet_filter l fun k => decide (k < off) || decide (off + n ≤ k)]
  rw [if_neg (by simp; omega)]; rfl

/-- An erase leaves every other byte alone. -/
theorem norByte_norErase_out (l : List Host.Cell) {off n a : Nat} (h : a < off ∨ off + n ≤ a) :
    norByte (norErase l off n) a = norByte l a := by
  unfold norByte norErase
  rw [kvGet_filter l fun k => decide (k < off) || decide (off + n ≤ k), if_pos (by simp; omega)]

end Sys2Proof.Machine
end

