-- ==== Sys2Proof/Laws/InvBase.lean ====
section
/-! SUPPORT. Laws of the invariant of Safety.lean: its parts, folds, and that the shared operations (parameters, events, tickets, faults, the time base) keep it. -/

namespace Sys2Proof.Machine

open Sys2Proof

/-! ### The invariant, part by part -/

theorem inv_fold (d : Dev) :
    Sound d.nor.cells d.sluice.held d.core.activeCl d.host.ports.length d.host.spi.slots.length d.host.jtag.slots.length
      d.cmp.layers.length d.cmp.groups.length d.clk.plls.length d.lamp.chans.length d.gov.slots.length d.aux.targets.length
      d.saf.rects.fst.length d.saf.rects.snd.length d.prm.vals d.prm.arrays d.prm.staged d.prm.stagedArrays d.nor.mirror
      d.nor.mirrorArrays d.nor.journal = d.Inv := rfl

theorem inv_mk (v a co pr cl th sl ho ve re li cm sq ca po sh la go au sa jn no up cal jt fr) :
    Dev.Inv ⟨v, a, co, pr, cl, th, sl, ho, ve, re, li, cm, sq, ca, po, sh, la, go, au, sa, jn, no, up, cal, jt, fr⟩ =
      Sound no.cells sl.held co.activeCl ho.ports.length ho.spi.slots.length ho.jtag.slots.length cm.layers.length
        cm.groups.length cl.plls.length la.chans.length go.slots.length au.targets.length sa.rects.fst.length
        sa.rects.snd.length pr.vals pr.arrays pr.staged pr.stagedArrays no.mirror no.mirrorArrays no.journal := rfl

theorem ite_inv (c : Prop) [Decidable c] (a b : Dev) : (if c then a else b).Inv = if c then a.Inv else b.Inv := by
  split <;> rfl

/-! ### Folds -/

theorem foldl_inv {α : Type} {f : Dev → α → Dev} (hf : ∀ d x, d.Inv → (f d x).Inv) (l : List α) (d : Dev) (h : d.Inv) :
    (l.foldl f d).Inv := by
  induction l generalizing d with
  | nil => exact h
  | cons x xs ih => exact ih _ (hf _ _ h)

theorem foldl_fst_inv {α β : Type} {f : Dev × β → α → Dev × β} (hf : ∀ r x, r.1.Inv → (f r x).1.Inv) (l : List α) (r : Dev × β)
    (h : r.1.Inv) : (l.foldl f r).1.Inv := by
  induction l generalizing r with
  | nil => exact h
  | cons x xs ih => exact ih _ (hf _ _ h)

theorem modAt_length {α : Type} (l : List α) (i : Nat) (f : α → α) : (modAt l i f).length = l.length := by
  induction l generalizing i with
  | nil => rfl
  | cons x xs ih => cases i <;> simp [modAt, ih]

theorem foldl_modAt_length {α β : Type} (g : β → Nat) (f : β → α → α) (xs : List β) (l : List α) :
    (xs.foldl (fun l x => modAt l (g x) (f x)) l).length = l.length := by
  induction xs generalizing l with
  | nil => rfl
  | cons x xs ih => rw [List.foldl_cons, ih, modAt_length]

theorem kvFilter_sorted {α : Type} {l : List (Nat × α)} (p : Nat × α → Bool) (h : kvSorted l = true) : kvSorted (l.filter p) = true :=
  (kvSorted_iff _).2 (((kvSorted_iff _).1 h).sublist List.filter_sublist)

/-! ### Base.lean -/

theorem Sound.withVals {a0 a1 a2 a3 a4 a5 a6 a7 a8 a9 a10 a11 a12 a13 a14 a15 a16 a17 a18 a19 a20} {x : List (Nat × Int)} (h : Sound a0 a1 a2 a3 a4 a5 a6 a7 a8 a9 a10 a11 a12 a13 a14 a15 a16 a17 a18 a19 a20) (hh : kvSorted x = true) :
    Sound a0 a1 a2 a3 a4 a5 a6 a7 a8 a9 a10 a11 a12 a13 x a15 a16 a17 a18 a19 a20 := { h with vals := hh }
theorem Sound.withArrays {a0 a1 a2 a3 a4 a5 a6 a7 a8 a9 a10 a11 a12 a13 a14 a15 a16 a17 a18 a19 a20} {x : List (Nat × List Byte)} (h : Sound a0 a1 a2 a3 a4 a5 a6 a7 a8 a9 a10 a11 a12 a13 a14 a15 a16 a17 a18 a19 a20) (hh : kvSorted x = true) :
    Sound a0 a1 a2 a3 a4 a5 a6 a7 a8 a9 a10 a11 a12 a13 a14 x a16 a17 a18 a19 a20 := { h with arrays := hh }
theorem Sound.withStaged {a0 a1 a2 a3 a4 a5 a6 a7 a8 a9 a10 a11 a12 a13 a14 a15 a16 a17 a18 a19 a20} {x : List (Nat × Int)} (h : Sound a0 a1 a2 a3 a4 a5 a6 a7 a8 a9 a10 a11 a12 a13 a14 a15 a16 a17 a18 a19 a20) (hh : kvSorted x = true) :
    Sound a0 a1 a2 a3 a4 a5 a6 a7 a8 a9 a10 a11 a12 a13 a14 a15 x a17 a18 a19 a20 := { h with staged := hh }
theorem Sound.withStagedArrays {a0 a1 a2 a3 a4 a5 a6 a7 a8 a9 a10 a11 a12 a13 a14 a15 a16 a17 a18 a19 a20} {x : List (Nat × List Byte)} (h : Sound a0 a1 a2 a3 a4 a5 a6 a7 a8 a9 a10 a11 a12 a13 a14 a15 a16 a17 a18 a19 a20) (hh : kvSorted x = true) :
    Sound a0 a1 a2 a3 a4 a5 a6 a7 a8 a9 a10 a11 a12 a13 a14 a15 a16 x a18 a19 a20 := { h with stagedArrays := hh }
theorem Sound.withMirror {a0 a1 a2 a3 a4 a5 a6 a7 a8 a9 a10 a11 a12 a13 a14 a15 a16 a17 a18 a19 a20} {x : List (Nat × Int)} (h : Sound a0 a1 a2 a3 a4 a5 a6 a7 a8 a9 a10 a11 a12 a13 a14 a15 a16 a17 a18 a19 a20) (hh : kvSorted x = true) :
    Sound a0 a1 a2 a3 a4 a5 a6 a7 a8 a9 a10 a11 a12 a13 a14 a15 a16 a17 x a19 a20 := { h with mirror := hh }
theorem Sound.withMirrorArrays {a0 a1 a2 a3 a4 a5 a6 a7 a8 a9 a10 a11 a12 a13 a14 a15 a16 a17 a18 a19 a20} {x : List (Nat × List Byte)} (h : Sound a0 a1 a2 a3 a4 a5 a6 a7 a8 a9 a10 a11 a12 a13 a14 a15 a16 a17 a18 a19 a20) (hh : kvSorted x = true) :
    Sound a0 a1 a2 a3 a4 a5 a6 a7 a8 a9 a10 a11 a12 a13 a14 a15 a16 a17 a18 x a20 := { h with mirrorArrays := hh }
theorem Sound.withJournal {a0 a1 a2 a3 a4 a5 a6 a7 a8 a9 a10 a11 a12 a13 a14 a15 a16 a17 a18 a19 a20} {x : List (Nat × List Byte)} (h : Sound a0 a1 a2 a3 a4 a5 a6 a7 a8 a9 a10 a11 a12 a13 a14 a15 a16 a17 a18 a19 a20) (hh : kvSorted x = true) :
    Sound a0 a1 a2 a3 a4 a5 a6 a7 a8 a9 a10 a11 a12 a13 a14 a15 a16 a17 a18 a19 x := { h with journal := hh }

theorem Dev.modLink_inv (d : Dev) (l : LinkId) (f : Link → Link) (hI : d.Inv) : (Dev.modLink d l f).Inv := by
  simp only [Dev.modLink, inv_mk, inv_fold, hI]

theorem Dev.modPort_inv (d : Dev) (p : Port) (f : PortState → PortState) (hI : d.Inv) : (Dev.modPort d p f).Inv := by
  simp only [Dev.modPort, inv_mk, inv_fold, List.length_map, List.length_set, modAt_length, List.length_mapIdx, foldl_modAt_length, hI]

theorem Dev.modMap_inv (d : Dev) (p : RegPort) (f : RegMap → RegMap) (hf : ∀ m, (f m).slots.length = m.slots.length)
    (hI : d.Inv) : (d.modMap p f).Inv := by
  cases p <;> simp only [Dev.modMap, inv_mk, hf, inv_fold, hI]

theorem Dev.modLayer_inv (d : Dev) (n : Nat) (f : Layer → Layer) (hI : d.Inv) : (Dev.modLayer d n f).Inv := by
  simp only [Dev.modLayer, inv_mk, inv_fold, List.length_map, List.length_set, modAt_length, List.length_mapIdx, foldl_modAt_length, hI]

theorem Dev.modGroup_inv (d : Dev) (g : Nat) (f : Group → Group) (hI : d.Inv) : (Dev.modGroup d g f).Inv := by
  simp only [Dev.modGroup, inv_mk, inv_fold, List.length_map, List.length_set, modAt_length, List.length_mapIdx, foldl_modAt_length, hI]

theorem Dev.modBase_inv (d : Dev) (s : Nat) (f : Base → Base) (hI : d.Inv) : (Dev.modBase d s f).Inv := by
  simp only [Dev.modBase, inv_mk, inv_fold, hI]

theorem Dev.modPipe_inv (d : Dev) (s : Nat) (f : Pipe → Pipe) (hI : d.Inv) : (Dev.modPipe d s f).Inv := by
  simp only [Dev.modPipe, inv_mk, inv_fold, hI]

theorem Dev.modMport_inv (d : Dev) (s : Nat) (f : MPort → MPort) (hI : d.Inv) : (Dev.modMport d s f).Inv := by
  simp only [Dev.modMport, inv_mk, inv_fold, hI]

theorem Dev.modChan_inv (d : Dev) (c : Nat) (f : Chan → Chan) (hI : d.Inv) : (Dev.modChan d c f).Inv := by
  simp only [Dev.modChan, inv_mk, inv_fold, List.length_map, List.length_set, modAt_length, List.length_mapIdx, foldl_modAt_length, hI]

theorem Dev.modLside_inv (d : Dev) (s : Nat) (f : LampSide → LampSide) (hI : d.Inv) : (Dev.modLside d s f).Inv := by
  simp only [Dev.modLside, inv_mk, inv_fold, hI]

theorem Dev.modSlot_inv (d : Dev) (n : Nat) (f : Slot → Slot) (hI : d.Inv) : (Dev.modSlot d n f).Inv := by
  simp only [Dev.modSlot, inv_mk, inv_fold, List.length_map, List.length_set, modAt_length, List.length_mapIdx, foldl_modAt_length, hI]

theorem Dev.modTarget_inv (d : Dev) (n : Nat) (f : MxTarget → MxTarget) (hI : d.Inv) : (Dev.modTarget d n f).Inv := by
  simp only [Dev.modTarget, inv_mk, inv_fold, List.length_map, List.length_set, modAt_length, List.length_mapIdx, foldl_modAt_length, hI]

theorem Dev.modPll_inv (d : Dev) (p : Nat) (f : PllSt → PllSt) (hI : d.Inv) : (Dev.modPll d p f).Inv := by
  simp only [Dev.modPll, inv_mk, inv_fold, List.length_map, List.length_set, modAt_length, List.length_mapIdx, foldl_modAt_length, hI]

theorem Dev.modMask_inv (d : Dev) (s : Nat) (f : MaskBuf → MaskBuf) (hI : d.Inv) : (Dev.modMask d s f).Inv := by
  simp only [Dev.modMask, inv_mk, inv_fold, hI]

theorem Dev.setCorr_inv (d : Dev) (ch : Nat) (v : Int × Int) (hI : d.Inv) : (Dev.setCorr d ch v).Inv := by
  simp only [Dev.setCorr, inv_mk, inv_fold, List.length_map, List.length_set, modAt_length, List.length_mapIdx, foldl_modAt_length, hI]

theorem Dev.drawn_inv (d : Dev) (hI : d.Inv) : (Dev.drawn d).Inv := by
  simp only [Dev.drawn, inv_mk, inv_fold, hI]

theorem Dev.putVal_inv (d : Dev) (id : Nat) (v : Int) (hI : d.Inv) : (Dev.putVal d id v).Inv := by
  unfold Dev.putVal
  rw [inv_mk]; exact Sound.withVals hI (kvPut_sorted _ _ _ hI.vals)

theorem Dev.putArr_inv (d : Dev) (id : Nat) (v : List Byte) (hI : d.Inv) : (Dev.putArr d id v).Inv := by
  unfold Dev.putArr
  rw [inv_mk]; exact Sound.withArrays hI (kvPut_sorted _ _ _ hI.arrays)

theorem Dev.setPar_inv (d : Dev) (key inst : Nat) (v : Int) (hI : d.Inv) : (Dev.setPar d key inst v).Inv := by
  simp only [Dev.setPar, Dev.putVal_inv, inv_mk, inv_fold, hI]

theorem Dev.setArr_inv (d : Dev) (key inst : Nat) (v : List Byte) (hI : d.Inv) : (Dev.setArr d key inst v).Inv := by
  simp only [Dev.setArr, Dev.putArr_inv, inv_mk, inv_fold, hI]

theorem Dev.stageVal_inv (d : Dev) (id : Nat) (v : Int) (hI : d.Inv) : (Dev.stageVal d id v).Inv := by
  unfold Dev.stageVal
  rw [inv_mk]; exact Sound.withStaged hI (kvSet_sorted _ _ hI.staged)

theorem Dev.stageArr_inv (d : Dev) (id : Nat) (v : List Byte) (hI : d.Inv) : (Dev.stageArr d id v).Inv := by
  unfold Dev.stageArr
  rw [inv_mk]; exact Sound.withStagedArrays hI (kvSet_sorted _ _ hI.stagedArrays)

theorem Dev.dropStaged_inv (d : Dev) (id : Nat) (hI : d.Inv) : (Dev.dropStaged d id).Inv := by
  unfold Dev.dropStaged
  rw [inv_mk]; exact Sound.withStagedArrays hI (kvErase_sorted _ hI.stagedArrays)

theorem Dev.applyVal_inv (d : Dev) (id : Nat) (hI : d.Inv) : (Dev.applyVal d id).Inv := by
  unfold Dev.applyVal
  split
  · exact Dev.putVal_inv _ _ _ (by rw [inv_mk]; exact Sound.withStaged hI (kvErase_sorted _ hI.staged))
  · exact hI

theorem Dev.applyArr_inv (d : Dev) (id : Nat) (hI : d.Inv) : (Dev.applyArr d id).Inv := by
  unfold Dev.applyArr
  (repeat' split) <;> first | with_reducible exact hI | (simp (maxDischargeDepth := 30) only [Dev.putArr_inv, Dev.dropStaged_inv, inv_mk, inv_fold, hI]; done)

theorem Dev.mirrorVal_inv (d : Dev) (id : Nat) (hI : d.Inv) : (Dev.mirrorVal d id).Inv := by
  unfold Dev.mirrorVal
  rw [inv_mk]; exact Sound.withMirror hI (kvPut_sorted _ _ _ hI.mirror)

theorem Dev.mirrorArr_inv (d : Dev) (id : Nat) (hI : d.Inv) : (Dev.mirrorArr d id).Inv := by
  unfold Dev.mirrorArr
  rw [inv_mk]; exact Sound.withMirrorArrays hI (kvPut_sorted _ _ _ hI.mirrorArrays)

theorem Dev.count_inv (d : Dev) (key inst k : Nat) (hI : d.Inv) : (Dev.count d key inst k).Inv := by
  simp only [Dev.count, Dev.setPar_inv, inv_mk, inv_fold, hI]

/-! ### Events.lean -/

theorem Dev.pumpVc1_inv (d : Dev) (l : LinkId) (n : Nat) (h : d.Inv) : (d.pumpVc1 l n).Inv := by
  induction n generalizing d with
  | zero => exact h
  | succ n ih =>
    unfold Dev.pumpVc1; dsimp only
    (repeat' split) <;> first | exact h | exact ih _ (Dev.modLink_inv _ _ _ (Dev.modPort_inv _ _ _ h)) | exact ih _ (Dev.modLink_inv _ _ _ h)
theorem Dev.backLanes_inv (d : Dev) (hI : d.Inv) : (Dev.backLanes d).Inv := by
  unfold Dev.backLanes
  repeat' first | with_reducible assumption | with_reducible intro _ | with_reducible apply foldl_inv | with_reducible apply foldl_fst_inv | with_reducible apply Dev.modLink_inv | split | (with_reducible rfl) | (simp only [inv_mk, inv_fold]) | dsimp only

theorem Dev.pumpLink_inv (d : Dev) (l : LinkId) (hI : d.Inv) : (Dev.pumpLink d l).Inv := by
  simp only [Dev.pumpLink, Dev.pumpVc1_inv, inv_mk, inv_fold, hI]

theorem Dev.canSend_inv (d : Dev) (id : Nat) (msg : List Byte) (hI : d.Inv) : (Dev.canSend d id msg).Inv := by
  simp only [Dev.canSend, inv_mk, inv_fold, List.length_map, List.length_set, modAt_length, List.length_mapIdx, foldl_modAt_length, hI]

theorem Dev.flushCan_inv (d : Dev) (hI : d.Inv) : (Dev.flushCan d).Inv := by
  unfold Dev.flushCan
  repeat' first | with_reducible assumption | with_reducible intro _ | with_reducible apply foldl_inv | with_reducible apply foldl_fst_inv | with_reducible apply Dev.modPort_inv | with_reducible apply Dev.canSend_inv | split | (with_reducible rfl) | (simp only [inv_mk, inv_fold, ite_inv]) | dsimp only

theorem Dev.setIrq_inv (d : Dev) (bit : Nat) (hI : d.Inv) : (Dev.setIrq d bit).Inv := by
  simp only [Dev.setIrq, Dev.modMap_inv, inv_mk, inv_fold, List.length_map, List.length_set, modAt_length, List.length_mapIdx, foldl_modAt_length, implies_true, hI]

theorem Dev.postTo_inv (d : Dev) (p : Port) (code arg : Nat) (hI : d.Inv) : (Dev.postTo d p code arg).Inv := by
  unfold Dev.postTo
  (repeat' split) <;> first | with_reducible exact hI | (simp (maxDischargeDepth := 30) only [ite_inv, ite_self, Dev.modPort_inv, Dev.count_inv, Dev.pumpLink_inv, Dev.flushCan_inv, Dev.setIrq_inv, inv_mk, inv_fold, hI]; done)
theorem Dev.postFuel_inv (n : Nat) (d : Dev) (code arg : Nat) (h : d.Inv) : (Dev.postFuel n d code arg).Inv := by
  induction n generalizing d code arg with
  | zero => exact h
  | succ n ih =>
    unfold Dev.postFuel
    exact foldl_inv (fun d p hI => ih d _ _ hI) _ _ (foldl_inv (fun d p hI => Dev.postTo_inv d p code arg hI) _ _ h)

theorem Dev.post_inv (d : Dev) (code arg : Nat) (hI : d.Inv) : (Dev.post d code arg).Inv := by
  simp only [Dev.post, Dev.postFuel_inv, inv_mk, inv_fold, hI]

theorem Dev.postFree_inv (d : Dev) (code : Nat) (hI : d.Inv) : (Dev.postFree d code).Inv := by
  simp (maxDischargeDepth := 30) only [Dev.postFree, Dev.drawn_inv, Dev.post_inv, inv_mk, inv_fold, hI]

theorem Dev.respond_inv (d : Dev) (p : Port) (slot opcode tag status : Nat) (payload : List Byte) (hI : d.Inv) : (Dev.respond d p slot opcode tag status payload).Inv := by
  unfold Dev.respond
  (repeat' split) <;> first | with_reducible exact hI | (simp (maxDischargeDepth := 30) only [ite_inv, ite_self, Dev.modLink_inv, Dev.modMap_inv, Dev.pumpLink_inv, Dev.canSend_inv, inv_mk, inv_fold, List.length_map, List.length_set, modAt_length, List.length_mapIdx, foldl_modAt_length, implies_true, hI]; done)

theorem Dev.finish_inv (d : Dev) (p : Port) (tag status : Nat) (payload : List Byte) (hI : d.Inv) : (Dev.finish d p tag status payload).Inv := by
  unfold Dev.finish
  (repeat' split) <;> first | with_reducible exact hI | (simp (maxDischargeDepth := 30) only [ite_inv, ite_self, Dev.modPort_inv, Dev.post_inv, Dev.respond_inv, inv_mk, inv_fold, hI]; done)

theorem Dev.finishWith_inv (d : Dev) (p : Port) (tag status : Nat) (hI : d.Inv) : (Dev.finishWith d p tag status).Inv := by
  simp only [Dev.finishWith, ite_inv, ite_self, Dev.finish_inv, inv_mk, inv_fold, hI]

theorem Dev.waits_inv (d : Dev) (p : Port) (tag : Nat) (hI : d.Inv) : (Dev.waits d p tag).Inv := by
  unfold Dev.waits
  (repeat' split) <;> first | with_reducible exact hI | (simp (maxDischargeDepth := 30) only [ite_inv, ite_self, Dev.modPort_inv, Dev.respond_inv, inv_mk, inv_fold, List.length_map, List.length_set, modAt_length, List.length_mapIdx, foldl_modAt_length, hI]; done)

theorem Dev.sendStat_inv (d : Dev) (hI : d.Inv) : (Dev.sendStat d).Inv := by
  unfold Dev.sendStat
  repeat' first | with_reducible assumption | with_reducible intro _ | with_reducible apply foldl_inv | with_reducible apply foldl_fst_inv | with_reducible apply Dev.modLink_inv | split | (with_reducible rfl) | (simp only [inv_mk, inv_fold, ite_inv]) | dsimp only

/-! ### Snapshot.lean -/

theorem Dev.relatch_inv (d : Dev) (hI : d.Inv) : (Dev.relatch d).Inv := by
  simp only [Dev.relatch, ite_inv, ite_self, inv_mk, inv_fold, List.length_map, List.length_set, modAt_length, List.length_mapIdx, foldl_modAt_length, hI]

theorem Dev.snapshot_inv (d : Dev) (source : Nat) (hI : d.Inv) : (Dev.snapshot d source).Inv := by
  unfold Dev.snapshot
  repeat' first | with_reducible assumption | with_reducible intro _ | with_reducible apply Dev.setIrq_inv | with_reducible apply Dev.post_inv | split | (with_reducible rfl) | (simp only [inv_mk, inv_fold, ite_inv]) | dsimp only

/-! ### Sluice.lean -/

theorem exclusive_sublist {l m : List (Holder × Nat × Nat × Nat)} (hs : l.Sublist m) (h : exclusiveHeld m) : exclusiveHeld l :=
  fun b hb => Nat.le_trans (hs.filter _).length_le (h b hb)

theorem exclusive_add {l : List (Holder × Nat × Nat × Nat)} {o : Holder} (c m n : Nat) (h : exclusiveHeld l)
    (hf : opExclusive o = true → (l.any fun t => opBit t.1 == opBit o) = false) : exclusiveHeld (l ++ [(o, c, m, n)]) := by
  intro b hb
  rw [List.filter_append, List.length_append]
  by_cases e : opBit o = b
  · have ho : opExclusive o = true := by
      subst e; rcases hb with h1 | h1 | h1 | h1 <;> simp [opExclusive, h1]
    have h0 : l.filter (fun t => opBit t.1 == b) = [] := by
      subst e
      rw [List.filter_eq_nil_iff]
      intro t ht hc
      have := hf ho
      rw [List.any_eq_false] at this
      exact this t ht hc
    rw [h0]
    simp [e]
  · have : (opBit o == b) = false := by simpa using e
    simp only [List.filter_cons, this, List.filter_nil]
    simpa using h b hb

theorem Dev.slFits_exclusive {d : Dev} {q : SlReq} (h : d.slFits q = true) :
    opExclusive q.holder = true → (d.sluice.held.any fun t => opBit t.1 == opBit q.holder) = false := by
  intro he
  unfold Dev.slFits at h
  simp only [he, Bool.true_and, Bool.and_eq_true, Bool.not_eq_true'] at h
  exact h.2

theorem Sound.withHeld {a0 a1 a2 a3 a4 a5 a6 a7 a8 a9 a10 a11 a12 a13 a14 a15 a16 a17 a18 a19 a20} {x : List (Holder × Nat × Nat × Nat)} (h : Sound a0 a1 a2 a3 a4 a5 a6 a7 a8 a9 a10 a11 a12 a13 a14 a15 a16 a17 a18 a19 a20) (hh : exclusiveHeld x) :
    Sound a0 x a2 a3 a4 a5 a6 a7 a8 a9 a10 a11 a12 a13 a14 a15 a16 a17 a18 a19 a20 := { h with held := hh }

theorem Dev.grant_inv (d : Dev) (q : SlReq) (hI : d.Inv)
    (hf : opExclusive q.holder = true → (d.sluice.held.any fun t => opBit t.1 == opBit q.holder) = false) : (d.grant q).Inv := by
  have h1 : ({ d with sluice := { d.sluice with held := d.sluice.held ++ [(q.holder, q.core, q.lamp, d.now)] } } : Dev).Inv := by
    rw [inv_mk]; exact Sound.withHeld hI (exclusive_add _ _ _ hI.held hf)
  have h2 := Dev.count_inv _ kPwrGrants (opBit q.holder) 1 h1
  unfold Dev.grant
  dsimp only
  split
  · split
    · exact Dev.modLside_inv _ _ _ (Dev.applyVal_inv _ _ h2)
    · exact h2
  · exact Dev.count_inv _ _ _ _ h2
  · exact h2

theorem Dev.deny_inv (d : Dev) (o : Holder) (after : Bool) (hI : d.Inv) : (d.deny o after).Inv := by
  unfold Dev.deny
  exact Dev.post_inv _ _ _ (Dev.count_inv _ _ _ _ hI)

theorem Dev.request_inv (d : Dev) (o : Holder) (hI : d.Inv) : (d.request o).Inv := by
  unfold Dev.request
  dsimp only
  repeat' split
  · exact hI
  · exact Dev.deny_inv _ _ _ hI
  · next hf =>
    rw [Bool.and_eq_true] at hf
    exact Dev.grant_inv _ _ hI (Dev.slFits_exclusive hf.1)
  · rw [inv_mk]; exact hI

theorem Dev.examine_inv (n : Nat) (d : Dev) (hI : d.Inv) : (Dev.examine n d).Inv := by
  induction n generalizing d with
  | zero => exact hI
  | succ n ih =>
    unfold Dev.examine
    split
    · exact hI
    · split
      · next hf =>
        refine ih _ (Dev.grant_inv _ _ ?_ (Dev.slFits_exclusive hf))
        rw [inv_mk]; exact hI
      · exact hI

theorem Dev.release_inv (d : Dev) (o : Holder) (hI : d.Inv) : (d.release o).Inv := by
  unfold Dev.release
  split
  · apply Dev.examine_inv
    rw [inv_mk]; exact Sound.withHeld hI (exclusive_sublist List.filter_sublist hI.held)
  · rw [inv_mk]; exact hI

theorem Dev.voidTickets_inv (d : Dev) (hI : d.Inv) : d.voidTickets.Inv := by
  unfold Dev.voidTickets
  rw [inv_mk]; exact Sound.withHeld hI (fun b _ => Nat.zero_le _)

/-! ### Faults.lean -/

theorem Dev.setState_inv (d : Dev) (new : DevState) (cause : Nat) (hI : d.Inv) : (Dev.setState d new cause).Inv := by
  unfold Dev.setState
  repeat' first | with_reducible assumption | with_reducible intro _ | with_reducible apply Dev.setIrq_inv | with_reducible apply Dev.post_inv | with_reducible apply Dev.sendStat_inv | split | (with_reducible rfl) | (simp only [inv_mk, inv_fold, ite_inv]) | dsimp only

theorem Dev.modMportEv_inv (d : Dev) (s : Nat) (f : MPort → MPort) (hI : d.Inv) : (Dev.modMportEv d s f).Inv := by
  simp (maxDischargeDepth := 30) only [Dev.modMportEv, ite_inv, ite_self, Dev.modMport_inv, Dev.post_inv, inv_mk, inv_fold, hI]

theorem Dev.darkSide_inv (d : Dev) (s : Nat) (hI : d.Inv) : (Dev.darkSide d s).Inv := by
  unfold Dev.darkSide
  repeat' first | with_reducible assumption | with_reducible intro _ | with_reducible apply foldl_inv | with_reducible apply foldl_fst_inv | with_reducible apply Dev.modChan_inv | split | (with_reducible rfl) | (simp only [inv_mk, inv_fold, List.length_map, List.length_set, modAt_length, List.length_mapIdx, foldl_modAt_length]) | dsimp only

theorem Dev.stopBoost_inv (d : Dev) (s : Nat) (hI : d.Inv) : (Dev.stopBoost d s).Inv := by
  simp (maxDischargeDepth := 30) only [Dev.stopBoost, ite_inv, ite_self, Dev.modLside_inv, Dev.release_inv, inv_mk, inv_fold, hI]

theorem Dev.zeroWords_inv (d : Dev) (s : Nat) (hI : d.Inv) : (Dev.zeroWords d s).Inv := by
  simp only [Dev.zeroWords, inv_mk, inv_fold, List.length_map, List.length_set, modAt_length, List.length_mapIdx, foldl_modAt_length, hI]

theorem Dev.safeSide_inv (d : Dev) (s : Nat) (forced : Bool) (hI : d.Inv) : (Dev.safeSide d s forced).Inv := by
  simp (maxDischargeDepth := 30) only [Dev.safeSide, Dev.modLside_inv, Dev.modMportEv_inv, Dev.darkSide_inv, Dev.stopBoost_inv, Dev.zeroWords_inv, inv_mk, inv_fold, List.length_map, List.length_set, modAt_length, List.length_mapIdx, foldl_modAt_length, hI]

theorem Dev.enterSafe_inv (d : Dev) (s : Nat) (forced : Bool) (hI : d.Inv) : (Dev.enterSafe d s forced).Inv := by
  simp (maxDischargeDepth := 30) only [Dev.enterSafe, ite_inv, ite_self, Dev.modMportEv_inv, Dev.safeSide_inv, inv_mk, inv_fold, hI]

theorem Dev.pend_inv (d : Dev) (target : DevState) (cause rank : Nat) (hI : d.Inv) : (Dev.pend d target cause rank).Inv := by
  unfold Dev.pend
  (repeat' split) <;> first | with_reducible exact hI | (simp only [ite_inv, ite_self, inv_mk, inv_fold, hI]; done)

theorem Dev.safeAll_inv (d : Dev) (cause rank : Nat) (forced : Bool) (hI : d.Inv) : (Dev.safeAll d cause rank forced).Inv := by
  unfold Dev.safeAll
  repeat' first | with_reducible assumption | with_reducible intro _ | with_reducible apply foldl_inv | with_reducible apply foldl_fst_inv | with_reducible apply Dev.release_inv | with_reducible apply Dev.enterSafe_inv | with_reducible apply Dev.pend_inv | split | (with_reducible rfl) | (simp only [inv_mk, inv_fold]) | dsimp only

theorem Dev.sameTick_inv (d : Dev) (cause rank : Nat) (hI : d.Inv) : (Dev.sameTick d cause rank).Inv := by
  unfold Dev.sameTick
  (repeat' split) <;> first | with_reducible exact hI | (simp only [ite_inv, ite_self, inv_mk, inv_fold, hI]; done)

theorem Dev.reactSide_inv (d : Dev) (s cause : Nat) (forced : Bool) (hI : d.Inv) : (Dev.reactSide d s cause forced).Inv := by
  simp (maxDischargeDepth := 30) only [Dev.reactSide, ite_inv, ite_self, Dev.enterSafe_inv, Dev.pend_inv, Dev.safeAll_inv, Dev.sameTick_inv, inv_mk, inv_fold, hI]

theorem Dev.latch_inv (d : Dev) (c code : Nat) (hI : d.Inv) : (Dev.latch d c code).Inv := by
  simp only [Dev.latch, ite_inv, ite_self, Dev.modChan_inv, inv_mk, inv_fold, hI]

theorem Dev.markSide_inv (d : Dev) (code inst : Nat) (hI : d.Inv) : (Dev.markSide d code inst).Inv := by
  simp only [Dev.markSide, ite_inv, ite_self, inv_mk, inv_fold, List.length_map, List.length_set, modAt_length, List.length_mapIdx, foldl_modAt_length, hI]

theorem Dev.reactCh_inv (d : Dev) (c code : Nat) (hI : d.Inv) : (Dev.reactCh d c code).Inv := by
  simp (maxDischargeDepth := 30) only [Dev.reactCh, ite_inv, ite_self, Dev.reactSide_inv, Dev.latch_inv, Dev.markSide_inv, inv_mk, inv_fold, hI]

theorem Dev.react_inv (d : Dev) (code inst : Nat) (r : Reaction) (forced : Bool) (hI : d.Inv) : (Dev.react d code inst r forced).Inv := by
  unfold Dev.react
  repeat' first | with_reducible assumption | with_reducible intro _ | with_reducible apply foldl_inv | with_reducible apply foldl_fst_inv | with_reducible apply Dev.safeAll_inv | with_reducible apply Dev.reactSide_inv | with_reducible apply Dev.reactCh_inv | split | (with_reducible rfl) | (simp only [inv_mk, inv_fold, ite_inv]) | dsimp only

theorem Dev.listFault_inv (d : Dev) (code inst : Nat) (r : Reaction) (hI : d.Inv) : (Dev.listFault d code inst r).Inv := by
  unfold Dev.listFault
  repeat' first | with_reducible assumption | with_reducible intro _ | with_reducible apply Dev.count_inv | split | (with_reducible rfl) | (simp only [inv_mk, inv_fold, ite_inv]) | dsimp only

theorem Dev.activate_inv (d : Dev) (code inst arg : Nat) (r : Reaction) (hI : d.Inv) : (Dev.activate d code inst arg r).Inv := by
  unfold Dev.activate
  repeat' first | with_reducible assumption | with_reducible intro _ | with_reducible apply Dev.listFault_inv | split | (with_reducible rfl) | (simp only [inv_mk, inv_fold, ite_inv, List.length_map, List.length_set, modAt_length, List.length_mapIdx, foldl_modAt_length]) | dsimp only

theorem Dev.raiseWith_inv (d : Dev) (code inst arg : Nat) (portFault forced : Bool) (hI : d.Inv) : (Dev.raiseWith d code inst arg portFault forced).Inv := by
  unfold Dev.raiseWith
  repeat' first | with_reducible assumption | with_reducible intro _ | with_reducible apply Dev.setIrq_inv | with_reducible apply Dev.post_inv | with_reducible apply Dev.snapshot_inv | with_reducible apply Dev.react_inv | with_reducible apply Dev.activate_inv | split | (with_reducible rfl) | (simp only [inv_mk, inv_fold, ite_inv]) | dsimp only

theorem Dev.raise_inv (d : Dev) (code inst arg : Nat) (hI : d.Inv) : (Dev.raise d code inst arg).Inv := by
  simp only [Dev.raise, Dev.raiseWith_inv, inv_mk, inv_fold, hI]

theorem Dev.clearFault_inv (d : Dev) (code inst : Nat) (hI : d.Inv) : (Dev.clearFault d code inst).Inv := by
  unfold Dev.clearFault
  repeat' first | with_reducible assumption | with_reducible intro _ | with_reducible apply Dev.post_inv | split | (with_reducible rfl) | (simp only [inv_mk, inv_fold, ite_inv]) | dsimp only

theorem Dev.actionDone_inv (d : Dev) (code inst : Nat) (hI : d.Inv) : (Dev.actionDone d code inst).Inv := by
  simp only [Dev.actionDone, ite_inv, ite_self, inv_mk, inv_fold, List.length_map, List.length_set, modAt_length, List.length_mapIdx, foldl_modAt_length, hI]

/-! ### Tick.lean -/

theorem Dev.tick_inv (d : Dev) (hI : d.Inv) : (Dev.tick d).Inv := by
  unfold Dev.tick
  (repeat' split) <;> first | with_reducible exact hI | (simp only [ite_inv, ite_self, inv_mk, inv_fold, hI]; done)

theorem Dev.align_inv (d : Dev) (diff : Int) (link : Option LinkId) (hI : d.Inv) : (Dev.align d diff link).Inv := by
  unfold Dev.align
  repeat' first | with_reducible assumption | with_reducible intro _ | with_reducible apply Dev.count_inv | with_reducible apply Dev.postFree_inv | split | (with_reducible rfl) | (simp only [inv_mk, inv_fold, ite_inv]) | dsimp only

end Sys2Proof.Machine
end

