-- ==== Sys2Proof/Laws/InvUnits.lean ====
section
/-! SUPPORT. The operations of the ports, layers, composition, sequencer, lamps, Governor, auxiliary outputs, clocks and links keep the invariant. -/

namespace Sys2Proof.Machine

open Sys2Proof

/-! ### PortOps.lean -/

theorem Dev.portFrame_inv (d : Dev) (s : Nat) (hI : d.Inv) : (Dev.portFrame d s).Inv := by
  unfold Dev.portFrame
  (repeat' split) <;> first | with_reducible exact hI | (simp only [ite_inv, ite_self, Dev.modMport_inv, inv_mk, inv_fold, hI]; done)

theorem Dev.portFrames_inv (d : Dev) (hI : d.Inv) : (Dev.portFrames d).Inv := by
  unfold Dev.portFrames
  repeat' first | with_reducible assumption | with_reducible intro _ | with_reducible apply foldl_inv | with_reducible apply foldl_fst_inv | with_reducible apply Dev.portFrame_inv | split | (with_reducible rfl) | (simp only [inv_mk, inv_fold]) | dsimp only

theorem Dev.powerUpNow_inv (d : Dev) (s : Nat) (hI : d.Inv) : (Dev.powerUpNow d s).Inv := by
  simp (maxDischargeDepth := 30) only [Dev.powerUpNow, Dev.modMportEv_inv, Dev.clearFault_inv, inv_mk, inv_fold, hI]

theorem Dev.powerUp_inv (d : Dev) (s : Nat) (hI : d.Inv) : (Dev.powerUp d s).Inv := by
  simp (maxDischargeDepth := 30) only [Dev.powerUp, ite_inv, ite_self, Dev.modMport_inv, Dev.powerUpNow_inv, inv_mk, inv_fold, hI]

theorem Dev.powerDownNow_inv (d : Dev) (s : Nat) (hI : d.Inv) : (Dev.powerDownNow d s).Inv := by
  simp only [Dev.powerDownNow, Dev.modMportEv_inv, inv_mk, inv_fold, hI]

theorem Dev.powerDown_inv (d : Dev) (s : Nat) (hI : d.Inv) : (Dev.powerDown d s).Inv := by
  unfold Dev.powerDown
  repeat' first | with_reducible assumption | with_reducible intro _ | with_reducible apply Dev.modMport_inv | with_reducible apply Dev.modMportEv_inv | with_reducible apply Dev.powerDownNow_inv | split | (with_reducible rfl) | (simp only [inv_mk, inv_fold]) | dsimp only

theorem Dev.portParked_inv (d : Dev) (s : Nat) (hI : d.Inv) : (Dev.portParked d s).Inv := by
  simp (maxDischargeDepth := 30) only [Dev.portParked, ite_inv, ite_self, Dev.modMportEv_inv, Dev.powerDownNow_inv, inv_mk, inv_fold, hI]

theorem Dev.releaseResetTicket_inv (d : Dev) (hI : d.Inv) : (Dev.releaseResetTicket d).Inv := by
  simp only [Dev.releaseResetTicket, ite_inv, ite_self, Dev.release_inv, inv_mk, inv_fold, hI]

theorem Dev.portHoldup_inv (d : Dev) (s : Nat) (hI : d.Inv) : (Dev.portHoldup d s).Inv := by
  simp only [Dev.portHoldup, ite_inv, ite_self, Dev.modMportEv_inv, inv_mk, inv_fold, hI]

theorem Dev.portFail_inv (d : Dev) (s code arg : Nat) (hI : d.Inv) : (Dev.portFail d s code arg).Inv := by
  simp (maxDischargeDepth := 30) only [Dev.portFail, ite_inv, ite_self, Dev.modMportEv_inv, Dev.raiseWith_inv, Dev.powerDownNow_inv, Dev.releaseResetTicket_inv, inv_mk, inv_fold, hI]

theorem Dev.arrayFault_inv (d : Dev) (s : Nat) (hI : d.Inv) : (Dev.arrayFault d s).Inv := by
  simp (maxDischargeDepth := 30) only [Dev.arrayFault, Dev.count_inv, Dev.portFail_inv, inv_mk, inv_fold, hI]

theorem Dev.judgeIdent_inv (d : Dev) (s : Nat) (payload : List Byte) (hI : d.Inv) : (Dev.judgeIdent d s payload).Inv := by
  simp (maxDischargeDepth := 30) only [Dev.judgeIdent, ite_inv, ite_self, Dev.modMport_inv, Dev.powerDown_inv, Dev.portParked_inv, Dev.portFail_inv, inv_mk, inv_fold, hI]

theorem Dev.judgeHeld_inv (d : Dev) (hI : d.Inv) : (Dev.judgeHeld d).Inv := by
  unfold Dev.judgeHeld
  (repeat' split) <;> first | with_reducible exact hI | (simp only [ite_inv, ite_self, Dev.judgeIdent_inv, inv_mk, inv_fold, hI]; done)

theorem Dev.identIn_inv (d : Dev) (s : Nat) (payload : List Byte) (hI : d.Inv) : (Dev.identIn d s payload).Inv := by
  simp (maxDischargeDepth := 30) only [Dev.identIn, ite_inv, ite_self, Dev.modMport_inv, Dev.judgeIdent_inv, Dev.judgeHeld_inv, inv_mk, inv_fold, hI]

theorem Dev.failAndJudge_inv (d : Dev) (s code arg : Nat) (hI : d.Inv) : (Dev.failAndJudge d s code arg).Inv := by
  simp (maxDischargeDepth := 30) only [Dev.failAndJudge, Dev.portFail_inv, Dev.judgeHeld_inv, inv_mk, inv_fold, hI]

theorem Dev.identMissed_inv (d : Dev) (s : Nat) (hI : d.Inv) : (Dev.identMissed d s).Inv := by
  simp (maxDischargeDepth := 30) only [Dev.identMissed, ite_inv, ite_self, Dev.modMport_inv, Dev.count_inv, Dev.failAndJudge_inv, inv_mk, inv_fold, hI]

theorem Dev.startTrain_inv (d : Dev) (s : Nat) (rb0 rb1 : List Bool) (hI : d.Inv) : (Dev.startTrain d s rb0 rb1).Inv := by
  simp (maxDischargeDepth := 30) only [Dev.startTrain, Dev.setCorr_inv, Dev.applyVal_inv, Dev.modMportEv_inv, inv_mk, inv_fold, hI]

theorem Dev.setTaps_inv (d : Dev) (s : Nat) (first last : List (Nat × Nat)) (hI : d.Inv) : (Dev.setTaps d s first last).Inv := by
  unfold Dev.setTaps
  repeat' first | with_reducible assumption | with_reducible intro _ | with_reducible apply foldl_inv | with_reducible apply foldl_fst_inv | with_reducible apply Dev.setCorr_inv | with_reducible apply Dev.count_inv | with_reducible apply Dev.raise_inv | with_reducible apply Dev.clearFault_inv | split | (with_reducible rfl) | (simp only [inv_mk, inv_fold, ite_inv]) | dsimp only

theorem Dev.assignLanes_inv (d : Dev) (s : Nat) (bad : List Nat) (hI : d.Inv) : (Dev.assignLanes d s bad).Inv := by
  unfold Dev.assignLanes
  (repeat' split) <;> first | with_reducible exact hI | (simp only [ite_inv, ite_self, Dev.modMport_inv, inv_mk, inv_fold, hI]; done)

theorem Dev.trainDone_inv (d : Dev) (s : Nat) (hI : d.Inv) : (Dev.trainDone d s).Inv := by
  simp (maxDischargeDepth := 30) only [Dev.trainDone, ite_inv, ite_self, Dev.modMport_inv, Dev.modMportEv_inv, Dev.failAndJudge_inv, Dev.setTaps_inv, Dev.assignLanes_inv, inv_mk, inv_fold, hI]

theorem Dev.trialResult_inv (d : Dev) (s tap : Nat) (errors : List Nat) (hI : d.Inv) : (Dev.trialResult d s tap errors).Inv := by
  unfold Dev.trialResult
  (repeat' split) <;> first | with_reducible exact hI | (simp only [ite_inv, ite_self, Dev.modMport_inv, inv_mk, inv_fold, hI]; done)

theorem Dev.trainResult_inv (d : Dev) (s tap : Nat) (errors : List Nat) (hI : d.Inv) : (Dev.trainResult d s tap errors).Inv := by
  simp (maxDischargeDepth := 30) only [Dev.trainResult, ite_inv, ite_self, Dev.modMport_inv, Dev.trainDone_inv, Dev.trialResult_inv, inv_mk, inv_fold, hI]

theorem Dev.laneFails_inv (d : Dev) (s k : Nat) (hI : d.Inv) : (Dev.laneFails d s k).Inv := by
  simp (maxDischargeDepth := 30) only [Dev.laneFails, ite_inv, ite_self, Dev.modMport_inv, Dev.post_inv, Dev.raise_inv, inv_mk, inv_fold, hI]

theorem Dev.lane32Fails_inv (d : Dev) (s : Nat) (hI : d.Inv) : (Dev.lane32Fails d s).Inv := by
  unfold Dev.lane32Fails
  repeat' first | with_reducible assumption | with_reducible intro _ | with_reducible apply foldl_inv | with_reducible apply foldl_fst_inv | with_reducible apply Dev.modMport_inv | with_reducible apply Dev.raise_inv | split | (with_reducible rfl) | (simp only [inv_mk, inv_fold, ite_inv]) | dsimp only

theorem Dev.laneError_inv (d : Dev) (s k : Nat) (hI : d.Inv) : (Dev.laneError d s k).Inv := by
  simp (maxDischargeDepth := 30) only [Dev.laneError, ite_inv, ite_self, Dev.modMport_inv, Dev.laneFails_inv, Dev.lane32Fails_inv, inv_mk, inv_fold, List.length_map, List.length_set, modAt_length, List.length_mapIdx, foldl_modAt_length, hI]

theorem Dev.lanesIn_inv (d : Dev) (s : Nat) (crcs : List Byte) (hI : d.Inv) : (Dev.lanesIn d s crcs).Inv := by
  unfold Dev.lanesIn
  repeat' first | with_reducible assumption | with_reducible intro _ | with_reducible apply foldl_inv | with_reducible apply foldl_fst_inv | with_reducible apply Dev.modMport_inv | with_reducible apply Dev.laneError_inv | split | (with_reducible rfl) | (simp only [inv_mk, inv_fold, ite_inv]) | dsimp only

theorem Dev.ackIn_inv (d : Dev) (s cseq cmd : Nat) (hI : d.Inv) : (Dev.ackIn d s cseq cmd).Inv := by
  unfold Dev.ackIn
  repeat' first | with_reducible assumption | with_reducible intro _ | with_reducible apply Dev.modMport_inv | with_reducible apply Dev.post_inv | split | (with_reducible rfl) | (simp only [inv_mk, inv_fold, ite_inv]) | dsimp only

theorem Dev.darkUntilNext_inv (d : Dev) (s : Nat) (hI : d.Inv) : (Dev.darkUntilNext d s).Inv := by
  simp only [Dev.darkUntilNext, inv_mk, inv_fold, List.length_map, List.length_set, modAt_length, List.length_mapIdx, foldl_modAt_length, hI]

theorem Dev.modChecking_inv (d : Dev) (s : Nat) (f : Loaded → Loaded) (hI : d.Inv) : (Dev.modChecking d s f).Inv := by
  simp only [Dev.modChecking, inv_mk, inv_fold, List.length_map, List.length_set, modAt_length, List.length_mapIdx, foldl_modAt_length, hI]

theorem Dev.aggregate_inv (d : Dev) (s : Nat) (got want : BitVec 32) (hI : d.Inv) : (Dev.aggregate d s got want).Inv := by
  simp only [Dev.aggregate, inv_mk, inv_fold, List.length_map, List.length_set, modAt_length, List.length_mapIdx, foldl_modAt_length, hI]

theorem Dev.closeCell_inv (d : Dev) (s : Nat) (l : Loaded) (got : Option (BitVec 32)) (hI : d.Inv) : (Dev.closeCell d s l got).Inv := by
  unfold Dev.closeCell
  repeat' first | with_reducible assumption | with_reducible intro _ | with_reducible apply Dev.aggregate_inv | split | (with_reducible rfl) | (simp only [inv_mk, inv_fold, List.length_map, List.length_set, modAt_length, List.length_mapIdx, foldl_modAt_length]) | dsimp only

theorem Dev.busCrcIn_inv (d : Dev) (s entry : Nat) (crc : BitVec 32) (hI : d.Inv) : (Dev.busCrcIn d s entry crc).Inv := by
  unfold Dev.busCrcIn
  (repeat' split) <;> first | with_reducible exact hI | (simp (maxDischargeDepth := 30) only [ite_inv, ite_self, Dev.modMport_inv, Dev.count_inv, Dev.raise_inv, Dev.darkUntilNext_inv, Dev.modChecking_inv, inv_mk, inv_fold, hI]; done)

theorem Dev.cellCrcIn_inv (d : Dev) (s entry : Nat) (crc : BitVec 32) (hI : d.Inv) : (Dev.cellCrcIn d s entry crc).Inv := by
  unfold Dev.cellCrcIn
  (repeat' split) <;> first | with_reducible exact hI | (simp (maxDischargeDepth := 30) only [ite_inv, ite_self, Dev.count_inv, Dev.raise_inv, Dev.darkUntilNext_inv, Dev.closeCell_inv, inv_mk, inv_fold, hI]; done)

theorem Dev.crcLate_inv (d : Dev) (s : Nat) (cell : Bool) (hI : d.Inv) : (Dev.crcLate d s cell).Inv := by
  unfold Dev.crcLate
  (repeat' split) <;> first | with_reducible exact hI | (simp (maxDischargeDepth := 30) only [ite_inv, ite_self, Dev.count_inv, Dev.raise_inv, Dev.darkUntilNext_inv, Dev.modChecking_inv, Dev.closeCell_inv, inv_mk, inv_fold, hI]; done)

/-! ### LayerOps.lean -/

theorem Dev.declare_inv (d : Dev) (n : Nat) (c : Decl) (p : Placed) (scalers : List Nat) (hI : d.Inv) : (Dev.declare d n c p scalers).Inv := by
  simp only [Dev.declare, ite_inv, ite_self, inv_mk, inv_fold, List.length_map, List.length_set, modAt_length, List.length_mapIdx, foldl_modAt_length, hI]

theorem Dev.retire_inv (d : Dev) (n frame : Nat) (shown : Bool) (hI : d.Inv) : (Dev.retire d n frame shown).Inv := by
  simp (maxDischargeDepth := 30) only [Dev.retire, ite_inv, ite_self, Dev.setPar_inv, Dev.post_inv, inv_mk, inv_fold, hI]

theorem Dev.storeEarly_inv (d : Dev) (f t : Nat) (hI : d.Inv) : (Dev.storeEarly d f t).Inv := by
  unfold Dev.storeEarly
  repeat' first | with_reducible assumption | with_reducible intro _ | with_reducible apply Dev.count_inv | split | (with_reducible rfl) | (simp only [inv_mk, inv_fold, ite_inv]) | dsimp only

theorem Dev.finishSignals_inv (d : Dev) (f : Nat) (hI : d.Inv) : (Dev.finishSignals d f).Inv := by
  unfold Dev.finishSignals
  repeat' first | with_reducible assumption | with_reducible intro _ | with_reducible apply foldl_inv | with_reducible apply foldl_fst_inv | with_reducible apply Dev.finish_inv | split | (with_reducible rfl) | (simp only [inv_mk, inv_fold]) | dsimp only

theorem Dev.signalFence_inv (d : Dev) (f : Nat) (hI : d.Inv) : (Dev.signalFence d f).Inv := by
  simp (maxDischargeDepth := 30) only [Dev.signalFence, ite_inv, ite_self, Dev.storeEarly_inv, Dev.finishSignals_inv, inv_mk, inv_fold, List.length_map, List.length_set, modAt_length, List.length_mapIdx, foldl_modAt_length, hI]

theorem Dev.storeUnnamed_inv (d : Dev) (fences : List (Nat × Option Nat)) (hI : d.Inv) : (Dev.storeUnnamed d fences).Inv := by
  unfold Dev.storeUnnamed
  repeat' first | with_reducible assumption | with_reducible intro _ | with_reducible apply foldl_inv | with_reducible apply foldl_fst_inv | with_reducible apply Dev.storeEarly_inv | split | (with_reducible rfl) | (simp only [inv_mk, inv_fold, ite_inv]) | dsimp only

theorem Dev.disarm_inv (d : Dev) (g : Nat) (hI : d.Inv) : (Dev.disarm d g).Inv := by
  unfold Dev.disarm
  (repeat' split) <;> first | with_reducible exact hI | (simp (maxDischargeDepth := 30) only [Dev.modGroup_inv, Dev.storeUnnamed_inv, inv_mk, inv_fold, hI]; done)

theorem Dev.arm_inv (d : Dev) (g : Nat) (fences : List Nat) (p : Port) (tag : Nat) (hI : d.Inv) : (Dev.arm d g fences p tag).Inv := by
  unfold Dev.arm
  repeat' first | with_reducible assumption | with_reducible intro _ | with_reducible apply Dev.storeUnnamed_inv | split | (with_reducible rfl) | (simp only [inv_mk, inv_fold, List.length_map, List.length_set, modAt_length, List.length_mapIdx, foldl_modAt_length]) | dsimp only

theorem Dev.signalBound_inv (d : Dev) (n : Nat) (p : BoundFence → Bool) (hI : d.Inv) : (Dev.signalBound d n p).Inv := by
  unfold Dev.signalBound
  repeat' first | with_reducible assumption | with_reducible intro _ | with_reducible apply foldl_inv | with_reducible apply foldl_fst_inv | with_reducible apply Dev.modLayer_inv | with_reducible apply Dev.signalFence_inv | split | (with_reducible rfl) | (simp only [inv_mk, inv_fold]) | dsimp only

theorem Dev.openFrame_inv (d : Dev) (n f : Nat) (link : LinkId) (hI : d.Inv) : (Dev.openFrame d n f link).Inv := by
  unfold Dev.openFrame
  repeat' first | with_reducible assumption | with_reducible intro _ | with_reducible apply Dev.modLayer_inv | with_reducible apply Dev.count_inv | with_reducible apply Dev.signalBound_inv | split | (with_reducible rfl) | (simp only [inv_mk, inv_fold, ite_inv, List.length_map, List.length_set, modAt_length, List.length_mapIdx, foldl_modAt_length]) | dsimp only

theorem Dev.closeFrame_inv (d : Dev) (n : Nat) (hI : d.Inv) : (Dev.closeFrame d n).Inv := by
  unfold Dev.closeFrame
  repeat' first | with_reducible assumption | with_reducible intro _ | with_reducible apply Dev.modLayer_inv | with_reducible apply Dev.count_inv | with_reducible apply Dev.post_inv | with_reducible apply Dev.retire_inv | with_reducible apply Dev.signalBound_inv | split | (with_reducible rfl) | (simp only [inv_mk, inv_fold, ite_inv, List.length_map, List.length_set, modAt_length, List.length_mapIdx, foldl_modAt_length]) | dsimp only

theorem Dev.closeMissing_inv (d : Dev) (n : Nat) (hI : d.Inv) : (Dev.closeMissing d n).Inv := by
  unfold Dev.closeMissing
  (repeat' split) <;> first | with_reducible exact hI | (simp (maxDischargeDepth := 30) only [Dev.count_inv, Dev.closeFrame_inv, inv_mk, inv_fold, hI]; done)

theorem Dev.closeFramesOf_inv (d : Dev) (l : LinkId) (hI : d.Inv) : (Dev.closeFramesOf d l).Inv := by
  unfold Dev.closeFramesOf
  repeat' first | with_reducible assumption | with_reducible intro _ | with_reducible apply foldl_inv | with_reducible apply foldl_fst_inv | with_reducible apply Dev.closeMissing_inv | split | (with_reducible rfl) | (simp only [inv_mk, inv_fold, ite_inv]) | dsimp only

theorem Dev.copyDone_inv (d : Dev) (n : Nat) (hI : d.Inv) : (Dev.copyDone d n).Inv := by
  unfold Dev.copyDone
  repeat' first | with_reducible assumption | with_reducible intro _ | with_reducible apply Dev.modLayer_inv | with_reducible apply Dev.count_inv | with_reducible apply Dev.retire_inv | with_reducible apply Dev.signalBound_inv | split | (with_reducible rfl) | (simp only [inv_mk, inv_fold, ite_inv, List.length_map, List.length_set, modAt_length, List.length_mapIdx, foldl_modAt_length]) | dsimp only

theorem Dev.discardLine_inv (d : Dev) (link : LinkId) (hI : d.Inv) : (Dev.discardLine d link).Inv := by
  simp only [Dev.discardLine, Dev.count_inv, inv_mk, inv_fold, hI]

theorem Dev.writeLine_inv (d : Dev) (n plane row x0 count : Nat) (data : List Byte) (hI : d.Inv) : (Dev.writeLine d n plane row x0 count data).Inv := by
  simp (maxDischargeDepth := 30) only [Dev.writeLine, Dev.modLayer_inv, Dev.count_inv, inv_mk, inv_fold, List.length_map, List.length_set, modAt_length, List.length_mapIdx, foldl_modAt_length, hI]

theorem Dev.lineIn_inv (d : Dev) (link : LinkId) (sub : Nat) (p : List Byte) (hI : d.Inv) : (Dev.lineIn d link sub p).Inv := by
  unfold Dev.lineIn
  repeat' first | with_reducible assumption | with_reducible intro _ | with_reducible apply Dev.count_inv | with_reducible apply Dev.openFrame_inv | with_reducible apply Dev.closeFrame_inv | with_reducible apply Dev.closeMissing_inv | with_reducible apply Dev.discardLine_inv | with_reducible apply Dev.writeLine_inv | split | (with_reducible rfl) | (simp only [inv_mk, inv_fold, ite_inv]) | dsimp only

theorem Dev.fence_inv (d : Dev) (p : List Byte) (hI : d.Inv) : (Dev.fence d p).1.Inv := by
  unfold Dev.fence
  repeat' first | with_reducible assumption | with_reducible intro _ | with_reducible apply Dev.modLayer_inv | with_reducible apply Dev.signalFence_inv | with_reducible apply Dev.closeMissing_inv | split | (with_reducible rfl) | (simp only [inv_mk, inv_fold, ite_inv]) | dsimp only

/-! ### ComposeOps.lean -/

theorem Dev.modRects_inv (d : Dev) (s : Nat) (f : SigRect → SigRect) (hI : d.Inv) : (Dev.modRects d s f).Inv := by
  unfold Dev.modRects
  rw [inv_mk]
  rcases hI with ⟨h1, h2, h3, h4, h5, h6, h7, h8, h9, h10, h11, h12, h13, h14, h15, h16, h17, h18, h19, h20, h21⟩
  refine ⟨h1, h2, h3, h4, h5, h6, h7, h8, h9, h10, h11, h12, ?_, ?_, h15, h16, h17, h18, h19, h20, h21⟩ <;>
    (simp only [Pair.mod, Pair.set, Pair.get]; split <;> simp only [List.length_map, h13, h14])

theorem Dev.setRect_inv (d : Dev) (s i : Nat) (r : SigRect) (hI : d.Inv) : (Dev.setRect d s i r).Inv := by
  unfold Dev.setRect
  rw [inv_mk]
  rcases hI with ⟨h1, h2, h3, h4, h5, h6, h7, h8, h9, h10, h11, h12, h13, h14, h15, h16, h17, h18, h19, h20, h21⟩
  refine ⟨h1, h2, h3, h4, h5, h6, h7, h8, h9, h10, h11, h12, ?_, ?_, h15, h16, h17, h18, h19, h20, h21⟩ <;>
    (simp only [Pair.mod, Pair.set, Pair.get]; split <;> simp only [List.length_set, h13, h14])

theorem Dev.rectsModeChange_inv (d : Dev) (r : ModeRow) (hI : d.Inv) : (Dev.rectsModeChange d r).Inv := by
  unfold Dev.rectsModeChange
  repeat' first | with_reducible assumption | with_reducible intro _ | with_reducible apply foldl_inv | with_reducible apply foldl_fst_inv | with_reducible apply Dev.post_inv | with_reducible apply Dev.setRect_inv | split | (with_reducible rfl) | (simp only [inv_mk, inv_fold, ite_inv]) | dsimp only

theorem Dev.judgeRect_inv (d : Dev) (s i : Nat) (hI : d.Inv) : (Dev.judgeRect d s i).1.Inv := by
  unfold Dev.judgeRect
  repeat' first | with_reducible assumption | with_reducible intro _ | with_reducible apply Dev.count_inv | with_reducible apply Dev.post_inv | with_reducible apply Dev.raise_inv | with_reducible apply Dev.setRect_inv | split | (with_reducible rfl) | (simp only [inv_mk, inv_fold, ite_inv]) | dsimp only

theorem Dev.judgeRects_inv (d : Dev) (s : Nat) (hI : d.Inv) : (Dev.judgeRects d s).Inv := by
  unfold Dev.judgeRects
  repeat' first | with_reducible assumption | with_reducible intro _ | with_reducible apply foldl_inv | with_reducible apply foldl_fst_inv | with_reducible apply Dev.modPipe_inv | with_reducible apply Dev.count_inv | with_reducible apply Dev.judgeRect_inv | split | (with_reducible rfl) | (simp only [inv_mk, inv_fold, ite_inv]) | dsimp only

theorem Dev.judgeFreeze_inv (d : Dev) (s : Nat) (hI : d.Inv) : (Dev.judgeFreeze d s).Inv := by
  unfold Dev.judgeFreeze
  repeat' first | with_reducible assumption | with_reducible intro _ | with_reducible apply Dev.raise_inv | split | (with_reducible rfl) | (simp only [inv_mk, inv_fold, ite_inv, List.length_map, List.length_set, modAt_length, List.length_mapIdx, foldl_modAt_length]) | dsimp only

theorem Dev.passDone_inv (d : Dev) (s : Nat) (hI : d.Inv) : (Dev.passDone d s).Inv := by
  simp (maxDischargeDepth := 30) only [Dev.passDone, ite_inv, ite_self, Dev.modPipe_inv, Dev.release_inv, Dev.judgeRects_inv, Dev.judgeFreeze_inv, inv_mk, inv_fold, hI]

theorem Dev.dropPass_inv (d : Dev) (s : Nat) (hI : d.Inv) : (Dev.dropPass d s).Inv := by
  simp (maxDischargeDepth := 30) only [Dev.dropPass, ite_inv, ite_self, Dev.modPipe_inv, Dev.release_inv, inv_mk, inv_fold, hI]

theorem Dev.exchange_inv (d : Dev) (s : Nat) (hI : d.Inv) : (Dev.exchange d s).Inv := by
  unfold Dev.exchange
  repeat' first | with_reducible assumption | with_reducible intro _ | with_reducible apply Dev.modPipe_inv | split | (with_reducible rfl) | (simp only [inv_mk, inv_fold, ite_inv, List.length_map, List.length_set, modAt_length, List.length_mapIdx, foldl_modAt_length]) | dsimp only

theorem Dev.stopPasses_inv (d : Dev) (hI : d.Inv) : (Dev.stopPasses d).Inv := by
  unfold Dev.stopPasses
  repeat' first | with_reducible assumption | with_reducible intro _ | with_reducible apply foldl_inv | with_reducible apply foldl_fst_inv | with_reducible apply Dev.dropPass_inv | split | (with_reducible rfl) | (simp only [inv_mk, inv_fold]) | dsimp only

theorem Dev.startPass_inv (d : Dev) (s mode : Nat) (bridge expects : Bool) (hI : d.Inv) : (Dev.startPass d s mode bridge expects).Inv := by
  simp (maxDischargeDepth := 30) only [Dev.startPass, ite_inv, ite_self, Dev.modPipe_inv, Dev.modRects_inv, inv_mk, inv_fold, List.length_map, List.length_set, modAt_length, List.length_mapIdx, foldl_modAt_length, hI]

theorem Dev.abandon_inv (d : Dev) (s : Nat) (pllM : Bool) (hI : d.Inv) : (Dev.abandon d s pllM).Inv := by
  simp (maxDischargeDepth := 30) only [Dev.abandon, ite_inv, ite_self, Dev.post_inv, Dev.dropPass_inv, inv_mk, inv_fold, hI]

theorem Dev.stepOffset_inv (d : Dev) (hI : d.Inv) : (Dev.stepOffset d).Inv := by
  simp only [Dev.stepOffset, ite_inv, ite_self, inv_mk, inv_fold, hI]

theorem Dev.applyLayer_inv (d : Dev) (n : Nat) (hI : d.Inv) : (Dev.applyLayer d n).Inv := by
  unfold Dev.applyLayer
  repeat' first | with_reducible assumption | with_reducible intro _ | with_reducible apply foldl_inv | with_reducible apply foldl_fst_inv | with_reducible apply Dev.modLayer_inv | with_reducible apply Dev.applyVal_inv | with_reducible apply Dev.applyArr_inv | split | (with_reducible rfl) | (simp only [inv_mk, inv_fold]) | dsimp only

theorem Dev.commitGroup_inv (d : Dev) (w : CfsWork) (g : Nat) (hI : d.Inv) : (Dev.commitGroup d w g).1.Inv := by
  unfold Dev.commitGroup
  repeat' first | with_reducible assumption | with_reducible intro _ | with_reducible apply foldl_inv | with_reducible apply foldl_fst_inv | with_reducible apply Dev.modLayer_inv | with_reducible apply Dev.modGroup_inv | with_reducible apply Dev.count_inv | with_reducible apply Dev.post_inv | with_reducible apply Dev.finish_inv | with_reducible apply Dev.finishWith_inv | with_reducible apply Dev.disarm_inv | with_reducible apply Dev.applyLayer_inv | split | (with_reducible rfl) | (simp only [inv_mk, inv_fold, ite_inv, List.length_map, List.length_set, modAt_length, List.length_mapIdx, foldl_modAt_length]) | dsimp only

theorem Dev.commitGroups_inv (d : Dev) (hI : d.Inv) : (Dev.commitGroups d).1.Inv := by
  unfold Dev.commitGroups
  repeat' first | with_reducible assumption | with_reducible intro _ | with_reducible apply foldl_inv | with_reducible apply foldl_fst_inv | with_reducible apply Dev.commitGroup_inv | split | (with_reducible rfl) | (simp only [inv_mk, inv_fold, ite_inv]) | dsimp only

theorem Dev.countLate_inv (d : Dev) (hI : d.Inv) : (Dev.countLate d).Inv := by
  unfold Dev.countLate
  repeat' first | with_reducible assumption | with_reducible intro _ | with_reducible apply foldl_inv | with_reducible apply foldl_fst_inv | with_reducible apply Dev.modLayer_inv | with_reducible apply Dev.modGroup_inv | with_reducible apply Dev.count_inv | with_reducible apply Dev.post_inv | split | (with_reducible rfl) | (simp only [inv_mk, inv_fold, ite_inv]) | dsimp only

theorem Dev.reclaim_inv (d : Dev) (n : Nat) (l : Layer) (hI : d.Inv) : (Dev.reclaim d n l).Inv := by
  unfold Dev.reclaim
  rw [inv_mk]
  simp only [modAt_length]
  exact Sound.withStaged hI (kvFilter_sorted _ hI.staged)

theorem Dev.destroyLayer_inv (d : Dev) (n : Nat) (hI : d.Inv) : (Dev.destroyLayer d n).Inv := by
  unfold Dev.destroyLayer
  repeat' first | with_reducible assumption | with_reducible intro _ | with_reducible apply foldl_inv | with_reducible apply foldl_fst_inv | with_reducible apply Dev.modLayer_inv | with_reducible apply Dev.finish_inv | split | (with_reducible rfl) | (simp only [inv_mk, inv_fold]) | dsimp only

theorem Dev.retireLayer_inv (d : Dev) (n : Nat) (moved : Bool) (hI : d.Inv) : (Dev.retireLayer d n moved).Inv := by
  unfold Dev.retireLayer
  repeat' first | with_reducible assumption | with_reducible intro _ | with_reducible apply foldl_inv | with_reducible apply foldl_fst_inv | with_reducible apply Dev.retire_inv | with_reducible apply Dev.reclaim_inv | split | (with_reducible rfl) | (simp only [inv_mk, inv_fold]) | dsimp only

theorem Dev.destroyDueLayers_inv (d : Dev) (hI : d.Inv) : (Dev.destroyDueLayers d).Inv := by
  unfold Dev.destroyDueLayers
  repeat' first | with_reducible assumption | with_reducible intro _ | with_reducible apply foldl_inv | with_reducible apply foldl_fst_inv | with_reducible apply Dev.destroyLayer_inv | split | (with_reducible rfl) | (simp only [inv_mk, inv_fold, ite_inv]) | dsimp only

theorem Dev.retireDue_inv (d : Dev) (w : CfsWork) (hI : d.Inv) : (Dev.retireDue d w).Inv := by
  unfold Dev.retireDue
  repeat' first | with_reducible assumption | with_reducible intro _ | with_reducible apply foldl_inv | with_reducible apply foldl_fst_inv | with_reducible apply Dev.retire_inv | with_reducible apply Dev.retireLayer_inv | split | (with_reducible rfl) | (simp only [inv_mk, inv_fold, ite_inv]) | dsimp only

theorem Dev.stalePolicies_inv (d : Dev) (committed : List Nat) (hI : d.Inv) : (Dev.stalePolicies d committed).Inv := by
  unfold Dev.stalePolicies
  repeat' first | with_reducible assumption | with_reducible intro _ | with_reducible apply foldl_inv | with_reducible apply foldl_fst_inv | with_reducible apply Dev.modLayer_inv | with_reducible apply Dev.post_inv | split | (with_reducible rfl) | (simp only [inv_mk, inv_fold, ite_inv]) | dsimp only

theorem Dev.stepBase_inv (d : Dev) (s : Nat) (hI : d.Inv) : (Dev.stepBase d s).Inv := by
  simp (maxDischargeDepth := 30) only [Dev.stepBase, ite_inv, ite_self, Dev.modBase_inv, Dev.raise_inv, Dev.modRects_inv, inv_mk, inv_fold, hI]

theorem Dev.reqEffective_inv (d : Dev) (req : Nat) (hI : d.Inv) : (Dev.reqEffective d req).Inv := by
  unfold Dev.reqEffective
  repeat' first | with_reducible assumption | with_reducible intro _ | with_reducible apply foldl_inv | with_reducible apply foldl_fst_inv | with_reducible apply Dev.finish_inv | split | (with_reducible rfl) | (simp only [inv_mk, inv_fold]) | dsimp only

theorem Dev.layer0Request_inv (d : Dev) (hI : d.Inv) : (Dev.layer0Request d).Inv := by
  simp only [Dev.layer0Request, ite_inv, ite_self, Dev.reqEffective_inv, inv_mk, inv_fold, hI]

theorem Dev.applyTables_inv (d : Dev) (hI : d.Inv) : (Dev.applyTables d).Inv := by
  unfold Dev.applyTables
  repeat' first | with_reducible assumption | with_reducible intro _ | with_reducible apply foldl_inv | with_reducible apply foldl_fst_inv | with_reducible apply Dev.applyArr_inv | with_reducible apply Dev.post_inv | with_reducible apply Dev.modRects_inv | split | (with_reducible rfl) | (simp only [inv_mk, inv_fold, ite_inv]) | dsimp only

theorem Dev.endUnfinished_inv (d : Dev) (s : Nat) (hI : d.Inv) : (Dev.endUnfinished d s).Inv := by
  simp (maxDischargeDepth := 30) only [Dev.endUnfinished, ite_inv, ite_self, Dev.count_inv, Dev.post_inv, Dev.dropPass_inv, inv_mk, inv_fold, hI]

theorem Dev.startPasses_inv (d : Dev) (moved : List Nat) (hI : d.Inv) : (Dev.startPasses d moved).Inv := by
  unfold Dev.startPasses
  repeat' first | with_reducible assumption | with_reducible intro _ | with_reducible apply foldl_inv | with_reducible apply foldl_fst_inv | with_reducible apply Dev.startPass_inv | with_reducible apply Dev.abandon_inv | split | (with_reducible rfl) | (simp only [inv_mk, inv_fold, ite_inv]) | dsimp only

theorem Dev.composeStart_inv (d : Dev) (hI : d.Inv) : (Dev.composeStart d).Inv := by
  unfold Dev.composeStart
  repeat' first | with_reducible assumption | with_reducible intro _ | with_reducible apply foldl_inv | with_reducible apply foldl_fst_inv | with_reducible apply Dev.applyVal_inv | with_reducible apply Dev.exchange_inv | with_reducible apply Dev.stepOffset_inv | with_reducible apply Dev.commitGroups_inv | with_reducible apply Dev.countLate_inv | with_reducible apply Dev.destroyDueLayers_inv | with_reducible apply Dev.retireDue_inv | with_reducible apply Dev.stalePolicies_inv | with_reducible apply Dev.stepBase_inv | with_reducible apply Dev.layer0Request_inv | with_reducible apply Dev.applyTables_inv | with_reducible apply Dev.endUnfinished_inv | with_reducible apply Dev.startPasses_inv | split | (with_reducible rfl) | (simp only [inv_mk, inv_fold, ite_inv]) | dsimp only

/-! ### SeqOps.lean -/

theorem Dev.handOff_inv (d : Dev) (hI : d.Inv) : (Dev.handOff d).Inv := by
  unfold Dev.handOff
  repeat' first | with_reducible assumption | with_reducible intro _ | with_reducible apply foldl_inv | with_reducible apply foldl_fst_inv | split | (with_reducible rfl) | (simp only [inv_mk, inv_fold, ite_inv]) | dsimp only

theorem Dev.zeroWord_inv (d : Dev) (s e : Nat) (hI : d.Inv) : (Dev.zeroWord d s e).Inv := by
  simp only [Dev.zeroWord, ite_inv, ite_self, inv_mk, inv_fold, List.length_map, List.length_set, modAt_length, List.length_mapIdx, foldl_modAt_length, hI]

theorem Dev.voidEntry_inv (d : Dev) (s e : Nat) (hI : d.Inv) : (Dev.voidEntry d s e).Inv := by
  simp (maxDischargeDepth := 30) only [Dev.voidEntry, Dev.count_inv, Dev.raise_inv, Dev.zeroWord_inv, inv_mk, inv_fold, hI]

theorem Dev.beginLoad_inv (d : Dev) (s e : Nat) (bad : List Nat) (hI : d.Inv) : (Dev.beginLoad d s e bad).Inv := by
  unfold Dev.beginLoad
  repeat' first | with_reducible assumption | with_reducible intro _ | with_reducible apply Dev.modMport_inv | with_reducible apply Dev.voidEntry_inv | split | (with_reducible rfl) | (simp only [inv_mk, inv_fold, ite_inv, List.length_map, List.length_set, modAt_length, List.length_mapIdx, foldl_modAt_length]) | dsimp only

theorem Dev.exchangeMask_inv (d : Dev) (s : Nat) (hI : d.Inv) : (Dev.exchangeMask d s).Inv := by
  simp (maxDischargeDepth := 30) only [Dev.exchangeMask, ite_inv, ite_self, Dev.modMask_inv, Dev.count_inv, inv_mk, inv_fold, hI]

theorem Dev.evalAge_inv (d : Dev) (hI : d.Inv) : (Dev.evalAge d).Inv := by
  unfold Dev.evalAge
  (repeat' split) <;> first | with_reducible exact hI | (simp only [inv_mk, inv_fold, hI]; done)

theorem Dev.seqEcc_inv (d : Dev) (e : Nat) (hI : d.Inv) : (Dev.seqEcc d e).Inv := by
  unfold Dev.seqEcc
  repeat' first | with_reducible assumption | with_reducible intro _ | with_reducible apply Dev.raise_inv | split | (with_reducible rfl) | (simp only [inv_mk, inv_fold, ite_inv]) | dsimp only

theorem Dev.planeEcc_inv (d : Dev) (s e : Nat) (hI : d.Inv) : (Dev.planeEcc d s e).Inv := by
  simp (maxDischargeDepth := 30) only [Dev.planeEcc, Dev.count_inv, Dev.raise_inv, inv_mk, inv_fold, hI]

theorem Dev.beginEntry_inv (d : Dev) (e : Nat) (bad masks : Nat → List Nat) (seqEcc : Bool) (hI : d.Inv) : (Dev.beginEntry d e bad masks seqEcc).Inv := by
  unfold Dev.beginEntry
  repeat' first | with_reducible assumption | with_reducible intro _ | with_reducible apply foldl_inv | with_reducible apply foldl_fst_inv | with_reducible apply Dev.modMask_inv | with_reducible apply Dev.beginLoad_inv | with_reducible apply Dev.exchangeMask_inv | with_reducible apply Dev.evalAge_inv | with_reducible apply Dev.seqEcc_inv | with_reducible apply Dev.planeEcc_inv | split | (with_reducible rfl) | (simp only [inv_mk, inv_fold, ite_inv]) | dsimp only

theorem Dev.endAggregates_inv (d : Dev) (s : Nat) (hI : d.Inv) : (Dev.endAggregates d s).Inv := by
  simp only [Dev.endAggregates, inv_mk, inv_fold, List.length_map, List.length_set, modAt_length, List.length_mapIdx, foldl_modAt_length, hI]

theorem Dev.closeAggregates_inv (d : Dev) (s : Nat) (now_ : Bool) (hI : d.Inv) : (Dev.closeAggregates d s now_).Inv := by
  unfold Dev.closeAggregates
  repeat' first | with_reducible assumption | with_reducible intro _ | with_reducible apply Dev.count_inv | split | (with_reducible rfl) | (simp only [inv_mk, inv_fold, ite_inv, List.length_map, List.length_set, modAt_length, List.length_mapIdx, foldl_modAt_length]) | dsimp only

theorem Dev.openAggregates_inv (d : Dev) (s : Nat) (hI : d.Inv) : (Dev.openAggregates d s).Inv := by
  simp only [Dev.openAggregates, inv_mk, inv_fold, List.length_map, List.length_set, modAt_length, List.length_mapIdx, foldl_modAt_length, hI]

theorem Dev.applyWord_inv (d : Dev) (s e : Nat) (hI : d.Inv) : (Dev.applyWord d s e).Inv := by
  unfold Dev.applyWord
  repeat' first | with_reducible assumption | with_reducible intro _ | with_reducible apply Dev.count_inv | with_reducible apply Dev.raise_inv | split | (with_reducible rfl) | (simp only [inv_mk, inv_fold, List.length_map, List.length_set, modAt_length, List.length_mapIdx, foldl_modAt_length]) | dsimp only

theorem Dev.endLoad_inv (d : Dev) (s e : Nat) (hI : d.Inv) : (Dev.endLoad d s e).Inv := by
  unfold Dev.endLoad
  repeat' first | with_reducible assumption | with_reducible intro _ | with_reducible apply Dev.modMport_inv | with_reducible apply Dev.zeroWord_inv | with_reducible apply Dev.voidEntry_inv | split | (with_reducible rfl) | (simp only [inv_mk, inv_fold, ite_inv, List.length_map, List.length_set, modAt_length, List.length_mapIdx, foldl_modAt_length]) | dsimp only

theorem Dev.resetInstant_inv (d : Dev) (hI : d.Inv) : (Dev.resetInstant d).Inv := by
  unfold Dev.resetInstant
  repeat' first | with_reducible assumption | with_reducible intro _ | with_reducible apply foldl_inv | with_reducible apply foldl_fst_inv | with_reducible apply Dev.closeAggregates_inv | with_reducible apply Dev.applyWord_inv | with_reducible apply Dev.endLoad_inv | split | (with_reducible rfl) | (simp only [inv_mk, inv_fold]) | dsimp only

/-! ### LampOps.lean -/

theorem Dev.boardT_inv (d : Dev) (s : Nat) (r : BoardReading) (hI : d.Inv) : (Dev.boardT d s r).2.Inv := by
  unfold Dev.boardT
  repeat' first | with_reducible assumption | with_reducible intro _ | with_reducible apply Dev.drawn_inv | split | (with_reducible rfl) | (simp only [inv_mk, inv_fold, ite_inv]) | dsimp only

theorem Dev.takeBoard_inv (d : Dev) (s : Nat) (t : Option Int) (hI : d.Inv) : (Dev.takeBoard d s t).Inv := by
  unfold Dev.takeBoard
  repeat' first | with_reducible assumption | with_reducible intro _ | with_reducible apply Dev.modLside_inv | with_reducible apply Dev.clearFault_inv | split | (with_reducible rfl) | (simp only [inv_mk, inv_fold, ite_inv]) | dsimp only

theorem Dev.boardRead_inv (d : Dev) (s : Nat) (r : BoardReading) (hI : d.Inv) : (Dev.boardRead d s r).Inv := by
  unfold Dev.boardRead
  repeat' first | with_reducible assumption | with_reducible intro _ | with_reducible apply Dev.boardT_inv | with_reducible apply Dev.takeBoard_inv | split | (with_reducible rfl) | (simp only [inv_mk, inv_fold, ite_inv]) | dsimp only

theorem Dev.substitute_inv (d : Dev) (s : Nat) (hI : d.Inv) : (Dev.substitute d s).Inv := by
  simp (maxDischargeDepth := 30) only [Dev.substitute, ite_inv, ite_self, Dev.modLside_inv, Dev.raise_inv, inv_mk, inv_fold, hI]

theorem Dev.stepJunctions_inv (d : Dev) (s : Nat) (hI : d.Inv) : (Dev.stepJunctions d s).Inv := by
  unfold Dev.stepJunctions
  repeat' first | with_reducible assumption | with_reducible intro _ | with_reducible apply foldl_inv | with_reducible apply foldl_fst_inv | with_reducible apply Dev.modChan_inv | with_reducible apply Dev.modLside_inv | with_reducible apply Dev.post_inv | split | (with_reducible rfl) | (simp only [inv_mk, inv_fold, ite_inv, List.length_map, List.length_set, modAt_length, List.length_mapIdx, foldl_modAt_length]) | dsimp only

theorem Dev.startBoost_inv (d : Dev) (s : Nat) (hI : d.Inv) : (Dev.startBoost d s).Inv := by
  simp (maxDischargeDepth := 30) only [Dev.startBoost, ite_inv, ite_self, Dev.modLside_inv, Dev.request_inv, inv_mk, inv_fold, hI]

theorem Dev.retryBoost_inv (d : Dev) (s : Nat) (hI : d.Inv) : (Dev.retryBoost d s).Inv := by
  unfold Dev.retryBoost
  (repeat' split) <;> first | with_reducible exact hI | (simp only [Dev.request_inv, inv_mk, inv_fold, hI]; done)

theorem Dev.boostRuns_inv (d : Dev) (s : Nat) (hI : d.Inv) : (Dev.boostRuns d s).Inv := by
  unfold Dev.boostRuns
  (repeat' split) <;> first | with_reducible exact hI | (simp (maxDischargeDepth := 30) only [Dev.modLside_inv, Dev.release_inv, Dev.clearFault_inv, inv_mk, inv_fold, hI]; done)

theorem Dev.boostFails_inv (d : Dev) (s : Nat) (hI : d.Inv) : (Dev.boostFails d s).Inv := by
  unfold Dev.boostFails
  (repeat' split) <;> first | with_reducible exact hI | (simp (maxDischargeDepth := 30) only [Dev.stopBoost_inv, Dev.raise_inv, inv_mk, inv_fold, hI]; done)

theorem Dev.boostOv_inv (d : Dev) (s : Nat) (hI : d.Inv) : (Dev.boostOv d s).Inv := by
  unfold Dev.boostOv
  (repeat' split) <;> first | with_reducible exact hI | (simp (maxDischargeDepth := 30) only [Dev.modLside_inv, Dev.count_inv, Dev.raise_inv, inv_mk, inv_fold, hI]; done)

theorem Dev.boostOvEnds_inv (d : Dev) (s : Nat) (hI : d.Inv) : (Dev.boostOvEnds d s).Inv := by
  unfold Dev.boostOvEnds
  (repeat' split) <;> first | with_reducible exact hI | (simp only [ite_inv, ite_self, Dev.modLside_inv, inv_mk, inv_fold, hI]; done)

theorem Dev.boostUv_inv (d : Dev) (s : Nat) (hI : d.Inv) : (Dev.boostUv d s).Inv := by
  unfold Dev.boostUv
  (repeat' split) <;> first | with_reducible exact hI | (simp (maxDischargeDepth := 30) only [Dev.modLside_inv, Dev.release_inv, Dev.raise_inv, inv_mk, inv_fold, hI]; done)

theorem Dev.boostUvEnds_inv (d : Dev) (s : Nat) (hI : d.Inv) : (Dev.boostUvEnds d s).Inv := by
  unfold Dev.boostUvEnds
  (repeat' split) <;> first | with_reducible exact hI | (simp (maxDischargeDepth := 30) only [Dev.modLside_inv, Dev.request_inv, inv_mk, inv_fold, hI]; done)

theorem Dev.stepSoft_inv (d : Dev) (s : Nat) (hI : d.Inv) : (Dev.stepSoft d s).Inv := by
  unfold Dev.stepSoft
  (repeat' split) <;> first | with_reducible exact hI | (simp only [Dev.modLside_inv, inv_mk, inv_fold, hI]; done)

theorem Dev.dimSet_inv (d : Dev) (level source ms : Nat) (hI : d.Inv) : (Dev.dimSet d level source ms).Inv := by
  unfold Dev.dimSet
  repeat' first | with_reducible assumption | with_reducible intro _ | with_reducible apply Dev.raise_inv | with_reducible apply Dev.clearFault_inv | split | (with_reducible rfl) | (simp only [inv_mk, inv_fold, ite_inv]) | dsimp only

theorem Dev.dimLoss_inv (d : Dev) (source : Nat) (hI : d.Inv) : (Dev.dimLoss d source).Inv := by
  unfold Dev.dimLoss
  repeat' first | with_reducible assumption | with_reducible intro _ | with_reducible apply Dev.raise_inv | split | (with_reducible rfl) | (simp only [inv_mk, inv_fold, ite_inv]) | dsimp only

theorem Dev.dimRestored_inv (d : Dev) (source : Nat) (hI : d.Inv) : (Dev.dimRestored d source).Inv := by
  unfold Dev.dimRestored
  repeat' first | with_reducible assumption | with_reducible intro _ | with_reducible apply Dev.post_inv | with_reducible apply Dev.clearFault_inv | split | (with_reducible rfl) | (simp only [inv_mk, inv_fold, ite_inv]) | dsimp only

theorem Dev.pwmEdge_inv (d : Dev) (period high : Nat) (hI : d.Inv) : (Dev.pwmEdge d period high).Inv := by
  unfold Dev.pwmEdge
  repeat' first | with_reducible assumption | with_reducible intro _ | with_reducible apply Dev.dimRestored_inv | split | (with_reducible rfl) | (simp only [inv_mk, inv_fold, ite_inv]) | dsimp only

theorem Dev.latchDim_inv (d : Dev) (hI : d.Inv) : (Dev.latchDim d).Inv := by
  unfold Dev.latchDim
  repeat' first | with_reducible assumption | with_reducible intro _ | with_reducible apply Dev.dimRestored_inv | split | (with_reducible rfl) | (simp only [inv_mk, inv_fold, ite_inv]) | dsimp only

theorem Dev.stepDim_inv (d : Dev) (hI : d.Inv) : (Dev.stepDim d).Inv := by
  have hc : ∀ l : Lamp, ∀ c k, (l.dimRampStep c k).chans = l.chans := by
    intro l c k; unfold Lamp.dimRampStep; split <;> rfl
  have ht : ∀ l : Lamp, ∀ f m, (l.dimTodoStep f m).chans = l.chans := by
    intro l f m; unfold Lamp.dimTodoStep; split <;> rfl
  have hs : ∀ l : Lamp, ∀ f, (l.dimSetStep f).chans = l.chans := by
    intro l f; unfold Lamp.dimSetStep; split <;> rfl
  have h1 := Dev.latchDim_inv d hI
  unfold Dev.stepDim
  dsimp only
  split <;> simp only [inv_mk, hs, ht, hc, inv_fold, h1]

theorem Dev.rampR_inv (d : Dev) (s target : Nat) (waits : Bool) (hI : d.Inv) : (Dev.rampR d s target waits).Inv := by
  simp (maxDischargeDepth := 30) only [Dev.rampR, ite_inv, ite_self, Dev.modLside_inv, Dev.waits_inv, inv_mk, inv_fold, hI]

theorem Dev.stepR_inv (d : Dev) (s : Nat) (hI : d.Inv) : (Dev.stepR d s).Inv := by
  unfold Dev.stepR
  (repeat' split) <;> first | with_reducible exact hI | (simp only [ite_inv, ite_self, Dev.modLside_inv, inv_mk, inv_fold, hI]; done)

theorem Dev.detect_inv (d : Dev) (c bit code arg : Nat) (hI : d.Inv) : (Dev.detect d c bit code arg).Inv := by
  simp (maxDischargeDepth := 30) only [Dev.detect, Dev.modChan_inv, Dev.latch_inv, Dev.raise_inv, inv_mk, inv_fold, hI]

theorem Dev.litFault_inv (d : Dev) (c bit : Nat) (hI : d.Inv) : (Dev.litFault d c bit).Inv := by
  simp only [Dev.litFault, ite_inv, ite_self, Dev.detect_inv, inv_mk, inv_fold, hI]

theorem Dev.fetFault_inv (d : Dev) (c : Nat) (hI : d.Inv) : (Dev.fetFault d c).Inv := by
  unfold Dev.fetFault
  repeat' first | with_reducible assumption | with_reducible intro _ | with_reducible apply foldl_inv | with_reducible apply foldl_fst_inv | with_reducible apply Dev.modChan_inv | with_reducible apply Dev.stopBoost_inv | with_reducible apply Dev.latch_inv | with_reducible apply Dev.raise_inv | split | (with_reducible rfl) | (simp only [inv_mk, inv_fold, ite_inv]) | dsimp only

theorem Dev.pulse_inv (d : Dev) (c : Nat) (isOpen short : Bool) (hI : d.Inv) : (Dev.pulse d c isOpen short).Inv := by
  simp (maxDischargeDepth := 30) only [Dev.pulse, ite_inv, ite_self, Dev.modChan_inv, Dev.count_inv, Dev.detect_inv, inv_mk, inv_fold, hI]

theorem Dev.partialShort_inv (d : Dev) (c : Nat) (hI : d.Inv) : (Dev.partialShort d c).Inv := by
  simp (maxDischargeDepth := 30) only [Dev.partialShort, ite_inv, ite_self, Dev.modChan_inv, Dev.raise_inv, Dev.clearFault_inv, inv_mk, inv_fold, hI]

theorem Dev.boostLimit_inv (d : Dev) (s : Nat) (hI : d.Inv) : (Dev.boostLimit d s).Inv := by
  simp (maxDischargeDepth := 30) only [Dev.boostLimit, ite_inv, ite_self, Dev.modLside_inv, Dev.raise_inv, Dev.clearFault_inv, inv_mk, inv_fold, hI]

theorem Dev.releaseChan_inv (d : Dev) (c : Nat) (hI : d.Inv) : (Dev.releaseChan d c).Inv := by
  simp only [Dev.releaseChan, ite_inv, ite_self, Dev.modChan_inv, inv_mk, inv_fold, hI]

theorem Dev.lampTables_inv (d : Dev) (s : Nat) (hI : d.Inv) : (Dev.lampTables d s).Inv := by
  unfold Dev.lampTables
  repeat' first | with_reducible assumption | with_reducible intro _ | with_reducible apply Dev.applyArr_inv | with_reducible apply Dev.mirrorArr_inv | with_reducible apply Dev.post_inv | split | (with_reducible rfl) | (simp only [inv_mk, inv_fold, ite_inv, List.length_map, List.length_set, modAt_length, List.length_mapIdx, foldl_modAt_length]) | dsimp only

theorem Dev.lampRefresh_inv (d : Dev) (hI : d.Inv) : (Dev.lampRefresh d).Inv := by
  unfold Dev.lampRefresh
  repeat' first | with_reducible assumption | with_reducible intro _ | with_reducible apply foldl_inv | with_reducible apply foldl_fst_inv | with_reducible apply Dev.modChan_inv | with_reducible apply Dev.modLside_inv | with_reducible apply Dev.stepJunctions_inv | with_reducible apply Dev.retryBoost_inv | with_reducible apply Dev.stepDim_inv | with_reducible apply Dev.stepR_inv | with_reducible apply Dev.partialShort_inv | with_reducible apply Dev.boostLimit_inv | with_reducible apply Dev.releaseChan_inv | with_reducible apply Dev.lampTables_inv | split | (with_reducible rfl) | (simp only [inv_mk, inv_fold, List.length_map, List.length_set, modAt_length, List.length_mapIdx, foldl_modAt_length]) | dsimp only

/-! ### GovOps.lean -/

theorem Dev.stepFunction_inv (d : Dev) (n : Nat) (hI : d.Inv) : (Dev.stepFunction d n).Inv := by
  unfold Dev.stepFunction
  (repeat' split) <;> first | with_reducible exact hI | (simp only [ite_inv, ite_self, Dev.modSlot_inv, inv_mk, inv_fold, hI]; done)

theorem Dev.takeRecord_inv (d : Dev) (n : Nat) (held : Bool) (hI : d.Inv) : (Dev.takeRecord d n held).Inv := by
  unfold Dev.takeRecord
  (repeat' split) <;> first | with_reducible exact hI | (simp only [ite_inv, ite_self, Dev.modSlot_inv, inv_mk, inv_fold, hI]; done)

theorem Dev.slotSafe_inv (d : Dev) (n : Nat) (hI : d.Inv) : (Dev.slotSafe d n).Inv := by
  simp (maxDischargeDepth := 30) only [Dev.slotSafe, ite_inv, ite_self, Dev.modChan_inv, Dev.modSlot_inv, Dev.stopBoost_inv, inv_mk, inv_fold, hI]

theorem Dev.slotFault_inv (d : Dev) (n code arg : Nat) (hI : d.Inv) : (Dev.slotFault d n code arg).Inv := by
  simp (maxDischargeDepth := 30) only [Dev.slotFault, ite_inv, ite_self, Dev.latch_inv, Dev.raise_inv, Dev.slotSafe_inv, inv_mk, inv_fold, hI]

theorem Dev.recoverSlot_inv (d : Dev) (n : Nat) (hI : d.Inv) : (Dev.recoverSlot d n).Inv := by
  simp only [Dev.recoverSlot, ite_inv, ite_self, Dev.modSlot_inv, inv_mk, inv_fold, hI]

theorem Dev.stepSafe_inv (d : Dev) (n : Nat) (hI : d.Inv) : (Dev.stepSafe d n).Inv := by
  simp (maxDischargeDepth := 30) only [Dev.stepSafe, ite_inv, ite_self, Dev.modChan_inv, Dev.modSlot_inv, inv_mk, inv_fold, hI]

theorem Dev.enableSlots_inv (d : Dev) (hI : d.Inv) : (Dev.enableSlots d).Inv := by
  unfold Dev.enableSlots
  repeat' first | with_reducible assumption | with_reducible intro _ | with_reducible apply foldl_inv | with_reducible apply foldl_fst_inv | with_reducible apply Dev.modSlot_inv | split | (with_reducible rfl) | (simp only [inv_mk, inv_fold, ite_inv]) | dsimp only

theorem Dev.slotsOff_inv (d : Dev) (hI : d.Inv) : (Dev.slotsOff d).Inv := by
  simp only [Dev.slotsOff, inv_mk, inv_fold, List.length_map, List.length_set, modAt_length, List.length_mapIdx, foldl_modAt_length, hI]

theorem Dev.takeSample_inv (d : Dev) (x : Samples) (c : Nat) (hI : d.Inv) : (Dev.takeSample d x c).Inv := by
  unfold Dev.takeSample
  repeat' first | with_reducible assumption | with_reducible intro _ | with_reducible apply Dev.modChan_inv | split | (with_reducible rfl) | (simp only [inv_mk, inv_fold, ite_inv]) | dsimp only

theorem Dev.takeVh_inv (d : Dev) (x : Samples) (s : Nat) (hI : d.Inv) : (Dev.takeVh d x s).Inv := by
  unfold Dev.takeVh
  repeat' first | with_reducible assumption | with_reducible intro _ | with_reducible apply foldl_inv | with_reducible apply foldl_fst_inv | with_reducible apply Dev.modLside_inv | split | (with_reducible rfl) | (simp only [inv_mk, inv_fold, ite_inv]) | dsimp only

theorem Dev.takeBoostSamples_inv (d : Dev) (x : Samples) (s : Nat) (hI : d.Inv) : (Dev.takeBoostSamples d x s).Inv := by
  simp only [Dev.takeBoostSamples, Dev.modLside_inv, inv_mk, inv_fold, List.length_map, List.length_set, modAt_length, List.length_mapIdx, foldl_modAt_length, hI]

theorem Dev.takeSamples_inv (d : Dev) (x : Samples) (hI : d.Inv) : (Dev.takeSamples d x).Inv := by
  unfold Dev.takeSamples
  repeat' first | with_reducible assumption | with_reducible intro _ | with_reducible apply foldl_inv | with_reducible apply foldl_fst_inv | with_reducible apply Dev.takeSample_inv | with_reducible apply Dev.takeVh_inv | with_reducible apply Dev.takeBoostSamples_inv | split | (with_reducible rfl) | (simp only [inv_mk, inv_fold, List.length_map, List.length_set, modAt_length, List.length_mapIdx, foldl_modAt_length]) | dsimp only

theorem Dev.coverCheck_inv (d : Dev) (x : Samples) (hI : d.Inv) : (Dev.coverCheck d x).Inv := by
  unfold Dev.coverCheck
  repeat' first | with_reducible assumption | with_reducible intro _ | with_reducible apply Dev.detect_inv | split | (with_reducible rfl) | (simp only [inv_mk, inv_fold, ite_inv]) | dsimp only

theorem Dev.stepTo_inv (d : Dev) (c sp : Nat) (hI : d.Inv) : (Dev.stepTo d c sp).Inv := by
  simp (maxDischargeDepth := 30) only [Dev.stepTo, ite_inv, ite_self, Dev.modChan_inv, Dev.modSlot_inv, inv_mk, inv_fold, hI]

theorem Dev.driveDiag_inv (d : Dev) (s : Nat) (hI : d.Inv) : (Dev.driveDiag d s).Inv := by
  unfold Dev.driveDiag
  repeat' first | with_reducible assumption | with_reducible intro _ | with_reducible apply foldl_inv | with_reducible apply foldl_fst_inv | with_reducible apply Dev.modChan_inv | with_reducible apply Dev.stepTo_inv | split | (with_reducible rfl) | (simp only [inv_mk, inv_fold, ite_inv]) | dsimp only

theorem Dev.applySetpoints_inv (d : Dev) (s : Nat) (hI : d.Inv) : (Dev.applySetpoints d s).Inv := by
  unfold Dev.applySetpoints
  repeat' first | with_reducible assumption | with_reducible intro _ | with_reducible apply foldl_inv | with_reducible apply foldl_fst_inv | with_reducible apply Dev.modChan_inv | with_reducible apply Dev.stepTo_inv | split | (with_reducible rfl) | (simp only [inv_mk, inv_fold, ite_inv, List.length_map, List.length_set, modAt_length, List.length_mapIdx, foldl_modAt_length]) | dsimp only

theorem Dev.forceZero_inv (d : Dev) (s : Nat) (hI : d.Inv) : (Dev.forceZero d s).Inv := by
  unfold Dev.forceZero
  repeat' first | with_reducible assumption | with_reducible intro _ | with_reducible apply foldl_inv | with_reducible apply foldl_fst_inv | with_reducible apply Dev.modChan_inv | split | (with_reducible rfl) | (simp only [inv_mk, inv_fold, ite_inv]) | dsimp only

theorem Dev.stepDivide_inv (d : Dev) (n : Nat) (hI : d.Inv) : (Dev.stepDivide d n).Inv := by
  simp (maxDischargeDepth := 30) only [Dev.stepDivide, ite_inv, ite_self, Dev.modSlot_inv, Dev.tick_inv, inv_mk, inv_fold, hI]

theorem Dev.evalDue_inv (d : Dev) (x : Samples) (n : Nat) (hI : d.Inv) : (Dev.evalDue d x n).Inv := by
  unfold Dev.evalDue
  repeat' first | with_reducible assumption | with_reducible intro _ | with_reducible apply Dev.modSlot_inv | with_reducible apply Dev.count_inv | with_reducible apply Dev.stepSafe_inv | split | (with_reducible rfl) | (simp only [inv_mk, inv_fold, ite_inv]) | dsimp only

theorem Dev.resolve_inv (d : Dev) (g : Nat) (hI : d.Inv) : (Dev.resolve d g).Inv := by
  unfold Dev.resolve
  repeat' first | with_reducible assumption | with_reducible intro _ | with_reducible apply foldl_inv | with_reducible apply foldl_fst_inv | with_reducible apply Dev.modLside_inv | with_reducible apply Dev.modSlot_inv | with_reducible apply Dev.count_inv | split | (with_reducible rfl) | (simp only [inv_mk, inv_fold, ite_inv, List.length_map, List.length_set, modAt_length, List.length_mapIdx, foldl_modAt_length]) | dsimp only

theorem Dev.countLit_inv (d : Dev) (hI : d.Inv) : (Dev.countLit d).Inv := by
  unfold Dev.countLit
  repeat' first | with_reducible assumption | with_reducible intro _ | with_reducible apply foldl_inv | with_reducible apply foldl_fst_inv | with_reducible apply Dev.modChan_inv | split | (with_reducible rfl) | (simp only [inv_mk, inv_fold, ite_inv]) | dsimp only

theorem Dev.govBegin_inv (d : Dev) (x : Samples) (hI : d.Inv) : (Dev.govBegin d x).Inv := by
  unfold Dev.govBegin
  repeat' first | with_reducible assumption | with_reducible intro _ | with_reducible apply Dev.count_inv | with_reducible apply Dev.slotFault_inv | split | (with_reducible rfl) | (simp only [inv_mk, inv_fold, ite_inv, List.length_map, List.length_set, modAt_length, List.length_mapIdx, foldl_modAt_length]) | dsimp only

theorem Dev.govEnd_inv (d : Dev) (hI : d.Inv) : (Dev.govEnd d).Inv := by
  simp only [Dev.govEnd, Dev.tick_inv, inv_mk, inv_fold, hI]

theorem Dev.govTick_inv (d : Dev) (x : Samples) (hI : d.Inv) : (Dev.govTick d x).Inv := by
  unfold Dev.govTick
  repeat' first | with_reducible assumption | with_reducible intro _ | with_reducible apply foldl_inv | with_reducible apply foldl_fst_inv | with_reducible apply Dev.drawn_inv | with_reducible apply Dev.stepSoft_inv | with_reducible apply Dev.stepFunction_inv | with_reducible apply Dev.takeRecord_inv | with_reducible apply Dev.takeSamples_inv | with_reducible apply Dev.coverCheck_inv | with_reducible apply Dev.driveDiag_inv | with_reducible apply Dev.applySetpoints_inv | with_reducible apply Dev.forceZero_inv | with_reducible apply Dev.stepDivide_inv | with_reducible apply Dev.evalDue_inv | with_reducible apply Dev.resolve_inv | with_reducible apply Dev.countLit_inv | with_reducible apply Dev.govBegin_inv | with_reducible apply Dev.govEnd_inv | split | (with_reducible rfl) | (simp only [inv_mk, inv_fold, ite_inv]) | dsimp only

theorem Dev.feedbackLost_inv (d : Dev) (n : Nat) (range : Bool) (hI : d.Inv) : (Dev.feedbackLost d n range).Inv := by
  simp only [Dev.feedbackLost, ite_inv, ite_self, Dev.slotFault_inv, inv_mk, inv_fold, hI]

theorem Dev.govDeadline_inv (d : Dev) (n : Nat) (hI : d.Inv) : (Dev.govDeadline d n).Inv := by
  simp only [Dev.govDeadline, ite_inv, ite_self, Dev.slotFault_inv, inv_mk, inv_fold, hI]

/-! ### AuxOps.lean -/

theorem Dev.modChain_inv (d : Dev) (s : Nat) (f : Chain → Chain) (hI : d.Inv) : (Dev.modChain d s f).Inv := by
  simp only [Dev.modChain, inv_mk, inv_fold, hI]

theorem Dev.fadeDone_inv (d : Dev) (s : Nat) (hI : d.Inv) : (Dev.fadeDone d s).Inv := by
  simp (maxDischargeDepth := 30) only [Dev.fadeDone, ite_inv, ite_self, Dev.post_inv, Dev.modChain_inv, inv_mk, inv_fold, hI]

theorem Dev.stepFade_inv (d : Dev) (s : Nat) (hI : d.Inv) : (Dev.stepFade d s).Inv := by
  simp (maxDischargeDepth := 30) only [Dev.stepFade, ite_inv, ite_self, Dev.modChain_inv, Dev.fadeDone_inv, inv_mk, inv_fold, List.length_map, List.length_set, modAt_length, List.length_mapIdx, foldl_modAt_length, hI]

theorem Dev.takeCommit_inv (d : Dev) (s : Nat) (hI : d.Inv) : (Dev.takeCommit d s).Inv := by
  unfold Dev.takeCommit
  (repeat' split) <;> first | with_reducible exact hI | (simp (maxDischargeDepth := 30) only [Dev.modChain_inv, Dev.fadeDone_inv, inv_mk, inv_fold, hI]; done)

theorem Dev.segFrame_inv (d : Dev) (s : Nat) (hI : d.Inv) : (Dev.segFrame d s).Inv := by
  simp (maxDischargeDepth := 30) only [Dev.segFrame, ite_inv, ite_self, Dev.applyVal_inv, Dev.count_inv, Dev.modChain_inv, Dev.stepFade_inv, Dev.takeCommit_inv, inv_mk, inv_fold, List.length_map, List.length_set, modAt_length, List.length_mapIdx, foldl_modAt_length, hI]

theorem Dev.segCommit_inv (d : Dev) (s v : Nat) (hI : d.Inv) : (Dev.segCommit d s v).Inv := by
  simp only [Dev.segCommit, Dev.modChain_inv, inv_mk, inv_fold, hI]

theorem Dev.segStop_inv (d : Dev) (hI : d.Inv) : (Dev.segStop d).Inv := by
  simp only [Dev.segStop, inv_mk, inv_fold, hI]

theorem Dev.mxSend_inv (d : Dev) (p : List Byte) (hI : d.Inv) : (Dev.mxSend d p).Inv := by
  simp only [Dev.mxSend, inv_mk, inv_fold, hI]

theorem Dev.mxConfigure_inv (d : Dev) (hI : d.Inv) : (Dev.mxConfigure d).Inv := by
  unfold Dev.mxConfigure
  repeat' first | with_reducible assumption | with_reducible intro _ | with_reducible apply foldl_inv | with_reducible apply foldl_fst_inv | with_reducible apply Dev.modTarget_inv | split | (with_reducible rfl) | (simp only [inv_mk, inv_fold, ite_inv]) | dsimp only

theorem Dev.scanRestart_inv (d : Dev) (hI : d.Inv) : (Dev.scanRestart d).Inv := by
  simp only [Dev.scanRestart, ite_inv, ite_self, inv_mk, inv_fold, hI]

theorem Dev.scanStep_inv (d : Dev) (hI : d.Inv) : (Dev.scanStep d).Inv := by
  unfold Dev.scanStep
  repeat' first | with_reducible assumption | with_reducible intro _ | with_reducible apply Dev.count_inv | with_reducible apply Dev.mxSend_inv | split | (with_reducible rfl) | (simp only [inv_mk, inv_fold, ite_inv]) | dsimp only

theorem Dev.mxFrame_inv (d : Dev) (t : Nat) (hI : d.Inv) : (Dev.mxFrame d t).Inv := by
  unfold Dev.mxFrame
  repeat' first | with_reducible assumption | with_reducible intro _ | with_reducible apply foldl_inv | with_reducible apply foldl_fst_inv | with_reducible apply Dev.mxSend_inv | split | (with_reducible rfl) | (simp only [inv_mk, inv_fold]) | dsimp only

theorem Dev.mxCompose_inv (d : Dev) (hI : d.Inv) : (Dev.mxCompose d).Inv := by
  unfold Dev.mxCompose
  extract_lets d0 d1 live
  have h0 : d0.Inv := foldl_inv (fun d t h => Dev.applyArr_inv d _ h) _ _ hI
  have h1 : d1.Inv := by
    refine foldl_inv (fun d t h => ?_) _ _ h0
    dsimp only
    split
    · exact Dev.clearFault_inv _ _ _ (Dev.post_inv _ _ _ (Dev.modTarget_inv _ _ _ h))
    · exact h
  split
  · exact h0
  · split
    · exact foldl_inv (fun d t h => Dev.modTarget_inv _ _ _ (Dev.mxFrame_inv _ _ h)) _ _ h1
    · exact Dev.count_inv _ _ _ _ h1

theorem Dev.mxWritten_inv (d : Dev) (hI : d.Inv) : (Dev.mxWritten d).Inv := by
  unfold Dev.mxWritten
  repeat' first | with_reducible assumption | with_reducible intro _ | with_reducible apply foldl_inv | with_reducible apply foldl_fst_inv | with_reducible apply Dev.modTarget_inv | with_reducible apply Dev.count_inv | split | (with_reducible rfl) | (simp only [inv_mk, inv_fold, ite_inv]) | dsimp only

theorem Dev.mxEdge_inv (d : Dev) (t : Nat) (hI : d.Inv) : (Dev.mxEdge d t).Inv := by
  simp only [Dev.mxEdge, ite_inv, ite_self, Dev.modTarget_inv, inv_mk, inv_fold, hI]

theorem Dev.mxLost_inv (d : Dev) (t : Nat) (hI : d.Inv) : (Dev.mxLost d t).Inv := by
  unfold Dev.mxLost
  repeat' first | with_reducible assumption | with_reducible intro _ | with_reducible apply Dev.modTarget_inv | with_reducible apply Dev.raise_inv | split | (with_reducible rfl) | (simp only [inv_mk, inv_fold, ite_inv]) | dsimp only

theorem Dev.mxBlank_inv (d : Dev) (hI : d.Inv) : (Dev.mxBlank d).Inv := by
  unfold Dev.mxBlank
  repeat' first | with_reducible assumption | with_reducible intro _ | with_reducible apply foldl_inv | with_reducible apply foldl_fst_inv | with_reducible apply Dev.mxSend_inv | split | (with_reducible rfl) | (simp only [inv_mk, inv_fold, ite_inv]) | dsimp only

theorem Dev.sendThumb_inv (d : Dev) (hI : d.Inv) : (Dev.sendThumb d).Inv := by
  unfold Dev.sendThumb
  repeat' first | with_reducible assumption | with_reducible intro _ | with_reducible apply foldl_inv | with_reducible apply foldl_fst_inv | with_reducible apply Dev.modLink_inv | split | (with_reducible rfl) | (simp only [inv_mk, inv_fold, ite_inv, List.length_map, List.length_set, modAt_length, List.length_mapIdx, foldl_modAt_length]) | dsimp only

/-! ### ClockOps.lean -/

theorem Dev.throttle_inv (n : Nat) (d : Dev) (hI : d.Inv) : (Dev.throttle n d).Inv := by
  induction n generalizing d with
  | zero => exact hI
  | succ n ih =>
    unfold Dev.throttle
    dsimp only
    repeat' first | with_reducible assumption | split | with_reducible apply ih | with_reducible apply Dev.post_inv | with_reducible apply Dev.count_inv | (simp only [inv_mk, inv_fold])
theorem Dev.setSticky_inv (d : Dev) (bit : Nat) (hI : d.Inv) : (Dev.setSticky d bit).Inv := by
  simp only [Dev.setSticky, inv_mk, inv_fold, hI]

theorem Dev.zeroPllQ_inv (d : Dev) (hI : d.Inv) : (Dev.zeroPllQ d).Inv := by
  simp only [Dev.zeroPllQ, inv_mk, inv_fold, hI]

theorem Dev.startRelock_inv (d : Dev) (p : Nat) (hI : d.Inv) : (Dev.startRelock d p).Inv := by
  simp (maxDischargeDepth := 30) only [Dev.startRelock, ite_inv, ite_self, Dev.modPll_inv, Dev.zeroPllQ_inv, inv_mk, inv_fold, hI]

theorem Dev.startWanted_inv (d : Dev) (hI : d.Inv) : (Dev.startWanted d).Inv := by
  unfold Dev.startWanted
  repeat' first | with_reducible assumption | with_reducible intro _ | with_reducible apply foldl_inv | with_reducible apply foldl_fst_inv | with_reducible apply Dev.startRelock_inv | split | (with_reducible rfl) | (simp only [inv_mk, inv_fold, ite_inv]) | dsimp only

theorem Dev.wantRelock_inv (d : Dev) (p : Nat) (hI : d.Inv) : (Dev.wantRelock d p).Inv := by
  simp (maxDischargeDepth := 30) only [Dev.wantRelock, ite_inv, ite_self, Dev.modPll_inv, Dev.startRelock_inv, inv_mk, inv_fold, hI]

theorem Dev.stallDram_inv (d : Dev) (pllM : Bool) (hI : d.Inv) : (Dev.stallDram d pllM).Inv := by
  unfold Dev.stallDram
  repeat' first | with_reducible assumption | with_reducible intro _ | with_reducible apply foldl_inv | with_reducible apply foldl_fst_inv | with_reducible apply Dev.abandon_inv | split | (with_reducible rfl) | (simp only [inv_mk, inv_fold]) | dsimp only

theorem Dev.pllLoss_inv (d : Dev) (p : Nat) (clamp : Bool) (hI : d.Inv) : (Dev.pllLoss d p clamp).Inv := by
  simp (maxDischargeDepth := 30) only [Dev.pllLoss, ite_inv, ite_self, Dev.modPll_inv, Dev.count_inv, Dev.raiseWith_inv, Dev.segStop_inv, Dev.setSticky_inv, Dev.startRelock_inv, Dev.wantRelock_inv, Dev.stallDram_inv, inv_mk, inv_fold, hI]

theorem Dev.pllLock_inv (d : Dev) (p : Nat) (hI : d.Inv) : (Dev.pllLock d p).Inv := by
  simp (maxDischargeDepth := 30) only [Dev.pllLock, ite_inv, ite_self, Dev.modPll_inv, Dev.post_inv, Dev.request_inv, Dev.clearFault_inv, inv_mk, inv_fold, hI]

theorem Dev.relockTimeout_inv (d : Dev) (p : Nat) (hI : d.Inv) : (Dev.relockTimeout d p).Inv := by
  simp (maxDischargeDepth := 30) only [Dev.relockTimeout, ite_inv, ite_self, Dev.count_inv, Dev.startRelock_inv, inv_mk, inv_fold, hI]

theorem Dev.dramResume_inv (d : Dev) (hI : d.Inv) : (Dev.dramResume d).Inv := by
  unfold Dev.dramResume
  repeat' first | with_reducible assumption | with_reducible intro _ | with_reducible apply Dev.release_inv | split | (with_reducible rfl) | (simp only [inv_mk, inv_fold, ite_inv]) | dsimp only

theorem Dev.setRefclk_inv (d : Dev) (good : Bool) (count : Nat) (hI : d.Inv) : (Dev.setRefclk d good count).Inv := by
  simp only [Dev.setRefclk, Dev.count_inv, inv_mk, inv_fold, hI]

theorem Dev.wantAll_inv (d : Dev) (hI : d.Inv) : (Dev.wantAll d).Inv := by
  simp only [Dev.wantAll, inv_mk, inv_fold, List.length_map, List.length_set, modAt_length, List.length_mapIdx, foldl_modAt_length, hI]

theorem Dev.refclkLoss_inv (d : Dev) (count : Nat) (hI : d.Inv) : (Dev.refclkLoss d count).Inv := by
  simp (maxDischargeDepth := 30) only [Dev.refclkLoss, ite_inv, ite_self, Dev.count_inv, Dev.raise_inv, Dev.setSticky_inv, Dev.setRefclk_inv, Dev.wantAll_inv, inv_mk, inv_fold, hI]

theorem Dev.refclkRestored_inv (d : Dev) (count : Nat) (hI : d.Inv) : (Dev.refclkRestored d count).Inv := by
  simp (maxDischargeDepth := 30) only [Dev.refclkRestored, ite_inv, ite_self, Dev.count_inv, Dev.post_inv, Dev.startWanted_inv, Dev.setRefclk_inv, inv_mk, inv_fold, hI]

theorem Dev.phaseStep_inv (d : Dev) (hI : d.Inv) : (Dev.phaseStep d).Inv := by
  simp only [Dev.phaseStep, ite_inv, ite_self, inv_mk, inv_fold, hI]

theorem Dev.updateTDie_inv (d : Dev) (hI : d.Inv) : (Dev.updateTDie d).Inv := by
  unfold Dev.updateTDie
  repeat' first | with_reducible assumption | with_reducible intro _ | with_reducible apply Dev.post_inv | with_reducible apply Dev.throttle_inv | split | (with_reducible rfl) | (simp only [inv_mk, inv_fold, ite_inv]) | dsimp only

theorem Dev.takeConversion_inv (d : Dev) (t rcTrim : Int) (hI : d.Inv) : (Dev.takeConversion d t rcTrim).Inv := by
  simp only [Dev.takeConversion, ite_inv, ite_self, inv_mk, inv_fold, hI]

theorem Dev.dieTemp_inv (d : Dev) (t rcTrim : Int) (hI : d.Inv) : (Dev.dieTemp d t rcTrim).Inv := by
  unfold Dev.dieTemp
  repeat' first | with_reducible assumption | with_reducible intro _ | with_reducible apply Dev.post_inv | with_reducible apply Dev.updateTDie_inv | with_reducible apply Dev.takeConversion_inv | with_reducible apply Dev.throttle_inv | split | (with_reducible rfl) | (simp only [inv_mk, inv_fold, ite_inv]) | dsimp only

/-! ### LinkOps.lean -/

theorem Dev.syncBts_inv (d : Dev) (l : LinkId) (hI : d.Inv) : (Dev.syncBts d l).Inv := by
  simp only [Dev.syncBts, ite_inv, ite_self, Dev.modLink_inv, inv_mk, inv_fold, hI]

theorem Dev.askStep_inv (d : Dev) (l : LinkId) (hI : d.Inv) : (Dev.askStep d l).Inv := by
  simp (maxDischargeDepth := 30) only [Dev.askStep, ite_inv, ite_self, Dev.modLink_inv, Dev.request_inv, inv_mk, inv_fold, hI]

theorem Dev.adaptDfe_inv (d : Dev) (l : LinkId) (hI : d.Inv) : (Dev.adaptDfe d l).Inv := by
  unfold Dev.adaptDfe
  repeat' first | with_reducible assumption | with_reducible intro _ | with_reducible apply foldl_inv | with_reducible apply foldl_fst_inv | with_reducible apply Dev.modLink_inv | with_reducible apply Dev.drawn_inv | split | (with_reducible rfl) | (simp only [inv_mk, inv_fold, List.length_map, List.length_set, modAt_length, List.length_mapIdx, foldl_modAt_length]) | dsimp only

theorem Dev.adaptReceivers_inv (d : Dev) (l : LinkId) (hI : d.Inv) : (Dev.adaptReceivers d l).Inv := by
  unfold Dev.adaptReceivers
  repeat' first | with_reducible assumption | with_reducible intro _ | with_reducible apply foldl_inv | with_reducible apply foldl_fst_inv | with_reducible apply Dev.drawn_inv | with_reducible apply Dev.setPar_inv | with_reducible apply Dev.adaptDfe_inv | split | (with_reducible rfl) | (simp only [inv_mk, inv_fold]) | dsimp only

theorem Dev.recordEyes_inv (d : Dev) (l : LinkId) (eyes : List Eye) (hI : d.Inv) : (Dev.recordEyes d l eyes).Inv := by
  unfold Dev.recordEyes
  repeat' first | with_reducible assumption | with_reducible intro _ | with_reducible apply foldl_inv | with_reducible apply foldl_fst_inv | with_reducible apply Dev.setPar_inv | split | (with_reducible rfl) | (simp only [inv_mk, inv_fold]) | dsimp only

theorem Dev.dropFailing_inv (d : Dev) (l : LinkId) (eyes : List Eye) (pam4 : Bool) (hI : d.Inv) : (Dev.dropFailing d l eyes pam4).Inv := by
  unfold Dev.dropFailing
  repeat' first | with_reducible assumption | with_reducible intro _ | with_reducible apply foldl_inv | with_reducible apply foldl_fst_inv | with_reducible apply Dev.modLink_inv | split | (with_reducible rfl) | (simp only [inv_mk, inv_fold, ite_inv]) | dsimp only

theorem Dev.leavePower_inv (d : Dev) (l : LinkId) (hI : d.Inv) : (Dev.leavePower d l).Inv := by
  simp only [Dev.leavePower, ite_inv, ite_self, Dev.postFree_inv, inv_mk, inv_fold, hI]

theorem Dev.toDetect_inv (d : Dev) (l : LinkId) (hI : d.Inv) : (Dev.toDetect d l).Inv := by
  simp (maxDischargeDepth := 30) only [Dev.toDetect, ite_inv, ite_self, Dev.modLink_inv, Dev.release_inv, Dev.clearFault_inv, Dev.closeFramesOf_inv, Dev.detect_inv, Dev.syncBts_inv, Dev.leavePower_inv, inv_mk, inv_fold, List.length_map, List.length_set, modAt_length, List.length_mapIdx, foldl_modAt_length, hI]

theorem Dev.toLock_inv (d : Dev) (l : LinkId) (rate : Nat) (purpose : LockPurpose) (fast : Bool) (hI : d.Inv) : (Dev.toLock d l rate purpose fast).Inv := by
  simp (maxDischargeDepth := 30) only [Dev.toLock, Dev.modLink_inv, Dev.syncBts_inv, inv_mk, inv_fold, hI]

theorem Dev.takeTraining_inv (d : Dev) (l : LinkId) (hI : d.Inv) : (Dev.takeTraining d l).Inv := by
  unfold Dev.takeTraining
  repeat' first | with_reducible assumption | with_reducible intro _ | with_reducible apply Dev.applyVal_inv | split | (with_reducible rfl) | (simp only [inv_mk, inv_fold]) | dsimp only

theorem Dev.toEye_inv (d : Dev) (l : LinkId) (hI : d.Inv) : (Dev.toEye d l).Inv := by
  simp (maxDischargeDepth := 30) only [Dev.toEye, Dev.modLink_inv, Dev.syncBts_inv, Dev.takeTraining_inv, inv_mk, inv_fold, hI]

theorem Dev.trainFail_inv (d : Dev) (l : LinkId) (hI : d.Inv) : (Dev.trainFail d l).Inv := by
  simp only [Dev.trainFail, Dev.count_inv, inv_mk, inv_fold, hI]

theorem Dev.toDown_inv (d : Dev) (l : LinkId) (hI : d.Inv) : (Dev.toDown d l).Inv := by
  simp (maxDischargeDepth := 30) only [Dev.toDown, Dev.modLink_inv, Dev.drawn_inv, Dev.release_inv, Dev.raise_inv, Dev.syncBts_inv, inv_mk, inv_fold, hI]

theorem Dev.attemptFailed_inv (d : Dev) (l : LinkId) (hI : d.Inv) : (Dev.attemptFailed d l).Inv := by
  simp (maxDischargeDepth := 30) only [Dev.attemptFailed, ite_inv, ite_self, Dev.modLink_inv, Dev.toLock_inv, Dev.trainFail_inv, Dev.toDown_inv, inv_mk, inv_fold, hI]

theorem Dev.toRecovery_inv (d : Dev) (l : LinkId) (hI : d.Inv) : (Dev.toRecovery d l).Inv := by
  simp (maxDischargeDepth := 30) only [Dev.toRecovery, Dev.modLink_inv, Dev.count_inv, Dev.postFree_inv, Dev.release_inv, Dev.syncBts_inv, Dev.leavePower_inv, inv_mk, inv_fold, hI]

theorem Dev.toStep_inv (d : Dev) (l : LinkId) (rate : Nat) (hI : d.Inv) : (Dev.toStep d l rate).Inv := by
  simp (maxDischargeDepth := 30) only [Dev.toStep, Dev.modLink_inv, Dev.syncBts_inv, inv_mk, inv_fold, hI]

theorem Dev.sendAck_inv (d : Dev) (l : LinkId) (vc : Nat) (hI : d.Inv) : (Dev.sendAck d l vc).Inv := by
  simp only [Dev.sendAck, ite_inv, ite_self, Dev.modLink_inv, inv_mk, inv_fold, hI]

theorem Dev.sendNak_inv (d : Dev) (l : LinkId) (vc : Nat) (hI : d.Inv) : (Dev.sendNak d l vc).Inv := by
  simp (maxDischargeDepth := 30) only [Dev.sendNak, ite_inv, ite_self, Dev.modLink_inv, Dev.count_inv, inv_mk, inv_fold, hI]

theorem Dev.toL0_inv (d : Dev) (l : LinkId) (hI : d.Inv) : (Dev.toL0 d l).Inv := by
  simp (maxDischargeDepth := 30) only [Dev.toL0, ite_inv, ite_self, Dev.modLink_inv, Dev.pumpLink_inv, Dev.postFree_inv, Dev.release_inv, Dev.clearFault_inv, Dev.syncBts_inv, Dev.askStep_inv, Dev.sendAck_inv, inv_mk, inv_fold, hI]

theorem Dev.toL2_inv (d : Dev) (l : LinkId) (hI : d.Inv) : (Dev.toL2 d l).Inv := by
  simp (maxDischargeDepth := 30) only [Dev.toL2, ite_inv, ite_self, Dev.modLink_inv, Dev.postFree_inv, Dev.release_inv, Dev.syncBts_inv, inv_mk, inv_fold, hI]

theorem Dev.toTrain_inv (d : Dev) (l : LinkId) (stored : Bool) (hI : d.Inv) : (Dev.toTrain d l stored).Inv := by
  unfold Dev.toTrain
  (repeat' split) <;> first | with_reducible exact hI | (simp (maxDischargeDepth := 30) only [foldl_inv, ite_inv, ite_self, Dev.modLink_inv, Dev.syncBts_inv, Dev.takeTraining_inv, inv_mk, inv_fold, hI]; done)

theorem Dev.nextTap_inv (d : Dev) (l : LinkId) (phys : Nat) (r : TapReq) (hI : d.Inv) : (Dev.nextTap d l phys r).Inv := by
  simp (maxDischargeDepth := 30) only [Dev.nextTap, ite_inv, ite_self, Dev.modLink_inv, Dev.drawn_inv, Dev.count_inv, inv_mk, inv_fold, List.length_map, List.length_set, modAt_length, List.length_mapIdx, foldl_modAt_length, hI]

theorem Dev.spareExhausted_inv (d : Dev) (l : LinkId) (hI : d.Inv) : (Dev.spareExhausted d l).Inv := by
  simp (maxDischargeDepth := 30) only [Dev.spareExhausted, Dev.drawn_inv, Dev.raise_inv, Dev.toRecovery_inv, inv_mk, inv_fold, hI]

theorem Dev.laneFault_inv (d : Dev) (l : LinkId) (phys : Nat) (hI : d.Inv) : (Dev.laneFault d l phys).Inv := by
  unfold Dev.laneFault
  repeat' first | with_reducible assumption | with_reducible intro _ | with_reducible apply Dev.modLink_inv | with_reducible apply Dev.syncBts_inv | with_reducible apply Dev.spareExhausted_inv | split | (with_reducible rfl) | (simp only [inv_mk, inv_fold, ite_inv, List.length_map, List.length_set, modAt_length, List.length_mapIdx, foldl_modAt_length]) | dsimp only

theorem Dev.moveLane_inv (d : Dev) (l : LinkId) (logical : Nat) (hI : d.Inv) : (Dev.moveLane d l logical).Inv := by
  unfold Dev.moveLane
  repeat' first | with_reducible assumption | with_reducible intro _ | with_reducible apply Dev.modLink_inv | with_reducible apply Dev.postFree_inv | with_reducible apply Dev.syncBts_inv | split | (with_reducible rfl) | (simp only [inv_mk, inv_fold, List.length_map, List.length_set, modAt_length, List.length_mapIdx, foldl_modAt_length]) | dsimp only

theorem Dev.checkHusk_inv (d : Dev) (l : LinkId) (h : RxHusk) (hI : d.Inv) : (Dev.checkHusk d l h).1.Inv := by
  unfold Dev.checkHusk
  repeat' first | with_reducible assumption | with_reducible intro _ | with_reducible apply Dev.count_inv | with_reducible apply Dev.sendNak_inv | split | (with_reducible rfl) | (simp only [inv_mk, inv_fold, ite_inv]) | dsimp only

theorem Dev.acceptVc1_inv (d : Dev) (l : LinkId) (seq : Nat) (hI : d.Inv) : (Dev.acceptVc1 d l seq).1.Inv := by
  unfold Dev.acceptVc1
  repeat' first | with_reducible assumption | with_reducible intro _ | with_reducible apply Dev.modLink_inv | with_reducible apply Dev.count_inv | with_reducible apply Dev.sendAck_inv | with_reducible apply Dev.sendNak_inv | split | (with_reducible rfl) | (simp only [inv_mk, inv_fold, ite_inv]) | dsimp only

theorem Dev.ackVc1_inv (d : Dev) (l : LinkId) (next credit : Nat) (hI : d.Inv) : (Dev.ackVc1 d l next credit).Inv := by
  simp only [Dev.ackVc1, ite_inv, ite_self, Dev.modLink_inv, inv_mk, inv_fold, hI]

theorem Dev.replayVc1_inv (d : Dev) (l : LinkId) (hI : d.Inv) : (Dev.replayVc1 d l).Inv := by
  simp (maxDischargeDepth := 30) only [Dev.replayVc1, Dev.modLink_inv, Dev.count_inv, inv_mk, inv_fold, List.length_map, List.length_set, modAt_length, List.length_mapIdx, foldl_modAt_length, hI]

theorem Dev.retrain1_inv (d : Dev) (l : LinkId) (hI : d.Inv) : (Dev.retrain1 d l).Inv := by
  simp only [Dev.retrain1, ite_inv, ite_self, Dev.toRecovery_inv, inv_mk, inv_fold, hI]

theorem Dev.replayLimit_inv (d : Dev) (l : LinkId) (hI : d.Inv) : (Dev.replayLimit d l).Inv := by
  simp (maxDischargeDepth := 30) only [Dev.replayLimit, ite_inv, ite_self, Dev.modLink_inv, Dev.postFree_inv, Dev.retrain1_inv, inv_mk, inv_fold, hI]

theorem Dev.heldReplay_inv (d : Dev) (l : LinkId) (hI : d.Inv) : (Dev.heldReplay d l).Inv := by
  simp (maxDischargeDepth := 30) only [Dev.heldReplay, ite_inv, ite_self, Dev.modLink_inv, Dev.replayVc1_inv, Dev.replayLimit_inv, inv_mk, inv_fold, hI]

end Sys2Proof.Machine
end

