-- ==== Sys2Proof/Laws/InvBeam.lean ====
section
/-! SUPPORT. The operations of calibration, Shutter, NOR, beam and mode, journal, refresh and boot keep the invariant. -/

namespace Sys2Proof.Machine

open Sys2Proof

/-! ### CalOps.lean -/

theorem Dev.startCover_inv (d : Dev) (ch : Nat) (hI : d.Inv) : (Dev.startCover d ch).Inv := by
  unfold Dev.startCover
  (repeat' split) <;> first | with_reducible exact hI | (simp (maxDischargeDepth := 30) only [Dev.modLink_inv, Dev.modMport_inv, Dev.syncBts_inv, inv_mk, inv_fold, List.length_map, List.length_set, modAt_length, List.length_mapIdx, foldl_modAt_length, hI]; done)

theorem Dev.endCover_inv (d : Dev) (ch : Nat) (hI : d.Inv) : (Dev.endCover d ch).Inv := by
  unfold Dev.endCover
  (repeat' split) <;> first | with_reducible exact hI | (simp (maxDischargeDepth := 30) only [ite_inv, ite_self, Dev.modLink_inv, Dev.modMport_inv, Dev.syncBts_inv, inv_mk, inv_fold, hI]; done)

theorem Dev.withdrawCover_inv (d : Dev) (ch : Nat) (hI : d.Inv) : (Dev.withdrawCover d ch).Inv := by
  unfold Dev.withdrawCover
  (repeat' split) <;> first | with_reducible exact hI | (simp (maxDischargeDepth := 30) only [Dev.modLink_inv, Dev.endCover_inv, inv_mk, inv_fold, hI]; done)

theorem Dev.modRun_inv (d : Dev) (f : CalRun → CalRun) (hI : d.Inv) : (Dev.modRun d f).Inv := by
  simp only [Dev.modRun, inv_mk, inv_fold, List.length_map, List.length_set, modAt_length, List.length_mapIdx, foldl_modAt_length, hI]

theorem Dev.applyCorr_inv (d : Dev) (w : Nat × Int × Int) (hI : d.Inv) : (Dev.applyCorr d w).Inv := by
  simp (maxDischargeDepth := 30) only [Dev.applyCorr, Dev.setCorr_inv, Dev.modRun_inv, inv_mk, inv_fold, hI]

theorem Dev.skipChannels_inv (d : Dev) (chs : List Nat) (hI : d.Inv) : (Dev.skipChannels d chs).Inv := by
  simp (maxDischargeDepth := 30) only [Dev.skipChannels, ite_inv, ite_self, Dev.count_inv, Dev.modRun_inv, inv_mk, inv_fold, hI]

theorem Dev.dropLost_inv (d : Dev) (hI : d.Inv) : (Dev.dropLost d).Inv := by
  unfold Dev.dropLost
  repeat' first | with_reducible assumption | with_reducible intro _ | with_reducible apply foldl_inv | with_reducible apply foldl_fst_inv | with_reducible apply Dev.endCover_inv | with_reducible apply Dev.modRun_inv | with_reducible apply Dev.skipChannels_inv | split | (with_reducible rfl) | (simp only [inv_mk, inv_fold]) | dsimp only

theorem Dev.nextCover_inv (d : Dev) (scope : Nat) (hI : d.Inv) : (Dev.nextCover d scope).Inv := by
  unfold Dev.nextCover
  (repeat' split) <;> first | with_reducible exact hI | (simp (maxDischargeDepth := 30) only [ite_inv, ite_self, Dev.startCover_inv, Dev.modRun_inv, inv_mk, inv_fold, hI]; done)

theorem Dev.releaseCovers_inv (d : Dev) (p : Nat → Bool) (hI : d.Inv) : (Dev.releaseCovers d p).Inv := by
  unfold Dev.releaseCovers
  repeat' first | with_reducible assumption | with_reducible intro _ | with_reducible apply foldl_inv | with_reducible apply foldl_fst_inv | with_reducible apply Dev.endCover_inv | with_reducible apply Dev.modRun_inv | split | (with_reducible rfl) | (simp only [inv_mk, inv_fold]) | dsimp only

theorem Dev.applyWaiting_inv (d : Dev) (p : Nat → Bool) (hI : d.Inv) : (Dev.applyWaiting d p).Inv := by
  unfold Dev.applyWaiting
  repeat' first | with_reducible assumption | with_reducible intro _ | with_reducible apply foldl_inv | with_reducible apply foldl_fst_inv | with_reducible apply Dev.setCorr_inv | with_reducible apply Dev.applyCorr_inv | split | (with_reducible rfl) | (simp only [inv_mk, inv_fold]) | dsimp only

theorem Dev.storeSet_inv (d : Dev) (r : CalRun) (hI : d.Inv) : (Dev.storeSet d r).Inv := by
  unfold Dev.storeSet
  repeat' first | with_reducible assumption | with_reducible intro _ | with_reducible apply Dev.request_inv | split | (with_reducible rfl) | (simp only [inv_mk, inv_fold, ite_inv, List.length_map, List.length_set, modAt_length, List.length_mapIdx, foldl_modAt_length]) | dsimp only

theorem Dev.calSetsWritten_inv (d : Dev) (hI : d.Inv) : (Dev.calSetsWritten d).Inv := by
  unfold Dev.calSetsWritten
  repeat' first | with_reducible assumption | with_reducible intro _ | with_reducible apply Dev.release_inv | split | (with_reducible rfl) | (simp only [inv_mk, inv_fold, ite_inv, List.length_map, List.length_set, modAt_length, List.length_mapIdx, foldl_modAt_length]) | dsimp only

theorem Dev.followSets_inv (d : Dev) (hI : d.Inv) : (Dev.followSets d).Inv := by
  simp only [Dev.followSets, ite_inv, ite_self, inv_mk, inv_fold, List.length_map, List.length_set, modAt_length, List.length_mapIdx, foldl_modAt_length, hI]

theorem Dev.checkRef_inv (d : Dev) (hI : d.Inv) : (Dev.checkRef d).Inv := by
  unfold Dev.checkRef
  (repeat' split) <;> first | with_reducible exact hI | (simp (maxDischargeDepth := 30) only [ite_inv, ite_self, Dev.post_inv, Dev.raise_inv, Dev.clearFault_inv, Dev.skipChannels_inv, inv_mk, inv_fold, hI]; done)

theorem Dev.openRun_inv (d : Dev) (scopes : BitVec 3) (auto startup : Bool) (p : Port) (tag : Nat) (hI : d.Inv) : (Dev.openRun d scopes auto startup p tag).Inv := by
  simp only [Dev.openRun, inv_mk, inv_fold, hI]

theorem Dev.beginRun_inv (d : Dev) (hI : d.Inv) : (Dev.beginRun d).Inv := by
  simp (maxDischargeDepth := 30) only [Dev.beginRun, Dev.dropLost_inv, Dev.nextCover_inv, Dev.checkRef_inv, inv_mk, inv_fold, hI]

theorem Dev.askRun_inv (d : Dev) (scopes : BitVec 3) (auto : Bool) (p : Port) (tag : Nat) (hI : d.Inv) : (Dev.askRun d scopes auto p tag).1.Inv := by
  unfold Dev.askRun
  repeat' first | with_reducible assumption | with_reducible intro _ | with_reducible apply Dev.request_inv | with_reducible apply Dev.openRun_inv | with_reducible apply Dev.beginRun_inv | split | (with_reducible rfl) | (simp only [inv_mk, inv_fold, ite_inv]) | dsimp only

theorem Dev.markScopes_inv (d : Dev) (r : CalRun) (n : BitVec 3) (hI : d.Inv) : (Dev.markScopes d r n).Inv := by
  unfold Dev.markScopes
  repeat' first | with_reducible assumption | with_reducible intro _ | with_reducible apply Dev.post_inv | with_reducible apply Dev.modRun_inv | split | (with_reducible rfl) | (simp only [inv_mk, inv_fold, ite_inv, List.length_map, List.length_set, modAt_length, List.length_mapIdx, foldl_modAt_length]) | dsimp only

theorem Dev.finishRun_inv (d : Dev) (hI : d.Inv) : (Dev.finishRun d).Inv := by
  unfold Dev.finishRun
  repeat' first | with_reducible assumption | with_reducible intro _ | with_reducible apply Dev.count_inv | with_reducible apply Dev.finish_inv | with_reducible apply Dev.finishWith_inv | with_reducible apply Dev.release_inv | with_reducible apply Dev.storeSet_inv | with_reducible apply Dev.askRun_inv | with_reducible apply Dev.markScopes_inv | split | (with_reducible rfl) | (simp only [inv_mk, inv_fold, ite_inv]) | dsimp only

theorem Dev.calAdvance_inv (d : Dev) (hI : d.Inv) : (Dev.calAdvance d).Inv := by
  simp (maxDischargeDepth := 30) only [Dev.calAdvance, ite_inv, ite_self, Dev.dropLost_inv, Dev.nextCover_inv, Dev.finishRun_inv, inv_mk, inv_fold, hI]

theorem Dev.calDsk_inv (d : Dev) (l : LinkId) (hI : d.Inv) : (Dev.calDsk d l).Inv := by
  simp (maxDischargeDepth := 30) only [Dev.calDsk, Dev.releaseCovers_inv, Dev.applyWaiting_inv, Dev.calAdvance_inv, inv_mk, inv_fold, hI]

theorem Dev.calGap_inv (d : Dev) (s : Nat) (hI : d.Inv) : (Dev.calGap d s).Inv := by
  simp (maxDischargeDepth := 30) only [Dev.calGap, Dev.releaseCovers_inv, Dev.applyWaiting_inv, Dev.calAdvance_inv, inv_mk, inv_fold, hI]

theorem Dev.calRefresh_inv (d : Dev) (hI : d.Inv) : (Dev.calRefresh d).Inv := by
  simp (maxDischargeDepth := 30) only [Dev.calRefresh, ite_inv, ite_self, Dev.dropLost_inv, Dev.nextCover_inv, Dev.releaseCovers_inv, Dev.applyWaiting_inv, Dev.calAdvance_inv, inv_mk, inv_fold, hI]

theorem Dev.calIdle_inv (d : Dev) (hI : d.Inv) : (Dev.calIdle d).Inv := by
  unfold Dev.calIdle
  repeat' first | with_reducible assumption | with_reducible intro _ | with_reducible apply foldl_inv | with_reducible apply foldl_fst_inv | with_reducible apply Dev.applyWaiting_inv | with_reducible apply Dev.finishRun_inv | with_reducible apply Dev.calGap_inv | split | (with_reducible rfl) | (simp only [inv_mk, inv_fold, ite_inv]) | dsimp only

theorem Dev.judgeChannel_inv (d : Dev) (r : CalRun) (ch : Nat) (vs : List CalValue) (hI : d.Inv) : (Dev.judgeChannel d r ch vs).Inv := by
  unfold Dev.judgeChannel
  repeat' first | with_reducible assumption | with_reducible intro _ | with_reducible apply Dev.count_inv | with_reducible apply Dev.raise_inv | with_reducible apply Dev.clearFault_inv | with_reducible apply Dev.modRun_inv | split | (with_reducible rfl) | (simp only [inv_mk, inv_fold]) | dsimp only

theorem Dev.clearTrial_inv (d : Dev) (ch : Nat) (hI : d.Inv) : (Dev.clearTrial d ch).Inv := by
  unfold Dev.clearTrial
  (repeat' split) <;> first | with_reducible exact hI | (simp only [Dev.modMport_inv, inv_mk, inv_fold, hI]; done)

theorem Dev.calMeasured_inv (d : Dev) (ch : Nat) (v : CalValue) (hI : d.Inv) : (Dev.calMeasured d ch v).Inv := by
  unfold Dev.calMeasured
  (repeat' split) <;> first | with_reducible exact hI | (simp (maxDischargeDepth := 30) only [ite_inv, ite_self, Dev.calAdvance_inv, Dev.calIdle_inv, Dev.judgeChannel_inv, Dev.clearTrial_inv, inv_mk, inv_fold, hI]; done)

theorem Dev.calTrigger_inv (d : Dev) (ref : Nat) (hI : d.Inv) : (Dev.calTrigger d ref).Inv := by
  unfold Dev.calTrigger
  repeat' first | with_reducible assumption | with_reducible intro _ | with_reducible apply Dev.request_inv | with_reducible apply Dev.followSets_inv | with_reducible apply Dev.askRun_inv | with_reducible apply Dev.calAdvance_inv | with_reducible apply Dev.calIdle_inv | split | (with_reducible rfl) | (simp only [inv_mk, inv_fold, ite_inv]) | dsimp only

theorem Dev.calTicket_inv (d : Dev) (hI : d.Inv) : (Dev.calTicket d).Inv := by
  unfold Dev.calTicket
  repeat' first | with_reducible assumption | with_reducible intro _ | with_reducible apply Dev.finishWith_inv | with_reducible apply Dev.beginRun_inv | with_reducible apply Dev.calAdvance_inv | with_reducible apply Dev.calIdle_inv | split | (with_reducible rfl) | (simp only [inv_mk, inv_fold, ite_inv]) | dsimp only

theorem Dev.calRunCmd_inv (d : Dev) (p : Port) (tag : Nat) (scopes : BitVec 3) (force : Bool) (hI : d.Inv) : (Dev.calRunCmd d p tag scopes force).Inv := by
  have hp := Dev.askRun_inv d scopes false p tag hI
  unfold Dev.calRunCmd
  repeat' first | with_reducible assumption | (split)  | with_reducible apply Dev.finish_inv | with_reducible apply Dev.finishWith_inv | with_reducible apply Dev.waits_inv | with_reducible apply Dev.askRun_inv | with_reducible apply Dev.calAdvance_inv | with_reducible apply Dev.calIdle_inv | (simp only [inv_mk, inv_fold]) | (dsimp only) | (simp_all only [])

theorem Dev.endRun_inv (d : Dev) (hI : d.Inv) : (Dev.endRun d).Inv := by
  unfold Dev.endRun
  repeat' first | with_reducible assumption | with_reducible intro _ | with_reducible apply foldl_inv | with_reducible apply foldl_fst_inv | with_reducible apply Dev.release_inv | with_reducible apply Dev.withdrawCover_inv | split | (with_reducible rfl) | (simp only [inv_mk, inv_fold]) | dsimp only

theorem Dev.abortRun_inv (d : Dev) (p : Port) (tag : Nat) (hI : d.Inv) : (Dev.abortRun d p tag).Inv := by
  unfold Dev.abortRun
  repeat' first | with_reducible assumption | with_reducible intro _ | with_reducible apply foldl_inv | with_reducible apply foldl_fst_inv | with_reducible apply Dev.finishWith_inv | with_reducible apply Dev.askRun_inv | with_reducible apply Dev.calIdle_inv | with_reducible apply Dev.endRun_inv | split | (with_reducible rfl) | (simp only [inv_mk, inv_fold, ite_inv]) | dsimp only

theorem Dev.calProjection_inv (d : Dev) (s : Nat) (hI : d.Inv) : (Dev.calProjection d s).Inv := by
  simp only [Dev.calProjection, Dev.modRun_inv, inv_mk, inv_fold, hI]

theorem Dev.startupRun_inv (d : Dev) (hI : d.Inv) : (Dev.startupRun d).Inv := by
  simp (maxDischargeDepth := 30) only [Dev.startupRun, Dev.checkRef_inv, Dev.openRun_inv, inv_mk, inv_fold, hI]

theorem Dev.endStartup_inv (d : Dev) (hI : d.Inv) : (Dev.endStartup d).Inv := by
  unfold Dev.endStartup
  repeat' first | with_reducible assumption | with_reducible intro _ | with_reducible apply Dev.modRun_inv | with_reducible apply Dev.applyWaiting_inv | with_reducible apply Dev.finishRun_inv | split | (with_reducible rfl) | (simp only [inv_mk, inv_fold, ite_inv]) | dsimp only

/-! ### ShutterOps.lean -/

theorem Dev.abandonRaster_inv (d : Dev) (hI : d.Inv) : (Dev.abandonRaster d).Inv := by
  simp only [Dev.abandonRaster, inv_mk, inv_fold, hI]

theorem Dev.clearReady_inv (d : Dev) (hI : d.Inv) : (Dev.clearReady d).Inv := by
  unfold Dev.clearReady
  repeat' first | with_reducible assumption | with_reducible intro _ | with_reducible apply foldl_inv | with_reducible apply foldl_fst_inv | with_reducible apply Dev.modMask_inv | split | (with_reducible rfl) | (simp only [inv_mk, inv_fold]) | dsimp only

theorem Dev.applySht_inv (d : Dev) (hI : d.Inv) : (Dev.applySht d).Inv := by
  unfold Dev.applySht
  repeat' first | with_reducible assumption | with_reducible intro _ | with_reducible apply foldl_inv | with_reducible apply foldl_fst_inv | with_reducible apply Dev.applyVal_inv | with_reducible apply Dev.applyArr_inv | split | (with_reducible rfl) | (simp only [inv_mk, inv_fold]) | dsimp only

theorem Dev.startRaster_inv (d : Dev) (kind : RasterKind) (l : Option ObjList) (hI : d.Inv) : (Dev.startRaster d kind l).Inv := by
  unfold Dev.startRaster
  repeat' first | with_reducible assumption | with_reducible intro _ | with_reducible apply foldl_inv | with_reducible apply foldl_fst_inv | with_reducible apply Dev.modMask_inv | with_reducible apply Dev.drawn_inv | with_reducible apply Dev.clearReady_inv | with_reducible apply Dev.applySht_inv | split | (with_reducible rfl) | (simp only [inv_mk, inv_fold, ite_inv]) | dsimp only

theorem Dev.judgeMask_inv (d : Dev) (kind : RasterKind) (s : Nat) (hI : d.Inv) : (Dev.judgeMask d kind s).Inv := by
  unfold Dev.judgeMask
  repeat' first | with_reducible assumption | with_reducible intro _ | with_reducible apply Dev.modMask_inv | with_reducible apply Dev.raise_inv | split | (with_reducible rfl) | (simp only [inv_mk, inv_fold, ite_inv, List.length_map, List.length_set, modAt_length, List.length_mapIdx, foldl_modAt_length]) | dsimp only

theorem Dev.startPending_inv (d : Dev) (hI : d.Inv) : (Dev.startPending d).Inv := by
  unfold Dev.startPending
  repeat' first | with_reducible assumption | with_reducible intro _ | with_reducible apply Dev.startRaster_inv | split | (with_reducible rfl) | (simp only [inv_mk, inv_fold]) | dsimp only

theorem Dev.endRaster_inv (d : Dev) (ticks : Nat) (hI : d.Inv) : (Dev.endRaster d ticks).Inv := by
  unfold Dev.endRaster
  repeat' first | with_reducible assumption | with_reducible intro _ | with_reducible apply foldl_inv | with_reducible apply foldl_fst_inv | with_reducible apply Dev.modMask_inv | with_reducible apply Dev.setPar_inv | with_reducible apply Dev.judgeMask_inv | with_reducible apply Dev.startPending_inv | split | (with_reducible rfl) | (simp only [inv_mk, inv_fold, ite_inv]) | dsimp only

theorem Dev.rasterOverdue_inv (d : Dev) (hI : d.Inv) : (Dev.rasterOverdue d).Inv := by
  unfold Dev.rasterOverdue
  (repeat' split) <;> first | with_reducible exact hI | (simp (maxDischargeDepth := 30) only [ite_inv, ite_self, Dev.count_inv, Dev.raise_inv, Dev.abandonRaster_inv, Dev.startPending_inv, inv_mk, inv_fold, hI]; done)

theorem Dev.repredict_inv (d : Dev) (hI : d.Inv) : (Dev.repredict d).Inv := by
  unfold Dev.repredict
  (repeat' split) <;> first | with_reducible exact hI | (simp only [ite_inv, ite_self, Dev.startRaster_inv, inv_mk, inv_fold, hI]; done)

theorem Dev.staleRaster_inv (d : Dev) (hI : d.Inv) : (Dev.staleRaster d).Inv := by
  simp (maxDischargeDepth := 30) only [Dev.staleRaster, Dev.abandonRaster_inv, Dev.startRaster_inv, inv_mk, inv_fold, hI]

theorem Dev.rasterList_inv (d : Dev) (l : ObjList) (hI : d.Inv) : (Dev.rasterList d l).Inv := by
  unfold Dev.rasterList
  (repeat' split) <;> first | with_reducible exact hI | (simp (maxDischargeDepth := 30) only [ite_inv, ite_self, Dev.count_inv, Dev.abandonRaster_inv, Dev.startRaster_inv, inv_mk, inv_fold, hI]; done)

theorem Dev.acceptList_inv (d : Dev) (b : List Byte) (hI : d.Inv) : (Dev.acceptList d b).Inv := by
  unfold Dev.acceptList
  repeat' first | with_reducible assumption | with_reducible intro _ | with_reducible apply Dev.count_inv | with_reducible apply Dev.post_inv | with_reducible apply Dev.rasterList_inv | split | (with_reducible rfl) | (simp only [inv_mk, inv_fold, ite_inv]) | dsimp only

theorem Dev.handList_inv (d : Dev) (path : Nat) (b : List Byte) (hI : d.Inv) : (Dev.handList d path b).1.Inv := by
  unfold Dev.handList
  (repeat' split) <;> first | with_reducible exact hI | (simp (maxDischargeDepth := 30) only [ite_inv, ite_self, Dev.count_inv, Dev.post_inv, Dev.acceptList_inv, inv_mk, inv_fold, hI]; done)

theorem Dev.skipPending_inv (d : Dev) (hI : d.Inv) : (Dev.skipPending d).Inv := by
  unfold Dev.skipPending
  repeat' first | with_reducible assumption | with_reducible intro _ | with_reducible apply Dev.count_inv | split | (with_reducible rfl) | (simp only [inv_mk, inv_fold, ite_inv]) | dsimp only

theorem Dev.goStale_inv (d : Dev) (hI : d.Inv) : (Dev.goStale d).Inv := by
  unfold Dev.goStale
  repeat' first | with_reducible assumption | with_reducible intro _ | with_reducible apply Dev.count_inv | with_reducible apply Dev.post_inv | with_reducible apply Dev.abandonRaster_inv | with_reducible apply Dev.clearReady_inv | with_reducible apply Dev.staleRaster_inv | with_reducible apply Dev.skipPending_inv | split | (with_reducible rfl) | (simp only [inv_mk, inv_fold, ite_inv]) | dsimp only

theorem Dev.holdEnds_inv (d : Dev) (hI : d.Inv) : (Dev.holdEnds d).Inv := by
  unfold Dev.holdEnds
  repeat' first | with_reducible assumption | with_reducible intro _ | with_reducible apply Dev.staleRaster_inv | split | (with_reducible rfl) | (simp only [inv_mk, inv_fold, ite_inv]) | dsimp only

theorem Dev.restale_inv (d : Dev) (old : Int × Int) (hI : d.Inv) : (Dev.restale d old).Inv := by
  simp only [Dev.restale, ite_inv, ite_self, Dev.staleRaster_inv, inv_mk, inv_fold, hI]

theorem Dev.bootShutter_inv (d : Dev) (hI : d.Inv) : (Dev.bootShutter d).Inv := by
  unfold Dev.bootShutter
  repeat' first | with_reducible assumption | with_reducible intro _ | with_reducible apply Dev.staleRaster_inv | split | (with_reducible rfl) | (simp only [inv_mk, inv_fold, ite_inv]) | dsimp only

theorem Dev.reformMasks_inv (d : Dev) (hI : d.Inv) : (Dev.reformMasks d).Inv := by
  unfold Dev.reformMasks
  repeat' first | with_reducible assumption | with_reducible intro _ | with_reducible apply foldl_inv | with_reducible apply foldl_fst_inv | with_reducible apply Dev.modMask_inv | split | (with_reducible rfl) | (simp only [inv_mk, inv_fold]) | dsimp only

theorem Dev.storeGeometry_inv (d : Dev) (g : List Byte) (hI : d.Inv) : (Dev.storeGeometry d g).Inv := by
  simp only [Dev.storeGeometry, inv_mk, inv_fold, hI]

/-! ### NorOps.lean -/

theorem Sound.withCells {a0 a1 a2 a3 a4 a5 a6 a7 a8 a9 a10 a11 a12 a13 a14 a15 a16 a17 a18 a19 a20} {x : List Host.Cell} (h : Sound a0 a1 a2 a3 a4 a5 a6 a7 a8 a9 a10 a11 a12 a13 a14 a15 a16 a17 a18 a19 a20) (hh : Memory.wf x = true) :
    Sound x a1 a2 a3 a4 a5 a6 a7 a8 a9 a10 a11 a12 a13 a14 a15 a16 a17 a18 a19 a20 := { h with cells := hh }

theorem Dev.modCells_inv (d : Dev) (f : List Host.Cell → List Host.Cell) (hf : ∀ l, Memory.wf l = true → Memory.wf (f l) = true)
    (hI : d.Inv) : (d.modCells f).Inv := by
  unfold Dev.modCells
  rw [inv_mk]; exact Sound.withCells hI (hf _ hI.cells)

theorem Dev.norProgram_inv (d : Dev) (off : Nat) (bs : List Byte) (hI : d.Inv) : (Dev.norProgram d off bs).Inv := by
  unfold Dev.norProgram
  dsimp only
  rw [inv_mk]
  exact Dev.modCells_inv _ _ (fun l h => norStore_wf _ _ h) hI

theorem Dev.norBad_inv (d : Dev) (off n : Nat) (hI : d.Inv) : (Dev.norBad d off n).Inv := by
  unfold Dev.norBad
  dsimp only
  rw [inv_mk]
  exact Dev.modCells_inv _ _ (fun l h => norStore_wf _ _ h) hI

theorem Dev.loadResident_inv (d : Dev) (s : Nat) (hI : d.Inv) : (Dev.loadResident d s).Inv := by
  simp only [Dev.loadResident, Dev.modBase_inv, inv_mk, inv_fold, hI]

theorem Dev.putDir_inv (d : Dev) (r : DirRec) (hI : d.Inv) : (Dev.putDir d r).Inv := by
  have h0 : ∀ k, ({ d with nor := d.nor.addDir k r } : Dev).Inv := by
    intro k; unfold Nor.addDir; split <;> (rw [inv_mk]; exact hI)
  unfold Dev.putDir
  dsimp only
  repeat' split
  · exact h0 _
  · exact h0 _
  · exact Dev.request_inv _ _ (by rw [inv_mk]; exact hI)

theorem Dev.writeDir_inv (d : Dev) (f : DirRec → DirRec) (hI : d.Inv) : (Dev.writeDir d f).Inv := by
  simp only [Dev.writeDir, Dev.putDir_inv, inv_mk, inv_fold, hI]

theorem Dev.dirRoom_inv (d : Dev) (hI : d.Inv) : (Dev.dirRoom d).Inv := by
  simp only [Dev.dirRoom, ite_inv, ite_self, Dev.request_inv, inv_mk, inv_fold, hI]

theorem Dev.dirErased_inv (d : Dev) (hI : d.Inv) : (Dev.dirErased d).Inv := by
  unfold Dev.dirErased
  repeat' first | with_reducible assumption | with_reducible intro _ | with_reducible apply foldl_inv | with_reducible apply foldl_fst_inv | with_reducible apply Dev.release_inv | with_reducible apply Dev.putDir_inv | split | (with_reducible rfl) | (simp only [inv_mk, inv_fold, ite_inv]) | dsimp only

/-! ### BeamOps.lean -/

theorem Dev.closeSession_inv (d : Dev) (hI : d.Inv) : (Dev.closeSession d).Inv := by
  unfold Dev.closeSession
  repeat' first | with_reducible assumption | with_reducible intro _ | with_reducible apply foldl_inv | with_reducible apply foldl_fst_inv | with_reducible apply Dev.finishWith_inv | with_reducible apply Dev.release_inv | split | (with_reducible rfl) | (simp only [inv_mk, inv_fold, ite_inv]) | dsimp only

theorem Dev.goTo_inv (d : Dev) (new : DevState) (cause : Nat) (hI : d.Inv) : (Dev.goTo d new cause).Inv := by
  simp (maxDischargeDepth := 30) only [Dev.goTo, Dev.setState_inv, Dev.closeSession_inv, inv_mk, inv_fold, hI]

theorem Dev.carryMask_inv (d : Dev) (m : Nat) (hI : d.Inv) : (Dev.carryMask d m).Inv := by
  unfold Dev.carryMask
  repeat' first | with_reducible assumption | with_reducible intro _ | with_reducible apply Dev.post_inv | split | (with_reducible rfl) | (simp only [inv_mk, inv_fold, ite_inv]) | dsimp only

theorem Dev.keepTestFrame_inv (d : Dev) (m : Nat) (hI : d.Inv) : (Dev.keepTestFrame d m).Inv := by
  unfold Dev.keepTestFrame
  repeat' first | with_reducible assumption | with_reducible intro _ | with_reducible apply foldl_inv | with_reducible apply foldl_fst_inv | with_reducible apply Dev.modPipe_inv | split | (with_reducible rfl) | (simp only [inv_mk, inv_fold, ite_inv]) | dsimp only

theorem Dev.camModeChange_inv (d : Dev) (m : Nat) (hI : d.Inv) : (Dev.camModeChange d m).Inv := by
  simp only [Dev.camModeChange, ite_inv, ite_self, inv_mk, inv_fold, hI]

theorem Dev.rechoose_inv (d : Dev) (hI : d.Inv) : (Dev.rechoose d).Inv := by
  unfold Dev.rechoose
  repeat' first | with_reducible assumption | with_reducible intro _ | with_reducible apply foldl_inv | with_reducible apply foldl_fst_inv | with_reducible apply Dev.post_inv | with_reducible apply Dev.finishWith_inv | with_reducible apply Dev.closeSession_inv | split | (with_reducible rfl) | (simp only [inv_mk, inv_fold, ite_inv]) | dsimp only

theorem Dev.takeMode_inv (d : Dev) (m : Nat) (bridged : Bool) (hI : d.Inv) : (Dev.takeMode d m bridged).Inv := by
  unfold Dev.takeMode
  repeat' first | with_reducible assumption | with_reducible intro _ | with_reducible apply Dev.rectsModeChange_inv | with_reducible apply Dev.carryMask_inv | with_reducible apply Dev.keepTestFrame_inv | with_reducible apply Dev.camModeChange_inv | with_reducible apply Dev.rechoose_inv | split | (with_reducible rfl) | (simp only [inv_mk, inv_fold, ite_inv]) | dsimp only

theorem Dev.changeMode_inv (d : Dev) (m : Nat) (bridged : Bool) (hI : d.Inv) : (Dev.changeMode d m bridged).Inv := by
  simp (maxDischargeDepth := 30) only [Dev.changeMode, Dev.count_inv, Dev.post_inv, Dev.takeMode_inv, inv_mk, inv_fold, hI]

theorem Dev.restartTimeline_inv (d : Dev) (hI : d.Inv) : (Dev.restartTimeline d).Inv := by
  unfold Dev.restartTimeline
  repeat' first | with_reducible assumption | with_reducible intro _ | with_reducible apply foldl_inv | with_reducible apply foldl_fst_inv | with_reducible apply Dev.dropPass_inv | split | (with_reducible rfl) | (simp only [inv_mk, inv_fold]) | dsimp only

theorem Dev.moveSideR_inv (d : Dev) (m : Nat) (hI : d.Inv) : (Dev.moveSideR d m).Inv := by
  simp (maxDischargeDepth := 30) only [Dev.moveSideR, ite_inv, ite_self, Dev.powerUp_inv, Dev.powerDown_inv, inv_mk, inv_fold, hI]

theorem Dev.selectNow_inv (d : Dev) (m : Nat) (p : Port) (tag : Nat) (hI : d.Inv) : (Dev.selectNow d m p tag).Inv := by
  unfold Dev.selectNow
  repeat' first | with_reducible assumption | with_reducible intro _ | with_reducible apply Dev.finish_inv | with_reducible apply Dev.changeMode_inv | with_reducible apply Dev.restartTimeline_inv | split | (with_reducible rfl) | (simp only [inv_mk, inv_fold, ite_inv]) | dsimp only

theorem Dev.settleMode_inv (d : Dev) (hI : d.Inv) : (Dev.settleMode d).Inv := by
  unfold Dev.settleMode
  repeat' first | with_reducible assumption | with_reducible intro _ | with_reducible apply Dev.finishWith_inv | with_reducible apply Dev.selectNow_inv | split | (with_reducible rfl) | (simp only [inv_mk, inv_fold, ite_inv]) | dsimp only

theorem Dev.dropChange_inv (d : Dev) (hI : d.Inv) : (Dev.dropChange d).Inv := by
  unfold Dev.dropChange
  repeat' first | with_reducible assumption | with_reducible intro _ | with_reducible apply Dev.finishWith_inv | split | (with_reducible rfl) | (simp only [inv_mk, inv_fold]) | dsimp only

theorem Dev.beamOn_inv (d : Dev) (hI : d.Inv) : (Dev.beamOn d).Inv := by
  unfold Dev.beamOn
  repeat' first | with_reducible assumption | with_reducible intro _ | with_reducible apply foldl_inv | with_reducible apply foldl_fst_inv | with_reducible apply Dev.startBoost_inv | with_reducible apply Dev.goTo_inv | split | (with_reducible rfl) | (simp only [inv_mk, inv_fold]) | dsimp only

theorem Dev.boostsReady_inv (d : Dev) (hI : d.Inv) : (Dev.boostsReady d).Inv := by
  unfold Dev.boostsReady
  repeat' first | with_reducible assumption | with_reducible intro _ | with_reducible apply Dev.request_inv | split | (with_reducible rfl) | (simp only [inv_mk, inv_fold, ite_inv]) | dsimp only

theorem Dev.settle_inv (d : Dev) (hI : d.Inv) : (Dev.settle d).Inv := by
  simp (maxDischargeDepth := 30) only [Dev.settle, ite_inv, ite_self, Dev.settleMode_inv, Dev.beamOn_inv, inv_mk, inv_fold, hI]

theorem Dev.putInForce_inv (d : Dev) (m : Nat) (p : Port) (tag : Nat) (hI : d.Inv) : (Dev.putInForce d m p tag).Inv := by
  unfold Dev.putInForce
  repeat' first | with_reducible assumption | with_reducible intro _ | with_reducible apply Dev.finish_inv | with_reducible apply Dev.changeMode_inv | with_reducible apply Dev.restartTimeline_inv | with_reducible apply Dev.moveSideR_inv | split | (with_reducible rfl) | (simp only [inv_mk, inv_fold, ite_inv]) | dsimp only

theorem Dev.changeAtStandby_inv (d : Dev) (hI : d.Inv) : (Dev.changeAtStandby d).Inv := by
  unfold Dev.changeAtStandby
  repeat' first | with_reducible assumption | with_reducible intro _ | with_reducible apply Dev.finish_inv | with_reducible apply Dev.changeMode_inv | with_reducible apply Dev.restartTimeline_inv | with_reducible apply Dev.putInForce_inv | split | (with_reducible rfl) | (simp only [inv_mk, inv_fold]) | dsimp only

theorem Dev.freeCam_inv (d : Dev) (hI : d.Inv) : (Dev.freeCam d).Inv := by
  simp only [Dev.freeCam, ite_inv, ite_self, inv_mk, inv_fold, hI]

theorem Dev.standbyEntered_inv (d : Dev) (hI : d.Inv) : (Dev.standbyEntered d).Inv := by
  unfold Dev.standbyEntered
  repeat' first | with_reducible assumption | with_reducible intro _ | with_reducible apply foldl_inv | with_reducible apply foldl_fst_inv | with_reducible apply Dev.askStep_inv | with_reducible apply Dev.dirRoom_inv | split | (with_reducible rfl) | (simp only [inv_mk, inv_fold]) | dsimp only

theorem Dev.enterStandby_inv (d : Dev) (hI : d.Inv) : (Dev.enterStandby d).Inv := by
  unfold Dev.enterStandby
  repeat' first | with_reducible assumption | with_reducible intro _ | with_reducible apply foldl_inv | with_reducible apply foldl_fst_inv | with_reducible apply Dev.modLside_inv | with_reducible apply Dev.release_inv | with_reducible apply Dev.modMportEv_inv | with_reducible apply Dev.darkSide_inv | with_reducible apply Dev.stopBoost_inv | with_reducible apply Dev.zeroWords_inv | with_reducible apply Dev.reqEffective_inv | with_reducible apply Dev.goTo_inv | with_reducible apply Dev.changeAtStandby_inv | with_reducible apply Dev.freeCam_inv | with_reducible apply Dev.standbyEntered_inv | split | (with_reducible rfl) | (simp only [inv_mk, inv_fold]) | dsimp only

theorem Dev.beamOff_inv (d : Dev) (hI : d.Inv) : (Dev.beamOff d).Inv := by
  unfold Dev.beamOff
  repeat' first | with_reducible assumption | with_reducible intro _ | with_reducible apply foldl_inv | with_reducible apply foldl_fst_inv | with_reducible apply Dev.rampR_inv | with_reducible apply Dev.enterStandby_inv | split | (with_reducible rfl) | (simp only [inv_mk, inv_fold, ite_inv]) | dsimp only

theorem Dev.beamBack_inv (d : Dev) (hI : d.Inv) : (Dev.beamBack d).Inv := by
  unfold Dev.beamBack
  repeat' first | with_reducible assumption | with_reducible intro _ | with_reducible apply foldl_inv | with_reducible apply foldl_fst_inv | with_reducible apply Dev.rampR_inv | split | (with_reducible rfl) | (simp only [inv_mk, inv_fold, ite_inv]) | dsimp only

theorem Dev.selectDefault_inv (d : Dev) (hI : d.Inv) : (Dev.selectDefault d).Inv := by
  unfold Dev.selectDefault
  (repeat' split) <;> first | with_reducible exact hI | (simp (maxDischargeDepth := 30) only [ite_inv, ite_self, Dev.post_inv, Dev.changeMode_inv, Dev.restartTimeline_inv, Dev.moveSideR_inv, inv_mk, inv_fold, hI]; done)

theorem Dev.beamOffDone_inv (d : Dev) (hI : d.Inv) : (Dev.beamOffDone d).Inv := by
  simp (maxDischargeDepth := 30) only [Dev.beamOffDone, ite_inv, ite_self, Dev.enterStandby_inv, Dev.selectDefault_inv, inv_mk, inv_fold, hI]

theorem Dev.followReq_inv (d : Dev) (old : Nat) (hI : d.Inv) : (Dev.followReq d old).Inv := by
  simp (maxDischargeDepth := 30) only [Dev.followReq, ite_inv, ite_self, Dev.beamOff_inv, Dev.beamBack_inv, inv_mk, inv_fold, hI]

theorem Dev.updateReq_inv (d : Dev) (hI : d.Inv) : (Dev.updateReq d).Inv := by
  unfold Dev.updateReq
  (repeat' split) <;> first | with_reducible exact hI | (simp (maxDischargeDepth := 30) only [Dev.rechoose_inv, Dev.followReq_inv, inv_mk, inv_fold, hI]; done)

theorem Dev.speedChanged_inv (d : Dev) (hI : d.Inv) : (Dev.speedChanged d).Inv := by
  unfold Dev.speedChanged
  repeat' first | with_reducible assumption | with_reducible intro _ | with_reducible apply Dev.closeSession_inv | with_reducible apply Dev.beamOff_inv | with_reducible apply Dev.beamOffDone_inv | split | (with_reducible rfl) | (simp only [inv_mk, inv_fold, ite_inv]) | dsimp only

theorem Dev.canRequest_inv (d : Dev) (v : Nat) (first : Bool) (hI : d.Inv) : (Dev.canRequest d v first).Inv := by
  unfold Dev.canRequest
  repeat' first | with_reducible assumption | with_reducible intro _ | with_reducible apply Dev.settle_inv | with_reducible apply Dev.updateReq_inv | split | (with_reducible rfl) | (simp only [inv_mk, inv_fold]) | dsimp only

theorem Dev.canRequestLost_inv (d : Dev) (hI : d.Inv) : (Dev.canRequestLost d).Inv := by
  unfold Dev.canRequestLost
  repeat' first | with_reducible assumption | with_reducible intro _ | with_reducible apply Dev.settle_inv | with_reducible apply Dev.updateReq_inv | split | (with_reducible rfl) | (simp only [inv_mk, inv_fold, ite_inv]) | dsimp only

theorem Dev.beamEnableCmd_inv (d : Dev) (p : Port) (tag req : Nat) (hI : d.Inv) : (Dev.beamEnableCmd d p tag req).Inv := by
  unfold Dev.beamEnableCmd
  repeat' first | with_reducible assumption | with_reducible intro _ | with_reducible apply Dev.finish_inv | with_reducible apply Dev.finishWith_inv | with_reducible apply Dev.waits_inv | with_reducible apply Dev.closeSession_inv | with_reducible apply Dev.settle_inv | with_reducible apply Dev.updateReq_inv | split | (with_reducible rfl) | (simp only [inv_mk, inv_fold, ite_inv]) | dsimp only

theorem Dev.endChange_inv (d : Dev) (hI : d.Inv) : (Dev.endChange d).Inv := by
  unfold Dev.endChange
  repeat' first | with_reducible assumption | with_reducible intro _ | with_reducible apply Dev.finish_inv | with_reducible apply Dev.finishWith_inv | with_reducible apply Dev.changeMode_inv | with_reducible apply Dev.restartTimeline_inv | split | (with_reducible rfl) | (simp only [inv_mk, inv_fold]) | dsimp only

theorem Dev.enterSafeState_inv (d : Dev) (cause : Nat) (hI : d.Inv) : (Dev.enterSafeState d cause).Inv := by
  unfold Dev.enterSafeState
  repeat' first | with_reducible assumption | with_reducible intro _ | with_reducible apply foldl_inv | with_reducible apply foldl_fst_inv | with_reducible apply Dev.finishWith_inv | with_reducible apply Dev.stopPasses_inv | with_reducible apply Dev.mxBlank_inv | with_reducible apply Dev.goTo_inv | with_reducible apply Dev.endChange_inv | split | (with_reducible rfl) | (simp only [inv_mk, inv_fold]) | dsimp only

theorem Dev.leaveSafe_inv (d : Dev) (hI : d.Inv) : (Dev.leaveSafe d).Inv := by
  simp (maxDischargeDepth := 30) only [Dev.leaveSafe, ite_inv, ite_self, Dev.settle_inv, Dev.enterStandby_inv, inv_mk, inv_fold, hI]

/-! ### JournalOps.lean -/

theorem Dev.closeInterval_inv (d : Dev) (hI : d.Inv) : (Dev.closeInterval d).Inv := by
  simp only [Dev.closeInterval, inv_mk, inv_fold, List.length_map, List.length_set, modAt_length, List.length_mapIdx, foldl_modAt_length, hI]

theorem Dev.addRecord_inv (d : Dev) (first120 : List Byte) (hI : d.Inv) : (Dev.addRecord d first120).Inv := by
  have h1 : ∀ j, ({ d with jnl := j } : Dev).Inv := fun j => by rw [inv_mk]; exact hI
  unfold Dev.addRecord
  extract_lets
  split
  · exact h1 _
  · exact Dev.count_inv _ _ _ _ (h1 _)

theorem Dev.sealSegment_inv (d : Dev) (reason : Nat) (hI : d.Inv) : (Dev.sealSegment d reason).Inv := by
  simp only [Dev.sealSegment, Dev.addRecord_inv, inv_mk, inv_fold, hI]

theorem Dev.failSeals_inv (d : Dev) (status : Nat) (hI : d.Inv) : (Dev.failSeals d status).Inv := by
  unfold Dev.failSeals
  repeat' first | with_reducible assumption | with_reducible intro _ | with_reducible apply foldl_inv | with_reducible apply foldl_fst_inv | with_reducible apply Dev.finishWith_inv | split | (with_reducible rfl) | (simp only [inv_mk, inv_fold]) | dsimp only

theorem Dev.eraseAhead_inv (d : Dev) (hI : d.Inv) : (Dev.eraseAhead d).Inv := by
  simp (maxDischargeDepth := 30) only [Dev.eraseAhead, ite_inv, ite_self, Dev.request_inv, Dev.failSeals_inv, inv_mk, inv_fold, hI]

theorem Dev.norFail_inv (d : Dev) (cause : Nat) (hI : d.Inv) : (Dev.norFail d cause).Inv := by
  unfold Dev.norFail
  repeat' first | with_reducible assumption | with_reducible intro _ | with_reducible apply Dev.count_inv | with_reducible apply Dev.raise_inv | split | (with_reducible rfl) | (simp only [inv_mk, inv_fold]) | dsimp only

theorem Dev.startPage_inv (d : Dev) (hI : d.Inv) : (Dev.startPage d).Inv := by
  unfold Dev.startPage
  repeat' first | with_reducible assumption | with_reducible intro _ | with_reducible apply Dev.eraseAhead_inv | with_reducible apply Dev.norFail_inv | split | (with_reducible rfl) | (simp only [inv_mk, inv_fold, ite_inv]) | dsimp only

theorem Dev.kick_inv (d : Dev) (now : Bool) (hI : d.Inv) : (Dev.kick d now).Inv := by
  unfold Dev.kick
  repeat' first | with_reducible assumption | with_reducible intro _ | with_reducible apply Dev.startPage_inv | split | (with_reducible rfl) | (simp only [inv_mk, inv_fold, ite_inv]) | dsimp only

theorem Dev.keepRecord_inv (d : Dev) (e : Nat) (r : List Byte) (hI : d.Inv) : (Dev.keepRecord d e r).Inv := by
  unfold Dev.keepRecord
  rw [inv_mk]; exact Sound.withJournal hI (kvSet_sorted _ _ hI.journal)

theorem Dev.eraseJournal_inv (d : Dev) (sector : Nat) (hI : d.Inv) : (Dev.eraseJournal d sector).Inv := by
  unfold Dev.eraseJournal
  rw [inv_mk]; exact Sound.withJournal hI (kvFilter_sorted _ hI.journal)

theorem Dev.storeRecord_inv (d : Dev) (e : Nat) (hI : d.Inv) : (Dev.storeRecord d e).Inv := by
  unfold Dev.storeRecord
  repeat' first | with_reducible assumption | with_reducible intro _ | with_reducible apply foldl_inv | with_reducible apply foldl_fst_inv | with_reducible apply Dev.post_inv | with_reducible apply Dev.finish_inv | with_reducible apply Dev.keepRecord_inv | split | (with_reducible rfl) | (simp only [inv_mk, inv_fold, ite_inv]) | dsimp only

theorem Dev.pageDone_inv (d : Dev) (good : Bool) (hI : d.Inv) : (Dev.pageDone d good).Inv := by
  unfold Dev.pageDone
  repeat' first | with_reducible assumption | with_reducible intro _ | with_reducible apply foldl_inv | with_reducible apply foldl_fst_inv | with_reducible apply Dev.clearFault_inv | with_reducible apply Dev.norFail_inv | with_reducible apply Dev.startPage_inv | with_reducible apply Dev.storeRecord_inv | split | (with_reducible rfl) | (simp only [inv_mk, inv_fold, ite_inv]) | dsimp only

theorem Dev.norBusy_inv (d : Dev) (hI : d.Inv) : (Dev.norBusy d).Inv := by
  simp only [Dev.norBusy, ite_inv, ite_self, Dev.norFail_inv, inv_mk, inv_fold, hI]

theorem Dev.eraseDone_inv (d : Dev) (hI : d.Inv) : (Dev.eraseDone d).Inv := by
  unfold Dev.eraseDone
  (repeat' split) <;> first | with_reducible exact hI | (simp (maxDischargeDepth := 30) only [ite_inv, ite_self, Dev.release_inv, Dev.eraseAhead_inv, Dev.eraseJournal_inv, inv_mk, inv_fold, hI]; done)

theorem Dev.openJournal_inv (d : Dev) (hI : d.Inv) : (Dev.openJournal d).Inv := by
  unfold Dev.openJournal
  repeat' first | with_reducible assumption | with_reducible intro _ | with_reducible apply Dev.post_inv | with_reducible apply Dev.addRecord_inv | with_reducible apply Dev.sealSegment_inv | with_reducible apply Dev.eraseAhead_inv | with_reducible apply Dev.kick_inv | split | (with_reducible rfl) | (simp only [inv_mk, inv_fold, ite_inv]) | dsimp only

theorem Dev.formPeriodic_inv (d : Dev) (shortened : Bool) (hI : d.Inv) : (Dev.formPeriodic d shortened).Inv := by
  unfold Dev.formPeriodic
  repeat' first | with_reducible assumption | with_reducible intro _ | with_reducible apply Dev.closeInterval_inv | with_reducible apply Dev.addRecord_inv | split | (with_reducible rfl) | (simp only [inv_mk, inv_fold]) | dsimp only

theorem Dev.sealIfFull_inv (d : Dev) (hI : d.Inv) : (Dev.sealIfFull d).Inv := by
  simp (maxDischargeDepth := 30) only [Dev.sealIfFull, ite_inv, ite_self, Dev.sealSegment_inv, Dev.kick_inv, inv_mk, inv_fold, hI]

theorem Dev.periodicEntry_inv (d : Dev) (shortened : Bool) (hI : d.Inv) : (Dev.periodicEntry d shortened).Inv := by
  simp (maxDischargeDepth := 30) only [Dev.periodicEntry, ite_inv, ite_self, Dev.formPeriodic_inv, Dev.sealIfFull_inv, inv_mk, inv_fold, hI]

theorem Dev.journalSealCmd_inv (d : Dev) (p : Port) (tag : Nat) (hI : d.Inv) : (Dev.journalSealCmd d p tag).Inv := by
  unfold Dev.journalSealCmd
  repeat' first | with_reducible assumption | with_reducible intro _ | with_reducible apply Dev.waits_inv | with_reducible apply Dev.sealSegment_inv | with_reducible apply Dev.kick_inv | split | (with_reducible rfl) | (simp only [inv_mk, inv_fold]) | dsimp only

theorem Dev.closeJournal_inv (d : Dev) (dropped : Nat) (hI : d.Inv) : (Dev.closeJournal d dropped).Inv := by
  have h1 : ∀ (e : Dev) j, e.Inv → ({ e with jnl := j } : Dev).Inv := fun e j h => by rw [inv_mk]; exact h
  have h2 := Dev.closeInterval_inv _ (Dev.addRecord_inv d (d.recHead recClosing ++ d.recBody dropped) hI)
  unfold Dev.closeJournal
  extract_lets
  split
  · exact h1 _ _ hI
  · split
    · exact h1 _ _ h2
    · exact Dev.startPage_inv _ (h1 _ _ (h1 _ _ h2))

theorem Dev.holdupDone_inv (d : Dev) (micros : Nat) (hI : d.Inv) : (Dev.holdupDone d micros).Inv := by
  simp only [Dev.holdupDone, ite_inv, ite_self, inv_mk, inv_fold, hI]

/-! ### RefreshOps.lean -/

theorem Dev.takeBeamReady_inv (d : Dev) (hI : d.Inv) : (Dev.takeBeamReady d).Inv := by
  unfold Dev.takeBeamReady
  repeat' first | with_reducible assumption | with_reducible intro _ | with_reducible apply Dev.post_inv | with_reducible apply Dev.reqEffective_inv | split | (with_reducible rfl) | (simp only [inv_mk, inv_fold]) | dsimp only

theorem Dev.noteBoundary_inv (d : Dev) (hI : d.Inv) : (Dev.noteBoundary d).Inv := by
  simp only [Dev.noteBoundary, inv_mk, inv_fold, hI]

theorem Dev.checksDone_inv (d : Dev) (hI : d.Inv) : (Dev.checksDone d).Inv := by
  unfold Dev.checksDone
  repeat' first | with_reducible assumption | with_reducible intro _ | with_reducible apply foldl_inv | with_reducible apply foldl_fst_inv | with_reducible apply Dev.closeAggregates_inv | with_reducible apply Dev.takeBeamReady_inv | split | (with_reducible rfl) | (simp only [inv_mk, inv_fold, ite_inv]) | dsimp only

theorem Dev.endRefresh_inv (d : Dev) (hI : d.Inv) : (Dev.endRefresh d).Inv := by
  unfold Dev.endRefresh
  repeat' first | with_reducible assumption | with_reducible intro _ | with_reducible apply foldl_inv | with_reducible apply foldl_fst_inv | with_reducible apply Dev.endAggregates_inv | with_reducible apply Dev.noteBoundary_inv | with_reducible apply Dev.checksDone_inv | split | (with_reducible rfl) | (simp only [inv_mk, inv_fold, ite_inv]) | dsimp only

theorem Dev.carryFronts_inv (d : Dev) (hI : d.Inv) : (Dev.carryFronts d).Inv := by
  unfold Dev.carryFronts
  repeat' first | with_reducible assumption | with_reducible intro _ | with_reducible apply foldl_inv | with_reducible apply foldl_fst_inv | with_reducible apply Dev.dropPass_inv | with_reducible apply Dev.exchange_inv | split | (with_reducible rfl) | (simp only [inv_mk, inv_fold]) | dsimp only

theorem Dev.newTimeline_inv (d : Dev) (hI : d.Inv) : (Dev.newTimeline d).Inv := by
  simp only [Dev.newTimeline, inv_mk, inv_fold, hI]

theorem Dev.changeBeam_inv (d : Dev) (m : Nat) (bridged : Bool) (hI : d.Inv) : (Dev.changeBeam d m bridged).Inv := by
  simp (maxDischargeDepth := 30) only [Dev.changeBeam, Dev.changeMode_inv, Dev.followReq_inv, inv_mk, inv_fold, hI]

theorem Dev.takeSeamless_inv (d : Dev) (m : Nat) (p : Port) (tag : Nat) (hI : d.Inv) : (Dev.takeSeamless d m p tag).Inv := by
  unfold Dev.takeSeamless
  repeat' first | with_reducible assumption | with_reducible intro _ | with_reducible apply Dev.finish_inv | with_reducible apply Dev.carryFronts_inv | with_reducible apply Dev.newTimeline_inv | with_reducible apply Dev.changeBeam_inv | split | (with_reducible rfl) | (simp only [inv_mk, inv_fold]) | dsimp only

theorem Dev.leaveSideR_inv (d : Dev) (hI : d.Inv) : (Dev.leaveSideR d).Inv := by
  unfold Dev.leaveSideR
  repeat' first | with_reducible assumption | with_reducible intro _ | with_reducible apply Dev.modLside_inv | with_reducible apply Dev.darkSide_inv | with_reducible apply Dev.stopBoost_inv | with_reducible apply Dev.powerDown_inv | with_reducible apply Dev.calProjection_inv | split | (with_reducible rfl) | (simp only [inv_mk, inv_fold, ite_inv, List.length_map, List.length_set, modAt_length, List.length_mapIdx, foldl_modAt_length]) | dsimp only

theorem Dev.firstPass_inv (d : Dev) (m : Nat) (hI : d.Inv) : (Dev.firstPass d m).Inv := by
  simp (maxDischargeDepth := 30) only [Dev.firstPass, ite_inv, ite_self, Dev.startPass_inv, Dev.abandon_inv, inv_mk, inv_fold, hI]

theorem Dev.beginBridge_inv (d : Dev) (m : Nat) (p : Port) (tag : Nat) (hI : d.Inv) : (Dev.beginBridge d m p tag).Inv := by
  unfold Dev.beginBridge
  repeat' first | with_reducible assumption | with_reducible intro _ | with_reducible apply Dev.dropPass_inv | with_reducible apply Dev.exchange_inv | with_reducible apply Dev.carryMask_inv | with_reducible apply Dev.camModeChange_inv | with_reducible apply Dev.newTimeline_inv | with_reducible apply Dev.leaveSideR_inv | with_reducible apply Dev.firstPass_inv | split | (with_reducible rfl) | (simp only [inv_mk, inv_fold]) | dsimp only

theorem Dev.stepBridge_inv (d : Dev) (m : Nat) (p : Port) (tag n : Nat) (behind : Option (Nat × Port × Nat)) (hI : d.Inv) : (Dev.stepBridge d m p tag n behind).Inv := by
  unfold Dev.stepBridge
  repeat' first | with_reducible assumption | with_reducible intro _ | with_reducible apply Dev.count_inv | with_reducible apply Dev.post_inv | with_reducible apply Dev.finish_inv | with_reducible apply Dev.finishWith_inv | with_reducible apply Dev.exchange_inv | with_reducible apply Dev.changeBeam_inv | with_reducible apply Dev.firstPass_inv | split | (with_reducible rfl) | (simp only [inv_mk, inv_fold, ite_inv]) | dsimp only

theorem Dev.stepChange_inv (d : Dev) (hI : d.Inv) : (Dev.stepChange d).Inv := by
  unfold Dev.stepChange
  repeat' first | with_reducible assumption | with_reducible intro _ | with_reducible apply foldl_inv | with_reducible apply foldl_fst_inv | with_reducible apply Dev.dropPass_inv | with_reducible apply Dev.startPass_inv | with_reducible apply Dev.takeSeamless_inv | with_reducible apply Dev.beginBridge_inv | with_reducible apply Dev.stepBridge_inv | split | (with_reducible rfl) | (simp only [inv_mk, inv_fold, ite_inv]) | dsimp only

theorem Dev.stepMask_inv (d : Dev) (hI : d.Inv) : (Dev.stepMask d).Inv := by
  unfold Dev.stepMask
  repeat' first | with_reducible assumption | with_reducible intro _ | with_reducible apply Dev.post_inv | split | (with_reducible rfl) | (simp only [inv_mk, inv_fold]) | dsimp only

theorem Dev.takeCamParams_inv (d : Dev) (hI : d.Inv) : (Dev.takeCamParams d).Inv := by
  unfold Dev.takeCamParams
  repeat' first | with_reducible assumption | with_reducible intro _ | with_reducible apply foldl_inv | with_reducible apply foldl_fst_inv | with_reducible apply Dev.applyVal_inv | split | (with_reducible rfl) | (simp only [inv_mk, inv_fold, ite_inv]) | dsimp only

theorem Dev.stepPeriod_inv (d : Dev) (hI : d.Inv) : (Dev.stepPeriod d).Inv := by
  simp only [Dev.stepPeriod, ite_inv, ite_self, inv_mk, inv_fold, hI]

theorem Dev.stepGroup_inv (d : Dev) (hI : d.Inv) : (Dev.stepGroup d).Inv := by
  simp only [Dev.stepGroup, ite_inv, ite_self, inv_mk, inv_fold, hI]

theorem Dev.askRelease_inv (d : Dev) (hI : d.Inv) : (Dev.askRelease d).Inv := by
  simp only [Dev.askRelease, ite_inv, ite_self, Dev.request_inv, inv_mk, inv_fold, hI]

theorem Dev.startProjecting_inv (d : Dev) (hI : d.Inv) : (Dev.startProjecting d).Inv := by
  unfold Dev.startProjecting
  repeat' first | with_reducible assumption | with_reducible intro _ | with_reducible apply foldl_inv | with_reducible apply foldl_fst_inv | with_reducible apply Dev.calProjection_inv | split | (with_reducible rfl) | (simp only [inv_mk, inv_fold, ite_inv, List.length_map, List.length_set, modAt_length, List.length_mapIdx, foldl_modAt_length]) | dsimp only

theorem Dev.releasePark_inv (d : Dev) (hI : d.Inv) : (Dev.releasePark d).Inv := by
  unfold Dev.releasePark
  repeat' first | with_reducible assumption | with_reducible intro _ | with_reducible apply foldl_inv | with_reducible apply foldl_fst_inv | with_reducible apply Dev.modLside_inv | with_reducible apply Dev.modMportEv_inv | with_reducible apply Dev.rampR_inv | split | (with_reducible rfl) | (simp only [inv_mk, inv_fold, ite_inv]) | dsimp only

theorem Dev.afterRamps_inv (d : Dev) (hI : d.Inv) : (Dev.afterRamps d).Inv := by
  simp (maxDischargeDepth := 30) only [Dev.afterRamps, ite_inv, ite_self, Dev.release_inv, Dev.beamOffDone_inv, inv_mk, inv_fold, hI]

theorem Dev.stepPlace_inv (d : Dev) (restart : Bool) (hI : d.Inv) : (Dev.stepPlace d restart).Inv := by
  simp only [Dev.stepPlace, ite_inv, ite_self, inv_mk, inv_fold, hI]

theorem Dev.noteRefresh_inv (d : Dev) (hI : d.Inv) : (Dev.noteRefresh d).Inv := by
  simp only [Dev.noteRefresh, inv_mk, inv_fold, hI]

theorem Dev.startRefresh_inv (d : Dev) (hI : d.Inv) : (Dev.startRefresh d).Inv := by
  unfold Dev.startRefresh
  extract_lets d1 d2 d3
  have h1 : d1.Inv := Dev.startProjecting_inv _ (Dev.afterRamps_inv _ (Dev.lampRefresh_inv _ hI))
  have h2 : d2.Inv := foldl_inv (fun d s h => Dev.openAggregates_inv d s h) _ _ h1
  have h3 : d3.Inv := Dev.sendStat_inv _ (Dev.noteRefresh_inv _ (Dev.askRelease_inv _ (Dev.calRefresh_inv _
    (Dev.scanRestart_inv _ (Dev.repredict_inv _ h2)))))
  split
  · exact Dev.sendThumb_inv _ h3
  · exact h3

theorem Dev.refreshBoundary_inv (d : Dev) (hI : d.Inv) : (Dev.refreshBoundary d).Inv := by
  unfold Dev.refreshBoundary
  repeat' first | with_reducible assumption | with_reducible intro _ | with_reducible apply foldl_inv | with_reducible apply foldl_fst_inv | with_reducible apply Dev.applyVal_inv | with_reducible apply Dev.exchangeMask_inv | with_reducible apply Dev.settle_inv | with_reducible apply Dev.periodicEntry_inv | with_reducible apply Dev.endRefresh_inv | with_reducible apply Dev.stepChange_inv | with_reducible apply Dev.stepMask_inv | with_reducible apply Dev.takeCamParams_inv | with_reducible apply Dev.stepPeriod_inv | with_reducible apply Dev.stepGroup_inv | with_reducible apply Dev.stepPlace_inv | with_reducible apply Dev.startRefresh_inv | split | (with_reducible rfl) | (simp only [inv_mk, inv_fold, ite_inv]) | dsimp only

/-! ### BootOps.lean -/

theorem Sound.withLoops {a0 a1 a2 a3 a4 a5 a6 a7 a8 a9 a10 a11 a12 a13 a14 a15 a16 a17 a18 a19 a20} {x : Nat} (h : Sound a0 a1 a2 a3 a4 a5 a6 a7 a8 a9 a10 a11 a12 a13 a14 a15 a16 a17 a18 a19 a20) (hh : x = 48) :
    Sound a0 a1 a2 a3 a4 a5 a6 a7 a8 a9 x a11 a12 a13 a14 a15 a16 a17 a18 a19 a20 := { h with loops := hh }
theorem Dev.afterReset_inv (d : Dev) (state : DevState) (hI : d.Inv) : (Dev.afterReset d state).Inv := by
  have hx : exclusiveHeld ([] : List (Holder × Nat × Nat × Nat)) := fun b _ => Nat.zero_le _
  unfold Dev.afterReset
  dsimp only
  split <;> (rw [inv_mk]; exact ⟨hI.cells, hx, rfl, rfl, rfl, rfl, rfl, rfl, rfl, rfl, rfl, rfl, rfl, rfl, rfl, rfl, rfl, rfl, hI.mirror,
    hI.mirrorArrays, hI.journal⟩)

theorem Dev.toReset_inv (d : Dev) (cause : Nat) (hI : d.Inv) : (Dev.toReset d cause).Inv := by
  unfold Dev.toReset
  repeat' first | with_reducible assumption | with_reducible intro _ | with_reducible apply Dev.afterReset_inv | split | (with_reducible rfl) | (simp only [inv_mk, inv_fold]) | dsimp only

theorem Dev.resetN_inv (d : Dev) (hI : d.Inv) : (Dev.resetN d).Inv := by
  unfold Dev.resetN
  repeat' first | with_reducible assumption | with_reducible intro _ | with_reducible apply Dev.toReset_inv | split | (with_reducible rfl) | (simp only [inv_mk, inv_fold, ite_inv]) | dsimp only

theorem Dev.supplies_inv (d : Dev) (inRange : List Bool) (hI : d.Inv) : (Dev.supplies d inRange).Inv := by
  unfold Dev.supplies
  repeat' first | with_reducible assumption | with_reducible intro _ | with_reducible apply Dev.toReset_inv | split | (with_reducible rfl) | (simp only [inv_mk, inv_fold, ite_inv]) | dsimp only

theorem Dev.enterBoot_inv (d : Dev) (hI : d.Inv) : (Dev.enterBoot d).Inv := by
  unfold Dev.enterBoot
  repeat' first | with_reducible assumption | with_reducible intro _ | with_reducible apply Dev.modPll_inv | with_reducible apply Dev.bootShutter_inv | split | (with_reducible rfl) | (simp only [inv_mk, inv_fold]) | dsimp only

theorem Dev.bootAnnounced_inv (d : Dev) (hI : d.Inv) : (Dev.bootAnnounced d).Inv := by
  unfold Dev.bootAnnounced
  repeat' first | with_reducible assumption | with_reducible intro _ | with_reducible apply Dev.setIrq_inv | with_reducible apply Dev.post_inv | with_reducible apply Dev.sendStat_inv | with_reducible apply Dev.raise_inv | split | (with_reducible rfl) | (simp only [inv_mk, inv_fold, ite_inv]) | dsimp only

theorem Dev.resetReleased_inv (d : Dev) (hI : d.Inv) : (Dev.resetReleased d).Inv := by
  simp (maxDischargeDepth := 30) only [Dev.resetReleased, ite_inv, ite_self, Dev.resetN_inv, Dev.supplies_inv, Dev.enterBoot_inv, inv_mk, inv_fold, hI]

theorem Dev.fullBoot_inv (d : Dev) (cause : Nat) (hI : d.Inv) : (Dev.fullBoot d cause).Inv := by
  unfold Dev.fullBoot
  repeat' first | with_reducible assumption | with_reducible intro _ | with_reducible apply Dev.afterReset_inv | with_reducible apply Dev.enterBoot_inv | split | (with_reducible rfl) | (simp only [inv_mk, inv_fold]) | dsimp only

theorem Dev.bootFailed_inv (d : Dev) (hI : d.Inv) : (Dev.bootFailed d).Inv := by
  unfold Dev.bootFailed
  repeat' first | with_reducible assumption | with_reducible intro _ | with_reducible apply Dev.release_inv | with_reducible apply Dev.setState_inv | with_reducible apply Dev.endRun_inv | with_reducible apply Dev.bootAnnounced_inv | split | (with_reducible rfl) | (simp only [inv_mk, inv_fold]) | dsimp only

theorem Dev.setCheck_inv (d : Dev) (img check : Nat) (hI : d.Inv) : (Dev.setCheck d img check).Inv := by
  simp only [Dev.setCheck, inv_mk, inv_fold, hI]

theorem Dev.selectImage_inv (d : Dev) (hI : d.Inv) : (Dev.selectImage d).Inv := by
  simp only [Dev.selectImage, ite_inv, ite_self, Dev.writeDir_inv, inv_mk, inv_fold, hI]

theorem Dev.loadMirror_inv (d : Dev) (hI : d.Inv) : (Dev.loadMirror d).Inv := by
  have h1 : (Sound _ _ _ _ _ _ _ _ _ _ _ _ _ _ _ _ _ _ _ _ _) :=
    Sound.withVals (Sound.withArrays (Sound.withStaged (x := []) (Sound.withStagedArrays (x := []) hI rfl) rfl) hI.mirrorArrays) hI.mirror
  unfold Dev.loadMirror
  dsimp only
  rw [inv_mk, List.length_map, List.length_range]
  exact Sound.withLoops h1 rfl

theorem Dev.millerStarts_inv (d : Dev) (hI : d.Inv) : (Dev.millerStarts d).Inv := by
  unfold Dev.millerStarts
  repeat' first | with_reducible assumption | with_reducible intro _ | with_reducible apply foldl_inv | with_reducible apply foldl_fst_inv | with_reducible apply Dev.request_inv | with_reducible apply Dev.powerUp_inv | with_reducible apply Dev.startupRun_inv | with_reducible apply Dev.loadMirror_inv | split | (with_reducible rfl) | (simp only [inv_mk, inv_fold]) | dsimp only

theorem Dev.bootImage_inv (d : Dev) (img svn fwVersion : Nat) (hI : d.Inv) : (Dev.bootImage d img svn fwVersion).Inv := by
  unfold Dev.bootImage
  repeat' first | with_reducible assumption | with_reducible intro _ | with_reducible apply Dev.post_inv | with_reducible apply Dev.writeDir_inv | with_reducible apply Dev.millerStarts_inv | split | (with_reducible rfl) | (simp only [inv_mk, inv_fold, ite_inv]) | dsimp only

theorem Dev.imageRead_inv (d : Dev) (img check svn fwVersion : Nat) (hI : d.Inv) : (Dev.imageRead d img check svn fwVersion).Inv := by
  unfold Dev.imageRead
  repeat' first | with_reducible assumption | with_reducible intro _ | with_reducible apply Dev.bootFailed_inv | with_reducible apply Dev.setCheck_inv | with_reducible apply Dev.selectImage_inv | with_reducible apply Dev.bootImage_inv | split | (with_reducible rfl) | (simp only [inv_mk, inv_fold, ite_inv]) | dsimp only

theorem Dev.confirmImage_inv (d : Dev) (hI : d.Inv) : (Dev.confirmImage d).Inv := by
  unfold Dev.confirmImage
  repeat' first | with_reducible assumption | with_reducible intro _ | with_reducible apply Dev.post_inv | with_reducible apply Dev.writeDir_inv | split | (with_reducible rfl) | (simp only [inv_mk, inv_fold, ite_inv]) | dsimp only

theorem Dev.firstMode_inv (d : Dev) (hI : d.Inv) : (Dev.firstMode d).Inv := by
  unfold Dev.firstMode
  (repeat' split) <;> first | with_reducible exact hI | (simp (maxDischargeDepth := 30) only [Dev.takeMode_inv, Dev.moveSideR_inv, inv_mk, inv_fold, hI]; done)

theorem Dev.noteReplaced_inv (d : Dev) (hI : d.Inv) : (Dev.noteReplaced d).Inv := by
  simp only [Dev.noteReplaced, ite_inv, ite_self, Dev.post_inv, inv_mk, inv_fold, hI]

theorem Dev.bootDone_inv (d : Dev) (hI : d.Inv) : (Dev.bootDone d).Inv := by
  unfold Dev.bootDone
  repeat' first | with_reducible assumption | with_reducible intro _ | with_reducible apply foldl_inv | with_reducible apply foldl_fst_inv | with_reducible apply Dev.release_inv | with_reducible apply Dev.setState_inv | with_reducible apply Dev.enableSlots_inv | with_reducible apply Dev.endStartup_inv | with_reducible apply Dev.reformMasks_inv | with_reducible apply Dev.loadResident_inv | with_reducible apply Dev.settle_inv | with_reducible apply Dev.standbyEntered_inv | with_reducible apply Dev.openJournal_inv | with_reducible apply Dev.bootAnnounced_inv | with_reducible apply Dev.confirmImage_inv | with_reducible apply Dev.firstMode_inv | with_reducible apply Dev.noteReplaced_inv | split | (with_reducible rfl) | (simp only [inv_mk, inv_fold, ite_inv, List.length_map, List.length_set, modAt_length, List.length_mapIdx, foldl_modAt_length]) | dsimp only

theorem Dev.bootComplete_inv (d : Dev) (pass : Bool) (hI : d.Inv) : (Dev.bootComplete d pass).Inv := by
  simp (maxDischargeDepth := 30) only [Dev.bootComplete, ite_inv, ite_self, Dev.bootFailed_inv, Dev.bootDone_inv, inv_mk, inv_fold, hI]

theorem Dev.bootPllLate_inv (d : Dev) (p : Nat) (hI : d.Inv) : (Dev.bootPllLate d p).Inv := by
  simp only [Dev.bootPllLate, ite_inv, ite_self, Dev.bootFailed_inv, inv_mk, inv_fold, hI]

theorem Dev.enableLink_inv (d : Dev) (l : LinkId) (hI : d.Inv) : (Dev.enableLink d l).Inv := by
  simp (maxDischargeDepth := 30) only [Dev.enableLink, ite_inv, ite_self, Dev.modLink_inv, Dev.toDetect_inv, inv_mk, inv_fold, hI]

theorem Dev.safeComplete_inv (d : Dev) (hI : d.Inv) : (Dev.safeComplete d).Inv := by
  unfold Dev.safeComplete
  repeat' first | with_reducible assumption | with_reducible intro _ | with_reducible apply Dev.startWanted_inv | with_reducible apply Dev.dropLost_inv | with_reducible apply Dev.calAdvance_inv | with_reducible apply Dev.goTo_inv | with_reducible apply Dev.enterSafeState_inv | with_reducible apply Dev.leaveSafe_inv | split | (with_reducible rfl) | (simp only [inv_mk, inv_fold, ite_inv]) | dsimp only

theorem Dev.dropCommands_inv (d : Dev) (hI : d.Inv) : (Dev.dropCommands d).Inv := by
  simp only [Dev.dropCommands, inv_mk, inv_fold, List.length_map, List.length_set, modAt_length, List.length_mapIdx, foldl_modAt_length, hI]

theorem Dev.stopAll_inv (d : Dev) (hI : d.Inv) : (Dev.stopAll d).Inv := by
  unfold Dev.stopAll
  repeat' first | with_reducible assumption | with_reducible intro _ | with_reducible apply foldl_inv | with_reducible apply foldl_fst_inv | with_reducible apply Dev.modLside_inv | with_reducible apply Dev.darkSide_inv | with_reducible apply Dev.stopBoost_inv | with_reducible apply Dev.zeroWords_inv | with_reducible apply Dev.portHoldup_inv | with_reducible apply Dev.dropPass_inv | with_reducible apply Dev.slotsOff_inv | with_reducible apply Dev.segStop_inv | with_reducible apply Dev.toL2_inv | with_reducible apply Dev.endRun_inv | with_reducible apply Dev.abandonRaster_inv | split | (with_reducible rfl) | (simp only [inv_mk, inv_fold, ite_inv]) | dsimp only

theorem Dev.overrideBeam_inv (d : Dev) (hI : d.Inv) : (Dev.overrideBeam d).Inv := by
  unfold Dev.overrideBeam
  repeat' first | with_reducible assumption | with_reducible intro _ | with_reducible apply foldl_inv | with_reducible apply foldl_fst_inv | with_reducible apply Dev.finishWith_inv | split | (with_reducible rfl) | (simp only [inv_mk, inv_fold]) | dsimp only

theorem Dev.powerFail_inv (d : Dev) (hI : d.Inv) : (Dev.powerFail d).Inv := by
  unfold Dev.powerFail
  repeat' first | with_reducible assumption | with_reducible intro _ | with_reducible apply Dev.voidTickets_inv | with_reducible apply Dev.goTo_inv | with_reducible apply Dev.closeJournal_inv | with_reducible apply Dev.dropCommands_inv | with_reducible apply Dev.stopAll_inv | with_reducible apply Dev.overrideBeam_inv | split | (with_reducible rfl) | (simp only [inv_mk, inv_fold, ite_inv]) | dsimp only

theorem Dev.holdupExit_inv (d : Dev) (hI : d.Inv) : (Dev.holdupExit d).Inv := by
  simp only [Dev.holdupExit, ite_inv, ite_self, Dev.fullBoot_inv, inv_mk, inv_fold, hI]

theorem Dev.thermalShutdown_inv (d : Dev) (t : Int) (hI : d.Inv) : (Dev.thermalShutdown d t).Inv := by
  unfold Dev.thermalShutdown
  repeat' first | with_reducible assumption | with_reducible intro _ | with_reducible apply Dev.afterReset_inv | split | (with_reducible rfl) | (simp only [inv_mk, inv_fold, ite_inv]) | dsimp only

theorem Dev.thermalExit_inv (d : Dev) (hI : d.Inv) : (Dev.thermalExit d).Inv := by
  simp only [Dev.thermalExit, ite_inv, ite_self, Dev.fullBoot_inv, inv_mk, inv_fold, hI]

theorem Dev.watchdog_inv (d : Dev) (hI : d.Inv) : (Dev.watchdog d).Inv := by
  simp only [Dev.watchdog, ite_inv, ite_self, Dev.raise_inv, inv_mk, inv_fold, hI]

theorem Dev.fwRestart_inv (d : Dev) (hI : d.Inv) : (Dev.fwRestart d).Inv := by
  simp only [Dev.fwRestart, ite_inv, ite_self, Dev.toReset_inv, inv_mk, inv_fold, hI]

end Sys2Proof.Machine
end

