-- ==== Sys2Proof/Laws/InvCmds.lean ====
section
/-! SUPPORT. The operations of parameters, the mailbox and the commands keep the invariant. -/

namespace Sys2Proof.Machine

open Sys2Proof

/-! ### Params.lean -/

theorem Dev.mirrorPut_inv (d : Dev) (id : Nat) (v : Int) (hI : d.Inv) : (Dev.mirrorPut d id v).Inv := by
  unfold Dev.mirrorPut
  rw [inv_mk]; exact Sound.withMirror hI (kvPut_sorted _ _ _ hI.mirror)

theorem Dev.mirrorPutArr_inv (d : Dev) (id : Nat) (v : List Byte) (hI : d.Inv) : (Dev.mirrorPutArr d id v).Inv := by
  unfold Dev.mirrorPutArr
  rw [inv_mk]; exact Sound.withMirrorArrays hI (kvPut_sorted _ _ _ hI.mirrorArrays)

theorem Dev.afterWrite_inv (d : Dev) (key i : Nat) (v : Int) (hI : d.Inv) : (Dev.afterWrite d key i v).Inv := by
  simp (maxDischargeDepth := 30) only [Dev.afterWrite, ite_inv, ite_self, Dev.modBase_inv, Dev.mxConfigure_inv, Dev.syncBts_inv, Dev.askStep_inv, Dev.settle_inv, Dev.updateReq_inv, inv_mk, inv_fold, hI]

theorem Dev.writeScalar_inv (d : Dev) (r : ParamRow) (id key i : Nat) (v : Int) (hI : d.Inv) : (Dev.writeScalar d r id key i v).Inv := by
  unfold Dev.writeScalar
  (repeat' split) <;> first | with_reducible exact hI | (simp (maxDischargeDepth := 30) only [ite_inv, ite_self, Dev.putVal_inv, Dev.stageVal_inv, Dev.mirrorVal_inv, Dev.composeStart_inv, Dev.mirrorPut_inv, Dev.afterWrite_inv, inv_mk, inv_fold, hI]; done)

theorem Dev.canIdleNow_inv (d : Dev) (hI : d.Inv) : (Dev.canIdleNow d).Inv := by
  unfold Dev.canIdleNow
  repeat' first | with_reducible assumption | with_reducible intro _ | with_reducible apply foldl_inv | with_reducible apply foldl_fst_inv | with_reducible apply Dev.putVal_inv | split | (with_reducible rfl) | (simp only [inv_mk, inv_fold]) | dsimp only

theorem Dev.writeSlot_inv (d : Dev) (id n : Nat) (b : List Byte) (hI : d.Inv) : (Dev.writeSlot d id n b).1.Inv := by
  unfold Dev.writeSlot
  repeat' first | with_reducible assumption | with_reducible intro _ | with_reducible apply Dev.modSlot_inv | with_reducible apply Dev.putArr_inv | with_reducible apply Dev.mirrorArr_inv | with_reducible apply Dev.actionDone_inv | split | (with_reducible rfl) | (simp only [inv_mk, inv_fold, ite_inv]) | dsimp only

theorem Dev.writeTarget_inv (d : Dev) (id t : Nat) (b : List Byte) (hI : d.Inv) : (Dev.writeTarget d id t b).1.Inv := by
  unfold Dev.writeTarget
  repeat' first | with_reducible assumption | with_reducible intro _ | with_reducible apply Dev.putArr_inv | with_reducible apply Dev.stageArr_inv | with_reducible apply Dev.dropStaged_inv | with_reducible apply Dev.mxConfigure_inv | split | (with_reducible rfl) | (simp only [inv_mk, inv_fold, ite_inv]) | dsimp only

theorem Dev.writeArray_inv (d : Dev) (r : ParamRow) (id off : Nat) (vs : List Byte) (hI : d.Inv) : (Dev.writeArray d r id off vs).1.Inv := by
  unfold Dev.writeArray
  repeat' first | with_reducible assumption | with_reducible intro _ | with_reducible apply Dev.putArr_inv | with_reducible apply Dev.stageArr_inv | with_reducible apply Dev.mirrorArr_inv | with_reducible apply Dev.mirrorPutArr_inv | with_reducible apply Dev.writeSlot_inv | with_reducible apply Dev.writeTarget_inv | split | (with_reducible rfl) | (simp only [inv_mk, inv_fold, ite_inv, List.length_map, List.length_set, modAt_length, List.length_mapIdx, foldl_modAt_length]) | dsimp only

theorem Dev.setParamCmd_inv (d : Dev) (p : Port) (payload : List Byte) (hI : d.Inv) : (Dev.setParamCmd d p payload).1.Inv := by
  unfold Dev.setParamCmd
  (repeat' split) <;> first | with_reducible exact hI | (simp (maxDischargeDepth := 30) only [Dev.writeScalar_inv, Dev.writeArray_inv, inv_mk, inv_fold, hI]; done)

/-! ### Ops.lean -/

theorem Dev.freeSlot_inv (d : Dev) (p : Port) (slot : Nat) (hI : d.Inv) : (Dev.freeSlot d p slot).Inv := by
  unfold Dev.freeSlot
  (repeat' split) <;> first | with_reducible exact hI | (simp only [Dev.modMap_inv, inv_mk, inv_fold, List.length_map, List.length_set, modAt_length, List.length_mapIdx, foldl_modAt_length, implies_true, hI]; done)

theorem Dev.openCmd_inv (d : Dev) (p : Port) (slot : Nat) (c : Cmd) (hI : d.Inv) : (Dev.openCmd d p slot c).Inv := by
  simp only [Dev.openCmd, Dev.modPort_inv, inv_mk, inv_fold, hI]

theorem Dev.accept_inv (d : Dev) (p : Port) (slot : Nat) (c : Cmd) (carried : Bool) (hI : d.Inv) : (Dev.accept d p slot c carried).Inv := by
  unfold Dev.accept
  (repeat' split) <;> first | with_reducible exact hI | (simp (maxDischargeDepth := 30) only [ite_inv, ite_self, Dev.count_inv, Dev.post_inv, Dev.respond_inv, Dev.finishWith_inv, Dev.freeSlot_inv, Dev.openCmd_inv, inv_mk, inv_fold, hI]; done)

theorem Dev.ok_inv (d : Dev) (p : Port) (tag : Nat) (payload : List Byte) (hI : d.Inv) : (Dev.ok d p tag payload).Inv := by
  simp only [Dev.ok, Dev.finish_inv, inv_mk, inv_fold, hI]

theorem Dev.serve_inv (d : Dev) (p : Port) (op : Nat) (check : Cmd → Option Nat) (act : Cmd → Dev) (hI : d.Inv)
    (ha : ∀ c, (act c).Inv) : (d.serve p op check act).Inv := by
  unfold Dev.serve
  repeat' first | with_reducible assumption | split | with_reducible apply Dev.finishWith_inv | with_reducible apply ha

theorem Dev.serveAct_inv (d : Dev) (p : Port) (a : ParamAct) (act : Cmd → Nat → Nat → Dev) (hI : d.Inv)
    (ha : ∀ c i v, (act c i v).Inv) : (d.serveAct p a act).Inv := by
  unfold Dev.serveAct
  repeat' first | with_reducible assumption | split | with_reducible apply Dev.finishWith_inv | with_reducible apply ha

theorem Dev.abortOpen_inv (d : Dev) (p : Port) (c : OpenCmd) (hI : d.Inv) : (Dev.abortOpen d p c).Inv := by
  unfold Dev.abortOpen
  repeat' first | with_reducible assumption | with_reducible intro _ | with_reducible apply Dev.finishWith_inv | with_reducible apply Dev.release_inv | with_reducible apply Dev.abortRun_inv | split | (with_reducible rfl) | (simp only [inv_mk, inv_fold, ite_inv]) | dsimp only

theorem Dev.abortCmd_inv (d : Dev) (p : Port) (tag target : Nat) (hI : d.Inv) : (Dev.abortCmd d p tag target).Inv := by
  unfold Dev.abortCmd
  (repeat' split) <;> first | with_reducible exact hI | (simp (maxDischargeDepth := 30) only [ite_inv, ite_self, Dev.finishWith_inv, Dev.abortOpen_inv, inv_mk, inv_fold, hI]; done)

theorem Dev.regRead_inv (d : Dev) (p : RegPort) (a : Nat) (hI : d.Inv) : (Dev.regRead d p a).Inv := by
  simp (maxDischargeDepth := 30) only [Dev.regRead, ite_inv, ite_self, Dev.modMap_inv, Dev.drawn_inv, inv_mk, inv_fold, implies_true, hI]

theorem Dev.startRead_inv (d : Dev) (p : RegPort) (hI : d.Inv) : (Dev.startRead d p).Inv := by
  simp only [Dev.startRead, Dev.modMap_inv, inv_mk, inv_fold, implies_true, hI]

theorem Dev.popEvent_inv (d : Dev) (p : RegPort) (hI : d.Inv) : (Dev.popEvent d p).Inv := by
  simp only [Dev.popEvent, ite_inv, ite_self, Dev.modPort_inv, inv_mk, inv_fold, hI]

theorem Dev.clearIrq_inv (d : Dev) (w : BitVec 5) (hI : d.Inv) : (Dev.clearIrq d w).Inv := by
  simp only [Dev.clearIrq, Dev.modMap_inv, inv_mk, inv_fold, List.length_map, List.length_set, modAt_length, List.length_mapIdx, foldl_modAt_length, implies_true, hI]

theorem Dev.ringSlot_inv (d : Dev) (p : RegPort) (n : Nat) (hI : d.Inv) : (Dev.ringSlot d p n).Inv := by
  simp (maxDischargeDepth := 30) only [Dev.ringSlot, ite_inv, ite_self, Dev.modMap_inv, Dev.count_inv, Dev.setIrq_inv, Dev.accept_inv, inv_mk, inv_fold, List.length_map, List.length_set, modAt_length, List.length_mapIdx, foldl_modAt_length, implies_true, hI]

theorem Dev.ringBell_inv (d : Dev) (p : RegPort) (ring : Nat) (hI : d.Inv) : (Dev.ringBell d p ring).Inv := by
  unfold Dev.ringBell
  repeat' first | with_reducible assumption | with_reducible intro _ | with_reducible apply foldl_inv | with_reducible apply foldl_fst_inv | with_reducible apply Dev.ringSlot_inv | split | (with_reducible rfl) | (simp only [inv_mk, inv_fold, ite_inv]) | dsimp only

theorem Dev.releaseDone_inv (d : Dev) (p : RegPort) (w : Nat) (hI : d.Inv) : (Dev.releaseDone d p w).Inv := by
  simp only [Dev.releaseDone, ite_inv, ite_self, Dev.modMap_inv, inv_mk, inv_fold, List.length_map, List.length_set, modAt_length, List.length_mapIdx, foldl_modAt_length, implies_true, hI]

theorem Dev.writeSlotReg_inv (d : Dev) (p : RegPort) (n : Nat) (f : SlotRegs → SlotRegs) (hI : d.Inv) : (Dev.writeSlotReg d p n f).Inv := by
  simp only [Dev.writeSlotReg, ite_inv, ite_self, Dev.modMap_inv, inv_mk, inv_fold, List.length_map, List.length_set, modAt_length, List.length_mapIdx, foldl_modAt_length, implies_true, hI]

theorem Dev.snapTrig_inv (d : Dev) (hI : d.Inv) : (Dev.snapTrig d).Inv := by
  simp only [Dev.snapTrig, ite_inv, ite_self, Dev.snapshot_inv, inv_mk, inv_fold, hI]

theorem Dev.regWrite_inv (d : Dev) (p : RegPort) (a v : Nat) (hI : d.Inv) : (Dev.regWrite d p a v).Inv := by
  unfold Dev.regWrite
  repeat' first | with_reducible assumption | with_reducible intro _ | with_reducible apply Dev.modMap_inv | with_reducible apply Dev.clearIrq_inv | with_reducible apply Dev.ringBell_inv | with_reducible apply Dev.releaseDone_inv | with_reducible apply Dev.writeSlotReg_inv | with_reducible apply Dev.snapTrig_inv | split | (with_reducible rfl) | (simp only [inv_mk, inv_fold, implies_true]) | dsimp only

theorem Dev.spiError_inv (d : Dev) (p : RegPort) (hI : d.Inv) : (Dev.spiError d p).Inv := by
  simp (maxDischargeDepth := 30) only [Dev.spiError, ite_inv, ite_self, Dev.count_inv, Dev.setIrq_inv, inv_mk, inv_fold, hI]
theorem Dev.writeWords_inv (p : RegPort) (n : Nat) (d : Dev) (a : Nat) (bs : List Byte) (hI : d.Inv) : (d.writeWords p n a bs).Inv := by
  induction n generalizing d a bs with
  | zero => exact hI
  | succ n ih =>
    unfold Dev.writeWords
    split
    · exact hI
    · exact ih _ _ _ (Dev.regWrite_inv _ _ _ _ hI)

theorem Dev.readWords_inv (p : RegPort) (n : Nat) (d : Dev) (a : Nat) (bs : List Byte) (hI : d.Inv) : (d.readWords p n a bs).Inv := by
  induction n generalizing d a bs with
  | zero => exact hI
  | succ n ih =>
    unfold Dev.readWords
    extract_lets d1 d2
    have h1 : d1.Inv := Dev.regRead_inv _ _ _ hI
    have h2 : d2.Inv := by
      show (if _ then d1.popEvent p else d1).Inv
      split
      · exact Dev.popEvent_inv _ _ h1
      · exact h1
    split
    · exact hI
    · exact ih _ _ _ h2

theorem Dev.transaction_inv (d : Dev) (p : RegPort) (bs : List Byte) (hI : d.Inv) : (Dev.transaction d p bs).Inv := by
  simp (maxDischargeDepth := 30) only [Dev.transaction, ite_inv, ite_self, Dev.startRead_inv, Dev.spiError_inv, Dev.readWords_inv, Dev.writeWords_inv, inv_mk, inv_fold, hI]

theorem Dev.debugUpdate_inv (d : Dev) (dr : Nat) (hI : d.Inv) : (Dev.debugUpdate d dr).Inv := by
  simp (maxDischargeDepth := 30) only [Dev.debugUpdate, ite_inv, ite_self, Dev.regRead_inv, Dev.startRead_inv, Dev.regWrite_inv, inv_mk, inv_fold, hI]

/-! ### SafeOps.lean -/

theorem Dev.repower_inv (d : Dev) (s : Nat) (hI : d.Inv) : (Dev.repower d s).Inv := by
  unfold Dev.repower
  (repeat' split) <;> first | with_reducible exact hI | (simp (maxDischargeDepth := 30) only [Dev.modMport_inv, Dev.powerUp_inv, Dev.powerDownNow_inv, inv_mk, inv_fold, hI]; done)

theorem Dev.recoverIfFree_inv (d : Dev) (n : Nat) (hI : d.Inv) : (Dev.recoverIfFree d n).Inv := by
  simp only [Dev.recoverIfFree, ite_inv, ite_self, Dev.recoverSlot_inv, inv_mk, inv_fold, hI]

theorem Dev.recover_inv (d : Dev) (code inst : Nat) (hI : d.Inv) : (Dev.recover d code inst).Inv := by
  simp (maxDischargeDepth := 30) only [Dev.recover, ite_inv, ite_self, Dev.clearFault_inv, Dev.repower_inv, Dev.recoverIfFree_inv, inv_mk, inv_fold, hI]

theorem Dev.afterClear_inv (d : Dev) (hI : d.Inv) : (Dev.afterClear d).Inv := by
  simp (maxDischargeDepth := 30) only [Dev.afterClear, Dev.settle_inv, Dev.leaveSafe_inv, inv_mk, inv_fold, hI]

theorem Dev.faultClear_inv (d : Dev) (p : Port) (tag v : Nat) (hI : d.Inv) : (Dev.faultClear d p tag v).Inv := by
  unfold Dev.faultClear
  repeat' first | with_reducible assumption | with_reducible intro _ | with_reducible apply foldl_inv | with_reducible apply foldl_fst_inv | with_reducible apply Dev.finishWith_inv | with_reducible apply Dev.recover_inv | with_reducible apply Dev.afterClear_inv | split | (with_reducible rfl) | (simp only [inv_mk, inv_fold]) | dsimp only

theorem Dev.autoClear_inv (d : Dev) (code inst : Nat) (hI : d.Inv) : (Dev.autoClear d code inst).Inv := by
  simp (maxDischargeDepth := 30) only [Dev.autoClear, ite_inv, ite_self, Dev.clearFault_inv, Dev.repower_inv, Dev.afterClear_inv, inv_mk, inv_fold, hI]

theorem Dev.setReaction_inv (d : Dev) (v : Nat) (hI : d.Inv) : (Dev.setReaction d v).Inv := by
  simp only [Dev.setReaction, inv_mk, inv_fold, hI]

theorem Dev.snapRelease_inv (d : Dev) (hI : d.Inv) : (Dev.snapRelease d).Inv := by
  simp only [Dev.snapRelease, inv_mk, inv_fold, hI]

/-! ### CameraCmds.lean -/

theorem Dev.modCam_inv (d : Dev) (f : Cam → Cam) (hI : d.Inv) : (Dev.modCam d f).Inv := by
  simp only [Dev.modCam, inv_mk, inv_fold, hI]

theorem Dev.camRange_inv (d : Dev) (hI : d.Inv) : (Dev.camRange d).Inv := by
  simp (maxDischargeDepth := 30) only [Dev.camRange, Dev.setPar_inv, Dev.count_inv, inv_mk, inv_fold, hI]

theorem Dev.camJudge_inv (d : Dev) (e : Int) (hI : d.Inv) : (Dev.camJudge d e).Inv := by
  unfold Dev.camJudge
  repeat' first | with_reducible assumption | with_reducible intro _ | with_reducible apply Dev.post_inv | with_reducible apply Dev.modCam_inv | split | (with_reducible rfl) | (simp only [inv_mk, inv_fold, ite_inv]) | dsimp only

theorem Dev.camValid_inv (d : Dev) (interval time boundary : Nat) (hI : d.Inv) : (Dev.camValid d interval time boundary).Inv := by
  simp (maxDischargeDepth := 30) only [Dev.camValid, ite_inv, ite_self, Dev.modCam_inv, Dev.camJudge_inv, inv_mk, inv_fold, hI]

theorem Dev.camEdge_inv (d : Dev) (time boundary : Nat) (hI : d.Inv) : (Dev.camEdge d time boundary).Inv := by
  unfold Dev.camEdge
  (repeat' split) <;> first | with_reducible exact hI | (simp (maxDischargeDepth := 30) only [ite_inv, ite_self, Dev.modCam_inv, Dev.camRange_inv, Dev.camValid_inv, inv_mk, inv_fold, hI]; done)

/-! ### CanCmds.lean -/

theorem Dev.canWhole_inv (d : Dev) (m : CanRx) (hI : d.Inv) : (Dev.canWhole d m).Inv := by
  simp only [Dev.canWhole, ite_inv, ite_self, Dev.accept_inv, inv_mk, inv_fold, hI]

theorem Dev.canMessage_inv (d : Dev) (m : Option CanRx) (hI : d.Inv) : (Dev.canMessage d m).Inv := by
  simp only [Dev.canMessage, inv_mk, inv_fold, hI]

theorem Dev.canFrame_inv (d : Dev) (data : List Byte) (hI : d.Inv) : (Dev.canFrame d data).Inv := by
  unfold Dev.canFrame
  (repeat' split) <;> first | with_reducible exact hI | (simp (maxDischargeDepth := 30) only [ite_inv, ite_self, Dev.canIdleNow_inv, Dev.canWhole_inv, Dev.canMessage_inv, inv_mk, inv_fold, hI]; done)

theorem Dev.vehBack_inv (d : Dev) (hI : d.Inv) : (Dev.vehBack d).Inv := by
  simp (maxDischargeDepth := 30) only [Dev.vehBack, ite_inv, ite_self, Dev.clearFault_inv, Dev.afterClear_inv, inv_mk, inv_fold, hI]

theorem Dev.vehBeam_inv (d : Dev) (data : List Byte) (hI : d.Inv) : (Dev.vehBeam d data).Inv := by
  unfold Dev.vehBeam
  repeat' first | with_reducible assumption | with_reducible intro _ | with_reducible apply Dev.canRequest_inv | with_reducible apply Dev.vehBack_inv | split | (with_reducible rfl) | (simp only [inv_mk, inv_fold]) | dsimp only

theorem Dev.vehMotion_inv (d : Dev) (data : List Byte) (hI : d.Inv) : (Dev.vehMotion d data).Inv := by
  unfold Dev.vehMotion
  repeat' first | with_reducible assumption | with_reducible intro _ | with_reducible apply Dev.speedChanged_inv | with_reducible apply Dev.vehBack_inv | split | (with_reducible rfl) | (simp only [inv_mk, inv_fold]) | dsimp only

theorem Dev.vehTime_inv (d : Dev) (data : List Byte) (sof : Nat) (hI : d.Inv) : (Dev.vehTime d data sof).Inv := by
  unfold Dev.vehTime
  repeat' first | with_reducible assumption | with_reducible intro _ | with_reducible apply Dev.align_inv | split | (with_reducible rfl) | (simp only [inv_mk, inv_fold, ite_inv]) | dsimp only

theorem Dev.vehLost_inv (d : Dev) (beam motion : Bool) (hI : d.Inv) : (Dev.vehLost d beam motion).Inv := by
  unfold Dev.vehLost
  repeat' first | with_reducible assumption | with_reducible intro _ | with_reducible apply Dev.raise_inv | with_reducible apply Dev.speedChanged_inv | with_reducible apply Dev.canRequestLost_inv | split | (with_reducible rfl) | (simp only [inv_mk, inv_fold, ite_inv]) | dsimp only

/-! ### ComposeCmds.lean -/

theorem Dev.paceRow_inv (d : Dev) (s : Side) (hI : d.Inv) : (Dev.paceRow d s).Inv := by
  simp (maxDischargeDepth := 30) only [Dev.paceRow, ite_inv, ite_self, Dev.modPipe_inv, Dev.request_inv, Dev.release_inv, inv_mk, inv_fold, hI]

theorem Dev.dryRow_inv (d : Dev) (s y n : Nat) (hI : d.Inv) : (Dev.dryRow d s y n).Inv := by
  simp (maxDischargeDepth := 30) only [Dev.dryRow, ite_inv, ite_self, Dev.modPipe_inv, Dev.count_inv, Dev.post_inv, inv_mk, inv_fold, hI]

theorem Dev.storeRow_inv (d : Dev) (s : Nat) (dry : List (Nat × Nat)) (hI : d.Inv) : (Dev.storeRow d s dry).Inv := by
  unfold Dev.storeRow
  repeat' first | with_reducible assumption | with_reducible intro _ | with_reducible apply foldl_inv | with_reducible apply foldl_fst_inv | with_reducible apply Dev.modPipe_inv | with_reducible apply Dev.dryRow_inv | split | (with_reducible rfl) | (simp only [inv_mk, inv_fold]) | dsimp only

theorem Dev.loadDone_inv (d : Dev) (s : Nat) (good : Bool) (hI : d.Inv) : (Dev.loadDone d s good).Inv := by
  unfold Dev.loadDone
  (repeat' split) <;> first | with_reducible exact hI | (simp only [Dev.modBase_inv, inv_mk, inv_fold, hI]; done)

/-! ### HuskCmds.lean -/

theorem Dev.husk_inv (d : Dev) (l : LinkId) (type : Nat) (h : RxHusk) (act : Dev → HuskHdr → Dev) (hI : d.Inv)
    (ha : ∀ e x, e.Inv → (act e x).Inv) : (d.husk l type h act).Inv := by
  have h1 := Dev.checkHusk_inv d l h hI
  unfold Dev.husk
  split
  · split
    · next e => rw [e] at h1; exact h1
    · next e =>
      rw [e] at h1
      split
      · exact ha _ _ h1
      · exact h1
  · exact hI

theorem Dev.vc1_inv (d : Dev) (l : LinkId) (x : HuskHdr) (act : Dev → Dev) (hI : d.Inv) (ha : ∀ e, e.Inv → (act e).Inv) :
    (d.vc1 l x act).Inv := by
  have h1 := Dev.acceptVc1_inv d l x.seq hI
  unfold Dev.vc1
  split
  · next e => rw [e] at h1; exact ha _ h1
  · next e => rw [e] at h1; exact h1

theorem Dev.vc2_inv (d : Dev) (l : LinkId) (hd : HuskHdr) (hI : d.Inv) : (Dev.vc2 d l hd).Inv := by
  simp (maxDischargeDepth := 30) only [Dev.vc2, ite_inv, ite_self, Dev.modLink_inv, Dev.count_inv, Dev.sendAck_inv, Dev.handList_inv, inv_mk, inv_fold, hI]

theorem Dev.mbxIn_inv (d : Dev) (l : LinkId) (hd : HuskHdr) (hI : d.Inv) : (Dev.mbxIn d l hd).Inv := by
  simp only [Dev.mbxIn, ite_inv, ite_self, Dev.accept_inv, inv_mk, inv_fold, hI]

theorem Dev.replayTimer_inv (d : Dev) (l : LinkId) (hI : d.Inv) : (Dev.replayTimer d l).Inv := by
  simp (maxDischargeDepth := 30) only [Dev.replayTimer, ite_inv, ite_self, Dev.modLink_inv, Dev.replayVc1_inv, Dev.replayLimit_inv, Dev.calAdvance_inv, inv_mk, inv_fold, hI]

/-! ### UpdateOps.lean -/

theorem Dev.setPatValid_inv (d : Dev) (s i : Nat) (v : Bool) (hI : d.Inv) : (Dev.setPatValid d s i v).Inv := by
  simp only [Dev.setPatValid, ite_inv, ite_self, inv_mk, inv_fold, hI]

theorem Dev.patErase_inv (d : Dev) (p : Port) (tag v : Nat) (hI : d.Inv) : (Dev.patErase d p tag v).Inv := by
  simp (maxDischargeDepth := 30) only [Dev.patErase, ite_inv, ite_self, Dev.finishWith_inv, Dev.waits_inv, Dev.request_inv, Dev.setPatValid_inv, inv_mk, inv_fold, hI]

theorem Dev.patErased_inv (d : Dev) (hI : d.Inv) : (Dev.patErased d).Inv := by
  unfold Dev.patErased
  repeat' first | with_reducible assumption | with_reducible intro _ | with_reducible apply Dev.finishWith_inv | with_reducible apply Dev.release_inv | with_reducible apply Dev.modCells_inv | with_reducible apply Dev.setPatValid_inv | with_reducible apply Dev.patErase_inv | with_reducible apply norErase_wf | split | (with_reducible rfl) | (simp only [inv_mk, inv_fold, ite_inv]) | dsimp only

theorem Dev.patProgram_inv (d : Dev) (v : Nat) (hI : d.Inv) : (Dev.patProgram d v).Inv := by
  simp only [Dev.patProgram, Dev.norProgram_inv, inv_mk, inv_fold, hI]

theorem Dev.patVerify_inv (d : Dev) (v : Nat) (hI : d.Inv) : (Dev.patVerify d v).Inv := by
  unfold Dev.patVerify
  repeat' first | with_reducible assumption | with_reducible intro _ | with_reducible apply Dev.setPatValid_inv | split | (with_reducible rfl) | (simp only [inv_mk, inv_fold, ite_inv, List.length_map, List.length_set, modAt_length, List.length_mapIdx, foldl_modAt_length]) | dsimp only

theorem Dev.askBlock_inv (d : Dev) (p : Port) (tag : Nat) (hI : d.Inv) : (Dev.askBlock d p tag).Inv := by
  unfold Dev.askBlock
  repeat' first | with_reducible assumption | with_reducible intro _ | with_reducible apply Dev.finishWith_inv | with_reducible apply Dev.request_inv | split | (with_reducible rfl) | (simp only [inv_mk, inv_fold, ite_inv]) | dsimp only

theorem Dev.fwBegin_inv (d : Dev) (p : Port) (tag size : Nat) (hI : d.Inv) : (Dev.fwBegin d p tag size).Inv := by
  unfold Dev.fwBegin
  repeat' first | with_reducible assumption | with_reducible intro _ | with_reducible apply Dev.finishWith_inv | with_reducible apply Dev.waits_inv | with_reducible apply Dev.writeDir_inv | with_reducible apply Dev.askBlock_inv | split | (with_reducible rfl) | (simp only [inv_mk, inv_fold, ite_inv]) | dsimp only

theorem Dev.imageErased_inv (d : Dev) (hI : d.Inv) : (Dev.imageErased d).Inv := by
  unfold Dev.imageErased
  repeat' first | with_reducible assumption | with_reducible intro _ | with_reducible apply Dev.finishWith_inv | with_reducible apply Dev.release_inv | with_reducible apply Dev.modCells_inv | with_reducible apply Dev.askBlock_inv | with_reducible apply norErase_wf | split | (with_reducible rfl) | (simp only [inv_mk, inv_fold, ite_inv]) | dsimp only

theorem Dev.integrity_inv (d : Dev) (p : Port) (tag reason : Nat) (hI : d.Inv) : (Dev.integrity d p tag reason).Inv := by
  simp only [Dev.integrity, Dev.finish_inv, inv_mk, inv_fold, hI]

theorem Dev.fwData_inv (d : Dev) (p : Port) (tag off : Nat) (bytes : List Byte) (readsBack : Bool) (hI : d.Inv) : (Dev.fwData d p tag off bytes readsBack).Inv := by
  unfold Dev.fwData
  repeat' first | with_reducible assumption | with_reducible intro _ | with_reducible apply Dev.finishWith_inv | with_reducible apply Dev.modCells_inv | with_reducible apply Dev.norBad_inv | with_reducible apply Dev.integrity_inv | with_reducible apply norStore_wf | split | (with_reducible rfl) | (simp only [inv_mk, inv_fold, ite_inv]) | dsimp only

theorem Dev.fwCommit_inv (d : Dev) (p : Port) (tag : Nat) (restart : Bool) (hI : d.Inv) : (Dev.fwCommit d p tag restart).Inv := by
  unfold Dev.fwCommit
  repeat' first | with_reducible assumption | with_reducible intro _ | with_reducible apply Dev.finishWith_inv | with_reducible apply Dev.writeDir_inv | with_reducible apply Dev.integrity_inv | split | (with_reducible rfl) | (simp only [inv_mk, inv_fold, ite_inv]) | dsimp only

theorem Dev.ticketDone_inv (d : Dev) (h : Holder) (hI : d.Inv) : (Dev.ticketDone d h).Inv := by
  unfold Dev.ticketDone
  (repeat' split) <;> first | with_reducible exact hI | (simp (maxDischargeDepth := 30) only [ite_inv, ite_self, Dev.release_inv, Dev.calSetsWritten_inv, Dev.calTicket_inv, Dev.dirErased_inv, Dev.patErased_inv, inv_mk, inv_fold, hI]; done)

theorem Dev.deniedLate_inv (d : Dev) (h : Holder) (hI : d.Inv) : (Dev.deniedLate d h).Inv := by
  unfold Dev.deniedLate
  repeat' first | with_reducible assumption | with_reducible intro _ | with_reducible apply foldl_inv | with_reducible apply foldl_fst_inv | with_reducible apply Dev.finishWith_inv | with_reducible apply Dev.calTicket_inv | with_reducible apply Dev.failSeals_inv | split | (with_reducible rfl) | (simp only [inv_mk, inv_fold, ite_inv]) | dsimp only

theorem Dev.queueTimeout_inv (d : Dev) (h : Holder) (hI : d.Inv) : (Dev.queueTimeout d h).Inv := by
  unfold Dev.queueTimeout
  repeat' first | with_reducible assumption | with_reducible intro _ | with_reducible apply Dev.deny_inv | with_reducible apply Dev.deniedLate_inv | split | (with_reducible rfl) | (simp only [inv_mk, inv_fold, ite_inv]) | dsimp only

theorem Dev.ticketOverrun_inv (d : Dev) (h : Holder) (hI : d.Inv) : (Dev.ticketOverrun d h).Inv := by
  simp (maxDischargeDepth := 30) only [Dev.ticketOverrun, ite_inv, ite_self, Dev.count_inv, Dev.post_inv, inv_mk, inv_fold, hI]

theorem Dev.ticketAsk_inv (d : Dev) (h : Holder) (hI : d.Inv) : (Dev.ticketAsk d h).Inv := by
  simp (maxDischargeDepth := 30) only [Dev.ticketAsk, ite_inv, ite_self, Dev.request_inv, Dev.calTicket_inv, Dev.deniedLate_inv, inv_mk, inv_fold, hI]

/-! ### IntegrityCmds.lean -/

theorem Dev.reloaded_inv (d : Dev) (mode : Nat) (hI : d.Inv) : (Dev.reloaded d mode).Inv := by
  unfold Dev.reloaded
  repeat' first | with_reducible assumption | with_reducible intro _ | with_reducible apply Dev.post_inv | with_reducible apply Dev.clearFault_inv | with_reducible apply Dev.afterClear_inv | split | (with_reducible rfl) | (simp only [inv_mk, inv_fold]) | dsimp only

/-! ### LinkCmds.lean -/

theorem Dev.askEye_inv (d : Dev) (l : LinkId) (hI : d.Inv) : (Dev.askEye d l).Inv := by
  simp (maxDischargeDepth := 30) only [Dev.askEye, ite_inv, ite_self, Dev.modLink_inv, Dev.request_inv, Dev.toEye_inv, inv_mk, inv_fold, hI]

theorem Dev.lockDone_inv (d : Dev) (l : LinkId) (hI : d.Inv) : (Dev.lockDone d l).Inv := by
  unfold Dev.lockDone
  repeat' first | with_reducible assumption | with_reducible intro _ | with_reducible apply Dev.toEye_inv | with_reducible apply Dev.toTrain_inv | with_reducible apply Dev.askEye_inv | split | (with_reducible rfl) | (simp only [inv_mk, inv_fold, ite_inv]) | dsimp only

theorem Dev.eyeDone_inv (d : Dev) (l : LinkId) (pam : List PamEyes) (hI : d.Inv) : (Dev.eyeDone d l pam).Inv := by
  simp (maxDischargeDepth := 30) only [Dev.eyeDone, ite_inv, ite_self, Dev.adaptReceivers_inv, Dev.recordEyes_inv, Dev.dropFailing_inv, Dev.attemptFailed_inv, Dev.toTrain_inv, inv_mk, inv_fold, List.length_map, List.length_set, modAt_length, List.length_mapIdx, foldl_modAt_length, hI]

theorem Dev.ts1In_inv (d : Dev) (l : LinkId) (phys : Nat) (ts : TrainingSet) (hI : d.Inv) : (Dev.ts1In d l phys ts).Inv := by
  unfold Dev.ts1In
  repeat' first | with_reducible assumption | with_reducible intro _ | with_reducible apply Dev.modLink_inv | with_reducible apply Dev.setPar_inv | with_reducible apply Dev.post_inv | with_reducible apply Dev.syncBts_inv | with_reducible apply Dev.nextTap_inv | split | (with_reducible rfl) | (simp only [inv_mk, inv_fold, ite_inv, List.length_map, List.length_set, modAt_length, List.length_mapIdx, foldl_modAt_length]) | dsimp only

theorem Dev.tapLate_inv (d : Dev) (l : LinkId) (phys : Nat) (r : TapReq) (hI : d.Inv) : (Dev.tapLate d l phys r).Inv := by
  simp (maxDischargeDepth := 30) only [Dev.tapLate, ite_inv, ite_self, Dev.modLink_inv, Dev.count_inv, Dev.syncBts_inv, inv_mk, inv_fold, List.length_map, List.length_set, modAt_length, List.length_mapIdx, foldl_modAt_length, hI]

theorem Dev.linkTrained_inv (d : Dev) (l : LinkId) (eyes : List Eye) (ts2 : List TrainingSet) (hI : d.Inv) : (Dev.linkTrained d l eyes ts2).Inv := by
  unfold Dev.linkTrained
  repeat' first | with_reducible assumption | with_reducible intro _ | with_reducible apply foldl_inv | with_reducible apply foldl_fst_inv | with_reducible apply Dev.modLink_inv | with_reducible apply Dev.syncBts_inv | with_reducible apply Dev.adaptReceivers_inv | with_reducible apply Dev.recordEyes_inv | with_reducible apply Dev.dropFailing_inv | with_reducible apply Dev.toL0_inv | with_reducible apply Dev.heldReplay_inv | split | (with_reducible rfl) | (simp only [inv_mk, inv_fold, ite_inv, List.length_map, List.length_set, modAt_length, List.length_mapIdx, foldl_modAt_length]) | dsimp only

theorem Dev.startStep_inv (d : Dev) (l : LinkId) (hI : d.Inv) : (Dev.startStep d l).Inv := by
  simp (maxDischargeDepth := 30) only [Dev.startStep, ite_inv, ite_self, Dev.modLink_inv, Dev.release_inv, Dev.toStep_inv, Dev.calAdvance_inv, inv_mk, inv_fold, hI]

theorem Dev.relock_inv (d : Dev) (l : LinkId) (hI : d.Inv) : (Dev.relock d l).Inv := by
  simp (maxDischargeDepth := 30) only [Dev.relock, Dev.modLink_inv, Dev.syncBts_inv, inv_mk, inv_fold, hI]

theorem Dev.detectors_inv (d : Dev) (l : LinkId) (phys : Nat) (los lol : Bool) (hI : d.Inv) : (Dev.detectors d l phys los lol).Inv := by
  simp (maxDischargeDepth := 30) only [Dev.detectors, ite_inv, ite_self, Dev.modLink_inv, Dev.count_inv, Dev.laneFault_inv, Dev.calAdvance_inv, inv_mk, inv_fold, List.length_map, List.length_set, modAt_length, List.length_mapIdx, foldl_modAt_length, hI]

theorem Dev.spareDsk_inv (d : Dev) (l : LinkId) (ack : Nat) (valid agrees : Bool) (hI : d.Inv) : (Dev.spareDsk d l ack valid agrees).Inv := by
  unfold Dev.spareDsk
  (repeat' split) <;> first | with_reducible exact hI | (simp (maxDischargeDepth := 30) only [ite_inv, ite_self, Dev.modLink_inv, Dev.syncBts_inv, Dev.moveLane_inv, inv_mk, inv_fold, hI]; done)

theorem Dev.dfeInL0_inv (d : Dev) (l : LinkId) (hI : d.Inv) : (Dev.dfeInL0 d l).Inv := by
  simp only [Dev.dfeInL0, ite_inv, ite_self, Dev.adaptDfe_inv, inv_mk, inv_fold, hI]

theorem Dev.toL1_inv (d : Dev) (l : LinkId) (hI : d.Inv) : (Dev.toL1 d l).Inv := by
  simp (maxDischargeDepth := 30) only [Dev.toL1, ite_inv, ite_self, Dev.modLink_inv, Dev.count_inv, Dev.postFree_inv, Dev.release_inv, Dev.syncBts_inv, Dev.calAdvance_inv, inv_mk, inv_fold, hI]

theorem Dev.fromL2_inv (d : Dev) (l : LinkId) (hI : d.Inv) : (Dev.fromL2 d l).Inv := by
  simp (maxDischargeDepth := 30) only [Dev.fromL2, Dev.modLink_inv, Dev.leavePower_inv, Dev.toLock_inv, inv_mk, inv_fold, hI]

theorem Dev.toPam4_inv (d : Dev) (l : LinkId) (hI : d.Inv) : (Dev.toPam4 d l).Inv := by
  simp (maxDischargeDepth := 30) only [Dev.toPam4, Dev.modLink_inv, Dev.pumpLink_inv, Dev.syncBts_inv, Dev.heldReplay_inv, inv_mk, inv_fold, hI]

theorem Dev.recoveryEye_inv (d : Dev) (l : LinkId) (pam : List PamEyes) (hI : d.Inv) : (Dev.recoveryEye d l pam).Inv := by
  simp (maxDischargeDepth := 30) only [Dev.recoveryEye, Dev.modLink_inv, Dev.syncBts_inv, Dev.recordEyes_inv, Dev.dropFailing_inv, inv_mk, inv_fold, List.length_map, List.length_set, modAt_length, List.length_mapIdx, foldl_modAt_length, hI]

theorem Dev.retrainFailed_inv (d : Dev) (l : LinkId) (hI : d.Inv) : (Dev.retrainFailed d l).Inv := by
  simp (maxDischargeDepth := 30) only [Dev.retrainFailed, ite_inv, ite_self, Dev.modLink_inv, Dev.toLock_inv, Dev.trainFail_inv, Dev.toDown_inv, Dev.toPam4_inv, inv_mk, inv_fold, hI]

/-! ### MailboxCmds.lean -/

theorem Dev.selectStandby_inv (d : Dev) (p : Port) (tag m : Nat) (hI : d.Inv) : (Dev.selectStandby d p tag m).Inv := by
  unfold Dev.selectStandby
  repeat' first | with_reducible assumption | with_reducible intro _ | with_reducible apply Dev.waits_inv | with_reducible apply Dev.moveSideR_inv | with_reducible apply Dev.selectNow_inv | with_reducible apply Dev.dropChange_inv | with_reducible apply Dev.settle_inv | split | (with_reducible rfl) | (simp only [inv_mk, inv_fold, ite_inv]) | dsimp only

theorem Dev.selectBeam_inv (d : Dev) (p : Port) (tag m : Nat) (hI : d.Inv) : (Dev.selectBeam d p tag m).Inv := by
  unfold Dev.selectBeam
  repeat' first | with_reducible assumption | with_reducible intro _ | with_reducible apply Dev.finishWith_inv | with_reducible apply Dev.waits_inv | with_reducible apply Dev.dropChange_inv | split | (with_reducible rfl) | (simp only [inv_mk, inv_fold, ite_inv]) | dsimp only

theorem Dev.recordMask_inv (d : Dev) (w : Word) (hI : d.Inv) : (Dev.recordMask d w).Inv := by
  simp only [Dev.recordMask, ite_inv, ite_self, inv_mk, inv_fold, hI]

theorem Dev.layerDeclare_inv (d : Dev) (p : Port) (tag n : Nat) (c : Decl) (hI : d.Inv) : (Dev.layerDeclare d p tag n c).Inv := by
  simp (maxDischargeDepth := 30) only [Dev.layerDeclare, ite_inv, ite_self, Dev.finishWith_inv, Dev.declare_inv, inv_mk, inv_fold, hI]

theorem Dev.commitCmd_inv (d : Dev) (p : Port) (tag g : Nat) (fences : List Nat) (hI : d.Inv) : (Dev.commitCmd d p tag g fences).Inv := by
  simp (maxDischargeDepth := 30) only [Dev.commitCmd, ite_inv, ite_self, Dev.finishWith_inv, Dev.waits_inv, Dev.arm_inv, inv_mk, inv_fold, hI]

theorem Dev.objectPart_inv (d : Dev) (p : Port) (tag : Nat) (payload : List Byte) (hI : d.Inv) : (Dev.objectPart d p tag payload).Inv := by
  unfold Dev.objectPart
  repeat' first | with_reducible assumption | with_reducible intro _ | with_reducible apply Dev.finishWith_inv | with_reducible apply Dev.handList_inv | with_reducible apply Dev.ok_inv | split | (with_reducible rfl) | (simp only [inv_mk, inv_fold, ite_inv]) | dsimp only

theorem Dev.signatureDone_inv (d : Dev) (side rect : Nat) (hI : d.Inv) : (Dev.signatureDone d side rect).Inv := by
  simp only [Dev.signatureDone, ite_inv, ite_self, Dev.actionDone_inv, inv_mk, inv_fold, hI]

/-! ### PortCmds.lean -/

theorem Dev.statusIn_inv (d : Dev) (k : Nat) (status : Word) (hI : d.Inv) : (Dev.statusIn d k status).Inv := by
  simp (maxDischargeDepth := 30) only [Dev.statusIn, ite_inv, ite_self, Dev.modMport_inv, Dev.portParked_inv, Dev.calGap_inv, Dev.settle_inv, inv_mk, inv_fold, hI]

theorem Dev.dwellOver_inv (d : Dev) (k : Nat) (hI : d.Inv) : (Dev.dwellOver d k).Inv := by
  simp (maxDischargeDepth := 30) only [Dev.dwellOver, ite_inv, ite_self, Dev.modMport_inv, Dev.powerUpNow_inv, inv_mk, inv_fold, hI]

theorem Dev.fltLow_inv (d : Dev) (k : Nat) (hI : d.Inv) : (Dev.fltLow d k).Inv := by
  simp only [Dev.fltLow, Dev.modMport_inv, inv_mk, inv_fold, hI]

/-! ### PowerCmds.lean -/

theorem Dev.syncScan_inv (d : Dev) (hI : d.Inv) : (Dev.syncScan d).Inv := by
  simp only [Dev.syncScan, inv_mk, inv_fold, hI]

end Sys2Proof.Machine
end

