-- ==== Sys2Proof/Laws/Run.lean ====
section
/-! SUPPORT. How a command's completion is shown: its function of the block, what that may change, and its effect; and what frames say
of single parts. -/

namespace Sys2Proof.Machine

open Sys2Proof

theorem Runs.of_on {c : Instr} {s : State} {touched : List Part} {effect : Dev → Prop} {f : Dev → Dev} (h : exec c s = s.on f)
    (frame : s.dev.onlyChanges (f s.dev) touched) (e : effect (f s.dev)) : Runs c s touched effect :=
  ⟨f s.dev, h, frame, e⟩

/-- A frame with fewer parts serves where more may change. -/
theorem Dev.onlyChanges.mono {a b : Dev} {l m : List Part} (h : a.onlyChanges b l) (hm : Part.within l m = true) :
    a.onlyChanges b m :=
  ⟨h.1, fun p hp => h.2 p fun hq => hp (Part.within_mem hm hq)⟩

theorem Dev.onlyChanges.trans {a b c : Dev} {l : List Part} (h : a.onlyChanges b l) (g : b.onlyChanges c l) : a.onlyChanges c l :=
  ⟨g.1.trans h.1, fun p hp => Part.same_trans (h.2 p hp) (g.2 p hp)⟩

/-- A part that a frame does not name is as it was. -/
theorem Dev.onlyChanges.part {a b : Dev} {l : List Part} (h : a.onlyChanges b l) (p : Part) (hp : l.contains p = false) :
    p.same a b :=
  h.2 p (by intro hm; simp [hm] at hp)

end Sys2Proof.Machine
end

