-- ==== Sys2Proof/Laws/State.lean ====
section
/-! SUPPORT. Laws of State's accessors and of its updates: what is written is read back, every other unit of the same kind is as it
was, and every part of the block that an update does not name is as it was. -/

namespace Sys2Proof.Machine

open Sys2Proof

/-! ### Lists and pairs by number -/

theorem modAt_getElem?_ne {α : Type} (l : List α) (f : α → α) {i j : Nat} (h : j ≠ i) : (modAt l i f)[j]? = l[j]? := by
  induction l generalizing i j with
  | nil => rfl
  | cons x xs ih =>
    cases i with
    | zero => cases j with
      | zero => exact absurd rfl h
      | succ j => rfl
    | succ i => cases j with
      | zero => rfl
      | succ j => exact ih (by omega)

theorem modAt_getElem?_self {α : Type} (l : List α) (f : α → α) (i : Nat) : (modAt l i f)[i]? = l[i]?.map f := by
  induction l generalizing i with
  | nil => rfl
  | cons x xs ih => cases i with
    | zero => rfl
    | succ i => exact ih i

theorem modAt_getD_ne {α : Type} (l : List α) (f : α → α) (x : α) {i j : Nat} (h : j ≠ i) :
    (modAt l i f).getD j x = l.getD j x := by
  simp only [List.getD_eq_getElem?_getD, modAt_getElem?_ne l f h]

theorem modAt_getD_self {α : Type} (l : List α) (f : α → α) (x : α) {i : Nat} (h : i < l.length) :
    (modAt l i f).getD i x = f (l.getD i x) := by
  simp [List.getD_eq_getElem?_getD, modAt_getElem?_self, h]

theorem modAt_getD_out {α : Type} (l : List α) (f : α → α) (x : α) {i : Nat} (h : l.length ≤ i) :
    (modAt l i f).getD i x = l.getD i x := by
  simp [List.getD_eq_getElem?_getD, modAt_getElem?_self, h]

@[simp] theorem Pair.get_set_self {α : Type} (p : Pair α) (i : Nat) (x : α) : (p.set i x).get i = x := by
  unfold Pair.get Pair.set; split <;> rfl

@[simp] theorem Pair.get_mod_self {α : Type} (p : Pair α) (i : Nat) (f : α → α) : (p.mod i f).get i = f (p.get i) :=
  Pair.get_set_self ..

/-- The two instances are apart. -/
theorem Pair.get_set_ne {α : Type} (p : Pair α) {i j : Nat} (x : α) (h : (i = 0) ≠ (j = 0)) : (p.set i x).get j = p.get j := by
  unfold Pair.get Pair.set
  by_cases hi : i = 0 <;> by_cases hj : j = 0 <;> simp_all

theorem Pair.get_mod_ne {α : Type} (p : Pair α) {i j : Nat} (f : α → α) (h : (i = 0) ≠ (j = 0)) : (p.mod i f).get j = p.get j :=
  Pair.get_set_ne p _ h

@[simp] theorem Pair.fst_set_one {α : Type} (p : Pair α) (x : α) : (p.set 1 x).fst = p.fst := rfl
@[simp] theorem Pair.snd_set_one {α : Type} (p : Pair α) (x : α) : (p.set 1 x).snd = x := rfl
@[simp] theorem Pair.fst_set_zero {α : Type} (p : Pair α) (x : α) : (p.set 0 x).fst = x := rfl
@[simp] theorem Pair.snd_set_zero {α : Type} (p : Pair α) (x : α) : (p.set 0 x).snd = p.snd := rfl

/-! ### Units by number -/

@[simp] theorem Dev.link_modLink_self (d : Dev) (l : LinkId) (f : Link → Link) : (d.modLink l f).link l = f (d.link l) :=
  Pair.get_mod_self ..

theorem Dev.link_modLink_ne (d : Dev) {l k : LinkId} (f : Link → Link) (h : k ≠ l) : (d.modLink l f).link k = d.link k := by
  cases l <;> cases k <;> first | exact absurd rfl h | rfl

@[simp] theorem Dev.base_modBase_self (d : Dev) (s : Nat) (f : Base → Base) : (d.modBase s f).base s = f (d.base s) :=
  Pair.get_mod_self ..

@[simp] theorem Dev.pipe_modPipe_self (d : Dev) (s : Nat) (f : Pipe → Pipe) : (d.modPipe s f).pipe s = f (d.pipe s) :=
  Pair.get_mod_self ..

@[simp] theorem Dev.mport_modMport_self (d : Dev) (s : Nat) (f : MPort → MPort) : (d.modMport s f).mport s = f (d.mport s) :=
  Pair.get_mod_self ..

@[simp] theorem Dev.lside_modLside_self (d : Dev) (s : Nat) (f : LampSide → LampSide) : (d.modLside s f).lside s = f (d.lside s) :=
  Pair.get_mod_self ..

theorem Dev.layer_modLayer_self (d : Dev) {n : Nat} (f : Layer → Layer) (h : n < d.cmp.layers.length) :
    (d.modLayer n f).layer n = f (d.layer n) := modAt_getD_self _ _ _ h

theorem Dev.layer_modLayer_ne (d : Dev) {n m : Nat} (f : Layer → Layer) (h : m ≠ n) : (d.modLayer n f).layer m = d.layer m :=
  modAt_getD_ne _ _ _ h

theorem Dev.group_modGroup_self (d : Dev) {n : Nat} (f : Group → Group) (h : n < d.cmp.groups.length) :
    (d.modGroup n f).group n = f (d.group n) := modAt_getD_self _ _ _ h

theorem Dev.chan_modChan_self (d : Dev) {n : Nat} (f : Chan → Chan) (h : n < d.lamp.chans.length) :
    (d.modChan n f).chan n = f (d.chan n) := modAt_getD_self _ _ _ h

theorem Dev.chan_modChan_ne (d : Dev) {n m : Nat} (f : Chan → Chan) (h : m ≠ n) : (d.modChan n f).chan m = d.chan m :=
  modAt_getD_ne _ _ _ h

theorem Dev.slot_modSlot_self (d : Dev) {n : Nat} (f : Slot → Slot) (h : n < d.gov.slots.length) :
    (d.modSlot n f).slot n = f (d.slot n) := modAt_getD_self _ _ _ h

theorem Dev.slot_modSlot_ne (d : Dev) {n m : Nat} (f : Slot → Slot) (h : m ≠ n) : (d.modSlot n f).slot m = d.slot m :=
  modAt_getD_ne _ _ _ h

theorem Dev.target_modTarget_self (d : Dev) {n : Nat} (f : MxTarget → MxTarget) (h : n < d.aux.targets.length) :
    (d.modTarget n f).target n = f (d.target n) := modAt_getD_self _ _ _ h

theorem Dev.pll_modPll_self (d : Dev) {n : Nat} (f : PllSt → PllSt) (h : n < d.clk.plls.length) :
    (d.modPll n f).pll n = f (d.pll n) := modAt_getD_self _ _ _ h

theorem Dev.pll_modPll_ne (d : Dev) {n m : Nat} (f : PllSt → PllSt) (h : m ≠ n) : (d.modPll n f).pll m = d.pll m :=
  modAt_getD_ne _ _ _ h

/-! ### Parts that an update does not name -/

@[simp] theorem Dev.modLink_variant (d : Dev) (l : LinkId) (f : Link → Link) : (d.modLink l f).variant = d.variant := rfl
@[simp] theorem Dev.modLink_aon (d : Dev) (l : LinkId) (f : Link → Link) : (d.modLink l f).aon = d.aon := rfl
@[simp] theorem Dev.modLink_core (d : Dev) (l : LinkId) (f : Link → Link) : (d.modLink l f).core = d.core := rfl
@[simp] theorem Dev.modLink_prm (d : Dev) (l : LinkId) (f : Link → Link) : (d.modLink l f).prm = d.prm := rfl
@[simp] theorem Dev.modLink_clk (d : Dev) (l : LinkId) (f : Link → Link) : (d.modLink l f).clk = d.clk := rfl
@[simp] theorem Dev.modLink_thm (d : Dev) (l : LinkId) (f : Link → Link) : (d.modLink l f).thm = d.thm := rfl
@[simp] theorem Dev.modLink_sluice (d : Dev) (l : LinkId) (f : Link → Link) : (d.modLink l f).sluice = d.sluice := rfl
@[simp] theorem Dev.modLink_host (d : Dev) (l : LinkId) (f : Link → Link) : (d.modLink l f).host = d.host := rfl
@[simp] theorem Dev.modLink_veh (d : Dev) (l : LinkId) (f : Link → Link) : (d.modLink l f).veh = d.veh := rfl
@[simp] theorem Dev.modLink_req (d : Dev) (l : LinkId) (f : Link → Link) : (d.modLink l f).req = d.req := rfl
@[simp] theorem Dev.modLink_cmp (d : Dev) (l : LinkId) (f : Link → Link) : (d.modLink l f).cmp = d.cmp := rfl
@[simp] theorem Dev.modLink_seq (d : Dev) (l : LinkId) (f : Link → Link) : (d.modLink l f).seq = d.seq := rfl
@[simp] theorem Dev.modLink_cam (d : Dev) (l : LinkId) (f : Link → Link) : (d.modLink l f).cam = d.cam := rfl
@[simp] theorem Dev.modLink_ports (d : Dev) (l : LinkId) (f : Link → Link) : (d.modLink l f).ports = d.ports := rfl
@[simp] theorem Dev.modLink_sht (d : Dev) (l : LinkId) (f : Link → Link) : (d.modLink l f).sht = d.sht := rfl
@[simp] theorem Dev.modLink_lamp (d : Dev) (l : LinkId) (f : Link → Link) : (d.modLink l f).lamp = d.lamp := rfl
@[simp] theorem Dev.modLink_gov (d : Dev) (l : LinkId) (f : Link → Link) : (d.modLink l f).gov = d.gov := rfl
@[simp] theorem Dev.modLink_aux (d : Dev) (l : LinkId) (f : Link → Link) : (d.modLink l f).aux = d.aux := rfl
@[simp] theorem Dev.modLink_saf (d : Dev) (l : LinkId) (f : Link → Link) : (d.modLink l f).saf = d.saf := rfl
@[simp] theorem Dev.modLink_jnl (d : Dev) (l : LinkId) (f : Link → Link) : (d.modLink l f).jnl = d.jnl := rfl
@[simp] theorem Dev.modLink_nor (d : Dev) (l : LinkId) (f : Link → Link) : (d.modLink l f).nor = d.nor := rfl
@[simp] theorem Dev.modLink_upd (d : Dev) (l : LinkId) (f : Link → Link) : (d.modLink l f).upd = d.upd := rfl
@[simp] theorem Dev.modLink_cal (d : Dev) (l : LinkId) (f : Link → Link) : (d.modLink l f).cal = d.cal := rfl
@[simp] theorem Dev.modLink_jtag (d : Dev) (l : LinkId) (f : Link → Link) : (d.modLink l f).jtag = d.jtag := rfl
@[simp] theorem Dev.modLink_freeCount (d : Dev) (l : LinkId) (f : Link → Link) : (d.modLink l f).freeCount = d.freeCount := rfl

@[simp] theorem Dev.modPort_variant (d : Dev) (p : Port) (f : PortState → PortState) : (d.modPort p f).variant = d.variant := rfl
@[simp] theorem Dev.modPort_aon (d : Dev) (p : Port) (f : PortState → PortState) : (d.modPort p f).aon = d.aon := rfl
@[simp] theorem Dev.modPort_core (d : Dev) (p : Port) (f : PortState → PortState) : (d.modPort p f).core = d.core := rfl
@[simp] theorem Dev.modPort_prm (d : Dev) (p : Port) (f : PortState → PortState) : (d.modPort p f).prm = d.prm := rfl
@[simp] theorem Dev.modPort_clk (d : Dev) (p : Port) (f : PortState → PortState) : (d.modPort p f).clk = d.clk := rfl
@[simp] theorem Dev.modPort_thm (d : Dev) (p : Port) (f : PortState → PortState) : (d.modPort p f).thm = d.thm := rfl
@[simp] theorem Dev.modPort_sluice (d : Dev) (p : Port) (f : PortState → PortState) : (d.modPort p f).sluice = d.sluice := rfl
@[simp] theorem Dev.modPort_veh (d : Dev) (p : Port) (f : PortState → PortState) : (d.modPort p f).veh = d.veh := rfl
@[simp] theorem Dev.modPort_req (d : Dev) (p : Port) (f : PortState → PortState) : (d.modPort p f).req = d.req := rfl
@[simp] theorem Dev.modPort_links (d : Dev) (p : Port) (f : PortState → PortState) : (d.modPort p f).links = d.links := rfl
@[simp] theorem Dev.modPort_cmp (d : Dev) (p : Port) (f : PortState → PortState) : (d.modPort p f).cmp = d.cmp := rfl
@[simp] theorem Dev.modPort_seq (d : Dev) (p : Port) (f : PortState → PortState) : (d.modPort p f).seq = d.seq := rfl
@[simp] theorem Dev.modPort_cam (d : Dev) (p : Port) (f : PortState → PortState) : (d.modPort p f).cam = d.cam := rfl
@[simp] theorem Dev.modPort_ports (d : Dev) (p : Port) (f : PortState → PortState) : (d.modPort p f).ports = d.ports := rfl
@[simp] theorem Dev.modPort_sht (d : Dev) (p : Port) (f : PortState → PortState) : (d.modPort p f).sht = d.sht := rfl
@[simp] theorem Dev.modPort_lamp (d : Dev) (p : Port) (f : PortState → PortState) : (d.modPort p f).lamp = d.lamp := rfl
@[simp] theorem Dev.modPort_gov (d : Dev) (p : Port) (f : PortState → PortState) : (d.modPort p f).gov = d.gov := rfl
@[simp] theorem Dev.modPort_aux (d : Dev) (p : Port) (f : PortState → PortState) : (d.modPort p f).aux = d.aux := rfl
@[simp] theorem Dev.modPort_saf (d : Dev) (p : Port) (f : PortState → PortState) : (d.modPort p f).saf = d.saf := rfl
@[simp] theorem Dev.modPort_jnl (d : Dev) (p : Port) (f : PortState → PortState) : (d.modPort p f).jnl = d.jnl := rfl
@[simp] theorem Dev.modPort_nor (d : Dev) (p : Port) (f : PortState → PortState) : (d.modPort p f).nor = d.nor := rfl
@[simp] theorem Dev.modPort_upd (d : Dev) (p : Port) (f : PortState → PortState) : (d.modPort p f).upd = d.upd := rfl
@[simp] theorem Dev.modPort_cal (d : Dev) (p : Port) (f : PortState → PortState) : (d.modPort p f).cal = d.cal := rfl
@[simp] theorem Dev.modPort_jtag (d : Dev) (p : Port) (f : PortState → PortState) : (d.modPort p f).jtag = d.jtag := rfl
@[simp] theorem Dev.modPort_freeCount (d : Dev) (p : Port) (f : PortState → PortState) : (d.modPort p f).freeCount = d.freeCount := rfl

@[simp] theorem Dev.modLayer_variant (d : Dev) (n : Nat) (f : Layer → Layer) : (d.modLayer n f).variant = d.variant := rfl
@[simp] theorem Dev.modLayer_aon (d : Dev) (n : Nat) (f : Layer → Layer) : (d.modLayer n f).aon = d.aon := rfl
@[simp] theorem Dev.modLayer_core (d : Dev) (n : Nat) (f : Layer → Layer) : (d.modLayer n f).core = d.core := rfl
@[simp] theorem Dev.modLayer_prm (d : Dev) (n : Nat) (f : Layer → Layer) : (d.modLayer n f).prm = d.prm := rfl
@[simp] theorem Dev.modLayer_clk (d : Dev) (n : Nat) (f : Layer → Layer) : (d.modLayer n f).clk = d.clk := rfl
@[simp] theorem Dev.modLayer_thm (d : Dev) (n : Nat) (f : Layer → Layer) : (d.modLayer n f).thm = d.thm := rfl
@[simp] theorem Dev.modLayer_sluice (d : Dev) (n : Nat) (f : Layer → Layer) : (d.modLayer n f).sluice = d.sluice := rfl
@[simp] theorem Dev.modLayer_host (d : Dev) (n : Nat) (f : Layer → Layer) : (d.modLayer n f).host = d.host := rfl
@[simp] theorem Dev.modLayer_veh (d : Dev) (n : Nat) (f : Layer → Layer) : (d.modLayer n f).veh = d.veh := rfl
@[simp] theorem Dev.modLayer_req (d : Dev) (n : Nat) (f : Layer → Layer) : (d.modLayer n f).req = d.req := rfl
@[simp] theorem Dev.modLayer_links (d : Dev) (n : Nat) (f : Layer → Layer) : (d.modLayer n f).links = d.links := rfl
@[simp] theorem Dev.modLayer_seq (d : Dev) (n : Nat) (f : Layer → Layer) : (d.modLayer n f).seq = d.seq := rfl
@[simp] theorem Dev.modLayer_cam (d : Dev) (n : Nat) (f : Layer → Layer) : (d.modLayer n f).cam = d.cam := rfl
@[simp] theorem Dev.modLayer_ports (d : Dev) (n : Nat) (f : Layer → Layer) : (d.modLayer n f).ports = d.ports := rfl
@[simp] theorem Dev.modLayer_sht (d : Dev) (n : Nat) (f : Layer → Layer) : (d.modLayer n f).sht = d.sht := rfl
@[simp] theorem Dev.modLayer_lamp (d : Dev) (n : Nat) (f : Layer → Layer) : (d.modLayer n f).lamp = d.lamp := rfl
@[simp] theorem Dev.modLayer_gov (d : Dev) (n : Nat) (f : Layer → Layer) : (d.modLayer n f).gov = d.gov := rfl
@[simp] theorem Dev.modLayer_aux (d : Dev) (n : Nat) (f : Layer → Layer) : (d.modLayer n f).aux = d.aux := rfl
@[simp] theorem Dev.modLayer_saf (d : Dev) (n : Nat) (f : Layer → Layer) : (d.modLayer n f).saf = d.saf := rfl
@[simp] theorem Dev.modLayer_jnl (d : Dev) (n : Nat) (f : Layer → Layer) : (d.modLayer n f).jnl = d.jnl := rfl
@[simp] theorem Dev.modLayer_nor (d : Dev) (n : Nat) (f : Layer → Layer) : (d.modLayer n f).nor = d.nor := rfl
@[simp] theorem Dev.modLayer_upd (d : Dev) (n : Nat) (f : Layer → Layer) : (d.modLayer n f).upd = d.upd := rfl
@[simp] theorem Dev.modLayer_cal (d : Dev) (n : Nat) (f : Layer → Layer) : (d.modLayer n f).cal = d.cal := rfl
@[simp] theorem Dev.modLayer_jtag (d : Dev) (n : Nat) (f : Layer → Layer) : (d.modLayer n f).jtag = d.jtag := rfl
@[simp] theorem Dev.modLayer_freeCount (d : Dev) (n : Nat) (f : Layer → Layer) : (d.modLayer n f).freeCount = d.freeCount := rfl

@[simp] theorem Dev.modGroup_variant (d : Dev) (g : Nat) (f : Group → Group) : (d.modGroup g f).variant = d.variant := rfl
@[simp] theorem Dev.modGroup_aon (d : Dev) (g : Nat) (f : Group → Group) : (d.modGroup g f).aon = d.aon := rfl
@[simp] theorem Dev.modGroup_core (d : Dev) (g : Nat) (f : Group → Group) : (d.modGroup g f).core = d.core := rfl
@[simp] theorem Dev.modGroup_prm (d : Dev) (g : Nat) (f : Group → Group) : (d.modGroup g f).prm = d.prm := rfl
@[simp] theorem Dev.modGroup_clk (d : Dev) (g : Nat) (f : Group → Group) : (d.modGroup g f).clk = d.clk := rfl
@[simp] theorem Dev.modGroup_thm (d : Dev) (g : Nat) (f : Group → Group) : (d.modGroup g f).thm = d.thm := rfl
@[simp] theorem Dev.modGroup_sluice (d : Dev) (g : Nat) (f : Group → Group) : (d.modGroup g f).sluice = d.sluice := rfl
@[simp] theorem Dev.modGroup_host (d : Dev) (g : Nat) (f : Group → Group) : (d.modGroup g f).host = d.host := rfl
@[simp] theorem Dev.modGroup_veh (d : Dev) (g : Nat) (f : Group → Group) : (d.modGroup g f).veh = d.veh := rfl
@[simp] theorem Dev.modGroup_req (d : Dev) (g : Nat) (f : Group → Group) : (d.modGroup g f).req = d.req := rfl
@[simp] theorem Dev.modGroup_links (d : Dev) (g : Nat) (f : Group → Group) : (d.modGroup g f).links = d.links := rfl
@[simp] theorem Dev.modGroup_seq (d : Dev) (g : Nat) (f : Group → Group) : (d.modGroup g f).seq = d.seq := rfl
@[simp] theorem Dev.modGroup_cam (d : Dev) (g : Nat) (f : Group → Group) : (d.modGroup g f).cam = d.cam := rfl
@[simp] theorem Dev.modGroup_ports (d : Dev) (g : Nat) (f : Group → Group) : (d.modGroup g f).ports = d.ports := rfl
@[simp] theorem Dev.modGroup_sht (d : Dev) (g : Nat) (f : Group → Group) : (d.modGroup g f).sht = d.sht := rfl
@[simp] theorem Dev.modGroup_lamp (d : Dev) (g : Nat) (f : Group → Group) : (d.modGroup g f).lamp = d.lamp := rfl
@[simp] theorem Dev.modGroup_gov (d : Dev) (g : Nat) (f : Group → Group) : (d.modGroup g f).gov = d.gov := rfl
@[simp] theorem Dev.modGroup_aux (d : Dev) (g : Nat) (f : Group → Group) : (d.modGroup g f).aux = d.aux := rfl
@[simp] theorem Dev.modGroup_saf (d : Dev) (g : Nat) (f : Group → Group) : (d.modGroup g f).saf = d.saf := rfl
@[simp] theorem Dev.modGroup_jnl (d : Dev) (g : Nat) (f : Group → Group) : (d.modGroup g f).jnl = d.jnl := rfl
@[simp] theorem Dev.modGroup_nor (d : Dev) (g : Nat) (f : Group → Group) : (d.modGroup g f).nor = d.nor := rfl
@[simp] theorem Dev.modGroup_upd (d : Dev) (g : Nat) (f : Group → Group) : (d.modGroup g f).upd = d.upd := rfl
@[simp] theorem Dev.modGroup_cal (d : Dev) (g : Nat) (f : Group → Group) : (d.modGroup g f).cal = d.cal := rfl
@[simp] theorem Dev.modGroup_jtag (d : Dev) (g : Nat) (f : Group → Group) : (d.modGroup g f).jtag = d.jtag := rfl
@[simp] theorem Dev.modGroup_freeCount (d : Dev) (g : Nat) (f : Group → Group) : (d.modGroup g f).freeCount = d.freeCount := rfl

@[simp] theorem Dev.modBase_variant (d : Dev) (s : Nat) (f : Base → Base) : (d.modBase s f).variant = d.variant := rfl
@[simp] theorem Dev.modBase_aon (d : Dev) (s : Nat) (f : Base → Base) : (d.modBase s f).aon = d.aon := rfl
@[simp] theorem Dev.modBase_core (d : Dev) (s : Nat) (f : Base → Base) : (d.modBase s f).core = d.core := rfl
@[simp] theorem Dev.modBase_prm (d : Dev) (s : Nat) (f : Base → Base) : (d.modBase s f).prm = d.prm := rfl
@[simp] theorem Dev.modBase_clk (d : Dev) (s : Nat) (f : Base → Base) : (d.modBase s f).clk = d.clk := rfl
@[simp] theorem Dev.modBase_thm (d : Dev) (s : Nat) (f : Base → Base) : (d.modBase s f).thm = d.thm := rfl
@[simp] theorem Dev.modBase_sluice (d : Dev) (s : Nat) (f : Base → Base) : (d.modBase s f).sluice = d.sluice := rfl
@[simp] theorem Dev.modBase_host (d : Dev) (s : Nat) (f : Base → Base) : (d.modBase s f).host = d.host := rfl
@[simp] theorem Dev.modBase_veh (d : Dev) (s : Nat) (f : Base → Base) : (d.modBase s f).veh = d.veh := rfl
@[simp] theorem Dev.modBase_req (d : Dev) (s : Nat) (f : Base → Base) : (d.modBase s f).req = d.req := rfl
@[simp] theorem Dev.modBase_links (d : Dev) (s : Nat) (f : Base → Base) : (d.modBase s f).links = d.links := rfl
@[simp] theorem Dev.modBase_seq (d : Dev) (s : Nat) (f : Base → Base) : (d.modBase s f).seq = d.seq := rfl
@[simp] theorem Dev.modBase_cam (d : Dev) (s : Nat) (f : Base → Base) : (d.modBase s f).cam = d.cam := rfl
@[simp] theorem Dev.modBase_ports (d : Dev) (s : Nat) (f : Base → Base) : (d.modBase s f).ports = d.ports := rfl
@[simp] theorem Dev.modBase_sht (d : Dev) (s : Nat) (f : Base → Base) : (d.modBase s f).sht = d.sht := rfl
@[simp] theorem Dev.modBase_lamp (d : Dev) (s : Nat) (f : Base → Base) : (d.modBase s f).lamp = d.lamp := rfl
@[simp] theorem Dev.modBase_gov (d : Dev) (s : Nat) (f : Base → Base) : (d.modBase s f).gov = d.gov := rfl
@[simp] theorem Dev.modBase_aux (d : Dev) (s : Nat) (f : Base → Base) : (d.modBase s f).aux = d.aux := rfl
@[simp] theorem Dev.modBase_saf (d : Dev) (s : Nat) (f : Base → Base) : (d.modBase s f).saf = d.saf := rfl
@[simp] theorem Dev.modBase_jnl (d : Dev) (s : Nat) (f : Base → Base) : (d.modBase s f).jnl = d.jnl := rfl
@[simp] theorem Dev.modBase_nor (d : Dev) (s : Nat) (f : Base → Base) : (d.modBase s f).nor = d.nor := rfl
@[simp] theorem Dev.modBase_upd (d : Dev) (s : Nat) (f : Base → Base) : (d.modBase s f).upd = d.upd := rfl
@[simp] theorem Dev.modBase_cal (d : Dev) (s : Nat) (f : Base → Base) : (d.modBase s f).cal = d.cal := rfl
@[simp] theorem Dev.modBase_jtag (d : Dev) (s : Nat) (f : Base → Base) : (d.modBase s f).jtag = d.jtag := rfl
@[simp] theorem Dev.modBase_freeCount (d : Dev) (s : Nat) (f : Base → Base) : (d.modBase s f).freeCount = d.freeCount := rfl

@[simp] theorem Dev.modPipe_variant (d : Dev) (s : Nat) (f : Pipe → Pipe) : (d.modPipe s f).variant = d.variant := rfl
@[simp] theorem Dev.modPipe_aon (d : Dev) (s : Nat) (f : Pipe → Pipe) : (d.modPipe s f).aon = d.aon := rfl
@[simp] theorem Dev.modPipe_core (d : Dev) (s : Nat) (f : Pipe → Pipe) : (d.modPipe s f).core = d.core := rfl
@[simp] theorem Dev.modPipe_prm (d : Dev) (s : Nat) (f : Pipe → Pipe) : (d.modPipe s f).prm = d.prm := rfl
@[simp] theorem Dev.modPipe_clk (d : Dev) (s : Nat) (f : Pipe → Pipe) : (d.modPipe s f).clk = d.clk := rfl
@[simp] theorem Dev.modPipe_thm (d : Dev) (s : Nat) (f : Pipe → Pipe) : (d.modPipe s f).thm = d.thm := rfl
@[simp] theorem Dev.modPipe_sluice (d : Dev) (s : Nat) (f : Pipe → Pipe) : (d.modPipe s f).sluice = d.sluice := rfl
@[simp] theorem Dev.modPipe_host (d : Dev) (s : Nat) (f : Pipe → Pipe) : (d.modPipe s f).host = d.host := rfl
@[simp] theorem Dev.modPipe_veh (d : Dev) (s : Nat) (f : Pipe → Pipe) : (d.modPipe s f).veh = d.veh := rfl
@[simp] theorem Dev.modPipe_req (d : Dev) (s : Nat) (f : Pipe → Pipe) : (d.modPipe s f).req = d.req := rfl
@[simp] theorem Dev.modPipe_links (d : Dev) (s : Nat) (f : Pipe → Pipe) : (d.modPipe s f).links = d.links := rfl
@[simp] theorem Dev.modPipe_seq (d : Dev) (s : Nat) (f : Pipe → Pipe) : (d.modPipe s f).seq = d.seq := rfl
@[simp] theorem Dev.modPipe_cam (d : Dev) (s : Nat) (f : Pipe → Pipe) : (d.modPipe s f).cam = d.cam := rfl
@[simp] theorem Dev.modPipe_ports (d : Dev) (s : Nat) (f : Pipe → Pipe) : (d.modPipe s f).ports = d.ports := rfl
@[simp] theorem Dev.modPipe_sht (d : Dev) (s : Nat) (f : Pipe → Pipe) : (d.modPipe s f).sht = d.sht := rfl
@[simp] theorem Dev.modPipe_lamp (d : Dev) (s : Nat) (f : Pipe → Pipe) : (d.modPipe s f).lamp = d.lamp := rfl
@[simp] theorem Dev.modPipe_gov (d : Dev) (s : Nat) (f : Pipe → Pipe) : (d.modPipe s f).gov = d.gov := rfl
@[simp] theorem Dev.modPipe_aux (d : Dev) (s : Nat) (f : Pipe → Pipe) : (d.modPipe s f).aux = d.aux := rfl
@[simp] theorem Dev.modPipe_saf (d : Dev) (s : Nat) (f : Pipe → Pipe) : (d.modPipe s f).saf = d.saf := rfl
@[simp] theorem Dev.modPipe_jnl (d : Dev) (s : Nat) (f : Pipe → Pipe) : (d.modPipe s f).jnl = d.jnl := rfl
@[simp] theorem Dev.modPipe_nor (d : Dev) (s : Nat) (f : Pipe → Pipe) : (d.modPipe s f).nor = d.nor := rfl
@[simp] theorem Dev.modPipe_upd (d : Dev) (s : Nat) (f : Pipe → Pipe) : (d.modPipe s f).upd = d.upd := rfl
@[simp] theorem Dev.modPipe_cal (d : Dev) (s : Nat) (f : Pipe → Pipe) : (d.modPipe s f).cal = d.cal := rfl
@[simp] theorem Dev.modPipe_jtag (d : Dev) (s : Nat) (f : Pipe → Pipe) : (d.modPipe s f).jtag = d.jtag := rfl
@[simp] theorem Dev.modPipe_freeCount (d : Dev) (s : Nat) (f : Pipe → Pipe) : (d.modPipe s f).freeCount = d.freeCount := rfl

@[simp] theorem Dev.modMport_variant (d : Dev) (s : Nat) (f : MPort → MPort) : (d.modMport s f).variant = d.variant := rfl
@[simp] theorem Dev.modMport_aon (d : Dev) (s : Nat) (f : MPort → MPort) : (d.modMport s f).aon = d.aon := rfl
@[simp] theorem Dev.modMport_core (d : Dev) (s : Nat) (f : MPort → MPort) : (d.modMport s f).core = d.core := rfl
@[simp] theorem Dev.modMport_prm (d : Dev) (s : Nat) (f : MPort → MPort) : (d.modMport s f).prm = d.prm := rfl
@[simp] theorem Dev.modMport_clk (d : Dev) (s : Nat) (f : MPort → MPort) : (d.modMport s f).clk = d.clk := rfl
@[simp] theorem Dev.modMport_thm (d : Dev) (s : Nat) (f : MPort → MPort) : (d.modMport s f).thm = d.thm := rfl
@[simp] theorem Dev.modMport_sluice (d : Dev) (s : Nat) (f : MPort → MPort) : (d.modMport s f).sluice = d.sluice := rfl
@[simp] theorem Dev.modMport_host (d : Dev) (s : Nat) (f : MPort → MPort) : (d.modMport s f).host = d.host := rfl
@[simp] theorem Dev.modMport_veh (d : Dev) (s : Nat) (f : MPort → MPort) : (d.modMport s f).veh = d.veh := rfl
@[simp] theorem Dev.modMport_req (d : Dev) (s : Nat) (f : MPort → MPort) : (d.modMport s f).req = d.req := rfl
@[simp] theorem Dev.modMport_links (d : Dev) (s : Nat) (f : MPort → MPort) : (d.modMport s f).links = d.links := rfl
@[simp] theorem Dev.modMport_cmp (d : Dev) (s : Nat) (f : MPort → MPort) : (d.modMport s f).cmp = d.cmp := rfl
@[simp] theorem Dev.modMport_seq (d : Dev) (s : Nat) (f : MPort → MPort) : (d.modMport s f).seq = d.seq := rfl
@[simp] theorem Dev.modMport_cam (d : Dev) (s : Nat) (f : MPort → MPort) : (d.modMport s f).cam = d.cam := rfl
@[simp] theorem Dev.modMport_sht (d : Dev) (s : Nat) (f : MPort → MPort) : (d.modMport s f).sht = d.sht := rfl
@[simp] theorem Dev.modMport_lamp (d : Dev) (s : Nat) (f : MPort → MPort) : (d.modMport s f).lamp = d.lamp := rfl
@[simp] theorem Dev.modMport_gov (d : Dev) (s : Nat) (f : MPort → MPort) : (d.modMport s f).gov = d.gov := rfl
@[simp] theorem Dev.modMport_aux (d : Dev) (s : Nat) (f : MPort → MPort) : (d.modMport s f).aux = d.aux := rfl
@[simp] theorem Dev.modMport_saf (d : Dev) (s : Nat) (f : MPort → MPort) : (d.modMport s f).saf = d.saf := rfl
@[simp] theorem Dev.modMport_jnl (d : Dev) (s : Nat) (f : MPort → MPort) : (d.modMport s f).jnl = d.jnl := rfl
@[simp] theorem Dev.modMport_nor (d : Dev) (s : Nat) (f : MPort → MPort) : (d.modMport s f).nor = d.nor := rfl
@[simp] theorem Dev.modMport_upd (d : Dev) (s : Nat) (f : MPort → MPort) : (d.modMport s f).upd = d.upd := rfl
@[simp] theorem Dev.modMport_cal (d : Dev) (s : Nat) (f : MPort → MPort) : (d.modMport s f).cal = d.cal := rfl
@[simp] theorem Dev.modMport_jtag (d : Dev) (s : Nat) (f : MPort → MPort) : (d.modMport s f).jtag = d.jtag := rfl
@[simp] theorem Dev.modMport_freeCount (d : Dev) (s : Nat) (f : MPort → MPort) : (d.modMport s f).freeCount = d.freeCount := rfl

@[simp] theorem Dev.modChan_variant (d : Dev) (c : Nat) (f : Chan → Chan) : (d.modChan c f).variant = d.variant := rfl
@[simp] theorem Dev.modChan_aon (d : Dev) (c : Nat) (f : Chan → Chan) : (d.modChan c f).aon = d.aon := rfl
@[simp] theorem Dev.modChan_core (d : Dev) (c : Nat) (f : Chan → Chan) : (d.modChan c f).core = d.core := rfl
@[simp] theorem Dev.modChan_prm (d : Dev) (c : Nat) (f : Chan → Chan) : (d.modChan c f).prm = d.prm := rfl
@[simp] theorem Dev.modChan_clk (d : Dev) (c : Nat) (f : Chan → Chan) : (d.modChan c f).clk = d.clk := rfl
@[simp] theorem Dev.modChan_thm (d : Dev) (c : Nat) (f : Chan → Chan) : (d.modChan c f).thm = d.thm := rfl
@[simp] theorem Dev.modChan_sluice (d : Dev) (c : Nat) (f : Chan → Chan) : (d.modChan c f).sluice = d.sluice := rfl
@[simp] theorem Dev.modChan_host (d : Dev) (c : Nat) (f : Chan → Chan) : (d.modChan c f).host = d.host := rfl
@[simp] theorem Dev.modChan_veh (d : Dev) (c : Nat) (f : Chan → Chan) : (d.modChan c f).veh = d.veh := rfl
@[simp] theorem Dev.modChan_req (d : Dev) (c : Nat) (f : Chan → Chan) : (d.modChan c f).req = d.req := rfl
@[simp] theorem Dev.modChan_links (d : Dev) (c : Nat) (f : Chan → Chan) : (d.modChan c f).links = d.links := rfl
@[simp] theorem Dev.modChan_cmp (d : Dev) (c : Nat) (f : Chan → Chan) : (d.modChan c f).cmp = d.cmp := rfl
@[simp] theorem Dev.modChan_seq (d : Dev) (c : Nat) (f : Chan → Chan) : (d.modChan c f).seq = d.seq := rfl
@[simp] theorem Dev.modChan_cam (d : Dev) (c : Nat) (f : Chan → Chan) : (d.modChan c f).cam = d.cam := rfl
@[simp] theorem Dev.modChan_ports (d : Dev) (c : Nat) (f : Chan → Chan) : (d.modChan c f).ports = d.ports := rfl
@[simp] theorem Dev.modChan_sht (d : Dev) (c : Nat) (f : Chan → Chan) : (d.modChan c f).sht = d.sht := rfl
@[simp] theorem Dev.modChan_gov (d : Dev) (c : Nat) (f : Chan → Chan) : (d.modChan c f).gov = d.gov := rfl
@[simp] theorem Dev.modChan_aux (d : Dev) (c : Nat) (f : Chan → Chan) : (d.modChan c f).aux = d.aux := rfl
@[simp] theorem Dev.modChan_saf (d : Dev) (c : Nat) (f : Chan → Chan) : (d.modChan c f).saf = d.saf := rfl
@[simp] theorem Dev.modChan_jnl (d : Dev) (c : Nat) (f : Chan → Chan) : (d.modChan c f).jnl = d.jnl := rfl
@[simp] theorem Dev.modChan_nor (d : Dev) (c : Nat) (f : Chan → Chan) : (d.modChan c f).nor = d.nor := rfl
@[simp] theorem Dev.modChan_upd (d : Dev) (c : Nat) (f : Chan → Chan) : (d.modChan c f).upd = d.upd := rfl
@[simp] theorem Dev.modChan_cal (d : Dev) (c : Nat) (f : Chan → Chan) : (d.modChan c f).cal = d.cal := rfl
@[simp] theorem Dev.modChan_jtag (d : Dev) (c : Nat) (f : Chan → Chan) : (d.modChan c f).jtag = d.jtag := rfl
@[simp] theorem Dev.modChan_freeCount (d : Dev) (c : Nat) (f : Chan → Chan) : (d.modChan c f).freeCount = d.freeCount := rfl

@[simp] theorem Dev.modLside_variant (d : Dev) (s : Nat) (f : LampSide → LampSide) : (d.modLside s f).variant = d.variant := rfl
@[simp] theorem Dev.modLside_aon (d : Dev) (s : Nat) (f : LampSide → LampSide) : (d.modLside s f).aon = d.aon := rfl
@[simp] theorem Dev.modLside_core (d : Dev) (s : Nat) (f : LampSide → LampSide) : (d.modLside s f).core = d.core := rfl
@[simp] theorem Dev.modLside_prm (d : Dev) (s : Nat) (f : LampSide → LampSide) : (d.modLside s f).prm = d.prm := rfl
@[simp] theorem Dev.modLside_clk (d : Dev) (s : Nat) (f : LampSide → LampSide) : (d.modLside s f).clk = d.clk := rfl
@[simp] theorem Dev.modLside_thm (d : Dev) (s : Nat) (f : LampSide → LampSide) : (d.modLside s f).thm = d.thm := rfl
@[simp] theorem Dev.modLside_sluice (d : Dev) (s : Nat) (f : LampSide → LampSide) : (d.modLside s f).sluice = d.sluice := rfl
@[simp] theorem Dev.modLside_host (d : Dev) (s : Nat) (f : LampSide → LampSide) : (d.modLside s f).host = d.host := rfl
@[simp] theorem Dev.modLside_veh (d : Dev) (s : Nat) (f : LampSide → LampSide) : (d.modLside s f).veh = d.veh := rfl
@[simp] theorem Dev.modLside_req (d : Dev) (s : Nat) (f : LampSide → LampSide) : (d.modLside s f).req = d.req := rfl
@[simp] theorem Dev.modLside_links (d : Dev) (s : Nat) (f : LampSide → LampSide) : (d.modLside s f).links = d.links := rfl
@[simp] theorem Dev.modLside_cmp (d : Dev) (s : Nat) (f : LampSide → LampSide) : (d.modLside s f).cmp = d.cmp := rfl
@[simp] theorem Dev.modLside_seq (d : Dev) (s : Nat) (f : LampSide → LampSide) : (d.modLside s f).seq = d.seq := rfl
@[simp] theorem Dev.modLside_cam (d : Dev) (s : Nat) (f : LampSide → LampSide) : (d.modLside s f).cam = d.cam := rfl
@[simp] theorem Dev.modLside_ports (d : Dev) (s : Nat) (f : LampSide → LampSide) : (d.modLside s f).ports = d.ports := rfl
@[simp] theorem Dev.modLside_sht (d : Dev) (s : Nat) (f : LampSide → LampSide) : (d.modLside s f).sht = d.sht := rfl
@[simp] theorem Dev.modLside_gov (d : Dev) (s : Nat) (f : LampSide → LampSide) : (d.modLside s f).gov = d.gov := rfl
@[simp] theorem Dev.modLside_aux (d : Dev) (s : Nat) (f : LampSide → LampSide) : (d.modLside s f).aux = d.aux := rfl
@[simp] theorem Dev.modLside_saf (d : Dev) (s : Nat) (f : LampSide → LampSide) : (d.modLside s f).saf = d.saf := rfl
@[simp] theorem Dev.modLside_jnl (d : Dev) (s : Nat) (f : LampSide → LampSide) : (d.modLside s f).jnl = d.jnl := rfl
@[simp] theorem Dev.modLside_nor (d : Dev) (s : Nat) (f : LampSide → LampSide) : (d.modLside s f).nor = d.nor := rfl
@[simp] theorem Dev.modLside_upd (d : Dev) (s : Nat) (f : LampSide → LampSide) : (d.modLside s f).upd = d.upd := rfl
@[simp] theorem Dev.modLside_cal (d : Dev) (s : Nat) (f : LampSide → LampSide) : (d.modLside s f).cal = d.cal := rfl
@[simp] theorem Dev.modLside_jtag (d : Dev) (s : Nat) (f : LampSide → LampSide) : (d.modLside s f).jtag = d.jtag := rfl
@[simp] theorem Dev.modLside_freeCount (d : Dev) (s : Nat) (f : LampSide → LampSide) : (d.modLside s f).freeCount = d.freeCount := rfl

@[simp] theorem Dev.modSlot_variant (d : Dev) (n : Nat) (f : Slot → Slot) : (d.modSlot n f).variant = d.variant := rfl
@[simp] theorem Dev.modSlot_aon (d : Dev) (n : Nat) (f : Slot → Slot) : (d.modSlot n f).aon = d.aon := rfl
@[simp] theorem Dev.modSlot_core (d : Dev) (n : Nat) (f : Slot → Slot) : (d.modSlot n f).core = d.core := rfl
@[simp] theorem Dev.modSlot_prm (d : Dev) (n : Nat) (f : Slot → Slot) : (d.modSlot n f).prm = d.prm := rfl
@[simp] theorem Dev.modSlot_clk (d : Dev) (n : Nat) (f : Slot → Slot) : (d.modSlot n f).clk = d.clk := rfl
@[simp] theorem Dev.modSlot_thm (d : Dev) (n : Nat) (f : Slot → Slot) : (d.modSlot n f).thm = d.thm := rfl
@[simp] theorem Dev.modSlot_sluice (d : Dev) (n : Nat) (f : Slot → Slot) : (d.modSlot n f).sluice = d.sluice := rfl
@[simp] theorem Dev.modSlot_host (d : Dev) (n : Nat) (f : Slot → Slot) : (d.modSlot n f).host = d.host := rfl
@[simp] theorem Dev.modSlot_veh (d : Dev) (n : Nat) (f : Slot → Slot) : (d.modSlot n f).veh = d.veh := rfl
@[simp] theorem Dev.modSlot_req (d : Dev) (n : Nat) (f : Slot → Slot) : (d.modSlot n f).req = d.req := rfl
@[simp] theorem Dev.modSlot_links (d : Dev) (n : Nat) (f : Slot → Slot) : (d.modSlot n f).links = d.links := rfl
@[simp] theorem Dev.modSlot_cmp (d : Dev) (n : Nat) (f : Slot → Slot) : (d.modSlot n f).cmp = d.cmp := rfl
@[simp] theorem Dev.modSlot_seq (d : Dev) (n : Nat) (f : Slot → Slot) : (d.modSlot n f).seq = d.seq := rfl
@[simp] theorem Dev.modSlot_cam (d : Dev) (n : Nat) (f : Slot → Slot) : (d.modSlot n f).cam = d.cam := rfl
@[simp] theorem Dev.modSlot_ports (d : Dev) (n : Nat) (f : Slot → Slot) : (d.modSlot n f).ports = d.ports := rfl
@[simp] theorem Dev.modSlot_sht (d : Dev) (n : Nat) (f : Slot → Slot) : (d.modSlot n f).sht = d.sht := rfl
@[simp] theorem Dev.modSlot_lamp (d : Dev) (n : Nat) (f : Slot → Slot) : (d.modSlot n f).lamp = d.lamp := rfl
@[simp] theorem Dev.modSlot_aux (d : Dev) (n : Nat) (f : Slot → Slot) : (d.modSlot n f).aux = d.aux := rfl
@[simp] theorem Dev.modSlot_saf (d : Dev) (n : Nat) (f : Slot → Slot) : (d.modSlot n f).saf = d.saf := rfl
@[simp] theorem Dev.modSlot_jnl (d : Dev) (n : Nat) (f : Slot → Slot) : (d.modSlot n f).jnl = d.jnl := rfl
@[simp] theorem Dev.modSlot_nor (d : Dev) (n : Nat) (f : Slot → Slot) : (d.modSlot n f).nor = d.nor := rfl
@[simp] theorem Dev.modSlot_upd (d : Dev) (n : Nat) (f : Slot → Slot) : (d.modSlot n f).upd = d.upd := rfl
@[simp] theorem Dev.modSlot_cal (d : Dev) (n : Nat) (f : Slot → Slot) : (d.modSlot n f).cal = d.cal := rfl
@[simp] theorem Dev.modSlot_jtag (d : Dev) (n : Nat) (f : Slot → Slot) : (d.modSlot n f).jtag = d.jtag := rfl
@[simp] theorem Dev.modSlot_freeCount (d : Dev) (n : Nat) (f : Slot → Slot) : (d.modSlot n f).freeCount = d.freeCount := rfl

@[simp] theorem Dev.modTarget_variant (d : Dev) (n : Nat) (f : MxTarget → MxTarget) : (d.modTarget n f).variant = d.variant := rfl
@[simp] theorem Dev.modTarget_aon (d : Dev) (n : Nat) (f : MxTarget → MxTarget) : (d.modTarget n f).aon = d.aon := rfl
@[simp] theorem Dev.modTarget_core (d : Dev) (n : Nat) (f : MxTarget → MxTarget) : (d.modTarget n f).core = d.core := rfl
@[simp] theorem Dev.modTarget_prm (d : Dev) (n : Nat) (f : MxTarget → MxTarget) : (d.modTarget n f).prm = d.prm := rfl
@[simp] theorem Dev.modTarget_clk (d : Dev) (n : Nat) (f : MxTarget → MxTarget) : (d.modTarget n f).clk = d.clk := rfl
@[simp] theorem Dev.modTarget_thm (d : Dev) (n : Nat) (f : MxTarget → MxTarget) : (d.modTarget n f).thm = d.thm := rfl
@[simp] theorem Dev.modTarget_sluice (d : Dev) (n : Nat) (f : MxTarget → MxTarget) : (d.modTarget n f).sluice = d.sluice := rfl
@[simp] theorem Dev.modTarget_host (d : Dev) (n : Nat) (f : MxTarget → MxTarget) : (d.modTarget n f).host = d.host := rfl
@[simp] theorem Dev.modTarget_veh (d : Dev) (n : Nat) (f : MxTarget → MxTarget) : (d.modTarget n f).veh = d.veh := rfl
@[simp] theorem Dev.modTarget_req (d : Dev) (n : Nat) (f : MxTarget → MxTarget) : (d.modTarget n f).req = d.req := rfl
@[simp] theorem Dev.modTarget_links (d : Dev) (n : Nat) (f : MxTarget → MxTarget) : (d.modTarget n f).links = d.links := rfl
@[simp] theorem Dev.modTarget_cmp (d : Dev) (n : Nat) (f : MxTarget → MxTarget) : (d.modTarget n f).cmp = d.cmp := rfl
@[simp] theorem Dev.modTarget_seq (d : Dev) (n : Nat) (f : MxTarget → MxTarget) : (d.modTarget n f).seq = d.seq := rfl
@[simp] theorem Dev.modTarget_cam (d : Dev) (n : Nat) (f : MxTarget → MxTarget) : (d.modTarget n f).cam = d.cam := rfl
@[simp] theorem Dev.modTarget_ports (d : Dev) (n : Nat) (f : MxTarget → MxTarget) : (d.modTarget n f).ports = d.ports := rfl
@[simp] theorem Dev.modTarget_sht (d : Dev) (n : Nat) (f : MxTarget → MxTarget) : (d.modTarget n f).sht = d.sht := rfl
@[simp] theorem Dev.modTarget_lamp (d : Dev) (n : Nat) (f : MxTarget → MxTarget) : (d.modTarget n f).lamp = d.lamp := rfl
@[simp] theorem Dev.modTarget_gov (d : Dev) (n : Nat) (f : MxTarget → MxTarget) : (d.modTarget n f).gov = d.gov := rfl
@[simp] theorem Dev.modTarget_saf (d : Dev) (n : Nat) (f : MxTarget → MxTarget) : (d.modTarget n f).saf = d.saf := rfl
@[simp] theorem Dev.modTarget_jnl (d : Dev) (n : Nat) (f : MxTarget → MxTarget) : (d.modTarget n f).jnl = d.jnl := rfl
@[simp] theorem Dev.modTarget_nor (d : Dev) (n : Nat) (f : MxTarget → MxTarget) : (d.modTarget n f).nor = d.nor := rfl
@[simp] theorem Dev.modTarget_upd (d : Dev) (n : Nat) (f : MxTarget → MxTarget) : (d.modTarget n f).upd = d.upd := rfl
@[simp] theorem Dev.modTarget_cal (d : Dev) (n : Nat) (f : MxTarget → MxTarget) : (d.modTarget n f).cal = d.cal := rfl
@[simp] theorem Dev.modTarget_jtag (d : Dev) (n : Nat) (f : MxTarget → MxTarget) : (d.modTarget n f).jtag = d.jtag := rfl
@[simp] theorem Dev.modTarget_freeCount (d : Dev) (n : Nat) (f : MxTarget → MxTarget) : (d.modTarget n f).freeCount = d.freeCount := rfl

@[simp] theorem Dev.modPll_variant (d : Dev) (p : Nat) (f : PllSt → PllSt) : (d.modPll p f).variant = d.variant := rfl
@[simp] theorem Dev.modPll_aon (d : Dev) (p : Nat) (f : PllSt → PllSt) : (d.modPll p f).aon = d.aon := rfl
@[simp] theorem Dev.modPll_core (d : Dev) (p : Nat) (f : PllSt → PllSt) : (d.modPll p f).core = d.core := rfl
@[simp] theorem Dev.modPll_prm (d : Dev) (p : Nat) (f : PllSt → PllSt) : (d.modPll p f).prm = d.prm := rfl
@[simp] theorem Dev.modPll_thm (d : Dev) (p : Nat) (f : PllSt → PllSt) : (d.modPll p f).thm = d.thm := rfl
@[simp] theorem Dev.modPll_sluice (d : Dev) (p : Nat) (f : PllSt → PllSt) : (d.modPll p f).sluice = d.sluice := rfl
@[simp] theorem Dev.modPll_host (d : Dev) (p : Nat) (f : PllSt → PllSt) : (d.modPll p f).host = d.host := rfl
@[simp] theorem Dev.modPll_veh (d : Dev) (p : Nat) (f : PllSt → PllSt) : (d.modPll p f).veh = d.veh := rfl
@[simp] theorem Dev.modPll_req (d : Dev) (p : Nat) (f : PllSt → PllSt) : (d.modPll p f).req = d.req := rfl
@[simp] theorem Dev.modPll_links (d : Dev) (p : Nat) (f : PllSt → PllSt) : (d.modPll p f).links = d.links := rfl
@[simp] theorem Dev.modPll_cmp (d : Dev) (p : Nat) (f : PllSt → PllSt) : (d.modPll p f).cmp = d.cmp := rfl
@[simp] theorem Dev.modPll_seq (d : Dev) (p : Nat) (f : PllSt → PllSt) : (d.modPll p f).seq = d.seq := rfl
@[simp] theorem Dev.modPll_cam (d : Dev) (p : Nat) (f : PllSt → PllSt) : (d.modPll p f).cam = d.cam := rfl
@[simp] theorem Dev.modPll_ports (d : Dev) (p : Nat) (f : PllSt → PllSt) : (d.modPll p f).ports = d.ports := rfl
@[simp] theorem Dev.modPll_sht (d : Dev) (p : Nat) (f : PllSt → PllSt) : (d.modPll p f).sht = d.sht := rfl
@[simp] theorem Dev.modPll_lamp (d : Dev) (p : Nat) (f : PllSt → PllSt) : (d.modPll p f).lamp = d.lamp := rfl
@[simp] theorem Dev.modPll_gov (d : Dev) (p : Nat) (f : PllSt → PllSt) : (d.modPll p f).gov = d.gov := rfl
@[simp] theorem Dev.modPll_aux (d : Dev) (p : Nat) (f : PllSt → PllSt) : (d.modPll p f).aux = d.aux := rfl
@[simp] theorem Dev.modPll_saf (d : Dev) (p : Nat) (f : PllSt → PllSt) : (d.modPll p f).saf = d.saf := rfl
@[simp] theorem Dev.modPll_jnl (d : Dev) (p : Nat) (f : PllSt → PllSt) : (d.modPll p f).jnl = d.jnl := rfl
@[simp] theorem Dev.modPll_nor (d : Dev) (p : Nat) (f : PllSt → PllSt) : (d.modPll p f).nor = d.nor := rfl
@[simp] theorem Dev.modPll_upd (d : Dev) (p : Nat) (f : PllSt → PllSt) : (d.modPll p f).upd = d.upd := rfl
@[simp] theorem Dev.modPll_cal (d : Dev) (p : Nat) (f : PllSt → PllSt) : (d.modPll p f).cal = d.cal := rfl
@[simp] theorem Dev.modPll_jtag (d : Dev) (p : Nat) (f : PllSt → PllSt) : (d.modPll p f).jtag = d.jtag := rfl
@[simp] theorem Dev.modPll_freeCount (d : Dev) (p : Nat) (f : PllSt → PllSt) : (d.modPll p f).freeCount = d.freeCount := rfl

@[simp] theorem Dev.modMask_variant (d : Dev) (s : Nat) (f : MaskBuf → MaskBuf) : (d.modMask s f).variant = d.variant := rfl
@[simp] theorem Dev.modMask_aon (d : Dev) (s : Nat) (f : MaskBuf → MaskBuf) : (d.modMask s f).aon = d.aon := rfl
@[simp] theorem Dev.modMask_core (d : Dev) (s : Nat) (f : MaskBuf → MaskBuf) : (d.modMask s f).core = d.core := rfl
@[simp] theorem Dev.modMask_prm (d : Dev) (s : Nat) (f : MaskBuf → MaskBuf) : (d.modMask s f).prm = d.prm := rfl
@[simp] theorem Dev.modMask_clk (d : Dev) (s : Nat) (f : MaskBuf → MaskBuf) : (d.modMask s f).clk = d.clk := rfl
@[simp] theorem Dev.modMask_thm (d : Dev) (s : Nat) (f : MaskBuf → MaskBuf) : (d.modMask s f).thm = d.thm := rfl
@[simp] theorem Dev.modMask_sluice (d : Dev) (s : Nat) (f : MaskBuf → MaskBuf) : (d.modMask s f).sluice = d.sluice := rfl
@[simp] theorem Dev.modMask_host (d : Dev) (s : Nat) (f : MaskBuf → MaskBuf) : (d.modMask s f).host = d.host := rfl
@[simp] theorem Dev.modMask_veh (d : Dev) (s : Nat) (f : MaskBuf → MaskBuf) : (d.modMask s f).veh = d.veh := rfl
@[simp] theorem Dev.modMask_req (d : Dev) (s : Nat) (f : MaskBuf → MaskBuf) : (d.modMask s f).req = d.req := rfl
@[simp] theorem Dev.modMask_links (d : Dev) (s : Nat) (f : MaskBuf → MaskBuf) : (d.modMask s f).links = d.links := rfl
@[simp] theorem Dev.modMask_cmp (d : Dev) (s : Nat) (f : MaskBuf → MaskBuf) : (d.modMask s f).cmp = d.cmp := rfl
@[simp] theorem Dev.modMask_cam (d : Dev) (s : Nat) (f : MaskBuf → MaskBuf) : (d.modMask s f).cam = d.cam := rfl
@[simp] theorem Dev.modMask_ports (d : Dev) (s : Nat) (f : MaskBuf → MaskBuf) : (d.modMask s f).ports = d.ports := rfl
@[simp] theorem Dev.modMask_sht (d : Dev) (s : Nat) (f : MaskBuf → MaskBuf) : (d.modMask s f).sht = d.sht := rfl
@[simp] theorem Dev.modMask_lamp (d : Dev) (s : Nat) (f : MaskBuf → MaskBuf) : (d.modMask s f).lamp = d.lamp := rfl
@[simp] theorem Dev.modMask_gov (d : Dev) (s : Nat) (f : MaskBuf → MaskBuf) : (d.modMask s f).gov = d.gov := rfl
@[simp] theorem Dev.modMask_aux (d : Dev) (s : Nat) (f : MaskBuf → MaskBuf) : (d.modMask s f).aux = d.aux := rfl
@[simp] theorem Dev.modMask_saf (d : Dev) (s : Nat) (f : MaskBuf → MaskBuf) : (d.modMask s f).saf = d.saf := rfl
@[simp] theorem Dev.modMask_jnl (d : Dev) (s : Nat) (f : MaskBuf → MaskBuf) : (d.modMask s f).jnl = d.jnl := rfl
@[simp] theorem Dev.modMask_nor (d : Dev) (s : Nat) (f : MaskBuf → MaskBuf) : (d.modMask s f).nor = d.nor := rfl
@[simp] theorem Dev.modMask_upd (d : Dev) (s : Nat) (f : MaskBuf → MaskBuf) : (d.modMask s f).upd = d.upd := rfl
@[simp] theorem Dev.modMask_cal (d : Dev) (s : Nat) (f : MaskBuf → MaskBuf) : (d.modMask s f).cal = d.cal := rfl
@[simp] theorem Dev.modMask_jtag (d : Dev) (s : Nat) (f : MaskBuf → MaskBuf) : (d.modMask s f).jtag = d.jtag := rfl
@[simp] theorem Dev.modMask_freeCount (d : Dev) (s : Nat) (f : MaskBuf → MaskBuf) : (d.modMask s f).freeCount = d.freeCount := rfl

@[simp] theorem Dev.putVal_variant (d : Dev) (id : Nat) (v : Int) : (d.putVal id v).variant = d.variant := rfl
@[simp] theorem Dev.putVal_aon (d : Dev) (id : Nat) (v : Int) : (d.putVal id v).aon = d.aon := rfl
@[simp] theorem Dev.putVal_core (d : Dev) (id : Nat) (v : Int) : (d.putVal id v).core = d.core := rfl
@[simp] theorem Dev.putVal_clk (d : Dev) (id : Nat) (v : Int) : (d.putVal id v).clk = d.clk := rfl
@[simp] theorem Dev.putVal_thm (d : Dev) (id : Nat) (v : Int) : (d.putVal id v).thm = d.thm := rfl
@[simp] theorem Dev.putVal_sluice (d : Dev) (id : Nat) (v : Int) : (d.putVal id v).sluice = d.sluice := rfl
@[simp] theorem Dev.putVal_host (d : Dev) (id : Nat) (v : Int) : (d.putVal id v).host = d.host := rfl
@[simp] theorem Dev.putVal_veh (d : Dev) (id : Nat) (v : Int) : (d.putVal id v).veh = d.veh := rfl
@[simp] theorem Dev.putVal_req (d : Dev) (id : Nat) (v : Int) : (d.putVal id v).req = d.req := rfl
@[simp] theorem Dev.putVal_links (d : Dev) (id : Nat) (v : Int) : (d.putVal id v).links = d.links := rfl
@[simp] theorem Dev.putVal_cmp (d : Dev) (id : Nat) (v : Int) : (d.putVal id v).cmp = d.cmp := rfl
@[simp] theorem Dev.putVal_seq (d : Dev) (id : Nat) (v : Int) : (d.putVal id v).seq = d.seq := rfl
@[simp] theorem Dev.putVal_cam (d : Dev) (id : Nat) (v : Int) : (d.putVal id v).cam = d.cam := rfl
@[simp] theorem Dev.putVal_ports (d : Dev) (id : Nat) (v : Int) : (d.putVal id v).ports = d.ports := rfl
@[simp] theorem Dev.putVal_sht (d : Dev) (id : Nat) (v : Int) : (d.putVal id v).sht = d.sht := rfl
@[simp] theorem Dev.putVal_lamp (d : Dev) (id : Nat) (v : Int) : (d.putVal id v).lamp = d.lamp := rfl
@[simp] theorem Dev.putVal_gov (d : Dev) (id : Nat) (v : Int) : (d.putVal id v).gov = d.gov := rfl
@[simp] theorem Dev.putVal_aux (d : Dev) (id : Nat) (v : Int) : (d.putVal id v).aux = d.aux := rfl
@[simp] theorem Dev.putVal_saf (d : Dev) (id : Nat) (v : Int) : (d.putVal id v).saf = d.saf := rfl
@[simp] theorem Dev.putVal_jnl (d : Dev) (id : Nat) (v : Int) : (d.putVal id v).jnl = d.jnl := rfl
@[simp] theorem Dev.putVal_nor (d : Dev) (id : Nat) (v : Int) : (d.putVal id v).nor = d.nor := rfl
@[simp] theorem Dev.putVal_upd (d : Dev) (id : Nat) (v : Int) : (d.putVal id v).upd = d.upd := rfl
@[simp] theorem Dev.putVal_cal (d : Dev) (id : Nat) (v : Int) : (d.putVal id v).cal = d.cal := rfl
@[simp] theorem Dev.putVal_jtag (d : Dev) (id : Nat) (v : Int) : (d.putVal id v).jtag = d.jtag := rfl
@[simp] theorem Dev.putVal_freeCount (d : Dev) (id : Nat) (v : Int) : (d.putVal id v).freeCount = d.freeCount := rfl

@[simp] theorem Dev.putArr_variant (d : Dev) (id : Nat) (v : List Byte) : (d.putArr id v).variant = d.variant := rfl
@[simp] theorem Dev.putArr_aon (d : Dev) (id : Nat) (v : List Byte) : (d.putArr id v).aon = d.aon := rfl
@[simp] theorem Dev.putArr_core (d : Dev) (id : Nat) (v : List Byte) : (d.putArr id v).core = d.core := rfl
@[simp] theorem Dev.putArr_clk (d : Dev) (id : Nat) (v : List Byte) : (d.putArr id v).clk = d.clk := rfl
@[simp] theorem Dev.putArr_thm (d : Dev) (id : Nat) (v : List Byte) : (d.putArr id v).thm = d.thm := rfl
@[simp] theorem Dev.putArr_sluice (d : Dev) (id : Nat) (v : List Byte) : (d.putArr id v).sluice = d.sluice := rfl
@[simp] theorem Dev.putArr_host (d : Dev) (id : Nat) (v : List Byte) : (d.putArr id v).host = d.host := rfl
@[simp] theorem Dev.putArr_veh (d : Dev) (id : Nat) (v : List Byte) : (d.putArr id v).veh = d.veh := rfl
@[simp] theorem Dev.putArr_req (d : Dev) (id : Nat) (v : List Byte) : (d.putArr id v).req = d.req := rfl
@[simp] theorem Dev.putArr_links (d : Dev) (id : Nat) (v : List Byte) : (d.putArr id v).links = d.links := rfl
@[simp] theorem Dev.putArr_cmp (d : Dev) (id : Nat) (v : List Byte) : (d.putArr id v).cmp = d.cmp := rfl
@[simp] theorem Dev.putArr_seq (d : Dev) (id : Nat) (v : List Byte) : (d.putArr id v).seq = d.seq := rfl
@[simp] theorem Dev.putArr_cam (d : Dev) (id : Nat) (v : List Byte) : (d.putArr id v).cam = d.cam := rfl
@[simp] theorem Dev.putArr_ports (d : Dev) (id : Nat) (v : List Byte) : (d.putArr id v).ports = d.ports := rfl
@[simp] theorem Dev.putArr_sht (d : Dev) (id : Nat) (v : List Byte) : (d.putArr id v).sht = d.sht := rfl
@[simp] theorem Dev.putArr_lamp (d : Dev) (id : Nat) (v : List Byte) : (d.putArr id v).lamp = d.lamp := rfl
@[simp] theorem Dev.putArr_gov (d : Dev) (id : Nat) (v : List Byte) : (d.putArr id v).gov = d.gov := rfl
@[simp] theorem Dev.putArr_aux (d : Dev) (id : Nat) (v : List Byte) : (d.putArr id v).aux = d.aux := rfl
@[simp] theorem Dev.putArr_saf (d : Dev) (id : Nat) (v : List Byte) : (d.putArr id v).saf = d.saf := rfl
@[simp] theorem Dev.putArr_jnl (d : Dev) (id : Nat) (v : List Byte) : (d.putArr id v).jnl = d.jnl := rfl
@[simp] theorem Dev.putArr_nor (d : Dev) (id : Nat) (v : List Byte) : (d.putArr id v).nor = d.nor := rfl
@[simp] theorem Dev.putArr_upd (d : Dev) (id : Nat) (v : List Byte) : (d.putArr id v).upd = d.upd := rfl
@[simp] theorem Dev.putArr_cal (d : Dev) (id : Nat) (v : List Byte) : (d.putArr id v).cal = d.cal := rfl
@[simp] theorem Dev.putArr_jtag (d : Dev) (id : Nat) (v : List Byte) : (d.putArr id v).jtag = d.jtag := rfl
@[simp] theorem Dev.putArr_freeCount (d : Dev) (id : Nat) (v : List Byte) : (d.putArr id v).freeCount = d.freeCount := rfl

@[simp] theorem Dev.stageVal_variant (d : Dev) (id : Nat) (v : Int) : (d.stageVal id v).variant = d.variant := rfl
@[simp] theorem Dev.stageVal_aon (d : Dev) (id : Nat) (v : Int) : (d.stageVal id v).aon = d.aon := rfl
@[simp] theorem Dev.stageVal_core (d : Dev) (id : Nat) (v : Int) : (d.stageVal id v).core = d.core := rfl
@[simp] theorem Dev.stageVal_clk (d : Dev) (id : Nat) (v : Int) : (d.stageVal id v).clk = d.clk := rfl
@[simp] theorem Dev.stageVal_thm (d : Dev) (id : Nat) (v : Int) : (d.stageVal id v).thm = d.thm := rfl
@[simp] theorem Dev.stageVal_sluice (d : Dev) (id : Nat) (v : Int) : (d.stageVal id v).sluice = d.sluice := rfl
@[simp] theorem Dev.stageVal_host (d : Dev) (id : Nat) (v : Int) : (d.stageVal id v).host = d.host := rfl
@[simp] theorem Dev.stageVal_veh (d : Dev) (id : Nat) (v : Int) : (d.stageVal id v).veh = d.veh := rfl
@[simp] theorem Dev.stageVal_req (d : Dev) (id : Nat) (v : Int) : (d.stageVal id v).req = d.req := rfl
@[simp] theorem Dev.stageVal_links (d : Dev) (id : Nat) (v : Int) : (d.stageVal id v).links = d.links := rfl
@[simp] theorem Dev.stageVal_cmp (d : Dev) (id : Nat) (v : Int) : (d.stageVal id v).cmp = d.cmp := rfl
@[simp] theorem Dev.stageVal_seq (d : Dev) (id : Nat) (v : Int) : (d.stageVal id v).seq = d.seq := rfl
@[simp] theorem Dev.stageVal_cam (d : Dev) (id : Nat) (v : Int) : (d.stageVal id v).cam = d.cam := rfl
@[simp] theorem Dev.stageVal_ports (d : Dev) (id : Nat) (v : Int) : (d.stageVal id v).ports = d.ports := rfl
@[simp] theorem Dev.stageVal_sht (d : Dev) (id : Nat) (v : Int) : (d.stageVal id v).sht = d.sht := rfl
@[simp] theorem Dev.stageVal_lamp (d : Dev) (id : Nat) (v : Int) : (d.stageVal id v).lamp = d.lamp := rfl
@[simp] theorem Dev.stageVal_gov (d : Dev) (id : Nat) (v : Int) : (d.stageVal id v).gov = d.gov := rfl
@[simp] theorem Dev.stageVal_aux (d : Dev) (id : Nat) (v : Int) : (d.stageVal id v).aux = d.aux := rfl
@[simp] theorem Dev.stageVal_saf (d : Dev) (id : Nat) (v : Int) : (d.stageVal id v).saf = d.saf := rfl
@[simp] theorem Dev.stageVal_jnl (d : Dev) (id : Nat) (v : Int) : (d.stageVal id v).jnl = d.jnl := rfl
@[simp] theorem Dev.stageVal_nor (d : Dev) (id : Nat) (v : Int) : (d.stageVal id v).nor = d.nor := rfl
@[simp] theorem Dev.stageVal_upd (d : Dev) (id : Nat) (v : Int) : (d.stageVal id v).upd = d.upd := rfl
@[simp] theorem Dev.stageVal_cal (d : Dev) (id : Nat) (v : Int) : (d.stageVal id v).cal = d.cal := rfl
@[simp] theorem Dev.stageVal_jtag (d : Dev) (id : Nat) (v : Int) : (d.stageVal id v).jtag = d.jtag := rfl
@[simp] theorem Dev.stageVal_freeCount (d : Dev) (id : Nat) (v : Int) : (d.stageVal id v).freeCount = d.freeCount := rfl

@[simp] theorem Dev.stageArr_variant (d : Dev) (id : Nat) (v : List Byte) : (d.stageArr id v).variant = d.variant := rfl
@[simp] theorem Dev.stageArr_aon (d : Dev) (id : Nat) (v : List Byte) : (d.stageArr id v).aon = d.aon := rfl
@[simp] theorem Dev.stageArr_core (d : Dev) (id : Nat) (v : List Byte) : (d.stageArr id v).core = d.core := rfl
@[simp] theorem Dev.stageArr_clk (d : Dev) (id : Nat) (v : List Byte) : (d.stageArr id v).clk = d.clk := rfl
@[simp] theorem Dev.stageArr_thm (d : Dev) (id : Nat) (v : List Byte) : (d.stageArr id v).thm = d.thm := rfl
@[simp] theorem Dev.stageArr_sluice (d : Dev) (id : Nat) (v : List Byte) : (d.stageArr id v).sluice = d.sluice := rfl
@[simp] theorem Dev.stageArr_host (d : Dev) (id : Nat) (v : List Byte) : (d.stageArr id v).host = d.host := rfl
@[simp] theorem Dev.stageArr_veh (d : Dev) (id : Nat) (v : List Byte) : (d.stageArr id v).veh = d.veh := rfl
@[simp] theorem Dev.stageArr_req (d : Dev) (id : Nat) (v : List Byte) : (d.stageArr id v).req = d.req := rfl
@[simp] theorem Dev.stageArr_links (d : Dev) (id : Nat) (v : List Byte) : (d.stageArr id v).links = d.links := rfl
@[simp] theorem Dev.stageArr_cmp (d : Dev) (id : Nat) (v : List Byte) : (d.stageArr id v).cmp = d.cmp := rfl
@[simp] theorem Dev.stageArr_seq (d : Dev) (id : Nat) (v : List Byte) : (d.stageArr id v).seq = d.seq := rfl
@[simp] theorem Dev.stageArr_cam (d : Dev) (id : Nat) (v : List Byte) : (d.stageArr id v).cam = d.cam := rfl
@[simp] theorem Dev.stageArr_ports (d : Dev) (id : Nat) (v : List Byte) : (d.stageArr id v).ports = d.ports := rfl
@[simp] theorem Dev.stageArr_sht (d : Dev) (id : Nat) (v : List Byte) : (d.stageArr id v).sht = d.sht := rfl
@[simp] theorem Dev.stageArr_lamp (d : Dev) (id : Nat) (v : List Byte) : (d.stageArr id v).lamp = d.lamp := rfl
@[simp] theorem Dev.stageArr_gov (d : Dev) (id : Nat) (v : List Byte) : (d.stageArr id v).gov = d.gov := rfl
@[simp] theorem Dev.stageArr_aux (d : Dev) (id : Nat) (v : List Byte) : (d.stageArr id v).aux = d.aux := rfl
@[simp] theorem Dev.stageArr_saf (d : Dev) (id : Nat) (v : List Byte) : (d.stageArr id v).saf = d.saf := rfl
@[simp] theorem Dev.stageArr_jnl (d : Dev) (id : Nat) (v : List Byte) : (d.stageArr id v).jnl = d.jnl := rfl
@[simp] theorem Dev.stageArr_nor (d : Dev) (id : Nat) (v : List Byte) : (d.stageArr id v).nor = d.nor := rfl
@[simp] theorem Dev.stageArr_upd (d : Dev) (id : Nat) (v : List Byte) : (d.stageArr id v).upd = d.upd := rfl
@[simp] theorem Dev.stageArr_cal (d : Dev) (id : Nat) (v : List Byte) : (d.stageArr id v).cal = d.cal := rfl
@[simp] theorem Dev.stageArr_jtag (d : Dev) (id : Nat) (v : List Byte) : (d.stageArr id v).jtag = d.jtag := rfl
@[simp] theorem Dev.stageArr_freeCount (d : Dev) (id : Nat) (v : List Byte) : (d.stageArr id v).freeCount = d.freeCount := rfl

@[simp] theorem Dev.setPar_variant (d : Dev) (k i : Nat) (v : Int) : (d.setPar k i v).variant = d.variant := rfl
@[simp] theorem Dev.setPar_aon (d : Dev) (k i : Nat) (v : Int) : (d.setPar k i v).aon = d.aon := rfl
@[simp] theorem Dev.setPar_core (d : Dev) (k i : Nat) (v : Int) : (d.setPar k i v).core = d.core := rfl
@[simp] theorem Dev.setPar_clk (d : Dev) (k i : Nat) (v : Int) : (d.setPar k i v).clk = d.clk := rfl
@[simp] theorem Dev.setPar_thm (d : Dev) (k i : Nat) (v : Int) : (d.setPar k i v).thm = d.thm := rfl
@[simp] theorem Dev.setPar_sluice (d : Dev) (k i : Nat) (v : Int) : (d.setPar k i v).sluice = d.sluice := rfl
@[simp] theorem Dev.setPar_host (d : Dev) (k i : Nat) (v : Int) : (d.setPar k i v).host = d.host := rfl
@[simp] theorem Dev.setPar_veh (d : Dev) (k i : Nat) (v : Int) : (d.setPar k i v).veh = d.veh := rfl
@[simp] theorem Dev.setPar_req (d : Dev) (k i : Nat) (v : Int) : (d.setPar k i v).req = d.req := rfl
@[simp] theorem Dev.setPar_links (d : Dev) (k i : Nat) (v : Int) : (d.setPar k i v).links = d.links := rfl
@[simp] theorem Dev.setPar_cmp (d : Dev) (k i : Nat) (v : Int) : (d.setPar k i v).cmp = d.cmp := rfl
@[simp] theorem Dev.setPar_seq (d : Dev) (k i : Nat) (v : Int) : (d.setPar k i v).seq = d.seq := rfl
@[simp] theorem Dev.setPar_cam (d : Dev) (k i : Nat) (v : Int) : (d.setPar k i v).cam = d.cam := rfl
@[simp] theorem Dev.setPar_ports (d : Dev) (k i : Nat) (v : Int) : (d.setPar k i v).ports = d.ports := rfl
@[simp] theorem Dev.setPar_sht (d : Dev) (k i : Nat) (v : Int) : (d.setPar k i v).sht = d.sht := rfl
@[simp] theorem Dev.setPar_lamp (d : Dev) (k i : Nat) (v : Int) : (d.setPar k i v).lamp = d.lamp := rfl
@[simp] theorem Dev.setPar_gov (d : Dev) (k i : Nat) (v : Int) : (d.setPar k i v).gov = d.gov := rfl
@[simp] theorem Dev.setPar_aux (d : Dev) (k i : Nat) (v : Int) : (d.setPar k i v).aux = d.aux := rfl
@[simp] theorem Dev.setPar_saf (d : Dev) (k i : Nat) (v : Int) : (d.setPar k i v).saf = d.saf := rfl
@[simp] theorem Dev.setPar_jnl (d : Dev) (k i : Nat) (v : Int) : (d.setPar k i v).jnl = d.jnl := rfl
@[simp] theorem Dev.setPar_nor (d : Dev) (k i : Nat) (v : Int) : (d.setPar k i v).nor = d.nor := rfl
@[simp] theorem Dev.setPar_upd (d : Dev) (k i : Nat) (v : Int) : (d.setPar k i v).upd = d.upd := rfl
@[simp] theorem Dev.setPar_cal (d : Dev) (k i : Nat) (v : Int) : (d.setPar k i v).cal = d.cal := rfl
@[simp] theorem Dev.setPar_jtag (d : Dev) (k i : Nat) (v : Int) : (d.setPar k i v).jtag = d.jtag := rfl
@[simp] theorem Dev.setPar_freeCount (d : Dev) (k i : Nat) (v : Int) : (d.setPar k i v).freeCount = d.freeCount := rfl

@[simp] theorem Dev.setCorr_variant (d : Dev) (ch : Nat) (v : Int × Int) : (d.setCorr ch v).variant = d.variant := rfl
@[simp] theorem Dev.setCorr_aon (d : Dev) (ch : Nat) (v : Int × Int) : (d.setCorr ch v).aon = d.aon := rfl
@[simp] theorem Dev.setCorr_core (d : Dev) (ch : Nat) (v : Int × Int) : (d.setCorr ch v).core = d.core := rfl
@[simp] theorem Dev.setCorr_prm (d : Dev) (ch : Nat) (v : Int × Int) : (d.setCorr ch v).prm = d.prm := rfl
@[simp] theorem Dev.setCorr_clk (d : Dev) (ch : Nat) (v : Int × Int) : (d.setCorr ch v).clk = d.clk := rfl
@[simp] theorem Dev.setCorr_thm (d : Dev) (ch : Nat) (v : Int × Int) : (d.setCorr ch v).thm = d.thm := rfl
@[simp] theorem Dev.setCorr_sluice (d : Dev) (ch : Nat) (v : Int × Int) : (d.setCorr ch v).sluice = d.sluice := rfl
@[simp] theorem Dev.setCorr_host (d : Dev) (ch : Nat) (v : Int × Int) : (d.setCorr ch v).host = d.host := rfl
@[simp] theorem Dev.setCorr_veh (d : Dev) (ch : Nat) (v : Int × Int) : (d.setCorr ch v).veh = d.veh := rfl
@[simp] theorem Dev.setCorr_req (d : Dev) (ch : Nat) (v : Int × Int) : (d.setCorr ch v).req = d.req := rfl
@[simp] theorem Dev.setCorr_links (d : Dev) (ch : Nat) (v : Int × Int) : (d.setCorr ch v).links = d.links := rfl
@[simp] theorem Dev.setCorr_cmp (d : Dev) (ch : Nat) (v : Int × Int) : (d.setCorr ch v).cmp = d.cmp := rfl
@[simp] theorem Dev.setCorr_seq (d : Dev) (ch : Nat) (v : Int × Int) : (d.setCorr ch v).seq = d.seq := rfl
@[simp] theorem Dev.setCorr_cam (d : Dev) (ch : Nat) (v : Int × Int) : (d.setCorr ch v).cam = d.cam := rfl
@[simp] theorem Dev.setCorr_ports (d : Dev) (ch : Nat) (v : Int × Int) : (d.setCorr ch v).ports = d.ports := rfl
@[simp] theorem Dev.setCorr_sht (d : Dev) (ch : Nat) (v : Int × Int) : (d.setCorr ch v).sht = d.sht := rfl
@[simp] theorem Dev.setCorr_lamp (d : Dev) (ch : Nat) (v : Int × Int) : (d.setCorr ch v).lamp = d.lamp := rfl
@[simp] theorem Dev.setCorr_gov (d : Dev) (ch : Nat) (v : Int × Int) : (d.setCorr ch v).gov = d.gov := rfl
@[simp] theorem Dev.setCorr_aux (d : Dev) (ch : Nat) (v : Int × Int) : (d.setCorr ch v).aux = d.aux := rfl
@[simp] theorem Dev.setCorr_saf (d : Dev) (ch : Nat) (v : Int × Int) : (d.setCorr ch v).saf = d.saf := rfl
@[simp] theorem Dev.setCorr_jnl (d : Dev) (ch : Nat) (v : Int × Int) : (d.setCorr ch v).jnl = d.jnl := rfl
@[simp] theorem Dev.setCorr_nor (d : Dev) (ch : Nat) (v : Int × Int) : (d.setCorr ch v).nor = d.nor := rfl
@[simp] theorem Dev.setCorr_upd (d : Dev) (ch : Nat) (v : Int × Int) : (d.setCorr ch v).upd = d.upd := rfl
@[simp] theorem Dev.setCorr_jtag (d : Dev) (ch : Nat) (v : Int × Int) : (d.setCorr ch v).jtag = d.jtag := rfl
@[simp] theorem Dev.setCorr_freeCount (d : Dev) (ch : Nat) (v : Int × Int) : (d.setCorr ch v).freeCount = d.freeCount := rfl

@[simp] theorem Dev.drawn_variant (d : Dev) : (d.drawn).variant = d.variant := rfl
@[simp] theorem Dev.drawn_aon (d : Dev) : (d.drawn).aon = d.aon := rfl
@[simp] theorem Dev.drawn_core (d : Dev) : (d.drawn).core = d.core := rfl
@[simp] theorem Dev.drawn_prm (d : Dev) : (d.drawn).prm = d.prm := rfl
@[simp] theorem Dev.drawn_clk (d : Dev) : (d.drawn).clk = d.clk := rfl
@[simp] theorem Dev.drawn_thm (d : Dev) : (d.drawn).thm = d.thm := rfl
@[simp] theorem Dev.drawn_sluice (d : Dev) : (d.drawn).sluice = d.sluice := rfl
@[simp] theorem Dev.drawn_host (d : Dev) : (d.drawn).host = d.host := rfl
@[simp] theorem Dev.drawn_veh (d : Dev) : (d.drawn).veh = d.veh := rfl
@[simp] theorem Dev.drawn_req (d : Dev) : (d.drawn).req = d.req := rfl
@[simp] theorem Dev.drawn_links (d : Dev) : (d.drawn).links = d.links := rfl
@[simp] theorem Dev.drawn_cmp (d : Dev) : (d.drawn).cmp = d.cmp := rfl
@[simp] theorem Dev.drawn_seq (d : Dev) : (d.drawn).seq = d.seq := rfl
@[simp] theorem Dev.drawn_cam (d : Dev) : (d.drawn).cam = d.cam := rfl
@[simp] theorem Dev.drawn_ports (d : Dev) : (d.drawn).ports = d.ports := rfl
@[simp] theorem Dev.drawn_sht (d : Dev) : (d.drawn).sht = d.sht := rfl
@[simp] theorem Dev.drawn_lamp (d : Dev) : (d.drawn).lamp = d.lamp := rfl
@[simp] theorem Dev.drawn_gov (d : Dev) : (d.drawn).gov = d.gov := rfl
@[simp] theorem Dev.drawn_aux (d : Dev) : (d.drawn).aux = d.aux := rfl
@[simp] theorem Dev.drawn_saf (d : Dev) : (d.drawn).saf = d.saf := rfl
@[simp] theorem Dev.drawn_jnl (d : Dev) : (d.drawn).jnl = d.jnl := rfl
@[simp] theorem Dev.drawn_nor (d : Dev) : (d.drawn).nor = d.nor := rfl
@[simp] theorem Dev.drawn_upd (d : Dev) : (d.drawn).upd = d.upd := rfl
@[simp] theorem Dev.drawn_cal (d : Dev) : (d.drawn).cal = d.cal := rfl
@[simp] theorem Dev.drawn_jtag (d : Dev) : (d.drawn).jtag = d.jtag := rfl

end Sys2Proof.Machine
end

