-- ==== Sys2Proof/Laws/Mailbox.lean ====
section
/-! SUPPORT. What responses and events leave of the open commands and caches of the ports, what a final status does to them, and what
service of the command at a port's head comes to. -/

namespace Sys2Proof.Machine

open Sys2Proof

/-- Open commands and completed commands of every port are the same. -/
structure Dev.sameBox (a b : Dev) : Prop where
  box : ∀ p, (b.port p).opens = (a.port p).opens ∧ (b.port p).cache = (a.port p).cache

theorem Dev.sameBox_refl (d : Dev) : d.sameBox d := ⟨fun _ => ⟨rfl, rfl⟩⟩

theorem Dev.sameBox_trans {a b c : Dev} (h : a.sameBox b) (g : b.sameBox c) : a.sameBox c :=
  ⟨fun p => ⟨(g.box p).1.trans (h.box p).1, (g.box p).2.trans (h.box p).2⟩⟩

theorem Dev.sameBox_of_ports {a b : Dev} (h : b.host.ports = a.host.ports) : a.sameBox b := by
  constructor; intro p; simp only [Dev.port, h, and_self]

theorem Dev.sameBox_of_frame {a b : Dev} {l : List Part} (h : a.onlyChanges b l) (hl : l.contains .host = false) : a.sameBox b :=
  Dev.sameBox_of_ports (congrArg HostUnit.ports (h.part .host hl))

theorem Dev.sameBox_foldl {α : Type} {f : Dev → α → Dev} (hf : ∀ (e : Dev) x, e.sameBox (f e x)) (xs : List α) (d : Dev) :
    d.sameBox (xs.foldl f d) := by
  induction xs generalizing d with
  | nil => exact d.sameBox_refl
  | cons x xs ih => exact Dev.sameBox_trans (hf d x) (ih _)

theorem Port.ix_inj {p q : Port} (h : p.ix = q.ix) : p = q := by
  cases p <;> cases q <;> first | rfl | (simp [Port.ix] at h)

theorem Dev.port_modPort_ne (d : Dev) {p q : Port} (f : PortState → PortState) (h : q ≠ p) : (d.modPort p f).port q = d.port q :=
  modAt_getD_ne _ _ _ fun e => h (Port.ix_inj e)

theorem Dev.port_modPort_self (d : Dev) (p : Port) (f : PortState → PortState) (h : p.ix < d.host.ports.length) :
    (d.modPort p f).port p = f (d.port p) :=
  modAt_getD_self _ _ _ h

theorem Dev.port_modPort (d : Dev) (p q : Port) (f : PortState → PortState) :
    (d.modPort p f).port q = d.port q ∨ (p = q ∧ (d.modPort p f).port q = f (d.port q)) := by
  by_cases h : q = p
  · subst h
    by_cases hl : q.ix < d.host.ports.length
    · exact .inr ⟨rfl, d.port_modPort_self q f hl⟩
    · exact .inl (modAt_getD_out _ _ _ (Nat.le_of_not_lt hl))
  · exact .inl (d.port_modPort_ne f h)

theorem Dev.modPort_sameBox (d : Dev) (p : Port) {f : PortState → PortState} (ho : ∀ q, (f q).opens = q.opens)
    (hc : ∀ q, (f q).cache = q.cache) : d.sameBox (d.modPort p f) := by
  constructor
  intro q
  rcases d.port_modPort p q f with h | ⟨-, h⟩
  · rw [h]; exact ⟨rfl, rfl⟩
  · rw [h]; exact ⟨ho _, hc _⟩

theorem Dev.modMap_sameBox (d : Dev) (p : RegPort) (f : RegMap → RegMap) : d.sameBox (d.modMap p f) :=
  Dev.sameBox_of_ports (by cases p <;> rfl)

theorem Dev.setIrq_sameBox (d : Dev) (b : Nat) : d.sameBox (d.setIrq b) := d.modMap_sameBox .spi _

theorem Dev.modLink_sameBox (d : Dev) (l : LinkId) (f : Link → Link) : d.sameBox (d.modLink l f) := Dev.sameBox_of_ports rfl

theorem Dev.count_sameBox (d : Dev) (k i n : Nat) : d.sameBox (d.count k i n) := Dev.sameBox_of_frame (d.count_only ..) (by decide)

theorem Dev.canSend_sameBox (d : Dev) (id : Nat) (m : List Byte) : d.sameBox (d.canSend id m) := Dev.sameBox_of_ports rfl

theorem Dev.pumpVc1_sameBox (d : Dev) (l : LinkId) (n : Nat) : d.sameBox (d.pumpVc1 l n) := by
  induction n generalizing d with
  | zero => exact d.sameBox_refl
  | succ n ih =>
    unfold Dev.pumpVc1
    dsimp only
    split
    · split
      · exact Dev.sameBox_trans (d.modLink_sameBox ..) (ih _)
      · split
        · exact Dev.sameBox_trans (Dev.sameBox_trans (Dev.modPort_sameBox _ _ (fun _ => by rfl) fun _ => by rfl) (Dev.modLink_sameBox ..)) (ih _)
        · exact d.sameBox_refl
    · exact d.sameBox_refl

theorem Dev.pumpLink_sameBox (d : Dev) (l : LinkId) : d.sameBox (d.pumpLink l) := d.pumpVc1_sameBox ..

theorem Dev.flushCan_sameBox (d : Dev) : d.sameBox d.flushCan := by
  unfold Dev.flushCan
  split
  · refine Dev.sameBox_trans (Dev.sameBox_foldl (fun e x => ?_) _ _) (Dev.modPort_sameBox _ _ (fun _ => rfl) fun _ => rfl)
    exact e.canSend_sameBox ..
  · exact d.sameBox_refl

theorem Dev.postTo_sameBox (d : Dev) (p : Port) (c a : Nat) : d.sameBox (d.postTo p c a) := by
  unfold Dev.postTo
  extract_lets q d0 d1
  have h0 : d.sameBox d0 := Dev.sameBox_trans (Dev.modPort_sameBox _ _ (fun _ => by rfl) fun _ => by rfl) (Dev.count_sameBox ..)
  have h1 : d.sameBox d1 := by
    unfold d1
    by_cases hq : q.events.length < eventDepth p
    · rw [if_pos hq]; exact d.modPort_sameBox _ (fun _ => rfl) fun _ => rfl
    · rw [if_neg hq]
      split
      · exact Dev.sameBox_trans h0 (Dev.setIrq_sameBox ..)
      · exact h0
  split
  · exact Dev.sameBox_trans h1 (Dev.pumpLink_sameBox ..)
  · exact Dev.sameBox_trans h1 (Dev.pumpLink_sameBox ..)
  · exact Dev.sameBox_trans h1 (Dev.flushCan_sameBox ..)
  · exact h1

theorem Dev.postFuel_sameBox (n : Nat) (d : Dev) (c a : Nat) : d.sameBox (Dev.postFuel n d c a) := by
  induction n generalizing d c a with
  | zero => exact d.sameBox_refl
  | succ n ih =>
    exact Dev.sameBox_trans (Dev.sameBox_foldl (fun e x => e.postTo_sameBox ..) _ _) (Dev.sameBox_foldl (fun e x => ih ..) _ _)

theorem Dev.post_sameBox (d : Dev) (c a : Nat) : d.sameBox (d.post c a) := Dev.postFuel_sameBox ..

theorem Dev.postFree_sameBox (d : Dev) (c : Nat) : d.sameBox (d.postFree c) :=
  Dev.sameBox_trans (d.post_sameBox ..) (Dev.sameBox_of_ports rfl)

theorem Dev.respond_sameBox (d : Dev) (p : Port) (slot op tag st : Nat) (b : List Byte) : d.sameBox (d.respond p slot op tag st b) := by
  unfold Dev.respond
  extract_lets
  split
  · exact d.modMap_sameBox ..
  · exact d.modMap_sameBox ..
  · exact d.canSend_sameBox ..
  · exact Dev.sameBox_trans (d.modLink_sameBox ..) (Dev.pumpLink_sameBox ..)
  · exact Dev.sameBox_trans (d.modLink_sameBox ..) (Dev.pumpLink_sameBox ..)

theorem Dev.sendStat_sameBox (d : Dev) : d.sameBox d.sendStat := by
  unfold Dev.sendStat
  refine Dev.sameBox_foldl (fun e l => ?_) _ _
  split
  · exact e.modLink_sameBox ..
  · exact e.sameBox_refl

/-! ### Open tags -/

theorem Dev.tagOpen_of_box {a b : Dev} (h : a.sameBox b) (p : Port) (tag : Nat) : b.tagOpen p tag = a.tagOpen p tag := by
  simp only [Dev.tagOpen, (h.box p).1]

theorem Dev.answered_of_box {a b : Dev} (h : a.sameBox b) {p : Port} {tag st : Nat} {rsp : List Byte}
    (g : a.answered p tag st rsp) : b.answered p tag st rsp := by
  refine ⟨(Dev.tagOpen_of_box h p tag).trans g.1, ?_⟩
  rw [(h.box p).2]; exact g.2

theorem Dev.waitsFor_of_box {a b : Dev} (h : a.sameBox b) {p : Port} {tag : Nat} (g : a.waitsFor p tag) : b.waitsFor p tag := by
  refine ⟨(Dev.tagOpen_of_box h p tag).trans g.1, ?_⟩
  rw [(h.box p).1]; exact g.2

/-- The command at a port's head is open. -/
theorem Dev.headOf_open {d : Dev} {p : Port} {op : Nat} {c : Cmd} (h : d.headOf p op = some c) : d.tagOpen p c.tag = true := by
  unfold Dev.headOf at h
  split at h
  · obtain ⟨o, hf, rfl⟩ := Option.map_eq_some_iff.1 h
    have ho := (Option.filter_eq_some_iff.1 hf).1
    unfold Dev.headOpen at ho
    have hm : o ∈ (d.port p).opens.filter fun c => c.stage == .queued := by
      rcases Option.or_eq_some_iff.1 ho with h1 | ⟨-, h1⟩
      · exact List.mem_of_find?_eq_some h1
      · exact List.mem_of_head? h1
    exact List.any_eq_true.2 ⟨o, (List.mem_filter.1 hm).1, beq_self_eq_true _⟩
  · cases h

theorem Dev.headOf_opcode {d : Dev} {p : Port} {op : Nat} {c : Cmd} (h : d.headOf p op = some c) : c.opcode = op := by
  unfold Dev.headOf at h
  split at h
  · obtain ⟨o, hf, rfl⟩ := Option.map_eq_some_iff.1 h
    have := (Option.filter_eq_some_iff.1 hf).2
    rw [Bool.and_eq_true] at this
    simpa using this.1
  · cases h

theorem Dev.tagOpen_lt {d : Dev} {p : Port} {tag : Nat} (h : d.tagOpen p tag = true) : p.ix < d.host.ports.length := by
  by_contra hl
  have : (d.port p) = PortState.reset := by
    simp only [Dev.port, List.getD_eq_getElem?_getD, List.getElem?_eq_none (Nat.le_of_not_lt hl), Option.getD_none]
  simp only [Dev.tagOpen, this, PortState.reset, List.any_nil, Bool.false_eq_true] at h

/-! ### Final status -/

theorem Dev.finish_answered {d : Dev} {p : Port} {tag : Nat} (st : Nat) (b : List Byte) (h : d.tagOpen p tag = true) :
    (d.finish p tag st b).answered p tag st b := by
  have hl := Dev.tagOpen_lt h
  unfold Dev.finish
  split
  · next hf =>
    obtain ⟨o, ho, ht⟩ := List.any_eq_true.1 h
    have := List.find?_eq_none.1 hf o ho
    exact absurd ht this
  · next c hf =>
    extract_lets e d1 d2
    have h1 : d1.answered p tag st b := by
      unfold Dev.answered Dev.tagOpen
      rw [Dev.port_modPort_self _ _ _ hl]
      simp [e]
    have h2 : d2.answered p tag st b := Dev.answered_of_box (Dev.respond_sameBox ..) h1
    split
    · exact Dev.answered_of_box (Dev.post_sameBox ..) h2
    · exact h2

theorem Dev.finishWith_answered {d : Dev} {p : Port} {tag : Nat} (st : Nat) (h : d.tagOpen p tag = true) :
    (d.finishWith p tag st).answered p tag st (if st = stOverridden then d.devStateBytes else []) :=
  Dev.finish_answered _ _ h

/-- A final status on one port leaves the others' commands alone. -/
theorem Dev.finish_other {d : Dev} {p q : Port} (tag st : Nat) (b : List Byte) (h : q ≠ p) :
    ((d.finish p tag st b).port q).opens = (d.port q).opens ∧ ((d.finish p tag st b).port q).cache = (d.port q).cache := by
  unfold Dev.finish
  split
  · exact ⟨rfl, rfl⟩
  · extract_lets e d1 d2
    have h1 : d1.port q = d.port q := Dev.port_modPort_ne _ _ h
    have h2 : d1.sameBox d2 := Dev.respond_sameBox ..
    split
    · rw [← h1]; exact (Dev.sameBox_trans h2 (Dev.post_sameBox ..)).box q
    · rw [← h1]; exact h2.box q

theorem Dev.waits_waitsFor {d : Dev} {p : Port} {tag : Nat} (h : d.tagOpen p tag = true) : (d.waits p tag).waitsFor p tag := by
  have hl := Dev.tagOpen_lt h
  unfold Dev.waits
  split
  · next hf =>
    obtain ⟨o, ho, ht⟩ := List.any_eq_true.1 h
    exact absurd ht (List.find?_eq_none.1 hf o ho)
  · next c hf =>
    extract_lets d1
    have h1 : d1.waitsFor p tag := by
      unfold Dev.waitsFor Dev.tagOpen
      rw [Dev.port_modPort_self _ _ _ hl]
      constructor
      · obtain ⟨o, ho, ht⟩ := List.any_eq_true.1 h
        simp only [List.any_map, List.any_eq_true, Function.comp]
        refine ⟨o, ho, ?_⟩
        split <;> exact ht
      · intro o ho ht
        simp only [List.mem_map] at ho
        obtain ⟨x, -, rfl⟩ := ho
        by_cases hx : x.cmd.tag = tag
        · rw [if_pos hx]
        · rw [if_neg hx] at ht; exact absurd ht hx
    split
    · exact h1
    · exact Dev.waitsFor_of_box (Dev.respond_sameBox ..) h1

/-! ### Service -/

theorem Dev.serving_open {d : Dev} {p : Port} {op : Nat} {c : Cmd} (h : d.serving p op c) : d.tagOpen p c.tag = true :=
  Dev.headOf_open h.1

/-- What service comes to when every check has passed. -/
theorem Dev.serve_eq {d : Dev} {p : Port} {op : Nat} {c : Cmd} {check : Cmd → Option Nat} {act : Cmd → Dev} (h : d.serving p op c)
    (hc : check c = none) : d.serve p op check act = act c := by
  unfold Dev.serve; simp only [h.1, hc, h.2, if_true]

theorem Dev.servingAct_open {d : Dev} {p : Port} {a : ParamAct} {c : Cmd} {i v : Nat} (h : d.servingAct p a c i v) :
    d.tagOpen p c.tag = true := Dev.headOf_open h.1

theorem Dev.serveAct_eq {d : Dev} {p : Port} {a : ParamAct} {c : Cmd} {i v : Nat} {act : Cmd → Nat → Nat → Dev}
    (h : d.servingAct p a c i v) : d.serveAct p a act = act c i v := by
  obtain ⟨h1, h2, w, x, h3, h4, rfl, rfl⟩ := h
  unfold Dev.serveAct
  simp only [h1, h2, h3, h4, ne_eq, not_true_eq_false, if_false]

end Sys2Proof.Machine
end

