-- ==== Sys2Proof/Laws/Params.lean ====
section
/-! SUPPORT. Parameters read after a write: the value put is the value read, and every other value stays. -/

namespace Sys2Proof.Machine

open Sys2Proof

theorem Dev.valOf_putVal_self {d : Dev} (id : Nat) (v : Int) (h : kvSorted d.prm.vals = true) : (d.putVal id v).valOf id = v :=
  kvPut_self id v _ h

theorem Dev.valOf_putVal_ne (d : Dev) {id j : Nat} (v : Int) (h : j ≠ id) : (d.putVal id v).valOf j = d.valOf j := by
  show (kvGet (kvPut d.prm.vals id v _) j).getD _ = _
  rw [kvPut_ne _ _ _ h]; rfl

theorem Dev.arrOf_putArr_self {d : Dev} (id : Nat) (v : List Byte) (h : kvSorted d.prm.arrays = true) :
    (d.putArr id v).arrOf id = v :=
  kvPut_self id v _ h

theorem Dev.arrOf_putArr_ne (d : Dev) {id j : Nat} (v : List Byte) (h : j ≠ id) : (d.putArr id v).arrOf j = d.arrOf j := by
  show (kvGet (kvPut d.prm.arrays id v _) j).getD _ = _
  rw [kvPut_ne _ _ _ h]; rfl

/-- A counter advances, saturating at its type's largest value (R106). -/
theorem Dev.par_count_self {d : Dev} {key : Nat} (i k : Nat) {t : Nat} (ht : (paramRow? key).map (fun r => r.ty.top) = some t)
    (h : kvSorted d.prm.vals = true) : (d.count key i k).par key i = satAdd t (d.par key i) k := by
  obtain ⟨r, hr, rfl⟩ := Option.map_eq_some_iff.1 ht
  unfold Dev.count
  simp only [hr]
  show ((d.putVal (pid key i) _).valOf (pid key i)).toNat = _
  rw [Dev.valOf_putVal_self _ _ h]
  simp

theorem Dev.par_count_ne (d : Dev) {key i : Nat} (k : Nat) {key' j : Nat} (h : pid key' j ≠ pid key i) :
    (d.count key i k).par key' j = d.par key' j := by
  show ((d.putVal (pid key i) _).valOf (pid key' j)).toNat = _
  rw [Dev.valOf_putVal_ne _ _ h]; rfl

end Sys2Proof.Machine
end

