-- ==== Sys2Proof/Laws/Quiet.lean ====
section
/-! SUPPORT. What events and responses leave alone: every part but the mailbox, the links' VC1 transmitters and the counter EVT_LOST. -/

namespace Sys2Proof.Machine

open Sys2Proof

theorem Dev.quiet_refl (d : Dev) : d.Quiet d := ⟨Dev.only_refl _ _, fun _ => rfl, fun _ _ => rfl, rfl, rfl, rfl⟩

theorem Dev.quiet_trans {a b c : Dev} (h : a.Quiet b) (g : b.Quiet c) : a.Quiet c :=
  ⟨h.frame.trans g.frame, fun l => (g.phys l).trans (h.phys l), fun id hi => (g.vals id hi).trans (h.vals id hi),
    g.arrays.trans h.arrays, g.staged.trans h.staged, g.stagedArrays.trans h.stagedArrays⟩

theorem Dev.quiet_foldl {α : Type} {f : Dev → α → Dev} (hf : ∀ (e : Dev) x, e.Quiet (f e x)) (xs : List α) (d : Dev) :
    d.Quiet (xs.foldl f d) := by
  induction xs generalizing d with
  | nil => exact d.quiet_refl
  | cons x xs ih => exact Dev.quiet_trans (hf d x) (ih _)

theorem Dev.quiet_of_host {a b : Dev} (h : a.onlyChanges b [.host]) : a.Quiet b := by
  have hl := h.part .links rfl
  have hp := h.part .prm rfl
  simp only [Part.same] at hl hp
  exact ⟨h.mono (by decide), fun l => by simp only [Dev.link, hl], fun _ _ => by rw [hp], by rw [hp], by rw [hp], by rw [hp]⟩

theorem Dev.modPort_quiet (d : Dev) (p : Port) (f : PortState → PortState) : d.Quiet (d.modPort p f) :=
  Dev.quiet_of_host ((d.modPort_only p f).mono (by decide))

theorem Dev.modMap_quiet (d : Dev) (p : RegPort) (f : RegMap → RegMap) : d.Quiet (d.modMap p f) :=
  Dev.quiet_of_host ((d.modMap_only p f).mono (by decide))

theorem Dev.setIrq_quiet (d : Dev) (b : Nat) : d.Quiet (d.setIrq b) := d.modMap_quiet .spi _

theorem Dev.canSend_quiet (d : Dev) (id : Nat) (m : List Byte) : d.Quiet (d.canSend id m) :=
  Dev.quiet_of_host ((d.canSend_only id m).mono (by decide))

theorem Dev.modLink_quiet (d : Dev) (l : LinkId) (f : Link → Link) (hf : ∀ k, (f k).phys = k.phys) : d.Quiet (d.modLink l f) := by
  refine ⟨(d.modLink_only l f).mono (by decide), fun k => ?_, fun _ _ => rfl, rfl, rfl, rfl⟩
  by_cases h : k = l
  · subst h; rw [Dev.link_modLink_self]; exact hf _
  · rw [Dev.link_modLink_ne _ _ h]

theorem Dev.lost_quiet (d : Dev) (p : Port) (n : Nat) : d.Quiet (d.count kHostEvtLost p.ix n) := by
  refine ⟨(d.count_only ..).mono (by decide), fun _ => rfl, fun id hi => ?_, rfl, rfl, rfl⟩
  exact kvPut_ne _ _ _ (hi p)

theorem Dev.drawn_quiet (d : Dev) : d.Quiet d.drawn :=
  ⟨(d.drawn_only).mono (by decide), fun _ => rfl, fun _ _ => rfl, rfl, rfl, rfl⟩

theorem Link.sendVc1_phys (k : Link) (s : Nat) (b : List Byte) : (k.sendVc1 s b).phys = k.phys := rfl

theorem Dev.pumpVc1_quiet (d : Dev) (l : LinkId) (n : Nat) : d.Quiet (d.pumpVc1 l n) := by
  induction n generalizing d with
  | zero => exact d.quiet_refl
  | succ n ih =>
    unfold Dev.pumpVc1
    dsimp only
    split
    · split
      · exact Dev.quiet_trans (d.modLink_quiet _ _ fun _ => by rfl) (ih _)
      · split
        · exact Dev.quiet_trans (Dev.quiet_trans (Dev.modPort_quiet _ _ _) (Dev.modLink_quiet _ _ _ fun _ => by rfl)) (ih _)
        · exact d.quiet_refl
    · exact d.quiet_refl

theorem Dev.pumpLink_quiet (d : Dev) (l : LinkId) : d.Quiet (d.pumpLink l) := d.pumpVc1_quiet ..

theorem Dev.flushCan_quiet (d : Dev) : d.Quiet d.flushCan := by
  unfold Dev.flushCan
  split
  · exact Dev.quiet_trans (Dev.quiet_foldl (fun e x => e.canSend_quiet ..) _ _) (Dev.modPort_quiet ..)
  · exact d.quiet_refl

theorem Dev.postTo_quiet (d : Dev) (p : Port) (c a : Nat) : d.Quiet (d.postTo p c a) := by
  unfold Dev.postTo
  extract_lets q d0 d1
  have h0 : d.Quiet d0 := Dev.quiet_trans (Dev.modPort_quiet ..) (Dev.lost_quiet ..)
  have h1 : d.Quiet d1 := by
    unfold d1
    by_cases hq : q.events.length < eventDepth p
    · rw [if_pos hq]; exact d.modPort_quiet ..
    · rw [if_neg hq]
      split
      · exact Dev.quiet_trans h0 (Dev.setIrq_quiet ..)
      · exact h0
  split
  · exact Dev.quiet_trans h1 (Dev.pumpLink_quiet ..)
  · exact Dev.quiet_trans h1 (Dev.pumpLink_quiet ..)
  · exact Dev.quiet_trans h1 (Dev.flushCan_quiet ..)
  · exact h1

theorem Dev.postFuel_quiet (n : Nat) (d : Dev) (c a : Nat) : d.Quiet (Dev.postFuel n d c a) := by
  induction n generalizing d c a with
  | zero => exact d.quiet_refl
  | succ n ih =>
    exact Dev.quiet_trans (Dev.quiet_foldl (fun e x => e.postTo_quiet ..) _ _) (Dev.quiet_foldl (fun e x => ih ..) _ _)

theorem Dev.post_quiet (d : Dev) (c a : Nat) : d.Quiet (d.post c a) := Dev.postFuel_quiet ..

theorem Dev.postFree_quiet (d : Dev) (c : Nat) : d.Quiet (d.postFree c) := Dev.quiet_trans (d.post_quiet ..) (Dev.drawn_quiet _)

theorem Dev.respond_quiet (d : Dev) (p : Port) (slot op tag st : Nat) (b : List Byte) : d.Quiet (d.respond p slot op tag st b) := by
  unfold Dev.respond
  extract_lets
  split
  · exact d.modMap_quiet ..
  · exact d.modMap_quiet ..
  · exact d.canSend_quiet ..
  · exact Dev.quiet_trans (d.modLink_quiet _ _ fun _ => by rfl) (Dev.pumpLink_quiet ..)
  · exact Dev.quiet_trans (d.modLink_quiet _ _ fun _ => by rfl) (Dev.pumpLink_quiet ..)

theorem Dev.finish_quiet (d : Dev) (p : Port) (tag st : Nat) (b : List Byte) : d.Quiet (d.finish p tag st b) := by
  unfold Dev.finish
  split
  · exact d.quiet_refl
  · extract_lets e d1 d2
    have h2 : d.Quiet d2 := Dev.quiet_trans (d.modPort_quiet ..) (Dev.respond_quiet ..)
    split
    · exact Dev.quiet_trans h2 (Dev.post_quiet ..)
    · exact h2

theorem Dev.finishWith_quiet (d : Dev) (p : Port) (tag st : Nat) : d.Quiet (d.finishWith p tag st) := d.finish_quiet ..

theorem Dev.waits_quiet (d : Dev) (p : Port) (tag : Nat) : d.Quiet (d.waits p tag) := by
  unfold Dev.waits
  split
  · exact d.quiet_refl
  · extract_lets d1
    split
    · exact d.modPort_quiet ..
    · exact Dev.quiet_trans (d.modPort_quiet ..) (Dev.respond_quiet ..)

theorem Dev.sendStat_quiet (d : Dev) : d.Quiet d.sendStat := by
  unfold Dev.sendStat
  refine Dev.quiet_foldl (fun e l => ?_) _ _
  split
  · exact e.modLink_quiet _ _ fun _ => by rfl
  · exact e.quiet_refl

/-! ### Reading quiet changes -/

theorem Dev.Quiet.core {a b : Dev} (h : a.Quiet b) : b.core = a.core := h.frame.part .core rfl
theorem Dev.Quiet.aon {a b : Dev} (h : a.Quiet b) : b.aon = a.aon := h.frame.part .aon rfl
theorem Dev.Quiet.clk {a b : Dev} (h : a.Quiet b) : b.clk = a.clk := h.frame.part .clk rfl
theorem Dev.Quiet.thm {a b : Dev} (h : a.Quiet b) : b.thm = a.thm := h.frame.part .thm rfl
theorem Dev.Quiet.sluice {a b : Dev} (h : a.Quiet b) : b.sluice = a.sluice := h.frame.part .sluice rfl
theorem Dev.Quiet.veh {a b : Dev} (h : a.Quiet b) : b.veh = a.veh := h.frame.part .veh rfl
theorem Dev.Quiet.req {a b : Dev} (h : a.Quiet b) : b.req = a.req := h.frame.part .req rfl
theorem Dev.Quiet.cmp {a b : Dev} (h : a.Quiet b) : b.cmp = a.cmp := h.frame.part .cmp rfl
theorem Dev.Quiet.seq {a b : Dev} (h : a.Quiet b) : b.seq = a.seq := h.frame.part .seq rfl
theorem Dev.Quiet.cam {a b : Dev} (h : a.Quiet b) : b.cam = a.cam := h.frame.part .cam rfl
theorem Dev.Quiet.ports {a b : Dev} (h : a.Quiet b) : b.ports = a.ports := h.frame.part .ports rfl
theorem Dev.Quiet.sht {a b : Dev} (h : a.Quiet b) : b.sht = a.sht := h.frame.part .sht rfl
theorem Dev.Quiet.lamp {a b : Dev} (h : a.Quiet b) : b.lamp = a.lamp := h.frame.part .lamp rfl
theorem Dev.Quiet.gov {a b : Dev} (h : a.Quiet b) : b.gov = a.gov := h.frame.part .gov rfl
theorem Dev.Quiet.aux {a b : Dev} (h : a.Quiet b) : b.aux = a.aux := h.frame.part .aux rfl
theorem Dev.Quiet.saf {a b : Dev} (h : a.Quiet b) : b.saf = a.saf := h.frame.part .saf rfl
theorem Dev.Quiet.jnl {a b : Dev} (h : a.Quiet b) : b.jnl = a.jnl := h.frame.part .jnl rfl
theorem Dev.Quiet.nor {a b : Dev} (h : a.Quiet b) : b.nor = a.nor := h.frame.part .nor rfl
theorem Dev.Quiet.upd {a b : Dev} (h : a.Quiet b) : b.upd = a.upd := h.frame.part .upd rfl
theorem Dev.Quiet.cal {a b : Dev} (h : a.Quiet b) : b.cal = a.cal := h.frame.part .cal rfl
theorem Dev.Quiet.jtag {a b : Dev} (h : a.Quiet b) : b.jtag = a.jtag := h.frame.part .jtag rfl
theorem Dev.Quiet.variant {a b : Dev} (h : a.Quiet b) : b.variant = a.variant := h.frame.1

/-- A parameter other than EVT_LOST reads as before. -/
theorem Dev.Quiet.valOf {a b : Dev} (h : a.Quiet b) {id : Nat} (hi : ∀ p : Port, id ≠ pid kHostEvtLost p.ix) :
    b.valOf id = a.valOf id := by
  unfold Dev.valOf; rw [h.vals id hi, h.variant]

/-! ### Shared operations -/

/-- DEV_STATE changes (Table 1-7): the state, the tick and, on entry to DEGRADED and SAFE, the cause. -/
theorem Dev.setState_core (d : Dev) (new : DevState) (cause : Nat) :
    (d.setState new cause).core = { d.core with
      state := new, stateTime := d.now,
      lastCause := if new = DevState.degraded ∨ new = DevState.safe then cause else d.core.lastCause } := by
  unfold Dev.setState
  extract_lets prev c1 d1
  exact ((Dev.quiet_trans (Dev.quiet_trans (d1.setIrq_quiet 1) (Dev.post_quiet ..)) (Dev.sendStat_quiet _)).core)

theorem Dev.setState_phys (d : Dev) (new : DevState) (cause : Nat) (l : LinkId) :
    ((d.setState new cause).link l).phys = (d.link l).phys := by
  unfold Dev.setState
  extract_lets prev c1 d1
  exact ((Dev.quiet_trans (Dev.quiet_trans (d1.setIrq_quiet 1) (Dev.post_quiet ..)) (Dev.sendStat_quiet _)).phys l)

theorem Dev.setState_sameBox (d : Dev) (new : DevState) (cause : Nat) : d.sameBox (d.setState new cause) := by
  unfold Dev.setState
  extract_lets prev c1 d1
  exact Dev.sameBox_trans (b := d1) (Dev.sameBox_of_ports rfl) (Dev.sameBox_trans (Dev.sameBox_trans (d1.setIrq_sameBox 1)
    (Dev.post_sameBox ..)) (Dev.sendStat_sameBox _))

end Sys2Proof.Machine
end

