-- ==== Sys2Proof/Laws/Units.lean ====
section
/-! SUPPORT. What shared operations do: raising a fault makes it active, a held ticket after a grant, the ports and lamps of a side in
safe state, the start of a raster, and the states that a link enters. -/

namespace Sys2Proof.Machine

open Sys2Proof

/-! ### Faults -/

theorem Dev.pend_active (d : Dev) (t : DevState) (c r : Nat) : (d.pend t c r).saf.active = d.saf.active := by
  unfold Dev.pend
  dsimp only
  split
  · rfl
  · split
    · rfl
    · split <;> rfl

theorem Dev.saf_of {a b : Dev} {l : List Part} (h : a.onlyChanges b l) (hl : l.contains .saf = false) : b.saf = a.saf := h.part .saf hl

theorem Dev.enterSafe_active (d : Dev) (s : Nat) (f : Bool) : (d.enterSafe s f).saf.active = d.saf.active := by
  unfold Dev.enterSafe
  split
  · split
    · rw [Dev.saf_of (Dev.modMportEv_only ..) (by decide)]
    · rfl
  · unfold Dev.safeSide
    show (Dev.modMportEv _ _ _).saf.active = _
    rw [Dev.saf_of (Dev.modMportEv_only ..) (by decide), Dev.modLside_saf, Dev.saf_of (Dev.darkSide_only ..) (by decide),
      Dev.saf_of (Dev.stopBoost_only ..) (by decide), Dev.saf_of (Dev.zeroWords_only ..) (by decide)]

theorem Dev.foldl_active {α : Type} {f : Dev → α → Dev} (hf : ∀ (e : Dev) x, (f e x).saf.active = e.saf.active) (xs : List α)
    (d : Dev) : (xs.foldl f d).saf.active = d.saf.active := by
  induction xs generalizing d with
  | nil => rfl
  | cons x xs ih => exact (ih _).trans (hf d x)

theorem Dev.safeAll_active (d : Dev) (c r : Nat) (f : Bool) : (d.safeAll c r f).saf.active = d.saf.active := by
  unfold Dev.safeAll
  rw [Dev.saf_of (Dev.release_only ..) (by decide), Dev.saf_of (Dev.release_only ..) (by decide), Dev.pend_active]
  exact Dev.foldl_active (fun e x => e.enterSafe_active x f) _ _

theorem Dev.sameTick_active (d : Dev) (c r : Nat) : (d.sameTick c r).saf.active = d.saf.active := by
  unfold Dev.sameTick
  split
  · split <;> rfl
  · rfl

theorem Dev.reactSide_active (d : Dev) (s c : Nat) (f : Bool) : (d.reactSide s c f).saf.active = d.saf.active := by
  unfold Dev.reactSide
  split
  · rfl
  · split
    · exact d.sameTick_active ..
    · split
      · rw [Dev.pend_active, Dev.enterSafe_active]
      · exact d.safeAll_active ..

theorem Dev.faultActive_of_active {a b : Dev} (h : b.saf.active = a.saf.active) (c i : Nat) :
    b.faultActive c i = a.faultActive c i := by
  unfold Dev.faultActive; rw [h]

/-- A channel fault that costs its side the beam stays the fault it is. -/
theorem Dev.markSide_faultActive (d : Dev) (code inst c i : Nat) :
    (d.markSide code inst).faultActive c i = d.faultActive c i := by
  unfold Dev.faultActive Dev.markSide
  rw [List.any_map]
  congr 1
  funext f
  simp only [Function.comp]
  split <;> rfl

theorem Dev.reactCh_faultActive (d : Dev) (c code c' i : Nat) : (d.reactCh c code).faultActive c' i = d.faultActive c' i := by
  have h : (d.latch c code).saf.active = d.saf.active := by rw [Dev.saf_of (Dev.latch_only ..) (by decide)]
  unfold Dev.reactCh
  dsimp only
  split
  · rw [Dev.faultActive_of_active (Dev.reactSide_active ..), Dev.markSide_faultActive, Dev.faultActive_of_active h]
  · exact Dev.faultActive_of_active h ..

/-- No reaction takes a fault out of the active ones, or adds one. -/
theorem Dev.react_faultActive (d : Dev) (code inst : Nat) (r : Reaction) (f : Bool) (c i : Nat) :
    (d.react code inst r f).faultActive c i = d.faultActive c i := by
  unfold Dev.react
  split
  · split
    · rfl
    · exact d.reactCh_faultActive ..
    · exact Dev.faultActive_of_active (Dev.foldl_active (fun e x => e.reactSide_active ..) _ _) ..
    · exact Dev.faultActive_of_active (d.safeAll_active ..) ..
  · rfl

theorem Dev.snapshot_active (d : Dev) (n : Nat) : (d.snapshot n).saf.active = d.saf.active := by
  unfold Dev.snapshot
  extract_lets again seq src recs hold s1 d1
  split
  · rfl
  · rw [(Dev.quiet_trans (d1.setIrq_quiet 3) (Dev.post_quiet ..)).saf]

theorem Dev.listFault_active (d : Dev) (c i : Nat) (r : Reaction) : (d.listFault c i r).saf.active = d.saf.active := by
  unfold Dev.listFault
  dsimp only
  split
  · rfl
  · split <;> rfl

/-- An activated fault is active. -/
theorem Dev.activate_self (d : Dev) (code inst arg : Nat) (r : Reaction) : (d.activate code inst arg r).faultActive code inst = true := by
  unfold Dev.activate
  extract_lets n s0 d0
  split
  · next h =>
    obtain ⟨x, hx, hp⟩ := List.any_eq_true.1 h
    refine List.any_eq_true.2 ⟨_, List.mem_map_of_mem hx, ?_⟩
    split <;> exact hp
  · unfold Dev.faultActive
    rw [Dev.listFault_active]
    refine List.any_eq_true.2 ⟨_, List.mem_append_right _ (List.mem_singleton.2 rfl), ?_⟩
    show (code == code && inst == inst) = true
    simp

/-- A fault that the fault reaction table lists is active once it is raised (R357), unless it is one of side R in a single-side mode
(R193). -/
theorem Dev.raiseWith_self (d : Dev) {code : Nat} {inst : Nat} (arg : Nat) (pf fc : Bool) (h : (faultRow? code).isSome = true)
    (hm : d.mutedFault code inst = false) :
    (d.raiseWith code inst arg pf fc).faultActive code inst = true := by
  unfold Dev.raiseWith
  split
  · next e => rw [e] at h; cases h
  · next row e =>
    rw [if_neg (by simp only [hm, Bool.false_eq_true, not_false_iff])]
    extract_lets d1 s2 d2 own r d3
    have h3 : d3.faultActive code inst = true := by
      unfold d3
      rw [Dev.react_faultActive]
      exact Dev.activate_self ..
    split
    · unfold Dev.faultActive at h3 ⊢; rw [Dev.snapshot_active]; exact h3
    · exact h3

theorem Dev.raise_self (d : Dev) {code inst : Nat} (arg : Nat) (h : (faultRow? code).isSome = true)
    (hm : d.mutedFault code inst = false) : (d.raise code inst arg).faultActive code inst = true :=
  d.raiseWith_self arg _ _ h hm

theorem Dev.faultActive_of_saf {a b : Dev} (h : b.saf = a.saf) (c i : Nat) : b.faultActive c i = a.faultActive c i := by
  unfold Dev.faultActive; rw [h]

/-- A cleared fault is active no more. -/
theorem Dev.clearFault_self (d : Dev) (code inst : Nat) : (d.clearFault code inst).faultActive code inst = false := by
  unfold Dev.clearFault
  split
  · unfold Dev.faultActive
    rw [(Dev.post_quiet ..).saf]
    simp only [List.any_filter, List.any_eq_false]
    intro x _; simp only [Bool.and_eq_true, Bool.not_eq_true', beq_iff_eq]; simp
  · next h => simpa using h

/-! ### Shutter -/

/-- The objects of a list that a raster takes: those at or above CONF_MIN, as it applies from this raster on (R261). -/
def Dev.rasterObjs (d : Dev) (l : Option ObjList) : List Obj :=
  match l with
  | some l => l.objs.filter fun o => decide (d.applySht.par kShtConfMin 0 ≤ o.conf)
  | none => []

theorem Dev.startRaster_sht (d : Dev) (k : RasterKind) (l : Option ObjList) :
    (d.startRaster k l).sht = { d.sht with
      raster := some { kind := k, start := d.now, sides := d.modeSides },
      lastRastered := if k = .stale then d.sht.lastRastered else d.now,
      objectsRastered := (d.rasterObjs l).length } := by
  have ha : d.onlyChanges d.applySht [.prm] := Dev.applySht_only d
  have hn : d.applySht.now = d.now := congrArg Clk.timeBase (ha.part .clk (by decide))
  have hm : d.applySht.modeSides = d.modeSides := by
    have ht : d.applySht.timingMode = d.timingMode := by
      unfold Dev.timingMode; rw [ha.part .seq (by decide), ha.part .core (by decide)]
    have hr : d.applySht.row = d.row := by
      unfold Dev.row Dev.rowOf; rw [ht, ha.part .core (by decide)]
    unfold Dev.modeSides Dev.twoSided Dev.dual; rw [hr, ha.1]
  unfold Dev.startRaster
  extract_lets e objs time c d1
  have h : d.onlyChanges d1 [.seq, .free, .prm] := by
    refine Dev.only_foldl _ (fun e x => ?_) ?_
    · exact (Dev.modMask_only ..).mono (by decide)
    · exact Dev.only_then (Dev.drawn_only _) (by decide) (Dev.only_then (Dev.clearReady_only e) (by decide) (ha.mono (by decide)))
  have hs : d1.sht = d.sht := h.part .sht (by decide)
  refine (congrArg (fun q : Shutter => { q with
    raster := some { kind := k, start := e.now, sides := e.modeSides },
    lastRastered := if k = RasterKind.stale then q.lastRastered else e.now, objectsRastered := objs.length }) hs).trans ?_
  simp only [e, hn, hm]
  rfl

theorem Dev.abandonRaster_state (d : Dev) : d.abandonRaster.sht = { d.sht with raster := none } := by
  unfold Dev.abandonRaster; rfl

end Sys2Proof.Machine
end

