-- ==== Sys2Proof/WellFormed.lean ====
section
/-! DEFINITION. Which operands a command may carry: numbers of lanes, channels, slots, layers and targets that exist on the
two-sided part, and measurements of the width the manual gives them. A command that is not well formed comes from no sender
the manual describes. -/

namespace Sys2Proof

/-- A signed 16-bit reading. -/
def s16Ok (v : Int) : Bool := decide (-32768 ≤ v) && decide (v ≤ 32767)

/-- EYE_WIDTH 0 to 64 and EYE_HEIGHT 0 to 255 (Table 2-17). -/
def eyeOk (e : Eye) : Bool := decide (e.width ≤ 64) && decide (e.height ≤ 255)

def pamEyesOk (e : PamEyes) : Bool := eyeOk e.upper && eyeOk e.middle && eyeOk e.lower

/-- Field widths of Table 2-4. -/
def tsOk (t : TrainingSet) : Bool :=
  decide (t.lane < 8) && decide (t.rates < 16) && decide (t.agreed < 8) && decide (t.pre < 8) && decide (t.post < 16) &&
  decide (t.ackSeq < 16) && decide (t.presetUsed < 8)

/-- A Husk is at most 4,108 bytes long (R60). -/
def huskOk (h : RxHusk) : Bool := decide (h.bytes.length ≤ 4108)

def chanOk (c : Nat) : Bool := decide (c < 12)

/-- Host layers are 1 to 7 (R121). -/
def layerOk (l : Nat) : Bool := decide (1 ≤ l) && decide (l ≤ 7)

def optLt (o : Option Nat) (n : Nat) : Bool := match o with | some v => decide (v < n) | none => true

/-- One sample per channel, side and AUX input (Table 13-4). -/
def samplesOk (x : Samples) : Bool :=
  x.shunt.length == 12 && x.drain.length == 12 && x.fb.length == 2 && x.vin.length == 2 && x.cs.length == 2 &&
  x.aux.length == 4 && optLt x.eccSlot 48 && optLt x.eccCorrected 48

/-- A 12-bit NTC code, or two I²C bytes. -/
def readingOk : BoardReading → Bool
  | .ntc c => decide (c ≤ 4095)
  | .i2c v => s16Ok v
  | .i2cFailed => true

/-- Words of a side that read as uncorrectable (R234): at most 24,000 of 64 composed pixels. -/
def eccOk (ws : List Nat) : Bool := ws.all fun w => decide (w < 24000)

/-- The operands of a command are ones a sender can give. -/
def Instr.wellFormed : Instr → Bool
  | .resetNAsserted => true
  | .resetRelease => true
  | .supplyOutOfRange inRange => inRange.length == 11
  | .imageVerifyDone _ failedCheck svn fwVersion => decide (failedCheck ≤ 7) && decide (svn < 256) && decide (fwVersion < 2 ^ 32)
  | .bootComplete _ => true
  | .linkEnable _ => true
  | .powerFailWarning _ sense => sense.length == 3 && sense.all fun v => decide (v ≤ 3300000)
  | .holdupJournalDone _ => true
  | .holdupExit => true
  | .dieTempConversion t rcTrim => s16Ok t && s16Ok rcTrim
  | .thermalShutdown t => s16Ok t
  | .thermalOffExit => true
  | .refclkLoss count => decide (count < 2 ^ 16)
  | .refclkRestored count => decide (count < 2 ^ 16)
  | .pllLossOfLock _ _ => true
  | .pllLockDeclared _ => true
  | .relockTimeout _ => true
  | .millerWatchdog => true
  | .fwRestartReset => true
  | .ticketRequest _ => true
  | .ticketRelease _ => true
  | .ticketQueueTimeout _ => true
  | .ticketOverrun _ => true
  | .registerWrite _ _ => true
  | .mbxDoorbell _ _ => true
  | .mbxDoneRelease _ _ => true
  | .timeLoRead _ => true
  | .evtFifoPop _ _ => true
  | .snapTrig _ => true
  | .dbgMbxUpdate _ => true
  | .getInfo _ => true
  | .getParam _ => true
  | .setParam _ => true
  | .abort _ => true
  | .setCompatLevel _ => true
  | .beamEnable _ => true
  | .selectMode _ => true
  | .setSlotMask _ => true
  | .snapshot _ => true
  | .snapshotRead _ => true
  | .layerDeclare _ => true
  | .layerDestroy _ => true
  | .commitGroup _ => true
  | .fenceSignal _ => true
  | .objectList _ => true
  | .shutterGeometry _ => true
  | .lampEnable _ => true
  | .dimSet _ => true
  | .rampCurve _ => true
  | .signatureExpect _ => true
  | .journalRead _ => true
  | .journalSeal _ => true
  | .calRun _ => true
  | .fwUpdateBegin _ => true
  | .fwUpdateData _ _ => true
  | .fwUpdateCommit _ => true
  | .patErase _ => true
  | .patProgram _ => true
  | .patVerify _ => true
  | .patInvalidate _ => true
  | .tableCommit _ => true
  | .faultClear _ => true
  | .reactionSet _ => true
  | .snapRelease _ => true
  | .segCommit _ => true
  | .retrainRecovery _ => true
  | .retrainDetect _ => true
  | .canMailboxFrame data => !data.isEmpty && decide (data.length ≤ 64)
  | .canMessageTimeout => true
  | .vehBeamFrame data => decide (data.length ≤ 64)
  | .vehMotionFrame data => decide (data.length ≤ 64)
  | .vehTimeFrame data _ => decide (data.length ≤ 64)
  | .vehTimeout beam motion => beam || motion
  | .canBusOff => true
  | .detectLosQualified _ => true
  | .lockAchieved _ => true
  | .lockTimeout _ => true
  | .eyeTestComplete _ eyes => eyes.length == 5 && eyes.all pamEyesOk
  | .ts1Received _ phys ts => decide (phys < 5) && tsOk ts
  | .tapreqAckTimeout _ phys => decide (phys < 5)
  | .ts2Agreed _ eyes ts2 => eyes.length == 5 && eyes.all eyeOk && ts2.all tsOk
  | .trainTimeout _ => true
  | .stepTimeout _ => true
  | .downTimeout _ => true
  | .linkTicketGranted _ => true
  | .linkTicketRetry _ => true
  | .clockLaneLoss _ => true
  | .deskewLoss _ => true
  | .hardLaneFault _ phys _ _ => decide (phys < 5)
  | .softLaneFault _ phys _ => decide (phys < 5)
  | .dskReceived _ shadowAck _ mapseqAck _ => decide (shadowAck < 4) && decide (mapseqAck < 16)
  | .btsSend _ => true
  | .eiosL1 _ => true
  | .eiosL2 _ => true
  | .l1Exit _ => true
  | .l2Exit _ => true
  | .recoveryRelock _ => true
  | .recoveryEyeDone _ eyes => eyes.length == 5 && eyes.all pamEyesOk
  | .recoveryRetrainDone _ _ => true
  | .recoveryTimeout _ => true
  | .lineHusk _ h => huskOk h
  | .objHusk _ h => huskOk h
  | .mbxHusk _ h => huskOk h
  | .fenceHusk _ h => huskOk h
  | .syncHusk _ h => huskOk h
  | .ackHusk _ h => huskOk h
  | .nakHusk _ h => huskOk h
  | .vc1ReplayTimeout _ => true
  | .refreshBoundary => true
  | .slotBoundary badL badR badMask _ => eccOk badL && eccOk badR && badMask.all fun m => decide (m.2 < 6000)
  | .lookaheadHandoff => true
  | .resetInstant => true
  | .diagPulse opens shorts => opens.length == 12 && shorts.length == 12
  | .governorTick x => samplesOk x
  | .safeStateComplete => true
  | .govDeadline slot => decide (slot < 48)
  | .feedbackLost slot _ => decide (slot < 48)
  | .composeFrameStart => true
  | .composeRowStart _ _ dry second => (dry ++ second).all fun p => decide (p.1 < 8)
  | .composePassComplete _ => true
  | .dramStall => true
  | .dramTrafficResume => true
  | .intakeCopyDone layer => layerOk layer
  | .patternLoadDone _ _ => true
  | .cameraEdge input _ _ _ => decide (input < 2)
  | .camTimeout => true
  | .busCrcResponse _ entry _ _ => decide (entry < 2048)
  | .cellCrcResponse _ entry _ _ => decide (entry < 2048)
  | .busCrcTimeout _ => true
  | .cellCrcTimeout _ => true
  | .lanesResponse _ crcs _ => crcs.length == 33
  | .statusResponse _ _ _ => true
  | .ackResponse _ cseq cmd _ => decide (cseq < 256) && decide (cmd < 256)
  | .errorResponse _ cseq reason _ => decide (cseq < 256) && decide (reason < 256)
  | .unparkSettled _ => true
  | .identResponse _ payload _ => payload.length == 8
  | .identNoResponse _ => true
  | .trainResultResponse _ tap errors _ => decide (tap < 128) && errors.length == 33 && errors.all fun e => decide (e < 256)
  | .arrayFlt _ => true
  | .arraySupplyGood _ rb0 rb1 => rb0.length == 256 && rb1.length == 256
  | .portPowerTimeout _ => true
  | .portAbsent _ => true
  | .portTrainTimeout _ => true
  | .parkTimeout _ => true
  | .releaseFromPark => true
  | .powerDownStep _ => true
  | .rasterEnd _ => true
  | .rasterTimeout => true
  | .listStale => true
  | .staleHoldExpiry => true
  | .chOvercurrent ch => chanOk ch
  | .chOpen ch => chanOk ch
  | .chShort ch => chanOk ch
  | .fetShort ch => chanOk ch
  | .boostOvTrip _ => true
  | .boostOvResume _ => true
  | .boostUv _ => true
  | .boostUvRecovery _ => true
  | .boostRun _ => true
  | .boostFail _ => true
  | .boardTempRead _ r => readingOk r
  | .sensorSubstitute _ => true
  | .dimPwmEdge _ _ => true
  | .dimInputLoss source => source == 1 || source == 2
  | .segFrameStart _ => true
  | .mxWriteDone => true
  | .mxTeEdge target => decide (target < 4)
  | .mxTeTimeout target => decide (target < 4)
  | .scanLine => true
  | .snapNFall => true
  | .faultAutoClear code inst => decide (code < 2 ^ 16) && decide (inst < 256)
  | .norPageDone _ => true
  | .norSectorEraseDone => true
  | .norBusyTimeout => true
  | .calTriggerCheck calRef => decide (calRef < 65536)
  | .calMeasurementDone ch _ => decide (ch < 128)
  | .powerFailWarningCleared => true
  | .bootPllLockTimeout _ => true
  | .beamEnableTimeout _ tag => decide (tag < 256)
  | .journalSealTimeout => true
  | .seqStoreScrub r => r.uncorrectable.all fun i => decide (i < 65536)
  | .seqReloaded mode => decide (mode < 32)
  | .pllQPhaseStep => true
  | .imageRegionEraseDone => true
  | .pwrEnLowDwellExpiry _ => true
  | .jtagUpdateIr _ => true
  | .extestUpdateDr _ => true
  | .resetNDeasserted => true

end Sys2Proof
end

