-- ==== Sys2Proof/Tests/Slice0.lean ====
section
/-! SUPPORT. Small tests: one ill-formed command for each check of WellFormed, results worked out by hand from the manual, and
for each statement that has hypotheses states and operands that meet them, at a boundary value where a clause has a range. -/

namespace Sys2Proof.Tests

open Sys2Proof Sys2Proof.Machine

set_option maxRecDepth 16384

/-! ### States -/

/-- A block with no command waiting. -/
def run (d : Dev) : State := { dev := d, pending := [] }

/-- The block in a DEV_STATE, 10 ms after boot, with an image and mode 0x01. -/
def at_ (x : DevState) : Dev :=
  { Dev.cold with
    core := { Core.reset with state := x, image := 0, mode := 1, modeValid := true }, clk := { Clk.reset with timeBase := 1000000 } }

def mode (m : Nat) (d : Dev) : Dev := { d with core := { d.core with mode := m } }

/-- Both mirror ports in a state, with geometry G1 recorded. -/
def array (x : MState) (d : Dev) : Dev :=
  { d with ports := ⟨{ d.ports.fst with state := x, recordedGeom := some 1 }, { d.ports.snd with state := x, recordedGeom := some 1 }⟩ }

def openOf (op tag : Nat) (pl : List Byte) (x : CmdStage) : OpenCmd :=
  { cmd := ⟨op, tag, false, pl.length, 1, pl⟩, slot := 0, stage := x, pendingSent := false, admitted := 0 }

def cmd (op : Nat) (pl : List Byte) : Cmd := (openOf op 7 pl .queued).cmd

/-- A command with TAG 7 is open on a port. -/
def asks (p : Port) (op : Nat) (pl : List Byte) (x : CmdStage) (d : Dev) : Dev :=
  d.modPort p fun _ => { PortState.reset with opens := [openOf op 7 pl x] }

/-- The payload of a SET_PARAM that writes a 32-bit value. -/
def ctrl (key v : Nat) : List Byte := leBytes 4 key ++ [5, 0, 0, 0] ++ leBytes 4 v

/-- The same of an 8-bit value. -/
def ctrl8 (key v : Nat) : List Byte := leBytes 4 key ++ [1, 0, 0, 0] ++ leBytes 1 v

/-- VEH_MOTION has been seen with speed 0. -/
def motion (d : Dev) : Dev := { d with veh := { d.veh with motionSeen := true } }

/-- A forward Husk as its transmitter forms it. -/
def husk (type vc seq sub : Nat) (pl : List Byte) : RxHusk :=
  { bytes := TxHusk.bytes ⟨type, vc, false, seq, sub, pl⟩, headerDamaged := false, bodyDamaged := false, sohTime := 1000000 }

/-- The frame of a whole response. -/
def good (type : Nat) (payload : List Byte) : RbFrame := ⟨0, crc8 (leBytes 1 type ++ [0] ++ payload), false⟩

def ts_ (lane : Nat) : TrainingSet := ⟨lane, true, 15, 1, 7, 15, 0, false, 7⟩

def crcEnd (b : List Byte) : List Byte := b ++ [crc8 b]

def noSamples : Samples :=
  ⟨List.replicate 12 none, List.replicate 12 none, [none, none], [none, none], [none, none], List.replicate 4 none, none, none,
    none⟩

def calRun : CalRun :=
  { scopes := 4, auto := false, startup := true, port := .spi, tag := 9, startT := 250, done := 0, left := [0x60], current := [],
    covers := [], units := 0, disagree := 0, waiting := [], previous := [] }

/-- The invariant of a block that holds no ticket, field by field. -/
theorem meets_inv {d : Dev} (h : d.sluice.held = [])
    (ok : (Memory.wf d.nor.cells && d.core.activeCl == 1 && d.host.ports.length == 5 && d.host.spi.slots.length == 4 &&
      d.host.jtag.slots.length == 4 && d.cmp.layers.length == 8 && d.cmp.groups.length == 8 && d.clk.plls.length == 3 &&
      d.lamp.chans.length == 12 && d.gov.slots.length == 48 && d.aux.targets.length == 4 && d.saf.rects.fst.length == 16 &&
      d.saf.rects.snd.length == 16 && kvSorted d.prm.vals && kvSorted d.prm.arrays && kvSorted d.prm.staged &&
      kvSorted d.prm.stagedArrays && kvSorted d.nor.mirror && kvSorted d.nor.mirrorArrays && kvSorted d.nor.journal) = true) :
    d.Inv := by
  simp only [Bool.and_eq_true, beq_iff_eq] at ok
  obtain ⟨⟨⟨⟨⟨⟨⟨⟨⟨⟨⟨⟨⟨⟨⟨⟨⟨⟨⟨a1, a2⟩, a3⟩, a4⟩, a5⟩, a6⟩, a7⟩, a8⟩, a9⟩, b1⟩, b2⟩, b3⟩, b4⟩, b5⟩, b6⟩, b7⟩, b8⟩, b9⟩, c1⟩, c2⟩ := ok
  exact ⟨a1, fun b _ => by rw [h]; exact Nat.zero_le 1, a2, a3, a4, a5, a6, a7, a8, a9, b1, b2, b3, b4, b5, b6, b7, b8, b9, c1, c2⟩

/-- A SET_PARAM that the block takes as an action is one it serves. -/
theorem acts {d : Dev} {p : Port} {a : ParamAct} {c : Cmd} {i v : Nat}
    (h : (d.headOf p opSetParam == some c && paramAct c.payload == some a &&
      match d.openWrite p c.payload with
      | .ok w => (match d.scalarIn w with
        | .ok x => idInst w.id == i && x.toNat == v
        | .error _ => false)
      | .error _ => false) = true) : d.servingAct p a c i v := by
  simp only [Bool.and_eq_true, beq_iff_eq] at h
  obtain ⟨⟨h1, h2⟩, h3⟩ := h
  split at h3
  · rename_i w e
    split at h3
    · rename_i x f
      simp only [Bool.and_eq_true, beq_iff_eq] at h3
      exact ⟨h1, h2, w, x, e, f, h3.1, h3.2⟩
    · cases h3
  · cases h3

/-- The record and the outcome of a scalar write. -/
theorem writes {d : Dev} {p : Port} {pl : List Byte} (q : ParamWrite → Except Nat Int → Bool)
    (h : (match d.openWrite p pl with | .ok w => q w (d.scalarIn w) | .error _ => false) = true) :
    ∃ w, d.openWrite p pl = .ok w ∧ q w (d.scalarIn w) = true := by
  split at h
  · rename_i w e; exact ⟨w, e, h⟩
  · cases h

/-- SET_PARAM payloads: TIME_SOURCE 1, TIME_SOURCE 9, and BEND_SOURCE 1, which waits for a start. -/
def timeSource : List Byte := leBytes 4 kHostTimeSource ++ [1, 0, 0, 0, 1]
def timeSource9 : List Byte := leBytes 4 kHostTimeSource ++ [1, 0, 0, 0, 9]
def bendSource : List Byte := leBytes 4 kCmpBendSource ++ [1, 0, 0, 0, 1]

def goodGeometry : List Byte := [1] ++ List.replicate 63 0x40

/-! ### Ill-formed commands: one for each check -/

theorem test_illformed_supplies : (Instr.supplyOutOfRange []).wellFormed = false := by decide

theorem test_illformed_boot : (Instr.imageVerifyDone true 8 0 0).wellFormed = false ∧
    (Instr.imageVerifyDone true 0 256 0).wellFormed = false ∧ (Instr.imageVerifyDone true 0 0 (2 ^ 32)).wellFormed = false := by decide

theorem test_illformed_power : (Instr.powerFailWarning true [0]).wellFormed = false ∧
    (Instr.powerFailWarning true [0, 0, 3300001]).wellFormed = false := by decide

theorem test_illformed_clocks : (Instr.dieTempConversion 32768 0).wellFormed = false ∧
    (Instr.dieTempConversion 0 (-32769)).wellFormed = false ∧ (Instr.thermalShutdown 32768).wellFormed = false ∧
    (Instr.refclkLoss 65536).wellFormed = false ∧ (Instr.refclkRestored 65536).wellFormed = false := by decide

theorem test_illformed_can : (Instr.canMailboxFrame []).wellFormed = false ∧
    (Instr.canMailboxFrame (List.replicate 65 0)).wellFormed = false ∧ (Instr.vehBeamFrame (List.replicate 65 0)).wellFormed = false ∧
    (Instr.vehMotionFrame (List.replicate 65 0)).wellFormed = false ∧ (Instr.vehTimeFrame (List.replicate 65 0) 0).wellFormed = false ∧
    (Instr.vehTimeout false false).wellFormed = false := by decide

theorem test_illformed_training : (Instr.ts1Received .lnk0 5 (ts_ 0)).wellFormed = false ∧
    (Instr.ts1Received .lnk0 0 (ts_ 8)).wellFormed = false ∧
    (Instr.ts1Received .lnk0 0 { ts_ 0 with rates := 16 }).wellFormed = false ∧
    (Instr.ts1Received .lnk0 0 { ts_ 0 with agreed := 8 }).wellFormed = false ∧
    (Instr.ts1Received .lnk0 0 { ts_ 0 with pre := 8 }).wellFormed = false ∧
    (Instr.ts1Received .lnk0 0 { ts_ 0 with post := 16 }).wellFormed = false ∧
    (Instr.ts1Received .lnk0 0 { ts_ 0 with ackSeq := 16 }).wellFormed = false ∧
    (Instr.ts1Received .lnk0 0 { ts_ 0 with presetUsed := 8 }).wellFormed = false ∧
    (Instr.tapreqAckTimeout .lnk0 5).wellFormed = false := by decide

theorem test_illformed_eyes : (Instr.ts2Agreed .lnk0 [] []).wellFormed = false ∧
    (Instr.ts2Agreed .lnk0 (List.replicate 5 ⟨65, 0⟩) []).wellFormed = false ∧
    (Instr.ts2Agreed .lnk0 (List.replicate 5 ⟨0, 256⟩) []).wellFormed = false ∧
    (Instr.eyeTestComplete .lnk0 []).wellFormed = false ∧ (Instr.recoveryEyeDone .lnk0 []).wellFormed = false := by decide

theorem test_illformed_lanes : (Instr.hardLaneFault .lnk0 5 true false).wellFormed = false ∧
    (Instr.softLaneFault .lnk0 5 0).wellFormed = false ∧ (Instr.dskReceived .lnk0 4 true 0 true).wellFormed = false ∧
    (Instr.dskReceived .lnk0 0 true 16 true).wellFormed = false := by decide

theorem test_illformed_husk (l : LinkId) (h : RxHusk) (n : h.bytes.length = 4109) : (Instr.lineHusk l h).wellFormed = false ∧
    (Instr.nakHusk l h).wellFormed = false := by simp [Instr.wellFormed, huskOk, n]

theorem test_illformed_husk_hyp : ∃ h : RxHusk, h.bytes.length = 4109 :=
  ⟨⟨List.replicate 4109 0, false, false, 0⟩, List.length_replicate⟩

theorem test_illformed_sequencing : (Instr.slotBoundary [24000] [] [] true).wellFormed = false ∧
    (Instr.slotBoundary [] [24000] [] true).wellFormed = false ∧ (Instr.slotBoundary [] [] [(.L, 6000)] true).wellFormed = false ∧
    (Instr.diagPulse [] (List.replicate 12 false)).wellFormed = false ∧
    (Instr.diagPulse (List.replicate 12 false) []).wellFormed = false ∧ (Instr.seqReloaded 32).wellFormed = false ∧
    (Instr.seqStoreScrub ⟨0, [65536]⟩).wellFormed = false := by decide

theorem test_illformed_governor : (Instr.governorTick { noSamples with shunt := [] }).wellFormed = false ∧
    (Instr.governorTick { noSamples with eccSlot := some 48 }).wellFormed = false ∧ (Instr.govDeadline 48).wellFormed = false ∧
    (Instr.feedbackLost 48 false).wellFormed = false := by decide

theorem test_illformed_compose : (Instr.composeRowStart .L 0 [(8, 0)] []).wellFormed = false ∧
    (Instr.composeRowStart .L 0 [] [(8, 0)]).wellFormed = false ∧ (Instr.intakeCopyDone 0).wellFormed = false ∧
    (Instr.intakeCopyDone 8).wellFormed = false ∧ (Instr.cameraEdge 2 false 0 0).wellFormed = false := by decide

theorem test_illformed_array : (Instr.busCrcResponse .L 2048 0).wellFormed = false ∧
    (Instr.cellCrcResponse .L 2048 0).wellFormed = false ∧ (Instr.lanesResponse .L []).wellFormed = false ∧
    (Instr.ackResponse .L 256 0).wellFormed = false ∧ (Instr.ackResponse .L 0 256).wellFormed = false ∧
    (Instr.errorResponse .L 256 0).wellFormed = false ∧ (Instr.errorResponse .L 0 256).wellFormed = false ∧
    (Instr.identResponse .L []).wellFormed = false ∧
    (Instr.trainResultResponse .L 128 (List.replicate 33 0)).wellFormed = false ∧
    (Instr.trainResultResponse .L 0 []).wellFormed = false ∧
    (Instr.trainResultResponse .L 0 (List.replicate 33 256)).wellFormed = false ∧
    (Instr.arraySupplyGood .L [] (List.replicate 256 true)).wellFormed = false ∧
    (Instr.arraySupplyGood .L (List.replicate 256 true) []).wellFormed = false := by decide

theorem test_illformed_lamp : (Instr.chOvercurrent 12).wellFormed = false ∧ (Instr.chOpen 12).wellFormed = false ∧
    (Instr.chShort 12).wellFormed = false ∧ (Instr.fetShort 12).wellFormed = false ∧
    (Instr.boardTempRead .L (.ntc 4096)).wellFormed = false ∧ (Instr.boardTempRead .L (.i2c 32768)).wellFormed = false ∧
    (Instr.dimInputLoss 0).wellFormed = false := by decide

theorem test_illformed_rest : (Instr.mxTeEdge 4).wellFormed = false ∧ (Instr.mxTeTimeout 4).wellFormed = false ∧
    (Instr.faultAutoClear 65536 0).wellFormed = false ∧ (Instr.faultAutoClear 0 256).wellFormed = false ∧
    (Instr.calTriggerCheck 65536).wellFormed = false ∧ (Instr.calMeasurementDone 128 .invalid).wellFormed = false ∧
    (Instr.beamEnableTimeout .spi 256).wellFormed = false := by decide

/-! ### Results that the manual works out -/

/-- The block after one command. -/
def after (i : Instr) (d : Dev) : Dev := match exec i (run d) with | .next s => s.dev | _ => d

def digits : List Byte := [0x31, 0x32, 0x33, 0x34, 0x35, 0x36, 0x37, 0x38, 0x39]

/-- The check values of R61, R62 and R95. -/
theorem test_crc_check_values : crc16 digits = 0x29B1 ∧ crc32 digits = 0xCBF43926 ∧ crc8 digits = 0x4B := by decide

def declares (pl : List Byte) : Dev := asks .spi opLayerDeclare pl .queued (at_ .standby)

/-- Layer 1 of Table 6-13: S8, STATIC, 512 × 256: an intake copy of two buffers of 131,072 bytes. -/
theorem test_layerDeclare_intake_copy :
    (after (.layerDeclare .spi) (declares [1, 0x21, 1, 0, 0, 2, 0, 1, 0, 0, 0, 0, 0, 2, 0, 1, 255, 0, 0, 0, 0, 0, 0, 0])).cmp.poolFree =
      6029312 := by decide

/-- Layer 3 of Table 6-13, alone: I8, 3000 × 200 to 3600 × 400: three Millpond buffers of 602,112 bytes and two scalers. -/
theorem test_layerDeclare_millpond :
    let d := after (.layerDeclare .spi)
      (declares [3, 0x03, 0, 0, 0xB8, 0x0B, 200, 0, 0, 0, 0, 0, 0x10, 0x0E, 0x90, 1, 255, 0, 0, 0, 0, 0, 0, 0])
    d.cmp.poolFree = 4485120 ∧ (d.layer 3).scalers.length = 2 := by decide

/-- The redeclared layer 4 of Table 6-13: I16, 2048 × 300 to 2048 × 600: three times 19 blocks of 64 KiB, one scaler. -/
theorem test_layerDeclare_dram :
    let d := after (.layerDeclare .spi)
      (declares [4, 0x01, 0, 0, 0, 8, 0x2C, 1, 0, 0, 0, 0, 0, 8, 0x58, 2, 255, 0, 0, 0, 0, 0, 0, 0])
    d.cmp.dramFree = 16384 - 57 ∧ (d.layer 4).scalers.length = 1 := by decide

/-- The same declaration as layer 1 all four scalers taken ends with SPAN_EXCEEDED (0x0B). -/
theorem test_layerDeclare_span :
    let none_ := declares [1, 0x01, 0, 0, 0, 8, 0x2C, 1, 0, 0, 0, 0, 0, 8, 0x58, 2, 255, 0, 0, 0, 0, 0, 0, 0]
    let d := after (.layerDeclare .spi) { none_ with cmp := { none_.cmp with scalersFree := [] } }
    d.cmp.dramFree = 16384 ∧ ((d.port .spi).cache.head?.map fun e => e.status) = some 0x0B := by decide

/-- BEAM_ENABLE 4 names no request (R117): it ends with BAD_ARG and no response. -/
theorem test_beamEnable_reserved :
    ((after (.beamEnable .spi) (asks .spi opBeamEnable [4, 0, 0, 0] .queued (at_ .standby))).port .spi).cache.head?.map
      (fun e => (e.tag, e.status, e.response)) = some (7, 5, []) := by decide

/-! ### Hypotheses that are met -/

theorem test_hyps_StepRunsFrontCommand :
    (∃ (s : State) (c : Instr) (rest : List Instr), s.pending = c :: rest) :=
  ⟨⟨Dev.cold, [.resetRelease]⟩, .resetRelease, [], by decide⟩

theorem test_hyps_EmptyQueueTicks :
    (∃ (s : State), s.pending = []) :=
  ⟨State.reset, by decide⟩

theorem test_hyps_StepKeepsInv :
    (∃ (s t : State), s.dev.Inv ∧ step s = .next t) :=
  ⟨(run (at_ .standby)), (run (at_ .standby).tick), ⟨meets_inv rfl (by decide), rfl⟩⟩

theorem test_hyps_ResetCommands :
    (∃ (s : State), s.dev.core.state ≠ .reset) ∧
    (∃ (s : State), s.dev.core.state = .reset) ∧
    (∃ (s : State) (r : List Bool), s.dev.core.state ≠ .reset ∧ r.getD 0 true = true ∧ r.any (!·) = true) ∧
    (∃ (s : State) (r : List Bool), r.getD 0 true = false) ∧
    (∃ (s : State), s.dev.upd.restartDue = true) :=
  ⟨⟨(run (at_ .standby)), by decide⟩,
    ⟨(run Dev.cold), by decide⟩,
    ⟨(run (at_ .standby)), (List.replicate 10 true ++ [false]), by decide⟩,
    ⟨(run (at_ .standby)), [false], by decide⟩,
    ⟨(run { at_ .standby with upd := { Update.reset with restartDue := true } }), by decide⟩⟩

theorem test_hyps_ResetEnds :
    (∃ (s : State), s.dev.core.state = .reset ∧ s.dev.aon.resetN = true ∧ s.dev.aon.supplies.all id = true ∧
      s.dev.aon.thermalHold = false ∧ s.dev.clk.plls.length = 3) ∧
    (∃ (s : State), ¬(s.dev.core.state = .reset ∧ s.dev.aon.resetN = true ∧ s.dev.aon.supplies.all id = true ∧
      s.dev.aon.thermalHold = false)) :=
  ⟨⟨(run { Dev.cold with aon := { Aon.powerOn with resetN := true } }), by decide⟩,
    ⟨(run Dev.cold), by decide⟩⟩

theorem test_hyps_BootImages :
    (∃ (s : State) (b : Bool) (svn fw : Nat), s.dev.booting = true ∧ s.dev.core.image = 0xFF ∧ s.dev.selectImage.nextImage =
      some (b2n b)) ∧
    (∃ (s : State) (b : Bool) (check svn fw : Nat), s.dev.booting = true ∧ s.dev.core.image = 0xFF ∧ s.dev.selectImage.nextImage
      = some (b2n b) ∧ check ≠ 0 ∧ (s.dev.selectImage.setCheck (b2n b) check).nextImage ≠ none) ∧
    (∃ (s : State) (b : Bool) (check svn fw : Nat), s.dev.booting = true ∧ s.dev.core.image = 0xFF ∧ s.dev.selectImage.nextImage
      = some (b2n b) ∧ check ≠ 0 ∧ (s.dev.selectImage.setCheck (b2n b) check).nextImage = none) :=
  ⟨⟨(run
    { at_ .boot with core := { (at_ .boot).core with image := 0xFF }, nor := { (at_ .boot).nor with dir0 := [⟨1, 0, true, true, false, 0⟩] } }),
      false, 1, 2, by decide⟩,
    ⟨(run
      { at_ .boot with core := { (at_ .boot).core with image := 0xFF }, nor := { (at_ .boot).nor with dir0 := [⟨1, 0, true, true, false, 0⟩] } }),
      false, 7, 1, 2, by decide⟩,
    ⟨(run
      { at_ .boot with core := { (at_ .boot).core with image := 0xFF }, nor := { (at_ .boot).nor with dir0 := [⟨1, 0, true, false, false, 0⟩] } }),
      false, 7, 1, 2, by decide⟩⟩

theorem test_hyps_BootEnds :
    (∃ (s : State), s.dev.booting = true) ∧
    (∃ (s : State), s.dev.booting = true ∧ s.dev.core.image ≠ 0xFF ∧ (s.dev.mport 0).state = .parked ∧ s.dev.req.inForce = 0 ∧
      s.dev.req.can = 0 ∧ s.dev.req.mailbox = 0) ∧
    (∃ (s : State) (pass : Bool), s.dev.booting = true ∧ s.dev.core.image ≠ 0xFF ∧ (s.dev.mport 0).state ≠ .parked) ∧
    (∃ (s : State) (p : Pll), s.dev.booting = true ∧ (s.dev.pll p.ix).wanted = true ∧ (s.dev.pll p.ix).locked = false) ∧
    (∃ (s : State) (p : Pll), s.dev.aon.warning = true) ∧
    (∃ (s : State) (l : LinkId), s.dev.booting = true ∧ s.dev.core.image ≠ 0xFF ∧ l ∈ s.dev.linkIds ∧ (s.dev.link l).state =
      .disabled) :=
  ⟨⟨(run (at_ .boot)), by decide⟩,
    ⟨(run (array .parked (at_ .boot))), ⟨by decide, by decide, by decide, by decide, by decide, by decide⟩⟩,
    ⟨(run (at_ .boot)), true, by decide⟩,
    ⟨(run ((at_ .boot).modPll 0 fun p => { p with wanted := true })), .S, by decide⟩,
    ⟨(run { at_ .boot with aon := { Aon.powerOn with warning := true } }), .S, by decide⟩,
    ⟨(run (at_ .boot)), .lnk0, by decide⟩⟩

theorem test_hyps_PowerFail :
    (∃ (s : State) (low : Bool) (sense : List Nat), s.dev.warns low sense = true ∧ s.dev.canActive = true) ∧
    (∃ (s : State) (low : Bool) (sense : List Nat), s.dev.warns low sense = true ∧ s.dev.canActive = false) ∧
    (∃ (s : State) (low : Bool) (sense : List Nat), (low = false ∨ (s.dev.par kJnlPfwSource 0).testBit 0 = false) ∧ ((s.dev.par
      kJnlPfwSource 0).testBit 1 = false ∨ sense.length ≠ 3 ∨ ∃ v ∈ sense, s.dev.par kJnlPfwThresh 0 * 256000 ≤ v * s.dev.par
      kJnlVbatDiv 0)) ∧
    (∃ (s : State) (us : Nat), s.dev.jnl.closing = true ∧ s.dev.jnl.pending = []) ∧
    (∃ (s : State), s.dev.core.state = .holdup ∧ s.dev.jnl.closed = true ∧ s.dev.aon.warning = false) :=
  ⟨⟨(run (at_ .standby)), true, [], by decide⟩,
    ⟨(run (at_ .boot)), true, [], by decide⟩,
    ⟨(run (at_ .standby)), false, [0, 0], by decide⟩,
    ⟨(run { at_ .holdup with jnl := { Journal.reset with closing := true } }), 7, by decide⟩,
    ⟨(run { at_ .holdup with jnl := { Journal.reset with closed := true } }), by decide⟩⟩

theorem test_hyps_Temperature :
    (∃ (s : State) (t : Int), s.dev.core.state ≠ .reset ∧ s.dev.core.state ≠ .thermalOff) ∧
    (∃ (s : State), s.dev.core.state = .thermalOff) ∧
    (∃ (s : State), s.dev.core.state ≠ .thermalOff) ∧
    (∃ (s : State) (t trim : Int), -600 ≤ t ∧ t ≤ 2000) ∧
    (∃ (s : State) (t trim : Int), (t < -600 ∨ 2000 < t)) :=
  ⟨⟨(run (at_ .standby)), 1500, by decide⟩,
    ⟨(run (at_ .thermalOff)), by decide⟩,
    ⟨(run (at_ .standby)), by decide⟩,
    ⟨(run (at_ .standby)), 2000, 0, by decide⟩,
    ⟨(run (at_ .standby)), 2001, 0, by decide⟩⟩

theorem test_hyps_Watchdog :
    (∃ (s : State), (s.dev.canActive = true ∨ s.dev.core.state = .boot) ∧ s.dev.core.image ≠ 0xFF ∧ s.dev.core.acornService =
      false ∧ s.dev.host.millerStuck = false) :=
  ⟨(run (at_ .standby)), by decide⟩

theorem test_hyps_Clocks :
    (∃ (s : State) (n : Nat), s.dev.clk.refclkGood = true ∧ s.dev.core.state ≠ .reset ∧ s.dev.core.state ≠ .thermalOff) ∧
    (∃ (s : State) (n : Nat), s.dev.clk.refclkGood = false) ∧
    (∃ (s : State) (p : Pll) (clamp : Bool), (s.dev.pll p.ix).locked = true ∧ ¬(p = .M ∧ s.dev.core.state = .holdup)) ∧
    (∃ (s : State) (p : Pll), (s.dev.pll p.ix).relocking = true) ∧
    (∃ (s : State) (p : Pll), s.dev.core.state = .boot ∧ (s.dev.pll p.ix).relocking = false ∧ (s.dev.pll p.ix).wanted = true) ∧
    (∃ (s : State) (p : Pll), (s.dev.pll p.ix).relocking = true ∧ s.dev.relocks = true) ∧
    (∃ (s : State), s.dev.steers = true ∧ (s.dev.pll 2).locked = true) ∧
    (∃ (s : State), s.dev.steers = false) :=
  ⟨⟨(run (at_ .standby)), 0, by decide⟩,
    ⟨(run { at_ .standby with clk := { Clk.reset with refclkGood := false } }), 800, by decide⟩,
    ⟨(run ((at_ .standby).modPll 1 fun p => { p with locked := true })), .M, false, by decide⟩,
    ⟨(run ((at_ .standby).modPll 1 fun p => { p with relocking := true })), .M, by decide⟩,
    ⟨(run ((at_ .boot).modPll 1 fun p => { p with wanted := true })), .M, by decide⟩,
    ⟨(run ((at_ .standby).modPll 1 fun p => { p with relocking := true })), .M, by decide⟩,
    ⟨(run ({ at_ .standby with cam := { Cam.reset with state := 2 } }.modPll 2 fun p => { p with locked := true })), by decide⟩,
    ⟨(run (at_ .safe)), by decide⟩⟩

theorem test_hyps_TestAccessPort :
    (∃ (s : State) (ir : Byte), s.dev.aon.supplies.all id = true) ∧
    (∃ (s : State) (cells : BitVec 159), s.dev.aon.supplies.all id = true ∧ s.dev.aon.resetN = false ∧ s.dev.aon.jtagLock =
      false ∧ s.dev.jtag.ir = 0x00) :=
  ⟨⟨(run Dev.cold), 0x00, by decide⟩,
    ⟨(run { Dev.cold with jtag := { Jtag.reset with ir := 0 } }), 0, by decide⟩⟩

theorem test_hyps_SluiceTickets :
    (∃ (s : State) (h : Holder), s.dev.core.state ≠ .reset ∧ s.dev.core.state ≠ .thermalOff ∧ s.dev.cal.run = none ∧
      s.dev.ticketHeld h = false ∧ s.dev.ticketQueued h = false ∧ s.dev.deniedAtOnce (s.dev.slReq h) = false ∧ s.dev.slFits
      (s.dev.slReq h) = true ∧ (∀ q ∈ s.dev.sluice.queued, opBit h ≤ opBit q.holder)) ∧
    (∃ (s : State) (h : Holder), s.dev.core.state ≠ .reset ∧ s.dev.core.state ≠ .thermalOff ∧ s.dev.cal.run = none ∧
      s.dev.ticketHeld h = false ∧ s.dev.ticketQueued h = false ∧ s.dev.deniedAtOnce (s.dev.slReq h) = false ∧ (s.dev.slFits
      (s.dev.slReq h) = false ∨ ∃ q ∈ s.dev.sluice.queued, opBit q.holder < opBit h)) ∧
    (∃ (s : State) (h : Holder), s.dev.core.state ≠ .reset ∧ s.dev.core.state ≠ .thermalOff ∧ s.dev.cal.run = none ∧
      s.dev.ticketHeld h = false ∧ s.dev.ticketQueued h = false ∧ s.dev.deniedAtOnce (s.dev.slReq h) = true ∧ (h = .erase
      .journal → s.dev.jnl.seals = []) ∧ (h = .erase .pattern → s.dev.patErasers = []) ∧ (h = .erase .image → s.dev.upd.erasing
      = false)) ∧
    (∃ (s : State) (h : Holder), s.dev.cal.run = none ∧ s.dev.ticketHeld h = true ∧ s.dev.sluice.queued = [] ∧ h ≠ .erase
      .calSets ∧ h ≠ .erase .directory ∧ h ≠ .erase .pattern) ∧
    (∃ (s : State) (h : Holder), (∃ q ∈ s.dev.sluice.queued, q.holder = h ∧ q.asked + msTicks (s.dev.par kPwrQueueMax 0) ≤
      s.dev.now) ∧ s.dev.ticketHeld h = false) ∧
    (∃ (s : State) (h : Holder), (∀ q ∈ s.dev.sluice.queued, q.holder = h → s.dev.now < q.asked + msTicks (s.dev.par
      kPwrQueueMax 0))) ∧
    (∃ (s : State) (h : Holder), (∃ t ∈ s.dev.sluice.held, t.1 = h ∧ t.2.2.2 + s.dev.holdLimit h < s.dev.now)) :=
  ⟨⟨(run (at_ .standby)), .cal, by decide⟩,
    ⟨(run { at_ .standby with sluice := { held := [(.erase .journal, 0, 0, 0)], queued := [] } }), .erase .pattern, by decide⟩,
    ⟨(run (at_ .holdup)), .cal, by decide⟩,
    ⟨(run { at_ .standby with sluice := { held := [(.cal, 0, 0, 0)], queued := [] } }), .cal, by decide⟩,
    ⟨(run
      { at_ .standby with sluice := { held := [], queued := [(at_ .standby).slReq .cal] }, clk := { Clk.reset with timeBase := 2000000000 } }),
      .cal, by decide⟩,
    ⟨(run (at_ .standby)), .cal, fun _ h => nomatch h⟩,
    ⟨(run
      { at_ .standby with sluice := { held := [(.cal, 0, 0, 0)], queued := [] }, clk := { Clk.reset with timeBase := 2000000000 } }),
      .cal, by decide⟩⟩

theorem test_hyps_EraseTicketEnds :
    (∃ (s : State), s.dev.cal.run = none ∧ s.dev.ticketHeld (.erase .calSets) = true ∧ s.dev.sluice.queued = [] ∧
      s.dev.cal.norWriteWanted = true) ∧
    (∃ (s : State), s.dev.cal.run = none ∧ s.dev.ticketHeld (.erase .directory) = true ∧ s.dev.sluice.queued = [] ∧
      s.dev.upd.dirWaiting = []) ∧
    (∃ (s : State) (p : Port) (tag v : Nat), s.dev.cal.run = none ∧ s.dev.ticketHeld (.erase .pattern) = true ∧
      s.dev.sluice.queued = [] ∧ s.dev.patErasers = [(p, tag, v)] ∧ s.dev.tagOpen p tag = true) :=
  ⟨⟨(run
    { at_ .standby with sluice := { held := [(.erase .calSets, 0, 0, 0)], queued := [] }, cal := { Cal.reset with norWriteWanted := true } }),
      by decide⟩,
    ⟨(run { at_ .standby with sluice := { held := [(.erase .directory, 0, 0, 0)], queued := [] } }), by decide⟩,
    ⟨(run
      { (asks .spi opSetParam (ctrl kPlcPatCtrl 0x100) .waiting (at_ .standby)) with sluice := { held := [(.erase .pattern, 0, 0, 0)], queued := [] } }),
      .spi, 7, 0x100, by decide⟩⟩

theorem test_hyps_RegisterWrites :
    (∃ (s : State) (p : RegPort) (bytes : List Byte), bytes.length < 3) ∧
    (∃ (s : State) (bytes : List Byte), s.dev.Inv ∧ 3 ≤ bytes.length ∧ byteAt bytes 0 ≠ 2 ∧ byteAt bytes 0 ≠ 3 ∧ s.dev.mapOpen =
      true) ∧
    (∃ (s : State) (v : BitVec 32), s.dev.mapOpen = true) ∧
    (∃ (s : State) (v : BitVec 32), s.dev.mapOpen = true) ∧
    (∃ (s : State) (p : RegPort) (n : Nat) (v : BitVec 32), s.dev.mapOpen = true ∧ n < (s.dev.map p).slots.length ∧ n < 4) ∧
    (∃ (s : State) (p : RegPort) (v : BitVec 32), s.dev.mapOpen = true ∧ v.getLsbD 0 = false) ∧
    (∃ (s : State) (p : RegPort) (bytes : List Byte), s.dev.mapOpen = false ∧ byteAt bytes 0 = 2) :=
  ⟨⟨(run (at_ .standby)), .spi, [2, 0], by decide⟩,
    ⟨(run (at_ .standby)), [4, 0, 0], ⟨meets_inv rfl (by decide), by decide, by decide, by decide, by decide⟩⟩,
    ⟨(run (at_ .standby)), 0, by decide⟩,
    ⟨(run (at_ .standby)), 0, by decide⟩,
    ⟨(run (at_ .standby)), .spi, 3, 0, by decide⟩,
    ⟨(run (at_ .standby)), .jtag, 0x10000, by decide⟩,
    ⟨(run (at_ .boot)), .spi, [2], by decide⟩⟩

theorem test_hyps_RegisterEvents :
    (∃ (s : State) (p : RegPort) (w : Word), s.dev.mapOpen = true) ∧
    (∃ (s : State) (p : RegPort) (n : Nat), s.dev.Inv ∧ s.dev.mapOpen = true ∧ s.dev.serves p.port = true ∧ n < 4 ∧ ((s.dev.map
      p).slots.getD n SlotRegs.reset).st ≠ .free) ∧
    (∃ (s : State) (p : RegPort) (n : Nat), ∃ (c : Cmd), s.dev.mapOpen = true ∧ s.dev.serves p.port = true ∧ n < 4 ∧ n <
      (s.dev.map p).slots.length ∧ p.port.ix < s.dev.host.ports.length ∧ ((s.dev.map p).slots.getD n SlotRegs.reset).st = .free
      ∧ c =
      { cmdOf ((s.dev.map p).slots.getD n SlotRegs.reset).cmdh.toNat [] with payload := ((s.dev.map p).slots.getD n SlotRegs.reset).payload.take (cmdOf ((s.dev.map p).slots.getD n SlotRegs.reset).cmdh.toNat []).len }
      ∧ s.dev.cacheHit p.port c = none ∧ s.dev.tagOpen p.port c.tag = false ∧ s.dev.admissionCheck p.port c true = none) ∧
    (∃ (s : State) (p : RegPort), s.dev.mapOpen = true) ∧
    (∃ (s : State) (p : RegPort), s.dev.mapOpen = true ∧ p.port.ix < s.dev.host.ports.length) ∧
    (∃ (s : State) (p : RegPort), s.dev.mapOpen = true) ∧
    (∃ (s : State) (p : RegPort), s.dev.mapOpen = true ∧ s.dev.latchTick ≠ some (s.dev.now + 1)) ∧
    (∃ (s : State) (dr : BitVec 50), s.dev.jtag.ir = 0x10 ∧ dr.getLsbD 0 = false ∧ bitsOf dr.toNat 2 16 % 4 = 0) ∧
    (∃ (s : State) (dr : BitVec 50), s.dev.jtag.ir ≠ 0x10) :=
  ⟨⟨(run (at_ .standby)), .spi, 1, by decide⟩,
    ⟨(run
      { at_ .standby with host := { HostUnit.reset with spi := { RegMap.reset with slots := List.replicate 4 { SlotRegs.reset with st := .open_ } } } }),
      .spi, 3, ⟨meets_inv rfl (by decide), by decide, by decide, by decide, by decide⟩⟩,
    ⟨(run
      { at_ .standby with host := { HostUnit.reset with spi := { RegMap.reset with slots := List.replicate 4 { SlotRegs.reset with cmdh := 0x0000000000070001 } } } }),
      .spi, 0, _, ⟨by decide, by decide, by decide, by decide, by decide, by decide, rfl, by decide, by decide, by decide⟩⟩,
    ⟨(run (at_ .standby)), .jtag, by decide⟩,
    ⟨(run (at_ .standby)), .spi, by decide⟩,
    ⟨(run (at_ .standby)), .spi, by decide⟩,
    ⟨(run (at_ .standby)), .spi, by decide⟩,
    ⟨(run { at_ .standby with jtag := { Jtag.reset with ir := 0x10 } }), 0, by decide⟩,
    ⟨(run (at_ .standby)), 0, by decide⟩⟩

theorem test_hyps_MailboxReads :
    (∃ (s : State) (p : Port) (c : Cmd), s.dev.serving p opGetInfo c) ∧
    (∃ (s : State) (p : Port) (c : Cmd) (bs : List Byte), s.dev.serving p opGetParam c ∧ s.dev.getParamCmd (payloadLimit p)
      c.payload = (0, bs)) ∧
    (∃ (s : State) (p : Port) (c : Cmd) (st : Nat) (bs : List Byte), s.dev.serving p opGetParam c ∧ s.dev.getParamCmd
      (payloadLimit p) c.payload = (st, bs) ∧ st ≠ 0) ∧
    (∃ (s : State) (p : Port) (c : Cmd) (bs : List Byte), s.dev.serving p opSnapshotRead c ∧ s.dev.snapRead (payloadLimit p)
      c.payload = (0, bs)) ∧
    (∃ (s : State) (p : Port) (c : Cmd) (st : Nat) (bs : List Byte), s.dev.serving p opJournalRead c ∧ s.dev.journalReadCmd
      (leField c.payload 0 4) ((byteAt c.payload 4).testBit 0) = (st, bs)) ∧
    (∃ (s : State) (p : Port) (c : Cmd), s.dev.serving p opSnapshot c ∧ s.dev.latchTick ≠ some (s.dev.now + 1)) :=
  ⟨⟨(run (asks .spi opGetInfo ([]) .queued (at_ .standby))), .spi, (cmd opGetInfo ([])), ⟨by decide, by decide⟩⟩,
    ⟨(run (asks .spi opGetParam (leBytes 4 kDevBeamSource ++ [0, 0, 0, 0]) .queued (at_ .standby))), .spi, (cmd opGetParam
      (leBytes 4 kDevBeamSource ++ [0, 0, 0, 0])), _, ⟨⟨by decide, by decide⟩, rfl⟩⟩,
    ⟨(run (asks .spi opGetParam (leBytes 4 0x7F000000 ++ [0, 0, 0, 0]) .queued (at_ .standby))), .spi, (cmd opGetParam (leBytes
      4 0x7F000000 ++ [0, 0, 0, 0])), _, _, ⟨⟨by decide, by decide⟩, rfl, by decide⟩⟩,
    ⟨(run (asks .spi opSnapshotRead ([1, 0, 0, 0]) .queued
      ({ at_ .standby with saf := { Saf.reset with live := [⟨1, 0, [5]⟩] } }))), .spi, (cmd opSnapshotRead ([1, 0, 0, 0])), _,
      ⟨⟨by decide, by decide⟩, rfl⟩⟩,
    ⟨(run (asks .spi opJournalRead ([0, 0, 0, 0, 0]) .queued (at_ .standby))), .spi, (cmd opJournalRead ([0, 0, 0, 0, 0])), _,
      _, ⟨⟨by decide, by decide⟩, rfl⟩⟩,
    ⟨(run (asks .spi opSnapshot ([]) .queued (at_ .standby))), .spi, (cmd opSnapshot ([])), ⟨⟨by decide, by decide⟩, by decide⟩⟩⟩

theorem test_hyps_ParameterWrites_now :
    ∃ (s : State) (p : Port) (c : Cmd) (w : ParamWrite) (v : Int), s.dev.Inv ∧ s.dev.headOf p opSetParam = some c ∧
      paramAct c.payload = none ∧ s.dev.openWrite p c.payload = .ok w ∧ w.row.ty.size ≠ 0 ∧ s.dev.scalarIn w = .ok v ∧
      w.row.apply = .now ∧
      w.id - idInst w.id * 0x10000 ∉ [kPlcPatGeom, kClkClkSticky, kThmTDieMax, kLnkMaxRate, lkey kLnkMaxRate .lnk1,
        kLnkL1Allowed, lkey kLnkL1Allowed .lnk1, kDevBeamSource, kDevVehLossBeam, kPlcPatLow, kPlcPatHigh, kPlcPatFallback,
        kAuxMxClass] := by
  obtain ⟨w, h, k⟩ := writes (d := asks .spi opSetParam timeSource .queued (at_ .standby)) (p := .spi) (pl := timeSource)
    (fun w r => decide (w.row.ty.size ≠ 0 ∧ w.row.apply = .now ∧
      w.id - idInst w.id * 0x10000 ∉ [kPlcPatGeom, kClkClkSticky, kThmTDieMax, kLnkMaxRate, lkey kLnkMaxRate .lnk1,
        kLnkL1Allowed, lkey kLnkL1Allowed .lnk1, kDevBeamSource, kDevVehLossBeam, kPlcPatLow, kPlcPatHigh, kPlcPatFallback,
        kAuxMxClass]) && (match r with | .ok v => v == 1 | .error _ => false)) (by decide)
  simp only [Bool.and_eq_true, decide_eq_true_eq] at k
  obtain ⟨⟨k1, k2, k3⟩, k4⟩ := k
  split at k4
  · rename_i v e
    exact ⟨run _, .spi, cmd opSetParam timeSource, w, v, meets_inv rfl (by decide), by decide, by decide, h, k1, e, k2, k3⟩
  · cases k4

theorem test_hyps_ParameterWrites_staged :
    ∃ (s : State) (p : Port) (c : Cmd) (w : ParamWrite) (v : Int), s.dev.headOf p opSetParam = some c ∧
      paramAct c.payload = none ∧ s.dev.openWrite p c.payload = .ok w ∧ w.row.ty.size ≠ 0 ∧ s.dev.scalarIn w = .ok v ∧
      (w.row.apply = .refresh ∨ w.row.apply = .composeStart ∨ w.row.apply = .commit ∨ w.row.apply = .tableCommit) ∧
      w.id - idInst w.id * 0x10000 ∉ [kPlcPatGeom, kClkClkSticky, kThmTDieMax] := by
  obtain ⟨w, h, k⟩ := writes (d := asks .spi opSetParam bendSource .queued (at_ .standby)) (p := .spi) (pl := bendSource)
    (fun w r => decide (w.row.ty.size ≠ 0 ∧
      (w.row.apply = .refresh ∨ w.row.apply = .composeStart ∨ w.row.apply = .commit ∨ w.row.apply = .tableCommit) ∧
      w.id - idInst w.id * 0x10000 ∉ [kPlcPatGeom, kClkClkSticky, kThmTDieMax]) &&
      (match r with | .ok v => v == 1 | .error _ => false)) (by decide)
  simp only [Bool.and_eq_true, decide_eq_true_eq] at k
  obtain ⟨⟨k1, k2, k3⟩, k4⟩ := k
  split at k4
  · rename_i v e
    exact ⟨run _, .spi, cmd opSetParam bendSource, w, v, by decide, by decide, h, k1, e, k2, k3⟩
  · cases k4

theorem test_hyps_ParameterWrites_refused :
    ∃ (s : State) (p : Port) (c : Cmd) (w : ParamWrite), s.dev.headOf p opSetParam = some c ∧
      paramAct c.payload = none ∧ s.dev.openWrite p c.payload = .ok w ∧ w.row.ty.size ≠ 0 ∧ s.dev.scalarIn w = .error 5 := by
  obtain ⟨w, h, k⟩ := writes (d := asks .spi opSetParam timeSource9 .queued (at_ .standby)) (p := .spi) (pl := timeSource9)
    (fun w r => decide (w.row.ty.size ≠ 0) && (match r with | .ok _ => false | .error e => e == 5)) (by decide)
  simp only [Bool.and_eq_true, decide_eq_true_eq] at k
  obtain ⟨k1, k4⟩ := k
  split at k4
  · cases k4
  · rename_i x e
    rw [beq_iff_eq] at k4
    subst k4
    exact ⟨run _, .spi, cmd opSetParam timeSource9, w, by decide, by decide, h, k1, e⟩


theorem test_hyps_AbortAndLevel :
    (∃ (s : State) (p : Port) (c : Cmd) (o : OpenCmd), s.dev.serving p opAbort c ∧ c.tag ≠ byteAt c.payload 0 ∧ (((s.dev.port
      p).opens.find? fun x => x.cmd.tag == byteAt c.payload 0) = some o) ∧ s.dev.abortable p o = true ∧ o.stage = .queued) ∧
    (∃ (s : State) (p : Port) (c : Cmd) (o : OpenCmd), s.dev.serving p opAbort c ∧ (((s.dev.port p).opens.find? fun x =>
      x.cmd.tag == byteAt c.payload 0) = some o) ∧ s.dev.abortable p o = false) ∧
    (∃ (s : State) (p : Port) (c : Cmd), s.dev.serving p opAbort c ∧ s.dev.tagOpen p (byteAt c.payload 0) = false) ∧
    (∃ (s : State) (p : Port) (c : Cmd), s.dev.serving p opSetCompat c ∧ leField c.payload 0 2 = 1) ∧
    (∃ (s : State) (p : Port) (c : Cmd), s.dev.serving p opSetCompat c ∧ leField c.payload 0 2 ≠ 1) :=
  ⟨⟨(run
    { at_ .standby with host := { HostUnit.reset with ports := HostUnit.reset.ports.set 3 { PortState.reset with opens := [openOf opAbort 7 [3] .queued, openOf opSelectMode 3 [1] .queued] } } }),
      .spi, (cmd opAbort [3]), (openOf opSelectMode 3 [1] .queued), ⟨⟨by decide, by decide⟩, by decide, by decide, by decide, by
      decide⟩⟩,
    ⟨(run
      { at_ .standby with host := { HostUnit.reset with ports := HostUnit.reset.ports.set 3 { PortState.reset with opens := [openOf opAbort 7 [3] .queued, openOf opGetInfo 3 [] .queued] } } }),
      .spi, (cmd opAbort [3]), (openOf opGetInfo 3 [] .queued), ⟨⟨by decide, by decide⟩, by decide, by decide⟩⟩,
    ⟨(run (asks .spi opAbort ([9]) .queued (at_ .standby))), .spi, (cmd opAbort ([9])), ⟨⟨by decide, by decide⟩, by decide⟩⟩,
    ⟨(run (asks .spi opSetCompat ([1, 0]) .queued (at_ .standby))), .spi, (cmd opSetCompat ([1, 0])), ⟨⟨by decide, by decide⟩,
      by decide⟩⟩,
    ⟨(run (asks .spi opSetCompat ([2, 0]) .queued (at_ .standby))), .spi, (cmd opSetCompat ([2, 0])), ⟨⟨by decide, by decide⟩,
      by decide⟩⟩⟩

theorem test_hyps_BeamEnable :
    (∃ (s : State) (p : Port) (c : Cmd), s.dev.serving p opBeamEnable c ∧ byteAt c.payload 0 ≤ 3 ∧ (¬(isTestMode s.dev.core.mode
      = true ∧ (p.classBit ≤ 2 ∨ (byteAt c.payload 0 ≠ 0 ∧ s.dev.speedZero = false))))) ∧
    (∃ (s : State) (p : Port) (c : Cmd), s.dev.serving p opBeamEnable c ∧ byteAt c.payload 0 ≤ 3 ∧ isTestMode s.dev.core.mode =
      true ∧ (p.classBit ≤ 2 ∨ (byteAt c.payload 0 ≠ 0 ∧ s.dev.speedZero = false))) ∧
    (∃ (s : State) (p : Port) (c : Cmd), s.dev.headOf p opBeamEnable = some c ∧ 3 < byteAt c.payload 0) ∧
    (∃ (s : State) (p : Port) (tag : Nat), (∃ x ∈ s.dev.waitingOf opBeamEnable, x.1 = p ∧ x.2.tag = tag)) :=
  ⟨⟨(run (asks .spi opBeamEnable ([3]) .queued (at_ .standby))), .spi, (cmd opBeamEnable ([3])), ⟨⟨by decide, by decide⟩, by
    decide, by decide⟩⟩,
    ⟨(run (asks .lnk0 opBeamEnable ([1]) .queued (mode 0x1E (at_ .standby)))), .lnk0, (cmd opBeamEnable ([1])), ⟨⟨by decide, by
      decide⟩, by decide, by decide, by decide⟩⟩,
    ⟨(run (asks .spi opBeamEnable ([4]) .queued (at_ .standby))), .spi, (cmd opBeamEnable ([4])), by decide⟩,
    ⟨(run (asks .spi opBeamEnable [3] .waiting (at_ .standby))), .spi, 7, by decide⟩⟩

theorem test_hyps_SelectMode :
    (∃ (s : State) (p : Port) (c : Cmd), s.dev.serving p opSelectMode c ∧ s.dev.modeCheck p (byteAt c.payload 0) = none ∧
      s.dev.core.state = .standby ∧ s.dev.seq.change = .none_ ∧ (s.dev.moveSideR (byteAt c.payload 0)).sideRFits (byteAt
      c.payload 0) = true) ∧
    (∃ (s : State) (p : Port) (c : Cmd), s.dev.serving p opSelectMode c ∧ s.dev.modeCheck p (byteAt c.payload 0) = none ∧
      (s.dev.core.state = .beam ∨ s.dev.core.state = .degraded) ∧ isTestMode (byteAt c.payload 0) = false ∧ s.dev.seq.change =
      .none_ ∧ byteAt c.payload 0 ≠ s.dev.core.mode ∧ s.dev.modeBarred (byteAt c.payload 0) = false) ∧
    (∃ (s : State) (p : Port) (c : Cmd), s.dev.serving p opSelectMode c ∧ s.dev.modeCheck p (byteAt c.payload 0) = none ∧
      (s.dev.core.state = .beam ∨ s.dev.core.state = .degraded) ∧ isTestMode (byteAt c.payload 0) = false ∧ s.dev.seq.change =
      .none_ ∧ byteAt c.payload 0 = s.dev.core.mode) ∧
    (∃ (s : State) (p : Port) (c : Cmd), s.dev.serving p opSelectMode c ∧ s.dev.modeCheck p (byteAt c.payload 0) = none ∧
      s.dev.core.state ≠ .standby ∧ isTestMode (byteAt c.payload 0) = true) ∧
    (∃ (s : State) (p : Port) (c : Cmd), s.dev.headOf p opSelectMode = some c ∧ modeDefined (byteAt c.payload 0) = false) :=
  ⟨⟨(run (asks .spi opSelectMode ([1]) .queued (array .parked (at_ .standby)))), .spi, (cmd opSelectMode ([1])), ⟨⟨by decide, by
    decide⟩, by decide, by decide, by decide, by decide⟩⟩,
    ⟨(run (asks .spi opSelectMode ([2]) .queued (array .parked (at_ .beam)))), .spi, (cmd opSelectMode ([2])), ⟨⟨by decide, by
      decide⟩, by decide, by decide, by decide, by decide, by decide, by decide⟩⟩,
    ⟨(run (asks .spi opSelectMode ([1]) .queued (array .parked (at_ .beam)))), .spi, (cmd opSelectMode ([1])), ⟨⟨by decide, by
      decide⟩, by decide, by decide, by decide, by decide, by decide⟩⟩,
    ⟨(run (asks .spi opSelectMode ([0x1E]) .queued (array .parked (at_ .beam)))), .spi, (cmd opSelectMode ([0x1E])), ⟨⟨by
      decide, by decide⟩, by decide, by decide, by decide⟩⟩,
    ⟨(run (asks .spi opSelectMode ([0]) .queued (at_ .standby))), .spi, (cmd opSelectMode ([0])), by decide⟩⟩

theorem test_hyps_RecordedSettings :
    (∃ (s : State) (p : Port) (c : Cmd), s.dev.serving p opSlotMask c ∧ ((s.dev.maskedModes.all fun m => maskKeeps (s.dev.rowOf
      m) (BitVec.ofNat 32 (leField c.payload 0 4))) = true)) ∧
    (∃ (s : State) (p : Port) (c : Cmd), s.dev.serving p opLampEnable c ∧ s.dev.dual = true) ∧
    (∃ (s : State) (p : Port) (c : Cmd), s.dev.serving p opDimSet c ∧ byteAt c.payload 2 ≤ 2 ∧ leField c.payload 4 2 ≤ 10000 ∧
      s.dev.lamp.inLoss (byteAt c.payload 2) = false ∧ s.dev.lamp.dimLost = false) ∧
    (∃ (s : State) (p : Port) (c : Cmd), s.dev.serving p opRampCurve c ∧ rampOk c.payload = true) ∧
    (∃ (s : State) (p : Port) (c : Cmd), s.dev.serving p opSignature c ∧ s.dev.signatureCheck c.payload = none ∧
      s.dev.faultActive 0x0C01 (byteAt c.payload 0) = false) ∧
    (∃ (s : State) (p : Port) (c : Cmd) (i v : Nat), s.dev.servingAct p .tableCommit c i v ∧ v.testBit 4 = false) ∧
    (∃ (s : State) (p : Port) (c : Cmd) (i v : Nat), s.dev.servingAct p .segCommit c i v) :=
  ⟨⟨(run (asks .spi opSlotMask ([255, 255, 255, 255]) .queued (at_ .standby))), .spi, (cmd opSlotMask ([255, 255, 255, 255])),
    ⟨⟨by decide, by decide⟩, by decide⟩⟩,
    ⟨(run (asks .spi opLampEnable ([1, 0]) .queued (at_ .standby))), .spi, (cmd opLampEnable ([1, 0])), ⟨⟨by decide, by decide⟩,
      by decide⟩⟩,
    ⟨(run (asks .spi opDimSet ([0, 0, 0, 0, 16, 39]) .queued (at_ .standby))), .spi, (cmd opDimSet ([0, 0, 0, 0, 16, 39])), ⟨⟨by
      decide, by decide⟩, by decide, by decide, by decide, by decide⟩⟩,
    ⟨(run (asks .spi opRampCurve ([2, 128, 208, 7]) .queued (at_ .standby))), .spi, (cmd opRampCurve ([2, 128, 208, 7])), ⟨⟨by
      decide, by decide⟩, by decide⟩⟩,
    ⟨(run (asks .spi opSignature ([0, 0, 1, 0, 0, 0, 0, 0, 0, 2, 0, 2, 0, 0, 0, 0]) .queued (at_ .standby))), .spi, (cmd
      opSignature ([0, 0, 1, 0, 0, 0, 0, 0, 0, 2, 0, 2, 0, 0, 0, 0])), ⟨⟨by decide, by decide⟩, by decide, by decide⟩⟩,
    ⟨(run (asks .spi opSetParam (ctrl8 kCmpTableCommit 15) .queued (at_ .standby))), .spi, (cmd opSetParam (ctrl8
      kCmpTableCommit 15)), 0, 15, ⟨acts (by decide), by decide⟩⟩,
    ⟨(run (asks .spi opSetParam (ctrl kAuxSegCommit 0) .queued (at_ .standby))), .spi, (cmd opSetParam (ctrl kAuxSegCommit 0)),
      0, 0, acts (by decide)⟩⟩

theorem test_hyps_LayerCommands :
    (∃ (s : State) (p : Port) (c : Cmd), ∃ (need : Nat), s.dev.Inv ∧ s.dev.serving p opLayerDeclare c ∧ hostLayer (byteAt
      c.payload 0) = true ∧ (declOf c.payload).ok = true ∧ (s.dev.layer (byteAt c.payload 0)).st = .free ∧ (s.dev.place (declOf
      c.payload)).dram ≤ s.dev.cmp.dramFree ∧ (need = (if (s.dev.place (declOf c.payload)).code = 0 ∨ (s.dev.place (declOf
      c.payload)).code = 3 then scalersNeeded (declOf c.payload).srcW (declOf c.payload).srcH (declOf c.payload).outW (declOf
      c.payload).outH else 0)) ∧ need ≤ s.dev.cmp.scalersFree.length) ∧
    (∃ (s : State) (p : Port) (c : Cmd), s.dev.serving p opLayerDeclare c ∧ hostLayer (byteAt c.payload 0) = true ∧ (declOf
      c.payload).ok = true ∧ (s.dev.layer (byteAt c.payload 0)).st ≠ .free) ∧
    (∃ (s : State) (p : Port) (c : Cmd), s.dev.serving p opLayerDeclare c ∧ hostLayer (byteAt c.payload 0) = true ∧ (declOf
      c.payload).ok = true ∧ (s.dev.layer (byteAt c.payload 0)).st = .free ∧ s.dev.cmp.dramFree < (s.dev.place (declOf
      c.payload)).dram) ∧
    (∃ (s : State) (p : Port) (c : Cmd), s.dev.serving p opLayerDestroy c ∧ hostLayer (byteAt c.payload 0) = true ∧ (s.dev.layer
      (byteAt c.payload 0)).st = .declared) ∧
    (∃ (s : State) (p : Port) (c : Cmd), s.dev.serving p opLayerDestroy c ∧ hostLayer (byteAt c.payload 0) = true ∧ (s.dev.layer
      (byteAt c.payload 0)).st ≠ .declared) ∧
    (∃ (s : State) (p : Port) (c : Cmd), s.dev.Inv ∧ s.dev.serving p opCommitGroup c ∧ byteAt c.payload 0 ≤ 7 ∧ byteAt c.payload
      1 ≤ 8 ∧ (s.dev.group (byteAt c.payload 0)).armed = false) ∧
    (∃ (s : State) (p : Port) (c : Cmd), s.dev.serving p opFenceSignal c ∧ byteAt c.payload 2 = 0xFF ∧ s.dev.waitingOf
      opFenceSignal = []) ∧
    (∃ (s : State) (p : Port) (c : Cmd), s.dev.serving p opFenceSignal c ∧ hostLayer (byteAt c.payload 2) = true ∧ (s.dev.layer
      (byteAt c.payload 2)).intake = false ∧ (s.dev.layer (byteAt c.payload 2)).frameSt = .idle ∧ (s.dev.layer (byteAt c.payload
      2)).newFrame (leField c.payload 4 2) = true) :=
  ⟨⟨(run (asks .spi opLayerDeclare ([1, 1, 0, 0, 64, 0, 32, 0, 0, 0, 0, 0, 64, 0, 32, 0, 255, 0, 0]) .queued (at_ .standby))),
    .spi, (cmd opLayerDeclare ([1, 1, 0, 0, 64, 0, 32, 0, 0, 0, 0, 0, 64, 0, 32, 0, 255, 0, 0])), _, ⟨meets_inv rfl (by decide),
      ⟨by decide, by decide⟩, by decide, by decide, by decide, by decide, rfl, by decide⟩⟩,
    ⟨(run (asks .spi opLayerDeclare ([1, 1, 0, 0, 64, 0, 32, 0, 0, 0, 0, 0, 64, 0, 32, 0, 255, 0, 0]) .queued ((at_
      .standby).modLayer 1 fun l => { l with st := .declared }))), .spi, (cmd opLayerDeclare ([1, 1, 0, 0, 64, 0, 32, 0, 0, 0,
      0, 0, 64, 0, 32, 0, 255, 0, 0])), ⟨⟨by decide, by decide⟩, by decide, by decide, by decide⟩⟩,
    ⟨(run (asks .spi opLayerDeclare ([1, 1, 0, 0, 0, 8, 0, 8, 0, 0, 0, 0, 0, 8, 0, 8, 255, 0, 0]) .queued
      ({ at_ .standby with cmp := { Compose.reset with dramFree := 0, poolFree := 0 } }))), .spi, (cmd opLayerDeclare ([1, 1, 0,
      0, 0, 8, 0, 8, 0, 0, 0, 0, 0, 8, 0, 8, 255, 0, 0])), ⟨⟨by decide, by decide⟩, by decide, by decide, by decide, by decide⟩⟩,
    ⟨(run (asks .spi opLayerDestroy ([1]) .queued ((at_ .standby).modLayer 1 fun l => { l with st := .declared }))), .spi, (cmd
      opLayerDestroy ([1])), ⟨⟨by decide, by decide⟩, by decide, by decide⟩⟩,
    ⟨(run (asks .spi opLayerDestroy ([7]) .queued (at_ .standby))), .spi, (cmd opLayerDestroy ([7])), ⟨⟨by decide, by decide⟩,
      by decide, by decide⟩⟩,
    ⟨(run (asks .spi opCommitGroup ([7, 8, 0, 0]) .queued (at_ .standby))), .spi, (cmd opCommitGroup ([7, 8, 0, 0])), ⟨meets_inv
      rfl (by decide), ⟨by decide, by decide⟩, by decide, by decide, by decide⟩⟩,
    ⟨(run (asks .spi opFenceSignal ([5, 0, 255, 0, 0, 0]) .queued (at_ .standby))), .spi, (cmd opFenceSignal ([5, 0, 255, 0, 0,
      0])), ⟨⟨by decide, by decide⟩, by decide, by decide⟩⟩,
    ⟨(run (asks .spi opFenceSignal ([5, 0, 7, 0, 9, 0]) .queued ((at_ .standby).modLayer 1 fun l =>
      { l with st := .declared }))), .spi, (cmd opFenceSignal ([5, 0, 7, 0, 9, 0])), ⟨⟨by decide, by decide⟩, by decide, by
      decide, by decide, by decide⟩⟩⟩

theorem test_hyps_ShutterMailbox :
    (∃ (s : State) (p : Port) (c : Cmd) (l : ListParts), s.dev.serving p opObjectList c ∧ 1 ≤ byteAt c.payload 3 ∧ byteAt
      c.payload 3 ≤ 32 ∧ byteAt c.payload 2 < byteAt c.payload 3 ∧ s.dev.takePart p c.payload = some l ∧ l.next < l.parts) ∧
    (∃ (s : State) (p : Port) (c : Cmd), s.dev.serving p opObjectList c ∧ 1 ≤ byteAt c.payload 3 ∧ byteAt c.payload 3 ≤ 32 ∧
      byteAt c.payload 2 < byteAt c.payload 3 ∧ s.dev.takePart p c.payload = none) ∧
    (∃ (s : State) (p : Port) (c : Cmd) (l : ListParts), s.dev.serving p opObjectList c ∧ 1 ≤ byteAt c.payload 3 ∧ byteAt
      c.payload 3 ≤ 32 ∧ byteAt c.payload 2 < byteAt c.payload 3 ∧ s.dev.takePart p c.payload = some l ∧ l.parts ≤ l.next ∧
      s.dev.listReason l.data = 0) ∧
    (∃ (s : State) (p : Port) (c : Cmd), s.dev.serving p opGeometry c ∧ s.dev.geometryOk c.payload = true) :=
  ⟨⟨(run (asks .spi opObjectList ([5, 0, 0, 32, 1, 2]) .queued (at_ .standby))), .spi, (cmd opObjectList ([5, 0, 0, 32, 1, 2])),
    _, ⟨⟨by decide, by decide⟩, by decide, by decide, by decide, rfl, by decide⟩⟩,
    ⟨(run (asks .spi opObjectList ([5, 0, 1, 2]) .queued (at_ .standby))), .spi, (cmd opObjectList ([5, 0, 1, 2])), ⟨⟨by decide,
      by decide⟩, by decide, by decide, by decide, by decide⟩⟩,
    ⟨(run (asks .spi opObjectList ([5, 0, 0, 1] ++ leBytes 8 999990 ++ [0, 0, 0, 0, 0, 0, 0, 0]) .queued (at_ .standby))), .spi,
      (cmd opObjectList ([5, 0, 0, 1] ++ leBytes 8 999990 ++ [0, 0, 0, 0, 0, 0, 0, 0])), _, ⟨⟨by decide, by decide⟩, by decide,
      by decide, by decide, rfl, by decide, by decide⟩⟩,
    ⟨(run (asks .spi opGeometry (goodGeometry) .queued (at_ .standby))), .spi, (cmd opGeometry (goodGeometry)), ⟨⟨by decide, by
      decide⟩, by decide⟩⟩⟩

theorem test_hyps_JournalAndCalCommands :
    (∃ (s : State) (p : Port) (c : Cmd), ∃ (e : Dev), s.dev.serving p opJournalSeal c ∧ s.dev.jnl.flushing = true ∧ e =
      s.dev.sealSegment 1) ∧
    (∃ (s : State) (p : Port) (e tag : Nat) (rest : List (Nat × Port × Nat)), s.dev.jnl.seals = (e, p, tag) :: rest ∧
      s.dev.tagOpen p tag = true) ∧
    (∃ (s : State) (p : Port) (c : Cmd), s.dev.serving p opCalRun c ∧ byteAt c.payload 0 % 8 ≠ 0 ∧ (byteAt c.payload 1).testBit
      0 = false ∧ (∀ i < 3, (BitVec.ofNat 3 (byteAt c.payload 0)).getLsbD i = true → (s.dev.thm.tDie - s.dev.cal.lastRunT.getD i
      0).natAbs ≤ 10 * s.dev.par kCalCalDeltaT 0)) ∧
    (∃ (s : State) (p : Port) (c : Cmd), s.dev.serving p opCalRun c ∧ byteAt c.payload 0 % 8 ≠ 0 ∧ (byteAt c.payload 1).testBit
      0 = true ∧ s.dev.cal.run.isSome = true ∧ s.dev.cal.queuedRun = none) ∧
    (∃ (s : State) (p : Port) (c : Cmd), s.dev.serving p opCalRun c ∧ byteAt c.payload 0 % 8 ≠ 0 ∧ (byteAt c.payload 1).testBit
      0 = true ∧ s.dev.cal.run.isSome = true ∧ s.dev.cal.queuedRun ≠ none) :=
  ⟨⟨(run (asks .spi opJournalSeal ([]) .queued
    ({ at_ .standby with jnl := { Journal.reset with isOpen := true, flushing := true } }))), .spi, (cmd opJournalSeal ([])), _,
      ⟨⟨by decide, by decide⟩, by decide, rfl⟩⟩,
    ⟨(run { (asks .spi opJournalSeal [] .waiting (at_ .standby)) with jnl := { Journal.reset with seals := [(4, .spi, 7)] } }),
      .spi, 4, 7, [], by decide⟩,
    ⟨(run (asks .spi opCalRun ([7, 0]) .queued (at_ .standby))), .spi, (cmd opCalRun ([7, 0])), ⟨⟨by decide, by decide⟩, by
      decide, by decide, by decide⟩⟩,
    ⟨(run (asks .spi opCalRun ([1, 1]) .queued ({ at_ .standby with cal := { Cal.reset with run := some calRun } }))), .spi,
      (cmd opCalRun ([1, 1])), ⟨⟨by decide, by decide⟩, by decide, by decide, by decide, by decide⟩⟩,
    ⟨(run (asks .spi opCalRun ([1, 1]) .queued
      ({ at_ .standby with cal := { Cal.reset with run := some calRun, queuedRun := some (1, .spi, 2) } }))), .spi, (cmd
      opCalRun ([1, 1])), ⟨⟨by decide, by decide⟩, by decide, by decide, by decide, by decide⟩⟩⟩

theorem test_hyps_FirmwareUpdate :
    (∃ (s : State) (p : Port) (c : Cmd), ∃ (e : Dev), s.dev.serving p opFwBegin c ∧ leField c.payload 0 4 ≤ 0x200000 ∧ leField
      c.payload 0 4 % 4 = 0 ∧ s.dev.updating = false ∧ (s.dev.core.acornService = true ∨ s.dev.speedZero = true) ∧ (e =
      s.dev.writeDir (fun r => r.setValid s.dev.updateTarget false)) ∧ (e.ticketHeld (.erase .image) = true ∨ e.ticketQueued
      (.erase .image) = true ∨ e.deniedAtOnce (e.slReq (.erase .image)) = false)) ∧
    (∃ (s : State) (p : Port) (c : Cmd), s.dev.Inv ∧ s.dev.serving p opFwData c ∧ leField c.payload 0 4 % 4 = 0 ∧ leField
      c.payload 0 4 + (c.payload.drop 4).length ≤ s.dev.upd.size ∧ s.dev.upd.session = some p) ∧
    (∃ (s : State) (p : Port) (c : Cmd), s.dev.serving p opFwData c ∧ leField c.payload 0 4 % 4 = 0 ∧ leField c.payload 0 4 +
      (c.payload.drop 4).length ≤ s.dev.upd.size ∧ s.dev.upd.session = some p) ∧
    (∃ (s : State) (p : Port) (c : Cmd) (b : Bool), s.dev.serving p opFwData c ∧ leField c.payload 0 4 % 4 = 0 ∧
      s.dev.upd.session ≠ some p) ∧
    (∃ (s : State) (p : Port) (c : Cmd), s.dev.serving p opFwCommit c ∧ s.dev.upd.session = some p ∧ s.dev.imageCheck
      s.dev.upd.target ≠ 0) ∧
    (∃ (s : State) (p : Port) (c : Cmd), s.dev.serving p opFwCommit c ∧ s.dev.upd.session ≠ some p) :=
  ⟨⟨(run (asks .spi opFwBegin ([0, 0, 32, 0]) .queued (motion (at_ .standby)))), .spi, (cmd opFwBegin ([0, 0, 32, 0])), _, ⟨⟨by
    decide, by decide⟩, by decide, by decide, by decide, by decide, rfl, by decide⟩⟩,
    ⟨(run (asks .spi opFwData ([0, 0, 0, 0] ++ List.replicate 8 0xA5) .queued
      ({ at_ .standby with upd := { Update.reset with session := some .spi, size := 0x1000 } }))), .spi, (cmd opFwData ([0, 0,
      0, 0] ++ List.replicate 8 0xA5)), ⟨meets_inv rfl (by decide), ⟨by decide, by decide⟩, by decide, by decide, by decide⟩⟩,
    ⟨(run (asks .spi opFwData ([0, 0, 0, 0] ++ List.replicate 8 0xA5) .queued
      ({ at_ .standby with upd := { Update.reset with session := some .spi, size := 0x1000 } }))), .spi, (cmd opFwData ([0, 0,
      0, 0] ++ List.replicate 8 0xA5)), ⟨⟨by decide, by decide⟩, by decide, by decide, by decide⟩⟩,
    ⟨(run (asks .spi opFwData ([0, 0, 0, 0] ++ List.replicate 8 0xA5) .queued (at_ .standby))), .spi, (cmd opFwData ([0, 0, 0,
      0] ++ List.replicate 8 0xA5)), true, ⟨⟨by decide, by decide⟩, by decide, by decide⟩⟩,
    ⟨(run (asks .spi opFwCommit ([0, 0, 0, 0]) .queued
      ({ at_ .standby with upd := { Update.reset with session := some .spi, size := 0x1000 } }))), .spi, (cmd opFwCommit ([0, 0,
      0, 0])), ⟨⟨by decide, by decide⟩, by decide, by decide⟩⟩,
    ⟨(run (asks .spi opFwCommit ([0, 0, 0, 0]) .queued (at_ .standby))), .spi, (cmd opFwCommit ([0, 0, 0, 0])), ⟨⟨by decide, by
      decide⟩, by decide⟩⟩⟩

theorem test_hyps_PatternLibrary :
    (∃ (s : State) (p : Port) (c : Cmd) (i v : Nat), s.dev.servingAct p .patErase c i v ∧ (s.dev.ticketHeld (.erase .pattern) =
      true ∨ s.dev.ticketQueued (.erase .pattern) = true ∨ s.dev.deniedAtOnce (s.dev.slReq (.erase .pattern)) = false)) ∧
    (∃ (s : State) (p : Port) (c : Cmd) (i v : Nat), s.dev.servingAct p .patInvalidate c i v) :=
  ⟨⟨(run (asks .spi opSetParam (ctrl kPlcPatCtrl 0x100) .queued (at_ .standby))), .spi, (cmd opSetParam (ctrl kPlcPatCtrl
    0x100)), 0, 0x100, ⟨acts (by decide), by decide⟩⟩,
    ⟨(run (asks .spi opSetParam (ctrl kPlcPatCtrl 0x400) .queued (at_ .standby))), .spi, (cmd opSetParam (ctrl kPlcPatCtrl
      0x400)), 0, 0x400, acts (by decide)⟩⟩

/-- An image of two rows of 4096 pixels waits for its check; PAT_CRC holds `n`. -/
def library (n : Nat) : Dev :=
  { asks .spi opSetParam (ctrl kPlcPatCtrl 0x300) .queued (at_ .standby) with
    prm := { Dev.cold.prm with vals := [(kPlcPatCrc, (n : Int))] } }

set_option maxRecDepth 200000 in
theorem library_serves (n : Nat) : (library n).servingAct .spi .patVerify (cmd opSetParam (ctrl kPlcPatCtrl 0x300)) 0 0x300 :=
  acts rfl

theorem library_verifies (n : Nat) : ∃ (s : State) (p : Port) (c : Cmd) (i v : Nat), s.dev.servingAct p .patVerify c i v ∧
    s.dev.patBytes (patSide v) (patIndex v) = (library 0).patBytes 0 0 ∧ s.dev.par kPlcPatCrc 0 = n :=
  ⟨run (library n), .spi, _, 0, 0x300, library_serves n, rfl, rfl⟩

theorem test_hyps_PatternLibrary_verify :
    (∃ (s : State) (p : Port) (c : Cmd) (i v : Nat), s.dev.servingAct p .patVerify c i v ∧
      crc32 (s.dev.patBytes (patSide v) (patIndex v)) = BitVec.ofNat 32 (s.dev.par kPlcPatCrc 0)) ∧
    (∃ (s : State) (p : Port) (c : Cmd) (i v : Nat), s.dev.servingAct p .patVerify c i v ∧
      crc32 (s.dev.patBytes (patSide v) (patIndex v)) ≠ BitVec.ofNat 32 (s.dev.par kPlcPatCrc 0)) := by
  generalize e : crc32 ((library 0).patBytes 0 0) = x
  obtain ⟨s, p, c, i, v, h1, h2, h3⟩ := library_verifies x.toNat
  obtain ⟨s', p', c', i', v', k1, k2, k3⟩ := library_verifies (x.toNat + 1)
  refine ⟨⟨s, p, c, i, v, h1, ?_⟩, ⟨s', p', c', i', v', k1, ?_⟩⟩
  · rw [h2, h3, e]; simp
  · rw [k2, k3, e]
    intro h
    have k := congrArg BitVec.toNat h
    simp only [BitVec.toNat_ofNat] at k
    have := x.isLt
    omega

/-- PAT_STAGE holds a block, and no byte of the library has been programmed. -/
theorem test_hyps_PatternLibrary_program :
    ∃ (s : State) (p : Port) (c : Cmd) (i v : Nat), s.dev.Inv ∧ s.dev.servingAct p .patProgram c i v ∧
      4096 * bitsOf v 16 16 + 4096 ≤ imageBytes s.dev.nor.patGeom ∧ (s.dev.arr kPlcPatStage 0).length = 4096 ∧
      ∀ k < 4096, norByte s.dev.nor.cells (patOffset (patSide v) (patIndex v) + 4096 * bitsOf v 16 16 + k) = 0xFF := by
  let d := { asks .spi opSetParam (ctrl kPlcPatCtrl 0x200) .queued (at_ .standby) with
    prm := { Dev.cold.prm with arrays := [(kPlcPatStage, List.replicate 4096 0xA5)] } }
  exact ⟨run d, .spi, cmd opSetParam (ctrl kPlcPatCtrl 0x200), 0, 0x200, meets_inv rfl (by decide), acts (by decide), by decide,
    List.length_replicate, fun _ _ => rfl⟩


theorem test_hyps_FaultCommands :
    (∃ (s : State) (p : Port) (c : Cmd) (i v : Nat) (f : ActiveFault), s.dev.servingAct p .faultClear c i v ∧ s.dev.clears v =
      [f] ∧ (s.dev.core.state = .beam ∨ s.dev.core.state = .degraded)) ∧
    (∃ (s : State) (p : Port) (c : Cmd) (i v : Nat), s.dev.servingAct p .faultClear c i v ∧ s.dev.clears v = []) ∧
    (∃ (s : State) (p : Port) (c : Cmd) (i v : Nat) (r : Reaction), s.dev.servingAct p .reactionSet c i v ∧ r.code = bitsOf v 16
      2) ∧
    (∃ (s : State) (p : Port) (c : Cmd) (i v : Nat), s.dev.servingAct p .snapRelease c i v) :=
  ⟨⟨(run (asks .spi opSetParam (ctrl kSafFaultClear 0x000C01) .queued
    ({ at_ .beam with saf := { Saf.reset with active := [⟨0x0C01, 0, 0, .rec_, 0, 0, 0, true⟩] } }))), .spi, (cmd opSetParam
      (ctrl kSafFaultClear 0x000C01)), 0, 0x000C01, ⟨0x0C01, 0, 0, .rec_, 0, 0, 0, true⟩, ⟨acts (by decide), by decide, by
      decide⟩⟩,
    ⟨(run (asks .spi opSetParam (ctrl kSafFaultClear 0xFFFF) .queued (at_ .standby))), .spi, (cmd opSetParam (ctrl
      kSafFaultClear 0xFFFF)), 0, 0xFFFF, ⟨acts (by decide), by decide⟩⟩,
    ⟨(run (asks .spi opSetParam (ctrl kSafReactionSet 0x00304) .queued (at_ .standby))), .spi, (cmd opSetParam (ctrl
      kSafReactionSet 0x00304)), 0, 0x00304, .rec_, ⟨acts (by decide), by decide⟩⟩,
    ⟨(run (asks .spi opSetParam (ctrl8 kSafSnapRelease 1) .queued (at_ .standby))), .spi, (cmd opSetParam (ctrl8 kSafSnapRelease
      1)), 0, 1, acts (by decide)⟩⟩

theorem test_hyps_Retrain :
    (∃ (s : State) (p : Port) (c : Cmd) (i v : Nat), s.dev.servingAct p .retrain1 c i v ∧ ((s.dev.link (retrainLink c)).state =
      .l0 ∨ (s.dev.link (retrainLink c)).state = .l1)) ∧
    (∃ (s : State) (p : Port) (c : Cmd) (i v : Nat), s.dev.servingAct p .retrain1 c i v ∧ (s.dev.link (retrainLink c)).state ≠
      .l0 ∧ (s.dev.link (retrainLink c)).state ≠ .l1) ∧
    (∃ (s : State) (p : Port) (c : Cmd) (i v : Nat), s.dev.servingAct p .retrain2 c i v ∧ (s.dev.link (retrainLink c)).state ≠
      .disabled ∧ (s.dev.link (retrainLink c)).state ≠ .l2) ∧
    (∃ (s : State) (p : Port) (c : Cmd) (i v : Nat), s.dev.servingAct p .retrain2 c i v ∧ ((s.dev.link (retrainLink c)).state =
      .disabled ∨ (s.dev.link (retrainLink c)).state = .l2)) :=
  ⟨⟨(run (asks .spi opSetParam (ctrl8 kLnkRetrain 1) .queued (((at_ .standby).modLink .lnk0 fun k =>
    { k with state := .l0 })))), .spi, (cmd opSetParam (ctrl8 kLnkRetrain 1)), 0, 1, ⟨acts (by decide), by decide⟩⟩,
    ⟨(run (asks .spi opSetParam (ctrl8 kLnkRetrain 1) .queued (at_ .standby))), .spi, (cmd opSetParam (ctrl8 kLnkRetrain 1)), 0,
      1, ⟨acts (by decide), by decide, by decide⟩⟩,
    ⟨(run (asks .spi opSetParam (ctrl8 kLnkRetrain 2) .queued (((at_ .standby).modLink .lnk0 fun k =>
      { k with state := .l0 })))), .spi, (cmd opSetParam (ctrl8 kLnkRetrain 2)), 0, 2, ⟨acts (by decide), by decide, by decide⟩⟩,
    ⟨(run (asks .spi opSetParam (ctrl8 kLnkRetrain 2) .queued (at_ .standby))), .spi, (cmd opSetParam (ctrl8 kLnkRetrain 2)), 0,
      2, ⟨acts (by decide), by decide⟩⟩⟩

theorem test_hyps_CanMailbox :
    (∃ (s : State) (seg : Byte) (body : List Byte), s.dev.canActive = true ∧ seg.toNat.testBit 0 = true ∧ seg.toNat.testBit 1 =
      false) ∧
    (∃ (s : State) (seg : Byte) (body : List Byte) (m : CanRx), s.dev.canActive = true ∧ seg.toNat.testBit 0 = false ∧
      seg.toNat.testBit 1 = false ∧ s.dev.host.canRx = some m) ∧
    (∃ (s : State) (seg : Byte) (body : List Byte), seg.toNat.testBit 0 = false ∧ s.dev.host.canRx = none) ∧
    (∃ (s : State) (seg : Byte) (body : List Byte) (c : Cmd), s.dev.host.ports.length = 5 ∧ s.dev.serves .can = true ∧
      seg.toNat.testBit 0 = true ∧ seg.toNat.testBit 1 = true ∧ body.length ≤ 63 ∧ 8 ≤ body.length ∧ c = cmdOf (leField body 0
      8) (body.drop 8) ∧ 8 + c.len ≤ body.length ∧ s.dev.cacheHit .can { c with payload := c.payload.take c.len } = none ∧
      (s.dev.port .can).opens.length < 4 ∧ s.dev.tagOpen .can c.tag = false ∧ s.dev.admissionCheck .can
      { c with payload := c.payload.take c.len } true = none) ∧
    (∃ (s : State), s.dev.host.canStaged = []) :=
  ⟨⟨(run (at_ .standby)), 1, [], by decide⟩,
    ⟨(run { at_ .standby with host := { HostUnit.reset with canRx := some ⟨[], 1, true⟩ } }), 0, [], ⟨[], 1, true⟩, by decide⟩,
    ⟨(run (at_ .standby)), 0, [], by decide⟩,
    ⟨(run (at_ .standby)), 3, [1, 0, 7, 0, 0, 0, 0, 0], _, ⟨by decide, by decide, by decide, by decide, by decide, by decide,
      rfl, by decide, by decide, by decide, by decide, by decide⟩⟩,
    ⟨(run (at_ .standby)), by decide⟩⟩

theorem test_hyps_VehicleSignals :
    (∃ (s : State) (b : List Byte), s.dev.canActive = true ∧ vehValid b 8 1 s.dev.veh.beamCnt = true ∧ byteAt b 0 % 8 ≤ 3) ∧
    (∃ (s : State) (b : List Byte), (vehValid b 8 1 s.dev.veh.beamCnt = false ∨ 3 < byteAt b 0 % 8)) ∧
    (∃ (s : State) (b : List Byte), s.dev.canActive = true ∧ vehValid b 16 8 s.dev.veh.motionCnt = true) ∧
    (∃ (s : State) (b : List Byte), vehValid b 16 8 s.dev.veh.motionCnt = false) ∧
    (∃ (s : State) (b : List Byte) (sof : Nat), s.dev.canActive = true ∧ s.dev.par kHostTimeSource 0 = 1 ∧ vehValid b 16 8
      s.dev.veh.timeCnt = true ∧ s.dev.veh.timeCnt ≠ some ((byteAt b 8 % 16 + 15) % 16)) ∧
    (∃ (s : State) (b : List Byte) (sof : Nat), ∃ (diff : Int), s.dev.canActive = true ∧ s.dev.par kHostTimeSource 0 = 1 ∧
      vehValid b 16 8 s.dev.veh.timeCnt = true ∧ s.dev.veh.timeCnt = some ((byteAt b 8 % 16 + 15) % 16) ∧ diff = (leField b 0 8
      : Int) + nsTicks (s.dev.par kHostCanTimeDelay 0) - s.dev.veh.timeLatch) ∧
    (∃ (s : State) (b : List Byte) (sof : Nat), (s.dev.par kHostTimeSource 0 ≠ 1 ∨ vehValid b 16 8 s.dev.veh.timeCnt = false)) :=
  ⟨⟨(run (at_ .standby)), (crcEnd [3, 1, 0, 0, 0, 0, 0]), by decide⟩,
    ⟨(run (at_ .standby)), [], by decide⟩,
    ⟨(run (at_ .standby)), (crcEnd (List.replicate 15 0)), by decide⟩,
    ⟨(run (at_ .standby)), [], by decide⟩,
    ⟨(run { (at_ .standby).putVal kHostTimeSource 1 with veh := { Veh.reset with timeCnt := some 5 } }), (crcEnd (List.replicate
      15 0)), 0, by decide⟩,
    ⟨(run { (at_ .standby).putVal kHostTimeSource 1 with veh := { Veh.reset with timeCnt := some 15 } }), (crcEnd
      (List.replicate 15 0)), 0, _, ⟨by decide, by decide, by decide, by decide, rfl⟩⟩,
    ⟨(run (at_ .standby)), [], 0, by decide⟩⟩

theorem test_hyps_CanLoss :
    (∃ (s : State) (beam motion : Bool), ∃ (lb lm : Bool), s.dev.canActive = true ∧ lb = (beam && decide (s.dev.veh.beamTime +
      msTicks (s.dev.par kHostVehTimeout 0) ≤ s.dev.now)) ∧ lm = (motion && decide (s.dev.veh.motionTime + msTicks (s.dev.par
      kHostVehTimeout 0) ≤ s.dev.now)) ∧ ((lb = true ∧ s.dev.veh.beamLost = false) ∨ (lm = true ∧ s.dev.veh.motionLost =
      false))) ∧
    (∃ (s : State) (beam motion : Bool), (beam = true → s.dev.veh.beamLost = true ∨ s.dev.now < s.dev.veh.beamTime + msTicks
      (s.dev.par kHostVehTimeout 0)) ∧ (motion = true → s.dev.veh.motionLost = true ∨ s.dev.now < s.dev.veh.motionTime + msTicks
      (s.dev.par kHostVehTimeout 0))) ∧
    (∃ (s : State), s.dev.Inv ∧ s.dev.canActive = true) :=
  ⟨⟨(run { at_ .standby with clk := { Clk.reset with timeBase := 1000000000 } }), true, false, _, _, ⟨by decide, rfl, rfl, by
    decide⟩⟩,
    ⟨(run { at_ .standby with veh := { Veh.reset with beamLost := true } }), true, false, by decide⟩,
    ⟨(run (at_ .standby)), ⟨meets_inv rfl (by decide), by decide⟩⟩⟩

theorem test_hyps_SlotTimeline :
    (∃ (s : State) (e : Nat), ∃ (l r : List Nat) (m : List (Side × Nat)) (bad : Bool), s.dev.timelineRuns = true ∧
      s.dev.nextEntry = some e) ∧
    (∃ (s : State), ∃ (l r : List Nat) (m : List (Side × Nat)) (bad : Bool), s.dev.timelineRuns = true ∧ s.dev.nextEntry = none) ∧
    (∃ (s : State), s.dev.timelineRuns = true ∧ s.dev.lateWord = true) ∧
    (∃ (s : State), s.dev.timelineRuns = true ∧ s.dev.lateWord = false) ∧
    (∃ (s : State), s.dev.timelineRuns = true ∧ s.dev.seq.resetDue = true) ∧
    (∃ (s : State), s.dev.seq.resetDue = false) :=
  ⟨⟨(run { at_ .beam with seq := { Seq.reset with started := true } }), 1, [23999], [0, 1], [(.R, 5999)], true, by decide⟩,
    ⟨(run { at_ .beam with seq := { Seq.reset with started := true, boundaryOpen := true, frameDue := true } }), [], [], [],
      false, by decide⟩,
    ⟨(run { at_ .beam with seq := { Seq.reset with wordMissed := true }, clk := Clk.reset }), by decide⟩,
    ⟨(run { at_ .beam with seq := { Seq.reset with started := true } }), by decide⟩,
    ⟨(run { at_ .beam with seq := { Seq.reset with started := true, resetDue := true } }), by decide⟩,
    ⟨(run (at_ .standby)), by decide⟩⟩

theorem test_hyps_RefreshBoundary :
    (∃ (s : State), s.dev.timelineRuns = true ∧ (s.dev.core.state = .beam ∨ s.dev.core.state = .degraded) ∧
      s.dev.core.rampingDown = false ∧ s.dev.seq.change = .none_) ∧
    (∃ (s : State), s.dev.timelineRuns = false) :=
  ⟨⟨(run { at_ .beam with seq := { Seq.reset with started := true } }), by decide⟩,
    ⟨(run (at_ .boot)), by decide⟩⟩

theorem test_hyps_GovernorTicks :
    (∃ (s : State) (x : Samples), s.dev.govRuns = true) ∧
    (∃ (s : State) (x : Samples), s.dev.govRuns = false) ∧
    (∃ (s : State) (n : Nat), s.dev.slotPresent n = true ∧ (s.dev.slot n).st = .run ∧ s.dev.par kGovMissLimit 0 ≤ (s.dev.slot
      n).misses) ∧
    (∃ (s : State) (n : Nat), ((s.dev.slot n).st ≠ .run ∨ (s.dev.slot n).misses < s.dev.par kGovMissLimit 0)) ∧
    (∃ (s : State) (n : Nat), s.dev.slotPresent n = true ∧ (s.dev.slot n).st = .run ∧ s.dev.lampDecided n = false ∧ 4 ≤
      (s.dev.slot n).outRange) ∧
    (∃ (s : State) (n : Nat), s.dev.slotPresent n = true ∧ (s.dev.slot n).st = .run ∧ s.dev.lampDecided n = false ∧ s.dev.frozen
      n = true) ∧
    (∃ (s : State) (opens shorts : List Bool), s.dev.Inv ∧ s.dev.inDiagWindow = true ∧ s.dev.cal.run = none ∧ (∀ c ∈
      s.dev.pulsed, opens.getD c false = false ∧ shorts.getD c false = false)) :=
  ⟨⟨(run (at_ .standby)), noSamples, by decide⟩,
    ⟨(run Dev.cold), noSamples, by decide⟩,
    ⟨(run ((at_ .standby).modSlot 12 fun x => { x with st := .run, misses := 0xFFFF, outRange := 4 })), 12, by decide⟩,
    ⟨(run ((at_ .standby).modSlot 12 fun x => { x with st := .run, misses := 0, outRange := 4 })), 12, by decide⟩,
    ⟨(run ((at_ .standby).modSlot 12 fun x => { x with st := .run, misses := 0xFFFF, outRange := 4 })), 12, by decide⟩,
    ⟨(run ((at_ .standby).modSlot 12 fun x =>
      { x with st := .run, win := (List.range 64).map fun k => ((0 : Int), (100000000 * k : Int)) })), 12, by decide⟩,
    ⟨(run { mode 1 (at_ .beam) with seq := { Seq.reset with displayed := 31, resetAt := 1000000 - 1200 } }), (List.replicate 12
      true), [], ⟨meets_inv rfl (by decide), by decide, by decide, by decide⟩⟩⟩

theorem test_hyps_SafeStateCompletes :
    (∃ (s : State) (t : DevState) (cause : Nat), ∃ (a : Nat) (b : Nat), s.dev.saf.safePending = some (t, cause, a, b) ∧ t ≠
      .safe ∧ s.dev.cal.run = none ∧ (∀ k ∈ s.dev.sides, s.dev.saf.safeSides.get k = true → (s.dev.mport k).parkDone s.dev.now =
      true)) ∧
    (∃ (s : State) (cause : Nat), ∃ (a : Nat) (b : Nat), s.dev.saf.safePending = some (.safe, cause, a, b) ∧
      s.dev.sideOrDevActive = true ∧ s.dev.cal.run = none ∧ (∀ m p g x y, s.dev.seq.change ≠ .bridging m p g x y) ∧ (∀ k ∈
      s.dev.sides, s.dev.saf.safeSides.get k = true → (s.dev.mport k).parkDone s.dev.now = true)) ∧
    (∃ (s : State), (s.dev.saf.safePending = none ∨ (∃ k ∈ s.dev.sides, s.dev.saf.safeSides.get k = true ∧ (s.dev.mport
      k).parkDone s.dev.now = false))) :=
  ⟨⟨(run { at_ .beam with saf := { Saf.reset with safePending := some (.degraded, 0x0701, 0, 0), safeSides := ⟨true, true⟩ } }),
    .degraded, 0x0701, 0, 0, by decide⟩,
    ⟨(run
      { at_ .beam with saf := { Saf.reset with safePending := some (.safe, 0x0701, 0, 0), safeSides := ⟨true, true⟩, active := [⟨0x0701, 0, 0, .dev, 0, 0, 0, true⟩] } }),
      0x0701, 0, 0, ⟨by decide, by decide, by decide, (fun _ _ _ _ _ h => nomatch h), by decide⟩⟩,
    ⟨(run (array .ready
      { at_ .beam with saf := { Saf.reset with safePending := some (.safe, 0x0701, 0, 0), safeSides := ⟨true, true⟩ } })), by
      decide⟩⟩

theorem test_hyps_LinkBringUp :
    (∃ (s : State) (l : LinkId), s.dev.linkIds.contains l = true ∧ (s.dev.link l).state = .detect) ∧
    (∃ (s : State) (l : LinkId), s.dev.linkIds.contains l = true ∧ (s.dev.link l).state = .lock ∧ (s.dev.link l).waitTicket =
      false) ∧
    (∃ (s : State) (l : LinkId), s.dev.linkIds.contains l = true ∧ (s.dev.link l).state = .lock ∧ (s.dev.link l).waitTicket =
      false) ∧
    (∃ (s : State) (l : LinkId) (pam : List PamEyes) (eyes : List Eye), s.dev.linkIds.contains l = true ∧ (s.dev.link l).state =
      .eye ∧ eyes = pam.map smallestEye) ∧
    (∃ (s : State) (l : LinkId), s.dev.linkIds.contains l = true ∧ (s.dev.link l).state = .step) ∧
    (∃ (s : State) (l : LinkId), s.dev.linkIds.contains l = true ∧ (s.dev.link l).state = .down) ∧
    (∃ (s : State) (l : LinkId), s.dev.linkIds.contains l = true ∧ (s.dev.link l).waitTicket = true ∧ s.dev.ticketHeld (.link l)
      = true) ∧
    (∃ (s : State) (l : LinkId), s.dev.linkIds.contains l = true ∧ (s.dev.link l).waitTicket = true ∧ s.dev.ticketHeld (.link l)
      = false ∧ s.dev.ticketQueued (.link l) = false ∧ (s.dev.link l).state = .lock) :=
  ⟨⟨(run ((at_ .standby).modLink .lnk0 fun k => { k with state := .detect })), .lnk0, by decide⟩,
    ⟨(run ((at_ .standby).modLink .lnk0 fun k => { k with state := .lock })), .lnk0, by decide⟩,
    ⟨(run ((at_ .standby).modLink .lnk0 fun k => { k with state := .lock })), .lnk0, by decide⟩,
    ⟨(run ((at_ .standby).modLink .lnk0 fun k => { k with state := .eye, rate := 2 })), .lnk0, [], _, ⟨by decide, by decide,
      rfl⟩⟩,
    ⟨(run ((at_ .standby).modLink .lnk0 fun k => { k with state := .step })), .lnk0, by decide⟩,
    ⟨(run ((at_ .standby).modLink .lnk0 fun k => { k with state := .down })), .lnk0, by decide⟩,
    ⟨(run
      { ((at_ .standby).modLink .lnk0 fun k => { k with state := .l0, waitTicket := true }) with sluice := { held := [(.link .lnk0, 0, 0, 0)], queued := [] } }),
      .lnk0, by decide⟩,
    ⟨(run ((at_ .standby).modLink .lnk0 fun k => { k with state := .lock, waitTicket := true })), .lnk0, by decide⟩⟩

theorem test_hyps_LinkTraining :
    (∃ (s : State) (l : LinkId) (phys : Nat) (ts : TrainingSet), s.dev.linkIds.contains l = true ∧ (s.dev.link l).state = .train
      ∧ phys < 5 ∧ (s.dev.link l).failed.getD phys false = false ∧ ts.lane ≠ phys) ∧
    (∃ (s : State) (l : LinkId) (phys : Nat) (ts : TrainingSet), s.dev.Inv ∧ s.dev.linkIds.contains l = true ∧ (s.dev.link
      l).state = .train ∧ phys < 5 ∧ (s.dev.link l).failed.getD phys false = false ∧ ts.lane = phys ∧ (s.dev.link
      l).tapReqs.getD phys none = none) ∧
    (∃ (s : State) (l : LinkId) (phys : Nat) (ts : TrainingSet) (r : TapReq), s.dev.linkIds.contains l = true ∧ (s.dev.link
      l).state = .train ∧ phys < 5 ∧ (s.dev.link l).failed.getD phys false = false ∧ ts.lane = phys ∧ (s.dev.link
      l).tapReqs.getD phys none = some r ∧ r.matched = false ∧ ts.ackSeq = r.seq ∧ r.count < 8 ∧ s.dev.par (lkey kLnkEqMode l) 0
      ≠ 1) ∧
    (∃ (s : State) (l : LinkId) (phys : Nat) (r : TapReq), s.dev.linkIds.contains l = true ∧ (s.dev.link l).state = .train ∧
      (s.dev.link l).tapReqs.getD phys none = some r ∧ r.matched = false) ∧
    (∃ (s : State) (l : LinkId) (eyes : List Eye) (ts2 : List TrainingSet), s.dev.linkIds.contains l = true ∧ (s.dev.link
      l).state = .train ∧ (∀ i < 5, s.dev.eyePasses l (eyeOf eyes i) false = true) ∧ 4 ≤ s.dev.lanesPassing l eyes false ∧
      ts2Agree (s.dev.link l).map ts2 = true ∧ (s.dev.link l).replayHeld = false) ∧
    (∃ (s : State) (l : LinkId) (eyes : List Eye) (ts2 : List TrainingSet), s.dev.linkIds.contains l = true ∧ (s.dev.link
      l).state = .train ∧ s.dev.lanesPassing l eyes false < 4) ∧
    (∃ (s : State) (l : LinkId) (eyes : List Eye) (ts2 : List TrainingSet), (s.dev.link l).state ≠ .train) ∧
    (∃ (s : State) (l : LinkId), s.dev.linkIds.contains l = true ∧ (s.dev.link l).state = .train) :=
  ⟨⟨(run ((at_ .standby).modLink .lnk0 fun k => { k with state := .train })), .lnk0, 4, (ts_ 3), by decide⟩,
    ⟨(run ((at_ .standby).modLink .lnk0 fun k => { k with state := .train })), .lnk0, 4, (ts_ 4), ⟨meets_inv rfl (by decide), by
      decide, by decide, by decide, by decide, by decide, by decide⟩⟩,
    ⟨(run ((at_ .standby).modLink .lnk0 fun k =>
      { k with state := .train, tapReqs := [some ⟨0, 0, 1, 0, false⟩, none, none, none, none] })), .lnk0, 0, (ts_ 0), ⟨0, 0, 1,
      0, false⟩, by decide⟩,
    ⟨(run ((at_ .standby).modLink .lnk0 fun k =>
      { k with state := .train, tapReqs := [some ⟨0, 0, 1, 0, false⟩, none, none, none, none] })), .lnk0, 0, ⟨0, 0, 1, 0,
      false⟩, by decide⟩,
    ⟨(run ((at_ .standby).modLink .lnk0 fun k => { k with state := .train })), .lnk0, (List.replicate 5 ⟨64, 255⟩), [ts_ 0, ts_
      1, ts_ 2, ts_ 3], by decide⟩,
    ⟨(run ((at_ .standby).modLink .lnk0 fun k => { k with state := .train })), .lnk0, [], [], by decide⟩,
    ⟨(run ((at_ .standby).modLink .lnk0 fun k => { k with state := .l0 })), .lnk0, [], [], by decide⟩,
    ⟨(run ((at_ .standby).modLink .lnk0 fun k => { k with state := .train })), .lnk0, by decide⟩⟩

theorem test_hyps_LinkRecovery :
    (∃ (s : State) (l : LinkId), s.dev.linkIds.contains l = true ∧ ((s.dev.link l).state = .l0 ∨ (s.dev.link l).state = .l1)) ∧
    (∃ (s : State) (l : LinkId), s.dev.linkIds.contains l = true ∧ (s.dev.link l).state = .recovery) ∧
    (∃ (s : State) (l : LinkId), s.dev.linkIds.contains l = true ∧ (s.dev.link l).state = .l0) ∧
    (∃ (s : State) (l : LinkId), s.dev.linkIds.contains l = true ∧ (s.dev.link l).state = .recovery ∧ (s.dev.link l).recPhase =
      .relock) ∧
    (∃ (s : State) (l : LinkId) (eyes : List PamEyes), s.dev.linkIds.contains l = true ∧ (s.dev.link l).state = .recovery ∧
      (s.dev.link l).recPhase = .pam4) ∧
    (∃ (s : State) (l : LinkId) (ok : Bool), s.dev.linkIds.contains l = true ∧ (s.dev.link l).state = .recovery ∧ (s.dev.link
      l).recPhase = .retrain) ∧
    (∃ (s : State) (l : LinkId), s.dev.linkIds.contains l = true ∧ (s.dev.link l).state = .recovery ∧ (s.dev.link l).recPhase =
      .relock) :=
  ⟨⟨(run ((at_ .standby).modLink .lnk0 fun k => { k with state := .l1 })), .lnk0, by decide⟩,
    ⟨(run ((at_ .standby).modLink .lnk0 fun k => { k with state := .recovery })), .lnk0, by decide⟩,
    ⟨(run ((at_ .standby).modLink .lnk0 fun k => { k with state := .l0 })), .lnk0, by decide⟩,
    ⟨(run ((at_ .standby).modLink .lnk0 fun k => { k with state := .recovery })), .lnk0, by decide⟩,
    ⟨(run ((at_ .standby).modLink .lnk0 fun k => { k with state := .recovery, recPhase := .pam4 })), .lnk0, [], by decide⟩,
    ⟨(run ((at_ .standby).modLink .lnk0 fun k => { k with state := .recovery, recPhase := .retrain })), .lnk0, true, by decide⟩,
    ⟨(run ((at_ .standby).modLink .lnk0 fun k => { k with state := .recovery })), .lnk0, by decide⟩⟩

theorem test_hyps_LaneFaults :
    (∃ (s : State) (l : LinkId) (phys : Nat) (los lol : Bool), s.dev.linkIds.contains l = true ∧ s.dev.cal.run = none ∧
      (s.dev.link l).dataReceivers = true ∧ (s.dev.link l).state ≠ .l0 ∧ phys < 5 ∧ (los || lol) = true) ∧
    (∃ (s : State) (l : LinkId) (phys : Nat), s.dev.linkIds.contains l = true ∧ (s.dev.link l).dataReceivers = true ∧ phys < 5) ∧
    (∃ (s : State) (l : LinkId) (phys rise : Nat), s.dev.linkIds.contains l = true ∧ (s.dev.link l).dataReceivers = true ∧ phys
      < 5 ∧ rise ≤ s.dev.par (lkey kLnkLaneErrLimit l) 0) ∧
    (∃ (s : State) (l : LinkId) (phys logical sp : Nat) (los lol : Bool) (rise : Nat), s.dev.linkIds.contains l = true ∧
      s.dev.cal.run = none ∧ (s.dev.link l).state = .l0 ∧ phys < 5 ∧ (s.dev.link l).failed.getD phys false = false ∧ (s.dev.link
      l).spare = some sp ∧ sp ≠ phys ∧ (s.dev.link l).map.findIdx? (· == phys) = some logical ∧ (s.dev.link l).spareUse = .idle
      ∧ (los || lol) = true ∧ (s.dev.link l).faulted.getD phys false = false ∧ s.dev.par (lkey kLnkLaneErrLimit l) 0 < rise) ∧
    (∃ (s : State) (l : LinkId) (phys : Nat) (los lol : Bool), s.dev.linkIds.contains l = true ∧ s.dev.cal.run = none ∧
      (s.dev.link l).state = .l0 ∧ phys < 5 ∧ (s.dev.link l).failed.getD phys false = false ∧ (s.dev.link l).spare = none ∧
      (s.dev.link l).map.contains phys = true ∧ (los || lol) = true ∧ (s.dev.link l).faulted.getD phys false = false) ∧
    (∃ (s : State) (l : LinkId) (ack seq n lg : Nat) (valid agrees acked : Bool), s.dev.linkIds.contains l = true ∧
      s.dev.cal.run = none ∧ s.dev.cal.interp = [] ∧ (s.dev.link l).state = .l0 ∧ (s.dev.link l).spareUse = .takeover lg acked n
      ∧ (acked = false ∨ n < 2)) ∧
    (∃ (s : State) (l : LinkId) (ack seq n lg sp : Nat) (valid agrees : Bool), s.dev.linkIds.contains l = true ∧ s.dev.cal.run =
      none ∧ s.dev.cal.interp = [] ∧ (s.dev.link l).state = .l0 ∧ (s.dev.link l).spareUse = .takeover lg true n ∧ 2 ≤ n ∧
      (s.dev.link l).spare = some sp) :=
  ⟨⟨(run ((at_ .standby).modLink .lnk0 fun k => { k with state := .train })), .lnk0, 4, true, false, by decide⟩,
    ⟨(run ((at_ .standby).modLink .lnk0 fun k => { k with state := .l0 })), .lnk0, 4, by decide⟩,
    ⟨(run ((at_ .standby).modLink .lnk0 fun k => { k with state := .l0 })), .lnk0, 4, 0, by decide⟩,
    ⟨(run ((at_ .standby).modLink .lnk0 fun k => { k with state := .l0 })), .lnk0, 3, 3, 4, true, false, 0xFFFFFFFF, by decide⟩,
    ⟨(run ((at_ .standby).modLink .lnk0 fun k => { k with state := .l0, spare := none })), .lnk0, 3, false, true, by decide⟩,
    ⟨(run ((at_ .standby).modLink .lnk0 fun k => { k with state := .l0, spareUse := .takeover 2 true 1 })), .lnk0, 1, 0, 1, 2,
      true, true, true, by decide⟩,
    ⟨(run ((at_ .standby).modLink .lnk0 fun k => { k with state := .l0, spareUse := .takeover 2 true 2 })), .lnk0, 1, 0, 2, 2,
      4, true, true, by decide⟩⟩

theorem test_hyps_LinkPowerStates :
    (∃ (s : State) (l : LinkId), s.dev.linkIds.contains l = true ∧ (s.dev.link l).state = .l0) ∧
    (∃ (s : State) (l : LinkId), s.dev.linkIds.contains l = true ∧ (s.dev.link l).state = .l0) ∧
    (∃ (s : State) (l : LinkId), s.dev.linkIds.contains l = true ∧ (s.dev.link l).state = .l1) ∧
    (∃ (s : State) (l : LinkId), s.dev.linkIds.contains l = true ∧ (s.dev.link l).state = .l2 ∧ s.dev.core.state ≠ .holdup) ∧
    (∃ (s : State) (l : LinkId), s.dev.core.state = .holdup) ∧
    (∃ (s : State) (l : LinkId), s.dev.linkIds.contains l = true ∧ (s.dev.link l).backLaneOn = true) :=
  ⟨⟨(run ((at_ .standby).modLink .lnk0 fun k => { k with state := .l0 })), .lnk0, by decide⟩,
    ⟨(run ((at_ .standby).modLink .lnk0 fun k => { k with state := .l0 })), .lnk0, by decide⟩,
    ⟨(run ((at_ .standby).modLink .lnk0 fun k => { k with state := .l1 })), .lnk0, by decide⟩,
    ⟨(run ((at_ .standby).modLink .lnk0 fun k => { k with state := .l2 })), .lnk0, by decide⟩,
    ⟨(run (at_ .holdup)), .lnk0, by decide⟩,
    ⟨(run ((at_ .standby).modLink .lnk0 fun k => { k with state := .down, backLaneOn := true })), .lnk0, by decide⟩⟩

theorem test_hyps_MaskGate :
    (∃ (d : Dev) (s e x y : Nat) (m : BitVec 4), (d.seq.masks.get s).badWords = [] ∧ (d.seq.masks.get s).front[y / 4 *
      (d.row.sideW / 4) + x / 4]? = some m) ∧
    (∃ (d : Dev) (s e x y : Nat), d.maskOn s = false) ∧
    (∃ (d : Dev) (s : Nat), (d.req.inForce ≠ 3 ∨ isTestMode d.core.mode = true ∨ (∃ m p t g b, d.seq.change = .bridging m p t g
      b) ∨ (d.seq.masks.get s).front = [])) ∧
    (∃ (e p mx my m : Nat), m ≤ 15) ∧
    (∃ (e p x y m k : Nat), m ≤ k ∧ gateOf e p x y (gateLevel m) = true) :=
  ⟨⟨((mode 1 (at_ .beam)).modMask 0 fun b => { b with front := [7] }), 0, 1, 3, 3, 7, by decide⟩,
    ⟨(at_ .standby), 0, 0, 0, 0, by decide⟩,
    ⟨(at_ .standby), 0, .inl (by decide)⟩,
    ⟨0, 0, 0, 0, 15, by decide⟩,
    ⟨0, 0, 0, 0, 15, 15, ⟨by decide, by decide⟩⟩⟩

theorem test_hyps_RollbackCounter :
    (∃ (d : Dev), d.core.trialRun = true ∧ d.aon.otpRollback < d.core.imageSvn) ∧
    (∃ (d : Dev), d.core.imageSvn ≤ d.aon.otpRollback) ∧
    (∃ (s t : State), Sys2Proof.Machine.step s = .next t) :=
  ⟨⟨{ at_ .standby with core := { (at_ .standby).core with trialRun := true, imageSvn := 1 } }, by decide⟩,
    ⟨(at_ .standby), by decide⟩,
    ⟨(run (at_ .standby)), _, rfl⟩⟩

theorem test_hyps_HuskChecks :
    (∃ (s : State) (l : LinkId) (h : RxHusk), ∃ c : Instr, c ∈ ([.lineHusk l h, .objHusk l h, .mbxHusk l h, .fenceHusk l h,
      .syncHusk l h, .ackHusk l h, .nakHusk l h] : List Instr) ∧ (s.dev.linkIds.contains l = false ∨ (s.dev.link l).receives =
      false)) ∧
    (∃ (s : State) (l : LinkId) (h : RxHusk), ∃ c : Instr, c ∈ ([.lineHusk l h, .objHusk l h, .mbxHusk l h, .fenceHusk l h,
      .syncHusk l h, .ackHusk l h, .nakHusk l h] : List Instr) ∧ s.dev.linkIds.contains l = true ∧ (s.dev.link l).receives =
      true ∧ (h.headerDamaged = true ∨ h.bytes.length < 8 ∨ leField h.bytes 6 2 ≠ (crc16 (h.bytes.take 6)).toNat)) ∧
    (∃ (s : State) (l : LinkId) (h : RxHusk), ∃ c : Instr, c ∈ ([.lineHusk l h, .objHusk l h, .mbxHusk l h, .fenceHusk l h,
      .syncHusk l h, .ackHusk l h, .nakHusk l h] : List Instr) ∧ s.dev.linkIds.contains l = true ∧ (s.dev.link l).receives =
      true ∧ h.headerDamaged = false ∧ 8 ≤ h.bytes.length ∧ leField h.bytes 6 2 = (crc16 (h.bytes.take 6)).toNat ∧ (forwardVc
      (huskHdr h.bytes).type ≠ some (huskHdr h.bytes).vc ∨ 4096 < (huskHdr h.bytes).len)) ∧
    (∃ (s : State) (l : LinkId) (h : RxHusk), ∃ c : Instr, c ∈ ([.lineHusk l h, .objHusk l h, .mbxHusk l h, .fenceHusk l h,
      .syncHusk l h, .ackHusk l h, .nakHusk l h] : List Instr) ∧ s.dev.linkIds.contains l = true ∧ (s.dev.link l).receives =
      true ∧ h.headerDamaged = false ∧ 8 ≤ h.bytes.length ∧ leField h.bytes 6 2 = (crc16 (h.bytes.take 6)).toNat ∧ forwardVc
      (huskHdr h.bytes).type = some (huskHdr h.bytes).vc ∧ (huskHdr h.bytes).len ≤ 4096 ∧ (h.bodyDamaged = true ∨
      (h.bytes.length = 12 + (huskHdr h.bytes).len ∧ leField h.bytes (8 + (huskHdr h.bytes).len) 4 ≠ (crc32 (h.bytes.take (8 +
      (huskHdr h.bytes).len))).toNat))) ∧
    (∃ (s : State) (l : LinkId) (h : RxHusk) (hd : HuskHdr) (b : Nat), ∃ (c : Instr), s.dev.linkIds.contains l = true ∧
      (s.dev.link l).receives = true ∧ s.dev.checkHusk l h = (s.dev, some hd) ∧ b = ((s.dev.link l).vc1RxNext + 256 - hd.seq) %
      256 ∧ hd.seq ≠ (s.dev.link l).vc1RxNext ∧ ((c = .mbxHusk l h ∧ hd.type = 3) ∨ (c = .fenceHusk l h ∧ hd.type = 4) ∨ (c =
      .syncHusk l h ∧ hd.type = 5))) :=
  ⟨⟨(run (at_ .standby)), .lnk0, (husk 1 0 0 (0) ([])), (.lineHusk .lnk0 (husk 1 0 0 (0) ([]))), ⟨List.mem_cons_self, by decide⟩⟩,
    ⟨(run ((at_ .standby).modLink .lnk0 fun k => { k with state := .l0 })), .lnk0, ⟨[], true, false, 1000000⟩, _,
      ⟨List.mem_cons_self, by decide, by decide, by decide⟩⟩,
    ⟨(run ((at_ .standby).modLink .lnk0 fun k => { k with state := .l0 })), .lnk0, (husk 1 2 0 0 []), _, ⟨List.mem_cons_self, by
      decide, by decide, by decide, by decide, by decide, by decide⟩⟩,
    ⟨(run ((at_ .standby).modLink .lnk0 fun k => { k with state := .l0 })), .lnk0, ⟨(husk 1 0 0 0 []).bytes, false, true,
      1000000⟩, _, ⟨List.mem_cons_self, by decide, by decide, by decide, by decide, by decide, by decide, by decide, by decide⟩⟩,
    ⟨(run ((at_ .standby).modLink .lnk0 fun k => { k with state := .l0 })), .lnk0, (husk 3 1 4 (0) ([])), (huskHdr (husk 3 1 4
      (0) ([])).bytes), 252, (.mbxHusk .lnk0 (husk 3 1 4 (0) ([]))), ⟨by decide, by decide, rfl, by decide, by decide, .inl
      ⟨rfl, by decide⟩⟩⟩⟩

theorem test_hyps_LayerAndListHusks :
    (∃ (s : State) (l : LinkId) (h : RxHusk) (hd : HuskHdr), s.dev.linkIds.contains l = true ∧ (s.dev.link l).receives = true ∧
      s.dev.checkHusk l h = (s.dev, some hd) ∧ hd.type = 1 ∧ (bitsOf hd.sub 0 3 = 0 ∨ (s.dev.layer (bitsOf hd.sub 0 3)).st ≠
      .declared)) ∧
    (∃ (s : State) (l : LinkId) (h : RxHusk) (hd : HuskHdr) (n f : Nat), s.dev.linkIds.contains l = true ∧ (s.dev.link
      l).receives = true ∧ s.dev.checkHusk l h = (s.dev, some hd) ∧ hd.type = 1 ∧ n = bitsOf hd.sub 0 3 ∧ n ≠ 0 ∧ n <
      s.dev.cmp.layers.length ∧ (s.dev.layer n).st = .declared ∧ bitsOf hd.sub 4 2 = 1 ∧ bitsOf hd.sub 6 2 < (planeSizes
      (s.dev.layer n).decl.format (s.dev.layer n).decl.srcW (s.dev.layer n).decl.srcH).length ∧ 8 ≤ hd.payload.length ∧ f =
      leField hd.payload 0 2 ∧ (s.dev.layer n).frameSt = .idle ∧ (s.dev.layer n).newFrame f = true) ∧
    (∃ (s : State) (l : LinkId) (h : RxHusk) (hd : HuskHdr) (n f : Nat), s.dev.linkIds.contains l = true ∧ (s.dev.link
      l).receives = true ∧ s.dev.checkHusk l h = (s.dev, some hd) ∧ hd.type = 1 ∧ (s.dev.cmp.dramStalled = false ∨ (s.dev.layer
      n).placement = 0) ∧ n = bitsOf hd.sub 0 3 ∧ n ≠ 0 ∧ (s.dev.layer n).st = .declared ∧ bitsOf hd.sub 4 2 = 0 ∧ 8 ≤
      hd.payload.length ∧ lineFits (s.dev.layer n).decl (bitsOf hd.sub 6 2) (leField hd.payload 2 2) (leField hd.payload 4 2)
      (leField hd.payload 6 2) (hd.payload.drop 8).length = true ∧ f = leField hd.payload 0 2 ∧ (s.dev.layer n).frameSt = .open_
      f l) ∧
    (∃ (s : State) (l : LinkId) (h : RxHusk) (hd : HuskHdr) (last : Nat), s.dev.linkIds.contains l = true ∧ (s.dev.link
      l).receives = true ∧ s.dev.checkHusk l h = (s.dev, some hd) ∧ hd.type = 2 ∧ (s.dev.link l).vc2Last = some last ∧ ((hd.seq
      + 256 - last) % 256 = 0 ∨ 127 < (hd.seq + 256 - last) % 256)) ∧
    (∃ (s : State) (l : LinkId) (h : RxHusk) (hd : HuskHdr), s.dev.linkIds.contains l = true ∧ (s.dev.link l).receives = true ∧
      s.dev.checkHusk l h = (s.dev, some hd) ∧ hd.type = 2 ∧ (∀ last, (s.dev.link l).vc2Last = some last → 1 ≤ (hd.seq + 256 -
      last) % 256 ∧ (hd.seq + 256 - last) % 256 ≤ 127)) :=
  ⟨⟨(run ((at_ .standby).modLink .lnk0 fun k => { k with state := .l0 })), .lnk0, (husk 1 0 0 (0) ([])), (huskHdr (husk 1 0 0
    (0) ([])).bytes), ⟨by decide, by decide, rfl, by decide, by decide⟩⟩,
    ⟨(run (((at_ .standby).modLayer 7 fun l =>
      { l with st := .declared, decl := declOf [7, 1, 0, 0, 64, 0, 32, 0, 0, 0, 0, 0, 64, 0, 32, 0, 255, 0, 0] }).modLink .lnk0
      fun k => { k with state := .l0 })), .lnk0, (husk 1 0 0 (0x17) (List.replicate 8 0)), (huskHdr (husk 1 0 0 (0x17)
      (List.replicate 8 0)).bytes), 7, 0, ⟨by decide, by decide, rfl, by decide, by decide, by decide, by decide, by decide, by
      decide, by decide, by decide, by decide, by decide, by decide⟩⟩,
    ⟨(run (((at_ .standby).modLayer 7 fun l =>
      { l with st := .declared, decl := declOf [7, 1, 0, 0, 64, 0, 32, 0, 0, 0, 0, 0, 64, 0, 32, 0, 255, 0, 0], frameSt := .open_ 0 .lnk0 }).modLink
      .lnk0 fun k => { k with state := .l0 })), .lnk0, (husk 1 0 0 (0x07) ([0, 0, 0, 0, 0, 0, 4, 0, 1, 2, 3, 4, 5, 6, 7, 8])),
      (huskHdr (husk 1 0 0 (0x07) ([0, 0, 0, 0, 0, 0, 4, 0, 1, 2, 3, 4, 5, 6, 7, 8])).bytes), 7, 0, ⟨by decide, by decide, rfl,
      by decide, by decide, by decide, by decide, by decide, by decide, by decide, by decide, by decide, by decide⟩⟩,
    ⟨(run ((at_ .standby).modLink .lnk0 fun k => { k with state := .l0, vc2Last := some 9 })), .lnk0, (husk 2 2 9 (0) ([])),
      (huskHdr (husk 2 2 9 (0) ([])).bytes), 9, ⟨by decide, by decide, rfl, by decide, by decide, by decide⟩⟩,
    ⟨(run ((at_ .standby).modLink .lnk0 fun k => { k with state := .l0, vc2Last := some 138 })), .lnk0, (husk 2 2 9 (0) ([])),
      (huskHdr (husk 2 2 9 (0) ([])).bytes), ⟨by decide, by decide, rfl, by decide, fun _ h => by cases h <;> decide⟩⟩⟩

theorem test_hyps_ControlHusks :
    (∃ (s : State) (l : LinkId) (h : RxHusk) (hd : HuskHdr), s.dev.linkIds.contains l = true ∧ (s.dev.link l).receives = true ∧
      s.dev.checkHusk l h = (s.dev, some hd) ∧ hd.seq = (s.dev.link l).vc1RxNext ∧ hd.type = 3) ∧
    (∃ (s : State) (l : LinkId) (h : RxHusk) (hd : HuskHdr), s.dev.linkIds.contains l = true ∧ (s.dev.link l).receives = true ∧
      s.dev.checkHusk l h = (s.dev, some hd) ∧ hd.seq = (s.dev.link l).vc1RxNext ∧ hd.type = 4) ∧
    (∃ (s : State) (l : LinkId) (h : RxHusk) (hd : HuskHdr), s.dev.linkIds.contains l = true ∧ (s.dev.link l).receives = true ∧
      s.dev.checkHusk l h = (s.dev, some hd) ∧ hd.seq = (s.dev.link l).vc1RxNext ∧ hd.type = 5) ∧
    (∃ (s : State) (l : LinkId) (h : RxHusk) (hd : HuskHdr) (n f : Nat), s.dev.linkIds.contains l = true ∧ (s.dev.link
      l).receives = true ∧ s.dev.checkHusk l h = (s.dev, some hd) ∧ hd.seq = (s.dev.link l).vc1RxNext ∧ hd.type = 4 ∧ 8 ≤
      hd.payload.length ∧ n = byteAt hd.payload 2 ∧ f = leField hd.payload 4 2 ∧ n < s.dev.cmp.layers.length ∧ 1 ≤ n ∧ n ≤ 7 ∧
      (s.dev.layer n).frameSt = .idle ∧ (s.dev.layer n).intake = false ∧ (s.dev.layer n).newFrame f = true) ∧
    (∃ (s : State) (l : LinkId) (h : RxHusk) (hd : HuskHdr) (rest : List TxHusk), s.dev.linkIds.contains l = true ∧ (s.dev.link
      l).receives = true ∧ s.dev.checkHusk l h = (s.dev, some hd) ∧ byteAt hd.payload 0 = 1 ∧ 4 ≤ hd.payload.length ∧ (rest =
      (s.dev.link l).unacked.filter (fun q => (byteAt hd.payload 1 + 256 - q.seq) % 256 = 0 ∨ 127 < (byteAt hd.payload 1 + 256 -
      q.seq) % 256)) ∧ (s.dev.link l).txWaiting = [] ∧ (s.dev.port l.port).events = [] ∧ hd.type = 6) ∧
    (∃ (s : State) (l : LinkId) (h : RxHusk) (hd : HuskHdr) (rest : List TxHusk), s.dev.linkIds.contains l = true ∧ (s.dev.link
      l).receives = true ∧ s.dev.checkHusk l h = (s.dev, some hd) ∧ byteAt hd.payload 0 = 1 ∧ 4 ≤ hd.payload.length ∧ (rest =
      (s.dev.link l).unacked.filter (fun q => (byteAt hd.payload 1 + 256 - q.seq) % 256 = 0 ∨ 127 < (byteAt hd.payload 1 + 256 -
      q.seq) % 256)) ∧ (s.dev.link l).txWaiting = [] ∧ (s.dev.port l.port).events = [] ∧ hd.type = 7 ∧ rest ≠ [] ∧ rest.length <
      (s.dev.link l).unacked.length) ∧
    (∃ (s : State) (l : LinkId), s.dev.linkIds.contains l = true ∧ (s.dev.link l).streams = true ∧ (s.dev.link l).unacked ≠ [] ∧
      ((s.dev.link l).receives = true ∨ (s.dev.link l).state = .l1) ∧ s.dev.cal.run = none ∧ (s.dev.link l).replays + 1 < 4) ∧
    (∃ (s : State) (l : LinkId), s.dev.linkIds.contains l = true ∧ (s.dev.link l).streams = true ∧ (s.dev.link l).unacked ≠ [] ∧
      ((s.dev.link l).receives = true ∨ (s.dev.link l).state = .l1) ∧ s.dev.cal.run = none ∧ 4 ≤ (s.dev.link l).replays + 1 ∧
      ((s.dev.link l).state = .l0 ∨ (s.dev.link l).state = .l1)) :=
  ⟨⟨(run ((at_ .standby).modLink .lnk0 fun k => { k with state := .l0 })), .lnk0, (husk 3 1 0 (0) ([])), (huskHdr (husk 3 1 0
    (0) ([])).bytes), ⟨by decide, by decide, rfl, by decide, by decide⟩⟩,
    ⟨(run ((at_ .standby).modLink .lnk0 fun k => { k with state := .l0 })), .lnk0, (husk 4 1 0 (0) ([5, 0, 7, 0, 9, 0, 0, 0])),
      (huskHdr (husk 4 1 0 (0) ([5, 0, 7, 0, 9, 0, 0, 0])).bytes), ⟨by decide, by decide, rfl, by decide, by decide⟩⟩,
    ⟨(run ((at_ .standby).modLink .lnk0 fun k => { k with state := .l0 })), .lnk0, (husk 5 1 0 (0) (leBytes 8 5)), (huskHdr
      (husk 5 1 0 (0) (leBytes 8 5)).bytes), ⟨by decide, by decide, rfl, by decide, by decide⟩⟩,
    ⟨(run ((at_ .standby).modLink .lnk0 fun k => { k with state := .l0 })), .lnk0, (husk 4 1 0 (0) ([5, 0, 7, 0, 9, 0, 0, 0])),
      (huskHdr (husk 4 1 0 (0) ([5, 0, 7, 0, 9, 0, 0, 0])).bytes), 7, 9, ⟨by decide, by decide, rfl, by decide, by decide, by
      decide, by decide, by decide, by decide, by decide, by decide, by decide, by decide, by decide⟩⟩,
    ⟨(run ((at_ .standby).modLink .lnk0 fun k =>
      { k with state := .l0, unacked := [⟨3, 1, false, 0, 0, []⟩, ⟨3, 1, false, 1, 0, []⟩] })), .lnk0, (husk 6 3 0 (0) ([1, 0,
      8, 0])), (huskHdr (husk 6 3 0 (0) ([1, 0, 8, 0])).bytes), _, ⟨by decide, by decide, rfl, by decide, by decide, rfl, by
      decide, by decide, by decide⟩⟩,
    ⟨(run ((at_ .standby).modLink .lnk0 fun k =>
      { k with state := .l0, unacked := [⟨3, 1, false, 0, 0, []⟩, ⟨3, 1, false, 1, 0, []⟩] })), .lnk0, (husk 7 3 0 (0) ([1, 1,
      8, 0])), (huskHdr (husk 7 3 0 (0) ([1, 1, 8, 0])).bytes), _, ⟨by decide, by decide, rfl, by decide, by decide, rfl, by
      decide, by decide, by decide, by decide, by decide⟩⟩,
    ⟨(run ((at_ .standby).modLink .lnk0 fun k =>
      { k with state := .l0, upSinceDetect := true, backLaneOn := true, unacked := [⟨3, 1, false, 0, 0, []⟩], replays := 2 })),
      .lnk0, by decide⟩,
    ⟨(run ((at_ .standby).modLink .lnk0 fun k =>
      { k with state := .l1, upSinceDetect := true, backLaneOn := true, unacked := [⟨3, 1, false, 0, 0, []⟩], replays := 3 })),
      .lnk0, by decide⟩⟩

theorem test_hyps_CameraLock :
    (∃ (s : State) (input time boundary : Nat) (falling : Bool), s.dev.camRuns = true ∧ s.dev.par kMstCamSel 0 = input + 1 ∧
      s.dev.par kMstCamEdge 0 = b2n falling ∧ s.dev.cam.reference = none) ∧
    (∃ (s : State) (input time boundary r : Nat) (falling : Bool), s.dev.Inv ∧ s.dev.camRuns = true ∧ s.dev.par kMstCamSel 0 =
      input + 1 ∧ s.dev.par kMstCamEdge 0 = b2n falling ∧ s.dev.cam.reference = some r ∧ (300 * (time - r) < 98 *
      s.dev.camNominal ∨ 102 * s.dev.camNominal < 300 * (time - r))) ∧
    (∃ (s : State) (input time boundary r : Nat) (falling : Bool), s.dev.camRuns = true ∧ s.dev.par kMstCamSel 0 = input + 1 ∧
      s.dev.par kMstCamEdge 0 = b2n falling ∧ s.dev.cam.reference = some r ∧ 98 * s.dev.camNominal ≤ 300 * (time - r) ∧ 300 *
      (time - r) ≤ 102 * s.dev.camNominal ∧ s.dev.cam.state = 1) ∧
    (∃ (s : State) (input time boundary r : Nat) (falling : Bool) (e : Int), ∃ (run : Nat), s.dev.camRuns = true ∧ s.dev.par
      kMstCamSel 0 = input + 1 ∧ s.dev.par kMstCamEdge 0 = b2n falling ∧ s.dev.cam.reference = some r ∧ 98 * s.dev.camNominal ≤
      300 * (time - r) ∧ 300 * (time - r) ≤ 102 * s.dev.camNominal ∧ 2 ≤ s.dev.cam.state ∧ e = s.dev.camError time boundary ∧
      (run = (if e.natAbs ≤ s.dev.par kMstCamLockWin 0 then s.dev.cam.winRun + 1 else 0))) ∧
    (∃ (s : State) (input time boundary : Nat) (falling : Bool), (s.dev.camRuns = false ∨ s.dev.par kMstCamSel 0 ≠ input + 1 ∨
      s.dev.par kMstCamEdge 0 ≠ b2n falling)) ∧
    (∃ (s : State), s.dev.camRuns = true ∧ 2 ≤ s.dev.cam.state ∧ s.dev.camSilent = true) ∧
    (∃ (s : State), (s.dev.camRuns = false ∨ s.dev.cam.state < 2 ∨ s.dev.camSilent = false)) :=
  ⟨⟨(run { ((at_ .standby).putVal kMstCamSel 1).putVal kMstCamEdge 0 with cam := { Cam.reset with state := 1 } }), 0, 500, 0,
    false, by decide⟩,
    ⟨(run
      { ((at_ .standby).putVal kMstCamSel 1).putVal kMstCamEdge 0 with cam := { Cam.reset with state := 1, reference := some 0 } }),
      0, 1, 0, 0, false, ⟨meets_inv rfl (by decide), by decide, by decide, by decide, by decide, by decide⟩⟩,
    ⟨(run
      { ((at_ .standby).putVal kMstCamSel 1).putVal kMstCamEdge 0 with cam := { Cam.reset with state := 1, reference := some 0 } }),
      0, 3266667, 0, 0, false, by decide⟩,
    ⟨(run
      { ((at_ .standby).putVal kMstCamSel 1).putVal kMstCamEdge 0 with cam := { Cam.reset with state := 2, reference := some 0 } }),
      0, 3400000, 0, 0, false, _, _, ⟨by decide, by decide, by decide, by decide, by decide, by decide, by decide, rfl, rfl⟩⟩,
    ⟨(run Dev.cold), 0, 0, 0, false, by decide⟩,
    ⟨(run
      { ((at_ .standby).putVal kMstCamSel 1).putVal kMstCamEdge 0 with clk := { Clk.reset with timeBase := 10000000000 }, cam := { Cam.reset with state := 2 } }),
      by decide⟩,
    ⟨(run Dev.cold), by decide⟩⟩

theorem test_hyps_ShutterTime :
    (∃ (s : State) (ticks : Nat) (r : Raster), s.dev.sht.raster = some r ∧ s.dev.sht.pending = none) ∧
    (∃ (s : State) (ticks : Nat) (r : Raster), s.dev.sht.raster = some r ∧ s.dev.sht.pending = none ∧ r.kind ≠ .list) ∧
    (∃ (s : State) (ticks : Nat), s.dev.sht.raster = none) ∧
    (∃ (s : State) (r : Raster), s.dev.sht.raster = some r ∧ s.dev.now < r.start + usTicks 100) ∧
    (∃ (s : State) (r : Raster), s.dev.sht.raster = some r ∧ r.start + usTicks 100 ≤ s.dev.now) ∧
    (∃ (s : State), s.dev.listsStale = true) ∧
    (∃ (s : State), s.dev.listsStale = false) ∧
    (∃ (s : State), s.dev.sht.state = .staleHold ∧ s.dev.sht.holdFrom + msTicks (s.dev.par kShtStaleHoldMs 0) ≤ s.dev.now) ∧
    (∃ (s : State), (s.dev.sht.state ≠ .staleHold ∨ s.dev.now < s.dev.sht.holdFrom + msTicks (s.dev.par kShtStaleHoldMs 0))) :=
  ⟨⟨(run { at_ .beam with sht := { Shutter.reset with state := .normal, raster := some ⟨.list, 0, [0, 1]⟩ } }), 5, _, ⟨rfl, by
    decide⟩⟩,
    ⟨(run { at_ .beam with sht := { Shutter.reset with state := .normal, raster := some ⟨.stale, 0, [0, 1]⟩ } }), 5, _, ⟨rfl, by
      decide, by decide⟩⟩,
    ⟨(run (at_ .standby)), 0, by decide⟩,
    ⟨(run { at_ .beam with sht := { Shutter.reset with state := .normal, raster := some ⟨.list, 990001, [0, 1]⟩ } }), _, ⟨rfl,
      by decide⟩⟩,
    ⟨(run { at_ .beam with sht := { Shutter.reset with state := .normal, raster := some ⟨.list, 990000, [0, 1]⟩ } }), _, ⟨rfl,
      by decide⟩⟩,
    ⟨(run
      { at_ .beam with clk := { Clk.reset with timeBase := 10000000000 }, sht := { Shutter.reset with state := .normal, newest := some ⟨0, 0, false, []⟩ } }),
      by decide⟩,
    ⟨(run (at_ .standby)), by decide⟩,
    ⟨(run
      { at_ .beam with clk := { Clk.reset with timeBase := 10000000000 }, sht := { Shutter.reset with state := .staleHold } }),
      by decide⟩,
    ⟨(run (at_ .standby)), by decide⟩⟩

theorem test_hyps_ArrayPortChecks :
    (∃ (s : State) (sd : Side) (f : RbFrame), ∃ (entry : Nat), ∃ (crc : Word), ∃ (crcs : List Byte), ∃ (status : Word), ∃ (cseq
      : Nat), ∃ (cmd : Nat), ∃ (reason : Nat), ∃ (payload : List Byte), ∃ (tap : Nat), ∃ (errors : List Nat), ∃ c : Instr, c ∈
      ([.busCrcResponse sd entry crc f, .cellCrcResponse sd entry crc f, .lanesResponse sd crcs f, .statusResponse sd status f,
      .ackResponse sd cseq cmd f, .errorResponse sd cseq reason f, .identResponse sd payload f, .trainResultResponse sd tap
      errors f] : List Instr) ∧ (s.dev.sides.contains sd.ix = false ∨ (s.dev.mport sd.ix).pwrEn = false)) ∧
    (∃ (s : State) (sd : Side) (f : RbFrame), ∃ (entry : Nat), ∃ (crc : Word), rbWhole f 0x01 (leBytes 2 entry ++ leBytes 4
      crc.toNat) = false) ∧
    (∃ (s : State) (sd : Side) (f : RbFrame), ∃ (entry : Nat), ∃ (crc : Word), rbWhole f 0x02 (leBytes 2 entry ++ leBytes 4
      crc.toNat) = false) ∧
    (∃ (s : State) (sd : Side) (f : RbFrame), ∃ (crcs : List Byte), rbWhole f 0x05 crcs = false) ∧
    (∃ (s : State) (sd : Side) (f : RbFrame), ∃ (status : Word), rbWhole f 0x03 (leBytes 4 status.toNat) = false) ∧
    (∃ (s : State) (sd : Side) (f : RbFrame), ∃ (cseq : Nat), ∃ (cmd : Nat), rbWhole f 0x07 (leBytes 1 cseq ++ leBytes 1 cmd) =
      false) ∧
    (∃ (s : State) (sd : Side) (f : RbFrame), ∃ (cseq : Nat), ∃ (reason : Nat), rbWhole f 0x08 (leBytes 1 cseq ++ leBytes 1
      reason) = false) ∧
    (∃ (s : State) (sd : Side) (f : RbFrame), ∃ (payload : List Byte), rbWhole f 0x04 payload = false) ∧
    (∃ (s : State) (sd : Side) (f : RbFrame), ∃ (tap : Nat), ∃ (errors : List Nat), rbWhole f 0x06 (leList 1 errors) = false) ∧
    (∃ (s : State) (sd : Side) (entry : Nat) (crc : Word) (f : RbFrame) (l : Loaded), s.dev.Inv ∧ s.dev.sides.contains sd.ix =
      true ∧ (s.dev.mport sd.ix).pwrEn = true ∧ rbWhole f 0x01 (leBytes 2 entry ++ leBytes 4 crc.toNat) = true ∧ s.dev.awaits
      sd.ix false = some l ∧ l.entry = entry) ∧
    (∃ (s : State) (sd : Side) (entry : Nat) (crc : Word) (f : RbFrame) (l : Loaded), s.dev.Inv ∧ s.dev.sides.contains sd.ix =
      true ∧ (s.dev.mport sd.ix).pwrEn = true ∧ rbWhole f 0x02 (leBytes 2 entry ++ leBytes 4 crc.toNat) = true ∧ s.dev.awaits
      sd.ix true = some l ∧ l.entry = entry) ∧
    (∃ (s : State) (sd : Side) (entry : Nat) (crc : Word) (f : RbFrame), s.dev.sides.contains sd.ix = true ∧ (s.dev.mport
      sd.ix).pwrEn = true ∧ (∀ k, s.dev.seq.ended.get k = none) ∧ s.dev.beamReadyNow = false ∧ rbWhole f 0x01 (leBytes 2 entry
      ++ leBytes 4 crc.toNat) = true ∧ (s.dev.awaits sd.ix false = none ∨ (∃ l, s.dev.awaits sd.ix false = some l ∧ l.entry ≠
      entry))) ∧
    (∃ (s : State) (sd : Side) (entry : Nat) (crc : Word) (f : RbFrame), s.dev.sides.contains sd.ix = true ∧ (s.dev.mport
      sd.ix).pwrEn = true ∧ (∀ k, s.dev.seq.ended.get k = none) ∧ s.dev.beamReadyNow = false ∧ rbWhole f 0x02 (leBytes 2 entry
      ++ leBytes 4 crc.toNat) = true ∧ (s.dev.awaits sd.ix true = none ∨ (∃ l, s.dev.awaits sd.ix true = some l ∧ l.entry ≠
      entry))) ∧
    (∃ (s : State) (sd : Side) (l : Loaded), s.dev.Inv ∧ s.dev.sides.contains sd.ix = true ∧ s.dev.awaits sd.ix false = some l) ∧
    (∃ (s : State) (sd : Side) (l : Loaded), s.dev.Inv ∧ s.dev.sides.contains sd.ix = true ∧ s.dev.awaits sd.ix true = some l) ∧
    (∃ (s : State) (sd : Side) (l : Loaded), s.dev.Inv ∧ s.dev.sides.contains sd.ix = true ∧ (∀ k, s.dev.seq.ended.get k = none)
      ∧ s.dev.beamReadyNow = false ∧ s.dev.awaits sd.ix false = none) ∧
    (∃ (s : State) (sd : Side) (l : Loaded), s.dev.Inv ∧ s.dev.sides.contains sd.ix = true ∧ (∀ k, s.dev.seq.ended.get k = none)
      ∧ s.dev.beamReadyNow = false ∧ s.dev.awaits sd.ix true = none) ∧
    (∃ (s : State) (sd : Side) (crcs : List Byte) (f : RbFrame) (l : Loaded), s.dev.sides.contains sd.ix = true ∧ s.dev.cal.run
      = none ∧ (s.dev.mport sd.ix).pwrEn = true ∧ rbWhole f 0x05 crcs = true ∧ (s.dev.mport sd.ix).lanesAsked = true ∧
      s.dev.seq.checking.get sd.ix = some l ∧ (s.dev.mport sd.ix).laneErr.length = 33) ∧
    (∃ (s : State) (sd : Side) (crcs : List Byte) (f : RbFrame) (l : Loaded) (j : Nat), s.dev.sides.contains sd.ix = true ∧
      s.dev.cal.run = none ∧ (s.dev.mport sd.ix).pwrEn = true ∧ rbWhole f 0x05 crcs = true ∧ (s.dev.mport sd.ix).lanesAsked =
      true ∧ s.dev.seq.checking.get sd.ix = some l ∧ j < 32 ∧ (∀ i, i < 33 → (crcs.getD i 0 ≠ l.lanes.getD i 0 ↔ i = j)) ∧
      (s.dev.mport sd.ix).failedLanes.getLsbD j = false ∧ (s.dev.par kMptPairErrLimit sd.ix ≤ (((s.dev.mport
      sd.ix).laneHist.getD j []).filter fun n => decide ((s.dev.mport sd.ix).loadNo < n + 8) && n != (s.dev.mport
      sd.ix).loadNo).length + 1) ∧ (s.dev.mport sd.ix).lane32Failed = false ∧ (s.dev.mport sd.ix).sparePermanent = false ∧
      (s.dev.mport sd.ix).sparePending = none ∧ (s.dev.mport sd.ix).spareFor ≠ j) ∧
    (∃ (s : State) (sd : Side) (crcs : List Byte) (f : RbFrame), s.dev.sides.contains sd.ix = true ∧ s.dev.cal.run = none ∧
      (s.dev.mport sd.ix).pwrEn = true ∧ rbWhole f 0x05 crcs = true ∧ (s.dev.mport sd.ix).lanesAsked = false) ∧
    (∃ (s : State) (sd : Side) (status : Word) (f : RbFrame), s.dev.sides.contains sd.ix = true ∧ (s.dev.mport sd.ix).pwrEn =
      true ∧ rbWhole f 0x03 (leBytes 4 status.toNat) = true ∧ ((s.dev.mport sd.ix).state ≠ .parking ∨ status.getLsbD 0 = false)) ∧
    (∃ (s : State) (sd : Side) (status : Word) (f : RbFrame), s.dev.sides.contains sd.ix = true ∧ (s.dev.mport sd.ix).pwrEn =
      true ∧ rbWhole f 0x03 (leBytes 4 status.toNat) = true ∧ (s.dev.mport sd.ix).state = .parking ∧ status.getLsbD 0 = true ∧
      s.dev.cal.run = none ∧ s.dev.cal.interp = []) ∧
    (∃ (s : State) (sd : Side) (cseq cmd : Nat) (f : RbFrame) (q : MFrame), s.dev.sides.contains sd.ix = true ∧ (s.dev.mport
      sd.ix).pwrEn = true ∧ rbWhole f 0x07 (leBytes 1 cseq ++ leBytes 1 cmd) = true ∧ (((s.dev.mport sd.ix).sent.find? fun f =>
      f.cseq == cseq && f.cmd == cmd) = some q) ∧ cmd = 0x04 ∧ (s.dev.mport sd.ix).state = .unpark) ∧
    (∃ (s : State) (sd : Side) (cseq cmd : Nat) (f : RbFrame) (q : MFrame), s.dev.sides.contains sd.ix = true ∧ (s.dev.mport
      sd.ix).pwrEn = true ∧ rbWhole f 0x07 (leBytes 1 cseq ++ leBytes 1 cmd) = true ∧ (((s.dev.mport sd.ix).sent.find? fun f =>
      f.cseq == cseq && f.cmd == cmd) = some q) ∧ cmd = 0x06 ∧ q.arg0 ≠ 0x3F ∧ (s.dev.mport sd.ix).sparePending = some q.arg0) ∧
    (∃ (s : State) (sd : Side) (cseq cmd : Nat) (f : RbFrame), s.dev.sides.contains sd.ix = true ∧ (s.dev.mport sd.ix).pwrEn =
      true ∧ rbWhole f 0x07 (leBytes 1 cseq ++ leBytes 1 cmd) = true ∧ (((s.dev.mport sd.ix).sent.find? fun f => f.cseq == cseq
      && f.cmd == cmd) = none)) ∧
    (∃ (s : State) (sd : Side) (cseq reason : Nat) (f : RbFrame), s.dev.Inv ∧ s.dev.sides.contains sd.ix = true ∧ (s.dev.mport
      sd.ix).pwrEn = true ∧ rbWhole f 0x08 (leBytes 1 cseq ++ leBytes 1 reason) = true) :=
  ⟨⟨(run (at_ .standby)), .L, RbFrame.unread, 0, 0, [], 0, 0, 0, 0, [], 0, [], (.busCrcResponse .L 0 0), ⟨List.mem_cons_self,
    .inr rfl⟩⟩,
    ⟨(run (at_ .standby)), .L, RbFrame.unread, 0, 0, by decide⟩,
    ⟨(run (at_ .standby)), .L, RbFrame.unread, 0, 0, by decide⟩,
    ⟨(run (at_ .standby)), .L, RbFrame.unread, [], by decide⟩,
    ⟨(run (at_ .standby)), .L, RbFrame.unread, 0, by decide⟩,
    ⟨(run (at_ .standby)), .L, RbFrame.unread, 0, 0, by decide⟩,
    ⟨(run (at_ .standby)), .L, RbFrame.unread, 0, 0, by decide⟩,
    ⟨(run (at_ .standby)), .L, RbFrame.unread, [], by decide⟩,
    ⟨(run (at_ .standby)), .L, RbFrame.unread, 0, [], by decide⟩,
    ⟨(run
      { ((at_ .beam).modMport 0 fun p => { p with pwrEn := true, state := .ready }) with seq := { Seq.reset with checking := ⟨some ⟨5, 1, [], false, true, none, none, false, false⟩, none⟩ } }),
      .L, 5, 1, (good 1 ([5, 0, 1, 0, 0, 0])), ⟨5, 1, [], false, true, none, none, false, false⟩, ⟨meets_inv rfl (by decide), by
      decide, by decide, by decide, by decide, by decide⟩⟩,
    ⟨(run
      { ((at_ .beam).modMport 0 fun p => { p with pwrEn := true, state := .ready }) with seq := { Seq.reset with checking := ⟨some ⟨5, 1, [], false, true, none, none, false, false⟩, none⟩ } }),
      .L, 5, 2, (good 2 ([5, 0, 2, 0, 0, 0])), ⟨5, 1, [], false, true, none, none, false, false⟩, ⟨meets_inv rfl (by decide), by
      decide, by decide, by decide, by decide, by decide⟩⟩,
    ⟨(run ((at_ .beam).modMport 0 fun p => { p with pwrEn := true, state := .ready })), .L, 6, 1, (good 1 ([6, 0, 1, 0, 0, 0])),
      ⟨by decide, by decide, (fun k => by unfold Pair.get; split <;> rfl), by decide, by decide, by decide⟩⟩,
    ⟨(run ((at_ .beam).modMport 0 fun p => { p with pwrEn := true, state := .ready })), .L, 6, 1, (good 2 ([6, 0, 1, 0, 0, 0])),
      ⟨by decide, by decide, (fun k => by unfold Pair.get; split <;> rfl), by decide, by decide, by decide⟩⟩,
    ⟨(run
      { ((at_ .beam).modMport 0 fun p => { p with pwrEn := true, state := .ready }) with seq := { Seq.reset with checking := ⟨some ⟨5, 1, [], false, true, none, none, false, false⟩, none⟩ } }),
      .L, ⟨5, 1, [], false, true, none, none, false, false⟩, ⟨meets_inv rfl (by decide), by decide, by decide⟩⟩,
    ⟨(run
      { ((at_ .beam).modMport 0 fun p => { p with pwrEn := true, state := .ready }) with seq := { Seq.reset with checking := ⟨some ⟨5, 1, [], false, true, none, none, false, false⟩, none⟩ } }),
      .L, ⟨5, 1, [], false, true, none, none, false, false⟩, ⟨meets_inv rfl (by decide), by decide, by decide⟩⟩,
    ⟨(run ((at_ .beam).modMport 0 fun p => { p with pwrEn := true, state := .ready })), .L, ⟨5, 1, [], false, true, none, none,
      false, false⟩, ⟨meets_inv rfl (by decide), by decide, (fun k => by unfold Pair.get; split <;> rfl), by decide, by decide⟩⟩,
    ⟨(run ((at_ .beam).modMport 0 fun p => { p with pwrEn := true, state := .ready })), .L, ⟨5, 1, [], false, true, none, none,
      false, false⟩, ⟨meets_inv rfl (by decide), by decide, (fun k => by unfold Pair.get; split <;> rfl), by decide, by decide⟩⟩,
    ⟨(run
      { ((at_ .beam).modMport 0 fun p => { p with pwrEn := true, state := .ready, lanesAsked := true }) with seq := { Seq.reset with checking := ⟨some ⟨5, 1, List.replicate 33 0, false, true, none, none, false, false⟩, none⟩ } }),
      .L, (List.replicate 33 0), (good 5 (List.replicate 33 0)), ⟨5, 1, List.replicate 33 0, false, true, none, none, false,
      false⟩, by decide⟩,
    ⟨(run
      { ((at_ .beam).modMport 0 fun p => { p with pwrEn := true, state := .ready, lanesAsked := true, loadNo := 9, laneHist := List.replicate 32 [8, 7, 6, 5, 4, 3, 2] }) with seq := { Seq.reset with checking := ⟨some ⟨5, 1, List.replicate 33 0, false, true, none, none, false, false⟩, none⟩ } }),
      .L, ([1] ++ List.replicate 32 0), (good 5 ([1] ++ List.replicate 32 0)), ⟨5, 1, List.replicate 33 0, false, true, none,
      none, false, false⟩, 0, by decide⟩,
    ⟨(run ((at_ .beam).modMport 0 fun p => { p with pwrEn := true, state := .ready })), .L, [], (good 5 ([])), by decide⟩,
    ⟨(run ((at_ .beam).modMport 0 fun p => { p with pwrEn := true, state := .ready })), .L, 1, (good 3 ([1, 0, 0, 0])), by
      decide⟩,
    ⟨(run ((at_ .beam).modMport 0 fun p => { p with pwrEn := true, state := .parking })), .L, 1, (good 3 ([1, 0, 0, 0])), by
      decide⟩,
    ⟨(run ((at_ .beam).modMport 0 fun p => { p with pwrEn := true, state := .unpark, sent := [⟨4, 9, 0, 0⟩] })), .L, 9, 4, (good
      7 ([9, 4])), _, ⟨by decide, by decide, by decide, rfl, by decide, by decide⟩⟩,
    ⟨(run ((at_ .beam).modMport 0 fun p =>
      { p with pwrEn := true, state := .ready, sent := [⟨6, 9, 3, 0⟩], sparePending := some 3 })), .L, 9, 6, (good 7 ([9, 6])),
      ⟨6, 9, 3, 0⟩, by decide⟩,
    ⟨(run ((at_ .beam).modMport 0 fun p => { p with pwrEn := true, state := .ready })), .L, 9, 4, (good 7 ([9, 4])), by decide⟩,
    ⟨(run ((at_ .beam).modMport 0 fun p => { p with pwrEn := true, state := .ready })), .L, 9, 4, (good 8 ([9, 4])), ⟨meets_inv
      rfl (by decide), by decide, by decide, by decide⟩⟩⟩

theorem test_hyps_ArrayPortPower :
    (∃ (s : State) (sd : Side), s.dev.sides.contains sd.ix = true ∧ (s.dev.mport sd.ix).state = .unpark ∧ (s.dev.mport
      sd.ix).unparkAcked = true) ∧
    (∃ (s : State) (sd : Side), s.dev.sides.contains sd.ix = true ∧ (s.dev.mport sd.ix).state = .parking ∧ (s.dev.mport
      sd.ix).parkN = false ∧ (s.dev.mport sd.ix).parkFell + 2000 ≤ s.dev.now) ∧
    (∃ (s : State) (sd : Side), s.dev.sides.contains sd.ix = true ∧ ((s.dev.mport sd.ix).state = .off ∨ (s.dev.mport
      sd.ix).state = .absent) ∧ (s.dev.mport sd.ix).pwrEn = true ∧ (s.dev.mport sd.ix).pairsOn = false) ∧
    (∃ (s : State) (sd : Side), s.dev.sides.contains sd.ix = true ∧ (s.dev.mport sd.ix).pwrDwell = true ∧ (s.dev.mport
      sd.ix).pwrEn = false ∧ (s.dev.mport sd.ix).powerUpWanted = true ∧ (s.dev.mport sd.ix).state = .off) ∧
    (∃ (s : State) (sd : Side), s.dev.sides.contains sd.ix = true ∧ (s.dev.mport sd.ix).pwrDwell = true ∧ (s.dev.mport
      sd.ix).pwrEn = false ∧ (s.dev.mport sd.ix).powerUpWanted = false) ∧
    (∃ (s : State) (sd : Side), ∃ (rb0 : List Bool), ∃ (rb1 : List Bool), s.dev.sides.contains sd.ix = true ∧ (s.dev.mport
      sd.ix).pwrEn = true ∧ (s.dev.mport sd.ix).state = .power) ∧
    (∃ (s : State) (sd : Side), s.dev.sides.contains sd.ix = true ∧ sd.ix = 1 ∧ (s.dev.mport sd.ix).state = .train ∧
      (s.dev.mport sd.ix).sweep = [] ∧ (s.dev.mport sd.ix).firstSweep = []) ∧
    (∃ (s : State) (sd : Side), ((s.dev.mport sd.ix).state ≠ .unpark ∨ (s.dev.mport sd.ix).unparkAcked = false)) ∧
    (∃ (s : State) (sd : Side), ((s.dev.mport sd.ix).state ≠ .parking ∨ (s.dev.mport sd.ix).parkN = true ∨ s.dev.now <
      (s.dev.mport sd.ix).parkFell + 2000)) ∧
    (∃ (s : State) (sd : Side), ((s.dev.mport sd.ix).pwrEn = false ∨ (s.dev.mport sd.ix).pairsOn = true)) ∧
    (∃ (s : State) (sd : Side), ((s.dev.mport sd.ix).pwrDwell = false ∨ (s.dev.mport sd.ix).pwrEn = true)) ∧
    (∃ (s : State) (sd : Side), (s.dev.mport sd.ix).state ≠ .power) ∧
    (∃ (s : State) (sd : Side), (s.dev.mport sd.ix).state ≠ .train) ∧
    (∃ (s : State) (sd : Side), (s.dev.mport sd.ix).state.beyondPower = false ∧ s.dev.sides.contains sd.ix = true) ∧
    (∃ (s : State) (sd : Side), ∃ (c : Instr), ∃ (code : Nat), s.dev.Inv ∧ s.dev.sides.contains sd.ix = true ∧ (s.dev.mport
      1).heldIdent = none ∧ ((c = .arrayFlt sd ∧ code = 0x0707 ∧ (s.dev.mport sd.ix).state.beyondPower = true ∧ s.dev.cal.run =
      none) ∨ (c = .portPowerTimeout sd ∧ code = 0x0707 ∧ (s.dev.mport sd.ix).state = .power) ∨ (c = .portTrainTimeout sd ∧ code
      = 0x0709 ∧ (s.dev.mport sd.ix).state = .train) ∨ (c = .identNoResponse sd ∧ code = 0x0703 ∧ (s.dev.mport sd.ix).state =
      .ident ∧ (s.dev.mport sd.ix).heldIdent = none ∧ 2 ≤ (s.dev.mport sd.ix).identTries))) ∧
    (∃ (s : State) (sd : Side), s.dev.sides.contains sd.ix = true ∧ (s.dev.mport sd.ix).state = .ident ∧ (s.dev.mport
      sd.ix).heldIdent = none ∧ (s.dev.mport sd.ix).identTries < 2) ∧
    (∃ (s : State) (sd : Side) (tap : Nat) (errors : List Nat) (f : RbFrame), s.dev.sides.contains sd.ix = true ∧ (s.dev.mport
      sd.ix).pwrEn = true ∧ rbWhole f 0x06 (leList 1 errors) = true ∧ (s.dev.mport sd.ix).state ≠ .ready ∧ ((s.dev.mport
      sd.ix).state ≠ .train ∨ tap ≠ (s.dev.mport sd.ix).sweep.length)) ∧
    (∃ (s : State) (sd : Side) (tap : Nat) (errors : List Nat) (f : RbFrame), ∃ (k : Nat), s.dev.sides.contains sd.ix = true ∧
      (s.dev.mport sd.ix).pwrEn = true ∧ rbWhole f 0x06 (leList 1 errors) = true ∧ (s.dev.mport sd.ix).state = .ready ∧
      (s.dev.mport sd.ix).covered = some k ∧ tap = (s.dev.trialTaps sd.ix k).1 + (s.dev.mport sd.ix).trial.length ∧ tap ≤
      (s.dev.trialTaps sd.ix k).2) ∧
    (∃ (s : State) (sd : Side) (tap : Nat) (errors : List Nat) (f : RbFrame), s.dev.sides.contains sd.ix = true ∧ (s.dev.mport
      sd.ix).pwrEn = true ∧ rbWhole f 0x06 (leList 1 errors) = true ∧ (s.dev.mport sd.ix).state = .train ∧ tap = (s.dev.mport
      sd.ix).sweep.length ∧ tap < 127) ∧
    (∃ (s : State) (sd : Side) (tap : Nat) (errors : List Nat) (f : RbFrame), s.dev.sides.contains sd.ix = true ∧ (s.dev.mport
      sd.ix).pwrEn = true ∧ rbWhole f 0x06 (leList 1 errors) = true ∧ (s.dev.mport sd.ix).state = .train ∧ tap = (s.dev.mport
      sd.ix).sweep.length ∧ 127 ≤ tap ∧ s.dev.core.state = .boot ∧ (s.dev.mport sd.ix).firstSweep = []) ∧
    (∃ (s : State) (sd : Side) (tap : Nat) (errors : List Nat) (f : RbFrame), ∃ (bad : List Nat), s.dev.sides.contains sd.ix =
      true ∧ (s.dev.mport sd.ix).pwrEn = true ∧ rbWhole f 0x06 (leList 1 errors) = true ∧ (s.dev.mport sd.ix).state = .train ∧
      tap = (s.dev.mport sd.ix).sweep.length ∧ 127 ≤ tap ∧ s.dev.core.state ≠ .boot ∧ (s.dev.mport sd.ix).firstSweep = [] ∧
      (s.dev.mport 1).heldIdent = none ∧ (bad = ((List.range 33).filter fun j => decide (((sweepRuns (errors :: (s.dev.mport
      sd.ix).sweep)).getD j (0, s.dev.par kMptEyeMin sd.ix)).2 < s.dev.par kMptEyeMin sd.ix)))) ∧
    (∃ (s : State) (sd : Side) (payload : List Byte) (f : RbFrame), s.dev.sides.contains sd.ix = true ∧ (s.dev.mport
      sd.ix).pwrEn = true ∧ rbWhole f 0x04 payload = true ∧ (s.dev.mport sd.ix).state = .ident ∧ (s.dev.mport sd.ix).heldIdent =
      none ∧ (s.dev.mport 1).heldIdent = none ∧ sd.ix = 1 ∧ (s.dev.mport 0).recordedGeom = none ∧ (s.dev.mport 0).state ≠
      .fault) ∧
    (∃ (s : State) (sd : Side) (payload : List Byte) (f : RbFrame), s.dev.sides.contains sd.ix = true ∧ (s.dev.mport
      sd.ix).pwrEn = true ∧ rbWhole f 0x04 payload = true ∧ (s.dev.mport sd.ix).state = .ident ∧ (s.dev.mport sd.ix).heldIdent =
      none ∧ (s.dev.mport 1).heldIdent = none ∧ (sd.ix = 0 ∨ (s.dev.mport 0).recordedGeom ≠ none ∨ (s.dev.mport 0).state =
      .fault)) ∧
    (∃ (s : State), s.dev.core.state = .beam ∧ s.dev.core.releaseStage = releaseTickets ∧ s.dev.ticketHeld .ignition = true ∧
      s.dev.ticketHeld .globalReset = true ∧ s.dev.frontsReady = true ∧ s.dev.boostsRun = true ∧ (∀ k ∈ s.dev.modeSides,
      (s.dev.mport k).state = .parked)) ∧
    (∃ (s : State), (s.dev.core.state ≠ .beam ∨ s.dev.core.releaseStage ≠ releaseTickets ∨ s.dev.ticketHeld .ignition = false ∨
      s.dev.ticketHeld .globalReset = false)) :=
  ⟨⟨(run ((at_ .standby).modMport 0 fun p => { p with state := .unpark, unparkAcked := true })), .L, by decide⟩,
    ⟨(run ((at_ .standby).modMport 0 fun p => { p with state := .parking, parkFell := 1000000 - 2000 })), .L, by decide⟩,
    ⟨(run ((at_ .standby).modMport 0 fun p => { p with state := .off, pwrEn := true })), .L, by decide⟩,
    ⟨(run ((at_ .standby).modMport 0 fun p => { p with state := .off, pwrDwell := true, powerUpWanted := true })), .L, by decide⟩,
    ⟨(run ((at_ .standby).modMport 0 fun p => { p with state := .off, pwrDwell := true })), .L, by decide⟩,
    ⟨(run ((at_ .standby).modMport 0 fun p => { p with state := .power, pwrEn := true })), .L, [], [], by decide⟩,
    ⟨(run ((at_ .standby).modMport 1 fun p => { p with state := .train })), .R, by decide⟩,
    ⟨(run (at_ .standby)), .L, by decide⟩,
    ⟨(run (at_ .standby)), .L, by decide⟩,
    ⟨(run (at_ .standby)), .L, by decide⟩,
    ⟨(run (at_ .standby)), .L, by decide⟩,
    ⟨(run (at_ .standby)), .L, by decide⟩,
    ⟨(run (at_ .standby)), .L, by decide⟩,
    ⟨(run (at_ .standby)), .L, by decide⟩,
    ⟨(run ((at_ .standby).modMport 0 fun p => { p with state := .train })), .L, (.portTrainTimeout .L), 0x0709, ⟨meets_inv rfl
      (by decide), by decide, by decide, by decide⟩⟩,
    ⟨(run ((at_ .standby).modMport 0 fun p => { p with state := .ident, identTries := 1 })), .L, by decide⟩,
    ⟨(run ((at_ .beam).modMport 0 fun p => { p with pwrEn := true, state := .ident })), .L, 48, (List.replicate 33 0), (good 6
      (leList 1 (List.replicate 33 0))), by decide⟩,
    ⟨(run ((at_ .beam).modMport 0 fun p => { p with pwrEn := true, state := .ready, told := 3 })), .L, 48, (List.replicate 33
      0), (good 6 (leList 1 (List.replicate 33 0))), 3, by decide⟩,
    ⟨(run ((at_ .standby).modMport 0 fun p => { p with state := .train, pwrEn := true, sweep := List.replicate 126 [] })), .L,
      126, (List.replicate 33 0), (good 6 (leList 1 (List.replicate 33 0))), by decide⟩,
    ⟨(run ((at_ .boot).modMport 0 fun p => { p with state := .train, pwrEn := true, sweep := List.replicate 127 [] })), .L, 127,
      (List.replicate 33 0), (good 6 (leList 1 (List.replicate 33 0))), by decide⟩,
    ⟨(run ((at_ .standby).modMport 0 fun p => { p with state := .train, pwrEn := true, sweep := List.replicate 127 [] })), .L,
      127, (List.replicate 33 0), (good 6 (leList 1 (List.replicate 33 0))), _, ⟨by decide, by decide, by decide, by decide, by
      decide, by decide, by decide, by decide, by decide, rfl⟩⟩,
    ⟨(run ((at_ .standby).modMport 1 fun p => { p with state := .ident, pwrEn := true })), .R, (List.replicate 8 0), (good 4
      (List.replicate 8 0)), by decide⟩,
    ⟨(run ((at_ .standby).modMport 0 fun p => { p with state := .ident, pwrEn := true })), .L, (List.replicate 8 0), (good 4
      (List.replicate 8 0)), by decide⟩,
    ⟨(run
      { mode 0x1E (array .parked (at_ .beam)) with core := { (at_ .beam).core with mode := 0x1E, releaseStage := releaseTickets }, sluice := { held := [(.ignition, 0, 0, 0), (.globalReset, 0, 0, 0)], queued := [] }, lamp := { Lamp.reset with sides := ⟨{ LampSide.reset with boost := .run }, { LampSide.reset with boost := .run }⟩ } }),
      by decide⟩,
    ⟨(run (at_ .standby)), by decide⟩⟩

theorem test_hyps_ComposeEvents :
    (∃ (s : State), s.dev.timelineRuns = true ∧ s.dev.seq.frameDue = true ∧ s.dev.composes = true ∧ s.dev.thm.stage ≠ 1 ∧
      s.dev.thm.stage ≠ 2 ∧ s.dev.seq.change = .none_ ∧ s.dev.cmp.dramStalled = false) ∧
    (∃ (s : State), (s.dev.timelineRuns = false ∨ s.dev.seq.frameDue = false)) ∧
    (∃ (s : State) (sd : Side) (y : Nat) (dry second : List (Nat × Nat)) (slot line : Nat), s.dev.rowWaits sd.ix = true ∧ y =
      (s.dev.pipe sd.ix).nextRow ∧ slot = s.dev.lineSlot sd.ix ∧ line = (s.dev.rowOf (s.dev.pipe sd.ix).mode).lineTicks ∧ (if
      s.dev.inBridge then True else if (s.dev.pipe sd.ix).behind then s.dev.ticketHeld (.catchup sd) = true ∨ (s.dev.pipe
      sd.ix).rowAt + line ≤ s.dev.now else slot ≤ s.dev.now)) ∧
    (∃ (s : State) (sd : Side) (y : Nat) (dry second : List (Nat × Nat)), (s.dev.rowWaits sd.ix = false ∨ y ≠ (s.dev.pipe
      sd.ix).nextRow ∨ (s.dev.inBridge = false ∧ (if (s.dev.pipe sd.ix).behind then s.dev.ticketHeld (.catchup sd) = false ∧
      s.dev.now < (s.dev.pipe sd.ix).rowAt + (s.dev.rowOf (s.dev.pipe sd.ix).mode).lineTicks else s.dev.now < s.dev.lineSlot
      sd.ix)))) ∧
    (∃ (s : State) (sd : Side) (n x : Nat), s.dev.Inv ∧ s.dev.rowWaits sd.ix = true ∧ s.dev.rowMayStart sd = true ∧ s.dev.dryOf
      sd.ix (s.dev.pipe sd.ix).nextRow [(n, x)] = [(n, x)]) ∧
    (∃ (s : State) (sd : Side), s.dev.sides.contains sd.ix = true ∧ (s.dev.pipe sd.ix).running = true ∧ (s.dev.pipe
      sd.ix).nextRow = (s.dev.rowOf (s.dev.pipe sd.ix).mode).fieldH) ∧
    (∃ (s : State) (sd : Side), (s.dev.pipe sd.ix).running = false) ∧
    (∃ (s : State), s.dev.canActive = true) ∧
    (∃ (s : State), s.dev.canActive = false) ∧
    (∃ (s : State), s.dev.cmp.dramStalled = true ∧ s.dev.relocks = true ∧ s.dev.cmp.dramRetrain = false) ∧
    (∃ (s : State), s.dev.cmp.dramStalled = true ∧ s.dev.relocks = true ∧ (s.dev.pll 1).locked = true ∧ s.dev.ticketHeld .dram =
      true) ∧
    (∃ (s : State), (s.dev.cmp.dramStalled = false ∨ s.dev.relocks = false ∨ (s.dev.cmp.dramRetrain = true ∧ (s.dev.pll
      1).locked = false) ∨ (s.dev.cmp.dramRetrain = true ∧ s.dev.ticketHeld .dram = false))) ∧
    (∃ (s : State) (n i : Nat), s.dev.canActive = true ∧ s.dev.cmp.dramStalled = false ∧ n ≤ 7 ∧ n < s.dev.cmp.layers.length ∧
      (s.dev.layer n).copying = some i ∧ i < (s.dev.layer n).staging.length) ∧
    (∃ (s : State) (n : Nat), (s.dev.canActive = false ∨ s.dev.cmp.dramStalled = true ∨ 7 < n ∨ (s.dev.layer n).copying = none)) ∧
    (∃ (s : State) (sd : Side) (good : Bool), ∃ (slot : Nat), ∃ (img : Nat), ∃ (rest : List (Nat × Nat)), s.dev.sides.contains
      sd.ix = true ∧ (s.dev.base sd.ix).loads = (slot, img) :: rest ∧ (s.dev.base sd.ix).ready = none) ∧
    (∃ (s : State) (sd : Side) (good : Bool), s.dev.sides.contains sd.ix = true ∧ ((s.dev.base sd.ix).loads = [] ∨ (s.dev.base
      sd.ix).ready ≠ none)) :=
  ⟨⟨(run { at_ .standby with seq := { Seq.reset with frameDue := true } }), by decide⟩,
    ⟨(run Dev.cold), by decide⟩,
    ⟨(run ((at_ .standby).modPipe 0 fun p => { p with running := true, mode := 1 })), .L, 0, [], [], _, _, ⟨by decide, by
      decide, rfl, rfl, by decide⟩⟩,
    ⟨(run ((at_ .standby).modPipe 0 fun p => { p with running := true, mode := 1 })), .L, 1, [], [], by decide⟩,
    ⟨(run (((at_ .standby).modLayer 7 fun l =>
      { l with st := .declared, bufs := [{ Buf.empty with role := .display }], decl := declOf [7, 1, 0, 0, 128, 0, 32, 0, 0, 0, 0, 0, 128, 0, 32, 0, 255, 0, 0] }).modPipe
      0 fun p => { p with running := true, mode := 1 })), .L, 7, 0, ⟨meets_inv rfl (by decide), by decide, by decide, by decide⟩⟩,
    ⟨(run ((at_ .standby).modPipe 0 fun p => { p with running := true, mode := 1, nextRow := 800 })), .L, by decide⟩,
    ⟨(run (at_ .standby)), .L, by decide⟩,
    ⟨(run (at_ .standby)), by decide⟩,
    ⟨(run (at_ .boot)), by decide⟩,
    ⟨(run { at_ .standby with cmp := { Compose.reset with dramStalled := true } }), by decide⟩,
    ⟨(run
      { ((at_ .standby).modPll 1 fun p => { p with locked := true }) with cmp := { Compose.reset with dramStalled := true }, sluice := { held := [(.dram, 0, 0, 0)], queued := [] } }),
      by decide⟩,
    ⟨(run (at_ .standby)), by decide⟩,
    ⟨(run ((at_ .standby).modLayer 7 fun l => { l with copying := some 0, staging := [Buf.empty] })), 7, 0, by decide⟩,
    ⟨(run (at_ .standby)), 8, by decide⟩,
    ⟨(run ((at_ .standby).modBase 0 fun b => { b with loads := [(0, 3)] })), .L, true, 0, 3, [], by decide⟩,
    ⟨(run (at_ .standby)), .L, true, by decide⟩⟩

theorem test_hyps_LampChannels :
    (∃ (s : State) (ch : Nat), s.dev.Inv ∧ s.dev.canActive = true ∧ s.dev.chans.contains ch = true ∧ s.dev.primary ch ≠ 3) ∧
    (∃ (s : State) (ch : Nat), s.dev.Inv ∧ s.dev.canActive = true ∧ s.dev.chans.contains ch = true ∧ s.dev.driven ch = true ∧
      diagMin ≤ (s.dev.chan ch).setpoint) ∧
    (∃ (s : State) (ch : Nat), s.dev.Inv ∧ s.dev.canActive = true ∧ s.dev.chans.contains ch = true ∧ (s.dev.lside (chanSide
      ch)).boost.running = true ∧ (s.dev.chan ch).setpoint = 0 ∧ s.dev.primary ch ≠ 3) ∧
    (∃ (s : State) (ch : Nat), ∃ c : Instr, c ∈ ([.chOvercurrent ch, .chOpen ch, .chShort ch, .fetShort ch] : List Instr) ∧
      s.dev.cal.run = none ∧ (s.dev.canActive = false ∨ s.dev.chans.contains ch = false)) ∧
    (∃ (s : State) (ch : Nat), s.dev.cal.run = none ∧ s.dev.primary ch = 3) ∧
    (∃ (s : State) (ch : Nat), s.dev.cal.run = none ∧ (s.dev.driven ch = false ∨ (s.dev.chan ch).setpoint < diagMin)) ∧
    (∃ (s : State) (ch : Nat), s.dev.cal.run = none ∧ ((s.dev.lside (chanSide ch)).boost.running = false ∨ (s.dev.chan
      ch).setpoint ≠ 0 ∨ s.dev.primary ch = 3)) :=
  ⟨⟨(run ((at_ .standby).putVal (pid kLmpChCfg 11) 0)), 11, ⟨meets_inv rfl (by decide), by decide, by decide, by decide⟩⟩,
    ⟨(run
      { (((at_ .standby).putVal (pid kLmpChCfg 11) 0).modChan 11 fun c => { c with setpoint := 5000 }) with seq := { Seq.reset with projecting := ⟨true, true⟩ } }),
      11, ⟨meets_inv rfl (by decide), by decide, by decide, by decide, by decide⟩⟩,
    ⟨(run (((at_ .standby).putVal (pid kLmpChCfg 11) 0).modLside 1 fun p => { p with boost := .run })), 11, ⟨meets_inv rfl (by
      decide), by decide, by decide, by decide, by decide, by decide⟩⟩,
    ⟨(run (at_ .standby)), 12, (.chOpen 12), ⟨by decide, rfl, .inr rfl⟩⟩,
    ⟨(run ((at_ .standby).putVal (pid kLmpChCfg 11) 3)), 11, by decide⟩,
    ⟨(run (at_ .standby)), 12, by decide⟩,
    ⟨(run (at_ .standby)), 11, by decide⟩⟩

theorem test_hyps_BoostEvents :
    (∃ (s : State) (sd : Side), s.dev.Inv ∧ s.dev.govRuns = true ∧ s.dev.sides.contains sd.ix = true ∧ ((s.dev.lside
      sd.ix).boost = .start ∨ (s.dev.lside sd.ix).boost = .run)) ∧
    (∃ (s : State) (sd : Side) (back : Bool), s.dev.govRuns = true ∧ s.dev.sides.contains sd.ix = true ∧ (s.dev.lside
      sd.ix).boost = .ovTrip back) ∧
    (∃ (s : State) (sd : Side), s.dev.govRuns = true ∧ s.dev.sides.contains sd.ix = true ∧ ((s.dev.lside sd.ix).boost.running =
      true ∨ (∃ back, (s.dev.lside sd.ix).boost = .ovTrip back))) ∧
    (∃ (s : State) (sd : Side), s.dev.govRuns = true ∧ s.dev.sides.contains sd.ix = true ∧ (s.dev.lside sd.ix).boost = .uvStop) ∧
    (∃ (s : State) (sd : Side), s.dev.govRuns = true ∧ s.dev.sides.contains sd.ix = true ∧ (s.dev.core.state = .beam ∨
      s.dev.core.state = .degraded) ∧ ((s.dev.lside sd.ix).boost = .start ∨ (s.dev.lside sd.ix).boost = .ovTrip false)) ∧
    (∃ (s : State) (sd : Side), s.dev.govRuns = true ∧ s.dev.sides.contains sd.ix = true) ∧
    (∃ (s : State) (sd : Side), s.dev.govRuns = true ∧ s.dev.sides.contains sd.ix = true ∧ ((s.dev.lside sd.ix).boost = .start ∨
      (s.dev.lside sd.ix).boost = .ovTrip false)) ∧
    (∃ (s : State) (sd : Side), ∃ c : Instr, c ∈ ([.boostOvTrip sd, .boostOvResume sd, .boostUv sd, .boostUvRecovery sd,
      .boostRun sd, .boostFail sd] : List Instr) ∧ (s.dev.govRuns = false ∨ s.dev.sides.contains sd.ix = false)) ∧
    (∃ (s : State) (sd : Side), ∃ c : Instr, c ∈ ([.boostOvTrip sd, .boostOvResume sd, .boostUv sd, .boostUvRecovery sd,
      .boostFail sd] : List Instr) ∧ (s.dev.lside sd.ix).boost = .off) :=
  ⟨⟨(run ((at_ .beam).modLside 1 fun p => { p with boost := .start })), .R, ⟨meets_inv rfl (by decide), by decide, by decide, by
    decide⟩⟩,
    ⟨(run ((at_ .beam).modLside 1 fun p => { p with boost := (.ovTrip true) })), .R, true, by decide⟩,
    ⟨(run ((at_ .beam).modLside 1 fun p => { p with boost := (.ovTrip true) })), .R, ⟨by decide, by decide, .inr ⟨true, rfl⟩⟩⟩,
    ⟨(run ((at_ .beam).modLside 1 fun p => { p with boost := .uvStop })), .R, by decide⟩,
    ⟨(run ((at_ .beam).modLside 1 fun p => { p with boost := (.ovTrip false) })), .R, by decide⟩,
    ⟨(run ((at_ .beam).modLside 1 fun p => { p with boost := .run })), .R, by decide⟩,
    ⟨(run ((at_ .beam).modLside 1 fun p => { p with boost := .start })), .R, by decide⟩,
    ⟨(run Dev.cold), .L, _, ⟨List.mem_cons_self, .inl rfl⟩⟩,
    ⟨(run (at_ .standby)), .L, _, ⟨List.mem_cons_self, rfl⟩⟩⟩

theorem test_hyps_LampInputs :
    (∃ (s : State) (sd : Side) (r : BoardReading), ∃ (t : Int), s.dev.govRuns = true ∧ s.dev.sides.contains sd.ix = true ∧
      (match r with | .ntc _ => s.dev.par kLmpSensorSel sd.ix == 0 | _ => s.dev.par kLmpSensorSel sd.ix == 1) = true ∧
      (s.dev.boardT sd.ix r).1 = some t ∧ (s.dev.lside sd.ix).acceptsT t = true) ∧
    (∃ (s : State) (sd : Side) (r : BoardReading), s.dev.govRuns = true ∧ s.dev.sides.contains sd.ix = true ∧
      (match r with | .ntc _ => s.dev.par kLmpSensorSel sd.ix == 0 | _ => s.dev.par kLmpSensorSel sd.ix == 1) = true ∧ (∀ t,
      (s.dev.boardT sd.ix r).1 = some t → (s.dev.lside sd.ix).acceptsT t = false)) ∧
    (∃ (s : State) (sd : Side) (r : BoardReading), s.dev.govRuns = true ∧ s.dev.sides.contains sd.ix = true ∧
      (match r with | .ntc _ => s.dev.par kLmpSensorSel sd.ix == 0 | _ => s.dev.par kLmpSensorSel sd.ix == 1) = false) ∧
    (∃ (s : State) (sd : Side), s.dev.govRuns = true ∧ s.dev.sides.contains sd.ix = true ∧ (s.dev.lside sd.ix).substituted =
      false) ∧
    (∃ (s : State) (sd : Side) (r : BoardReading), (s.dev.govRuns = false ∨ s.dev.sides.contains sd.ix = false)) ∧
    (∃ (s : State) (sd : Side) (r : BoardReading), (s.dev.lside sd.ix).substituted = true) ∧
    (∃ (s : State) (period high : Nat), s.dev.govRuns = true ∧ 5000 ≤ period ∧ period ≤ 1000000) ∧
    (∃ (s : State) (period high : Nat), s.dev.govRuns = true ∧ (period < 5000 ∨ 1000000 < period)) ∧
    (∃ (s : State) (source : Nat), s.dev.govRuns = true ∧ (source = 1 ∨ source = 2) ∧ (s.dev.lamp.dimIn source).loss = false) ∧
    (∃ (s : State) (source period high : Nat), (s.dev.govRuns = false ∨ source = 0 ∨ 2 < source ∨ (s.dev.lamp.dimIn source).loss
      = true)) ∧
    (∃ (s : State) (source period high : Nat), s.dev.govRuns = false) :=
  ⟨⟨(run ((at_ .standby).putVal (pid kLmpSensorSel 1) 1)), .R, (.i2c 6400), _, ⟨by decide, by decide, by decide, rfl, by decide⟩⟩,
    ⟨(run ((at_ .standby).putVal (pid kLmpSensorSel 1) 1)), .R, .i2cFailed, ⟨by decide, by decide, by decide, (fun _ h =>
      nomatch h)⟩⟩,
    ⟨(run ((at_ .standby).putVal (pid kLmpSensorSel 1) 1)), .R, (.ntc 5), by decide⟩,
    ⟨(run (at_ .standby)), .R, by decide⟩,
    ⟨(run Dev.cold), .L, .i2cFailed, by decide⟩,
    ⟨(run ((at_ .beam).modLside 1 fun p => { p with substituted := true })), .R, .i2cFailed, by decide⟩,
    ⟨(run (at_ .standby)), 1000000, 0, by decide⟩,
    ⟨(run (at_ .standby)), 1000001, 0, by decide⟩,
    ⟨(run { at_ .standby with lamp := { Lamp.reset with pwm := { DimIn.reset with loss := false } } }), 1, by decide⟩,
    ⟨(run (at_ .standby)), 3, 0, 0, by decide⟩,
    ⟨(run Dev.cold), 0, 0, 0, by decide⟩⟩

theorem test_hyps_AuxOutputs :
    (∃ (s : State) (sd : Side) (n : Nat), s.dev.Inv ∧ s.dev.sides.contains sd.ix = true ∧ (s.dev.auxRuns = true ∨
      (s.dev.core.state = .safe ∧ s.dev.core.acornService = false)) ∧ n = ((s.dev.applyVal (pid kAuxSegCount sd.ix)).applyVal
      (pid kAuxSegPeriod sd.ix)).par kAuxSegCount sd.ix) ∧
    (∃ (s : State) (sd : Side), (s.dev.sides.contains sd.ix = false ∨ (s.dev.auxRuns = false ∧ (s.dev.core.state ≠ .safe ∨
      s.dev.core.acornService = true)))) ∧
    (∃ (s : State), s.dev.Inv ∧ s.dev.auxRuns = true ∧ (∃ t, t < 4 ∧ (s.dev.target t).st = .write)) ∧
    (∃ (s : State), (s.dev.auxRuns = false ∨ (∀ t, t < 4 → (s.dev.target t).st ≠ .write))) ∧
    (∃ (s : State) (t : Nat), s.dev.Inv ∧ t < 4 ∧ (s.dev.target t).st ≠ .off) ∧
    (∃ (s : State) (t : Nat), (4 ≤ t ∨ (s.dev.target t).st = .off)) ∧
    (∃ (s : State) (t : Nat), s.dev.Inv ∧ t < 4 ∧ (s.dev.target t).st ≠ .off ∧ (s.dev.target t).st ≠ .lost ∧ (s.dev.target
      t).lastTe.getD (s.dev.target t).since + msTicks (s.dev.par kAuxMxTeTimeout 0) ≤ s.dev.now) ∧
    (∃ (s : State) (t : Nat), ((s.dev.target t).st = .lost ∨ s.dev.now < (s.dev.target t).lastTe.getD (s.dev.target t).since +
      msTicks (s.dev.par kAuxMxTeTimeout 0))) ∧
    (∃ (s : State) (k next : Nat), s.dev.Inv ∧ s.dev.auxRuns = true ∧ s.dev.par kAuxMxClass 0 = 1 ∧ (s.dev.mxOf 0).en = true ∧ k
      = s.dev.aux.scanLineNo ∧ next = (k + 1) % scanRatio (s.dev.par kAuxMxScan 0)) ∧
    (∃ (s : State), (s.dev.auxRuns = false ∨ s.dev.par kAuxMxClass 0 ≠ 1 ∨ (s.dev.mxOf 0).en = false)) :=
  ⟨⟨(run ((at_ .safe).putVal (pid kAuxSegCount 1) 64)), .R, _, ⟨meets_inv rfl (by decide), by decide, by decide, rfl⟩⟩,
    ⟨(run Dev.cold), .L, by decide⟩,
    ⟨(run ((at_ .standby).modTarget 3 fun t => { t with st := .write })), ⟨meets_inv rfl (by decide), by decide, ⟨3, by decide,
      by decide⟩⟩⟩,
    ⟨(run Dev.cold), by decide⟩,
    ⟨(run ((at_ .standby).modTarget 3 fun t => { t with st := .lost })), 3, ⟨meets_inv rfl (by decide), by decide, by decide⟩⟩,
    ⟨(run (at_ .standby)), 4, by decide⟩,
    ⟨(run
      { ((at_ .standby).modTarget 3 fun t => { t with st := .free }) with clk := { Clk.reset with timeBase := 10000000000 } }),
      3, ⟨meets_inv rfl (by decide), by decide, by decide, by decide, by decide⟩⟩,
    ⟨(run (at_ .standby)), 0, by decide⟩,
    ⟨(run
      { ((at_ .beam).putVal kAuxMxClass 1).setArr kAuxMxTarget 0 (1 :: List.replicate 11 0) with aux := { Aux.reset with scanLineNo := 15 } }),
      15, _, ⟨meets_inv rfl (by decide), by decide, by decide, by decide, by decide, rfl⟩⟩,
    ⟨(run (at_ .standby)), by decide⟩⟩

theorem test_hyps_StoreEvents :
    (∃ (s : State), s.dev.govRuns = true ∧ s.dev.saf.snapNEn = true) ∧
    (∃ (s : State), (s.dev.govRuns = false ∨ s.dev.saf.snapNEn = false)) ∧
    (∃ (s : State) (code inst : Nat), s.dev.faultActive code inst = true ∧ (((faultRow? code).any fun r => r.recovery == .auto)
      = true) ∧ s.dev.autoHolds code inst = true) ∧
    (∃ (s : State) (code inst : Nat), (s.dev.faultActive code inst = false ∨ ((faultRow? code).any fun r => r.recovery == .auto)
      = false ∨ s.dev.autoHolds code inst = false)) ∧
    (∃ (s : State) (f : ActiveFault), f ∈ s.dev.saf.active ∧ s.dev.now < f.raisedAt + 100000000 ∧ ([0x0602, 0x0603, 0x0702,
      0x0703, 0x0805, 0x0903, 0x0A08] : List Nat).contains f.code = true) ∧
    (∃ (s : State), s.dev.ticketHeld (.erase .journal) = true) ∧
    (∃ (s : State), s.dev.ticketHeld (.erase .journal) = false) ∧
    (∃ (s : State), s.dev.Inv ∧ s.dev.jnl.flushing = true) ∧
    (∃ (s : State), s.dev.jnl.flushing = false) ∧
    (∃ (s : State), s.dev.upd.erasing = true ∧ s.dev.ticketHeld (.erase .image) = true) ∧
    (∃ (s : State), (s.dev.upd.erasing = false ∨ s.dev.ticketHeld (.erase .image) = false)) ∧
    (∃ (s : State) (ref : Nat), s.dev.canActive = true) ∧
    (∃ (s : State) (ref : Nat), s.dev.canActive = false) ∧
    (∃ (s : State) (ch : Nat) (v : CalValue) (r : CalRun), s.dev.Inv ∧ s.dev.cal.run = some r ∧ s.dev.calMeasurable r ch = true
      ∧ calFormOk ch v = true) ∧
    (∃ (s : State) (ch : Nat) (v : CalValue), s.dev.cal.run = none) ∧
    (∃ (s : State) (r : ScrubResult), s.dev.Inv ∧ s.dev.govRuns = true) ∧
    (∃ (s : State) (r : ScrubResult), s.dev.govRuns = false) ∧
    (∃ (s : State) (mode : Nat), (∃ ix ∈ s.dev.seq.eccWords, ix / 2048 = mode)) ∧
    (∃ (s : State) (mode : Nat), (∀ ix ∈ s.dev.seq.eccWords, ix / 2048 ≠ mode)) :=
  ⟨⟨(run (at_ .standby)), by decide⟩,
    ⟨(run Dev.cold), by decide⟩,
    ⟨(run
      { at_ .beam with saf := { Saf.reset with active := [⟨0x0804, 0, 0, .rec_, 0, 0, 0, true⟩] }, sht := { Shutter.reset with geomValid := true } }),
      0x0804, 0, by decide⟩,
    ⟨(run (at_ .standby)), 0x0804, 0, by decide⟩,
    ⟨(run { at_ .beam with saf := { Saf.reset with active := [⟨0x0602, 0, 0, .rec_, 0, 0, 0, true⟩] } }), ⟨0x0602, 0, 0, .rec_,
      0, 0, 0, true⟩, ⟨by decide, by decide, by decide⟩⟩,
    ⟨(run { at_ .standby with sluice := { held := [(.erase .journal, 0, 0, 0)], queued := [] } }), by decide⟩,
    ⟨(run (at_ .standby)), by decide⟩,
    ⟨(run { at_ .standby with jnl := { Journal.reset with flushing := true } }), ⟨meets_inv rfl (by decide), by decide⟩⟩,
    ⟨(run (at_ .standby)), by decide⟩,
    ⟨(run
      { at_ .standby with sluice := { held := [(.erase .image, 0, 0, 0)], queued := [] }, upd := { Update.reset with erasing := true, eraseBlock := 31 } }),
      by decide⟩,
    ⟨(run (at_ .standby)), by decide⟩,
    ⟨(run (at_ .standby)), 12500, by decide⟩,
    ⟨(run (at_ .boot)), 250, by decide⟩,
    ⟨(run { at_ .standby with cal := { Cal.reset with run := some calRun } }), 0x60, .invalid, calRun, ⟨meets_inv rfl (by
      decide), by decide, by decide, by decide⟩⟩,
    ⟨(run (at_ .standby)), 0x60, .invalid, by decide⟩,
    ⟨(run (at_ .standby)), ⟨65535, [65535]⟩, ⟨meets_inv rfl (by decide), by decide⟩⟩,
    ⟨(run Dev.cold), ⟨0, []⟩, by decide⟩,
    ⟨(run { at_ .standby with seq := { Seq.reset with eccWords := [0x1F * 2048] } }), 31, ⟨_, List.mem_singleton_self _, rfl⟩⟩,
    ⟨(run (at_ .standby)), 31, fun _ h => nomatch h⟩⟩
end Sys2Proof.Tests
end

section
/-! What each operation leaves of the refresh timeline, and the refresh boundary (O37). -/

namespace Sys2Proof.Machine

open Sys2Proof

/-! ### What the refresh timeline stands on

Faults, calibration, the lamps, the journal and the Shutter engine write the sequencer's words, checks, masks and its list of
projecting sides; none of them moves the refresh timeline. `Dev.KeepsPlace` says this once, and each operation of a refresh
boundary has a lemma. -/

/-- The part of the sequencer that only the refresh timeline itself moves: the place of the refresh, the slot masks, and the mode
change on its way. -/
def Seq.place (q : Seq) : Seq :=
  { Seq.reset with
    started := q.started, refreshCount := q.refreshCount, refreshInCycle := q.refreshInCycle, refreshInFrame := q.refreshInFrame,
    frameDue := q.frameDue, dither := q.dither, maskInForce := q.maskInForce, maskRecorded := q.maskRecorded,
    maskFresh := q.maskFresh, change := q.change }

/-- Device state and mode, and whether the beam ramps down. -/
def Core.standing (c : Core) : Core :=
  { Core.reset with state := c.state, mode := c.mode, baseMode := c.baseMode, rampingDown := c.rampingDown }

/-- The refresh timeline, the device state and the mode are the same in two states of the block. -/
structure Dev.KeepsPlace (a b : Dev) : Prop where
  variant : b.variant = a.variant
  standing : b.core.standing = a.core.standing
  place : b.seq.place = a.seq.place

namespace Dev.KeepsPlace

theorem refl (d : Dev) : d.KeepsPlace d := ⟨rfl, rfl, rfl⟩

theorem trans {a b c : Dev} (h : a.KeepsPlace b) (g : b.KeepsPlace c) : a.KeepsPlace c :=
  ⟨g.variant.trans h.variant, g.standing.trans h.standing, g.place.trans h.place⟩

theorem of_frame {a b : Dev} {l : List Part} (h : a.onlyChanges b l) (hl : (l.contains .seq || l.contains .core) = false) :
    a.KeepsPlace b := by
  obtain ⟨hs, hc⟩ := Bool.or_eq_false_iff.1 hl
  exact ⟨h.1, congrArg Core.standing (h.part .core hc), congrArg Seq.place (h.part .seq hs)⟩

/-- One more operation, whose frame leaves the sequencer and the device state alone. -/
theorem thenFrame {a b c : Dev} {l : List Part} (h : a.KeepsPlace b) (g : b.onlyChanges c l)
    (hl : (l.contains .seq || l.contains .core) = false) : a.KeepsPlace c :=
  h.trans (of_frame g hl)

theorem foldl {α : Type} {f : Dev → α → Dev} (hf : ∀ (e : Dev) x, e.KeepsPlace (f e x)) (xs : List α) (d : Dev) :
    d.KeepsPlace (xs.foldl f d) := by
  induction xs generalizing d with
  | nil => exact refl d
  | cons x xs ih => exact (hf d x).trans (ih _)

variable {a b : Dev}

theorem state (h : a.KeepsPlace b) : b.core.state = a.core.state :=
  (congrArg Core.state h.standing :)
theorem mode (h : a.KeepsPlace b) : b.core.mode = a.core.mode :=
  (congrArg Core.mode h.standing :)
theorem baseMode (h : a.KeepsPlace b) : b.core.baseMode = a.core.baseMode :=
  (congrArg Core.baseMode h.standing :)
theorem rampingDown (h : a.KeepsPlace b) : b.core.rampingDown = a.core.rampingDown :=
  (congrArg Core.rampingDown h.standing :)
theorem started (h : a.KeepsPlace b) : b.seq.started = a.seq.started :=
  (congrArg Seq.started h.place :)
theorem refreshCount (h : a.KeepsPlace b) : b.seq.refreshCount = a.seq.refreshCount :=
  (congrArg Seq.refreshCount h.place :)
theorem refreshInCycle (h : a.KeepsPlace b) : b.seq.refreshInCycle = a.seq.refreshInCycle :=
  (congrArg Seq.refreshInCycle h.place :)
theorem refreshInFrame (h : a.KeepsPlace b) : b.seq.refreshInFrame = a.seq.refreshInFrame :=
  (congrArg Seq.refreshInFrame h.place :)
theorem frameDue (h : a.KeepsPlace b) : b.seq.frameDue = a.seq.frameDue :=
  (congrArg Seq.frameDue h.place :)
theorem dither (h : a.KeepsPlace b) : b.seq.dither = a.seq.dither :=
  (congrArg Seq.dither h.place :)
theorem maskInForce (h : a.KeepsPlace b) : b.seq.maskInForce = a.seq.maskInForce :=
  (congrArg Seq.maskInForce h.place :)
theorem maskRecorded (h : a.KeepsPlace b) : b.seq.maskRecorded = a.seq.maskRecorded :=
  (congrArg Seq.maskRecorded h.place :)
theorem maskFresh (h : a.KeepsPlace b) : b.seq.maskFresh = a.seq.maskFresh :=
  (congrArg Seq.maskFresh h.place :)
theorem change (h : a.KeepsPlace b) : b.seq.change = a.seq.change :=
  (congrArg Seq.change h.place :)

theorem timingMode (h : a.KeepsPlace b) : b.timingMode = a.timingMode := by
  unfold Dev.timingMode
  rw [h.change, h.mode]

theorem rowOf (h : a.KeepsPlace b) (m : Nat) : b.rowOf m = a.rowOf m := by
  unfold Dev.rowOf
  rw [h.baseMode]

theorem row (h : a.KeepsPlace b) : b.row = a.row := by
  unfold Dev.row
  rw [h.timingMode, h.rowOf]

end Dev.KeepsPlace

/-! ### Parts written directly -/

theorem Dev.setJnl_keepsPlace (d : Dev) (j : Journal) : d.KeepsPlace { d with jnl := j } := ⟨rfl, rfl, rfl⟩
theorem Dev.setCal_keepsPlace (d : Dev) (c : Cal) : d.KeepsPlace { d with cal := c } := ⟨rfl, rfl, rfl⟩
theorem Dev.setProjecting_keepsPlace (d : Dev) (p : Pair Bool) : d.KeepsPlace { d with seq := { d.seq with projecting := p } } :=
  ⟨rfl, rfl, rfl⟩
theorem Dev.setSht_keepsPlace (d : Dev) (s : Shutter) : d.KeepsPlace { d with sht := s } := ⟨rfl, rfl, rfl⟩
theorem Dev.setLamp_keepsPlace (d : Dev) (l : Lamp) : d.KeepsPlace { d with lamp := l } := ⟨rfl, rfl, rfl⟩

/-! ### Faults -/

theorem Dev.zeroWords_keepsPlace (d : Dev) (s : Nat) : d.KeepsPlace (d.zeroWords s) := ⟨rfl, rfl, rfl⟩

theorem Dev.safeSide_keepsPlace (d : Dev) (s : Nat) (f : Bool) : d.KeepsPlace (d.safeSide s f) := by
  have h := (((d.zeroWords_keepsPlace s).thenFrame (Dev.stopBoost_only _ s) rfl).thenFrame (Dev.darkSide_only _ s) rfl).thenFrame
    (Dev.modLside_only _ s fun p => { p with r := 0, rRamp := none, ignited := false }) rfl
  have g := h.thenFrame (Dev.modMportEv_only _ s fun p => p.park f) rfl
  exact g.trans ⟨rfl, rfl, rfl⟩

theorem Dev.enterSafe_keepsPlace (d : Dev) (s : Nat) (f : Bool) : d.KeepsPlace (d.enterSafe s f) := by
  unfold Dev.enterSafe
  split
  · split
    · exact .of_frame (Dev.modMportEv_only ..) rfl
    · exact .refl d
  · exact d.safeSide_keepsPlace s f

theorem Dev.safeAll_keepsPlace (d : Dev) (c r : Nat) (f : Bool) : d.KeepsPlace (d.safeAll c r f) :=
  (((Dev.KeepsPlace.foldl (fun e s => e.enterSafe_keepsPlace s f) d.sides d).thenFrame (Dev.pend_only _ .safe c r) rfl).thenFrame
    (Dev.release_only _ .ignition) rfl).thenFrame (Dev.release_only _ .globalReset) rfl

theorem Dev.reactSide_keepsPlace (d : Dev) (s c : Nat) (f : Bool) : d.KeepsPlace (d.reactSide s c f) := by
  unfold Dev.reactSide
  split
  · exact .refl d
  · split
    · exact .of_frame (d.sameTick_only c 2) rfl
    · split
      · exact (d.enterSafe_keepsPlace s f).thenFrame (Dev.pend_only ..) rfl
      · exact d.safeAll_keepsPlace c 2 f

theorem Dev.reactCh_keepsPlace (d : Dev) (c code : Nat) : d.KeepsPlace (d.reactCh c code) := by
  have h : d.KeepsPlace (d.latch c code) := .of_frame (d.latch_only c code) rfl
  unfold Dev.reactCh
  extract_lets d1
  split
  · exact (h.thenFrame (Dev.markSide_only _ code c) rfl).trans (Dev.reactSide_keepsPlace ..)
  · exact h

theorem Dev.react_keepsPlace (d : Dev) (code inst : Nat) (r : Reaction) (f : Bool) : d.KeepsPlace (d.react code inst r f) := by
  unfold Dev.react
  split
  · cases r with
    | rec_ => exact .refl d
    | ch => exact d.reactCh_keepsPlace ..
    | side => exact .foldl (fun e s => e.reactSide_keepsPlace s code f) _ d
    | dev => exact d.safeAll_keepsPlace code 3 f
  · exact .refl d

theorem Dev.raiseWith_keepsPlace (d : Dev) (code inst arg : Nat) (pf f : Bool) : d.KeepsPlace (d.raiseWith code inst arg pf f) := by
  unfold Dev.raiseWith
  split
  · exact .of_frame (d.post_only code arg) rfl
  · split
    · exact .refl d
    · extract_lets d1 s2 d2 own r d3
      have h1 : d.KeepsPlace d1 := Dev.KeepsPlace.thenFrame (.of_frame (d.post_only code arg) rfl) (Dev.setIrq_only _ 2) rfl
      have h2 : d.KeepsPlace d2 := h1.trans ⟨rfl, rfl, rfl⟩
      have h3 : d.KeepsPlace d3 := (h2.thenFrame (Dev.activate_only ..) rfl).trans (Dev.react_keepsPlace ..)
      split
      · exact h3.thenFrame (Dev.snapshot_only _ 4) rfl
      · exact h3

theorem Dev.raise_keepsPlace (d : Dev) (code inst arg : Nat) : d.KeepsPlace (d.raise code inst arg) :=
  d.raiseWith_keepsPlace ..

/-! ### Lamps -/

theorem Dev.partialShort_keepsPlace (d : Dev) (c : Nat) : d.KeepsPlace (d.partialShort c) := by
  unfold Dev.partialShort
  extract_lets ch d0 s vnom dv lim fails meas d1
  have h0 : d.KeepsPlace d0 := .of_frame (Dev.modChan_only ..) rfl
  have h1 : d.KeepsPlace d1 := h0.thenFrame (Dev.modChan_only ..) rfl
  split
  · exact h0
  · split
    · exact (h1.thenFrame (Dev.modChan_only ..) rfl).trans (Dev.raise_keepsPlace ..)
    · split
      · exact (h1.thenFrame (Dev.modChan_only ..) rfl).thenFrame (Dev.clearFault_only ..) rfl
      · exact h1

theorem Dev.boostLimit_keepsPlace (d : Dev) (s : Nat) : d.KeepsPlace (d.boostLimit s) := by
  unfold Dev.boostLimit
  extract_lets p low n d1
  have h1 : d.KeepsPlace d1 := .of_frame (Dev.modLside_only ..) rfl
  split
  · exact h1.trans (Dev.raise_keepsPlace ..)
  · split
    · exact h1
    · exact h1.thenFrame (Dev.clearFault_only ..) rfl

theorem Dev.lampRefresh_keepsPlace (d : Dev) : d.KeepsPlace d.lampRefresh := by
  unfold Dev.lampRefresh
  extract_lets d1 d2 d3 l4 d4
  have h1 : d.KeepsPlace d1 := .foldl (fun e c => (e.partialShort_keepsPlace c).thenFrame (Dev.modChan_only ..) rfl) _ d
  have h2 : d.KeepsPlace d2 := h1.trans (.foldl (fun e s => e.boostLimit_keepsPlace s) _ _)
  have h3 : d.KeepsPlace d3 := h2.trans (.foldl (fun e c => .of_frame (e.releaseChan_only c) rfl) _ _)
  have h4 : d.KeepsPlace d4 := (h3.trans (d3.setLamp_keepsPlace _)).thenFrame (Dev.stepDim_only _) rfl
  refine h4.trans (.foldl (fun e s => ?_) _ _)
  have h := (((Dev.KeepsPlace.of_frame (e.retryBoost_only s) rfl).thenFrame (Dev.stepR_only _ s) rfl).thenFrame
    (Dev.lampTables_only _ s) rfl).thenFrame (Dev.stepJunctions_only _ s) rfl
  exact (h.thenFrame (Dev.modLside_only ..) rfl).thenFrame (Dev.modLside_only ..) rfl

/-! ### The journal -/

theorem Dev.norFail_keepsPlace (d : Dev) (cause : Nat) : d.KeepsPlace (d.norFail cause) :=
  ((d.setJnl_keepsPlace _).thenFrame (Dev.count_only _ kJnlNorFails 0 1) rfl).trans (Dev.raise_keepsPlace ..)

theorem Dev.startPage_keepsPlace (d : Dev) : d.KeepsPlace d.startPage := by
  unfold Dev.startPage
  split
  · exact (d.setJnl_keepsPlace _).thenFrame (Dev.eraseAhead_only _) rfl
  · split
    · exact (d.norFail_keepsPlace 1).thenFrame (Dev.eraseAhead_only _) rfl
    · exact ⟨rfl, rfl, rfl⟩

theorem Dev.kick_keepsPlace (d : Dev) (now : Bool) : d.KeepsPlace (d.kick now) := by
  unfold Dev.kick
  split
  · exact .refl d
  · split
    · exact (d.setJnl_keepsPlace _).trans (Dev.startPage_keepsPlace _)
    · exact .refl d

theorem Dev.sealIfFull_keepsPlace (d : Dev) : d.KeepsPlace d.sealIfFull := by
  unfold Dev.sealIfFull
  split
  · exact Dev.KeepsPlace.trans (.of_frame (d.sealSegment_only 0) rfl) (Dev.kick_keepsPlace ..)
  · exact d.kick_keepsPlace false

theorem Dev.periodicEntry_keepsPlace (d : Dev) (b : Bool) : d.KeepsPlace (d.periodicEntry b) := by
  unfold Dev.periodicEntry
  split
  · exact Dev.KeepsPlace.trans (.of_frame (d.formPeriodic_only b) rfl) (Dev.sealIfFull_keepsPlace _)
  · exact .refl d

/-! ### Calibration -/

theorem Dev.checkRef_keepsPlace (d : Dev) : d.KeepsPlace d.checkRef := by
  unfold Dev.checkRef
  split
  · exact .refl d
  · split
    · exact .refl d
    · split
      · exact .of_frame (Dev.clearFault_only ..) rfl
      · exact (Dev.KeepsPlace.thenFrame (.of_frame (Dev.skipChannels_only ..) rfl) (Dev.post_only ..) rfl).trans
          (Dev.raise_keepsPlace ..)

theorem Dev.beginRun_keepsPlace (d : Dev) : d.KeepsPlace d.beginRun :=
  ((d.checkRef_keepsPlace.thenFrame (Dev.dropLost_only _) rfl).thenFrame (Dev.nextCover_only _ 0) rfl).thenFrame
    (Dev.nextCover_only _ 1) rfl

theorem Dev.askRun_keepsPlace (d : Dev) (sc : BitVec 3) (auto : Bool) (p : Port) (tag : Nat) :
    d.KeepsPlace (d.askRun sc auto p tag).1 := by
  unfold Dev.askRun
  extract_lets d1
  have h1 : d.KeepsPlace d1 := .of_frame (d.request_only .cal) rfl
  split
  · exact (h1.thenFrame (Dev.openRun_only ..) rfl).trans (Dev.beginRun_keepsPlace _)
  · split
    · exact h1.thenFrame (Dev.openRun_only ..) rfl
    · exact h1

theorem Dev.keepsPlace_of_askRun {d e : Dev} {sc : BitVec 3} {auto ok : Bool} {p : Port} {tag : Nat}
    (h : d.askRun sc auto p tag = (e, ok)) : d.KeepsPlace e := by
  have := d.askRun_keepsPlace sc auto p tag
  rwa [h] at this

theorem Dev.storeSet_keepsPlace (d : Dev) (r : CalRun) : d.KeepsPlace (d.storeSet r) := by
  unfold Dev.storeSet
  extract_lets
  exact (d.setCal_keepsPlace _).thenFrame (Dev.request_only ..) rfl

theorem Dev.finishRun_keepsPlace (d : Dev) : d.KeepsPlace d.finishRun := by
  unfold Dev.finishRun
  split
  · exact .refl d
  · next r _ =>
    split
    · exact .refl d
    · extract_lets n d1 d2 c3 d3 d4
      have h1 : d.KeepsPlace d1 := by
        unfold d1
        split
        · exact .refl d
        · exact .of_frame (d.markScopes_only r n) rfl
      have h2 : d.KeepsPlace d2 := ((h1.thenFrame (Dev.count_only ..) rfl).trans (Dev.storeSet_keepsPlace ..)).thenFrame
        (Dev.release_only ..) rfl
      have h3 : d.KeepsPlace d3 := h2.trans (d2.setCal_keepsPlace _)
      have h4 : d.KeepsPlace d4 := by
        unfold d4
        split
        · exact h3
        · exact h3.thenFrame (Dev.finish_only ..) rfl
      split
      · exact h1
      · split
        · exact h4
        · next sc p tag _ =>
          split
          next d6 ok e =>
          have h6 : d.KeepsPlace d6 := (h4.trans (d4.setCal_keepsPlace _)).trans (Dev.keepsPlace_of_askRun e)
          split
          · exact h6
          · exact h6.thenFrame (Dev.finishWith_only ..) rfl

theorem Dev.calAdvance_keepsPlace (d : Dev) : d.KeepsPlace d.calAdvance := by
  unfold Dev.calAdvance
  split
  · exact ((Dev.KeepsPlace.thenFrame (.of_frame d.dropLost_only rfl) (Dev.nextCover_only _ 0) rfl).thenFrame (Dev.nextCover_only _ 1)
      rfl).trans (Dev.finishRun_keepsPlace _)
  · exact .refl d

theorem Dev.calGap_keepsPlace (d : Dev) (s : Nat) : d.KeepsPlace (d.calGap s) :=
  (Dev.KeepsPlace.thenFrame (.of_frame (d.applyWaiting_only _) rfl) (Dev.releaseCovers_only ..) rfl).trans
    (Dev.calAdvance_keepsPlace _)

theorem Dev.calIdle_keepsPlace (d : Dev) : d.KeepsPlace d.calIdle := by
  unfold Dev.calIdle
  split
  · exact Dev.KeepsPlace.trans (.of_frame (d.applyWaiting_only _) rfl) (Dev.finishRun_keepsPlace _)
  · refine .foldl (fun e s => ?_) _ d
    split
    · exact e.calGap_keepsPlace s
    · exact .refl e

theorem Dev.calTicket_keepsPlace (d : Dev) : d.KeepsPlace d.calTicket := by
  unfold Dev.calTicket
  split
  · exact .refl d
  · split
    · exact .refl d
    · split
      · refine Dev.KeepsPlace.trans ?_ ((Dev.calIdle_keepsPlace _).trans (Dev.calAdvance_keepsPlace _))
        split
        · exact d.beginRun_keepsPlace
        · exact .refl d
      · extract_lets c1 d1
        have h1 : d.KeepsPlace d1 := d.setCal_keepsPlace _
        split
        · exact h1
        · exact h1.thenFrame (Dev.finishWith_only ..) rfl

theorem Dev.calRefresh_keepsPlace (d : Dev) : d.KeepsPlace d.calRefresh := by
  unfold Dev.calRefresh
  split
  · exact .refl d
  · extract_lets mine
    exact (((Dev.KeepsPlace.of_frame (d.applyWaiting_only mine) rfl).thenFrame (Dev.releaseCovers_only ..) rfl).thenFrame
      (Dev.dropLost_only _) rfl).thenFrame (Dev.nextCover_only _ 2) rfl |>.trans (Dev.calAdvance_keepsPlace _)

/-! ### The Shutter engine and the masks -/

theorem Dev.modMask_keepsPlace (d : Dev) (s : Nat) (f : MaskBuf → MaskBuf) : d.KeepsPlace (d.modMask s f) := ⟨rfl, rfl, rfl⟩

theorem Dev.clearReady_keepsPlace (d : Dev) : d.KeepsPlace d.clearReady :=
  .foldl (fun e s => e.modMask_keepsPlace s _) _ d

theorem Dev.startRaster_keepsPlace (d : Dev) (k : RasterKind) (l : Option ObjList) : d.KeepsPlace (d.startRaster k l) := by
  unfold Dev.startRaster
  extract_lets e objs time c d1
  have h0 : d.KeepsPlace e.clearReady.drawn := (Dev.KeepsPlace.trans (.of_frame d.applySht_only rfl)
    (Dev.clearReady_keepsPlace _)).thenFrame (Dev.drawn_only _) rfl
  have h1 : d.KeepsPlace d1 := h0.trans (.foldl (fun e s => e.modMask_keepsPlace s _) _ _)
  exact h1.trans (d1.setSht_keepsPlace _)

theorem Dev.repredict_keepsPlace (d : Dev) : d.KeepsPlace d.repredict := by
  unfold Dev.repredict
  extract_lets
  split
  · split
    · exact d.startRaster_keepsPlace ..
    · exact .refl d
  · exact .refl d

theorem Dev.restale_keepsPlace (d : Dev) (old : Int × Int) : d.KeepsPlace (d.restale old) := by
  unfold Dev.restale
  split
  · exact Dev.KeepsPlace.trans (.of_frame d.abandonRaster_only rfl) (Dev.startRaster_keepsPlace ..)
  · exact .refl d

theorem Dev.exchangeMask_keepsPlace (d : Dev) (s : Nat) : d.KeepsPlace (d.exchangeMask s) := by
  unfold Dev.exchangeMask
  split
  · exact (d.modMask_keepsPlace s _).thenFrame (Dev.count_only ..) rfl
  · exact .refl d

/-! ### The refresh that ends, and the beam -/

theorem Dev.endAggregates_keepsPlace (d : Dev) (s : Nat) : d.KeepsPlace (d.endAggregates s) := ⟨rfl, rfl, rfl⟩

theorem Dev.openAggregates_keepsPlace (d : Dev) (s : Nat) : d.KeepsPlace (d.openAggregates s) := ⟨rfl, rfl, rfl⟩

theorem Dev.closeAggregates_keepsPlace (d : Dev) (s : Nat) (b : Bool) : d.KeepsPlace (d.closeAggregates s b) := by
  unfold Dev.closeAggregates
  split
  · exact .refl d
  · split
    · exact .refl d
    · extract_lets s1 q1 d1 acc
      have h1 : d.KeepsPlace d1 := ⟨rfl, rfl, rfl⟩
      split
      · exact (h1.trans (d1.setJnl_keepsPlace _)).thenFrame (Dev.count_only _ kSafRefreshCheckFail s 1) rfl
      · exact h1

theorem Dev.takeBeamReady_keepsPlace (d : Dev) : d.KeepsPlace d.takeBeamReady := by
  unfold Dev.takeBeamReady
  extract_lets c1 s1 d1
  exact (Dev.KeepsPlace.thenFrame (a := d) (b := d1) ⟨rfl, rfl, rfl⟩ (Dev.post_only ..) rfl).thenFrame (Dev.reqEffective_only ..) rfl

theorem Dev.checksDone_keepsPlace (d : Dev) : d.KeepsPlace d.checksDone := by
  unfold Dev.checksDone
  extract_lets d1
  have h1 : d.KeepsPlace d1 := .foldl (fun e s => e.closeAggregates_keepsPlace s false) _ d
  split
  · exact h1.trans (Dev.takeBeamReady_keepsPlace _)
  · exact h1

theorem Dev.endRefresh_keepsPlace (d : Dev) : d.KeepsPlace d.endRefresh := by
  unfold Dev.endRefresh
  split
  · exact .refl d
  · have h0 : d.KeepsPlace (d.modeSides.foldl (fun d s => d.endAggregates s) d) :=
      .foldl (fun e s => e.endAggregates_keepsPlace s) _ d
    exact (h0.trans (Dev.checksDone_keepsPlace _)).thenFrame (Dev.noteBoundary_only _) rfl

/-- With no ramp down under way, the end of the ramps gives a ticket back at most. -/
theorem Dev.afterRamps_keepsPlace {d : Dev} (h : d.core.rampingDown = false) : d.KeepsPlace d.afterRamps := by
  unfold Dev.afterRamps
  split
  · exact .refl d
  · simp only [h, Bool.false_eq_true, false_and, if_false]
    split
    · exact .of_frame (Dev.release_only ..) rfl
    · exact .refl d

theorem Dev.startProjecting_keepsPlace (d : Dev) : d.KeepsPlace d.startProjecting := by
  unfold Dev.startProjecting
  split
  · extract_lets d1
    have h1 : d.KeepsPlace d1 := .foldl (fun e s => (e.setProjecting_keepsPlace _).thenFrame (Dev.calProjection_only _ s) rfl) _ d
    exact h1.trans ⟨rfl, rfl, rfl⟩
  · exact .refl d

theorem Dev.startRefresh_keepsPlace {d : Dev} (h : d.core.rampingDown = false) : d.KeepsPlace d.startRefresh := by
  unfold Dev.startRefresh
  extract_lets d1 d2 d3
  have hl := d.lampRefresh_keepsPlace
  have h1 : d.KeepsPlace d1 := (hl.trans (Dev.afterRamps_keepsPlace (hl.rampingDown.trans h))).trans (Dev.startProjecting_keepsPlace _)
  have h2 : d.KeepsPlace d2 := h1.trans (.foldl (fun e s => e.openAggregates_keepsPlace s) _ _)
  have h3 : d.KeepsPlace d3 := (((((h2.trans (Dev.repredict_keepsPlace _)).thenFrame (Dev.scanRestart_only _) rfl).trans
    (Dev.calRefresh_keepsPlace _)).thenFrame (Dev.askRelease_only _) rfl).thenFrame (Dev.noteRefresh_only _) rfl).thenFrame
    (Dev.sendStat_only _) rfl
  split
  · exact h3.thenFrame (Dev.sendThumb_only _) rfl
  · exact h3

/-- Outside STANDBY nothing waits for a change of mode, and no beam is due. -/
theorem Dev.settle_of_not_standby {d : Dev} (h : d.core.state ≠ .standby) : d.settle = d := by
  have hm : d.settleMode = d := by
    unfold Dev.settleMode
    split
    · next e _ => exact absurd e h
    · rfl
  have hb : d.beamDue = false := by
    unfold Dev.beamDue
    simp [h]
  unfold Dev.settle
  simp [hm, hb]

/-- No mode change begins or ends at a boundary where none is under way. -/
theorem Dev.stepChange_of_none {d : Dev} (h : d.seq.change = .none_) : d.stepChange = d := by
  unfold Dev.stepChange
  simp [h]

theorem Dev.changeDue_of_none {d : Dev} (h : d.seq.change = .none_) : d.changeDue = false := by
  unfold Dev.changeDue
  rw [h]
  split <;> simp_all

/-! ### The refresh boundary -/

/-- The slot masks of the sequencer after a boundary (R119). -/
theorem Dev.stepMask_seq (d : Dev) : d.stepMask.seq = { d.seq with
    maskInForce := (d.seq.maskRecorded.map fun m => d.maskFor d.row m).getD d.seq.maskInForce
    maskRecorded := d.seq.maskFresh, maskFresh := none } := by
  unfold Dev.stepMask
  extract_lets d1
  split
  · next m e =>
    rw [e, (Dev.post_quiet ..).seq]
    rfl
  · next e => rw [e]; rfl

theorem Dev.onlyChanges.core {a b : Dev} {l : List Part} (h : a.onlyChanges b l) (hl : l.contains .core = false) :
    b.core = a.core := h.part .core hl

theorem Dev.stepPlace_core (d : Dev) (b : Bool) : (d.stepPlace b).core = d.core := rfl

theorem Dev.stepMask_core (d : Dev) : d.stepMask.core = d.core := d.stepMask_only.core rfl

/-- The row whose timing runs is decided by the mode and the mode change under way. -/
theorem Dev.row_congr {a b : Dev} (hc : b.core = a.core) (hs : b.seq.change = a.seq.change) : b.row = a.row := by
  unfold Dev.row Dev.rowOf Dev.timingMode
  rw [hc, hs]

theorem Dev.stepMask_row (d : Dev) : d.stepMask.row = d.row := Dev.row_congr d.stepMask_core (by rw [d.stepMask_seq])

theorem Dev.KeepsPlace.stepMask {a b : Dev} (h : a.KeepsPlace b) : a.stepMask.KeepsPlace b.stepMask where
  variant := b.stepMask_only.1.trans (h.variant.trans a.stepMask_only.1.symm)
  standing := by rw [a.stepMask_core, b.stepMask_core, h.standing]
  place := by
    simp only [Seq.place, Dev.stepMask_seq, Dev.maskFor, h.row, h.started, h.refreshCount, h.refreshInCycle, h.refreshInFrame,
      h.frameDue, h.dither, h.maskInForce, h.maskRecorded, h.maskFresh, h.change]

theorem Dev.KeepsPlace.stepPlace {a b : Dev} (h : a.KeepsPlace b) (r : Bool) : (a.stepPlace r).KeepsPlace (b.stepPlace r) where
  variant := h.variant
  standing := h.standing
  place := by
    simp only [Seq.place, Dev.stepPlace, h.row, h.started, h.refreshCount, h.refreshInCycle, h.refreshInFrame, h.maskInForce,
      h.maskRecorded, h.maskFresh, h.change]

/-- At a boundary at which no mode change is under way and the beam does not ramp down, the timeline moves by the mask step and the
place step only (R22, R119, R230): the refresh that ends, the journal, the camera and what the new refresh starts leave it. -/
theorem Dev.refreshBoundary_keepsPlace {d : Dev} (hr : d.timelineRuns = true) (hs : d.core.state ≠ .standby)
    (hp : d.core.rampingDown = false) (hc : d.seq.change = .none_) :
    (d.stepMask.stepPlace false).KeepsPlace d.refreshBoundary := by
  unfold Dev.refreshBoundary
  rw [if_neg (by simp [hr]), Dev.changeDue_of_none hc]
  extract_lets restart natural d1 d2 d3 d3' d4
  have h1 : d.KeepsPlace d1 := d.endRefresh_keepsPlace
  have h2 : d.KeepsPlace d2 := by
    unfold d2
    split
    · exact h1.trans (d1.periodicEntry_keepsPlace _)
    · exact h1
  have h3 : d.stepMask.KeepsPlace d3 := by
    unfold d3
    rw [Dev.stepChange_of_none (h2.change.trans hc)]
    exact h2.stepMask
  have h3' : (d.stepMask.stepPlace false).KeepsPlace d3' :=
    (h3.trans (.foldl (fun e s => e.exchangeMask_keepsPlace s) _ d3)).stepPlace false
  have h4 : (d.stepMask.stepPlace false).KeepsPlace d4 := (((h3'.thenFrame (Dev.applyVal_only ..) rfl).thenFrame
    (Dev.takeCamParams_only _) rfl).thenFrame (Dev.stepGroup_only _) rfl).thenFrame (Dev.stepPeriod_only _) rfl
  have hcore : (d.stepMask.stepPlace false).core = d.core := (Dev.stepPlace_core ..).trans d.stepMask_core
  have h5 := h4.trans (Dev.startRefresh_keepsPlace (h4.rampingDown.trans (hcore ▸ hp)))
  rwa [Dev.settle_of_not_standby (by rwa [h5.state, hcore])]

/-- Settles O37: the timeline of the block after the boundary is that of the mask step and the place step
(`Dev.refreshBoundary_keepsPlace`), which a calibration run that starts leaves alone; both steps are read off. -/
theorem refreshBoundary : Obligations.RefreshBoundary := by
  unfold Obligations.RefreshBoundary
  refine ⟨fun s hr hs hp hc => ?_, fun s hr => ?_⟩
  · refine Runs.of_on (f := fun d => if d.timelineRuns then d.refreshBoundary.calTicket else d) rfl ?_ ?_
    · simp only [hr, if_true]
      exact Dev.only_then (Dev.calTicket_only _) (by decide) (Dev.refreshBoundary_only _)
    · simp only [hr, if_true]
      have hst : s.dev.core.state ≠ .standby := by
        rcases hs with h | h <;> simp [h]
      have h := (Dev.refreshBoundary_keepsPlace hr hst hp hc).trans s.dev.refreshBoundary.calTicket_keepsPlace
      rw [h.started, h.refreshCount, h.refreshInCycle, h.refreshInFrame, h.dither, h.maskInForce, h.maskRecorded, h.maskFresh,
        h.state, h.mode, Dev.stepPlace_core, Dev.stepMask_core]
      simp only [Dev.stepPlace, Dev.stepMask_row, Dev.stepMask_seq]
      cases s.dev.seq.started <;> simp
  · show State.on s _ = _
    unfold State.on
    simp [hr]

end Sys2Proof.Machine
end

section
/-! What a row, a pass, a stall and a copy leave of the compose pipes, and the events of composition (O55). -/

namespace Sys2Proof.Machine

open Sys2Proof

/-! ### The compose pipes

What a compose-frame start does between the exchange and the new passes leaves the pipes alone. -/

/-- The pipes, and whether DRAM traffic stalls: what passes stand on. -/
def Compose.passing (c : Compose) : Compose :=
  { Compose.reset with pipes := c.pipes, dramStalled := c.dramStalled, tableCommit := c.tableCommit }

/-- The passes are the same in two states of the block. -/
structure Dev.KeepsPasses (a b : Dev) : Prop where
  passing : b.cmp.passing = a.cmp.passing

namespace Dev.KeepsPasses

theorem refl (d : Dev) : d.KeepsPasses d := ⟨rfl⟩

theorem trans {a b c : Dev} (h : a.KeepsPasses b) (g : b.KeepsPasses c) : a.KeepsPasses c :=
  ⟨g.passing.trans h.passing⟩

theorem of_frame {a b : Dev} {l : List Part} (h : a.onlyChanges b l) (hl : l.contains .cmp = false) : a.KeepsPasses b :=
  ⟨congrArg Compose.passing (h.part .cmp hl)⟩

/-- One more operation, whose frame leaves composition alone. -/
theorem thenFrame {a b c : Dev} {l : List Part} (h : a.KeepsPasses b) (g : b.onlyChanges c l) (hl : l.contains .cmp = false) :
    a.KeepsPasses c :=
  h.trans (of_frame g hl)

theorem foldl {α : Type} {f : Dev → α → Dev} (hf : ∀ (e : Dev) x, e.KeepsPasses (f e x)) (xs : List α) (d : Dev) :
    d.KeepsPasses (xs.foldl f d) := by
  induction xs generalizing d with
  | nil => exact refl d
  | cons x xs ih => exact (hf d x).trans (ih _)

theorem foldl_fst {α β : Type} {f : Dev × β → α → Dev × β} (hf : ∀ (r : Dev × β) x, r.1.KeepsPasses (f r x).1) (xs : List α) (r : Dev × β) :
    r.1.KeepsPasses (xs.foldl f r).1 := by
  induction xs generalizing r with
  | nil => exact refl r.1
  | cons x xs ih => exact (hf r x).trans (ih _)

variable {a b : Dev}

theorem pipes (h : a.KeepsPasses b) : b.cmp.pipes = a.cmp.pipes :=
  (congrArg Compose.pipes h.passing :)
theorem dramStalled (h : a.KeepsPasses b) : b.cmp.dramStalled = a.cmp.dramStalled :=
  (congrArg Compose.dramStalled h.passing :)
theorem tableCommit (h : a.KeepsPasses b) : b.cmp.tableCommit = a.cmp.tableCommit :=
  (congrArg Compose.tableCommit h.passing :)

theorem pipe (h : a.KeepsPasses b) (s : Nat) : b.pipe s = a.pipe s := by
  unfold Dev.pipe
  rw [h.pipes]

end Dev.KeepsPasses

theorem Dev.setCmp_only (d : Dev) (c : Compose) : d.onlyChanges { d with cmp := c } [.cmp] :=
  Dev.only_mk (Dev.only_refl d _) (by simp)
theorem Dev.setSeq_only (d : Dev) (q : Seq) : d.onlyChanges { d with seq := q } [.seq] :=
  Dev.only_mk (Dev.only_refl d _) (by simp)

theorem Dev.onlyChanges.pipe {a b : Dev} {l : List Part} (h : a.onlyChanges b l) (hl : l.contains .cmp = false) (s : Nat) :
    b.pipe s = a.pipe s :=
  (Dev.KeepsPasses.of_frame h hl).pipe s

theorem Dev.modLayer_keepsPasses (d : Dev) (n : Nat) (f : Layer → Layer) : d.KeepsPasses (d.modLayer n f) := ⟨rfl⟩
theorem Dev.modGroup_keepsPasses (d : Dev) (n : Nat) (f : Group → Group) : d.KeepsPasses (d.modGroup n f) := ⟨rfl⟩

theorem Dev.setEarly_keepsPasses (d : Dev) (l : List (Nat × Nat)) : d.KeepsPasses { d with cmp := { d.cmp with early := l } } :=
  ⟨rfl⟩

/-! ### Groups and layers at a compose-frame start -/

theorem Dev.storeEarly_keepsPasses (d : Dev) (f t : Nat) : d.KeepsPasses (d.storeEarly f t) := by
  unfold Dev.storeEarly
  split
  · exact .refl d
  · split
    · exact (d.setEarly_keepsPasses _).thenFrame (Dev.count_only ..) rfl
    · exact d.setEarly_keepsPasses _

theorem Dev.storeUnnamed_keepsPasses (d : Dev) (fs : List (Nat × Option Nat)) : d.KeepsPasses (d.storeUnnamed fs) := by
  refine .foldl (fun e f => ?_) fs d
  split
  · split
    · exact .refl e
    · exact e.storeEarly_keepsPasses ..
  · exact .refl e

theorem Dev.applyLayer_keepsPasses (d : Dev) (n : Nat) : d.KeepsPasses (d.applyLayer n) := by
  unfold Dev.applyLayer
  extract_lets d1 d2 keys
  have h1 : d.KeepsPasses d1 := by
    unfold d1
    split
    · exact d.modLayer_keepsPasses ..
    · exact .refl d
  have h2 : d.KeepsPasses d2 := by
    unfold d2
    split
    · exact h1.trans (d1.modLayer_keepsPasses ..)
    · exact h1
  exact (h2.trans (.foldl (fun e k => .of_frame (e.applyVal_only (pid k n)) rfl) keys d2)).thenFrame (Dev.applyArr_only ..) rfl

theorem Dev.commitGroup_keepsPasses (d : Dev) (w : CfsWork) (g : Nat) : d.KeepsPasses (d.commitGroup w g).1 := by
  unfold Dev.commitGroup
  extract_lets ns grp c moved left_
  split
  · have h : d.KeepsPasses (d.disarm g) := (d.modGroup_keepsPasses ..).trans (Dev.storeUnnamed_keepsPasses ..)
    exact (h.thenFrame (Dev.finishWith_only ..) rfl).thenFrame (Dev.post_only ..) rfl
  · next bound free _ =>
    extract_lets freed d1 d2 d3
    have h1 : d.KeepsPasses d1 := ⟨rfl⟩
    have h2 : d.KeepsPasses d2 :=
      h1.trans (.foldl (fun e n => (e.modLayer_keepsPasses n _).trans (Dev.applyLayer_keepsPasses _ n)) ns d1)
    have h3 : d.KeepsPasses d3 := h2.trans (d2.modGroup_keepsPasses ..)
    exact (h3.thenFrame (Dev.count_only ..) rfl).thenFrame (Dev.finish_only ..) rfl

theorem Dev.commitGroups_keepsPasses (d : Dev) : d.KeepsPasses d.commitGroups.1 := by
  refine .foldl_fst (fun r g => ?_) _ (d, _)
  dsimp only
  split
  · exact r.1.commitGroup_keepsPasses ..
  · exact .refl r.1

theorem Dev.countLate_keepsPasses (d : Dev) : d.KeepsPasses d.countLate := by
  refine .foldl (fun e g => ?_) _ d
  split
  · extract_lets early d1
    have h : e.KeepsPasses ((e.count kPlcLate g 1).modGroup g fun x => { x with lateRun := true }) :=
      .trans (.of_frame (e.count_only ..) rfl) (Dev.modGroup_keepsPasses ..)
    have h1 : e.KeepsPasses d1 := h.trans (.foldl (fun d n => d.modLayer_keepsPasses n _) _ _)
    split
    · exact h1.thenFrame (Dev.post_only ..) rfl
    · exact h1
  · exact .foldl (fun d n => d.modLayer_keepsPasses n _) _ e

theorem Dev.destroyLayer_keepsPasses (d : Dev) (n : Nat) : d.KeepsPasses (d.destroyLayer n) := by
  unfold Dev.destroyLayer
  extract_lets cmds c1 d1
  have h1 : d.KeepsPasses (d1.modLayer n fun l => { l with st := .destroyed, scalers := [] }) := ⟨rfl⟩
  exact h1.trans (.foldl (fun e c => .of_frame (e.finish_only c.1 c.2.tag stOk []) rfl) cmds _)

theorem Dev.destroyDueLayers_keepsPasses (d : Dev) : d.KeepsPasses d.destroyDueLayers := by
  refine .foldl (fun e n => ?_) _ d
  extract_lets l
  split
  · exact e.destroyLayer_keepsPasses n
  · exact .refl e

theorem Dev.stalePolicies_keepsPasses (d : Dev) (gs : List Nat) : d.KeepsPasses (d.stalePolicies gs) := by
  refine .foldl (fun e n => ?_) _ d
  extract_lets l
  split
  · exact .refl e
  · split
    · exact (e.modLayer_keepsPasses n _).thenFrame (Dev.post_only ..) rfl
    · split
      · exact (e.modLayer_keepsPasses n _).thenFrame (Dev.post_only ..) rfl
      · exact .refl e

theorem Dev.reclaim_keepsPasses (d : Dev) (n : Nat) (l : Layer) : d.KeepsPasses (d.reclaim n l) := ⟨rfl⟩

theorem Dev.retireLayer_keepsPasses (d : Dev) (n : Nat) (moved : Bool) : d.KeepsPasses (d.retireLayer n moved) := by
  have h : d.KeepsPasses (((d.layer n).held moved).foldl (fun d f => d.retire n f.1 f.2) d) :=
    .foldl (fun e f => .of_frame (e.retire_only ..) rfl) _ d
  exact h.trans (Dev.reclaim_keepsPasses ..)

theorem Dev.retireDue_keepsPasses (d : Dev) (w : CfsWork) : d.KeepsPasses (d.retireDue w) := by
  have h : d.KeepsPasses (w.left_.foldl (fun d r => d.retire r.1 r.2 true) d) :=
    .foldl (fun e r => .of_frame (e.retire_only ..) rfl) _ d
  refine h.trans (.foldl (fun e n => ?_) (List.range 8) _)
  split
  · exact e.retireLayer_keepsPasses ..
  · exact .refl e

theorem Dev.stepBase_keepsPasses (d : Dev) (s : Nat) : d.KeepsPasses (d.stepBase s) := by
  unfold Dev.stepBase
  extract_lets d1 old
  split
  next img want bad _ =>
  extract_lets b new d2 d3
  have h2 : d.KeepsPasses d2 := ⟨rfl⟩
  have h3 : d.KeepsPasses d3 := by
    unfold d3
    split
    · exact h2
    · exact h2.trans ⟨rfl⟩
  split
  · exact h3.thenFrame (Dev.raise_only ..) rfl
  · exact h3

/-- The tables go live and the commit is taken; nothing else of composition moves (R188). -/
theorem Dev.applyTables_cmp (d : Dev) : d.applyTables.cmp = { d.cmp with tableCommit := 0 } := by
  unfold Dev.applyTables
  extract_lets w keys d1 c2 d2
  split
  · next h => rw [← h]
  · have h1 : d.onlyChanges d1 [.prm] :=
      Dev.only_foldl _ (fun e b => Dev.only_foldl _ (fun e k => Dev.only_foldl _ (fun e i => e.applyArr_only _) (Dev.only_refl ..))
        (Dev.only_refl ..)) (Dev.only_refl ..)
    have hc : d1.cmp = d.cmp := h1.part .cmp rfl
    have h2 : Dev.onlyChanges { d1 with cmp := { d1.cmp with tableCommit := 0 } } d2 [.saf] :=
      Dev.only_foldl _ (fun e s => e.modRects_only s _) (Dev.only_refl ..)
    have hc2 : d2.cmp = { d1.cmp with tableCommit := 0 } := h2.part .cmp rfl
    rw [(Dev.post_quiet ..).cmp, hc2, hc]

/-! ### Buffers at a compose-frame start -/

theorem Dev.pipe_modPipe_ne (d : Dev) {s k : Nat} (f : Pipe → Pipe) (h : (s = 0) ≠ (k = 0)) : (d.modPipe s f).pipe k = d.pipe k :=
  Pair.get_mod_ne _ _ h

/-- The sides of a pass are worked on one after the other, each on its own pipe: what holds of a pipe after its own turn holds of it
in the end. -/
theorem Dev.foldl_sides_pipe {d : Dev} {f : Dev → Nat → Dev} {I : Dev → Prop} {Q : Nat → Pipe → Prop} {xs : List Nat}
    (hx : xs = [0] ∨ xs = [0, 1]) (h0 : I d) (hI : ∀ e s, I e → I (f e s))
    (hother : ∀ e s k, (s = 0) ≠ (k = 0) → (f e s).pipe k = e.pipe k)
    (hself : ∀ e s, I e → e.pipe s = d.pipe s → Q s ((f e s).pipe s)) :
    I (xs.foldl f d) ∧ ∀ k ∈ xs, Q k ((xs.foldl f d).pipe k) := by
  have hq0 : Q 0 ((f d 0).pipe 0) := hself d 0 h0 rfl
  rcases hx with rfl | rfl
  · refine ⟨hI d 0 h0, fun k hk => ?_⟩
    obtain rfl := List.mem_singleton.1 hk
    exact hq0
  · have h10 : (f (f d 0) 1).pipe 0 = (f d 0).pipe 0 := hother _ 1 0 (by simp)
    have h01 : (f d 0).pipe 1 = d.pipe 1 := hother d 0 1 (by simp)
    refine ⟨hI _ 1 (hI d 0 h0), fun k hk => ?_⟩
    rcases List.mem_pair.1 hk with rfl | rfl
    · show Q 0 ((f (f d 0) 1).pipe 0)
      rwa [h10]
    · exact hself _ 1 (hI d 0 h0) h01

theorem Dev.sides_cases (d : Dev) : d.sides = [0] ∨ d.sides = [0, 1] := by
  unfold Dev.sides
  split
  · exact .inr rfl
  · exact .inl rfl

theorem Dev.composeSides_cases (d : Dev) : d.composeSides = [0] ∨ d.composeSides = [0, 1] := by
  unfold Dev.composeSides
  split
  · exact .inr rfl
  · exact .inl rfl

/-- A pass that ends unfinished: its pipe stands still and its back buffer is empty. -/
def Pipe.dropped (p : Pipe) : Pipe := { p with running := false, behind := false, backReady := false, back := [], backTap := [] }

theorem Dev.dropPass_pipe (d : Dev) (s : Nat) : (d.dropPass s).pipe s = (d.pipe s).dropped := by
  unfold Dev.dropPass
  rw [(Dev.release_only ..).pipe rfl, Dev.pipe_modPipe_self]
  rfl

theorem Dev.dropPass_pipe_ne (d : Dev) {s k : Nat} (h : (s = 0) ≠ (k = 0)) : (d.dropPass s).pipe k = d.pipe k := by
  unfold Dev.dropPass
  rw [(Dev.release_only ..).pipe rfl, Dev.pipe_modPipe_ne _ _ h]

theorem Dev.exchange_front (d : Dev) (s : Nat) :
    ((d.exchange s).pipe s).front = if (d.pipe s).backReady then (d.pipe s).back else (d.pipe s).front := by
  unfold Dev.exchange
  split
  · rw [Dev.pipe_modPipe_self]
    rfl
  · rfl

theorem Dev.exchange_pipe_ne (d : Dev) {s k : Nat} (h : (s = 0) ≠ (k = 0)) : (d.exchange s).pipe k = d.pipe k := by
  unfold Dev.exchange
  split
  · exact Dev.pipe_modPipe_ne _ _ h
  · rfl

theorem Dev.endUnfinished_front (d : Dev) (s : Nat) : ((d.endUnfinished s).pipe s).front = (d.pipe s).front := by
  unfold Dev.endUnfinished
  split
  · rw [(Dev.post_only ..).pipe rfl, (Dev.count_only ..).pipe rfl, Dev.dropPass_pipe]
    rfl
  · rfl

theorem Dev.endUnfinished_pipe_ne (d : Dev) {s k : Nat} (h : (s = 0) ≠ (k = 0)) : (d.endUnfinished s).pipe k = d.pipe k := by
  unfold Dev.endUnfinished
  split
  · rw [(Dev.post_only ..).pipe rfl, (Dev.count_only ..).pipe rfl, Dev.dropPass_pipe_ne _ h]
  · rfl

theorem Dev.dropPass_dramStalled (d : Dev) (s : Nat) : (d.dropPass s).cmp.dramStalled = d.cmp.dramStalled :=
  (Dev.KeepsPasses.of_frame (Dev.release_only ..) rfl).dramStalled

theorem Dev.exchange_endUnfinished_dramStalled (d : Dev) (s : Nat) :
    ((d.exchange s).endUnfinished s).cmp.dramStalled = d.cmp.dramStalled := by
  have h : (d.exchange s).cmp.dramStalled = d.cmp.dramStalled := by
    unfold Dev.exchange
    split <;> rfl
  unfold Dev.endUnfinished
  split
  · rw [(Dev.KeepsPasses.of_frame (Dev.post_only ..) rfl).dramStalled, (Dev.KeepsPasses.of_frame (Dev.count_only ..) rfl).dramStalled,
      Dev.dropPass_dramStalled, h]
  · exact h

/-- Complete buffers exchange (R20), and DRAM traffic goes on as it did. -/
theorem Dev.exchange_endUnfinished_front (d : Dev) {xs : List Nat} (hx : xs = [0] ∨ xs = [0, 1]) :
    (xs.foldl (fun d s => (d.exchange s).endUnfinished s) d).cmp.dramStalled = d.cmp.dramStalled ∧
    ∀ k ∈ xs, ((xs.foldl (fun d s => (d.exchange s).endUnfinished s) d).pipe k).front =
      if (d.pipe k).backReady then (d.pipe k).back else (d.pipe k).front := by
  refine Dev.foldl_sides_pipe (I := fun e => e.cmp.dramStalled = d.cmp.dramStalled)
    (Q := fun s p => p.front = if (d.pipe s).backReady then (d.pipe s).back else (d.pipe s).front) hx rfl
    (fun e s he => (e.exchange_endUnfinished_dramStalled s).trans he) (fun e s k h => ?_) (fun e s _ he => ?_)
  · rw [Dev.endUnfinished_pipe_ne _ h, Dev.exchange_pipe_ne _ h]
  · rw [Dev.endUnfinished_front, Dev.exchange_front, he]

/-- A pass of mode m has begun on a pipe whose front buffer is f (R160). -/
structure Pipe.Begun (p : Pipe) (m : Nat) (f : List (List Pix)) : Prop where
  running : p.running = true
  nextRow : p.nextRow = 0
  mode : p.mode = m
  back : p.back = []
  backReady : p.backReady = false
  front : p.front = f

theorem Dev.startPass_begun (d : Dev) (s m : Nat) (b x : Bool) : ((d.startPass s m b x).pipe s).Begun m (d.pipe s).front := by
  unfold Dev.startPass
  extract_lets off d1 d2 d3
  have h : (d3.modRects s fun q => if q.armNext then { q with armNext := false, refOffset := some off } else q).pipe s = d3.pipe s :=
    rfl
  rw [h]
  unfold d3 d2 d1
  simp only [Dev.pipe_modPipe_self]
  exact ⟨rfl, rfl, rfl, rfl, rfl, rfl⟩

theorem Dev.startPass_pipe_ne (d : Dev) {s k : Nat} (m : Nat) (b x : Bool) (h : (s = 0) ≠ (k = 0)) :
    (d.startPass s m b x).pipe k = d.pipe k := by
  unfold Dev.startPass
  extract_lets off d1 d2 d3
  exact ((Dev.pipe_modPipe_ne _ _ h).trans (Dev.pipe_modPipe_ne _ _ h)).trans (Dev.pipe_modPipe_ne _ _ h)

theorem Dev.abandon_pipe_ne (d : Dev) {s k : Nat} (b : Bool) (h : (s = 0) ≠ (k = 0)) : (d.abandon s b).pipe k = d.pipe k := by
  unfold Dev.abandon
  split
  · rw [(Dev.post_only ..).pipe rfl, Dev.dropPass_pipe_ne _ h]
  · rfl

/-! ### The start of the passes -/

/-- What decides whether a compose-frame start starts passes, and in which mode; it starts them, where DRAM traffic does not stall,
in a mode that is not changing (R160, R164). -/
structure Dev.StartsPasses (d : Dev) : Prop where
  composes : d.composes = true
  full : d.thm.stage ≠ 1 ∧ d.thm.stage ≠ 2
  settled : d.seq.change = .none_
  traffic : d.cmp.dramStalled = false

theorem Dev.StartsPasses.unthrottled {d : Dev} (h : d.StartsPasses) : (d.thm.stage == 1 || d.thm.stage == 2) = false := by
  simp [h.full]

theorem Dev.bridgeBusy_of_none {d : Dev} (h : d.seq.change = .none_) : d.bridgeBusy = false := by
  unfold Dev.bridgeBusy
  rw [h]

theorem Dev.timingMode_of_none {d : Dev} (h : d.seq.change = .none_) : d.timingMode = d.core.mode := by
  unfold Dev.timingMode
  rw [h]

/-- The state in which a start begins its passes, while it begins them. -/
structure Dev.Beginning (d e : Dev) : Prop where
  core : e.core = d.core
  settled : e.seq.change = .none_
  traffic : e.cmp.dramStalled = false
  tables : e.cmp.tableCommit = d.cmp.tableCommit

theorem Dev.Beginning.startPass {d e : Dev} (h : d.Beginning e) (s m : Nat) (b x : Bool) : d.Beginning (e.startPass s m b x) where
  core := ((Dev.startPass_only ..).core rfl).trans h.core
  settled := (congrArg Seq.change ((Dev.startPass_only e s m b x).part .seq rfl)).trans h.settled
  traffic := h.traffic
  tables := h.tables

/-- The clock and the parity of a start that no throttle stage holds back (R164, R400). -/
def Dev.unthrottledStart (d : Dev) : Dev := { d with cmp := { d.cmp with passParity := false, halfClock := d.thm.stage == 2 } }

/-- One side's new pass at a compose-frame start. -/
def Dev.beginPass (moved : List Nat) (d : Dev) (s : Nat) : Dev :=
  let expects := moved.any fun n => d.par kSafFreezeWatch n == 1 && (d.layer n).reaches d.row s (d.cmp.dx, d.cmp.dy)
  let d2 := d.startPass s d.timingMode false expects
  if d.cmp.dramStalled then d2.abandon s (!(d.pll 1).locked) else d2

theorem Dev.startPasses_eq {d : Dev} (h : d.StartsPasses) (moved : List Nat) :
    d.startPasses moved = d.composeSides.foldl (Dev.beginPass moved) d.unthrottledStart := by
  have hgo : ¬((!d.unthrottledStart.composes) = true ∨ d.unthrottledStart.bridgeBusy = true) := by
    rw [show d.unthrottledStart.composes = d.composes from rfl, Dev.bridgeBusy_of_none (d := d.unthrottledStart) h.settled]
    simp [h.composes]
  unfold Dev.startPasses
  simp only [h.unthrottled, Bool.false_eq_true, if_false, false_and, false_or]
  exact if_neg hgo

theorem Dev.beginPass_pipe_ne (moved : List Nat) (d : Dev) {s k : Nat} (h : (s = 0) ≠ (k = 0)) :
    (d.beginPass moved s).pipe k = d.pipe k := by
  unfold Dev.beginPass
  extract_lets x d2
  have h2 : d2.pipe k = d.pipe k := d.startPass_pipe_ne _ _ _ h
  split
  · rw [Dev.abandon_pipe_ne _ _ h, h2]
  · exact h2

theorem Dev.Beginning.beginPass_eq {d e : Dev} (h : d.Beginning e) (moved : List Nat) (s : Nat) :
    ∃ x, e.beginPass moved s = e.startPass s d.core.mode false x := by
  unfold Dev.beginPass
  rw [Dev.timingMode_of_none h.settled, h.core, h.traffic]
  exact ⟨_, rfl⟩

/-- Every compose pipe at work begins a pass of the mode in force, on the front buffer that it had (R160). -/
theorem Dev.startPasses_begun {d : Dev} (h : d.StartsPasses) (moved : List Nat) :
    d.Beginning (d.startPasses moved) ∧
      ∀ k ∈ d.composeSides, ((d.startPasses moved).pipe k).Begun d.core.mode (d.pipe k).front := by
  rw [Dev.startPasses_eq h]
  refine Dev.foldl_sides_pipe (d := d.unthrottledStart) (Q := fun k p => p.Begun d.core.mode (d.pipe k).front) d.composeSides_cases
    ⟨rfl, h.settled, h.traffic, rfl⟩ (fun e s he => ?_) (fun e s k hk => e.beginPass_pipe_ne moved hk) (fun e s he hp => ?_)
  · obtain ⟨x, hx⟩ := he.beginPass_eq moved s
    rw [hx]
    exact he.startPass ..
  · obtain ⟨x, hx⟩ := he.beginPass_eq moved s
    rw [hx, show d.pipe s = d.unthrottledStart.pipe s from rfl, ← hp]
    exact e.startPass_begun ..

/-! ### The compose-frame start (Table 6-9) -/

/-- What a compose-frame start does before it starts passes: neither the timeline nor the throttle stage nor a pipe moves. -/
structure Dev.KeepsStart (a b : Dev) : Prop where
  place : a.KeepsPlace b
  thm : b.thm = a.thm
  passes : a.KeepsPasses b

namespace Dev.KeepsStart

theorem trans {a b c : Dev} (h : a.KeepsStart b) (g : b.KeepsStart c) : a.KeepsStart c :=
  ⟨h.place.trans g.place, g.thm.trans h.thm, h.passes.trans g.passes⟩

theorem of_passes {a b : Dev} {l : List Part} (h : a.KeepsPasses b) (f : a.onlyChanges b l)
    (hl : ((l.contains .seq || l.contains .core) || l.contains .thm) = false) : a.KeepsStart b := by
  obtain ⟨hp, ht⟩ := Bool.or_eq_false_iff.1 hl
  exact ⟨.of_frame f hp, f.part .thm ht, h⟩

theorem of_frame {a b : Dev} {l : List Part} (f : a.onlyChanges b l)
    (hl : (((l.contains .seq || l.contains .core) || l.contains .thm) || l.contains .cmp) = false) : a.KeepsStart b := by
  obtain ⟨hp, hc⟩ := Bool.or_eq_false_iff.1 hl
  exact of_passes (.of_frame f hc) f hp

theorem foldl {α : Type} {f : Dev → α → Dev} (hf : ∀ (e : Dev) x, e.KeepsStart (f e x)) (xs : List α) (d : Dev) :
    d.KeepsStart (xs.foldl f d) := by
  induction xs generalizing d with
  | nil => exact ⟨.refl d, rfl, .refl d⟩
  | cons x xs ih => exact (hf d x).trans (ih _)

end Dev.KeepsStart

theorem Dev.stepBase_keepsPlace (d : Dev) (s : Nat) : d.KeepsPlace (d.stepBase s) := by
  unfold Dev.stepBase
  extract_lets d1 old
  split
  next img want bad _ =>
  extract_lets b new d2 d3
  have h2 : d.KeepsPlace d2 := ⟨rfl, rfl, rfl⟩
  have h3 : d.KeepsPlace d3 := by
    unfold d3
    split
    · exact h2
    · exact h2.thenFrame (Dev.modRects_only ..) rfl
  split
  · exact h3.trans (Dev.raise_keepsPlace ..)
  · exact h3

theorem Dev.stepBase_keepsStart (d : Dev) (s : Nat) : d.KeepsStart (d.stepBase s) :=
  ⟨d.stepBase_keepsPlace s, (d.stepBase_only s).part .thm rfl, d.stepBase_keepsPasses s⟩

theorem Dev.stepOffset_keepsPasses (d : Dev) : d.KeepsPasses d.stepOffset := by
  unfold Dev.stepOffset
  extract_lets
  exact ⟨rfl⟩

/-- Scalers that were on their way back are free from this start on. -/
def Dev.scalersBack (d : Dev) : Dev :=
  { d with cmp := { d.cmp with
    scalersFree := (List.range 4).filter fun k => d.cmp.scalersFree.contains k || d.cmp.scalersReturning.contains k,
    scalersReturning := [] } }

/-- The parameters of the offset that a compose-frame start puts in force. -/
def offsetKeys : List Nat := [kCmpLevelPpd, kCmpLevelTau, kCmpBendSource, kCmpBendGain, kCmpLevelMax, kCmpBendMax, kCmpOffsetSlew]

/-- A start up to its tables: buffers have exchanged, unfinished passes have ended, and the tables that wait are live. -/
def Dev.startTables (d : Dev) : Dev :=
  (offsetKeys.foldl (fun d k => d.applyVal (pid k 0))
    (d.composeSides.foldl (fun d s => (d.exchange s).endUnfinished s) d).scalersBack).applyTables

/-- The rest of a start, from the commits of its groups on. -/
theorem Dev.composeStart_of_settled {d : Dev} (h : d.seq.change = .none_) :
    ∃ (e : Dev) (moved : List Nat), d.startTables.KeepsStart e ∧ d.composeStart = e.startPasses moved := by
  unfold Dev.composeStart
  rw [Dev.bridgeBusy_of_none h]
  extract_lets geo d0 c0 d1
  split
  next d2 w hw =>
  extract_lets d3 d4
  have ht : d1.applyTables = d.startTables := rfl
  have h2 : d.startTables.KeepsStart d2 := by
    have hc : d.startTables.KeepsStart d.startTables.commitGroups.1 :=
      .of_passes (Dev.commitGroups_keepsPasses _) (Dev.commitGroups_only _) rfl
    rw [ht] at hw
    rwa [hw] at hc
  have h3 : d2.KeepsStart d3 := ((Dev.KeepsStart.of_passes (Dev.countLate_keepsPasses _) (Dev.countLate_only _) rfl).trans
    (.of_passes (Dev.destroyDueLayers_keepsPasses _) (Dev.destroyDueLayers_only _) rfl)).trans
    (.of_passes (Dev.stalePolicies_keepsPasses ..) (Dev.stalePolicies_only ..) rfl)
  have h4 : d3.KeepsStart d4 := (Dev.KeepsStart.foldl (fun e s => e.stepBase_keepsStart s) _ _).trans
    (.of_frame (Dev.layer0Request_only _) rfl)
  have h5 : d4.KeepsStart (d4.retireDue w) := .of_passes (Dev.retireDue_keepsPasses ..) (Dev.retireDue_only ..) rfl
  have h6 : (d4.retireDue w).KeepsStart (d4.retireDue w).stepOffset := .of_passes (Dev.stepOffset_keepsPasses _) (Dev.stepOffset_only _) rfl
  exact ⟨_, w.moved, (((h2.trans h3).trans h4).trans h5).trans h6, rfl⟩

theorem Dev.startTables_only (d : Dev) : d.onlyChanges d.startTables [.prm, .sluice, .host, .links, .cmp, .lamp, .saf] := by
  refine Dev.only_then (Dev.applyTables_only _) rfl (Dev.only_foldl _ (fun e k => (e.applyVal_only _).mono rfl) ?_)
  have h : d.onlyChanges (d.composeSides.foldl (fun d s => (d.exchange s).endUnfinished s) d)
      [.prm, .sluice, .host, .links, .cmp, .lamp, .saf] :=
    Dev.only_foldl _ (fun e s => Dev.only_then (Dev.endUnfinished_only ..) rfl ((e.exchange_only s).mono rfl)) (Dev.only_refl ..)
  exact Dev.only_then (Dev.setCmp_only ..) rfl h

theorem Dev.startTables_keepsPlace (d : Dev) : d.KeepsPlace d.startTables := .of_frame d.startTables_only rfl

/-- The pipes of a start are those of the exchange, and no table waits any more. -/
theorem Dev.startTables_cmp (d : Dev) : d.startTables.cmp =
    { (d.composeSides.foldl (fun d s => (d.exchange s).endUnfinished s) d).scalersBack.cmp with tableCommit := 0 } := by
  unfold Dev.startTables
  rw [Dev.applyTables_cmp, (Dev.only_foldl offsetKeys (fun e k => e.applyVal_only (pid k 0)) (Dev.only_refl _ [.prm])).part .cmp rfl]

theorem Dev.startTables_dramStalled (d : Dev) : d.startTables.cmp.dramStalled = d.cmp.dramStalled := by
  rw [Dev.startTables_cmp]
  exact (d.exchange_endUnfinished_front d.composeSides_cases).1

theorem Dev.startTables_front (d : Dev) : ∀ k ∈ d.composeSides,
    (d.startTables.pipe k).front = if (d.pipe k).backReady then (d.pipe k).back else (d.pipe k).front := by
  unfold Dev.pipe
  rw [Dev.startTables_cmp]
  exact (d.exchange_endUnfinished_front d.composeSides_cases).2

theorem Dev.KeepsPlace.composeSides {a b : Dev} (h : a.KeepsPlace b) : b.composeSides = a.composeSides := by
  unfold Dev.composeSides Dev.dual
  rw [h.row, h.variant]

theorem Dev.KeepsPlace.composes {a b : Dev} (h : a.KeepsPlace b) : b.composes = a.composes := by
  unfold Dev.composes
  rw [h.state]

/-- A compose-frame start: complete buffers have exchanged, the tables that waited are live, and every compose pipe at work begins a
pass of the mode in force (R20, R160, R188). -/
theorem Dev.composeStart_begun {d : Dev} (h : d.StartsPasses) :
    d.KeepsPlace d.composeStart ∧ d.composeStart.cmp.tableCommit = 0 ∧
      ∀ k ∈ d.composeSides, (d.composeStart.pipe k).Begun d.core.mode
        (if (d.pipe k).backReady then (d.pipe k).back else (d.pipe k).front) := by
  obtain ⟨e, moved, hk, he⟩ := Dev.composeStart_of_settled h.settled
  have hp : d.KeepsPlace e := d.startTables_keepsPlace.trans hk.place
  have ht : e.thm = d.thm := hk.thm.trans (d.startTables_only.part .thm rfl)
  have hs : e.StartsPasses := {
    composes := hp.composes.trans h.composes
    full := by rw [ht]; exact h.full
    settled := hp.change.trans h.settled
    traffic := (hk.passes.dramStalled.trans d.startTables_dramStalled).trans h.traffic }
  obtain ⟨hb, hq⟩ := Dev.startPasses_begun hs moved
  rw [he]
  refine ⟨hp.thenFrame (Dev.startPasses_only ..) rfl, ?_, fun k hkk => ?_⟩
  · rw [hb.tables, hk.passes.tableCommit, Dev.startTables_cmp]
  · have := hq k (by rwa [hp.composeSides])
    rwa [hp.mode, hk.passes.pipe, d.startTables_front k hkk] at this

/-- The refresh boundary's compose frame has started. -/
def Dev.frameTaken (d : Dev) : Dev := { d with seq := { d.seq with frameDue := false } }

theorem composeFrameStart_runs {s : State} (hr : s.dev.timelineRuns = true) (hd : s.dev.seq.frameDue = true) (h : s.dev.StartsPasses) :
    Runs .composeFrameStart s [.prm, .sluice, .host, .req, .links, .cmp, .seq, .ports, .sht, .lamp, .gov, .aux, .saf, .jnl,
      .free] fun d => d.cmp.tableCommit = 0 ∧ d.seq.frameDue = false ∧ ∀ k ∈ s.dev.composeSides,
      (d.pipe k).Begun s.dev.core.mode (if (s.dev.pipe k).backReady then (s.dev.pipe k).back else (s.dev.pipe k).front) := by
  have he : exec .composeFrameStart s = s.on fun d => ((d.frameTaken.composeStart).restale (d.cmp.dx, d.cmp.dy)).mxCompose := by
    show s.on _ = _
    unfold State.on
    simp only [hr, hd, Bool.and_self, if_true]
    rfl
  obtain ⟨hp, ht, hb⟩ := Dev.composeStart_begun (d := s.dev.frameTaken) ⟨h.composes, h.full, h.settled, h.traffic⟩
  have hf : s.dev.frameTaken.composeStart.onlyChanges ((s.dev.frameTaken.composeStart).restale (s.dev.cmp.dx, s.dev.cmp.dy)).mxCompose
      [.prm, .seq, .host, .links, .aux, .sht, .saf, .free] :=
    Dev.only_then (Dev.mxCompose_only _) rfl ((Dev.restale_only ..).mono rfl)
  refine .of_on he ?_ ⟨?_, ?_, fun k hk => ?_⟩
  · refine Dev.only_then hf rfl (Dev.only_then (Dev.composeStart_only _) rfl ?_)
    exact (s.dev.setSeq_only _).mono rfl
  · rw [(Dev.KeepsPasses.of_frame hf rfl).tableCommit, ht]
  · rw [((hp.trans (Dev.restale_keepsPlace ..)).thenFrame (Dev.mxCompose_only _) rfl).frameDue]
    rfl
  · rw [hf.pipe rfl]
    exact hb k hk

/-! ### Rows (R161, R162, R169) -/

theorem Dev.modPipe_self (d : Dev) (s : Nat) : d.modPipe s (fun p => p) = d := by
  have h : d.cmp.pipes.mod s (fun p => p) = d.cmp.pipes := by
    unfold Pair.mod Pair.set Pair.get
    split <;> rfl
  unfold Dev.modPipe
  rw [h]

/-- Whether a side's pass is behind once its next row starts now (R162). -/
def Dev.behindNext (d : Dev) (s : Side) : Bool :=
  let slot := d.lineSlot s.ix
  if d.inBridge then (d.pipe s.ix).behind
  else if slot + 8 * (d.rowOf (d.pipe s.ix).mode).lineTicks < d.now then true
  else if d.now ≤ slot then false
  else (d.pipe s.ix).behind

/-- Pacing changes nothing of composition but whether the pass is behind. -/
theorem Dev.paceRow_cmp (d : Dev) (s : Side) :
    (d.paceRow s).cmp = (d.modPipe s.ix fun p => { p with behind := d.behindNext s }).cmp := by
  have hself : ∀ b, (d.pipe s.ix).behind = b → d.cmp = (d.modPipe s.ix fun p => { p with behind := b }).cmp := by
    rintro _ rfl
    have : (d.modPipe s.ix fun p => { p with behind := (d.pipe s.ix).behind }) = d.modPipe s.ix fun p => p := rfl
    rw [this, Dev.modPipe_self]
  unfold Dev.paceRow Dev.behindNext
  extract_lets slot
  by_cases hb : d.inBridge = true
  · rw [if_pos hb, if_pos hb]
    exact hself _ rfl
  · rw [if_neg hb, if_neg hb]
    by_cases hl : slot + 8 * (d.rowOf (d.pipe s.ix).mode).lineTicks < d.now
    · rw [if_pos hl]
      by_cases hbeh : (d.pipe s.ix).behind = true
      · rw [if_neg (by simp [hbeh]), if_neg (by omega)]
        exact hself true hbeh
      · rw [if_pos ⟨hl, by simpa using hbeh⟩]
        exact (Dev.request_only ..).part .cmp rfl
    · rw [if_neg hl, if_neg fun h => hl h.1]
      by_cases hs : d.now ≤ slot
      · rw [if_pos hs, if_pos hs]
        exact (Dev.release_only ..).part .cmp rfl
      · rw [if_neg hs, if_neg hs]
        exact hself _ rfl

/-- A row in time, or in a bridge refresh, is not paced (R162, R200). -/
theorem Dev.paceRow_of_inTime {d : Dev} {s : Side} (h : d.inBridge = true ∨ (d.lineSlot s.ix < d.now ∧
    d.now ≤ d.lineSlot s.ix + 8 * (d.rowOf (d.pipe s.ix).mode).lineTicks)) : d.paceRow s = d := by
  unfold Dev.paceRow
  extract_lets slot
  rcases h with hb | ⟨h1, h2⟩
  · rw [if_pos hb]
  · split
    · rfl
    · rw [if_neg (by omega), if_neg (by omega)]

theorem Dev.paceRow_now (d : Dev) (s : Side) : (d.paceRow s).now = d.now := congrArg Clk.timeBase ((d.paceRow_only s).part .clk rfl)

theorem Dev.paceRow_pipe (d : Dev) (s : Side) :
    (d.paceRow s).pipe s.ix = { d.pipe s.ix with behind := d.behindNext s } := by
  unfold Dev.pipe
  rw [Dev.paceRow_cmp]
  exact Dev.pipe_modPipe_self ..

/-- A pipe but for the list of layers that have run dry. -/
def Pipe.butDry (p : Pipe) : Pipe := { p with dryLayers := [] }

theorem Dev.dryRow_pipe (d : Dev) (s y n : Nat) : ((d.dryRow s y n).pipe s).butDry = (d.pipe s).butDry := by
  have hc : (d.count kCmpUnderrun n 1).pipe s = d.pipe s := (Dev.count_only ..).pipe rfl s
  unfold Dev.dryRow
  extract_lets d1
  split
  · rw [hc]
  · rw [(Dev.post_only ..).pipe rfl, Dev.pipe_modPipe_self, hc]
    rfl

theorem Dev.dryRows_pipe (d : Dev) (s y : Nat) (dry : List (Nat × Nat)) :
    ((dry.foldl (fun d e => d.dryRow s y e.1) d).pipe s).butDry = (d.pipe s).butDry := by
  induction dry generalizing d with
  | nil => rfl
  | cons e es ih => rw [List.foldl_cons, ih, Dev.dryRow_pipe]

/-- The layers that run dry on the next row of a side have been counted and posted (R169). -/
def Dev.dried (d : Dev) (s : Nat) (dry : List (Nat × Nat)) : Dev :=
  (d.dryOf s (d.pipe s).nextRow dry).foldl (fun e x => e.dryRow s (d.pipe s).nextRow x.1) d

/-- The pixels of the next row of a side, with the taps. -/
def Dev.rowStored (d : Dev) (s : Nat) (dry : List (Nat × Nat)) : List Pix × List Pix :=
  (d.dried s dry).composeRow s (d.pipe s).nextRow (d.dryOf s (d.pipe s).nextRow dry)

theorem Dev.storeRow_eq (d : Dev) (s : Nat) (dry : List (Nat × Nat)) :
    d.storeRow s dry = (d.dried s dry).modPipe s fun p => { p with
      back := p.back ++ [(d.rowStored s dry).1], backTap := p.backTap ++ [(d.rowStored s dry).2],
      nextRow := (d.pipe s).nextRow + 1, rowAt := d.now } := rfl

/-- The next row is stored at the end of the back buffer (R161). -/
theorem Dev.storeRow_pipe (d : Dev) (s : Nat) (dry : List (Nat × Nat)) :
    ((d.storeRow s dry).pipe s).butDry = { (d.pipe s).butDry with
      back := (d.pipe s).back ++ [(d.rowStored s dry).1], backTap := (d.pipe s).backTap ++ [(d.rowStored s dry).2],
      nextRow := (d.pipe s).nextRow + 1, rowAt := d.now } := by
  have h : ((d.dried s dry).pipe s).butDry = (d.pipe s).butDry := d.dryRows_pipe ..
  have hb : ((d.dried s dry).pipe s).back = (d.pipe s).back := (congrArg Pipe.back h :)
  have ht : ((d.dried s dry).pipe s).backTap = (d.pipe s).backTap := (congrArg Pipe.backTap h :)
  rw [Dev.storeRow_eq, Dev.pipe_modPipe_self, ← h, ← hb, ← ht]
  rfl

/-- With no layer dry on it, a row is composed and stored, and nothing else happens. -/
theorem Dev.storeRow_of_wet {d : Dev} {s : Nat} {dry : List (Nat × Nat)} (h : d.dryOf s (d.pipe s).nextRow dry = []) :
    d.storeRow s dry = d.modPipe s fun p => { p with
      back := p.back ++ [(d.composeRow s (d.pipe s).nextRow []).1],
      backTap := p.backTap ++ [(d.composeRow s (d.pipe s).nextRow []).2], nextRow := (d.pipe s).nextRow + 1, rowAt := d.now } := by
  have h1 : d.dried s dry = d := by
    unfold Dev.dried
    rw [h]
    rfl
  rw [Dev.storeRow_eq, Dev.rowStored, h1, h]

theorem exec_composeRowStart {s : State} {sd : Side} {y : Nat} (dry second : List (Nat × Nat)) (hw : s.dev.rowWaits sd.ix = true)
    (hy : y = (s.dev.pipe sd.ix).nextRow) (hm : s.dev.rowMayStart sd = true) :
    exec (.composeRowStart sd y dry second) s = s.on fun d => (d.paceRow sd).storeRow sd.ix (d.dryLists dry second) := by
  subst hy
  show s.on _ = _
  unfold State.on
  simp only [hw, hm, beq_self_eq_true, Bool.and_self, if_true]

theorem exec_composeRowStart_idle {s : State} {sd : Side} {y : Nat} (dry second : List (Nat × Nat))
    (h : s.dev.rowWaits sd.ix = false ∨ y ≠ (s.dev.pipe sd.ix).nextRow ∨ s.dev.rowMayStart sd = false) :
    exec (.composeRowStart sd y dry second) s = .next s := by
  show s.on _ = _
  unfold State.on
  rw [if_neg]
  rcases h with h | h | h <;> simp [h]

theorem Dev.rowStart_only (d : Dev) (sd : Side) (l : List (Nat × Nat)) :
    d.onlyChanges ((d.paceRow sd).storeRow sd.ix l) [.prm, .sluice, .host, .links, .cmp, .lamp] :=
  Dev.only_then (Dev.storeRow_only ..) rfl (d.paceRow_only sd)

/-- When a row may start, in the words of R161 and R162. -/
theorem Dev.rowMayStart_iff (d : Dev) (sd : Side) : d.rowMayStart sd = true ↔
    (if d.inBridge then True
      else if (d.pipe sd.ix).behind then
        d.ticketHeld (.catchup sd) = true ∨ (d.pipe sd.ix).rowAt + (d.rowOf (d.pipe sd.ix).mode).lineTicks ≤ d.now
      else d.lineSlot sd.ix ≤ d.now) := by
  unfold Dev.rowMayStart catchupOf
  by_cases hb : d.inBridge = true
  · simp [hb]
  · by_cases hp : (d.pipe sd.ix).behind = true <;> simp [hb, hp]

/-- A row that may start: it is stored, and the pass is behind if the row came more than 8 slots late (R161, R162, R169). -/
theorem composeRowStart_runs {s : State} {sd : Side} {y : Nat} (dry second : List (Nat × Nat)) {slot line : Nat}
    (hw : s.dev.rowWaits sd.ix = true) (hy : y = (s.dev.pipe sd.ix).nextRow) (hslot : slot = s.dev.lineSlot sd.ix)
    (hline : line = (s.dev.rowOf (s.dev.pipe sd.ix).mode).lineTicks) (hm : s.dev.rowMayStart sd = true) :
    Runs (.composeRowStart sd y dry second) s [.prm, .sluice, .host, .links, .cmp, .lamp] fun d =>
      (d.pipe sd.ix).nextRow = y + 1 ∧ (d.pipe sd.ix).rowAt = s.dev.now ∧
      (∃ row tap, (d.pipe sd.ix).back = (s.dev.pipe sd.ix).back ++ [row] ∧
        (d.pipe sd.ix).backTap = (s.dev.pipe sd.ix).backTap ++ [tap]) ∧
      (d.pipe sd.ix).behind = (if s.dev.inBridge then (s.dev.pipe sd.ix).behind
        else if slot + 8 * line < s.dev.now then true
        else if s.dev.now ≤ slot then false else (s.dev.pipe sd.ix).behind) ∧
      (s.dev.dryOf sd.ix y (s.dev.dryLists dry second) = [] → s.dev.inBridge = true ∨ (slot < s.dev.now ∧ s.dev.now ≤ slot + 8
        * line) →
        d = s.dev.modPipe sd.ix fun p => { p with
          back := p.back ++ [(s.dev.composeRow sd.ix y []).1], rowAt := s.dev.now,
          backTap := p.backTap ++ [(s.dev.composeRow sd.ix y []).2], nextRow := y + 1 }) := by
  subst hslot hline
  refine .of_on (exec_composeRowStart dry second hw hy hm) (s.dev.rowStart_only ..) ?_
  subst hy
  have h := (s.dev.paceRow sd).storeRow_pipe sd.ix (s.dev.dryLists dry second)
  rw [Dev.paceRow_pipe, Dev.paceRow_now] at h
  refine ⟨(congrArg Pipe.nextRow h :), (congrArg Pipe.rowAt h :), ⟨_, _, (congrArg Pipe.back h :), (congrArg Pipe.backTap h :)⟩,
    (congrArg Pipe.behind h :), fun hd ht => ?_⟩
  rw [Dev.paceRow_of_inTime ht, Dev.storeRow_of_wet hd]

/-! ### What a side's pass shows and fetches (R163, R166) -/

/-- What decides which layers a side's pass fetches, and from where: the same in two states of the block. -/
structure Dev.SameScene (a b : Dev) (s : Nat) : Prop where
  core : b.core = a.core
  layers : b.cmp.layers = a.cmp.layers
  bases : b.cmp.bases = a.cmp.bases
  mode : (b.pipe s).mode = (a.pipe s).mode
  offset : (b.pipe s).offset = (a.pipe s).offset
  bridgePass : (b.pipe s).bridgePass = (a.pipe s).bridgePass
  cover : (b.pipe s).cover = (a.pipe s).cover

namespace Dev.SameScene

variable {a b : Dev} {s : Nat}

theorem rowOf (h : a.SameScene b s) (m : Nat) : b.rowOf m = a.rowOf m := by
  unfold Dev.rowOf
  rw [h.core]

theorem layer (h : a.SameScene b s) (n : Nat) : b.layer n = a.layer n := by
  unfold Dev.layer
  rw [h.layers]

theorem base (h : a.SameScene b s) (k : Nat) : b.base k = a.base k := by
  unfold Dev.base
  rw [h.bases]

theorem touches (h : a.SameScene b s) (n tx ty : Nat) : b.touches s n tx ty = a.touches s n tx ty := by
  unfold Dev.touches
  simp only [h.mode, h.rowOf, h.base, h.layer, h.offset, h.bridgePass]

theorem culledAt (h : a.SameScene b s) (n tx ty : Nat) : b.culledAt s n tx ty = a.culledAt s n tx ty := by
  unfold Dev.culledAt Dev.coverAt
  simp only [h.mode, h.rowOf, h.cover]

theorem fetches (h : a.SameScene b s) (n : Nat) : b.fetches s n = a.fetches s n := by
  unfold Dev.fetches
  simp only [h.mode, h.rowOf, h.touches, h.culledAt]

theorem fetchesDram (h : a.SameScene b s) : b.fetchesDram s = a.fetchesDram s := by
  unfold Dev.fetchesDram
  simp only [h.layer, h.fetches]

theorem onRow (h : a.SameScene b s) (n y : Nat) : b.onRow s n y = a.onRow s n y := by
  unfold Dev.onRow
  simp only [h.layer, h.offset, h.mode, h.rowOf, h.touches, h.culledAt]

theorem dryOf (h : a.SameScene b s) (y : Nat) (dry : List (Nat × Nat)) : b.dryOf s y dry = a.dryOf s y dry := by
  unfold Dev.dryOf
  simp only [h.onRow]

end Dev.SameScene

/-! ### The end of a pass (R160, R350 to R354) -/

theorem Dev.judgeRects_of_suspended {d : Dev} {s : Nat} (h : d.suspended s = true) : d.judgeRects s = d := by
  unfold Dev.judgeRects
  rw [if_pos h]

/-- A pipe whose buffer is withheld, or is not. -/
def Pipe.withhold (p : Pipe) (w : Bool) : Pipe := { p with withheld := w }

/-- Checking the rectangles changes a pipe in nothing but whether its buffer is withheld. -/
theorem Dev.judgeRects_pipe (d : Dev) (s : Nat) : ∃ w, (d.judgeRects s).pipe s = (d.pipe s).withhold w := by
  unfold Dev.judgeRects
  split
  · exact ⟨(d.pipe s).withheld, rfl⟩
  · extract_lets r d1
    have hr : r.1.pipe s = d.pipe s := by
      refine Dev.onlyChanges.pipe (l := [.prm, .sluice, .host, .links, .seq, .ports, .lamp, .gov, .saf, .jnl]) ?_ rfl s
      exact Dev.only_foldl_fst _ (fun e i => e.1.judgeRect_only s i) (Dev.only_refl ..)
    have h1 : d1.pipe s = (r.1.pipe s).withhold true := by
      unfold d1
      rw [(Dev.count_only ..).pipe rfl, Dev.pipe_modPipe_self]
      rfl
    split
    · exact ⟨true, h1.trans (congrArg (Pipe.withhold · true) hr)⟩
    · exact ⟨(d.pipe s).withheld, hr⟩

/-- The pass of a side has stored its last row; its signatures are still to be checked. -/
def Dev.passEnded (d : Dev) (s : Nat) : Dev := d.modPipe s fun p => { p with running := false, culled := p.cullCount }

theorem Dev.passEnded_pipe (d : Dev) (s : Nat) :
    (d.passEnded s).pipe s = { d.pipe s with running := false, culled := (d.pipe s).cullCount } :=
  Dev.pipe_modPipe_self ..

theorem Dev.passEnded_suspended (d : Dev) (s : Nat) : (d.passEnded s).suspended s = d.suspended s := by
  unfold Dev.suspended
  rw [Dev.passEnded_pipe]
  rfl

theorem Dev.passDone_pipe (d : Dev) (s : Nat) : (d.passDone s).pipe s =
    { ((d.passEnded s).judgeRects s).pipe s with
      backReady := !(((d.passEnded s).judgeRects s).pipe s).withheld, behind := false } := by
  unfold Dev.passDone
  extract_lets d1 d2
  have h2 : d2.pipe s = (d1.judgeRects s).pipe s := by
    unfold d2
    rw [(Dev.release_only ..).pipe rfl, (Dev.judgeFreeze_only ..).pipe rfl]
  rw [Dev.pipe_modPipe_self, h2]
  rfl

/-- A complete pass: its buffer is ready unless it is withheld, which a side that does not compare leaves as it was. -/
theorem composePassComplete_runs {s : State} {sd : Side} (hs : s.dev.sides.contains sd.ix = true)
    (hr : (s.dev.pipe sd.ix).running = true)
    (hy : (s.dev.pipe sd.ix).nextRow = (s.dev.rowOf (s.dev.pipe sd.ix).mode).fieldH) :
    Runs (.composePassComplete sd) s [.prm, .sluice, .host, .links, .cmp, .seq, .ports, .lamp, .gov, .saf, .jnl] fun d =>
      (d.pipe sd.ix).running = false ∧ (d.pipe sd.ix).behind = false ∧ (d.pipe sd.ix).back = (s.dev.pipe sd.ix).back ∧
      (d.pipe sd.ix).backReady = (!(d.pipe sd.ix).withheld) ∧
      (s.dev.suspended sd.ix = true → (d.pipe sd.ix).withheld = (s.dev.pipe sd.ix).withheld) := by
  have he : exec (.composePassComplete sd) s = s.on fun d => d.passDone sd.ix := by
    show s.on _ = _
    unfold State.on
    rw [if_pos ⟨hs, hr, hy⟩]
  refine .of_on he (s.dev.passDone_only _) ?_
  obtain ⟨w, hw⟩ := (s.dev.passEnded sd.ix).judgeRects_pipe sd.ix
  rw [Dev.passDone_pipe, hw, Dev.passEnded_pipe]
  refine ⟨rfl, rfl, rfl, rfl, fun hsus => ?_⟩
  rw [Dev.judgeRects_of_suspended ((s.dev.passEnded_suspended _).trans hsus), Dev.passEnded_pipe] at hw
  exact (congrArg Pipe.withheld hw :).symm

theorem exec_composePassComplete_idle {s : State} {sd : Side} (h : (s.dev.pipe sd.ix).running = false) :
    exec (.composePassComplete sd) s = .next s := by
  show s.on _ = _
  unfold State.on
  rw [if_neg fun hc => Bool.false_ne_true (h.symm.trans hc.2.1)]

/-! ### DRAM stalls and resumes (R163, R393) -/

/-- DRAM traffic stands still while the passes that fetch from it end. -/
structure Dev.Stalling (d e : Dev) : Prop where
  core : e.core = d.core
  layers : e.cmp.layers = d.cmp.layers
  bases : e.cmp.bases = d.cmp.bases
  stalled : e.cmp.dramStalled = true
  retrain : e.cmp.dramRetrain = d.cmp.dramRetrain

theorem Dev.dropPass_cmp (d : Dev) (s : Nat) : (d.dropPass s).cmp = { d.cmp with pipes := d.cmp.pipes.mod s Pipe.dropped } :=
  (Dev.release_only ..).part .cmp rfl

theorem Dev.abandon_cmp (d : Dev) (s : Nat) (b : Bool) : ∃ ps, (d.abandon s b).cmp = { d.cmp with pipes := ps } := by
  unfold Dev.abandon
  split
  · exact ⟨_, ((Dev.post_only ..).part .cmp rfl).trans (d.dropPass_cmp s)⟩
  · exact ⟨d.cmp.pipes, rfl⟩

theorem Dev.Stalling.abandon {d e : Dev} (h : d.Stalling e) (s : Nat) (b : Bool) : d.Stalling (e.abandon s b) := by
  obtain ⟨ps, hc⟩ := e.abandon_cmp s b
  exact {
    core := ((e.abandon_only s b).core rfl).trans h.core
    layers := (congrArg Compose.layers hc :).trans h.layers
    bases := (congrArg Compose.bases hc :).trans h.bases
    stalled := (congrArg Compose.dramStalled hc :).trans h.stalled
    retrain := (congrArg Compose.dramRetrain hc :).trans h.retrain }

/-- With its own pipe untouched, a side fetches from DRAM during a stall exactly if it did before. -/
theorem Dev.Stalling.sameScene {d e : Dev} (h : d.Stalling e) {s : Nat} (hp : e.pipe s = d.pipe s) : d.SameScene e s where
  core := h.core
  layers := h.layers
  bases := h.bases
  mode := by rw [hp]
  offset := by rw [hp]
  bridgePass := by rw [hp]
  cover := by rw [hp]

/-- A stall ends every pass that fetches from DRAM, without exchange (R163). -/
theorem Dev.stallDram_passes (d : Dev) : d.Stalling (d.stallDram false) ∧
    ∀ k ∈ d.sides, (d.pipe k).running = true → d.fetchesDram k = true →
      ((d.stallDram false).pipe k).running = false ∧ ((d.stallDram false).pipe k).back = [] ∧
      ((d.stallDram false).pipe k).backReady = false := by
  refine Dev.foldl_sides_pipe (d := { d with cmp := { d.cmp with dramStalled := true, dramRetrain := d.cmp.dramRetrain || false } })
    (I := d.Stalling) (Q := fun k p => (d.pipe k).running = true → d.fetchesDram k = true →
      p.running = false ∧ p.back = [] ∧ p.backReady = false)
    d.sides_cases ⟨rfl, rfl, rfl, rfl, Bool.or_false _⟩ (fun e s he => he.abandon s false) (fun e s k h => e.abandon_pipe_ne _ h)
    (fun e s he hp hr hf => ?_)
  have hpd : e.pipe s = d.pipe s := hp
  have hg : (e.pipe s).running = true ∧ e.fetchesDram s = true := ⟨by rw [hpd]; exact hr, (he.sameScene hpd).fetchesDram.trans hf⟩
  unfold Dev.abandon
  rw [if_pos hg, (Dev.post_only ..).pipe rfl, Dev.dropPass_pipe]
  exact ⟨rfl, rfl, rfl⟩

theorem dramStall_runs {s : State} (h : s.dev.canActive = true) :
    Runs .dramStall s [.prm, .sluice, .host, .links, .cmp, .lamp] fun d => d.cmp.dramStalled = true ∧
      d.cmp.dramRetrain = s.dev.cmp.dramRetrain ∧ ∀ k ∈ s.dev.sides, k < 2 → (s.dev.pipe k).running = true →
        s.dev.fetchesDram k = true → (d.pipe k).running = false ∧ (d.pipe k).back = [] ∧ (d.pipe k).backReady = false := by
  have he : exec .dramStall s = s.on fun d => d.stallDram false := by
    show s.on _ = _
    unfold State.on
    rw [if_pos h]
  obtain ⟨hi, hq⟩ := s.dev.stallDram_passes
  exact .of_on he (s.dev.stallDram_only _) ⟨hi.stalled, hi.retrain, fun k hk _ => hq k hk⟩

theorem exec_dramStall_idle {s : State} (h : s.dev.canActive = false) : exec .dramStall s = .next s := by
  show s.on _ = _
  unfold State.on
  rw [if_neg (by simp [h])]

/-- DRAM traffic goes on. -/
def Dev.trafficOn (d : Dev) : Dev := { d with cmp := { d.cmp with dramStalled := false, dramRetrain := false } }

theorem Dev.dramResume_eq (d : Dev) : d.dramResume =
    if (!d.cmp.dramStalled || !d.relocks) = true then d
    else if (!d.cmp.dramRetrain) = true then d.trafficOn
    else if ((d.pll 1).locked && d.ticketHeld .dram) = true then d.trafficOn.release .dram
    else d := rfl

theorem Dev.dramResume_of_trained {d : Dev} (hs : d.cmp.dramStalled = true) (hr : d.relocks = true) (ht : d.cmp.dramRetrain = false) :
    d.dramResume = d.trafficOn := by
  simp [Dev.dramResume_eq, hs, hr, ht]

theorem Dev.dramResume_of_training {d : Dev} (hs : d.cmp.dramStalled = true) (hr : d.relocks = true)
    (ht : d.cmp.dramRetrain = true) (hl : (d.pll 1).locked = true) (hh : d.ticketHeld .dram = true) :
    d.dramResume = d.trafficOn.release .dram := by
  simp [Dev.dramResume_eq, hs, hr, ht, hl, hh]

/-- Traffic does not resume that does not stall, or outside the states that relock, or untrained. -/
theorem Dev.dramResume_idle {d : Dev} (h : d.cmp.dramStalled = false ∨ d.relocks = false ∨
    (d.cmp.dramRetrain = true ∧ (d.pll 1).locked = false) ∨ (d.cmp.dramRetrain = true ∧ d.ticketHeld .dram = false)) :
    d.dramResume = d := by
  rcases h with h | h | ⟨ht, h⟩ | ⟨ht, h⟩
  · simp [Dev.dramResume_eq, h]
  · simp [Dev.dramResume_eq, h]
  · simp [Dev.dramResume_eq, ht, h]
  · simp [Dev.dramResume_eq, ht, h]

theorem exec_dramTrafficResume (s : State) : exec .dramTrafficResume s = s.on Dev.dramResume := rfl

/-- Resumed traffic: at once where no training is due, else with the training's ticket, which it gives back (R393). -/
theorem dramTrafficResume_runs {s : State} (hs : s.dev.cmp.dramStalled = true) (hr : s.dev.relocks = true)
    (hl : (s.dev.pll 1).locked = true) (hh : s.dev.ticketHeld .dram = true) :
    Runs .dramTrafficResume s [.prm, .sluice, .cmp, .lamp] fun d => d.cmp.dramStalled = false ∧ d.cmp.dramRetrain = false := by
  refine .of_on (exec_dramTrafficResume s) s.dev.dramResume_only ?_
  cases ht : s.dev.cmp.dramRetrain with
  | false =>
    rw [Dev.dramResume_of_trained hs hr ht]
    exact ⟨rfl, rfl⟩
  | true =>
    rw [Dev.dramResume_of_training hs hr ht hl hh, (Dev.release_only ..).part .cmp rfl]
    exact ⟨rfl, rfl⟩

/-! ### Copies and pattern loads arrive (R145, R153) -/

theorem Dev.storeEarly_layers (d : Dev) (f t : Nat) : (d.storeEarly f t).cmp.layers = d.cmp.layers := by
  unfold Dev.storeEarly
  split
  · rfl
  · split
    · rw [(Dev.count_only ..).part .cmp rfl]
    · rfl

theorem Dev.signalFence_layers (d : Dev) (f : Nat) : (d.signalFence f).cmp.layers = d.cmp.layers := by
  unfold Dev.signalFence
  extract_lets c d1
  have h1 : d1.cmp.layers = d.cmp.layers := by
    unfold d1
    split
    · rfl
    · exact d.storeEarly_layers ..
  exact (congrArg Compose.layers ((Dev.finishSignals_only d1 f).part .cmp rfl)).trans h1

/-- The fences that are signalled leave their layer; nothing else of it moves (R148). -/
theorem Dev.signalBound_layer {d : Dev} {n : Nat} (p : BoundFence → Bool) (h : n < d.cmp.layers.length) :
    (d.signalBound n p).layer n = { d.layer n with fences := (d.layer n).fences.filter fun b => !p b } := by
  have hfold : ∀ (fs : List BoundFence) (e : Dev),
      (fs.foldl (fun d b => d.signalFence b.fence) e).cmp.layers = e.cmp.layers := by
    intro fs
    induction fs with
    | nil => exact fun _ => rfl
    | cons b bs ih => exact fun e => (ih _).trans (e.signalFence_layers _)
  unfold Dev.signalBound
  extract_lets fs d1
  show (fs.foldl _ d1).cmp.layers.getD n Layer.reset = _
  rw [hfold]
  exact d.layer_modLayer_self _ h

/-- The stored rows of a copied frame. -/
def Dev.copyRows (d : Dev) (n i : Nat) : List Row :=
  let b := (d.layer n).staging.getD i Buf.empty
  if (d.layer n).placement = 2 then d.resample n b else b.rows

/-- The buffer of a copied frame. -/
def Dev.copyBuf (d : Dev) (n i : Nat) : Buf :=
  let l := d.layer n
  { role := .ready, frame := (l.staging.getD i Buf.empty).frame, rows := d.copyRows n i,
    blank := (List.range (if l.placement = 2 then l.decl.outH else l.decl.srcH)).filter
      fun r => (storedRow (d.copyRows n i) 0 r).isNone }

/-- The buffer that takes a copied frame: the READY one, or else a FREE one. -/
def Layer.copyTarget (l : Layer) : Nat :=
  (l.bufs.findIdx? fun b => b.role == .ready).or (l.bufs.findIdx? fun b => b.role == .free) |>.getD 0

/-- A layer takes the frame that has been copied into it, and the copy of the next one starts (R145). -/
def Dev.copied (d : Dev) (n i : Nat) : Dev :=
  d.modLayer n fun l => { l with
    bufs := l.bufs.set (d.layer n).copyTarget (d.copyBuf n i), staging := l.staging.set i Buf.empty, copying := l.awaiting,
    awaiting := none, newestClosed := if l.placement = 2 then d.copyRows n i else l.newestClosed }

/-- The READY frame that a copied frame replaces is superseded, and the frame leaves the intake. -/
def Dev.copyRetired (d : Dev) (n i : Nat) : Dev :=
  (if (d.layer n).bufs.any fun b => b.role == .ready then (d.copied n i).count kPlcFramesSuperseded n 1
    else d.copied n i).retire n ((d.layer n).staging.getD i Buf.empty).frame false

theorem Dev.copyDone_of_copying {d : Dev} {n i : Nat} (h : (d.layer n).copying = some i) : d.copyDone n =
    (d.copyRetired n i).signalBound n fun f => f.atCopy && f.frame == ((d.layer n).staging.getD i Buf.empty).frame := by
  unfold Dev.copyDone
  extract_lets l
  rw [show l.copying = some i from h]
  rfl

theorem Dev.copyRetired_cmp (d : Dev) (n i : Nat) : (d.copyRetired n i).cmp = (d.copied n i).cmp := by
  unfold Dev.copyRetired
  rw [(Dev.retire_only ..).part .cmp rfl]
  split
  · exact (Dev.count_only ..).part .cmp rfl
  · rfl

theorem Dev.copyRetired_layer (d : Dev) (n i : Nat) :
    (d.copyRetired n i).layer n = (d.copied n i).layer n := by
  unfold Dev.layer
  rw [Dev.copyRetired_cmp]

theorem Dev.copyRetired_layers_length (d : Dev) (n i : Nat) : (d.copyRetired n i).cmp.layers.length = d.cmp.layers.length := by
  rw [Dev.copyRetired_cmp]
  exact modAt_length ..

theorem Layer.copyTarget_lt {l : Layer} (h : l.bufs ≠ []) : l.copyTarget < l.bufs.length := by
  have hpos : 0 < l.bufs.length := List.length_pos_of_ne_nil h
  unfold Layer.copyTarget
  cases hr : l.bufs.findIdx? fun b => b.role == .ready with
  | some t => exact (List.findIdx?_eq_some_iff_findIdx_eq.1 hr).1
  | none =>
    cases hf : l.bufs.findIdx? fun b => b.role == .free with
    | some t => exact (List.findIdx?_eq_some_iff_findIdx_eq.1 hf).1
    | none => exact hpos

theorem intakeCopyDone_runs {s : State} {n i : Nat} (ha : s.dev.canActive = true) (hs : s.dev.cmp.dramStalled = false) (hn : n ≤ 7)
    (hl : n < s.dev.cmp.layers.length) (hc : (s.dev.layer n).copying = some i) :
    Runs (.intakeCopyDone n) s [.prm, .host, .links, .cmp] fun d => (d.layer n).copying = (s.dev.layer n).awaiting ∧
      (d.layer n).awaiting = none ∧ (d.layer n).staging = (s.dev.layer n).staging.set i Buf.empty ∧
      (d.layer n).fences = (s.dev.layer n).fences.filter (fun f =>
        !(f.atCopy && f.frame == ((s.dev.layer n).staging.getD i Buf.empty).frame)) ∧
      ((s.dev.layer n).bufs ≠ [] → ∃ b ∈ (d.layer n).bufs, b.role = .ready ∧
        b.frame = ((s.dev.layer n).staging.getD i Buf.empty).frame) := by
  have he : exec (.intakeCopyDone n) s = s.on fun d => d.copyDone n := by
    show s.on _ = _
    unfold State.on
    rw [if_pos (by simp [ha, hs, hn])]
  refine .of_on he (s.dev.copyDone_only n) ?_
  have hlen : n < (s.dev.copyRetired n i).cmp.layers.length := by rwa [Dev.copyRetired_layers_length]
  rw [Dev.copyDone_of_copying hc, Dev.signalBound_layer _ hlen, Dev.copyRetired_layer, Dev.copied, s.dev.layer_modLayer_self _ hl]
  exact ⟨rfl, rfl, rfl, rfl, fun hb => ⟨_, List.mem_set (Layer.copyTarget_lt hb) _, rfl, rfl⟩⟩

theorem exec_intakeCopyDone_idle {s : State} {n : Nat} (h : s.dev.canActive = false ∨ s.dev.cmp.dramStalled = true ∨ 7 < n ∨
    (s.dev.layer n).copying = none) : exec (.intakeCopyDone n) s = .next s := by
  show s.on _ = _
  unfold State.on
  rcases h with h | h | h | h
  · rw [if_neg (by simp [h])]
  · rw [if_neg (by simp [h])]
  · rw [if_neg (by simp [h])]
  · have hd : s.dev.copyDone n = s.dev := by
      unfold Dev.copyDone
      extract_lets l
      rw [show l.copying = none from h]
    rw [hd, ite_self]

theorem exec_patternLoadDone {s : State} {sd : Side} (good : Bool) (h : s.dev.sides.contains sd.ix = true) :
    exec (.patternLoadDone sd good) s = s.on fun d => d.loadDone sd.ix good := by
  show s.on _ = _
  unfold State.on
  rw [if_pos h]

/-- The image at the head of the queue arrives where no image waits for its exchange. -/
theorem Dev.loadDone_of_head {d : Dev} {k slot img : Nat} {rest : List (Nat × Nat)} (good : Bool)
    (hl : (d.base k).loads = (slot, img) :: rest) (hr : (d.base k).ready = none) :
    d.loadDone k good = d.modBase k fun b => { b with loads := rest, ready := some (slot, d.loadImage k img good) } := by
  unfold Dev.loadDone
  rw [hl, hr]

theorem Dev.loadDone_idle {d : Dev} {k : Nat} (good : Bool) (h : (d.base k).loads = [] ∨ (d.base k).ready ≠ none) :
    d.loadDone k good = d := by
  unfold Dev.loadDone
  rcases h with h | h
  · rw [h]
  · obtain ⟨x, hx⟩ := Option.ne_none_iff_exists'.1 h
    rw [hx]
    cases (d.base k).loads with
    | nil => rfl
    | cons y ys => rfl

/-! ### A layer that runs dry (R169) -/

/-- The counters of dry rows read as before: what asking for and giving back a ticket does to parameters passes them by. -/
structure Dev.KeepsUnderruns (a b : Dev) : Prop where
  par : ∀ n, b.par kCmpUnderrun n = a.par kCmpUnderrun n

/-- PARAM_IDs that differ in their number differ, whatever their instances. -/
theorem pid_underrun_ne {key : Nat} (h : key % 0x10000 ≠ kCmpUnderrun % 0x10000) (n i : Nat) : pid kCmpUnderrun n ≠ pid key i := by
  intro e
  apply h
  unfold pid at e
  omega

namespace Dev.KeepsUnderruns

theorem refl (d : Dev) : d.KeepsUnderruns d := ⟨fun _ => rfl⟩

theorem trans {a b c : Dev} (h : a.KeepsUnderruns b) (g : b.KeepsUnderruns c) : a.KeepsUnderruns c :=
  ⟨fun n => (g.par n).trans (h.par n)⟩

end Dev.KeepsUnderruns

theorem Dev.setSluice_keepsUnderruns (d : Dev) (q : Sluice) : d.KeepsUnderruns { d with sluice := q } := ⟨fun _ => rfl⟩
theorem Dev.modPipe_keepsUnderruns (d : Dev) (s : Nat) (f : Pipe → Pipe) : d.KeepsUnderruns (d.modPipe s f) := ⟨fun _ => rfl⟩
theorem Dev.modLside_keepsUnderruns (d : Dev) (s : Nat) (f : LampSide → LampSide) : d.KeepsUnderruns (d.modLside s f) := ⟨fun _ => rfl⟩

theorem Dev.count_keepsUnderruns (d : Dev) {key : Nat} (i k : Nat) (h : key % 0x10000 ≠ kCmpUnderrun % 0x10000) :
    d.KeepsUnderruns (d.count key i k) := ⟨fun n => d.par_count_ne k (pid_underrun_ne h n i)⟩

theorem Dev.post_keepsUnderruns (d : Dev) (c a : Nat) : d.KeepsUnderruns (d.post c a) :=
  ⟨fun n => congrArg Int.toNat ((d.post_quiet c a).valOf fun p => pid_underrun_ne (by decide) n p.ix)⟩

theorem Dev.applyVal_keepsUnderruns (d : Dev) {key : Nat} (i : Nat) (h : key % 0x10000 ≠ kCmpUnderrun % 0x10000) :
    d.KeepsUnderruns (d.applyVal (pid key i)) := by
  unfold Dev.applyVal
  split
  · exact ⟨fun n => congrArg Int.toNat (Dev.valOf_putVal_ne _ _ (pid_underrun_ne h n i))⟩
  · exact .refl d

theorem Dev.grant_keepsUnderruns (d : Dev) (q : SlReq) : d.KeepsUnderruns (d.grant q) := by
  unfold Dev.grant
  extract_lets l d1 d2
  have h1 : d.KeepsUnderruns d1 := d.setSluice_keepsUnderruns _
  have h2 : d.KeepsUnderruns d2 := h1.trans (d1.count_keepsUnderruns _ _ (by decide))
  split
  · next s _ =>
    extract_lets p
    split
    · exact (h2.trans (d2.applyVal_keepsUnderruns (key := kLmpBstFsw) s.ix (by decide))).trans (Dev.modLside_keepsUnderruns ..)
    · exact h2
  · exact h2.trans (d2.count_keepsUnderruns _ _ (by decide))
  · exact h2

theorem Dev.deny_keepsUnderruns (d : Dev) (h : Holder) (b : Bool) : d.KeepsUnderruns (d.deny h b) :=
  (d.count_keepsUnderruns _ _ (by decide)).trans (Dev.post_keepsUnderruns ..)

theorem Dev.request_keepsUnderruns (d : Dev) (h : Holder) : d.KeepsUnderruns (d.request h) := by
  unfold Dev.request
  extract_lets q
  split
  · exact .refl d
  · split
    · exact d.deny_keepsUnderruns ..
    · split
      · exact d.grant_keepsUnderruns _
      · exact d.setSluice_keepsUnderruns _

theorem Dev.examine_keepsUnderruns (n : Nat) (d : Dev) : d.KeepsUnderruns (Dev.examine n d) := by
  induction n generalizing d with
  | zero => exact .refl d
  | succ n ih =>
    unfold Dev.examine
    split
    · exact .refl d
    · split
      · exact ((d.setSluice_keepsUnderruns _).trans (Dev.grant_keepsUnderruns ..)).trans (ih _)
      · exact .refl d

theorem Dev.release_keepsUnderruns (d : Dev) (h : Holder) : d.KeepsUnderruns (d.release h) := by
  unfold Dev.release
  split
  · exact (d.setSluice_keepsUnderruns _).trans (Dev.examine_keepsUnderruns ..)
  · exact d.setSluice_keepsUnderruns _

theorem Dev.paceRow_keepsUnderruns (d : Dev) (sd : Side) : d.KeepsUnderruns (d.paceRow sd) := by
  unfold Dev.paceRow
  extract_lets slot
  split
  · exact .refl d
  · split
    · exact (d.modPipe_keepsUnderruns ..).trans (Dev.request_keepsUnderruns ..)
    · split
      · exact (d.modPipe_keepsUnderruns ..).trans (Dev.release_keepsUnderruns ..)
      · exact .refl d

theorem Dev.paceRow_sameScene (d : Dev) (sd : Side) : d.SameScene (d.paceRow sd) sd.ix where
  core := (d.paceRow_only sd).core rfl
  layers := (congrArg Compose.layers (d.paceRow_cmp sd) :)
  bases := (congrArg Compose.bases (d.paceRow_cmp sd) :)
  mode := (congrArg Pipe.mode (d.paceRow_pipe sd) :)
  offset := (congrArg Pipe.offset (d.paceRow_pipe sd) :)
  bridgePass := (congrArg Pipe.bridgePass (d.paceRow_pipe sd) :)
  cover := (congrArg Pipe.cover (d.paceRow_pipe sd) :)

theorem Dev.par_dryRow {d : Dev} (hI : d.Inv) (s y n : Nat) :
    (d.dryRow s y n).par kCmpUnderrun n = satAdd 0xFFFFFFFF (d.par kCmpUnderrun n) 1 := by
  have hcount : (d.count kCmpUnderrun n 1).par kCmpUnderrun n = satAdd 0xFFFFFFFF (d.par kCmpUnderrun n) 1 :=
    Dev.par_count_self n 1 (by decide) hI.vals
  unfold Dev.dryRow
  extract_lets d1
  split
  · exact hcount
  · exact ((Dev.post_keepsUnderruns ..).par n).trans hcount

theorem Dev.mem_dryLayers_dryRow (d : Dev) (s y n : Nat) : n ∈ ((d.dryRow s y n).pipe s).dryLayers := by
  unfold Dev.dryRow
  extract_lets d1
  split
  · next h =>
    rw [(Dev.count_only ..).pipe rfl]
    exact List.contains_iff_mem.1 h
  · rw [(Dev.post_only ..).pipe rfl, Dev.pipe_modPipe_self]
    exact List.mem_append_right _ List.mem_cons_self

/-- One layer runs dry on the next row: the row is counted, and the layer is noted for the pass. -/
theorem Dev.storeRow_dry {d : Dev} (hI : d.Inv) {s n x : Nat} (h : d.dryOf s (d.pipe s).nextRow [(n, x)] = [(n, x)]) :
    (d.storeRow s [(n, x)]).par kCmpUnderrun n = satAdd 0xFFFFFFFF (d.par kCmpUnderrun n) 1 ∧
    n ∈ ((d.storeRow s [(n, x)]).pipe s).dryLayers := by
  have hd : d.dried s [(n, x)] = d.dryRow s (d.pipe s).nextRow n := by
    unfold Dev.dried
    rw [h]
    rfl
  rw [Dev.storeRow_eq, Dev.pipe_modPipe_self, hd]
  exact ⟨d.par_dryRow hI .., d.mem_dryLayers_dryRow ..⟩

theorem composeRowStart_dry {s : State} {sd : Side} {n x : Nat} (hI : s.dev.Inv) (hw : s.dev.rowWaits sd.ix = true)
    (hm : s.dev.rowMayStart sd = true) (hd : s.dev.dryOf sd.ix (s.dev.pipe sd.ix).nextRow [(n, x)] = [(n, x)]) :
    Runs (.composeRowStart sd (s.dev.pipe sd.ix).nextRow [(n, x)] []) s [.prm, .sluice, .host, .links, .cmp, .lamp] fun d =>
      d.par kCmpUnderrun n = satAdd 0xFFFFFFFF (s.dev.par kCmpUnderrun n) 1 ∧ n ∈ (d.pipe sd.ix).dryLayers := by
  refine .of_on (exec_composeRowStart _ _ hw rfl hm) (s.dev.rowStart_only ..) ?_
  have hrow : ((s.dev.paceRow sd).pipe sd.ix).nextRow = (s.dev.pipe sd.ix).nextRow := (congrArg Pipe.nextRow (s.dev.paceRow_pipe sd) :)
  have hpaced : (s.dev.paceRow sd).dryOf sd.ix ((s.dev.paceRow sd).pipe sd.ix).nextRow [(n, x)] = [(n, x)] := by
    rw [hrow, (s.dev.paceRow_sameScene sd).dryOf, hd]
  rw [← (s.dev.paceRow_keepsUnderruns sd).par n]
  exact Dev.storeRow_dry (s.dev.paceRow_inv sd hI) hpaced

/-! ### The events of composition -/

theorem exec_composeFrameStart_idle {s : State} (h : s.dev.timelineRuns = false ∨ s.dev.seq.frameDue = false) :
    exec .composeFrameStart s = .next s := by
  show s.on _ = _
  unfold State.on
  rw [if_neg]
  rcases h with h | h <;> simp [h]

/-- Before its slot no row starts, and in a behind pass none without the catch-up ticket and its row time. -/
theorem Dev.rowMayStart_early {d : Dev} {sd : Side} (hb : d.inBridge = false)
    (h : if (d.pipe sd.ix).behind then d.ticketHeld (.catchup sd) = false ∧
        d.now < (d.pipe sd.ix).rowAt + (d.rowOf (d.pipe sd.ix).mode).lineTicks
      else d.now < d.lineSlot sd.ix) : d.rowMayStart sd = false := by
  rw [Bool.eq_false_iff, ne_eq, Dev.rowMayStart_iff, hb, if_neg Bool.false_ne_true]
  split at h
  · next hp =>
    obtain ⟨ht, hn⟩ := h
    rw [if_pos hp, ht]
    rintro (hx | hx)
    · exact Bool.false_ne_true hx
    · omega
  · next hp =>
    rw [if_neg hp]
    omega

/-- Settles O55: each clause is one event, taken from the lemma about its operation. -/
theorem composeEvents : Obligations.ComposeEvents := by
  unfold Obligations.ComposeEvents
  refine ⟨?_, ?_, ?_, ?_, ?_, ?_, ?_, ?_, ?_, ?_, ?_, ?_, ?_⟩
  · intro s hr hd hc h1 h2 hch ht
    obtain ⟨d, he, hf, htab, hdue, hb⟩ := composeFrameStart_runs hr hd ⟨hc, ⟨h1, h2⟩, hch, ht⟩
    exact ⟨d, he, hf, htab, hdue, fun k hk =>
      have p := hb k hk
      ⟨p.running, p.nextRow, p.mode, p.back, p.backReady, p.front⟩⟩
  · exact fun s h => exec_composeFrameStart_idle h
  · exact fun s sd y dry second slot line hw hy hs hl hm =>
      composeRowStart_runs dry second hw hy hs hl ((s.dev.rowMayStart_iff sd).2 (hl ▸ hs ▸ hm))
  · intro s sd y dry second h
    refine exec_composeRowStart_idle dry second (h.imp_right (Or.imp_right ?_))
    exact fun ⟨hb, he⟩ => Dev.rowMayStart_early hb he
  · exact fun s sd n x hI hw hm hd => composeRowStart_dry hI hw hm hd
  · exact fun s sd hs hr hy => composePassComplete_runs hs hr hy
  · exact fun s sd h => exec_composePassComplete_idle h
  · exact fun s h => dramStall_runs h
  · exact fun s h => exec_dramStall_idle h
  · intro s
    refine ⟨fun hs hr ht => ?_, dramTrafficResume_runs, fun h => ?_⟩
    · rw [exec_dramTrafficResume, State.on, Dev.dramResume_of_trained hs hr ht]
      rfl
    · rw [exec_dramTrafficResume, State.on, Dev.dramResume_idle h]
  · exact fun s n i ha hs hn hl hc _ => intakeCopyDone_runs ha hs hn hl hc
  · exact fun s n h => exec_intakeCopyDone_idle h
  · intro s sd good hs
    rw [exec_patternLoadDone good hs]
    refine ⟨fun slot img rest hl hr => ?_, fun h => ?_⟩
    · rw [State.on, Dev.loadDone_of_head good hl hr]
    · rw [State.on, Dev.loadDone_idle good h]

end Sys2Proof.Machine
end

section
/-! What each operation leaves of a link's place in Tables 2-8 and 2-14, and how parameters read through link operations. -/

namespace Sys2Proof.Machine

open Sys2Proof

/-! ### A link's place

Events, tickets, faults and calibration write a link's transmitters, its BTS and the use of its spare; none of them moves the
link through the states of Tables 2-8 and 2-14. `Dev.KeepsLinks` says this once. -/

/-- Where a link stands in Tables 2-8 and 2-14: its state and rates, its lanes, and what its recovery and its next bring-up go by. -/
def Link.place (k : Link) : Link :=
  { Link.reset with
    state := k.state, rate := k.rate, prevL0Rate := k.prevL0Rate, cap := k.cap, ecuRates := k.ecuRates, map := k.map,
    spare := k.spare, failed := k.failed, fastReentry := k.fastReentry, purpose := k.purpose, upSinceDetect := k.upSinceDetect,
    recPhase := k.recPhase, retrains := k.retrains, stepTarget := k.stepTarget, backLaneOn := k.backLaneOn,
    replayHeld := k.replayHeld, bts := { Bts.reset with pamReq := k.bts.pamReq } }

/-- Every link has the same place in two states of the block. -/
structure Dev.KeepsLinks (a b : Dev) : Prop where
  place : ∀ l, (b.link l).place = (a.link l).place

namespace Dev.KeepsLinks

theorem refl (d : Dev) : d.KeepsLinks d := ⟨fun _ => rfl⟩

theorem trans {a b c : Dev} (h : a.KeepsLinks b) (g : b.KeepsLinks c) : a.KeepsLinks c :=
  ⟨fun l => (g.place l).trans (h.place l)⟩

theorem of_links {a b : Dev} (h : b.links = a.links) : a.KeepsLinks b :=
  ⟨fun l => by rw [Dev.link, h, ← Dev.link]⟩

theorem of_frame {a b : Dev} {l : List Part} (h : a.onlyChanges b l) (hl : l.contains .links = false) : a.KeepsLinks b :=
  of_links (h.part .links hl)

theorem of_quiet {a b : Dev} (h : a.Quiet b) : a.KeepsLinks b :=
  ⟨fun l => (congrArg Link.place (h.phys l) :)⟩

/-- One more operation, whose frame leaves the links alone. -/
theorem thenFrame {a b c : Dev} {l : List Part} (h : a.KeepsLinks b) (g : b.onlyChanges c l) (hl : l.contains .links = false) :
    a.KeepsLinks c :=
  h.trans (of_frame g hl)

/-- One more operation, which does what events and responses do. -/
theorem thenQuiet {a b c : Dev} (h : a.KeepsLinks b) (g : b.Quiet c) : a.KeepsLinks c :=
  h.trans (of_quiet g)

theorem foldl {α : Type} {f : Dev → α → Dev} (hf : ∀ (e : Dev) x, e.KeepsLinks (f e x)) (xs : List α) (d : Dev) :
    d.KeepsLinks (xs.foldl f d) := by
  induction xs generalizing d with
  | nil => exact refl d
  | cons x xs ih => exact (hf d x).trans (ih _)

/-- A link was written, and what followed kept its place. -/
theorem afterModLink {d b : Dev} {l : LinkId} {f : Link → Link} (h : (d.modLink l f).KeepsLinks b) :
    (b.link l).place = (f (d.link l)).place := by
  rw [h.place l, Dev.link_modLink_self]

variable {a b : Dev}

theorem state (h : a.KeepsLinks b) (l : LinkId) : (b.link l).state = (a.link l).state :=
  (congrArg Link.state (h.place l) :)
theorem rate (h : a.KeepsLinks b) (l : LinkId) : (b.link l).rate = (a.link l).rate :=
  (congrArg Link.rate (h.place l) :)
theorem cap (h : a.KeepsLinks b) (l : LinkId) : (b.link l).cap = (a.link l).cap :=
  (congrArg Link.cap (h.place l) :)
theorem ecuRates (h : a.KeepsLinks b) (l : LinkId) : (b.link l).ecuRates = (a.link l).ecuRates :=
  (congrArg Link.ecuRates (h.place l) :)
theorem map (h : a.KeepsLinks b) (l : LinkId) : (b.link l).map = (a.link l).map :=
  (congrArg Link.map (h.place l) :)
theorem failed (h : a.KeepsLinks b) (l : LinkId) : (b.link l).failed = (a.link l).failed :=
  (congrArg Link.failed (h.place l) :)
theorem purpose (h : a.KeepsLinks b) (l : LinkId) : (b.link l).purpose = (a.link l).purpose :=
  (congrArg Link.purpose (h.place l) :)
theorem stepTarget (h : a.KeepsLinks b) (l : LinkId) : (b.link l).stepTarget = (a.link l).stepTarget :=
  (congrArg Link.stepTarget (h.place l) :)
theorem recPhase (h : a.KeepsLinks b) (l : LinkId) : (b.link l).recPhase = (a.link l).recPhase :=
  (congrArg Link.recPhase (h.place l) :)
theorem retrains (h : a.KeepsLinks b) (l : LinkId) : (b.link l).retrains = (a.link l).retrains :=
  (congrArg Link.retrains (h.place l) :)
theorem fastReentry (h : a.KeepsLinks b) (l : LinkId) : (b.link l).fastReentry = (a.link l).fastReentry :=
  (congrArg Link.fastReentry (h.place l) :)
theorem backLaneOn (h : a.KeepsLinks b) (l : LinkId) : (b.link l).backLaneOn = (a.link l).backLaneOn :=
  (congrArg Link.backLaneOn (h.place l) :)
theorem replayHeld (h : a.KeepsLinks b) (l : LinkId) : (b.link l).replayHeld = (a.link l).replayHeld :=
  (congrArg Link.replayHeld (h.place l) :)
theorem pamReq (h : a.KeepsLinks b) (l : LinkId) : (b.link l).bts.pamReq = (a.link l).bts.pamReq :=
  (congrArg (fun k : Link => k.bts.pamReq) (h.place l) :)

end Dev.KeepsLinks

/-! ### Links written directly -/

theorem Dev.modLink_keepsLinks (d : Dev) (l : LinkId) {f : Link → Link} (hf : ∀ k, (f k).place = k.place) :
    d.KeepsLinks (d.modLink l f) := by
  refine ⟨fun k => ?_⟩
  by_cases h : k = l
  · subst h; rw [Dev.link_modLink_self, hf]
  · rw [Dev.link_modLink_ne _ _ h]

theorem Dev.setSaf_keepsLinks (d : Dev) (s : Saf) : d.KeepsLinks { d with saf := s } := .of_links rfl
theorem Dev.setCal_keepsLinks (d : Dev) (c : Cal) : d.KeepsLinks { d with cal := c } := .of_links rfl
theorem Dev.setCmp_keepsLinks (d : Dev) (c : Compose) : d.KeepsLinks { d with cmp := c } := .of_links rfl

theorem Dev.syncBts_keepsLinks (d : Dev) (l : LinkId) : d.KeepsLinks (d.syncBts l) :=
  d.modLink_keepsLinks l fun _ => rfl

theorem Link.sendLocal_place (k : Link) (type : Nat) (b : List Byte) : (k.sendLocal type b).place = k.place := by
  unfold Link.sendLocal
  split <;> rfl

theorem Link.sendTap_place (k : Link) (phys word seq sends count : Nat) :
    (k.sendTap phys word seq sends count).place = k.place := k.sendLocal_place ..

theorem Link.noShadow_place (k : Link) : k.noShadow.place = k.place := rfl

theorem Dev.sendAck_keepsLinks (d : Dev) (l : LinkId) (vc : Nat) : d.KeepsLinks (d.sendAck l vc) := by
  refine d.modLink_keepsLinks l fun k => ?_
  split <;> exact k.sendLocal_place ..

theorem Dev.adaptDfe_keepsLinks (d : Dev) (l : LinkId) : d.KeepsLinks (d.adaptDfe l) :=
  .foldl (fun e _ => (e.modLink_keepsLinks l fun _ => by rfl).thenFrame (Dev.drawn_only _) rfl) _ d

theorem Dev.adaptReceivers_keepsLinks (d : Dev) (l : LinkId) : d.KeepsLinks (d.adaptReceivers l) :=
  (Dev.KeepsLinks.foldl (fun e _ => (Dev.KeepsLinks.of_frame (e.setPar_only ..) rfl).thenFrame (Dev.drawn_only _) rfl) _ d).trans
    (Dev.adaptDfe_keepsLinks ..)

/-! ### Tickets and faults -/

theorem Dev.deny_keepsLinks (d : Dev) (h : Holder) (q : Bool) : d.KeepsLinks (d.deny h q) :=
  (Dev.KeepsLinks.of_frame (d.count_only ..) rfl).thenQuiet (Dev.post_quiet ..)

theorem Dev.request_keepsLinks (d : Dev) (h : Holder) : d.KeepsLinks (d.request h) := by
  unfold Dev.request
  split
  · exact .refl d
  · extract_lets q
    split
    · exact d.deny_keepsLinks h false
    · split
      · exact .of_frame (d.grant_only q) rfl
      · exact .of_links rfl

theorem Dev.modMportEv_keepsLinks (d : Dev) (s : Nat) (f : MPort → MPort) : d.KeepsLinks (d.modMportEv s f) := by
  unfold Dev.modMportEv
  extract_lets old d1 new
  have h1 : d.KeepsLinks d1 := .of_frame (Dev.modMport_only ..) rfl
  split
  · exact h1
  · exact h1.thenQuiet (Dev.post_quiet ..)

theorem Dev.safeSide_keepsLinks (d : Dev) (s : Nat) (f : Bool) : d.KeepsLinks (d.safeSide s f) := by
  have h := (((Dev.KeepsLinks.of_frame (d.zeroWords_only s) rfl).thenFrame (Dev.stopBoost_only _ s) rfl).thenFrame
    (Dev.darkSide_only _ s) rfl).thenFrame (Dev.modLside_only _ s fun p => { p with r := 0, rRamp := none, ignited := false }) rfl
  exact (h.trans (Dev.modMportEv_keepsLinks _ s fun p => p.park f)).trans (.of_links rfl)

theorem Dev.enterSafe_keepsLinks (d : Dev) (s : Nat) (f : Bool) : d.KeepsLinks (d.enterSafe s f) := by
  unfold Dev.enterSafe
  split
  · split
    · exact d.modMportEv_keepsLinks ..
    · exact .refl d
  · exact d.safeSide_keepsLinks s f

theorem Dev.safeAll_keepsLinks (d : Dev) (c r : Nat) (f : Bool) : d.KeepsLinks (d.safeAll c r f) :=
  (((Dev.KeepsLinks.foldl (fun e s => e.enterSafe_keepsLinks s f) d.sides d).thenFrame (Dev.pend_only _ .safe c r) rfl).thenFrame
    (Dev.release_only _ .ignition) rfl).thenFrame (Dev.release_only _ .globalReset) rfl

theorem Dev.reactSide_keepsLinks (d : Dev) (s c : Nat) (f : Bool) : d.KeepsLinks (d.reactSide s c f) := by
  unfold Dev.reactSide
  split
  · exact .refl d
  · split
    · exact .of_frame (d.sameTick_only c 2) rfl
    · split
      · exact (d.enterSafe_keepsLinks s f).thenFrame (Dev.pend_only ..) rfl
      · exact d.safeAll_keepsLinks c 2 f

theorem Dev.reactCh_keepsLinks (d : Dev) (c code : Nat) : d.KeepsLinks (d.reactCh c code) := by
  have h : d.KeepsLinks (d.latch c code) := .of_frame (d.latch_only c code) rfl
  unfold Dev.reactCh
  extract_lets d1
  split
  · exact (h.thenFrame (Dev.markSide_only _ code c) rfl).trans (Dev.reactSide_keepsLinks ..)
  · exact h

theorem Dev.react_keepsLinks (d : Dev) (code inst : Nat) (r : Reaction) (f : Bool) : d.KeepsLinks (d.react code inst r f) := by
  unfold Dev.react
  split
  · cases r with
    | rec_ => exact .refl d
    | ch => exact d.reactCh_keepsLinks ..
    | side => exact .foldl (fun e s => e.reactSide_keepsLinks s code f) _ d
    | dev => exact d.safeAll_keepsLinks code 3 f
  · exact .refl d

theorem Dev.snapshot_keepsLinks (d : Dev) (n : Nat) : d.KeepsLinks (d.snapshot n) := by
  unfold Dev.snapshot
  extract_lets again seq src recs hold s1 d1
  have h1 : d.KeepsLinks d1 := .of_links rfl
  split
  · exact h1
  · exact h1.thenQuiet (Dev.quiet_trans (Dev.setIrq_quiet ..) (Dev.post_quiet ..))

theorem Dev.raise_keepsLinks (d : Dev) (code inst arg : Nat) : d.KeepsLinks (d.raise code inst arg) := by
  unfold Dev.raise Dev.raiseWith
  split
  · exact .of_quiet (d.post_quiet code arg)
  · split
    · exact .refl d
    · extract_lets d1 s2 d2 own r d3
      have h1 : d.KeepsLinks d1 := .of_quiet (Dev.quiet_trans (d.post_quiet code arg) (Dev.setIrq_quiet ..))
      have h2 : d.KeepsLinks d2 := h1.trans (.of_links rfl)
      have h3 : d.KeepsLinks d3 := (h2.thenFrame (Dev.activate_only ..) rfl).trans (Dev.react_keepsLinks ..)
      split
      · exact h3.trans (Dev.snapshot_keepsLinks ..)
      · exact h3

theorem Dev.clearFault_keepsLinks (d : Dev) (code inst : Nat) : d.KeepsLinks (d.clearFault code inst) := by
  unfold Dev.clearFault
  split
  · exact (d.setSaf_keepsLinks _).thenQuiet (Dev.post_quiet ..)
  · exact .refl d

/-! ### Layer frames of a link that enters DETECT -/

theorem Dev.modLayer_keepsLinks (d : Dev) (n : Nat) (f : Layer → Layer) : d.KeepsLinks (d.modLayer n f) := .of_links rfl

theorem Dev.storeEarly_keepsLinks (d : Dev) (f t : Nat) : d.KeepsLinks (d.storeEarly f t) :=
  .of_frame (d.storeEarly_only f t) rfl

theorem Dev.signalFence_keepsLinks (d : Dev) (f : Nat) : d.KeepsLinks (d.signalFence f) := by
  unfold Dev.signalFence
  extract_lets c1 d1
  have h1 : d.KeepsLinks d1 := by
    unfold d1
    split
    · exact d.setCmp_keepsLinks _
    · exact d.storeEarly_keepsLinks ..
  exact h1.trans (.foldl (fun e c => .of_quiet (e.finish_quiet ..)) _ _)

theorem Dev.signalBound_keepsLinks (d : Dev) (n : Nat) (p : BoundFence → Bool) : d.KeepsLinks (d.signalBound n p) := by
  unfold Dev.signalBound
  exact (d.modLayer_keepsLinks ..).trans (.foldl (fun e (b : BoundFence) => e.signalFence_keepsLinks b.fence) _ _)

theorem Dev.retire_keepsLinks (d : Dev) (n f : Nat) (s : Bool) : d.KeepsLinks (d.retire n f s) := by
  unfold Dev.retire
  extract_lets d1
  have h1 : d.KeepsLinks d1 := .of_frame (d.setPar_only ..) rfl
  split
  · exact h1.thenQuiet (Dev.post_quiet ..)
  · exact h1

theorem Dev.closeFrame_keepsLinks (d : Dev) (n : Nat) : d.KeepsLinks (d.closeFrame n) := by
  unfold Dev.closeFrame
  extract_lets l
  split
  · exact .refl d
  · next b missing rows blank d1 old d2 d3 _ _ _ _ =>
    have h1 : d.KeepsLinks d1 := by
      unfold d1
      split
      · exact .refl d
      · exact (Dev.KeepsLinks.of_frame (d.count_only ..) rfl).thenQuiet (Dev.post_quiet ..)
    split
    · exact (h1.trans (d1.modLayer_keepsLinks ..)).trans (Dev.signalBound_keepsLinks ..)
    · have h2 : d.KeepsLinks d2 := h1.trans (d1.modLayer_keepsLinks ..)
      have h3 : d.KeepsLinks d3 := by
        unfold d3
        clear_value old
        cases old with
        | some b => exact (h2.thenFrame (Dev.count_only ..) rfl).trans (Dev.retire_keepsLinks ..)
        | none => exact h2
      exact h3.trans (Dev.signalBound_keepsLinks ..)

theorem Dev.closeMissing_keepsLinks (d : Dev) (n : Nat) : d.KeepsLinks (d.closeMissing n) := by
  unfold Dev.closeMissing
  split
  · exact .refl d
  · exact (Dev.KeepsLinks.of_frame (d.count_only ..) rfl).trans (Dev.closeFrame_keepsLinks ..)

theorem Dev.closeFramesOf_keepsLinks (d : Dev) (l : LinkId) : d.KeepsLinks (d.closeFramesOf l) := by
  refine .foldl (fun e n => ?_) _ d
  split
  · split
    · exact e.closeMissing_keepsLinks n
    · exact .refl e
  · exact .refl e

/-! ### Calibration -/

theorem Dev.checkRef_keepsLinks (d : Dev) : d.KeepsLinks d.checkRef := by
  unfold Dev.checkRef
  split
  · exact .refl d
  · split
    · exact .refl d
    · split
      · exact d.clearFault_keepsLinks ..
      · exact (Dev.KeepsLinks.thenQuiet (.of_frame (d.skipChannels_only _) rfl) (Dev.post_quiet ..)).trans (Dev.raise_keepsLinks ..)

theorem Dev.startCover_keepsLinks (d : Dev) (ch : Nat) : d.KeepsLinks (d.startCover ch) := by
  unfold Dev.startCover
  split
  · split
    · exact (d.modLink_keepsLinks _ fun _ => by rfl).trans (Dev.syncBts_keepsLinks ..)
    · exact .refl d
  · exact .of_frame (Dev.modMport_only ..) rfl
  · exact .of_links rfl
  · exact .refl d

theorem Dev.endCover_keepsLinks (d : Dev) (ch : Nat) : d.KeepsLinks (d.endCover ch) := by
  unfold Dev.endCover
  split
  · split
    · exact (d.modLink_keepsLinks _ Link.noShadow_place).trans (Dev.syncBts_keepsLinks ..)
    · exact .refl d
  · exact .of_frame (Dev.modMport_only ..) rfl
  · exact .of_links rfl
  · exact .refl d

theorem Dev.dropLost_keepsLinks (d : Dev) : d.KeepsLinks d.dropLost := by
  unfold Dev.dropLost
  split
  · exact .refl d
  · extract_lets lost d1 gone d2
    have h1 : d.KeepsLinks d1 :=
      .trans (.of_frame (d.modRun_only _) rfl) (.foldl (fun e ch => e.endCover_keepsLinks ch) _ _)
    exact (h1.thenFrame (Dev.modRun_only ..) rfl).thenFrame (Dev.skipChannels_only ..) rfl

theorem Dev.nextCover_keepsLinks (d : Dev) (scope : Nat) : d.KeepsLinks (d.nextCover scope) := by
  unfold Dev.nextCover
  split
  · exact .refl d
  · extract_lets open_
    split
    · exact .refl d
    · split
      · exact .refl d
      · extract_lets free
        split
        · exact .trans (.of_frame (d.modRun_only _) rfl) (Dev.startCover_keepsLinks ..)
        · exact .refl d

theorem Dev.askRun_keepsLinks (d : Dev) (sc : BitVec 3) (auto : Bool) (p : Port) (tag : Nat) :
    d.KeepsLinks (d.askRun sc auto p tag).1 := by
  unfold Dev.askRun
  extract_lets d1
  have h1 : d.KeepsLinks d1 := d.request_keepsLinks .cal
  have h2 : d.KeepsLinks (d1.openRun sc auto false p tag) := h1.thenFrame (Dev.openRun_only ..) rfl
  split
  · exact (((h2.trans (Dev.checkRef_keepsLinks _)).trans (Dev.dropLost_keepsLinks _)).trans (Dev.nextCover_keepsLinks _ 0)).trans
      (Dev.nextCover_keepsLinks _ 1)
  · split
    · exact h2
    · exact h1

theorem Dev.keepsLinks_of_askRun {d e : Dev} {sc : BitVec 3} {auto ok : Bool} {p : Port} {tag : Nat}
    (h : d.askRun sc auto p tag = (e, ok)) : d.KeepsLinks e := by
  have := d.askRun_keepsLinks sc auto p tag
  rwa [h] at this

theorem Dev.storeSet_keepsLinks (d : Dev) (r : CalRun) : d.KeepsLinks (d.storeSet r) := by
  unfold Dev.storeSet
  extract_lets
  exact (d.setCal_keepsLinks _).trans (Dev.request_keepsLinks ..)

theorem Dev.markScopes_keepsLinks (d : Dev) (r : CalRun) (n : BitVec 3) : d.KeepsLinks (d.markScopes r n) := by
  unfold Dev.markScopes
  extract_lets upd c1 d1
  have h1 : d.KeepsLinks d1 := d.setCal_keepsLinks _
  exact (h1.thenFrame (Dev.modRun_only ..) rfl).thenQuiet (Dev.post_quiet ..)

theorem Dev.finishRun_keepsLinks (d : Dev) : d.KeepsLinks d.finishRun := by
  unfold Dev.finishRun
  split
  · exact .refl d
  · next r _ =>
    split
    · exact .refl d
    · extract_lets n d1 d2 c3 d3 d4
      have h1 : d.KeepsLinks d1 := by
        unfold d1
        split
        · exact .refl d
        · exact d.markScopes_keepsLinks r n
      have hc : d.KeepsLinks (d1.count kCalCalRuns 0 1) := h1.thenFrame (d1.count_only kCalCalRuns 0 1) rfl
      have hs : d.KeepsLinks ((d1.count kCalCalRuns 0 1).storeSet r) := hc.trans (Dev.storeSet_keepsLinks _ r)
      have h2 : d.KeepsLinks d2 := hs.thenFrame (Dev.release_only _ .cal) rfl
      have h3 : d.KeepsLinks d3 := h2.trans (d2.setCal_keepsLinks _)
      have h4 : d.KeepsLinks d4 := by
        unfold d4
        split
        · exact h3
        · exact h3.thenQuiet (Dev.finish_quiet ..)
      split
      · exact h1
      · split
        · exact h4
        · next sc p tag _ =>
          split
          next d6 ok e =>
          have h6 : d.KeepsLinks d6 := (h4.trans (d4.setCal_keepsLinks _)).trans (Dev.keepsLinks_of_askRun e)
          split
          · exact h6
          · exact h6.thenQuiet (Dev.finishWith_quiet ..)

/-- Calibration goes on without moving a link. -/
theorem Dev.calAdvance_keepsLinks (d : Dev) : d.KeepsLinks d.calAdvance := by
  unfold Dev.calAdvance
  split
  · exact ((d.dropLost_keepsLinks.trans (Dev.nextCover_keepsLinks _ 0)).trans (Dev.nextCover_keepsLinks _ 1)).trans
      (Dev.finishRun_keepsLinks _)
  · exact .refl d

end Sys2Proof.Machine
end

section
/-! How parameters read through link operations, the states that a link enters, and how a link's command runs. -/

namespace Sys2Proof.Machine

open Sys2Proof

/-! ### Parameters of a link

A PARAM_ID ends in the number of its parameter, so two parameters with different numbers stay apart for every unit and
every link. -/

theorem lkey_num (key : Nat) (l : LinkId) : lkey key l % 0x10000 = key % 0x10000 := by
  unfold lkey
  omega

theorem pid_ne_of_num {key key' : Nat} (i j : Nat) (h : key' % 0x10000 ≠ key % 0x10000) : pid key' j ≠ pid key i := by
  unfold pid
  omega

theorem Dev.par_setPar_ne (d : Dev) {key key' : Nat} (i j : Nat) (v : Int) (h : key' % 0x10000 ≠ key % 0x10000) :
    (d.setPar key i v).par key' j = d.par key' j :=
  congrArg Int.toNat (d.valOf_putVal_ne v (pid_ne_of_num i j h))

/-- The value put is the value read. -/
theorem Dev.par_setPar_self {d : Dev} (hI : d.Inv) (key i : Nat) (v : Int) : (d.setPar key i v).par key i = v.toNat :=
  congrArg Int.toNat (Dev.valOf_putVal_self (pid key i) v hI.vals)

theorem Dev.onlyChanges.par {a b : Dev} {l : List Part} (h : a.onlyChanges b l) (hl : l.contains .prm = false) (key j : Nat) :
    b.par key j = a.par key j := by
  have hp : b.prm = a.prm := h.part .prm hl
  unfold Dev.par Dev.parI Dev.valOf
  rw [hp, h.1]

theorem Dev.onlyChanges.link {a b : Dev} {m : List Part} (h : a.onlyChanges b m) (hm : m.contains .links = false) (l : LinkId) :
    b.link l = a.link l := by
  have hk : b.links = a.links := h.part .links hm
  unfold Dev.link
  rw [hk]

theorem Dev.par_foldl {α : Type} {f : Dev → α → Dev} {key j : Nat} (hf : ∀ (e : Dev) x, (f e x).par key j = e.par key j)
    (xs : List α) (d : Dev) : (xs.foldl f d).par key j = d.par key j := by
  induction xs generalizing d with
  | nil => rfl
  | cons x xs ih => exact (ih _).trans (hf d x)

/-! ### Measured eyes

EYE and TRAIN record the eyes and adapt the receivers; thresholds, ceiling, tickets and the link's place stay. -/

/-- What the end of EYE and TRAIN begins with: the eyes are recorded, and CTLE and DFE adapt. -/
def Dev.measureEyes (d : Dev) (l : LinkId) (eyes : List Eye) : Dev := (d.recordEyes l eyes).adaptReceivers l

theorem Dev.measureEyes_only (d : Dev) (l : LinkId) (eyes : List Eye) :
    d.onlyChanges (d.measureEyes l eyes) [.prm, .links, .free] :=
  Dev.only_then (Dev.adaptReceivers_only ..) rfl ((d.recordEyes_only l eyes).mono rfl)

theorem Dev.measureEyes_keepsLinks (d : Dev) (l : LinkId) (eyes : List Eye) : d.KeepsLinks (d.measureEyes l eyes) :=
  .trans (.of_frame (d.recordEyes_only l eyes) rfl) (Dev.adaptReceivers_keepsLinks ..)

theorem Dev.recordEyes_par (d : Dev) (l : LinkId) (eyes : List Eye) {key : Nat} (j : Nat)
    (hw : key % 0x10000 ≠ kLnkEyeWidth % 0x10000) (hh : key % 0x10000 ≠ kLnkEyeHeight % 0x10000) :
    (d.recordEyes l eyes).par key j = d.par key j := by
  refine Dev.par_foldl (fun e i => ?_) _ d
  split
  · rw [Dev.par_setPar_ne _ _ _ _ (by rwa [lkey_num]), Dev.par_setPar_ne _ _ _ _ (by rwa [lkey_num])]
  · rfl

theorem Dev.adaptReceivers_par (d : Dev) (l : LinkId) {key : Nat} (j : Nat) (h : key % 0x10000 ≠ kLnkCtle % 0x10000) :
    (d.adaptReceivers l).par key j = d.par key j := by
  unfold Dev.adaptReceivers
  rw [(Dev.adaptDfe_only ..).par rfl]
  refine Dev.par_foldl (fun e i => ?_) _ d
  rw [(Dev.drawn_only _).par rfl, Dev.par_setPar_ne _ _ _ _ (by rwa [lkey_num])]

/-- Parameters of a link other than EYE_WIDTH, EYE_HEIGHT and CTLE read as before. -/
theorem Dev.measureEyes_par (d : Dev) (l : LinkId) (eyes : List Eye) {key : Nat}
    (h : ∀ k ∈ [kLnkEyeWidth, kLnkEyeHeight, kLnkCtle], key % 0x10000 ≠ k % 0x10000) :
    (d.measureEyes l eyes).par (lkey key l) 0 = d.par (lkey key l) 0 := by
  simp only [List.forall_mem_cons, List.not_mem_nil, false_imp_iff, implies_true, and_true, ← lkey_num key l] at h
  obtain ⟨hw, hh, hc⟩ := h
  exact (Dev.adaptReceivers_par _ l 0 hc).trans (d.recordEyes_par l eyes 0 hw hh)

theorem Dev.ceiling_congr {a b : Dev} {l : LinkId} (h : a.KeepsLinks b)
    (hp : b.par (lkey kLnkMaxRate l) 0 = a.par (lkey kLnkMaxRate l) 0) : b.ceiling l = a.ceiling l := by
  unfold Dev.ceiling
  rw [hp, h.ecuRates, h.cap]

theorem Dev.measureEyes_ceiling (d : Dev) (l : LinkId) (eyes : List Eye) : (d.measureEyes l eyes).ceiling l = d.ceiling l :=
  Dev.ceiling_congr (d.measureEyes_keepsLinks l eyes) (d.measureEyes_par l eyes (by decide))

theorem Dev.measureEyes_eyePasses (d : Dev) (l : LinkId) (eyes : List Eye) (e : Eye) (pam4 : Bool) :
    (d.measureEyes l eyes).eyePasses l e pam4 = d.eyePasses l e pam4 := by
  unfold Dev.eyePasses
  rw [d.measureEyes_par l eyes (by decide), d.measureEyes_par l eyes (by decide)]

theorem Dev.measureEyes_lanesPassing (d : Dev) (l : LinkId) (eyes : List Eye) (pam4 : Bool) :
    (d.measureEyes l eyes).lanesPassing l eyes pam4 = d.lanesPassing l eyes pam4 := by
  unfold Dev.lanesPassing
  simp only [Dev.measureEyes_eyePasses, (d.measureEyes_keepsLinks l eyes).failed]

theorem Dev.ticketHeld_of_frame {a b : Dev} {l : List Part} (h : a.onlyChanges b l) (hl : l.contains .sluice = false) (t : Holder) :
    b.ticketHeld t = a.ticketHeld t := by
  have hs : b.sluice = a.sluice := h.part .sluice hl
  unfold Dev.ticketHeld
  rw [hs]

theorem Dev.measureEyes_eyeTicket (d : Dev) (l : LinkId) (eyes : List Eye) :
    (d.measureEyes l eyes).eyeTicket l = d.eyeTicket l := by
  unfold Dev.eyeTicket
  rw [(d.measureEyes_keepsLinks l eyes).purpose, Dev.ticketHeld_of_frame (d.measureEyes_only l eyes) rfl]

/-! ### Lanes that leave the map -/

theorem Link.dropLane_state (k : Link) (phys : Nat) : (k.dropLane phys).state = k.state := by
  unfold Link.dropLane
  extract_lets k1
  repeat' split
  all_goals rfl

theorem Dev.dropFailing_state (d : Dev) (l : LinkId) (eyes : List Eye) (pam4 : Bool) :
    ((d.dropFailing l eyes pam4).link l).state = (d.link l).state := by
  unfold Dev.dropFailing
  induction List.range 5 generalizing d with
  | nil => rfl
  | cons i is ih =>
    rw [List.foldl_cons, ih]
    split
    · rfl
    · rw [Dev.link_modLink_self, Link.dropLane_state]

/-- Where every eye passes no lane leaves the map. -/
theorem Dev.dropFailing_of_passing {d : Dev} {l : LinkId} {eyes : List Eye} {pam4 : Bool}
    (h : ∀ i < 5, d.eyePasses l (eyeOf eyes i) pam4 = true) : d.dropFailing l eyes pam4 = d := by
  have hm : ∀ i ∈ List.range 5, d.eyePasses l (eyeOf eyes i) pam4 = true := fun i hi => h i (List.mem_range.1 hi)
  unfold Dev.dropFailing
  generalize List.range 5 = is at hm ⊢
  induction is with
  | nil => rfl
  | cons i is ih =>
    rw [List.foldl_cons, if_pos (hm i List.mem_cons_self)]
    exact ih fun j hj => hm j (List.mem_cons_of_mem i hj)

/-! ### State entries (Table 2-8) -/

theorem Dev.leavePower_quiet (d : Dev) (l : LinkId) : d.Quiet (d.leavePower l) := by
  unfold Dev.leavePower
  split
  · exact d.postFree_quiet _
  · exact d.quiet_refl

theorem Dev.toDetect_link (d : Dev) (l : LinkId) :
    ((d.toDetect l).link l).state = .detect ∧ ((d.toDetect l).link l).rate = 0 ∧
      ((d.toDetect l).link l).map = [0, 1, 2, 3] ∧ ((d.toDetect l).link l).spare = some 4 := by
  have h := Dev.KeepsLinks.afterModLink (b := d.toDetect l) (((Dev.closeFramesOf_keepsLinks _ l).trans
    (Dev.clearFault_keepsLinks _ (l.ev 0x07) 0)).trans (Dev.syncBts_keepsLinks _ l))
  exact ⟨congrArg Link.state h, congrArg Link.rate h, congrArg Link.map h, congrArg Link.spare h⟩

theorem Dev.toLock_link (d : Dev) (l : LinkId) (r : Nat) (p : LockPurpose) (fast : Bool) :
    ((d.toLock l r p fast).link l).place =
      ({ d.link l with state := .lock, rate := r, purpose := p, fastReentry := fast,
                       bts := { (d.link l).bts with pamReq := 0 } } : Link).place :=
  Dev.KeepsLinks.afterModLink (Dev.syncBts_keepsLinks _ l)

theorem Dev.toEye_state (d : Dev) (l : LinkId) : ((d.toEye l).link l).state = .eye :=
  congrArg Link.state (Dev.KeepsLinks.afterModLink (Dev.syncBts_keepsLinks _ l))

theorem Dev.toTrain_link (d : Dev) (l : LinkId) (stored : Bool) :
    ((d.toTrain l stored).link l).state = .train ∧ ((d.toTrain l stored).link l).fastReentry = false := by
  unfold Dev.toTrain
  extract_lets d0 fixed preset d1
  have h1 := Dev.KeepsLinks.afterModLink (f := fun k => { k with
    state := .train, fastReentry := false, tapReqs := List.replicate 5 none, bts := { k.bts with pamReq := 0 } })
    (Dev.syncBts_keepsLinks (d0.modLink l _) l)
  have hs : ∀ k : Link, ((List.range 5).foldl (fun k p =>
      if k.failed.getD p false then k else k.sendTap p (presetWord preset p 0) 0 1 1) k).place = k.place := by
    intro k
    induction List.range 5 generalizing k with
    | nil => rfl
    | cons p ps ih =>
      rw [List.foldl_cons, ih]
      split
      · rfl
      · exact k.sendTap_place ..
  split
  · exact ⟨congrArg Link.state h1, congrArg Link.fastReentry h1⟩
  · have h2 := (d1.modLink_keepsLinks l hs).place l
    exact ⟨congrArg Link.state (h2.trans h1), congrArg Link.fastReentry (h2.trans h1)⟩

theorem Dev.toDown_state (d : Dev) (l : LinkId) : ((d.toDown l).link l).state = .down := by
  unfold Dev.toDown
  extract_lets d1
  have h := Dev.KeepsLinks.afterModLink (f := fun k => { k.noShadow with
    state := .down, fastReentry := false, waitTicket := false, recovering := false })
    (.of_frame (Dev.release_only (d.modLink l _) (.link l)) rfl)
  have g := (((d1.raise_keepsLinks (l.ev 0x02) 0 (d1.free.toNat % 0x100000000)).thenFrame (Dev.drawn_only _) rfl).trans
    (Dev.syncBts_keepsLinks _ l)).place l
  exact congrArg Link.state (g.trans h)

theorem Dev.toRecovery_link (d : Dev) (l : LinkId) :
    ((d.toRecovery l).link l).state = .recovery ∧ ((d.toRecovery l).link l).recPhase = .relock ∧
      ((d.toRecovery l).link l).retrains = 0 ∧ ((d.toRecovery l).link l).fastReentry = false := by
  have h := Dev.KeepsLinks.afterModLink (b := d.toRecovery l) ((((Dev.KeepsLinks.of_frame (Dev.release_only _ (.link l)) rfl).thenFrame
    (Dev.count_only _ (lkey kLnkRecoveryCount l) 0 1) rfl).thenQuiet (Dev.postFree_quiet _ (l.ev 0x04))).trans
    (Dev.syncBts_keepsLinks _ l))
  exact ⟨congrArg Link.state h, congrArg Link.recPhase h, congrArg Link.retrains h, congrArg Link.fastReentry h⟩

theorem Dev.toStep_link (d : Dev) (l : LinkId) (r : Nat) :
    ((d.toStep l r).link l).state = .step ∧ ((d.toStep l r).link l).stepTarget = r := by
  have h := Dev.KeepsLinks.afterModLink (b := d.toStep l r) (Dev.syncBts_keepsLinks _ l)
  exact ⟨congrArg Link.state h, congrArg Link.stepTarget h⟩

theorem Link.dropCover_place (k : Link) : k.dropCover.place = k.place := by
  unfold Link.dropCover
  split <;> rfl

theorem Dev.toL1_link (d : Dev) (l : LinkId) :
    ((d.toL1 l).link l).state = .l1 ∧ ((d.toL1 l).link l).backLaneOn = (d.link l).backLaneOn ∧
      ((d.toL1 l).link l).rate = (d.link l).rate := by
  unfold Dev.toL1
  extract_lets d1 d2
  have h1 : (d1.link l).place = _ := Dev.KeepsLinks.afterModLink (.trans (.of_frame (Dev.release_only _ (.link l)) rfl)
    (Dev.syncBts_keepsLinks _ l))
  have h2 : d1.KeepsLinks d2 := by
    unfold d2
    split
    · exact .of_frame (d1.count_only ..) rfl
    · exact .refl d1
  have h := (((h2.thenQuiet (Dev.postFree_quiet _ (l.ev 0x08))).trans (Dev.calAdvance_keepsLinks _)).place l).trans h1
  have hc := (d.link l).dropCover_place
  exact ⟨congrArg Link.state h, (congrArg Link.backLaneOn h :).trans (congrArg Link.backLaneOn hc :),
    (congrArg Link.rate h :).trans (congrArg Link.rate hc :)⟩

theorem Dev.toL2_link (d : Dev) (l : LinkId) :
    ((d.toL2 l).link l).state = .l2 ∧ ((d.toL2 l).link l).backLaneOn = false ∧ ((d.toL2 l).link l).rate = (d.link l).rate := by
  unfold Dev.toL2
  extract_lets d1 d2
  have h1 : (d1.link l).place = _ := Dev.KeepsLinks.afterModLink (.trans (.of_frame (Dev.release_only _ (.link l)) rfl)
    (Dev.syncBts_keepsLinks _ l))
  have h2 : d2.link l = _ := Dev.link_modLink_self d1 l _
  have h : (d2.link l).state = .l2 ∧ (d2.link l).backLaneOn = false ∧ (d2.link l).rate = (d.link l).rate := by
    rw [h2]
    exact ⟨(congrArg Link.state h1 :), rfl, (congrArg Link.rate h1 :)⟩
  split
  · exact h
  · have g := Dev.KeepsLinks.of_quiet (d2.postFree_quiet (l.ev 0x08))
    rwa [g.state, g.backLaneOn, g.rate]

theorem Dev.fromL2_link (d : Dev) (l : LinkId) :
    ((d.fromL2 l).link l).state = .lock ∧ ((d.fromL2 l).link l).rate = (d.link l).rate ∧
      ((d.fromL2 l).link l).fastReentry = true ∧ ((d.fromL2 l).link l).backLaneOn = true := by
  unfold Dev.fromL2
  have h := Dev.toLock_link ((d.leavePower l).modLink l fun k => { k with backLaneOn := true }) l (d.link l).rate .recoveryDrop true
  rw [Dev.link_modLink_self] at h
  exact ⟨(congrArg Link.state h :), (congrArg Link.rate h :), (congrArg Link.fastReentry h :), (congrArg Link.backLaneOn h :)⟩

theorem Dev.askStep_keepsLinks (d : Dev) (l : LinkId) : d.KeepsLinks (d.askStep l) := by
  unfold Dev.askStep
  extract_lets k
  split
  · exact (d.modLink_keepsLinks l fun _ => by rfl).trans (Dev.request_keepsLinks ..)
  · exact .refl d

/-- L0 is entered at the rate that the link is at (Table 2-8). -/
theorem Dev.toL0_link (d : Dev) (l : LinkId) :
    ((d.toL0 l).link l).state = .l0 ∧ ((d.toL0 l).link l).rate = (d.link l).rate ∧
      ((d.toL0 l).link l).prevL0Rate = (d.link l).rate ∧ ((d.toL0 l).link l).upSinceDetect = true ∧
      ((d.toL0 l).link l).replayHeld = (d.link l).replayHeld := by
  unfold Dev.toL0
  extract_lets k first d1 d2 d3' d3 d4
  have h2 : (d2.link l).place = _ := Dev.KeepsLinks.afterModLink (.trans (.of_frame (Dev.release_only _ (.link l)) rfl)
    (Dev.syncBts_keepsLinks _ l))
  have h3 : d2.KeepsLinks d3 := by
    unfold d3
    split
    · exact (((d2.modLink_keepsLinks l fun _ => by rfl).trans (Dev.sendAck_keepsLinks _ l 1)).trans
        (Dev.clearFault_keepsLinks ..)).thenQuiet (Dev.postFree_quiet ..)
    · split
      · exact .of_quiet (d2.postFree_quiet _)
      · exact .refl d2
  have h4 : d2.KeepsLinks d4 := by
    unfold d4
    split
    · exact h3.thenQuiet (Dev.postFree_quiet ..)
    · exact h3
  have h := (((h4.trans (d4.askStep_keepsLinks l)).thenQuiet (Dev.pumpLink_quiet _ l)).place l).trans h2
  exact ⟨(congrArg Link.state h :), (congrArg Link.rate h :), (congrArg Link.prevL0Rate h :), (congrArg Link.upSinceDetect h :),
    (congrArg Link.replayHeld h :)⟩

/-- A failed eye test or training: one code down, or DOWN at S1 (R43). -/
theorem Dev.attemptFailed_link (d : Dev) (l : LinkId) :
    (1 < (d.link l).rate → ((d.attemptFailed l).link l).state = .lock ∧
      ((d.attemptFailed l).link l).rate = (d.link l).rate - 1 ∧ ((d.attemptFailed l).link l).cap = max 1 (d.ceiling l - 1)) ∧
    ((d.link l).rate ≤ 1 → ((d.attemptFailed l).link l).state = .down) := by
  unfold Dev.attemptFailed
  extract_lets k d1
  refine ⟨fun hr => ?_, fun hr => ?_⟩
  · rw [if_pos hr]
    have h := Dev.toLock_link (d1.modLink l fun k => { k with cap := max 1 (d.ceiling l - 1) }) l (k.rate - 1) k.purpose false
    rw [Dev.link_modLink_self] at h
    exact ⟨congrArg Link.state h, (congrArg Link.rate h :), (congrArg Link.cap h :)⟩
  · rw [if_neg (Nat.not_lt.2 hr)]
    exact d1.toDown_state l

/-! ### Replays that wait (Table 3-9) -/

theorem Dev.heldReplay_of_none {d : Dev} {l : LinkId} (h : (d.link l).replayHeld = false) : d.heldReplay l = d := by
  unfold Dev.heldReplay
  rw [if_neg (by simp [h])]

/-- The fourth replay moves a link out of L0 and L1 only. -/
theorem Dev.replayLimit_keepsLinks {d : Dev} {l : LinkId} (h0 : (d.link l).state ≠ .l0) (h1 : (d.link l).state ≠ .l1) :
    d.KeepsLinks (d.replayLimit l) := by
  have h : d.KeepsLinks ((d.modLink l fun k => { k with replays := 0 }).postFree (l.ev 0x09)) :=
    (d.modLink_keepsLinks l fun _ => by rfl).thenQuiet (Dev.postFree_quiet ..)
  unfold Dev.replayLimit Dev.retrain1
  split
  · rw [if_neg]
    · exact h
    · rw [h.state]
      exact fun hs => hs.elim h0 h1
  · exact .refl d

/-- Outside L0 and L1 a replay that waited goes out and moves nothing else of the link. -/
theorem Dev.heldReplay_link {d : Dev} {l : LinkId} (h0 : (d.link l).state ≠ .l0) (h1 : (d.link l).state ≠ .l1) :
    ((d.heldReplay l).link l).place = ({ d.link l with replayHeld := false } : Link).place := by
  unfold Dev.heldReplay
  split
  · split
    · rw [Dev.link_modLink_self]
    · have h : ((d.replayVc1 l).link l).place = ({ d.link l with replayHeld := false } : Link).place :=
        Dev.KeepsLinks.afterModLink (.of_frame (Dev.count_only _ (lkey kLnkVc1ReplayTx l) 0 _) rfl)
      have hs : ((d.replayVc1 l).link l).state = (d.link l).state := (congrArg Link.state h :)
      exact ((Dev.replayLimit_keepsLinks (hs ▸ h0) (hs ▸ h1)).place l).trans h
  · next hr =>
    simp only [Bool.not_eq_true] at hr
    simp only [Link.place, hr]

/-- The PAM4 phase of recovery begins (Table 2-14). -/
theorem Dev.toPam4_link {d : Dev} {l : LinkId} (hs : (d.link l).state = .recovery) :
    ((d.toPam4 l).link l).state = .recovery ∧ ((d.toPam4 l).link l).recPhase = .pam4 ∧
      ((d.toPam4 l).link l).retrains = (d.link l).retrains ∧ ((d.toPam4 l).link l).bts.pamReq = 2 := by
  unfold Dev.toPam4
  generalize hb : ((d.modLink l _).syncBts l).pumpLink l = b
  have h : (b.link l).place = _ := Dev.KeepsLinks.afterModLink (hb ▸ (Dev.syncBts_keepsLinks _ l).thenQuiet (Dev.pumpLink_quiet _ l))
  have h1 : (b.link l).state = .recovery := (congrArg Link.state h :).trans hs
  have g := Dev.heldReplay_link (d := b) (l := l) (by rw [h1]; decide) (by rw [h1]; decide)
  exact ⟨(congrArg Link.state g :).trans h1, (congrArg Link.recPhase g :).trans (congrArg Link.recPhase h :),
    (congrArg Link.retrains g :).trans (congrArg Link.retrains h :),
    (congrArg (fun k : Link => k.bts.pamReq) g :).trans (congrArg (fun k : Link => k.bts.pamReq) h :)⟩

/-! ### How a link's command runs -/

theorem exec_detectLosQualified (l : LinkId) (s : State) : exec (.detectLosQualified l) s = execDetectLosQualified l s := rfl
theorem exec_lockAchieved (l : LinkId) (s : State) : exec (.lockAchieved l) s = execLockAchieved l s := rfl
theorem exec_lockTimeout (l : LinkId) (s : State) : exec (.lockTimeout l) s = execLockTimeout l s := rfl
theorem exec_stepTimeout (l : LinkId) (s : State) : exec (.stepTimeout l) s = execStepTimeout l s := rfl
theorem exec_downTimeout (l : LinkId) (s : State) : exec (.downTimeout l) s = execDownTimeout l s := rfl
theorem exec_linkTicketGranted (l : LinkId) (s : State) : exec (.linkTicketGranted l) s = execLinkTicketGranted l s := rfl
theorem exec_linkTicketRetry (l : LinkId) (s : State) : exec (.linkTicketRetry l) s = execLinkTicketRetry l s := rfl
theorem exec_trainTimeout (l : LinkId) (s : State) : exec (.trainTimeout l) s = execTrainTimeout l s := rfl
theorem exec_clockLaneLoss (l : LinkId) (s : State) : exec (.clockLaneLoss l) s = execClockLaneLoss l s := rfl
theorem exec_deskewLoss (l : LinkId) (s : State) : exec (.deskewLoss l) s = execDeskewLoss l s := rfl
theorem exec_recoveryRelock (l : LinkId) (s : State) : exec (.recoveryRelock l) s = execRecoveryRelock l s := rfl
theorem exec_recoveryTimeout (l : LinkId) (s : State) : exec (.recoveryTimeout l) s = execRecoveryTimeout l s := rfl
theorem exec_eiosL1 (l : LinkId) (s : State) : exec (.eiosL1 l) s = execEiosL1 l s := rfl
theorem exec_eiosL2 (l : LinkId) (s : State) : exec (.eiosL2 l) s = execEiosL2 l s := rfl
theorem exec_l1Exit (l : LinkId) (s : State) : exec (.l1Exit l) s = execL1Exit l s := rfl
theorem exec_l2Exit (l : LinkId) (s : State) : exec (.l2Exit l) s = execL2Exit l s := rfl
theorem exec_btsSend (l : LinkId) (s : State) : exec (.btsSend l) s = execBtsSend l s := rfl
theorem exec_eyeTestComplete (l : LinkId) (e : List PamEyes) (s : State) : exec (.eyeTestComplete l e) s = execEyeTestComplete l e s := rfl
theorem exec_recoveryEyeDone (l : LinkId) (e : List PamEyes) (s : State) : exec (.recoveryEyeDone l e) s = execRecoveryEyeDone l e s := rfl
theorem exec_recoveryRetrainDone (l : LinkId) (ok : Bool) (s : State) :
    exec (.recoveryRetrainDone l ok) s = execRecoveryRetrainDone l ok s := rfl
theorem exec_ts1Received (l : LinkId) (p : Nat) (ts : TrainingSet) (s : State) :
    exec (.ts1Received l p ts) s = execTs1Received l p ts s := rfl
theorem exec_tapreqAckTimeout (l : LinkId) (p : Nat) (s : State) : exec (.tapreqAckTimeout l p) s = execTapreqAckTimeout l p s := rfl
theorem exec_ts2Agreed (l : LinkId) (e : List Eye) (ts : List TrainingSet) (s : State) :
    exec (.ts2Agreed l e ts) s = execTs2Agreed l e ts s := rfl
theorem exec_hardLaneFault (l : LinkId) (p : Nat) (los lol : Bool) (s : State) :
    exec (.hardLaneFault l p los lol) s = execHardLaneFault l p los lol s := rfl
theorem exec_softLaneFault (l : LinkId) (p rise : Nat) (s : State) : exec (.softLaneFault l p rise) s = execSoftLaneFault l p rise s := rfl
theorem exec_dskReceived (l : LinkId) (ack : Nat) (valid : Bool) (seq : Nat) (agrees : Bool) (s : State) :
    exec (.dskReceived l ack valid seq agrees) s = execDskReceived l ack valid seq agrees s := rfl

theorem exec_onLink {c : Instr} {s : State} {l : LinkId} {f : Dev → Dev} {d : Dev} (hc : exec c s = s.onLink l f)
    (hl : s.dev.linkIds.contains l = true) (hf : f s.dev = d) : exec c s = .next { s with dev := d } := by
  rw [hc, State.onLink, State.on, if_pos hl, hf]

/-- A command that fits no row in the state its link is in. -/
theorem exec_onLink_idle {c : Instr} {s : State} {l : LinkId} {f : Dev → Dev} (hc : exec c s = s.onLink l f)
    (hf : f s.dev = s.dev) : exec c s = .next s := by
  rw [hc, State.onLink, State.on, hf, ite_self]

theorem Runs.of_onLink {c : Instr} {s : State} {l : LinkId} {touched : List Part} {effect : Dev → Prop} {f : Dev → Dev} {d : Dev}
    (hc : exec c s = s.onLink l f) (hl : s.dev.linkIds.contains l = true) (hf : f s.dev = d)
    (frame : s.dev.onlyChanges d touched) (e : effect d) : Runs c s touched effect :=
  ⟨d, exec_onLink hc hl hf, frame, e⟩

end Sys2Proof.Machine
end

section
/-! Reception of forward Husks (O48). -/

namespace Sys2Proof.Machine

open Sys2Proof

/-! ### Checks 1 to 3 (Table 3-3) -/

/-- Every command that is a forward Husk. -/
def forwardHusks (l : LinkId) (h : RxHusk) : List Instr :=
  [.lineHusk l h, .objHusk l h, .mbxHusk l h, .fenceHusk l h, .syncHusk l h, .ackHusk l h, .nakHusk l h]

/-- Every forward Husk goes through the same checks before its type's own action. -/
theorem exec_forwardHusk {l : LinkId} {h : RxHusk} {c : Instr} (hc : c ∈ forwardHusks l h) :
    ∃ type act, ∀ s, exec c s = s.on fun d => d.husk l type h act := by
  simp only [forwardHusks, List.mem_cons, List.not_mem_nil, or_false] at hc
  rcases hc with rfl | rfl | rfl | rfl | rfl | rfl | rfl <;> exact ⟨_, _, fun _ => rfl⟩

theorem exec_forwardHusk_idle {s : State} {l : LinkId} {h : RxHusk} {c : Instr} (hc : c ∈ forwardHusks l h)
    (hr : s.dev.linkIds.contains l = false ∨ (s.dev.link l).receives = false) : exec c s = .next s := by
  obtain ⟨type, act, he⟩ := exec_forwardHusk hc
  rw [he, State.on, Dev.husk, if_neg]
  rintro ⟨h1, h2⟩
  rcases hr with hr | hr
  · exact Bool.false_ne_true (hr.symm.trans h1)
  · exact Bool.false_ne_true (hr.symm.trans h2)

/-- A Husk that fails a check has the effect of the failed check only. -/
theorem exec_forwardHusk_failed {s : State} {l : LinkId} {h : RxHusk} {c : Instr} {d : Dev} (hc : c ∈ forwardHusks l h)
    (hl : s.dev.linkIds.contains l = true) (hr : (s.dev.link l).receives = true) (hd : s.dev.checkHusk l h = (d, none)) :
    exec c s = .next { s with dev := d } := by
  obtain ⟨type, act, he⟩ := exec_forwardHusk hc
  rw [he, State.on, Dev.husk, if_pos ⟨hl, hr⟩, hd]

/-- Check 1: the header. -/
theorem Dev.checkHusk_header {d : Dev} {l : LinkId} {h : RxHusk}
    (hh : h.headerDamaged = true ∨ h.bytes.length < 8 ∨ leField h.bytes 6 2 ≠ (crc16 (h.bytes.take 6)).toNat) :
    d.checkHusk l h = (d.count (lkey kLnkHcrcErr l) 0 1, none) := by
  unfold Dev.checkHusk
  rw [if_pos]
  simpa [or_assoc] using hh

/-- The header of a Husk passes check 1. -/
structure HeaderGood (h : RxHusk) : Prop where
  whole : h.headerDamaged = false
  long : 8 ≤ h.bytes.length
  crc : leField h.bytes 6 2 = (crc16 (h.bytes.take 6)).toNat

/-- Check 2: type, VC and length. -/
theorem Dev.checkHusk_format {d : Dev} {l : LinkId} {h : RxHusk} (hg : HeaderGood h)
    (hf : forwardVc (huskHdr h.bytes).type ≠ some (huskHdr h.bytes).vc ∨ 4096 < (huskHdr h.bytes).len) :
    d.checkHusk l h = (d.count (lkey kLnkFormatErr l) 0 1, none) := by
  unfold Dev.checkHusk
  rw [if_neg (by simp [hg.whole, hg.long, hg.crc]), if_pos (by simpa using hf)]

/-- Check 3: the body. -/
theorem Dev.checkHusk_body {d : Dev} {l : LinkId} {h : RxHusk} (hg : HeaderGood h)
    (hv : forwardVc (huskHdr h.bytes).type = some (huskHdr h.bytes).vc) (hn : (huskHdr h.bytes).len ≤ 4096)
    (hb : h.bodyDamaged = true ∨ (h.bytes.length = 12 + (huskHdr h.bytes).len ∧
      leField h.bytes (8 + (huskHdr h.bytes).len) 4 ≠ (crc32 (h.bytes.take (8 + (huskHdr h.bytes).len))).toNat)) :
    d.checkHusk l h = ((if (huskHdr h.bytes).vc = 1 ∨ (huskHdr h.bytes).vc = 2 then d.sendNak l (huskHdr h.bytes).vc else d).count
      (lkey kLnkDcrcErr l) 0 1, none) := by
  unfold Dev.checkHusk
  rw [if_neg (by simp [hg.whole, hg.long, hg.crc]), if_neg (by simp [hv, hn])]
  by_cases hd : h.bodyDamaged = true
  · rw [if_pos hd]
  · obtain ⟨hlen, hcrc⟩ := hb.resolve_left hd
    rw [if_neg hd, if_neg (by simp [hlen]), if_pos (by simpa using hcrc)]

/-! ### VC1 (R68) -/

/-- A VC1 Husk whose SEQ is not the next one: acknowledged again behind it, counted beyond the credit, one NAK ahead of it. -/
theorem Dev.vc1_of_ne {d : Dev} {l : LinkId} {hd : HuskHdr} {act : Dev → Dev} (hs : hd.seq ≠ (d.link l).vc1RxNext) :
    d.vc1 l hd act =
      if 1 ≤ ((d.link l).vc1RxNext + 256 - hd.seq) % 256 ∧ ((d.link l).vc1RxNext + 256 - hd.seq) % 256 ≤ 127 then d.sendAck l 1
      else if creditOk (d.link l).rxCredit hd.seq = false then d.count (lkey kLnkVc1CreditViol l) 0 1
      else if (d.link l).nakOutstanding = true then d
      else d.sendNak l 1 := by
  unfold Dev.vc1 Dev.acceptVc1
  simp only [if_neg hs, Bool.not_eq_true']
  split_ifs <;> rfl

/-- A Husk that passes the checks has its type's own action. -/
theorem Dev.husk_of_passed {d : Dev} {l : LinkId} {h : RxHusk} {hd : HuskHdr} (act : Dev → HuskHdr → Dev)
    (hl : d.linkIds.contains l = true) (hr : (d.link l).receives = true) (hk : d.checkHusk l h = (d, some hd)) :
    d.husk l hd.type h act = act d hd := by
  rw [Dev.husk, if_pos ⟨hl, hr⟩, hk]
  exact if_pos rfl

/-- MBX, FENCE and SYNC Husks are judged by their SEQ. -/
theorem exec_vc1Husk {l : LinkId} {h : RxHusk} {hd : HuskHdr} {c : Instr}
    (hc : (c = .mbxHusk l h ∧ hd.type = 3) ∨ (c = .fenceHusk l h ∧ hd.type = 4) ∨ (c = .syncHusk l h ∧ hd.type = 5)) :
    ∃ act : RxHusk → HuskHdr → Dev → Dev, ∀ s, exec c s = s.on fun d => d.husk l hd.type h fun d hd => d.vc1 l hd (act h hd) := by
  rcases hc with ⟨rfl, ht⟩ | ⟨rfl, ht⟩ | ⟨rfl, ht⟩ <;> rw [ht]
  · exact ⟨fun _ hd d => d.mbxIn l hd, fun _ => rfl⟩
  · exact ⟨fun _ hd d => if 8 ≤ hd.payload.length then (d.fence hd.payload).1 else d, fun _ => rfl⟩
  · exact ⟨fun h hd d => if d.syncTaken l hd then d.align (d.syncDiff l hd h.sohTime) (some l) else d, fun _ => rfl⟩

/-- Settles O48: the first check that fails decides, and after the checks the SEQ of a VC1 Husk. -/
theorem huskChecks : Obligations.HuskChecks := by
  unfold Obligations.HuskChecks
  refine ⟨fun s l h hr c hc => exec_forwardHusk_idle hc hr,
    fun s l h hl hr hh c hc => exec_forwardHusk_failed hc hl hr (Dev.checkHusk_header hh),
    fun s l h hl hr hw h8 hx hf c hc => exec_forwardHusk_failed hc hl hr (Dev.checkHusk_format ⟨hw, h8, hx⟩ hf),
    fun s l h hl hr hw h8 hx hv hn hb c hc => exec_forwardHusk_failed hc hl hr (Dev.checkHusk_body ⟨hw, h8, hx⟩ hv hn hb), ?_⟩
  rintro s l h hd b hl hr hk rfl hs c hc
  obtain ⟨act, he⟩ := exec_vc1Husk hc
  rw [he, State.on, Dev.husk_of_passed _ hl hr hk, Dev.vc1_of_ne hs]

end Sys2Proof.Machine
end

section
/-! RETRAIN of a link (O32), and the power states (O44). -/

namespace Sys2Proof.Machine

open Sys2Proof

/-! ### RETRAIN (R58) -/

theorem exec_retrainRecovery {s : State} {p : Port} {c : Cmd} {i v : Nat} (h : s.dev.servingAct p .retrain1 c i v) :
    exec (.retrainRecovery p) s = .next { s with
      dev := if (s.dev.link (retrainLink c)).state = .l0 ∨ (s.dev.link (retrainLink c)).state = .l1 then
          (s.dev.retrain1 (retrainLink c)).finishWith p c.tag stOk
        else s.dev.finishWith p c.tag stOverridden } := by
  have he : exec (.retrainRecovery p) s = execRetrainRecovery p s := rfl
  rw [he, execRetrainRecovery, State.on, Dev.serveAct_eq h]

theorem exec_retrainDetect {s : State} {p : Port} {c : Cmd} {i v : Nat} (h : s.dev.servingAct p .retrain2 c i v) :
    exec (.retrainDetect p) s = .next { s with
      dev := if (s.dev.link (retrainLink c)).state = .disabled ∨ (s.dev.link (retrainLink c)).state = .l2 then
          s.dev.finishWith p c.tag stOverridden
        else (s.dev.toDetect (retrainLink c)).finishWith p c.tag stOk } := by
  have he : exec (.retrainDetect p) s = execRetrainDetect p s := rfl
  rw [he, execRetrainDetect, State.on, Dev.serveAct_eq h]

/-- A command that finds its unit in the wrong state answers STATE_OVERRIDDEN with DEV_STATE, and nothing else changes (R105). -/
theorem becomes_overridden {c : Instr} {s : State} {p : Port} {tag : Nat} (ho : s.dev.tagOpen p tag = true)
    (h : exec c s = .next { s with dev := s.dev.finishWith p tag stOverridden }) :
    Becomes c s s.dev fun d => d.answered p tag 7 s.dev.devStateBytes :=
  ⟨_, h, Dev.finishWith_quiet .., Dev.finishWith_answered stOverridden ho⟩

/-- Settles O32: the link enters RECOVERY or DETECT, and the final status leaves it there. -/
theorem retrain : Obligations.Retrain := by
  unfold Obligations.Retrain
  refine ⟨fun s p c i v h hs => ?_, fun s p c i v h h0 h1 => ?_, fun s p c i v h hd h2 => ?_, fun s p c i v h hs => ?_⟩
  · refine ⟨_, (exec_retrainRecovery h).trans (by rw [if_pos hs]), ?_, ?_⟩
    · exact Dev.only_then (Dev.finishWith_only ..) (by decide) ((Dev.retrain1_only ..).mono (by decide))
    · have g := Dev.KeepsLinks.of_quiet ((s.dev.retrain1 (retrainLink c)).finishWith_quiet p c.tag stOk)
      refine (g.state _).trans ?_
      rw [Dev.retrain1, if_pos hs]
      exact (s.dev.toRecovery_link _).1
  · exact becomes_overridden (Dev.servingAct_open h) ((exec_retrainRecovery h).trans (by rw [if_neg (not_or.2 ⟨h0, h1⟩)]))
  · refine ⟨_, (exec_retrainDetect h).trans (by rw [if_neg (not_or.2 ⟨hd, h2⟩)]), ?_, ?_⟩
    · exact Dev.only_then (Dev.finishWith_only ..) (by decide) ((Dev.toDetect_only ..).mono (by decide))
    · have g := Dev.KeepsLinks.of_quiet ((s.dev.toDetect (retrainLink c)).finishWith_quiet p c.tag stOk)
      obtain ⟨hstate, hrate, -⟩ := s.dev.toDetect_link (retrainLink c)
      exact ⟨(g.state _).trans hstate, (g.rate _).trans hrate⟩
  · exact becomes_overridden (Dev.servingAct_open h) ((exec_retrainDetect h).trans (by rw [if_pos hs]))

/-! ### Power states (R37, R56, R57) -/

theorem Dev.leavePower_keepsLinks (d : Dev) (l : LinkId) : d.KeepsLinks (d.leavePower l) := .of_quiet (d.leavePower_quiet l)

/-- Settles O44: each state's entry says where the link stands, and calibration that goes on leaves it there. -/
theorem linkPowerStates : Obligations.LinkPowerStates := by
  unfold Obligations.LinkPowerStates
  refine ⟨fun s l hl h => ?_, fun s l hl h => ?_, fun s l hl h => ?_, fun s l hl h hh => ?_, fun s l hh => ?_, fun s l hl h => ?_⟩
  · exact .of_onLink (exec_eiosL1 l s) hl (if_pos h) (s.dev.toL1_only l) (s.dev.toL1_link l)
  · refine .of_onLink (exec_eiosL2 l s) hl (if_pos h) ?_ ?_
    · exact Dev.only_then (Dev.calAdvance_only _) (by decide) ((s.dev.toL2_only l).mono (by decide))
    · have g := (s.dev.toL2 l).calAdvance_keepsLinks
      rw [g.state, g.backLaneOn, g.rate]
      exact s.dev.toL2_link l
  · refine .of_onLink (exec_l1Exit l s) hl (if_pos h) ?_ ?_
    · exact Dev.only_then (Dev.toL0_only ..) (by decide) ((s.dev.leavePower_only l).mono (by decide))
    · obtain ⟨hstate, hrate, -⟩ := (s.dev.leavePower l).toL0_link l
      exact ⟨hstate, hrate.trans ((s.dev.leavePower_keepsLinks l).rate l)⟩
  · exact .of_onLink (exec_l2Exit l s) hl (if_pos ⟨h, hh⟩) (s.dev.fromL2_only l) (s.dev.fromL2_link l)
  · exact exec_onLink_idle (exec_l2Exit l s) (if_neg fun h => h.2 hh)
  · exact exec_onLink (exec_btsSend l s) hl (if_pos h)

end Sys2Proof.Machine
end

section
/-! Link bring-up (O40). -/

namespace Sys2Proof.Machine

open Sys2Proof

/-! ### LOCK and its ticket (R43, R45) -/

/-- In LOCK the ticket decides: EYE where it is held at once, else the link waits for it. -/
theorem Dev.askEye_state {d : Dev} {l : LinkId} (hs : (d.link l).state = .lock) :
    ((d.askEye l).link l).state = if (d.askEye l).ticketHeld (.link l) then .eye else .lock := by
  unfold Dev.askEye
  extract_lets d1
  have h1 : d.KeepsLinks d1 := (d.modLink_keepsLinks l fun _ => by rfl).trans (Dev.request_keepsLinks _ (.link l))
  by_cases ht : d1.ticketHeld (.link l) = true
  · rw [if_pos ht, Dev.ticketHeld_of_frame (d1.toEye_only l) rfl, if_pos ht, d1.toEye_state l]
  · rw [if_neg ht, if_neg ht, h1.state l, hs]

theorem Dev.lockDone_link {d : Dev} {l : LinkId} (hs : (d.link l).state = .lock) :
    ((d.link l).fastReentry = true → ((d.lockDone l).link l).state = .train ∧ ((d.lockDone l).link l).fastReentry = false) ∧
    ((d.link l).fastReentry = false → (d.link l).purpose ≠ .bringUp → ((d.lockDone l).link l).state = .eye) ∧
    ((d.link l).fastReentry = false → (d.link l).purpose = .bringUp →
      ((d.lockDone l).link l).state = if (d.lockDone l).ticketHeld (.link l) then .eye else .lock) := by
  unfold Dev.lockDone
  refine ⟨fun hf => ?_, fun hf hp => ?_, fun hf hp => ?_⟩
  · simp only [hf, if_true]
    exact d.toTrain_link l true
  · simp only [hf, Bool.false_eq_true, if_false]
    split
    · next h => exact absurd h hp
    · exact d.toEye_state l
    · exact d.toEye_state l
  · simp only [hf, hp, Bool.false_eq_true, if_false]
    exact Dev.askEye_state hs

/-! ### EYE (R51) -/

/-- The PAM4 eye test: too few lanes are a failed attempt, and enough lanes go on to TRAIN with the ticket. -/
theorem Dev.eyeDone_eq (d : Dev) (l : LinkId) (pam : List PamEyes) :
    d.eyeDone l pam =
      if d.lanesPassing l (pam.map smallestEye) true < 4 then (d.measureEyes l (pam.map smallestEye)).attemptFailed l
      else if d.eyeTicket l then
        ((d.measureEyes l (pam.map smallestEye)).dropFailing l (pam.map smallestEye) true).toTrain l false
      else d.measureEyes l (pam.map smallestEye) := by
  rw [← d.measureEyes_lanesPassing, ← d.measureEyes_eyeTicket l (pam.map smallestEye)]
  rfl

theorem Dev.eyeDone_link {d : Dev} {l : LinkId} {pam : List PamEyes} {eyes : List Eye} (hs : (d.link l).state = .eye)
    (he : eyes = pam.map smallestEye) :
    (4 ≤ d.lanesPassing l eyes true → d.eyeTicket l = true → ((d.eyeDone l pam).link l).state = .train) ∧
    (4 ≤ d.lanesPassing l eyes true → d.eyeTicket l = false → ((d.eyeDone l pam).link l).state = .eye) ∧
    (d.lanesPassing l eyes true < 4 → 1 < (d.link l).rate → ((d.eyeDone l pam).link l).state = .lock ∧
      ((d.eyeDone l pam).link l).rate = (d.link l).rate - 1 ∧ ((d.eyeDone l pam).link l).cap = max 1 (d.ceiling l - 1)) ∧
    (d.lanesPassing l eyes true < 4 → (d.link l).rate ≤ 1 → ((d.eyeDone l pam).link l).state = .down) := by
  subst he
  have hk := d.measureEyes_keepsLinks l (pam.map smallestEye)
  obtain ⟨hdrop, hdown⟩ := (d.measureEyes l (pam.map smallestEye)).attemptFailed_link l
  rw [hk.rate, Dev.measureEyes_ceiling] at hdrop
  rw [hk.rate] at hdown
  rw [Dev.eyeDone_eq]
  refine ⟨fun h4 ht => ?_, fun h4 ht => ?_, fun h4 hr => ?_, fun h4 hr => ?_⟩
  · rw [if_neg (Nat.not_lt.2 h4), if_pos ht]
    exact (Dev.toTrain_link _ l false).1
  · rw [if_neg (Nat.not_lt.2 h4), if_neg (by simp [ht]), hk.state, hs]
  · rw [if_pos h4]
    exact hdrop hr
  · rw [if_pos h4]
    exact hdown hr

/-! ### Tickets (R45) -/

/-- A ticket in L0 where steps are made: one code up, or down to the ceiling. -/
theorem Dev.startStep_link {d : Dev} {l : LinkId} (ha : d.stepsAllowed = true) :
    ((d.link l).rate < d.ceiling l →
      ((d.startStep l).link l).state = .step ∧ ((d.startStep l).link l).stepTarget = (d.link l).rate + 1) ∧
    (d.ceiling l < (d.link l).rate →
      ((d.startStep l).link l).state = .step ∧ ((d.startStep l).link l).stepTarget = d.ceiling l) := by
  have hstep : ∀ r, (((d.toStep l r).calAdvance).link l).state = .step ∧ (((d.toStep l r).calAdvance).link l).stepTarget = r := by
    intro r
    have g := (d.toStep l r).calAdvance_keepsLinks
    rw [g.state, g.stepTarget]
    exact d.toStep_link l r
  unfold Dev.startStep
  extract_lets r c
  refine ⟨fun h => ?_, fun h => ?_⟩
  · rw [if_pos ⟨ha, h⟩]
    exact hstep (r + 1)
  · rw [if_neg fun hn => Nat.lt_asymm hn.2 h, if_pos ⟨ha, h⟩]
    exact hstep c

/-- What a granted ticket begins. -/
def Dev.ticketIn (d : Dev) (l : LinkId) : Dev :=
  match (d.link l).state with
  | .lock => d.toEye l
  | .l0 => d.startStep l
  | _ => d

theorem Dev.ticketIn_only (d : Dev) (l : LinkId) :
    d.onlyChanges (d.ticketIn l) [.prm, .sluice, .host, .links, .seq, .ports, .lamp, .gov, .saf, .jnl, .cal] := by
  unfold Dev.ticketIn
  split
  · exact (d.toEye_only l).mono (by decide)
  · exact d.startStep_only l
  · exact Dev.only_refl ..

theorem exec_linkTicketGranted_held {s : State} {l : LinkId} (hl : s.dev.linkIds.contains l = true)
    (hw : (s.dev.link l).waitTicket = true) (ht : s.dev.ticketHeld (.link l) = true) :
    exec (.linkTicketGranted l) s = .next { s with dev := s.dev.ticketIn l } :=
  exec_onLink (exec_linkTicketGranted l s) hl (if_pos (by simp [hw, ht]))

theorem exec_linkTicketRetry_lock {s : State} {l : LinkId} (hl : s.dev.linkIds.contains l = true)
    (hw : (s.dev.link l).waitTicket = true) (ht : s.dev.ticketHeld (.link l) = false) (hq : s.dev.ticketQueued (.link l) = false)
    (hs : (s.dev.link l).state = .lock) :
    exec (.linkTicketRetry l) s = .next { s with dev := s.dev.askEye l } := by
  refine exec_onLink (exec_linkTicketRetry l s) hl ((if_pos (by simp [hw, ht, hq])).trans ?_)
  simp only [hs]

/-- Settles O40: each row of Table 2-8 is one operation, and the lemma about it says where the link stands. -/
theorem linkBringUp : Obligations.LinkBringUp := by
  unfold Obligations.LinkBringUp
  refine ⟨fun s l hl hs => ?_, fun s l hl hs hw => ?_, fun s l hl hs hw => ?_, fun s l pam eyes hl hs he => ?_,
    fun s l hl hs => ?_, fun s l hl hs => ?_, fun s l hl hw ht => ?_, fun s l hl hw ht hq hs => ?_⟩
  · have h := s.dev.toLock_link l 1 .bringUp false
    exact .of_onLink (exec_detectLosQualified l s) hl (if_pos hs) ((s.dev.toLock_only ..).mono (by decide))
      ⟨congrArg Link.state h, congrArg Link.rate h, congrArg Link.purpose h, congrArg Link.fastReentry h⟩
  · exact .of_onLink (exec_lockAchieved l s) hl (if_pos ⟨hs, hw⟩) (s.dev.lockDone_only l) (Dev.lockDone_link hs)
  · refine .of_onLink (exec_lockTimeout l s) hl (if_pos ⟨hs, hw⟩) ?_ ?_
    · exact Dev.only_then (Dev.toDetect_only ..) (by decide) ((s.dev.trainFail_only l).mono (by decide))
    · obtain ⟨hstate, -, hmap, hspare⟩ := (s.dev.trainFail l).toDetect_link l
      exact ⟨hstate, hmap, hspare⟩
  · exact .of_onLink (exec_eyeTestComplete l pam s) hl (if_pos hs) (s.dev.eyeDone_only l pam) (Dev.eyeDone_link hs he)
  · have h := s.dev.toLock_link l (s.dev.link l).stepTarget .rateStep false
    exact .of_onLink (exec_stepTimeout l s) hl (if_pos hs) (s.dev.toLock_only ..) ⟨congrArg Link.state h, congrArg Link.rate h⟩
  · obtain ⟨hstate, -, hmap, hspare⟩ := s.dev.toDetect_link l
    exact .of_onLink (exec_downTimeout l s) hl (if_pos hs) (s.dev.toDetect_only l) ⟨hstate, hmap, hspare⟩
  · refine ⟨_, exec_linkTicketGranted_held hl hw ht, s.dev.ticketIn_only l, fun hs => ?_, fun hs ha hr => ?_, fun hs ha hr => ?_⟩
    · rw [Dev.ticketIn, hs]
      exact s.dev.toEye_state l
    · rw [Dev.ticketIn, hs]
      exact (Dev.startStep_link ha).1 hr
    · rw [Dev.ticketIn, hs]
      exact (Dev.startStep_link ha).2 hr
  · exact ⟨_, exec_linkTicketRetry_lock hl hw ht hq hs, s.dev.askEye_only l, Dev.askEye_state hs⟩

end Sys2Proof.Machine
end

section
/-! TRAIN (O41). -/

namespace Sys2Proof.Machine

open Sys2Proof

/-! ### Training sets (R31, R49) -/

/-- What a link takes from a TS1 of a lane: the ECU's rates and the lane's polarity. -/
def Link.takeTs1 (k : Link) (phys : Nat) (ts : TrainingSet) : Link :=
  { k with ecuRates := ts.rates % 16, inverted := k.inverted.set phys ts.inverted }

/-- The block with what a TS1 shows: rates, polarity and coefficients. -/
def Dev.takeTs1 (d : Dev) (l : LinkId) (phys : Nat) (ts : TrainingSet) : Dev :=
  (d.modLink l fun k => k.takeTs1 phys ts).setPar (lkey kLnkTxCoeff l) phys
    (ts.pre % 8 + 16 * (ts.post % 16) + 256 * (ts.presetUsed % 8) : Nat)

theorem Dev.link_takeTs1 (d : Dev) (l : LinkId) (phys : Nat) (ts : TrainingSet) :
    (d.takeTs1 l phys ts).link l = (d.link l).takeTs1 phys ts := by
  unfold Dev.takeTs1
  rw [(Dev.setPar_only ..).link rfl, Dev.link_modLink_self]

theorem Dev.takeTs1_only (d : Dev) (l : LinkId) (phys : Nat) (ts : TrainingSet) :
    d.onlyChanges (d.takeTs1 l phys ts) [.prm, .links] :=
  Dev.only_then (Dev.setPar_only ..) (by decide) ((d.modLink_only l _).mono (by decide))

/-- The coefficients that a TS1 shows are read back (Table 2-17). -/
theorem Dev.par_takeTs1 {d : Dev} (hI : d.Inv) (l : LinkId) (phys : Nat) (ts : TrainingSet) :
    (d.takeTs1 l phys ts).par (lkey kLnkTxCoeff l) phys = ts.pre % 8 + 16 * (ts.post % 16) + 256 * (ts.presetUsed % 8) :=
  (Dev.par_setPar_self (d.modLink_inv l _ hI) ..).trans (Int.toNat_natCast _)

/-- A TS1 that carries its own lane's number. -/
theorem Dev.ts1In_eq (d : Dev) (l : LinkId) {phys : Nat} {ts : TrainingSet} (h : ts.lane = phys) :
    d.ts1In l phys ts = match (d.link l).tapReqs.getD phys none with
      | some r => if !r.matched && ts.ackSeq == r.seq then (d.takeTs1 l phys ts).nextTap l phys r else d.takeTs1 l phys ts
      | none => d.takeTs1 l phys ts := by
  have ht : (d.link l).tapReqs = ((d.takeTs1 l phys ts).link l).tapReqs := by rw [Dev.link_takeTs1]; rfl
  unfold Dev.ts1In
  rw [if_neg (not_not_intro h), ht]
  rfl

/-- After a match each preset follows the last in turn (R50). -/
theorem Dev.nextTap_preset {d : Dev} {l : LinkId} {phys : Nat} {r : TapReq} (he : d.par (lkey kLnkEqMode l) 0 ≠ 1) (hc : r.count < 8) :
    d.nextTap l phys r = d.modLink l fun k =>
      k.sendTap phys (presetWord r.count phys ((r.seq + 1) % 16)) ((r.seq + 1) % 16) 1 (r.count + 1) := by
  unfold Dev.nextTap
  rw [if_neg he, if_pos hc]

theorem exec_ts1Received_train {s : State} {l : LinkId} {phys : Nat} (ts : TrainingSet) (hl : s.dev.linkIds.contains l = true)
    (hs : (s.dev.link l).state = .train) (hp : phys < 5) (hf : (s.dev.link l).failed.getD phys false = false) :
    exec (.ts1Received l phys ts) s = .next { s with dev := s.dev.ts1In l phys ts } :=
  exec_onLink (exec_ts1Received l phys ts s) hl (if_pos ⟨hs, hp, hf⟩)

theorem exec_ts1Received_matched {s : State} {l : LinkId} {phys : Nat} {ts : TrainingSet} {r : TapReq}
    (hl : s.dev.linkIds.contains l = true) (hs : (s.dev.link l).state = .train) (hp : phys < 5)
    (hf : (s.dev.link l).failed.getD phys false = false) (hn : ts.lane = phys)
    (hr : (s.dev.link l).tapReqs.getD phys none = some r) (hm : r.matched = false) (hq : ts.ackSeq = r.seq) :
    exec (.ts1Received l phys ts) s = .next { s with dev := (s.dev.takeTs1 l phys ts).nextTap l phys r } := by
  rw [exec_ts1Received_train ts hl hs hp hf, Dev.ts1In_eq _ l hn, hr]
  simp [hm, hq]

/-! ### The end of TRAIN (R43, R51) -/

/-- TS2 that agree carry their own lanes' numbers. -/
theorem misnumbered_of_agree {map : List Nat} {ts2 : List TrainingSet} (h : ts2Agree map ts2 = true) : misnumbered map ts2 = [] := by
  simp only [ts2Agree, Bool.and_eq_true, decide_eq_true_eq] at h
  obtain ⟨⟨hm, -⟩, -⟩ := h
  subst hm
  induction ts2 with
  | nil => rfl
  | cons t ts ih => simpa [misnumbered] using ih

theorem Dev.linkTrained_few {d : Dev} {l : LinkId} {eyes : List Eye} (ts2 : List TrainingSet)
    (h : d.lanesPassing l eyes false < 4) : d.linkTrained l eyes ts2 = d.measureEyes l eyes := by
  rw [← d.measureEyes_lanesPassing] at h
  exact if_pos h

/-- TRAIN ends in L0 where every lane passes and the TS2 agree. -/
theorem Dev.linkTrained_agreed {d : Dev} {l : LinkId} {eyes : List Eye} {ts2 : List TrainingSet}
    (hp : ∀ i < 5, d.eyePasses l (eyeOf eyes i) false = true) (h4 : 4 ≤ d.lanesPassing l eyes false)
    (ha : ts2Agree (d.link l).map ts2 = true) :
    d.linkTrained l eyes ts2 = ((d.measureEyes l eyes).toL0 l).heldReplay l := by
  have hdrop : (d.measureEyes l eyes).dropFailing l eyes false = d.measureEyes l eyes :=
    Dev.dropFailing_of_passing fun i hi => (d.measureEyes_eyePasses l eyes _ false).trans (hp i hi)
  rw [← (d.measureEyes_keepsLinks l eyes).map] at ha
  rw [← d.measureEyes_lanesPassing] at h4
  unfold Dev.linkTrained
  rw [← Dev.measureEyes]
  simp only [if_neg (Nat.not_lt.2 h4), hdrop, misnumbered_of_agree ha, ha, if_true]

/-- Settles O41: each clause is one event in TRAIN, taken from the lemma about its operation. -/
theorem linkTraining : Obligations.LinkTraining := by
  unfold Obligations.LinkTraining
  refine ⟨fun s l phys ts hl hs hp hf hn => ?_, fun s l phys ts hI hl hs hp hf hn hr => ?_,
    fun s l phys ts r hl hs hp hf hn hr hm hq hc he => ?_, fun s l phys r hl hs hr hm => ?_,
    fun s l eyes ts2 hl hs hp h4 ha hh => ?_, fun s l eyes ts2 hl hs h4 => ?_, fun s l eyes ts2 hs => ?_, fun s l hl hs => ?_⟩
  · rw [exec_ts1Received_train ts hl hs hp hf, Dev.ts1In, if_pos hn]
  · refine ⟨s.dev.takeTs1 l phys ts, ?_, s.dev.takeTs1_only .., s.dev.link_takeTs1 .., Dev.par_takeTs1 hI ..⟩
    rw [exec_ts1Received_train ts hl hs hp hf, Dev.ts1In_eq _ l hn, hr]
  · have heq : (s.dev.takeTs1 l phys ts).par (lkey kLnkEqMode l) 0 ≠ 1 := by
      unfold Dev.takeTs1
      rw [Dev.par_setPar_ne _ _ _ _ (by rw [lkey_num, lkey_num]; decide)]
      exact he
    refine ⟨_, (exec_ts1Received_matched hl hs hp hf hn hr hm hq).trans (by rw [Dev.nextTap_preset heq hc]), ?_, ?_⟩
    · exact Dev.only_then (Dev.modLink_only ..) (by decide) (s.dev.takeTs1_only ..)
    · refine (Dev.link_modLink_self ..).trans ?_
      rw [Dev.link_takeTs1]
      rfl
  · refine exec_onLink (exec_tapreqAckTimeout l phys s) hl ?_
    simp only [hs, hr, hm, Bool.false_eq_true, if_false]
    rfl
  · have hk := s.dev.measureEyes_keepsLinks l eyes
    obtain ⟨hstate, hrate, hprev, hup, hheld⟩ := (s.dev.measureEyes l eyes).toL0_link l
    rw [hk.replayHeld, hh] at hheld
    rw [hk.rate] at hrate hprev
    refine .of_onLink (exec_ts2Agreed l eyes ts2 s) hl (if_pos hs) (s.dev.linkTrained_only ..) ?_
    rw [Dev.linkTrained_agreed hp h4 ha, Dev.heldReplay_of_none hheld]
    exact ⟨hstate, hprev, hrate, hup⟩
  · have hk := s.dev.measureEyes_keepsLinks l eyes
    refine .of_onLink (exec_ts2Agreed l eyes ts2 s) hl (if_pos hs) (s.dev.linkTrained_only ..) ?_
    rw [Dev.linkTrained_few ts2 h4]
    exact ⟨(hk.state l).trans hs, hk.map l⟩
  · exact exec_onLink_idle (exec_ts2Agreed l eyes ts2 s) (if_neg hs)
  · exact .of_onLink (exec_trainTimeout l s) hl (if_pos hs) (s.dev.attemptFailed_only l) (by
      obtain ⟨hdrop, hdown⟩ := s.dev.attemptFailed_link l
      exact ⟨hdrop, hdown⟩)

end Sys2Proof.Machine
end

section
/-! Link recovery (O42). -/

namespace Sys2Proof.Machine

open Sys2Proof

/-- RECOVERY entered from L0 or L1, with calibration going on (R55). -/
theorem Dev.toRecovery_calAdvance_link (d : Dev) (l : LinkId) :
    ((d.toRecovery l).calAdvance.link l).state = .recovery ∧ ((d.toRecovery l).calAdvance.link l).recPhase = .relock ∧
      ((d.toRecovery l).calAdvance.link l).retrains = 0 ∧ ((d.toRecovery l).calAdvance.link l).fastReentry = false := by
  have g := (d.toRecovery l).calAdvance_keepsLinks
  rw [g.state, g.recPhase, g.retrains, g.fastReentry]
  exact d.toRecovery_link l

theorem Dev.toRecovery_calAdvance_only (d : Dev) (l : LinkId) :
    d.onlyChanges (d.toRecovery l).calAdvance [.prm, .sluice, .host, .links, .seq, .ports, .lamp, .gov, .saf, .jnl, .cal, .free] :=
  Dev.only_then (Dev.calAdvance_only _) (by decide) ((d.toRecovery_only l).mono (by decide))

theorem exec_clockLaneLoss_inService {s : State} {l : LinkId} (hl : s.dev.linkIds.contains l = true)
    (h : (s.dev.link l).state = .l0 ∨ (s.dev.link l).state = .l1) :
    exec (.clockLaneLoss l) s = .next { s with dev := (s.dev.toRecovery l).calAdvance } := by
  refine exec_onLink (exec_clockLaneLoss l s) hl ?_
  rcases h with h | h <;> simp only [h]

theorem Dev.relock_link (d : Dev) (l : LinkId) :
    ((d.relock l).link l).state = (d.link l).state ∧ ((d.relock l).link l).recPhase = .relock ∧
      ((d.relock l).link l).retrains = (d.link l).retrains ∧ ((d.relock l).link l).bts.pamReq = 0 := by
  have h := Dev.KeepsLinks.afterModLink (b := d.relock l) (Dev.syncBts_keepsLinks _ l)
  exact ⟨(congrArg Link.state h :), (congrArg Link.recPhase h :), (congrArg Link.retrains h :),
    (congrArg (fun k : Link => k.bts.pamReq) h :)⟩

theorem Dev.recoveryEye_link (d : Dev) (l : LinkId) (pam : List PamEyes) :
    ((d.recoveryEye l pam).link l).state = (d.link l).state ∧ ((d.recoveryEye l pam).link l).recPhase = .retrain ∧
      ((d.recoveryEye l pam).link l).bts.pamReq = 0 := by
  have h := Dev.KeepsLinks.afterModLink (b := d.recoveryEye l pam) (Dev.syncBts_keepsLinks _ l)
  have hd : (((d.recordEyes l (pam.map smallestEye)).dropFailing l (pam.map smallestEye) true).link l).state = (d.link l).state :=
    (Dev.dropFailing_state ..).trans ((Dev.KeepsLinks.of_frame (d.recordEyes_only l _) rfl).state l)
  exact ⟨(congrArg Link.state h :).trans hd, (congrArg Link.recPhase h :), (congrArg (fun k : Link => k.bts.pamReq) h :)⟩

/-- In RECOVERY Husks flow in the PAM4 phase (R44). -/
theorem Link.receives_recovery {k : Link} (h : k.state = .recovery) : k.receives = (k.recPhase == .pam4) := by
  unfold Link.receives
  rw [h]

/-- A failed retrain: again while RECOVERY_RETRY allows, then one code down, or DOWN at S1 (R55). -/
theorem Dev.retrainFailed_link {d : Dev} {l : LinkId} (hs : (d.link l).state = .recovery) :
    ((d.link l).retrains + 1 < d.par (lkey kLnkRecoveryRetry l) 0 →
      ((d.retrainFailed l).link l).state = .recovery ∧ ((d.retrainFailed l).link l).recPhase = .pam4 ∧
        ((d.retrainFailed l).link l).retrains = (d.link l).retrains + 1) ∧
    (d.par (lkey kLnkRecoveryRetry l) 0 ≤ (d.link l).retrains + 1 → 1 < (d.link l).rate →
      ((d.retrainFailed l).link l).state = .lock ∧ ((d.retrainFailed l).link l).rate = (d.link l).rate - 1 ∧
        ((d.retrainFailed l).link l).purpose = .recoveryDrop) ∧
    (d.par (lkey kLnkRecoveryRetry l) 0 ≤ (d.link l).retrains + 1 → (d.link l).rate ≤ 1 →
      ((d.retrainFailed l).link l).state = .down) := by
  unfold Dev.retrainFailed
  extract_lets d1 k
  have hk : k = { d.link l with retrains := (d.link l).retrains + 1 } := by
    rw [← (d.trainFail_only l).link rfl]
    exact Dev.link_modLink_self ..
  have hcount : k.retrains = (d.link l).retrains + 1 := (congrArg Link.retrains hk :)
  have hrate : k.rate = (d.link l).rate := (congrArg Link.rate hk :)
  rw [hcount, hrate]
  refine ⟨fun hr => ?_, fun hr h1 => ?_, fun hr h1 => ?_⟩
  · rw [if_pos hr]
    obtain ⟨hstate, hphase, hn, -⟩ := Dev.toPam4_link (d := d1) (l := l) ((congrArg Link.state hk :).trans hs)
    exact ⟨hstate, hphase, hn.trans hcount⟩
  · rw [if_neg (Nat.not_lt.2 hr), if_pos h1]
    have h := d1.toLock_link l ((d.link l).rate - 1) .recoveryDrop false
    exact ⟨congrArg Link.state h, (congrArg Link.rate h :), congrArg Link.purpose h⟩
  · rw [if_neg (Nat.not_lt.2 hr), if_neg (Nat.not_lt.2 h1)]
    exact d1.toDown_state l

/-- What the end of a retrain begins. -/
def Dev.retrainDone (d : Dev) (l : LinkId) (ok : Bool) : Dev :=
  if ok && decide (4 ≤ (d.link l).healthy) then (d.toL0 l).heldReplay l else d.retrainFailed l

theorem Dev.retrainDone_only (d : Dev) (l : LinkId) (ok : Bool) : d.onlyChanges (d.retrainDone l ok)
    [.prm, .sluice, .host, .links, .seq, .ports, .lamp, .gov, .saf, .jnl, .free] := by
  unfold Dev.retrainDone
  split
  · exact Dev.only_then (Dev.heldReplay_only ..) (by decide) ((d.toL0_only l).mono (by decide))
  · exact d.retrainFailed_only l

theorem Dev.retrainDone_good {d : Dev} {l : LinkId} {ok : Bool} (h : ok = true ∧ 4 ≤ (d.link l).healthy)
    (hh : (d.link l).replayHeld = false) : ((d.retrainDone l ok).link l).state = .l0 := by
  obtain ⟨hstate, -, -, -, hheld⟩ := d.toL0_link l
  rw [Dev.retrainDone, if_pos (by simpa using h), Dev.heldReplay_of_none (hheld.trans hh)]
  exact hstate

theorem Dev.retrainDone_bad {d : Dev} {l : LinkId} {ok : Bool} (h : ok = false ∨ (d.link l).healthy < 4) :
    d.retrainDone l ok = d.retrainFailed l := by
  refine if_neg fun hg => ?_
  rw [Bool.and_eq_true, decide_eq_true_eq] at hg
  rcases h with h | h
  · exact Bool.false_ne_true (h.symm.trans hg.1)
  · exact Nat.not_lt.2 hg.2 h

/-- Settles O42: each row of Table 2-14 is one operation, and the lemma about it says where the link stands. -/
theorem linkRecovery : Obligations.LinkRecovery := by
  unfold Obligations.LinkRecovery
  refine ⟨fun s l hl hs => ?_, fun s l hl hs => ?_, fun s l hl hs => ?_, fun s l hl hs hp => ?_, fun s l eyes hl hs hp => ?_,
    fun s l ok hl hs hp => ?_, fun s l hl hs hp => ?_⟩
  · exact ⟨_, exec_clockLaneLoss_inService hl hs, s.dev.toRecovery_calAdvance_only l, s.dev.toRecovery_calAdvance_link l⟩
  · obtain ⟨hstate, hphase, hcount, hpam⟩ := s.dev.relock_link l
    exact .of_onLink (exec_clockLaneLoss l s) hl (by simp only [hs]) (s.dev.relock_only l) ⟨hstate.trans hs, hphase, hcount, hpam⟩
  · obtain ⟨hstate, hphase, -⟩ := s.dev.toRecovery_calAdvance_link l
    exact .of_onLink (exec_deskewLoss l s) hl (if_pos hs) (s.dev.toRecovery_calAdvance_only l) ⟨hstate, hphase⟩
  · obtain ⟨hstate, hphase, -, hpam⟩ := Dev.toPam4_link hs
    refine .of_onLink (exec_recoveryRelock l s) hl (if_pos ⟨hs, hp⟩) (s.dev.toPam4_only l) ⟨hstate, hphase, hpam, ?_⟩
    rw [Link.receives_recovery hstate, hphase]
    rfl
  · obtain ⟨hstate, hphase, hpam⟩ := s.dev.recoveryEye_link l eyes
    refine .of_onLink (exec_recoveryEyeDone l eyes s) hl (if_pos ⟨hs, hp⟩) (s.dev.recoveryEye_only l eyes)
      ⟨hstate.trans hs, hphase, hpam, ?_⟩
    rw [Link.receives_recovery (hstate.trans hs), hphase]
    rfl
  · refine .of_onLink (d := s.dev.retrainDone l ok) (exec_recoveryRetrainDone l ok s) hl (if_pos ⟨hs, hp⟩)
      (s.dev.retrainDone_only l ok) ⟨Dev.retrainDone_good, fun hb => ?_⟩
    rw [Dev.retrainDone_bad hb]
    exact Dev.retrainFailed_link hs
  · exact .of_onLink (exec_recoveryTimeout l s) hl (if_pos ⟨hs, hp⟩) (s.dev.toDetect_only l) (s.dev.toDetect_link l).1

end Sys2Proof.Machine
end

section
/-! Lane faults and the spare (O43). -/

namespace Sys2Proof.Machine

open Sys2Proof

/-! ### Calibration with no run under way -/

theorem Dev.calAdvance_of_no_run {d : Dev} (h : d.cal.run = none) : d.calAdvance = d := by
  unfold Dev.calAdvance Dev.calRuns
  rw [h]
  rfl

theorem Dev.calDsk_of_no_run {d : Dev} (l : LinkId) (h : d.cal.run = none) (hi : d.cal.interp = []) : d.calDsk l = d := by
  have ha : ∀ p, d.applyWaiting p = d := by
    intro p
    unfold Dev.applyWaiting
    simp only [h, hi, List.filter_nil, List.foldl_nil]
    rw [← h, ← hi]
  have hr : ∀ p, d.releaseCovers p = d := by
    intro p
    unfold Dev.releaseCovers
    rw [h]
  simp only [Dev.calDsk, ha, hr, Dev.calAdvance_of_no_run h]

/-! ### What the detectors show (R52) -/

/-- A new fault is counted, and its lane is marked. -/
def Dev.markFault (d : Dev) (l : LinkId) (phys : Nat) (los : Bool) : Dev :=
  (d.count (lkey (if los then kLnkLosCount else kLnkLolCount) l) phys 1).modLink l fun k => { k with faulted := k.faulted.set phys true }

theorem Dev.markFault_only (d : Dev) (l : LinkId) (phys : Nat) (los : Bool) : d.onlyChanges (d.markFault l phys los) [.prm, .links] :=
  Dev.only_then (Dev.modLink_only ..) (by decide) ((d.count_only ..).mono (by decide))

theorem Dev.link_markFault (d : Dev) (l : LinkId) (phys : Nat) (los : Bool) :
    (d.markFault l phys los).link l = { d.link l with faulted := (d.link l).faulted.set phys true } := by
  unfold Dev.markFault
  rw [Dev.link_modLink_self, (Dev.count_only ..).link rfl]

theorem Dev.detectors_standing {d : Dev} {l : LinkId} {phys : Nat} {los lol : Bool} (h : (los || lol) = true)
    (hf : (d.link l).faulted.getD phys false = true) : d.detectors l phys los lol = d := by
  unfold Dev.detectors
  rw [← Bool.not_or, h, hf]
  rfl

theorem Dev.detectors_new {d : Dev} {l : LinkId} {phys : Nat} {los lol : Bool} (h : (los || lol) = true)
    (hf : (d.link l).faulted.getD phys false = false) :
    d.detectors l phys los lol = ((d.markFault l phys los).laneFault l phys).calAdvance := by
  unfold Dev.detectors
  rw [← Bool.not_or, h, hf]
  rfl

theorem exec_hardLaneFault_on {s : State} {l : LinkId} {phys : Nat} (los lol : Bool) (hl : s.dev.linkIds.contains l = true)
    (hr : (s.dev.link l).dataReceivers = true) (hp : phys < 5) :
    exec (.hardLaneFault l phys los lol) s = .next { s with dev := s.dev.detectors l phys los lol } :=
  exec_onLink (exec_hardLaneFault l phys los lol s) hl (if_pos ⟨hr, hp⟩)

theorem Link.dataReceivers_of_l0 {k : Link} (h : k.state = .l0) : k.dataReceivers = true := by
  unfold Link.dataReceivers
  rw [h]
  rfl

theorem Dev.laneFault_outside_l0 {d : Dev} {l : LinkId} (phys : Nat) (h : (d.link l).state ≠ .l0) : d.laneFault l phys = d :=
  if_pos (.inl h)

/-! ### The takeover begins (R53) -/

/-- A fault of a lane in use whose place an idle spare can take. -/
structure TakeoverDue (k : Link) (phys logical : Nat) : Prop where
  state : k.state = .l0
  good : k.failed.getD phys false = false
  spare : ∃ sp, k.spare = some sp ∧ sp ≠ phys
  lane : k.map.findIdx? (· == phys) = some logical
  idle : k.spareUse = .idle

theorem Dev.laneFault_takeover {d : Dev} {l : LinkId} {phys logical : Nat} (h : TakeoverDue (d.link l) phys logical) :
    d.laneFault l phys = (d.modLink l fun k => k.startTakeover logical).syncBts l := by
  obtain ⟨hs, hg, ⟨sp, hsp, hne⟩, hlane, hidle⟩ := h
  unfold Dev.laneFault
  simp only [hs, hg, hsp, hlane, hidle, ne_eq, not_true_eq_false, Bool.false_eq_true, or_self, if_false, Option.some.injEq, hne]

/-- SHADOW names the lane, and the link stays where it is. -/
theorem Dev.takeover_runs {a d : Dev} {l : LinkId} {phys logical : Nat} (ha : a.onlyChanges d [.prm, .links]) (hr : a.cal.run = none)
    (h : TakeoverDue (d.link l) phys logical) :
    a.onlyChanges (d.laneFault l phys).calAdvance [.prm, .links] ∧
      (((d.laneFault l phys).calAdvance.link l).spareUse = .takeover logical false 0 ∧
      ((d.laneFault l phys).calAdvance.link l).state = .l0 ∧ ((d.laneFault l phys).calAdvance.link l).bts.shadow = logical ∧
      ((d.laneFault l phys).calAdvance.link l).bts.shadowValid = true) := by
  have ht : a.onlyChanges (d.laneFault l phys) [.prm, .links] := by
    rw [Dev.laneFault_takeover h]
    exact Dev.only_then (Dev.syncBts_only ..) (by decide) (Dev.only_then (Dev.modLink_only ..) (by decide) ha)
  have hcal : (d.laneFault l phys).cal = a.cal := ht.part .cal rfl
  rw [Dev.calAdvance_of_no_run (by rw [hcal, hr])]
  refine ⟨ht, ?_⟩
  rw [Dev.laneFault_takeover h, Dev.syncBts, Dev.link_modLink_self, Dev.link_modLink_self]
  exact ⟨rfl, h.state, rfl, rfl⟩

/-! ### No spare is left (R53) -/

theorem Dev.laneFault_exhausted {d : Dev} {l : LinkId} {phys : Nat} (hs : (d.link l).state = .l0)
    (hg : (d.link l).failed.getD phys false = false) (hsp : (d.link l).spare = none) (hm : (d.link l).map.contains phys = true) :
    d.laneFault l phys = d.spareExhausted l := by
  obtain ⟨lg, hlane⟩ : ∃ lg, (d.link l).map.findIdx? (· == phys) = some lg := by
    rw [← Option.isSome_iff_exists, List.findIdx?_isSome, List.any_beq']
    exact hm
  unfold Dev.laneFault
  simp only [hs, hg, hsp, hlane, ne_eq, not_true_eq_false, Bool.false_eq_true, or_self, if_false, reduceCtorEq]

/-- SPARE_EXHAUSTED is no fault of side R alone. -/
theorem Dev.spareExhausted_not_muted (d : Dev) (l : LinkId) : d.mutedFault (l.ev 0x07) 0 = false := by
  have h : (faultSides (l.ev 0x07) 0 == [1]) = false := by cases l <;> rfl
  unfold Dev.mutedFault
  simp only [h, Bool.and_false, Bool.false_and]

theorem Dev.spareExhausted_link (d : Dev) (l : LinkId) :
    ((d.spareExhausted l).link l).state = .recovery ∧ (d.spareExhausted l).faultActive (l.ev 0x07) 0 = true := by
  refine ⟨(Dev.toRecovery_link _ l).1, ?_⟩
  unfold Dev.spareExhausted
  rw [Dev.faultActive_of_saf ((Dev.toRecovery_only ..).part .saf rfl), Dev.faultActive_of_saf ((Dev.drawn_only _).part .saf rfl)]
  exact d.raise_self _ (by cases l <;> decide) (d.spareExhausted_not_muted l)

/-! ### A DSK column in a takeover (R53) -/

/-- DFE adaptation writes the taps only. -/
theorem Dev.adaptDfe_link (d : Dev) (l : LinkId) : ∃ x, (d.adaptDfe l).link l = { d.link l with dfe := x } := by
  unfold Dev.adaptDfe
  induction List.range 5 generalizing d with
  | nil => exact ⟨_, rfl⟩
  | cons i is ih =>
    obtain ⟨x, hx⟩ := ih ((d.modLink l fun k => { k with dfe := k.dfe.set i (d.free.toNat % 64, d.free.toNat / 64 % 64) }).drawn)
    refine ⟨x, ?_⟩
    rw [List.foldl_cons, hx, (Dev.drawn_only _).link rfl, Dev.link_modLink_self]

theorem Dev.dfeInL0_link (d : Dev) (l : LinkId) :
    ∃ x, (d.dfeInL0 l).link l = { d.link l with dfe := x } ∧ (d.par (lkey kLnkDfeAdapt l) 0 ≠ 1 → x = (d.link l).dfe) := by
  unfold Dev.dfeInL0
  split
  · next h =>
    obtain ⟨x, hx⟩ := d.adaptDfe_link l
    exact ⟨x, hx, fun hn => absurd h hn⟩
  · exact ⟨_, rfl, fun _ => rfl⟩

/-- How far a takeover has come after a DSK column that does not move the lane. -/
def takeoverNext (lg : Nat) (acked : Bool) (n ack : Nat) (valid agrees : Bool) : SpareUse :=
  if acked then .takeover lg true (if agrees then n + 1 else 0)
  else if valid && ack == lg then .takeover lg true 0 else .takeover lg acked n

theorem Dev.spareDsk_checking {d : Dev} {l : LinkId} {lg n : Nat} {acked : Bool} (ack : Nat) (valid agrees : Bool)
    (hu : (d.link l).spareUse = .takeover lg acked n) (h : acked = false ∨ n < 2) :
    d.onlyChanges (d.spareDsk l ack valid agrees) [.links] ∧
      (d.spareDsk l ack valid agrees).link l = { d.link l with spareUse := takeoverNext lg acked n ack valid agrees } := by
  have hkeep : d.onlyChanges d [.links] ∧ d.link l = { d.link l with spareUse := .takeover lg acked n } := by
    rw [← hu]
    exact ⟨Dev.only_refl .., rfl⟩
  have huse : ∀ u, d.onlyChanges (d.modLink l fun k => { k with spareUse := u }) [.links] ∧
      (d.modLink l fun k => { k with spareUse := u }).link l = { d.link l with spareUse := u } :=
    fun u => ⟨d.modLink_only .., d.link_modLink_self ..⟩
  unfold Dev.spareDsk takeoverNext
  rw [hu]
  cases acked with
  | false =>
    by_cases hv : (valid && ack == lg) = true
    · simp only [Bool.not_false, if_true, hv, Bool.false_eq_true, if_false]
      exact huse _
    · simp only [Bool.not_false, if_true, hv, Bool.false_eq_true, if_false]
      exact hkeep
  | true =>
    have hn : n < 2 := h.resolve_left (by decide)
    simp only [Bool.not_true, Bool.false_eq_true, if_false, hn, if_true]
    exact huse _

/-- The move: the lane takes the spare's place, and MAPSEQ advances. -/
theorem Dev.moveLane_link {d : Dev} {l : LinkId} {sp : Nat} (lg : Nat) (hsp : (d.link l).spare = some sp) :
    ((d.moveLane l lg).link l).map = (d.link l).map.set lg sp ∧ ((d.moveLane l lg).link l).spare = none ∧
      ((d.moveLane l lg).link l).spareUse = .idle ∧
      ((d.moveLane l lg).link l).failed = (d.link l).failed.set ((d.link l).map.getD lg 0) true ∧
      ((d.moveLane l lg).link l).bts.mapseq = ((d.link l).bts.mapseq + 1) % 16 := by
  unfold Dev.moveLane
  simp only [hsp]
  rw [Dev.syncBts, Dev.link_modLink_self]
  have h := (Dev.postFree_quiet (d.modLink l fun k => { k.noShadow with
    map := k.map.set lg sp, spare := none, failed := k.failed.set ((d.link l).map.getD lg 0) true,
    bts := { k.bts with mapseq := ((d.link l).bts.mapseq + 1) % 16, shadowValid := false, shadow := 0 } }) (l.ev 0x06)).phys l
  rw [Dev.link_modLink_self] at h
  exact ⟨(congrArg Link.map h :), (congrArg Link.spare h :), (congrArg Link.spareUse h :), (congrArg Link.failed h :),
    (congrArg (fun k : Link => k.bts.mapseq) h :)⟩

theorem Dev.spareDsk_move {d : Dev} {l : LinkId} {lg n : Nat} (ack : Nat) (valid agrees : Bool)
    (hu : (d.link l).spareUse = .takeover lg true n) (hn : 2 ≤ n) : d.spareDsk l ack valid agrees = d.moveLane l lg := by
  unfold Dev.spareDsk
  rw [hu]
  simp only [Bool.not_true, Bool.false_eq_true, if_false, Nat.not_lt.2 hn]

/-- With no calibration run under way a DSK column is the adaptation and the spare's step. -/
theorem exec_dskReceived_no_run {s : State} {l : LinkId} (ack : Nat) (valid : Bool) (seq : Nat) (agrees : Bool)
    (hl : s.dev.linkIds.contains l = true) (hr : s.dev.cal.run = none) (hi : s.dev.cal.interp = []) (hs : (s.dev.link l).state = .l0) :
    exec (.dskReceived l ack valid seq agrees) s = .next { s with dev := (s.dev.dfeInL0 l).spareDsk l ack valid agrees } := by
  have hcal : ((s.dev.dfeInL0 l).spareDsk l ack valid agrees).cal = s.dev.cal :=
    ((Dev.spareDsk_only ..).part .cal rfl).trans ((s.dev.dfeInL0_only l).part .cal rfl)
  exact exec_onLink (exec_dskReceived l ack valid seq agrees s) hl ((if_pos hs).trans
    (Dev.calDsk_of_no_run l (by rw [hcal, hr]) (by rw [hcal, hi])))

/-- Settles O43: each clause is one event, taken from the lemmas about the detectors, the lane fault and the DSK column. -/
theorem laneFaults : Obligations.LaneFaults := by
  unfold Obligations.LaneFaults
  refine ⟨fun s l phys los lol hl hr hd hs hp hlol => ?_, fun s l phys hl hd hp => ?_, fun s l phys rise hl hd hp hle => ?_,
    fun s l phys logical sp los lol rise hl hr hs hp hg hsp hne hlane hidle hlol hf hlim => ?_,
    fun s l phys los lol hl hr hs hp hg hsp hm hlol hf => ?_,
    fun s l ack seq n lg valid agrees acked hl hr hi hs hu hn => ?_,
    fun s l ack seq n lg sp valid agrees hl hr hi hs hu hn hsp => ?_⟩
  · rw [exec_hardLaneFault_on los lol hl hd hp]
    cases hf : (s.dev.link l).faulted.getD phys false with
    | true =>
      rw [Dev.detectors_standing hlol hf]
      rfl
    | false =>
      have hcal : (s.dev.markFault l phys los).cal = s.dev.cal := (s.dev.markFault_only ..).part .cal rfl
      rw [Dev.detectors_new hlol hf, Dev.laneFault_outside_l0 phys (by rw [Dev.link_markFault]; exact hs),
        Dev.calAdvance_of_no_run (by rw [hcal, hr])]
      rfl
  · exact exec_hardLaneFault_on false false hl hd hp
  · exact exec_onLink (exec_softLaneFault l phys rise s) hl ((if_pos ⟨hd, hp⟩).trans (if_neg (Nat.not_lt.2 hle)))
  · have hdue : TakeoverDue (s.dev.link l) phys logical := ⟨hs, hg, ⟨sp, hsp, hne⟩, hlane, hidle⟩
    have hdr := Link.dataReceivers_of_l0 hs
    constructor
    · have hmark : TakeoverDue ((s.dev.markFault l phys los).link l) phys logical := by
        rw [Dev.link_markFault]
        exact ⟨hs, hg, ⟨sp, hsp, hne⟩, hlane, hidle⟩
      obtain ⟨hframe, heffect⟩ := Dev.takeover_runs (s.dev.markFault_only l phys los) hr hmark
      exact ⟨_, (exec_hardLaneFault_on los lol hl hdr hp).trans (by rw [Dev.detectors_new hlol hf]), hframe, heffect⟩
    · have hcount : TakeoverDue ((s.dev.count (lkey kLnkCodeErr l) phys rise).link l) phys logical := by
        rw [(Dev.count_only ..).link rfl]
        exact hdue
      obtain ⟨hframe, heffect⟩ := Dev.takeover_runs ((s.dev.count_only ..).mono (by decide)) hr hcount
      exact .of_onLink (exec_softLaneFault l phys rise s) hl ((if_pos ⟨hdr, hp⟩).trans (if_pos hlim)) hframe heffect
  · have hex : (s.dev.markFault l phys los).laneFault l phys = (s.dev.markFault l phys los).spareExhausted l := by
      apply Dev.laneFault_exhausted <;> rw [Dev.link_markFault]
      exacts [hs, hg, hsp, hm]
    have hcal : ((s.dev.markFault l phys los).spareExhausted l).cal = s.dev.cal :=
      ((Dev.spareExhausted_only ..).part .cal rfl).trans ((s.dev.markFault_only ..).part .cal rfl)
    refine ⟨_, (exec_hardLaneFault_on los lol hl (Link.dataReceivers_of_l0 hs) hp).trans
      (by rw [Dev.detectors_new hlol hf, hex, Dev.calAdvance_of_no_run (by rw [hcal, hr])]), ?_, Dev.spareExhausted_link _ l⟩
    exact Dev.only_then (Dev.spareExhausted_only ..) (by decide) ((s.dev.markFault_only ..).mono (by decide))
  · obtain ⟨x, hx, hsame⟩ := s.dev.dfeInL0_link l
    obtain ⟨hframe, hlink⟩ := Dev.spareDsk_checking (d := s.dev.dfeInL0 l) ack valid agrees (by rw [hx]; exact hu) hn
    refine ⟨_, exec_dskReceived_no_run ack valid seq agrees hl hr hi hs, ?_, ?_⟩
    · exact Dev.only_then hframe (by decide) (s.dev.dfeInL0_only l)
    · rw [hx] at hlink
      exact ⟨by rw [hlink]; rfl, fun hne => (congrArg Link.dfe hlink :).trans (hsame hne)⟩
  · obtain ⟨x, hx, -⟩ := s.dev.dfeInL0_link l
    have hlink := Dev.moveLane_link (d := s.dev.dfeInL0 l) lg (by rw [hx]; exact hsp)
    rw [hx] at hlink
    refine ⟨_, (exec_dskReceived_no_run ack valid seq agrees hl hr hi hs).trans
      (by rw [Dev.spareDsk_move ack valid agrees (by rw [hx]; exact hu) hn]), ?_, hlink⟩
    exact Dev.only_then (Dev.moveLane_only ..) (by decide) ((s.dev.dfeInL0_only l).mono (by decide))

end Sys2Proof.Machine
end

section
/-! One tick of the time base (O2). -/

namespace Sys2Proof.Machine

open Sys2Proof

/-- The block after a step on an empty queue. -/
def Dev.idled (d : Dev) : Dev := d.relatch.tick.bootAnnounced.backLanes.portFrames

theorem step_of_no_command {s : State} (h : s.pending = []) : step s = .next { s with dev := s.dev.idled } := by
  unfold step
  rw [h]
  exact congrArg Host.Outcome.next (congrArg (State.mk s.dev.idled) h)

/-- The time base and its slewing after a tick outside RESET and THERMAL_OFF (R77). -/
def Clk.ticked (c : Clk) : Clk :=
  if c.slewLeft = 0 then { c with timeBase := c.timeBase + 1 }
  else if c.slewCount + 1 < 1000 then { c with timeBase := c.timeBase + 1, slewCount := c.slewCount + 1 }
  else if 0 < c.slewLeft then { c with timeBase := c.timeBase + 2, slewCount := 0, slewLeft := c.slewLeft - 1 }
  else { c with slewCount := 0, slewLeft := c.slewLeft + 1 }

theorem Dev.tick_standing {d : Dev} (h : d.core.state = .reset ∨ d.core.state = .thermalOff) : d.tick = d := by
  unfold Dev.tick
  rcases h with h | h <;> rw [h]

theorem Dev.tick_running {d : Dev} (hr : d.core.state ≠ .reset) (ht : d.core.state ≠ .thermalOff) :
    d.tick.clk = d.clk.ticked := by
  unfold Dev.tick
  split
  · next h => exact absurd h hr
  · next h => exact absurd h ht
  · unfold Clk.ticked
    dsimp only
    split_ifs <;> rfl

theorem Dev.relatch_active (d : Dev) : d.relatch.saf.active = d.saf.active := by
  unfold Dev.relatch
  split <;> rfl

theorem Dev.relatch_core (d : Dev) : d.relatch.core = d.core := d.relatch_only.part .core rfl
theorem Dev.relatch_clk (d : Dev) : d.relatch.clk = d.clk := d.relatch_only.part .clk rfl

theorem Dev.bootAnnounced_of_none {d : Dev} (h : d.core.announce = none) : d.bootAnnounced = d := by
  unfold Dev.bootAnnounced
  split
  · rfl
  · next h' => rw [h] at h'; cases h'

theorem Dev.idled_only (d : Dev) : d.onlyChanges d.idled
    [.core, .prm, .clk, .sluice, .host, .links, .seq, .ports, .lamp, .gov, .saf, .jnl] :=
  Dev.only_then (Dev.portFrames_only _) (by decide) <| Dev.only_then (Dev.backLanes_only _) (by decide) <|
    Dev.only_then (Dev.bootAnnounced_only _) (by decide) <| Dev.only_then (Dev.tick_only _) (by decide) <|
      d.relatch_only.mono (by decide)

theorem Dev.idled_of_no_announcement {d : Dev} (h : d.core.announce = none) : d.idled = d.relatch.tick.backLanes.portFrames := by
  have hc : d.relatch.tick.core = d.core := ((Dev.tick_only _).part .core rfl).trans d.relatch_core
  unfold Dev.idled
  rw [Dev.bootAnnounced_of_none (by rw [hc, h])]

theorem Dev.idled_only_of_no_announcement {d : Dev} (h : d.core.announce = none) :
    d.onlyChanges d.idled [.clk, .links, .ports, .saf] := by
  rw [Dev.idled_of_no_announcement h]
  exact Dev.only_then (Dev.portFrames_only _) (by decide) <| Dev.only_then (Dev.backLanes_only _) (by decide) <|
    Dev.only_then (Dev.tick_only _) (by decide) <| d.relatch_only.mono (by decide)

theorem Dev.idled_active_of_no_announcement {d : Dev} (h : d.core.announce = none) : d.idled.saf.active = d.saf.active := by
  rw [Dev.idled_of_no_announcement h, Dev.saf_of (Dev.portFrames_only _) rfl, Dev.saf_of (Dev.backLanes_only _) rfl,
    Dev.saf_of (Dev.tick_only _) rfl, Dev.relatch_active]

/-- Nothing but the tick moves the clocks. -/
theorem Dev.idled_clk (d : Dev) : d.idled.clk = d.relatch.tick.clk :=
  ((Dev.portFrames_only _).part .clk rfl).trans <| ((Dev.backLanes_only _).part .clk rfl).trans <|
    (Dev.bootAnnounced_only _).part .clk rfl

theorem Dev.idled_clk_standing {d : Dev} (h : d.core.state = .reset ∨ d.core.state = .thermalOff) : d.idled.clk = d.clk := by
  rw [Dev.idled_clk, Dev.tick_standing (by rwa [Dev.relatch_core]), Dev.relatch_clk]

theorem Dev.idled_clk_running {d : Dev} (hr : d.core.state ≠ .reset) (ht : d.core.state ≠ .thermalOff) :
    d.idled.clk = d.clk.ticked := by
  rw [Dev.idled_clk, Dev.tick_running (by rwa [Dev.relatch_core]) (by rwa [Dev.relatch_core]), Dev.relatch_clk]

/-- Settles O2: the clocks are those of the tick, and every other operation of the step has its frame. -/
theorem emptyQueueTicks : Obligations.EmptyQueueTicks := by
  unfold Obligations.EmptyQueueTicks
  intro s hq
  refine ⟨s.dev.idled, step_of_no_command hq, s.dev.idled_only,
    fun ha => ⟨Dev.idled_only_of_no_announcement ha, Dev.idled_active_of_no_announcement ha⟩, Dev.idled_clk_standing, ?_⟩
  rintro ⟨hr, ht⟩
  rw [Dev.idled_clk_running hr ht, Clk.ticked]
  refine ⟨fun h0 => if_pos h0, ?_, ?_, ?_⟩
  · rintro ⟨h0, hc⟩
    rw [if_neg h0, if_pos hc]
  · rintro ⟨h0, hc⟩
    rw [if_neg h0.ne', if_neg (Nat.not_lt.2 hc), if_pos h0]
  · rintro ⟨h0, hc⟩
    rw [if_neg h0.ne, if_neg (Nat.not_lt.2 hc), if_neg h0.not_gt]

end Sys2Proof.Machine
end

section
/-! The check value of a Husk's header, bit by bit (O45). -/

namespace Sys2Proof.Machine

open Sys2Proof

/-- One bit of a byte enters the CRC: a serial register with the polynomial 0x1021. -/
def crc16Serial (b : Byte) (c : BitVec 16) (i : Nat) : BitVec 16 :=
  (c <<< 1) ^^^ (if (c.getLsbD 15 != b.getLsbD i) = true then 0x1021#16 else 0#16)

/-- A shift of the CRC with y added to it: y is shifted along, and its top bit decides with the CRC's. -/
theorem crc16Bit_xor (c y : BitVec 16) :
    crc16Bit (c ^^^ y) =
      ((c <<< 1) ^^^ (if (c.getLsbD 15 != y.getLsbD 15) = true then 0x1021#16 else 0#16)) ^^^ (y <<< 1) := by
  unfold crc16Bit
  rw [BitVec.getLsbD_xor, BitVec.shiftLeft_xor_distrib]
  show (if (c.getLsbD 15 != y.getLsbD 15) = true then _ else _) = _
  split
  · rw [BitVec.xor_assoc, BitVec.xor_assoc, BitVec.xor_comm (y <<< 1)]
  · rw [BitVec.xor_zero]

/-- After n shifts of a byte added at the top, its n most significant bits have entered one by one, and the others wait. -/
theorem crc16Bit_iterate (b : Byte) (c : BitVec 16) (n : Nat) (hn : n ≤ 8) :
    crc16Bit^[n] (c ^^^ (b.setWidth 16 <<< 8)) =
      (List.range n).foldl (fun c k => crc16Serial b c (7 - k)) c ^^^ (b.setWidth 16 <<< (8 + n)) := by
  induction n with
  | zero => rfl
  | succ n ih =>
    have htop : (b.setWidth 16 <<< (8 + n)).getLsbD 15 = b.getLsbD (7 - n) := by
      rw [BitVec.getLsbD_shiftLeft, BitVec.getLsbD_setWidth, show 15 - (8 + n) = 7 - n by omega]
      simp [show ¬ 15 < 8 + n by omega, show 7 - n < 16 by omega]
    rw [Function.iterate_succ_apply', ih (by omega), crc16Bit_xor, htop, ← BitVec.shiftLeft_add, List.range_succ,
      List.foldl_append]
    rfl

/-- A byte enters the CRC from its most significant bit. -/
theorem crc16Byte_serial (c : BitVec 16) (b : Byte) : crc16Byte c b = [7, 6, 5, 4, 3, 2, 1, 0].foldl (crc16Serial b) c := by
  have hgone : b.setWidth 16 <<< 16 = 0#16 := BitVec.shiftLeft_eq_zero (Nat.le_refl 16)
  have h := crc16Bit_iterate b c 8 (Nat.le_refl 8)
  rw [hgone, BitVec.xor_zero] at h
  exact h

/-- Settles O45: the CRC folds over the bytes, and each byte enters bit by bit. -/
theorem headerCrc : Obligations.HeaderCrc := by
  unfold Obligations.HeaderCrc
  refine ⟨rfl, fun bs b => ?_, by simp [crc16, crc16Byte, crc16Bit]⟩
  rw [crc16, List.foldl_append]
  exact crc16Byte_serial _ b

end Sys2Proof.Machine
end

section
/-! What reception leaves of a link, and the operations behind an accepted Husk. -/

namespace Sys2Proof.Machine

open Sys2Proof

/-! ### What a link holds besides its transmitter

Events, responses, faults and fences put Husks on the back lane; none of them moves what a link has received. -/

/-- Every link but for its VC1 transmitter and its STAT Husks is the same in two states of the block. -/
structure Dev.KeepsPhys (a b : Dev) : Prop where
  phys : ∀ l, (b.link l).phys = (a.link l).phys

namespace Dev.KeepsPhys

theorem refl (d : Dev) : d.KeepsPhys d := ⟨fun _ => rfl⟩

theorem trans {a b c : Dev} (h : a.KeepsPhys b) (g : b.KeepsPhys c) : a.KeepsPhys c :=
  ⟨fun l => (g.phys l).trans (h.phys l)⟩

theorem of_frame {a b : Dev} {m : List Part} (h : a.onlyChanges b m) (hm : m.contains .links = false) : a.KeepsPhys b :=
  ⟨fun l => congrArg Link.phys (h.link hm l)⟩

theorem of_quiet {a b : Dev} (h : a.Quiet b) : a.KeepsPhys b := ⟨h.phys⟩

/-- One more operation, whose frame leaves the links alone. -/
theorem thenFrame {a b c : Dev} {m : List Part} (h : a.KeepsPhys b) (g : b.onlyChanges c m) (hm : m.contains .links = false) :
    a.KeepsPhys c :=
  h.trans (of_frame g hm)

/-- One more operation, which does what events and responses do. -/
theorem thenQuiet {a b c : Dev} (h : a.KeepsPhys b) (g : b.Quiet c) : a.KeepsPhys c := h.trans (of_quiet g)

theorem foldl {α : Type} {f : Dev → α → Dev} (hf : ∀ (e : Dev) x, e.KeepsPhys (f e x)) (xs : List α) (d : Dev) :
    d.KeepsPhys (xs.foldl f d) := by
  induction xs generalizing d with
  | nil => exact refl d
  | cons x xs ih => exact (hf d x).trans (ih _)

variable {a b : Dev}

theorem vc1RxNext (h : a.KeepsPhys b) (l : LinkId) : (b.link l).vc1RxNext = (a.link l).vc1RxNext :=
  (congrArg Link.vc1RxNext (h.phys l) :)
theorem rxCredit (h : a.KeepsPhys b) (l : LinkId) : (b.link l).rxCredit = (a.link l).rxCredit :=
  (congrArg Link.rxCredit (h.phys l) :)
theorem nakOutstanding (h : a.KeepsPhys b) (l : LinkId) : (b.link l).nakOutstanding = (a.link l).nakOutstanding :=
  (congrArg Link.nakOutstanding (h.phys l) :)
theorem vc2Last (h : a.KeepsPhys b) (l : LinkId) : (b.link l).vc2Last = (a.link l).vc2Last :=
  (congrArg Link.vc2Last (h.phys l) :)

end Dev.KeepsPhys

/-! ### Commands, fences and lists -/

theorem Dev.accept_keepsPhys (d : Dev) (p : Port) (slot : Nat) (c : Cmd) (carried : Bool) :
    d.KeepsPhys (d.accept p slot c carried) := by
  have hfree : d.KeepsPhys (d.freeSlot p slot) := .of_frame (d.freeSlot_only ..) rfl
  have hopen : d.KeepsPhys (d.openCmd p slot c) := .of_frame (d.openCmd_only ..) rfl
  unfold Dev.accept
  split
  · exact hfree
  · split
    · exact .of_quiet (d.respond_quiet ..)
    · split
      · exact .of_quiet (d.respond_quiet ..)
      · split
        · exact (hfree.thenFrame (Dev.count_only ..) rfl).thenQuiet (Dev.post_quiet ..)
        · split
          · exact hopen.thenQuiet (Dev.finishWith_quiet ..)
          · exact hopen

theorem Dev.mbxIn_keepsPhys (d : Dev) (l : LinkId) (hd : HuskHdr) : d.KeepsPhys (d.mbxIn l hd) := by
  unfold Dev.mbxIn
  split
  · exact .refl d
  · exact d.accept_keepsPhys ..

theorem Dev.signalFence_keepsPhys (d : Dev) (f : Nat) : d.KeepsPhys (d.signalFence f) := by
  unfold Dev.signalFence
  extract_lets c1 d1
  have h1 : d.KeepsPhys d1 := by
    unfold d1
    split
    · exact ⟨fun _ => rfl⟩
    · exact .of_frame (d.storeEarly_only ..) rfl
  exact h1.trans (.foldl (fun e c => .of_quiet (e.finish_quiet ..)) _ _)

theorem Dev.signalBound_keepsPhys (d : Dev) (n : Nat) (p : BoundFence → Bool) : d.KeepsPhys (d.signalBound n p) := by
  unfold Dev.signalBound
  exact .trans (.of_frame (d.modLayer_only ..) rfl) (.foldl (fun e (b : BoundFence) => e.signalFence_keepsPhys b.fence) _ _)

theorem Dev.retire_keepsPhys (d : Dev) (n f : Nat) (s : Bool) : d.KeepsPhys (d.retire n f s) := by
  unfold Dev.retire
  extract_lets d1
  have h1 : d.KeepsPhys d1 := .of_frame (d.setPar_only ..) rfl
  split
  · exact h1.thenQuiet (Dev.post_quiet ..)
  · exact h1

theorem Dev.closeFrame_keepsPhys (d : Dev) (n : Nat) : d.KeepsPhys (d.closeFrame n) := by
  unfold Dev.closeFrame
  extract_lets l
  split
  · exact .refl d
  · next b missing rows blank d1 old d2 d3 _ _ _ _ =>
    have h1 : d.KeepsPhys d1 := by
      unfold d1
      split
      · exact .refl d
      · exact (Dev.KeepsPhys.of_frame (d.count_only ..) rfl).thenQuiet (Dev.post_quiet ..)
    split
    · exact (h1.thenFrame (d1.modLayer_only ..) rfl).trans (Dev.signalBound_keepsPhys ..)
    · have h2 : d.KeepsPhys d2 := h1.thenFrame (d1.modLayer_only ..) rfl
      have h3 : d.KeepsPhys d3 := by
        unfold d3
        clear_value old
        cases old with
        | some b => exact (h2.thenFrame (Dev.count_only ..) rfl).trans (Dev.retire_keepsPhys ..)
        | none => exact h2
      exact h3.trans (Dev.signalBound_keepsPhys ..)

theorem Dev.closeMissing_keepsPhys (d : Dev) (n : Nat) : d.KeepsPhys (d.closeMissing n) := by
  unfold Dev.closeMissing
  split
  · exact .refl d
  · exact (Dev.KeepsPhys.of_frame (d.count_only ..) rfl).trans (Dev.closeFrame_keepsPhys ..)

theorem Dev.fence_keepsPhys (d : Dev) (p : List Byte) : d.KeepsPhys (d.fence p).1 := by
  unfold Dev.fence
  extract_lets f n frame l bind inCopy
  have hbind : ∀ c, d.KeepsPhys (bind c) := fun c => .of_frame (d.modLayer_only ..) rfl
  repeat' split
  · exact d.signalFence_keepsPhys f
  · exact .refl d
  · exact (hbind false).trans (Dev.closeMissing_keepsPhys ..)
  · exact hbind true
  · exact d.signalFence_keepsPhys f
  · exact hbind false
  · exact hbind true
  · exact hbind false
  · exact d.signalFence_keepsPhys f

theorem Dev.align_keepsPhys (d : Dev) (diff : Int) (link : Option LinkId) : d.KeepsPhys (d.align diff link) := by
  have hclk : ∀ c : Clk, d.KeepsPhys { d with clk := c } := fun c => ⟨fun _ => rfl⟩
  unfold Dev.align
  split
  · exact hclk _
  · split
    · exact hclk _
    · split
      · cases link with
        | some l => exact (hclk _).thenQuiet (Dev.postFree_quiet ..)
        | none => exact hclk _
      · split
        · cases link with
          | some l => exact (hclk _).thenQuiet (Dev.postFree_quiet ..)
          | none => exact hclk _
        · cases link with
          | some l => exact (Dev.KeepsPhys.of_frame (d.count_only ..) rfl).thenQuiet (Dev.postFree_quiet ..)
          | none => exact .refl d

theorem Dev.acceptList_keepsPhys (d : Dev) (b : List Byte) : d.KeepsPhys (d.acceptList b) := by
  unfold Dev.acceptList
  extract_lets objs low bad d1 l seen q d2
  have h1 : d.KeepsPhys d1 :=
    ((Dev.KeepsPhys.of_frame (d.count_only ..) rfl).thenFrame (Dev.count_only ..) rfl).thenFrame (Dev.count_only ..) rfl
  have hsht : ∀ q : Shutter, d.KeepsPhys { d1 with sht := q } := fun q => h1.trans ⟨fun _ => rfl⟩
  have h2 : d.KeepsPhys d2 := by
    unfold d2
    split
    · exact hsht _
    · exact h1
    · exact (hsht _).thenQuiet (Dev.post_quiet ..)
  have h3 : d.KeepsPhys { d2 with sht := { d2.sht with newest := some l } } := h2.trans ⟨fun _ => rfl⟩
  exact h3.thenFrame (Dev.rasterList_only ..) rfl

theorem Dev.handList_keepsPhys (d : Dev) (path : Nat) (b : List Byte) : d.KeepsPhys (d.handList path b).1 := by
  unfold Dev.handList
  split
  · split
    · exact d.acceptList_keepsPhys b
    · exact (Dev.KeepsPhys.of_frame (d.count_only ..) rfl).thenQuiet (Dev.post_quiet ..)
  · exact .refl d

/-! ### A Husk that passes checks 1 to 3 -/

/-- A Husk with this header reaches a link that receives, and passes checks 1 to 3 (R44, Table 3-3). -/
structure Dev.Receives (d : Dev) (l : LinkId) (h : RxHusk) (hd : HuskHdr) : Prop where
  present : d.linkIds.contains l = true
  flows : (d.link l).receives = true
  passed : d.checkHusk l h = (d, some hd)

theorem exec_received {s : State} {l : LinkId} {h : RxHusk} {hd : HuskHdr} {c : Instr} {type : Nat} {act : Dev → HuskHdr → Dev}
    (hp : s.dev.Receives l h hd) (ht : hd.type = type) (hc : exec c s = s.on fun d => d.husk l type h act) :
    exec c s = .next { s with dev := act s.dev hd } := by
  subst ht
  rw [hc, State.on, Dev.husk_of_passed act hp.present hp.flows hp.passed]

/-- Link-local Husks wait for the lane, and nothing else of the link differs. -/
theorem Link.sendLocal_eq (k : Link) (type : Nat) (b : List Byte) : ∃ q, k.sendLocal type b = { k with localOut := q } := by
  unfold Link.sendLocal
  split
  · exact ⟨_, rfl⟩
  · exact ⟨k.localOut, rfl⟩

theorem Dev.sendAck_link (d : Dev) (l : LinkId) (vc : Nat) : ∃ q, (d.sendAck l vc).link l = { d.link l with localOut := q } := by
  unfold Dev.sendAck
  rw [Dev.link_modLink_self]
  split <;> exact Link.sendLocal_eq ..

end Sys2Proof.Machine
end

section
/-! LINE and OBJ Husks that pass the checks (O49). -/

namespace Sys2Proof.Machine

open Sys2Proof

/-! ### LINE Husks (R73 to R75) -/

theorem exec_lineHusk {s : State} {l : LinkId} {h : RxHusk} {hd : HuskHdr} (hp : s.dev.Receives l h hd) (ht : hd.type = 1) :
    exec (.lineHusk l h) s = .next { s with dev := s.dev.lineIn l hd.sub hd.payload } :=
  exec_received (act := fun d hd => d.lineIn l hd.sub hd.payload) hp ht rfl

/-- R74: no layer of this number is declared. -/
theorem Dev.lineIn_undeclared {d : Dev} (l : LinkId) {sub : Nat} (p : List Byte)
    (h : bitsOf sub 0 3 = 0 ∨ (d.layer (bitsOf sub 0 3)).st ≠ .declared) : d.lineIn l sub p = d.discardLine l := by
  unfold Dev.lineIn
  exact if_pos (h.elim .inl fun h => .inr (.inl h))

/-- FRAME_START of a newer frame in an idle layer opens it (Table 3-6a). -/
theorem Dev.lineIn_frameStart {d : Dev} (l : LinkId) {sub n f : Nat} {p : List Byte} (hn : n = bitsOf sub 0 3) (h0 : n ≠ 0)
    (hs : (d.layer n).st = .declared) (hm : bitsOf sub 4 2 = 1)
    (hp : bitsOf sub 6 2 < (planeSizes (d.layer n).decl.format (d.layer n).decl.srcW (d.layer n).decl.srcH).length)
    (h8 : 8 ≤ p.length) (hf : f = leField p 0 2) (hi : (d.layer n).frameSt = .idle) (hnew : (d.layer n).newFrame f = true) :
    d.lineIn l sub p = d.openFrame n f l := by
  subst hn hf
  unfold Dev.lineIn
  simp [h0, hs, hm, hp, h8, hi, hnew]

/-- A data LINE of the open frame, on the frame's link, is written into it (Table 3-6a). -/
theorem Dev.lineIn_data {d : Dev} {l : LinkId} {sub n f : Nat} {p : List Byte} (hn : n = bitsOf sub 0 3) (h0 : n ≠ 0)
    (hd : d.cmp.dramStalled = false ∨ (d.layer n).placement = 0) (hs : (d.layer n).st = .declared) (hm : bitsOf sub 4 2 = 0)
    (h8 : 8 ≤ p.length)
    (hfit : lineFits (d.layer n).decl (bitsOf sub 6 2) (leField p 2 2) (leField p 4 2) (leField p 6 2) (p.drop 8).length = true)
    (hf : f = leField p 0 2) (hi : (d.layer n).frameSt = .open_ f l) :
    d.lineIn l sub p = d.writeLine n (bitsOf sub 6 2) (leField p 2 2) (leField p 4 2) (leField p 6 2) (p.drop 8) := by
  subst hn hf
  have hstall : ¬(d.cmp.dramStalled = true ∧ 1 ≤ (d.layer (bitsOf sub 0 3)).placement) := by
    rintro ⟨h1, h2⟩
    rcases hd with hd | hd
    · exact Bool.false_ne_true (hd.symm.trans h1)
    · omega
  unfold Dev.lineIn
  simp only [hm, hs, h8, hfit, hi, h0, hstall]
  simp

/-- The layer is in frame f, which a link sends it, with no line received. -/
structure Layer.Opened (k : Layer) (f : Nat) (link : LinkId) : Prop where
  frameSt : k.frameSt = .open_ f link
  lastFrame : k.lastFrame = some f
  linesRx : k.linesRx = 0

theorem Layer.Opened.modFill {k : Layer} {f : Nat} {link : LinkId} (h : k.Opened f link) (g : Buf → Buf) :
    (k.modFill g).Opened f link := by
  obtain ⟨h1, h2, h3⟩ := h
  unfold Layer.modFill
  repeat' split
  all_goals exact ⟨h1, h2, h3⟩

theorem Dev.layers_modLayer_length (d : Dev) (n : Nat) (f : Layer → Layer) :
    (d.modLayer n f).cmp.layers.length = d.cmp.layers.length := modAt_length ..

/-- The layer's frame opens, whichever buffer takes it (R145). -/
theorem Dev.openFrame_layer {d : Dev} {n : Nat} (f : Nat) (link : LinkId) (hn : n < d.cmp.layers.length) :
    ((d.openFrame n f link).layer n).Opened f link := by
  unfold Dev.openFrame
  extract_lets l start i old d1
  have hmod : ∀ g : Layer → Layer, (∀ k, (g k).Opened f link) →
      n < (d.modLayer n g).cmp.layers.length ∧ ((d.modLayer n g).layer n).Opened f link := by
    intro g hg
    rw [d.layers_modLayer_length, d.layer_modLayer_self g hn]
    exact ⟨hn, hg _⟩
  have hstart : ∀ i k, (start i k).Opened f link := fun i k => Layer.Opened.modFill ⟨rfl, rfl, rfl⟩ _
  have h1 : n < d1.cmp.layers.length ∧ (d1.layer n).Opened f link := by
    unfold d1
    split
    · split
      · exact hmod _ (hstart _)
      · exact hmod _ fun k => hstart _ _
    · split
      · exact hmod _ (hstart _)
      · exact hmod _ fun k => ⟨rfl, rfl, rfl⟩
  obtain ⟨hlen, hst, hlast, hrx⟩ := h1
  rw [Dev.signalBound_layer _ hlen]
  exact ⟨hst, hlast, hrx⟩

/-! ### OBJ Husks (R71, R72) -/

theorem exec_objHusk {s : State} {l : LinkId} {h : RxHusk} {hd : HuskHdr} (hp : s.dev.Receives l h hd) (ht : hd.type = 2) :
    exec (.objHusk l h) s = .next { s with dev := s.dev.vc2 l hd } :=
  exec_received (act := fun d hd => d.vc2 l hd) hp ht rfl

theorem Dev.vc2_superseded {d : Dev} {l : LinkId} {hd : HuskHdr} {last : Nat} (hl : (d.link l).vc2Last = some last)
    (ho : (hd.seq + 256 - last) % 256 = 0 ∨ 127 < (hd.seq + 256 - last) % 256) :
    d.vc2 l hd = (d.count (lkey kLnkObjSuperseded l) 0 1).sendAck l 2 := by
  unfold Dev.vc2
  simp only [hl]
  refine if_neg ?_
  simp only [Bool.and_eq_true, decide_eq_true_eq]
  omega

/-- A newer list: its SEQ becomes the last, it is acknowledged, and a resent one is counted. -/
def Dev.takeVc2 (d : Dev) (l : LinkId) (hd : HuskHdr) : Dev :=
  let d1 := (d.modLink l fun k => { k with vc2Last := some hd.seq }).sendAck l 2
  if hd.retry then d1.count (lkey kLnkVc2RetryRx l) 0 1 else d1

theorem Dev.vc2_newer {d : Dev} {l : LinkId} {hd : HuskHdr}
    (hn : ∀ last, (d.link l).vc2Last = some last → 1 ≤ (hd.seq + 256 - last) % 256 ∧ (hd.seq + 256 - last) % 256 ≤ 127) :
    d.vc2 l hd = ((d.takeVc2 l hd).handList l.ix hd.payload).1 := by
  unfold Dev.vc2
  extract_lets fresh d1 d2
  have hfresh : fresh = true := by
    unfold fresh
    split
    · rfl
    · next last hl =>
      simp only [Bool.and_eq_true, decide_eq_true_eq]
      exact hn last hl
  exact if_pos hfresh

theorem Dev.takeVc2_only (d : Dev) (l : LinkId) (hd : HuskHdr) : d.onlyChanges (d.takeVc2 l hd) [.prm, .links] := by
  have h1 := Dev.only_then (Dev.sendAck_only (d.modLink l fun k => { k with vc2Last := some hd.seq }) l 2) (by decide)
    (d.modLink_only l _)
  unfold Dev.takeVc2
  split
  · exact Dev.only_then (Dev.count_only ..) (by decide) (h1.mono (by decide))
  · exact h1.mono (by decide)

theorem Dev.takeVc2_link (d : Dev) (l : LinkId) (hd : HuskHdr) : ((d.takeVc2 l hd).link l).vc2Last = some hd.seq := by
  obtain ⟨q, hq⟩ := (d.modLink l fun k => { k with vc2Last := some hd.seq }).sendAck_link l 2
  rw [Dev.link_modLink_self] at hq
  unfold Dev.takeVc2
  split
  · rw [(Dev.count_only ..).link rfl, hq]
  · rw [hq]

/-- STALE_MS is no counter of a link. -/
theorem Dev.takeVc2_staleMs (d : Dev) (l : LinkId) (hd : HuskHdr) :
    (d.takeVc2 l hd).par kShtStaleMs 0 = d.par kShtStaleMs 0 := by
  unfold Dev.takeVc2
  split
  · exact Dev.par_setPar_ne _ _ _ _ (by rw [lkey_num]; decide)
  · rfl

theorem Dev.takeVc2_listReason (d : Dev) (l : LinkId) (hd : HuskHdr) (b : List Byte) :
    (d.takeVc2 l hd).listReason b = d.listReason b := by
  have hf := d.takeVc2_only l hd
  have hsht : (d.takeVc2 l hd).sht = d.sht := hf.part .sht rfl
  have hclk : (d.takeVc2 l hd).clk = d.clk := hf.part .clk rfl
  unfold Dev.listReason Dev.now
  rw [hsht, hclk, Dev.takeVc2_staleMs]

/-! ### The newest list (R258, R260) -/

theorem Dev.rasterList_newest (d : Dev) (l : ObjList) : (d.rasterList l).sht.newest = d.sht.newest := by
  unfold Dev.rasterList
  split
  · show Shutter.newest (Dev.sht (if _ then _ else _)) = _
    split
    · rw [(Dev.count_only ..).part .sht rfl]
    · rfl
  · rw [Dev.startRaster_sht, Dev.abandonRaster_state]

theorem Dev.acceptList_newest (d : Dev) (b : List Byte) :
    (d.acceptList b).sht.newest.map (·.time) = some (leField b 0 8) := by
  unfold Dev.acceptList
  rw [Dev.rasterList_newest]
  rfl

theorem Dev.handList_newest {d : Dev} {path : Nat} {b : List Byte} (hs : d.core.state = .standby) (hr : d.listReason b = 0) :
    (d.handList path b).1.sht.newest.map (·.time) = some (leField b 0 8) := by
  unfold Dev.handList
  rw [if_pos (.inl hs), hr]
  exact d.acceptList_newest b

/-- Settles O49: the LINE and OBJ Husks go through one operation each, and the lemma about its case says what it does. -/
theorem layerAndListHusks : Obligations.LayerAndListHusks := by
  unfold Obligations.LayerAndListHusks
  refine ⟨?_, ?_, ?_, ?_, ?_⟩
  · intro s l h hd hl hr hk ht hu
    rw [exec_lineHusk ⟨hl, hr, hk⟩ ht, Dev.lineIn_undeclared l _ hu, Dev.discardLine]
  · intro s l h hd n f hl hr hk ht hn h0 hlen hs hm hplane h8 hf hi hnew
    obtain ⟨hst, hlast, hrx⟩ := s.dev.openFrame_layer f l hlen
    refine ⟨_, ?_, s.dev.openFrame_only n f l, hst, hlast, hrx⟩
    rw [exec_lineHusk ⟨hl, hr, hk⟩ ht, Dev.lineIn_frameStart l hn h0 hs hm hplane h8 hf hi hnew]
  · intro s l h hd n f hl hr hk ht hstall hn h0 hs hm h8 hfit hf ho
    rw [exec_lineHusk ⟨hl, hr, hk⟩ ht, Dev.lineIn_data hn h0 hstall hs hm h8 hfit hf ho]
  · intro s l h hd last hl hr hk ht hlast hold
    rw [exec_objHusk ⟨hl, hr, hk⟩ ht, Dev.vc2_superseded hlast hold]
  · intro s l h hd hl hr hk ht hnew
    refine ⟨_, exec_objHusk ⟨hl, hr, hk⟩ ht, s.dev.vc2_only l hd, ?_, ?_⟩
    · rw [Dev.vc2_newer hnew, (Dev.handList_keepsPhys ..).vc2Last, Dev.takeVc2_link]
    · rintro ⟨hs, hreason⟩
      have hcore : (s.dev.takeVc2 l hd).core = s.dev.core := (s.dev.takeVc2_only l hd).part .core rfl
      rw [Dev.vc2_newer hnew]
      exact Dev.handList_newest (by rw [hcore, hs]) (by rw [Dev.takeVc2_listReason, hreason])

end Sys2Proof.Machine
end

section
/-! Accepted VC1 Husks, ACK, NAK and replay (O50). -/

namespace Sys2Proof.Machine

open Sys2Proof

/-! ### A VC1 Husk is accepted (R67, R68) -/

/-- The Husk under NEXT is taken: NEXT and the credit move on, and it is acknowledged. -/
def Dev.takeVc1 (d : Dev) (l : LinkId) : Dev :=
  (d.modLink l fun k => { k with
    vc1RxNext := (k.vc1RxNext + 1) % 256, rxCredit := (k.vc1RxNext + 9) % 256, nakOutstanding := false }).sendAck l 1

theorem Dev.vc1_of_next {d : Dev} {l : LinkId} {hd : HuskHdr} (act : Dev → Dev) (hs : hd.seq = (d.link l).vc1RxNext) :
    d.vc1 l hd act = act (d.takeVc1 l) := by
  unfold Dev.vc1 Dev.acceptVc1
  simp only [if_pos hs]
  rfl

theorem Dev.takeVc1_only (d : Dev) (l : LinkId) : d.onlyChanges (d.takeVc1 l) [.links] :=
  Dev.only_then (Dev.sendAck_only ..) (by decide) (d.modLink_only l _)

/-- The link has taken the VC1 Husk with this SEQ as its latest. -/
structure Link.Advanced (k : Link) (seq : Nat) : Prop where
  next : k.vc1RxNext = (seq + 1) % 256
  credit : k.rxCredit = (seq + 9) % 256
  nak : k.nakOutstanding = false

theorem Dev.takeVc1_link {d : Dev} {l : LinkId} {seq : Nat} (hs : seq = (d.link l).vc1RxNext) :
    ((d.takeVc1 l).link l).Advanced seq := by
  obtain ⟨q, hq⟩ := (d.modLink l fun k => { k with
    vc1RxNext := (k.vc1RxNext + 1) % 256, rxCredit := (k.vc1RxNext + 9) % 256, nakOutstanding := false }).sendAck_link l 1
  rw [Dev.link_modLink_self] at hq
  rw [hs, Dev.takeVc1, hq]
  exact ⟨rfl, rfl, rfl⟩

/-- What follows an accepted Husk leaves what the link has received. -/
theorem Dev.KeepsPhys.advanced {a b : Dev} (h : a.KeepsPhys b) {l : LinkId} {seq : Nat} (ha : (a.link l).Advanced seq) :
    (b.link l).vc1RxNext = (seq + 1) % 256 ∧ (b.link l).rxCredit = (seq + 9) % 256 ∧ (b.link l).nakOutstanding = false :=
  ⟨(h.vc1RxNext l).trans ha.next, (h.rxCredit l).trans ha.credit, (h.nakOutstanding l).trans ha.nak⟩

/-- A Husk under NEXT is taken, and its type's own action follows. -/
theorem exec_nextVc1 {s : State} {l : LinkId} {h : RxHusk} {hd : HuskHdr} {c : Instr} {type : Nat} {act : HuskHdr → Dev → Dev}
    (hp : s.dev.Receives l h hd) (hs : hd.seq = (s.dev.link l).vc1RxNext) (ht : hd.type = type)
    (hc : exec c s = s.on fun d => d.husk l type h fun d hd => d.vc1 l hd (act hd)) :
    exec c s = .next { s with dev := act hd (s.dev.takeVc1 l) } := by
  rw [exec_received hp ht hc, Dev.vc1_of_next _ hs]

/-! ### Commands, fences and SYNC (R76, R77, R91) -/

theorem exec_mbxHusk {s : State} {l : LinkId} {h : RxHusk} {hd : HuskHdr} (hp : s.dev.Receives l h hd)
    (hs : hd.seq = (s.dev.link l).vc1RxNext) (ht : hd.type = 3) :
    exec (.mbxHusk l h) s = .next { s with dev := (s.dev.takeVc1 l).mbxIn l hd } :=
  exec_nextVc1 (act := fun hd d => d.mbxIn l hd) hp hs ht rfl

/-- What a FENCE Husk does once it is taken: one shorter than its fields does nothing. -/
def Dev.fenceIn (d : Dev) (hd : HuskHdr) : Dev := if 8 ≤ hd.payload.length then (d.fence hd.payload).1 else d

theorem exec_fenceHusk {s : State} {l : LinkId} {h : RxHusk} {hd : HuskHdr} (hp : s.dev.Receives l h hd)
    (hs : hd.seq = (s.dev.link l).vc1RxNext) (ht : hd.type = 4) :
    exec (.fenceHusk l h) s = .next { s with dev := (s.dev.takeVc1 l).fenceIn hd } :=
  exec_nextVc1 (act := fun hd d => d.fenceIn hd) hp hs ht rfl

theorem Dev.fenceIn_only (d : Dev) (hd : HuskHdr) : d.onlyChanges (d.fenceIn hd) [.prm, .host, .links, .cmp] :=
  Dev.only_ite (fun _ => d.fence_only hd.payload) fun _ => d.only_refl _

theorem Dev.fenceIn_keepsPhys (d : Dev) (hd : HuskHdr) : d.KeepsPhys (d.fenceIn hd) := by
  unfold Dev.fenceIn
  split
  · exact d.fence_keepsPhys _
  · exact .refl d

/-- A fence for a frame still to come of an idle layer that is not copied is bound to the layer (R76). -/
theorem Dev.fenceIn_future {d : Dev} {hd : HuskHdr} {n f : Nat} (h8 : 8 ≤ hd.payload.length) (hn : n = byteAt hd.payload 2)
    (hf : f = leField hd.payload 4 2) (h1 : 1 ≤ n) (h7 : n ≤ 7) (hi : (d.layer n).frameSt = .idle)
    (hc : (d.layer n).intake = false) (hnew : (d.layer n).newFrame f = true) :
    d.fenceIn hd = d.modLayer n fun k => { k with
      fences := k.fences ++ [{ fence := leField hd.payload 0 2, frame := f, atCopy := false }] } := by
  subst hn hf
  unfold Dev.fenceIn Dev.fence
  rw [if_pos h8]
  simp only [hi, hc, hnew, show byteAt hd.payload 2 ≠ 0xFF by omega,
    show ¬(byteAt hd.payload 2 = 0 ∨ 7 < byteAt hd.payload 2) by omega]
  simp

/-- What a SYNC Husk does once it is taken. -/
def Dev.syncIn (d : Dev) (l : LinkId) (hd : HuskHdr) (soh : Nat) : Dev :=
  if d.syncTaken l hd then d.align (d.syncDiff l hd soh) (some l) else d

theorem exec_syncHusk {s : State} {l : LinkId} {h : RxHusk} {hd : HuskHdr} (hp : s.dev.Receives l h hd)
    (hs : hd.seq = (s.dev.link l).vc1RxNext) (ht : hd.type = 5) :
    exec (.syncHusk l h) s = .next { s with dev := (s.dev.takeVc1 l).syncIn l hd h.sohTime } :=
  exec_nextVc1 (act := fun hd d => d.syncIn l hd h.sohTime) hp hs ht rfl

theorem Dev.syncIn_only (d : Dev) (l : LinkId) (hd : HuskHdr) (soh : Nat) :
    d.onlyChanges (d.syncIn l hd soh) [.prm, .clk, .host, .links, .free] :=
  Dev.only_ite (fun _ => d.align_only ..) fun _ => d.only_refl _

theorem Dev.syncIn_keepsPhys (d : Dev) (l : LinkId) (hd : HuskHdr) (soh : Nat) : d.KeepsPhys (d.syncIn l hd soh) := by
  unfold Dev.syncIn
  split
  · exact d.align_keepsPhys ..
  · exact .refl d

/-- The alignment rule of R77 by the size of the difference. -/
structure Clk.Aligned (c c' : Clk) (inBoot : Prop) (diff : Int) : Prop where
  close : diff.natAbs ≤ 2 → c' = { c with slewLeft := 0, slewCount := 0 }
  slewed : 2 < diff.natAbs ∧ diff.natAbs ≤ 100000 → c' = { c with slewLeft := diff, slewCount := 0 }
  forward : 100000 < diff → c' = { c with timeBase := c.timeBase + diff.toNat, slewLeft := 0, slewCount := 0 }
  backward : diff < -100000 → ¬inBoot → c' = c

theorem Dev.align_aligned (d : Dev) (l : LinkId) (diff : Int) :
    d.clk.Aligned (d.align diff (some l)).clk (d.core.state = .boot) diff := by
  unfold Dev.align
  constructor
  · intro h
    rw [if_pos h]
  · rintro ⟨h2, h⟩
    rw [if_neg (Nat.not_le.2 h2), if_pos h]
  · intro h
    rw [if_neg (by omega), if_neg (by omega), if_pos (by omega)]
    dsimp only
    rw [(Dev.postFree_quiet ..).clk]
  · intro h hb
    rw [if_neg (by omega), if_neg (by omega), if_neg (by omega), if_neg hb]
    dsimp only
    rw [(Dev.postFree_quiet ..).clk, (Dev.count_only ..).part .clk rfl]

/-- Taking the Husk leaves the settings, the time base and the device state by which its SYNC is judged. -/
theorem Dev.syncIn_takeVc1_aligned {d : Dev} {l : LinkId} {hd : HuskHdr} {soh : Nat} (ht : d.syncTaken l hd = true) :
    d.clk.Aligned ((d.takeVc1 l).syncIn l hd soh).clk (d.core.state = .boot) (d.syncDiff l hd soh) := by
  have hf := d.takeVc1_only l
  have htaken : (d.takeVc1 l).syncTaken l hd = true := by
    unfold Dev.syncTaken at ht ⊢
    rwa [hf.par rfl, hf.par rfl]
  have hdiff : (d.takeVc1 l).syncDiff l hd soh = d.syncDiff l hd soh := by
    unfold Dev.syncDiff
    rw [hf.par rfl]
  have h := (d.takeVc1 l).align_aligned l (d.syncDiff l hd soh)
  have hclk : (d.takeVc1 l).clk = d.clk := hf.part .clk rfl
  have hcore : (d.takeVc1 l).core = d.core := hf.part .core rfl
  unfold Dev.syncIn
  rwa [if_pos htaken, hdiff, ← hclk, ← hcore]

/-! ### ACK, NAK and replay (R67, R70) -/

theorem exec_ackHusk {s : State} {l : LinkId} {h : RxHusk} {hd : HuskHdr} (hp : s.dev.Receives l h hd) (ht : hd.type = 6)
    (hv : byteAt hd.payload 0 = 1) (h4 : 4 ≤ hd.payload.length) :
    exec (.ackHusk l h) s = .next { s with
      dev := (s.dev.ackVc1 l (byteAt hd.payload 1) (byteAt hd.payload 2)).pumpLink l } := by
  rw [exec_received hp ht rfl, if_pos ⟨hv, h4⟩]

theorem exec_nakHusk {s : State} {l : LinkId} {h : RxHusk} {hd : HuskHdr} (hp : s.dev.Receives l h hd) (ht : hd.type = 7)
    (hv : byteAt hd.payload 0 = 1) (h4 : 4 ≤ hd.payload.length)
    (hn : ((s.dev.ackVc1 l (byteAt hd.payload 1) (byteAt hd.payload 2)).link l).unacked ≠ []) :
    exec (.nakHusk l h) s = .next { s with
      dev := ((((s.dev.ackVc1 l (byteAt hd.payload 1) (byteAt hd.payload 2)).replayVc1 l).pumpLink l).replayLimit l) } := by
  rw [exec_received hp ht rfl, if_pos ⟨hv, h4⟩]
  exact congrArg (fun d => Host.Outcome.next { s with dev := d }) (if_neg hn)

theorem Dev.modLink_congr {d : Dev} {l : LinkId} {f g : Link → Link} (h : f (d.link l) = g (d.link l)) :
    d.modLink l f = d.modLink l g :=
  congrArg (fun k => { d with links := d.links.set l.ix k }) h

/-- The Husks of VC1 that an acknowledgement up to NEXT leaves. -/
def Link.unackedFrom (k : Link) (next : Nat) : List TxHusk :=
  k.unacked.filter fun q => (next + 256 - q.seq) % 256 = 0 ∨ 127 < (next + 256 - q.seq) % 256

theorem Dev.ackVc1_eq (d : Dev) (l : LinkId) (next credit : Nat) :
    d.ackVc1 l next credit = d.modLink l fun k => { k with
      unacked := (d.link l).unackedFrom next,
      vc1Out := k.vc1Out.filter (fun h => ((d.link l).unackedFrom next).any fun q => q.seq == h.seq), txCredit := some credit,
      replays := if ((d.link l).unackedFrom next).length < k.unacked.length then 0 else k.replays } := by
  have hrest : ((d.link l).unacked.filter fun h =>
      !(decide (1 ≤ (next + 256 - h.seq) % 256) && decide ((next + 256 - h.seq) % 256 ≤ 127))) =
      (d.link l).unackedFrom next := by
    refine List.filter_congr fun q _ => ?_
    rw [← Bool.decide_and, ← decide_not, decide_eq_decide]
    omega
  refine Dev.modLink_congr ?_
  simp only [hrest]

/-- With nothing that waits, the transmitter sends nothing. -/
theorem Dev.pumpLink_of_empty {d : Dev} {l : LinkId} (ht : (d.link l).txWaiting = []) (he : (d.port l.port).events = []) :
    d.pumpLink l = d := by
  unfold Dev.pumpLink
  rw [ht, he]
  rfl

theorem Dev.ackVc1_pumpLink_of_empty {d : Dev} {l : LinkId} (next credit : Nat) (hw : (d.link l).txWaiting = [])
    (he : (d.port l.port).events = []) : (d.ackVc1 l next credit).pumpLink l = d.ackVc1 l next credit := by
  refine Dev.pumpLink_of_empty ?_ he
  rw [Dev.ackVc1_eq, Dev.link_modLink_self]
  exact hw

theorem Dev.replayVc1_link (d : Dev) (l : LinkId) :
    (d.replayVc1 l).link l = { d.link l with
      unacked := (d.link l).unacked.map (fun q => { q with retry := true }),
      vc1Out := (d.link l).unacked.map (fun q => { q with retry := true }),
      replays := (d.link l).replays + 1, replayHeld := false } := by
  unfold Dev.replayVc1
  rw [(Dev.count_only ..).link rfl, Dev.link_modLink_self]

theorem Dev.replayVc1_port (d : Dev) (l : LinkId) (p : Port) : (d.replayVc1 l).port p = d.port p := by
  have hh : (d.replayVc1 l).host = d.host := (d.replayVc1_only l).part .host rfl
  unfold Dev.port
  rw [hh]

theorem Dev.replayLimit_of_few {d : Dev} {l : LinkId} (h : (d.link l).replays < 4) : d.replayLimit l = d :=
  if_neg (Nat.not_le.2 h)

/-- The fourth replay without progress takes the link to RECOVERY. -/
theorem Dev.replayLimit_recovery {d : Dev} {l : LinkId} (h : 4 ≤ (d.link l).replays)
    (hs : (d.link l).state = .l0 ∨ (d.link l).state = .l1) : ((d.replayLimit l).link l).state = .recovery := by
  have hk : d.KeepsLinks ((d.modLink l fun k => { k with replays := 0 }).postFree (l.ev 0x09)) :=
    (d.modLink_keepsLinks l fun _ => by rfl).thenQuiet (Dev.postFree_quiet ..)
  unfold Dev.replayLimit Dev.retrain1
  rw [if_pos h, if_pos (by rwa [hk.state])]
  exact (Dev.toRecovery_link _ l).1

/-- A NAK that makes progress: what is left goes out again as the first replay. -/
theorem Dev.nakReplay_eq {d : Dev} {l : LinkId} {next : Nat} (credit : Nat) (hw : (d.link l).txWaiting = [])
    (he : (d.port l.port).events = []) (hp : ((d.link l).unackedFrom next).length < (d.link l).unacked.length) :
    (((d.ackVc1 l next credit).replayVc1 l).pumpLink l).replayLimit l = (d.ackVc1 l next credit).replayVc1 l ∧
    ((d.ackVc1 l next credit).replayVc1 l).link l = { d.link l with
      unacked := ((d.link l).unackedFrom next).map (fun q => { q with retry := true }),
      vc1Out := ((d.link l).unackedFrom next).map (fun q => { q with retry := true }),
      txCredit := some credit, replays := 1, replayHeld := false } := by
  have hlink := (d.ackVc1 l next credit).replayVc1_link l
  have hport := (d.ackVc1 l next credit).replayVc1_port l l.port
  rw [d.ackVc1_eq] at hlink hport ⊢
  rw [Dev.link_modLink_self, if_pos hp] at hlink
  refine ⟨?_, hlink⟩
  rw [Dev.pumpLink_of_empty (by rw [hlink]; exact hw) (by rw [hport]; exact he),
    Dev.replayLimit_of_few (by rw [hlink]; exact Nat.one_lt_succ_succ 2)]

/-- 50 µs without progress where Husks may go out, with no calibration run under way. -/
theorem exec_vc1ReplayTimeout {s : State} {l : LinkId} (hl : s.dev.linkIds.contains l = true)
    (hs : (s.dev.link l).streams = true) (hu : (s.dev.link l).unacked ≠ [])
    (hr : (s.dev.link l).receives = true ∨ (s.dev.link l).state = .l1) :
    exec (.vc1ReplayTimeout l) s = .next { s with dev := ((s.dev.replayVc1 l).replayLimit l).calAdvance } := by
  have hflow : ((s.dev.link l).receives || (s.dev.link l).state == .l1) = true := by simpa using hr
  show s.on (fun d => if d.linkIds.contains l then d.replayTimer l else d) = _
  rw [State.on, if_pos hl, Dev.replayTimer, if_neg (by simp [hs, hu]), if_pos hflow]

/-- The first three times what is not acknowledged goes out again. -/
theorem exec_vc1ReplayTimeout_again {s : State} {l : LinkId} (hl : s.dev.linkIds.contains l = true)
    (hs : (s.dev.link l).streams = true) (hu : (s.dev.link l).unacked ≠ [])
    (hr : (s.dev.link l).receives = true ∨ (s.dev.link l).state = .l1) (hcal : s.dev.cal.run = none)
    (hfew : (s.dev.link l).replays + 1 < 4) :
    exec (.vc1ReplayTimeout l) s = .next { s with dev := s.dev.replayVc1 l } := by
  have hrun : (s.dev.replayVc1 l).cal = s.dev.cal := (s.dev.replayVc1_only l).part .cal rfl
  rw [exec_vc1ReplayTimeout hl hs hu hr, Dev.replayLimit_of_few (by rw [Dev.replayVc1_link]; exact hfew),
    Dev.calAdvance_of_no_run (by rw [hrun, hcal])]

/-- Settles O50: an accepted Husk is taken and acts; ACK, NAK and the timer change the transmitter by the lemmas above. -/
theorem controlHusks : Obligations.ControlHusks := by
  unfold Obligations.ControlHusks
  refine ⟨?_, ?_, ?_, ?_⟩
  · intro s l h hd hl hr hk hs
    have hp : s.dev.Receives l h hd := ⟨hl, hr, hk⟩
    have hadv := Dev.takeVc1_link hs
    have hf := s.dev.takeVc1_only l
    refine ⟨fun ht => ⟨_, exec_mbxHusk hp hs ht, ?_, ?_⟩, fun ht => ⟨_, exec_fenceHusk hp hs ht, ?_, ?_⟩,
      fun ht => ⟨_, exec_syncHusk hp hs ht, ?_, ?_⟩⟩
    · exact Dev.only_then (Dev.mbxIn_only ..) (by decide) (hf.mono (by decide))
    · exact (Dev.mbxIn_keepsPhys ..).advanced hadv
    · exact Dev.only_then (Dev.fenceIn_only ..) (by decide) (hf.mono (by decide))
    · exact (Dev.fenceIn_keepsPhys ..).advanced hadv
    · exact Dev.only_then (Dev.syncIn_only ..) (by decide) (hf.mono (by decide))
    · obtain ⟨hnext, hcredit, hnak⟩ := (Dev.syncIn_keepsPhys _ l hd h.sohTime).advanced hadv
      refine ⟨hnext, hcredit, hnak, ?_⟩
      rintro diff ht rfl
      obtain ⟨hclose, hslewed, hforward, hbackward⟩ := Dev.syncIn_takeVc1_aligned (soh := h.sohTime) ht
      exact ⟨hclose, hslewed, hforward, hbackward⟩
  · intro s l h hd n f hl hr hk hs ht h8 hn hf hlen h1 h7 hi hc hnew
    have htake := s.dev.takeVc1_only l
    have hcmp : (s.dev.takeVc1 l).cmp = s.dev.cmp := htake.part .cmp rfl
    have hlayer : (s.dev.takeVc1 l).layer n = s.dev.layer n := by rw [Dev.layer, hcmp, ← Dev.layer]
    have he := Dev.fenceIn_future (d := s.dev.takeVc1 l) h8 hn hf h1 h7 (by rw [hlayer, hi]) (by rw [hlayer, hc])
      (by rw [hlayer, hnew])
    refine ⟨_, (exec_fenceHusk ⟨hl, hr, hk⟩ hs ht).trans (by rw [he]),
      Dev.only_then (Dev.modLayer_only ..) (by decide) (htake.mono (by decide)), ?_⟩
    exact (congrArg Layer.fences (Dev.layer_modLayer_self _ _ (by rwa [hcmp]))).trans (by rw [hlayer])
  · rintro s l h hd rest hl hr hk hv h4 rfl hw he
    have hp : s.dev.Receives l h hd := ⟨hl, hr, hk⟩
    refine ⟨fun ht => ?_, fun ht hne hlt => ?_⟩
    · rw [exec_ackHusk hp ht hv h4, Dev.ackVc1_pumpLink_of_empty _ _ hw he, Dev.ackVc1_eq]
      rfl
    · have hleft : ((s.dev.ackVc1 l (byteAt hd.payload 1) (byteAt hd.payload 2)).link l).unacked ≠ [] := by
        rw [Dev.ackVc1_eq, Dev.link_modLink_self]
        exact hne
      obtain ⟨heq, hlink⟩ := Dev.nakReplay_eq (byteAt hd.payload 2) hw he hlt
      refine ⟨_, (exec_nakHusk hp ht hv h4 hleft).trans (by rw [heq]),
        Dev.only_then (Dev.replayVc1_only ..) (by decide) ((Dev.ackVc1_only ..).mono (by decide)), ?_⟩
      simp only [hlink, Link.unackedFrom, and_self]
  · intro s l hl hs hu hr hcal
    have hlink := s.dev.replayVc1_link l
    refine ⟨fun hfew => ?_, fun hmany hst => ?_⟩
    · refine ⟨_, exec_vc1ReplayTimeout_again hl hs hu hr hcal hfew, s.dev.replayVc1_only l, ?_⟩
      simp only [hlink, and_self]
    · refine ⟨_, exec_vc1ReplayTimeout hl hs hu hr, ?_, ?_⟩
      · exact Dev.only_then (Dev.calAdvance_only _) (by decide) <| Dev.only_then (Dev.replayLimit_only ..) (by decide) <|
          (s.dev.replayVc1_only l).mono (by decide)
      · exact ((Dev.calAdvance_keepsLinks _).state l).trans
          (Dev.replayLimit_recovery (by rw [hlink]; exact hmany) (by rw [hlink]; exact hst))

end Sys2Proof.Machine
end

section
/-! Words written into the register map (O18). -/

namespace Sys2Proof.Machine

open Sys2Proof

/-! ### Words on the wire (R11) -/

theorem leBytes_length (n v : Nat) : (leBytes n v).length = n := by
  induction n generalizing v with
  | zero => rfl
  | succ n ih => exact congrArg (· + 1) (ih _)

theorem leNat_leBytes (n v : Nat) : leNat (leBytes n v) = v % 256 ^ n := by
  induction n generalizing v with
  | zero => exact (Nat.mod_one v).symm
  | succ n ih =>
    rw [leBytes, leNat, ih, BitVec.toNat_ofNat]
    exact (Nat.pow_succ' ▸ Nat.mod_mul).symm

/-- The four bytes of a word read as the word. -/
theorem leField_word (v : BitVec 32) : leField (leBytes 4 v.toNat) 0 4 = v.toNat :=
  (leNat_leBytes 4 v.toNat).trans (Nat.mod_eq_of_lt v.isLt)

theorem bitMap_testBit (l : List Bool) (i : Nat) : (bitMap l).testBit i = l.getD i false := by
  induction l generalizing i with
  | nil => exact Nat.zero_testBit i
  | cons b l ih =>
    cases i with
    | zero => cases b <;> simp [bitMap, b2n]
    | succ i =>
      have hb : b2n b < 2 := by cases b <;> decide
      have hhalf : bitMap (b :: l) / 2 = bitMap l := by
        rw [bitMap, Nat.add_mul_div_left _ _ (by decide), Nat.div_eq_of_lt hb, Nat.zero_add]
      rw [Nat.testBit_succ, hhalf, ih]
      rfl

/-! ### The map of a port -/

@[simp] theorem Dev.map_modMap_self (d : Dev) (p : RegPort) (f : RegMap → RegMap) : (d.modMap p f).map p = f (d.map p) := by
  cases p <;> rfl

@[simp] theorem Dev.modMap_hostPorts (d : Dev) (p : RegPort) (f : RegMap → RegMap) :
    (d.modMap p f).host.ports = d.host.ports := by
  cases p <;> rfl

@[simp] theorem Dev.modMap_mapOpen (d : Dev) (p : RegPort) (f : RegMap → RegMap) : (d.modMap p f).mapOpen = d.mapOpen := by
  cases p <;> rfl

theorem Dev.count_host (d : Dev) (key i k : Nat) : (d.count key i k).host = d.host := rfl

theorem Dev.map_congr {a b : Dev} (h : b.host = a.host) (p : RegPort) : b.map p = a.map p := by
  unfold Dev.map
  rw [h]

/-! ### Transactions (R87) -/

theorem Dev.transaction_of_short (d : Dev) (p : RegPort) {bs : List Byte} (h : bs.length < 3) : d.transaction p bs = d := by
  unfold Dev.transaction
  rw [if_pos h]

theorem Dev.transaction_of_badCommand (d : Dev) (p : RegPort) {bs : List Byte} (h : 3 ≤ bs.length) (h2 : byteAt bs 0 ≠ 2)
    (h3 : byteAt bs 0 ≠ 3) : d.transaction p bs = d.spiError p := by
  unfold Dev.transaction
  rw [if_neg (Nat.not_lt.2 h), if_pos (.inl ⟨h2, h3⟩)]

theorem Dev.writeWords_of_short (d : Dev) (p : RegPort) (n a : Nat) {bs : List Byte} (h : bs.length < 4) :
    d.writeWords p n a bs = d := by
  cases n with
  | zero => rfl
  | succ n => exact if_pos h

/-- A transaction that writes one word. -/
theorem Dev.transaction_writeWord (d : Dev) (p : RegPort) (lo hi : Byte) (v : BitVec 32) {a : Nat}
    (ha : a = lo.toNat + 256 * hi.toNat) (h4 : a % 4 = 0) :
    d.transaction p ([0x02, lo, hi] ++ leBytes 4 v.toNat) = d.regWrite p a v.toNat := by
  have hlen : ([0x02, lo, hi] ++ leBytes 4 v.toNat).length = 7 := by rw [List.length_append, leBytes_length]; rfl
  have haddr : leField ([0x02, lo, hi] ++ leBytes 4 v.toNat) 1 2 = a := by rw [ha]; simp [leField, leNat]
  have hone : d.writeWords p 7 a (leBytes 4 v.toNat) = d.regWrite p a v.toNat := by
    have hrest : ((leBytes 4 v.toNat).drop 4).length < 4 := by rw [List.length_drop, leBytes_length]; decide
    rw [Dev.writeWords, if_neg (by rw [leBytes_length]; decide), leField_word, Dev.writeWords_of_short _ _ _ _ hrest]
  unfold Dev.transaction
  rw [hlen, haddr, if_neg (by decide), if_neg (not_or.2 ⟨fun h => h.1 rfl, not_not.2 h4⟩)]
  exact (if_pos rfl).trans hone

/-- While the map is closed no word is written. -/
theorem Dev.regWrite_of_closed {d : Dev} (h : d.mapOpen = false) (p : RegPort) (a v : Nat) : d.regWrite p a v = d := by
  unfold Dev.regWrite
  rw [if_pos (by rw [h]; rfl)]

theorem Dev.writeWords_of_closed {d : Dev} (h : d.mapOpen = false) (p : RegPort) (n a : Nat) (bs : List Byte) :
    d.writeWords p n a bs = d := by
  induction n generalizing a bs with
  | zero => rfl
  | succ n ih =>
    unfold Dev.writeWords
    rw [Dev.regWrite_of_closed h, ih, ite_self]

theorem Dev.transaction_of_closed {d : Dev} (h : d.mapOpen = false) (p : RegPort) {bs : List Byte} (h2 : byteAt bs 0 = 2) :
    d.transaction p bs = d := by
  have herr : d.spiError p = d := by
    unfold Dev.spiError
    rw [if_neg fun e => Bool.false_ne_true (h.symm.trans e.2)]
  unfold Dev.transaction
  simp only [herr, if_pos h2, Dev.writeWords_of_closed h, ite_self]

/-! ### Words of the map -/

theorem Dev.regWrite_irqStatus {d : Dev} (h : d.mapOpen = true) (v : Nat) :
    d.regWrite .spi 0x0008 v = d.clearIrq (BitVec.ofNat 5 (v / 4)) := by
  unfold Dev.regWrite
  simp [h]

theorem Dev.regWrite_irqEnable {d : Dev} (h : d.mapOpen = true) (v : Nat) :
    d.regWrite .spi 0x000C v = d.modMap .spi fun m => { m with irqEnable := BitVec.ofNat 7 v } := by
  unfold Dev.regWrite
  simp [h]

theorem Dev.regWrite_doorbell {d : Dev} (h : d.mapOpen = true) (p : RegPort) (v : Nat) :
    d.regWrite p 0x0020 v = d.ringBell p (v % 16) := by
  unfold Dev.regWrite
  simp [h]

theorem Dev.regWrite_done {d : Dev} (h : d.mapOpen = true) (p : RegPort) (v : Nat) :
    d.regWrite p 0x0024 v = d.releaseDone p (v % 16) := by
  unfold Dev.regWrite
  simp [h]

/-- The lower word of a slot's command header. -/
theorem Dev.regWrite_cmdh {d : Dev} (h : d.mapOpen = true) (p : RegPort) {n : Nat} (hn : n < 4) (v : BitVec 32) :
    d.regWrite p (0x40 + 8 * n) v.toNat =
      d.writeSlotReg p n fun s => { s with cmdh := s.cmdh.extractLsb' 32 32 ++ v } := by
  have hhalf : ∀ x : Long, BitVec.ofNat 64 (x.toNat / 0x100000000 * 0x100000000 + v.toNat) = x.extractLsb' 32 32 ++ v := by
    intro x
    have hx := x.isLt
    have hv := v.isLt
    apply BitVec.eq_of_toNat_eq
    rw [BitVec.toNat_append, BitVec.toNat_ofNat, BitVec.extractLsb'_toNat, Nat.shiftRight_eq_div_pow,
      ← Nat.shiftLeft_add_eq_or_of_lt hv, Nat.shiftLeft_eq]
    omega
  unfold Dev.regWrite
  rw [if_neg (by rw [h]; decide), if_neg (by omega), if_neg (by omega), if_neg (by omega), if_neg (by omega),
    if_pos (by omega)]
  simp only [hhalf, if_pos (show (0x40 + 8 * n) % 8 = 0 by omega), show (0x40 + 8 * n - 0x40) / 8 = n by omega]

theorem Dev.regWrite_snapCtrl {d : Dev} (h : d.mapOpen = true) (p : RegPort) {v : Nat} (hv : v.testBit 0 = false) :
    d.regWrite p 0x0A00 v = { d with saf := { d.saf with snapNEn := v.testBit 16 } } := by
  unfold Dev.regWrite
  simp [h, hv]

/-- SPI_ERR is set, and the error counted. -/
theorem Dev.spiError_of_open {d : Dev} (h : d.mapOpen = true) :
    d.spiError .spi = (d.setIrq 4).count kHostSpiErrCount 0 1 := if_pos ⟨rfl, h⟩

/-- A bit that is written with 1 stays only where hardware set it in this tick. -/
theorem Dev.clearIrq_getLsbD (d : Dev) (w : BitVec 5) {i : Nat} (hi : i < 5) :
    (d.clearIrq w).host.spi.irqW1c.getLsbD i =
      (d.host.spi.irqW1c.getLsbD i && (!w.getLsbD i || d.host.spi.irqSetAt.getD i none == some d.now)) := by
  have hkeep : (d.host.spi.irqSetAt.map fun t => t == some d.now).getD i false =
      (d.host.spi.irqSetAt.getD i none == some d.now) := by
    rw [List.getD_eq_getElem?_getD, List.getD_eq_getElem?_getD, List.getElem?_map]
    cases d.host.spi.irqSetAt[i]? <;> rfl
  show (d.host.spi.irqW1c &&& (~~~ w ||| BitVec.ofNat 5 (bitMap _))).getLsbD i = _
  rw [BitVec.getLsbD_and, BitVec.getLsbD_or, BitVec.getLsbD_not, BitVec.getLsbD_ofNat, bitMap_testBit, hkeep]
  simp only [hi, decide_true, Bool.true_and]

theorem Dev.map_writeSlotReg (d : Dev) (p : RegPort) {n : Nat} (f : SlotRegs → SlotRegs) (hn : n < (d.map p).slots.length) :
    ((d.writeSlotReg p n f).map p).slots.getD n SlotRegs.reset =
      if ((d.map p).slots.getD n SlotRegs.reset).st = .free then f ((d.map p).slots.getD n SlotRegs.reset)
      else (d.map p).slots.getD n SlotRegs.reset := by
  unfold Dev.writeSlotReg
  rw [Dev.map_modMap_self]
  exact modAt_getD_self _ _ _ hn

/-- A command that acts on the block answers the block that its function comes to. -/
theorem exec_of_on {c : Instr} {s : State} {f : Dev → Dev} {e : Dev} (h : exec c s = s.on f) (he : f s.dev = e) :
    exec c s = .next { s with dev := e } := by
  rw [h, State.on, he]

theorem exec_registerWrite {s : State} {p : RegPort} {bytes : List Byte} {e : Dev} (h : s.dev.transaction p bytes = e) :
    exec (.registerWrite p bytes) s = .next { s with dev := e } :=
  exec_of_on (f := fun d => d.transaction p bytes) rfl h

/-- Settles O18: each write is the write of its word, by the lemmas above. -/
theorem registerWrites : Obligations.RegisterWrites := by
  unfold Obligations.RegisterWrites
  refine ⟨?_, ?_, ?_, ?_, ?_, ?_, ?_⟩
  · intro s p bytes h
    exact exec_registerWrite (s.dev.transaction_of_short p h)
  · intro s bytes hI h hne2 hne3 hopen
    have he : s.dev.transaction .spi bytes = (s.dev.setIrq 4).count kHostSpiErrCount 0 1 :=
      (s.dev.transaction_of_badCommand .spi h hne2 hne3).trans (Dev.spiError_of_open hopen)
    refine ⟨_, exec_registerWrite he, ?_, rfl, rfl, ?_⟩
    · exact Dev.only_then (Dev.count_only ..) (by decide) ((s.dev.setIrq_only 4).mono (by decide))
    · exact Dev.par_count_self (d := s.dev.setIrq 4) 0 1 (by decide) hI.vals
  · intro s v hopen
    have he := (s.dev.transaction_writeWord .spi 0x0C 0x00 v (a := 0x000C) rfl rfl).trans (Dev.regWrite_irqEnable hopen _)
    exact exec_registerWrite he
  · intro s v hopen
    have he := (s.dev.transaction_writeWord .spi 0x08 0x00 v (a := 0x0008) rfl rfl).trans (Dev.regWrite_irqStatus hopen _)
    refine ⟨_, exec_registerWrite he, Dev.clearIrq_only .., rfl, fun i hi => ?_⟩
    have hbit : (BitVec.ofNat 5 (v.toNat / 4)).getLsbD i = v.getLsbD (i + 2) := by
      rw [BitVec.getLsbD_ofNat, show v.toNat / 4 = v.toNat / 2 ^ 2 from rfl, Nat.testBit_div_two_pow, decide_eq_true hi,
        Bool.true_and, BitVec.getLsbD]
    rw [Dev.clearIrq_getLsbD _ _ hi, hbit]
  · intro s p n v hopen hslot hn
    have he := (s.dev.transaction_writeWord p (BitVec.ofNat 8 (0x40 + 8 * n)) 0x00 v (a := 0x40 + 8 * n)
      (by simp; omega) (by omega)).trans (Dev.regWrite_cmdh hopen p hn v)
    refine ⟨_, exec_registerWrite he, Dev.writeSlotReg_only .., ?_⟩
    exact s.dev.map_writeSlotReg p _ hslot
  · intro s p v hopen hv
    have he := (s.dev.transaction_writeWord p 0x00 0x0A v (a := 0x0A00) rfl rfl).trans (Dev.regWrite_snapCtrl hopen p hv)
    exact exec_registerWrite he
  · intro s p bytes hclosed h2
    exact exec_registerWrite (Dev.transaction_of_closed hclosed p h2)

end Sys2Proof.Machine
end

section
/-! The other register commands: doorbells, DONE, TIME_LO, the event window, the trigger and DBG_MBX (O19). -/

namespace Sys2Proof.Machine

open Sys2Proof

/-! ### DONE (R89) -/

/-- DONE bits of a write, slot by slot. -/
theorem Dev.map_releaseDone {d : Dev} (h : d.mapOpen = true) (p : RegPort) (w n : Nat) :
    ((d.releaseDone p w).map p).slots.getD n SlotRegs.reset =
      if w.testBit n = true ∧ ((d.map p).slots.getD n SlotRegs.reset).st = .done ∧
          ((d.map p).slots.getD n SlotRegs.reset).doneAt ≠ some d.now
      then { (d.map p).slots.getD n SlotRegs.reset with st := .free }
      else (d.map p).slots.getD n SlotRegs.reset := by
  unfold Dev.releaseDone
  rw [if_pos h, Dev.map_modMap_self]
  simp only [List.getD_eq_getElem?_getD, List.getElem?_mapIdx]
  cases (d.map p).slots[n]? with
  | none => exact (if_neg fun e => absurd e.2.1 (by decide)).symm
  | some x => simp [and_assoc]

/-! ### Doorbells (R89) -/

/-- A doorbell of one slot. -/
theorem Dev.ringBell_one {d : Dev} {p : RegPort} (h : d.serves p.port = true) {n : Nat} (hn : n < 4) :
    d.ringBell p (2 ^ n) = d.ringSlot p n := by
  have hone : (List.range 4).filter (fun k => (2 ^ n).testBit k) = [n] := by
    interval_cases n <;> rfl
  unfold Dev.ringBell
  rw [if_pos h, hone]
  rfl

theorem Dev.regWrite_ringOne {d : Dev} {p : RegPort} (hopen : d.mapOpen = true) (h : d.serves p.port = true) {n : Nat}
    (hn : n < 4) : d.regWrite p 0x0020 (BitVec.ofNat 32 (2 ^ n)).toNat = d.ringSlot p n := by
  have hbits : (BitVec.ofNat 32 (2 ^ n)).toNat % 16 = 2 ^ n := by interval_cases n <;> rfl
  rw [Dev.regWrite_doorbell hopen, hbits, Dev.ringBell_one h hn]

/-- A doorbell of a slot that is not FREE. -/
theorem Dev.ringSlot_of_busy {d : Dev} {p : RegPort} {n : Nat} (h : ((d.map p).slots.getD n SlotRegs.reset).st ≠ .free) :
    d.ringSlot p n = (if p = .spi then d.setIrq 4 else d).count kHostDoorbellViol p.port.ix 1 := if_pos h

/-- The command that a slot's registers hold. -/
def SlotRegs.cmd (x : SlotRegs) : Cmd :=
  { cmdOf x.cmdh.toNat [] with payload := x.payload.take (cmdOf x.cmdh.toNat []).len }

/-- The slot's doorbell makes it OPEN. -/
def Dev.openSlot (d : Dev) (p : RegPort) (n : Nat) : Dev :=
  d.modMap p fun m => { m with slots := modAt m.slots n fun s => { s with st := .open_ } }

theorem Dev.ringSlot_of_free {d : Dev} {p : RegPort} {n : Nat} (h : ((d.map p).slots.getD n SlotRegs.reset).st = .free) :
    d.ringSlot p n = (d.openSlot p n).accept p.port n ((d.map p).slots.getD n SlotRegs.reset).cmd true :=
  if_neg (not_not.2 h)

/-- A command that no check refuses is open, on a port with room (R96). -/
theorem Dev.accept_of_admitted {d : Dev} {p : Port} (slot : Nat) {c : Cmd} {carried : Bool} (hs : d.serves p = true)
    (hc : d.cacheHit p c = none) (hroom : p = .spi ∨ p = .jtag ∨ (d.port p).opens.length < 4) (ht : d.tagOpen p c.tag = false)
    (ha : d.admissionCheck p c carried = none) : d.accept p slot c carried = d.openCmd p slot c := by
  have hfull : ¬(p ≠ .spi ∧ p ≠ .jtag ∧ 4 ≤ (d.port p).opens.length) := by
    rintro ⟨hspi, hjtag, hfour⟩
    rcases hroom with h | h | h
    · exact hspi h
    · exact hjtag h
    · exact absurd h (Nat.not_lt.2 hfour)
  unfold Dev.accept
  simp only [hs, hc, ht, ha, if_neg hfull, Bool.not_true, Bool.false_eq_true, if_false]

theorem Dev.openCmd_opens (d : Dev) {p : Port} (slot : Nat) (c : Cmd) (h : p.ix < d.host.ports.length) :
    ((d.openCmd p slot c).port p).opens = (d.port p).opens ++
      [{ cmd := c, slot := slot, stage := .queued, pendingSent := false, admitted := d.now }] := by
  unfold Dev.openCmd
  rw [Dev.port_modPort_self _ _ _ h]

/-- Admission looks at the ports, the device state and the settings of the mailbox; an OPEN slot leaves all of them. -/
theorem Dev.openSlot_admission (d : Dev) (r : RegPort) (n : Nat) (p : Port) (c : Cmd) :
    (d.openSlot r n).serves p = d.serves p ∧ (d.openSlot r n).cacheHit p c = d.cacheHit p c ∧
    (d.openSlot r n).tagOpen p c.tag = d.tagOpen p c.tag ∧
    (d.openSlot r n).admissionCheck p c true = d.admissionCheck p c true ∧ (d.openSlot r n).now = d.now ∧
    (d.openSlot r n).port p = d.port p := by
  cases r <;> exact ⟨rfl, rfl, rfl, rfl, rfl, rfl⟩

theorem Dev.openSlot_st (d : Dev) (p : RegPort) {n : Nat} (h : n < (d.map p).slots.length) :
    (((d.openSlot p n).map p).slots.getD n SlotRegs.reset).st = .open_ := by
  unfold Dev.openSlot
  rw [Dev.map_modMap_self]
  exact congrArg SlotRegs.st (modAt_getD_self _ _ _ h)

theorem Dev.map_modPort (d : Dev) (r : RegPort) (p : Port) (f : PortState → PortState) : (d.modPort p f).map r = d.map r := by
  cases r <;> rfl

/-- The doorbell of a FREE slot whose command passes admission. -/
theorem Dev.ringSlot_admitted {d : Dev} {p : RegPort} {n : Nat} (hs : d.serves p.port = true)
    (hf : ((d.map p).slots.getD n SlotRegs.reset).st = .free) {c : Cmd} (hcmd : c = ((d.map p).slots.getD n SlotRegs.reset).cmd)
    (hc : d.cacheHit p.port c = none) (ht : d.tagOpen p.port c.tag = false) (ha : d.admissionCheck p.port c true = none) :
    d.ringSlot p n = (d.openSlot p n).openCmd p.port n c := by
  obtain ⟨hs', hc', ht', ha', -, -⟩ := d.openSlot_admission p n p.port c
  rw [Dev.ringSlot_of_free hf, ← hcmd]
  refine Dev.accept_of_admitted n (hs'.trans hs) (hc'.trans hc) ?_ (ht'.trans ht) (ha'.trans ha)
  cases p
  · exact .inl rfl
  · exact .inr (.inl rfl)

/-! ### Reads (R87, R90, R103) -/

theorem Dev.responds_of_open {d : Dev} (h : d.mapOpen = true) : d.responds = true := by
  unfold Dev.responds
  rw [h]
  rfl

/-- A word is read out where the map is open: no free value is drawn. -/
theorem Dev.regRead_of_open {d : Dev} (h : d.mapOpen = true) (p : RegPort) (a : Nat) :
    d.regRead p a = (if a = 0x0010 then { d with host := { d.host with timeHi := BitVec.ofNat 32 (d.now / 0x100000000) } }
      else d).modMap p fun m => { m with
        lastRead := BitVec.ofNat 32 (d.regWord p a), readOut := m.readOut ++ [BitVec.ofNat 32 (d.regWord p a)] } := by
  unfold Dev.regRead
  simp only [Dev.responds_of_open h, h, and_true, if_true]

theorem Dev.regWord_timeLo {d : Dev} (h : d.mapOpen = true) (p : RegPort) : d.regWord p 0x0010 = d.now % 0x100000000 := by
  unfold Dev.regWord
  simp [Dev.responds_of_open h, h]

/-- What stands in the map does not hang on what the last transaction read out. -/
theorem Dev.startRead_regWord (d : Dev) (p q : RegPort) (a : Nat) : (d.startRead p).regWord q a = d.regWord q a := by
  cases p <;> cases q <;> rfl

theorem Dev.regRead_ports (d : Dev) (p : RegPort) (a : Nat) : (d.regRead p a).host.ports = d.host.ports := by
  unfold Dev.regRead
  rw [Dev.modMap_hostPorts]
  split <;> split <;> rfl

theorem Dev.regRead_lastRead (d : Dev) (p : RegPort) (a : Nat) :
    ((d.regRead p a).map p).lastRead = BitVec.ofNat 32 (d.regWord p a) := by
  unfold Dev.regRead
  rw [Dev.map_modMap_self]

theorem Dev.regRead_readOut (d : Dev) (p : RegPort) (a : Nat) :
    ((d.regRead p a).map p).readOut = (d.map p).readOut ++ [((d.regRead p a).map p).lastRead] := by
  unfold Dev.regRead
  rw [Dev.map_modMap_self]
  cases p <;> split <;> split <;> rfl

/-- A read of TIME_LO latches the upper word of the time base (Table 4-7). -/
theorem Dev.regRead_timeHi {d : Dev} (h : d.mapOpen = true) (p : RegPort) :
    (d.regRead p 0x0010).host.timeHi = BitVec.ofNat 32 (d.now / 0x100000000) := by
  rw [Dev.regRead_of_open h, if_pos rfl]
  cases p <;> rfl

/-- A read out of an open map touches the mailbox only. -/
theorem Dev.regRead_only_of_open {d : Dev} (h : d.mapOpen = true) (p : RegPort) (a : Nat) :
    d.onlyChanges (d.regRead p a) [.host] := by
  rw [Dev.regRead_of_open h]
  refine Dev.only_then (Dev.modMap_only ..) (by decide) (Dev.only_ite (fun _ => ?_) fun _ => d.only_refl _)
  exact Dev.only_set (d.only_refl _) (fun q hq => by cases q <;> first | rfl | exact absurd (by decide) hq) rfl

theorem Dev.regRead_mapOpen (d : Dev) (p : RegPort) (a : Nat) : (d.regRead p a).mapOpen = d.mapOpen := by
  have hc : (d.regRead p a).core = d.core := (d.regRead_only p a).part .core rfl
  unfold Dev.mapOpen
  rw [hc]

theorem Dev.popEvent_events {d : Dev} (h : d.mapOpen = true) {p : RegPort} (hp : p.port.ix < d.host.ports.length) :
    ((d.popEvent p).port p.port).events = (d.port p.port).events.drop 1 := by
  unfold Dev.popEvent
  rw [if_pos h, Dev.port_modPort_self _ _ _ hp]

/-! ### The trigger (R366) -/

/-- A trigger in a tick without another: one latch of every unit. -/
theorem Dev.snapshot_saf {d : Dev} (h : d.latchTick ≠ some (d.now + 1)) {src : Nat} (hs : src ≠ 4) :
    (d.snapshot src).saf = { d.saf with
      snapSeq := d.saf.snapSeq + 1, snapCount := (d.saf.snapCount + 1) % 256, lastSrc := src,
      live := d.latchRecords src (d.saf.snapSeq + 1) (d.now + 1) } := by
  unfold Dev.snapshot
  extract_lets again seq src' recs hold s1 d1
  have hagain : again = false := beq_false_of_ne h
  have hhold : hold = false := by simp [hold, hs]
  rw [hagain, if_neg (by decide), (Dev.quiet_trans (d1.setIrq_quiet 3) (Dev.post_quiet ..)).saf]
  simp [d1, s1, recs, seq, src', hagain, hhold]

/-! ### DBG_MBX (R90) -/

theorem Dev.debugUpdate_read {d : Dev} {dr : Nat} (h : dr.testBit 0 = false) (ha : bitsOf dr 2 16 % 4 = 0) :
    d.debugUpdate dr = (d.startRead .jtag).regRead .jtag (bitsOf dr 2 16) := by
  unfold Dev.debugUpdate
  rw [if_neg (not_not.2 ha), if_neg (by rw [h]; decide)]

/-! ### The commands -/

theorem exec_mbxDoorbell {s : State} {p : RegPort} {n : Nat} (hopen : s.dev.mapOpen = true) (hs : s.dev.serves p.port = true)
    (hn : n < 4) :
    exec (.mbxDoorbell p (BitVec.ofNat 32 (2 ^ n))) s = .next { s with dev := s.dev.ringSlot p n } :=
  exec_of_on (f := fun d => d.regWrite p 0x0020 _) rfl (Dev.regWrite_ringOne hopen hs hn)

theorem exec_mbxDoneRelease {s : State} (hopen : s.dev.mapOpen = true) (p : RegPort) (w : Word) :
    exec (.mbxDoneRelease p w) s = .next { s with dev := s.dev.releaseDone p (w.toNat % 16) } :=
  exec_of_on (f := fun d => d.regWrite p 0x0024 _) rfl (Dev.regWrite_done hopen p w.toNat)

theorem exec_timeLoRead (s : State) (p : RegPort) :
    exec (.timeLoRead p) s = .next { s with dev := (s.dev.startRead p).regRead p 0x0010 } := rfl

theorem exec_evtFifoPop (s : State) (p : RegPort) (complete : Bool) :
    exec (.evtFifoPop p complete) s = .next { s with
      dev := if complete then ((s.dev.startRead p).regRead p 0x090C).popEvent p
        else (s.dev.startRead p).regRead p 0x090C } := rfl

theorem exec_dbgMbxUpdate {s : State} {dr : BitVec 50} (hir : s.dev.jtag.ir = 0x10) (hw : dr.getLsbD 0 = false)
    (ha : bitsOf dr.toNat 2 16 % 4 = 0) :
    exec (.dbgMbxUpdate dr) s = .next { s with dev := (s.dev.startRead .jtag).regRead .jtag (bitsOf dr.toNat 2 16) } :=
  exec_of_on (f := fun d => if d.jtag.ir = 0x10 then d.debugUpdate dr.toNat else d) rfl
    ((if_pos hir).trans (Dev.debugUpdate_read hw ha))

/-- Settles O19: DONE and doorbells slot by slot, reads word by word, and the trigger, by the lemmas above. -/
theorem registerEvents : Obligations.RegisterEvents := by
  unfold Obligations.RegisterEvents
  refine ⟨?_, ?_, ?_, ?_, ?_, ?_, ?_, ?_, ?_⟩
  · intro s p w hopen
    refine ⟨_, exec_mbxDoneRelease hopen p w, (Dev.releaseDone_only ..).mono (by decide), ?_, fun n => ?_⟩
    · unfold Dev.releaseDone
      rw [if_pos hopen, Dev.modMap_hostPorts]
    · have hbit : (w.toNat % 16).testBit n = true ↔ n < 4 ∧ w.getLsbD n = true := by
        rw [show (16 : Nat) = 2 ^ 4 from rfl, Nat.testBit_mod_two_pow, BitVec.getLsbD, Bool.and_eq_true, decide_eq_true_eq]
      rw [Dev.map_releaseDone hopen]
      simp only [hbit, and_assoc]
  · intro s p n hI hopen hs hn hbusy
    have hset : ∀ q : RegPort, (s.dev.setIrq 4).host.ports = s.dev.host.ports ∧
        ((s.dev.setIrq 4).map q).slots = (s.dev.map q).slots := fun q => by cases q <;> exact ⟨rfl, rfl⟩
    refine ⟨_, (exec_mbxDoorbell hopen hs hn).trans (by rw [Dev.ringSlot_of_busy hbusy]), ?_, ?_, ?_, ?_, ?_⟩
    · refine Dev.only_then (Dev.count_only ..) (by decide) (Dev.only_ite (fun _ => ?_) fun _ => s.dev.only_refl _)
      exact (s.dev.setIrq_only 4).mono (by decide)
    · rw [Dev.count_host]
      split
      · exact (hset p).1
      · rfl
    · rw [Dev.map_congr (Dev.count_host ..)]
      split
      · exact (hset p).2
      · rfl
    · rintro rfl
      rfl
    · have hv : (if p = .spi then s.dev.setIrq 4 else s.dev).prm = s.dev.prm := by split <;> rfl
      refine (Dev.par_count_self (t := 0xFFFFFFFF) p.port.ix 1 (by decide) (by rw [hv]; exact hI.vals)).trans ?_
      split <;> rfl
  · rintro s p n hopen hs hn hslot hport hf c rfl hc ht ha
    refine ⟨_, (exec_mbxDoorbell hopen hs hn).trans (by rw [Dev.ringSlot_admitted hs hf rfl hc ht ha]), ?_, ?_, ?_⟩
    · exact Dev.only_then (Dev.openCmd_only ..) (by decide) ((s.dev.modMap_only p _).mono (by decide))
    · have hmap : ∀ c, ((s.dev.openSlot p n).openCmd p.port n c).map p = (s.dev.openSlot p n).map p :=
        fun c => Dev.map_modPort ..
      rw [hmap]
      exact s.dev.openSlot_st p hslot
    · obtain ⟨-, -, -, -, hnow, hbox⟩ := s.dev.openSlot_admission p n p.port
        ((s.dev.map p).slots.getD n SlotRegs.reset).cmd
      refine (Dev.openCmd_opens _ n _ ?_).trans (by rw [hnow, hbox]; rfl)
      rwa [Dev.openSlot, Dev.modMap_hostPorts]
  · intro s p hopen
    have hopen' : (s.dev.startRead p).mapOpen = true := (Dev.modMap_mapOpen ..).trans hopen
    have hnow : (s.dev.startRead p).now = s.dev.now := congrArg Clk.timeBase ((s.dev.startRead_only p).part .clk rfl)
    refine ⟨_, exec_timeLoRead s p, ?_, ?_, ?_, ?_, ?_⟩
    · exact Dev.only_then (Dev.regRead_only_of_open hopen' p _) (by decide) ((s.dev.startRead_only p).mono (by decide))
    · rw [Dev.regRead_timeHi hopen', hnow, BitVec.toNat_ofNat, show 0x100000000 = 2 ^ 32 from rfl]
    · rw [Dev.regRead_lastRead, Dev.regWord_timeLo hopen', hnow, BitVec.toNat_ofNat]
      exact Nat.mod_mod _ _
    · exact (Dev.regRead_readOut ..).trans (by rw [Dev.startRead, Dev.map_modMap_self]; rfl)
    · exact (Dev.regRead_ports ..).trans (Dev.modMap_hostPorts ..)
  · intro s p hopen hp
    have hopen' : (s.dev.startRead p).mapOpen = true := (Dev.modMap_mapOpen ..).trans hopen
    have hread : ((s.dev.startRead p).regRead p 0x090C).host.ports = s.dev.host.ports :=
      (Dev.regRead_ports ..).trans (Dev.modMap_hostPorts ..)
    refine ⟨_, exec_evtFifoPop s p true, ?_, ?_⟩
    · exact Dev.only_then (Dev.popEvent_only ..) (by decide) <|
        Dev.only_then (Dev.regRead_only_of_open hopen' p _) (by decide) ((s.dev.startRead_only p).mono (by decide))
    · show (Dev.port (Dev.popEvent ..) _).events = _
      rw [Dev.popEvent_events ((Dev.regRead_mapOpen ..).trans hopen') (by rwa [hread]), Dev.port, hread, ← Dev.port]
  · intro s p hopen
    have hopen' : (s.dev.startRead p).mapOpen = true := (Dev.modMap_mapOpen ..).trans hopen
    refine ⟨_, exec_evtFifoPop s p false, ?_, ?_⟩
    · exact Dev.only_then (Dev.regRead_only_of_open hopen' p _) (by decide) ((s.dev.startRead_only p).mono (by decide))
    · exact (Dev.regRead_ports ..).trans (Dev.modMap_hostPorts ..)
  · intro s p hopen hl
    have hsaf := Dev.snapshot_saf hl (src := 3) (by decide)
    refine ⟨_, exec_of_on rfl (if_pos hopen), (Dev.snapshot_only ..).mono (by decide), ?_, ?_⟩
    · rw [hsaf]
    · rw [hsaf]
      rfl
  · intro s dr hir hw ha
    refine ⟨_, exec_dbgMbxUpdate hir hw ha, ?_, ?_, ?_⟩
    · exact Dev.only_then (Dev.regRead_only ..) (by decide) ((s.dev.startRead_only .jtag).mono (by decide))
    · exact (Dev.regRead_lastRead _ .jtag _).trans (by rw [Dev.startRead_regWord])
    · rw [Dev.regRead_ports]
      rfl
  · intro s dr hir
    exact exec_of_on (f := fun d => if d.jtag.ir = 0x10 then d.debugUpdate dr.toNat else d) rfl (if_neg hir)

end Sys2Proof.Machine
end

section
/-! ABORT and SET_COMPAT_LEVEL (O22). -/

namespace Sys2Proof.Machine

open Sys2Proof

/-! ### What a final status leaves of its port (R98) -/

/-- The tag is open no more, and its entry stands first in the cache. -/
theorem Dev.finish_port {d : Dev} {p : Port} {tag : Nat} (st : Nat) (b : List Byte) (h : d.tagOpen p tag = true) :
    ((d.finish p tag st b).port p).opens = (d.port p).opens.filter (fun c => c.cmd.tag != tag) ∧
    ∃ e : CacheEntry, e.tag = tag ∧ e.status = st ∧
      ((d.finish p tag st b).port p).cache = (e :: (d.port p).cache.filter fun e => e.tag != tag).take 16 := by
  have hl := Dev.tagOpen_lt h
  unfold Dev.finish
  split
  · next hf =>
    obtain ⟨o, ho, ht⟩ := List.any_eq_true.1 h
    exact absurd ht (List.find?_eq_none.1 hf o ho)
  · next c hf =>
    extract_lets e d1 d2
    have h1 : d1.port p = { d.port p with
        opens := (d.port p).opens.filter (fun c => c.cmd.tag != tag),
        cache := (e :: (d.port p).cache.filter fun e => e.tag != tag).take 16 } := d.port_modPort_self p _ hl
    have h2 : d1.sameBox d2 := Dev.respond_sameBox ..
    have hbox : d1.sameBox (if c.pendingSent = true then d2.post 0x0301 (tag + 0x100 * st + 0x10000 * p.ix) else d2) := by
      split
      · exact Dev.sameBox_trans h2 (Dev.post_sameBox ..)
      · exact h2
    obtain ⟨hopens, hcache⟩ := hbox.box p
    rw [h1] at hopens hcache
    exact ⟨hopens, e, rfl, rfl, hcache⟩

/-- A final status leaves the other tags of its port open. -/
theorem Dev.finish_tagOpen_ne {d : Dev} {p : Port} {tag t : Nat} (st : Nat) (b : List Byte) (h : d.tagOpen p tag = true)
    (ht : t ≠ tag) : (d.finish p tag st b).tagOpen p t = d.tagOpen p t := by
  unfold Dev.tagOpen
  rw [(Dev.finish_port st b h).1, List.any_filter]
  refine congrArg (List.any _) (funext fun c => ?_)
  by_cases hc : c.cmd.tag = t
  · simp [hc, ht]
  · simp [hc]

/-- The last two commands that ended on a port are in its cache. -/
theorem Dev.finish_finish_cache {d : Dev} {p : Port} {tag t : Nat} (st st' : Nat) (b b' : List Byte)
    (h : d.tagOpen p tag = true) (h' : (d.finish p tag st b).tagOpen p t = true) (ht : t ≠ tag) :
    (((d.finish p tag st b).finish p t st' b').port p).cache.any (fun e => e.tag == tag && e.status == st) = true := by
  obtain ⟨-, e, he, hst, hcache⟩ := Dev.finish_port st b h
  obtain ⟨-, e', -, -, hcache'⟩ := Dev.finish_port st' b' h'
  have hne : (e.tag != t) = true := by rw [he]; exact bne_iff_ne.2 ht.symm
  rw [hcache', hcache, List.take_succ_cons, List.take_succ_cons,
    List.filter_cons_of_pos (p := fun e : CacheEntry => e.tag != t) hne, List.take_succ_cons]
  simp [he, hst]

/-! ### The target of an ABORT (R101) -/

theorem Dev.tagOpen_of_find {d : Dev} {p : Port} {t : Nat} {o : OpenCmd}
    (h : ((d.port p).opens.find? fun x => x.cmd.tag == t) = some o) : o.cmd.tag = t ∧ d.tagOpen p t = true :=
  have htag := List.find?_some (p := fun x : OpenCmd => x.cmd.tag == t) h
  ⟨eq_of_beq htag, List.any_eq_true.2 ⟨o, List.mem_of_find?_eq_some h, htag⟩⟩

theorem exec_abort {s : State} {p : Port} {c : Cmd} {e : Dev} (h : s.dev.serving p opAbort c)
    (he : s.dev.abortCmd p c.tag (byteAt c.payload 0) = e) : exec (.abort p) s = .next { s with dev := e } :=
  exec_of_on (f := fun d => d.serve p opAbort noCheck fun c => d.abortCmd p c.tag (byteAt c.payload 0)) rfl
    ((Dev.serve_eq h rfl).trans he)

/-- ABORT of a command that waits its turn. -/
theorem Dev.abortCmd_of_queued {d : Dev} {p : Port} {tag t : Nat} {o : OpenCmd}
    (h : ((d.port p).opens.find? fun x => x.cmd.tag == t) = some o) (ha : d.abortable p o = true) (hq : o.stage = .queued) :
    d.abortCmd p tag t = (d.finish p t stAborted []).finish p tag stOk [] := by
  have he : d.abortOpen p o = d.finish p t stAborted [] := by
    unfold Dev.abortOpen
    rw [if_pos hq, (Dev.tagOpen_of_find h).1]
    rfl
  unfold Dev.abortCmd
  simp only [h, ha, if_true, he]
  rfl

theorem Dev.abortCmd_of_unabortable {d : Dev} {p : Port} {tag t : Nat} {o : OpenCmd}
    (h : ((d.port p).opens.find? fun x => x.cmd.tag == t) = some o) (ha : d.abortable p o = false) :
    d.abortCmd p tag t = d.finish p tag stBusy [] := by
  unfold Dev.abortCmd
  simp only [h, ha, Bool.false_eq_true, if_false]
  rfl

theorem Dev.abortCmd_of_closed {d : Dev} {p : Port} {tag t : Nat} (h : d.tagOpen p t = false) :
    d.abortCmd p tag t =
      d.finish p tag (if (d.port p).cache.any fun e => e.tag == t then stAlreadyDone else stBadArg) [] := by
  have hfind : ((d.port p).opens.find? fun x => x.cmd.tag == t) = none :=
    List.find?_eq_none.2 fun o ho => List.any_eq_false.1 h o ho
  unfold Dev.abortCmd
  rw [hfind]
  dsimp only
  split <;> rfl

/-! ### SET_COMPAT_LEVEL (R104) -/

theorem exec_setCompatLevel {s : State} {p : Port} {c : Cmd} {e : Dev} (h : s.dev.serving p opSetCompat c)
    (he : (if leField c.payload 0 2 = 1 then
      ({ s.dev with core := { s.dev.core with activeCl := 1 } }).finishWith p c.tag stOk
      else s.dev.finishWith p c.tag stCompat) = e) : exec (.setCompatLevel p) s = .next { s with dev := e } :=
  exec_of_on (f := fun d => d.serve p opSetCompat noCheck fun c =>
    if leField c.payload 0 2 = 1 then ({ d with core := { d.core with activeCl := 1 } }).finishWith p c.tag stOk
    else d.finishWith p c.tag stCompat) rfl
    ((Dev.serve_eq h rfl).trans he)

/-- Settles O22: an ABORT by what its target is, and SET_COMPAT_LEVEL by the level. -/
theorem abortAndLevel : Obligations.AbortAndLevel := by
  unfold Obligations.AbortAndLevel
  refine ⟨?_, ?_, ?_, ?_, ?_⟩
  · intro s p c o hserve hne hfind ha hq
    have hopen := (Dev.tagOpen_of_find hfind).2
    have hself : (s.dev.finish p (byteAt c.payload 0) stAborted []).tagOpen p c.tag = true :=
      (Dev.finish_tagOpen_ne _ _ hopen hne).trans (Dev.serving_open hserve)
    refine ⟨_, exec_abort hserve (Dev.abortCmd_of_queued hfind ha hq), ?_, ?_, ?_, ?_⟩
    · exact Dev.quiet_trans (Dev.finish_quiet ..) (Dev.finish_quiet ..)
    · exact Dev.finish_answered _ _ hself
    · exact (Dev.finish_tagOpen_ne _ _ hself hne.symm).trans (Dev.finish_answered _ _ hopen).1
    · exact Dev.finish_finish_cache _ _ _ _ hopen hself hne
  · intro s p c o hserve hfind ha
    exact ⟨_, exec_abort hserve (Dev.abortCmd_of_unabortable hfind ha), Dev.finish_quiet ..,
      Dev.finish_answered _ _ (Dev.serving_open hserve)⟩
  · intro s p c hserve hclosed
    exact ⟨_, exec_abort hserve (Dev.abortCmd_of_closed hclosed), Dev.finish_quiet ..,
      Dev.finish_answered _ _ (Dev.serving_open hserve)⟩
  · intro s p c hserve hlevel
    exact ⟨_, exec_setCompatLevel hserve (if_pos hlevel), Dev.finish_quiet ..,
      Dev.finish_answered _ _ (Dev.serving_open hserve)⟩
  · intro s p c hserve hlevel
    exact ⟨_, exec_setCompatLevel hserve (if_neg hlevel), Dev.finish_quiet ..,
      Dev.finish_answered _ _ (Dev.serving_open hserve)⟩

end Sys2Proof.Machine
end

section
/-! Mailbox messages on CAN (O33). -/

namespace Sys2Proof.Machine

open Sys2Proof

/-! ### The message in collection (R92) -/

/-- A segment that is FIRST starts a message. -/
theorem canJoin_first (cur : Option CanRx) {seg : Nat} (h : seg.testBit 0 = true) (body : List Byte) :
    canJoin cur seg body = some { bytes := body, segments := 1, whole := seg.testBit 1 || body.length == 63 } := if_pos h

/-- A later segment joins the message in collection, if there is one. -/
theorem canJoin_later (cur : Option CanRx) {seg : Nat} (h : seg.testBit 0 = false) (body : List Byte) :
    canJoin cur seg body = cur.map fun m => { bytes := m.bytes ++ body, segments := m.segments + 1,
                                              whole := m.whole && (seg.testBit 1 || body.length == 63) } :=
  if_neg (by rw [h]; decide)

/-- A segment that is not LAST leaves a message in collection. -/
theorem Dev.canFrame_of_more {d : Dev} {seg : Byte} {body : List Byte} {m : CanRx}
    (hj : canJoin d.host.canRx seg.toNat body = some m) (hl : seg.toNat.testBit 1 = false) :
    d.canFrame (seg :: body) = d.canMessage (some m) := by
  unfold Dev.canFrame
  simp only [hj, hl, Bool.false_eq_true, if_false]

/-- The LAST segment hands the message over. -/
theorem Dev.canFrame_of_last {d : Dev} {seg : Byte} {body : List Byte} {m : CanRx}
    (hj : canJoin d.host.canRx seg.toNat body = some m) (hl : seg.toNat.testBit 1 = true) :
    d.canFrame (seg :: body) = ((d.canMessage none).canWhole m).canIdleNow := by
  unfold Dev.canFrame
  simp only [hj, hl, if_true]

theorem Dev.canFrame_of_stray {d : Dev} {seg : Byte} {body : List Byte} (hj : canJoin d.host.canRx seg.toNat body = none) :
    d.canFrame (seg :: body) = d := by
  unfold Dev.canFrame
  simp only [hj]

/-- A message of one whole segment is a command whose payload is carried. -/
theorem Dev.canWhole_of_one (d : Dev) {body : List Byte} {c : Cmd} (hc : c = cmdOf (leField body 0 8) (body.drop 8))
    (h8 : 8 ≤ body.length) (h63 : body.length ≤ 63) (hlen : 8 + c.len ≤ body.length) :
    d.canWhole { bytes := body, segments := 1, whole := true } =
      d.accept .can 0 { c with payload := c.payload.take c.len } true := by
  have hsegs : canSegments (8 + c.len) = 1 := by unfold canSegments; omega
  have hcarried : (true && (1 == canSegments (8 + c.len)) && decide (8 + c.len ≤ body.length)) = true := by
    rw [hsegs, decide_eq_true hlen]
    rfl
  unfold Dev.canWhole
  subst hc
  rw [if_neg (Nat.not_lt.2 h8)]
  exact congrArg (d.accept .can 0 _) hcarried

/-! ### CAN settings that wait for the end of a message (R106) -/

theorem Dev.canIdleNow_host (d : Dev) : d.canIdleNow.host = { d.host with canStaged := [] } := by
  have hfold : ∀ (l : List (Nat × Int)) (e : Dev), (l.foldl (fun e w => e.putVal w.1 w.2) e).host = e.host := by
    intro l
    induction l with
    | nil => exact fun _ => rfl
    | cons w l ih => exact fun e => ih _
  exact hfold _ _

theorem Dev.canIdleNow_of_none {d : Dev} (h : d.host.canStaged = []) : d.canIdleNow = d := by
  unfold Dev.canIdleNow
  rw [h, List.foldl_nil, ← h]

/-! ### The commands -/

theorem exec_canMailboxFrame {s : State} {data : List Byte} {e : Dev} (h : s.dev.canActive = true)
    (he : s.dev.canFrame data = e) : exec (.canMailboxFrame data) s = .next { s with dev := e } :=
  exec_of_on (f := fun d => if d.canActive then d.canFrame data else d) rfl ((if_pos h).trans he)

/-- Settles O33: the message in collection segment by segment, and admission of the command that a whole message is. -/
theorem canMailbox : Obligations.CanMailbox := by
  unfold Obligations.CanMailbox
  refine ⟨?_, ?_, ?_, ?_, ?_⟩
  · intro s seg body hact hfirst hlast
    have hj := canJoin_first s.dev.host.canRx hfirst body
    rw [hlast] at hj
    exact exec_canMailboxFrame hact (Dev.canFrame_of_more hj hlast)
  · intro s seg body m hact hfirst hlast hm
    have hj := canJoin_later s.dev.host.canRx hfirst body
    rw [hlast, hm] at hj
    exact exec_canMailboxFrame hact (Dev.canFrame_of_more (hm ▸ hj) hlast)
  · intro s seg body hfirst hnone
    have hj : canJoin s.dev.host.canRx seg.toNat body = none := (canJoin_later _ hfirst body).trans (by rw [hnone]; rfl)
    refine exec_of_on (f := fun d => if d.canActive then d.canFrame (seg :: body) else d) rfl ?_
    rw [Dev.canFrame_of_stray hj, ite_self]
  · intro s seg body c hports hs hfirst hlast h63 h8 hc hlen hcache hroom htag hadm
    have hact : s.dev.canActive = true := by
      simp only [Dev.serves, Bool.and_eq_true] at hs
      exact hs.1.1.1
    have hj := canJoin_first s.dev.host.canRx hfirst body
    rw [hlast, Bool.true_or] at hj
    have he : ((s.dev.canMessage none).canWhole { bytes := body, segments := 1, whole := true }) =
        (s.dev.canMessage none).openCmd .can 0 { c with payload := c.payload.take c.len } :=
      (Dev.canWhole_of_one _ hc h8 h63 hlen).trans (Dev.accept_of_admitted 0 hs hcache (.inr (.inr hroom)) htag hadm)
    have hopens := (s.dev.canMessage none).openCmd_opens (p := .can) 0 { c with payload := c.payload.take c.len }
      (hports ▸ (by decide : Port.can.ix < 5))
    refine ⟨_, exec_canMailboxFrame hact ((Dev.canFrame_of_last hj hlast).trans (by rw [he])), ?_, ?_, ?_⟩
    · exact Dev.only_then (Dev.canIdleNow_only _) (by decide) <| Dev.only_then (Dev.openCmd_only ..) (by decide) <|
        (s.dev.canMessage_only none).mono (by decide)
    · rw [Dev.canIdleNow_host]
      rfl
    · rw [Dev.port, Dev.canIdleNow_host]
      exact hopens
  · intro s hstaged
    refine exec_of_on (f := fun d => if d.host.canRx.isSome then (d.canMessage none).canIdleNow else d) rfl ?_
    rw [Dev.canIdleNow_of_none (d := s.dev.canMessage none) hstaged]
    split
    · rfl
    · next h =>
      have hnone : s.dev.host.canRx = none := Option.not_isSome_iff_eq_none.1 h
      rw [← hnone]

end Sys2Proof.Machine
end

section
/-! What the beam, the modes and their faults leave of the requests and of the settings of the device. -/

namespace Sys2Proof.Machine

open Sys2Proof

/-! ### The requests of CAN and of the mailbox

Only a vehicle frame, its loss and BEAM_ENABLE set what is asked for (R116, R117). Changes of the request in force, of the mode
and of DEV_STATE follow it, and leave it. -/

/-- The requests as their sources put them: the request in force and the one in effect left out. -/
def BeamReq.inputs (q : BeamReq) : BeamReq := { q with inForce := 0, effective := 0 }

/-- The sources ask for the same in two states of the block. -/
structure Dev.KeepsInputs (a b : Dev) : Prop where
  inputs : b.req.inputs = a.req.inputs

namespace Dev.KeepsInputs

theorem refl (d : Dev) : d.KeepsInputs d := ⟨rfl⟩

theorem trans {a b c : Dev} (h : a.KeepsInputs b) (g : b.KeepsInputs c) : a.KeepsInputs c := ⟨g.inputs.trans h.inputs⟩

theorem of_frame {a b : Dev} {l : List Part} (h : a.onlyChanges b l) (hl : l.contains .req = false) : a.KeepsInputs b :=
  ⟨congrArg BeamReq.inputs (h.part .req hl)⟩

/-- One more operation, whose frame leaves the requests alone. -/
theorem thenFrame {a b c : Dev} {l : List Part} (h : a.KeepsInputs b) (g : b.onlyChanges c l) (hl : l.contains .req = false) :
    a.KeepsInputs c :=
  h.trans (of_frame g hl)

variable {a b : Dev}

theorem can (h : a.KeepsInputs b) : b.req.can = a.req.can := (congrArg BeamReq.can h.inputs :)
theorem canLoss (h : a.KeepsInputs b) : b.req.canLoss = a.req.canLoss := (congrArg BeamReq.canLoss h.inputs :)

end Dev.KeepsInputs

theorem Dev.setSeq_keepsInputs (d : Dev) (q : Seq) : d.KeepsInputs { d with seq := q } := ⟨rfl⟩
theorem Dev.setCore_keepsInputs (d : Dev) (c : Core) : d.KeepsInputs { d with core := c } := ⟨rfl⟩

/-! ### The mode in force -/

theorem Dev.rechoose_keepsInputs (d : Dev) : d.KeepsInputs d.rechoose := by
  unfold Dev.rechoose
  split
  next v src _ =>
  split
  · exact .refl d
  · extract_lets q d1 displaced d2
    have h1 : d.KeepsInputs d1 :=
      .thenFrame (b := { d with req := { d.req with inForce := v } }) ⟨rfl⟩ (Dev.post_only ..) rfl
    have h2 : d.KeepsInputs d2 := h1.thenFrame (Dev.only_foldl displaced (fun e c => e.finishWith_only ..) (d1.only_refl _)) rfl
    split
    · exact h2
    · exact h2.thenFrame (Dev.closeSession_only _) rfl

theorem Dev.takeMode_keepsInputs (d : Dev) (m : Nat) (b : Bool) : d.KeepsInputs (d.takeMode m b) := by
  unfold Dev.takeMode
  extract_lets d1 base c d2
  have h1 : d.KeepsInputs d1 := by
    unfold d1
    split
    · exact .refl d
    · exact .thenFrame (.of_frame (d.keepTestFrame_only m) rfl) (Dev.camModeChange_only ..) rfl
  have h2 : d.KeepsInputs d2 := h1.trans ⟨rfl⟩
  exact ((h2.thenFrame (Dev.carryMask_only ..) rfl).thenFrame (Dev.rectsModeChange_only ..) rfl).trans (Dev.rechoose_keepsInputs _)

theorem Dev.changeMode_keepsInputs (d : Dev) (m : Nat) (b : Bool) : d.KeepsInputs (d.changeMode m b) :=
  ((d.takeMode_keepsInputs m b).thenFrame (Dev.count_only ..) rfl).thenFrame (Dev.post_only ..) rfl

theorem Dev.selectNow_keepsInputs (d : Dev) (m : Nat) (p : Port) (tag : Nat) : d.KeepsInputs (d.selectNow m p tag) := by
  unfold Dev.selectNow
  extract_lets q d1 d2
  have h1 : d.KeepsInputs d1 := ⟨rfl⟩
  have h2 : d.KeepsInputs d2 := by
    unfold d2
    split
    · exact h1
    · exact (h1.trans (d1.changeMode_keepsInputs m false)).thenFrame (Dev.restartTimeline_only _) rfl
  exact h2.thenFrame (Dev.finish_only ..) rfl

theorem Dev.settleMode_keepsInputs (d : Dev) : d.KeepsInputs d.settleMode := by
  unfold Dev.settleMode
  split
  · split
    · exact d.selectNow_keepsInputs ..
    · split
      · exact (d.setSeq_keepsInputs _).thenFrame (Dev.finishWith_only ..) rfl
      · exact .refl d
  · exact .refl d

theorem Dev.settle_keepsInputs (d : Dev) : d.KeepsInputs d.settle := by
  unfold Dev.settle
  extract_lets d1
  split
  · exact d.settleMode_keepsInputs.thenFrame (Dev.beamOn_only _) rfl
  · exact d.settleMode_keepsInputs

/-! ### STANDBY, and beam off -/

theorem Dev.putInForce_keepsInputs (d : Dev) (m : Nat) (p : Port) (tag : Nat) : d.KeepsInputs (d.putInForce m p tag) := by
  unfold Dev.putInForce
  extract_lets q d1
  have h1 : d.KeepsInputs d1 := ⟨rfl⟩
  refine .thenFrame ?_ (Dev.finish_only ..) rfl
  split
  · exact h1
  · exact ((h1.trans (d1.changeMode_keepsInputs m false)).thenFrame (Dev.restartTimeline_only _) rfl).thenFrame
      (Dev.moveSideR_only ..) rfl

theorem Dev.changeAtStandby_keepsInputs (d : Dev) : d.KeepsInputs d.changeAtStandby := by
  unfold Dev.changeAtStandby
  split
  · exact .refl d
  · exact d.putInForce_keepsInputs ..
  · extract_lets q d1
    have h1 : d.KeepsInputs d1 := (((d.setSeq_keepsInputs _).trans (Dev.changeMode_keepsInputs ..)).thenFrame
      (Dev.restartTimeline_only _) rfl).thenFrame (Dev.finish_only ..) rfl
    split
    · exact h1.trans (Dev.putInForce_keepsInputs ..)
    · exact h1

theorem Dev.reqEffective_keepsInputs (d : Dev) (r : Nat) : d.KeepsInputs (d.reqEffective r) :=
  .trans (b := { d with req := { d.req with effective := r } }) ⟨rfl⟩
    (.of_frame (Dev.only_foldl _ (fun e _ => e.finish_only ..) (Dev.only_refl _ _)) rfl)

theorem Dev.enterStandby_keepsInputs (d : Dev) : d.KeepsInputs d.enterStandby := by
  unfold Dev.enterStandby
  extract_lets dark d1 c q d2
  have hdark : ∀ (e : Dev) s, e.onlyChanges (dark e s) [.prm, .sluice, .host, .links, .seq, .ports, .lamp, .gov] := fun e s =>
    Dev.only_then (Dev.modMportEv_only ..) (by decide) <| Dev.only_then (Dev.modLside_only ..) (by decide) <|
      Dev.only_then (Dev.darkSide_only ..) (by decide) <| Dev.only_then (Dev.stopBoost_only ..) (by decide) <|
      (e.zeroWords_only s).mono (by decide)
  have h1 : d.KeepsInputs d1 := ((Dev.KeepsInputs.of_frame (Dev.only_foldl _ hdark (d.only_refl _)) rfl).thenFrame
    (Dev.release_only ..) rfl).thenFrame (Dev.release_only ..) rfl
  have h2 : d.KeepsInputs d2 := h1.trans ⟨rfl⟩
  exact ((((h2.thenFrame (Dev.goTo_only ..) rfl).trans (Dev.reqEffective_keepsInputs _ 0)).thenFrame (Dev.freeCam_only _) rfl).trans
    (Dev.changeAtStandby_keepsInputs _)).thenFrame (Dev.standbyEntered_only _) rfl

theorem Dev.beamOff_keepsInputs (d : Dev) : d.KeepsInputs d.beamOff := by
  unfold Dev.beamOff
  split
  · exact .refl d
  · extract_lets lit
    split
    · exact d.enterStandby_keepsInputs
    · exact (d.setCore_keepsInputs _).thenFrame (Dev.only_foldl _ (fun e s => e.rampR_only ..) (Dev.only_refl _ _)) rfl

theorem Dev.selectDefault_keepsInputs (d : Dev) : d.KeepsInputs d.selectDefault := by
  unfold Dev.selectDefault
  split
  · exact .refl d
  · next m _ =>
    extract_lets d1
    have h1 : d.KeepsInputs d1 := by
      unfold d1
      split
      · exact .refl d
      · exact .of_frame (Dev.post_only ..) rfl
    split
    · exact h1
    · exact ((h1.trans (d1.changeMode_keepsInputs m false)).thenFrame (Dev.restartTimeline_only _) rfl).thenFrame
        (Dev.moveSideR_only ..) rfl

theorem Dev.beamOffDone_keepsInputs (d : Dev) : d.KeepsInputs d.beamOffDone := by
  unfold Dev.beamOffDone
  extract_lets test d1
  split
  · exact d.enterStandby_keepsInputs.trans (Dev.selectDefault_keepsInputs _)
  · exact d.enterStandby_keepsInputs

/-! ### What follows a request, the speed or a clearance -/

theorem Dev.updateReq_keepsInputs (d : Dev) : d.KeepsInputs d.updateReq := by
  unfold Dev.updateReq Dev.followReq
  refine d.rechoose_keepsInputs.trans ?_
  split
  · split
    · exact Dev.beamOff_keepsInputs _
    · exact .of_frame (Dev.beamBack_only _) rfl
  · exact .refl _

theorem Dev.speedChanged_keepsInputs (d : Dev) : d.KeepsInputs d.speedChanged := by
  unfold Dev.speedChanged
  extract_lets d1 c d2
  have h1 : d.KeepsInputs d1 := by
    unfold d1
    split
    · exact .refl d
    · exact .of_frame d.closeSession_only rfl
  have h2 : d.KeepsInputs d2 := h1.trans ⟨rfl⟩
  split
  · split
    · exact h2.trans (Dev.beamOff_keepsInputs _)
    · exact h2.trans (Dev.beamOffDone_keepsInputs _)
  · exact h1

/-- A valid VEH_BEAM is what CAN asks for from then on (R116). -/
theorem Dev.canRequest_req (d : Dev) (v : Nat) (first : Bool) :
    (d.canRequest v first).req.can = v ∧ (d.canRequest v first).req.canLoss = false := by
  unfold Dev.canRequest
  extract_lets change u q d1
  have h := d1.updateReq_keepsInputs.trans (Dev.settle_keepsInputs _)
  exact ⟨h.can, h.canLoss⟩

/-- A lost VEH_BEAM takes a request above 1 down to 1 where VEH_LOSS_BEAM says so (R116). -/
theorem Dev.canRequestLost_can (d : Dev) :
    d.canRequestLost.req.can = if d.par kDevVehLossBeam 0 = 1 ∧ 1 < d.req.can then 1 else d.req.can := by
  unfold Dev.canRequestLost
  split
  · extract_lets q
    exact ((Dev.updateReq_keepsInputs _).trans (Dev.settle_keepsInputs _)).can
  · rfl

/-! ### The settings of the device

The parameters of unit 0x00, by which faults are judged. Reactions count what they do in parameters of other units. -/

/-- Every parameter of the device unit reads the same in two states of the block. -/
structure Dev.KeepsSettings (a b : Dev) : Prop where
  vals : ∀ id < 0x1000000, b.valOf id = a.valOf id

namespace Dev.KeepsSettings

theorem refl (d : Dev) : d.KeepsSettings d := ⟨fun _ _ => rfl⟩

theorem trans {a b c : Dev} (h : a.KeepsSettings b) (g : b.KeepsSettings c) : a.KeepsSettings c :=
  ⟨fun id hi => (g.vals id hi).trans (h.vals id hi)⟩

theorem of_frame {a b : Dev} {l : List Part} (h : a.onlyChanges b l) (hl : l.contains .prm = false) : a.KeepsSettings b := by
  have hp : b.prm = a.prm := h.part .prm hl
  refine ⟨fun id _ => ?_⟩
  unfold Dev.valOf
  rw [hp, h.1]

theorem of_quiet {a b : Dev} (h : a.Quiet b) : a.KeepsSettings b := by
  refine ⟨fun id hi => h.valOf fun p e => ?_⟩
  unfold pid kHostEvtLost at e
  omega

theorem thenFrame {a b c : Dev} {l : List Part} (h : a.KeepsSettings b) (g : b.onlyChanges c l) (hl : l.contains .prm = false) :
    a.KeepsSettings c :=
  h.trans (of_frame g hl)

theorem thenQuiet {a b c : Dev} (h : a.KeepsSettings b) (g : b.Quiet c) : a.KeepsSettings c := h.trans (of_quiet g)

theorem foldl {α : Type} {f : Dev → α → Dev} (hf : ∀ (e : Dev) x, e.KeepsSettings (f e x)) (xs : List α) (d : Dev) :
    d.KeepsSettings (xs.foldl f d) := by
  induction xs generalizing d with
  | nil => exact refl d
  | cons x xs ih => exact (hf d x).trans (ih _)

end Dev.KeepsSettings

theorem Dev.setSluice_keepsSettings (d : Dev) (q : Sluice) : d.KeepsSettings { d with sluice := q } := ⟨fun _ _ => rfl⟩
theorem Dev.setSaf_keepsSettings (d : Dev) (q : Saf) : d.KeepsSettings { d with saf := q } := ⟨fun _ _ => rfl⟩

theorem Dev.putVal_keepsSettings (d : Dev) {key : Nat} (i : Nat) (v : Int) (h : 0x1000000 ≤ key) :
    d.KeepsSettings (d.putVal (pid key i) v) :=
  ⟨fun _ hi => d.valOf_putVal_ne v (Nat.ne_of_lt (Nat.lt_of_lt_of_le hi (h.trans (Nat.le_add_right ..))))⟩

theorem Dev.count_keepsSettings (d : Dev) {key : Nat} (i k : Nat) (h : 0x1000000 ≤ key) : d.KeepsSettings (d.count key i k) :=
  d.putVal_keepsSettings i _ h

theorem Dev.applyVal_keepsSettings (d : Dev) {key : Nat} (i : Nat) (h : 0x1000000 ≤ key) :
    d.KeepsSettings (d.applyVal (pid key i)) := by
  unfold Dev.applyVal
  split
  · next v _ =>
    exact .trans (b := { d with prm := { d.prm with staged := kvErase d.prm.staged (pid key i) } }) ⟨fun _ _ => rfl⟩
      (Dev.putVal_keepsSettings _ i v h)
  · exact .refl d

/-! ### Tickets and parking -/

theorem Dev.grant_keepsSettings (d : Dev) (q : SlReq) : d.KeepsSettings (d.grant q) := by
  unfold Dev.grant
  extract_lets l d1 d2
  have h1 : d.KeepsSettings d1 := ⟨fun _ _ => rfl⟩
  have h2 : d.KeepsSettings d2 := h1.trans (d1.count_keepsSettings (key := kPwrGrants) _ _ (by decide))
  split
  · next s _ =>
    extract_lets p
    split
    · exact (h2.trans (d2.applyVal_keepsSettings (key := kLmpBstFsw) s.ix (by decide))).thenFrame (Dev.modLside_only ..) rfl
    · exact h2
  · exact h2.trans (d2.count_keepsSettings (key := kCmpCatchup) _ _ (by decide))
  · exact h2

theorem Dev.examine_keepsSettings (n : Nat) (d : Dev) : d.KeepsSettings (Dev.examine n d) := by
  induction n generalizing d with
  | zero => exact .refl d
  | succ n ih =>
    unfold Dev.examine
    split
    · exact .refl d
    · split
      · exact ((d.setSluice_keepsSettings _).trans (Dev.grant_keepsSettings ..)).trans (ih _)
      · exact .refl d

theorem Dev.release_keepsSettings (d : Dev) (h : Holder) : d.KeepsSettings (d.release h) := by
  unfold Dev.release
  split
  · exact (d.setSluice_keepsSettings _).trans (Dev.examine_keepsSettings ..)
  · exact d.setSluice_keepsSettings _

theorem Dev.modMportEv_keepsSettings (d : Dev) (s : Nat) (f : MPort → MPort) : d.KeepsSettings (d.modMportEv s f) := by
  unfold Dev.modMportEv
  extract_lets old d1 new
  have h1 : d.KeepsSettings d1 := .of_frame (Dev.modMport_only ..) rfl
  split
  · exact h1
  · exact h1.thenQuiet (Dev.post_quiet ..)

/-! ### Faults and their reactions -/

theorem Dev.safeSide_keepsSettings (d : Dev) (s : Nat) (f : Bool) : d.KeepsSettings (d.safeSide s f) := by
  have h : d.KeepsSettings (((d.zeroWords s).stopBoost s).darkSide s) :=
    ((((Dev.KeepsSettings.of_frame (d.zeroWords_only s) rfl).thenFrame
      (Dev.modLside_only _ s fun p => { p with boost := .off }) rfl).trans
      (Dev.release_keepsSettings ..)).thenFrame (Dev.darkSide_only _ s) rfl :)
  unfold Dev.safeSide
  extract_lets d1 d2 d3 q
  have h3 : d.KeepsSettings d3 := (h.thenFrame (Dev.modLside_only ..) rfl).trans (Dev.modMportEv_keepsSettings ..)
  exact h3.trans ⟨fun _ _ => rfl⟩

theorem Dev.enterSafe_keepsSettings (d : Dev) (s : Nat) (f : Bool) : d.KeepsSettings (d.enterSafe s f) := by
  unfold Dev.enterSafe
  split
  · split
    · exact d.modMportEv_keepsSettings ..
    · exact .refl d
  · exact d.safeSide_keepsSettings s f

theorem Dev.safeAll_keepsSettings (d : Dev) (c r : Nat) (f : Bool) : d.KeepsSettings (d.safeAll c r f) :=
  (((Dev.KeepsSettings.foldl (fun e s => e.enterSafe_keepsSettings s f) d.sides d).thenFrame (Dev.pend_only _ .safe c r) rfl).trans
    (Dev.release_keepsSettings _ .ignition)).trans (Dev.release_keepsSettings _ .globalReset)

theorem Dev.reactSide_keepsSettings (d : Dev) (s c : Nat) (f : Bool) : d.KeepsSettings (d.reactSide s c f) := by
  unfold Dev.reactSide
  split
  · exact .refl d
  · split
    · exact .of_frame (d.sameTick_only c 2) rfl
    · split
      · exact (d.enterSafe_keepsSettings s f).thenFrame (Dev.pend_only ..) rfl
      · exact d.safeAll_keepsSettings c 2 f

theorem Dev.reactCh_keepsSettings (d : Dev) (c code : Nat) : d.KeepsSettings (d.reactCh c code) := by
  have h : d.KeepsSettings (d.latch c code) := .of_frame (d.latch_only c code) rfl
  unfold Dev.reactCh
  extract_lets d1
  split
  · exact (h.thenFrame (Dev.markSide_only _ code c) rfl).trans (Dev.reactSide_keepsSettings ..)
  · exact h

theorem Dev.react_keepsSettings (d : Dev) (code inst : Nat) (r : Reaction) (f : Bool) :
    d.KeepsSettings (d.react code inst r f) := by
  unfold Dev.react
  split
  · cases r with
    | rec_ => exact .refl d
    | ch => exact d.reactCh_keepsSettings ..
    | side => exact .foldl (fun e s => e.reactSide_keepsSettings s code f) _ d
    | dev => exact d.safeAll_keepsSettings code 3 f
  · exact .refl d

theorem Dev.listFault_keepsSettings (d : Dev) (c i : Nat) (r : Reaction) : d.KeepsSettings (d.listFault c i r) := by
  unfold Dev.listFault
  extract_lets l
  split
  · exact d.setSaf_keepsSettings _
  · split
    · exact d.setSaf_keepsSettings _
    · exact d.count_keepsSettings (key := kSafFaultOverflow) _ _ (by decide)

theorem Dev.activate_keepsSettings (d : Dev) (code inst arg : Nat) (r : Reaction) :
    d.KeepsSettings (d.activate code inst arg r) := by
  unfold Dev.activate
  extract_lets n s0 d0 s1 f j1 a1 d1
  have h1 : d.KeepsSettings d1 := ⟨fun _ _ => rfl⟩
  split
  · exact ⟨fun _ _ => rfl⟩
  · exact h1.trans (Dev.listFault_keepsSettings ..)

theorem Dev.snapshot_keepsSettings (d : Dev) (n : Nat) : d.KeepsSettings (d.snapshot n) := by
  unfold Dev.snapshot
  extract_lets again seq src recs hold s1 d1
  have h1 : d.KeepsSettings d1 := ⟨fun _ _ => rfl⟩
  split
  · exact h1
  · exact h1.thenQuiet (Dev.quiet_trans (d1.setIrq_quiet 3) (Dev.post_quiet ..))

theorem Dev.raiseWith_keepsSettings (d : Dev) (code inst arg : Nat) (pf f : Bool) :
    d.KeepsSettings (d.raiseWith code inst arg pf f) := by
  unfold Dev.raiseWith
  split
  · exact .of_quiet (d.post_quiet code arg)
  · split
    · exact .refl d
    · extract_lets d1 s2 d2 own r d3
      have h1 : d.KeepsSettings d1 := .of_quiet (Dev.quiet_trans (d.post_quiet code arg) (Dev.setIrq_quiet _ 2))
      have h2 : d.KeepsSettings d2 := h1.trans ⟨fun _ _ => rfl⟩
      have h3 : d.KeepsSettings d3 := (h2.trans (Dev.activate_keepsSettings ..)).trans (Dev.react_keepsSettings ..)
      split
      · exact h3.trans (Dev.snapshot_keepsSettings ..)
      · exact h3

/-- A fault leaves the settings of the device as they are. -/
theorem Dev.raise_par (d : Dev) (code inst arg : Nat) {key i : Nat} (h : pid key i < 0x1000000) :
    (d.raise code inst arg).par key i = d.par key i :=
  congrArg Int.toNat ((d.raiseWith_keepsSettings code inst arg false false).vals _ h)

end Sys2Proof.Machine
end

section
/-! Valid and invalid vehicle frames (O34). -/

namespace Sys2Proof.Machine

open Sys2Proof

/-! ### Requests and motion (R93, R116) -/

theorem Dev.canRequest_veh (d : Dev) (v : Nat) (first : Bool) : (d.canRequest v first).veh = { d.veh with beamReq := v } := by
  unfold Dev.canRequest
  extract_lets change u q d1
  exact ((Dev.settle_only _).part .veh rfl).trans ((Dev.updateReq_only d1).part .veh rfl)

/-- A valid VEH_BEAM is noted with its time, and ends the frame's loss. -/
theorem Dev.vehBeam_veh (d : Dev) (b : List Byte) :
    (d.vehBeam b).veh = { d.veh with
      beamCnt := some (byteAt b 1 % 16), beamTime := d.now, beamLost := false, beamReq := byteAt b 0 % 8 } := by
  unfold Dev.vehBeam
  extract_lets first u d1
  rw [Dev.canRequest_veh, (Dev.vehBack_only d1).part .veh rfl]

theorem Dev.vehBeam_req (d : Dev) (b : List Byte) :
    (d.vehBeam b).req.can = byteAt b 0 % 8 ∧ (d.vehBeam b).req.canLoss = false :=
  Dev.canRequest_req ..

/-- A valid VEH_MOTION is noted with its time, and ends the frame's loss. -/
theorem Dev.vehMotion_veh (d : Dev) (b : List Byte) :
    (d.vehMotion b).veh = { d.veh with
      motionCnt := some (byteAt b 8 % 16), motionSeen := true, motionTime := d.now, motionLost := false,
      speed := leField b 0 2, yaw := leInt b 2 2, steer := leInt b 4 2, pitch := leInt b 6 2 } := by
  unfold Dev.vehMotion
  extract_lets u d1
  rw [(Dev.speedChanged_only _).part .veh rfl, (Dev.vehBack_only d1).part .veh rfl]

/-! ### Vehicle time (R77, R94) -/

/-- Without a link to tell, the alignment moves the time base and its slewing only. -/
theorem Dev.align_none_only (d : Dev) (diff : Int) : d.onlyChanges (d.align diff none) [.clk] := by
  have hclk : ∀ c : Clk, d.onlyChanges { d with clk := c } [.clk] := fun c =>
    Dev.only_set (d.only_refl _) (fun p hp => by cases p <;> first | rfl | exact absurd (by decide) hp) rfl
  unfold Dev.align
  dsimp only
  repeat' split
  · exact hclk _
  · exact hclk _
  · exact hclk _
  · exact hclk _
  · exact d.only_refl _

theorem Dev.align_none_aligned (d : Dev) (diff : Int) : d.clk.Aligned (d.align diff none).clk (d.core.state = .boot) diff := by
  unfold Dev.align
  constructor
  · intro h
    rw [if_pos h]
  · rintro ⟨h2, h⟩
    rw [if_neg (Nat.not_le.2 h2), if_pos h]
  · intro h
    rw [if_neg (by omega), if_neg (by omega), if_pos (by omega)]
  · intro h hb
    rw [if_neg (by omega), if_neg (by omega), if_neg (by omega), if_neg hb]

theorem Dev.canActive_not_boot {d : Dev} (h : d.canActive = true) : d.core.state ≠ .boot := by
  intro hb
  simp only [Dev.canActive, hb, Bool.false_eq_true] at h

/-- A valid VEH_TIME is noted with its own start. -/
def Dev.noteTime (d : Dev) (b : List Byte) (sof : Nat) : Dev :=
  { d with veh := { d.veh with timeCnt := some (byteAt b 8 % 16), timeLatch := sof } }

theorem Dev.noteTime_only (d : Dev) (b : List Byte) (sof : Nat) : d.onlyChanges (d.noteTime b sof) [.veh] :=
  Dev.only_set (d.only_refl _) (fun p hp => by cases p <;> first | rfl | exact absurd (by decide) hp) rfl

theorem Dev.vehTime_of_gap {d : Dev} {b : List Byte} (sof : Nat) (h : d.veh.timeCnt ≠ some ((byteAt b 8 % 16 + 15) % 16)) :
    d.vehTime b sof = d.noteTime b sof := if_neg h

/-- One CNT after the last, the frame tells the vehicle time of the start of the frame before it. -/
theorem Dev.vehTime_of_next {d : Dev} {b : List Byte} (sof : Nat) (h : d.veh.timeCnt = some ((byteAt b 8 % 16 + 15) % 16)) :
    d.vehTime b sof = (d.noteTime b sof).align
      ((leField b 0 8 : Int) + nsTicks (d.par kHostCanTimeDelay 0) - d.veh.timeLatch) none := if_pos h

/-! ### The commands -/

theorem exec_vehBeamFrame {s : State} {b : List Byte} {e : Dev}
    (he : (if s.dev.canActive && vehValid b 8 1 s.dev.veh.beamCnt && decide (byteAt b 0 % 8 ≤ 3) then s.dev.vehBeam b
      else s.dev) = e) : exec (.vehBeamFrame b) s = .next { s with dev := e } :=
  exec_of_on (f := fun d => if d.canActive && vehValid b 8 1 d.veh.beamCnt && decide (byteAt b 0 % 8 ≤ 3) then d.vehBeam b
    else d) rfl he

theorem exec_vehMotionFrame {s : State} {b : List Byte} {e : Dev}
    (he : (if s.dev.canActive && vehValid b 16 8 s.dev.veh.motionCnt then s.dev.vehMotion b else s.dev) = e) :
    exec (.vehMotionFrame b) s = .next { s with dev := e } :=
  exec_of_on (f := fun d => if d.canActive && vehValid b 16 8 d.veh.motionCnt then d.vehMotion b else d) rfl he

theorem exec_vehTimeFrame {s : State} {b : List Byte} {sof : Nat} {e : Dev}
    (he : (if s.dev.canActive && s.dev.par kHostTimeSource 0 == 1 && vehValid b 16 8 s.dev.veh.timeCnt
      then s.dev.vehTime b sof else s.dev) = e) : exec (.vehTimeFrame b sof) s = .next { s with dev := e } :=
  exec_of_on (f := fun d => if d.canActive && d.par kHostTimeSource 0 == 1 && vehValid b 16 8 d.veh.timeCnt
    then d.vehTime b sof else d) rfl he

/-- Settles O34: what a valid frame leaves in the vehicle signals and in the request of CAN, and how VEH_TIME aligns. -/
theorem vehicleSignals : Obligations.VehicleSignals := by
  unfold Obligations.VehicleSignals
  refine ⟨?_, ?_, ?_, ?_, ?_, ?_, ?_⟩
  · intro s b hact hv h3
    have he := exec_vehBeamFrame (s := s) (b := b) (if_pos (by simp [hact, hv, h3]))
    exact ⟨_, he, Dev.vehBeam_only .., Dev.vehBeam_veh .., Dev.vehBeam_req ..⟩
  · intro s b h
    refine exec_vehBeamFrame (if_neg ?_)
    rcases h with h | h
    · simp [h]
    · simp [Nat.not_le.2 h]
  · intro s b hact hv
    exact ⟨_, exec_vehMotionFrame (if_pos (by simp [hact, hv])), Dev.vehMotion_only .., Dev.vehMotion_veh ..⟩
  · intro s b hv
    exact exec_vehMotionFrame (if_neg (by simp [hv]))
  · intro s b sof hact hsrc hv hgap
    exact exec_vehTimeFrame ((if_pos (by simp [hact, hsrc, hv])).trans (Dev.vehTime_of_gap sof hgap))
  · rintro s b sof hact hsrc hv hnext diff rfl
    have he := exec_vehTimeFrame (s := s) ((if_pos (by simp [hact, hsrc, hv])).trans (Dev.vehTime_of_next sof hnext))
    have hframe := (s.dev.noteTime b sof).align_none_only
      ((leField b 0 8 : Int) + nsTicks (s.dev.par kHostCanTimeDelay 0) - s.dev.veh.timeLatch)
    obtain ⟨hclose, hslewed, hforward, hbackward⟩ := (s.dev.noteTime b sof).align_none_aligned
      ((leField b 0 8 : Int) + nsTicks (s.dev.par kHostCanTimeDelay 0) - s.dev.veh.timeLatch)
    exact ⟨_, he, Dev.only_then hframe (by decide) ((s.dev.noteTime_only b sof).mono (by decide)), hframe.part .veh rfl, hclose,
      hslewed, hforward, fun h => hbackward h (Dev.canActive_not_boot hact)⟩
  · intro s b sof h
    refine exec_vehTimeFrame (if_neg ?_)
    rcases h with h | h
    · simp [h]
    · simp [h]

end Sys2Proof.Machine
end

section
/-! Lost vehicle frames and bus-off (O35). -/

namespace Sys2Proof.Machine

open Sys2Proof

/-! ### The loss of vehicle frames (R93) -/

/-- The frames of a set are lost: they are marked, and VEH_TIMEOUT is raised. -/
def Dev.noteLoss (d : Dev) (beam motion : Bool) : Dev :=
  ({ d with veh := { d.veh with beamLost := d.veh.beamLost || beam, motionLost := d.veh.motionLost || motion } }).raise 0x0304 0
    (b2n (d.veh.beamLost || beam) + 2 * b2n (d.veh.motionLost || motion))

/-- What a newly lost VEH_BEAM brings on top. -/
def Dev.noteBeamLoss (d : Dev) (beam motion : Bool) : Dev :=
  if beam && !d.veh.beamLost then (d.noteLoss beam motion).canRequestLost else d.noteLoss beam motion

/-- A frame that is lost already, or not lost yet, changes nothing. -/
theorem Dev.vehLost_of_old {d : Dev} {beam motion : Bool} (hb : (beam && !d.veh.beamLost) = false)
    (hm : (motion && !d.veh.motionLost) = false) : d.vehLost beam motion = d := by
  unfold Dev.vehLost
  simp only [hb, hm, Bool.or_self, Bool.false_eq_true, if_false]

theorem Dev.vehLost_of_new {d : Dev} {beam motion : Bool}
    (h : (beam = true ∧ d.veh.beamLost = false) ∨ (motion = true ∧ d.veh.motionLost = false)) :
    d.vehLost beam motion =
      if motion && !d.veh.motionLost then (d.noteBeamLoss beam motion).speedChanged else d.noteBeamLoss beam motion := by
  have hnew : (beam && !d.veh.beamLost || motion && !d.veh.motionLost) = true := by
    rcases h with ⟨hb, hl⟩ | ⟨hm, hl⟩
    · rw [hb, hl]; rfl
    · rw [hm, hl]; exact Bool.or_true _
  exact if_pos hnew

theorem Dev.noteLoss_veh (d : Dev) (beam motion : Bool) :
    (d.noteLoss beam motion).veh =
      { d.veh with beamLost := d.veh.beamLost || beam, motionLost := d.veh.motionLost || motion } :=
  (Dev.raise_only ..).part .veh rfl

theorem Dev.noteBeamLoss_veh (d : Dev) (beam motion : Bool) :
    (d.noteBeamLoss beam motion).veh = (d.noteLoss beam motion).veh := by
  unfold Dev.noteBeamLoss
  split
  · exact (Dev.canRequestLost_only _).part .veh rfl
  · rfl

/-- The fault leaves VEH_LOSS_BEAM and the request of CAN, by which the loss is judged. -/
theorem Dev.noteBeamLoss_can (d : Dev) (beam motion : Bool) :
    (d.noteBeamLoss beam motion).req.can =
      if beam = true ∧ d.veh.beamLost = false ∧ d.par kDevVehLossBeam 0 = 1 ∧ 1 < d.req.can then 1 else d.req.can := by
  have hreq : (d.noteLoss beam motion).req = d.req := (Dev.raise_only ..).part .req rfl
  have hpar : (d.noteLoss beam motion).par kDevVehLossBeam 0 = d.par kDevVehLossBeam 0 := Dev.raise_par _ _ _ _ (by decide)
  unfold Dev.noteBeamLoss
  by_cases h : beam = true ∧ d.veh.beamLost = false
  · rw [if_pos (by rw [h.1, h.2]; rfl), Dev.canRequestLost_can, hpar, hreq]
    simp only [h, true_and]
  · rw [if_neg (by simpa using h), if_neg fun hc => h ⟨hc.1, hc.2.1⟩, hreq]

/-- VEH_TIMEOUT is no fault of side R. -/
theorem Dev.vehTimeout_notMuted (d : Dev) : d.mutedFault 0x0304 0 = false := by
  unfold Dev.mutedFault
  rw [show (faultSides 0x0304 0 == [1]) = false from rfl]
  simp only [Bool.and_false, Bool.false_and]

theorem Dev.noteLoss_active (d : Dev) (beam motion : Bool) : (d.noteLoss beam motion).faultActive 0x0304 0 = true :=
  Dev.raise_self _ _ (by decide) (Dev.vehTimeout_notMuted _)

/-- Where VEH_LOSS_BEAM is not 1 the request stays, and so does the fault. -/
theorem Dev.noteBeamLoss_of_keep {d : Dev} (beam motion : Bool) (h : d.par kDevVehLossBeam 0 ≠ 1) :
    d.noteBeamLoss beam motion = d.noteLoss beam motion := by
  have hpar : (d.noteLoss beam motion).par kDevVehLossBeam 0 = d.par kDevVehLossBeam 0 := Dev.raise_par _ _ _ _ (by decide)
  have hkeep : (d.noteLoss beam motion).canRequestLost = d.noteLoss beam motion := if_neg fun hc => h (hpar.symm.trans hc.1)
  unfold Dev.noteBeamLoss
  rw [hkeep, ite_self]

/-- In STANDBY the speed ends no beam, and no fault. -/
theorem Dev.speedChanged_saf_of_standby {d : Dev} (h : d.core.state = .standby) : d.speedChanged.saf = d.saf := by
  unfold Dev.speedChanged
  extract_lets d1 c d2
  have h1 : d.onlyChanges d1 [.prm, .sluice, .host, .links, .lamp, .upd] :=
    Dev.only_ite (fun _ => d.only_refl _) fun _ => d.closeSession_only
  have hstate : d1.core.state = .standby := (congrArg Core.state (h1.part .core rfl)).trans h
  rw [if_neg (by rw [hstate]; simp)]
  exact h1.part .saf rfl

/-! ### The three parts of a new loss -/

theorem Dev.vehLost_veh {d : Dev} {beam motion : Bool}
    (h : (beam = true ∧ d.veh.beamLost = false) ∨ (motion = true ∧ d.veh.motionLost = false)) :
    (d.vehLost beam motion).veh =
      { d.veh with beamLost := d.veh.beamLost || beam, motionLost := d.veh.motionLost || motion } := by
  rw [Dev.vehLost_of_new h, ← d.noteLoss_veh, ← d.noteBeamLoss_veh]
  split
  · exact (Dev.speedChanged_only _).part .veh rfl
  · rfl

theorem Dev.vehLost_can {d : Dev} {beam motion : Bool}
    (h : (beam = true ∧ d.veh.beamLost = false) ∨ (motion = true ∧ d.veh.motionLost = false)) :
    (d.vehLost beam motion).req.can =
      if beam = true ∧ d.veh.beamLost = false ∧ d.par kDevVehLossBeam 0 = 1 ∧ 1 < d.req.can then 1 else d.req.can := by
  rw [Dev.vehLost_of_new h, ← d.noteBeamLoss_can]
  split
  · exact (Dev.speedChanged_keepsInputs _).can
  · rfl

theorem Dev.vehLost_active {d : Dev} {beam motion : Bool}
    (h : (beam = true ∧ d.veh.beamLost = false) ∨ (motion = true ∧ d.veh.motionLost = false))
    (hs : d.core.state = .standby) (hk : d.par kDevVehLossBeam 0 ≠ 1) : (d.vehLost beam motion).faultActive 0x0304 0 = true := by
  have hstate : (d.noteLoss beam motion).core.state = .standby :=
    (congrArg Core.state ((Dev.raise_only ..).part .core rfl)).trans hs
  rw [Dev.vehLost_of_new h, Dev.noteBeamLoss_of_keep _ _ hk]
  split
  · rw [Dev.faultActive_of_saf (Dev.speedChanged_saf_of_standby hstate), Dev.noteLoss_active]
  · exact d.noteLoss_active ..

/-! ### The commands -/

theorem exec_vehTimeout {s : State} {beam motion : Bool} {e : Dev}
    (he : (if s.dev.canActive then
      s.dev.vehLost (beam && s.dev.vehSilent s.dev.veh.beamTime) (motion && s.dev.vehSilent s.dev.veh.motionTime)
      else s.dev) = e) : exec (.vehTimeout beam motion) s = .next { s with dev := e } :=
  exec_of_on (f := fun d => if d.canActive then
    d.vehLost (beam && d.vehSilent d.veh.beamTime) (motion && d.vehSilent d.veh.motionTime) else d) rfl he

theorem exec_canBusOff {s : State} (h : s.dev.canActive = true) :
    exec .canBusOff s = .next { s with dev := (s.dev.count kHostCanBusOffCount 0 1).post 0x0305 0 } :=
  exec_of_on (f := fun d => if d.canActive then (d.count kHostCanBusOffCount 0 1).post 0x0305 0 else d) rfl (if_pos h)

/-- A frame that VEH_TIMEOUT does not concern is not newly lost. -/
theorem Dev.not_newlyLost {d : Dev} {named lost : Bool} {since : Nat}
    (h : named = true → lost = true ∨ d.now < since + msTicks (d.par kHostVehTimeout 0)) :
    ((named && d.vehSilent since) && !lost) = false := by
  cases named with
  | false => rfl
  | true =>
    rcases h rfl with hl | ht
    · rw [hl, Bool.not_true, Bool.and_false]
    · rw [Dev.vehSilent, decide_eq_false (Nat.not_le.2 ht)]
      rfl

/-- Settles O35: a new loss by its three parts, an old one, and the count of bus-off. -/
theorem canLoss : Obligations.CanLoss := by
  unfold Obligations.CanLoss
  refine ⟨?_, ?_, ?_⟩
  · rintro s beam motion hact lb lm rfl rfl hnew
    exact ⟨_, exec_vehTimeout (if_pos hact), Dev.vehLost_only .., Dev.vehLost_veh hnew, Dev.vehLost_can hnew,
      fun h => Dev.vehLost_active hnew h.1 h.2⟩
  · intro s beam motion hb hm
    refine exec_vehTimeout ?_
    rw [Dev.vehLost_of_old (Dev.not_newlyLost hb) (Dev.not_newlyLost hm), ite_self]
  · intro s hI hact
    refine ⟨_, exec_canBusOff hact, Dev.post_quiet .., ?_⟩
    have hid : ∀ p : Port, pid kHostCanBusOffCount 0 ≠ pid kHostEvtLost p.ix := fun p =>
      pid_ne_of_num (key := kHostEvtLost) (key' := kHostCanBusOffCount) p.ix 0 (by decide)
    have hpost : ((s.dev.count kHostCanBusOffCount 0 1).post 0x0305 0).par kHostCanBusOffCount 0 =
        (s.dev.count kHostCanBusOffCount 0 1).par kHostCanBusOffCount 0 :=
      congrArg Int.toNat ((Dev.post_quiet ..).valOf hid)
    exact hpost.trans (Dev.par_count_self 0 1 (by decide) hI.vals)

end Sys2Proof.Machine
end

section
/-! How a served mailbox command ends (R98 to R100, R105): what the proofs about chapter 5 share. -/

namespace Sys2Proof.Machine

open Sys2Proof

/-! ### Service at a port's head -/

/-- A served command whose checks 8 and 9 pass has its effect. -/
theorem exec_of_served {i : Instr} {s : State} {p : Port} {op : Nat} {check : Cmd → Option Nat} {act : Cmd → Dev} {c : Cmd}
    {e : Dev} (hx : exec i s = .next { s with dev := s.dev.serve p op check act }) (h : s.dev.serving p op c)
    (hc : check c = none) (he : act c = e) : exec i s = .next { s with dev := e } := by
  rw [hx, Dev.serve_eq h hc, he]

/-- One that fails check 8 or 9 ends with the check's status. -/
theorem exec_of_refused {i : Instr} {s : State} {p : Port} {op st : Nat} {check : Cmd → Option Nat} {act : Cmd → Dev} {c : Cmd}
    (hx : exec i s = .next { s with dev := s.dev.serve p op check act }) (h : s.dev.headOf p op = some c)
    (hc : check c = some st) : exec i s = .next { s with dev := s.dev.finishWith p c.tag st } := by
  rw [hx]
  unfold Dev.serve
  simp only [h, hc]

theorem argOk_none {b : Bool} (h : b = true) : argOk b = none := if_pos h

theorem argOk_some {b : Bool} (h : b = false) : argOk b = some stBadArg := if_neg (by rw [h]; decide)

/-! ### How a command ends -/

variable {i : Instr} {s : State} {e : Dev} {p : Port} {tag : Nat}

/-- The command ends with its final status in a block that is otherwise e. -/
theorem Becomes.of_finish {st : Nat} {b : List Byte} (hx : exec i s = .next { s with dev := e.finish p tag st b })
    (h : e.tagOpen p tag = true) : Becomes i s e fun d => d.answered p tag st b :=
  ⟨_, hx, Dev.finish_quiet .., Dev.finish_answered _ _ h⟩

/-- A final status without a payload of its own. -/
theorem Becomes.of_finishWith {st : Nat} (hx : exec i s = .next { s with dev := e.finishWith p tag st })
    (h : e.tagOpen p tag = true) :
    Becomes i s e fun d => d.answered p tag st (if st = stOverridden then e.devStateBytes else []) :=
  Becomes.of_finish hx h

/-- The command waits for its own completion in a block that is otherwise e. -/
theorem Becomes.of_waits (hx : exec i s = .next { s with dev := e.waits p tag }) (h : e.tagOpen p tag = true) :
    Becomes i s e fun d => d.waitsFor p tag :=
  ⟨_, hx, Dev.waits_quiet .., Dev.waits_waitsFor h⟩

end Sys2Proof.Machine
end

section
/-! Mailbox commands that only read (O20). -/

namespace Sys2Proof.Machine

open Sys2Proof

/-- The two ends of a read: its bytes, or the status of the check that failed. -/
theorem Dev.read_ok (d : Dev) (p : Port) (tag : Nat) {r : Nat × List Byte} {bs : List Byte} (h : r = (stOk, bs)) :
    (if r.1 = stOk then d.ok p tag r.2 else d.finishWith p tag r.1) = d.finish p tag stOk bs := by
  rw [h, if_pos rfl]
  rfl

theorem Dev.read_refused (d : Dev) (p : Port) (tag : Nat) {r : Nat × List Byte} {st : Nat} {bs : List Byte} (h : r = (st, bs))
    (hst : st ≠ stOk) :
    (if r.1 = stOk then d.ok p tag r.2 else d.finishWith p tag r.1) = d.finishWith p tag st := by
  rw [h, if_neg hst]

/-- SNAPSHOT leaves the mailbox as it was (R120). -/
theorem Dev.snapshot_sameBox (d : Dev) (src : Nat) : d.sameBox (d.snapshot src) := by
  unfold Dev.snapshot
  extract_lets again seq src' recs hold s1 d1
  have h1 : d.sameBox d1 := Dev.sameBox_of_ports rfl
  split
  · exact h1
  · exact Dev.sameBox_trans h1 (Dev.sameBox_trans (d1.setIrq_sameBox 3) (Dev.post_sameBox ..))

theorem Dev.latchTick_of_saf {a b : Dev} (h : b.saf = a.saf) : b.latchTick = a.latchTick := by
  unfold Dev.latchTick
  rw [h]

/-- Settles O20: each read by the end of its service, and SNAPSHOT by its one latch. -/
theorem mailboxReads : Obligations.MailboxReads := by
  unfold Obligations.MailboxReads
  refine ⟨?_, ?_, ?_, ?_, ?_, ?_⟩
  · intro s p c h
    exact .of_finish (exec_of_served rfl h rfl rfl) (Dev.serving_open h)
  · intro s p c bs h hr
    exact .of_finish (exec_of_served rfl h rfl (Dev.read_ok _ _ _ hr)) (Dev.serving_open h)
  · intro s p c st bs h hr hst
    exact .of_finishWith (exec_of_served rfl h rfl (Dev.read_refused _ _ _ hr hst)) (Dev.serving_open h)
  · intro s p c bs h hr
    exact .of_finish (exec_of_served rfl h rfl (Dev.read_ok _ _ _ hr)) (Dev.serving_open h)
  · intro s p c st bs h hr
    refine .of_finish (exec_of_served rfl h rfl ?_) (Dev.serving_open h)
    dsimp only
    rw [hr]
  · intro s p c h hl
    have hsaf := Dev.snapshot_saf hl (src := 2) (by decide)
    have hfin : ∀ b, ((s.dev.snapshot 2).finish p c.tag stOk b).saf = (s.dev.snapshot 2).saf :=
      fun b => (Dev.finish_quiet ..).saf
    have hopen : (s.dev.snapshot 2).tagOpen p c.tag = true :=
      (Dev.tagOpen_of_box (s.dev.snapshot_sameBox 2) ..).trans (Dev.serving_open h)
    refine ⟨_, exec_of_served rfl h rfl rfl, ?_, ?_, ?_, ?_, ?_⟩
    · exact Dev.only_then (Dev.ok_only ..) (by decide) (s.dev.snapshot_only 2)
    · rw [Dev.ok, hfin, hsaf]
      rfl
    · rw [Dev.ok, hfin, hsaf]
    · rw [Dev.ok, hfin, hsaf]
    · rw [Dev.ok, Dev.latchTick_of_saf (hfin _), show (s.dev.snapshot 2).saf.snapCount = _ by rw [hsaf]]
      exact Dev.finish_answered _ _ hopen

end Sys2Proof.Machine
end

section
/-! SET_PARAM of a parameter (O21). -/

namespace Sys2Proof.Machine

open Sys2Proof

/-! ### The command (R113) -/

theorem exec_setParam {s : State} {p : Port} {c : Cmd} {e : Dev} {st : Nat} (h : s.dev.headOf p opSetParam = some c)
    (ha : paramAct c.payload = none) (he : s.dev.setParamCmd p c.payload = (e, st)) :
    exec (.setParam p) s = .next { s with dev := e.finishWith p c.tag st } := by
  show execSetParam p s = _
  simp only [execSetParam, State.on, h, ha, he, ne_eq, not_true_eq_false, if_false]

theorem Dev.setParamCmd_of_unopened {d : Dev} {p : Port} {b : List Byte} {st : Nat} (h : d.openWrite p b = .error st) :
    d.setParamCmd p b = (d, st) := by
  unfold Dev.setParamCmd
  rw [h]

theorem Dev.setParamCmd_of_scalar {d : Dev} {p : Port} {b : List Byte} {w : ParamWrite} {v : Int} (h : d.openWrite p b = .ok w)
    (hs : w.row.ty.size ≠ 0) (hv : d.scalarIn w = .ok v) :
    d.setParamCmd p b = (d.writeScalar w.row w.id (w.id - idInst w.id * 0x10000) (idInst w.id) v, stOk) := by
  unfold Dev.setParamCmd
  rw [h]
  dsimp only
  split
  · next hb => exact absurd (congrArg PTy.size hb) hs
  · rw [hv]

theorem Dev.setParamCmd_of_scalar_error {d : Dev} {p : Port} {b : List Byte} {w : ParamWrite} {st : Nat}
    (h : d.openWrite p b = .ok w) (hs : w.row.ty.size ≠ 0) (hv : d.scalarIn w = .error st) : d.setParamCmd p b = (d, st) := by
  unfold Dev.setParamCmd
  rw [h]
  dsimp only
  split
  · next hb => exact absurd (congrArg PTy.size hb) hs
  · rw [hv]

/-! ### When a value applies (R106) -/

/-- The parameters whose write brings something about at once. -/
def followedKeys : List Nat :=
  [kLnkMaxRate, lkey kLnkMaxRate .lnk1, kLnkL1Allowed, lkey kLnkL1Allowed .lnk1, kDevBeamSource, kDevVehLossBeam, kPlcPatLow,
    kPlcPatHigh, kPlcPatFallback, kAuxMxClass]

theorem Dev.afterWrite_of_unfollowed (d : Dev) {key : Nat} (i : Nat) (v : Int) (h : key ∉ followedKeys) :
    d.afterWrite key i v = d := by
  simp only [followedKeys, List.mem_cons, List.not_mem_nil, or_false, not_or] at h
  obtain ⟨h1, h2, h3, h4, h5, h6, h7, h8, h9, h10⟩ := h
  simp only [Dev.afterWrite, h1, h2, h3, h4, h5, h6, h7, h8, h9, h10, or_self, if_false]

/-- The parameters that are not kept as values. -/
def unkeptKeys : List Nat := [kPlcPatGeom, kClkClkSticky, kThmTDieMax]

/-- The block with a value in force and, where the parameter is mirrored, in NOR (R106). -/
def Dev.putMirrored (d : Dev) (r : ParamRow) (id : Nat) (v : Int) : Dev :=
  if r.mirrored then (d.putVal id v).mirrorVal id else d.putVal id v

theorem Dev.writeScalar_now {d : Dev} {r : ParamRow} (id : Nat) {key : Nat} (i : Nat) (v : Int) (hr : r.apply = .now)
    (hk : key ∉ unkeptKeys ++ followedKeys) : d.writeScalar r id key i v = d.putMirrored r id v := by
  obtain ⟨hk1, hk2⟩ := not_or.1 (mt List.mem_append.2 hk)
  simp only [unkeptKeys, List.mem_cons, List.not_mem_nil, or_false, not_or] at hk1
  obtain ⟨h1, h2, h3⟩ := hk1
  simp only [Dev.writeScalar, h1, h2, h3, hr, if_false]
  exact Dev.afterWrite_of_unfollowed _ i v hk2

theorem Dev.writeScalar_staged {d : Dev} {r : ParamRow} (id : Nat) {key : Nat} (i : Nat) (v : Int)
    (hr : r.apply = .refresh ∨ r.apply = .composeStart ∨ r.apply = .commit ∨ r.apply = .tableCommit)
    (hk : key ∉ unkeptKeys) : d.writeScalar r id key i v = d.stageVal id v := by
  simp only [unkeptKeys, List.mem_cons, List.not_mem_nil, or_false, not_or] at hk
  obtain ⟨h1, h2, h3⟩ := hk
  rcases hr with hr | hr | hr | hr <;> simp only [Dev.writeScalar, h1, h2, h3, hr, if_false]

theorem Dev.putMirrored_only (d : Dev) (r : ParamRow) (id : Nat) (v : Int) : d.onlyChanges (d.putMirrored r id v) [.prm, .nor] := by
  have h : d.onlyChanges (d.putVal id v) [.prm, .nor] := (d.putVal_only id v).mono (by decide)
  unfold Dev.putMirrored
  split
  · exact Dev.only_then (Dev.mirrorVal_only ..) (by decide) h
  · exact h

/-- The mirror in NOR is no value in force. -/
theorem Dev.putMirrored_valOf (d : Dev) (r : ParamRow) (id : Nat) (v : Int) (j : Nat) :
    (d.putMirrored r id v).valOf j = (d.putVal id v).valOf j := by
  unfold Dev.putMirrored
  split <;> rfl

/-- Settles O21: the write by when its value applies, and the two places where a check fails. -/
theorem parameterWrites : Obligations.ParameterWrites := by
  unfold Obligations.ParameterWrites
  refine ⟨?_, ?_, ?_, ?_⟩
  · intro s p c w v hI h ha ho hsz hv hnow hk
    have hcmd : s.dev.setParamCmd p c.payload = (s.dev.putMirrored w.row w.id v, stOk) := by
      rw [Dev.setParamCmd_of_scalar ho hsz hv, ← Dev.writeScalar_now w.id (idInst w.id) v hnow hk]
    have hopen : (s.dev.putMirrored w.row w.id v).tagOpen p c.tag = true :=
      (Dev.tagOpen_of_box (Dev.sameBox_of_frame (Dev.putMirrored_only ..) rfl) ..).trans (Dev.headOf_open h)
    have hq := (s.dev.putMirrored w.row w.id v).finishWith_quiet p c.tag stOk
    refine ⟨_, exec_setParam h ha hcmd, hq, Dev.finishWith_answered _ hopen, fun hid => ?_, fun id hne hid => ?_⟩
    · rw [hq.valOf hid, Dev.putMirrored_valOf, Dev.valOf_putVal_self _ _ hI.vals]
    · rw [hq.valOf hid, Dev.putMirrored_valOf, Dev.valOf_putVal_ne _ _ hne]
  · intro s p c w v h ha ho hsz hv hap hk
    have hcmd : s.dev.setParamCmd p c.payload = (s.dev.stageVal w.id v, stOk) := by
      rw [Dev.setParamCmd_of_scalar ho hsz hv, ← Dev.writeScalar_staged w.id (idInst w.id) v hap hk]
    exact .of_finishWith (exec_setParam h ha hcmd) (Dev.headOf_open h :)
  · intro s p c st h ha ho
    exact .of_finishWith (exec_setParam h ha (Dev.setParamCmd_of_unopened ho)) (Dev.headOf_open h)
  · intro s p c w st h ha ho hsz hv
    exact .of_finishWith (exec_setParam h ha (Dev.setParamCmd_of_scalar_error ho hsz hv)) (Dev.headOf_open h)

end Sys2Proof.Machine
end

section
/-! BEAM_ENABLE (O23). -/

namespace Sys2Proof.Machine

open Sys2Proof

/-- A waiting command's tag is open (R98). -/
theorem Dev.tagOpen_of_waiting {d : Dev} {op : Nat} {x : Port × Cmd} (h : x ∈ d.waitingOf op) :
    d.tagOpen x.1 x.2.tag = true := by
  unfold Dev.waitingOf at h
  obtain ⟨q, -, hq⟩ := List.mem_flatMap.1 h
  obtain ⟨o, ho, rfl⟩ := List.mem_map.1 hq
  exact List.any_eq_true.2 ⟨o, (List.mem_filter.1 ho).1, beq_self_eq_true _⟩

/-- What is asked of BEAM_ENABLE in a test mode stands in its way (R210). -/
def Dev.beamRefused (d : Dev) (p : Port) (req : Nat) : Prop :=
  isTestMode d.core.mode = true ∧ (p.classBit ≤ 2 ∨ (req ≠ 0 ∧ d.speedZero = false))

theorem Dev.beamEnableCmd_refused {d : Dev} {p : Port} {req : Nat} (tag : Nat) (h : d.beamRefused p req) :
    d.beamEnableCmd p tag req = d.finishWith p tag stOverridden := by
  obtain ⟨ht, hr⟩ := h
  unfold Dev.beamEnableCmd
  exact if_pos ⟨ht, hr.imp_right fun hs => ⟨hs.1, by rw [hs.2]; rfl⟩⟩

/-- The request of the mailbox is recorded, and what follows from it leaves the record (R117). -/
theorem Dev.beamEnableCmd_mailbox {d : Dev} {p : Port} {req : Nat} (tag : Nat) (h : ¬d.beamRefused p req) :
    (d.beamEnableCmd p tag req).req.mailbox = req ∧ (d.beamEnableCmd p tag req).req.mailboxNewest = true := by
  unfold Dev.beamEnableCmd
  extract_lets test cls d0 q d1
  have hno : ¬(test = true ∧ (cls ≤ 2 ∨ (req ≠ 0 ∧ (!d.speedZero) = true))) := fun ⟨ht, hr⟩ =>
    h ⟨ht, hr.imp_right fun hs => ⟨hs.1, (Bool.not_eq_true' _).mp hs.2⟩⟩
  rw [if_neg hno]
  have h1 : Dev.KeepsInputs { d0 with req := { d0.req with mailbox := req, mailboxNewest := true } } d1 :=
    Dev.updateReq_keepsInputs _
  suffices hk : ∀ e, d1.KeepsInputs e → e.req.mailbox = req ∧ e.req.mailboxNewest = true by
    split
    · exact hk _ (.of_frame (Dev.finishWith_only ..) rfl)
    · split
      · exact hk _ ((Dev.KeepsInputs.of_frame (Dev.finish_only ..) rfl).trans (Dev.settle_keepsInputs _))
      · split
        · exact hk _ ((Dev.KeepsInputs.of_frame (Dev.finish_only ..) rfl).trans (Dev.settle_keepsInputs _))
        · exact hk _ ((Dev.KeepsInputs.of_frame (Dev.waits_only ..) rfl).trans (Dev.settle_keepsInputs _))
  intro e he
  exact ⟨(congrArg BeamReq.mailbox (h1.trans he).inputs :), (congrArg BeamReq.mailboxNewest (h1.trans he).inputs :)⟩

theorem exec_beamEnableTimeout {s : State} {p : Port} {tag : Nat}
    (h : ∃ x ∈ s.dev.waitingOf opBeamEnable, x.1 = p ∧ x.2.tag = tag) :
    exec (.beamEnableTimeout p tag) s = .next { s with dev := s.dev.finishWith p tag stTimeout } := by
  obtain ⟨x, hx, hp, ht⟩ := h
  refine exec_of_on (f := fun d =>
    if (d.waitingOf opBeamEnable).any fun c => c.1 == p && c.2.tag == tag then d.finishWith p tag stTimeout else d) rfl ?_
  exact if_pos (List.any_eq_true.2 ⟨x, hx, by simp [hp, ht]⟩)

/-- Settles O23: the request through all that follows it, its refusals, and its time limit. -/
theorem beamEnable : Obligations.BeamEnable := by
  unfold Obligations.BeamEnable
  refine ⟨?_, ?_, ?_, ?_⟩
  · intro s p c h hle hr
    exact ⟨_, exec_of_served rfl h (argOk_none (decide_eq_true hle)) rfl, Dev.beamEnableCmd_only ..,
      Dev.beamEnableCmd_mailbox _ hr⟩
  · intro s p c h hle ht hr
    exact becomes_overridden (Dev.serving_open h)
      (exec_of_served rfl h (argOk_none (decide_eq_true hle)) (Dev.beamEnableCmd_refused _ ⟨ht, hr⟩))
  · intro s p c h hlt
    exact .of_finishWith (exec_of_refused rfl h (argOk_some (decide_eq_false (Nat.not_le.2 hlt)))) (Dev.headOf_open h)
  · intro s p tag h
    obtain ⟨x, hx, hp, ht⟩ := id h
    exact .of_finishWith (exec_beamEnableTimeout h) (by rw [← hp, ← ht]; exact Dev.tagOpen_of_waiting hx)

end Sys2Proof.Machine
end

section
/-! SELECT_MODE (O24). -/

namespace Sys2Proof.Machine

open Sys2Proof

/-! ### The change of a mode (R202) -/

theorem Dev.carryMask_change (d : Dev) (m : Nat) : (d.carryMask m).seq.change = d.seq.change := by
  unfold Dev.carryMask
  split
  · rfl
  · rw [(Dev.post_quiet ..).seq]

theorem Dev.takeMode_change (d : Dev) (m : Nat) (b : Bool) : (d.takeMode m b).seq.change = d.seq.change := by
  unfold Dev.takeMode
  extract_lets d1 base d2
  have h1 : d1.seq = d.seq := by
    unfold d1
    split
    · rfl
    · exact ((Dev.camModeChange_only ..).part .seq rfl).trans ((d.keepTestFrame_only m).part .seq rfl)
  rw [(Dev.rechoose_only _).part .seq rfl, (Dev.rectsModeChange_only ..).part .seq rfl, Dev.carryMask_change]
  exact congrArg Seq.change h1

theorem Dev.takeMode_mode (d : Dev) (m : Nat) (b : Bool) : (d.takeMode m b).core.mode = m := by
  unfold Dev.takeMode
  extract_lets d1 base d2
  rw [(Dev.rechoose_only _).core rfl, (Dev.rectsModeChange_only ..).core rfl, (Dev.carryMask_only ..).core rfl]

theorem Dev.changeMode_quiet (d : Dev) (m : Nat) (b : Bool) :
    ((d.takeMode m b).count kDevModeChanges 0 1).Quiet (d.changeMode m b) := Dev.post_quiet ..

theorem Dev.changeMode_change (d : Dev) (m : Nat) (b : Bool) : (d.changeMode m b).seq.change = d.seq.change :=
  (congrArg Seq.change ((d.changeMode_quiet m b).seq.trans ((Dev.count_only ..).part .seq rfl))).trans (d.takeMode_change m b)

theorem Dev.changeMode_mode (d : Dev) (m : Nat) (b : Bool) : (d.changeMode m b).core.mode = m :=
  (congrArg Core.mode ((d.changeMode_quiet m b).core.trans ((Dev.count_only ..).core rfl))).trans (d.takeMode_mode m b)

/-- The change of a SELECT_MODE is complete: its mode is in force, and no change is under way. -/
theorem Dev.selectNow_place (d : Dev) (m : Nat) (p : Port) (tag : Nat) :
    (d.selectNow m p tag).core.mode = m ∧ (d.selectNow m p tag).seq.change = .none_ := by
  unfold Dev.selectNow
  extract_lets q d1 d2
  rw [(Dev.finish_quiet ..).core, (Dev.finish_quiet ..).seq]
  unfold d2
  split
  · next h => exact ⟨h.symm, rfl⟩
  · have hr : ∀ e : Dev, e.restartTimeline.seq.change = e.seq.change := fun e =>
      (congrArg Seq.change ((Dev.only_foldl e.sides (fun x k => x.dropPass_only k) (Dev.only_refl _ _)).part .seq rfl) :)
    rw [(Dev.restartTimeline_only _).core rfl, hr, Dev.changeMode_mode, Dev.changeMode_change]
    exact ⟨rfl, rfl⟩

/-! ### What follows in STANDBY (Table 1-7) -/

theorem Dev.beamOn_mode (d : Dev) : d.beamOn.core.mode = d.core.mode := by
  have hgo : (d.goTo .beam 0).core.mode = d.core.mode := by
    unfold Dev.goTo
    rw [(Dev.closeSession_only _).core rfl, Dev.setState_core]
  unfold Dev.beamOn
  extract_lets d1 c d2
  rw [(Dev.only_foldl d2.modeSides (fun e k => e.startBoost_only k) (Dev.only_refl d2 _)).core rfl]
  exact hgo

/-- With no change of mode under way, the mode stays. -/
theorem Dev.settle_mode {d : Dev} (h : d.seq.change = .none_) : d.settle.core.mode = d.core.mode := by
  have hs : d.settleMode = d := by
    unfold Dev.settleMode
    split
    · next hc => exact absurd (h.symm.trans hc) (by simp)
    · rfl
  unfold Dev.settle
  extract_lets d1
  rw [show d1 = d from hs]
  split
  · exact d.beamOn_mode
  · rfl

/-! ### SELECT_MODE (R118) -/

theorem Dev.dropChange_of_none {d : Dev} (h : d.seq.change = .none_) : d.dropChange = d := by
  unfold Dev.dropChange
  rw [h]

/-- In STANDBY the mode is in force as soon as side R is as it needs. -/
theorem Dev.selectStandby_mode {d : Dev} {m : Nat} (p : Port) (tag : Nat) (hc : d.seq.change = .none_)
    (hr : (d.moveSideR m).sideRFits m = true) : (d.selectStandby p tag m).core.mode = m := by
  unfold Dev.selectStandby
  rw [Dev.dropChange_of_none hc]
  extract_lets d1
  rw [if_pos (by rw [show d1.sideRFits m = true from hr, Bool.or_true])]
  obtain ⟨hm, hn⟩ := d1.selectNow_place m p tag
  rw [Dev.settle_mode hn, hm]

theorem Dev.selectBeam_of_none {d : Dev} (p : Port) (tag m : Nat) (hc : d.seq.change = .none_) :
    d.selectBeam p tag m =
      if m = d.core.mode then d.finishWith p tag stOk
      else if d.modeBarred m then d.finishWith p tag stOverridden
      else ({ d with seq := { d.seq with change := .pending m p tag false } }).waits p tag := by
  unfold Dev.selectBeam
  simp only [hc, Dev.dropChange_of_none hc]

section

variable {s : State} {p : Port} {c : Cmd} {e : Dev}

theorem exec_selectMode (h : s.dev.serving p opSelectMode c) (hm : s.dev.modeCheck p (byteAt c.payload 0) = none)
    (he : (if s.dev.core.state = .standby then s.dev.selectStandby p c.tag (byteAt c.payload 0)
      else if isTestMode (byteAt c.payload 0) then s.dev.finishWith p c.tag stOverridden
      else s.dev.selectBeam p c.tag (byteAt c.payload 0)) = e) : exec (.selectMode p) s = .next { s with dev := e } :=
  exec_of_served rfl h hm he

theorem exec_selectMode_beam (h : s.dev.serving p opSelectMode c) (hm : s.dev.modeCheck p (byteAt c.payload 0) = none)
    (hs : s.dev.core.state = .beam ∨ s.dev.core.state = .degraded) (ht : isTestMode (byteAt c.payload 0) = false)
    (he : s.dev.selectBeam p c.tag (byteAt c.payload 0) = e) : exec (.selectMode p) s = .next { s with dev := e } := by
  have hs' : s.dev.core.state ≠ .standby := by rcases hs with hs | hs <;> rw [hs] <;> decide
  exact exec_selectMode h hm (by rw [if_neg hs', ht, if_neg Bool.false_ne_true, he])

end

/-- Settles O24: the change in STANDBY, the two answers in BEAM, and the two refusals. -/
theorem selectMode : Obligations.SelectMode := by
  unfold Obligations.SelectMode
  refine ⟨?_, ?_, ?_, ?_, ?_⟩
  · intro s p c h hm hs hc hr
    exact ⟨_, exec_selectMode h hm (if_pos hs), Dev.selectStandby_only .., Dev.selectStandby_mode p c.tag hc hr⟩
  · intro s p c h hm hs ht hc hne hb
    refine .of_waits (exec_selectMode_beam h hm hs ht ?_) (Dev.serving_open h :)
    rw [Dev.selectBeam_of_none _ _ _ hc, if_neg hne, hb, if_neg Bool.false_ne_true]
  · intro s p c h hm hs ht hc heq
    exact .of_finishWith (exec_selectMode_beam h hm hs ht ((Dev.selectBeam_of_none _ _ _ hc).trans (if_pos heq)))
      (Dev.serving_open h)
  · intro s p c h hm hs ht
    exact becomes_overridden (Dev.serving_open h) (exec_selectMode h hm ((if_neg hs).trans (if_pos ht)))
  · intro s p c h hd
    refine .of_finishWith (exec_of_refused rfl h ?_) (Dev.headOf_open h)
    unfold Dev.modeCheck
    rw [hd]
    rfl

end Sys2Proof.Machine
end

section
/-! Settings recorded for a later boundary (O25). -/

namespace Sys2Proof.Machine

open Sys2Proof

/-- A served SET_PARAM of an action, past every check of R113, has its effect. -/
theorem exec_of_servedAct {i : Instr} {s : State} {p : Port} {a : ParamAct} {act : Cmd → Nat → Nat → Dev} {c : Cmd}
    {n v : Nat} {e : Dev} (hx : exec i s = .next { s with dev := s.dev.serveAct p a act }) (h : s.dev.servingAct p a c n v)
    (he : act c n v = e) : exec i s = .next { s with dev := e } := by
  rw [hx, Dev.serveAct_eq h, he]

/-- A source that is not lost is recorded, and nothing is raised or cleared (R298). -/
theorem Dev.dimSet_of_valid {d : Dev} (level : Nat) {source : Nat} (ms : Nat) (hs : d.lamp.inLoss source = false)
    (hd : d.lamp.dimLost = false) :
    d.dimSet level source ms = { d with lamp := { d.lamp with dimPending := some (level, source, ms), dimTodo := 0 } } := by
  unfold Dev.dimSet
  rw [hs, hd, if_neg Bool.false_ne_true, if_neg Bool.false_ne_true]

/-- No SIG_MISMATCH of the side waits for an action. -/
theorem Dev.signatureDone_of_inactive {d : Dev} {side : Nat} (rect : Nat) (h : d.faultActive 0x0C01 side = false) :
    d.signatureDone side rect = d := by
  refine if_neg fun ha => ?_
  obtain ⟨f, hf, hm⟩ := List.any_eq_true.1 ha
  exact List.any_eq_false.1 h f hf (Bool.and_eq_true_iff.1 hm).1

/-- Settles O25: each setting by its service, whose effect is the record itself. -/
theorem recordedSettings : Obligations.RecordedSettings := by
  unfold Obligations.RecordedSettings
  refine ⟨?_, ?_, ?_, ?_, ?_, ?_, ?_⟩
  · intro s p c h hk
    have hopen : (s.dev.recordMask (BitVec.ofNat 32 (leField c.payload 0 4))).tagOpen p c.tag = true :=
      (Dev.tagOpen_of_box (Dev.sameBox_of_frame (Dev.recordMask_only ..) rfl) ..).trans (Dev.serving_open h)
    exact .of_finishWith (exec_of_served rfl h (argOk_none hk) rfl) hopen
  · intro s p c h hd
    refine .of_finishWith (exec_of_served rfl h ?_ rfl) (Dev.serving_open h :)
    exact if_neg (by rw [hd]; simp)
  · intro s p c h hsrc hms hl hd
    refine .of_finishWith (exec_of_served rfl h (argOk_none ?_) ?_) (Dev.serving_open h :)
    · rw [decide_eq_true hsrc, decide_eq_true hms, Bool.true_and]
    · exact congrArg (fun e => Dev.finishWith e p c.tag stOk) (Dev.dimSet_of_valid _ _ hl hd)
  · intro s p c h hok
    exact .of_finishWith (exec_of_served rfl h (argOk_none hok) rfl) (Dev.serving_open h :)
  · intro s p c h hok hf
    refine .of_finishWith (exec_of_served rfl h hok ?_) (Dev.serving_open h :)
    exact congrArg (fun e => Dev.finishWith e p c.tag stOk) (Dev.signatureDone_of_inactive _ (hf :))
  · intro s p c i v h hv
    refine .of_finishWith (exec_of_servedAct rfl h ?_) (Dev.servingAct_open h :)
    exact if_neg (by rw [hv, Bool.false_and]; exact Bool.false_ne_true)
  · intro s p c i v h
    exact .of_finishWith (exec_of_servedAct rfl h rfl) (Dev.servingAct_open h :)

end Sys2Proof.Machine
end

section
/-! Layer commands of the mailbox (O26). -/

namespace Sys2Proof.Machine

open Sys2Proof

/-! ### Declaration and destruction (R121, R142, R150) -/

theorem hostLayer_lt {n : Nat} (h : hostLayer n = true) : n < 8 := by
  have := of_decide_eq_true (Bool.and_eq_true_iff.1 h).2
  omega

/-- The shared scalers that a declaration takes: those of a layer that is not scaled on intake (R141, R142). -/
def scalersTaken (pl : Placed) (c : Decl) : Nat :=
  if pl.code = 0 ∨ pl.code = 3 then scalersNeeded c.srcW c.srcH c.outW c.outH else 0

theorem Dev.declare_layer {d : Dev} {n : Nat} (c : Decl) (p : Placed) (l : List Nat) (h : n < d.cmp.layers.length) :
    ((d.declare n c p l).layer n).st = .declared ∧ ((d.declare n c p l).layer n).decl = c := by
  have hl := modAt_getD_self d.cmp.layers (fun x => { Layer.reset with
    st := .declared, decl := c, placement := p.code, scalers := l, poolBytes := p.pool, dramBlocks := p.dram,
    bufs := List.replicate (if p.code = 1 ∨ p.code = 2 then 2 else 3) Buf.empty,
    staging := if p.code = 1 ∨ p.code = 2 then List.replicate 2 Buf.empty else [], fences := x.fences }) Layer.reset h
  exact ⟨congrArg Layer.st hl, congrArg Layer.decl hl⟩

section

variable {d : Dev} {n : Nat} {c : Decl} (p : Port) (tag : Nat)

theorem Dev.layerDeclare_taken (hst : (d.layer n).st = .free) (hd : (d.place c).dram ≤ d.cmp.dramFree)
    (hs : scalersTaken (d.place c) c ≤ d.cmp.scalersFree.length) :
    d.layerDeclare p tag n c =
      (d.declare n c (d.place c) (d.cmp.scalersFree.take (scalersTaken (d.place c) c))).finishWith p tag stOk :=
  (if_neg (not_not.2 hst)).trans ((if_neg (Nat.not_lt.2 hd)).trans (if_neg (Nat.not_lt.2 hs)))

theorem Dev.layerDeclare_inUse (hst : (d.layer n).st ≠ .free) : d.layerDeclare p tag n c = d.finishWith p tag stOverridden :=
  if_pos hst

theorem Dev.layerDeclare_noMemory (hst : (d.layer n).st = .free) (hd : d.cmp.dramFree < (d.place c).dram) :
    d.layerDeclare p tag n c = d.finishWith p tag stNoResource :=
  (if_neg (not_not.2 hst)).trans (if_pos hd)

end

theorem exec_layerDeclare {s : State} {p : Port} {c : Cmd} {e : Dev} (h : s.dev.serving p opLayerDeclare c)
    (hn : hostLayer (byteAt c.payload 0) = true) (hok : (declOf c.payload).ok = true)
    (he : s.dev.layerDeclare p c.tag (byteAt c.payload 0) (declOf c.payload) = e) :
    exec (.layerDeclare p) s = .next { s with dev := e } :=
  exec_of_served rfl h (argOk_none (Bool.and_eq_true_iff.2 ⟨hn, hok⟩)) he

/-! ### Commit groups (R122, R147) -/

theorem Dev.storeEarly_groups (d : Dev) (f t : Nat) : (d.storeEarly f t).cmp.groups = d.cmp.groups := by
  unfold Dev.storeEarly
  split
  · rfl
  · split
    · exact (congrArg Compose.groups ((Dev.count_only ..).part .cmp rfl) :)
    · rfl

theorem Dev.storeUnnamed_groups (d : Dev) (l : List (Nat × Option Nat)) : (d.storeUnnamed l).cmp.groups = d.cmp.groups := by
  unfold Dev.storeUnnamed
  induction l generalizing d with
  | nil => rfl
  | cons e l ih =>
    refine (ih _).trans ?_
    dsimp only
    split
    · split
      · rfl
      · exact d.storeEarly_groups ..
    · rfl

/-- An armed group is armed, whatever fences an earlier commit gave up. -/
theorem Dev.arm_armed {d : Dev} {g : Nat} (l : List Nat) (p : Port) (tag : Nat) (h : g < d.cmp.groups.length) :
    ((d.arm g l p tag).group g).armed = true := by
  unfold Dev.arm Dev.group
  extract_lets seen held q d1
  rw [Dev.storeUnnamed_groups]
  exact congrArg Group.armed (modAt_getD_self _ _ _ h)

theorem Dev.commitCmd_of_unarmed {d : Dev} {g : Nat} (p : Port) (tag : Nat) (l : List Nat) (h : (d.group g).armed = false) :
    d.commitCmd p tag g l = (d.arm g l p tag).waits p tag := by
  unfold Dev.commitCmd
  extract_lets old d1
  rw [show d1 = d from if_neg (by rw [h]; exact Bool.false_ne_true)]

/-! ### Fences (R76, R122) -/

theorem Dev.waitingOf_of_box {a b : Dev} (h : a.sameBox b) (op : Nat) : b.waitingOf op = a.waitingOf op := by
  unfold Dev.waitingOf
  exact congrArg (List.flatMap · allPorts) (funext fun p => by rw [(h.box p).1])

/-- A fence that no FENCE_SIGNAL waits for completes no command. -/
theorem Dev.signalFence_sameBox {d : Dev} (f : Nat) (h : d.waitingOf opFenceSignal = []) : d.sameBox (d.signalFence f) := by
  unfold Dev.signalFence
  extract_lets cs d1
  have h1 : d.sameBox d1 := by
    unfold d1
    split
    · exact Dev.sameBox_of_ports rfl
    · exact Dev.sameBox_of_frame (d.storeEarly_only ..) rfl
  have hw : d1.waitingOf 0x0504 = [] := (Dev.waitingOf_of_box h1 _).trans h
  unfold Dev.finishSignals
  rw [hw]
  exact h1

theorem Dev.fence_of_none {d : Dev} {b : List Byte} (h : byteAt b 2 = 0xFF) :
    d.fence b = (d.signalFence (leField b 0 2), true) := if_pos h

/-- A fence for a frame still to come of an idle layer without intake is bound to the layer. -/
theorem Dev.fence_of_coming {d : Dev} {b : List Byte} (hn : hostLayer (byteAt b 2) = true)
    (hi : (d.layer (byteAt b 2)).intake = false) (hf : (d.layer (byteAt b 2)).frameSt = .idle)
    (hnew : (d.layer (byteAt b 2)).newFrame (leField b 4 2) = true) :
    d.fence b = (d.modLayer (byteAt b 2) fun l => { l with
      fences := l.fences ++ [{ fence := leField b 0 2, frame := leField b 4 2, atCopy := false }] }, false) := by
  have hlt := hostLayer_lt hn
  have hge := of_decide_eq_true (Bool.and_eq_true_iff.1 hn).1
  unfold Dev.fence
  extract_lets f n frame l bind inCopy
  have hin : inCopy = false := by simp [inCopy, l, n, hi]
  rw [if_neg (by omega), if_neg (by omega)]
  simp only [l, n, hf, hin, Bool.false_eq_true, if_false, frame, hnew, if_true]
  rfl

theorem exec_fenceSignal {s : State} {p : Port} {c : Cmd} {r : Dev × Bool} (h : s.dev.serving p opFenceSignal c)
    (hn : byteAt c.payload 2 = 0xFF ∨ hostLayer (byteAt c.payload 2) = true) (hr : s.dev.fence c.payload = r) :
    exec (.fenceSignal p) s = .next { s with dev := if r.2 then r.1.finishWith p c.tag stOk else r.1.waits p c.tag } := by
  refine exec_of_served rfl h (argOk_none ?_) (by rw [← hr])
  rcases hn with hn | hn
  · rw [hn]
    rfl
  · rw [hn, Bool.or_true]

/-- Settles O26: the declaration by what it finds, and the other commands by the record that they leave. -/
theorem layerCommands : Obligations.LayerCommands := by
  unfold Obligations.LayerCommands
  refine ⟨?_, ?_, ?_, ?_, ?_, ?_, ?_, ?_⟩
  · rintro s p c hI h hn hok hst hd need rfl hs
    have hlt : byteAt c.payload 0 < s.dev.cmp.layers.length := hI.layers ▸ hostLayer_lt hn
    have hopen : s.dev.tagOpen p c.tag = true := Dev.serving_open h
    refine ⟨_, exec_layerDeclare h hn hok (Dev.layerDeclare_taken p c.tag hst hd hs), Dev.finishWith_quiet ..,
      Dev.finishWith_answered stOk (hopen :), ?_⟩
    obtain ⟨hdecl, hdec⟩ := Dev.declare_layer (declOf c.payload) (s.dev.place (declOf c.payload))
      (s.dev.cmp.scalersFree.take (scalersTaken (s.dev.place (declOf c.payload)) (declOf c.payload))) hlt
    unfold Dev.layer at hdecl hdec ⊢
    rw [(Dev.finishWith_quiet ..).cmp]
    exact ⟨hdecl, hdec, rfl⟩
  · intro s p c h hn hok hst
    exact becomes_overridden (Dev.serving_open h) (exec_layerDeclare h hn hok (Dev.layerDeclare_inUse p c.tag hst))
  · intro s p c h hn hok hst hd
    exact .of_finishWith (exec_layerDeclare h hn hok (Dev.layerDeclare_noMemory p c.tag hst hd)) (Dev.serving_open h)
  · intro s p c h hn hst
    exact .of_waits (exec_of_served rfl h (argOk_none hn) (if_neg (not_not.2 hst))) (Dev.serving_open h :)
  · intro s p c h hn hst
    exact becomes_overridden (Dev.serving_open h) (exec_of_served rfl h (argOk_none hn) (if_pos hst))
  · intro s p c hI h hg hk ha
    have hopen : (s.dev.arm (byteAt c.payload 0) (leFields c.payload 4 2 (byteAt c.payload 1)) p c.tag).tagOpen p c.tag = true :=
      (Dev.tagOpen_of_box (Dev.sameBox_of_frame (Dev.arm_only ..) rfl) ..).trans (Dev.serving_open h)
    refine ⟨_, exec_of_served rfl h (argOk_none ?_) ?_, Dev.waits_quiet .., Dev.waits_waitsFor hopen, ?_⟩
    · rw [decide_eq_true hg, decide_eq_true hk, Bool.true_and]
    · exact Dev.commitCmd_of_unarmed p c.tag _ ha
    · unfold Dev.group
      rw [(Dev.waits_quiet ..).cmp]
      exact Dev.arm_armed _ _ _ (by rw [hI.groups]; omega)
  · intro s p c h hn hw
    exact .of_finishWith (exec_fenceSignal h (.inl hn) (Dev.fence_of_none hn))
      ((Dev.tagOpen_of_box (Dev.signalFence_sameBox _ hw) ..).trans (Dev.serving_open h))
  · intro s p c h hn hi hf hnew
    exact .of_waits (exec_fenceSignal h (.inr hn) (Dev.fence_of_coming hn hi hf hnew)) (Dev.serving_open h :)

end Sys2Proof.Machine
end

section
/-! Object lists and geometry by mailbox (O27). -/

namespace Sys2Proof.Machine

open Sys2Proof

/-! ### The list in collection (R123)

Only OBJECT_LIST touches it: events and responses leave it. -/

/-- The parts collected are the same in two states of the block. -/
structure Dev.KeepsParts (a b : Dev) : Prop where
  parts : b.host.parts = a.host.parts

namespace Dev.KeepsParts

theorem refl (d : Dev) : d.KeepsParts d := ⟨rfl⟩

theorem trans {a b c : Dev} (h : a.KeepsParts b) (g : b.KeepsParts c) : a.KeepsParts c := ⟨g.parts.trans h.parts⟩

theorem of_frame {a b : Dev} {l : List Part} (h : a.onlyChanges b l) (hl : l.contains .host = false) : a.KeepsParts b :=
  ⟨congrArg HostUnit.parts (h.part .host hl)⟩

theorem foldl {α : Type} {f : Dev → α → Dev} (hf : ∀ (e : Dev) x, e.KeepsParts (f e x)) (xs : List α) (d : Dev) :
    d.KeepsParts (xs.foldl f d) := by
  induction xs generalizing d with
  | nil => exact refl d
  | cons x xs ih => exact (hf d x).trans (ih _)

end Dev.KeepsParts

theorem Dev.modPort_keepsParts (d : Dev) (p : Port) (f : PortState → PortState) : d.KeepsParts (d.modPort p f) := ⟨rfl⟩
theorem Dev.modLink_keepsParts (d : Dev) (l : LinkId) (f : Link → Link) : d.KeepsParts (d.modLink l f) := ⟨rfl⟩
theorem Dev.setSht_keepsParts (d : Dev) (q : Shutter) : d.KeepsParts { d with sht := q } := ⟨rfl⟩
theorem Dev.canSend_keepsParts (d : Dev) (id : Nat) (m : List Byte) : d.KeepsParts (d.canSend id m) := ⟨rfl⟩

theorem Dev.modMap_keepsParts (d : Dev) (p : RegPort) (f : RegMap → RegMap) : d.KeepsParts (d.modMap p f) := by
  cases p <;> exact ⟨rfl⟩

theorem Dev.pumpVc1_keepsParts (d : Dev) (l : LinkId) (n : Nat) : d.KeepsParts (d.pumpVc1 l n) := by
  induction n generalizing d with
  | zero => exact .refl d
  | succ n ih =>
    unfold Dev.pumpVc1
    dsimp only
    split
    · split
      · exact (d.modLink_keepsParts ..).trans (ih _)
      · split
        · exact ((d.modPort_keepsParts ..).trans (Dev.modLink_keepsParts ..)).trans (ih _)
        · exact .refl d
    · exact .refl d

theorem Dev.flushCan_keepsParts (d : Dev) : d.KeepsParts d.flushCan := by
  unfold Dev.flushCan
  split
  · exact (Dev.KeepsParts.foldl (fun e _ => e.canSend_keepsParts ..) _ _).trans (Dev.modPort_keepsParts ..)
  · exact .refl d

theorem Dev.postTo_keepsParts (d : Dev) (p : Port) (c a : Nat) : d.KeepsParts (d.postTo p c a) := by
  unfold Dev.postTo
  extract_lets q d0 d1
  have h0 : d.KeepsParts d0 := (d.modPort_keepsParts ..).trans (.of_frame (Dev.count_only ..) rfl)
  have h1 : d.KeepsParts d1 := by
    unfold d1
    split
    · exact d.modPort_keepsParts ..
    · split
      · exact h0.trans (d0.modMap_keepsParts .spi _)
      · exact h0
  split
  · exact h1.trans (Dev.pumpVc1_keepsParts ..)
  · exact h1.trans (Dev.pumpVc1_keepsParts ..)
  · exact h1.trans (Dev.flushCan_keepsParts _)
  · exact h1

theorem Dev.postFuel_keepsParts (n : Nat) (d : Dev) (c a : Nat) : d.KeepsParts (Dev.postFuel n d c a) := by
  induction n generalizing d c a with
  | zero => exact .refl d
  | succ n ih => exact (Dev.KeepsParts.foldl (fun e _ => e.postTo_keepsParts ..) _ _).trans (.foldl (fun e _ => ih ..) _ _)

theorem Dev.post_keepsParts (d : Dev) (c a : Nat) : d.KeepsParts (d.post c a) := Dev.postFuel_keepsParts ..

theorem Dev.respond_keepsParts (d : Dev) (p : Port) (slot op tag st : Nat) (b : List Byte) :
    d.KeepsParts (d.respond p slot op tag st b) := by
  unfold Dev.respond
  extract_lets
  split
  · exact d.modMap_keepsParts ..
  · exact d.modMap_keepsParts ..
  · exact d.canSend_keepsParts ..
  · exact (d.modLink_keepsParts ..).trans (Dev.pumpVc1_keepsParts ..)
  · exact (d.modLink_keepsParts ..).trans (Dev.pumpVc1_keepsParts ..)

theorem Dev.finish_keepsParts (d : Dev) (p : Port) (tag st : Nat) (b : List Byte) : d.KeepsParts (d.finish p tag st b) := by
  unfold Dev.finish
  split
  · exact .refl d
  · extract_lets e d1 d2
    have h2 : d.KeepsParts d2 := (d.modPort_keepsParts ..).trans (Dev.respond_keepsParts ..)
    split
    · exact h2.trans (Dev.post_keepsParts ..)
    · exact h2

/-! ### The list that the engine takes (R258, R260) -/

theorem Dev.acceptList_keepsParts (d : Dev) (b : List Byte) : d.KeepsParts (d.acceptList b) := by
  unfold Dev.acceptList
  extract_lets objs low bad d1 l seen q d2 q2
  have h1 : d.KeepsParts d1 := ⟨rfl⟩
  have h2 : d.KeepsParts d2 := by
    unfold d2
    split
    · exact h1.trans (d1.setSht_keepsParts _)
    · exact h1
    · exact (h1.trans (d1.setSht_keepsParts _)).trans (Dev.post_keepsParts ..)
  exact (h2.trans (d2.setSht_keepsParts _)).trans (.of_frame (Dev.rasterList_only ..) rfl)

theorem Dev.acceptList_record (d : Dev) (b : List Byte) :
    (d.acceptList b).sht.newest.map (fun x => (x.time, x.count)) = some (leField b 0 8, byteAt b 8) := by
  unfold Dev.acceptList
  rw [Dev.rasterList_newest]
  rfl

theorem Dev.handList_of_good {d : Dev} (path : Nat) {b : List Byte} (h : d.opStateOk opObjectList = true)
    (hr : d.listReason b = 0) : d.handList path b = (d.acceptList b, true) := by
  have hs : d.core.state = .standby ∨ d.core.state = .beam ∨ d.core.state = .degraded := by
    have : StateRule.ok .notSafe d.core.state = true := h
    simpa [StateRule.ok, or_assoc] using this
  unfold Dev.handList
  rw [if_pos hs, hr]
  rfl

/-- The block with no list in collection. -/
def Dev.partsDropped (d : Dev) : Dev := { d with host := { d.host with parts := none } }

section

variable {d : Dev} {p : Port} {b : List Byte} {l : ListParts} (tag : Nat)

theorem Dev.objectPart_more (hl : d.takePart p b = some l) (hm : l.next < l.parts) :
    d.objectPart p tag b = ({ d with host := { d.host with parts := some l } }).finishWith p tag stOk := by
  unfold Dev.objectPart
  simp only [hl, hm, if_true]

theorem Dev.objectPart_stray (hl : d.takePart p b = none) :
    d.objectPart p tag b = d.partsDropped.finishWith p tag stBadArg := by
  unfold Dev.objectPart
  simp only [hl]
  rfl

theorem Dev.objectPart_last (hl : d.takePart p b = some l) (hm : l.parts ≤ l.next) (hs : d.opStateOk opObjectList = true)
    (hr : d.listReason l.data = 0) : d.objectPart p tag b = (d.partsDropped.acceptList l.data).finishWith p tag stOk := by
  unfold Dev.objectPart
  simp only [hl, Nat.not_lt.2 hm, if_false]
  exact congrArg (fun r : Dev × Bool => r.1.finishWith p tag (if r.2 then stOk else stBadArg))
    (Dev.handList_of_good (d := d.partsDropped) 2 hs hr)

end

theorem exec_objectList {s : State} {p : Port} {c : Cmd} {e : Dev} (h : s.dev.serving p opObjectList c)
    (h1 : 1 ≤ byteAt c.payload 3) (h32 : byteAt c.payload 3 ≤ 32) (hlt : byteAt c.payload 2 < byteAt c.payload 3)
    (he : s.dev.objectPart p c.tag c.payload = e) : exec (.objectList p) s = .next { s with dev := e } :=
  exec_of_served rfl h (argOk_none (by simp [h1, h32, hlt])) he

/-! ### The geometry record (R262) -/

theorem Dev.clearFault_sameBox (d : Dev) (code inst : Nat) : d.sameBox (d.clearFault code inst) := by
  unfold Dev.clearFault
  split
  · exact ⟨fun p => ((Dev.post_sameBox ..).box p :)⟩
  · exact d.sameBox_refl

/-- Settles O27: the list by its part, and the record through the clearance of GEOMETRY_INVALID. -/
theorem shutterMailbox : Obligations.ShutterMailbox := by
  unfold Obligations.ShutterMailbox
  refine ⟨?_, ?_, ?_, ?_⟩
  · intro s p c l h h1 h32 hlt hl hm
    exact .of_finishWith (exec_objectList h h1 h32 hlt (Dev.objectPart_more _ hl hm)) (Dev.serving_open h :)
  · intro s p c h h1 h32 hlt hl
    exact .of_finishWith (exec_objectList h h1 h32 hlt (Dev.objectPart_stray _ hl)) (Dev.serving_open h :)
  · intro s p c l h h1 h32 hlt hl hm hr
    have he := Dev.objectPart_last c.tag hl hm h.2 hr
    refine ⟨_, exec_objectList h h1 h32 hlt rfl, Dev.objectPart_only .., ?_, ?_⟩
    · rw [he]
      exact ((Dev.acceptList_keepsParts ..).trans (Dev.finish_keepsParts ..)).parts
    · rw [he, (Dev.finishWith_quiet ..).sht]
      exact Dev.acceptList_record ..
  · intro s p c h hok
    have hclear := (s.dev.storeGeometry (maskGeometry c.payload)).clearFault_only 0x0804 0
    have hopen : ((s.dev.storeGeometry (maskGeometry c.payload)).clearFault 0x0804 0).tagOpen p c.tag = true :=
      (Dev.tagOpen_of_box (Dev.clearFault_sameBox ..) ..).trans (Dev.serving_open h :)
    have hq := ((s.dev.storeGeometry (maskGeometry c.payload)).clearFault 0x0804 0).finishWith_quiet p c.tag stOk
    refine ⟨_, exec_of_served rfl h (argOk_none hok) rfl, ?_, ?_, ?_, ?_, Dev.finishWith_answered stOk hopen⟩
    · exact Dev.only_then (Dev.finishWith_only ..) (by decide) <| Dev.only_then hclear (by decide) <|
        (s.dev.storeGeometry_only _).mono (by decide)
    · exact hq.sht.trans (hclear.part .sht rfl)
    · exact hq.nor.trans (hclear.part .nor rfl)
    · rw [Dev.faultActive_of_saf hq.saf]
      exact Dev.clearFault_self ..

end Sys2Proof.Machine
end

section
/-! Journal seals and calibration commands (O28). -/

namespace Sys2Proof.Machine

open Sys2Proof

/-! ### The seal of a segment (R373) -/

/-- A record takes the next entry number; it leaves the segment's number, the flush under way and the seals that wait. -/
theorem Dev.addRecord_jnl (d : Dev) (b : List Byte) :
    (d.addRecord b).jnl.next = entryMod (d.jnl.next + 1) ∧ (d.addRecord b).jnl.segment = d.jnl.segment ∧
    (d.addRecord b).jnl.flushing = d.jnl.flushing ∧ (d.addRecord b).jnl.seals = d.jnl.seals := by
  unfold Dev.addRecord
  extract_lets link e ring extra gone d1
  split
  · exact ⟨rfl, rfl, rfl, rfl⟩
  · rw [(Dev.count_only ..).part .jnl rfl]
    exact ⟨rfl, rfl, rfl, rfl⟩

/-- The next segment opens behind the newest record (R373). -/
def Dev.segmentOpened (d : Dev) : Dev :=
  { d with jnl := { d.jnl with
      segment := entryMod (d.jnl.segment + 1), segFirst := d.jnl.next, segCount := 0, segLimit := d.par kJnlSegEntries 0 } }

/-- A seal is a record, behind which the next segment opens. -/
theorem Dev.sealSegment_eq (d : Dev) (reason : Nat) : ∃ b, d.sealSegment reason = (d.addRecord b).segmentOpened := ⟨_, rfl⟩

theorem Dev.sealSegment_jnl (d : Dev) (reason : Nat) :
    (d.sealSegment reason).jnl.next = entryMod (d.jnl.next + 1) ∧
    (d.sealSegment reason).jnl.segment = entryMod (d.jnl.segment + 1) ∧
    (d.sealSegment reason).jnl.segFirst = (d.sealSegment reason).jnl.next ∧
    (d.sealSegment reason).jnl.flushing = d.jnl.flushing ∧ (d.sealSegment reason).jnl.seals = d.jnl.seals := by
  obtain ⟨b, hb⟩ := d.sealSegment_eq reason
  obtain ⟨hnext, hseg, hflush, hseals⟩ := d.addRecord_jnl b
  rw [hb]
  unfold Dev.segmentOpened
  dsimp only
  exact ⟨hnext, by rw [hseg], rfl, hflush, hseals⟩

/-- The command waits for the seal's record in NOR (R126). -/
def Dev.awaitSeal (d : Dev) (e : Nat) (p : Port) (tag : Nat) : Dev :=
  { d with jnl := { d.jnl with seals := d.jnl.seals ++ [(e, p, tag)] } }

theorem Dev.awaitSeal_host (d : Dev) (e : Nat) (p : Port) (tag : Nat) : (d.awaitSeal e p tag).host = d.host := rfl

theorem Dev.awaitSeal_jnl (d : Dev) (e : Nat) (p : Port) (tag : Nat) :
    (d.awaitSeal e p tag).jnl = { d.jnl with seals := d.jnl.seals ++ [(e, p, tag)] } := rfl

theorem Dev.journalSealCmd_eq (d : Dev) (p : Port) (tag : Nat) :
    d.journalSealCmd p tag = ((((d.sealSegment 1).awaitSeal d.jnl.next p tag).waits p tag).kick true) := by
  unfold Dev.journalSealCmd Dev.awaitSeal
  rfl

/-- A flush under way takes the seal along (R376). -/
theorem Dev.kick_of_flushing {d : Dev} (now : Bool) (h : d.jnl.flushing = true) : d.kick now = d := by
  unfold Dev.kick
  rw [if_pos h]

theorem Dev.journalSealCmd_of_flushing {d : Dev} (p : Port) (tag : Nat) (h : d.jnl.flushing = true) :
    d.journalSealCmd p tag = ((d.sealSegment 1).awaitSeal d.jnl.next p tag).waits p tag := by
  obtain ⟨-, -, -, hflush, -⟩ := d.sealSegment_jnl 1
  rw [Dev.journalSealCmd_eq, Dev.kick_of_flushing]
  rw [(Dev.waits_quiet ..).jnl, Dev.awaitSeal_jnl, hflush, h]

theorem exec_journalSealTimeout {s : State} {e : Nat} {p : Port} {tag : Nat} {rest : List (Nat × Port × Nat)}
    (h : s.dev.jnl.seals = (e, p, tag) :: rest) :
    exec .journalSealTimeout s = .next { s with
      dev := { s.dev with jnl := { s.dev.jnl with seals := rest } }.finishWith p tag stTimeout } := by
  show execJournalSealTimeout s = _
  simp only [execJournalSealTimeout, State.on, h]

/-! ### CAL_RUN (R127, R407) -/

/-- The die has moved by more than CAL_DELTA_T in a scope that the command names. -/
def Dev.calMoved (d : Dev) (scopes : BitVec 3) : Bool :=
  (List.range 3).any fun i =>
    scopes.getLsbD i && decide (10 * d.par kCalCalDeltaT 0 < (d.thm.tDie - d.cal.lastRunT.getD i 0).natAbs)

theorem scopes_ne_zero {n : Nat} (h : n % 8 ≠ 0) : BitVec.ofNat 3 n ≠ 0 := fun e =>
  h ((BitVec.toNat_ofNat n 3).symm.trans (congrArg BitVec.toNat e))

section

variable {d : Dev} {scopes : BitVec 3} (p : Port) (tag : Nat)

theorem Dev.calRunCmd_of_still (h0 : scopes ≠ 0) (hm : d.calMoved scopes = false) :
    d.calRunCmd p tag scopes false = d.finish p tag stOk (leBytes 4 0) := by
  unfold Dev.calRunCmd
  extract_lets moved
  rw [if_neg h0, if_pos ⟨rfl, by rw [show moved = false from hm]; rfl⟩]

/-- A forced run that finds another at work. -/
theorem Dev.calRunCmd_of_busy (h0 : scopes ≠ 0) (hr : d.cal.run.isSome = true) :
    d.calRunCmd p tag scopes true =
      if d.cal.queuedRun.isSome then d.finishWith p tag stBudgetDenied
      else ({ d with cal := { d.cal with queuedRun := some (scopes, p, tag) } }).waits p tag := by
  unfold Dev.calRunCmd
  rw [if_neg h0, if_neg (fun h => Bool.false_ne_true h.1), if_pos hr]

end

theorem exec_calRun {s : State} {p : Port} {c : Cmd} {e : Dev} (h : s.dev.serving p opCalRun c)
    (h0 : byteAt c.payload 0 % 8 ≠ 0)
    (he : s.dev.calRunCmd p c.tag (BitVec.ofNat 3 (byteAt c.payload 0)) ((byteAt c.payload 1).testBit 0) = e) :
    exec (.calRun p) s = .next { s with dev := e } :=
  exec_of_served rfl h (argOk_none (bne_iff_ne.2 h0)) he

/-- Settles O28: the seal with its record and its time limit, and CAL_RUN by what it finds at work. -/
theorem journalAndCalCommands : Obligations.JournalAndCalCommands := by
  unfold Obligations.JournalAndCalCommands
  refine ⟨?_, ?_, ?_, ?_, ?_⟩
  · rintro s p c h hf e rfl
    obtain ⟨hnext, hseg, hfirst, -, hseals⟩ := s.dev.sealSegment_jnl 1
    rw [← hseals]
    have hopen : ((s.dev.sealSegment 1).awaitSeal s.dev.jnl.next p c.tag).tagOpen p c.tag = true :=
      (Dev.tagOpen_of_box (Dev.sameBox_trans (Dev.sameBox_of_frame (Dev.sealSegment_only ..) rfl)
        (Dev.sameBox_of_ports (congrArg HostUnit.ports (Dev.awaitSeal_host ..)))) ..).trans (Dev.serving_open h)
    refine ⟨_, exec_of_served rfl h rfl (Dev.journalSealCmd_of_flushing p c.tag hf), Dev.waits_quiet ..,
      Dev.waits_waitsFor hopen, ?_⟩
    rw [(Dev.waits_quiet ..).jnl, Dev.awaitSeal_jnl]
    dsimp only
    exact ⟨hnext, hseg, hfirst, rfl⟩
  · intro s p e tag rest hs ho
    exact .of_finishWith (exec_journalSealTimeout hs) (ho :)
  · intro s p c h h0 hforce hdue
    refine .of_finish (exec_calRun h h0 ?_) (Dev.serving_open h)
    rw [hforce]
    refine Dev.calRunCmd_of_still p c.tag (scopes_ne_zero h0) (List.any_eq_false.2 fun i hi hmoved => ?_)
    obtain ⟨hscope, hfar⟩ := Bool.and_eq_true_iff.1 hmoved
    exact Nat.not_lt.2 (hdue i (List.mem_range.1 hi) hscope) (of_decide_eq_true hfar)
  · intro s p c h h0 hforce hrun hq
    refine .of_waits (exec_calRun h h0 ?_) (Dev.serving_open h :)
    rw [hforce, Dev.calRunCmd_of_busy p c.tag (scopes_ne_zero h0) hrun, hq]
    rfl
  · intro s p c h h0 hforce hrun hq
    refine .of_finishWith (exec_calRun h h0 ?_) (Dev.serving_open h)
    rw [hforce, Dev.calRunCmd_of_busy p c.tag (scopes_ne_zero h0) hrun, if_pos (Option.isSome_iff_ne_none.2 hq)]
    rfl

end Sys2Proof.Machine
end

section
/-! Firmware update (O29). -/

namespace Sys2Proof.Machine

open Sys2Proof

/-! ### A request that is not denied (R435) -/

theorem Dev.grant_sluice (d : Dev) (q : SlReq) :
    (d.grant q).sluice = { d.sluice with held := d.sluice.held ++ [(q.holder, q.core, q.lamp, d.now)] } := by
  unfold Dev.grant
  extract_lets l d1 d2
  have h2 : d2.sluice = d1.sluice := (Dev.count_only ..).part .sluice rfl
  split
  · extract_lets p
    split
    · rw [Dev.modLside_sluice, (Dev.applyVal_only ..).part .sluice rfl, h2]
    · exact h2
  · rw [(Dev.count_only ..).part .sluice rfl, h2]
  · exact h2

/-- The holder has its ticket, or waits for it. -/
def Dev.ticketStands (d : Dev) (h : Holder) : Prop := (d.ticketHeld h || d.ticketQueued h) = true

/-- A request stands unless it is denied at once. -/
theorem Dev.request_stands {d : Dev} {x : Holder}
    (h : d.ticketHeld x = true ∨ d.ticketQueued x = true ∨ d.deniedAtOnce (d.slReq x) = false) :
    (d.request x).ticketStands x := by
  unfold Dev.ticketStands Dev.request
  by_cases hs : (d.ticketHeld x || d.ticketQueued x) = true
  · rw [if_pos hs, hs]
  · have hd : d.deniedAtOnce (d.slReq x) = false := by
      rcases h with h | h | h
      · exact absurd (by rw [h, Bool.true_or]) hs
      · exact absurd (by rw [h, Bool.or_true]) hs
      · exact h
    rw [if_neg hs]
    extract_lets q
    rw [show d.deniedAtOnce q = false from hd, if_neg Bool.false_ne_true]
    split
    · unfold Dev.ticketHeld
      rw [Dev.grant_sluice]
      simp [q, Dev.slReq]
    · unfold Dev.ticketQueued
      simp [q, Dev.slReq]

theorem Dev.Quiet.par {a b : Dev} (h : a.Quiet b) {key i : Nat} (hk : ∀ p : Port, pid key i ≠ pid kHostEvtLost p.ix) :
    b.par key i = a.par key i :=
  congrArg Int.toNat (h.valOf hk)

theorem Dev.Quiet.slReq {a b : Dev} (h : a.Quiet b) (u : EraseUser) : b.slReq (.erase u) = a.slReq (.erase u) := by
  unfold Dev.slReq Dev.now
  have hcore : b.par kPwrCoreBudget 0 = a.par kPwrCoreBudget 0 := h.par fun p => by cases p <;> decide
  have hlamp : b.par kPwrLampBudget 0 = a.par kPwrLampBudget 0 := h.par fun p => by cases p <;> decide
  rw [hcore, hlamp, h.clk]
  rfl

theorem Dev.Quiet.deniedAtOnce {a b : Dev} (h : a.Quiet b) (q : SlReq) : b.deniedAtOnce q = a.deniedAtOnce q := by
  unfold Dev.deniedAtOnce Dev.slFits
  rw [h.sluice, h.core]

theorem Dev.request_sameBox (d : Dev) (x : Holder) : d.sameBox (d.request x) := by
  unfold Dev.request
  split
  · exact d.sameBox_refl
  · extract_lets q
    split
    · exact Dev.sameBox_trans (Dev.count_sameBox ..) (Dev.post_sameBox ..)
    · split
      · exact Dev.sameBox_of_frame (Dev.grant_only ..) rfl
      · exact Dev.sameBox_of_ports rfl

/-! ### The boot directory (R429) -/

theorem Dev.putDir_upd (d : Dev) (r : DirRec) : ∃ l, (d.putDir r).upd = { d.upd with dirWaiting := l } := by
  unfold Dev.putDir
  extract_lets s
  split
  · exact ⟨_, rfl⟩
  · split
    · exact ⟨_, rfl⟩
    · exact ⟨_, (Dev.request_only ..).part .upd rfl⟩

theorem Dev.putDir_sameBox (d : Dev) (r : DirRec) : d.sameBox (d.putDir r) := by
  unfold Dev.putDir
  extract_lets s
  split
  · exact Dev.sameBox_of_ports rfl
  · split
    · exact Dev.sameBox_of_ports rfl
    · exact ⟨fun p => ((Dev.request_sameBox ..).box p :)⟩

/-! ### FW_UPDATE_BEGIN -/

/-- The session's erase begins (R128). -/
def Dev.updateBegun (d : Dev) (size img tag : Nat) : Dev :=
  { d with upd := { d.upd with
      session := none, size := size, target := img, erasing := true, eraseBlock := 0, beginTag := tag, ranges := [] } }

theorem Dev.fwBegin_eq {d : Dev} {size : Nat} (p : Port) (tag : Nat) (hs : size ≤ 0x200000) (h4 : size % 4 = 0)
    (hu : d.updating = false) (hz : d.core.acornService = true ∨ d.speedZero = true) :
    d.fwBegin p tag size =
      (((d.writeDir fun r => r.setValid d.updateTarget false).updateBegun size d.updateTarget tag).waits p tag).askBlock p tag := by
  have hspeed : (d.updating || (!d.core.acornService && !d.speedZero)) = false := by
    rcases hz with hz | hz <;> simp [hu, hz]
  unfold Dev.fwBegin
  rw [if_neg (by omega), hspeed, if_neg Bool.false_ne_true]
  rfl

/-- A block whose ticket is not denied leaves the session to its erase. -/
theorem Dev.askBlock_of_standing {d : Dev} {p : Port} {tag : Nat} (h : (d.request (.erase .image)).ticketStands (.erase .image)) :
    d.askBlock p tag = d.request (.erase .image) := if_pos h

/-! ### FW_UPDATE_DATA -/

section

variable {d : Dev} {p : Port} {off : Nat} {b : List Byte} (tag : Nat)

theorem Dev.fwData_stored (h4 : off % 4 = 0) (hs : d.upd.session = some p) (hl : off + b.length ≤ d.upd.size) :
    d.fwData p tag off b true = { d with
      nor := { d.nor with cells := norStore d.nor.cells (imageOffset d.upd.target + off) b }
      upd := { d.upd with ranges := d.upd.ranges ++ [(off, b.length, crc32 b)] } }.finishWith p tag stOk := by
  unfold Dev.fwData
  rw [if_neg (not_not.2 h4), if_neg (not_not.2 hs), if_neg (Nat.not_lt.2 hl)]
  rfl

theorem Dev.fwData_failed (h4 : off % 4 = 0) (hs : d.upd.session = some p) (hl : off + b.length ≤ d.upd.size) :
    d.fwData p tag off b false = (d.norBad (imageOffset d.upd.target + off) b.length).integrity p tag 1 := by
  unfold Dev.fwData
  rw [if_neg (not_not.2 h4), if_neg (not_not.2 hs), if_neg (Nat.not_lt.2 hl)]
  rfl

theorem Dev.fwData_overridden (r : Bool) (h4 : off % 4 = 0) (hs : d.upd.session ≠ some p) :
    d.fwData p tag off b r = d.finishWith p tag stOverridden := by
  unfold Dev.fwData
  rw [if_neg (not_not.2 h4), if_pos hs]

end

/-! ### FW_UPDATE_COMMIT -/

/-- The session ends: what it knew goes, but for a restart that is due and directory records that wait. -/
def Dev.updateEnded (d : Dev) (restart : Bool) : Dev :=
  { d with upd := { Update.reset with restartDue := d.upd.restartDue || restart, dirWaiting := d.upd.dirWaiting } }

section

variable {d : Dev} {p : Port} (tag : Nat) (restart : Bool)

theorem Dev.fwCommit_good (hs : d.upd.session = some p) (hc : d.imageCheck d.upd.target = 0) :
    d.fwCommit p tag restart = ((d.writeDir fun r => { r.setValid d.upd.target true with
      pref := d.upd.target, trial := true, tries := 0 }).updateEnded restart).finishWith p tag stOk := by
  unfold Dev.fwCommit
  rw [if_neg (not_not.2 hs)]
  extract_lets img check
  rw [if_neg (not_not.2 hc)]
  rfl

theorem Dev.fwCommit_bad (hs : d.upd.session = some p) (hc : d.imageCheck d.upd.target ≠ 0) :
    d.fwCommit p tag restart = d.integrity p tag (d.commitReason (d.imageCheck d.upd.target)) := by
  unfold Dev.fwCommit
  rw [if_neg (not_not.2 hs)]
  exact if_pos hc

theorem Dev.fwCommit_overridden (hs : d.upd.session ≠ some p) : d.fwCommit p tag restart = d.finishWith p tag stOverridden :=
  if_pos hs

end

/-- Settles O29: the erase through its ticket, the ranges as they read back, and the commit by its checks. -/
theorem firmwareUpdate : Obligations.FirmwareUpdate := by
  unfold Obligations.FirmwareUpdate
  refine ⟨?_, ?_, ?_, ?_, ?_, ?_, ?_⟩
  · rintro s p c h hs h4 hu hz e rfl ht
    generalize he : (s.dev.writeDir fun r => r.setValid s.dev.updateTarget false) = e at ht ⊢
    have hq := (e.updateBegun (leField c.payload 0 4) s.dev.updateTarget c.tag).waits_quiet p c.tag
    have hstands := Dev.request_stands (x := .erase .image)
      (d := (e.updateBegun (leField c.payload 0 4) s.dev.updateTarget c.tag).waits p c.tag) (by
        unfold Dev.ticketHeld Dev.ticketQueued
        rw [hq.deniedAtOnce, hq.slReq, hq.sluice]
        exact ht)
    have hcmd := Dev.fwBegin_eq p c.tag hs h4 hu hz
    rw [he, Dev.askBlock_of_standing hstands] at hcmd
    refine ⟨_, exec_of_served rfl h (argOk_none (by simp [hs, h4])) rfl, Dev.fwBegin_only .., ?_⟩
    dsimp only
    rw [hcmd, (Dev.request_only ..).part .upd rfl, (Dev.request_only ..).part .nor rfl, hq.upd, hq.nor]
    exact ⟨rfl, rfl, rfl, rfl, rfl, rfl⟩
  · intro s p c hI h h4 hl hs
    have hcmd := Dev.fwData_stored c.tag h4 hs hl
    refine ⟨_, exec_of_served rfl h rfl hcmd, Dev.finishWith_quiet .., Dev.finishWith_answered stOk (Dev.serving_open h :),
      fun i hi => ?_⟩
    rw [(Dev.finishWith_quiet ..).nor]
    exact norByte_norStore_in _ _ i hI.cells hi
  · intro s p c h h4 hl hs
    have hopen : (s.dev.norBad (imageOffset s.dev.upd.target + leField c.payload 0 4) (c.payload.drop 4).length).tagOpen p c.tag =
        true := (Dev.tagOpen_of_box (Dev.sameBox_of_frame (Dev.norBad_only ..) rfl) ..).trans (Dev.serving_open h)
    refine ⟨_, exec_of_served rfl h rfl (Dev.fwData_failed c.tag h4 hs hl), ?_, Dev.finish_answered stIntegrity _ hopen, ?_⟩
    · exact Dev.only_then (Dev.finish_only ..) (by decide) ((Dev.norBad_only ..).mono (by decide))
    · exact (Dev.finish_quiet ..).upd.trans ((Dev.norBad_only ..).part .upd rfl)
  · intro s p c b h h4 hs
    exact becomes_overridden (Dev.serving_open h) (exec_of_served rfl h rfl (Dev.fwData_overridden c.tag b h4 hs))
  · rintro s p c h hs hc e rfl
    have hcmd := Dev.fwCommit_good c.tag ((byteAt c.payload 0).testBit 0) hs hc
    generalize he : (s.dev.writeDir fun r => { r.setValid s.dev.upd.target true with
      pref := s.dev.upd.target, trial := true, tries := 0 }) = e at hcmd ⊢
    obtain ⟨l, hupd⟩ : ∃ l, e.upd = { s.dev.upd with dirWaiting := l } := he ▸ Dev.putDir_upd ..
    have hbox : s.dev.sameBox e := he ▸ Dev.putDir_sameBox ..
    have hopen : (e.updateEnded ((byteAt c.payload 0).testBit 0)).tagOpen p c.tag = true :=
      (Dev.tagOpen_of_box hbox ..).trans (Dev.serving_open h)
    have hq := (e.updateEnded ((byteAt c.payload 0).testBit 0)).finishWith_quiet p c.tag stOk
    refine ⟨_, exec_of_served rfl h rfl rfl, Dev.fwCommit_only .., ?_, ?_, ?_⟩
    · rw [hcmd]
      exact hq.nor
    · rw [hcmd, hq.upd, show s.dev.upd.restartDue = e.upd.restartDue by rw [hupd]]
      rfl
    · rw [hcmd]
      exact Dev.finishWith_answered stOk hopen
  · intro s p c h hs hc
    exact .of_finish (exec_of_served rfl h rfl (Dev.fwCommit_bad c.tag _ hs hc)) (Dev.serving_open h)
  · intro s p c h hs
    exact becomes_overridden (Dev.serving_open h) (exec_of_served rfl h rfl (Dev.fwCommit_overridden c.tag _ hs))

end Sys2Proof.Machine
end

section
/-! The pattern library (O30). -/

namespace Sys2Proof.Machine

open Sys2Proof

/-! ### Frames of an erase ticket's request -/

/-- A named part that did not change need not be named. -/
theorem Dev.onlyChanges.unname {a b : Dev} {x : Part} {l : List Part} (h : a.onlyChanges b (x :: l)) (hx : x.same a b) :
    a.onlyChanges b l := by
  refine ⟨h.1, fun y hy => ?_⟩
  by_cases hxy : y = x
  · exact hxy ▸ hx
  · exact h.2 y (List.not_mem_cons_of_ne_of_not_mem hxy hy)

/-- Only a boost's grant touches the lamp (R296). -/
theorem Dev.grant_lamp_of_erase (d : Dev) {q : SlReq} {u : EraseUser} (h : q.holder = .erase u) : (d.grant q).lamp = d.lamp := by
  unfold Dev.grant
  simp only [h]
  exact (Dev.count_only ..).part .lamp rfl

theorem Dev.request_lamp_of_erase (d : Dev) (u : EraseUser) : (d.request (.erase u)).lamp = d.lamp := by
  unfold Dev.request
  split
  · rfl
  · extract_lets q
    split
    · exact (Dev.deny_only ..).part .lamp rfl
    · split
      · exact d.grant_lamp_of_erase rfl
      · rfl

/-! ### The valid flags (R155) -/

theorem patIndex_lt (v : Nat) : patIndex v < 16 := Nat.mod_lt _ (by decide)

theorem Dev.setPatValid_cells (d : Dev) (s i : Nat) (b : Bool) : (d.setPatValid s i b).nor.cells = d.nor.cells := rfl

/-- A flag reads back as it was set. -/
theorem Dev.setPatValid_flag (d : Dev) (s : Nat) {i : Nat} (b : Bool) (hi : i < 16) :
    ((d.setPatValid s i b).nor.patValid.get s).getLsbD i = b := by
  have hbit : (BitVec.ofNat 16 (2 ^ i)).getLsbD i = true := by
    rw [BitVec.getLsbD_ofNat, Nat.testBit_two_pow_self, decide_eq_true hi, Bool.and_self]
  unfold Dev.setPatValid
  dsimp only
  rw [Pair.get_mod_self]
  cases b with
  | false =>
    rw [if_neg Bool.false_ne_true, BitVec.getLsbD_and, BitVec.getLsbD_not, hbit, Bool.not_true, Bool.and_false, Bool.and_false]
  | true => rw [if_pos rfl, BitVec.getLsbD_or, hbit, Bool.or_true]

theorem Dev.setPatValid_sameBox (d : Dev) (s i : Nat) (b : Bool) : d.sameBox (d.setPatValid s i b) :=
  Dev.sameBox_of_frame (d.setPatValid_only ..) rfl

/-- A command that ends with its image's flag set or taken. -/
theorem Runs.of_patFlag {i : Instr} {s : State} {e : Dev} {p : Port} {tag v : Nat} {b : Bool}
    (hx : exec i s = .next { s with dev := (e.setPatValid (patSide v) (patIndex v) b).finishWith p tag stOk })
    (hopen : s.dev.tagOpen p tag = true) (he : s.dev.onlyChanges e [.nor]) (hc : e.nor.cells = s.dev.nor.cells) :
    Runs i s [.prm, .host, .links, .nor] fun d => d.answered p tag 0 [] ∧
      (d.nor.patValid.get (patSide v)).getLsbD (patIndex v) = b ∧ d.nor.cells = s.dev.nor.cells := by
  have hset : s.dev.onlyChanges (e.setPatValid (patSide v) (patIndex v) b) [.nor] := he.trans (e.setPatValid_only ..)
  have hnor := ((e.setPatValid (patSide v) (patIndex v) b).finishWith_quiet p tag stOk).nor
  refine ⟨_, hx, Dev.only_then (Dev.finishWith_only ..) (by decide) (hset.mono (by decide)), ?_, ?_, ?_⟩
  · exact Dev.finishWith_answered stOk ((Dev.tagOpen_of_box (Dev.sameBox_of_frame hset rfl) p tag).trans hopen)
  · rw [hnor, e.setPatValid_flag _ b (patIndex_lt v)]
  · rw [hnor, e.setPatValid_cells, hc]

/-! ### PAT_ERASE -/

/-- An erase whose ticket is not denied takes the flag and waits. -/
theorem Dev.patErase_of_standing {d : Dev} (p : Port) (tag v : Nat)
    (h : (d.request (.erase .pattern)).ticketStands (.erase .pattern)) :
    d.patErase p tag v = ((d.request (.erase .pattern)).setPatValid (patSide v) (patIndex v) false).waits p tag := if_pos h

/-! ### PAT_PROGRAM -/

/-- Over erased bytes a program stores what it is given. -/
theorem norOver_of_erased {l : List Host.Cell} {off : Nat} (seed : Nat) {bs : List Byte}
    (h : ∀ k < bs.length, norByte l (off + k) = Config.erasedByte) : norOver l off seed bs = bs := by
  unfold norOver
  refine List.ext_getElem List.length_mapIdx fun k _ hk => ?_
  rw [List.getElem_mapIdx, if_pos (h k hk)]

theorem Dev.norProgram_cells_of_erased {d : Dev} {off : Nat} {bs : List Byte}
    (h : ∀ k < bs.length, norByte d.nor.cells (off + k) = Config.erasedByte) :
    (d.norProgram off bs).nor.cells = norStore d.nor.cells off bs :=
  congrArg (norStore d.nor.cells off) (norOver_of_erased d.freeCount h)

theorem Dev.norProgram_patValid (d : Dev) (off : Nat) (bs : List Byte) : (d.norProgram off bs).nor.patValid = d.nor.patValid := rfl

/-- A block that lies within the image is programmed whole. -/
theorem Dev.patProgram_of_inside {d : Dev} {v : Nat} (h : 4096 * bitsOf v 16 16 + 4096 ≤ imageBytes d.nor.patGeom)
    (hl : (d.arr kPlcPatStage 0).length = 4096) :
    d.patProgram v = d.norProgram (patOffset (patSide v) (patIndex v) + 4096 * bitsOf v 16 16) (d.arr kPlcPatStage 0) := by
  unfold Dev.patProgram
  extract_lets off size
  have hroom : 4096 ≤ size - off := Nat.le_sub_of_add_le (by rw [Nat.add_comm]; exact h)
  rw [List.take_of_length_le (by rw [hl, Nat.min_eq_left hroom])]

/-! ### PAT_VERIFY -/

/-- The CRC-32 of a verified image is kept for its loads (R154). -/
def Dev.keepPatCrc (d : Dev) (s i : Nat) (crc : BitVec 32) : Dev :=
  { d with nor := { d.nor with patCrc := d.nor.patCrc.mod s fun (l : List (BitVec 32)) => l.set i crc } }

theorem Dev.keepPatCrc_only (d : Dev) (s i : Nat) (crc : BitVec 32) : d.onlyChanges (d.keepPatCrc s i crc) [.nor] :=
  Dev.only_mk (Dev.only_refl d _) (by simp)

theorem Dev.keepPatCrc_cells (d : Dev) (s i : Nat) (crc : BitVec 32) : (d.keepPatCrc s i crc).nor.cells = d.nor.cells := rfl

theorem Dev.patVerify_of_fit {d : Dev} {v : Nat}
    (h : crc32 (d.patBytes (patSide v) (patIndex v)) = BitVec.ofNat 32 (d.par kPlcPatCrc 0)) :
    d.patVerify v = (d.keepPatCrc (patSide v) (patIndex v) (BitVec.ofNat 32 (d.par kPlcPatCrc 0))).setPatValid
      (patSide v) (patIndex v) true := if_pos h

theorem Dev.patVerify_of_misfit {d : Dev} {v : Nat}
    (h : crc32 (d.patBytes (patSide v) (patIndex v)) ≠ BitVec.ofNat 32 (d.par kPlcPatCrc 0)) : d.patVerify v = d := if_neg h

/-- Settles O30: the flag by what sets or takes it, and the block by the bytes that it stores. -/
theorem patternLibrary : Obligations.PatternLibrary := by
  unfold Obligations.PatternLibrary
  refine ⟨?_, ?_, ?_, ?_, ?_⟩
  · intro s p c i v h ht
    have hcmd := Dev.patErase_of_standing p c.tag v (Dev.request_stands ht)
    generalize he : (s.dev.request (.erase .pattern)).setPatValid (patSide v) (patIndex v) false = e at hcmd
    have hlamp : (s.dev.patErase p c.tag v).lamp = s.dev.lamp := by
      rw [hcmd, (e.waits_quiet ..).lamp, ← he, (Dev.setPatValid_only ..).part .lamp rfl, Dev.request_lamp_of_erase]
    have hopen : e.tagOpen p c.tag = true := by
      rw [← he, Dev.tagOpen_of_box (Dev.setPatValid_sameBox ..), Dev.tagOpen_of_box (Dev.request_sameBox ..)]
      exact Dev.servingAct_open h
    refine ⟨_, exec_of_servedAct rfl h rfl, ?_, ?_⟩
    · exact ((Dev.patErase_only ..).mono (m := [.lamp, .prm, .sluice, .host, .links, .nor]) (by decide)).unname hlamp
    · dsimp only
      rw [hcmd, (e.waits_quiet ..).nor]
      refine ⟨Dev.waits_waitsFor hopen, ?_, ?_⟩
      · rw [← he, Dev.setPatValid_flag _ _ _ (patIndex_lt v)]
      · rw [← he, Dev.setPatValid_cells, (Dev.request_only ..).part .nor rfl]
  · intro s p c i v hI h hin hl herased
    have hcmd := Dev.patProgram_of_inside hin hl
    generalize patOffset (patSide v) (patIndex v) + 4096 * bitsOf v 16 16 = off at hcmd herased ⊢
    have hcells : (s.dev.patProgram v).nor.cells = norStore s.dev.nor.cells off (s.dev.arr kPlcPatStage 0) := by
      rw [hcmd, Dev.norProgram_cells_of_erased fun k hk => herased k (hl ▸ hk)]
    have honly := s.dev.patProgram_only v
    have hopen : (s.dev.patProgram v).tagOpen p c.tag = true :=
      (Dev.tagOpen_of_box (Dev.sameBox_of_frame honly rfl) ..).trans (Dev.servingAct_open h)
    have hnor := ((s.dev.patProgram v).finishWith_quiet p c.tag stOk).nor
    refine ⟨_, exec_of_servedAct rfl h rfl, ?_, Dev.finishWith_answered stOk hopen, ?_, fun k hk => ?_, fun a ha => ?_⟩
    · exact Dev.only_then (Dev.finishWith_only ..) (by decide) (honly.mono (by decide))
    · rw [hnor, hcmd, Dev.norProgram_patValid]
    · have hk' : k < (s.dev.arr kPlcPatStage 0).length := hl ▸ hk
      rw [hnor, hcells, norByte_norStore_in _ off k hI.cells hk', List.getD_eq_getElem _ _ hk']
    · rw [hnor, hcells, norByte_norStore_out _ _ (hl ▸ ha)]
  · intro s p c i v h hfit
    have hcmd := congrArg (fun e => Dev.finishWith e p c.tag stOk) (Dev.patVerify_of_fit hfit)
    exact .of_patFlag (exec_of_servedAct rfl h hcmd) (Dev.servingAct_open h) (Dev.keepPatCrc_only ..) (Dev.keepPatCrc_cells ..)
  · intro s p c i v h hmisfit
    have hcmd := congrArg (fun e => Dev.finishWith e p c.tag stOk) (Dev.patVerify_of_misfit hmisfit)
    exact .of_finishWith (exec_of_servedAct rfl h hcmd) (Dev.servingAct_open h :)
  · intro s p c i v h
    exact .of_patFlag (exec_of_servedAct rfl h rfl) (Dev.servingAct_open h) (s.dev.only_refl _) rfl

end Sys2Proof.Machine
end

section
/-! The camera lock (O51). -/

namespace Sys2Proof.Machine

open Sys2Proof

/-! ### An edge by its interval (R205) -/

/-- The edge is of the selected polarity on the selected input, where the camera lock works. -/
def Dev.hearsCam (d : Dev) (input : Nat) (falling : Bool) : Prop :=
  d.camRuns = true ∧ d.par kMstCamSel 0 = input + 1 ∧ d.par kMstCamEdge 0 = b2n falling

section
variable {s : State} {input time boundary : Nat} {falling : Bool}

theorem exec_cameraEdge_heard {e : Dev} (h : s.dev.hearsCam input falling) (he : s.dev.camEdge time boundary = e) :
    exec (.cameraEdge input falling time boundary) s = .next { s with dev := e } := by
  obtain ⟨hruns, hsel, hedge⟩ := h
  refine exec_of_on rfl (Eq.trans (if_pos ?_) he)
  simp [hruns, hsel, hedge]

theorem exec_cameraEdge_unheard (h : ¬s.dev.hearsCam input falling) :
    exec (.cameraEdge input falling time boundary) s = .next s := by
  refine exec_of_on rfl (if_neg fun hc => h ?_)
  simpa [Dev.hearsCam, and_assoc] using hc

end

section
variable {d : Dev} {r time : Nat} (boundary : Nat)

theorem Dev.camEdge_first (h : d.cam.reference = none) :
    d.camEdge time boundary = d.modCam fun c => { c with reference := some time, validRun := 0 } := by
  unfold Dev.camEdge
  rw [h]

theorem Dev.camEdge_early (h : d.cam.reference = some r) (hx : 300 * (time - r) < 98 * d.camNominal) :
    d.camEdge time boundary = d.camRange := by
  unfold Dev.camEdge
  rw [h]
  exact if_pos hx

theorem Dev.camEdge_valid (h : d.cam.reference = some r) (hlo : 98 * d.camNominal ≤ 300 * (time - r))
    (hhi : 300 * (time - r) ≤ 102 * d.camNominal) : d.camEdge time boundary = d.camValid (time - r) time boundary := by
  unfold Dev.camEdge
  rw [h]
  exact (if_neg (Nat.not_lt.2 hlo)).trans (if_pos hhi)

theorem Dev.camEdge_late (h : d.cam.reference = some r) (hx : 102 * d.camNominal < 300 * (time - r)) :
    d.camEdge time boundary =
      d.camRange.modCam fun c => { c with reference := some time, validRun := 0, winRun := 0 } := by
  unfold Dev.camEdge
  rw [h]
  exact (if_neg (by omega)).trans (if_neg (by omega))

end

/-! ### RANGE and its count (R205) -/

theorem Dev.camRange_cam (d : Dev) : d.camRange.cam = d.cam := d.camRange_only.part .cam rfl

theorem Dev.par_camRange_flags {d : Dev} (hI : d.Inv) :
    d.camRange.par kMstCamFlags 0 = d.par kMstCamFlags 0 ||| 2 := by
  unfold Dev.camRange
  rw [Dev.par_count_ne _ _ (by decide), Dev.par_setPar_self hI, Int.toNat_natCast]

theorem Dev.par_camRange_count {d : Dev} (hI : d.Inv) :
    d.camRange.par kMstCamRangeErr 0 = satAdd 0xFFFFFFFF (d.par kMstCamRangeErr 0) 1 := by
  unfold Dev.camRange
  rw [Dev.par_count_self (t := 0xFFFFFFFF) 0 1 (by decide) (Dev.setPar_inv _ _ _ _ hI).vals, Dev.par_setPar_ne _ _ _ _ (by decide)]

/-! ### A valid pulse (R206, Table 8-4) -/

/-- A valid pulse becomes the reference, and its interval joins the last four. -/
def Cam.pulse (c : Cam) (interval time : Nat) : Cam :=
  { c with
    reference := some time, lastValid := time, validRun := c.validRun + 1, periods := (interval :: c.periods).take 4,
    period := interval }

/-- In FREE the second valid pulse in a row starts ACQUIRE. -/
def Cam.pulseInFree (c : Cam) (interval time : Nat) : Cam :=
  if 1 ≤ c.validRun then { c.pulse interval time with state := 2, winRun := 0, groupReset := true } else c.pulse interval time

theorem Cam.pulseInFree_state {c : Cam} (interval time : Nat) (h : c.state = 1) :
    (c.pulseInFree interval time).state = if 1 ≤ c.validRun then 2 else 1 := by
  unfold Cam.pulseInFree
  split
  · rfl
  · exact h

/-- Whether or not ACQUIRE starts, the pulse is recorded alike. -/
theorem Cam.pulseInFree_record (c : Cam) (interval time : Nat) :
    (c.pulseInFree interval time).reference = some time ∧ (c.pulseInFree interval time).validRun = c.validRun + 1 ∧
      (c.pulseInFree interval time).periods = (interval :: c.periods).take 4 := by
  unfold Cam.pulseInFree
  split <;> exact ⟨rfl, rfl, rfl⟩

/-- The block with a valid pulse recorded, before the lock is judged. -/
def Dev.camPulsed (d : Dev) (interval time : Nat) : Dev := d.modCam fun c => c.pulse interval time

theorem Dev.camValid_of_free {d : Dev} (interval time boundary : Nat) (h : d.cam.state = 1) :
    d.camValid interval time boundary = d.modCam fun c => c.pulseInFree interval time := by
  unfold Dev.camValid Cam.pulseInFree
  extract_lets d1
  rw [if_pos h]
  by_cases hv : 1 ≤ d.cam.validRun
  · rw [if_pos (show 2 ≤ d1.cam.validRun from Nat.succ_le_succ hv)]
    simp [d1, Dev.modCam, Cam.pulse, hv]
  · rw [if_neg (show ¬2 ≤ d1.cam.validRun from fun h2 => hv (Nat.le_of_succ_le_succ h2))]
    simp [d1, Dev.modCam, Cam.pulse, hv]

/-- Past FREE the pulse is judged by its phase error, which the pulse itself leaves alone. -/
theorem Dev.camValid_of_steered {d : Dev} (interval time boundary : Nat) (h : d.cam.state ≠ 1) :
    d.camValid interval time boundary = (d.camPulsed interval time).camJudge (d.camError time boundary) := by
  unfold Dev.camValid
  exact if_neg h

/-! ### The lock decisions (Table 8-4) -/

/-- The run of phase errors within CAM_LOCK_WIN, with e. -/
def Dev.camWinRun (d : Dev) (e : Int) : Nat := if e.natAbs ≤ d.par kMstCamLockWin 0 then d.cam.winRun + 1 else 0

/-- The camera lock after a decision on e: ACQUIRE goes on or locks, LOCKED goes on or unlocks. -/
def Dev.camJudged (d : Dev) (e : Int) : Cam :=
  if d.cam.state = 2 ∧ 8 ≤ d.camWinRun e then { d.cam with phaseErr := e, winRun := d.camWinRun e, state := 3 }
  else if d.cam.state = 3 ∧ 4 * d.par kMstCamLockWin 0 < e.natAbs then { d.cam with phaseErr := e, winRun := 0, state := 2 }
  else { d.cam with phaseErr := e, winRun := d.camWinRun e }

theorem Dev.camJudge_cam (d : Dev) (e : Int) : (d.camJudge e).cam = d.camJudged e := by
  unfold Dev.camJudge
  extract_lets win run d1 _ d2
  by_cases hlock : d.cam.state = 2 ∧ 8 ≤ run
  · rw [if_pos hlock, (Dev.post_quiet ..).cam]
    exact (if_pos hlock).symm
  · rw [if_neg hlock]
    refine Eq.trans ?_ (if_neg hlock).symm
    by_cases hfar : d.cam.state = 3 ∧ 4 * win < e.natAbs
    · rw [if_pos hfar, (Dev.post_quiet ..).cam]
      exact (if_pos hfar).symm
    · rw [if_neg hfar]
      exact (if_neg hfar).symm

theorem Dev.camJudge_clk (d : Dev) (e : Int) : (d.camJudge e).clk = { d.clk with phaseTarget := phaseSteps e } := by
  unfold Dev.camJudge
  extract_lets
  split
  · exact (Dev.post_quiet ..).clk
  · split
    · exact (Dev.post_quiet ..).clk
    · rfl

theorem Dev.camJudged_record (d : Dev) (e : Int) :
    (d.camJudged e).reference = d.cam.reference ∧ (d.camJudged e).phaseErr = e := by
  unfold Dev.camJudged
  split
  · exact ⟨rfl, rfl⟩
  · split <;> exact ⟨rfl, rfl⟩

theorem Dev.camJudged_of_acquire (d : Dev) {e : Int} (h : d.cam.state = 2) :
    (d.camJudged e).state = (if 8 ≤ d.camWinRun e then 3 else 2) ∧ (d.camJudged e).winRun = d.camWinRun e := by
  unfold Dev.camJudged
  by_cases hrun : 8 ≤ d.camWinRun e <;> simp [h, hrun]

theorem Dev.camJudged_of_locked (d : Dev) {e : Int} (h : d.cam.state = 3) :
    (d.camJudged e).state = if 4 * d.par kMstCamLockWin 0 < e.natAbs then 2 else 3 := by
  unfold Dev.camJudged
  by_cases hfar : 4 * d.par kMstCamLockWin 0 < e.natAbs <;> simp [h, hfar]

/-! ### No pulse in time (R207) -/

/-- The lock is free: no reference, no periods, no run. -/
def Cam.freed (c : Cam) : Cam :=
  { c with state := 1, reference := none, validRun := 0, periods := [], winRun := 0, groupReset := false }

/-- FREE with steering stopped and LOST set, before its event. -/
def Dev.camLost (d : Dev) : Dev :=
  { d with cam := d.cam.freed, clk := { d.clk with phaseTarget := 0 } }.setPar kMstCamFlags 0
    ((d.par kMstCamFlags 0 ||| 1 : Nat) : Int)

theorem Dev.camLost_only (d : Dev) : d.onlyChanges d.camLost [.prm, .clk, .cam] :=
  Dev.only_then (Dev.setPar_only ..) (by decide) (Dev.only_mk (d.only_refl _) (by simp))

theorem exec_camTimeout_silent {s : State} (hruns : s.dev.camRuns = true) (hst : 2 ≤ s.dev.cam.state)
    (hsilent : s.dev.camSilent = true) :
    exec .camTimeout s = .next { s with dev := s.dev.camLost.post 0x0612 (s.dev.par kMstCamSel 0) } :=
  exec_of_on rfl (if_pos ⟨hruns, hst, hsilent⟩)

theorem exec_camTimeout_idle {s : State}
    (h : s.dev.camRuns = false ∨ s.dev.cam.state < 2 ∨ s.dev.camSilent = false) : exec .camTimeout s = .next s := by
  refine exec_of_on rfl (if_neg fun ⟨hruns, hst, hsilent⟩ => ?_)
  rcases h with h | h | h
  · exact Bool.false_ne_true (h.symm.trans hruns)
  · exact absurd hst (Nat.not_le.2 h)
  · exact Bool.false_ne_true (h.symm.trans hsilent)

/-- Settles O51: an edge by its interval, a valid pulse by the state that it finds, and the time limit. -/
theorem cameraLock : Obligations.CameraLock := by
  unfold Obligations.CameraLock
  refine ⟨?_, ?_, ?_, ?_, ?_, ?_, ?_⟩
  · intro s input time boundary falling hruns hsel hedge hnone
    exact exec_cameraEdge_heard ⟨hruns, hsel, hedge⟩ (Dev.camEdge_first boundary hnone)
  · intro s input time boundary r falling hI hruns hsel hedge href hx
    have hflags := Dev.par_camRange_flags hI
    have hcount := Dev.par_camRange_count hI
    by_cases hearly : 300 * (time - r) < 98 * s.dev.camNominal
    · refine ⟨_, exec_cameraEdge_heard ⟨hruns, hsel, hedge⟩ (Dev.camEdge_early boundary href hearly), ?_, ?_, hflags, hcount⟩
      · exact s.dev.camRange_only.mono (by decide)
      · rw [if_pos hearly, Dev.camRange_cam]
    · have hlate := hx.resolve_left hearly
      refine ⟨_, exec_cameraEdge_heard ⟨hruns, hsel, hedge⟩ (Dev.camEdge_late boundary href hlate), ?_, ?_, hflags, hcount⟩
      · exact Dev.only_then (Dev.modCam_only ..) (by decide) (s.dev.camRange_only.mono (by decide))
      · rw [if_neg hearly, Dev.modCam, Dev.camRange_cam]
  · intro s input time boundary r falling hruns hsel hedge href hlo hhi hfree
    have hvalid := (Dev.camEdge_valid boundary href hlo hhi).trans (Dev.camValid_of_free _ _ _ hfree)
    obtain ⟨hnew, hrun, hperiods⟩ := s.dev.cam.pulseInFree_record (time - r) time
    exact ⟨_, exec_cameraEdge_heard ⟨hruns, hsel, hedge⟩ hvalid, Dev.modCam_only .., hnew, hrun, hperiods,
      Cam.pulseInFree_state _ _ hfree⟩
  · intro s input time boundary r falling e hruns hsel hedge href hlo hhi hsteered he run hrun
    have hvalid := (Dev.camEdge_valid boundary href hlo hhi).trans (Dev.camValid_of_steered _ _ _ (by omega))
    rw [← he] at hvalid
    refine ⟨_, exec_cameraEdge_heard ⟨hruns, hsel, hedge⟩ hvalid, ?_, ?_⟩
    · exact Dev.only_then (Dev.camJudge_only ..) (by decide) ((Dev.modCam_only ..).mono (by decide))
    · beta_reduce
      rw [Dev.camJudge_cam, Dev.camJudge_clk, hrun]
      obtain ⟨hnew, herr⟩ := (s.dev.camPulsed (time - r) time).camJudged_record e
      exact ⟨hnew, herr, rfl, (s.dev.camPulsed _ _).camJudged_of_acquire, (s.dev.camPulsed _ _).camJudged_of_locked⟩
  · intro s input time boundary falling h
    refine exec_cameraEdge_unheard fun ⟨hruns, hsel, hedge⟩ => ?_
    rcases h with h | h | h
    · exact Bool.false_ne_true (h.symm.trans hruns)
    · exact h hsel
    · exact h hedge
  · intro s hruns hst hsilent
    have hpost := s.dev.camLost.post_quiet 0x0612 (s.dev.par kMstCamSel 0)
    refine ⟨_, exec_camTimeout_silent hruns hst hsilent, ?_, hpost.cam, hpost.clk⟩
    exact Dev.only_then (Dev.post_only ..) (by decide) (s.dev.camLost_only.mono (by decide))
  · intro s h
    exact exec_camTimeout_idle h

end Sys2Proof.Machine
end

section
/-! The mask gate (O46). -/

namespace Sys2Proof.Machine

open Sys2Proof

/-! ### The Bayer thresholds (R224) -/

theorem bayer_eq_rows : ∀ v < 4, ∀ u < 4,
    (([[0, 8, 2, 10], [12, 4, 14, 6], [3, 11, 1, 9], [15, 7, 13, 5]] : List (List Nat)).getD v []).getD u 0 = bayer v u := by
  decide

theorem bayer_lt : ∀ v < 4, ∀ u < 4, bayer v u < 16 := by decide

/-- The threshold over a pixel of a side, at a place that rotates by o of 16 steps. -/
def thresholdAt (o x y : Nat) : Nat := bayer ((y + o / 4) % 4) ((x + o) % 4)

theorem gateOf_eq (e p x y n : Nat) : gateOf e p x y n = decide (thresholdAt ((5 * e + 7 * p) % 16) x y < n) := rfl

theorem thresholdAt_lt (o x y : Nat) : thresholdAt o x y < 16 := bayer_lt _ (Nat.mod_lt _ (by decide)) _ (Nat.mod_lt _ (by decide))

/-- The thresholds repeat from one mask sample to the next. -/
theorem thresholdAt_sample (o mx my i : Nat) : thresholdAt o (4 * mx + i % 4) (4 * my + i / 4) = thresholdAt o (i % 4) (i / 4) := by
  unfold thresholdAt
  congr 1 <;> omega

/-- The rotation reorders the thresholds under a sample: each of 0 to 15 stands once there. -/
theorem thresholdAt_perm : ∀ o < 16,
    ((List.range 16).map fun i => thresholdAt o (i % 4) (i / 4)).Perm (List.range 16) := by decide

theorem countP_lt_range : ∀ n ≤ 16, (List.range 16).countP (fun t => decide (t < n)) = n := by decide

/-- As many of a sample's 16 pixels are on as its level says. -/
theorem gateOf_count (e p mx my : Nat) {n : Nat} (hn : n ≤ 16) :
    ((List.range 16).filter fun i => gateOf e p (4 * mx + i % 4) (4 * my + i / 4) n).length = n := by
  have ho : (5 * e + 7 * p) % 16 < 16 := Nat.mod_lt _ (by decide)
  simp only [gateOf_eq, thresholdAt_sample]
  calc _ = ((List.range 16).map fun i => thresholdAt ((5 * e + 7 * p) % 16) (i % 4) (i / 4)).countP (fun t => decide (t < n)) := by
        rw [List.countP_map, List.countP_eq_length_filter]; rfl
    _ = n := by rw [(thresholdAt_perm _ ho).countP_eq, countP_lt_range n hn]

theorem gateOf_all_on (e p x y : Nat) : gateOf e p x y 16 = true := by
  rw [gateOf_eq, decide_eq_true (thresholdAt_lt ..)]

theorem gateOf_all_off (e p x y : Nat) : gateOf e p x y 0 = false := by
  rw [gateOf_eq, decide_eq_false (Nat.not_lt_zero _)]

theorem gateOf_mono {e p x y n k : Nat} (h : n ≤ k) (hg : gateOf e p x y n = true) : gateOf e p x y k = true :=
  decide_eq_true (Nat.lt_of_lt_of_le (of_decide_eq_true hg) h)

theorem gateLevel_mono {m k : Nat} (h : m ≤ k) : gateLevel m ≤ gateLevel k := by
  unfold gateLevel
  omega

theorem gateLevel_le {m : Nat} (h : m ≤ 15) : gateLevel m ≤ 16 := gateLevel_mono h

/-! ### The gate of a pixel -/

theorem Dev.gate_unmasked {d : Dev} {s : Nat} (h : d.maskOn s = false) (e x y : Nat) :
    d.gate s e x y = gateOf e d.seq.dither x y 16 := by
  unfold Dev.gate
  rw [h]
  rfl

/-- Under a mask without word errors the level is that of the sample above the pixel. -/
theorem Dev.gate_masked {d : Dev} {s x y : Nat} {m : BitVec 4} (h : d.maskOn s = true) (hb : (d.seq.masks.get s).badWords = [])
    (hm : (d.seq.masks.get s).front[maskIndex d.row.sideW x y]? = some m) (e : Nat) :
    d.gate s e x y = gateOf e d.seq.dither x y (gateLevel m.toNat) := by
  unfold Dev.gate
  extract_lets b i
  rw [if_pos h, show b.badWords = [] from hb, List.getD_eq_getElem?_getD, show b.front[i]? = some m from hm]
  rfl

/-- No mask is in force where one of the conditions of R224 is missing. -/
theorem Dev.maskOn_false {d : Dev} {s : Nat} (h : d.req.inForce ≠ 3 ∨ isTestMode d.core.mode = true ∨
    (∃ m p t g b, d.seq.change = .bridging m p t g b) ∨ (d.seq.masks.get s).front = []) : d.maskOn s = false := by
  unfold Dev.maskOn
  rcases h with h | h | ⟨m, p, t, g, b, h⟩ | h
  · simp [h]
  · unfold isTestMode at h
    rcases Bool.or_eq_true_iff.1 h with h | h <;> simp [beq_iff_eq.1 h]
  · simp [h]
  · simp [h]

/-- Settles O46: a gate compares a threshold with a level; the rotation only reorders the 16 thresholds of a sample, so their
count below a level is the level itself. -/
theorem maskGate : Obligations.MaskGate := by
  unfold Obligations.MaskGate
  refine ⟨?_, ?_, fun d s => Dev.maskOn_false, ?_, ?_, ?_⟩
  · intro d s e x y m hb hm n o u v
    rw [bayer_eq_rows v (Nat.mod_lt _ (by decide)) u (Nat.mod_lt _ (by decide))]
    unfold n
    cases h : d.maskOn s with
    | true => exact Dev.gate_masked h hb hm e
    | false => exact Dev.gate_unmasked h e x y
  · intro d s e x y h
    rw [Dev.gate_unmasked h, gateOf_all_on]
  · intro e p mx my m hm
    exact gateOf_count e p mx my (gateLevel_le hm)
  · intro e p x y
    exact ⟨gateOf_all_off e p x y, gateOf_all_on e p x y⟩
  · intro e p x y m k h
    exact gateOf_mono (gateLevel_mono h)

end Sys2Proof.Machine
end

section
/-! What faults, calibration and the planes leave alone: the place in the slot timeline, the journal's records and their flush, the
reference of calibration, and two counters. -/

namespace Sys2Proof.Machine

open Sys2Proof

/-! ### The course of the block

Faults and their reactions, calibration, and the words and loads of the planes leave where the slot timeline stands, which
records the journal holds and what its flush is at. `Dev.course` gathers this, and each operation has one equation. -/

/-- The journal without what its interval gathers and without the seals that wait. -/
def Journal.records (j : Journal) : Journal := { j with acc := JAcc.reset, seals := [] }

/-- The place in the slot timeline, the age of the last reset, the journal's records and their flush, CAL_REF, and the counters of
failed flushes and of calibration disagreements. -/
structure Course where
  entry : Nat
  resetDue : Bool
  boundaryOpen : Bool
  displayed : Nat
  sinceReset : Nat
  journal : Journal
  calRef : Nat
  norFails : Nat
  disagrees : Nat

def Dev.course (d : Dev) : Course :=
  { entry := d.seq.entry, resetDue := d.seq.resetDue, boundaryOpen := d.seq.boundaryOpen, displayed := d.seq.displayed,
    sinceReset := d.gov.sinceReset, journal := d.jnl.records, calRef := d.cal.calRef, norFails := d.par kJnlNorFails 0,
    disagrees := d.par kCalCalDisagreeCount 0 }

/-- The parts that the course is read off. -/
def courseParts : List Part := [.seq, .gov, .jnl, .cal]

theorem Dev.onlyChanges.course {a b : Dev} {l : List Part} (h : a.onlyChanges b l) (hl : (courseParts.any l.contains) = false)
    (hn : b.par kJnlNorFails 0 = a.par kJnlNorFails 0)
    (hc : b.par kCalCalDisagreeCount 0 = a.par kCalCalDisagreeCount 0) : b.course = a.course := by
  simp only [courseParts, List.any_cons, List.any_nil, Bool.or_false, Bool.or_eq_false_iff] at hl
  obtain ⟨hs, hg, hj, hk⟩ := hl
  have hseq : b.seq = a.seq := h.part .seq hs
  have hgov : b.gov = a.gov := h.part .gov hg
  have hjnl : b.jnl = a.jnl := h.part .jnl hj
  have hcal : b.cal = a.cal := h.part .cal hk
  unfold Dev.course
  rw [hseq, hgov, hjnl, hcal, hn, hc]

/-- A frame that names no part of the course and no parameter. -/
theorem Dev.course_of_frame {a b : Dev} {l : List Part} (h : a.onlyChanges b l)
    (hl : ((.prm :: courseParts).any l.contains) = false) : b.course = a.course := by
  obtain ⟨hp, hc⟩ := Bool.or_eq_false_iff.1 hl
  exact h.course hc (h.par hp ..) (h.par hp ..)

theorem Dev.Quiet.course {a b : Dev} (h : a.Quiet b) : b.course = a.course :=
  h.frame.course (by decide)
    (h.par fun p => pid_ne_of_num (key := kHostEvtLost) (key' := kJnlNorFails) p.ix 0 (by decide))
    (h.par fun p => pid_ne_of_num (key := kHostEvtLost) (key' := kCalCalDisagreeCount) p.ix 0 (by decide))

theorem Dev.foldl_course {α : Type} {f : Dev → α → Dev} {xs : List α} (hf : ∀ x ∈ xs, ∀ e : Dev, (f e x).course = e.course)
    (d : Dev) : (xs.foldl f d).course = d.course := by
  induction xs generalizing d with
  | nil => rfl
  | cons x xs ih =>
    exact (ih (fun y hy => hf y (List.mem_cons_of_mem x hy)) _).trans (hf x List.mem_cons_self d)

/-! ### Counters and events -/

theorem Dev.count_course_of_ne (d : Dev) {key i : Nat} (k : Nat) (hn : pid kJnlNorFails 0 ≠ pid key i)
    (hc : pid kCalCalDisagreeCount 0 ≠ pid key i) : (d.count key i k).course = d.course :=
  (d.count_only key i k).course rfl (d.par_count_ne k hn) (d.par_count_ne k hc)

/-- A counter whose number in its unit is neither that of JNL's NOR_FAILS nor that of CAL's CAL_DISAGREE_COUNT. -/
theorem Dev.count_course (d : Dev) {key : Nat} (i k : Nat) (h : key % 0x10000 ≠ 0x07 ∧ key % 0x10000 ≠ 0x0A) :
    (d.count key i k).course = d.course :=
  d.count_course_of_ne k (pid_ne_of_num i 0 (Ne.symm h.1)) (pid_ne_of_num i 0 (Ne.symm h.2))

/-- The boost's switching frequency, which a ticket brings into force. -/
theorem Dev.applyVal_bstFsw_course (d : Dev) (i : Nat) : (d.applyVal (pid kLmpBstFsw i)).course = d.course := by
  have hput : ∀ (e : Dev) v, (e.putVal (pid kLmpBstFsw i) v).course = e.course := fun e v =>
    (e.putVal_only ..).course rfl (e.par_setPar_ne i 0 v (by decide)) (e.par_setPar_ne i 0 v (by decide))
  unfold Dev.applyVal
  split
  · exact hput _ _
  · rfl

@[simp] theorem Dev.post_course (d : Dev) (c a : Nat) : (d.post c a).course = d.course := (d.post_quiet c a).course
@[simp] theorem Dev.setIrq_course (d : Dev) (b : Nat) : (d.setIrq b).course = d.course := (d.setIrq_quiet b).course
@[simp] theorem Dev.finish_course (d : Dev) (p : Port) (tag st : Nat) (b : List Byte) :
    (d.finish p tag st b).course = d.course := (d.finish_quiet p tag st b).course
@[simp] theorem Dev.finishWith_course (d : Dev) (p : Port) (tag st : Nat) : (d.finishWith p tag st).course = d.course :=
  (d.finishWith_quiet p tag st).course

/-! ### Tickets -/

@[simp] theorem Dev.grant_course (d : Dev) (q : SlReq) : (d.grant q).course = d.course := by
  have hcount : ∀ e : Dev, (e.count kPwrGrants (opBit q.holder) 1).course = e.course := fun e => e.count_course _ 1 (by decide)
  unfold Dev.grant
  extract_lets l d1 d2
  have h2 : d2.course = d.course := hcount d1
  split
  · extract_lets p
    split
    · exact (Dev.applyVal_bstFsw_course ..).trans h2
    · exact h2
  · exact (Dev.count_course _ 0 1 (by decide)).trans h2
  · exact h2

@[simp] theorem Dev.deny_course (d : Dev) (h : Holder) (b : Bool) : (d.deny h b).course = d.course :=
  (Dev.post_course ..).trans (d.count_course _ 1 (by decide))

@[simp] theorem Dev.request_course (d : Dev) (h : Holder) : (d.request h).course = d.course := by
  unfold Dev.request
  split
  · rfl
  · extract_lets q
    split
    · exact d.deny_course ..
    · split
      · exact d.grant_course q
      · rfl

@[simp] theorem Dev.examine_course (n : Nat) (d : Dev) : (Dev.examine n d).course = d.course := by
  induction n generalizing d with
  | zero => rfl
  | succ n ih =>
    unfold Dev.examine
    split
    · rfl
    · split
      · exact (ih _).trans (Dev.grant_course ..)
      · rfl

@[simp] theorem Dev.release_course (d : Dev) (h : Holder) : (d.release h).course = d.course := by
  unfold Dev.release
  split
  · exact Dev.examine_course ..
  · rfl

/-! ### Faults and their reactions -/

@[simp] theorem Dev.modMportEv_course (d : Dev) (s : Nat) (f : MPort → MPort) : (d.modMportEv s f).course = d.course := by
  have h : ∀ g, (d.modMport s g).course = d.course := fun _ => rfl
  unfold Dev.modMportEv
  extract_lets old d1 new
  split
  · exact h _
  · exact (Dev.post_course ..).trans (h _)

@[simp] theorem Dev.stopBoost_course (d : Dev) (s : Nat) : (d.stopBoost s).course = d.course := Dev.release_course ..

@[simp] theorem Dev.darkSide_course (d : Dev) (s : Nat) : (d.darkSide s).course = d.course :=
  Dev.foldl_course (fun _ _ _ => by rfl) _

@[simp] theorem Dev.safeSide_course (d : Dev) (s : Nat) (f : Bool) : (d.safeSide s f).course = d.course :=
  calc (d.safeSide s f).course
    _ = (((d.zeroWords s).stopBoost s).darkSide s).course := Dev.modMportEv_course ..
    _ = (d.zeroWords s).course := by rw [Dev.darkSide_course, Dev.stopBoost_course]

@[simp] theorem Dev.enterSafe_course (d : Dev) (s : Nat) (f : Bool) : (d.enterSafe s f).course = d.course := by
  unfold Dev.enterSafe
  split
  · split
    · exact Dev.modMportEv_course ..
    · rfl
  · exact d.safeSide_course s f

@[simp] theorem Dev.pend_course (d : Dev) (t : DevState) (c r : Nat) : (d.pend t c r).course = d.course :=
  Dev.course_of_frame (d.pend_only t c r) rfl

@[simp] theorem Dev.safeAll_course (d : Dev) (c r : Nat) (f : Bool) : (d.safeAll c r f).course = d.course := by
  unfold Dev.safeAll
  rw [Dev.release_course, Dev.release_course, Dev.pend_course]
  exact Dev.foldl_course (fun s _ e => e.enterSafe_course s f) d

@[simp] theorem Dev.reactSide_course (d : Dev) (s c : Nat) (f : Bool) : (d.reactSide s c f).course = d.course := by
  unfold Dev.reactSide
  split
  · rfl
  · split
    · exact Dev.course_of_frame (d.sameTick_only c 2) rfl
    · split
      · rw [Dev.pend_course, Dev.enterSafe_course]
      · exact d.safeAll_course c 2 f

@[simp] theorem Dev.reactCh_course (d : Dev) (c code : Nat) : (d.reactCh c code).course = d.course := by
  have h : (d.latch c code).course = d.course := rfl
  unfold Dev.reactCh
  extract_lets d1
  split
  · exact (Dev.reactSide_course ..).trans h
  · exact h

@[simp] theorem Dev.react_course (d : Dev) (code inst : Nat) (r : Reaction) (f : Bool) :
    (d.react code inst r f).course = d.course := by
  unfold Dev.react
  split
  · cases r with
    | rec_ => rfl
    | ch => exact d.reactCh_course ..
    | side => exact Dev.foldl_course (fun s _ e => e.reactSide_course s code f) d
    | dev => exact d.safeAll_course code 3 f
  · rfl

@[simp] theorem Dev.activate_course (d : Dev) (code inst arg : Nat) (r : Reaction) :
    (d.activate code inst arg r).course = d.course := by
  unfold Dev.activate
  extract_lets n s0 d0 s1 f j1 a1 d1
  have h1 : d1.course = d.course := rfl
  split
  · rfl
  · refine Eq.trans ?_ h1
    unfold Dev.listFault
    extract_lets l
    split
    · rfl
    · split
      · rfl
      · exact d1.count_course_of_ne 1 (by decide) (by decide)

@[simp] theorem Dev.snapshot_course (d : Dev) (n : Nat) : (d.snapshot n).course = d.course := by
  unfold Dev.snapshot
  extract_lets again seq src recs hold s1 d1
  split
  · rfl
  · rw [Dev.post_course, Dev.setIrq_course]
    rfl

@[simp] theorem Dev.raise_course (d : Dev) (code inst arg : Nat) : (d.raise code inst arg).course = d.course := by
  unfold Dev.raise Dev.raiseWith
  split
  · exact d.post_course code arg
  · split
    · rfl
    · extract_lets d1 s2 d2 own r d3
      have h2 : d2.course = d.course := (Dev.setIrq_course _ 2).trans (d.post_course code arg)
      have h3 : d3.course = d.course := (Dev.react_course ..).trans ((Dev.activate_course ..).trans h2)
      split
      · exact (Dev.snapshot_course ..).trans h3
      · exact h3

@[simp] theorem Dev.clearFault_course (d : Dev) (code inst : Nat) : (d.clearFault code inst).course = d.course := by
  unfold Dev.clearFault
  split
  · exact Dev.post_course ..
  · rfl

/-! ### Calibration -/

theorem Dev.runEnded_course (d : Dev) : { d with cal := { d.cal with run := none, coveredAdc := none } }.course = d.course := rfl

theorem Dev.queueTaken_course (d : Dev) : { d with cal := { d.cal with queuedRun := none } }.course = d.course := rfl

@[simp] theorem Dev.modRun_course (d : Dev) (f : CalRun → CalRun) : (d.modRun f).course = d.course := rfl

@[simp] theorem Dev.endCover_course (d : Dev) (ch : Nat) : (d.endCover ch).course = d.course := by
  unfold Dev.endCover
  split
  · split <;> rfl
  · rfl
  · rfl
  · rfl

@[simp] theorem Dev.startCover_course (d : Dev) (ch : Nat) : (d.startCover ch).course = d.course := by
  unfold Dev.startCover
  split
  · split <;> rfl
  · rfl
  · rfl
  · rfl

@[simp] theorem Dev.skipChannels_course (d : Dev) (chs : List Nat) : (d.skipChannels chs).course = d.course := by
  unfold Dev.skipChannels
  split
  · rfl
  · exact (Dev.count_course _ 0 chs.length (by decide)).trans (Dev.modRun_course ..)

@[simp] theorem Dev.dropLost_course (d : Dev) : d.dropLost.course = d.course := by
  unfold Dev.dropLost
  split
  · rfl
  · extract_lets lost d1 gone d2
    have h1 : d1.course = d.course := Dev.foldl_course (fun ch _ e => e.endCover_course ch) _
    exact (Dev.skipChannels_course ..).trans h1

@[simp] theorem Dev.nextCover_course (d : Dev) (scope : Nat) : (d.nextCover scope).course = d.course := by
  unfold Dev.nextCover
  split
  · rfl
  · extract_lets open_
    split
    · rfl
    · split
      · rfl
      · extract_lets free
        split
        · exact Dev.startCover_course ..
        · rfl

@[simp] theorem Dev.releaseCovers_course (d : Dev) (p : Nat → Bool) : (d.releaseCovers p).course = d.course := by
  unfold Dev.releaseCovers
  split
  · rfl
  · exact Dev.foldl_course (fun ch _ e => e.endCover_course ch) _

@[simp] theorem Dev.applyWaiting_course (d : Dev) (p : Nat → Bool) : (d.applyWaiting p).course = d.course := by
  unfold Dev.applyWaiting
  extract_lets mine other d1
  have h1 : d1.course = d.course := Dev.foldl_course (fun _ _ _ => by rfl) d
  exact (Dev.foldl_course (fun _ _ _ => by rfl) _).trans h1

@[simp] theorem Dev.checkRef_course (d : Dev) : d.checkRef.course = d.course := by
  unfold Dev.checkRef
  split
  · rfl
  · split
    · rfl
    · split
      · exact d.clearFault_course ..
      · rw [Dev.raise_course, Dev.post_course, Dev.skipChannels_course]

@[simp] theorem Dev.beginRun_course (d : Dev) : d.beginRun.course = d.course := by
  simp [Dev.beginRun]

@[simp] theorem Dev.askRun_course (d : Dev) (sc : BitVec 3) (auto : Bool) (p : Port) (tag : Nat) :
    (d.askRun sc auto p tag).1.course = d.course := by
  have h : ((d.request .cal).openRun sc auto false p tag).course = d.course := d.request_course .cal
  unfold Dev.askRun
  extract_lets d1
  split
  · exact (Dev.beginRun_course _).trans h
  · split
    · exact h
    · exact d.request_course .cal

theorem Dev.course_of_askRun {d e : Dev} {sc : BitVec 3} {auto ok : Bool} {p : Port} {tag : Nat}
    (h : d.askRun sc auto p tag = (e, ok)) : e.course = d.course :=
  (congrArg (fun r : Dev × Bool => r.1.course) h).symm.trans (d.askRun_course ..)

@[simp] theorem Dev.storeSet_course (d : Dev) (r : CalRun) : (d.storeSet r).course = d.course := Dev.request_course ..

@[simp] theorem Dev.markScopes_course (d : Dev) (r : CalRun) (n : BitVec 3) : (d.markScopes r n).course = d.course :=
  Dev.post_course ..

@[simp] theorem Dev.finishRun_course (d : Dev) : d.finishRun.course = d.course := by
  unfold Dev.finishRun
  split
  · rfl
  · next r _ =>
    split
    · rfl
    · extract_lets n d1 d2 c3 d3 d4
      have h1 : d1.course = d.course := by
        unfold d1
        split
        · rfl
        · exact d.markScopes_course r n
      have h2 : d2.course = d.course := by
        rw [show d2.course = _ from Dev.release_course .., Dev.storeSet_course, Dev.count_course _ 0 1 (by decide), h1]
      have h3 : d3.course = d.course := d2.runEnded_course.trans h2
      have h4 : d4.course = d.course := by
        unfold d4
        split
        · exact h3
        · exact (Dev.finish_course ..).trans h3
      split
      · exact h1
      · split
        · exact h4
        · split
          next d6 ok e =>
          have h6 : d6.course = d.course := (Dev.course_of_askRun e).trans (d4.queueTaken_course.trans h4)
          split
          · exact h6
          · exact (Dev.finishWith_course ..).trans h6

@[simp] theorem Dev.calAdvance_course (d : Dev) : d.calAdvance.course = d.course := by
  unfold Dev.calAdvance
  split
  · rw [Dev.finishRun_course, Dev.nextCover_course, Dev.nextCover_course, Dev.dropLost_course]
  · rfl

@[simp] theorem Dev.calGap_course (d : Dev) (s : Nat) : (d.calGap s).course = d.course := by
  unfold Dev.calGap
  extract_lets mine
  exact (Dev.calAdvance_course _).trans ((Dev.releaseCovers_course _ mine).trans (d.applyWaiting_course mine))

@[simp] theorem Dev.calIdle_course (d : Dev) : d.calIdle.course = d.course := by
  unfold Dev.calIdle
  split
  · rw [Dev.finishRun_course, Dev.applyWaiting_course]
  · refine Dev.foldl_course (fun s _ e => ?_) d
    split
    · exact e.calGap_course s
    · rfl

@[simp] theorem Dev.calTicket_course (d : Dev) : d.calTicket.course = d.course := by
  unfold Dev.calTicket
  split
  · rfl
  · split
    · rfl
    · split
      · rw [Dev.calAdvance_course, Dev.calIdle_course]
        split
        · exact d.beginRun_course
        · rfl
      · extract_lets c1 d1
        split
        · rfl
        · exact Dev.finishWith_course ..

end Sys2Proof.Machine
end

section
/-! Slot boundary, hand-off and reset instant (O36). -/

namespace Sys2Proof.Machine

open Sys2Proof

/-! ### What the planes leave of the course -/

theorem Dev.lt_two_of_mem_modeSides {d : Dev} {s : Nat} (h : s ∈ d.modeSides) : s < 2 := by
  unfold Dev.modeSides at h
  split at h
  · rcases List.mem_pair.1 h with rfl | rfl
    · exact Nat.two_pos
    · exact Nat.one_lt_two
  · rw [List.mem_singleton.1 h]
    exact Nat.two_pos

@[simp] theorem Dev.voidEntry_course (d : Dev) (s e : Nat) : (d.voidEntry s e).course = d.course :=
  (Dev.raise_course ..).trans ((d.zeroWord s e).count_course s 1 (by decide))

@[simp] theorem Dev.beginLoad_course (d : Dev) (s e : Nat) (bad : List Nat) : (d.beginLoad s e bad).course = d.course := by
  unfold Dev.beginLoad
  extract_lets p bits l
  split
  · rfl
  · exact Dev.voidEntry_course ..

@[simp] theorem Dev.exchangeMask_course (d : Dev) (s : Nat) : (d.exchangeMask s).course = d.course := by
  unfold Dev.exchangeMask
  split
  · exact Dev.count_course _ s 1 (by decide)
  · rfl

@[simp] theorem Dev.evalAge_course (d : Dev) : d.evalAge.course = d.course := Dev.course_of_frame d.evalAge_only rfl

@[simp] theorem Dev.seqEcc_course (d : Dev) (e : Nat) : (d.seqEcc e).course = d.course := Dev.raise_course ..

theorem Dev.planeEcc_course (d : Dev) {s : Nat} (e : Nat) (h : s < 2) : (d.planeEcc s e).course = d.course :=
  (Dev.raise_course ..).trans (d.count_course_of_ne 1 (by unfold pid kJnlNorFails kMstPlaneEcc; omega)
    (by unfold pid kCalCalDisagreeCount kMstPlaneEcc; omega))

@[simp] theorem Dev.closeAggregates_course (d : Dev) (s : Nat) (b : Bool) : (d.closeAggregates s b).course = d.course := by
  unfold Dev.closeAggregates
  split
  · rfl
  · split
    · rfl
    · extract_lets s1 q1 d1 acc
      split
      · exact Dev.count_course _ s 1 (by decide)
      · rfl

@[simp] theorem Dev.endLoad_course (d : Dev) (s e : Nat) : (d.endLoad s e).course = d.course := by
  unfold Dev.endLoad
  split
  · rfl
  · extract_lets d0 p
    split
    · rfl
    · split
      · rfl
      · split
        · rfl
        · exact Dev.voidEntry_course ..

@[simp] theorem Dev.applyWord_course (d : Dev) (s e : Nat) : (d.applyWord s e).course = d.course := by
  unfold Dev.applyWord
  extract_lets put
  split
  · rfl
  · exact (Dev.raise_course ..).trans (Dev.count_course _ s 1 (by decide))

/-! ### B_e (R213) -/

/-- Entry e is the one begun, and its reset is to come. -/
def Dev.entryBegun (d : Dev) (e : Nat) : Dev := { d with seq := { d.seq with entry := e, boundaryOpen := false, resetDue := true } }

/-- Masks, word errors and loads leave where the timeline stands. -/
theorem Dev.beginEntry_course (d : Dev) (e : Nat) (bad masks : Nat → List Nat) (ecc : Bool) :
    (d.beginEntry e bad masks ecc).course = (d.entryBegun e).course := by
  unfold Dev.beginEntry
  extract_lets q0 d0 d1 d2
  have h1 : d1.course = d0.course := by
    refine (Dev.evalAge_course _).trans ?_
    split
    · rfl
    · exact Dev.foldl_course (fun s _ e => e.exchangeMask_course s) d0
  have h2 : d2.course = d0.course := by
    unfold d2
    split
    · exact (d1.seqEcc_course e).trans h1
    · exact h1
  refine (Dev.foldl_course (fun s hs g => ?_) d2).trans h2
  split
  · extract_lets d3
    have h3 : d3.course = g.course := Dev.beginLoad_course ..
    exact (Dev.foldl_course (fun _ _ k => k.planeEcc_course e (Dev.lt_two_of_mem_modeSides hs)) d3).trans h3
  · rfl

theorem Dev.slotBegins_of_runs {d : Dev} (h : d.timelineRuns = true) : d.slotBegins = d.nextEntry := if_pos h

theorem exec_slotBoundary_begins {s : State} {e : Nat} (hr : s.dev.timelineRuns = true) (he : s.dev.nextEntry = some e)
    (l r : List Nat) (m : List (Side × Nat)) (bad : Bool) :
    exec (.slotBoundary l r m bad) s = .next { s with
      dev := s.dev.beginEntry e (fun k => if k = 0 then l else r) (fun k => maskWordsOf k m) bad } := by
  show execSlotBoundary l r m bad s = _
  simp only [execSlotBoundary, State.on, Dev.slotBegins_of_runs hr, he]

theorem exec_slotBoundary_waits {s : State} (hr : s.dev.timelineRuns = true) (he : s.dev.nextEntry = none)
    (l r : List Nat) (m : List (Side × Nat)) (bad : Bool) : exec (.slotBoundary l r m bad) s = .next s := by
  show execSlotBoundary l r m bad s = _
  simp only [execSlotBoundary, State.on, Dev.slotBegins_of_runs hr, he]

/-! ### The hand-off (R228) -/

/-- The word handed belongs to entry 0 of the refresh to come. -/
def Dev.handsFirst (d : Dev) : Bool := d.handEntry == 0 && !(d.seq.boundaryOpen && d.seq.started)

/-- A side gets the word of entry e, in place of one that it had for e. -/
def Dev.putWord (d : Dev) (s e : Nat) (first : Bool) : Dev :=
  { d with seq := { d.seq with words := d.seq.words.mod s fun l => l.filter (fun v => v.entry != e) ++ [d.wordFor s e first] } }

/-- The words of one side say nothing about the next word of another. -/
theorem Dev.wordFor_putWord (d : Dev) (s e : Nat) (first : Bool) (k : Nat) :
    (d.putWord s e first).wordFor k e first = d.wordFor k e first := rfl

theorem Dev.words_putWord_self (d : Dev) (s e : Nat) (first : Bool) :
    (d.putWord s e first).seq.words.get s = (d.seq.words.get s).filter (fun v => v.entry != e) ++ [d.wordFor s e first] :=
  Pair.get_mod_self ..

theorem Dev.words_putWord_ne (d : Dev) {s k : Nat} (e : Nat) (first : Bool) (h : (s = 0) ≠ (k = 0)) :
    (d.putWord s e first).seq.words.get k = d.seq.words.get k := Pair.get_mod_ne _ _ h

theorem Dev.handOff_seq_words {d : Dev} (h : d.lateWord = false) :
    d.handOff.seq.words = (d.sides.foldl (fun a s => a.putWord s d.handEntry d.handsFirst) d).seq.words := by
  unfold Dev.handOff
  rw [h, if_neg Bool.false_ne_true]
  extract_lets e first put d1
  split <;> rfl

/-- Each side's last word is the one handed, and its words for other entries stay. -/
theorem Dev.handOff_words {d : Dev} (h : d.lateWord = false) {k : Nat} (hk : k ∈ d.sides) :
    d.handOff.seq.words.get k =
      (d.seq.words.get k).filter (fun v => v.entry != d.handEntry) ++ [d.wordFor k d.handEntry d.handsFirst] := by
  rw [Dev.handOff_seq_words h]
  rcases d.sides_cases with hs | hs
  · rw [hs] at hk ⊢
    rw [List.mem_singleton.1 hk]
    exact d.words_putWord_self ..
  · rw [hs] at hk ⊢
    simp only [List.foldl_cons, List.foldl_nil]
    rcases List.mem_pair.1 hk with rfl | rfl
    · rw [Dev.words_putWord_ne _ _ _ (by decide), Dev.words_putWord_self]
    · rw [Dev.words_putWord_self, Dev.words_putWord_ne _ _ _ (by decide), Dev.wordFor_putWord]

theorem Dev.handOff_of_late {d : Dev} (h : d.lateWord = true) : d.handOff = d := if_pos h

theorem exec_lookaheadHandoff {s : State} (hr : s.dev.timelineRuns = true) :
    exec .lookaheadHandoff s = .next { s with dev := s.dev.handOff } :=
  exec_of_on (f := fun d => if d.timelineRuns then d.handOff else d) rfl (if_pos hr)

/-! ### S_e (R214) -/

/-- The entry begun is displayed, and its reset starts the reset's age. -/
def Dev.entryShown (d : Dev) : Dev :=
  { d with
    seq := { d.seq with
      resetDue := false, displayed := d.seq.entry, resetAt := d.now,
      wordMissed := !((d.seq.words.get 0).any fun w => w.entry == d.seq.entry) }
    gov := { d.gov with sinceReset := 0 } }

/-- Checks, loads and words of the entry shown leave where the timeline stands. -/
theorem Dev.resetInstant_course (d : Dev) : d.resetInstant.course = d.entryShown.course := by
  unfold Dev.resetInstant
  extract_lets e q0 g0 d0
  refine (Dev.foldl_course (fun s _ g => ?_) d0).trans rfl
  rw [Dev.applyWord_course, Dev.endLoad_course, Dev.closeAggregates_course]

/-- The taps of a READY port may change in the slot gap that opens (R247). -/
def Dev.slotGapTaps (d : Dev) : Dev := d.sides.foldl (fun d k => if (d.mport k).state = .ready then d.calGap k else d) d

theorem Dev.slotGapTaps_course (d : Dev) : d.slotGapTaps.course = d.course := by
  refine Dev.foldl_course (fun k _ e => ?_) d
  split
  · exact e.calGap_course k
  · rfl

theorem Dev.slotGapTaps_only (d : Dev) :
    d.onlyChanges d.slotGapTaps [.prm, .sluice, .host, .links, .seq, .ports, .lamp, .gov, .saf, .jnl, .cal] :=
  Dev.only_foldl _ (fun e k => Dev.only_ite (fun _ => e.calGap_only k) fun _ => e.only_refl _) (d.only_refl _)

theorem exec_resetInstant_due {s : State} (hr : s.dev.timelineRuns = true) (hd : s.dev.seq.resetDue = true) :
    exec .resetInstant s = .next { s with dev := s.dev.resetInstant.slotGapTaps } := by
  show execResetInstant s = _
  simp only [execResetInstant, State.on, hr, hd, Bool.and_self, if_true]
  rfl

theorem exec_resetInstant_idle {s : State} (hd : s.dev.seq.resetDue = false) : exec .resetInstant s = .next s := by
  show execResetInstant s = _
  simp only [execResetInstant, State.on, hd, Bool.and_false, Bool.false_eq_true, if_false]

/-- Settles O36: each instant is its own step of the timeline, whose course all that follows leaves, and the hand-off puts one word
behind those of the other entries. -/
theorem slotTimeline : Obligations.SlotTimeline := by
  unfold Obligations.SlotTimeline
  refine ⟨?_, ?_, ?_, ?_, ?_, ?_⟩
  · intro s e hr he l r m bad
    have h := s.dev.beginEntry_course e (fun k => if k = 0 then l else r) (fun k => maskWordsOf k m) bad
    exact ⟨_, exec_slotBoundary_begins hr he l r m bad, Dev.beginEntry_only .., congrArg Course.entry h,
      congrArg Course.resetDue h, congrArg Course.boundaryOpen h, congrArg Course.displayed h⟩
  · intro s hr he l r m bad
    exact exec_slotBoundary_waits hr he l r m bad
  · intro s hr hl
    rw [exec_lookaheadHandoff hr, Dev.handOff_of_late hl]
  · intro s hr hl
    refine ⟨_, exec_lookaheadHandoff hr, Dev.handOff_only _, fun k hk => ?_⟩
    rw [Dev.handOff_words hl hk]
    refine ⟨List.getLast?_concat, fun w hw hne => ?_⟩
    exact List.mem_append_left _ (List.mem_filter.2 ⟨hw, bne_iff_ne.2 hne⟩)
  · intro s hr hd
    have h := (Dev.slotGapTaps_course _).trans s.dev.resetInstant_course
    exact ⟨_, exec_resetInstant_due hr hd, (s.dev.resetInstant_only.mono (by decide)).trans (Dev.slotGapTaps_only _),
      congrArg Course.displayed h, congrArg Course.entry h, congrArg Course.resetDue h, congrArg Course.sinceReset h⟩
  · intro s hd
    exact exec_resetInstant_idle hd

end Sys2Proof.Machine
end

section
/-! What changes of mode and of DEV_STATE leave of the marked words of the sequence store, and what a clearance brings. -/

namespace Sys2Proof.Machine

open Sys2Proof

/-! ### The marked words of the sequence store (R218)

A clearance may end SAFE, put a mode in force and start the beam (R363); none of this marks or reloads a word. -/

theorem Dev.onlyChanges.eccWords {a b : Dev} {l : List Part} (h : a.onlyChanges b l) (hl : l.contains .seq = false) :
    b.seq.eccWords = a.seq.eccWords :=
  congrArg Seq.eccWords (h.part .seq hl : b.seq = a.seq)

theorem Dev.carryMask_eccWords (d : Dev) (m : Nat) : (d.carryMask m).seq.eccWords = d.seq.eccWords := by
  unfold Dev.carryMask
  split
  · rfl
  · rw [(Dev.post_quiet ..).seq]

theorem Dev.changeMode_eccWords (d : Dev) (m : Nat) (b : Bool) : (d.changeMode m b).seq.eccWords = d.seq.eccWords := by
  unfold Dev.changeMode Dev.takeMode
  extract_lets prev d1 base c d2
  have h1 : d1.seq.eccWords = d.seq.eccWords := by
    unfold d1
    split
    · rfl
    · rw [(Dev.camModeChange_only ..).eccWords rfl, (d.keepTestFrame_only m).eccWords rfl]
  rw [(Dev.post_only ..).eccWords rfl, (Dev.count_only ..).eccWords rfl, (Dev.rechoose_only _).eccWords rfl,
    (Dev.rectsModeChange_only ..).eccWords rfl, Dev.carryMask_eccWords]
  exact h1

theorem Dev.restartTimeline_eccWords (d : Dev) : d.restartTimeline.seq.eccWords = d.seq.eccWords :=
  (Dev.only_foldl _ (fun e s => e.dropPass_only s) (Dev.only_refl _ _)).eccWords rfl

theorem Dev.selectNow_eccWords (d : Dev) (m : Nat) (p : Port) (tag : Nat) :
    (d.selectNow m p tag).seq.eccWords = d.seq.eccWords := by
  unfold Dev.selectNow
  extract_lets q d1 d2
  rw [(Dev.finish_only ..).eccWords rfl]
  unfold d2
  split
  · rfl
  · rw [Dev.restartTimeline_eccWords, Dev.changeMode_eccWords]

theorem Dev.settleMode_eccWords (d : Dev) : d.settleMode.seq.eccWords = d.seq.eccWords := by
  unfold Dev.settleMode
  split
  · split
    · exact d.selectNow_eccWords ..
    · split
      · rw [(Dev.finishWith_only ..).eccWords rfl]
      · rfl
  · rfl

theorem Dev.settle_eccWords (d : Dev) : d.settle.seq.eccWords = d.seq.eccWords := by
  unfold Dev.settle
  extract_lets d1
  split
  · rw [(Dev.beamOn_only _).eccWords rfl]
    exact d.settleMode_eccWords
  · exact d.settleMode_eccWords

theorem Dev.putInForce_eccWords (d : Dev) (m : Nat) (p : Port) (tag : Nat) :
    (d.putInForce m p tag).seq.eccWords = d.seq.eccWords := by
  unfold Dev.putInForce
  rw [(Dev.finish_only ..).eccWords rfl]
  split
  · rfl
  · rw [(Dev.moveSideR_only ..).eccWords rfl, Dev.restartTimeline_eccWords, Dev.changeMode_eccWords]

theorem Dev.changeAtStandby_eccWords (d : Dev) : d.changeAtStandby.seq.eccWords = d.seq.eccWords := by
  unfold Dev.changeAtStandby
  split
  · rfl
  · exact d.putInForce_eccWords ..
  · extract_lets q d1
    have h1 : d1.seq.eccWords = d.seq.eccWords := by
      rw [(Dev.finish_only ..).eccWords rfl, Dev.restartTimeline_eccWords, Dev.changeMode_eccWords]
    split
    · exact (Dev.putInForce_eccWords ..).trans h1
    · exact h1

/-- A side goes dark at STANDBY entry. -/
def Dev.standbySide (d : Dev) (s : Nat) : Dev :=
  ((((d.zeroWords s).stopBoost s).darkSide s).modLside s fun p => { p with r := 0, rRamp := none, ignited := false }).modMportEv s
    fun p => p.park false

theorem Dev.standbySide_eccWords (d : Dev) (s : Nat) : (d.standbySide s).seq.eccWords = d.seq.eccWords := by
  unfold Dev.standbySide
  rw [(Dev.modMportEv_only ..).eccWords rfl, (Dev.modLside_only ..).eccWords rfl, (Dev.darkSide_only ..).eccWords rfl,
    (Dev.stopBoost_only ..).eccWords rfl]
  rfl

theorem Dev.foldl_eccWords {α : Type} {f : Dev → α → Dev} (hf : ∀ (e : Dev) x, (f e x).seq.eccWords = e.seq.eccWords) (xs : List α)
    (d : Dev) : (xs.foldl f d).seq.eccWords = d.seq.eccWords := by
  induction xs generalizing d with
  | nil => rfl
  | cons x xs ih => exact (ih _).trans (hf d x)

theorem Dev.enterStandby_eccWords (d : Dev) : d.enterStandby.seq.eccWords = d.seq.eccWords := by
  unfold Dev.enterStandby
  extract_lets dark d1 c q d2
  have h1 : d1.seq.eccWords = d.seq.eccWords := by
    rw [(Dev.release_only ..).eccWords rfl, (Dev.release_only ..).eccWords rfl]
    exact Dev.foldl_eccWords Dev.standbySide_eccWords d.sides d
  rw [(Dev.standbyEntered_only _).eccWords rfl, Dev.changeAtStandby_eccWords, (Dev.freeCam_only _).eccWords rfl,
    (Dev.reqEffective_only ..).eccWords rfl, (Dev.goTo_only ..).eccWords rfl]
  exact h1

theorem Dev.afterClear_eccWords (d : Dev) : d.afterClear.seq.eccWords = d.seq.eccWords := by
  unfold Dev.afterClear Dev.leaveSafe
  rw [Dev.settle_eccWords]
  split
  · rw [Dev.settle_eccWords, Dev.enterStandby_eccWords]
  · rfl

/-! ### Clearances outside SAFE and STANDBY -/

/-- Only SAFE ends with a clearance, and only STANDBY has a beam or a mode that waits for one. -/
theorem Dev.afterClear_of_lit {d : Dev} (h : d.core.state ≠ .safe) (h' : d.core.state ≠ .standby) : d.afterClear = d := by
  unfold Dev.afterClear Dev.leaveSafe
  rw [if_neg fun hs => h hs.1, Dev.settle_of_not_standby h']

theorem Dev.clearFault_core (d : Dev) (code inst : Nat) : (d.clearFault code inst).core = d.core :=
  (d.clearFault_only code inst).core rfl

end Sys2Proof.Machine
end

section
/-! Snapshots and AUTO faults as events of the stores (O60). -/

namespace Sys2Proof.Machine

open Sys2Proof

/-! ### Snapshots (R366) -/

/-- A further trigger in the tick of a latch counts no new one, and takes the records again. -/
theorem Dev.snapshot_saf_again {d : Dev} (h : d.latchTick = some (d.now + 1)) {src : Nat} (hs : src ≠ 4) :
    ∃ n recs, (d.snapshot src).saf = { d.saf with lastSrc := n, live := recs } := by
  unfold Dev.snapshot
  extract_lets again seq src' recs hold s1 d1
  have hagain : again = true := beq_iff_eq.2 h
  have hhold : hold = false := by simp [hold, hs]
  rw [if_pos hagain]
  refine ⟨src', recs, ?_⟩
  simp [d1, s1, seq, hagain, hhold]

theorem exec_snapNFall_armed {s : State} (hg : s.dev.govRuns = true) (he : s.dev.saf.snapNEn = true) :
    exec .snapNFall s = .next { s with dev := s.dev.snapshot 1 } :=
  exec_of_on (f := fun d => if d.govRuns && d.saf.snapNEn then d.snapshot 1 else d) rfl
    (if_pos (Bool.and_eq_true_iff.2 ⟨hg, he⟩))

theorem exec_snapNFall_idle {s : State} (h : s.dev.govRuns = false ∨ s.dev.saf.snapNEn = false) :
    exec .snapNFall s = .next s :=
  exec_of_on (f := fun d => if d.govRuns && d.saf.snapNEn then d.snapshot 1 else d) rfl
    (if_neg (by rcases h with h | h <;> simp [h]))

/-! ### AUTO faults (R362, Table 15-2) -/

/-- A port in FAULT is powered down; its power-up waits. -/
theorem Dev.repower_saf_of_fault {d : Dev} {s : Nat} (h : (d.mport s).state = .fault) : (d.repower s).saf = d.saf := by
  unfold Dev.repower
  rw [h]
  exact (Dev.powerDownNow_only d s).part .saf rfl

/-- The fault goes, and a port in FAULT for it alone is powered down and up. -/
theorem Dev.autoClear_of_holds {d : Dev} {code inst : Nat} (ha : d.faultActive code inst = true)
    (hr : ((faultRow? code).any fun r => r.recovery == .auto) = true) (hh : d.autoHolds code inst = true) :
    ∃ e : Dev, d.autoClear code inst = e.afterClear ∧ e.core = d.core ∧ e.faultActive code inst = false ∧
      (code ≠ 0x0703 → e = d.clearFault code inst) := by
  have hcore := d.clearFault_core code inst
  have hself := d.clearFault_self code inst
  unfold Dev.autoClear
  rw [ha, hr, hh, if_pos (by decide)]
  extract_lets d1 held
  by_cases hp : code = 0x0703 ∧ (d1.mport inst).state = .fault ∧ (!held) = true
  · rw [if_pos hp]
    obtain ⟨hcode, hfault, -⟩ := hp
    refine ⟨_, rfl, ((Dev.repower_only d1 inst).core rfl).trans hcore, ?_, fun h => absurd hcode h⟩
    exact (Dev.faultActive_of_saf (Dev.repower_saf_of_fault hfault) ..).trans hself
  · rw [if_neg hp]
    exact ⟨_, rfl, hcore, hself, fun _ => rfl⟩

theorem Dev.autoClear_of_not {d : Dev} {code inst : Nat} (h : d.faultActive code inst = false ∨
    ((faultRow? code).any fun r => r.recovery == .auto) = false ∨ d.autoHolds code inst = false) : d.autoClear code inst = d := by
  refine if_neg fun hall => ?_
  obtain ⟨hboth, hh⟩ := Bool.and_eq_true_iff.1 hall
  obtain ⟨ha, hr⟩ := Bool.and_eq_true_iff.1 hboth
  rcases h with h | h | h
  · exact Bool.false_ne_true (h.symm.trans ha)
  · exact Bool.false_ne_true (h.symm.trans hr)
  · exact Bool.false_ne_true (h.symm.trans hh)

/-- A raising within the last second stands against a fault that clears after 1 s without one. -/
theorem Dev.autoHolds_of_recent {d : Dev} {f : ActiveFault} (hf : f ∈ d.saf.active) (ht : d.now < f.raisedAt + 100000000)
    (hc : ([0x0602, 0x0603, 0x0702, 0x0703, 0x0805, 0x0903, 0x0A08] : List Nat).contains f.code = true) :
    d.autoHolds f.code f.inst = false := by
  unfold Dev.autoHolds Dev.quietSecond
  rw [if_pos hc, List.all_eq_false]
  exact ⟨f, hf, by simp [ht]⟩

end Sys2Proof.Machine
end

section
/-! The journal's pages and erases as events of the stores (O60). -/

namespace Sys2Proof.Machine

open Sys2Proof

/-! ### What an erase ahead and a failed flush leave -/

@[simp] theorem Dev.failSeals_course (d : Dev) (st : Nat) : (d.failSeals st).course = d.course := by
  unfold Dev.failSeals
  exact Dev.foldl_course (fun w _ e => e.finishWith_course w.2.1 w.2.2 st) _

@[simp] theorem Dev.eraseAhead_course (d : Dev) : d.eraseAhead.course = d.course := by
  unfold Dev.eraseAhead
  split
  · rfl
  · extract_lets d1
    split
    · exact d.request_course _
    · exact (Dev.failSeals_course ..).trans (d.request_course _)

/-- The flush ends, or its next page starts. -/
def Journal.flushAt (j : Journal) (flushing : Bool) : Journal := { j with flushing := flushing, pageFails := 0 }

/-- The flush has failed, and is counted. -/
def Dev.flushFailed (d : Dev) : Dev := { d with jnl := d.jnl.flushAt false }.count kJnlNorFails 0 1

theorem Dev.norFail_eq (d : Dev) (cause : Nat) : d.norFail cause = d.flushFailed.raise 0x0D01 0 cause := rfl

theorem Dev.flushFailed_jnl (d : Dev) : d.flushFailed.jnl = d.jnl.flushAt false := (Dev.count_only ..).part .jnl rfl

/-- A flush that fails keeps its records. -/
theorem Dev.norFail_records (d : Dev) (cause : Nat) : (d.norFail cause).jnl.records = (d.jnl.flushAt false).records := by
  rw [Dev.norFail_eq, ← d.flushFailed_jnl]
  exact congrArg Course.journal (Dev.raise_course ..)

theorem Dev.startPage_pending (d : Dev) : d.startPage.jnl.pending = d.jnl.pending := by
  unfold Dev.startPage
  split
  · exact congrArg (fun c => c.journal.pending) (Dev.eraseAhead_course _)
  · split
    · exact (congrArg (fun c => c.journal.pending) (Dev.eraseAhead_course _)).trans (congrArg Journal.pending (d.norFail_records 1))
    · rfl

theorem Dev.startPage_nor (d : Dev) : d.startPage.nor = d.nor := d.startPage_only.part .nor rfl

/-! ### A page in NOR (R376, R378) -/

/-- From one state to the next, records move from the pending list into NOR only, and the ring holds the same entries. -/
structure Dev.Stores (a b : Dev) : Prop where
  density : b.nor.density = a.nor.density
  pending : ∀ e ∈ b.jnl.pending, e ∈ a.jnl.pending
  slots : ∀ k, (kvGet a.nor.journal k).isSome = true → (kvGet b.nor.journal k).isSome = true
  ring : ∀ e, (b.ringEntry e).isSome = (a.ringEntry e).isSome

namespace Dev.Stores

theorem refl (d : Dev) : d.Stores d := ⟨rfl, fun _ h => h, fun _ h => h, fun _ => rfl⟩

theorem trans {a b c : Dev} (h : a.Stores b) (g : b.Stores c) : a.Stores c :=
  ⟨g.density.trans h.density, fun e he => h.pending e (g.pending e he), fun k hk => g.slots k (h.slots k hk),
    fun e => (g.ring e).trans (h.ring e)⟩

theorem norSlot {a b : Dev} (h : a.Stores b) (e : Nat) : b.norSlot e = a.norSlot e := by
  unfold Dev.norSlot Dev.journalN
  rw [h.density]

end Dev.Stores

/-- The NOR and the journal's records are the same. -/
structure Dev.SameRecords (a b : Dev) : Prop where
  nor : b.nor = a.nor
  records : b.jnl.records = a.jnl.records

namespace Dev.SameRecords

theorem refl (d : Dev) : d.SameRecords d := ⟨rfl, rfl⟩

theorem thenQuiet {a b c : Dev} (h : a.SameRecords b) (g : b.Quiet c) : a.SameRecords c :=
  ⟨g.nor.trans h.nor, (congrArg Journal.records g.jnl).trans h.records⟩

theorem stores {a b : Dev} (h : a.SameRecords b) : a.Stores b := by
  have hp : b.jnl.pending = a.jnl.pending := (congrArg Journal.pending h.records :)
  have hr : b.jnl.ring = a.jnl.ring := (congrArg Journal.ring h.records :)
  refine ⟨by rw [h.nor], fun e he => hp ▸ he, by rw [h.nor]; exact fun _ hk => hk, fun e => ?_⟩
  rw [Dev.ringEntry, Dev.ringEntry, hr]

end Dev.SameRecords

/-- The record of an entry has left the pending list and stands in NOR. -/
def Dev.stored (d : Dev) (e : Nat) : Prop := e ∉ d.jnl.pending ∧ (kvGet d.nor.journal (d.norSlot e)).isSome = true

theorem Dev.Stores.stored {a b : Dev} (h : a.Stores b) {e : Nat} (he : a.stored e) : b.stored e :=
  ⟨fun hm => he.1 (h.pending e hm), by rw [h.norSlot]; exact h.slots _ he.2⟩

/-- A record rewritten in the ring keeps its entry number. -/
theorem Dev.keepRecord_ringEntry (d : Dev) (e : Nat) (r : List Byte) (x : Nat) :
    ((d.keepRecord e r).ringEntry x).isSome = (d.ringEntry x).isSome := by
  have hentry : ∀ q : JRec, ((fun r : JRec => r.entry == x) ∘ fun q => if q.entry = e then { q with bytes := r } else q) q =
      (q.entry == x) := by
    intro q
    simp only [Function.comp]
    split <;> rfl
  unfold Dev.ringEntry Dev.keepRecord
  rw [← List.map_reverse, List.find?_map, funext hentry, Option.isSome_map, Option.isSome_map, Option.isSome_map]

theorem Dev.keepRecord_stores (d : Dev) (e : Nat) (r : List Byte) : d.Stores (d.keepRecord e r) where
  density := rfl
  pending _ h := List.mem_of_mem_filter h
  slots k h := by
    show (kvGet (kvSet d.nor.journal (d.norSlot e) r) k).isSome = true
    by_cases hk : k = d.norSlot e
    · rw [hk, kvGet_kvSet_self]
      rfl
    · rw [kvGet_kvSet_ne _ _ hk]
      exact h
  ring := d.keepRecord_ringEntry e r

theorem Dev.keepRecord_stored (d : Dev) (e : Nat) (r : List Byte) : (d.keepRecord e r).stored e := by
  refine ⟨fun h => ?_, ?_⟩
  · have := (List.mem_filter.1 h).2
    simp at this
  · show (kvGet (kvSet d.nor.journal (d.norSlot e) r) (d.norSlot e)).isSome = true
    rw [kvGet_kvSet_self]
    rfl

/-- The bytes of a record as NOR takes them: after lost ones with FLAGS[5] (R378). -/
def Dev.gapMarked (d : Dev) (r : List Byte) : List Byte :=
  if decide (0 < d.jnl.lost) then putBytes r 27 [BitVec.ofNat 8 (byteAt r 27) ||| 0x20] else r

/-- Events and the ends of seals come after the record itself. -/
theorem Dev.storeRecord_kept {d : Dev} {e : Nat} {r : List Byte} (h : d.ringEntry e = some r) :
    (d.keepRecord e (d.gapMarked r)).SameRecords (d.storeRecord e) := by
  unfold Dev.storeRecord
  split
  · next hn => exact nomatch hn.symm.trans h
  · next r0 hr0 =>
    obtain rfl : r0 = r := Option.some.inj (hr0.symm.trans h)
    extract_lets gap q d1 d2 done j3 d3
    have h2 : d1.SameRecords d2 := by
      unfold d2
      split
      · exact (Dev.SameRecords.refl d1).thenQuiet (Dev.post_quiet ..)
      · exact .refl d1
    split
    · have h3 : d1.SameRecords d3 := Dev.SameRecords.thenQuiet
        (b := { d2 with jnl := { d2.jnl with seals := d2.jnl.seals.filter fun w => w.1 != e } }) ⟨h2.nor, h2.records⟩
        (Dev.post_quiet ..)
      exact h3.thenQuiet (Dev.quiet_foldl (fun g w => g.finish_quiet ..) done d3)
    · exact h2

theorem Dev.storeRecord_stores (d : Dev) (e : Nat) : d.Stores (d.storeRecord e) := by
  cases h : d.ringEntry e with
  | none =>
    unfold Dev.storeRecord
    rw [h]
    exact .refl d
  | some r => exact (d.keepRecord_stores e _).trans (Dev.storeRecord_kept h).stores

theorem Dev.storeRecord_stored {d : Dev} {e : Nat} (h : (d.ringEntry e).isSome = true) : (d.storeRecord e).stored e := by
  obtain ⟨r, hr⟩ := Option.isSome_iff_exists.1 h
  exact (Dev.storeRecord_kept hr).stores.stored (d.keepRecord_stored e _)

theorem Dev.foldl_storeRecord_stores (es : List Nat) (d : Dev) : d.Stores (es.foldl (fun d e => d.storeRecord e) d) := by
  induction es generalizing d with
  | nil => exact .refl d
  | cons e es ih => exact (d.storeRecord_stores e).trans (ih _)

/-- Every record of a list that the ring holds is stored. -/
theorem Dev.foldl_storeRecord_stored {es : List Nat} {d : Dev} {x : Nat} (hx : x ∈ es) (h : (d.ringEntry x).isSome = true) :
    (es.foldl (fun d e => d.storeRecord e) d).stored x := by
  induction es generalizing d with
  | nil => exact absurd hx List.not_mem_nil
  | cons e es ih =>
    rcases List.mem_cons.1 hx with rfl | hx
    · exact (Dev.foldl_storeRecord_stores es _).stored (Dev.storeRecord_stored h)
    · exact ih hx (((d.storeRecord_stores e).ring x).trans h)

/-! ### NOR_PAGE_DONE (R376, R378) -/

theorem Dev.pageDone_idle {d : Dev} (good : Bool) (h : d.jnl.flushing = false) : d.pageDone good = d := by
  unfold Dev.pageDone
  rw [h]
  rfl

theorem Dev.pageDone_bad {d : Dev} (h : d.jnl.flushing = true) :
    d.pageDone false = if 1 ≤ d.jnl.pageFails then d.norFail 0 else { d with jnl := { d.jnl with pageFails := 1 } } := by
  unfold Dev.pageDone
  rw [h]
  rfl

theorem Dev.pageDone_good {d : Dev} (h : d.jnl.flushing = true) :
    d.pageDone true = ((d.pageInHand.foldl (fun d e => d.storeRecord e) d).clearFault 0x0D01 0).startPage := by
  unfold Dev.pageDone
  rw [h]
  rfl

/-- The first failure of a page tries it again; the second ends the flush, whose records stay pending. -/
theorem Dev.pageDone_bad_jnl {d : Dev} (h : d.jnl.flushing = true) :
    (d.pageDone false).jnl.pending = d.jnl.pending ∧ (d.pageDone false).jnl.flushing = (d.jnl.pageFails == 0) ∧
      (d.pageDone false).jnl.pageFails = if d.jnl.pageFails = 0 then 1 else 0 := by
  rw [Dev.pageDone_bad h]
  by_cases hf : d.jnl.pageFails = 0
  · rw [if_neg (by omega), hf]
    exact ⟨rfl, h, rfl⟩
  · have hrec := d.norFail_records 0
    rw [if_pos (by omega), if_neg hf, beq_false_of_ne hf]
    exact ⟨(congrArg Journal.pending hrec :), (congrArg Journal.flushing hrec :), (congrArg Journal.pageFails hrec :)⟩

theorem Dev.pageDone_bad_nor {d : Dev} (h : d.jnl.flushing = true) : (d.pageDone false).nor = d.nor := by
  rw [Dev.pageDone_bad h]
  split
  · exact (d.norFail_only 0).part .nor rfl
  · rfl

/-- The records of the page in hand reach NOR; the clearance of JNL_NOR_FAIL and the next page leave them there. -/
theorem Dev.pageDone_good_stored {d : Dev} (h : d.jnl.flushing = true) {e : Nat} (he : e ∈ d.pageInHand)
    (hr : (d.ringEntry e).isSome = true) : e ∉ (d.pageDone true).jnl.pending ∧
      (kvGet (d.pageDone true).nor.journal (d.norSlot e)).isSome = true := by
  have hfold := Dev.foldl_storeRecord_stores d.pageInHand d
  obtain ⟨hpend, hslot⟩ := Dev.foldl_storeRecord_stored he hr
  have hclear := Dev.clearFault_only (d.pageInHand.foldl (fun d e => d.storeRecord e) d) 0x0D01 0
  rw [hfold.norSlot] at hslot
  rw [Dev.pageDone_good h, Dev.startPage_pending, Dev.startPage_nor, hclear.part .jnl rfl, hclear.part .nor rfl]
  exact ⟨hpend, hslot⟩

/-! ### Erases and a NOR that stays busy (R377, R378) -/

/-- The first sector that is to be erased loses its records (R377). -/
def Dev.sectorErased (d : Dev) : Dev :=
  match d.dirtySectors with
  | k :: _ => d.eraseJournal k
  | [] => d

theorem Dev.sectorErased_course (d : Dev) : d.sectorErased.course = d.course := by
  unfold Dev.sectorErased
  split <;> rfl

theorem Dev.sectorErased_journal (d : Dev) : d.sectorErased.nor.journal = match d.dirtySectors with
    | k :: _ => d.nor.journal.filter fun r => r.1 / 32 != k
    | [] => d.nor.journal := by
  unfold Dev.sectorErased
  cases d.dirtySectors with
  | nil => rfl
  | cons k ks => rfl

theorem Dev.eraseDone_of_held {d : Dev} (h : d.ticketHeld (.erase .journal) = true) :
    d.eraseDone = (d.sectorErased.release (.erase .journal)).eraseAhead := by
  unfold Dev.eraseDone
  rw [if_pos h]
  rfl

theorem Dev.eraseDone_idle {d : Dev} (h : d.ticketHeld (.erase .journal) = false) : d.eraseDone = d :=
  if_neg (ne_true_of_eq_false h)

theorem Dev.eraseDone_course (d : Dev) : d.eraseDone.course = d.course := by
  cases h : d.ticketHeld (.erase .journal) with
  | true => rw [Dev.eraseDone_of_held h, Dev.eraseAhead_course, Dev.release_course, Dev.sectorErased_course]
  | false => rw [Dev.eraseDone_idle h]

theorem Dev.eraseDone_nor {d : Dev} (h : d.ticketHeld (.erase .journal) = true) : d.eraseDone.nor = d.sectorErased.nor := by
  rw [Dev.eraseDone_of_held h, (Dev.eraseAhead_only _).part .nor rfl, (Dev.release_only ..).part .nor rfl]

/-- JNL_NOR_FAIL is a fault of neither side, so no mode mutes it (R193). -/
theorem Dev.mutedFault_norFail (d : Dev) : d.mutedFault 0x0D01 0 = false := by
  unfold Dev.mutedFault
  rw [show (faultSides 0x0D01 0 == [1]) = false from rfl]
  simp only [Bool.and_false, Bool.false_and]

theorem Dev.norFail_active (d : Dev) (cause : Nat) : (d.norFail cause).faultActive 0x0D01 0 = true :=
  Dev.raise_self _ cause rfl (Dev.mutedFault_norFail _)

theorem Dev.norFail_count {d : Dev} (hI : d.Inv) (cause : Nat) :
    (d.norFail cause).par kJnlNorFails 0 = satAdd 0xFFFFFFFF (d.par kJnlNorFails 0) 1 := by
  rw [Dev.norFail_eq]
  exact (congrArg Course.norFails (Dev.raise_course ..)).trans (Dev.par_count_self 0 1 rfl hI.vals)

theorem Dev.norBusy_of_flushing {d : Dev} (h : d.jnl.flushing = true) : d.norBusy = d.norFail 2 := if_pos h

end Sys2Proof.Machine
end

section
/-! Image erases, calibration and the sequence store as events of the stores (O60). -/

namespace Sys2Proof.Machine

open Sys2Proof

/-! ### The erase of an image region (R433) -/

/-- A block is erased and its ticket given back; the next one is counted. -/
def Dev.blockErased (d : Dev) : Dev :=
  let d1 := (d.modCells fun l => norErase l (imageOffset d.upd.target + 0x10000 * d.upd.eraseBlock) 0x10000).release (.erase .image)
  { d1 with upd := { d1.upd with eraseBlock := d1.upd.eraseBlock + 1 } }

theorem Dev.blockErased_upd (d : Dev) : d.blockErased.upd = { d.upd with eraseBlock := d.upd.eraseBlock + 1 } := by
  unfold Dev.blockErased
  extract_lets d1
  have h1 : d1.upd = d.upd := (Dev.release_only ..).part .upd rfl
  show { d1.upd with eraseBlock := d1.upd.eraseBlock + 1 } = _
  rw [h1]

theorem Dev.blockErased_cells (d : Dev) :
    d.blockErased.nor.cells = norErase d.nor.cells (imageOffset d.upd.target + 0x10000 * d.upd.eraseBlock) 0x10000 :=
  congrArg Nor.cells ((Dev.release_only ..).part .nor rfl)

/-- The last block opens the session. -/
def Dev.sessionOpened (d : Dev) : Dev := { d with upd := { d.upd with session := some .spi, erasing := false } }

theorem Dev.imageErased_eq {d : Dev} (he : d.upd.erasing = true) (ht : d.ticketHeld (.erase .image) = true) :
    d.imageErased = if d.blockErased.upd.eraseBlock < 32 then d.blockErased.askBlock .spi d.blockErased.upd.beginTag
      else d.blockErased.sessionOpened.finishWith .spi d.blockErased.upd.beginTag stOk := by
  unfold Dev.imageErased
  rw [he, ht, if_pos (by decide)]
  rfl

/-- A block that is asked for leaves the session as it is, or a denial ends it. -/
theorem Dev.askBlock_upd (d : Dev) (p : Port) (tag : Nat) :
    (d.askBlock p tag).upd = d.upd ∨ (d.askBlock p tag).upd.erasing = false := by
  have h1 : (d.request (.erase .image)).upd = d.upd := (Dev.request_only ..).part .upd rfl
  unfold Dev.askBlock
  extract_lets d1
  split
  · exact .inl h1
  · exact .inr (by rw [(Dev.finishWith_quiet ..).upd]; rfl)

theorem Dev.imageErased_cells {d : Dev} (he : d.upd.erasing = true) (ht : d.ticketHeld (.erase .image) = true) :
    d.imageErased.nor.cells = norErase d.nor.cells (imageOffset d.upd.target + 0x10000 * d.upd.eraseBlock) 0x10000 := by
  rw [Dev.imageErased_eq he ht, ← d.blockErased_cells]
  split
  · exact congrArg Nor.cells ((Dev.askBlock_only ..).part .nor rfl)
  · rw [(Dev.finishWith_quiet ..).nor]
    rfl

theorem Dev.imageErased_last {d : Dev} (he : d.upd.erasing = true) (ht : d.ticketHeld (.erase .image) = true)
    (hb : 31 ≤ d.upd.eraseBlock) : d.imageErased.upd.session = some .spi ∧ d.imageErased.upd.erasing = false := by
  have hu := d.blockErased_upd
  rw [Dev.imageErased_eq he ht, if_neg (by rw [hu]; exact Nat.not_lt.2 (Nat.succ_le_succ hb)), (Dev.finishWith_quiet ..).upd]
  exact ⟨rfl, rfl⟩

theorem Dev.imageErased_next {d : Dev} (he : d.upd.erasing = true) (ht : d.ticketHeld (.erase .image) = true)
    (hb : d.upd.eraseBlock < 31) (hs : d.imageErased.upd.erasing = true) :
    d.imageErased.upd.eraseBlock = d.upd.eraseBlock + 1 := by
  have hu := d.blockErased_upd
  rw [Dev.imageErased_eq he ht, if_pos (by rw [hu]; exact Nat.succ_lt_succ hb)] at hs ⊢
  rcases d.blockErased.askBlock_upd .spi d.blockErased.upd.beginTag with h | h
  · rw [h, hu]
  · exact absurd (h.symm.trans hs) Bool.false_ne_true

theorem Dev.imageErased_idle {d : Dev} (h : d.upd.erasing = false ∨ d.ticketHeld (.erase .image) = false) : d.imageErased = d :=
  if_neg (by rcases h with h | h <;> simp [h])

/-! ### CAL_TRIGGER_CHECK (R406, R416) -/

@[simp] theorem Dev.followSets_course (d : Dev) : d.followSets.course = d.course := rfl

theorem exec_calTriggerCheck_active {s : State} (ref : Nat) (h : s.dev.canActive = true) :
    exec (.calTriggerCheck ref) s = .next { s with dev := (s.dev.calTrigger ref).calTicket } :=
  exec_of_on (f := fun d => if d.canActive then (d.calTrigger ref).calTicket else d) rfl (if_pos h)

theorem exec_calTriggerCheck_inactive {s : State} (ref : Nat) (h : s.dev.canActive = false) :
    exec (.calTriggerCheck ref) s = .next s :=
  exec_of_on (f := fun d => if d.canActive then (d.calTrigger ref).calTicket else d) rfl (if_neg (ne_true_of_eq_false h))

/-- The reference measured is that of the runs to come. -/
theorem Dev.calTrigger_calRef (d : Dev) (ref : Nat) : (d.calTrigger ref).cal.calRef = ref := by
  unfold Dev.calTrigger
  extract_lets c0 d0 d1 moved late scopes allowed
  have h1 : d1.course = d0.course := by
    unfold d1
    split
    · exact d0.request_course _
    · rfl
  have hidle : d1.followSets.calIdle.course = d0.course := (Dev.calIdle_course _).trans h1
  have href : ∀ e : Dev, e.course = d0.course → e.cal.calRef = ref := fun e h => congrArg Course.calRef h
  split
  · split
    next d2 ok e =>
    have h2 : d2.course = d0.course := (Dev.course_of_askRun e).trans h1
    apply href
    split
    · rw [Dev.calAdvance_course, Dev.calIdle_course]
      split
      · exact h2
      · exact h2
    · exact (Dev.calIdle_course _).trans h2
  · exact href _ hidle

/-! ### CAL_MEASUREMENT_DONE (R408) -/

theorem Dev.judgeChannel_calRef (d : Dev) (r : CalRun) (ch : Nat) (vs : List CalValue) :
    (d.judgeChannel r ch vs).cal.calRef = d.cal.calRef := by
  have hcount : ∀ e : Dev, (e.count kCalCalDisagreeCount 0 1).cal.calRef = e.cal.calRef := fun e =>
    congrArg Cal.calRef ((e.count_only ..).part .cal rfl)
  unfold Dev.judgeChannel
  split
  · rfl
  · extract_lets bit d1
    split
    · exact congrArg Course.calRef (Dev.clearFault_course ..)
    · exact (congrArg Course.calRef (Dev.raise_course ..)).trans (hcount _)

/-- Three measurements of which no two agree count as a disagreement, and nothing else does. -/
theorem Dev.judgeChannel_disagrees {d : Dev} (hv : kvSorted d.prm.vals = true) (r : CalRun) (ch : Nat) (vs : List CalValue) :
    (d.judgeChannel r ch vs).par kCalCalDisagreeCount 0 =
      if calJudge ch vs = some none then satAdd 0xFFFFFFFF (d.par kCalCalDisagreeCount 0) 1 else d.par kCalCalDisagreeCount 0 := by
  unfold Dev.judgeChannel
  cases hj : calJudge ch vs with
  | none => rfl
  | some res =>
    cases res with
    | some v => exact congrArg Course.disagrees (Dev.clearFault_course ..)
    | none => exact (congrArg Course.disagrees (Dev.raise_course ..)).trans (Dev.par_count_self 0 1 rfl hv)

@[simp] theorem Dev.clearTrial_course (d : Dev) (ch : Nat) : (d.clearTrial ch).course = d.course :=
  Dev.course_of_frame (d.clearTrial_only ch) rfl

/-- The measurements of a channel so far, with the one that has come. -/
theorem Dev.calMeasured_course {d : Dev} {ch : Nat} {v : CalValue} {r : CalRun} (hr : d.cal.run = some r)
    (hm : d.calMeasurable r ch = true) (hf : calFormOk ch v = true) :
    (d.calMeasured ch v).course =
      ((d.clearTrial ch).judgeChannel r ch ((kvGet r.current ch).getD [] ++ [d.measured ch v])).course := by
  unfold Dev.calMeasured
  rw [hr]
  dsimp only
  rw [hm, hf, if_pos (by decide), Dev.calAdvance_course, Dev.calIdle_course]
  cases kvGet r.current ch <;> rfl

theorem exec_calMeasurementDone_idle {s : State} (ch : Nat) (v : CalValue) (h : s.dev.cal.run = none) :
    exec (.calMeasurementDone ch v) s = .next s := by
  refine exec_of_on (f := fun d => (d.calMeasured ch v).calTicket) rfl ?_
  have hm : s.dev.calMeasured ch v = s.dev := by
    unfold Dev.calMeasured
    rw [h]
  rw [hm]
  unfold Dev.calTicket
  rw [h]

/-! ### The sequence store (R218) -/

/-- The words that a scrub marks: uncorrectable ones of images that are not in force. -/
def Dev.scrubMarks (d : Dev) (r : ScrubResult) : List Nat :=
  r.uncorrectable.filter fun ix => !d.inForceWord ix && !d.seq.eccWords.contains ix && decide (ix < 65536)

/-- Corrections are counted, and uncorrectable words marked. -/
def Dev.scrubbed (d : Dev) (r : ScrubResult) : Dev :=
  { d.count kMstSeqEccCorr 0 r.corrected with seq := { d.seq with eccWords := d.seq.eccWords ++ d.scrubMarks r } }

theorem Dev.scrubbed_only (d : Dev) (r : ScrubResult) : d.onlyChanges (d.scrubbed r) [.prm, .seq] := by
  refine Dev.only_set ((d.count_only kMstSeqEccCorr 0 r.corrected).mono (by decide)) (fun p hp => ?_) rfl
  cases p
  case seq => exact absurd (by decide) hp
  all_goals rfl

theorem exec_seqStoreScrub_on {s : State} (r : ScrubResult) (h : s.dev.govRuns = true) :
    exec (.seqStoreScrub r) s = .next { s with dev := s.dev.scrubbed r } := by
  show execSeqStoreScrub r s = _
  simp only [execSeqStoreScrub, State.on, h, if_true]
  rfl

theorem exec_seqStoreScrub_off {s : State} (r : ScrubResult) (h : s.dev.govRuns = false) :
    exec (.seqStoreScrub r) s = .next s := by
  show execSeqStoreScrub r s = _
  simp only [execSeqStoreScrub, State.on, h, Bool.false_eq_true, if_false]

theorem Dev.reloaded_eccWords (d : Dev) (mode : Nat) :
    (d.reloaded mode).seq.eccWords = d.seq.eccWords.filter fun ix => ix / 2048 != mode := by
  unfold Dev.reloaded
  extract_lets q d1
  rw [Dev.afterClear_eccWords, (Dev.clearFault_only ..).eccWords rfl, (Dev.post_quiet ..).seq]

/-- Outside SAFE and STANDBY a reload does no more than clear SEQ_ECC. -/
theorem Dev.reloaded_cleared {d : Dev} (mode : Nat) (h : d.core.state ≠ .safe) (h' : d.core.state ≠ .standby) :
    (d.reloaded mode).faultActive 0x0601 0 = false := by
  unfold Dev.reloaded
  extract_lets q d1
  have hcore : ((d1.post 0x0604 mode).clearFault 0x0601 0).core = d.core :=
    (Dev.clearFault_core ..).trans (Dev.post_quiet ..).core
  rw [Dev.afterClear_of_lit (by rwa [hcore]) (by rwa [hcore])]
  exact Dev.clearFault_self ..

theorem exec_seqReloaded_marked {s : State} {mode : Nat} (h : ∃ ix ∈ s.dev.seq.eccWords, ix / 2048 = mode) :
    exec (.seqReloaded mode) s = .next { s with dev := s.dev.reloaded mode } := by
  obtain ⟨ix, hix, hm⟩ := h
  refine exec_of_on (f := fun d => if d.seq.eccWords.any fun ix => ix / 2048 == mode then d.reloaded mode else d) rfl ?_
  exact if_pos (List.any_eq_true.2 ⟨ix, hix, by simp [hm]⟩)

theorem exec_seqReloaded_clean {s : State} {mode : Nat} (h : ∀ ix ∈ s.dev.seq.eccWords, ix / 2048 ≠ mode) :
    exec (.seqReloaded mode) s = .next s := by
  refine exec_of_on (f := fun d => if d.seq.eccWords.any fun ix => ix / 2048 == mode then d.reloaded mode else d) rfl ?_
  refine if_neg fun hany => ?_
  obtain ⟨ix, hix, hm⟩ := List.any_eq_true.1 hany
  exact h ix hix (beq_iff_eq.1 hm)

/-! ### The events -/

/-- Settles O60: each clause is one event, taken from the lemma about its operation; what follows an event leaves its course. -/
theorem storeEvents : Obligations.StoreEvents := by
  unfold Obligations.StoreEvents
  refine ⟨?_, ?_, ?_, ?_, ?_, ?_, ?_, ?_, ?_, ?_, ?_, ?_, ?_, ?_, ?_, ?_, ?_, ?_, ?_⟩
  · intro s hg he
    refine ⟨_, exec_snapNFall_armed hg he, s.dev.snapshot_only 1, ?_⟩
    by_cases hl : s.dev.latchTick = some (s.dev.now + 1)
    · obtain ⟨n, recs, hsaf⟩ := Dev.snapshot_saf_again hl (src := 1) (by decide)
      rw [hsaf]
      exact ⟨rfl, rfl, fun h => absurd hl h, fun _ => ⟨rfl, rfl⟩⟩
    · beta_reduce
      rw [Dev.snapshot_saf hl (by decide)]
      exact ⟨rfl, rfl, fun _ => ⟨rfl, rfl, rfl, rfl⟩, fun h => absurd h hl⟩
  · intro s h
    exact exec_snapNFall_idle h
  · intro s code inst ha hr hh
    obtain ⟨e, heq, hcore, hgone, hclear⟩ := Dev.autoClear_of_holds ha hr hh
    refine Runs.of_on (f := fun d => d.autoClear code inst) rfl (s.dev.autoClear_only code inst) fun hs hs' => ?_
    rw [heq, Dev.afterClear_of_lit (by rwa [hcore]) (by rwa [hcore])]
    exact ⟨hgone, hclear⟩
  · intro s code inst h
    exact exec_of_on (f := fun d => d.autoClear code inst) rfl (Dev.autoClear_of_not h)
  · intro s f hf ht hc
    exact exec_of_on (f := fun d => d.autoClear f.code f.inst) rfl
      (Dev.autoClear_of_not (.inr (.inr (Dev.autoHolds_of_recent hf ht hc))))
  · intro s good
    have hafter := (s.dev.pageDone good).afterClear_only
    refine Runs.of_on (f := fun d => (d.pageDone good).afterClear) rfl
      (Dev.only_then hafter (by decide) ((s.dev.pageDone_only good).mono (by decide))) ?_
    have hjnl : (s.dev.pageDone good).afterClear.jnl = (s.dev.pageDone good).jnl := hafter.part .jnl rfl
    have hnor : (s.dev.pageDone good).afterClear.nor = (s.dev.pageDone good).nor := hafter.part .nor rfl
    rw [hjnl, hnor]
    refine ⟨fun hf => ?_, fun hf hg => ?_, fun hf hg e he hr => ?_⟩
    · rw [Dev.pageDone_idle good hf]
      exact ⟨rfl, rfl⟩
    · rw [hg]
      exact ⟨Dev.pageDone_bad_nor hf, Dev.pageDone_bad_jnl hf⟩
    · rw [hg]
      exact Dev.pageDone_good_stored hf he hr
  · intro s h
    refine Runs.of_on (f := Dev.eraseDone) rfl s.dev.eraseDone_only ?_
    have hcourse := s.dev.eraseDone_course
    exact ⟨congrArg (fun c => c.journal.pending) hcourse, congrArg (fun c => c.journal.ring) hcourse,
      (congrArg Nor.journal (Dev.eraseDone_nor h)).trans s.dev.sectorErased_journal⟩
  · intro s h
    exact exec_of_on (f := Dev.eraseDone) rfl (Dev.eraseDone_idle h)
  · intro s hI hf
    have hrec := s.dev.norFail_records 2
    refine Runs.of_on (f := Dev.norBusy) rfl s.dev.norBusy_only ?_
    rw [Dev.norBusy_of_flushing hf]
    exact ⟨(congrArg Journal.flushing hrec :), (congrArg Journal.pageFails hrec :), (congrArg Journal.pending hrec :),
      s.dev.norFail_active 2, Dev.norFail_count hI 2⟩
  · intro s hf
    exact exec_of_on (f := Dev.norBusy) rfl (if_neg (ne_true_of_eq_false hf))
  · intro s he ht
    exact Runs.of_on (f := Dev.imageErased) rfl s.dev.imageErased_only
      ⟨Dev.imageErased_cells he ht, Dev.imageErased_last he ht, Dev.imageErased_next he ht⟩
  · intro s h
    exact exec_of_on (f := Dev.imageErased) rfl (Dev.imageErased_idle h)
  · intro s ref
    refine ⟨fun h => ?_, fun h => ?_⟩
    · exact ⟨_, exec_calTriggerCheck_active ref h,
        Dev.only_then (Dev.calTicket_only _) (by decide) (s.dev.calTrigger_only ref),
        (congrArg Course.calRef (Dev.calTicket_course _)).trans (s.dev.calTrigger_calRef ref)⟩
    · exact exec_calTriggerCheck_inactive ref h
  · intro s ch v r hI hr hm hf
    refine Runs.of_on (f := fun d => (d.calMeasured ch v).calTicket) rfl
      (Dev.only_then (Dev.calTicket_only _) (by decide) (s.dev.calMeasured_only ch v)) ?_
    have hcourse := (Dev.calTicket_course _).trans (Dev.calMeasured_course hr hm hf)
    have htrial := s.dev.clearTrial_course ch
    have hvals : kvSorted (s.dev.clearTrial ch).prm.vals = true := by
      rw [(s.dev.clearTrial_only ch).part .prm rfl]
      exact hI.vals
    have hcount : (s.dev.clearTrial ch).par kCalCalDisagreeCount 0 = s.dev.par kCalCalDisagreeCount 0 :=
      congrArg Course.disagrees htrial
    refine ⟨(congrArg Course.calRef hcourse).trans ((Dev.judgeChannel_calRef ..).trans (congrArg Course.calRef htrial)), ?_⟩
    rw [← hcount]
    exact (congrArg Course.disagrees hcourse).trans (Dev.judgeChannel_disagrees hvals ..)
  · intro s ch v h
    exact exec_calMeasurementDone_idle ch v h
  · intro s r hI hg
    exact ⟨_, exec_seqStoreScrub_on r hg, s.dev.scrubbed_only r, Dev.par_count_self 0 r.corrected rfl hI.vals, rfl⟩
  · intro s r h
    exact exec_seqStoreScrub_off r h
  · intro s mode h
    exact ⟨_, exec_seqReloaded_marked h, s.dev.reloaded_only mode, s.dev.reloaded_eccWords mode, Dev.reloaded_cleared mode⟩
  · intro s mode h
    exact exec_seqReloaded_clean h

end Sys2Proof.Machine
end

section
/-! What faults, tickets, the end of a refresh and changes of mode leave of the mirror arrays: their counters, their plane checks,
the faults that stand, and what a port remembers. -/

namespace Sys2Proof.Machine

open Sys2Proof

/-! ### What a fault leaves

A reaction parks ports and darkens sides. The parameters of the mirror port unit stay, and no active fault ends (`Dev.KeepsFaults`);
the plane checks stay, and a side at 0 A stays there (`Dev.KeepsChecks`); a port does nothing but park (`Dev.KeepsArray`). -/

/-- The checks of the planes: the entry under check of each side, and the aggregates of the refresh. -/
def Seq.planeChecks (q : Seq) : Pair (Option Loaded) × Pair (List (BitVec 32)) × Pair (List (BitVec 32)) :=
  (q.checking, q.rxAgg, q.exAgg)

/-- What parking leaves of a port: all but its state, MAL_PARK_N and the commands that wait. -/
def MPort.record (p : MPort) : MPort := { p with state := .off, parkN := false, parkFell := 0, orderlyPark := false, queue := [] }

/-- The array is released from park, or parks. -/
def MPort.released (p : MPort) : Bool := p.state == .ready || p.state == .unpark || p.state == .parking

/-- A port that may have parked: its record stays, and one that was not released is the same. -/
structure MPort.Parks (p q : MPort) : Prop where
  record : q.record = p.record
  still : p.released = false → q = p

theorem MPort.Parks.refl (p : MPort) : p.Parks p := ⟨rfl, fun _ => rfl⟩

theorem MPort.Parks.trans {p q r : MPort} (h : p.Parks q) (g : q.Parks r) : p.Parks r := by
  refine ⟨g.record.trans h.record, fun hp => ?_⟩
  obtain rfl := h.still hp
  exact g.still hp

/-- Every parameter of the mirror port unit reads the same, and every active fault stays active. -/
structure Dev.KeepsFaults (a b : Dev) : Prop where
  mirror : ∀ id, 0x7000000 ≤ id → id < 0x8000000 → b.valOf id = a.valOf id
  active : ∀ code inst, a.faultActive code inst = true → b.faultActive code inst = true

/-- The plane checks are the same too, and a side whose currents are 0 A keeps them there. -/
structure Dev.KeepsChecks (a b : Dev) : Prop extends a.KeepsFaults b where
  checks : b.seq.planeChecks = a.seq.planeChecks
  zeroNow : ∀ k, a.gov.zeroNow.get k = true → b.gov.zeroNow.get k = true

/-- The ports park at most. -/
structure Dev.KeepsArray (a b : Dev) : Prop extends a.KeepsChecks b where
  parks : ∀ k, (a.mport k).Parks (b.mport k)

namespace Dev.KeepsFaults

theorem refl (d : Dev) : d.KeepsFaults d := ⟨fun _ _ _ => rfl, fun _ _ h => h⟩

theorem trans {a b c : Dev} (h : a.KeepsFaults b) (g : b.KeepsFaults c) : a.KeepsFaults c :=
  ⟨fun id h7 h8 => (g.mirror id h7 h8).trans (h.mirror id h7 h8), fun code inst ha => g.active code inst (h.active code inst ha)⟩

theorem foldl {α : Type} {f : Dev → α → Dev} (hf : ∀ (e : Dev) x, e.KeepsFaults (f e x)) (xs : List α) (d : Dev) :
    d.KeepsFaults (xs.foldl f d) := by
  induction xs generalizing d with
  | nil => exact refl d
  | cons x xs ih => exact (hf d x).trans (ih _)

/-- A counter of a mirror port, or another parameter of its unit, reads the same. -/
theorem par {a b : Dev} (h : a.KeepsFaults b) {key s : Nat} (h7 : 0x7000000 ≤ pid key s) (h8 : pid key s < 0x8000000) :
    b.par key s = a.par key s :=
  congrArg Int.toNat (h.mirror _ h7 h8)

end Dev.KeepsFaults

namespace Dev.KeepsChecks

theorem trans {a b c : Dev} (h : a.KeepsChecks b) (g : b.KeepsChecks c) : a.KeepsChecks c :=
  ⟨h.toKeepsFaults.trans g.toKeepsFaults, g.checks.trans h.checks, fun k hk => g.zeroNow k (h.zeroNow k hk)⟩

theorem checking {a b : Dev} (h : a.KeepsChecks b) : b.seq.checking = a.seq.checking := congrArg (·.1) h.checks

end Dev.KeepsChecks

namespace Dev.KeepsArray

/-- What each part of the block has of it is the same. -/
theorem of_eq {a b : Dev} (hv : b.variant = a.variant) (hp : b.prm = a.prm) (hs : b.saf.active = a.saf.active)
    (hc : b.seq.planeChecks = a.seq.planeChecks) (hz : b.gov.zeroNow = a.gov.zeroNow) (hm : b.ports = a.ports) :
    a.KeepsArray b where
  mirror _ _ _ := by unfold Dev.valOf; rw [hp, hv]
  active code inst h := (Dev.faultActive_of_active hs code inst).trans h
  checks := hc
  zeroNow _ h := by rwa [hz]
  parks k := by
    unfold Dev.mport
    rw [hm]
    exact .refl _

theorem refl (d : Dev) : d.KeepsArray d := of_eq rfl rfl rfl rfl rfl rfl

theorem trans {a b c : Dev} (h : a.KeepsArray b) (g : b.KeepsArray c) : a.KeepsArray c :=
  ⟨h.toKeepsChecks.trans g.toKeepsChecks, fun k => (h.parks k).trans (g.parks k)⟩

theorem of_frame {a b : Dev} {l : List Part} (h : a.onlyChanges b l)
    (hl : (([.prm, .saf, .seq, .gov, .ports] : List Part).any l.contains) = false) : a.KeepsArray b := by
  simp only [List.any_cons, List.any_nil, Bool.or_false, Bool.or_eq_false_iff] at hl
  obtain ⟨hp, hs, hq, hg, hm⟩ := hl
  exact of_eq h.1 (h.part .prm hp) (congrArg Saf.active (h.part .saf hs)) (congrArg Seq.planeChecks (h.part .seq hq))
    (congrArg Gov.zeroNow (h.part .gov hg)) (h.part .ports hm)

theorem thenFrame {a b c : Dev} {l : List Part} (h : a.KeepsArray b) (g : b.onlyChanges c l)
    (hl : (([.prm, .saf, .seq, .gov, .ports] : List Part).any l.contains) = false) : a.KeepsArray c :=
  h.trans (of_frame g hl)

theorem foldl {α : Type} {f : Dev → α → Dev} (hf : ∀ (e : Dev) x, e.KeepsArray (f e x)) (xs : List α) (d : Dev) :
    d.KeepsArray (xs.foldl f d) := by
  induction xs generalizing d with
  | nil => exact refl d
  | cons x xs ih => exact (hf d x).trans (ih _)

end Dev.KeepsArray

theorem Port.ix_lt (p : Port) : p.ix < 5 := by cases p <;> decide

/-- Events and responses count in EVT_LOST only. -/
theorem Dev.Quiet.keepsArray {a b : Dev} (h : a.Quiet b) : a.KeepsArray b where
  mirror id h7 _ := h.valOf fun p e => by
    have := Port.ix_lt p
    unfold pid kHostEvtLost at e
    omega
  active code inst ha := (Dev.faultActive_of_saf h.saf code inst).trans ha
  checks := congrArg Seq.planeChecks h.seq
  zeroNow k hk := by rwa [h.gov]
  parks k := by
    unfold Dev.mport
    rw [h.ports]
    exact .refl _

theorem Dev.KeepsArray.thenQuiet {a b c : Dev} (h : a.KeepsArray b) (g : b.Quiet c) : a.KeepsArray c := h.trans g.keepsArray

/-! ### Counters and tickets -/

theorem Dev.setSluice_keepsArray (d : Dev) (q : Sluice) : d.KeepsArray { d with sluice := q } := .of_eq rfl rfl rfl rfl rfl rfl
theorem Dev.setJnl_keepsArray (d : Dev) (q : Journal) : d.KeepsArray { d with jnl := q } := .of_eq rfl rfl rfl rfl rfl rfl
theorem Dev.setReq_keepsArray (d : Dev) (q : BeamReq) : d.KeepsArray { d with req := q } := .of_eq rfl rfl rfl rfl rfl rfl

/-- A parameter of another unit is put. -/
theorem Dev.putVal_keepsArray (d : Dev) {id : Nat} (v : Int) (h : id < 0x7000000 ∨ 0x8000000 ≤ id) : d.KeepsArray (d.putVal id v) where
  mirror j h7 h8 := d.valOf_putVal_ne v (by omega)
  active _ _ ha := ha
  checks := rfl
  zeroNow _ hz := hz
  parks _ := .refl _

theorem Dev.count_keepsArray (d : Dev) {key i : Nat} (n : Nat) (h : pid key i < 0x7000000 ∨ 0x8000000 ≤ pid key i) :
    d.KeepsArray (d.count key i n) :=
  d.putVal_keepsArray _ h

theorem Dev.applyVal_keepsArray (d : Dev) {id : Nat} (h : id < 0x7000000 ∨ 0x8000000 ≤ id) : d.KeepsArray (d.applyVal id) := by
  unfold Dev.applyVal
  split
  · next v _ =>
    have h1 : d.KeepsArray { d with prm := { d.prm with staged := kvErase d.prm.staged id } } :=
      ⟨⟨⟨fun _ _ _ => rfl, fun _ _ ha => ha⟩, rfl, fun _ hz => hz⟩, fun _ => .refl _⟩
    exact h1.trans (Dev.putVal_keepsArray _ v h)
  · exact .refl d

theorem Dev.grant_keepsArray (d : Dev) (q : SlReq) : d.KeepsArray (d.grant q) := by
  unfold Dev.grant
  extract_lets l d1 d2
  have h1 : d.KeepsArray d1 := .of_eq rfl rfl rfl rfl rfl rfl
  have h2 : d.KeepsArray d2 := h1.trans (d1.count_keepsArray 1 (.inr (by unfold pid kPwrGrants; omega)))
  split
  · next s _ =>
    extract_lets p
    split
    · exact (h2.trans (d2.applyVal_keepsArray (.inr (by unfold pid kLmpBstFsw; omega)))).thenFrame (Dev.modLside_only ..) rfl
    · exact h2
  · exact h2.trans (d2.count_keepsArray 1 (.inl (by decide)))
  · exact h2

theorem Dev.deny_keepsArray (d : Dev) (h : Holder) (b : Bool) : d.KeepsArray (d.deny h b) :=
  (d.count_keepsArray 1 (.inr (by unfold pid kPwrDenials; omega))).thenQuiet (Dev.post_quiet ..)

theorem Dev.request_keepsArray (d : Dev) (h : Holder) : d.KeepsArray (d.request h) := by
  unfold Dev.request
  split
  · exact .refl d
  · extract_lets q
    split
    · exact d.deny_keepsArray ..
    · split
      · exact d.grant_keepsArray q
      · exact d.setSluice_keepsArray _

theorem Dev.examine_keepsArray (n : Nat) (d : Dev) : d.KeepsArray (Dev.examine n d) := by
  induction n generalizing d with
  | zero => exact .refl d
  | succ n ih =>
    unfold Dev.examine
    split
    · exact .refl d
    · split
      · exact ((d.setSluice_keepsArray _).trans (Dev.grant_keepsArray ..)).trans (ih _)
      · exact .refl d

theorem Dev.release_keepsArray (d : Dev) (h : Holder) : d.KeepsArray (d.release h) := by
  unfold Dev.release
  split
  · exact (d.setSluice_keepsArray _).trans (Dev.examine_keepsArray ..)
  · exact d.setSluice_keepsArray _

theorem Dev.releaseResetTicket_keepsArray (d : Dev) : d.KeepsArray d.releaseResetTicket := by
  unfold Dev.releaseResetTicket
  split
  · exact d.release_keepsArray _
  · exact .refl d

/-! ### Ports -/

/-- The change of a port at a time sets nothing besides but the time at which PARK_N fell. -/
theorem MPort.change_eq (p : MPort) (f : MPort → MPort) (now_ : Nat) : ∃ t, p.change f now_ = { f p with parkFell := t } := by
  unfold MPort.change
  split
  · exact ⟨now_, rfl⟩
  · exact ⟨(f p).parkFell, rfl⟩

theorem Dev.mport_modMport_ne (d : Dev) {s k : Nat} (f : MPort → MPort) (h : (s = 0) ≠ (k = 0)) :
    (d.modMport s f).mport k = d.mport k :=
  Pair.get_mod_ne _ _ h

/-- A port after a change of one: the change reached it, or it is as it was. -/
theorem Dev.mport_modMport (d : Dev) (s k : Nat) (f : MPort → MPort) :
    (d.modMport s f).mport k = f (d.mport k) ∨ (d.modMport s f).mport k = d.mport k := by
  by_cases h : (s = 0) = (k = 0)
  · left
    unfold Dev.modMport Dev.mport Pair.mod Pair.set Pair.get
    by_cases hk : k = 0 <;> simp [h, hk]
  · exact .inr (d.mport_modMport_ne f h)

/-- What a change of a port does not touch is the same in every port. -/
theorem Dev.modMport_keeps {α : Type} {g : MPort → α} {f : MPort → MPort} (hg : ∀ p, g (f p) = g p) (d : Dev) (s k : Nat) :
    g ((d.modMport s f).mport k) = g (d.mport k) := by
  rcases d.mport_modMport s k f with h | h
  · rw [h, hg]
  · rw [h]

theorem Dev.modMportEv_ports (d : Dev) (s : Nat) (f : MPort → MPort) :
    (d.modMportEv s f).ports = (d.modMport s fun p => p.change f d.now).ports := by
  unfold Dev.modMportEv
  extract_lets old d1 new
  split
  · rfl
  · exact (Dev.post_quiet ..).ports

theorem Dev.mport_modMportEv_self (d : Dev) (s : Nat) (f : MPort → MPort) :
    ∃ t, (d.modMportEv s f).mport s = { f (d.mport s) with parkFell := t } := by
  unfold Dev.mport
  rw [Dev.modMportEv_ports]
  exact (Pair.get_mod_self ..).symm ▸ (d.mport s).change_eq f d.now

theorem Dev.mport_modMportEv_ne (d : Dev) {s k : Nat} (f : MPort → MPort) (h : (s = 0) ≠ (k = 0)) :
    (d.modMportEv s f).mport k = d.mport k := by
  unfold Dev.mport
  rw [Dev.modMportEv_ports]
  exact d.mport_modMport_ne _ h

/-- Whatever a port does, its change and the event leave the faults and the plane checks. -/
theorem Dev.modMport_keepsChecks (d : Dev) (s : Nat) (f : MPort → MPort) : d.KeepsChecks (d.modMport s f) :=
  ⟨⟨fun _ _ _ => rfl, fun _ _ h => h⟩, rfl, fun _ h => h⟩

theorem Dev.modMportEv_keepsChecks (d : Dev) (s : Nat) (f : MPort → MPort) : d.KeepsChecks (d.modMportEv s f) := by
  unfold Dev.modMportEv
  extract_lets old d1 new
  have h1 : d.KeepsChecks d1 := d.modMport_keepsChecks ..
  split
  · exact h1
  · exact h1.trans (Dev.post_quiet ..).keepsArray.toKeepsChecks

theorem MPort.park_parks (p : MPort) (forced : Bool) (now_ : Nat) : p.Parks (p.change (fun q => q.park forced) now_) := by
  have hrecord : (p.park forced).record = p.record := by
    unfold MPort.park MPort.parkForced MPort.parkOrderly MPort.onlySpares MPort.record
    cases p.state <;> cases forced <;> rfl
  have hstill : p.released = false → p.park forced = p := by
    unfold MPort.released MPort.park
    cases p.state <;> simp
  refine ⟨?_, fun hp => ?_⟩
  · obtain ⟨t, ht⟩ := p.change_eq (fun q => q.park forced) now_
    rw [ht]
    exact hrecord
  · simp only [MPort.change, hstill hp]
    simp

theorem Dev.parkPort_keepsArray (d : Dev) (s : Nat) (forced : Bool) : d.KeepsArray (d.modMportEv s fun p => p.park forced) where
  toKeepsChecks := d.modMportEv_keepsChecks ..
  parks k := by
    have h : (d.modMportEv s fun p => p.park forced).mport k = (d.modMport s fun p => p.change (fun q => q.park forced) d.now).mport k := by
      unfold Dev.mport
      rw [Dev.modMportEv_ports]
    rw [h]
    rcases d.mport_modMport s k (fun p => p.change (fun q => q.park forced) d.now) with e | e
    · rw [e]
      exact MPort.park_parks ..
    · rw [e]
      exact .refl _

/-! ### Faults and their reactions -/

theorem Dev.zeroWords_keepsArray (d : Dev) (s : Nat) : d.KeepsArray (d.zeroWords s) := .of_eq rfl rfl rfl rfl rfl rfl

theorem Pair.get_set_true {p : Pair Bool} (s : Nat) {k : Nat} (h : p.get k = true) : (p.set s true).get k = true := by
  by_cases e : (s = 0) = (k = 0)
  · unfold Pair.set Pair.get
    by_cases hk : k = 0 <;> simp [e, hk]
  · rwa [Pair.get_set_ne p true e]

theorem Dev.darkSide_keepsArray (d : Dev) (s : Nat) : d.KeepsArray (d.darkSide s) := by
  have h1 : d.KeepsArray { d with gov := { d.gov with zeroNow := d.gov.zeroNow.set s true } } :=
    ⟨⟨⟨fun _ _ _ => rfl, fun _ _ h => h⟩, rfl, fun _ h => Pair.get_set_true s h⟩, fun _ => .refl _⟩
  exact h1.trans (.foldl (fun e c => .of_frame (e.modChan_only ..) rfl) _ _)

theorem Dev.stopBoost_keepsArray (d : Dev) (s : Nat) : d.KeepsArray (d.stopBoost s) :=
  Dev.KeepsArray.trans (.of_frame (d.modLside_only ..) rfl) (Dev.release_keepsArray ..)

theorem Dev.safeSide_keepsArray (d : Dev) (s : Nat) (f : Bool) : d.KeepsArray (d.safeSide s f) := by
  have h : d.KeepsArray (((d.zeroWords s).stopBoost s).darkSide s) :=
    ((d.zeroWords_keepsArray s).trans (Dev.stopBoost_keepsArray ..)).trans (Dev.darkSide_keepsArray ..)
  unfold Dev.safeSide
  extract_lets d1 d2 d3 q
  have h3 : d.KeepsArray d3 := (h.thenFrame (Dev.modLside_only ..) rfl).trans (Dev.parkPort_keepsArray ..)
  exact h3.trans (.of_eq rfl rfl rfl rfl rfl rfl)

theorem Dev.enterSafe_keepsArray (d : Dev) (s : Nat) (f : Bool) : d.KeepsArray (d.enterSafe s f) := by
  unfold Dev.enterSafe
  split
  · split
    · exact d.parkPort_keepsArray s true
    · exact .refl d
  · exact d.safeSide_keepsArray s f

/-- A change of the safe state's bookkeeping that leaves the active faults. -/
theorem Dev.KeepsArray.of_saf {a b : Dev} (h : a.onlyChanges b [.saf]) (hs : b.saf.active = a.saf.active) : a.KeepsArray b :=
  .of_eq h.1 (h.part .prm rfl) hs (congrArg Seq.planeChecks (h.part .seq rfl)) (congrArg Gov.zeroNow (h.part .gov rfl))
    (h.part .ports rfl)

theorem Dev.pend_keepsArray (d : Dev) (t : DevState) (c r : Nat) : d.KeepsArray (d.pend t c r) :=
  .of_saf (d.pend_only t c r) (d.pend_active t c r)

theorem Dev.safeAll_keepsArray (d : Dev) (c r : Nat) (f : Bool) : d.KeepsArray (d.safeAll c r f) :=
  (((Dev.KeepsArray.foldl (fun e s => e.enterSafe_keepsArray s f) d.sides d).trans (Dev.pend_keepsArray _ .safe c r)).trans
    (Dev.release_keepsArray _ .ignition)).trans (Dev.release_keepsArray _ .globalReset)

theorem Dev.reactSide_keepsArray (d : Dev) (s c : Nat) (f : Bool) : d.KeepsArray (d.reactSide s c f) := by
  unfold Dev.reactSide
  split
  · exact .refl d
  · split
    · exact .of_saf (d.sameTick_only c 2) (d.sameTick_active c 2)
    · split
      · exact (d.enterSafe_keepsArray s f).trans (Dev.pend_keepsArray ..)
      · exact d.safeAll_keepsArray c 2 f

/-- The fault that cost its side the beam changes its reaction. -/
theorem Dev.markSide_keepsArray (d : Dev) (code inst : Nat) : d.KeepsArray (d.markSide code inst) :=
  ⟨⟨⟨fun _ _ _ => rfl, fun c i h => (d.markSide_faultActive code inst c i).trans h⟩, rfl, fun _ h => h⟩, fun _ => .refl _⟩

theorem Dev.reactCh_keepsArray (d : Dev) (c code : Nat) : d.KeepsArray (d.reactCh c code) := by
  have h : d.KeepsArray (d.latch c code) := .of_frame (d.latch_only c code) rfl
  unfold Dev.reactCh
  extract_lets d1
  split
  · exact (h.trans (Dev.markSide_keepsArray _ code c)).trans (Dev.reactSide_keepsArray ..)
  · exact h

theorem Dev.react_keepsArray (d : Dev) (code inst : Nat) (r : Reaction) (f : Bool) : d.KeepsArray (d.react code inst r f) := by
  unfold Dev.react
  split
  · cases r with
    | rec_ => exact .refl d
    | ch => exact d.reactCh_keepsArray ..
    | side => exact .foldl (fun e s => e.reactSide_keepsArray s code f) _ d
    | dev => exact d.safeAll_keepsArray code 3 f
  · exact .refl d

theorem Dev.listFault_keepsArray (d : Dev) (c i : Nat) (r : Reaction) : d.KeepsArray (d.listFault c i r) := by
  unfold Dev.listFault
  extract_lets l
  split
  · exact .of_eq rfl rfl rfl rfl rfl rfl
  · split
    · exact .of_eq rfl rfl rfl rfl rfl rfl
    · exact d.count_keepsArray 1 (.inr (by decide))

/-- An activated fault joins the active ones, and none leaves them. -/
theorem Dev.activate_keepsArray (d : Dev) (code inst arg : Nat) (r : Reaction) : d.KeepsArray (d.activate code inst arg r) := by
  unfold Dev.activate
  extract_lets n s0 d0 s1 f j1 a1 d1
  split
  · refine ⟨⟨⟨fun _ _ _ => rfl, fun c i h => ?_⟩, rfl, fun _ h => h⟩, fun _ => .refl _⟩
    obtain ⟨x, hx, hp⟩ := List.any_eq_true.1 h
    refine List.any_eq_true.2 ⟨_, List.mem_map_of_mem hx, ?_⟩
    split <;> exact hp
  · have h1 : d.KeepsArray d1 := by
      refine ⟨⟨⟨fun _ _ _ => rfl, fun c i h => ?_⟩, rfl, fun _ h => h⟩, fun _ => .refl _⟩
      obtain ⟨x, hx, hp⟩ := List.any_eq_true.1 h
      exact List.any_eq_true.2 ⟨x, List.mem_append_left _ hx, hp⟩
    exact h1.trans (Dev.listFault_keepsArray ..)

theorem Dev.snapshot_keepsArray (d : Dev) (n : Nat) : d.KeepsArray (d.snapshot n) := by
  unfold Dev.snapshot
  extract_lets again seq src recs hold s1 d1
  have h1 : d.KeepsArray d1 := .of_eq rfl rfl rfl rfl rfl rfl
  split
  · exact h1
  · exact h1.thenQuiet (Dev.quiet_trans (d1.setIrq_quiet 3) (Dev.post_quiet ..))

theorem Dev.raiseWith_keepsArray (d : Dev) (code inst arg : Nat) (pf f : Bool) : d.KeepsArray (d.raiseWith code inst arg pf f) := by
  unfold Dev.raiseWith
  split
  · exact (d.post_quiet code arg).keepsArray
  · split
    · exact .refl d
    · extract_lets d1 s2 d2 own r d3
      have h1 : d.KeepsArray d1 := (Dev.quiet_trans (d.post_quiet code arg) (Dev.setIrq_quiet _ 2)).keepsArray
      have h2 : d.KeepsArray d2 := h1.trans (.of_eq rfl rfl rfl rfl rfl rfl)
      have h3 : d.KeepsArray d3 := (h2.trans (Dev.activate_keepsArray ..)).trans (Dev.react_keepsArray ..)
      split
      · exact h3.trans (Dev.snapshot_keepsArray ..)
      · exact h3

theorem Dev.raise_keepsArray (d : Dev) (code inst arg : Nat) : d.KeepsArray (d.raise code inst arg) := d.raiseWith_keepsArray ..

/-- Which faults are muted (R193) rests on the variant, the mode and the change of mode. -/
theorem Dev.mutedFault_congr {a b : Dev} (hv : b.variant = a.variant) (hc : b.core = a.core) (hs : b.seq.change = a.seq.change)
    (code inst : Nat) : b.mutedFault code inst = a.mutedFault code inst := by
  unfold Dev.mutedFault Dev.dual Dev.row Dev.timingMode Dev.rowOf
  rw [hv, hc, hs]

/-! ### The checks of a refresh that has ended -/

theorem Dev.closeAggregates_keepsArray (d : Dev) (s : Nat) (now_ : Bool) : d.KeepsArray (d.closeAggregates s now_) := by
  unfold Dev.closeAggregates
  split
  · exact .refl d
  · split
    · exact .refl d
    · extract_lets q1 q2 d1 acc
      have h1 : d.KeepsArray d1 := .of_eq rfl rfl rfl rfl rfl rfl
      split
      · exact (h1.trans (d1.setJnl_keepsArray _)).trans
          (Dev.count_keepsArray _ 1 (.inr (by unfold pid kSafRefreshCheckFail; omega)))
      · exact h1

theorem Dev.reqEffective_keepsArray (d : Dev) (r : Nat) : d.KeepsArray (d.reqEffective r) :=
  (d.setReq_keepsArray { d.req with effective := r }).trans (.foldl (fun e _ => (e.finish_quiet ..).keepsArray) _ _)

theorem Dev.takeBeamReady_keepsArray (d : Dev) : d.KeepsArray d.takeBeamReady := by
  unfold Dev.takeBeamReady
  extract_lets c1 s1 d1
  have h1 : d.KeepsArray d1 := .of_eq rfl rfl rfl rfl rfl rfl
  exact (h1.thenQuiet (Dev.post_quiet ..)).trans (Dev.reqEffective_keepsArray ..)

theorem Dev.checksDone_keepsArray (d : Dev) : d.KeepsArray d.checksDone := by
  unfold Dev.checksDone
  extract_lets d1
  have h1 : d.KeepsArray d1 := .foldl (fun e s => e.closeAggregates_keepsArray s false) _ d
  split
  · exact h1.trans (Dev.takeBeamReady_keepsArray _)
  · exact h1

/-! ### What follows in STANDBY -/

/-- A change that leaves the parameters and the active faults. -/
theorem Dev.KeepsFaults.of_eq {a b : Dev} (hv : b.variant = a.variant) (hp : b.prm = a.prm) (hs : b.saf.active = a.saf.active) :
    a.KeepsFaults b where
  mirror _ _ _ := by unfold Dev.valOf; rw [hp, hv]
  active code inst h := (Dev.faultActive_of_active hs code inst).trans h

theorem Dev.KeepsFaults.thenFrame {a b c : Dev} {l : List Part} (h : a.KeepsFaults b) (g : b.onlyChanges c l)
    (hl : (l.contains .prm || l.contains .saf) = false) : a.KeepsFaults c := by
  obtain ⟨hp, hs⟩ := Bool.or_eq_false_iff.1 hl
  exact h.trans (.of_eq g.1 (g.part .prm hp) (congrArg Saf.active (g.part .saf hs)))

theorem Dev.KeepsFaults.thenQuiet {a b c : Dev} (h : a.KeepsFaults b) (g : b.Quiet c) : a.KeepsFaults c :=
  h.trans g.keepsArray.toKeepsFaults

theorem Dev.setSeq_keepsFaults (d : Dev) (q : Seq) : d.KeepsFaults { d with seq := q } := .of_eq rfl rfl rfl

theorem Dev.closeSession_keepsFaults (d : Dev) : d.KeepsFaults d.closeSession := by
  unfold Dev.closeSession
  split
  · exact .refl d
  · extract_lets cmds u d1
    have h1 : d.KeepsFaults d1 := .of_eq rfl rfl rfl
    exact (h1.trans (d1.release_keepsArray _).toKeepsFaults).trans
      (.foldl (fun e _ => (e.finishWith_quiet ..).keepsArray.toKeepsFaults) _ _)

theorem Dev.rechoose_keepsFaults (d : Dev) : d.KeepsFaults d.rechoose := by
  unfold Dev.rechoose
  split
  next v src _ =>
  split
  · exact .refl d
  · extract_lets q d1 displaced d2
    have h1 : d.KeepsFaults d1 :=
      Dev.KeepsFaults.thenQuiet (b := { d with req := { d.req with inForce := v } }) (.of_eq rfl rfl rfl) (Dev.post_quiet ..)
    have h2 : d.KeepsFaults d2 := h1.trans (.foldl (fun e _ => (e.finishWith_quiet ..).keepsArray.toKeepsFaults) _ _)
    split
    · exact h2
    · exact h2.trans (Dev.closeSession_keepsFaults _)

theorem Dev.rectsModeChange_keepsFaults (d : Dev) (r : ModeRow) : d.KeepsFaults (d.rectsModeChange r) := by
  have hset : ∀ (e : Dev) s i q, e.KeepsFaults (e.setRect s i q) := fun _ _ _ _ => .of_eq rfl rfl rfl
  refine .foldl (fun e s => .foldl (fun e i => ?_) _ e) _ d
  extract_lets q
  split
  · exact (hset ..).thenQuiet (Dev.post_quiet ..)
  · exact hset ..

theorem Dev.takeMode_keepsFaults (d : Dev) (m : Nat) (b : Bool) : d.KeepsFaults (d.takeMode m b) := by
  unfold Dev.takeMode
  extract_lets d1 base c d2
  have h1 : d.KeepsFaults d1 := by
    unfold d1
    split
    · exact .refl d
    · exact ((Dev.KeepsFaults.refl d).thenFrame (d.keepTestFrame_only m) rfl).thenFrame (Dev.camModeChange_only ..) rfl
  have h2 : d.KeepsFaults d2 := h1.trans (.of_eq rfl rfl rfl)
  have h3 : d.KeepsFaults (d2.carryMask m) := by
    unfold Dev.carryMask
    split
    · exact h2
    · exact (h2.trans (d2.setSeq_keepsFaults _)).thenQuiet (Dev.post_quiet ..)
  exact (h3.trans (Dev.rectsModeChange_keepsFaults ..)).trans (Dev.rechoose_keepsFaults _)

theorem Dev.restartTimeline_keepsFaults (d : Dev) : d.KeepsFaults d.restartTimeline := by
  have hdrop : ∀ (e : Dev) s, e.KeepsFaults (e.dropPass s) := fun e s =>
    ((Dev.KeepsFaults.refl e).thenFrame (e.modPipe_only ..) rfl).trans (Dev.release_keepsArray ..).toKeepsFaults
  exact (d.setSeq_keepsFaults _).trans (.foldl hdrop _ _)

theorem Dev.selectNow_keepsFaults (d : Dev) (m : Nat) (p : Port) (tag : Nat) : d.KeepsFaults (d.selectNow m p tag) := by
  unfold Dev.selectNow
  extract_lets q d1 d2
  have h1 : d.KeepsFaults d1 := .of_eq rfl rfl rfl
  have h2 : d.KeepsFaults d2 := by
    unfold d2
    split
    · exact h1
    · have hc : d1.KeepsFaults (d1.changeMode m false) := ((d1.takeMode_keepsFaults m false).trans
        (Dev.count_keepsArray _ 1 (.inl (by decide))).toKeepsFaults).thenQuiet (Dev.post_quiet ..)
      exact (h1.trans hc).trans (Dev.restartTimeline_keepsFaults _)
  exact h2.thenQuiet (Dev.finish_quiet ..)

theorem Dev.settleMode_keepsFaults (d : Dev) : d.KeepsFaults d.settleMode := by
  unfold Dev.settleMode
  split
  · split
    · exact d.selectNow_keepsFaults ..
    · split
      · exact (d.setSeq_keepsFaults _).thenQuiet (Dev.finishWith_quiet ..)
      · exact .refl d
  · exact .refl d

theorem Dev.startBoost_keepsFaults (d : Dev) (s : Nat) : d.KeepsFaults (d.startBoost s) := by
  unfold Dev.startBoost
  split
  · exact ((Dev.KeepsFaults.refl d).thenFrame (d.modLside_only ..) rfl).trans (Dev.request_keepsArray ..).toKeepsFaults
  · exact .refl d

theorem Dev.beamOn_keepsFaults (d : Dev) : d.KeepsFaults d.beamOn := by
  unfold Dev.beamOn
  extract_lets d1 c d2
  have hstate : d.KeepsFaults (d.setState .beam 0) := by
    unfold Dev.setState
    extract_lets prev c1 e1
    exact Dev.KeepsFaults.thenQuiet (b := e1) (.of_eq rfl rfl rfl)
      (Dev.quiet_trans (Dev.quiet_trans (e1.setIrq_quiet 1) (Dev.post_quiet ..)) (Dev.sendStat_quiet _))
  have h1 : d.KeepsFaults d1 := hstate.trans (Dev.closeSession_keepsFaults _)
  have h2 : d.KeepsFaults d2 := h1.trans (.of_eq rfl rfl rfl)
  exact h2.trans (.foldl (fun e s => e.startBoost_keepsFaults s) _ d2)

/-- What may follow in STANDBY, a change of mode or the beam, leaves the faults. -/
theorem Dev.settle_keepsFaults (d : Dev) : d.KeepsFaults d.settle := by
  unfold Dev.settle
  extract_lets d1
  split
  · exact d.settleMode_keepsFaults.trans (Dev.beamOn_keepsFaults _)
  · exact d.settleMode_keepsFaults

theorem Dev.settle_mport (d : Dev) (s : Nat) : d.settle.mport s = d.mport s :=
  congrArg (Pair.get · s) (d.settle_only.part .ports rfl)

end Sys2Proof.Machine
end

section
/-! How a mirror port's command runs, and the checks of the planes on the array ports (R242, R245). -/

namespace Sys2Proof.Machine

open Sys2Proof

/-! ### How a mirror port's command runs -/

/-- The block after a whole response: the port keeps its RSEQ on the pair it came on (R242). -/
def Dev.heard (d : Dev) (k pair : Nat) (f : RbFrame) : Dev := d.modMport k fun p => { p with rseq := p.rseq.set pair f.rseq }

@[simp] theorem Dev.heard_mport (d : Dev) (k pair : Nat) (f : RbFrame) :
    (d.heard k pair f).mport k = { d.mport k with rseq := (d.mport k).rseq.set pair f.rseq } :=
  d.mport_modMport_self ..

theorem Dev.heard_only (d : Dev) (k pair : Nat) (f : RbFrame) : d.onlyChanges (d.heard k pair f) [.ports] := d.modMport_only ..

theorem exec_onPort {c : Instr} {s : State} {sd : Side} {f : Dev → Nat → Dev} {d : Dev} (hc : exec c s = s.onPort sd f)
    (hs : s.dev.sides.contains sd.ix = true) (hf : f s.dev sd.ix = d) : exec c s = .next { s with dev := d } := by
  rw [hc, State.onPort, State.on, if_pos hs, hf]

theorem exec_onPort_idle {c : Instr} {s : State} {sd : Side} {f : Dev → Nat → Dev} (hc : exec c s = s.onPort sd f)
    (hf : f s.dev sd.ix = s.dev) : exec c s = .next s := by
  rw [hc, State.onPort, State.on, hf, ite_self]

theorem Runs.of_onPort {c : Instr} {s : State} {sd : Side} {touched : List Part} {effect : Dev → Prop} {f : Dev → Nat → Dev} {d : Dev}
    (hc : exec c s = s.onPort sd f) (hs : s.dev.sides.contains sd.ix = true) (hf : f s.dev sd.ix = d)
    (frame : s.dev.onlyChanges d touched) (e : effect d) : Runs c s touched effect :=
  ⟨d, exec_onPort hc hs hf, frame, e⟩

section
variable {c : Instr} {s : State} {sd : Side} {pair type : Nat} {payload : List Byte} {f : RbFrame} {g : Dev → Nat → Dev}

theorem State.onResponse_eq (s : State) (sd : Side) (pair type : Nat) (payload : List Byte) (f : RbFrame) (g : Dev → Nat → Dev) :
    s.onResponse sd pair type payload f g = s.onPort sd fun d k =>
      if (d.mport k).pwrEn then (if rbWhole f type payload then g (d.heard k pair f) k else d) else d := rfl

/-- A whole response reaches the port of a powered array. -/
theorem exec_onResponse {d : Dev} (hc : exec c s = s.onResponse sd pair type payload f g) (hs : s.dev.sides.contains sd.ix = true)
    (hp : (s.dev.mport sd.ix).pwrEn = true) (hw : rbWhole f type payload = true) (hg : g (s.dev.heard sd.ix pair f) sd.ix = d) :
    exec c s = .next { s with dev := d } :=
  exec_onPort (hc.trans (State.onResponse_eq ..)) hs (by rw [if_pos hp, if_pos hw, hg])

theorem Runs.of_onResponse {d : Dev} {touched : List Part} {effect : Dev → Prop}
    (hc : exec c s = s.onResponse sd pair type payload f g) (hs : s.dev.sides.contains sd.ix = true)
    (hp : (s.dev.mport sd.ix).pwrEn = true) (hw : rbWhole f type payload = true) (hg : g (s.dev.heard sd.ix pair f) sd.ix = d)
    (frame : (s.dev.heard sd.ix pair f).onlyChanges d touched) (ht : touched.contains .ports = true) (e : effect d) :
    Runs c s touched effect :=
  ⟨d, exec_onResponse hc hs hp hw hg,
    ((s.dev.heard_only sd.ix pair f).mono (by simpa [Part.within] using ht)).trans frame, e⟩

/-- A response to a side that is not there, or whose array is not powered, has no effect. -/
theorem exec_onResponse_unpowered (hc : exec c s = s.onResponse sd pair type payload f g)
    (h : s.dev.sides.contains sd.ix = false ∨ (s.dev.mport sd.ix).pwrEn = false) : exec c s = .next s := by
  rw [hc, State.onResponse_eq, State.onPort, State.on]
  rcases h with h | h
  · rw [if_neg (ne_true_of_eq_false h)]
  · simp only [h, Bool.false_eq_true, if_false, ite_self]

/-- A response that is not whole is dropped (R242). -/
theorem exec_onResponse_broken (hc : exec c s = s.onResponse sd pair type payload f g) (h : rbWhole f type payload = false) :
    exec c s = .next s :=
  exec_onPort_idle (hc.trans (State.onResponse_eq ..)) (by simp only [h, Bool.false_eq_true, if_false, ite_self])

end

theorem exec_busCrcResponse (sd : Side) (entry : Nat) (crc : Word) (f : RbFrame) (s : State) :
    exec (.busCrcResponse sd entry crc f) s = s.onResponse sd 0 0x01 (leBytes 2 entry ++ leBytes 4 crc.toNat) f
      fun d k => (d.busCrcIn k entry crc).checksDone := rfl
theorem exec_cellCrcResponse (sd : Side) (entry : Nat) (crc : Word) (f : RbFrame) (s : State) :
    exec (.cellCrcResponse sd entry crc f) s = s.onResponse sd 1 0x02 (leBytes 2 entry ++ leBytes 4 crc.toNat) f
      fun d k => (d.cellCrcIn k entry crc).checksDone := rfl
theorem exec_lanesResponse (sd : Side) (crcs : List Byte) (f : RbFrame) (s : State) :
    exec (.lanesResponse sd crcs f) s = s.onResponse sd 0 0x05 crcs f fun d k => (d.lanesIn k crcs).calAdvance := rfl
theorem exec_statusResponse (sd : Side) (status : Word) (f : RbFrame) (s : State) :
    exec (.statusResponse sd status f) s = s.onResponse sd 0 0x03 (leBytes 4 status.toNat) f
      fun d k => d.statusIn k status := rfl
theorem exec_ackResponse (sd : Side) (cseq cmd : Nat) (f : RbFrame) (s : State) :
    exec (.ackResponse sd cseq cmd f) s = s.onResponse sd 0 0x07 (leBytes 1 cseq ++ leBytes 1 cmd) f
      fun d k => d.ackIn k cseq cmd := rfl
theorem exec_errorResponse (sd : Side) (cseq reason : Nat) (f : RbFrame) (s : State) :
    exec (.errorResponse sd cseq reason f) s = s.onResponse sd 0 0x08 (leBytes 1 cseq ++ leBytes 1 reason) f
      fun d k => d.count kMptCmdErr k 1 := rfl
theorem exec_identResponse (sd : Side) (payload : List Byte) (f : RbFrame) (s : State) :
    exec (.identResponse sd payload f) s = s.onResponse sd 0 0x04 payload f fun d k => (d.identIn k payload).settle := rfl
theorem exec_trainResultResponse (sd : Side) (tap : Nat) (errors : List Nat) (f : RbFrame) (s : State) :
    exec (.trainResultResponse sd tap errors f) s = s.onResponse sd 1 0x06 (leList 1 errors) f
      fun d k => (d.trainResult k tap errors).settle := rfl
theorem exec_busCrcTimeout (sd : Side) (s : State) :
    exec (.busCrcTimeout sd) s = s.onPort sd fun d k => (d.crcLate k false).checksDone := rfl
theorem exec_cellCrcTimeout (sd : Side) (s : State) :
    exec (.cellCrcTimeout sd) s = s.onPort sd fun d k => (d.crcLate k true).checksDone := rfl

/-- A response to an array that is not powered has no effect. -/
theorem exec_response_unpowered {s : State} {sd : Side} (f : RbFrame)
    (h : s.dev.sides.contains sd.ix = false ∨ (s.dev.mport sd.ix).pwrEn = false) (entry : Nat) (crc : Word) (crcs : List Byte)
    (status : Word) (cseq cmd reason : Nat) (payload : List Byte) (tap : Nat) (errors : List Nat) :
    ∀ c ∈ ([.busCrcResponse sd entry crc f, .cellCrcResponse sd entry crc f, .lanesResponse sd crcs f, .statusResponse sd status f,
      .ackResponse sd cseq cmd f, .errorResponse sd cseq reason f, .identResponse sd payload f,
      .trainResultResponse sd tap errors f] : List Instr), exec c s = .next s := by
  simp only [List.forall_mem_cons]
  exact ⟨exec_onResponse_unpowered (exec_busCrcResponse ..) h, exec_onResponse_unpowered (exec_cellCrcResponse ..) h,
    exec_onResponse_unpowered (exec_lanesResponse ..) h, exec_onResponse_unpowered (exec_statusResponse ..) h,
    exec_onResponse_unpowered (exec_ackResponse ..) h, exec_onResponse_unpowered (exec_errorResponse ..) h,
    exec_onResponse_unpowered (exec_identResponse ..) h, exec_onResponse_unpowered (exec_trainResultResponse ..) h,
    fun _ hc => nomatch hc⟩

/-! ### The checks that may end a refresh -/

/-- No refresh has ended with checks open, and the beam does not become ready: nothing follows from a check. -/
structure Dev.ChecksIdle (d : Dev) : Prop where
  ended : ∀ k, d.seq.ended.get k = none
  beam : d.beamReadyNow = false

theorem Dev.ChecksIdle.checksDone {d : Dev} (h : d.ChecksIdle) : d.checksDone = d := by
  have hclose : ∀ s, d.closeAggregates s false = d := fun s => by
    unfold Dev.closeAggregates
    rw [h.ended s]
  have hfold : ∀ xs : List Nat, xs.foldl (fun d s => d.closeAggregates s false) d = d := fun xs => by
    induction xs with
    | nil => rfl
    | cons x xs ih => rw [List.foldl_cons, hclose x, ih]
  unfold Dev.checksDone
  rw [hfold]
  simp [h.beam]

/-- What decides whether a check ends a refresh is the same in two states of the block. -/
theorem Dev.ChecksIdle.congr {a b : Dev} (h : a.ChecksIdle) (hv : b.variant = a.variant) (hc : b.core = a.core)
    (hm : b.seq.change = a.seq.change) (hp : b.seq.projecting = a.seq.projecting) (he : b.seq.ended = a.seq.ended)
    (ho : b.seq.endedOk = a.seq.endedOk) : b.ChecksIdle := by
  refine ⟨fun k => (congrArg (Pair.get · k) he).trans (h.ended k), Eq.trans ?_ h.beam⟩
  unfold Dev.beamReadyNow Dev.modeSides Dev.twoSided Dev.row Dev.timingMode Dev.rowOf Dev.dual
  rw [hv, hc, hm, hp, ho]

theorem Dev.ChecksIdle.heard {d : Dev} (h : d.ChecksIdle) (k pair : Nat) (f : RbFrame) : (d.heard k pair f).ChecksIdle :=
  h.congr rfl rfl rfl rfl rfl rfl

/-! ### A check that fails (R245, R321) -/

/-- A check of a side fails: the side goes to 0 A, the failure is counted, and the fault raised. -/
def Dev.failCheck (d : Dev) (s key code arg : Nat) : Dev := ((d.darkUntilNext s).count key s 1).raise code s arg

/-- From a to b a check of a side has failed. -/
structure Dev.CheckFails (a b : Dev) (s key code : Nat) : Prop where
  checks : b.seq.planeChecks = a.seq.planeChecks
  zeroNow : b.gov.zeroNow.get s = true
  raised : a.mutedFault code s = false → b.faultActive code s = true
  counted : b.par key s = satAdd 0xFFFFFFFF (a.par key s) 1

theorem Dev.CheckFails.trans {a b c : Dev} {s key code : Nat} (h : a.CheckFails b s key code) (g : b.KeepsChecks c)
    (h7 : 0x7000000 ≤ pid key s) (h8 : pid key s < 0x8000000) : a.CheckFails c s key code :=
  ⟨g.checks.trans h.checks, g.zeroNow s h.zeroNow, fun hm => g.active code s (h.raised hm), (g.par h7 h8).trans h.counted⟩

theorem Dev.darkUntilNext_planeChecks (d : Dev) (s : Nat) : (d.darkUntilNext s).seq.planeChecks = d.seq.planeChecks := by
  unfold Dev.darkUntilNext
  dsimp only
  split <;> rfl

theorem Dev.darkUntilNext_change (d : Dev) (s : Nat) : (d.darkUntilNext s).seq.change = d.seq.change := by
  unfold Dev.darkUntilNext
  dsimp only
  split <;> rfl

theorem Dev.failCheck_fails {d : Dev} {s key code : Nat} (arg : Nat) (hI : kvSorted d.prm.vals = true)
    (hk : (paramRow? key).map (fun r => r.ty.top) = some 0xFFFFFFFF) (h7 : 0x7000000 ≤ pid key s) (h8 : pid key s < 0x8000000)
    (hcode : (faultRow? code).isSome = true) : d.CheckFails (d.failCheck s key code arg) s key code := by
  have hraise : ((d.darkUntilNext s).count key s 1).KeepsArray (d.failCheck s key code arg) := Dev.raise_keepsArray ..
  refine ⟨hraise.checks.trans (d.darkUntilNext_planeChecks s), hraise.zeroNow s (Pair.get_set_self ..), fun hm => ?_, ?_⟩
  · exact Dev.raise_self _ arg hcode ((Dev.mutedFault_congr (a := d) (b := (d.darkUntilNext s).count key s 1) rfl rfl
      (d.darkUntilNext_change s) code s).trans hm)
  · exact (hraise.par h7 h8).trans (Dev.par_count_self s 1 hk hI)

theorem Side.ix_le (sd : Side) : sd.ix ≤ 1 := by cases sd <;> decide

/-- The PARAM_IDs of the mirror port unit, for either side. -/
theorem mirrorPid {key : Nat} (sd : Side) (h7 : 0x7000000 ≤ key) (h8 : key < 0x7010000) :
    0x7000000 ≤ pid key sd.ix ∧ pid key sd.ix < 0x8000000 := by
  have := Side.ix_le sd
  unfold pid
  omega

/-! ### BUS_CRC -/

theorem Dev.checking_of_awaits {d : Dev} {s : Nat} {cell : Bool} {l : Loaded} (h : d.awaits s cell = some l) :
    d.seq.checking.get s = some l := by
  unfold Dev.awaits at h
  split at h
  · next m hm =>
    obtain ⟨-, hl⟩ := Option.ite_none_left_eq_some.1 h
    rw [hm, hl]
  · cases h

/-- The check of the bus is closed by a value. -/
def Dev.busClosed (d : Dev) (s : Nat) (crc : Word) : Dev := d.modChecking s fun l => { l with bus := some crc, busClosed := true }

/-- A port in READY asks for the lanes' values after a mismatch (R250). -/
def MPort.askLanes (p : MPort) : MPort := if p.state = .ready then { (p.ask 0x05 0 0) with lanesAsked := true } else p

theorem Dev.busCrcIn_awaited {d : Dev} {s entry : Nat} {l : Loaded} (crc : Word) (h : d.awaits s false = some l) (he : l.entry = entry) :
    d.busCrcIn s entry crc = if crc = l.crc then d.busClosed s crc
      else ((d.busClosed s crc).failCheck s kMptBusCrcErr 0x0702 (entry % 2048 + 0x800 * s)).modMport s MPort.askLanes := by
  unfold Dev.busCrcIn
  rw [h]
  exact if_neg (not_not_intro he)

/-- A value that no open check awaits says nothing. -/
theorem Dev.busCrcIn_unawaited {d : Dev} {s entry : Nat} (crc : Word)
    (h : d.awaits s false = none ∨ ∃ l, d.awaits s false = some l ∧ l.entry ≠ entry) : d.busCrcIn s entry crc = d := by
  unfold Dev.busCrcIn
  rcases h with h | ⟨l, h, he⟩
  · rw [h]
  · rw [h]
    exact if_pos he

theorem Dev.busClosed_checking {d : Dev} {s : Nat} {l : Loaded} (crc : Word) (h : d.awaits s false = some l) :
    (d.busClosed s crc).seq.checking.get s = some { l with bus := some crc, busClosed := true } := by
  unfold Dev.busClosed Dev.modChecking
  rw [Pair.get_mod_self, Dev.checking_of_awaits h]
  rfl

theorem busCrcResponse_runs {s : State} {sd : Side} {entry : Nat} (crc : Word) {f : RbFrame} {l : Loaded} (hI : s.dev.Inv)
    (hs : s.dev.sides.contains sd.ix = true) (hp : (s.dev.mport sd.ix).pwrEn = true)
    (hw : rbWhole f 0x01 (leBytes 2 entry ++ leBytes 4 crc.toNat) = true) (ha : s.dev.awaits sd.ix false = some l)
    (he : l.entry = entry) :
    Runs (.busCrcResponse sd entry crc f) s [.core, .prm, .sluice, .host, .req, .links, .seq, .ports, .lamp, .gov, .saf, .jnl]
      fun d =>
      d.seq.checking.get sd.ix = some { l with bus := some crc, busClosed := true } ∧
      (crc = l.crc → d.gov = s.dev.gov ∧ d.ports = s.dev.ports.mod sd.ix (fun p => { p with rseq := p.rseq.set 0 f.rseq }) ∧
        ((∀ k, s.dev.seq.ended.get k = none) → s.dev.beamReadyNow = false → d.saf = s.dev.saf ∧ d.prm = s.dev.prm)) ∧
      (crc ≠ l.crc → d.gov.zeroNow.get sd.ix = true ∧ (s.dev.mutedFault 0x0702 sd.ix = false → d.faultActive 0x0702 sd.ix =
        true) ∧
        d.par kMptBusCrcErr sd.ix = satAdd 0xFFFFFFFF (s.dev.par kMptBusCrcErr sd.ix) 1 ∧
        ((d.mport sd.ix).state = .ready → (d.mport sd.ix).lanesAsked = true ∧
          (d.mport sd.ix).queue.getLast?.map (·.cmd) = some 0x05)) := by
  obtain ⟨h7, h8⟩ := mirrorPid (key := kMptBusCrcErr) sd (by decide) (by decide)
  have hclosed := Dev.busClosed_checking (d := s.dev.heard sd.ix 0 f) crc ha
  refine Runs.of_onResponse (exec_busCrcResponse ..) hs hp hw rfl ?_ rfl ?_
  · exact Dev.only_then (Dev.checksDone_only _) (by decide) ((Dev.busCrcIn_only ..).mono (by decide))
  · rw [Dev.busCrcIn_awaited (d := s.dev.heard sd.ix 0 f) crc ha he]
    by_cases hcrc : crc = l.crc
    · rw [if_pos hcrc]
      refine ⟨?_, fun _ => ⟨?_, ?_, fun hend hbeam => ?_⟩, fun hne => absurd hcrc hne⟩
      · rwa [(Dev.checksDone_keepsArray _).checking]
      · exact (Dev.checksDone_only _).part .gov rfl
      · exact (Dev.checksDone_only _).part .ports rfl
      · have hidle : s.dev.ChecksIdle := ⟨hend, hbeam⟩
        rw [((hidle.heard sd.ix 0 f).congr (b := (s.dev.heard sd.ix 0 f).busClosed sd.ix crc) rfl rfl rfl rfl rfl rfl).checksDone]
        exact ⟨rfl, rfl⟩
    · rw [if_neg hcrc]
      have hfail := Dev.failCheck_fails (d := (s.dev.heard sd.ix 0 f).busClosed sd.ix crc) (key := kMptBusCrcErr) (code := 0x0702)
        (entry % 2048 + 0x800 * sd.ix) hI.vals (by decide) h7 h8 (by decide)
      have h := (hfail.trans (Dev.modMport_keepsChecks _ sd.ix MPort.askLanes) h7 h8).trans
        (Dev.checksDone_keepsArray _).toKeepsChecks h7 h8
      refine ⟨?_, fun heq => absurd heq hcrc, fun _ => ⟨h.zeroNow, fun hm => h.raised ?_, h.counted, fun hr => ?_⟩⟩
      · have hc := congrArg (·.1) h.checks
        exact (congrArg (Pair.get · sd.ix) hc).trans hclosed
      · exact (Dev.mutedFault_congr rfl rfl rfl ..).trans hm
      · have hports : ∀ e : Dev, e.checksDone.mport sd.ix = e.mport sd.ix := fun e =>
          congrArg (Pair.get · sd.ix) (e.checksDone_only.part .ports rfl)
        rw [hports, Dev.mport_modMport_self] at hr ⊢
        unfold MPort.askLanes at hr ⊢
        split at hr
        · next hready =>
          rw [if_pos hready]
          simp [MPort.ask]
        · next hready => exact absurd hr hready

theorem exec_busCrcResponse_unawaited {s : State} {sd : Side} {entry : Nat} {crc : Word} {f : RbFrame}
    (hs : s.dev.sides.contains sd.ix = true) (hp : (s.dev.mport sd.ix).pwrEn = true) (hi : s.dev.ChecksIdle)
    (hw : rbWhole f 0x01 (leBytes 2 entry ++ leBytes 4 crc.toNat) = true)
    (ha : s.dev.awaits sd.ix false = none ∨ ∃ l, s.dev.awaits sd.ix false = some l ∧ l.entry ≠ entry) :
    exec (.busCrcResponse sd entry crc f) s = .next { s with dev := s.dev.heard sd.ix 0 f } :=
  exec_onResponse (exec_busCrcResponse ..) hs hp hw
    (by rw [Dev.busCrcIn_unawaited (d := s.dev.heard sd.ix 0 f) crc ha, (hi.heard ..).checksDone])

/-! ### CELL_CRC -/

theorem Dev.cellCrcIn_awaited {d : Dev} {s entry : Nat} {l : Loaded} (crc : Word) (h : d.awaits s true = some l) (he : l.entry = entry) :
    d.cellCrcIn s entry crc = if crc = l.crc then d.closeCell s l (some crc)
      else (d.closeCell s l (some crc)).failCheck s kMptCellCrcErr 0x0702 (entry % 2048 + 0x800 * s + 0x1000) := by
  unfold Dev.cellCrcIn
  rw [h]
  exact if_neg (not_not_intro he)

theorem Dev.cellCrcIn_unawaited {d : Dev} {s entry : Nat} (crc : Word)
    (h : d.awaits s true = none ∨ ∃ l, d.awaits s true = some l ∧ l.entry ≠ entry) : d.cellCrcIn s entry crc = d := by
  unfold Dev.cellCrcIn
  rcases h with h | ⟨l, h, he⟩
  · rw [h]
  · rw [h]
    exact if_pos he

/-- A cell check closes, and with it, while its refresh goes on, the side's aggregates grow (R356). -/
theorem Dev.closeCell_checks (d : Dev) (s : Nat) (l : Loaded) (got : Option Word) :
    (d.closeCell s l got).seq.checking.get s = some { l with cell := got, cellClosed := true } ∧
    (d.seq.ended.get s = none →
      (d.closeCell s l got).seq.rxAgg.get s = d.seq.rxAgg.get s ++ [got.getD 0] ∧
      (d.closeCell s l got).seq.exAgg.get s = d.seq.exAgg.get s ++ [l.crc]) := by
  unfold Dev.closeCell Dev.aggregate
  dsimp only
  split
  · next e he => exact ⟨Pair.get_set_self .., fun hn => by rw [hn] at he; cases he⟩
  · exact ⟨Pair.get_set_self .., fun _ => ⟨Pair.get_mod_self .., Pair.get_mod_self ..⟩⟩

theorem Dev.closeCell_change (d : Dev) (s : Nat) (l : Loaded) (got : Option Word) :
    (d.closeCell s l got).seq.change = d.seq.change := by
  unfold Dev.closeCell Dev.aggregate
  dsimp only
  split <;> rfl

theorem Dev.ChecksIdle.closeCell {d : Dev} (h : d.ChecksIdle) (s : Nat) (l : Loaded) (got : Option Word) :
    (d.closeCell s l got).ChecksIdle := by
  unfold Dev.closeCell Dev.aggregate
  dsimp only
  rw [h.ended s]
  exact h.congr rfl rfl rfl rfl rfl rfl

/-- What holds of a closed cell check holds after whatever keeps the plane checks. -/
theorem Dev.closeCell_kept {d e : Dev} {s : Nat} (l : Loaded) (got : Option Word)
    (h : e.seq.planeChecks = (d.closeCell s l got).seq.planeChecks) :
    e.seq.checking.get s = some { l with cell := got, cellClosed := true } ∧
    (d.seq.ended.get s = none →
      e.seq.rxAgg.get s = d.seq.rxAgg.get s ++ [got.getD 0] ∧ e.seq.exAgg.get s = d.seq.exAgg.get s ++ [l.crc]) := by
  rw [show e.seq.checking = _ from congrArg (·.1) h, show e.seq.rxAgg = _ from congrArg (·.2.1) h,
    show e.seq.exAgg = _ from congrArg (·.2.2) h]
  exact d.closeCell_checks s l got

theorem cellCrcResponse_runs {s : State} {sd : Side} {entry : Nat} (crc : Word) {f : RbFrame} {l : Loaded} (hI : s.dev.Inv)
    (hs : s.dev.sides.contains sd.ix = true) (hp : (s.dev.mport sd.ix).pwrEn = true)
    (hw : rbWhole f 0x02 (leBytes 2 entry ++ leBytes 4 crc.toNat) = true) (ha : s.dev.awaits sd.ix true = some l)
    (he : l.entry = entry) :
    Runs (.cellCrcResponse sd entry crc f) s [.core, .prm, .sluice, .host, .req, .links, .seq, .ports, .lamp, .gov, .saf, .jnl]
      fun d =>
      d.seq.checking.get sd.ix = some { l with cell := some crc, cellClosed := true } ∧
      (s.dev.seq.ended.get sd.ix = none →
        d.seq.rxAgg.get sd.ix = s.dev.seq.rxAgg.get sd.ix ++ [crc] ∧ d.seq.exAgg.get sd.ix = s.dev.seq.exAgg.get sd.ix ++
          [l.crc]) ∧
      (crc = l.crc → d.gov = s.dev.gov ∧
        ((∀ k, s.dev.seq.ended.get k = none) → s.dev.beamReadyNow = false → d.saf = s.dev.saf ∧ d.prm = s.dev.prm)) ∧
      (crc ≠ l.crc → d.gov.zeroNow.get sd.ix = true ∧ (s.dev.mutedFault 0x0702 sd.ix = false → d.faultActive 0x0702 sd.ix =
        true) ∧
        d.par kMptCellCrcErr sd.ix = satAdd 0xFFFFFFFF (s.dev.par kMptCellCrcErr sd.ix) 1) := by
  obtain ⟨h7, h8⟩ := mirrorPid (key := kMptCellCrcErr) sd (by decide) (by decide)
  have hcell := (s.dev.heard sd.ix 1 f).closeCell_only sd.ix l (some crc)
  refine Runs.of_onResponse (exec_cellCrcResponse ..) hs hp hw rfl ?_ rfl ?_
  · exact Dev.only_then (Dev.checksDone_only _) (by decide) ((Dev.cellCrcIn_only ..).mono (by decide))
  · rw [Dev.cellCrcIn_awaited (d := s.dev.heard sd.ix 1 f) crc ha he]
    by_cases hcrc : crc = l.crc
    · rw [if_pos hcrc]
      obtain ⟨hc, hg⟩ := Dev.closeCell_kept (d := s.dev.heard sd.ix 1 f) (s := sd.ix) l (some crc) (Dev.checksDone_keepsArray _).checks
      refine ⟨hc, hg, fun _ => ⟨?_, fun hend hbeam => ?_⟩, fun hne => absurd hcrc hne⟩
      · exact ((Dev.checksDone_only _).part .gov rfl).trans (hcell.part .gov rfl)
      · have hidle : s.dev.ChecksIdle := ⟨hend, hbeam⟩
        rw [((hidle.heard sd.ix 1 f).closeCell ..).checksDone]
        exact ⟨hcell.part .saf rfl, hcell.part .prm rfl⟩
    · rw [if_neg hcrc]
      have hvals : kvSorted ((s.dev.heard sd.ix 1 f).closeCell sd.ix l (some crc)).prm.vals = true := by
        rw [hcell.part .prm rfl]
        exact hI.vals
      have h := (Dev.failCheck_fails (key := kMptCellCrcErr) (code := 0x0702) (entry % 2048 + 0x800 * sd.ix + 0x1000) hvals (by decide)
        h7 h8 (by decide)).trans (Dev.checksDone_keepsArray _).toKeepsChecks h7 h8
      obtain ⟨hc, hg⟩ := Dev.closeCell_kept l (some crc) h.checks
      refine ⟨hc, hg, fun heq => absurd heq hcrc, fun _ => ⟨h.zeroNow, fun hm => h.raised ?_, ?_⟩⟩
      · exact (Dev.mutedFault_congr hcell.1 (hcell.part .core rfl) (Dev.closeCell_change ..) ..).trans hm
      · rw [h.counted, hcell.par rfl]
        rfl

theorem exec_cellCrcResponse_unawaited {s : State} {sd : Side} {entry : Nat} {crc : Word} {f : RbFrame}
    (hs : s.dev.sides.contains sd.ix = true) (hp : (s.dev.mport sd.ix).pwrEn = true) (hi : s.dev.ChecksIdle)
    (hw : rbWhole f 0x02 (leBytes 2 entry ++ leBytes 4 crc.toNat) = true)
    (ha : s.dev.awaits sd.ix true = none ∨ ∃ l, s.dev.awaits sd.ix true = some l ∧ l.entry ≠ entry) :
    exec (.cellCrcResponse sd entry crc f) s = .next { s with dev := s.dev.heard sd.ix 1 f } :=
  exec_onResponse (exec_cellCrcResponse ..) hs hp hw
    (by rw [Dev.cellCrcIn_unawaited (d := s.dev.heard sd.ix 1 f) crc ha, (hi.heard ..).checksDone])

/-! ### Values that are missing -/

/-- The block once a late check is closed. -/
def Dev.closeLate (d : Dev) (s : Nat) (cell : Bool) (l : Loaded) : Dev :=
  if cell then d.closeCell s l none else d.modChecking s fun l => { l with busClosed := true }

theorem Dev.crcLate_awaited {d : Dev} {s : Nat} {cell : Bool} {l : Loaded} (h : d.awaits s cell = some l) :
    d.crcLate s cell = (d.closeLate s cell l).failCheck s kMptRbTimeout 0x0703
      (l.entry % 2048 + 0x800 * s + 0x1000 * (if cell then 2 else 1)) := by
  unfold Dev.crcLate
  rw [h]
  rfl

theorem Dev.crcLate_unawaited {d : Dev} {s : Nat} {cell : Bool} (h : d.awaits s cell = none) : d.crcLate s cell = d := by
  unfold Dev.crcLate
  rw [h]

theorem Dev.closeLate_only (d : Dev) (s : Nat) (cell : Bool) (l : Loaded) : d.onlyChanges (d.closeLate s cell l) [.seq] := by
  unfold Dev.closeLate
  split
  · exact d.closeCell_only ..
  · exact d.modChecking_only ..

theorem Dev.closeLate_change (d : Dev) (s : Nat) (cell : Bool) (l : Loaded) : (d.closeLate s cell l).seq.change = d.seq.change := by
  unfold Dev.closeLate
  split
  · exact d.closeCell_change ..
  · rfl

/-- A missing value fails its check. -/
theorem Dev.crcLate_fails {d : Dev} {sd : Side} {cell : Bool} {l : Loaded} (hI : d.Inv) (h : d.awaits sd.ix cell = some l) :
    (d.closeLate sd.ix cell l).CheckFails (d.crcLate sd.ix cell).checksDone sd.ix kMptRbTimeout 0x0703 := by
  obtain ⟨h7, h8⟩ := mirrorPid (key := kMptRbTimeout) sd (by decide) (by decide)
  have hvals : kvSorted (d.closeLate sd.ix cell l).prm.vals = true := by
    rw [(d.closeLate_only ..).part .prm rfl]
    exact hI.vals
  rw [Dev.crcLate_awaited h]
  exact (Dev.failCheck_fails _ hvals (by decide) h7 h8 (by decide)).trans (Dev.checksDone_keepsArray _).toKeepsChecks h7 h8

/-- What a missing value does besides closing its check. -/
theorem Dev.crcLate_effect {d : Dev} {sd : Side} {cell : Bool} {l : Loaded} (hI : d.Inv) (h : d.awaits sd.ix cell = some l) :
    (d.crcLate sd.ix cell).checksDone.gov.zeroNow.get sd.ix = true ∧
    (d.mutedFault 0x0703 sd.ix = false → (d.crcLate sd.ix cell).checksDone.faultActive 0x0703 sd.ix = true) ∧
    (d.crcLate sd.ix cell).checksDone.par kMptRbTimeout sd.ix = satAdd 0xFFFFFFFF (d.par kMptRbTimeout sd.ix) 1 := by
  have hfail := Dev.crcLate_fails hI h
  have hlate := d.closeLate_only sd.ix cell l
  refine ⟨hfail.zeroNow, fun hm => hfail.raised ?_, ?_⟩
  · exact (Dev.mutedFault_congr hlate.1 (hlate.part .core rfl) (d.closeLate_change ..) ..).trans hm
  · rw [hfail.counted, hlate.par rfl]

theorem Dev.crcLate_checksDone_only (d : Dev) (s : Nat) (cell : Bool) : d.onlyChanges (d.crcLate s cell).checksDone
    [.core, .prm, .sluice, .host, .req, .links, .seq, .ports, .lamp, .gov, .saf, .jnl] :=
  Dev.only_then (Dev.checksDone_only _) (by decide) ((d.crcLate_only s cell).mono (by decide))

theorem busCrcTimeout_runs {s : State} {sd : Side} {l : Loaded} (hI : s.dev.Inv) (hs : s.dev.sides.contains sd.ix = true)
    (ha : s.dev.awaits sd.ix false = some l) :
    Runs (.busCrcTimeout sd) s [.core, .prm, .sluice, .host, .req, .links, .seq, .ports, .lamp, .gov, .saf, .jnl] fun d =>
      d.seq.checking.get sd.ix = some { l with busClosed := true } ∧ d.gov.zeroNow.get sd.ix = true ∧
      (s.dev.mutedFault 0x0703 sd.ix = false → d.faultActive 0x0703 sd.ix = true) ∧ d.par kMptRbTimeout sd.ix = satAdd
        0xFFFFFFFF (s.dev.par kMptRbTimeout sd.ix) 1 := by
  refine Runs.of_onPort (exec_busCrcTimeout ..) hs rfl (s.dev.crcLate_checksDone_only ..) ⟨?_, Dev.crcLate_effect hI ha⟩
  have hc : ((s.dev.crcLate sd.ix false).checksDone).seq.checking = (s.dev.closeLate sd.ix false l).seq.checking :=
    congrArg (·.1) (Dev.crcLate_fails hI ha).checks
  rw [hc]
  show (s.dev.seq.checking.mod sd.ix _).get sd.ix = _
  rw [Pair.get_mod_self, Dev.checking_of_awaits ha]
  rfl

theorem cellCrcTimeout_runs {s : State} {sd : Side} {l : Loaded} (hI : s.dev.Inv) (hs : s.dev.sides.contains sd.ix = true)
    (ha : s.dev.awaits sd.ix true = some l) :
    Runs (.cellCrcTimeout sd) s [.core, .prm, .sluice, .host, .req, .links, .seq, .ports, .lamp, .gov, .saf, .jnl] fun d =>
      d.seq.checking.get sd.ix = some { l with cell := none, cellClosed := true } ∧ d.gov.zeroNow.get sd.ix = true ∧
      (s.dev.seq.ended.get sd.ix = none →
        d.seq.rxAgg.get sd.ix = s.dev.seq.rxAgg.get sd.ix ++ [0] ∧ d.seq.exAgg.get sd.ix = s.dev.seq.exAgg.get sd.ix ++
          [l.crc]) ∧
      (s.dev.mutedFault 0x0703 sd.ix = false → d.faultActive 0x0703 sd.ix = true) ∧ d.par kMptRbTimeout sd.ix = satAdd
        0xFFFFFFFF (s.dev.par kMptRbTimeout sd.ix) 1 := by
  obtain ⟨hz, heffect⟩ := Dev.crcLate_effect hI ha
  obtain ⟨hc, hg⟩ := Dev.closeCell_kept (d := s.dev) (s := sd.ix) l none (Dev.crcLate_fails hI ha).checks
  exact Runs.of_onPort (exec_cellCrcTimeout ..) hs rfl (s.dev.crcLate_checksDone_only ..) ⟨hc, hz, hg, heffect⟩

/-- With no check open, its deadline means nothing. -/
theorem exec_crcTimeout_idle {s : State} {sd : Side} (hi : s.dev.ChecksIdle) :
    (s.dev.awaits sd.ix false = none → exec (.busCrcTimeout sd) s = .next s) ∧
    (s.dev.awaits sd.ix true = none → exec (.cellCrcTimeout sd) s = .next s) :=
  ⟨fun h => exec_onPort_idle (exec_busCrcTimeout ..) (by rw [Dev.crcLate_unawaited h, hi.checksDone]),
    fun h => exec_onPort_idle (exec_cellCrcTimeout ..) (by rw [Dev.crcLate_unawaited h, hi.checksDone])⟩

end Sys2Proof.Machine
end

section
/-! LANES, STATUS, ACK and ERROR responses of the array ports (R242, R250, R252), and the statement on frame checks and telemetry
(O53). -/

namespace Sys2Proof.Machine

open Sys2Proof

/-! ### Lane errors (R250) -/

/-- The lane errors counted on a port, and whether LANES is awaited. -/
def MPort.laneRecord (p : MPort) : List Nat × Bool := (p.laneErr, p.lanesAsked)

theorem MPort.Parks.laneRecord {p q : MPort} (h : p.Parks q) : q.laneRecord = p.laneRecord :=
  (congrArg MPort.laneRecord h.record :)

theorem Dev.KeepsArray.laneRecord {a b : Dev} (h : a.KeepsArray b) (s : Nat) : (b.mport s).laneRecord = (a.mport s).laneRecord :=
  (h.parks s).laneRecord

theorem Dev.modMport_laneRecord (d : Dev) (s : Nat) {f : MPort → MPort} (hf : ∀ p, (f p).laneRecord = p.laneRecord) :
    ((d.modMport s f).mport s).laneRecord = (d.mport s).laneRecord := by
  rw [Dev.mport_modMport_self, hf]

theorem MPort.returnSpare_laneRecord (p : MPort) : p.returnSpare.laneRecord = p.laneRecord := by
  unfold MPort.returnSpare
  extract_lets q
  split <;> rfl

/-- What follows the failure of a lane counts no lane error. -/
theorem Dev.laneFails_laneRecord (d : Dev) (s k : Nat) : ((d.laneFails s k).mport s).laneRecord = (d.mport s).laneRecord := by
  unfold Dev.laneFails
  extract_lets d1 p
  have h1 : (d1.mport s).laneRecord = (d.mport s).laneRecord :=
    ((Dev.post_quiet ..).keepsArray.laneRecord s).trans (d.modMport_laneRecord s fun _ => rfl)
  split
  · exact ((d1.raise_keepsArray ..).laneRecord s).trans h1
  · split
    · exact (d1.modMport_laneRecord s fun q => by split <;> rfl).trans h1
    · refine (d1.modMport_laneRecord s fun q => ?_).trans h1
      split
      · rfl
      · exact q.returnSpare_laneRecord

theorem Dev.lane32Fails_laneRecord (d : Dev) (s : Nat) : ((d.lane32Fails s).mport s).laneRecord = (d.mport s).laneRecord := by
  unfold Dev.lane32Fails
  extract_lets p covered d1 waiting lost
  split
  · rfl
  · have h1 : (d1.mport s).laneRecord = (d.mport s).laneRecord := d.modMport_laneRecord s fun q => q.returnSpare_laneRecord
    exact ((Dev.KeepsArray.foldl (fun e k => e.raise_keepsArray ..) lost d1).laneRecord s).trans h1

/-- A lane error counts on its lane, up to 0xFFFF. -/
theorem Dev.laneError_laneRecord (d : Dev) (s k : Nat) : ((d.laneError s k).mport s).laneRecord =
    (modAt (d.mport s).laneErr k fun n => min 0xFFFF (n + 1), (d.mport s).lanesAsked) := by
  unfold Dev.laneError
  extract_lets d1 p hist d2
  have h1 : (d1.mport s).laneRecord = (modAt (d.mport s).laneErr k fun n => min 0xFFFF (n + 1), (d.mport s).lanesAsked) := by
    rw [Dev.mport_modMport_self]
    rfl
  split
  · exact (d1.lane32Fails_laneRecord s).trans h1
  · have h2 := (d1.modMport_laneRecord s (f := fun p => { p with laneHist := p.laneHist.set k hist }) fun _ => rfl).trans h1
    split
    · exact (d2.laneFails_laneRecord s k).trans h2
    · exact h2

theorem Dev.laneErrors_laneRecord (s : Nat) (ks : List Nat) (d : Dev) :
    ((ks.foldl (fun d k => d.laneError s k) d).mport s).laneRecord =
      (ks.foldl (fun l k => modAt l k fun n => min 0xFFFF (n + 1)) (d.mport s).laneErr, (d.mport s).lanesAsked) := by
  induction ks generalizing d with
  | nil => rfl
  | cons k ks ih =>
    have h := d.laneError_laneRecord s k
    rw [List.foldl_cons, ih, show ((d.laneError s k).mport s).laneErr = _ from congrArg Prod.fst h,
      show ((d.laneError s k).mport s).lanesAsked = _ from congrArg Prod.snd h]
    rfl

/-- Changes at different places of a list reach each place once. -/
theorem foldl_modAt_getD {α : Type} (f : α → α) (x : α) {ks : List Nat} (hn : ks.Nodup) (l : List α) {j : Nat} (hj : j < l.length) :
    (ks.foldl (fun l k => modAt l k f) l).getD j x = if j ∈ ks then f (l.getD j x) else l.getD j x := by
  induction ks generalizing l with
  | nil => rfl
  | cons k ks ih =>
    obtain ⟨hk, hks⟩ := List.nodup_cons.1 hn
    have hlen : j < (modAt l k f).length := by rwa [modAt_length]
    rw [List.foldl_cons, ih hks _ hlen]
    by_cases e : j = k
    · subst e
      rw [if_neg hk, if_pos List.mem_cons_self, modAt_getD_self l f x hj]
    · simp only [modAt_getD_ne l f x e, List.mem_cons, e, false_or]

/-- The lanes whose values differ from those expected. -/
def lanesDiffer (crcs : List Byte) (l : Loaded) : List Nat := (List.range 33).filter fun k => crcs.getD k 0 != l.lanes.getD k 0

/-- LANES is no longer awaited. -/
def Dev.lanesTaken (d : Dev) (s : Nat) : Dev := d.modMport s fun p => { p with lanesAsked := false }

theorem Dev.lanesTaken_heard_mport (d : Dev) (s : Nat) (f : RbFrame) : ((d.heard s 0 f).lanesTaken s).mport s =
    { d.mport s with rseq := (d.mport s).rseq.set 0 f.rseq, lanesAsked := false } := by
  rw [Dev.lanesTaken, Dev.mport_modMport_self, Dev.heard_mport]

theorem Dev.lanesIn_asked {d : Dev} {s : Nat} {l : Loaded} (crcs : List Byte) (ha : (d.mport s).lanesAsked = true)
    (hl : d.seq.checking.get s = some l) :
    d.lanesIn s crcs = (lanesDiffer crcs l).foldl (fun d k => d.laneError s k) (d.lanesTaken s) := by
  unfold Dev.lanesIn
  rw [ha, hl]
  rfl

theorem Dev.lanesIn_unasked {d : Dev} {s : Nat} (crcs : List Byte) (ha : (d.mport s).lanesAsked = false) : d.lanesIn s crcs = d := by
  unfold Dev.lanesIn
  rw [ha]
  rfl

/-- With no calibration run under way, LANES has its effect on the lanes only. -/
theorem Dev.lanesIn_calAdvance {d : Dev} (s : Nat) (crcs : List Byte) (h : d.cal.run = none) :
    (d.lanesIn s crcs).calAdvance = d.lanesIn s crcs :=
  Dev.calAdvance_of_no_run (by rw [(d.lanesIn_only s crcs).part .cal rfl]; exact h)

theorem lanesResponse_counts {s : State} {sd : Side} {crcs : List Byte} {f : RbFrame} {l : Loaded}
    (hs : s.dev.sides.contains sd.ix = true) (hr : s.dev.cal.run = none) (hp : (s.dev.mport sd.ix).pwrEn = true)
    (hw : rbWhole f 0x05 crcs = true) (ha : (s.dev.mport sd.ix).lanesAsked = true) (hl : s.dev.seq.checking.get sd.ix = some l)
    (hlen : (s.dev.mport sd.ix).laneErr.length = 33) :
    Runs (.lanesResponse sd crcs f) s [.prm, .sluice, .host, .links, .seq, .ports, .lamp, .gov, .saf, .jnl, .cal] fun d =>
      (d.mport sd.ix).lanesAsked = false ∧
      ∀ j, j < 33 → (d.mport sd.ix).laneErr.getD j 0 = if crcs.getD j 0 = l.lanes.getD j 0
        then (s.dev.mport sd.ix).laneErr.getD j 0 else min 0xFFFF ((s.dev.mport sd.ix).laneErr.getD j 0 + 1) := by
  refine Runs.of_onResponse (exec_lanesResponse ..) hs hp hw (Dev.lanesIn_calAdvance _ crcs hr) ((Dev.lanesIn_only ..).mono (by decide))
    rfl ?_
  have ha' : ((s.dev.heard sd.ix 0 f).mport sd.ix).lanesAsked = true := by rw [Dev.heard_mport]; exact ha
  rw [Dev.lanesIn_asked crcs ha' hl]
  have h := Dev.laneErrors_laneRecord sd.ix (lanesDiffer crcs l) ((s.dev.heard sd.ix 0 f).lanesTaken sd.ix)
  rw [Dev.lanesTaken_heard_mport] at h
  refine ⟨congrArg Prod.snd h, fun j hj => ?_⟩
  have hnodup : (lanesDiffer crcs l).Nodup := List.nodup_range.filter _
  have hmem : j ∈ lanesDiffer crcs l ↔ ¬ crcs.getD j 0 = l.lanes.getD j 0 := by simp [lanesDiffer, hj]
  have hlt : j < (s.dev.mport sd.ix).laneErr.length := by omega
  refine (congrArg (fun e : List Nat × Bool => e.1.getD j 0) h).trans ((foldl_modAt_getD _ 0 hnodup _ hlt).trans ?_)
  simp only [hmem, ite_not]

/-! ### A lane fails, and the spare is asked for (R250) -/

theorem lanesDiffer_eq_singleton {crcs : List Byte} {l : Loaded} {j : Nat} (hj : j < 33)
    (h : ∀ i, i < 33 → (crcs.getD i 0 ≠ l.lanes.getD i 0 ↔ i = j)) : lanesDiffer crcs l = [j] := by
  have : lanesDiffer crcs l = (List.range 33).filter fun k => k == j := by
    refine List.filter_congr fun k hk => ?_
    rw [Bool.eq_iff_iff, bne_iff_ne, beq_iff_eq]
    exact h k (List.mem_range.1 hk)
  rw [this, List.filter_beq, List.count_eq_one_of_mem List.nodup_range (List.mem_range.2 hj)]
  rfl

/-- The loads in which a lane had an error, the present one included, over the last eight (R250). -/
def MPort.errorLoads (p : MPort) (j : Nat) : List Nat :=
  p.loadNo :: ((p.laneHist.getD j []).filter fun n => decide (p.loadNo < n + 8) && n != p.loadNo)

/-- A port that counts a lane error, and whose data lane fails by it. -/
def MPort.laneLost (p : MPort) (j : Nat) : MPort :=
  { p with
    laneErr := modAt p.laneErr j fun n => min 0xFFFF (n + 1), laneHist := p.laneHist.set j (p.errorLoads j),
    failedLanes := p.failedLanes ||| BitVec.ofNat 32 (2 ^ j) }

/-- The spare is free for the lane that fails. -/
structure MPort.SpareFree (p : MPort) (j : Nat) : Prop where
  ck1 : p.lane32Failed = false
  temporary : p.sparePermanent = false
  idle : p.sparePending = none
  other : p.spareFor ≠ j

/-- Two changes of a port are one. -/
theorem Dev.modMport_modMport (d : Dev) (s : Nat) (f g : MPort → MPort) :
    (d.modMport s f).modMport s g = d.modMport s fun p => g (f p) := by
  unfold Dev.modMport Pair.mod Pair.set Pair.get
  by_cases h : s = 0 <;> simp [h]

/-- The takeover of a lane by the free spare: one under way by calibration is taken back first. -/
def MPort.takeSpare (p : MPort) (j : Nat) : MPort := (if p.spareFor = 0x3F then p else p.returnSpare).askSpare j

theorem Dev.laneFails_spare {d : Dev} {s j : Nat} (h : (d.mport s).SpareFree j) :
    d.laneFails s j = ((d.modMport s fun p => { p with failedLanes := p.failedLanes ||| BitVec.ofNat 32 (2 ^ j) }).post 0x0704
      (j + 256 * s)).modMport s fun p => p.takeSpare j := by
  obtain ⟨hck, htemp, hidle, hother⟩ := h
  unfold Dev.laneFails
  extract_lets d1 p
  have hp : p = { d.mport s with failedLanes := (d.mport s).failedLanes ||| BitVec.ofNat 32 (2 ^ j) } := by
    unfold p Dev.mport
    rw [(Dev.post_quiet ..).ports]
    exact Pair.get_mod_self ..
  have h1 : ¬ (p.lane32Failed ∨ p.sparePermanent ∨ p.sparePending.isSome) := by rw [hp]; simp [hck, htemp, hidle]
  have h2 : ¬ p.spareFor = j := by rw [hp]; exact hother
  rw [if_neg h1, if_neg h2]
  rfl

/-- At its limit a data lane fails, and asks for the free spare. -/
theorem Dev.laneError_spare {d : Dev} {s j : Nat} (hj : j < 32) (hf : (d.mport s).failedLanes.getLsbD j = false)
    (hlim : d.par kMptPairErrLimit s ≤ ((d.mport s).errorLoads j).length) (h : (d.mport s).SpareFree j) :
    ((d.laneError s j).mport s) = ((d.mport s).laneLost j).takeSpare j ∧
    d.onlyChanges (d.laneError s j) [.prm, .host, .links, .ports] := by
  unfold Dev.laneError
  extract_lets d1 p hist d2
  have hp : p = { d.mport s with laneErr := modAt (d.mport s).laneErr j fun n => min 0xFFFF (n + 1) } := d.mport_modMport_self ..
  have hhist : hist = (d.mport s).errorLoads j := by
    unfold hist
    rw [hp]
    rfl
  have h2 : d2.mport s = { d.mport s with
      laneErr := modAt (d.mport s).laneErr j fun n => min 0xFFFF (n + 1),
      laneHist := (d.mport s).laneHist.set j ((d.mport s).errorLoads j) } := by
    rw [← hhist]
    unfold d2
    rw [Dev.mport_modMport_self, show d1.mport s = _ from hp]
  have hfree : (d2.mport s).SpareFree j := by
    rw [h2]
    exact ⟨h.ck1, h.temporary, h.idle, h.other⟩
  have hfails : d.par kMptPairErrLimit s ≤ hist.length ∧ !p.failedLanes.getLsbD j := by
    rw [hhist, hp]
    exact ⟨hlim, by simp [hf]⟩
  rw [if_neg (by omega : ¬ j = 32), if_pos hfails, Dev.laneFails_spare hfree]
  constructor
  · rw [Dev.mport_modMport_self]
    refine congrArg (fun q : MPort => q.takeSpare j) ?_
    unfold Dev.mport
    rw [(Dev.post_quiet ..).ports]
    refine (Pair.get_mod_self ..).trans ?_
    rw [show d2.ports.get s = _ from h2]
    rfl
  · refine Dev.only_then (Dev.modMport_only ..) (by decide) (Dev.only_then (Dev.post_only ..) (by decide)
      (Dev.only_then (Dev.modMport_only ..) (by decide) (Dev.only_then (Dev.modMport_only ..) (by decide) ?_)))
    exact (d.modMport_only ..).mono (by decide)

theorem MPort.takeSpare_asks (p : MPort) (j : Nat) :
    (p.takeSpare j).failedLanes = p.failedLanes ∧ (p.takeSpare j).sparePending = some j ∧
    (p.takeSpare j).queue.getLast?.map (fun f => (f.cmd, f.arg0)) = some (0x06, j) := by
  have hfailed : p.returnSpare.failedLanes = p.failedLanes := by
    unfold MPort.returnSpare
    extract_lets q
    split <;> rfl
  unfold MPort.takeSpare MPort.askSpare MPort.ask
  refine ⟨?_, rfl, by simp⟩
  dsimp only
  split
  · rfl
  · exact hfailed

theorem lanesResponse_spare {s : State} {sd : Side} {crcs : List Byte} {f : RbFrame} {l : Loaded} {j : Nat}
    (hs : s.dev.sides.contains sd.ix = true) (hr : s.dev.cal.run = none) (hp : (s.dev.mport sd.ix).pwrEn = true)
    (hw : rbWhole f 0x05 crcs = true) (ha : (s.dev.mport sd.ix).lanesAsked = true) (hl : s.dev.seq.checking.get sd.ix = some l)
    (hj : j < 32) (hone : ∀ i, i < 33 → (crcs.getD i 0 ≠ l.lanes.getD i 0 ↔ i = j))
    (hf : (s.dev.mport sd.ix).failedLanes.getLsbD j = false)
    (hlim : s.dev.par kMptPairErrLimit sd.ix ≤ ((s.dev.mport sd.ix).errorLoads j).length) (hfree : (s.dev.mport sd.ix).SpareFree j) :
    Runs (.lanesResponse sd crcs f) s [.prm, .host, .links, .ports] fun d =>
      (d.mport sd.ix).failedLanes = (s.dev.mport sd.ix).failedLanes ||| BitVec.ofNat 32 (2 ^ j) ∧
      (d.mport sd.ix).sparePending = some j ∧
      (d.mport sd.ix).queue.getLast?.map (fun f => (f.cmd, f.arg0)) = some (0x06, j) := by
  have ha' : ((s.dev.heard sd.ix 0 f).mport sd.ix).lanesAsked = true := by rw [Dev.heard_mport]; exact ha
  have htaken := s.dev.lanesTaken_heard_mport sd.ix f
  have herror : (s.dev.heard sd.ix 0 f).lanesIn sd.ix crcs = ((s.dev.heard sd.ix 0 f).lanesTaken sd.ix).laneError sd.ix j := by
    rw [Dev.lanesIn_asked crcs ha' hl, lanesDiffer_eq_singleton (by omega) hone]
    rfl
  obtain ⟨hport, honly⟩ := Dev.laneError_spare (d := (s.dev.heard sd.ix 0 f).lanesTaken sd.ix) (s := sd.ix) hj
    (by rw [htaken]; exact hf) (by rw [htaken]; exact hlim)
    (by rw [htaken]; exact ⟨hfree.ck1, hfree.temporary, hfree.idle, hfree.other⟩)
  obtain ⟨hfailed, hpending, hqueue⟩ :=
    ((((s.dev.heard sd.ix 0 f).lanesTaken sd.ix).mport sd.ix).laneLost j).takeSpare_asks j
  refine Runs.of_onResponse (exec_lanesResponse ..) hs hp hw ((Dev.lanesIn_calAdvance (d := s.dev.heard sd.ix 0 f) _ crcs hr).trans herror)
    (Dev.onlyChanges.trans ?_ honly) rfl ?_
  · exact (Dev.modMport_only ..).mono (by decide)
  · rw [hport]
    refine ⟨hfailed.trans ?_, hpending, hqueue⟩
    rw [htaken]
    rfl

theorem exec_lanesResponse_unasked {s : State} {sd : Side} {crcs : List Byte} {f : RbFrame}
    (hs : s.dev.sides.contains sd.ix = true) (hr : s.dev.cal.run = none) (hp : (s.dev.mport sd.ix).pwrEn = true)
    (hw : rbWhole f 0x05 crcs = true) (ha : (s.dev.mport sd.ix).lanesAsked = false) :
    exec (.lanesResponse sd crcs f) s = .next { s with dev := s.dev.heard sd.ix 0 f } :=
  exec_onResponse (exec_lanesResponse ..) hs hp hw ((Dev.lanesIn_calAdvance (d := s.dev.heard sd.ix 0 f) _ crcs hr).trans
    (Dev.lanesIn_unasked crcs (by rw [Dev.heard_mport]; exact ha)))

/-! ### STATUS (R252) -/

/-- With no run and no correction that waits, an idle gap of a port changes nothing. -/
theorem Dev.calGap_of_no_run {d : Dev} (s : Nat) (h : d.cal.run = none) (hi : d.cal.interp = []) : d.calGap s = d := by
  have ha : ∀ p, d.applyWaiting p = d := by
    intro p
    unfold Dev.applyWaiting
    simp only [h, hi, List.filter_nil, List.foldl_nil]
    rw [← h, ← hi]
  have hr : ∀ p, d.releaseCovers p = d := by
    intro p
    unfold Dev.releaseCovers
    rw [h]
  simp only [Dev.calGap, ha, hr, Dev.calAdvance_of_no_run h]

/-- A port in PARKED: nothing but SPARE frames waits. -/
def MPort.parked (p : MPort) : MPort :=
  { p.onlySpares with state := .parked, parkN := false, orderlyPark := false, unparkAcked := false }

/-- A port whose pairs have gone to the off level (R254). -/
def MPort.poweredDown (p : MPort) : MPort :=
  { p with
    state := .off, pairsOn := false, parkN := false, powerDownWanted := false, unparkAcked := false, orderlyPark := false,
    queue := [] }

/-- A power-down that waited for the port follows. -/
def MPort.thenDown (p : MPort) : MPort := if p.powerDownWanted then p.poweredDown else p

/-- What a port knows of its array. -/
def MPort.identity (p : MPort) : List Byte × Option Nat × Option (List Byte) × Word :=
  (p.arrayId, p.recordedGeom, p.heldIdent, p.arrayStatus)

theorem MPort.thenDown_state (p : MPort) : p.thenDown.state = if p.powerDownWanted then .off else p.state := by
  unfold MPort.thenDown
  split <;> rfl

theorem MPort.thenDown_parkN {p : MPort} (h : p.parkN = false) : p.thenDown.parkN = false := by
  unfold MPort.thenDown
  split
  · rfl
  · exact h

theorem MPort.thenDown_identity (p : MPort) : p.thenDown.identity = p.identity := by
  unfold MPort.thenDown
  split <;> rfl

/-- The time of PARK_N's fall does not bear on a power-down. -/
theorem MPort.thenDown_fell (p : MPort) (t : Nat) : { p with parkFell := t }.thenDown = { p.thenDown with parkFell := t } := by
  unfold MPort.thenDown
  split <;> rfl

/-- A power-down that waited for a port, at the end of an operation. -/
theorem Dev.thenDown_mport (d : Dev) (s : Nat) :
    ∃ t, (if (d.mport s).powerDownWanted then d.powerDownNow s else d).mport s = { (d.mport s).thenDown with parkFell := t } := by
  unfold MPort.thenDown
  split
  · exact d.mport_modMportEv_self s MPort.poweredDown
  · exact ⟨(d.mport s).parkFell, rfl⟩

theorem Dev.portParked_mport (d : Dev) (s : Nat) :
    ∃ t, (d.portParked s).mport s = { (d.mport s).parked.thenDown with parkFell := t } := by
  obtain ⟨t, ht⟩ := d.mport_modMportEv_self s MPort.parked
  obtain ⟨u, hu⟩ := (d.modMportEv s MPort.parked).thenDown_mport s
  refine ⟨u, hu.trans ?_⟩
  rw [ht, MPort.thenDown_fell]

theorem Dev.statusIn_still {d : Dev} {k : Nat} {status : Word} (h : (d.mport k).state ≠ .parking ∨ status.getLsbD 0 = false) :
    d.statusIn k status = d.modMport k fun p => { p with arrayStatus := status } := by
  unfold Dev.statusIn
  refine if_neg fun ⟨h1, h2⟩ => ?_
  rcases h with h | h
  · exact h h1
  · rw [h] at h2
    cases h2

theorem exec_statusResponse_still {s : State} {sd : Side} {status : Word} {f : RbFrame} (hs : s.dev.sides.contains sd.ix = true)
    (hp : (s.dev.mport sd.ix).pwrEn = true) (hw : rbWhole f 0x03 (leBytes 4 status.toNat) = true)
    (h : (s.dev.mport sd.ix).state ≠ .parking ∨ status.getLsbD 0 = false) :
    exec (.statusResponse sd status f) s = .next { s with
      dev := s.dev.modMport sd.ix fun p => { p with rseq := p.rseq.set 0 f.rseq, arrayStatus := status } } :=
  exec_onResponse (exec_statusResponse ..) hs hp hw
    ((Dev.statusIn_still (by rw [Dev.heard_mport]; exact h)).trans (Dev.modMport_modMport ..))

theorem statusResponse_parks {s : State} {sd : Side} {status : Word} {f : RbFrame} (hs : s.dev.sides.contains sd.ix = true)
    (hp : (s.dev.mport sd.ix).pwrEn = true) (hw : rbWhole f 0x03 (leBytes 4 status.toNat) = true)
    (hstate : (s.dev.mport sd.ix).state = .parking) (hbit : status.getLsbD 0 = true) (hr : s.dev.cal.run = none)
    (hi : s.dev.cal.interp = []) :
    Runs (.statusResponse sd status f) s [.core, .prm, .clk, .sluice, .host, .req, .links, .cmp, .seq, .cam, .ports, .lamp,
      .gov, .saf, .jnl, .upd, .cal] fun d => (d.mport sd.ix).arrayStatus = status ∧
      (d.mport sd.ix).parkN = false ∧
      (d.mport sd.ix).state = if (s.dev.mport sd.ix).powerDownWanted then .off else .parked := by
  refine Runs.of_onResponse (exec_statusResponse ..) hs hp hw rfl (Dev.statusIn_only ..) rfl ?_
  let d1 := (s.dev.heard sd.ix 0 f).modMport sd.ix fun p => { p with arrayStatus := status }
  have hport : d1.mport sd.ix = { s.dev.mport sd.ix with rseq := (s.dev.mport sd.ix).rseq.set 0 f.rseq, arrayStatus := status } := by
    rw [Dev.mport_modMport_self, Dev.heard_mport]
  have hcal : (d1.portParked sd.ix).cal = s.dev.cal := (d1.portParked_only sd.ix).part .cal rfl
  have hin : (s.dev.heard sd.ix 0 f).statusIn sd.ix status = (d1.portParked sd.ix).settle := by
    unfold Dev.statusIn
    rw [if_pos ⟨by rw [Dev.heard_mport]; exact hstate, hbit⟩,
      Dev.calGap_of_no_run (d := d1.portParked sd.ix) sd.ix (by rw [hcal]; exact hr) (by rw [hcal]; exact hi)]
  obtain ⟨t, ht⟩ := d1.portParked_mport sd.ix
  rw [hin, Dev.settle_mport, ht]
  refine ⟨?_, MPort.thenDown_parkN rfl, ?_⟩
  · have hid := congrArg (·.2.2.2) (d1.mport sd.ix).parked.thenDown_identity
    refine Eq.trans (hid :) ?_
    rw [hport]
    rfl
  · refine Eq.trans (MPort.thenDown_state ..) ?_
    rw [hport]
    rfl

/-! ### ACK and ERROR (R242) -/

theorem Dev.ackIn_unparked {d : Dev} {s cseq cmd : Nat} {q : MFrame}
    (hq : ((d.mport s).sent.find? fun f => f.cseq == cseq && f.cmd == cmd) = some q) (hc : cmd = 0x04)
    (hstate : (d.mport s).state = .unpark) : d.ackIn s cseq cmd = d.modMport s fun p => { p with unparkAcked := true } := by
  unfold Dev.ackIn
  dsimp only
  rw [hq]
  exact if_pos ⟨hc, hstate⟩

/-- The spare has taken its lane for good. -/
def Dev.spareTaken (d : Dev) (s lane : Nat) : Dev :=
  (d.modMport s fun p => { p with spareLane := lane, sparePermanent := true, sparePending := none }).post 0x0705 (lane + 256 * s)

theorem Dev.ackIn_taken {d : Dev} {s cseq cmd : Nat} {q : MFrame}
    (hq : ((d.mport s).sent.find? fun f => f.cseq == cseq && f.cmd == cmd) = some q) (hc : cmd = 0x06) (hlane : q.arg0 ≠ 0x3F)
    (hpend : (d.mport s).sparePending = some q.arg0) : d.ackIn s cseq cmd = d.spareTaken s q.arg0 := by
  subst hc
  unfold Dev.ackIn
  dsimp only
  rw [hq]
  dsimp only
  rw [if_neg (fun h => absurd h.1 (by decide)), if_pos rfl, if_neg hlane, if_pos hpend]
  rfl

theorem Dev.ackIn_unsent {d : Dev} {s cseq cmd : Nat}
    (hq : ((d.mport s).sent.find? fun f => f.cseq == cseq && f.cmd == cmd) = none) : d.ackIn s cseq cmd = d := by
  unfold Dev.ackIn
  dsimp only
  rw [hq]

theorem exec_ackResponse_unpark {s : State} {sd : Side} {cseq cmd : Nat} {f : RbFrame} {q : MFrame}
    (hs : s.dev.sides.contains sd.ix = true) (hp : (s.dev.mport sd.ix).pwrEn = true)
    (hw : rbWhole f 0x07 (leBytes 1 cseq ++ leBytes 1 cmd) = true)
    (hq : ((s.dev.mport sd.ix).sent.find? fun f => f.cseq == cseq && f.cmd == cmd) = some q) (hc : cmd = 0x04)
    (hstate : (s.dev.mport sd.ix).state = .unpark) :
    exec (.ackResponse sd cseq cmd f) s = .next { s with
      dev := s.dev.modMport sd.ix fun p => { p with rseq := p.rseq.set 0 f.rseq, unparkAcked := true } } :=
  exec_onResponse (exec_ackResponse ..) hs hp hw
    ((Dev.ackIn_unparked (by rw [Dev.heard_mport]; exact hq) hc (by rw [Dev.heard_mport]; exact hstate)).trans
      (Dev.modMport_modMport ..))

theorem ackResponse_spare {s : State} {sd : Side} {cseq cmd : Nat} {f : RbFrame} {q : MFrame}
    (hs : s.dev.sides.contains sd.ix = true) (hp : (s.dev.mport sd.ix).pwrEn = true)
    (hw : rbWhole f 0x07 (leBytes 1 cseq ++ leBytes 1 cmd) = true)
    (hq : ((s.dev.mport sd.ix).sent.find? fun f => f.cseq == cseq && f.cmd == cmd) = some q) (hc : cmd = 0x06)
    (hlane : q.arg0 ≠ 0x3F) (hpend : (s.dev.mport sd.ix).sparePending = some q.arg0) :
    Runs (.ackResponse sd cseq cmd f) s [.prm, .host, .links, .ports] fun d => (d.mport sd.ix).spareLane = q.arg0 ∧
      (d.mport sd.ix).sparePermanent = true ∧ (d.mport sd.ix).sparePending = none := by
  refine Runs.of_onResponse (exec_ackResponse ..) hs hp hw rfl (Dev.ackIn_only ..) rfl ?_
  rw [Dev.ackIn_taken (q := q) (by rw [Dev.heard_mport]; exact hq) hc hlane (by rw [Dev.heard_mport]; exact hpend)]
  have hports : ((s.dev.heard sd.ix 0 f).spareTaken sd.ix q.arg0).mport sd.ix =
      { (s.dev.heard sd.ix 0 f).mport sd.ix with spareLane := q.arg0, sparePermanent := true, sparePending := none } := by
    unfold Dev.mport Dev.spareTaken
    rw [(Dev.post_quiet ..).ports]
    exact Pair.get_mod_self ..
  rw [hports]
  exact ⟨rfl, rfl, rfl⟩

theorem exec_ackResponse_unsent {s : State} {sd : Side} {cseq cmd : Nat} {f : RbFrame}
    (hs : s.dev.sides.contains sd.ix = true) (hp : (s.dev.mport sd.ix).pwrEn = true)
    (hw : rbWhole f 0x07 (leBytes 1 cseq ++ leBytes 1 cmd) = true)
    (hq : ((s.dev.mport sd.ix).sent.find? fun f => f.cseq == cseq && f.cmd == cmd) = none) :
    exec (.ackResponse sd cseq cmd f) s = .next { s with dev := s.dev.heard sd.ix 0 f } :=
  exec_onResponse (exec_ackResponse ..) hs hp hw (Dev.ackIn_unsent (by rw [Dev.heard_mport]; exact hq))

theorem errorResponse_counts {s : State} {sd : Side} {cseq reason : Nat} {f : RbFrame} (hI : s.dev.Inv)
    (hs : s.dev.sides.contains sd.ix = true) (hp : (s.dev.mport sd.ix).pwrEn = true)
    (hw : rbWhole f 0x08 (leBytes 1 cseq ++ leBytes 1 reason) = true) :
    Runs (.errorResponse sd cseq reason f) s [.prm, .ports] fun d =>
      d.par kMptCmdErr sd.ix = satAdd 0xFFFFFFFF (s.dev.par kMptCmdErr sd.ix) 1 :=
  Runs.of_onResponse (exec_errorResponse ..) hs hp hw rfl ((Dev.count_only ..).mono (by decide)) rfl
    (Dev.par_count_self (d := s.dev.heard sd.ix 0 f) sd.ix 1 (by decide) hI.vals)

/-! ### Frame checks and telemetry -/

/-- Settles O53: each response by its rule; a failed check by what its side, its counter and its fault show. -/
theorem arrayPortChecks : Obligations.ArrayPortChecks := by
  unfold Obligations.ArrayPortChecks
  refine ⟨?_, ?_, ?_, ?_, ?_, ?_, ?_, ?_, ?_, ?_, ?_, ?_, ?_⟩
  · intro s sd f h entry crc crcs status cseq cmd reason payload tap errors
    exact exec_response_unpowered f h entry crc crcs status cseq cmd reason payload tap errors
  · intro s sd f
    exact ⟨fun _ _ => exec_onResponse_broken (exec_busCrcResponse ..), fun _ _ => exec_onResponse_broken (exec_cellCrcResponse ..),
      fun _ => exec_onResponse_broken (exec_lanesResponse ..), fun _ => exec_onResponse_broken (exec_statusResponse ..),
      fun _ _ => exec_onResponse_broken (exec_ackResponse ..), fun _ _ => exec_onResponse_broken (exec_errorResponse ..),
      fun _ => exec_onResponse_broken (exec_identResponse ..), fun _ _ => exec_onResponse_broken (exec_trainResultResponse ..)⟩
  · intro s sd entry crc f l hI hs hp hw ha he
    exact busCrcResponse_runs crc hI hs hp hw ha he
  · intro s sd entry crc f l hI hs hp hw ha he
    exact cellCrcResponse_runs crc hI hs hp hw ha he
  · intro s sd entry crc f hs hp hend hbeam
    exact ⟨exec_busCrcResponse_unawaited hs hp ⟨hend, hbeam⟩, exec_cellCrcResponse_unawaited hs hp ⟨hend, hbeam⟩⟩
  · intro s sd l hI hs
    exact ⟨busCrcTimeout_runs hI hs, cellCrcTimeout_runs hI hs, fun hend hbeam => exec_crcTimeout_idle ⟨hend, hbeam⟩⟩
  · intro s sd crcs f l hs hr hp hw ha hl hlen
    exact lanesResponse_counts hs hr hp hw ha hl hlen
  · intro s sd crcs f l j hs hr hp hw ha hl hj hone hf hlim hck htemp hidle hother
    exact lanesResponse_spare hs hr hp hw ha hl hj hone hf hlim ⟨hck, htemp, hidle, hother⟩
  · intro s sd crcs f hs hr hp hw ha
    exact exec_lanesResponse_unasked hs hr hp hw ha
  · intro s sd status f hs hp hw
    exact ⟨exec_statusResponse_still hs hp hw, statusResponse_parks hs hp hw⟩
  · intro s sd cseq cmd f q hs hp hw hq
    exact ⟨exec_ackResponse_unpark hs hp hw hq, ackResponse_spare hs hp hw hq⟩
  · intro s sd cseq cmd f hs hp hw hq
    exact exec_ackResponse_unsent hs hp hw hq
  · intro s sd cseq reason f hI hs hp hw
    exact errorResponse_counts hI hs hp hw

end Sys2Proof.Machine
end

section
/-! Power, recovery and faults of a mirror port (R252, R253, R254, R361). -/

namespace Sys2Proof.Machine

open Sys2Proof

/-! ### Commands by their effect -/

theorem exec_unparkSettled (sd : Side) (s : State) : exec (.unparkSettled sd) s = s.onPort sd fun d k =>
    if (d.mport k).state = .unpark ∧ (d.mport k).unparkAcked = true then
      (d.modMportEv k fun p => { p with state := .ready, unparkAcked := false }).releaseResetTicket
    else d := rfl
theorem exec_parkTimeout (sd : Side) (s : State) : exec (.parkTimeout sd) s = s.onPort sd fun d k =>
    if (d.mport k).state = .parking ∧ (d.mport k).parkN = false ∧ (d.mport k).parkFell + 2000 ≤ d.now then
      ((d.portParked k).raise 0x070A k (256 * k)).settle
    else d := rfl
theorem exec_powerDownStep (sd : Side) (s : State) : exec (.powerDownStep sd) s = s.onPort sd fun d k =>
    if ((d.mport k).state = .off ∨ (d.mport k).state = .absent) ∧ (d.mport k).pwrEn = true ∧ (d.mport k).pairsOn = false then
      (d.modMport k fun p => { p with pwrEn := false, pwrDwell := true }).settle
    else d := rfl
theorem exec_pwrEnLowDwellExpiry (sd : Side) (s : State) : exec (.pwrEnLowDwellExpiry sd) s = s.onPort sd fun d k =>
    if (d.mport k).pwrDwell ∧ !(d.mport k).pwrEn then d.dwellOver k else d := rfl
theorem exec_arrayFlt (sd : Side) (s : State) : exec (.arrayFlt sd) s = s.onPort sd fun d k =>
    if (d.mport k).state.beyondPower then ((((d.fltLow k).arrayFault k).judgeHeld).calAdvance).settle else d.fltLow k := rfl
theorem exec_arraySupplyGood (sd : Side) (rb0 rb1 : List Bool) (s : State) :
    exec (.arraySupplyGood sd rb0 rb1) s = s.onPort sd fun d k => if (d.mport k).pwrEn then
      (if (d.mport k).state = .power then d.startTrain k rb0 rb1 else d.modMport k fun p => { p with fltN := true }) else d := rfl
theorem exec_portPowerTimeout (sd : Side) (s : State) : exec (.portPowerTimeout sd) s = s.onPort sd fun d k =>
    if (d.mport k).state = .power then ((d.arrayFault k).judgeHeld).settle else d := rfl
theorem exec_portAbsent (sd : Side) (s : State) : exec (.portAbsent sd) s = s.onPort sd fun d k =>
    if k = 1 ∧ (d.mport k).state = .train ∧ (d.mport k).sweep = [] ∧ (d.mport k).firstSweep = [] then
      (d.modMportEv k fun p => { p with state := .absent, pairsOn := false, parkN := false, powerUpWanted := false }).settle
    else d := rfl
theorem exec_portTrainTimeout (sd : Side) (s : State) : exec (.portTrainTimeout sd) s = s.onPort sd fun d k =>
    if (d.mport k).state = .train then (d.failAndJudge k 0x0709 (256 * k)).settle else d := rfl
theorem exec_identNoResponse (sd : Side) (s : State) :
    exec (.identNoResponse sd) s = s.onPort sd fun d k => (d.identMissed k).settle := rfl

/-- The parts that what follows in STANDBY may change, with the ports. -/
def settledParts : List Part := [.core, .prm, .clk, .sluice, .host, .req, .links, .cmp, .seq, .cam, .ports, .lamp, .saf, .upd]

/-- A command that changes one port, and lets follow what may in STANDBY. -/
theorem Runs.of_settledPort {c : Instr} {s : State} {k : Nat} {g : MPort → MPort}
    (h : exec c s = .next { s with dev := (s.dev.modMport k g).settle }) :
    Runs c s settledParts fun d => d.ports = s.dev.ports.mod k g :=
  ⟨_, h, Dev.only_then (Dev.settle_only _) (by decide) ((Dev.modMport_only ..).mono (by decide)), (Dev.settle_only _).part .ports rfl⟩

/-! ### Release and park -/

theorem unparkSettled_runs {s : State} {sd : Side} (hs : s.dev.sides.contains sd.ix = true)
    (hstate : (s.dev.mport sd.ix).state = .unpark) (hack : (s.dev.mport sd.ix).unparkAcked = true) :
    Runs (.unparkSettled sd) s [.prm, .sluice, .host, .links, .ports, .lamp] fun d => (d.mport sd.ix).state = .ready ∧
      (d.mport sd.ix).unparkAcked = false := by
  refine Runs.of_onPort (exec_unparkSettled ..) hs (if_pos ⟨hstate, hack⟩)
    (Dev.only_then (Dev.releaseResetTicket_only _) (by decide) ((Dev.modMportEv_only ..).mono (by decide))) ?_
  have hports : ∀ e : Dev, e.releaseResetTicket.mport sd.ix = e.mport sd.ix := fun e =>
    congrArg (Pair.get · sd.ix) (e.releaseResetTicket_only.part .ports rfl)
  obtain ⟨t, ht⟩ := s.dev.mport_modMportEv_self sd.ix fun p => { p with state := .ready, unparkAcked := false }
  rw [hports, ht]
  exact ⟨rfl, rfl⟩

theorem exec_unparkSettled_idle {s : State} {sd : Side}
    (h : (s.dev.mport sd.ix).state ≠ .unpark ∨ (s.dev.mport sd.ix).unparkAcked = false) : exec (.unparkSettled sd) s = .next s :=
  exec_onPort_idle (exec_unparkSettled ..) (if_neg (by rintro ⟨h1, h2⟩; simp [h1, h2] at h))

/-- A port that has parked, or is powered down after it, is not released. -/
theorem MPort.thenDown_released {p : MPort} (h : p.released = false) : p.thenDown.released = false := by
  unfold MPort.thenDown
  split
  · rfl
  · exact h

/-- A fault finds a port that is not released as it is. -/
theorem Dev.KeepsArray.mport {a b : Dev} (h : a.KeepsArray b) {s : Nat} (hr : (a.mport s).released = false) : b.mport s = a.mport s :=
  (h.parks s).still hr

theorem parkTimeout_runs {s : State} {sd : Side} (hs : s.dev.sides.contains sd.ix = true)
    (hstate : (s.dev.mport sd.ix).state = .parking) (hpark : (s.dev.mport sd.ix).parkN = false)
    (ht : (s.dev.mport sd.ix).parkFell + 2000 ≤ s.dev.now) :
    Runs (.parkTimeout sd) s [.core, .prm, .clk, .sluice, .host, .req, .links, .cmp, .seq, .cam, .ports, .lamp, .gov, .saf,
      .jnl, .upd] fun d => (s.dev.mutedFault 0x070A sd.ix = false → d.faultActive 0x070A sd.ix = true) ∧
      (d.mport sd.ix).state = if (s.dev.mport sd.ix).powerDownWanted then .off else .parked := by
  have hparked := s.dev.portParked_only sd.ix
  refine Runs.of_onPort (exec_parkTimeout ..) hs (if_pos ⟨hstate, hpark, ht⟩) (Dev.only_then (Dev.settle_only _) (by decide)
    (Dev.only_then (Dev.raise_only ..) (by decide) (hparked.mono (by decide)))) ⟨fun hm => ?_, ?_⟩
  · refine (Dev.settle_keepsFaults _).active _ _ (Dev.raise_self _ _ (by decide) (Eq.trans ?_ hm))
    exact Dev.mutedFault_congr hparked.1 (hparked.part .core rfl) (congrArg Seq.change (hparked.part .seq rfl)) ..
  · obtain ⟨t, hport⟩ := s.dev.portParked_mport sd.ix
    have hstill : ((s.dev.portParked sd.ix).mport sd.ix).released = false := by
      rw [hport]
      exact MPort.thenDown_released (p := (s.dev.mport sd.ix).parked) rfl
    rw [Dev.settle_mport, (Dev.raise_keepsArray ..).mport hstill, hport]
    exact MPort.thenDown_state ..

theorem exec_parkTimeout_idle {s : State} {sd : Side} (h : (s.dev.mport sd.ix).state ≠ .parking ∨ (s.dev.mport sd.ix).parkN = true ∨
    s.dev.now < (s.dev.mport sd.ix).parkFell + 2000) : exec (.parkTimeout sd) s = .next s :=
  exec_onPort_idle (exec_parkTimeout ..) (if_neg (by
    rintro ⟨h1, h2, h3⟩
    rcases h with h | h | h
    · exact h h1
    · rw [h2] at h
      cases h
    · omega))

/-! ### Power (R253, R254) -/

theorem powerDownStep_runs {s : State} {sd : Side} (hs : s.dev.sides.contains sd.ix = true)
    (hstate : (s.dev.mport sd.ix).state = .off ∨ (s.dev.mport sd.ix).state = .absent) (hpwr : (s.dev.mport sd.ix).pwrEn = true)
    (hoff : (s.dev.mport sd.ix).pairsOn = false) :
    Runs (.powerDownStep sd) s settledParts fun d => d.ports = s.dev.ports.mod sd.ix fun p => { p with pwrEn := false, pwrDwell := true } :=
  Runs.of_settledPort (exec_onPort (exec_powerDownStep ..) hs (if_pos ⟨hstate, hpwr, hoff⟩))

theorem exec_powerDownStep_idle {s : State} {sd : Side}
    (h : (s.dev.mport sd.ix).pwrEn = false ∨ (s.dev.mport sd.ix).pairsOn = true) : exec (.powerDownStep sd) s = .next s :=
  exec_onPort_idle (exec_powerDownStep ..) (if_neg (by rintro ⟨-, h1, h2⟩; simp [h1, h2] at h))

/-- MAL_PWR_EN has been low for long enough. -/
theorem exec_pwrEnLowDwellExpiry_over {s : State} {sd : Side} {d : Dev} (hs : s.dev.sides.contains sd.ix = true)
    (hdwell : (s.dev.mport sd.ix).pwrDwell = true) (hpwr : (s.dev.mport sd.ix).pwrEn = false) (hd : s.dev.dwellOver sd.ix = d) :
    exec (.pwrEnLowDwellExpiry sd) s = .next { s with dev := d } :=
  exec_onPort (exec_pwrEnLowDwellExpiry ..) hs ((if_pos ⟨hdwell, by rw [hpwr]; rfl⟩).trans hd)

/-- The dwell of MAL_PWR_EN ends. -/
def Dev.dwellEnded (d : Dev) (k : Nat) : Dev := d.modMport k fun p => { p with pwrDwell := false }

theorem pwrEnLowDwellExpiry_powers {s : State} {sd : Side} (hs : s.dev.sides.contains sd.ix = true)
    (hdwell : (s.dev.mport sd.ix).pwrDwell = true) (hpwr : (s.dev.mport sd.ix).pwrEn = false)
    (hwant : (s.dev.mport sd.ix).powerUpWanted = true) (hstate : (s.dev.mport sd.ix).state = .off) :
    Runs (.pwrEnLowDwellExpiry sd) s [.prm, .host, .links, .ports, .saf] fun d => (d.mport sd.ix).state = .power ∧
      (d.mport sd.ix).pwrEn = true ∧ (d.mport sd.ix).parkN = false ∧ (d.mport sd.ix).pairsOn = true ∧
      (d.mport sd.ix).pwrDwell = false ∧ (d.mport sd.ix).failedLanes = 0 ∧ (d.mport sd.ix).spareLane = 0x3F := by
  refine ⟨_, exec_pwrEnLowDwellExpiry_over hs hdwell hpwr rfl, s.dev.dwellOver_only _, ?_⟩
  have hport : (s.dev.dwellEnded sd.ix).mport sd.ix = { s.dev.mport sd.ix with pwrDwell := false } := Dev.mport_modMport_self ..
  have hover : s.dev.dwellOver sd.ix = (s.dev.dwellEnded sd.ix).powerUpNow sd.ix :=
    if_pos (by rw [show ∀ k, s.dev.modMport k (fun p => { p with pwrDwell := false }) = s.dev.dwellEnded k from fun _ => rfl, hport]
               exact ⟨hwant, hstate⟩)
  have hclear : ∀ (e : Dev) k, (e.clearFault 0x0706 k).mport sd.ix = e.mport sd.ix := fun e k =>
    congrArg (Pair.get · sd.ix) ((e.clearFault_only _ _).part .ports rfl)
  rw [hover]
  unfold Dev.powerUpNow
  obtain ⟨t, ht⟩ := (s.dev.dwellEnded sd.ix).mport_modMportEv_self sd.ix fun p => { p with
    state := .power, pwrEn := true, parkN := false, fltN := false, pairsOn := true, powerUpWanted := false,
    powerDownWanted := false, identTries := 0, heldIdent := none, spareLane := 0x3F, sparePermanent := false,
    lane32Failed := false, sparePending := none, failedLanes := 0, laneErr := List.replicate 33 0,
    laneHist := List.replicate 32 [], sweep := [], firstSweep := [], lanesAsked := false, unparkAcked := false,
    orderlyPark := false, queue := [], told := 0x3F, spareAt := none, trial := [] }
  dsimp only
  rw [hclear, ht, hport]
  exact ⟨rfl, rfl, rfl, rfl, rfl, rfl, rfl⟩

theorem exec_pwrEnLowDwellExpiry_unwanted {s : State} {sd : Side} (hs : s.dev.sides.contains sd.ix = true)
    (hdwell : (s.dev.mport sd.ix).pwrDwell = true) (hpwr : (s.dev.mport sd.ix).pwrEn = false)
    (hwant : (s.dev.mport sd.ix).powerUpWanted = false) :
    exec (.pwrEnLowDwellExpiry sd) s = .next { s with dev := s.dev.dwellEnded sd.ix } := by
  refine exec_pwrEnLowDwellExpiry_over hs hdwell hpwr (if_neg fun h => ?_)
  rw [Dev.mport_modMport_self] at h
  rw [h.1] at hwant
  cases hwant

theorem exec_pwrEnLowDwellExpiry_idle {s : State} {sd : Side}
    (h : (s.dev.mport sd.ix).pwrDwell = false ∨ (s.dev.mport sd.ix).pwrEn = true) : exec (.pwrEnLowDwellExpiry sd) s = .next s :=
  exec_onPort_idle (exec_pwrEnLowDwellExpiry ..) (if_neg (by rintro ⟨h1, h2⟩; simp [h1] at h; simp [h] at h2))

/-- A sweep of the receive taps leaves TRAIN as the last frame that waits. -/
theorem MPort.askTrain_last (p : MPort) (taps : Nat) : (p.askTrain taps).queue.getLast?.map (·.cmd) = some 0x07 := by
  unfold MPort.askTrain MPort.ask
  simp

theorem arraySupplyGood_runs {s : State} {sd : Side} (hs : s.dev.sides.contains sd.ix = true)
    (hpwr : (s.dev.mport sd.ix).pwrEn = true) (hstate : (s.dev.mport sd.ix).state = .power) (rb0 rb1 : List Bool) :
    Runs (.arraySupplyGood sd rb0 rb1) s [.prm, .host, .links, .ports, .cal] fun d => (d.mport sd.ix).state = .train ∧
      (d.mport sd.ix).fltN = true ∧ (d.mport sd.ix).sweep = [] ∧ (d.mport sd.ix).queue.getLast?.map (·.cmd) = some 0x07 := by
  refine Runs.of_onPort (exec_arraySupplyGood ..) hs ((if_pos hpwr).trans (if_pos hstate)) (Dev.startTrain_only ..) ?_
  obtain ⟨t, ht⟩ := (s.dev.applyVal (pid kMptEyeMin sd.ix)).mport_modMportEv_self sd.ix fun p =>
    { p.askTrain rb0.length with state := .train, fltN := true, sweep := [], firstSweep := [] }
  have hport : (s.dev.startTrain sd.ix rb0 rb1).mport sd.ix = _ := ht
  rw [hport]
  exact ⟨rfl, rfl, rfl, MPort.askTrain_last ..⟩

theorem portAbsent_runs {s : State} {sd : Side} (hs : s.dev.sides.contains sd.ix = true) (hR : sd.ix = 1)
    (hstate : (s.dev.mport sd.ix).state = .train) (hsweep : (s.dev.mport sd.ix).sweep = [])
    (hfirst : (s.dev.mport sd.ix).firstSweep = []) :
    Runs (.portAbsent sd) s settledParts fun d => (d.mport sd.ix).state = .absent ∧ (d.mport sd.ix).pairsOn = false ∧
      (d.mport sd.ix).parkN = false := by
  refine Runs.of_onPort (exec_portAbsent ..) hs (if_pos ⟨hR, hstate, hsweep, hfirst⟩)
    (Dev.only_then (Dev.settle_only _) (by decide) ((Dev.modMportEv_only ..).mono (by decide))) ?_
  obtain ⟨t, ht⟩ := s.dev.mport_modMportEv_self sd.ix fun p =>
    { p with state := .absent, pairsOn := false, parkN := false, powerUpWanted := false }
  rw [Dev.settle_mport, ht]
  exact ⟨rfl, rfl, rfl⟩

/-- A port that is not in TRAIN is neither absent nor late. -/
theorem exec_train_idle {s : State} {sd : Side} (h : (s.dev.mport sd.ix).state ≠ .train) :
    exec (.portAbsent sd) s = .next s ∧ exec (.portTrainTimeout sd) s = .next s :=
  ⟨exec_onPort_idle (exec_portAbsent ..) (if_neg fun hc => h hc.2.1), exec_onPort_idle (exec_portTrainTimeout ..) (if_neg h)⟩

theorem exec_portPowerTimeout_idle {s : State} {sd : Side} (h : (s.dev.mport sd.ix).state ≠ .power) :
    exec (.portPowerTimeout sd) s = .next s :=
  exec_onPort_idle (exec_portPowerTimeout ..) (if_neg h)

/-- Before TRAIN a low MAL_FLT_N is noted only. -/
theorem exec_arrayFlt_noted {s : State} {sd : Side} (h : (s.dev.mport sd.ix).state.beyondPower = false)
    (hs : s.dev.sides.contains sd.ix = true) :
    exec (.arrayFlt sd) s = .next { s with dev := s.dev.modMport sd.ix fun p => { p with fltN := false } } :=
  exec_onPort (exec_arrayFlt ..) hs (if_neg (ne_true_of_eq_false h))

/-! ### A port fails (R361) -/

/-- A port in FAULT. -/
def MPort.failed (p : MPort) : MPort :=
  { p with
    state := .fault, parkN := false, orderlyPark := false, unparkAcked := false, lanesAsked := false, sparePending := none,
    queue := [] }

/-- The fault with SIDE that puts a port in FAULT, raised once the port is there. -/
def Dev.failRaised (d : Dev) (s code arg : Nat) : Dev :=
  ((d.modMportEv s MPort.failed).releaseResetTicket).raiseWith code s arg true false

theorem Dev.portFail_eq (d : Dev) (s code arg : Nat) : d.portFail s code arg =
    if ((d.failRaised s code arg).mport s).powerDownWanted then (d.failRaised s code arg).powerDownNow s
    else d.failRaised s code arg := rfl

/-- What follows the port's own change parks other ports at most. -/
theorem Dev.failRaised_keepsArray (d : Dev) (s code arg : Nat) : (d.modMportEv s MPort.failed).KeepsArray (d.failRaised s code arg) :=
  (Dev.releaseResetTicket_keepsArray _).trans (Dev.raiseWith_keepsArray ..)

theorem Dev.portFail_mport (d : Dev) (s code arg : Nat) :
    ∃ t, (d.portFail s code arg).mport s = { (d.mport s).failed.thenDown with parkFell := t } := by
  obtain ⟨t, ht⟩ := d.mport_modMportEv_self s MPort.failed
  obtain ⟨u, hu⟩ := (d.failRaised s code arg).thenDown_mport s
  refine ⟨u, hu.trans ?_⟩
  rw [(d.failRaised_keepsArray s code arg).mport (by rw [ht]; rfl), ht, MPort.thenDown_fell]

/-- The two numbers name the same side. -/
theorem Dev.mport_congr (d : Dev) {s k : Nat} (h : (s = 0) = (k = 0)) : d.mport k = d.mport s := by
  unfold Dev.mport Pair.get
  simp only [h]

/-- A failure of one port leaves what every port knows of its array. -/
theorem Dev.portFail_identity (d : Dev) (s code arg k : Nat) : ((d.portFail s code arg).mport k).identity = (d.mport k).identity := by
  by_cases h : (s = 0) = (k = 0)
  · rw [Dev.mport_congr _ h, Dev.mport_congr d h]
    obtain ⟨t, ht⟩ := d.portFail_mport s code arg
    rw [ht]
    exact (MPort.thenDown_identity _).trans rfl
  · have hfail : ((d.failRaised s code arg).mport k).identity = (d.mport k).identity := by
      have hrecord := congrArg MPort.identity ((d.failRaised_keepsArray s code arg).parks k).record
      rw [d.mport_modMportEv_ne _ h] at hrecord
      exact hrecord
    rw [Dev.portFail_eq]
    split
    · exact (congrArg MPort.identity (Dev.mport_modMportEv_ne _ _ h)).trans hfail
    · exact hfail

theorem Dev.powerDownNow_keepsFaults (d : Dev) (s : Nat) : d.KeepsFaults (d.powerDownNow s) :=
  (d.modMportEv_keepsChecks ..).toKeepsFaults

/-- From a to b the port of a side has failed with a fault. -/
structure Dev.PortFails (a b : Dev) (s code : Nat) : Prop where
  kept : a.KeepsFaults b
  raised : a.mutedFault code s = false → b.faultActive code s = true
  state : (b.mport s).state = if (a.mport s).powerDownWanted then .off else .fault
  parkN : (b.mport s).parkN = false

theorem Dev.portFail_fails (d : Dev) (s : Nat) {code : Nat} (arg : Nat) (hcode : (faultRow? code).isSome = true) :
    d.PortFails (d.portFail s code arg) s code := by
  obtain ⟨t, ht⟩ := d.portFail_mport s code arg
  have hdown : (d.failRaised s code arg).KeepsFaults (d.portFail s code arg) := by
    rw [Dev.portFail_eq]
    split
    · exact Dev.powerDownNow_keepsFaults ..
    · exact .refl _
  have hbefore : d.onlyChanges (d.modMportEv s MPort.failed).releaseResetTicket [.prm, .host, .links, .ports, .sluice, .lamp] :=
    Dev.only_then (Dev.releaseResetTicket_only _) (by decide) ((d.modMportEv_only ..).mono (by decide))
  refine ⟨?_, fun hm => hdown.active _ _ ?_, ?_, ?_⟩
  · exact ((d.modMportEv_keepsChecks s MPort.failed).toKeepsFaults.trans
      (d.failRaised_keepsArray s code arg).toKeepsFaults).trans hdown
  · refine Dev.raiseWith_self _ arg true false hcode (Eq.trans ?_ hm)
    exact Dev.mutedFault_congr hbefore.1 (hbefore.part .core rfl) (congrArg Seq.change (hbefore.part .seq rfl)) ..
  · rw [ht]
    exact MPort.thenDown_state ..
  · rw [ht]
    exact MPort.thenDown_parkN (p := (d.mport s).failed) rfl

theorem Dev.PortFails.settle {a b : Dev} {s code : Nat} (h : a.PortFails b s code) : a.PortFails b.settle s code :=
  ⟨h.kept.trans b.settle_keepsFaults, fun hm => b.settle_keepsFaults.active _ _ (h.raised hm),
    (congrArg MPort.state (b.settle_mport s)).trans h.state, (congrArg MPort.parkN (b.settle_mport s)).trans h.parkN⟩

/-- A held IDENT of side R is judged only where there is one (R255). -/
theorem Dev.judgeHeld_of_none {d : Dev} (h : (d.mport 1).heldIdent = none) : d.judgeHeld = d := by
  unfold Dev.judgeHeld
  rw [h]

theorem Dev.portFail_judgeHeld {d : Dev} (s code arg : Nat) (h : (d.mport 1).heldIdent = none) :
    (d.portFail s code arg).judgeHeld = d.portFail s code arg :=
  Dev.judgeHeld_of_none ((congrArg (·.2.2.1) (d.portFail_identity s code arg 1)).trans h)

/-! ### Commands that fail a port (R252) -/

/-- A command has failed the port of a side with a fault: what it leaves of the block before it. -/
def Dev.failsPort (a : Dev) (k code : Nat) (d : Dev) : Prop :=
  (a.mutedFault code k = false → d.faultActive code k = true) ∧
  (d.mport k).state = (if (a.mport k).powerDownWanted then .off else .fault) ∧ (d.mport k).parkN = false ∧
  (code = 0x0707 → d.par kMptFltCount k = satAdd 0xFFFF (a.par kMptFltCount k) 1) ∧
  (code = 0x0703 → d.par kMptRbTimeout k = satAdd 0xFFFFFFFF (a.par kMptRbTimeout k) 1)

/-- The parts that a failure of a port may change. -/
def failParts : List Part :=
  [.core, .prm, .clk, .sluice, .host, .req, .links, .cmp, .seq, .cam, .ports, .lamp, .gov, .saf, .jnl, .upd, .cal]

/-- A failure from a block b that differs from the one before the command by a counter, and in its port by what does not bear on a
power-down. -/
theorem Dev.PortFails.failsPort {a b c : Dev} {k code : Nat} (h : b.PortFails c k code) (hab : a.onlyChanges b [.prm, .ports])
    (hdown : (b.mport k).powerDownWanted = (a.mport k).powerDownWanted)
    (hflt : code = 0x0707 → c.par kMptFltCount k = satAdd 0xFFFF (a.par kMptFltCount k) 1)
    (hrb : code = 0x0703 → c.par kMptRbTimeout k = satAdd 0xFFFFFFFF (a.par kMptRbTimeout k) 1) : a.failsPort k code c := by
  refine ⟨fun hm => h.raised (Eq.trans ?_ hm), ?_, h.parkN, hflt, hrb⟩
  · exact Dev.mutedFault_congr hab.1 (hab.part .core rfl) (congrArg Seq.change (hab.part .seq rfl)) ..
  · rw [h.state, hdown]

theorem Dev.portFail_settle_only {a b : Dev} (s code arg : Nat) (h : a.onlyChanges b [.prm, .ports]) :
    a.onlyChanges (b.portFail s code arg).settle failParts :=
  Dev.only_then (Dev.settle_only _) (by decide) (Dev.only_then (Dev.portFail_only ..) (by decide) (h.mono (by decide)))

/-- ARRAY_FLT counts, and fails its port. -/
theorem Dev.arrayFault_failsPort {a b : Dev} {sd : Side} (hI : a.Inv) (hab : a.onlyChanges b [.ports])
    (hdown : (b.mport sd.ix).powerDownWanted = (a.mport sd.ix).powerDownWanted) :
    a.failsPort sd.ix 0x0707 (b.arrayFault sd.ix).settle := by
  obtain ⟨h7, h8⟩ := mirrorPid (key := kMptFltCount) sd (by decide) (by decide)
  have hcount : b.onlyChanges (b.count kMptFltCount sd.ix 1) [.prm] := b.count_only ..
  have hfail := ((b.count kMptFltCount sd.ix 1).portFail_fails sd.ix (256 * sd.ix) (code := 0x0707) (by decide)).settle
  have hvals : kvSorted b.prm.vals = true := by
    rw [hab.part .prm rfl]
    exact hI.vals
  refine hfail.failsPort (Dev.only_then hcount (by decide) (hab.mono (by decide))) ?_ (fun _ => ?_) (fun h => absurd h (by decide))
  · exact hdown
  · exact (hfail.kept.par h7 h8).trans ((Dev.par_count_self (t := 0xFFFF) sd.ix 1 (by decide) hvals).trans (by rw [hab.par rfl]))

theorem arrayFlt_fails {s : State} {sd : Side} (hI : s.dev.Inv) (hs : s.dev.sides.contains sd.ix = true)
    (hheld : (s.dev.mport 1).heldIdent = none) (hstate : (s.dev.mport sd.ix).state.beyondPower = true) (hr : s.dev.cal.run = none) :
    Runs (.arrayFlt sd) s failParts (s.dev.failsPort sd.ix 0x0707) := by
  have hlow : s.dev.onlyChanges (s.dev.fltLow sd.ix) [.ports] := s.dev.fltLow_only _
  have hheld' : ((s.dev.fltLow sd.ix).mport 1).heldIdent = none :=
    (Dev.modMport_keeps (g := MPort.heldIdent) (f := fun p => { p with fltN := false }) (fun _ => rfl) ..).trans hheld
  have hjudge : ((s.dev.fltLow sd.ix).arrayFault sd.ix).judgeHeld = (s.dev.fltLow sd.ix).arrayFault sd.ix :=
    Dev.portFail_judgeHeld (d := (s.dev.fltLow sd.ix).count kMptFltCount sd.ix 1) sd.ix 0x0707 (256 * sd.ix) hheld'
  have hcal : ((s.dev.fltLow sd.ix).arrayFault sd.ix).calAdvance = (s.dev.fltLow sd.ix).arrayFault sd.ix :=
    Dev.calAdvance_of_no_run (by rw [(Dev.arrayFault_only ..).part .cal rfl]; exact hr)
  refine Runs.of_onPort (d := ((s.dev.fltLow sd.ix).arrayFault sd.ix).settle) (exec_arrayFlt ..) hs
    ((if_pos hstate).trans (by rw [hjudge, hcal])) ?_ ?_
  · exact Dev.portFail_settle_only _ _ _ (Dev.only_then (Dev.count_only ..) (by decide) (hlow.mono (by decide)))
  · exact Dev.arrayFault_failsPort hI hlow (Dev.modMport_keeps (g := MPort.powerDownWanted)
      (f := fun p => { p with fltN := false }) (fun _ => rfl) ..)

theorem portPowerTimeout_fails {s : State} {sd : Side} (hI : s.dev.Inv) (hs : s.dev.sides.contains sd.ix = true)
    (hheld : (s.dev.mport 1).heldIdent = none) (hstate : (s.dev.mport sd.ix).state = .power) :
    Runs (.portPowerTimeout sd) s failParts (s.dev.failsPort sd.ix 0x0707) := by
  have hjudge : (s.dev.arrayFault sd.ix).judgeHeld = s.dev.arrayFault sd.ix :=
    Dev.portFail_judgeHeld (d := s.dev.count kMptFltCount sd.ix 1) sd.ix 0x0707 (256 * sd.ix) hheld
  refine Runs.of_onPort (d := (s.dev.arrayFault sd.ix).settle) (exec_portPowerTimeout ..) hs
    ((if_pos hstate).trans (by rw [hjudge])) ?_ (Dev.arrayFault_failsPort hI (s.dev.only_refl _) rfl)
  exact Dev.portFail_settle_only _ _ _ ((Dev.count_only ..).mono (by decide))

theorem portTrainTimeout_fails {s : State} {sd : Side} (hs : s.dev.sides.contains sd.ix = true)
    (hheld : (s.dev.mport 1).heldIdent = none) (hstate : (s.dev.mport sd.ix).state = .train) :
    Runs (.portTrainTimeout sd) s failParts (s.dev.failsPort sd.ix 0x0709) := by
  have hjudge : s.dev.failAndJudge sd.ix 0x0709 (256 * sd.ix) = s.dev.portFail sd.ix 0x0709 (256 * sd.ix) :=
    Dev.portFail_judgeHeld _ _ _ hheld
  refine Runs.of_onPort (exec_portTrainTimeout ..) hs ((if_pos hstate).trans (by rw [hjudge]))
    (Dev.portFail_settle_only _ _ _ (s.dev.only_refl _)) ?_
  exact ((s.dev.portFail_fails sd.ix (256 * sd.ix) (by decide)).settle).failsPort (s.dev.only_refl _) rfl
    (fun h => absurd h (by decide)) (fun h => absurd h (by decide))

/-- A request for IDENT without a response is counted, in the port too. -/
def Dev.identCounted (d : Dev) (s : Nat) : Dev :=
  (d.count kMptRbTimeout s 1).modMport s fun p => { p with identTries := p.identTries + 1 }

theorem Dev.identMissed_eq {d : Dev} {s : Nat} (hstate : (d.mport s).state = .ident) (hheld : (d.mport s).heldIdent = none) :
    d.identMissed s = if 3 ≤ (d.mport s).identTries + 1 then
      (d.identCounted s).failAndJudge s 0x0703 (0x7FF + 0x800 * s + 0x1000 * 4)
    else (d.identCounted s).modMport s fun p => p.ask 0x08 0 0 := by
  unfold Dev.identMissed
  exact if_neg (by simp [hstate, hheld])

theorem Dev.identCounted_only (d : Dev) (s : Nat) : d.onlyChanges (d.identCounted s) [.prm, .ports] :=
  Dev.only_then (Dev.modMport_only ..) (by decide) ((d.count_only ..).mono (by decide))

theorem Dev.identCounted_keeps {α : Type} {g : MPort → α} (hg : ∀ p n, g { p with identTries := n } = g p) (d : Dev) (s j : Nat) :
    g ((d.identCounted s).mport j) = g (d.mport j) :=
  Dev.modMport_keeps (f := fun p => { p with identTries := p.identTries + 1 }) (fun _ => hg ..) (d.count kMptRbTimeout s 1) ..

theorem identNoResponse_fails {s : State} {sd : Side} (hI : s.dev.Inv) (hs : s.dev.sides.contains sd.ix = true)
    (hheld : (s.dev.mport 1).heldIdent = none) (hstate : (s.dev.mport sd.ix).state = .ident)
    (hown : (s.dev.mport sd.ix).heldIdent = none) (htries : 2 ≤ (s.dev.mport sd.ix).identTries) :
    Runs (.identNoResponse sd) s failParts (s.dev.failsPort sd.ix 0x0703) := by
  obtain ⟨h7, h8⟩ := mirrorPid (key := kMptRbTimeout) sd (by decide) (by decide)
  have hheld' : ((s.dev.identCounted sd.ix).mport 1).heldIdent = none :=
    (s.dev.identCounted_keeps (g := MPort.heldIdent) (fun _ _ => rfl) ..).trans hheld
  have hmissed : s.dev.identMissed sd.ix = (s.dev.identCounted sd.ix).portFail sd.ix 0x0703 (0x7FF + 0x800 * sd.ix + 0x1000 * 4) := by
    rw [Dev.identMissed_eq hstate hown, if_pos (by omega)]
    exact Dev.portFail_judgeHeld _ _ _ hheld'
  have hfail := ((s.dev.identCounted sd.ix).portFail_fails sd.ix (0x7FF + 0x800 * sd.ix + 0x1000 * 4) (code := 0x0703) (by decide)).settle
  refine Runs.of_onPort (exec_identNoResponse ..) hs (by rw [hmissed]) (Dev.portFail_settle_only _ _ _ (s.dev.identCounted_only _)) ?_
  refine hfail.failsPort (s.dev.identCounted_only _) ?_ (fun h => absurd h (by decide)) (fun _ => ?_)
  · exact s.dev.identCounted_keeps (g := MPort.powerDownWanted) (fun _ _ => rfl) ..
  · exact (hfail.kept.par h7 h8).trans (Dev.par_count_self sd.ix 1 (by decide) hI.vals)

theorem identNoResponse_asks {s : State} {sd : Side} (hs : s.dev.sides.contains sd.ix = true)
    (hstate : (s.dev.mport sd.ix).state = .ident) (hown : (s.dev.mport sd.ix).heldIdent = none)
    (htries : (s.dev.mport sd.ix).identTries < 2) :
    Runs (.identNoResponse sd) s [.core, .prm, .clk, .sluice, .host, .req, .links, .cmp, .seq, .cam, .ports, .lamp, .gov, .saf,
      .jnl, .upd] fun d => (d.mport sd.ix).state = .ident ∧
      (d.mport sd.ix).identTries = (s.dev.mport sd.ix).identTries + 1 ∧ (d.mport sd.ix).queue.getLast?.map (·.cmd) = some 0x08 := by
  have hmissed : s.dev.identMissed sd.ix = (s.dev.identCounted sd.ix).modMport sd.ix fun p => p.ask 0x08 0 0 := by
    rw [Dev.identMissed_eq hstate hown, if_neg (by omega)]
  have hport : (s.dev.identCounted sd.ix).mport sd.ix =
      { s.dev.mport sd.ix with identTries := (s.dev.mport sd.ix).identTries + 1 } := Dev.mport_modMport_self ..
  refine Runs.of_onPort (exec_identNoResponse ..) hs (by rw [hmissed]) ?_ ?_
  · exact Dev.only_then (Dev.settle_only _) (by decide) (Dev.only_then (Dev.modMport_only ..) (by decide)
      ((s.dev.identCounted_only _).mono (by decide)))
  · rw [Dev.settle_mport, Dev.mport_modMport_self, hport]
    exact ⟨hstate, rfl, by simp [MPort.ask]⟩

end Sys2Proof.Machine
end

section
/-! Training, identity and release from park of a mirror port (R248, R249, R251, R253, R255), and the statement on its power
(O54). -/

namespace Sys2Proof.Machine

open Sys2Proof

/-- What does not read the RSEQs is the same after a response. -/
theorem Dev.heard_keeps {α : Type} {g : MPort → α} (hg : ∀ p r, g { p with rseq := r } = g p) (d : Dev) (k pair : Nat) (f : RbFrame)
    (j : Nat) : g ((d.heard k pair f).mport j) = g (d.mport j) :=
  Dev.modMport_keeps (fun _ => hg ..) ..

/-! ### Training (R248, R249) -/

/-- The result of a tap joins the sweep. -/
def Dev.swept (d : Dev) (s : Nat) (errors : List Nat) : Dev := d.modMport s fun p => { p with sweep := errors :: p.sweep }

/-- A result that neither the sweep nor a trial awaits says nothing. -/
theorem Dev.trainResult_idle {d : Dev} {s tap : Nat} (errors : List Nat) (hr : (d.mport s).state ≠ .ready)
    (h : (d.mport s).state ≠ .train ∨ tap ≠ (d.mport s).sweep.length) : d.trainResult s tap errors = d :=
  (if_neg hr).trans (if_pos h)

theorem Dev.trainResult_trial {d : Dev} {s tap k : Nat} (errors : List Nat) (hr : (d.mport s).state = .ready)
    (hk : (d.mport s).covered = some k) (ht : tap = (d.trialTaps s k).1 + (d.mport s).trial.length) (hle : tap ≤ (d.trialTaps s k).2) :
    d.trainResult s tap errors = d.modMport s fun p => { p with trial := (errors.getD k 255 == 0) :: p.trial } := by
  refine (if_pos hr).trans ?_
  unfold Dev.trialResult
  rw [hk]
  exact if_pos ⟨ht, hle⟩

theorem Dev.trainResult_swept {d : Dev} {s tap : Nat} (errors : List Nat) (hs : (d.mport s).state = .train)
    (ht : tap = (d.mport s).sweep.length) :
    d.trainResult s tap errors = if 128 ≤ tap + 1 then (d.swept s errors).trainDone s else d.swept s errors := by
  subst ht
  exact (if_neg (by simp [hs])).trans (if_neg (by simp [hs]))

/-- The first sweep of BOOT is over. -/
theorem Dev.trainDone_first {d : Dev} {s : Nat} (hb : d.core.state = .boot) (hf : (d.mport s).firstSweep = []) :
    d.trainDone s = d.modMport s fun p => { p with firstSweep := sweepRuns (d.mport s).sweep, sweep := [] } :=
  if_pos ⟨hb, by rw [hf]; rfl⟩

/-- The lanes whose eye is short of EYE_MIN (R249). -/
def Dev.shortLanes (d : Dev) (s : Nat) (runs : List (Nat × Nat)) : List Nat :=
  (List.range 33).filter fun j => decide ((runs.getD j (0, d.par kMptEyeMin s)).2 < d.par kMptEyeMin s)

/-- The sweep stops. -/
def Dev.sweepOver (d : Dev) (s : Nat) : Dev := d.modMport s fun p => p.ask 0x07 0 0

/-- Identification follows training. -/
def MPort.toIdent (p : MPort) : MPort := { (p.ask 0x08 0 0) with state := .ident, identTries := 0, sweep := [], firstSweep := [] }

/-- The one sweep outside BOOT is over. -/
theorem Dev.trainDone_last {d : Dev} {s : Nat} (hb : d.core.state ≠ .boot) (hf : (d.mport s).firstSweep = []) :
    d.trainDone s = if 2 ≤ (d.shortLanes s (sweepRuns (d.mport s).sweep)).length then (d.sweepOver s).failAndJudge s 0x0709 (256 * s)
      else (((d.sweepOver s).setTaps s [] (sweepRuns (d.mport s).sweep)).assignLanes s
        (d.shortLanes s (sweepRuns (d.mport s).sweep))).modMportEv s MPort.toIdent := by
  have hbad : ((List.range 33).filter fun k =>
      decide (((sweepRuns (d.mport s).sweep).getD k (0, d.par kMptEyeMin s)).2 < d.par kMptEyeMin s) ||
        decide ((([] : List (Nat × Nat)).getD k (0, d.par kMptEyeMin s)).2 < d.par kMptEyeMin s)) =
      d.shortLanes s (sweepRuns (d.mport s).sweep) :=
    List.filter_congr fun k _ => by simp
  refine (if_neg fun h => hb h.1).trans ?_
  dsimp only
  rw [hf, hbad]
  rfl

/-- A port to which the assignment of R249 is made. -/
def MPort.assigned (p : MPort) (bad : List Nat) : MPort :=
  match bad with
  | [k] => if k = 32 then { p with lane32Failed := true } else { (p.ask 0x06 k 0) with spareLane := k, sparePermanent := true }
  | _ => p

theorem Dev.assignLanes_mport (d : Dev) (s : Nat) (bad : List Nat) : (d.assignLanes s bad).mport s = (d.mport s).assigned bad := by
  match bad with
  | [] => rfl
  | [k] =>
    unfold Dev.assignLanes MPort.assigned
    dsimp only
    split
    · exact d.mport_modMport_self ..
    · exact d.mport_modMport_self ..
  | _ :: _ :: _ => rfl

section
variable {s : State} {sd : Side} {tap : Nat} {errors : List Nat} {f : RbFrame}

/-- A result that is swept, as the last or not. -/
theorem trainResult_heard (hstate : (s.dev.mport sd.ix).state = .train) (ht : tap = (s.dev.mport sd.ix).sweep.length) :
    (s.dev.heard sd.ix 1 f).trainResult sd.ix tap errors = if 128 ≤ tap + 1
      then ((s.dev.heard sd.ix 1 f).swept sd.ix errors).trainDone sd.ix else (s.dev.heard sd.ix 1 f).swept sd.ix errors :=
  Dev.trainResult_swept errors (by rw [Dev.heard_mport]; exact hstate) (by rw [Dev.heard_mport]; exact ht)

theorem trainResultResponse_idle (hs : s.dev.sides.contains sd.ix = true) (hp : (s.dev.mport sd.ix).pwrEn = true)
    (hw : rbWhole f 0x06 (leList 1 errors) = true) (hr : (s.dev.mport sd.ix).state ≠ .ready)
    (h : (s.dev.mport sd.ix).state ≠ .train ∨ tap ≠ (s.dev.mport sd.ix).sweep.length) :
    Runs (.trainResultResponse sd tap errors f) s settledParts fun d =>
      d.ports = s.dev.ports.mod sd.ix fun p => { p with rseq := p.rseq.set 1 f.rseq } := by
  refine Runs.of_settledPort (exec_onResponse (exec_trainResultResponse ..) hs hp hw (congrArg Dev.settle ?_))
  exact Dev.trainResult_idle (d := s.dev.heard sd.ix 1 f) errors (by rw [Dev.heard_mport]; exact hr) (by rw [Dev.heard_mport]; exact h)

theorem trainResultResponse_trial {k : Nat} (hs : s.dev.sides.contains sd.ix = true) (hp : (s.dev.mport sd.ix).pwrEn = true)
    (hw : rbWhole f 0x06 (leList 1 errors) = true) (hr : (s.dev.mport sd.ix).state = .ready)
    (hk : (s.dev.mport sd.ix).covered = some k) (ht : tap = (s.dev.trialTaps sd.ix k).1 + (s.dev.mport sd.ix).trial.length)
    (hle : tap ≤ (s.dev.trialTaps sd.ix k).2) :
    Runs (.trainResultResponse sd tap errors f) s settledParts fun d => d.ports = s.dev.ports.mod sd.ix fun p => { p with
      rseq := p.rseq.set 1 f.rseq, trial := (errors.getD k 255 == 0) :: p.trial } := by
  refine Runs.of_settledPort (exec_onResponse (exec_trainResultResponse ..) hs hp hw (congrArg Dev.settle ?_))
  refine (Dev.trainResult_trial (d := s.dev.heard sd.ix 1 f) errors ?_ ?_ ?_ hle).trans (Dev.modMport_modMport ..)
  · rw [Dev.heard_mport]
    exact hr
  · rw [Dev.heard_mport]
    exact hk
  · rw [Dev.heard_mport]
    exact ht

theorem trainResultResponse_tap (hs : s.dev.sides.contains sd.ix = true) (hp : (s.dev.mport sd.ix).pwrEn = true)
    (hw : rbWhole f 0x06 (leList 1 errors) = true) (hstate : (s.dev.mport sd.ix).state = .train)
    (ht : tap = (s.dev.mport sd.ix).sweep.length) (h127 : tap < 127) :
    Runs (.trainResultResponse sd tap errors f) s settledParts fun d =>
      d.ports = s.dev.ports.mod sd.ix fun p => { p with rseq := p.rseq.set 1 f.rseq, sweep := errors :: p.sweep } := by
  refine Runs.of_settledPort (exec_onResponse (exec_trainResultResponse ..) hs hp hw (congrArg Dev.settle ?_))
  rw [trainResult_heard hstate ht, if_neg (by omega)]
  exact Dev.modMport_modMport ..

theorem swept_heard_mport (s : State) (sd : Side) (errors : List Nat) (f : RbFrame) :
    ((s.dev.heard sd.ix 1 f).swept sd.ix errors).mport sd.ix = { s.dev.mport sd.ix with
      rseq := (s.dev.mport sd.ix).rseq.set 1 f.rseq, sweep := errors :: (s.dev.mport sd.ix).sweep } := by
  rw [Dev.swept, Dev.mport_modMport_self, Dev.heard_mport]

theorem trainResultResponse_firstSweep (hs : s.dev.sides.contains sd.ix = true) (hp : (s.dev.mport sd.ix).pwrEn = true)
    (hw : rbWhole f 0x06 (leList 1 errors) = true) (hstate : (s.dev.mport sd.ix).state = .train)
    (ht : tap = (s.dev.mport sd.ix).sweep.length) (h127 : 127 ≤ tap) (hb : s.dev.core.state = .boot)
    (hf : (s.dev.mport sd.ix).firstSweep = []) :
    Runs (.trainResultResponse sd tap errors f) s settledParts fun d => d.ports = s.dev.ports.mod sd.ix fun p => { p with
      rseq := p.rseq.set 1 f.rseq, firstSweep := sweepRuns (errors :: (s.dev.mport sd.ix).sweep), sweep := [] } := by
  refine Runs.of_settledPort (exec_onResponse (exec_trainResultResponse ..) hs hp hw (congrArg Dev.settle ?_))
  rw [trainResult_heard hstate ht, if_pos (by omega),
    Dev.trainDone_first (d := (s.dev.heard sd.ix 1 f).swept sd.ix errors) hb (by rw [swept_heard_mport]; exact hf), swept_heard_mport]
  exact (Dev.modMport_modMport ..).trans (Dev.modMport_modMport ..)

/-- The last result of the one sweep outside BOOT. -/
theorem trainResult_last (hstate : (s.dev.mport sd.ix).state = .train) (ht : tap = (s.dev.mport sd.ix).sweep.length) (h127 : 127 ≤ tap)
    (hb : s.dev.core.state ≠ .boot) (hf : (s.dev.mport sd.ix).firstSweep = []) :
    (s.dev.heard sd.ix 1 f).trainResult sd.ix tap errors =
      if 2 ≤ (s.dev.shortLanes sd.ix (sweepRuns (errors :: (s.dev.mport sd.ix).sweep))).length then
        (((s.dev.heard sd.ix 1 f).swept sd.ix errors).sweepOver sd.ix).failAndJudge sd.ix 0x0709 (256 * sd.ix)
      else (((((s.dev.heard sd.ix 1 f).swept sd.ix errors).sweepOver sd.ix).setTaps sd.ix []
        (sweepRuns (errors :: (s.dev.mport sd.ix).sweep))).assignLanes sd.ix
          (s.dev.shortLanes sd.ix (sweepRuns (errors :: (s.dev.mport sd.ix).sweep)))).modMportEv sd.ix MPort.toIdent := by
  rw [trainResult_heard hstate ht, if_pos (by omega),
    Dev.trainDone_last (d := (s.dev.heard sd.ix 1 f).swept sd.ix errors) hb (by rw [swept_heard_mport]; exact hf), swept_heard_mport]
  rfl

theorem trainResultResponse_fails (hs : s.dev.sides.contains sd.ix = true) (hp : (s.dev.mport sd.ix).pwrEn = true)
    (hw : rbWhole f 0x06 (leList 1 errors) = true) (hstate : (s.dev.mport sd.ix).state = .train)
    (ht : tap = (s.dev.mport sd.ix).sweep.length) (h127 : 127 ≤ tap) (hb : s.dev.core.state ≠ .boot)
    (hf : (s.dev.mport sd.ix).firstSweep = []) (hheld : (s.dev.mport 1).heldIdent = none)
    (h2 : 2 ≤ (s.dev.shortLanes sd.ix (sweepRuns (errors :: (s.dev.mport sd.ix).sweep))).length) :
    Runs (.trainResultResponse sd tap errors f) s failParts (s.dev.failsPort sd.ix 0x0709) := by
  let b := ((s.dev.heard sd.ix 1 f).swept sd.ix errors).sweepOver sd.ix
  have honly : s.dev.onlyChanges b [.ports] := Dev.only_then (Dev.modMport_only ..) (by decide)
    (Dev.only_then (Dev.modMport_only ..) (by decide) (s.dev.heard_only ..))
  have hkeep : ∀ {α : Type} (g : MPort → α), (∀ p r, g { p with rseq := r } = g p) → (∀ p l, g { p with sweep := l } = g p) →
      (∀ p q, g { p with queue := q } = g p) → ∀ k, g (b.mport k) = g (s.dev.mport k) := fun g hr hl hq k =>
    (Dev.modMport_keeps (fun _ => hq ..) ..).trans ((Dev.modMport_keeps (fun _ => hl ..) ..).trans
      (s.dev.heard_keeps hr ..))
  refine Runs.of_onResponse (d := (b.portFail sd.ix 0x0709 (256 * sd.ix)).settle) (exec_trainResultResponse ..) hs hp hw ?_
    (Dev.portFail_settle_only _ _ _ ?_) rfl ?_
  · rw [trainResult_last hstate ht h127 hb hf, if_pos h2]
    exact congrArg Dev.settle (Dev.portFail_judgeHeld _ _ _
      ((hkeep MPort.heldIdent (fun _ _ => rfl) (fun _ _ => rfl) (fun _ _ => rfl) 1).trans hheld))
  · exact Dev.only_then (Dev.modMport_only ..) (by decide) ((Dev.modMport_only ..).mono (by decide))
  · exact (b.portFail_fails sd.ix (256 * sd.ix) (by decide)).settle.failsPort (honly.mono (by decide))
      (hkeep MPort.powerDownWanted (fun _ _ => rfl) (fun _ _ => rfl) (fun _ _ => rfl) sd.ix)
      (fun h => absurd h (by decide)) (fun h => absurd h (by decide))

/-- With one short lane at most the port goes to IDENT: CK1 has failed, or the spare takes the data lane over. -/
theorem trainResultResponse_identifies (hs : s.dev.sides.contains sd.ix = true) (hp : (s.dev.mport sd.ix).pwrEn = true)
    (hw : rbWhole f 0x06 (leList 1 errors) = true) (hstate : (s.dev.mport sd.ix).state = .train)
    (ht : tap = (s.dev.mport sd.ix).sweep.length) (h127 : 127 ≤ tap) (hb : s.dev.core.state ≠ .boot)
    (hf : (s.dev.mport sd.ix).firstSweep = [])
    (h1 : ¬ 2 ≤ (s.dev.shortLanes sd.ix (sweepRuns (errors :: (s.dev.mport sd.ix).sweep))).length) :
    Runs (.trainResultResponse sd tap errors f) s failParts fun d => ∃ p : MPort, ∃ t, d.mport sd.ix =
      { (p.assigned (s.dev.shortLanes sd.ix (sweepRuns (errors :: (s.dev.mport sd.ix).sweep)))).toIdent with parkFell := t } := by
  refine Runs.of_onResponse (exec_trainResultResponse ..) hs hp hw rfl
    (Dev.only_then (Dev.settle_only _) (by decide) ((Dev.trainResult_only ..).mono (by decide))) rfl ?_
  rw [Dev.settle_mport, trainResult_last hstate ht h127 hb hf, if_neg h1]
  obtain ⟨t, h⟩ := Dev.mport_modMportEv_self (((((s.dev.heard sd.ix 1 f).swept sd.ix errors).sweepOver sd.ix).setTaps sd.ix []
    (sweepRuns (errors :: (s.dev.mport sd.ix).sweep))).assignLanes sd.ix
      (s.dev.shortLanes sd.ix (sweepRuns (errors :: (s.dev.mport sd.ix).sweep)))) sd.ix MPort.toIdent
  rw [Dev.assignLanes_mport] at h
  exact ⟨_, t, h⟩

theorem trainResultResponse_last (hs : s.dev.sides.contains sd.ix = true) (hp : (s.dev.mport sd.ix).pwrEn = true)
    (hw : rbWhole f 0x06 (leList 1 errors) = true) (hstate : (s.dev.mport sd.ix).state = .train)
    (ht : tap = (s.dev.mport sd.ix).sweep.length) (h127 : 127 ≤ tap) (hb : s.dev.core.state ≠ .boot)
    (hf : (s.dev.mport sd.ix).firstSweep = []) (hheld : (s.dev.mport 1).heldIdent = none) {bad : List Nat}
    (hbad : bad = s.dev.shortLanes sd.ix (sweepRuns (errors :: (s.dev.mport sd.ix).sweep))) :
    Runs (.trainResultResponse sd tap errors f) s failParts fun d =>
      (2 ≤ bad.length → (s.dev.mutedFault 0x0709 sd.ix = false → d.faultActive 0x0709 sd.ix = true) ∧
        (d.mport sd.ix).state = if (s.dev.mport sd.ix).powerDownWanted then .off else .fault) ∧
      (bad.length ≤ 1 → (d.mport sd.ix).state = .ident ∧ (d.mport sd.ix).identTries = 0) ∧
      (bad = [32] → (d.mport sd.ix).lane32Failed = true) ∧
      (∀ j, bad = [j] → j ≠ 32 → (d.mport sd.ix).spareLane = j ∧ (d.mport sd.ix).sparePermanent = true) := by
  by_cases h2 : 2 ≤ bad.length
  · obtain ⟨d, hd, hframe, hraised, hfault, -⟩ := trainResultResponse_fails hs hp hw hstate ht h127 hb hf hheld (hbad ▸ h2)
    refine ⟨d, hd, hframe, fun _ => ⟨hraised, hfault⟩, fun h => by omega, fun h => ?_, fun j h => ?_⟩
    · rw [h] at h2
      exact absurd h2 (by simp)
    · rw [h] at h2
      exact absurd h2 (by simp)
  · obtain ⟨d, hd, hframe, p, t, hport⟩ := trainResultResponse_identifies hs hp hw hstate ht h127 hb hf (hbad ▸ h2)
    rw [← hbad] at hport
    refine ⟨d, hd, hframe, fun h => absurd h h2, fun _ => ?_, fun h => ?_, fun j h hj => ?_⟩
    · rw [hport]
      exact ⟨rfl, rfl⟩
    · rw [hport, h]
      rfl
    · rw [hport, h]
      simp [MPort.assigned, if_neg hj, MPort.toIdent, MPort.ask]

end

/-! ### Identity (R255) -/

/-- The identity is recorded. -/
def MPort.identified (p : MPort) (payload : List Byte) : MPort :=
  { p with recordedGeom := some (byteAt payload 0), arrayId := padTo 8 payload, heldIdent := none }

theorem Dev.judgeIdent_ok {d : Dev} {s : Nat} {payload : List Byte} (h : d.identOk s (byteAt payload 0) = true) :
    d.judgeIdent s payload = (d.modMport s fun p => p.identified payload).portParked s :=
  if_pos h

/-- No IDENT of the port is held. -/
def Dev.unheld (d : Dev) (s : Nat) : Dev := d.modMport s fun p => { p with heldIdent := none }

/-- The port of an array whose identity is not right fails. -/
def Dev.identFailed (d : Dev) (s : Nat) (payload : List Byte) : Dev :=
  (d.unheld s).portFail s 0x0708 (byteAt payload 0 % 256 + 256 * s)

theorem Dev.judgeIdent_bad {d : Dev} {s : Nat} {payload : List Byte} (h : d.identOk s (byteAt payload 0) = false) :
    d.judgeIdent s payload = if s = 1 then (d.identFailed s payload).powerDown 1 else d.identFailed s payload :=
  if_neg (ne_true_of_eq_false h)

/-- A change of a port that leaves what it knows of its array. -/
theorem Dev.modMportEv_identity (d : Dev) (s k : Nat) {f : MPort → MPort} (hf : ∀ p, (f p).identity = p.identity) :
    ((d.modMportEv s f).mport k).identity = (d.mport k).identity := by
  by_cases h : (s = 0) = (k = 0)
  · rw [Dev.mport_congr _ h, Dev.mport_congr d h]
    obtain ⟨t, ht⟩ := d.mport_modMportEv_self s f
    rw [ht]
    exact hf _
  · rw [d.mport_modMportEv_ne f h]

theorem Dev.powerDownNow_identity (d : Dev) (s k : Nat) : ((d.powerDownNow s).mport k).identity = (d.mport k).identity :=
  d.modMportEv_identity s k (f := MPort.poweredDown) fun _ => rfl

theorem Dev.portParked_identity (d : Dev) (s k : Nat) : ((d.portParked s).mport k).identity = (d.mport k).identity := by
  have hparked : ((d.modMportEv s MPort.parked).mport k).identity = (d.mport k).identity := d.modMportEv_identity s k fun _ => rfl
  show ((if _ then (d.modMportEv s MPort.parked).powerDownNow s else d.modMportEv s MPort.parked).mport k).identity = _
  split
  · exact (Dev.powerDownNow_identity ..).trans hparked
  · exact hparked

/-- The power-down of a port that has failed. -/
theorem Dev.powerDown_failed {d : Dev} {s : Nat} (h : (d.mport s).state = .off ∨ (d.mport s).state = .fault) :
    ((d.powerDown s).mport s).state = .off ∧ ((d.powerDown s).mport s).identity = (d.mport s).identity ∧
    d.KeepsFaults (d.powerDown s) := by
  unfold Dev.powerDown
  rcases h with h | h
  · simp only [h]
    refine ⟨?_, ?_, (d.modMport_keepsChecks ..).toKeepsFaults⟩
    · rw [Dev.mport_modMport_self]
      exact h
    · rw [Dev.mport_modMport_self]
      rfl
  · simp only [h]
    refine ⟨?_, d.powerDownNow_identity .., d.powerDownNow_keepsFaults s⟩
    obtain ⟨t, ht⟩ := d.mport_modMportEv_self s MPort.poweredDown
    exact congrArg MPort.state ht

theorem Dev.identFailed_fails (d : Dev) (s : Nat) (payload : List Byte) : (d.unheld s).PortFails (d.identFailed s payload) s 0x0708 :=
  (d.unheld s).portFail_fails s _ (by decide)

theorem Dev.identFailed_down (d : Dev) (s : Nat) (payload : List Byte) :
    ((d.identFailed s payload).mport s).state = .off ∨ ((d.identFailed s payload).mport s).state = .fault := by
  rw [(d.identFailed_fails s payload).state]
  split
  · exact .inl rfl
  · exact .inr rfl

theorem Dev.unheld_held {d : Dev} (s : Nat) (h : (d.mport 1).heldIdent = none) : ((d.unheld s).mport 1).heldIdent = none := by
  rcases d.mport_modMport s 1 fun p => { p with heldIdent := none } with e | e
  · exact congrArg MPort.heldIdent e
  · exact (congrArg MPort.heldIdent e).trans h

/-- A judgement of an IDENT leaves none held. -/
theorem Dev.judgeIdent_held {d : Dev} (s : Nat) (payload : List Byte) (h : (d.mport 1).heldIdent = none) :
    ((d.judgeIdent s payload).mport 1).heldIdent = none := by
  by_cases hok : d.identOk s (byteAt payload 0) = true
  · rw [Dev.judgeIdent_ok hok]
    refine (congrArg (·.2.2.1) (Dev.portParked_identity ..)).trans ?_
    rcases d.mport_modMport s 1 fun p => p.identified payload with e | e
    · exact congrArg MPort.heldIdent e
    · exact (congrArg MPort.heldIdent e).trans h
  · have hfailed : ((d.identFailed s payload).mport 1).heldIdent = none :=
      (congrArg (·.2.2.1) (Dev.portFail_identity ..)).trans (d.unheld_held s h)
    rw [Dev.judgeIdent_bad (eq_false_of_ne_true hok)]
    split
    · next hs =>
      subst hs
      obtain ⟨-, hid, -⟩ := Dev.powerDown_failed (d.identFailed_down 1 payload)
      exact (congrArg (·.2.2.1) hid).trans hfailed
    · exact hfailed

/-- An IDENT that is not valid fails its port, and powers a side R down. -/
theorem Dev.judgeIdent_fails {d : Dev} {s : Nat} {payload : List Byte} (h : d.identOk s (byteAt payload 0) = false) :
    (d.mutedFault 0x0708 s = false → (d.judgeIdent s payload).faultActive 0x0708 s = true) ∧
    ((d.judgeIdent s payload).mport s).state = if s = 1 ∨ (d.mport s).powerDownWanted = true then .off else .fault := by
  have hfail := d.identFailed_fails s payload
  have hstate : ((d.identFailed s payload).mport s).state = if (d.mport s).powerDownWanted then .off else .fault := by
    rw [hfail.state, Dev.unheld, Dev.mport_modMport_self]
  rw [Dev.judgeIdent_bad h]
  by_cases hs : s = 1
  · subst hs
    obtain ⟨hoff, -, hkept⟩ := Dev.powerDown_failed (d.identFailed_down 1 payload)
    rw [if_pos rfl, if_pos (.inl rfl)]
    exact ⟨fun hm => hkept.active _ _ (hfail.raised hm), hoff⟩
  · rw [if_neg hs, hstate]
    exact ⟨hfail.raised, by simp only [hs, false_or]⟩

/-- A valid IDENT is recorded, and its port parks. -/
theorem Dev.judgeIdent_parks {d : Dev} {s : Nat} {payload : List Byte} (h : d.identOk s (byteAt payload 0) = true) :
    ((d.judgeIdent s payload).mport s).state = (if (d.mport s).powerDownWanted then .off else .parked) ∧
    ((d.judgeIdent s payload).mport s).recordedGeom = some (byteAt payload 0) ∧
    ((d.judgeIdent s payload).mport s).arrayId = padTo 8 payload := by
  have hid := (d.modMport s fun p => p.identified payload).portParked_identity s s
  obtain ⟨t, ht⟩ := (d.modMport s fun p => p.identified payload).portParked_mport s
  rw [Dev.mport_modMport_self] at ht hid
  rw [Dev.judgeIdent_ok h]
  refine ⟨?_, congrArg (·.2.1) hid, congrArg (·.1) hid⟩
  rw [ht]
  exact MPort.thenDown_state ..

theorem Dev.heard_identOk (d : Dev) (k pair : Nat) (f : RbFrame) (s geom : Nat) : (d.heard k pair f).identOk s geom = d.identOk s geom := by
  have hgeom := d.heard_keeps (g := MPort.recordedGeom) (fun _ _ => rfl) k pair f
  unfold Dev.identOk
  rw [hgeom, hgeom]

theorem identResponse_held {s : State} {sd : Side} {payload : List Byte} {f : RbFrame} (hs : s.dev.sides.contains sd.ix = true)
    (hp : (s.dev.mport sd.ix).pwrEn = true) (hw : rbWhole f 0x04 payload = true) (hstate : (s.dev.mport sd.ix).state = .ident)
    (hown : (s.dev.mport sd.ix).heldIdent = none) (hR : sd.ix = 1) (hgeom : (s.dev.mport 0).recordedGeom = none)
    (hL : (s.dev.mport 0).state ≠ .fault) :
    Runs (.identResponse sd payload f) s settledParts fun d =>
      d.ports = s.dev.ports.mod 1 fun p => { p with rseq := p.rseq.set 0 f.rseq, heldIdent := some payload } := by
  refine Runs.of_settledPort (exec_onResponse (exec_identResponse ..) hs hp hw (congrArg Dev.settle ?_))
  have hgeom' := (s.dev.heard_keeps (g := MPort.recordedGeom) (fun _ _ => rfl) 1 0 f 0).trans hgeom
  have hL' := (s.dev.heard_keeps (g := MPort.state) (fun _ _ => rfl) 1 0 f 0).trans_ne hL
  rw [hR] at hstate hown ⊢
  refine (if_neg ?_).trans ((if_pos ⟨rfl, by rw [hgeom']; rfl, hL'⟩).trans (Dev.modMport_modMport ..))
  simp [hstate, hown]

theorem identResponse_judged {s : State} {sd : Side} {payload : List Byte} {f : RbFrame} (hs : s.dev.sides.contains sd.ix = true)
    (hp : (s.dev.mport sd.ix).pwrEn = true) (hw : rbWhole f 0x04 payload = true) (hstate : (s.dev.mport sd.ix).state = .ident)
    (hown : (s.dev.mport sd.ix).heldIdent = none) (hheld : (s.dev.mport 1).heldIdent = none)
    (hready : sd.ix = 0 ∨ (s.dev.mport 0).recordedGeom ≠ none ∨ (s.dev.mport 0).state = .fault) :
    Runs (.identResponse sd payload f) s
      [.core, .prm, .clk, .sluice, .host, .req, .links, .cmp, .seq, .cam, .ports, .lamp, .gov, .saf, .jnl, .upd] fun d =>
      (s.dev.identOk sd.ix (byteAt payload 0) = true →
        (d.mport sd.ix).state = (if (s.dev.mport sd.ix).powerDownWanted then .off else .parked) ∧
        (d.mport sd.ix).recordedGeom = some (byteAt payload 0) ∧ (d.mport sd.ix).arrayId = padTo 8 payload) ∧
      (s.dev.identOk sd.ix (byteAt payload 0) = false →
        (s.dev.mutedFault 0x0708 sd.ix = false → d.faultActive 0x0708 sd.ix = true) ∧
        (d.mport sd.ix).state = (if sd.ix = 1 ∨ (s.dev.mport sd.ix).powerDownWanted = true then .off else .fault)) := by
  let b := s.dev.heard sd.ix 0 f
  have hin : b.identIn sd.ix payload = b.judgeIdent sd.ix payload := by
    have hgeom := s.dev.heard_keeps (g := MPort.recordedGeom) (fun _ _ => rfl) sd.ix 0 f 0
    have hL := s.dev.heard_keeps (g := MPort.state) (fun _ _ => rfl) sd.ix 0 f 0
    have hheld' : (b.mport 1).heldIdent = none := (s.dev.heard_keeps (g := MPort.heldIdent) (fun _ _ => rfl) sd.ix 0 f 1).trans hheld
    refine (if_neg ?_).trans ((if_neg ?_).trans (Dev.judgeHeld_of_none (Dev.judgeIdent_held _ _ hheld')))
    · rw [Dev.heard_mport]
      simp [hstate, hown]
    · rintro ⟨h1, hg, hf⟩
      rw [hgeom] at hg
      rw [hL] at hf
      rcases hready with h | h | h
      · omega
      · exact h (Option.isNone_iff_eq_none.1 hg)
      · exact hf h
  refine Runs.of_onResponse (exec_identResponse ..) hs hp hw rfl
    (Dev.only_then (Dev.settle_only _) (by decide) ((Dev.identIn_only ..).mono (by decide))) rfl ?_
  have hdown : (b.mport sd.ix).powerDownWanted = (s.dev.mport sd.ix).powerDownWanted :=
    s.dev.heard_keeps (g := MPort.powerDownWanted) (fun _ _ => rfl) sd.ix 0 f sd.ix
  rw [Dev.settle_mport, show (s.dev.heard sd.ix 0 f).identIn sd.ix payload = _ from hin, ← s.dev.heard_identOk sd.ix 0 f, ← hdown]
  refine ⟨Dev.judgeIdent_parks, fun h => ?_⟩
  obtain ⟨hraised, hfault⟩ := Dev.judgeIdent_fails h
  exact ⟨fun hm => (Dev.settle_keepsFaults _).active _ _ (hraised hm), hfault⟩

/-! ### Release from park (R253) -/

theorem exec_releaseFromPark (s : State) : exec .releaseFromPark s = s.on Dev.releasePark := rfl

/-- A port on its way out of park: UNPARK waits for its time. -/
def MPort.unparking (p : MPort) (t : Nat) : MPort :=
  { p with
    state := .unpark, parkN := true, unparkAcked := false,
    queue := p.queue ++ [{ cmd := 0x04, arg0 := 0, arg1 := 0, notBefore := t }] }

/-- One side is released from park, and its ramp starts. -/
def Dev.releaseSide (d : Dev) (s : Nat) : Dev :=
  ((d.modMportEv s fun p => p.unparking (d.now + 2000 + 50000 * s)).modLside s fun p => { p with ignited := true }).rampR s 65535 false

/-- A side that has been released from park. -/
structure Dev.Released (d : Dev) (k : Nat) : Prop where
  state : (d.mport k).state = .unpark
  parkN : (d.mport k).parkN = true
  ignited : (d.lside k).ignited = true
  asked : (d.mport k).queue.getLast?.map (·.cmd) = some 0x04

theorem Dev.Released.of_eq {a b : Dev} {s k : Nat} (h : a.Released s) (hm : b.mport k = a.mport s) (hl : b.lside k = a.lside s) :
    b.Released k :=
  ⟨by rw [hm]; exact h.state, by rw [hm]; exact h.parkN, by rw [hl]; exact h.ignited, by rw [hm]; exact h.asked⟩

theorem Dev.releaseSide_ports (d : Dev) (s : Nat) :
    (d.releaseSide s).ports = (d.modMportEv s fun p => p.unparking (d.now + 2000 + 50000 * s)).ports := rfl

theorem Dev.releaseSide_released (d : Dev) (s : Nat) : (d.releaseSide s).Released s := by
  obtain ⟨t, ht⟩ := d.mport_modMportEv_self s fun p => p.unparking (d.now + 2000 + 50000 * s)
  have hport : (d.releaseSide s).mport s = _ := (congrArg (Pair.get · s) (d.releaseSide_ports s)).trans ht
  refine ⟨by rw [hport]; rfl, by rw [hport]; rfl, ?_, ?_⟩
  · unfold Dev.releaseSide Dev.rampR
    rw [Dev.lside_modLside_self, Dev.lside_modLside_self]
  · rw [hport]
    simp [MPort.unparking]

/-- The release of one side leaves another as it is, released or not. -/
theorem Dev.releaseSide_ne (d : Dev) {s k : Nat} (h : (s = 0) ≠ (k = 0)) :
    (d.releaseSide s).mport k = d.mport k ∧ (d.releaseSide s).lside k = d.lside k := by
  refine ⟨(congrArg (Pair.get · k) (d.releaseSide_ports s)).trans (d.mport_modMportEv_ne _ h), ?_⟩
  have hlamp : (d.modMportEv s fun p => p.unparking (d.now + 2000 + 50000 * s)).lamp = d.lamp := (d.modMportEv_only ..).part .lamp rfl
  refine (Pair.get_mod_ne _ _ h).trans ((Pair.get_mod_ne _ _ h).trans ?_)
  rw [hlamp]
  rfl

theorem Dev.Released.releaseSide {d : Dev} {k : Nat} (hk : d.Released k) (s : Nat) : (d.releaseSide s).Released k := by
  by_cases h : (s = 0) = (k = 0)
  · refine (d.releaseSide_released s).of_eq (Dev.mport_congr _ h) ?_
    unfold Dev.lside Pair.get
    simp only [h]
  · obtain ⟨hm, hl⟩ := d.releaseSide_ne h
    exact hk.of_eq hm hl

theorem Dev.releaseSides_released {xs : List Nat} {d : Dev} {k : Nat} (h : d.Released k ∨ k ∈ xs) :
    (xs.foldl Dev.releaseSide d).Released k := by
  induction xs generalizing d with
  | nil => simpa using h
  | cons x xs ih =>
    refine ih ?_
    rcases h with h | h
    · exact .inl (h.releaseSide x)
    · rcases List.mem_cons.1 h with rfl | h
      · exact .inl (d.releaseSide_released k)
      · exact .inr h

theorem releaseFromPark_runs {s : State} (hb : s.dev.core.state = .beam) (hstage : s.dev.core.releaseStage = releaseTickets)
    (hign : s.dev.ticketHeld .ignition = true) (hreset : s.dev.ticketHeld .globalReset = true) (hfronts : s.dev.frontsReady = true)
    (hboosts : s.dev.boostsRun = true) (hparked : ∀ k ∈ s.dev.modeSides, (s.dev.mport k).state = .parked) :
    Runs .releaseFromPark s [.core, .prm, .host, .links, .ports, .lamp] fun d =>
      d.core.releaseStage = releaseUnpark ∧ ∀ k ∈ s.dev.litSides, d.Released k := by
  have hall : (s.dev.modeSides.all fun k => (s.dev.mport k).state == .parked) = true :=
    List.all_eq_true.2 fun k hk => beq_iff_eq.2 (hparked k hk)
  refine Runs.of_on (exec_releaseFromPark s) (Dev.releasePark_only _) ?_
  rw [show s.dev.releasePark = _ from if_pos ⟨hb, hstage, hign, hreset, hfronts, hboosts, hall⟩]
  refine ⟨rfl, fun k hk => ?_⟩
  exact (Dev.releaseSides_released (d := s.dev) (.inr hk)).of_eq rfl rfl

theorem exec_releaseFromPark_idle {s : State} (h : s.dev.core.state ≠ .beam ∨ s.dev.core.releaseStage ≠ releaseTickets ∨
    s.dev.ticketHeld .ignition = false ∨ s.dev.ticketHeld .globalReset = false) : exec .releaseFromPark s = .next s := by
  have hidle : s.dev.releasePark = s.dev := by
    refine if_neg fun ⟨hb, hstage, hign, hreset, _⟩ => ?_
    simp [hb, hstage, hign, hreset] at h
  rw [exec_releaseFromPark, State.on, hidle]

/-! ### Power, recovery, parking and fault -/

/-- Settles O54: each event by its rule; the failures by what a failed port shows, a release by each lit side's turn. -/
theorem arrayPortPower : Obligations.ArrayPortPower := by
  unfold Obligations.ArrayPortPower
  refine ⟨?_, ?_, ?_, ?_, ?_, ?_, ?_, ?_⟩
  · intro s sd hs
    exact ⟨unparkSettled_runs hs, parkTimeout_runs hs, powerDownStep_runs hs,
      fun hd hp => ⟨pwrEnLowDwellExpiry_powers hs hd hp, exec_pwrEnLowDwellExpiry_unwanted hs hd hp⟩,
      arraySupplyGood_runs hs, portAbsent_runs hs⟩
  · intro s sd
    exact ⟨exec_unparkSettled_idle, exec_parkTimeout_idle, exec_powerDownStep_idle, exec_pwrEnLowDwellExpiry_idle,
      exec_portPowerTimeout_idle, exec_train_idle, exec_arrayFlt_noted⟩
  · intro s sd hI hs hheld c code h
    rcases h with ⟨rfl, rfl, hstate, hr⟩ | ⟨rfl, rfl, hstate⟩ | ⟨rfl, rfl, hstate⟩ | ⟨rfl, rfl, hstate, hown, htries⟩
    · exact arrayFlt_fails hI hs hheld hstate hr
    · exact portPowerTimeout_fails hI hs hheld hstate
    · exact portTrainTimeout_fails hs hheld hstate
    · exact identNoResponse_fails hI hs hheld hstate hown htries
  · intro s sd hs hstate hown htries
    exact identNoResponse_asks hs hstate hown htries
  · intro s sd tap errors f hs hp hw
    refine ⟨trainResultResponse_idle hs hp hw, fun k => trainResultResponse_trial hs hp hw, fun hstate ht => ?_⟩
    exact ⟨trainResultResponse_tap hs hp hw hstate ht, trainResultResponse_firstSweep hs hp hw hstate ht,
      fun h127 hb hf hheld bad hbad => trainResultResponse_last hs hp hw hstate ht h127 hb hf hheld hbad⟩
  · intro s sd payload f hs hp hw hstate hown hheld
    exact ⟨identResponse_held hs hp hw hstate hown, identResponse_judged hs hp hw hstate hown hheld⟩
  · intro s hb hstage hign hreset hfronts hboosts hparked
    obtain ⟨d, hd, hframe, hrelease, hlit⟩ := releaseFromPark_runs hb hstage hign hreset hfronts hboosts hparked
    refine ⟨d, hd, hframe, hrelease, fun k hk => ?_⟩
    obtain ⟨hstate, hpark, hignited, hasked⟩ := hlit k hk
    exact ⟨hstate, hpark, hignited, hasked⟩
  · intro s h
    exact exec_releaseFromPark_idle h

end Sys2Proof.Machine
end

section
/-! The Shutter engine in time: the end of a raster and of an overdue one, and the entry to the stale states (O52). -/

namespace Sys2Proof.Machine

open Sys2Proof

theorem Pair.get_mod {α : Type} (p : Pair α) (i k : Nat) (f : α → α) :
    (p.mod i f).get k = if i = 0 ↔ k = 0 then f (p.get k) else p.get k := by
  split
  · next h =>
    have hp : ∀ q : Pair α, q.get k = q.get i := fun q => if_congr h.symm rfl rfl
    rw [hp, hp, Pair.get_mod_self]
  · next h => exact Pair.get_mod_ne p f fun e => h (iff_of_eq e)

/-- What one turn of a fold brings about, and the other turns keep, holds in the end. -/
theorem Dev.foldl_brings {α : Type} {f : Dev → α → Dev} {P : Dev → Prop} {x : α} (hx : ∀ e, P (f e x))
    (hkeep : ∀ e y, P e → P (f e y)) {xs : List α} {d : Dev} (h : x ∈ xs) : P (xs.foldl f d) := by
  obtain ⟨before, after, rfl⟩ := List.append_of_mem h
  rw [List.foldl_append, List.foldl_cons]
  exact List.foldlRecOn after f (hx _) fun e he y _ => hkeep e y he

/-! ### The freeze detector judges a mask (R355) -/

/-- The Shutter engine without what the freeze detector remembers. -/
def Shutter.unjudged (q : Shutter) : Shutter :=
  { q with footprints := Shutter.reset.footprints, maskSig := Shutter.reset.maskSig, frozen := Shutter.reset.frozen }

theorem Dev.judgeMask_unjudged (d : Dev) (k : RasterKind) (s : Nat) : (d.judgeMask k s).sht.unjudged = d.sht.unjudged := by
  unfold Dev.judgeMask
  extract_lets b v d0 expects n s1 d1
  split
  · split
    · rw [(Dev.raise_only ..).part .sht rfl]
      rfl
    · rfl
  · rfl

/-- A raster that is no list raster is signed, and the detector only remembers its signature. -/
theorem Dev.judgeMask_of_not_list (d : Dev) {k : RasterKind} (s : Nat) (hk : k ≠ .list) :
    d.judgeMask k s = { d.modMask s fun b => { b with sigBack := crc32 (maskBytes (d.seq.masks.get s).back) } with
      sht := { d.sht with maskSig := d.sht.maskSig.set s (crc32 (maskBytes (d.seq.masks.get s).back)) } } :=
  if_neg hk

/-! ### A raster ends (R264) -/

/-- A side's back buffer is ready under a generation, and judged. -/
def Dev.sideReady (d : Dev) (kind : RasterKind) (gen s : Nat) : Dev :=
  (d.modMask s fun b => { b with ready := true, genBack := gen }).judgeMask kind s

theorem Dev.sideReady_unjudged (d : Dev) (kind : RasterKind) (gen s : Nat) :
    (d.sideReady kind gen s).sht.unjudged = d.sht.unjudged :=
  Dev.judgeMask_unjudged ..

theorem Dev.sideReady_only_of_not_list (d : Dev) {kind : RasterKind} (gen s : Nat) (hk : kind ≠ .list) :
    d.onlyChanges (d.sideReady kind gen s) [.seq, .sht] := by
  unfold Dev.sideReady
  rw [Dev.judgeMask_of_not_list _ s hk]
  refine Dev.only_set (Dev.only_refl d _) (fun p hp => ?_) rfl
  cases p
  case seq => exact absurd (by decide) hp
  case sht => exact absurd (by decide) hp
  all_goals rfl

theorem Dev.sideReady_mask (d : Dev) {kind : RasterKind} (gen s k : Nat) (hk : kind ≠ .list) :
    (d.sideReady kind gen s).seq.masks.get k = if s = 0 ↔ k = 0 then
      { d.seq.masks.get k with
        ready := true, genBack := gen, sigBack := crc32 (maskBytes (d.seq.masks.get s).back) }
      else d.seq.masks.get k := by
  unfold Dev.sideReady
  rw [Dev.judgeMask_of_not_list _ s hk]
  simp only [Dev.modMask, Pair.get_mod, iff_self, if_true]
  split <;> rfl

/-- The ready mark of a side's back buffer under a generation. -/
def Dev.MaskReady (d : Dev) (gen k : Nat) : Prop :=
  (d.seq.masks.get k).ready = true ∧ (d.seq.masks.get k).genBack = gen

theorem Dev.sideReady_self (d : Dev) {kind : RasterKind} (gen k : Nat) (hk : kind ≠ .list) :
    (d.sideReady kind gen k).MaskReady gen k := by
  unfold Dev.MaskReady
  rw [d.sideReady_mask gen k k hk, if_pos Iff.rfl]
  exact ⟨rfl, rfl⟩

theorem Dev.MaskReady.sideReady {d : Dev} {kind : RasterKind} {gen k : Nat} (h : d.MaskReady gen k) (s : Nat)
    (hk : kind ≠ .list) : (d.sideReady kind gen s).MaskReady gen k := by
  unfold Dev.MaskReady
  rw [d.sideReady_mask gen s k hk]
  split
  · exact ⟨rfl, rfl⟩
  · exact h

theorem Dev.sideReady_back (d : Dev) {kind : RasterKind} (gen s k : Nat) (hk : kind ≠ .list) :
    ((d.sideReady kind gen s).seq.masks.get k).back = (d.seq.masks.get k).back := by
  rw [d.sideReady_mask gen s k hk]
  split <;> rfl

/-- The raster is over, and its masks have the next generation. -/
def Dev.rasterOver (d : Dev) : Dev :=
  { d with sht := { d.sht with raster := none, generation := (d.sht.generation + 1) % 65536 } }

/-- The masks of a raster that ends, marked side by side. -/
def Dev.rasterMarked (d : Dev) (r : Raster) : Dev :=
  r.sides.foldl (fun d' s => d'.sideReady r.kind ((d.sht.generation + 1) % 65536) s) d.rasterOver

/-- RASTER_TIME_MAX takes a longer duration. -/
def Dev.noteRasterTime (d : Dev) (ticks : Nat) : Dev :=
  if d.par kShtRasterTimeMax 0 < min 0xFFFF ticks then d.setPar kShtRasterTimeMax 0 (min 0xFFFF ticks : Nat) else d

theorem Dev.noteRasterTime_only (d : Dev) (ticks : Nat) : d.onlyChanges (d.noteRasterTime ticks) [.prm] := by
  unfold Dev.noteRasterTime
  split
  · exact d.setPar_only ..
  · exact Dev.only_refl ..

theorem Dev.rasterMarked_unjudged (d : Dev) (r : Raster) : (d.rasterMarked r).sht.unjudged = d.rasterOver.sht.unjudged :=
  List.foldlRecOn (motive := fun e : Dev => e.sht.unjudged = d.rasterOver.sht.unjudged) r.sides _ rfl
    fun e he _ _ => (e.sideReady_unjudged ..).trans he

theorem Dev.rasterMarked_only_of_not_list (d : Dev) {r : Raster} (hk : r.kind ≠ .list) :
    d.onlyChanges (d.rasterMarked r) [.seq, .sht] := by
  refine Dev.only_foldl _ (fun e s => e.sideReady_only_of_not_list _ s hk) ?_
  refine Dev.only_set (Dev.only_refl d _) (fun p hp => ?_) rfl
  cases p
  case sht => exact absurd (by decide) hp
  all_goals rfl

theorem Dev.rasterMarked_ready (d : Dev) {r : Raster} {k : Nat} (hk : r.kind ≠ .list) (h : k ∈ r.sides) :
    (d.rasterMarked r).MaskReady ((d.sht.generation + 1) % 65536) k :=
  Dev.foldl_brings (P := fun e => e.MaskReady _ k) (fun e => e.sideReady_self _ k hk) (fun _ s he => he.sideReady s hk) h

theorem Dev.rasterMarked_back (d : Dev) {r : Raster} (k : Nat) (hk : r.kind ≠ .list) :
    ((d.rasterMarked r).seq.masks.get k).back = (d.seq.masks.get k).back :=
  List.foldlRecOn (motive := fun e : Dev => (e.seq.masks.get k).back = (d.seq.masks.get k).back) r.sides _ rfl
    fun e he s _ => (e.sideReady_back _ s k hk).trans he

theorem Dev.startPending_of_none {d : Dev} (h : d.sht.pending = none) : d.startPending = d := by
  unfold Dev.startPending
  rw [h]

theorem Dev.endRaster_of_none {d : Dev} (ticks : Nat) (h : d.sht.raster = none) : d.endRaster ticks = d := by
  unfold Dev.endRaster
  rw [h]

/-- A raster with no list pending ends: its masks are marked and its duration is noted. -/
theorem Dev.endRaster_of_some {d : Dev} {r : Raster} (ticks : Nat) (h : d.sht.raster = some r) (hp : d.sht.pending = none) :
    d.endRaster ticks = (d.rasterMarked r).noteRasterTime ticks := by
  have hmarked : (d.rasterMarked r).sht.pending = d.sht.pending := (congrArg Shutter.pending (d.rasterMarked_unjudged r) :)
  have hpend : ((d.rasterMarked r).noteRasterTime ticks).sht.pending = none := by
    rw [(Dev.noteRasterTime_only ..).part .sht rfl, hmarked, hp]
  rw [← Dev.startPending_of_none hpend]
  unfold Dev.endRaster
  rw [h]
  rfl

theorem Dev.endRaster_unjudged {d : Dev} {r : Raster} (ticks : Nat) (h : d.sht.raster = some r) (hp : d.sht.pending = none) :
    (d.endRaster ticks).sht.unjudged = d.rasterOver.sht.unjudged := by
  rw [Dev.endRaster_of_some ticks h hp, (Dev.noteRasterTime_only ..).part .sht rfl, Dev.rasterMarked_unjudged]

theorem rasterEnd_runs {s : State} {r : Raster} (ticks : Nat) (h : s.dev.sht.raster = some r) (hp : s.dev.sht.pending = none) :
    Runs (.rasterEnd ticks) s [.prm, .sluice, .host, .links, .seq, .ports, .sht, .lamp, .gov, .saf, .jnl, .free] fun d =>
      d.sht.raster = none ∧ d.sht.generation = (s.dev.sht.generation + 1) % 65536 ∧ d.sht.state = s.dev.sht.state ∧
      d.sht.newest = s.dev.sht.newest := by
  have hq := Dev.endRaster_unjudged ticks h hp
  exact Runs.of_on (f := fun d => d.endRaster ticks) rfl (s.dev.endRaster_only ticks)
    ⟨(congrArg Shutter.raster hq :), (congrArg Shutter.generation hq :), (congrArg Shutter.state hq :),
      (congrArg Shutter.newest hq :)⟩

theorem rasterEnd_runs_of_not_list {s : State} {r : Raster} (ticks : Nat) (h : s.dev.sht.raster = some r)
    (hp : s.dev.sht.pending = none) (hk : r.kind ≠ .list) :
    Runs (.rasterEnd ticks) s [.prm, .seq, .sht] fun d => ∀ k ∈ r.sides,
      d.MaskReady ((s.dev.sht.generation + 1) % 65536) k ∧
      (d.seq.masks.get k).back = (s.dev.seq.masks.get k).back := by
  have htime := (s.dev.rasterMarked r).noteRasterTime_only ticks
  have heq := Dev.endRaster_of_some ticks h hp
  refine Runs.of_on (f := fun d => d.endRaster ticks) rfl ?_ fun k hmem => ?_
  · rw [heq]
    exact Dev.only_then htime (by decide) ((s.dev.rasterMarked_only_of_not_list hk).mono (by decide))
  · unfold Dev.MaskReady
    rw [heq, htime.part .seq rfl]
    exact ⟨s.dev.rasterMarked_ready hk hmem, s.dev.rasterMarked_back k hk⟩

theorem exec_rasterEnd_idle {s : State} (ticks : Nat) (h : s.dev.sht.raster = none) : exec (.rasterEnd ticks) s = .next s :=
  exec_of_on (f := fun d => d.endRaster ticks) rfl (Dev.endRaster_of_none ticks h)

/-! ### A raster is overdue (R264) -/

/-- The fault of a raster that has not ended: counted, and raised with the generation it would have had. -/
def Dev.rasterFails (d : Dev) : Dev :=
  (d.abandonRaster.count kShtRasterTimeout 0 1).raise 0x0805 0 ((d.sht.generation + 1) % 65536)

theorem Dev.rasterFails_sht (d : Dev) : d.rasterFails.sht = { d.sht with raster := none } := by
  unfold Dev.rasterFails
  rw [(Dev.raise_only ..).part .sht rfl, (Dev.count_only ..).part .sht rfl, Dev.abandonRaster_state]

/-- RASTER_TIMEOUT is no fault of side R. -/
theorem Dev.rasterTimeout_notMuted (d : Dev) : d.mutedFault 0x0805 0 = false := by
  unfold Dev.mutedFault
  rw [show (faultSides 0x0805 0 == [1]) = false from rfl]
  simp only [Bool.and_false, Bool.false_and]

theorem Dev.rasterFails_active (d : Dev) : d.rasterFails.faultActive 0x0805 0 = true :=
  Dev.raise_self _ _ (by decide) (Dev.rasterTimeout_notMuted _)

/-- A pending list waits no more, and its list raster runs. -/
theorem Dev.startPending_of_some {d : Dev} {l : ObjList} (h : d.sht.pending = some l) :
    d.startPending.sht.pending = none ∧ ∃ q, d.startPending.sht.raster = some q ∧ q.kind = .list := by
  unfold Dev.startPending
  rw [h]
  dsimp only
  rw [Dev.startRaster_sht]
  exact ⟨rfl, _, rfl, rfl⟩

theorem Dev.startPending_generation (d : Dev) : d.startPending.sht.generation = d.sht.generation := by
  unfold Dev.startPending
  split
  · rfl
  · rw [Dev.startRaster_sht]

theorem Dev.startPending_pending (d : Dev) : d.startPending.sht.pending = none := by
  cases h : d.sht.pending with
  | none => rw [Dev.startPending_of_none h, h]
  | some l => exact (Dev.startPending_of_some h).1

theorem Dev.rasterOverdue_of_none {d : Dev} (h : d.sht.raster = none) : d.rasterOverdue = d := by
  unfold Dev.rasterOverdue
  rw [h]

theorem Dev.rasterOverdue_of_early {d : Dev} {r : Raster} (h : d.sht.raster = some r) (ht : d.now < r.start + usTicks 100) :
    d.rasterOverdue = d := by
  unfold Dev.rasterOverdue
  rw [h]
  exact if_pos ht

theorem Dev.rasterOverdue_of_late {d : Dev} {r : Raster} (h : d.sht.raster = some r) (ht : r.start + usTicks 100 ≤ d.now) :
    d.rasterOverdue = d.rasterFails.startPending := by
  unfold Dev.rasterOverdue
  rw [h]
  exact if_neg (Nat.not_lt.2 ht)

theorem exec_rasterTimeout_idle {s : State} (h : s.dev.rasterOverdue = s.dev) : exec .rasterTimeout s = .next s :=
  exec_of_on (f := Dev.rasterOverdue) rfl h

theorem rasterTimeout_runs {s : State} {r : Raster} (h : s.dev.sht.raster = some r) (ht : r.start + usTicks 100 ≤ s.dev.now) :
    Runs .rasterTimeout s [.prm, .sluice, .host, .links, .seq, .ports, .sht, .lamp, .gov, .saf, .jnl, .free] fun d =>
      d.faultActive 0x0805 0 = true ∧ d.sht.generation = s.dev.sht.generation ∧ d.sht.pending = none ∧
      (s.dev.sht.pending = none → d.sht.raster = none) ∧
      (s.dev.sht.pending ≠ none → ∃ q, d.sht.raster = some q ∧ q.kind = .list) := by
  have hsht := s.dev.rasterFails_sht
  refine Runs.of_on (f := Dev.rasterOverdue) rfl s.dev.rasterOverdue_only ?_
  rw [Dev.rasterOverdue_of_late h ht]
  refine ⟨?_, ?_, Dev.startPending_pending _, fun hp => ?_, fun hp => ?_⟩
  · rw [Dev.faultActive_of_saf ((Dev.startPending_only _).part .saf rfl), Dev.rasterFails_active]
  · rw [Dev.startPending_generation, hsht]
  · rw [Dev.startPending_of_none ((congrArg Shutter.pending hsht).trans hp), hsht]
  · obtain ⟨l, hl⟩ := Option.ne_none_iff_exists'.1 hp
    exact (Dev.startPending_of_some ((congrArg Shutter.pending hsht).trans hl)).2

/-! ### The stale states (R273, Table 11-7) -/

theorem Dev.clearReady_ready (d : Dev) {k : Nat} (h : k ∈ d.sides) : (d.clearReady.seq.masks.get k).ready = false := by
  have hturn : ∀ (e : Dev) (s : Nat), ((e.modMask s fun b => { b with ready := false }).seq.masks.get k) =
      if s = 0 ↔ k = 0 then { e.seq.masks.get k with ready := false } else e.seq.masks.get k := fun e s => Pair.get_mod ..
  refine Dev.foldl_brings (P := fun e => (e.seq.masks.get k).ready = false) (fun e => ?_) (fun e s he => ?_) h
  · rw [hturn, if_pos Iff.rfl]
  · rw [hturn]
    split
    · rfl
    · exact he

theorem Dev.staleRaster_sht (d : Dev) : d.staleRaster.sht.state = d.sht.state ∧
    ∃ q, d.staleRaster.sht.raster = some q ∧ q.kind = .stale := by
  unfold Dev.staleRaster
  rw [Dev.startRaster_sht]
  exact ⟨rfl, _, rfl, rfl⟩

/-- The event, the count and the pending list of an entry to a stale state. -/
def Dev.staleNoted (d : Dev) : Dev :=
  let age := d.now - (match d.sht.newest with | some l => l.time | none => 0)
  ((d.post 0x0801 (min 0xFFFF (age / 100000) + 0x10000 * d.par kShtStaleAction 0)).count kShtStaleEntries 0 1).skipPending

theorem Dev.staleNoted_variant (d : Dev) : d.staleNoted.variant = d.variant := by
  unfold Dev.staleNoted
  rw [(Dev.skipPending_only _).1, (Dev.count_only ..).1, (Dev.post_only ..).1]

/-- STALE_HOLD is entered without a ready mark and without a raster. -/
def Dev.holdStale (d : Dev) : Dev :=
  let d1 := d.abandonRaster.clearReady
  { d1 with sht := { d1.sht with state := .staleHold, holdFrom := d1.now } }

/-- STALE is entered with its stale raster. -/
def Dev.toStale (d : Dev) : Dev := ({ d with sht := { d.sht with state := .stale } }).staleRaster

theorem Dev.holdStale_sht (d : Dev) : d.holdStale.sht.state = .staleHold ∧ d.holdStale.sht.raster = none := by
  refine ⟨rfl, ?_⟩
  show d.abandonRaster.clearReady.sht.raster = none
  rw [(Dev.clearReady_only _).part .sht rfl, Dev.abandonRaster_state]

theorem Dev.holdStale_ready (d : Dev) {k : Nat} (h : k ∈ d.sides) : (d.holdStale.seq.masks.get k).ready = false :=
  d.abandonRaster.clearReady_ready h

theorem Dev.toStale_sht (d : Dev) : d.toStale.sht.state = .stale ∧ ∃ q, d.toStale.sht.raster = some q ∧ q.kind = .stale :=
  Dev.staleRaster_sht _

theorem Dev.goStale_of_stale {d : Dev} (h : d.listsStale = true) :
    d.goStale = if d.par kShtStaleAction 0 = 1 then d.staleNoted.holdStale else d.staleNoted.toStale :=
  if_pos h

theorem listStale_runs {s : State} (h : s.dev.listsStale = true) :
    Runs .listStale s [.prm, .host, .links, .seq, .sht, .free] fun d =>
      (s.dev.par kShtStaleAction 0 = 1 → d.sht.state = .staleHold ∧ d.sht.raster = none ∧
        ∀ k ∈ s.dev.sides, (d.seq.masks.get k).ready = false) ∧
      (s.dev.par kShtStaleAction 0 ≠ 1 → d.sht.state = .stale ∧ ∃ q, d.sht.raster = some q ∧ q.kind = .stale) := by
  have hsides : s.dev.staleNoted.sides = s.dev.sides := by
    unfold Dev.sides Dev.dual
    rw [Dev.staleNoted_variant]
  refine Runs.of_on (f := Dev.goStale) rfl s.dev.goStale_only ?_
  rw [Dev.goStale_of_stale h]
  refine ⟨fun ha => ?_, fun ha => ?_⟩
  · rw [if_pos ha]
    obtain ⟨hstate, hraster⟩ := s.dev.staleNoted.holdStale_sht
    exact ⟨hstate, hraster, fun k hk => Dev.holdStale_ready _ (hsides ▸ hk)⟩
  · rw [if_neg ha]
    exact s.dev.staleNoted.toStale_sht

theorem exec_listStale_idle {s : State} (h : s.dev.listsStale = false) : exec .listStale s = .next s :=
  exec_of_on (f := Dev.goStale) rfl (if_neg (ne_true_of_eq_false h))

theorem staleHoldExpiry_runs {s : State} (h : s.dev.sht.state = .staleHold)
    (ht : s.dev.sht.holdFrom + msTicks (s.dev.par kShtStaleHoldMs 0) ≤ s.dev.now) :
    Runs .staleHoldExpiry s [.prm, .seq, .sht, .free] fun d =>
      d.sht.state = .stale ∧ ∃ q, d.sht.raster = some q ∧ q.kind = .stale := by
  refine Runs.of_on (f := Dev.holdEnds) rfl s.dev.holdEnds_only ?_
  rw [show s.dev.holdEnds = s.dev.toStale from if_pos ⟨h, ht⟩]
  exact s.dev.toStale_sht

theorem exec_staleHoldExpiry_idle {s : State} (h : s.dev.sht.state ≠ .staleHold ∨
    s.dev.now < s.dev.sht.holdFrom + msTicks (s.dev.par kShtStaleHoldMs 0)) : exec .staleHoldExpiry s = .next s := by
  refine exec_of_on (f := Dev.holdEnds) rfl (if_neg fun ⟨hstate, ht⟩ => ?_)
  rcases h with h | h
  · exact h hstate
  · exact Nat.not_le.2 h ht

/-- Settles O52: each clause is one event of the engine; a raster's end is followed side by side, and what the freeze detector
remembers is apart from the rest of the engine. -/
theorem shutterTime : Obligations.ShutterTime := by
  unfold Obligations.ShutterTime
  refine ⟨?_, ?_, ?_, ?_, ?_, ?_, ?_, ?_, ?_⟩
  · intro s ticks r h hp
    exact rasterEnd_runs ticks h hp
  · intro s ticks r h hp hk
    obtain ⟨d, hd, hframe, hmarked⟩ := rasterEnd_runs_of_not_list ticks h hp hk
    refine ⟨d, hd, hframe, fun k hmem _ => ?_⟩
    obtain ⟨⟨hready, hgen⟩, hback⟩ := hmarked k hmem
    exact ⟨hready, hgen, hback⟩
  · intro s ticks h
    exact ⟨exec_rasterEnd_idle ticks h, exec_rasterTimeout_idle (Dev.rasterOverdue_of_none h)⟩
  · intro s r h ht
    exact exec_rasterTimeout_idle (Dev.rasterOverdue_of_early h ht)
  · intro s r h ht
    exact rasterTimeout_runs h ht
  · intro s h
    exact listStale_runs h
  · intro s h
    exact exec_listStale_idle h
  · intro s h ht
    exact staleHoldExpiry_runs h ht
  · intro s h
    exact exec_staleHoldExpiry_idle h

end Sys2Proof.Machine
end

section
/-! What tickets, events and faults leave of the lamp drive and of the Governor's time. -/

namespace Sys2Proof.Machine

open Sys2Proof

/-! ### What the lamp drive has read, and the Governor's time -/

/-- The side's own board temperature and whether it is substituted (R289, R290). -/
def LampSide.board (p : LampSide) : LampSide :=
  { LampSide.reset with
    tBoard := p.tBoard, tFine := p.tFine, everValid := p.everValid, goodReads := p.goodReads, substituted := p.substituted }

/-- The dimming inputs, the source selected, and the loss that stands for it (R298, R299). -/
def Lamp.inputs (l : Lamp) : Lamp :=
  { Lamp.reset with
    dimSource := l.dimSource, dimPending := l.dimPending, dimLost := l.dimLost, dimTodo := l.dimTodo, pwm := l.pwm, ain := l.ain,
    pwmPeriod := l.pwmPeriod }

/-- The tick of the Governor, the age of the last reset, and whether a refresh waits for the next tick (R315). -/
def Gov.time (g : Gov) : Gov := { Gov.reset with tick := g.tick, refreshDue := g.refreshDue, sinceReset := g.sinceReset }

/-- The board temperatures, the dimming inputs and the Governor's time are the same in two states of the block. -/
structure Dev.KeepsDrive (a b : Dev) : Prop where
  boards : ∀ k, (b.lside k).board = (a.lside k).board
  inputs : b.lamp.inputs = a.lamp.inputs
  time : b.gov.time = a.gov.time

/-- No ticket starts this boost. -/
def BoostSt.Settled (b : BoostSt) : Prop := b ≠ .waiting ∧ b ≠ .uvWait

/-- No boost changes but by a ticket that it waits for, or, where `may` holds, by a stop; no overvoltage trip is counted. -/
structure Dev.KeepsBoosts (may : Prop) (a b : Dev) : Prop extends a.KeepsDrive b where
  boosts : ∀ k, (a.lside k).boost.Settled → (b.lside k).boost = (a.lside k).boost ∨ ((b.lside k).boost = .off ∧ may)
  trips : ∀ k, b.par kLmpBstOvTrips k = a.par kLmpBstOvTrips k

namespace Dev.KeepsDrive

theorem of_eq {a b : Dev} (hl : b.lamp = a.lamp) (hg : b.gov = a.gov) : a.KeepsDrive b where
  boards k := by
    unfold Dev.lside
    rw [hl]
  inputs := congrArg Lamp.inputs hl
  time := congrArg Gov.time hg

theorem refl (d : Dev) : d.KeepsDrive d := of_eq rfl rfl

theorem trans {a b c : Dev} (h : a.KeepsDrive b) (g : b.KeepsDrive c) : a.KeepsDrive c :=
  ⟨fun k => (g.boards k).trans (h.boards k), g.inputs.trans h.inputs, g.time.trans h.time⟩

theorem of_frame {a b : Dev} {l : List Part} (h : a.onlyChanges b l) (hl : (l.contains .lamp || l.contains .gov) = false) :
    a.KeepsDrive b := by
  obtain ⟨hlamp, hgov⟩ := Bool.or_eq_false_iff.1 hl
  exact of_eq (h.part .lamp hlamp) (h.part .gov hgov)

/-- One more operation, whose frame leaves the lamp drive and the Governor alone. -/
theorem thenFrame {a b c : Dev} {l : List Part} (h : a.KeepsDrive b) (g : b.onlyChanges c l)
    (hl : (l.contains .lamp || l.contains .gov) = false) : a.KeepsDrive c :=
  h.trans (of_frame g hl)

theorem foldl {α : Type} {f : Dev → α → Dev} (hf : ∀ (e : Dev) x, e.KeepsDrive (f e x)) (xs : List α) (d : Dev) :
    d.KeepsDrive (xs.foldl f d) := by
  induction xs generalizing d with
  | nil => exact refl d
  | cons x xs ih => exact (hf d x).trans (ih _)

variable {a b : Dev}

theorem tBoard (h : a.KeepsDrive b) (k : Nat) : (b.lside k).tBoard = (a.lside k).tBoard :=
  (congrArg LampSide.tBoard (h.boards k) :)
theorem tFine (h : a.KeepsDrive b) (k : Nat) : (b.lside k).tFine = (a.lside k).tFine :=
  (congrArg LampSide.tFine (h.boards k) :)
theorem everValid (h : a.KeepsDrive b) (k : Nat) : (b.lside k).everValid = (a.lside k).everValid :=
  (congrArg LampSide.everValid (h.boards k) :)
theorem goodReads (h : a.KeepsDrive b) (k : Nat) : (b.lside k).goodReads = (a.lside k).goodReads :=
  (congrArg LampSide.goodReads (h.boards k) :)
theorem substituted (h : a.KeepsDrive b) (k : Nat) : (b.lside k).substituted = (a.lside k).substituted :=
  (congrArg LampSide.substituted (h.boards k) :)
theorem dimLost (h : a.KeepsDrive b) : b.lamp.dimLost = a.lamp.dimLost := (congrArg Lamp.dimLost h.inputs :)
theorem dimTodo (h : a.KeepsDrive b) : b.lamp.dimTodo = a.lamp.dimTodo := (congrArg Lamp.dimTodo h.inputs :)
theorem pwm (h : a.KeepsDrive b) : b.lamp.pwm = a.lamp.pwm := (congrArg Lamp.pwm h.inputs :)
theorem ain (h : a.KeepsDrive b) : b.lamp.ain = a.lamp.ain := (congrArg Lamp.ain h.inputs :)
theorem pwmPeriod (h : a.KeepsDrive b) : b.lamp.pwmPeriod = a.lamp.pwmPeriod := (congrArg Lamp.pwmPeriod h.inputs :)
theorem tick (h : a.KeepsDrive b) : b.gov.tick = a.gov.tick := (congrArg Gov.tick h.time :)
theorem refreshDue (h : a.KeepsDrive b) : b.gov.refreshDue = a.gov.refreshDue := (congrArg Gov.refreshDue h.time :)
theorem sinceReset (h : a.KeepsDrive b) : b.gov.sinceReset = a.gov.sinceReset := (congrArg Gov.sinceReset h.time :)

theorem dimIn (h : a.KeepsDrive b) (source : Nat) : b.lamp.dimIn source = a.lamp.dimIn source := by
  unfold Lamp.dimIn
  rw [h.pwm, h.ain]

end Dev.KeepsDrive

namespace Dev.KeepsBoosts

variable {may : Prop}

theorem of_eq {a b : Dev} (hl : b.lamp = a.lamp) (hg : b.gov = a.gov) (ht : ∀ k, b.par kLmpBstOvTrips k = a.par kLmpBstOvTrips k) :
    a.KeepsBoosts may b where
  toKeepsDrive := .of_eq hl hg
  boosts k _ := by
    unfold Dev.lside
    exact .inl (by rw [hl])
  trips := ht

theorem refl (d : Dev) : d.KeepsBoosts may d := of_eq rfl rfl fun _ => rfl

theorem trans {a b c : Dev} (h : a.KeepsBoosts may b) (g : b.KeepsBoosts may c) : a.KeepsBoosts may c where
  toKeepsDrive := h.toKeepsDrive.trans g.toKeepsDrive
  boosts k hk := by
    rcases h.boosts k hk with e | ⟨e, hm⟩
    · rw [← e] at hk ⊢
      exact g.boosts k hk
    · rcases g.boosts k (by rw [e]; exact ⟨nofun, nofun⟩) with e' | ⟨e', -⟩
      · exact .inr ⟨e'.trans e, hm⟩
      · exact .inr ⟨e', hm⟩
  trips k := (g.trips k).trans (h.trips k)

theorem mono {q : Prop} {a b : Dev} (h : a.KeepsBoosts may b) (hq : may → q) : a.KeepsBoosts q b :=
  ⟨h.toKeepsDrive, fun k hk => (h.boosts k hk).imp_right fun ⟨e, hm⟩ => ⟨e, hq hm⟩, h.trips⟩

theorem of_frame {a b : Dev} {l : List Part} (h : a.onlyChanges b l)
    (hl : (([.prm, .lamp, .gov] : List Part).any l.contains) = false) : a.KeepsBoosts may b := by
  simp only [List.any_cons, List.any_nil, Bool.or_false, Bool.or_eq_false_iff] at hl
  obtain ⟨hprm, hlamp, hgov⟩ := hl
  exact of_eq (h.part .lamp hlamp) (h.part .gov hgov) fun k => h.par hprm ..

theorem thenFrame {a b c : Dev} {l : List Part} (h : a.KeepsBoosts may b) (g : b.onlyChanges c l)
    (hl : (([.prm, .lamp, .gov] : List Part).any l.contains) = false) : a.KeepsBoosts may c :=
  h.trans (of_frame g hl)

/-- Events and responses count in EVT_LOST only. -/
theorem of_quiet {a b : Dev} (h : a.Quiet b) : a.KeepsBoosts may b :=
  of_eq h.lamp h.gov fun k => h.par fun p => pid_ne_of_num (key := kHostEvtLost) (key' := kLmpBstOvTrips) p.ix k (by decide)

theorem thenQuiet {a b c : Dev} (h : a.KeepsBoosts may b) (g : b.Quiet c) : a.KeepsBoosts may c := h.trans (of_quiet g)

theorem foldl {α : Type} {f : Dev → α → Dev} (hf : ∀ (e : Dev) x, e.KeepsBoosts may (f e x)) (xs : List α) (d : Dev) :
    d.KeepsBoosts may (xs.foldl f d) := by
  induction xs generalizing d with
  | nil => exact refl d
  | cons x xs ih => exact (hf d x).trans (ih _)

end Dev.KeepsBoosts

/-! ### Parts written directly -/

theorem Dev.lside_modLside (d : Dev) (s k : Nat) (f : LampSide → LampSide) :
    (d.modLside s f).lside k = if s = 0 ↔ k = 0 then f (d.lside k) else d.lside k := Pair.get_mod ..

theorem Dev.lside_congr (d : Dev) {s k : Nat} (h : s = 0 ↔ k = 0) : d.lside s = d.lside k := if_congr h rfl rfl

/-- A change of a side that does not touch its board temperature. -/
theorem Dev.modLside_keepsDrive (d : Dev) (s : Nat) {f : LampSide → LampSide} (hf : ∀ p, (f p).board = p.board) :
    d.KeepsDrive (d.modLside s f) where
  boards k := by
    rw [Dev.lside_modLside]
    split
    · exact hf _
    · rfl
  inputs := rfl
  time := rfl

/-- A change of a side that touches neither its board temperature nor its boost. -/
theorem Dev.modLside_keepsBoosts {may : Prop} (d : Dev) (s : Nat) {f : LampSide → LampSide} (hf : ∀ p, (f p).board = p.board)
    (hb : ∀ p, (f p).boost = p.boost) : d.KeepsBoosts may (d.modLside s f) where
  toKeepsDrive := d.modLside_keepsDrive s hf
  boosts k _ := by
    rw [Dev.lside_modLside]
    split
    · exact .inl (hb _)
    · exact .inl rfl
  trips _ := rfl

theorem Dev.modChan_keepsDrive (d : Dev) (c : Nat) (f : Chan → Chan) : d.KeepsDrive (d.modChan c f) := ⟨fun _ => rfl, rfl, rfl⟩

theorem Dev.modChan_keepsBoosts {may : Prop} (d : Dev) (c : Nat) (f : Chan → Chan) : d.KeepsBoosts may (d.modChan c f) :=
  ⟨d.modChan_keepsDrive c f, fun _ _ => .inl rfl, fun _ => rfl⟩

theorem Dev.setSluice_keepsBoosts {may : Prop} (d : Dev) (q : Sluice) : d.KeepsBoosts may { d with sluice := q } :=
  .of_eq rfl rfl fun _ => rfl
theorem Dev.setSaf_keepsBoosts {may : Prop} (d : Dev) (q : Saf) : d.KeepsBoosts may { d with saf := q } :=
  .of_eq rfl rfl fun _ => rfl

/-! ### Counters and tickets -/

section
variable {may : Prop}

/-- A counter whose number in its unit is not that of LMP's BST_OV_TRIPS. -/
theorem Dev.count_keepsBoosts (d : Dev) {key : Nat} (i n : Nat) (h : kLmpBstOvTrips % 0x10000 ≠ key % 0x10000) :
    d.KeepsBoosts may (d.count key i n) :=
  .of_eq rfl rfl fun k => d.par_count_ne n (pid_ne_of_num i k h)

theorem Dev.applyVal_keepsBoosts (d : Dev) {key : Nat} (i : Nat) (h : kLmpBstOvTrips % 0x10000 ≠ key % 0x10000) :
    d.KeepsBoosts may (d.applyVal (pid key i)) := by
  unfold Dev.applyVal
  split
  · next v _ =>
    exact .of_eq rfl rfl fun k =>
      Dev.par_setPar_ne { d with prm := { d.prm with staged := kvErase d.prm.staged (pid key i) } } i k v h
  · exact .refl d

/-- A boost that waits for its ticket starts with it (R296). -/
theorem Dev.grant_keepsBoosts (d : Dev) (q : SlReq) : d.KeepsBoosts may (d.grant q) := by
  unfold Dev.grant
  extract_lets l d1 d2
  have h2 : d.KeepsBoosts may d2 :=
    (d.setSluice_keepsBoosts _).trans (d1.count_keepsBoosts (key := kPwrGrants) _ 1 (by decide))
  split
  · next s _ =>
    extract_lets p
    split
    · next hp =>
      have h3 : d.KeepsBoosts may (d2.applyVal (pid kLmpBstFsw s.ix)) := h2.trans (Dev.applyVal_keepsBoosts _ _ (by decide))
      refine h3.trans ⟨Dev.modLside_keepsDrive _ _ fun _ => rfl, fun k hk => ?_, fun _ => rfl⟩
      have hlamp : (d2.applyVal (pid kLmpBstFsw s.ix)).lamp = d2.lamp := (Dev.applyVal_only ..).part .lamp rfl
      rw [Dev.lside_modLside]
      split
      · next hside =>
        rw [← Dev.lside_congr _ hside, show Dev.lside _ s.ix = p from congrArg (fun l => l.sides.get s.ix) hlamp] at hk
        exact absurd hp (not_or.2 hk)
      · exact .inl rfl
    · exact h2
  · exact h2.trans (d2.count_keepsBoosts (key := kCmpCatchup) _ 1 (by decide))
  · exact h2

theorem Dev.deny_keepsBoosts (d : Dev) (h : Holder) (b : Bool) : d.KeepsBoosts may (d.deny h b) :=
  (d.count_keepsBoosts (key := kPwrDenials) _ 1 (by decide)).thenQuiet (Dev.post_quiet ..)

theorem Dev.request_keepsBoosts (d : Dev) (h : Holder) : d.KeepsBoosts may (d.request h) := by
  unfold Dev.request
  split
  · exact .refl d
  · extract_lets q
    split
    · exact d.deny_keepsBoosts ..
    · split
      · exact d.grant_keepsBoosts q
      · exact d.setSluice_keepsBoosts _

theorem Dev.examine_keepsBoosts (n : Nat) (d : Dev) : d.KeepsBoosts may (Dev.examine n d) := by
  induction n generalizing d with
  | zero => exact .refl d
  | succ n ih =>
    unfold Dev.examine
    split
    · exact .refl d
    · split
      · exact ((d.setSluice_keepsBoosts _).trans (Dev.grant_keepsBoosts ..)).trans (ih _)
      · exact .refl d

theorem Dev.release_keepsBoosts (d : Dev) (h : Holder) : d.KeepsBoosts may (d.release h) := by
  unfold Dev.release
  split
  · exact (d.setSluice_keepsBoosts _).trans (Dev.examine_keepsBoosts ..)
  · exact d.setSluice_keepsBoosts _

theorem Dev.modMportEv_keepsBoosts (d : Dev) (s : Nat) (f : MPort → MPort) : d.KeepsBoosts may (d.modMportEv s f) := by
  unfold Dev.modMportEv
  extract_lets old d1 new
  have h1 : d.KeepsBoosts may d1 := .of_frame (Dev.modMport_only ..) rfl
  split
  · exact h1
  · exact h1.thenQuiet (Dev.post_quiet ..)

theorem Dev.darkSide_keepsBoosts (d : Dev) (s : Nat) : d.KeepsBoosts may (d.darkSide s) := by
  have h1 : d.KeepsBoosts may { d with gov := { d.gov with zeroNow := d.gov.zeroNow.set s true } } :=
    ⟨⟨fun _ => rfl, rfl, rfl⟩, fun _ _ => .inl rfl, fun _ => rfl⟩
  exact h1.trans (.foldl (fun e c => e.modChan_keepsBoosts c _) _ _)

end

/-! ### Faults and their reactions -/

theorem Dev.stopBoost_keepsBoosts (d : Dev) (s : Nat) : d.KeepsBoosts True (d.stopBoost s) := by
  have h : d.KeepsBoosts True (d.modLside s fun p => { p with boost := .off }) := by
    refine ⟨d.modLside_keepsDrive s fun _ => rfl, fun k _ => ?_, fun _ => rfl⟩
    rw [Dev.lside_modLside]
    split
    · exact .inr ⟨rfl, trivial⟩
    · exact .inl rfl
  exact h.trans (Dev.release_keepsBoosts ..)

theorem Dev.safeSide_keepsBoosts (d : Dev) (s : Nat) (f : Bool) : d.KeepsBoosts True (d.safeSide s f) := by
  have h : d.KeepsBoosts True (((d.zeroWords s).stopBoost s).darkSide s) :=
    ((Dev.KeepsBoosts.of_frame (d.zeroWords_only s) rfl).trans (Dev.stopBoost_keepsBoosts ..)).trans (Dev.darkSide_keepsBoosts ..)
  unfold Dev.safeSide
  extract_lets d1 d2 d3 q
  have h2 : d.KeepsBoosts True d2 := h.trans (Dev.modLside_keepsBoosts _ s (fun _ => rfl) fun _ => rfl)
  have h3 : d.KeepsBoosts True d3 := h2.trans (Dev.modMportEv_keepsBoosts ..)
  exact h3.trans (Dev.setSaf_keepsBoosts ..)

theorem Dev.enterSafe_keepsBoosts (d : Dev) (s : Nat) (f : Bool) : d.KeepsBoosts True (d.enterSafe s f) := by
  unfold Dev.enterSafe
  split
  · split
    · exact d.modMportEv_keepsBoosts ..
    · exact .refl d
  · exact d.safeSide_keepsBoosts s f

theorem Dev.safeAll_keepsBoosts (d : Dev) (c r : Nat) (f : Bool) : d.KeepsBoosts True (d.safeAll c r f) :=
  (((Dev.KeepsBoosts.foldl (fun e s => e.enterSafe_keepsBoosts s f) d.sides d).thenFrame (Dev.pend_only _ .safe c r) rfl).trans
    (Dev.release_keepsBoosts _ .ignition)).trans (Dev.release_keepsBoosts _ .globalReset)

theorem Dev.reactSide_keepsBoosts (d : Dev) (s c : Nat) (f : Bool) : d.KeepsBoosts True (d.reactSide s c f) := by
  unfold Dev.reactSide
  split
  · exact .refl d
  · split
    · exact .of_frame (d.sameTick_only c 2) rfl
    · split
      · exact (d.enterSafe_keepsBoosts s f).thenFrame (Dev.pend_only ..) rfl
      · exact d.safeAll_keepsBoosts c 2 f

theorem Dev.reactCh_keepsBoosts (d : Dev) (c code : Nat) : d.KeepsBoosts True (d.reactCh c code) := by
  have h : d.KeepsBoosts True (d.latch c code) := d.modChan_keepsBoosts ..
  unfold Dev.reactCh
  extract_lets d1
  split
  · exact (h.thenFrame (Dev.markSide_only _ code c) rfl).trans (Dev.reactSide_keepsBoosts ..)
  · exact h

/-- Reactions act in BEAM and DEGRADED only (R359). -/
def Dev.Reacts (d : Dev) : Prop := d.core.state = .beam ∨ d.core.state = .degraded

theorem Dev.react_of_not_reacts {d : Dev} (h : ¬d.Reacts) (code inst : Nat) (r : Reaction) (f : Bool) : d.react code inst r f = d :=
  if_neg h

theorem Dev.react_keepsBoosts (d : Dev) (code inst : Nat) (r : Reaction) (f : Bool) :
    d.KeepsBoosts d.Reacts (d.react code inst r f) := by
  by_cases hr : d.Reacts
  · have h : d.KeepsBoosts True (d.react code inst r f) := by
      rw [show d.react code inst r f = _ from if_pos hr]
      cases r with
      | rec_ => exact .refl d
      | ch => exact d.reactCh_keepsBoosts ..
      | side => exact .foldl (fun e s => e.reactSide_keepsBoosts s code f) _ d
      | dev => exact d.safeAll_keepsBoosts code 3 f
    exact h.mono fun _ => hr
  · rw [d.react_of_not_reacts hr]
    exact .refl d

theorem Dev.activate_keepsBoosts {may : Prop} (d : Dev) (code inst arg : Nat) (r : Reaction) :
    d.KeepsBoosts may (d.activate code inst arg r) := by
  unfold Dev.activate
  extract_lets n s0 d0 s1 f j1 a1 d1
  have h1 : d.KeepsBoosts may d1 := .of_eq rfl rfl fun _ => rfl
  split
  · exact d.setSaf_keepsBoosts _
  · refine h1.trans ?_
    unfold Dev.listFault
    extract_lets l
    split
    · exact d1.setSaf_keepsBoosts _
    · split
      · exact d1.setSaf_keepsBoosts _
      · exact d1.count_keepsBoosts (key := kSafFaultOverflow) _ _ (by decide)

theorem Dev.snapshot_keepsBoosts {may : Prop} (d : Dev) (n : Nat) : d.KeepsBoosts may (d.snapshot n) := by
  unfold Dev.snapshot
  extract_lets again seq src recs hold s1 d1
  have h1 : d.KeepsBoosts may d1 := .of_eq rfl rfl fun _ => rfl
  split
  · exact h1
  · exact h1.thenQuiet (Dev.quiet_trans (d1.setIrq_quiet 3) (Dev.post_quiet ..))

/-- A fault may stop a boost where reactions act, and changes nothing else of the lamp drive's readings and boosts. -/
theorem Dev.raise_keepsBoosts (d : Dev) (code inst arg : Nat) : d.KeepsBoosts d.Reacts (d.raise code inst arg) := by
  unfold Dev.raise Dev.raiseWith
  split
  · exact .of_quiet (d.post_quiet code arg)
  · split
    · exact .refl d
    · extract_lets d1 s2 d2 own r d3
      have h1 : d.Quiet d1 := Dev.quiet_trans (d.post_quiet code arg) (Dev.setIrq_quiet _ 2)
      have h2 : d.KeepsBoosts d.Reacts d2 := (Dev.KeepsBoosts.of_quiet h1).trans (d1.setSaf_keepsBoosts _)
      have hcore : (d2.activate code inst arg r).core = d.core := ((Dev.activate_only ..).core rfl).trans h1.core
      have hreacts : (d2.activate code inst arg r).Reacts → d.Reacts := by
        unfold Dev.Reacts
        rw [hcore]
        exact id
      have h3 : d.KeepsBoosts d.Reacts d3 :=
        (h2.trans (Dev.activate_keepsBoosts ..)).trans ((Dev.react_keepsBoosts ..).mono hreacts)
      split
      · exact h3.trans (Dev.snapshot_keepsBoosts ..)
      · exact h3

/-- A fault that is muted (R193), or that is raised where no reaction acts, leaves the Governor as it is. -/
theorem Dev.raise_gov {d : Dev} {code inst : Nat} (arg : Nat) (h : ¬d.Reacts ∨ d.mutedFault code inst = true) :
    (d.raise code inst arg).gov = d.gov := by
  unfold Dev.raise Dev.raiseWith
  split
  · exact (d.post_quiet code arg).gov
  · split
    · rfl
    · next hm =>
      extract_lets d1 s2 d2 own r d3
      have h1 : d.Quiet d1 := Dev.quiet_trans (d.post_quiet code arg) (Dev.setIrq_quiet _ 2)
      have hcore : (d2.activate code inst arg r).core = d.core := ((Dev.activate_only ..).core rfl).trans h1.core
      have hidle : ¬(d2.activate code inst arg r).Reacts := by
        unfold Dev.Reacts at h ⊢
        rw [hcore]
        exact h.resolve_right hm
      have h3 : d3.gov = d.gov := by
        rw [show d3 = _ from Dev.react_of_not_reacts hidle ..]
        exact ((Dev.activate_only ..).part .gov rfl).trans h1.gov
      split
      · exact ((Dev.snapshot_only ..).part .gov rfl).trans h3
      · exact h3

/-- Which faults are muted (R193) does not depend on what an operation outside the modes changes. -/
theorem Dev.onlyChanges.mutedFault {a b : Dev} {l : List Part} (h : a.onlyChanges b l)
    (hl : (l.contains .core || l.contains .seq) = false) (code inst : Nat) : b.mutedFault code inst = a.mutedFault code inst := by
  obtain ⟨hcore, hseq⟩ := Bool.or_eq_false_iff.1 hl
  exact Dev.mutedFault_congr h.1 (h.core hcore) (congrArg Seq.change (h.part .seq hseq)) code inst

end Sys2Proof.Machine
end

section
/-! Boost events (O57). -/

namespace Sys2Proof.Machine

open Sys2Proof

/-! ### How a side's lamp command runs -/

section
variable {c : Instr} {s : State} {sd : Side} {f : Dev → Nat → Dev}

theorem exec_onLamp {d : Dev} (hc : exec c s = s.onLamp sd f) (hg : s.dev.govRuns = true)
    (hs : s.dev.sides.contains sd.ix = true) (hf : f s.dev sd.ix = d) : exec c s = .next { s with dev := d } := by
  rw [hc, State.onLamp, State.on, if_pos (Bool.and_eq_true_iff.2 ⟨hg, hs⟩), hf]

theorem Runs.of_onLamp {d : Dev} {touched : List Part} {effect : Dev → Prop} (hc : exec c s = s.onLamp sd f)
    (hg : s.dev.govRuns = true) (hs : s.dev.sides.contains sd.ix = true) (hf : f s.dev sd.ix = d)
    (frame : s.dev.onlyChanges d touched) (e : effect d) : Runs c s touched effect :=
  ⟨d, exec_onLamp hc hg hs hf, frame, e⟩

/-- Where the Governor does not run, or the side is not there, nothing happens. -/
theorem exec_onLamp_absent (hc : exec c s = s.onLamp sd f) (h : s.dev.govRuns = false ∨ s.dev.sides.contains sd.ix = false) :
    exec c s = .next s := by
  rw [hc, State.onLamp, State.on, if_neg]
  rcases h with h | h <;> simp only [h, Bool.false_and, Bool.and_false, Bool.false_eq_true, not_false_iff]

theorem exec_onLamp_idle (hc : exec c s = s.onLamp sd f) (hf : f s.dev sd.ix = s.dev) : exec c s = .next s := by
  rw [hc, State.onLamp, State.on, hf, ite_self]

end

theorem exec_boostOvTrip (sd : Side) (s : State) : exec (.boostOvTrip sd) s = s.onLamp sd fun d k => d.boostOv k := rfl
theorem exec_boostOvResume (sd : Side) (s : State) : exec (.boostOvResume sd) s = s.onLamp sd fun d k => d.boostOvEnds k := rfl
theorem exec_boostUv (sd : Side) (s : State) : exec (.boostUv sd) s = s.onLamp sd fun d k => d.boostUv k := rfl
theorem exec_boostUvRecovery (sd : Side) (s : State) :
    exec (.boostUvRecovery sd) s = s.onLamp sd fun d k => d.boostUvEnds k := rfl
theorem exec_boostRun (sd : Side) (s : State) :
    exec (.boostRun sd) s = s.onLamp sd fun d k => ((d.boostRuns k).boostsReady).afterClear := rfl
theorem exec_boostFail (sd : Side) (s : State) : exec (.boostFail sd) s = s.onLamp sd fun d k => d.boostFails k := rfl

theorem sideOf_ix (sd : Side) : sideOf sd.ix = sd := by cases sd <;> rfl

/-! ### A boost through tickets and faults -/

/-- A boost that waits for no ticket keeps its state while tickets go back. -/
theorem Dev.release_boost {d : Dev} {k : Nat} (hk : (d.lside k).boost.Settled) (h : Holder) :
    ((d.release h).lside k).boost = (d.lside k).boost :=
  (((d.release_keepsBoosts (may := False) h).boosts k hk).resolve_right fun ⟨_, hf⟩ => hf)

/-- A boost that waits for no ticket keeps its state when a fault is raised, unless a reaction stops it. -/
theorem Dev.raise_boost {d : Dev} {k : Nat} {b : BoostSt} (hb : (d.lside k).boost = b) (hs : b.Settled) (code inst arg : Nat) :
    ((d.raise code inst arg).lside k).boost = b ∨ ((d.raise code inst arg).lside k).boost = .off ∧ d.Reacts :=
  hb ▸ (d.raise_keepsBoosts code inst arg).boosts k (hb ▸ hs)

theorem Dev.onlyChanges.reacts {a b : Dev} {l : List Part} (h : a.onlyChanges b l) (hl : l.contains .core = false) :
    b.Reacts = a.Reacts := by
  unfold Dev.Reacts
  rw [h.core hl]

theorem Dev.stopBoost_boost (d : Dev) (s : Nat) : ((d.stopBoost s).lside s).boost = .off := by
  have hoff : ((d.modLside s fun p => { p with boost := .off }).lside s).boost = .off := by rw [Dev.lside_modLside_self]
  exact (Dev.release_boost (by rw [hoff]; exact ⟨nofun, nofun⟩) _).trans hoff

/-! ### Overvoltage (R295) -/

/-- The block with the boost's switching stopped by an overvoltage trip, and the trip counted. -/
def Dev.ovTripped (d : Dev) (s : Nat) : Dev :=
  (d.modLside s fun p => { p with boost := .ovTrip ((d.lside s).boost == .run) }).count kLmpBstOvTrips s 1

theorem Dev.boostOv_of_running {d : Dev} {s : Nat} (h : (d.lside s).boost = .start ∨ (d.lside s).boost = .run) :
    d.boostOv s = (d.ovTripped s).raise 0x0A08 s s := by
  unfold Dev.boostOv Dev.ovTripped
  rcases h with h | h <;> rw [h] <;> rfl

theorem Dev.ovTripped_boost (d : Dev) (s : Nat) : ((d.ovTripped s).lside s).boost = .ovTrip ((d.lside s).boost == .run) :=
  congrArg LampSide.boost (d.lside_modLside_self s _)

theorem Dev.ovTripped_trips {d : Dev} (hI : d.Inv) (s : Nat) :
    (d.ovTripped s).par kLmpBstOvTrips s = satAdd 0xFFFFFFFF (d.par kLmpBstOvTrips s) 1 :=
  Dev.par_count_self (d := d.modLside s _) s 1 rfl hI.vals

theorem boostOvTrip_runs {s : State} {sd : Side} (hI : s.dev.Inv) (hg : s.dev.govRuns = true)
    (hs : s.dev.sides.contains sd.ix = true) (h : (s.dev.lside sd.ix).boost = .start ∨ (s.dev.lside sd.ix).boost = .run) :
    Runs (.boostOvTrip sd) s [.prm, .sluice, .host, .links, .seq, .ports, .lamp, .gov, .saf, .jnl] fun d =>
      ((d.lside sd.ix).boost = .ovTrip ((s.dev.lside sd.ix).boost == .run) ∨
        (d.lside sd.ix).boost = .off ∧ (s.dev.core.state = .beam ∨ s.dev.core.state = .degraded)) ∧
      d.par kLmpBstOvTrips sd.ix = satAdd 0xFFFFFFFF (s.dev.par kLmpBstOvTrips sd.ix) 1 ∧
      (s.dev.mutedFault 0x0A08 sd.ix = false → d.faultActive 0x0A08 sd.ix = true) := by
  refine Runs.of_onLamp (exec_boostOvTrip sd s) hg hs rfl (s.dev.boostOv_only sd.ix) ?_
  rw [Dev.boostOv_of_running h]
  refine ⟨Dev.raise_boost (s.dev.ovTripped_boost sd.ix) ⟨nofun, nofun⟩ .., ?_, fun hm => ?_⟩
  · rw [(Dev.raise_keepsBoosts ..).trips, Dev.ovTripped_trips hI]
  · exact Dev.raise_self _ _ rfl hm

/-- After a trip the boost is where it was (R295). -/
theorem Dev.boostOvEnds_of_trip {d : Dev} {s : Nat} {back : Bool} (h : (d.lside s).boost = .ovTrip back) :
    d.boostOvEnds s = d.modLside s fun p => { p with boost := if back then .run else .start } := by
  unfold Dev.boostOvEnds
  rw [h]

/-! ### Undervoltage (R295) -/

/-- The block with the boost stopped by an undervoltage, and its start ticket given back. -/
def Dev.uvStopped (d : Dev) (s : Nat) : Dev := (d.modLside s fun p => { p with boost := .uvStop }).release (.boost (sideOf s))

theorem Dev.boostUv_of_active {d : Dev} {s : Nat}
    (h : (d.lside s).boost.running = true ∨ ∃ back, (d.lside s).boost = .ovTrip back) :
    d.boostUv s = (d.uvStopped s).raise 0x0A09 s s := by
  unfold Dev.boostUv
  rcases h with h | ⟨back, h⟩
  · cases hb : (d.lside s).boost with
    | start => rfl
    | run => rfl
    | _ =>
      rw [hb] at h
      exact absurd h Bool.false_ne_true
  · rw [h]
    rfl

theorem Dev.uvStopped_only (d : Dev) (s : Nat) : d.onlyChanges (d.uvStopped s) [.prm, .sluice, .lamp] :=
  ((d.modLside_only s _).mono (by decide)).trans (Dev.release_only ..)

theorem Dev.uvStopped_boost (d : Dev) (s : Nat) : ((d.uvStopped s).lside s).boost = .uvStop := by
  have hstop : ((d.modLside s fun p => { p with boost := .uvStop }).lside s).boost = .uvStop := by rw [Dev.lside_modLside_self]
  exact (Dev.release_boost (by rw [hstop]; exact ⟨nofun, nofun⟩) _).trans hstop

theorem boostUv_runs {s : State} {sd : Side} (hg : s.dev.govRuns = true) (hs : s.dev.sides.contains sd.ix = true)
    (h : (s.dev.lside sd.ix).boost.running = true ∨ ∃ back, (s.dev.lside sd.ix).boost = .ovTrip back) :
    Runs (.boostUv sd) s [.prm, .sluice, .host, .links, .seq, .ports, .lamp, .gov, .saf, .jnl] fun d =>
      ((d.lside sd.ix).boost = .uvStop ∨
        (d.lside sd.ix).boost = .off ∧ (s.dev.core.state = .beam ∨ s.dev.core.state = .degraded)) ∧
      (s.dev.mutedFault 0x0A09 sd.ix = false → d.faultActive 0x0A09 sd.ix = true) := by
  have hframe := s.dev.uvStopped_only sd.ix
  refine Runs.of_onLamp (exec_boostUv sd s) hg hs rfl (s.dev.boostUv_only sd.ix) ?_
  rw [Dev.boostUv_of_active h]
  refine ⟨?_, fun hm => Dev.raise_self _ _ rfl ((hframe.mutedFault rfl ..).trans hm)⟩
  have hboost := Dev.raise_boost (s.dev.uvStopped_boost sd.ix) ⟨nofun, nofun⟩ 0x0A09 sd.ix sd.ix
  rwa [hframe.reacts rfl] at hboost

/-- The ticket starts a boost that waits for it after an undervoltage stop, from the present V_in (R296). -/
theorem Dev.grant_uvWait {d : Dev} {sd : Side} (h : (d.lside sd.ix).boost = .uvWait) :
    ((d.grant (d.slReq (.boost sd))).lside sd.ix).boost = .start ∧ ((d.grant (d.slReq (.boost sd))).lside sd.ix).softTicks = 0 ∧
      ((d.grant (d.slReq (.boost sd))).lside sd.ix).softFrom = (d.lside sd.ix).vin ∧
      (d.grant (d.slReq (.boost sd))).ticketHeld (.boost sd) = true := by
  have hheld : (d.grant (d.slReq (.boost sd))).ticketHeld (.boost sd) = true := by
    unfold Dev.ticketHeld
    rw [Dev.grant_sluice]
    simp [Dev.slReq]
  suffices hside : (d.grant (d.slReq (.boost sd))).lside sd.ix = { d.lside sd.ix with
      boost := .start, softFrom := (d.lside sd.ix).vin, softTicks := 0, softTarget := (d.lside sd.ix).vin } by
    rw [hside]
    exact ⟨rfl, rfl, rfl, hheld⟩
  unfold Dev.grant
  extract_lets l d1 d2
  have h2 : d2.lside sd.ix = d.lside sd.ix :=
    congrArg (fun l : Lamp => l.sides.get sd.ix) ((d1.count_only kPwrGrants _ 1).part .lamp rfl)
  have hlamp : (d2.applyVal (pid kLmpBstFsw sd.ix)).lamp = d2.lamp := (Dev.applyVal_only ..).part .lamp rfl
  have happly : (d2.applyVal (pid kLmpBstFsw sd.ix)).lside sd.ix = d2.lside sd.ix := congrArg (fun l => l.sides.get sd.ix) hlamp
  rw [show (d.slReq (.boost sd)).holder = .boost sd from rfl]
  dsimp only
  rw [if_pos (.inr (h2.symm ▸ h)), Dev.lside_modLside_self, happly, h2]

/-- A boost that asks for its ticket after an undervoltage waits, or starts with it (R295, R296). -/
theorem Dev.boostUvEnds_side {d : Dev} {sd : Side} (h : (d.lside sd.ix).boost = .uvStop) :
    ((d.boostUvEnds sd.ix).lside sd.ix).boost = .uvWait ∨
      (((d.boostUvEnds sd.ix).lside sd.ix).boost = .start ∧ ((d.boostUvEnds sd.ix).lside sd.ix).softTicks = 0 ∧
        ((d.boostUvEnds sd.ix).lside sd.ix).softFrom = (d.lside sd.ix).vin ∧
        (d.boostUvEnds sd.ix).ticketHeld (.boost sd) = true) := by
  have hends : d.boostUvEnds sd.ix = (d.modLside sd.ix fun p => { p with boost := .uvWait }).request (.boost sd) := by
    unfold Dev.boostUvEnds
    rw [h, sideOf_ix]
  have hwait := d.lside_modLside_self sd.ix fun p => { p with boost := .uvWait }
  rw [hends]
  generalize (d.modLside sd.ix fun p => { p with boost := .uvWait }) = e at hwait ⊢
  have hboost : (e.lside sd.ix).boost = .uvWait := congrArg LampSide.boost hwait
  have hvin : (e.lside sd.ix).vin = (d.lside sd.ix).vin := by rw [hwait]
  have hstays : ∀ {b : Dev}, b.lamp = e.lamp → (b.lside sd.ix).boost = .uvWait := fun hb => by
    unfold Dev.lside
    rw [hb]
    exact hboost
  unfold Dev.request
  split
  · exact .inl hboost
  · extract_lets q
    split
    · exact .inl (hstays ((Dev.deny_only ..).part .lamp rfl))
    · split
      · rw [← hvin]
        exact .inr (Dev.grant_uvWait hboost)
      · exact .inl (hstays rfl)

/-! ### The end of a start (R296) -/

theorem Dev.boostFails_of_starting {d : Dev} {s : Nat} (h : (d.lside s).boost = .start ∨ (d.lside s).boost = .ovTrip false) :
    d.boostFails s = (d.stopBoost s).raise 0x0A06 s s := by
  unfold Dev.boostFails
  rcases h with h | h <;> rw [h]

theorem boostFail_runs {s : State} {sd : Side} (hg : s.dev.govRuns = true) (hs : s.dev.sides.contains sd.ix = true)
    (h : (s.dev.lside sd.ix).boost = .start ∨ (s.dev.lside sd.ix).boost = .ovTrip false) :
    Runs (.boostFail sd) s [.prm, .sluice, .host, .links, .seq, .ports, .lamp, .gov, .saf, .jnl] fun d =>
      (d.lside sd.ix).boost = .off ∧ (s.dev.mutedFault 0x0A06 sd.ix = false → d.faultActive 0x0A06 sd.ix = true) := by
  refine Runs.of_onLamp (exec_boostFail sd s) hg hs rfl (s.dev.boostFails_only sd.ix) ?_
  rw [Dev.boostFails_of_starting h]
  refine ⟨?_, fun hm => Dev.raise_self _ _ rfl (((s.dev.stopBoost_only sd.ix).mutedFault rfl ..).trans hm)⟩
  exact (Dev.raise_boost (s.dev.stopBoost_boost sd.ix) ⟨nofun, nofun⟩ 0x0A06 sd.ix sd.ix).elim id And.left

/-- RUN, or a trip that ends in RUN, gives the start ticket back and clears BOOST_UV. -/
theorem Dev.boostRuns_of_starting {d : Dev} {s : Nat} (h : (d.lside s).boost = .start ∨ (d.lside s).boost = .ovTrip false) :
    d.boostRuns s = ((d.modLside s fun p => { p with boost := if (d.lside s).boost = .start then .run else .ovTrip true }).release
      (.boost (sideOf s))).clearFault 0x0A09 s := by
  unfold Dev.boostRuns
  rcases h with h | h <;> rw [h] <;> rfl

theorem Dev.boostRuns_boost {d : Dev} {s : Nat} (h : (d.lside s).boost = .start ∨ (d.lside s).boost = .ovTrip false) :
    ((d.boostRuns s).lside s).boost = if (d.lside s).boost = .start then .run else .ovTrip true := by
  have hset := congrArg LampSide.boost
    (d.lside_modLside_self s fun p => { p with boost := if (d.lside s).boost = .start then .run else .ovTrip true })
  have hsettled : BoostSt.Settled (if (d.lside s).boost = .start then .run else .ovTrip true) := by
    split <;> exact ⟨nofun, nofun⟩
  rw [Dev.boostRuns_of_starting h]
  have hlamp := fun e : Dev => (e.clearFault_only 0x0A09 s).part .lamp rfl
  refine Eq.trans ?_ ((Dev.release_boost (hset.symm ▸ hsettled) (.boost (sideOf s))).trans hset)
  exact congrArg (fun l : Lamp => (l.sides.get s).boost) (hlamp _)

theorem Dev.request_lamp_of_ignition (d : Dev) : (d.request .ignition).lamp = d.lamp := by
  unfold Dev.request
  split
  · rfl
  · extract_lets q
    split
    · exact (Dev.deny_only ..).part .lamp rfl
    · split
      · unfold Dev.grant
        exact (Dev.count_only ..).part .lamp rfl
      · rfl

theorem Dev.KeepsPlace.modeSides {a b : Dev} (h : a.KeepsPlace b) : b.modeSides = a.modeSides := by
  unfold Dev.modeSides Dev.twoSided Dev.dual
  rw [h.row, h.variant]

theorem Dev.boostsReady_lamp (d : Dev) : d.boostsReady.lamp = d.lamp := by
  unfold Dev.boostsReady
  split
  · exact Dev.request_lamp_of_ignition _
  · rfl

/-- With every boost of the mode in RUN the release goes on to its tickets (R297). -/
theorem Dev.boostsReady_core (d : Dev) : d.boostsReady.core = { d.core with
    releaseStage := if d.core.releaseStage = releaseBoosts ∧ d.core.state = .beam ∧ d.boostsRun = true then releaseTickets
      else d.core.releaseStage } := by
  unfold Dev.boostsReady
  split
  · exact (Dev.request_only ..).core rfl
  · rfl

theorem Dev.boostsReady_boostsRun (d : Dev) : d.boostsReady.boostsRun = d.boostsRun := by
  have hplace : d.KeepsPlace d.boostsReady :=
    ⟨d.boostsReady_only.1, by rw [d.boostsReady_core]; rfl, congrArg Seq.place (d.boostsReady_only.part .seq rfl)⟩
  unfold Dev.boostsRun Dev.lside
  rw [hplace.modeSides, d.boostsReady_lamp]

theorem Dev.boostRun_only (d : Dev) (s : Nat) : d.onlyChanges (d.boostRuns s).boostsReady.afterClear
    [.core, .prm, .clk, .sluice, .host, .req, .links, .cmp, .seq, .cam, .ports, .lamp, .gov, .saf, .upd] :=
  (((d.boostRuns_only s).mono (by decide)).trans ((Dev.boostsReady_only _).mono (by decide))).trans (Dev.afterClear_only _)

theorem boostRun_runs {s : State} {sd : Side} (hg : s.dev.govRuns = true) (hs : s.dev.sides.contains sd.ix = true)
    (hlit : s.dev.core.state = .beam ∨ s.dev.core.state = .degraded)
    (h : (s.dev.lside sd.ix).boost = .start ∨ (s.dev.lside sd.ix).boost = .ovTrip false) :
    Runs (.boostRun sd) s [.core, .prm, .clk, .sluice, .host, .req, .links, .cmp, .seq, .cam, .ports, .lamp, .gov, .saf, .upd]
      fun d =>
      (d.lside sd.ix).boost = (if (s.dev.lside sd.ix).boost = .start then .run else .ovTrip true) ∧
      d.faultActive 0x0A09 sd.ix = false ∧ d.core.state = s.dev.core.state ∧
      d.core.releaseStage = if s.dev.core.releaseStage = releaseBoosts ∧ s.dev.core.state = .beam ∧ d.boostsRun = true then
        releaseTickets
        else s.dev.core.releaseStage := by
  refine Runs.of_onLamp (exec_boostRun sd s) hg hs rfl (s.dev.boostRun_only sd.ix) ?_
  have hboost := Dev.boostRuns_boost h
  have hcore : (s.dev.boostRuns sd.ix).core = s.dev.core := (s.dev.boostRuns_only sd.ix).core rfl
  have hclear : (s.dev.boostRuns sd.ix).faultActive 0x0A09 sd.ix = false := by
    rw [Dev.boostRuns_of_starting h]
    exact Dev.clearFault_self ..
  generalize s.dev.boostRuns sd.ix = e at hboost hcore hclear ⊢
  have hstate : e.boostsReady.core.state = s.dev.core.state := by rw [e.boostsReady_core, hcore]
  have hstays : e.boostsReady.afterClear = e.boostsReady := by
    apply Dev.afterClear_of_lit <;> rw [hstate] <;> rcases hlit with hl | hl <;> rw [hl] <;> nofun
  rw [hstays]
  refine ⟨?_, ?_, hstate, ?_⟩
  · unfold Dev.lside
    rw [e.boostsReady_lamp]
    exact hboost
  · exact (Dev.faultActive_of_saf (e.boostsReady_only.part .saf rfl) ..).trans hclear
  · rw [e.boostsReady_boostsRun, e.boostsReady_core, hcore]

/-! ### Observations that a boost ignores -/

theorem exec_boost_absent {s : State} {sd : Side} (h : s.dev.govRuns = false ∨ s.dev.sides.contains sd.ix = false) :
    ∀ c ∈ ([.boostOvTrip sd, .boostOvResume sd, .boostUv sd, .boostUvRecovery sd, .boostRun sd, .boostFail sd] : List Instr),
      exec c s = .next s := by
  simp only [List.forall_mem_cons]
  exact ⟨exec_onLamp_absent (exec_boostOvTrip sd s) h, exec_onLamp_absent (exec_boostOvResume sd s) h,
    exec_onLamp_absent (exec_boostUv sd s) h, exec_onLamp_absent (exec_boostUvRecovery sd s) h,
    exec_onLamp_absent (exec_boostRun sd s) h, exec_onLamp_absent (exec_boostFail sd s) h, fun _ hc => nomatch hc⟩

theorem exec_boost_off {s : State} {sd : Side} (h : (s.dev.lside sd.ix).boost = .off) :
    ∀ c ∈ ([.boostOvTrip sd, .boostOvResume sd, .boostUv sd, .boostUvRecovery sd, .boostFail sd] : List Instr),
      exec c s = .next s := by
  simp only [List.forall_mem_cons]
  exact ⟨exec_onLamp_idle (exec_boostOvTrip sd s) (by simp only [Dev.boostOv, h]),
    exec_onLamp_idle (exec_boostOvResume sd s) (by simp only [Dev.boostOvEnds, h]),
    exec_onLamp_idle (exec_boostUv sd s) (by simp only [Dev.boostUv, h]),
    exec_onLamp_idle (exec_boostUvRecovery sd s) (by simp only [Dev.boostUvEnds, h]),
    exec_onLamp_idle (exec_boostFail sd s) (by simp only [Dev.boostFails, h]), fun _ hc => nomatch hc⟩

/-- Settles O57: each clause is one event of a boost; its release of a ticket and the fault that it raises change no boost but by
a start that waits for the ticket or by a reaction's stop. -/
theorem boostEvents : Obligations.BoostEvents := by
  unfold Obligations.BoostEvents
  refine ⟨?_, ?_, ?_, ?_, ?_, ?_, ?_, ?_, ?_⟩
  · intro s sd hI hg hs h
    exact boostOvTrip_runs hI hg hs h
  · intro s sd back hg hs h
    exact exec_onLamp (exec_boostOvResume sd s) hg hs (Dev.boostOvEnds_of_trip h)
  · intro s sd hg hs h
    exact boostUv_runs hg hs h
  · intro s sd hg hs h
    exact Runs.of_onLamp (exec_boostUvRecovery sd s) hg hs rfl (s.dev.boostUvEnds_only sd.ix) (Dev.boostUvEnds_side h)
  · intro s sd hg hs hlit h
    exact boostRun_runs hg hs hlit h
  · intro s sd hg hs
    exact Runs.of_onLamp (exec_boostRun sd s) hg hs rfl (s.dev.boostRun_only sd.ix) trivial
  · intro s sd hg hs h
    exact boostFail_runs hg hs h
  · intro s sd h
    exact exec_boost_absent h
  · intro s sd h
    exact exec_boost_off h

end Sys2Proof.Machine
end

section
/-! What follows a clearance leaves the lamp drive's readings as they are. -/

namespace Sys2Proof.Machine

open Sys2Proof

/-! ### The mode in force, the beam and STANDBY -/

theorem Dev.release_keepsDrive (d : Dev) (h : Holder) : d.KeepsDrive (d.release h) :=
  (d.release_keepsBoosts (may := True) h).toKeepsDrive
theorem Dev.request_keepsDrive (d : Dev) (h : Holder) : d.KeepsDrive (d.request h) :=
  (d.request_keepsBoosts (may := True) h).toKeepsDrive

theorem Dev.setSeq_keepsDrive (d : Dev) (q : Seq) : d.KeepsDrive { d with seq := q } := .of_eq rfl rfl

theorem Dev.closeSession_keepsDrive (d : Dev) : d.KeepsDrive d.closeSession := by
  unfold Dev.closeSession
  split
  · exact .refl d
  · extract_lets cmds u d1
    have h1 : d.KeepsDrive d1 := .of_eq rfl rfl
    exact (h1.trans (d1.release_keepsDrive _)).thenFrame
      (Dev.only_foldl cmds (fun e _ => e.finishWith_only ..) (Dev.only_refl _ _)) rfl

theorem Dev.goTo_keepsDrive (d : Dev) (new : DevState) (cause : Nat) : d.KeepsDrive (d.goTo new cause) :=
  .trans (.of_frame (d.setState_only new cause) rfl) (Dev.closeSession_keepsDrive _)

theorem Dev.rechoose_keepsDrive (d : Dev) : d.KeepsDrive d.rechoose := by
  unfold Dev.rechoose
  split
  next v src _ =>
  split
  · exact .refl d
  · extract_lets q d1 displaced d2
    have h1 : d.KeepsDrive d1 :=
      .thenFrame (b := { d with req := { d.req with inForce := v } }) (.of_eq rfl rfl) (Dev.post_only ..) rfl
    have h2 : d.KeepsDrive d2 := h1.thenFrame (Dev.only_foldl displaced (fun e _ => e.finishWith_only ..) (Dev.only_refl _ _)) rfl
    split
    · exact h2
    · exact h2.trans (Dev.closeSession_keepsDrive _)

theorem Dev.changeMode_keepsDrive (d : Dev) (m : Nat) (b : Bool) : d.KeepsDrive (d.changeMode m b) := by
  have htake : d.KeepsDrive (d.takeMode m b) := by
    unfold Dev.takeMode
    extract_lets d1 base c d2
    have h1 : d.KeepsDrive d1 := by
      unfold d1
      split
      · exact .refl d
      · exact .thenFrame (.of_frame (d.keepTestFrame_only m) rfl) (Dev.camModeChange_only ..) rfl
    have h2 : d.KeepsDrive d2 := h1.trans (.of_eq rfl rfl)
    exact ((h2.thenFrame (Dev.carryMask_only ..) rfl).thenFrame (Dev.rectsModeChange_only ..) rfl).trans (Dev.rechoose_keepsDrive _)
  exact (htake.thenFrame (Dev.count_only ..) rfl).thenFrame (Dev.post_only ..) rfl

theorem Dev.restartTimeline_keepsDrive (d : Dev) : d.KeepsDrive d.restartTimeline := by
  have hdrop : ∀ (e : Dev) s, e.KeepsDrive (e.dropPass s) := fun e s =>
    .trans (.of_frame (e.modPipe_only s _) rfl) (Dev.release_keepsDrive ..)
  exact (d.setSeq_keepsDrive _).trans (.foldl hdrop _ _)

theorem Dev.selectNow_keepsDrive (d : Dev) (m : Nat) (p : Port) (tag : Nat) : d.KeepsDrive (d.selectNow m p tag) := by
  unfold Dev.selectNow
  extract_lets q d1 d2
  have h1 : d.KeepsDrive d1 := .of_eq rfl rfl
  have h2 : d.KeepsDrive d2 := by
    unfold d2
    split
    · exact h1
    · exact (h1.trans (d1.changeMode_keepsDrive m false)).trans (Dev.restartTimeline_keepsDrive _)
  exact h2.thenFrame (Dev.finish_only ..) rfl

theorem Dev.settleMode_keepsDrive (d : Dev) : d.KeepsDrive d.settleMode := by
  unfold Dev.settleMode
  split
  · split
    · exact d.selectNow_keepsDrive ..
    · split
      · exact (d.setSeq_keepsDrive _).thenFrame (Dev.finishWith_only ..) rfl
      · exact .refl d
  · exact .refl d

theorem Dev.startBoost_keepsDrive (d : Dev) (s : Nat) : d.KeepsDrive (d.startBoost s) := by
  unfold Dev.startBoost
  split
  · exact (d.modLside_keepsDrive s (f := fun p => { p with boost := .waiting }) fun _ => rfl).trans (Dev.request_keepsDrive ..)
  · exact .refl d

theorem Dev.beamOn_keepsDrive (d : Dev) : d.KeepsDrive d.beamOn := by
  unfold Dev.beamOn
  extract_lets d1 c d2
  have h1 : d.KeepsDrive d1 := d.goTo_keepsDrive .beam 0
  have h2 : d.KeepsDrive d2 := h1.trans (.of_eq rfl rfl)
  exact h2.trans (.foldl (fun e s => e.startBoost_keepsDrive s) _ d2)

theorem Dev.settle_keepsDrive (d : Dev) : d.KeepsDrive d.settle := by
  unfold Dev.settle
  extract_lets d1
  split
  · exact d.settleMode_keepsDrive.trans (Dev.beamOn_keepsDrive _)
  · exact d.settleMode_keepsDrive

theorem Dev.putInForce_keepsDrive (d : Dev) (m : Nat) (p : Port) (tag : Nat) : d.KeepsDrive (d.putInForce m p tag) := by
  unfold Dev.putInForce
  extract_lets q d1
  have h1 : d.KeepsDrive d1 := .of_eq rfl rfl
  refine .thenFrame ?_ (Dev.finish_only ..) rfl
  split
  · exact h1
  · exact ((h1.trans (d1.changeMode_keepsDrive m false)).trans (Dev.restartTimeline_keepsDrive _)).thenFrame
      (Dev.moveSideR_only ..) rfl

theorem Dev.changeAtStandby_keepsDrive (d : Dev) : d.KeepsDrive d.changeAtStandby := by
  unfold Dev.changeAtStandby
  split
  · exact .refl d
  · exact d.putInForce_keepsDrive ..
  · extract_lets q d1
    have h1 : d.KeepsDrive d1 := (((d.setSeq_keepsDrive _).trans (Dev.changeMode_keepsDrive ..)).trans
      (Dev.restartTimeline_keepsDrive _)).thenFrame (Dev.finish_only ..) rfl
    split
    · exact h1.trans (Dev.putInForce_keepsDrive ..)
    · exact h1

theorem Dev.standbyEntered_keepsDrive (d : Dev) : d.KeepsDrive d.standbyEntered := by
  have hstep : ∀ (e : Dev) l, e.KeepsDrive (e.askStep l) := fun e l => by
    unfold Dev.askStep
    extract_lets k
    split
    · exact .trans (.of_frame (e.modLink_only l _) rfl) (Dev.request_keepsDrive ..)
    · exact .refl e
  have hroom : ∀ e : Dev, e.KeepsDrive e.dirRoom := fun e => by
    unfold Dev.dirRoom
    extract_lets s
    split
    · exact e.request_keepsDrive _
    · exact .refl e
  exact (Dev.KeepsDrive.foldl hstep _ d).trans (hroom _)

theorem Dev.standbySide_keepsDrive (d : Dev) (s : Nat) : d.KeepsDrive (d.standbySide s) := by
  have hdark : d.KeepsDrive (((d.zeroWords s).stopBoost s).darkSide s) :=
    ((Dev.KeepsDrive.of_frame (d.zeroWords_only s) rfl).trans (Dev.stopBoost_keepsBoosts ..).toKeepsDrive).trans
      (Dev.darkSide_keepsBoosts (may := True) _ s).toKeepsDrive
  have hpark : ∀ e : Dev, e.KeepsDrive (e.modMportEv s fun p => p.park false) := fun e => .of_frame (e.modMportEv_only ..) rfl
  exact (hdark.trans (Dev.modLside_keepsDrive _ s (f := fun p => { p with r := 0, rRamp := none, ignited := false })
    fun _ => rfl)).trans (hpark _)

theorem Dev.enterStandby_keepsDrive (d : Dev) : d.KeepsDrive d.enterStandby := by
  unfold Dev.enterStandby
  extract_lets dark d1 c q d2
  have h1 : d.KeepsDrive d1 := ((Dev.KeepsDrive.foldl Dev.standbySide_keepsDrive d.sides d).trans
    (Dev.release_keepsDrive _ .ignition)).trans (Dev.release_keepsDrive _ .globalReset)
  have h2 : d.KeepsDrive d2 := h1.trans (.of_eq rfl rfl)
  exact ((((h2.trans (Dev.goTo_keepsDrive ..)).thenFrame (Dev.reqEffective_only ..) rfl).thenFrame (Dev.freeCam_only _) rfl).trans
    (Dev.changeAtStandby_keepsDrive _)).trans (Dev.standbyEntered_keepsDrive _)

/-- The end of SAFE and the start of the beam leave what the lamp drive has read. -/
theorem Dev.afterClear_keepsDrive (d : Dev) : d.KeepsDrive d.afterClear := by
  have hleave : d.KeepsDrive d.leaveSafe := by
    unfold Dev.leaveSafe
    split
    · exact d.enterStandby_keepsDrive.trans (Dev.settle_keepsDrive _)
    · exact .refl d
  exact hleave.trans (Dev.settle_keepsDrive _)

end Sys2Proof.Machine
end

section
/-! Board temperature and dimming inputs (O58). -/

namespace Sys2Proof.Machine

open Sys2Proof

/-! ### Board temperature (R289, R290) -/

theorem exec_boardTempRead (sd : Side) (r : BoardReading) (s : State) :
    exec (.boardTempRead sd r) s = s.onLamp sd fun d k => (d.boardRead k r).afterClear := rfl
theorem exec_sensorSubstitute (sd : Side) (s : State) : exec (.sensorSubstitute sd) s = s.onLamp sd fun d k => d.substitute k := rfl

/-- A reading comes from the sensor that SENSOR_SEL names. -/
def Dev.ownReading (d : Dev) (s : Nat) (r : BoardReading) : Bool :=
  match r with
  | .ntc _ => d.par kLmpSensorSel s == 0
  | _ => d.par kLmpSensorSel s == 1

theorem Dev.boardRead_eq (d : Dev) (s : Nat) (r : BoardReading) :
    d.boardRead s r = if d.ownReading s r then (d.boardT s r).2.takeBoard s (d.boardT s r).1 else d := by
  have hnot : ∀ b : Bool, ∀ x y : Dev, (if (!b) = true then x else y) = if b = true then y else x := by
    intro b x y
    cases b <;> rfl
  unfold Dev.boardRead Dev.ownReading
  cases r <;> exact hnot ..

/-- A reading may draw a free value, and leaves the lamp drive. -/
theorem Dev.boardT_lside (d : Dev) (s : Nat) (r : BoardReading) (k : Nat) : (d.boardT s r).2.lside k = d.lside k :=
  congrArg (fun l : Lamp => l.sides.get k) ((d.boardT_only s r).part .lamp rfl)

/-- An accepted reading is the tenth in a row, and the side is substituted: the substitution ends. -/
def LampSide.endsSubstitution (p : LampSide) : Bool := p.substituted && decide (10 ≤ min 10 (p.goodReads + 1))

/-- A side after an accepted reading. -/
def LampSide.withReading (p : LampSide) (t : Int) : LampSide :=
  { p with
    tBoard := openRound 0 t fxOne.toNat, tFine := t, everValid := true, goodReads := min 10 (p.goodReads + 1),
    substituted := p.substituted && !p.endsSubstitution }

theorem LampSide.endsSubstitution_eq (p : LampSide) : p.endsSubstitution = (p.substituted && decide (9 ≤ p.goodReads)) :=
  congrArg (p.substituted && ·) (decide_eq_decide.2 (by omega))

theorem LampSide.withReading_substituted (p : LampSide) (t : Int) :
    (p.withReading t).substituted = (p.substituted && !decide (9 ≤ p.goodReads)) := by
  show (p.substituted && !p.endsSubstitution) = _
  rw [p.endsSubstitution_eq]
  cases p.substituted <;> rfl

/-- An accepted reading is taken, and clears LAMP_SENSOR where it ends a substitution. -/
theorem Dev.takeBoard_of_accepted {d : Dev} {s : Nat} {t : Int} (h : (d.lside s).acceptsT t = true) :
    ∃ e : Dev, e.lside s = (d.lside s).withReading t ∧
      d.takeBoard s (some t) = if (d.lside s).endsSubstitution then e.clearFault 0x0A0A s else e :=
  ⟨_, Dev.lside_modLside_self .., if_pos h⟩

theorem Dev.takeBoard_lside {d : Dev} {s : Nat} {t : Int} (h : (d.lside s).acceptsT t = true) :
    (d.takeBoard s (some t)).lside s = (d.lside s).withReading t := by
  obtain ⟨e, he, htake⟩ := Dev.takeBoard_of_accepted h
  rw [htake]
  split
  · exact (congrArg (fun l : Lamp => l.sides.get s) ((e.clearFault_only 0x0A0A s).part .lamp rfl)).trans he
  · exact he

theorem Dev.takeBoard_clears {d : Dev} {s : Nat} {t : Int} (h : (d.lside s).acceptsT t = true)
    (hsub : (d.lside s).substituted = true) (h9 : 9 ≤ (d.lside s).goodReads) :
    (d.takeBoard s (some t)).faultActive 0x0A0A s = false := by
  obtain ⟨e, -, htake⟩ := Dev.takeBoard_of_accepted h
  rw [htake, if_pos (by rw [LampSide.endsSubstitution_eq, hsub, decide_eq_true h9]; rfl)]
  exact Dev.clearFault_self ..

/-- A reading that is invalid, or that R290 does not accept, breaks the row of good ones. -/
theorem Dev.takeBoard_of_rejected {d : Dev} {s : Nat} {t : Option Int} (h : ∀ v, t = some v → (d.lside s).acceptsT v = false) :
    d.takeBoard s t = d.modLside s fun p => { p with goodReads := 0 } := by
  unfold Dev.takeBoard
  cases t with
  | none => rfl
  | some v => exact if_neg (ne_true_of_eq_false (h v rfl))

theorem Dev.boardTempRead_only (d : Dev) (s : Nat) (r : BoardReading) : d.onlyChanges (d.boardRead s r).afterClear
    [.core, .prm, .clk, .sluice, .host, .req, .links, .cmp, .seq, .cam, .ports, .lamp, .gov, .saf, .upd, .free] :=
  ((d.boardRead_only s r).mono (by decide)).trans ((Dev.afterClear_only _).mono (by decide))

section
variable {s : State} {sd : Side} {r : BoardReading}

/-- The block that a reading of the side's own sensor is taken in reads the side as it was. -/
theorem boardTempRead_accepted {t : Int} (hg : s.dev.govRuns = true) (hs : s.dev.sides.contains sd.ix = true)
    (hown : s.dev.ownReading sd.ix r = true) (ht : (s.dev.boardT sd.ix r).1 = some t)
    (ha : (s.dev.lside sd.ix).acceptsT t = true) :
    Runs (.boardTempRead sd r) s [.core, .prm, .clk, .sluice, .host, .req, .links, .cmp, .seq, .cam, .ports, .lamp, .gov,
      .saf, .upd, .free] fun d =>
      (d.lside sd.ix).tFine = t ∧ (d.lside sd.ix).tBoard = openRound 0 t fxOne.toNat ∧ (d.lside sd.ix).everValid = true ∧
      (d.lside sd.ix).goodReads = min 10 ((s.dev.lside sd.ix).goodReads + 1) ∧
      (d.lside sd.ix).substituted = ((s.dev.lside sd.ix).substituted && !decide (9 ≤ (s.dev.lside sd.ix).goodReads)) ∧
      (s.dev.core.state = .beam ∨ s.dev.core.state = .degraded → (s.dev.lside sd.ix).substituted = true →
        9 ≤ (s.dev.lside sd.ix).goodReads → d.faultActive 0x0A0A sd.ix = false) := by
  have hread : s.dev.boardRead sd.ix r = (s.dev.boardT sd.ix r).2.takeBoard sd.ix (some t) := by
    rw [s.dev.boardRead_eq, if_pos hown, ht]
  have ha' : ((s.dev.boardT sd.ix r).2.lside sd.ix).acceptsT t = true := by rwa [Dev.boardT_lside]
  have hside : (s.dev.boardRead sd.ix r).lside sd.ix = (s.dev.lside sd.ix).withReading t := by
    rw [hread, Dev.takeBoard_lside ha', Dev.boardT_lside]
  have hcore : (s.dev.boardRead sd.ix r).core = s.dev.core := (s.dev.boardRead_only sd.ix r).core rfl
  refine Runs.of_onLamp (exec_boardTempRead sd r s) hg hs rfl (s.dev.boardTempRead_only sd.ix r) ?_
  have hkeeps := (s.dev.boardRead sd.ix r).afterClear_keepsDrive
  refine ⟨?_, ?_, ?_, ?_, ?_, fun hlit hsub h9 => ?_⟩
  · rw [hkeeps.tFine, hside]; rfl
  · rw [hkeeps.tBoard, hside]; rfl
  · rw [hkeeps.everValid, hside]; rfl
  · rw [hkeeps.goodReads, hside]; rfl
  · rw [hkeeps.substituted, hside, LampSide.withReading_substituted]
  · have hstays : (s.dev.boardRead sd.ix r).afterClear = s.dev.boardRead sd.ix r := by
      apply Dev.afterClear_of_lit <;> rw [hcore] <;> rcases hlit with hl | hl <;> rw [hl] <;> nofun
    rw [hstays, hread]
    rw [← Dev.boardT_lside _ _ r] at hsub h9
    exact Dev.takeBoard_clears ha' hsub h9

theorem boardTempRead_rejected (hg : s.dev.govRuns = true) (hs : s.dev.sides.contains sd.ix = true)
    (hown : s.dev.ownReading sd.ix r = true)
    (h : ∀ t, (s.dev.boardT sd.ix r).1 = some t → (s.dev.lside sd.ix).acceptsT t = false) :
    Runs (.boardTempRead sd r) s [.core, .prm, .clk, .sluice, .host, .req, .links, .cmp, .seq, .cam, .ports, .lamp, .gov,
      .saf, .upd, .free] fun d =>
      (d.lside sd.ix).goodReads = 0 ∧ (d.lside sd.ix).tFine = (s.dev.lside sd.ix).tFine ∧
      (d.lside sd.ix).tBoard = (s.dev.lside sd.ix).tBoard ∧ (d.lside sd.ix).everValid = (s.dev.lside sd.ix).everValid ∧
      (d.lside sd.ix).substituted = (s.dev.lside sd.ix).substituted := by
  have hside : (s.dev.boardRead sd.ix r).lside sd.ix = { s.dev.lside sd.ix with goodReads := 0 } := by
    rw [s.dev.boardRead_eq, if_pos hown, Dev.takeBoard_of_rejected (by rwa [Dev.boardT_lside]), Dev.lside_modLside_self,
      Dev.boardT_lside]
  refine Runs.of_onLamp (exec_boardTempRead sd r s) hg hs rfl (s.dev.boardTempRead_only sd.ix r) ?_
  have hkeeps := (s.dev.boardRead sd.ix r).afterClear_keepsDrive
  exact ⟨by rw [hkeeps.goodReads, hside], by rw [hkeeps.tFine, hside], by rw [hkeeps.tBoard, hside],
    by rw [hkeeps.everValid, hside], by rw [hkeeps.substituted, hside]⟩

/-- A reading of the sensor that is not in use changes no temperature. -/
theorem boardTempRead_other (hg : s.dev.govRuns = true) (hs : s.dev.sides.contains sd.ix = true)
    (hown : s.dev.ownReading sd.ix r = false) :
    Runs (.boardTempRead sd r) s [.core, .prm, .clk, .sluice, .host, .req, .links, .cmp, .seq, .cam, .ports, .lamp, .gov, .saf,
      .upd, .free] fun d =>
      (d.lside sd.ix).goodReads = (s.dev.lside sd.ix).goodReads ∧ (d.lside sd.ix).tFine = (s.dev.lside sd.ix).tFine ∧
      (d.lside sd.ix).tBoard = (s.dev.lside sd.ix).tBoard ∧ (d.lside sd.ix).everValid = (s.dev.lside sd.ix).everValid ∧
      (d.lside sd.ix).substituted = (s.dev.lside sd.ix).substituted := by
  refine Runs.of_onLamp (exec_boardTempRead sd r s) hg hs rfl (s.dev.boardTempRead_only sd.ix r) ?_
  have hkeeps := (s.dev.boardRead sd.ix r).afterClear_keepsDrive
  rw [show s.dev.boardRead sd.ix r = s.dev by rw [s.dev.boardRead_eq, if_neg (ne_true_of_eq_false hown)]] at hkeeps ⊢
  exact ⟨hkeeps.goodReads _, hkeeps.tFine _, hkeeps.tBoard _, hkeeps.everValid _, hkeeps.substituted _⟩

theorem sensorSubstitute_runs (hg : s.dev.govRuns = true) (hs : s.dev.sides.contains sd.ix = true)
    (h : (s.dev.lside sd.ix).substituted = false) :
    Runs (.sensorSubstitute sd) s [.prm, .sluice, .host, .links, .seq, .ports, .lamp, .gov, .saf, .jnl] fun d =>
      (d.lside sd.ix).substituted = true ∧ (d.lside sd.ix).goodReads = 0 ∧ (d.lside sd.ix).tFine = (s.dev.lside sd.ix).tFine ∧
      (s.dev.mutedFault 0x0A0A sd.ix = false → d.faultActive 0x0A0A sd.ix = true) := by
  refine Runs.of_onLamp (exec_sensorSubstitute sd s) hg hs rfl (s.dev.substitute_only sd.ix) ?_
  rw [show s.dev.substitute sd.ix = _ from if_neg (ne_true_of_eq_false h)]
  have hside := s.dev.lside_modLside_self sd.ix fun p => { p with substituted := true, goodReads := 0 }
  refine ⟨?_, ?_, ?_, fun hm => Dev.raise_self _ _ rfl hm⟩
  · rw [(Dev.raise_keepsBoosts ..).substituted, hside]
  · rw [(Dev.raise_keepsBoosts ..).goodReads, hside]
  · rw [(Dev.raise_keepsBoosts ..).tFine, hside]

end

/-! ### Dimming inputs (R298, R299) -/

theorem exec_dimPwmEdge (period high : Nat) (s : State) :
    exec (.dimPwmEdge period high) s = s.on fun d => if d.govRuns then (d.pwmEdge period high).afterClear else d := rfl
theorem exec_dimInputLoss (source : Nat) (s : State) :
    exec (.dimInputLoss source) s = s.on fun d => if d.govRuns ∧ source ≤ 2 then d.dimLoss source else d := rfl

/-- A selected input that leaves loss ends the loss that stands. -/
theorem Dev.dimRestored_lamp (d : Dev) (source : Nat) : (d.dimRestored source).lamp =
    if d.dimSelected = source ∧ d.lamp.dimLost = true then
      { d.lamp with dimLost := false, dimTodo := if d.lamp.dimPending.isSome then 0 else 2 }
    else d.lamp := by
  unfold Dev.dimRestored
  split
  · exact ((Dev.clearFault_only ..).part .lamp rfl).trans (Dev.post_quiet ..).lamp
  · rfl

/-- The block with a valid DIM_PWM period taken and counted. -/
def Dev.pwmTaken (d : Dev) (period high : Nat) : Dev :=
  { d with lamp := { d.lamp with
      pwm := { d.lamp.pwm.valid.1 with
        accum := (roundHalfUp ((min high period : Nat) * 65535) period).toNat :: d.lamp.pwm.valid.1.accum }
      pwmPeriod := period } }

theorem Dev.pwmEdge_of_valid (d : Dev) {period : Nat} (high : Nat) (hlo : 5000 ≤ period) (hhi : period ≤ 1000000) :
    d.pwmEdge period high =
      if d.lamp.pwm.valid.2 then (d.pwmTaken period high).dimRestored 1 else d.pwmTaken period high :=
  if_pos ⟨hlo, hhi⟩

theorem Dev.pwmEdge_of_invalid (d : Dev) {period : Nat} (high : Nat) (h : period < 5000 ∨ 1000000 < period) :
    d.pwmEdge period high = { d with lamp := { d.lamp with pwm := { d.lamp.pwm with validRun := 0 } } } :=
  if_neg (by omega)

/-- The third valid input in a row is followed by the one that ends a loss. -/
theorem DimIn.valid_eq (i : DimIn) : i.valid =
    ({ i with validRun := min 4 (i.validRun + 1), loss := i.loss && decide (i.validRun < 3) },
      i.loss && decide (3 ≤ i.validRun)) := by
  have hlt : decide (min 4 (i.validRun + 1) < 4) = decide (i.validRun < 3) := decide_eq_decide.2 (by omega)
  have hle : decide (4 ≤ min 4 (i.validRun + 1)) = decide (3 ≤ i.validRun) := decide_eq_decide.2 (by omega)
  unfold DimIn.valid
  dsimp only
  rw [hlt, hle]

theorem Dev.pwmEdge_inputs (d : Dev) {period : Nat} (high : Nat) (hlo : 5000 ≤ period) (hhi : period ≤ 1000000) :
    (d.pwmEdge period high).lamp.pwmPeriod = period ∧ (d.pwmEdge period high).lamp.pwm = (d.pwmTaken period high).lamp.pwm ∧
      (d.pwmEdge period high).lamp.dimLost =
        (d.lamp.dimLost && !(d.lamp.pwm.loss && decide (3 ≤ d.lamp.pwm.validRun) && decide (d.dimSelected = 1))) := by
  have hback : d.lamp.pwm.valid.2 = (d.lamp.pwm.loss && decide (3 ≤ d.lamp.pwm.validRun)) := by rw [DimIn.valid_eq]
  have hsel : (d.pwmTaken period high).dimSelected = d.dimSelected := rfl
  have hlost : (d.pwmTaken period high).lamp.dimLost = d.lamp.dimLost := rfl
  rw [d.pwmEdge_of_valid high hlo hhi, hback]
  by_cases hb : (d.lamp.pwm.loss && decide (3 ≤ d.lamp.pwm.validRun)) = true
  · rw [if_pos hb, Dev.dimRestored_lamp, hb, hsel, hlost]
    by_cases hr : d.dimSelected = 1 ∧ d.lamp.dimLost = true
    · rw [if_pos hr]
      exact ⟨rfl, rfl, by simp [hr.1]⟩
    · rw [if_neg hr]
      refine ⟨rfl, rfl, hlost.trans ?_⟩
      by_cases hs : d.dimSelected = 1
      · simp [hs, Bool.eq_false_iff.2 fun hl => hr ⟨hs, hl⟩]
      · simp [hs]
  · rw [if_neg hb, Bool.eq_false_iff.2 hb]
    exact ⟨rfl, rfl, by simp [hlost]⟩

section
variable {s : State} {period : Nat} (high : Nat)

theorem Runs.of_dimPwmEdge {effect : Dev → Prop} (hg : s.dev.govRuns = true) (e : effect (s.dev.pwmEdge period high).afterClear) :
    Runs (.dimPwmEdge period high) s [.core, .prm, .clk, .sluice, .host, .req, .links, .cmp, .seq, .cam, .ports, .lamp, .gov,
      .saf, .upd] effect :=
  ⟨_, exec_of_on (exec_dimPwmEdge period high s) (if_pos hg),
    ((s.dev.pwmEdge_only period high).mono (by decide)).trans (Dev.afterClear_only _), e⟩

theorem dimPwmEdge_valid (hg : s.dev.govRuns = true) (hlo : 5000 ≤ period) (hhi : period ≤ 1000000) :
    Runs (.dimPwmEdge period high) s [.core, .prm, .clk, .sluice, .host, .req, .links, .cmp, .seq, .cam, .ports, .lamp, .gov,
      .saf, .upd] fun d =>
      d.lamp.pwmPeriod = period ∧
      d.lamp.pwm.accum = (roundHalfUp ((min high period : Nat) * 65535) period).toNat :: s.dev.lamp.pwm.accum ∧
      d.lamp.pwm.validRun = min 4 (s.dev.lamp.pwm.validRun + 1) ∧
      d.lamp.pwm.loss = (s.dev.lamp.pwm.loss && decide (s.dev.lamp.pwm.validRun < 3)) ∧
      d.lamp.dimLost = (s.dev.lamp.dimLost &&
        !(s.dev.lamp.pwm.loss && decide (3 ≤ s.dev.lamp.pwm.validRun) && decide (s.dev.dimSelected = 1))) := by
  obtain ⟨hperiod, hpwm, hlost⟩ := s.dev.pwmEdge_inputs high hlo hhi
  have hkeeps := (s.dev.pwmEdge period high).afterClear_keepsDrive
  refine .of_dimPwmEdge high hg ⟨hkeeps.pwmPeriod.trans hperiod, ?_, ?_, ?_, hkeeps.dimLost.trans hlost⟩
  all_goals
    rw [hkeeps.pwm, hpwm, Dev.pwmTaken, DimIn.valid_eq]

theorem dimPwmEdge_invalid (hg : s.dev.govRuns = true) (h : period < 5000 ∨ 1000000 < period) :
    Runs (.dimPwmEdge period high) s [.core, .prm, .clk, .sluice, .host, .req, .links, .cmp, .seq, .cam, .ports, .lamp, .gov,
      .saf, .upd] fun d =>
      d.lamp.pwm = { s.dev.lamp.pwm with validRun := 0 } ∧ d.lamp.pwmPeriod = s.dev.lamp.pwmPeriod ∧
      d.lamp.dimLost = s.dev.lamp.dimLost := by
  have hkeeps := (s.dev.pwmEdge period high).afterClear_keepsDrive
  refine .of_dimPwmEdge high hg ?_
  rw [hkeeps.pwm, hkeeps.pwmPeriod, hkeeps.dimLost, s.dev.pwmEdge_of_invalid high h]
  exact ⟨rfl, rfl, rfl⟩

end

/-- An input in loss. -/
def DimIn.lost (i : DimIn) : DimIn := { i with loss := true, validRun := 0 }

/-- The block with an input in loss, whatever is selected. -/
def Dev.inputLost (d : Dev) (source : Nat) : Dev :=
  if source = 1 then { d with lamp := { d.lamp with pwm := d.lamp.pwm.lost } }
  else { d with lamp := { d.lamp with ain := d.lamp.ain.lost } }

/-- The block with the selected input in loss, before the fault is raised. -/
def Dev.selectedLost (d : Dev) (source : Nat) : Dev :=
  { d.inputLost source with
    lamp := { (d.inputLost source).lamp with dimLost := true, dimTodo := if d.lamp.dimPending.isSome then 0 else 1 } }

theorem Dev.dimLoss_of_live {d : Dev} {source : Nat} (hs : source = 1 ∨ source = 2) (h : (d.lamp.dimIn source).loss = false) :
    d.dimLoss source =
      if d.dimSelected = source then (d.selectedLost source).raise 0x0A0B 0 source else d.inputLost source :=
  if_neg (not_or.2 ⟨by omega, ne_true_of_eq_false h⟩)

theorem Dev.inputLost_inputs (d : Dev) {source : Nat} (hs : source = 1 ∨ source = 2) :
    (d.inputLost source).lamp.dimIn source = (d.lamp.dimIn source).lost ∧
      (d.inputLost source).lamp.dimIn (3 - source) = d.lamp.dimIn (3 - source) ∧
      (d.inputLost source).lamp.dimLost = d.lamp.dimLost ∧ (d.inputLost source).saf = d.saf := by
  rcases hs with rfl | rfl <;> exact ⟨rfl, rfl, rfl, rfl⟩

theorem Dev.selectedLost_muted (d : Dev) (source code inst : Nat) :
    (d.selectedLost source).mutedFault code inst = d.mutedFault code inst := by
  unfold Dev.selectedLost Dev.inputLost
  split <;> rfl

theorem dimInputLoss_runs {s : State} {source : Nat} (hg : s.dev.govRuns = true) (hs : source = 1 ∨ source = 2)
    (h : (s.dev.lamp.dimIn source).loss = false) :
    Runs (.dimInputLoss source) s [.prm, .sluice, .host, .links, .seq, .ports, .lamp, .gov, .saf, .jnl] fun d =>
      (d.lamp.dimIn source).loss = true ∧ (d.lamp.dimIn source).validRun = 0 ∧
      d.lamp.dimIn (3 - source) = s.dev.lamp.dimIn (3 - source) ∧
      (s.dev.dimSelected ≠ source → d.lamp.dimLost = s.dev.lamp.dimLost ∧ d.saf = s.dev.saf) ∧
      (s.dev.dimSelected = source → d.lamp.dimLost = true ∧
        d.lamp.dimTodo = (if s.dev.lamp.dimPending.isSome then 0 else 1) ∧
        (s.dev.mutedFault 0x0A0B 0 = false → d.faultActive 0x0A0B 0 = true)) := by
  refine ⟨_, exec_of_on (exec_dimInputLoss source s) (if_pos ⟨hg, by omega⟩), s.dev.dimLoss_only source, ?_⟩
  obtain ⟨hself, hother, hlost, hsaf⟩ := s.dev.inputLost_inputs hs
  rw [Dev.dimLoss_of_live hs h]
  by_cases hsel : s.dev.dimSelected = source
  · rw [if_pos hsel]
    have hkeeps := (s.dev.selectedLost source).raise_keepsBoosts 0x0A0B 0 source
    have hsame : ∀ k, (s.dev.selectedLost source).lamp.dimIn k = (s.dev.inputLost source).lamp.dimIn k := fun _ => rfl
    rw [hkeeps.dimIn, hkeeps.dimIn, hsame, hsame, hself, hother]
    exact ⟨rfl, rfl, rfl, fun hn => absurd hsel hn, fun _ => ⟨hkeeps.dimLost, hkeeps.dimTodo, fun hm =>
      Dev.raise_self _ _ rfl ((s.dev.selectedLost_muted ..).trans hm)⟩⟩
  · rw [if_neg hsel, hself, hother]
    exact ⟨rfl, rfl, rfl, fun _ => ⟨hlost, hsaf⟩, fun hn => absurd hn hsel⟩

theorem exec_dimInputLoss_idle {s : State} {source : Nat}
    (h : s.dev.govRuns = false ∨ source = 0 ∨ 2 < source ∨ (s.dev.lamp.dimIn source).loss = true) :
    exec (.dimInputLoss source) s = .next s := by
  refine exec_of_on (exec_dimInputLoss source s) ?_
  split
  · next hrun =>
    obtain ⟨hg, hle⟩ := hrun
    refine if_pos ?_
    rcases h with h | h | h | h
    · exact absurd (hg.symm.trans h) (by decide)
    · exact .inl h
    · omega
    · exact .inr h
  · rfl

/-- Settles O58: a reading or a period is taken by one operation of the lamp drive, and neither the fault that follows it nor what
its clearance brings touches what it has taken. -/
theorem lampInputs : Obligations.LampInputs := by
  unfold Obligations.LampInputs
  refine ⟨?_, ?_, ?_, ?_, ?_, ?_, ?_⟩
  · intro s sd r hg hs hown
    exact ⟨fun t ht ha => boardTempRead_accepted hg hs hown ht ha, fun h => boardTempRead_rejected hg hs hown h⟩
  · intro s sd r hg hs hown
    exact boardTempRead_other hg hs hown
  · intro s sd hg hs h
    exact sensorSubstitute_runs hg hs h
  · intro s sd r
    exact ⟨fun h => ⟨exec_onLamp_absent (exec_boardTempRead sd r s) h, exec_onLamp_absent (exec_sensorSubstitute sd s) h⟩,
      fun h => exec_onLamp_idle (exec_sensorSubstitute sd s) (if_pos h)⟩
  · intro s period high hg
    exact ⟨dimPwmEdge_valid high hg, dimPwmEdge_invalid high hg⟩
  · intro s source hg hs h
    exact dimInputLoss_runs hg hs h
  · intro s source period high
    exact ⟨exec_dimInputLoss_idle, fun hg => exec_of_on (exec_dimPwmEdge period high s) (if_neg (ne_true_of_eq_false hg))⟩

end Sys2Proof.Machine
end

section
/-! The Governor's time through a tick and through calibration, slots that take their fault, and good diagnostic pulses. -/

namespace Sys2Proof.Machine

open Sys2Proof

/-! ### The Governor's time -/

/-- The Governor's time is the same in two states of the block. -/
def Dev.KeepsTime (a b : Dev) : Prop := b.gov.time = a.gov.time

namespace Dev.KeepsTime

theorem refl (d : Dev) : d.KeepsTime d := rfl

theorem trans {a b c : Dev} (h : a.KeepsTime b) (g : b.KeepsTime c) : a.KeepsTime c := Eq.trans g h

theorem of_frame {a b : Dev} {l : List Part} (h : a.onlyChanges b l) (hl : l.contains .gov = false) : a.KeepsTime b :=
  congrArg Gov.time (h.part .gov hl)

theorem withLamp (d : Dev) (q : Lamp) : d.KeepsTime { d with lamp := q } := rfl
theorem withCal (d : Dev) (q : Cal) : d.KeepsTime { d with cal := q } := rfl
theorem withAux (d : Dev) (xs : List Nat) : d.KeepsTime { d with gov := { d.gov with aux := xs } } := rfl
theorem withGov (d : Dev) (q : Gov) (h : q.time = d.gov.time) : d.KeepsTime { d with gov := q } := h

theorem thenFrame {a b c : Dev} {l : List Part} (h : a.KeepsTime b) (g : b.onlyChanges c l) (hl : l.contains .gov = false) :
    a.KeepsTime c :=
  h.trans (of_frame g hl)

theorem foldl {α : Type} {f : Dev → α → Dev} (hf : ∀ (e : Dev) x, e.KeepsTime (f e x)) (xs : List α) (d : Dev) :
    d.KeepsTime (xs.foldl f d) := by
  induction xs generalizing d with
  | nil => exact refl d
  | cons x xs ih => exact (hf d x).trans (ih _)

theorem tick {a b : Dev} (h : a.KeepsTime b) : b.gov.tick = a.gov.tick := (congrArg Gov.tick h :)
theorem refreshDue {a b : Dev} (h : a.KeepsTime b) : b.gov.refreshDue = a.gov.refreshDue := (congrArg Gov.refreshDue h :)
theorem sinceReset {a b : Dev} (h : a.KeepsTime b) : b.gov.sinceReset = a.gov.sinceReset := (congrArg Gov.sinceReset h :)

end Dev.KeepsTime

theorem Dev.raise_keepsTime (d : Dev) (code inst arg : Nat) : d.KeepsTime (d.raise code inst arg) :=
  (d.raise_keepsBoosts code inst arg).time

theorem Dev.modSlot_keepsTime (d : Dev) (n : Nat) (f : Slot → Slot) : d.KeepsTime (d.modSlot n f) := rfl

theorem Dev.detect_keepsTime (d : Dev) (c bit code arg : Nat) : d.KeepsTime (d.detect c bit code arg) :=
  ((Dev.KeepsTime.of_frame (d.modChan_only c _) rfl).thenFrame (Dev.latch_only _ c code) rfl).trans (Dev.raise_keepsTime ..)

/-! ### Slots in a tick -/

theorem Dev.slotSafe_keepsTime (d : Dev) (n : Nat) : d.KeepsTime (d.slotSafe n) := by
  unfold Dev.slotSafe
  split
  · exact .refl d
  · extract_lets c d1
    have h1 : d.KeepsTime d1 := d.modSlot_keepsTime n _
    split
    · exact h1.thenFrame (d1.modChan_only n _) rfl
    · split
      · exact h1.trans (d1.stopBoost_keepsBoosts (slotSide n)).time
      · exact h1

theorem Dev.slotFault_keepsTime (d : Dev) (n code arg : Nat) : d.KeepsTime (d.slotFault n code arg) := by
  unfold Dev.slotFault
  extract_lets d1
  have h1 : d.KeepsTime d1 := d.slotSafe_keepsTime n
  refine KeepsTime.trans ?_ (Dev.raise_keepsTime ..)
  split
  · exact h1.thenFrame (d1.latch_only n code) rfl
  · exact h1

theorem Dev.stepFunction_keepsTime (d : Dev) (n : Nat) : d.KeepsTime (d.stepFunction n) := by
  unfold Dev.stepFunction
  split
  · split
    · exact d.modSlot_keepsTime n _
    · exact .refl d
  · split
    · exact .refl d
    · exact d.modSlot_keepsTime n _
  · exact .refl d

theorem Dev.takeRecord_keepsTime (d : Dev) (n : Nat) (held : Bool) : d.KeepsTime (d.takeRecord n held) := by
  unfold Dev.takeRecord
  split
  · exact .refl d
  · exact KeepsTime.trans (d.modSlot_keepsTime n _) (Dev.modSlot_keepsTime ..)

theorem Dev.stepDivide_keepsTime (d : Dev) (n : Nat) : d.KeepsTime (d.stepDivide n) := by
  unfold Dev.stepDivide
  extract_lets c may want
  split
  · exact d.modSlot_keepsTime n _
  · split
    · exact d.modSlot_keepsTime n _
    · exact .refl d

theorem Dev.stepSafe_keepsTime (d : Dev) (n : Nat) : d.KeepsTime (d.stepSafe n) := by
  unfold Dev.stepSafe
  extract_lets s c k u d1
  split
  · have h1 : d.KeepsTime d1 := d.modSlot_keepsTime n _
    split
    · exact h1.thenFrame (d1.modChan_only n _) rfl
    · exact h1
  · exact .refl d

theorem Dev.evalDue_keepsTime (d : Dev) (x : Samples) (n : Nat) : d.KeepsTime (d.evalDue x n) := by
  unfold Dev.evalDue
  extract_lets s c sp lim dark s' f ff e e1
  split
  · exact d.stepSafe_keepsTime n
  · split
    · exact d.modSlot_keepsTime n _
    · split
      · exact KeepsTime.thenFrame (d.modSlot_keepsTime n _) (Dev.count_only ..) rfl
      · split
        · exact d.modSlot_keepsTime n _
        · exact d.modSlot_keepsTime n _
  · exact .refl d

theorem Dev.resolve_keepsTime (d : Dev) (g : Nat) : d.KeepsTime (d.resolve g) := by
  unfold Dev.resolve
  split
  · exact .refl d
  · split
    · exact .refl d
    · next w _ =>
      extract_lets uw old g1 d1 d2 margin d3
      have h1 : d.KeepsTime d1 := .withGov d _ rfl
      have h2 : d.KeepsTime d2 := by
        unfold d2
        split
        · exact h1.thenFrame (d1.count_only ..) rfl
        · exact h1
      have h3 : d.KeepsTime d3 := by
        refine h2.trans (.foldl (fun e n => ?_) _ _)
        split
        · exact .refl e
        · exact e.modSlot_keepsTime n _
      split
      · exact h3.thenFrame (d3.modLside_only ..) rfl
      · exact h3

/-! ### Set-points and samples in a tick -/

theorem Dev.stepTo_keepsTime (d : Dev) (c sp : Nat) : d.KeepsTime (d.stepTo c sp) :=
  KeepsTime.trans (.of_frame (d.modChan_only c _) rfl) (Dev.modSlot_keepsTime ..)

theorem Dev.driveDiag_keepsTime (d : Dev) (s : Nat) : d.KeepsTime (d.driveDiag s) := by
  unfold Dev.driveDiag
  extract_lets t window
  refine .foldl (fun e c => ?_) _ d
  extract_lets was on
  split
  · exact .refl e
  · exact (e.stepTo_keepsTime c _).thenFrame (Dev.modChan_only ..) rfl

theorem Dev.applySetpoints_keepsTime (d : Dev) (s : Nat) : d.KeepsTime (d.applySetpoints s) := by
  unfold Dev.applySetpoints
  split
  · exact .refl d
  · extract_lets g d0 w
    have h0 : d.KeepsTime d0 := .refl d
    exact h0.trans (.foldl (fun e c => (KeepsTime.of_frame (e.modChan_only c _) rfl).trans (Dev.stepTo_keepsTime ..)) _ _)

theorem Dev.takeSamples_keepsTime (d : Dev) (x : Samples) : d.KeepsTime (d.takeSamples x) := by
  unfold Dev.takeSamples
  extract_lets d1 d2 d3 g4 d4
  have h1 : d.KeepsTime d1 := .foldl (fun e s => .of_frame (e.takeBoostSamples_only x s) rfl) _ _
  have h2 : d.KeepsTime d2 := h1.trans (.foldl (fun e c => .of_frame (e.takeSample_only x c) rfl) _ _)
  have h3 : d.KeepsTime d3 := h2.trans (.foldl (fun e s => .of_frame (e.takeVh_only x s) rfl) _ _)
  have h4 : d.KeepsTime d4 := h3.trans (.withAux d3 _)
  split
  · exact h4.trans (.withLamp d4 _)
  · exact h4

theorem Dev.coverCheck_keepsTime (d : Dev) (x : Samples) : d.KeepsTime (d.coverCheck x) := by
  unfold Dev.coverCheck
  split
  · exact .refl d
  · next c _ =>
    split
    · extract_lets n q d1
      have h1 : d.KeepsTime d1 := .withCal d _
      split
      · exact h1.trans (d1.detect_keepsTime ..)
      · exact h1
    · exact .refl d

theorem Dev.govBegin_keepsTime (d : Dev) (x : Samples) : d.KeepsTime (d.govBegin x) := by
  unfold Dev.govBegin
  extract_lets g1 d1 d2
  have h1 : d.KeepsTime d1 := .withGov d _ rfl
  have h2 : d.KeepsTime d2 := by
    unfold d2
    split
    · exact h1.thenFrame (d1.count_only ..) rfl
    · exact h1
  split
  · split
    · exact h2.trans (d2.slotFault_keepsTime ..)
    · exact h2
  · exact h2

/-! ### The tick (R315) -/

/-- A tick of the Governor has counted itself and moved the reset's age on. -/
def Dev.Ticked (a b : Dev) : Prop :=
  b.gov.tick = a.gov.tick + 1 ∧ b.gov.refreshDue = false ∧ b.gov.sinceReset = min 0xFFFF (a.gov.sinceReset + 1)

theorem Dev.KeepsTime.govEnd {a b : Dev} (h : a.KeepsTime b) : a.Ticked b.govEnd :=
  ⟨congrArg (· + 1) h.tick, rfl, congrArg (fun t => min 0xFFFF (t + 1)) h.sinceReset⟩

theorem Dev.Ticked.thenKeeps {a b c : Dev} (h : a.Ticked b) (g : b.KeepsTime c) : a.Ticked c := by
  obtain ⟨htick, hdue, hreset⟩ := h
  exact ⟨g.tick.trans htick, g.refreshDue.trans hdue, g.sinceReset.trans hreset⟩

/-- Everything before the count of the tick leaves the time. -/
theorem Dev.govTick_ticked (d : Dev) (x : Samples) : d.Ticked (d.govTick x) := by
  unfold Dev.govTick
  extract_lets here d1 d2 d3 d4 d5
  have h1 : d.KeepsTime d1 := (d.govBegin_keepsTime x).trans
    (.foldl (fun e n => (e.takeRecord_keepsTime n _).trans (Dev.stepDivide_keepsTime ..)) _ _)
  have h2 : d.KeepsTime d2 := h1.trans (.foldl (fun e s =>
    (((e.driveDiag_keepsTime s).trans (Dev.applySetpoints_keepsTime ..)).thenFrame (Dev.forceZero_only _ s) rfl).thenFrame
      (Dev.stepSoft_only _ s) rfl) _ _)
  have h3 : d.KeepsTime d3 := ((h2.trans (d2.takeSamples_keepsTime x)).trans (Dev.coverCheck_keepsTime ..)).trans
    (.foldl (fun e n => e.stepFunction_keepsTime n) _ _)
  have h4 : d.KeepsTime d4 := h3.trans (.foldl (fun e n => e.evalDue_keepsTime x n) _ _)
  have h5 : d.KeepsTime d5 := (h4.trans (.foldl (fun e g => e.resolve_keepsTime g) _ _)).thenFrame (Dev.countLit_only _) rfl
  split
  · exact (h5.thenFrame d5.drawn_only rfl).govEnd
  · exact h5.govEnd

/-! ### Calibration goes on -/

theorem Dev.checkRef_keepsTime (d : Dev) : d.KeepsTime d.checkRef := by
  unfold Dev.checkRef
  split
  · exact .refl d
  · split
    · exact .refl d
    · split
      · exact .of_frame (d.clearFault_only ..) rfl
      · exact ((KeepsTime.of_frame (d.skipChannels_only _) rfl).thenFrame (Dev.post_only ..) rfl).trans (Dev.raise_keepsTime ..)

theorem Dev.beginRun_keepsTime (d : Dev) : d.KeepsTime d.beginRun :=
  ((d.checkRef_keepsTime.thenFrame (Dev.dropLost_only _) rfl).thenFrame (Dev.nextCover_only _ 0) rfl).thenFrame
    (Dev.nextCover_only _ 1) rfl

theorem Dev.askRun_keepsTime (d : Dev) (sc : BitVec 3) (auto : Bool) (p : Port) (tag : Nat) :
    d.KeepsTime (d.askRun sc auto p tag).1 := by
  unfold Dev.askRun
  extract_lets d1
  have h1 : d.KeepsTime d1 := .of_frame (d.request_only .cal) rfl
  have h2 : d.KeepsTime (d1.openRun sc auto false p tag) := h1.thenFrame (Dev.openRun_only ..) rfl
  split
  · exact h2.trans (Dev.beginRun_keepsTime _)
  · split
    · exact h2
    · exact h1

theorem Dev.finishRun_keepsTime (d : Dev) : d.KeepsTime d.finishRun := by
  unfold Dev.finishRun
  split
  · exact .refl d
  · next r _ =>
    split
    · exact .refl d
    · extract_lets n d1 d2 c3 d3 d4 c5 d5
      have h1 : d.KeepsTime d1 := by
        unfold d1
        split
        · exact .refl d
        · exact .of_frame (d.markScopes_only r n) rfl
      have h2 : d.KeepsTime d2 :=
        ((h1.thenFrame (d1.count_only kCalCalRuns 0 1) rfl).thenFrame (Dev.storeSet_only _ r) rfl).thenFrame
          (Dev.release_only _ .cal) rfl
      have h3 : d.KeepsTime d3 := h2.trans (.withCal d2 _)
      have h4 : d.KeepsTime d4 := by
        unfold d4
        split
        · exact h3
        · exact h3.thenFrame (d3.finish_only ..) rfl
      split
      · exact h1
      · split
        · exact h4
        · next sc p tag _ =>
          have h5 : d.KeepsTime d5 := h4.trans (.withCal d4 _)
          have h6 : d.KeepsTime (d5.askRun sc false p tag).1 := h5.trans (d5.askRun_keepsTime ..)
          split
          next d6 ok e =>
          rw [e] at h6
          split
          · exact h6
          · exact h6.thenFrame (Dev.finishWith_only ..) rfl

theorem Dev.calAdvance_keepsTime (d : Dev) : d.KeepsTime d.calAdvance := by
  unfold Dev.calAdvance
  split
  · exact (((KeepsTime.of_frame d.dropLost_only rfl).thenFrame (Dev.nextCover_only _ 0) rfl).thenFrame
      (Dev.nextCover_only _ 1) rfl).trans (Dev.finishRun_keepsTime _)
  · exact .refl d

theorem governorTick_runs {s : State} (x : Samples) (h : s.dev.govRuns = true) :
    Runs (.governorTick x) s
      [.prm, .clk, .sluice, .host, .links, .seq, .ports, .lamp, .gov, .aux, .saf, .jnl, .cal, .free] s.dev.Ticked := by
  have hx : exec (.governorTick x) s = s.on fun d =>
      if d.govRuns then (let d1 := d.govTick x; if d1.cal.overRun = 2 then d1.calAdvance else d1) else d := rfl
  refine .of_on hx ?_ ?_ <;> simp only [h, if_true]
  · split
    · exact (s.dev.govTick_only x).trans (((s.dev.govTick x).calAdvance_only).mono (by decide))
    · exact s.dev.govTick_only x
  · split
    · exact (s.dev.govTick_ticked x).thenKeeps (Dev.calAdvance_keepsTime _)
    · exact s.dev.govTick_ticked x

theorem exec_governorTick_idle {s : State} (x : Samples) (h : s.dev.govRuns = false) : exec (.governorTick x) s = .next s :=
  exec_of_on rfl (if_neg (by simp [h]))

/-! ### Slot faults (R319, R326) -/

/-- What a slot's fault leaves: the fault active where R193 does not mute it, and beyond the slot's own SAFE nothing of the
Governor where no reaction acts on it. -/
def Dev.SlotFaulted (a : Dev) (n code : Nat) (b : Dev) : Prop :=
  (a.mutedFault code n = false → b.faultActive code n = true) ∧
  (a.core.state = .standby ∨ a.mutedFault code n = true → b.gov = (a.slotSafe n).gov)

theorem Dev.slotFault_faulted (d : Dev) {n code : Nat} (arg : Nat) (hrow : (faultRow? code).isSome = true) :
    d.SlotFaulted n code (d.slotFault n code arg) := by
  unfold Dev.slotFault
  extract_lets d1
  have h1 : d.onlyChanges d1 [.prm, .sluice, .lamp, .gov] := d.slotSafe_only n
  have h2 : d1.onlyChanges (if n < 12 then d1.latch n code else d1) [.lamp] := by
    split
    · exact d1.latch_only n code
    · exact Dev.only_refl ..
  generalize (if n < 12 then d1.latch n code else d1) = d2 at h2 ⊢
  have hmuted : d2.mutedFault code n = d.mutedFault code n := (h2.mutedFault rfl ..).trans (h1.mutedFault rfl ..)
  have hcore : d2.core = d.core := (h2.core rfl).trans (h1.core rfl)
  refine ⟨fun hm => d2.raise_self arg hrow (hmuted.trans hm), fun h => ?_⟩
  have hquiet : ¬d2.Reacts ∨ d2.mutedFault code n = true := by
    refine h.imp (fun hs => ?_) hmuted.trans
    simp [Dev.Reacts, hcore, hs]
  exact (Dev.raise_gov arg hquiet).trans (h2.part .gov rfl)

theorem govDeadline_runs {s : State} {n : Nat} (hp : s.dev.slotPresent n = true) (hrun : (s.dev.slot n).st = .run)
    (hmiss : s.dev.par kGovMissLimit 0 ≤ (s.dev.slot n).misses) :
    Runs (.govDeadline n) s [.prm, .sluice, .host, .links, .seq, .ports, .lamp, .gov, .saf, .jnl] (s.dev.SlotFaulted n 0x0902) := by
  have hx : exec (.govDeadline n) s = s.on fun d => d.govDeadline n := rfl
  have hd : s.dev.govDeadline n = s.dev.slotFault n 0x0902 n := if_pos ⟨hp, hrun, hmiss⟩
  refine .of_on hx (s.dev.govDeadline_only n) ?_
  rw [hd]
  exact s.dev.slotFault_faulted n (by decide)

theorem exec_govDeadline_idle {s : State} {n : Nat}
    (h : (s.dev.slot n).st ≠ .run ∨ (s.dev.slot n).misses < s.dev.par kGovMissLimit 0) : exec (.govDeadline n) s = .next s := by
  have hno : ¬(s.dev.slotPresent n ∧ (s.dev.slot n).st = .run ∧ s.dev.par kGovMissLimit 0 ≤ (s.dev.slot n).misses) :=
    fun ⟨_, hrun, hmiss⟩ => h.elim (· hrun) fun hlt => absurd hmiss (Nat.not_le.2 hlt)
  exact exec_of_on rfl (if_neg hno)

/-- Feedback is implausible in one of the two ways of R326. -/
def Dev.Implausible (d : Dev) (n : Nat) : Bool → Prop
  | true => 4 ≤ (d.slot n).outRange
  | false => d.frozen n = true

theorem feedbackLost_runs {s : State} {n : Nat} {range : Bool} (hp : s.dev.slotPresent n = true) (hrun : (s.dev.slot n).st = .run)
    (hlamp : s.dev.lampDecided n = false) (h : s.dev.Implausible n range) :
    Runs (.feedbackLost n range) s [.prm, .sluice, .host, .links, .seq, .ports, .lamp, .gov, .saf, .jnl]
      (s.dev.SlotFaulted n 0x0901) := by
  have hx : exec (.feedbackLost n range) s = s.on fun d => d.feedbackLost n range := rfl
  have hholds : (if range then decide (4 ≤ (s.dev.slot n).outRange) else s.dev.frozen n) = true := by
    cases range
    · exact h
    · exact decide_eq_true h
  have hd : s.dev.feedbackLost n range = s.dev.slotFault n 0x0901 (n + 64 * b2n range) :=
    if_pos ⟨hp, hrun, hholds, by rw [hlamp]; rfl⟩
  refine .of_on hx (s.dev.feedbackLost_only n range) ?_
  rw [hd]
  exact s.dev.slotFault_faulted _ (by decide)

/-! ### Good diagnostic pulses (R305) -/

/-- A good pulse clears the channel's two runs of failures and is counted. -/
def Dev.goodPulse (d : Dev) (c : Nat) : Dev :=
  (d.modChan c fun ch => { ch with pulseOpen := 0, pulseShort := 0 }).count kLmpDiagPulses c 1

theorem Dev.pulse_good (d : Dev) (c : Nat) : d.pulse c false false = d.goodPulse c := rfl

theorem Dev.goodPulse_only (d : Dev) (c : Nat) : d.onlyChanges (d.goodPulse c) [.prm, .lamp] :=
  ((d.modChan_only c _).mono (by decide)).trans ((Dev.count_only ..).mono (by decide))

theorem Dev.goodPulse_inv {d : Dev} (c : Nat) (h : d.Inv) : (d.goodPulse c).Inv := Dev.count_inv _ _ _ _ (d.modChan_inv c _ h)

/-- The pulse counter of channel c has taken one pulse, and its runs of failures are clear. -/
def Dev.TookPulse (a b : Dev) (c : Nat) : Prop :=
  (b.chan c).pulseOpen = 0 ∧ (b.chan c).pulseShort = 0 ∧ b.par kLmpDiagPulses c = satAdd 0xFFFFFFFF (a.par kLmpDiagPulses c) 1

/-- Nothing of a channel's pulses differs in two states of the block. -/
def Dev.SamePulses (a b : Dev) (c : Nat) : Prop := b.chan c = a.chan c ∧ b.par kLmpDiagPulses c = a.par kLmpDiagPulses c

theorem Dev.goodPulse_took {d : Dev} {c : Nat} (hI : d.Inv) (hc : c < 12) : d.TookPulse (d.goodPulse c) c := by
  have hchan : (d.goodPulse c).chan c = { d.chan c with pulseOpen := 0, pulseShort := 0 } :=
    d.chan_modChan_self _ (hI.chans ▸ hc)
  refine ⟨congrArg Chan.pulseOpen hchan, congrArg Chan.pulseShort hchan, ?_⟩
  exact Dev.par_count_self (d := d.modChan c _) c 1 rfl hI.vals

theorem Dev.goodPulse_same (d : Dev) {c k : Nat} (h : k ≠ c) : d.SamePulses (d.goodPulse c) k := by
  have hpid : pid kLmpDiagPulses k ≠ pid kLmpDiagPulses c := by
    unfold pid
    omega
  exact ⟨d.chan_modChan_ne _ h, Dev.par_count_ne _ 1 hpid⟩

theorem Dev.goodPulses_same {cs : List Nat} {k : Nat} (d : Dev) (h : k ∉ cs) : d.SamePulses (cs.foldl Dev.goodPulse d) k := by
  induction cs generalizing d with
  | nil => exact ⟨rfl, rfl⟩
  | cons c cs ih =>
    obtain ⟨hk, hcs⟩ := not_or.1 (mt List.mem_cons.2 h)
    obtain ⟨hchan, hpar⟩ := ih (d.goodPulse c) hcs
    obtain ⟨hchan', hpar'⟩ := d.goodPulse_same hk
    exact ⟨hchan.trans hchan', hpar.trans hpar'⟩

theorem Dev.goodPulses_took {cs : List Nat} {d : Dev} (hI : d.Inv) (hn : cs.Nodup) (hlt : ∀ c ∈ cs, c < 12) :
    ∀ k ∈ cs, d.TookPulse (cs.foldl Dev.goodPulse d) k := by
  induction cs generalizing d with
  | nil => simp
  | cons c cs ih =>
    obtain ⟨hc, hcs⟩ := List.nodup_cons.1 hn
    obtain ⟨hltc, hltcs⟩ := List.forall_mem_cons.1 hlt
    refine List.forall_mem_cons.2 ⟨?_, fun k hk => ?_⟩
    · obtain ⟨hopen, hshort, hpar⟩ := Dev.goodPulse_took hI hltc
      obtain ⟨hchan, hpar'⟩ := (d.goodPulse c).goodPulses_same hc
      exact ⟨(congrArg Chan.pulseOpen hchan).trans hopen, (congrArg Chan.pulseShort hchan).trans hshort, hpar'.trans hpar⟩
    · obtain ⟨hopen, hshort, hpar⟩ := ih (Dev.goodPulse_inv c hI) hcs hltcs k hk
      obtain ⟨-, hpar'⟩ := d.goodPulse_same (k := k) (c := c) fun e => hc (e ▸ hk)
      exact ⟨hopen, hshort, hpar' ▸ hpar⟩

/-- The part's channels: the six of side L, and the six of side R where it has one. -/
theorem Dev.chans_eq (d : Dev) : d.chans = List.range 12 ∨ d.chans = List.range 6 := by
  unfold Dev.chans Dev.sides
  split
  · exact .inl (by decide)
  · exact .inr (by decide)

theorem Dev.pulsed_nodup (d : Dev) : d.pulsed.Nodup :=
  .filter _ (by rcases d.chans_eq with h | h <;> rw [h] <;> exact List.nodup_range)

theorem Dev.lt_of_mem_pulsed {d : Dev} {c : Nat} (h : c ∈ d.pulsed) : c < 12 := by
  have hc : c ∈ d.chans := (List.mem_filter.1 h).1
  rcases d.chans_eq with e | e <;> rw [e, List.mem_range] at hc <;> omega

theorem diagPulse_good {s : State} {opens shorts : List Bool} (hI : s.dev.Inv) (hw : s.dev.inDiagWindow = true)
    (hcal : s.dev.cal.run = none) (hgood : ∀ c ∈ s.dev.pulsed, opens.getD c false = false ∧ shorts.getD c false = false) :
    Runs (.diagPulse opens shorts) s [.prm, .lamp] fun d => ∀ c ∈ s.dev.pulsed, s.dev.TookPulse d c := by
  have hframe : s.dev.onlyChanges (s.dev.pulsed.foldl Dev.goodPulse s.dev) [.prm, .lamp] :=
    Dev.only_foldl _ (fun e c => e.goodPulse_only c) (Dev.only_refl ..)
  have hpulses : s.dev.pulsed.foldl (fun d c => d.pulse c (opens.getD c false) (shorts.getD c false)) s.dev =
      s.dev.pulsed.foldl Dev.goodPulse s.dev :=
    List.foldl_ext _ _ _ fun d c hc => by
      obtain ⟨ho, hs⟩ := hgood c hc
      rw [ho, hs, Dev.pulse_good]
  have hrun : (s.dev.pulsed.foldl Dev.goodPulse s.dev).cal.run = none := (congrArg Cal.run (hframe.part .cal rfl)).trans hcal
  have hx : exec (.diagPulse opens shorts) s = s.on fun d =>
      if d.inDiagWindow then
        (d.pulsed.foldl (fun d c => d.pulse c (opens.getD c false) (shorts.getD c false)) d).calAdvance
      else d := rfl
  have he : (if s.dev.inDiagWindow then
        (s.dev.pulsed.foldl (fun d c => d.pulse c (opens.getD c false) (shorts.getD c false)) s.dev).calAdvance
      else s.dev) = s.dev.pulsed.foldl Dev.goodPulse s.dev := by
    rw [if_pos hw, hpulses, Dev.calAdvance_of_no_run hrun]
  refine .of_on hx ?_ ?_ <;> rw [he]
  · exact hframe
  · exact Dev.goodPulses_took hI s.dev.pulsed_nodup fun c hc => Dev.lt_of_mem_pulsed hc

/-- Settles O38: everything in a tick before its count, and calibration after it, leaves the Governor's time; a slot's fault is its
SAFE state, then a fault that reacts in BEAM and DEGRADED only; and good pulses go channel by channel. -/
theorem governorTicks : Obligations.GovernorTicks :=
  ⟨fun _ x h => governorTick_runs x h,
   fun _ x h => exec_governorTick_idle x h,
   fun _ _ hp hrun hmiss => govDeadline_runs hp hrun hmiss,
   fun _ _ h => exec_govDeadline_idle h,
   fun _ _ hp hrun hlamp h => feedbackLost_runs hp hrun hlamp h,
   fun _ _ hp hrun hlamp h => feedbackLost_runs hp hrun hlamp h,
   fun _ _ _ hI hw hcal hgood => diagPulse_good hI hw hcal hgood⟩

end Sys2Proof.Machine
end

section
/-! What every step keeps: the invariant, the part, and the height of the monotonic counter. Every command completes (O1, O3 to
O5, O47). -/

namespace Sys2Proof.Machine

open Sys2Proof

/-! ### A state that may follow another -/

/-- What any operation leaves: the part is the same, the monotonic counter is no lower (R431), and the invariant is kept. -/
structure Dev.Follows (a b : Dev) : Prop where
  variant : b.variant = a.variant
  counter : a.aon.otpRollback ≤ b.aon.otpRollback
  inv : a.Inv → b.Inv

namespace Dev.Follows

theorem refl (d : Dev) : d.Follows d := ⟨rfl, Nat.le_refl _, id⟩

theorem trans {a b c : Dev} (h : a.Follows b) (g : b.Follows c) : a.Follows c :=
  ⟨g.variant.trans h.variant, h.counter.trans g.counter, g.inv ∘ h.inv⟩

/-- An operation that keeps the invariant, and whose frame leaves the always-on domain alone. -/
theorem op {a b : Dev} {l : List Part} (h : a.onlyChanges b l) (hI : a.Inv → b.Inv) (hl : l.contains .aon = false) :
    a.Follows b :=
  ⟨h.1, (congrArg Aon.otpRollback (h.part .aon hl)).ge, hI⟩

/-- One more such operation. -/
theorem andThen {a b c : Dev} {l : List Part} (h : a.Follows b) (g : b.onlyChanges c l) (hI : b.Inv → c.Inv)
    (hl : l.contains .aon = false) : a.Follows c :=
  h.trans (op g hI hl)

theorem ite {c : Prop} [Decidable c] {a x y : Dev} (hx : a.Follows x) (hy : a.Follows y) : a.Follows (if c then x else y) := by
  split <;> assumption

/-- Where the condition fails, nothing happens. -/
theorem guard {c : Prop} [Decidable c] {a x : Dev} (hx : a.Follows x) : a.Follows (if c then x else a) := hx.ite (refl a)

theorem foldl {α : Type} {f : Dev → α → Dev} (hf : ∀ (e : Dev) x, e.Follows (f e x)) (xs : List α) (d : Dev) :
    d.Follows (xs.foldl f d) := by
  induction xs generalizing d with
  | nil => exact refl d
  | cons x xs ih => exact (hf d x).trans (ih _)

end Dev.Follows

/-! ### Shared operations -/

theorem Dev.finishWith_follows (d : Dev) (p : Port) (tag st : Nat) : d.Follows (d.finishWith p tag st) :=
  .op (d.finishWith_only p tag st) (d.finishWith_inv p tag st) rfl

theorem Dev.ok_follows (d : Dev) (p : Port) (tag : Nat) (b : List Byte) : d.Follows (d.ok p tag b) :=
  .op (d.ok_only p tag b) (d.ok_inv p tag b) rfl

theorem Dev.waits_follows (d : Dev) (p : Port) (tag : Nat) : d.Follows (d.waits p tag) :=
  .op (d.waits_only p tag) (d.waits_inv p tag) rfl

theorem Dev.calAdvance_follows (d : Dev) : d.Follows d.calAdvance := .op d.calAdvance_only d.calAdvance_inv rfl

theorem Dev.calTicket_follows (d : Dev) : d.Follows d.calTicket := .op d.calTicket_only d.calTicket_inv rfl

theorem Dev.settle_follows (d : Dev) : d.Follows d.settle := .op d.settle_only d.settle_inv rfl

theorem Dev.afterClear_follows (d : Dev) : d.Follows d.afterClear := .op d.afterClear_only d.afterClear_inv rfl

theorem Dev.post_follows (d : Dev) (c a : Nat) : d.Follows (d.post c a) := .op (d.post_only c a) (d.post_inv c a) rfl

theorem Dev.modLink_follows (d : Dev) (l : LinkId) (f : Link → Link) : d.Follows (d.modLink l f) :=
  .op (d.modLink_only l f) (d.modLink_inv l f) rfl

theorem Dev.modMport_follows (d : Dev) (k : Nat) (f : MPort → MPort) : d.Follows (d.modMport k f) :=
  .op (d.modMport_only k f) (d.modMport_inv k f) rfl

theorem Dev.modCam_follows (d : Dev) (f : Cam → Cam) : d.Follows (d.modCam f) := .op (d.modCam_only f) (d.modCam_inv f) rfl

/-- Service at the head of a port: whatever the command's effect. -/
theorem Dev.serve_follows (d : Dev) (p : Port) (op : Nat) (check : Cmd → Option Nat) {act : Cmd → Dev}
    (ha : ∀ c, d.Follows (act c)) : d.Follows (d.serve p op check act) := by
  unfold Dev.serve
  split
  · exact .refl d
  · split
    · exact d.finishWith_follows ..
    · exact (ha _).ite (d.finishWith_follows ..)

theorem Dev.serveAct_follows (d : Dev) (p : Port) (a : ParamAct) {act : Cmd → Nat → Nat → Dev}
    (ha : ∀ c i v, d.Follows (act c i v)) : d.Follows (d.serveAct p a act) := by
  unfold Dev.serveAct
  split
  · exact .refl d
  · split
    · exact .refl d
    · split
      · exact d.finishWith_follows ..
      · split
        · exact d.finishWith_follows ..
        · exact ha ..

theorem Dev.husk_follows (d : Dev) (l : LinkId) (type : Nat) (h : RxHusk) {act : Dev → HuskHdr → Dev}
    (ha : ∀ (e : Dev) x, e.Follows (act e x)) : d.Follows (d.husk l type h act) := by
  have h1 : d.Follows (d.checkHusk l h).1 := .op (d.checkHusk_only l h) (d.checkHusk_inv l h) rfl
  unfold Dev.husk
  refine .guard ?_
  split
  · next e => rwa [e] at h1
  · next e =>
    rw [e] at h1
    exact (h1.trans (ha ..)).ite h1

theorem Dev.vc1_follows (d : Dev) (l : LinkId) (x : HuskHdr) {act : Dev → Dev} (ha : ∀ e : Dev, e.Follows (act e)) :
    d.Follows (d.vc1 l x act) := by
  have h1 : d.Follows (d.acceptVc1 l x.seq).1 := .op (d.acceptVc1_only l x.seq) (d.acceptVc1_inv l x.seq) rfl
  unfold Dev.vc1
  split
  · next e =>
    rw [e] at h1
    exact h1.trans (ha _)
  · next e => rwa [e] at h1

/-! ### The always-on domain -/

theorem Dev.afterReset_follows (d : Dev) (st : DevState) : d.Follows (d.afterReset st) :=
    ⟨rfl, Nat.le_refl _, d.afterReset_inv st⟩

theorem Dev.toReset_follows (d : Dev) (cause : Nat) : d.Follows (d.toReset cause) := ⟨rfl, Nat.le_refl _, d.toReset_inv cause⟩

theorem Dev.enterBoot_follows (d : Dev) : d.Follows d.enterBoot := .op d.enterBoot_only d.enterBoot_inv rfl

/-- Another value of the always-on domain with the same counter. -/
theorem Dev.withAon_follows (d : Dev) {a : Aon} (h : d.aon.otpRollback ≤ a.otpRollback) : d.Follows { d with aon := a } :=
  ⟨rfl, h, id⟩

theorem Dev.fullBoot_follows (d : Dev) (cause : Nat) : d.Follows (d.fullBoot cause) :=
  ((d.withAon_follows (a := { d.aon with resetCause := cause }) (Nat.le_refl _)).trans
    (Dev.afterReset_follows ..)).trans (Dev.enterBoot_follows _)

theorem Dev.resetN_follows (d : Dev) : d.Follows d.resetN := by
  refine ⟨d.resetN_only.1, ?_, d.resetN_inv⟩
  unfold Dev.resetN
  dsimp only
  split <;> exact Nat.le_refl _

theorem Dev.supplies_follows (d : Dev) (r : List Bool) : d.Follows (d.supplies r) := by
  refine ⟨(d.supplies_only r).1, ?_, d.supplies_inv r⟩
  unfold Dev.supplies
  dsimp only
  split_ifs <;> exact Nat.le_refl _

theorem Dev.resetReleased_follows (d : Dev) : d.Follows d.resetReleased := .guard d.enterBoot_follows

theorem Dev.fwRestart_follows (d : Dev) : d.Follows d.fwRestart := .guard (d.toReset_follows 3)

theorem Dev.holdupExit_follows (d : Dev) : d.Follows d.holdupExit := .guard (d.fullBoot_follows 4)

theorem Dev.thermalExit_follows (d : Dev) : d.Follows d.thermalExit :=
  (d.fullBoot_follows 5).ite (d.withAon_follows (Nat.le_refl _))

theorem Dev.thermalShutdown_follows (d : Dev) (t : Int) : d.Follows (d.thermalShutdown t) :=
  (Dev.Follows.refl d).ite <| (d.withAon_follows (a := { d.aon with
    shutdowns := min 0xFFFF (d.aon.shutdowns + 1), shutdownT := t }) (Nat.le_refl _)).trans (Dev.afterReset_follows ..)

/-- The warning is noted; what the power-fail reaction does after that leaves the always-on domain alone. -/
theorem Dev.powerFail_follows (d : Dev) : d.Follows d.powerFail := by
  refine ⟨d.powerFail_only.1, ?_, d.powerFail_inv⟩
  unfold Dev.powerFail
  extract_lets q d0 d1
  have h1 : d0.Follows d1 :=
    (Dev.Follows.op (d0.goTo_only .holdup 0) (d0.goTo_inv .holdup 0) rfl).andThen (Dev.overrideBeam_only _)
      (Dev.overrideBeam_inv _) rfl
  have h2 := (((h1.andThen d1.dropCommands_only d1.dropCommands_inv rfl).andThen (Dev.closeJournal_only _ d1.openCount)
    (Dev.closeJournal_inv _ _) rfl).andThen (Dev.stopAll_only _) (Dev.stopAll_inv _) rfl).andThen (Dev.voidTickets_only _)
    (Dev.voidTickets_inv _) rfl
  exact (h2.ite (Dev.Follows.refl d0)).counter

/-! ### The monotonic counter (R431) -/

/-- The counter takes a higher SVN of a trial image, and nothing else of the always-on domain changes. -/
theorem Dev.confirmImage_aon_of_lt {d : Dev} (ht : d.core.trialRun = true) (h : d.aon.otpRollback < d.core.imageSvn) :
    d.confirmImage.aon = { d.aon with otpRollback := d.core.imageSvn } := by
  have ha := (d.writeDir_only fun q => { q with trial := false }).part .aon rfl
  have hc := (d.writeDir_only fun q => { q with trial := false }).part .core rfl
  simp only [Part.same] at ha hc
  unfold Dev.confirmImage
  dsimp only
  rw [if_neg (by simp [ht]), if_pos (by rw [ha, hc]; exact h), (Dev.post_quiet ..).aon]
  dsimp only
  rw [ha, hc]

theorem Dev.confirmImage_posts {d : Dev} (ht : d.core.trialRun = true) (h : d.aon.otpRollback < d.core.imageSvn) :
    ∃ e : Dev, d.confirmImage = e.post 0x1102 (d.core.imageSvn + 256 * d.aon.otpRollback) := by
  have ha := (d.writeDir_only fun q => { q with trial := false }).part .aon rfl
  have hc := (d.writeDir_only fun q => { q with trial := false }).part .core rfl
  simp only [Part.same] at ha hc
  unfold Dev.confirmImage
  dsimp only
  rw [if_neg (by simp [ht]), if_pos (by rw [ha, hc]; exact h)]
  rw [show (d.writeDir fun q => { q with trial := false }).aon.otpRollback = d.aon.otpRollback by rw [ha],
    show (d.writeDir fun q => { q with trial := false }).core.imageSvn = d.core.imageSvn by rw [hc]]
  exact ⟨_, rfl⟩

theorem Dev.confirmImage_aon_of_le {d : Dev} (h : d.core.imageSvn ≤ d.aon.otpRollback) : d.confirmImage.aon = d.aon := by
  have ha := (d.writeDir_only fun q => { q with trial := false }).part .aon rfl
  have hc := (d.writeDir_only fun q => { q with trial := false }).part .core rfl
  simp only [Part.same] at ha hc
  unfold Dev.confirmImage
  dsimp only
  split
  · rfl
  · rw [if_neg (by rw [ha, hc]; omega)]
    exact ha

theorem Dev.confirmImage_follows (d : Dev) : d.Follows d.confirmImage := by
  refine ⟨d.confirmImage_only.1, ?_, d.confirmImage_inv⟩
  by_cases h : d.core.imageSvn ≤ d.aon.otpRollback
  · rw [Dev.confirmImage_aon_of_le h]
  · by_cases ht : d.core.trialRun = true
    · rw [Dev.confirmImage_aon_of_lt ht (Nat.lt_of_not_le h)]
      exact Nat.le_of_not_le h
    · unfold Dev.confirmImage
      rw [if_pos (by simp [ht])]

/-- Every other operation at the end of BOOT leaves the always-on domain alone. -/
theorem Dev.bootDone_follows (d : Dev) : d.Follows d.bootDone := by
  refine ⟨d.bootDone_only.1, ?_, d.bootDone_inv⟩
  unfold Dev.bootDone
  extract_lets q d1 d2 d3 d4 c d5
  have h2 : d1.Follows d2 :=
    ((Dev.Follows.op d1.bootAnnounced_only d1.bootAnnounced_inv rfl).andThen (Dev.release_only _ .dram)
      (Dev.release_inv _ _) rfl).andThen
      (Dev.endStartup_only _) (Dev.endStartup_inv _) rfl
  have h3 : d2.Follows d3 :=
    (Dev.Follows.foldl (fun e s => .op (e.loadResident_only s) (e.loadResident_inv s) rfl) _ _).andThen (Dev.firstMode_only _)
      (Dev.firstMode_inv _) rfl
  have h4 : d3.Follows d4 :=
    ((Dev.Follows.op (d3.setState_only .standby 0) (d3.setState_inv .standby 0) rfl).andThen (Dev.noteReplaced_only _)
      (Dev.noteReplaced_inv _) rfl).andThen (Dev.openJournal_only _) (Dev.openJournal_inv _) rfl
  have h5 : d5.Follows _ :=
    ((((Dev.Follows.op d5.enableSlots_only d5.enableSlots_inv rfl).andThen (Dev.reformMasks_only _)
      (Dev.reformMasks_inv _) rfl).trans
      (Dev.confirmImage_follows _)).andThen (Dev.standbyEntered_only _) (Dev.standbyEntered_inv _) rfl).trans
        (Dev.settle_follows _)
  exact ((h2.trans h3).trans h4).counter.trans h5.counter

theorem Dev.bootComplete_follows (d : Dev) (pass : Bool) : d.Follows (d.bootComplete pass) :=
  (Dev.Follows.refl d).ite <| .ite (.op d.bootFailed_only d.bootFailed_inv rfl) ((Dev.Follows.refl d).ite d.bootDone_follows)

end Sys2Proof.Machine
end

section
/-! Every command completes in a state that may follow its own, and so does a step on an empty queue (O1, O3, O4, O5, O47). -/

namespace Sys2Proof.Machine

open Sys2Proof

/-- A meaning completes: it answers a next state with the queue as it was, whose block may follow the one before. -/
def Completes (m : State → Host.Outcome State Fault Refusal) : Prop :=
  ∀ s : State, ∃ d : Dev, m s = .next { s with dev := d } ∧ s.dev.Follows d

/-! ### Meanings of a unit -/

namespace Completes

variable {f : Dev → Dev} {g : Dev → Nat → Dev}

theorem on (hf : ∀ d : Dev, d.Follows (f d)) : Completes fun s => s.on f := fun s => ⟨f s.dev, rfl, hf s.dev⟩

theorem onLink {l : LinkId} (hf : ∀ d : Dev, d.Follows (f d)) : Completes fun s => s.onLink l f := on fun d => .guard (hf d)

theorem onChan {ch : Nat} (hf : ∀ d : Dev, d.Follows (f d)) : Completes fun s => s.onChan ch f :=
  on fun d => .guard ((hf d).trans (Dev.calAdvance_follows _))

theorem onLamp {sd : Side} (hg : ∀ (d : Dev) k, d.Follows (g d k)) : Completes fun s => s.onLamp sd g :=
  on fun d => .guard (hg d _)

theorem onPort {sd : Side} (hg : ∀ (d : Dev) k, d.Follows (g d k)) : Completes fun s => s.onPort sd g :=
  on fun d => .guard (hg d _)

theorem onArray {sd : Side} (hg : ∀ (d : Dev) k, d.Follows (g d k)) : Completes fun s => s.onArray sd g :=
  onPort fun d k => .guard (hg d k)

theorem onResponse {sd : Side} {pair type : Nat} {b : List Byte} {r : RbFrame} (hg : ∀ (d : Dev) k, d.Follows (g d k)) :
    Completes fun s => s.onResponse sd pair type b r g :=
  onArray fun d k => .guard ((d.modMport_follows k _).trans (hg _ k))

theorem serve {p : Port} {op : Nat} {check : Dev → Cmd → Option Nat} {act : Dev → Cmd → Dev}
    (ha : ∀ (d : Dev) x, d.Follows (act d x)) : Completes fun s => s.on fun d => d.serve p op (check d) (act d) :=
  on fun d => d.serve_follows _ _ _ (ha d)

theorem serveAct {p : Port} {a : ParamAct} {act : Dev → Cmd → Nat → Nat → Dev}
    (ha : ∀ (d : Dev) x i v, d.Follows (act d x i v)) : Completes fun s => s.on fun d => d.serveAct p a (act d) :=
  on fun d => d.serveAct_follows _ _ (ha d)

theorem husk {l : LinkId} {type : Nat} {r : RxHusk} {act : Dev → HuskHdr → Dev} (ha : ∀ (d : Dev) x, d.Follows (act d x)) :
    Completes fun s => s.on fun d => d.husk l type r act :=
  on fun d => d.husk_follows _ _ _ ha

theorem vc1 {l : LinkId} {type : Nat} {r : RxHusk} {act : HuskHdr → Dev → Dev} (ha : ∀ (d : Dev) x, d.Follows (act x d)) :
    Completes fun s => s.on fun d => d.husk l type r fun d x => d.vc1 l x (act x) :=
  husk fun d x => d.vc1_follows l x fun e => ha e x

end Completes

/-! ### Effects of more than one operation -/

/-- A response where the status is OK, and the status alone where it is not. -/
theorem Dev.answer_follows (d : Dev) (p : Port) (tag : Nat) (r : Nat × List Byte) :
    d.Follows (if r.1 = stOk then d.ok p tag r.2 else d.finishWith p tag r.1) :=
  (d.ok_follows ..).ite (d.finishWith_follows ..)

theorem Dev.slotGap_follows (d : Dev) :
    d.Follows (d.sides.foldl (fun d k => if (d.mport k).state = .ready then d.calGap k else d) d) :=
  .foldl (fun e k => .guard (.op (e.calGap_only k) (e.calGap_inv k) rfl)) _ _

/-! ### Commands: reset, boot, power and clocks -/

theorem resetNAsserted_completes : Completes execResetNAsserted :=
  .on fun d => d.resetN_follows.andThen (Dev.syncScan_only _) (Dev.syncScan_inv _) rfl

theorem resetRelease_completes : Completes execResetRelease := .on fun d => d.resetReleased_follows

theorem supplyOutOfRange_completes (r) : Completes (execSupplyOutOfRange r) :=
  .on fun d => (d.supplies_follows r).andThen (Dev.syncScan_only _) (Dev.syncScan_inv _) rfl

theorem imageVerifyDone_completes (b check svn fw) : Completes (execImageVerifyDone b check svn fw) :=
  .on fun d => .op (d.imageRead_only ..) (d.imageRead_inv _ _ _ _) rfl

theorem bootComplete_completes (pass) : Completes (execBootComplete pass) := .on fun d => d.bootComplete_follows pass

theorem linkEnable_completes (l) : Completes (execLinkEnable l) := .on fun d => .op (d.enableLink_only l) (d.enableLink_inv l) rfl

theorem powerFailWarning_completes (pfwLow sense) : Completes fun s => execPowerFailWarning s pfwLow sense :=
  .on fun d => .guard d.powerFail_follows

theorem holdupJournalDone_completes (us) : Completes (execHoldupJournalDone us) :=
  .on fun d => .op (d.holdupDone_only us) (d.holdupDone_inv us) rfl

theorem holdupExit_completes : Completes execHoldupExit := .on fun d => d.holdupExit_follows

theorem dieTempConversion_completes (t r) : Completes (execDieTempConversion t r) :=
  .on fun d => .op (d.dieTemp_only t r) (d.dieTemp_inv t r) rfl

theorem thermalShutdown_completes (t) : Completes (execThermalShutdown t) := .on fun d => d.thermalShutdown_follows t

theorem thermalOffExit_completes : Completes execThermalOffExit := .on fun d => d.thermalExit_follows

theorem refclkLoss_completes (n) : Completes (execRefclkLoss n) := .on fun d => .op (d.refclkLoss_only n) (d.refclkLoss_inv n) rfl

theorem refclkRestored_completes (n) : Completes (execRefclkRestored n) :=
  .on fun d => .op (d.refclkRestored_only n) (d.refclkRestored_inv n) rfl

theorem pllLossOfLock_completes (p b) : Completes (execPllLossOfLock p b) :=
  .on fun d => .op (d.pllLoss_only p.ix b) (d.pllLoss_inv p.ix b) rfl

theorem pllLockDeclared_completes (p) : Completes (execPllLockDeclared p) :=
  .on fun d => .op (d.pllLock_only p.ix) (d.pllLock_inv p.ix) rfl

theorem relockTimeout_completes (p) : Completes (execRelockTimeout p) :=
  .on fun d => .op (d.relockTimeout_only p.ix) (d.relockTimeout_inv p.ix) rfl

theorem millerWatchdog_completes : Completes execMillerWatchdog := .on fun d => .op d.watchdog_only d.watchdog_inv rfl

theorem fwRestartReset_completes : Completes execFwRestartReset := .on fun d => d.fwRestart_follows

theorem powerFailWarningCleared_completes : Completes execPowerFailWarningCleared :=
  .on fun d => d.withAon_follows (Nat.le_refl _)

theorem bootPllLockTimeout_completes (p) : Completes (execBootPllLockTimeout p) :=
  .on fun d => .op (d.bootPllLate_only p.ix) (d.bootPllLate_inv p.ix) rfl

theorem pllQPhaseStep_completes : Completes execPllQPhaseStep := .on fun d => .op d.phaseStep_only d.phaseStep_inv rfl

theorem jtagUpdateIr_completes (ir) : Completes (execJtagUpdateIr ir) := .on fun _ => .guard ⟨rfl, Nat.le_refl _, id⟩

theorem extestUpdateDr_completes (cells) : Completes (execExtestUpdateDr cells) :=
  .on fun _ => .guard ⟨rfl, Nat.le_refl _, id⟩

theorem resetNDeasserted_completes : Completes execResetNDeasserted := .on fun _ => ⟨rfl, Nat.le_refl _, id⟩

/-! ### Commands: the Sluice -/

theorem ticketRequest_completes (h) : Completes (execTicketRequest h) :=
  .on fun d => .op (d.ticketAsk_only h) (d.ticketAsk_inv h) rfl

theorem ticketRelease_completes (h) : Completes (execTicketRelease h) :=
  .on fun d => .op (d.ticketDone_only h) (d.ticketDone_inv h) rfl

theorem ticketQueueTimeout_completes (h) : Completes (execTicketQueueTimeout h) :=
  .on fun d => .op (d.queueTimeout_only h) (d.queueTimeout_inv h) rfl

theorem ticketOverrun_completes (h) : Completes (execTicketOverrun h) :=
  .on fun d => .op (d.ticketOverrun_only h) (d.ticketOverrun_inv h) rfl

/-! ### Commands: the register map -/

theorem registerWrite_completes (p b) : Completes (execRegisterWrite p b) :=
  .on fun d => .op (d.transaction_only p b) (d.transaction_inv p b) rfl

theorem mbxDoorbell_completes (p ring) : Completes (execMbxDoorbell p ring) :=
  .on fun d => .op (d.regWrite_only p _ _) (d.regWrite_inv p _ _) rfl

theorem mbxDoneRelease_completes (p w) : Completes (execMbxDoneRelease p w) :=
  .on fun d => .op (d.regWrite_only p _ _) (d.regWrite_inv p _ _) rfl

theorem timeLoRead_completes (p) : Completes (execTimeLoRead p) :=
  .on fun d =>
    (Dev.Follows.op (d.startRead_only p) (d.startRead_inv p) rfl).andThen (Dev.regRead_only _ p _) (Dev.regRead_inv _ p _) rfl

theorem evtFifoPop_completes (p complete) : Completes (execEvtFifoPop p complete) :=
  .on fun d =>
    have h := (Dev.Follows.op (d.startRead_only p) (d.startRead_inv p) rfl).andThen (Dev.regRead_only _ p _)
      (Dev.regRead_inv _ p _) rfl
    .ite (h.andThen (Dev.popEvent_only _ p) (Dev.popEvent_inv _ p) rfl) h

theorem snapTrig_completes (p) : Completes (execSnapTrig p) := .on fun d => .op d.snapTrig_only d.snapTrig_inv rfl

theorem dbgMbxUpdate_completes (dr) : Completes (execDbgMbxUpdate dr) :=
  .on fun d => .guard (.op (d.debugUpdate_only dr.toNat) (d.debugUpdate_inv dr.toNat) rfl)

/-! ### Commands: the mailbox -/

theorem getInfo_completes (p) : Completes (execGetInfo p) := .serve fun d _ => d.ok_follows ..

theorem getParam_completes (p) : Completes (execGetParam p) :=
  .serve fun d x => d.answer_follows p x.tag (d.getParamCmd (payloadLimit p) x.payload)

theorem setParam_completes (p) : Completes (execSetParam p) :=
  .on fun d => by
    dsimp only
    split
    · exact .refl d
    · exact (Dev.Follows.refl d).ite
        ((Dev.Follows.op (d.setParamCmd_only p _) (d.setParamCmd_inv p _) rfl).trans (Dev.finishWith_follows ..))

theorem abort_completes (p) : Completes (execAbort p) := .serve fun d _ => .op (d.abortCmd_only p _ _) (d.abortCmd_inv p _ _) rfl

theorem setCompatLevel_completes (p) : Completes (execSetCompatLevel p) :=
  .serve fun d x =>
    .ite (.trans (b := { d with core := { d.core with activeCl := 1 } }) ⟨rfl, Nat.le_refl _, fun hI => { hI with cl := rfl }⟩
    (Dev.finishWith_follows _ p x.tag stOk))
      (d.finishWith_follows ..)

theorem beamEnable_completes (p) : Completes (execBeamEnable p) :=
  .serve fun d _ => .op (d.beamEnableCmd_only p _ _) (d.beamEnableCmd_inv p _ _) rfl

theorem selectMode_completes (p) : Completes (execSelectMode p) :=
  .serve fun d _ =>
    .ite (.op (d.selectStandby_only p _ _) (d.selectStandby_inv p _ _) rfl) <|
      .ite (d.finishWith_follows ..) (.op (d.selectBeam_only p _ _) (d.selectBeam_inv p _ _) rfl)

theorem setSlotMask_completes (p) : Completes (execSetSlotMask p) :=
  .serve fun d _ =>
    (Dev.Follows.op (d.recordMask_only _) (d.recordMask_inv _) rfl).trans (Dev.finishWith_follows ..)

theorem snapshot_completes (p) : Completes (execSnapshot p) :=
  .serve fun d _ =>
    (Dev.Follows.op (d.snapshot_only 2) (d.snapshot_inv 2) rfl).trans (Dev.ok_follows ..)

theorem snapshotRead_completes (p) : Completes (execSnapshotRead p) :=
  .serve fun d x => d.answer_follows p x.tag (d.snapRead (payloadLimit p) x.payload)

theorem layerDeclare_completes (p) : Completes (execLayerDeclare p) :=
  .serve fun d _ => .op (d.layerDeclare_only p _ _ _) (d.layerDeclare_inv p _ _ _) rfl

theorem layerDestroy_completes (p) : Completes (execLayerDestroy p) :=
  .serve fun d _ =>
    .ite (d.finishWith_follows ..) ((Dev.Follows.op (d.modLayer_only _ _) (d.modLayer_inv _ _) rfl).trans (Dev.waits_follows ..))

theorem commitGroup_completes (p) : Completes (execCommitGroup p) :=
  .serve fun d _ => .op (d.commitCmd_only p _ _ _) (d.commitCmd_inv p _ _ _) rfl

theorem fenceSignal_completes (p) : Completes (execFenceSignal p) :=
  .serve fun d x =>
    have h : d.Follows (d.fence x.payload).1 := .op (d.fence_only _) (d.fence_inv _) rfl
    .ite (h.trans (Dev.finishWith_follows ..)) (h.trans (Dev.waits_follows ..))

theorem objectList_completes (p) : Completes (execObjectList p) :=
  .serve fun d _ => .op (d.objectPart_only p _ _) (d.objectPart_inv p _ _) rfl

theorem shutterGeometry_completes (p) : Completes (execShutterGeometry p) :=
  .serve fun d _ =>
    ((Dev.Follows.op (d.storeGeometry_only _) (d.storeGeometry_inv _) rfl).andThen (Dev.clearFault_only _ _ _)
      (Dev.clearFault_inv _ _ _) rfl).trans (Dev.finishWith_follows ..)

theorem lampEnable_completes (p) : Completes (execLampEnable p) :=
  .serve fun d x =>
    .trans (b := { d with lamp := { d.lamp with enableNext := BitVec.ofNat 12 (leField x.payload 0 2) } })
      ⟨rfl, Nat.le_refl _, id⟩ (Dev.finishWith_follows ..)

theorem dimSet_completes (p) : Completes (execDimSet p) :=
  .serve fun d _ =>
    (Dev.Follows.op (d.dimSet_only _ _ _) (d.dimSet_inv _ _ _) rfl).trans (Dev.finishWith_follows ..)

theorem rampCurve_completes (p) : Completes (execRampCurve p) :=
  .serve fun d _ =>
    ((Dev.Follows.op (d.setPar_only _ _ _) (d.setPar_inv _ _ _) rfl).andThen (Dev.mirrorVal_only _ _)
      (Dev.mirrorVal_inv _ _) rfl).trans (Dev.finishWith_follows ..)

theorem signatureExpect_completes (p) : Completes (execSignatureExpect p) :=
  .serve fun d _ =>
    ((Dev.Follows.op (d.setRect_only _ _ _) (d.setRect_inv _ _ _) rfl).andThen (Dev.signatureDone_only _ _ _)
      (Dev.signatureDone_inv _ _ _) rfl).trans (Dev.finishWith_follows ..)

theorem journalRead_completes (p) : Completes (execJournalRead p) :=
  .serve fun d _ => .op (d.finish_only p _ _ _) (d.finish_inv p _ _ _) rfl

theorem journalSeal_completes (p) : Completes (execJournalSeal p) :=
  .serve fun d _ => .op (d.journalSealCmd_only p _) (d.journalSealCmd_inv p _) rfl

theorem calRun_completes (p) : Completes (execCalRun p) :=
  .serve fun d _ => .op (d.calRunCmd_only p _ _ _) (d.calRunCmd_inv p _ _ _) rfl

theorem fwUpdateBegin_completes (p) : Completes (execFwUpdateBegin p) :=
  .serve fun d _ => .op (d.fwBegin_only p _ _) (d.fwBegin_inv p _ _) rfl

theorem fwUpdateData_completes (p readsBack) : Completes (execFwUpdateData p readsBack) :=
  .serve fun d _ => .op (d.fwData_only p _ _ _ _) (d.fwData_inv p _ _ _ _) rfl

theorem fwUpdateCommit_completes (p) : Completes (execFwUpdateCommit p) :=
  .serve fun d _ => .op (d.fwCommit_only p _ _) (d.fwCommit_inv p _ _) rfl

theorem patErase_completes (p) : Completes (execPatErase p) :=
  .serveAct fun d _ _ _ => .op (d.patErase_only p _ _) (d.patErase_inv p _ _) rfl

theorem patProgram_completes (p) : Completes (execPatProgram p) :=
  .serveAct fun d _ _ v =>
    (Dev.Follows.op (d.patProgram_only v) (d.patProgram_inv v) rfl).trans (Dev.finishWith_follows ..)

theorem patVerify_completes (p) : Completes (execPatVerify p) :=
  .serveAct fun d _ _ v =>
    (Dev.Follows.op (d.patVerify_only v) (d.patVerify_inv v) rfl).trans (Dev.finishWith_follows ..)

theorem patInvalidate_completes (p) : Completes (execPatInvalidate p) :=
  .serveAct fun d _ _ _ =>
    (Dev.Follows.op (d.setPatValid_only _ _ _) (d.setPatValid_inv _ _ _) rfl).trans (Dev.finishWith_follows ..)

theorem tableCommit_completes (p) : Completes (execTableCommit p) :=
  .serveAct fun d x _ v =>
    .ite (d.finishWith_follows ..) <|
      .trans (b := { d with cmp := { d.cmp with tableCommit := d.cmp.tableCommit ||| BitVec.ofNat 5 v } })
        ⟨rfl, Nat.le_refl _, id⟩ (Dev.finishWith_follows _ p x.tag stOk)

theorem faultClear_completes (p) : Completes (execFaultClear p) :=
  .serveAct fun d _ _ _ => .op (d.faultClear_only p _ _) (d.faultClear_inv p _ _) rfl

theorem reactionSet_completes (p) : Completes (execReactionSet p) :=
  .serveAct fun d _ _ v =>
    (Dev.Follows.op (d.setReaction_only v) (d.setReaction_inv v) rfl).trans (Dev.finishWith_follows ..)

theorem snapRelease_completes (p) : Completes (execSnapRelease p) :=
  .serveAct fun d _ _ _ =>
    (Dev.Follows.op d.snapRelease_only d.snapRelease_inv rfl).trans (Dev.finishWith_follows ..)

theorem segCommit_completes (p) : Completes (execSegCommit p) :=
  .serveAct fun d _ i v =>
    (Dev.Follows.op (d.segCommit_only i v) (d.segCommit_inv i v) rfl).trans (Dev.finishWith_follows ..)

theorem retrainRecovery_completes (p) : Completes (execRetrainRecovery p) :=
  .serveAct fun d _ _ _ =>
    .ite ((Dev.Follows.op (d.retrain1_only _) (d.retrain1_inv _) rfl).trans (Dev.finishWith_follows ..)) (d.finishWith_follows ..)

theorem retrainDetect_completes (p) : Completes (execRetrainDetect p) :=
  .serveAct fun d _ _ _ =>
    .ite (d.finishWith_follows ..) ((Dev.Follows.op (d.toDetect_only _) (d.toDetect_inv _) rfl).trans (Dev.finishWith_follows ..))

theorem beamEnableTimeout_completes (p tag) : Completes (execBeamEnableTimeout p tag) :=
  .on fun d => .guard (d.finishWith_follows ..)

theorem journalSealTimeout_completes : Completes execJournalSealTimeout :=
  .on fun d => by
    dsimp only
    split
    · exact .refl d
    · next rest _ =>
      exact .trans (b := { d with jnl := { d.jnl with seals := rest } }) ⟨rfl, Nat.le_refl _, id⟩ (Dev.finishWith_follows ..)

/-! ### Commands: CAN -/

theorem canMailboxFrame_completes (b) : Completes (execCanMailboxFrame b) :=
  .on fun d => .guard (.op (d.canFrame_only b) (d.canFrame_inv b) rfl)

theorem canMessageTimeout_completes : Completes execCanMessageTimeout :=
  .on fun d =>
    .guard ((Dev.Follows.op (d.canMessage_only none) (d.canMessage_inv none) rfl).andThen (Dev.canIdleNow_only _)
      (Dev.canIdleNow_inv _) rfl)

theorem vehBeamFrame_completes (b) : Completes (execVehBeamFrame b) :=
  .on fun d => .guard (.op (d.vehBeam_only b) (d.vehBeam_inv b) rfl)

theorem vehMotionFrame_completes (b) : Completes (execVehMotionFrame b) :=
  .on fun d => .guard (.op (d.vehMotion_only b) (d.vehMotion_inv b) rfl)

theorem vehTimeFrame_completes (b n) : Completes (execVehTimeFrame b n) :=
  .on fun d => .guard (.op (d.vehTime_only b n) (d.vehTime_inv b n) rfl)

theorem vehTimeout_completes (beam motion) : Completes (execVehTimeout beam motion) :=
  .on fun d => .guard (.op (d.vehLost_only _ _) (d.vehLost_inv _ _) rfl)

theorem canBusOff_completes : Completes execCanBusOff :=
  .on fun d => .guard ((Dev.Follows.op (d.count_only _ 0 1) (d.count_inv _ 0 1) rfl).trans (Dev.post_follows ..))

/-! ### Commands: links -/

theorem detectLosQualified_completes (l) : Completes (execDetectLosQualified l) :=
  .onLink fun d => .guard (.op (d.toLock_only l _ _ _) (d.toLock_inv l _ _ _) rfl)

theorem lockAchieved_completes (l) : Completes (execLockAchieved l) :=
  .onLink fun d => .guard (.op (d.lockDone_only l) (d.lockDone_inv l) rfl)

theorem lockTimeout_completes (l) : Completes (execLockTimeout l) :=
  .onLink fun d =>
    .guard ((Dev.Follows.op (d.trainFail_only l) (d.trainFail_inv l) rfl).andThen (Dev.toDetect_only _ l)
      (Dev.toDetect_inv _ l) rfl)

theorem eyeTestComplete_completes (l eyes) : Completes (execEyeTestComplete l eyes) :=
  .onLink fun d => .guard (.op (d.eyeDone_only l _) (d.eyeDone_inv l _) rfl)

theorem ts1Received_completes (l phys ts) : Completes (execTs1Received l phys ts) :=
  .onLink fun d => .guard (.op (d.ts1In_only l _ _) (d.ts1In_inv l _ _) rfl)

theorem tapreqAckTimeout_completes (l phys) : Completes (execTapreqAckTimeout l phys) :=
  .onLink fun d => by
    split
    · exact (Dev.Follows.refl d).ite (.op (d.tapLate_only l _ _) (d.tapLate_inv l _ _) rfl)
    · exact .refl d

theorem ts2Agreed_completes (l eyes ts2) : Completes (execTs2Agreed l eyes ts2) :=
  .onLink fun d => .guard (.op (d.linkTrained_only l _ _) (d.linkTrained_inv l _ _) rfl)

theorem trainTimeout_completes (l) : Completes (execTrainTimeout l) :=
  .onLink fun d => .guard (.op (d.attemptFailed_only l) (d.attemptFailed_inv l) rfl)

theorem stepTimeout_completes (l) : Completes (execStepTimeout l) :=
  .onLink fun d => .guard (.op (d.toLock_only l _ _ _) (d.toLock_inv l _ _ _) rfl)

theorem downTimeout_completes (l) : Completes (execDownTimeout l) :=
  .onLink fun d => .guard (.op (d.toDetect_only l) (d.toDetect_inv l) rfl)

theorem linkTicketGranted_completes (l) : Completes (execLinkTicketGranted l) :=
  .onLink fun d => .guard <| by
    split
    · exact .op (d.toEye_only l) (d.toEye_inv l) rfl
    · exact .op (d.startStep_only l) (d.startStep_inv l) rfl
    · exact .refl d

theorem linkTicketRetry_completes (l) : Completes (execLinkTicketRetry l) :=
  .onLink fun d => .guard <| by
    split
    · exact .op (d.askEye_only l) (d.askEye_inv l) rfl
    · exact (d.modLink_follows l _).andThen (Dev.askStep_only _ l) (Dev.askStep_inv _ l) rfl
    · exact .refl d

theorem clockLaneLoss_completes (l) : Completes (execClockLaneLoss l) :=
  .onLink fun d => by
    have h : d.Follows (d.toRecovery l).calAdvance :=
      (Dev.Follows.op (d.toRecovery_only l) (d.toRecovery_inv l) rfl).trans (Dev.calAdvance_follows _)
    split
    · exact h
    · exact h
    · exact .op (d.relock_only l) (d.relock_inv l) rfl
    · exact .refl d

theorem deskewLoss_completes (l) : Completes (execDeskewLoss l) :=
  .onLink fun d =>
    .guard ((Dev.Follows.op (d.toRecovery_only l) (d.toRecovery_inv l) rfl).trans (Dev.calAdvance_follows _))

theorem hardLaneFault_completes (l phys los lol) : Completes (execHardLaneFault l phys los lol) :=
  .onLink fun d => .guard (.op (d.detectors_only l _ _ _) (d.detectors_inv l _ _ _) rfl)

theorem softLaneFault_completes (l phys rise) : Completes (execSoftLaneFault l phys rise) :=
  .onLink fun d =>
    have h : d.Follows (d.count (lkey kLnkCodeErr l) phys rise) := .op (d.count_only ..) (d.count_inv _ _ _) rfl
    .guard (.ite ((h.andThen (Dev.laneFault_only _ l phys) (Dev.laneFault_inv _ l phys) rfl).trans (Dev.calAdvance_follows _)) h)

theorem dskReceived_completes (l ack valid mapseq agrees) : Completes (execDskReceived l ack valid mapseq agrees) :=
  .onLink fun d =>
    .guard (((Dev.Follows.op (d.dfeInL0_only l) (d.dfeInL0_inv l) rfl).andThen (Dev.spareDsk_only _ l _ _ _)
      (Dev.spareDsk_inv _ l _ _ _) rfl).andThen (Dev.calDsk_only _ l) (Dev.calDsk_inv _ l) rfl)

theorem btsSend_completes (l) : Completes (execBtsSend l) := .onLink fun d => .guard (d.modLink_follows l _)

theorem eiosL1_completes (l) : Completes (execEiosL1 l) := .onLink fun d => .guard (.op (d.toL1_only l) (d.toL1_inv l) rfl)

theorem eiosL2_completes (l) : Completes (execEiosL2 l) :=
  .onLink fun d =>
    .guard ((Dev.Follows.op (d.toL2_only l) (d.toL2_inv l) rfl).trans (Dev.calAdvance_follows _))

theorem l1Exit_completes (l) : Completes (execL1Exit l) :=
  .onLink fun d =>
    .guard ((Dev.Follows.op (d.leavePower_only l) (d.leavePower_inv l) rfl).andThen (Dev.toL0_only _ l) (Dev.toL0_inv _ l) rfl)

theorem l2Exit_completes (l) : Completes (execL2Exit l) := .onLink fun d => .guard (.op (d.fromL2_only l) (d.fromL2_inv l) rfl)

theorem recoveryRelock_completes (l) : Completes (execRecoveryRelock l) :=
  .onLink fun d => .guard (.op (d.toPam4_only l) (d.toPam4_inv l) rfl)

theorem recoveryEyeDone_completes (l eyes) : Completes (execRecoveryEyeDone l eyes) :=
  .onLink fun d => .guard (.op (d.recoveryEye_only l _) (d.recoveryEye_inv l _) rfl)

theorem recoveryRetrainDone_completes (l ok) : Completes (execRecoveryRetrainDone l ok) :=
  .onLink fun d =>
    .guard (.ite ((Dev.Follows.op (d.toL0_only l) (d.toL0_inv l) rfl).andThen (Dev.heldReplay_only _ l)
      (Dev.heldReplay_inv _ l) rfl)
      (.op (d.retrainFailed_only l) (d.retrainFailed_inv l) rfl))

theorem recoveryTimeout_completes (l) : Completes (execRecoveryTimeout l) :=
  .onLink fun d => .guard (.op (d.toDetect_only l) (d.toDetect_inv l) rfl)

/-! ### Commands: Husks -/

theorem lineHusk_completes (l h) : Completes (execLineHusk l h) :=
  .husk fun d _ => .op (d.lineIn_only l _ _) (d.lineIn_inv l _ _) rfl

theorem objHusk_completes (l h) : Completes (execObjHusk l h) := .husk fun d _ => .op (d.vc2_only l _) (d.vc2_inv l _) rfl

theorem mbxHusk_completes (l h) : Completes (execMbxHusk l h) := .vc1 fun d _ => .op (d.mbxIn_only l _) (d.mbxIn_inv l _) rfl

theorem fenceHusk_completes (l h) : Completes (execFenceHusk l h) :=
  .vc1 fun d _ => .guard (.op (d.fence_only _) (d.fence_inv _) rfl)

theorem syncHusk_completes (l h) : Completes (execSyncHusk l h) :=
  .vc1 fun d _ => .guard (.op (d.align_only _ (some l)) (d.align_inv _ (some l)) rfl)

theorem ackHusk_completes (l h) : Completes (execAckHusk l h) :=
  .husk fun d _ =>
    .guard ((Dev.Follows.op (d.ackVc1_only l _ _) (d.ackVc1_inv l _ _) rfl).andThen (Dev.pumpLink_only _ l)
      (Dev.pumpLink_inv _ l) rfl)

theorem nakHusk_completes (l h) : Completes (execNakHusk l h) :=
  .husk fun d x =>
    have h : d.Follows (d.ackVc1 l (byteAt x.payload 1) (byteAt x.payload 2)) :=
      .op (d.ackVc1_only l _ _) (d.ackVc1_inv l _ _) rfl
    .guard (.ite (h.andThen (Dev.pumpLink_only _ l) (Dev.pumpLink_inv _ l) rfl)
      (((h.andThen (Dev.replayVc1_only _ l) (Dev.replayVc1_inv _ l) rfl).andThen (Dev.pumpLink_only _ l)
        (Dev.pumpLink_inv _ l) rfl).andThen (Dev.replayLimit_only _ l) (Dev.replayLimit_inv _ l) rfl))

theorem vc1ReplayTimeout_completes (l) : Completes (execVc1ReplayTimeout l) :=
  .on fun d => .guard (.op (d.replayTimer_only l) (d.replayTimer_inv l) rfl)

/-! ### Commands: the refresh timeline, the Governor and the safe state -/

theorem refreshBoundary_completes : Completes execRefreshBoundary :=
  .on fun d =>
    .guard ((Dev.Follows.op d.refreshBoundary_only d.refreshBoundary_inv rfl).trans (Dev.calTicket_follows _))

theorem slotBoundary_completes (badL badR badMask seqEcc) : Completes (execSlotBoundary badL badR badMask seqEcc) :=
  .on fun d => by
    split
    · exact .op (d.beginEntry_only _ _ _ _) (d.beginEntry_inv _ _ _ _) rfl
    · exact .refl d

theorem lookaheadHandoff_completes : Completes execLookaheadHandoff := .on fun d => .guard (.op d.handOff_only d.handOff_inv rfl)

theorem resetInstant_completes : Completes execResetInstant :=
  .on fun d =>
    .guard ((Dev.Follows.op d.resetInstant_only d.resetInstant_inv rfl).trans (Dev.slotGap_follows _))

theorem diagPulse_completes (opens shorts) : Completes (execDiagPulse opens shorts) :=
  .on fun d =>
    .guard ((Dev.Follows.foldl (fun e c => .op (e.pulse_only c _ _) (e.pulse_inv c _ _) rfl) _ d).trans
      (Dev.calAdvance_follows _))

theorem governorTick_completes (x) : Completes (execGovernorTick x) :=
  .on fun d =>
    have h : d.Follows (d.govTick x) := .op (d.govTick_only x) (d.govTick_inv x) rfl
    .guard (.ite (h.trans (Dev.calAdvance_follows _)) h)

theorem safeStateComplete_completes : Completes execSafeStateComplete :=
  .on fun d => .op d.safeComplete_only d.safeComplete_inv rfl

theorem govDeadline_completes (n) : Completes (execGovDeadline n) :=
  .on fun d => .op (d.govDeadline_only n) (d.govDeadline_inv n) rfl

theorem feedbackLost_completes (n b) : Completes (execFeedbackLost n b) :=
  .on fun d => .op (d.feedbackLost_only n b) (d.feedbackLost_inv n b) rfl

/-! ### Commands: composition and the camera -/

theorem composeFrameStart_completes : Completes execComposeFrameStart :=
  .on fun d =>
    .guard <| .trans (b := { d with seq := { d.seq with frameDue := false } }) ⟨rfl, Nat.le_refl _, id⟩ <|
      ((Dev.Follows.op (Dev.composeStart_only _) (Dev.composeStart_inv _) rfl).andThen (Dev.restale_only _ _)
        (Dev.restale_inv _ _) rfl).andThen (Dev.mxCompose_only _) (Dev.mxCompose_inv _) rfl

theorem composeRowStart_completes (sd row dry second) : Completes (execComposeRowStart sd row dry second) :=
  .on fun d =>
    .guard ((Dev.Follows.op (d.paceRow_only sd) (d.paceRow_inv sd) rfl).andThen (Dev.storeRow_only _ _ _)
      (Dev.storeRow_inv _ _ _) rfl)

theorem composePassComplete_completes (side) : Completes (execComposePassComplete side) :=
  .on fun d => .guard (.op (d.passDone_only _) (d.passDone_inv _) rfl)

theorem dramStall_completes : Completes execDramStall :=
  .on fun d => .guard (.op (d.stallDram_only false) (d.stallDram_inv false) rfl)

theorem dramTrafficResume_completes : Completes execDramTrafficResume := .on fun d => .op d.dramResume_only d.dramResume_inv rfl

theorem intakeCopyDone_completes (n) : Completes (execIntakeCopyDone n) :=
  .on fun d => .guard (.op (d.copyDone_only n) (d.copyDone_inv n) rfl)

theorem patternLoadDone_completes (side crcGood) : Completes (execPatternLoadDone side crcGood) :=
  .on fun d => .guard (.op (d.loadDone_only _ _) (d.loadDone_inv _ _) rfl)

theorem cameraEdge_completes (input falling time boundary) : Completes (execCameraEdge input falling time boundary) :=
  .on fun d => .guard (.op (d.camEdge_only _ _) (d.camEdge_inv _ _) rfl)

theorem camTimeout_completes : Completes execCamTimeout :=
  .on fun d => .guard ((Dev.Follows.op d.camLost_only (fun hI => Dev.setPar_inv _ _ _ _ hI) rfl).trans (Dev.post_follows ..))

/-! ### Commands: mirror ports -/

theorem busCrcResponse_completes (side entry crc f) : Completes fun s => execBusCrcResponse side entry crc s f :=
  .onResponse fun d _ =>
    (Dev.Follows.op (d.busCrcIn_only _ _ _) (d.busCrcIn_inv _ _ _) rfl).andThen (Dev.checksDone_only _) (Dev.checksDone_inv _) rfl

theorem cellCrcResponse_completes (side entry crc f) : Completes fun s => execCellCrcResponse side entry crc s f :=
  .onResponse fun d _ =>
    (Dev.Follows.op (d.cellCrcIn_only _ _ _) (d.cellCrcIn_inv _ _ _) rfl).andThen (Dev.checksDone_only _)
      (Dev.checksDone_inv _) rfl

theorem busCrcTimeout_completes (side) : Completes (execBusCrcTimeout side) :=
  .onPort fun d _ =>
    (Dev.Follows.op (d.crcLate_only _ _) (d.crcLate_inv _ _) rfl).andThen (Dev.checksDone_only _) (Dev.checksDone_inv _) rfl

theorem cellCrcTimeout_completes (side) : Completes (execCellCrcTimeout side) :=
  .onPort fun d _ =>
    (Dev.Follows.op (d.crcLate_only _ _) (d.crcLate_inv _ _) rfl).andThen (Dev.checksDone_only _) (Dev.checksDone_inv _) rfl

theorem lanesResponse_completes (side crcs f) : Completes fun s => execLanesResponse side crcs s f :=
  .onResponse fun d _ =>
    (Dev.Follows.op (d.lanesIn_only _ _) (d.lanesIn_inv _ _) rfl).trans (Dev.calAdvance_follows _)

theorem statusResponse_completes (side status f) : Completes fun s => execStatusResponse side status s f :=
  .onResponse fun d _ => .op (d.statusIn_only _ _) (d.statusIn_inv _ _) rfl

theorem ackResponse_completes (side cseq cmd f) : Completes fun s => execAckResponse side cseq cmd s f :=
  .onResponse fun d _ => .op (d.ackIn_only _ _ _) (d.ackIn_inv _ _ _) rfl

theorem errorResponse_completes (side cseq reason f) : Completes fun s => execErrorResponse side cseq reason s f :=
  .onResponse fun d _ => .op (d.count_only _ _ _) (d.count_inv _ _ _) rfl

theorem unparkSettled_completes (side) : Completes (execUnparkSettled side) :=
  .onPort fun d _ =>
    .guard ((Dev.Follows.op (d.modMportEv_only _ _) (d.modMportEv_inv _ _) rfl).andThen (Dev.releaseResetTicket_only _)
      (Dev.releaseResetTicket_inv _) rfl)

theorem identResponse_completes (side payload f) : Completes fun s => execIdentResponse side payload s f :=
  .onResponse fun d _ =>
    (Dev.Follows.op (d.identIn_only _ _) (d.identIn_inv _ _) rfl).trans (Dev.settle_follows _)

theorem identNoResponse_completes (side) : Completes (execIdentNoResponse side) :=
  .onPort fun d _ =>
    (Dev.Follows.op (d.identMissed_only _) (d.identMissed_inv _) rfl).trans (Dev.settle_follows _)

theorem trainResultResponse_completes (side tap errors f) : Completes fun s => execTrainResultResponse side tap errors s f :=
  .onResponse fun d _ =>
    (Dev.Follows.op (d.trainResult_only _ _ _) (d.trainResult_inv _ _ _) rfl).trans (Dev.settle_follows _)

theorem arrayFlt_completes (side) : Completes (execArrayFlt side) :=
  .onPort fun d k =>
    have h : d.Follows (d.fltLow k) := .op (d.fltLow_only k) (d.fltLow_inv k) rfl
    .ite ((((h.andThen (Dev.arrayFault_only _ k) (Dev.arrayFault_inv _ k) rfl).andThen (Dev.judgeHeld_only _)
      (Dev.judgeHeld_inv _) rfl).trans (Dev.calAdvance_follows _)).trans (Dev.settle_follows _)) h

theorem arraySupplyGood_completes (side rb0 rb1) : Completes (execArraySupplyGood side rb0 rb1) :=
  .onArray fun d _ =>
    .ite (.op (d.startTrain_only _ _ _) (d.startTrain_inv _ _ _) rfl) (d.modMport_follows _ _)

theorem portPowerTimeout_completes (side) : Completes (execPortPowerTimeout side) :=
  .onPort fun d k =>
    .guard (((Dev.Follows.op (d.arrayFault_only k) (d.arrayFault_inv k) rfl).andThen (Dev.judgeHeld_only _)
      (Dev.judgeHeld_inv _) rfl).trans (Dev.settle_follows _))

theorem portAbsent_completes (side) : Completes (execPortAbsent side) :=
  .onPort fun d k => .guard ((Dev.Follows.op (d.modMportEv_only k _) (d.modMportEv_inv k _) rfl).trans (Dev.settle_follows _))

theorem portTrainTimeout_completes (side) : Completes (execPortTrainTimeout side) :=
  .onPort fun d _ =>
    .guard ((Dev.Follows.op (d.failAndJudge_only _ _ _) (d.failAndJudge_inv _ _ _) rfl).trans (Dev.settle_follows _))

theorem parkTimeout_completes (side) : Completes (execParkTimeout side) :=
  .onPort fun d k =>
    .guard (((Dev.Follows.op (d.portParked_only k) (d.portParked_inv k) rfl).andThen (Dev.raise_only _ _ _ _)
      (Dev.raise_inv _ _ _ _) rfl).trans (Dev.settle_follows _))

theorem releaseFromPark_completes : Completes execReleaseFromPark := .on fun d => .op d.releasePark_only d.releasePark_inv rfl

theorem powerDownStep_completes (side) : Completes (execPowerDownStep side) :=
  .onPort fun d k => .guard ((d.modMport_follows k _).trans (Dev.settle_follows _))

theorem pwrEnLowDwellExpiry_completes (side) : Completes (execPwrEnLowDwellExpiry side) :=
  .onPort fun d k => .guard (.op (d.dwellOver_only k) (d.dwellOver_inv k) rfl)

/-! ### Commands: the Shutter engine -/

theorem rasterEnd_completes (n) : Completes (execRasterEnd n) := .on fun d => .op (d.endRaster_only n) (d.endRaster_inv n) rfl

theorem rasterTimeout_completes : Completes execRasterTimeout := .on fun d => .op d.rasterOverdue_only d.rasterOverdue_inv rfl

theorem listStale_completes : Completes execListStale := .on fun d => .op d.goStale_only d.goStale_inv rfl

theorem staleHoldExpiry_completes : Completes execStaleHoldExpiry := .on fun d => .op d.holdEnds_only d.holdEnds_inv rfl

/-! ### Commands: the lamp drive -/

theorem chOvercurrent_completes (ch) : Completes (execChOvercurrent ch) :=
  .onChan fun d => (Dev.Follows.refl d).ite (.op (d.detect_only _ _ _ _) (d.detect_inv _ _ _ _) rfl)

theorem chOpen_completes (ch) : Completes (execChOpen ch) := .onChan fun d => .op (d.litFault_only ch 0) (d.litFault_inv ch 0) rfl

theorem chShort_completes (ch) : Completes (execChShort ch) :=
  .onChan fun d => .op (d.litFault_only ch 1) (d.litFault_inv ch 1) rfl

theorem fetShort_completes (ch) : Completes (execFetShort ch) := .onChan fun d => .op (d.fetFault_only ch) (d.fetFault_inv ch) rfl

theorem boostOvTrip_completes (side) : Completes (execBoostOvTrip side) :=
  .onLamp fun d k => .op (d.boostOv_only k) (d.boostOv_inv k) rfl

theorem boostOvResume_completes (side) : Completes (execBoostOvResume side) :=
  .onLamp fun d k => .op (d.boostOvEnds_only k) (d.boostOvEnds_inv k) rfl

theorem boostUv_completes (side) : Completes (execBoostUv side) := .onLamp fun d k => .op (d.boostUv_only k) (d.boostUv_inv k) rfl

theorem boostUvRecovery_completes (side) : Completes (execBoostUvRecovery side) :=
  .onLamp fun d k => .op (d.boostUvEnds_only k) (d.boostUvEnds_inv k) rfl

theorem boostRun_completes (side) : Completes (execBoostRun side) :=
  .onLamp fun d k =>
    ((Dev.Follows.op (d.boostRuns_only k) (d.boostRuns_inv k) rfl).andThen (Dev.boostsReady_only _)
      (Dev.boostsReady_inv _) rfl).trans (Dev.afterClear_follows _)

theorem boostFail_completes (side) : Completes (execBoostFail side) :=
  .onLamp fun d k => .op (d.boostFails_only k) (d.boostFails_inv k) rfl

theorem boardTempRead_completes (side r) : Completes (execBoardTempRead side r) :=
  .onLamp fun d k =>
    (Dev.Follows.op (d.boardRead_only k r) (d.boardRead_inv k r) rfl).trans (Dev.afterClear_follows _)

theorem sensorSubstitute_completes (side) : Completes (execSensorSubstitute side) :=
  .onLamp fun d k => .op (d.substitute_only k) (d.substitute_inv k) rfl

theorem dimPwmEdge_completes (period high) : Completes (execDimPwmEdge period high) :=
  .on fun d =>
    .guard ((Dev.Follows.op (d.pwmEdge_only period high) (d.pwmEdge_inv period high) rfl).trans (Dev.afterClear_follows _))

theorem dimInputLoss_completes (n) : Completes (execDimInputLoss n) :=
  .on fun d => .guard (.op (d.dimLoss_only n) (d.dimLoss_inv n) rfl)

/-! ### Commands: auxiliary outputs -/

theorem segFrameStart_completes (side) : Completes (execSegFrameStart side) :=
  .on fun d => .op (d.segFrame_only _) (d.segFrame_inv _) rfl

theorem mxWriteDone_completes : Completes execMxWriteDone := .on fun d => .guard (.op d.mxWritten_only d.mxWritten_inv rfl)

theorem mxTeEdge_completes (n) : Completes (execMxTeEdge n) := .on fun d => .guard (.op (d.mxEdge_only n) (d.mxEdge_inv n) rfl)

theorem mxTeTimeout_completes (n) : Completes (execMxTeTimeout n) :=
  .on fun d => .guard (.op (d.mxLost_only n) (d.mxLost_inv n) rfl)

theorem scanLine_completes : Completes execScanLine := .on fun d => .op d.scanStep_only d.scanStep_inv rfl

/-! ### Commands: snapshots, faults, the NOR, calibration and the sequence store -/

theorem snapNFall_completes : Completes execSnapNFall := .on fun d => .guard (.op (d.snapshot_only 1) (d.snapshot_inv 1) rfl)

theorem faultAutoClear_completes (code inst) : Completes (execFaultAutoClear code inst) :=
  .on fun d => .op (d.autoClear_only code inst) (d.autoClear_inv code inst) rfl

theorem norPageDone_completes (good) : Completes (execNorPageDone good) :=
  .on fun d =>
    (Dev.Follows.op (d.pageDone_only good) (d.pageDone_inv good) rfl).trans (Dev.afterClear_follows _)

theorem norSectorEraseDone_completes : Completes execNorSectorEraseDone := .on fun d => .op d.eraseDone_only d.eraseDone_inv rfl

theorem norBusyTimeout_completes : Completes execNorBusyTimeout := .on fun d => .op d.norBusy_only d.norBusy_inv rfl

theorem imageRegionEraseDone_completes : Completes execImageRegionEraseDone :=
  .on fun d => .op d.imageErased_only d.imageErased_inv rfl

theorem calTriggerCheck_completes (n) : Completes (execCalTriggerCheck n) :=
  .on fun d =>
    .guard ((Dev.Follows.op (d.calTrigger_only n) (d.calTrigger_inv n) rfl).trans (Dev.calTicket_follows _))

theorem calMeasurementDone_completes (ch v) : Completes (execCalMeasurementDone ch v) :=
  .on fun d =>
    (Dev.Follows.op (d.calMeasured_only ch v) (d.calMeasured_inv ch v) rfl).trans (Dev.calTicket_follows _)

theorem seqStoreScrub_completes (r) : Completes (execSeqStoreScrub r) :=
  .on fun d =>
    .guard ((Dev.Follows.op (d.count_only _ 0 r.corrected) (d.count_inv _ 0 r.corrected) rfl).trans ⟨rfl, Nat.le_refl _, id⟩)

theorem seqReloaded_completes (mode) : Completes (execSeqReloaded mode) :=
  .on fun d => .guard (.op (d.reloaded_only mode) (d.reloaded_inv mode) rfl)

/-- Every command completes. -/
theorem exec_completes : ∀ c : Instr, Completes (exec c)
  | .resetNAsserted => resetNAsserted_completes
  | .resetRelease => resetRelease_completes
  | .supplyOutOfRange .. => supplyOutOfRange_completes _
  | .imageVerifyDone .. => imageVerifyDone_completes _ _ _ _
  | .bootComplete .. => bootComplete_completes _
  | .linkEnable .. => linkEnable_completes _
  | .powerFailWarning .. => powerFailWarning_completes _ _
  | .holdupJournalDone .. => holdupJournalDone_completes _
  | .holdupExit => holdupExit_completes
  | .dieTempConversion .. => dieTempConversion_completes _ _
  | .thermalShutdown .. => thermalShutdown_completes _
  | .thermalOffExit => thermalOffExit_completes
  | .refclkLoss .. => refclkLoss_completes _
  | .refclkRestored .. => refclkRestored_completes _
  | .pllLossOfLock .. => pllLossOfLock_completes _ _
  | .pllLockDeclared .. => pllLockDeclared_completes _
  | .relockTimeout .. => relockTimeout_completes _
  | .millerWatchdog => millerWatchdog_completes
  | .fwRestartReset => fwRestartReset_completes
  | .powerFailWarningCleared => powerFailWarningCleared_completes
  | .bootPllLockTimeout .. => bootPllLockTimeout_completes _
  | .pllQPhaseStep => pllQPhaseStep_completes
  | .jtagUpdateIr .. => jtagUpdateIr_completes _
  | .extestUpdateDr .. => extestUpdateDr_completes _
  | .resetNDeasserted => resetNDeasserted_completes
  | .ticketRequest .. => ticketRequest_completes _
  | .ticketRelease .. => ticketRelease_completes _
  | .ticketQueueTimeout .. => ticketQueueTimeout_completes _
  | .ticketOverrun .. => ticketOverrun_completes _
  | .registerWrite .. => registerWrite_completes _ _
  | .mbxDoorbell .. => mbxDoorbell_completes _ _
  | .mbxDoneRelease .. => mbxDoneRelease_completes _ _
  | .timeLoRead .. => timeLoRead_completes _
  | .evtFifoPop .. => evtFifoPop_completes _ _
  | .snapTrig p => snapTrig_completes p
  | .dbgMbxUpdate .. => dbgMbxUpdate_completes _
  | .getInfo .. => getInfo_completes _
  | .getParam .. => getParam_completes _
  | .setParam .. => setParam_completes _
  | .abort .. => abort_completes _
  | .setCompatLevel .. => setCompatLevel_completes _
  | .beamEnable .. => beamEnable_completes _
  | .selectMode .. => selectMode_completes _
  | .setSlotMask .. => setSlotMask_completes _
  | .snapshot .. => snapshot_completes _
  | .snapshotRead .. => snapshotRead_completes _
  | .layerDeclare .. => layerDeclare_completes _
  | .layerDestroy .. => layerDestroy_completes _
  | .commitGroup .. => commitGroup_completes _
  | .fenceSignal .. => fenceSignal_completes _
  | .objectList .. => objectList_completes _
  | .shutterGeometry .. => shutterGeometry_completes _
  | .lampEnable .. => lampEnable_completes _
  | .dimSet .. => dimSet_completes _
  | .rampCurve .. => rampCurve_completes _
  | .signatureExpect .. => signatureExpect_completes _
  | .journalRead .. => journalRead_completes _
  | .journalSeal .. => journalSeal_completes _
  | .calRun .. => calRun_completes _
  | .fwUpdateBegin .. => fwUpdateBegin_completes _
  | .fwUpdateData .. => fwUpdateData_completes _ _
  | .fwUpdateCommit .. => fwUpdateCommit_completes _
  | .patErase .. => patErase_completes _
  | .patProgram .. => patProgram_completes _
  | .patVerify .. => patVerify_completes _
  | .patInvalidate .. => patInvalidate_completes _
  | .tableCommit .. => tableCommit_completes _
  | .faultClear .. => faultClear_completes _
  | .reactionSet .. => reactionSet_completes _
  | .snapRelease .. => snapRelease_completes _
  | .segCommit .. => segCommit_completes _
  | .retrainRecovery .. => retrainRecovery_completes _
  | .retrainDetect .. => retrainDetect_completes _
  | .beamEnableTimeout .. => beamEnableTimeout_completes _ _
  | .journalSealTimeout => journalSealTimeout_completes
  | .canMailboxFrame .. => canMailboxFrame_completes _
  | .canMessageTimeout => canMessageTimeout_completes
  | .vehBeamFrame .. => vehBeamFrame_completes _
  | .vehMotionFrame .. => vehMotionFrame_completes _
  | .vehTimeFrame .. => vehTimeFrame_completes _ _
  | .vehTimeout .. => vehTimeout_completes _ _
  | .canBusOff => canBusOff_completes
  | .detectLosQualified .. => detectLosQualified_completes _
  | .lockAchieved .. => lockAchieved_completes _
  | .lockTimeout .. => lockTimeout_completes _
  | .eyeTestComplete .. => eyeTestComplete_completes _ _
  | .ts1Received .. => ts1Received_completes _ _ _
  | .tapreqAckTimeout .. => tapreqAckTimeout_completes _ _
  | .ts2Agreed .. => ts2Agreed_completes _ _ _
  | .trainTimeout .. => trainTimeout_completes _
  | .stepTimeout .. => stepTimeout_completes _
  | .downTimeout .. => downTimeout_completes _
  | .linkTicketGranted .. => linkTicketGranted_completes _
  | .linkTicketRetry .. => linkTicketRetry_completes _
  | .clockLaneLoss .. => clockLaneLoss_completes _
  | .deskewLoss .. => deskewLoss_completes _
  | .hardLaneFault .. => hardLaneFault_completes _ _ _ _
  | .softLaneFault .. => softLaneFault_completes _ _ _
  | .dskReceived _ _ _ n _ => dskReceived_completes _ _ _ n _
  | .btsSend .. => btsSend_completes _
  | .eiosL1 .. => eiosL1_completes _
  | .eiosL2 .. => eiosL2_completes _
  | .l1Exit .. => l1Exit_completes _
  | .l2Exit .. => l2Exit_completes _
  | .recoveryRelock .. => recoveryRelock_completes _
  | .recoveryEyeDone .. => recoveryEyeDone_completes _ _
  | .recoveryRetrainDone .. => recoveryRetrainDone_completes _ _
  | .recoveryTimeout .. => recoveryTimeout_completes _
  | .lineHusk .. => lineHusk_completes _ _
  | .objHusk .. => objHusk_completes _ _
  | .mbxHusk .. => mbxHusk_completes _ _
  | .fenceHusk .. => fenceHusk_completes _ _
  | .syncHusk .. => syncHusk_completes _ _
  | .ackHusk .. => ackHusk_completes _ _
  | .nakHusk .. => nakHusk_completes _ _
  | .vc1ReplayTimeout .. => vc1ReplayTimeout_completes _
  | .refreshBoundary => refreshBoundary_completes
  | .slotBoundary .. => slotBoundary_completes _ _ _ _
  | .lookaheadHandoff => lookaheadHandoff_completes
  | .resetInstant => resetInstant_completes
  | .diagPulse .. => diagPulse_completes _ _
  | .governorTick .. => governorTick_completes _
  | .safeStateComplete => safeStateComplete_completes
  | .govDeadline .. => govDeadline_completes _
  | .feedbackLost .. => feedbackLost_completes _ _
  | .composeFrameStart => composeFrameStart_completes
  | .composeRowStart .. => composeRowStart_completes _ _ _ _
  | .composePassComplete .. => composePassComplete_completes _
  | .dramStall => dramStall_completes
  | .dramTrafficResume => dramTrafficResume_completes
  | .intakeCopyDone .. => intakeCopyDone_completes _
  | .patternLoadDone .. => patternLoadDone_completes _ _
  | .cameraEdge .. => cameraEdge_completes _ _ _ _
  | .camTimeout => camTimeout_completes
  | .busCrcResponse .. => busCrcResponse_completes _ _ _ _
  | .cellCrcResponse .. => cellCrcResponse_completes _ _ _ _
  | .busCrcTimeout .. => busCrcTimeout_completes _
  | .cellCrcTimeout .. => cellCrcTimeout_completes _
  | .lanesResponse .. => lanesResponse_completes _ _ _
  | .statusResponse .. => statusResponse_completes _ _ _
  | .ackResponse .. => ackResponse_completes _ _ _ _
  | .errorResponse .. => errorResponse_completes _ _ _ _
  | .unparkSettled .. => unparkSettled_completes _
  | .identResponse .. => identResponse_completes _ _ _
  | .identNoResponse .. => identNoResponse_completes _
  | .trainResultResponse .. => trainResultResponse_completes _ _ _ _
  | .arrayFlt .. => arrayFlt_completes _
  | .arraySupplyGood .. => arraySupplyGood_completes _ _ _
  | .portPowerTimeout .. => portPowerTimeout_completes _
  | .portAbsent .. => portAbsent_completes _
  | .portTrainTimeout .. => portTrainTimeout_completes _
  | .parkTimeout .. => parkTimeout_completes _
  | .releaseFromPark => releaseFromPark_completes
  | .powerDownStep .. => powerDownStep_completes _
  | .pwrEnLowDwellExpiry .. => pwrEnLowDwellExpiry_completes _
  | .rasterEnd .. => rasterEnd_completes _
  | .rasterTimeout => rasterTimeout_completes
  | .listStale => listStale_completes
  | .staleHoldExpiry => staleHoldExpiry_completes
  | .chOvercurrent .. => chOvercurrent_completes _
  | .chOpen .. => chOpen_completes _
  | .chShort .. => chShort_completes _
  | .fetShort .. => fetShort_completes _
  | .boostOvTrip .. => boostOvTrip_completes _
  | .boostOvResume .. => boostOvResume_completes _
  | .boostUv .. => boostUv_completes _
  | .boostUvRecovery .. => boostUvRecovery_completes _
  | .boostRun .. => boostRun_completes _
  | .boostFail .. => boostFail_completes _
  | .boardTempRead .. => boardTempRead_completes _ _
  | .sensorSubstitute .. => sensorSubstitute_completes _
  | .dimPwmEdge .. => dimPwmEdge_completes _ _
  | .dimInputLoss .. => dimInputLoss_completes _
  | .segFrameStart .. => segFrameStart_completes _
  | .mxWriteDone => mxWriteDone_completes
  | .mxTeEdge .. => mxTeEdge_completes _
  | .mxTeTimeout .. => mxTeTimeout_completes _
  | .scanLine => scanLine_completes
  | .snapNFall => snapNFall_completes
  | .faultAutoClear .. => faultAutoClear_completes _ _
  | .norPageDone .. => norPageDone_completes _
  | .norSectorEraseDone => norSectorEraseDone_completes
  | .norBusyTimeout => norBusyTimeout_completes
  | .imageRegionEraseDone => imageRegionEraseDone_completes
  | .calTriggerCheck .. => calTriggerCheck_completes _
  | .calMeasurementDone .. => calMeasurementDone_completes _ _
  | .seqStoreScrub .. => seqStoreScrub_completes _
  | .seqReloaded .. => seqReloaded_completes _

theorem Dev.idled_follows (d : Dev) : d.Follows d.idled :=
  .op d.idled_only (fun hI => Dev.portFrames_inv _ (Dev.backLanes_inv _ (Dev.bootAnnounced_inv _ (Dev.tick_inv _
    (Dev.relatch_inv _ hI))))) rfl

/-- One step of a queue, empty or not. -/
theorem step_follows {s t : State} (h : step s = .next t) : s.dev.Follows t.dev := by
  cases hq : s.pending with
  | nil =>
    rw [step_of_no_command hq] at h
    cases h
    exact s.dev.idled_follows
  | cons c rest =>
    unfold step at h
    rw [hq] at h
    obtain ⟨d, hd, hf⟩ := exec_completes c { s with pending := rest }
    cases hd.symm.trans h
    exact hf

/-! ### The statements -/

/-- Settles O1: the step of a queue that is not empty. -/
theorem stepRunsFrontCommand : Obligations.StepRunsFrontCommand := by
  unfold Obligations.StepRunsFrontCommand
  intro s c rest h
  unfold step
  rw [h]

/-- Settles O3: the next state that the command answers may follow. -/
theorem everyCommandCompletes : Obligations.EveryCommandCompletes := by
  unfold Obligations.EveryCommandCompletes
  intro c s
  obtain ⟨d, h, hf⟩ := exec_completes c s
  exact ⟨d, h, hf.variant⟩

/-- Settles O4: nothing is held, and every list has its length. -/
theorem resetMeetsInv : Obligations.ResetMeetsInv := by
  unfold Obligations.ResetMeetsInv
  exact ⟨rfl, fun _ _ => Nat.zero_le _, rfl, rfl, rfl, rfl, rfl, rfl, rfl, rfl, rfl, rfl, rfl, rfl, rfl, rfl, rfl, rfl, rfl, rfl,
    rfl⟩

/-- Settles O5: the block after a step follows the one before. -/
theorem stepKeepsInv : Obligations.StepKeepsInv := by
  unfold Obligations.StepKeepsInv
  intro s t hI h
  exact (step_follows h).inv hI

/-- Settles O47: the counter at the confirmation, and no lower after any command or step. -/
theorem rollbackCounter : Obligations.RollbackCounter := by
  unfold Obligations.RollbackCounter
  refine ⟨fun d ht h => ⟨Dev.confirmImage_aon_of_lt ht h, Dev.confirmImage_posts ht h⟩, fun d h => Dev.confirmImage_aon_of_le h,
    fun c s t h => ?_, fun s t h => (step_follows h).counter⟩
  obtain ⟨d, hd, hf⟩ := exec_completes c s
  cases hd.symm.trans h
  exact hf.counter

end Sys2Proof.Machine
end

section
/-! Power-on, resets, and the start of BOOT (O6 to O8). -/

namespace Sys2Proof.Machine

open Sys2Proof

/-! ### Resets (R423 to R425) -/

theorem Dev.afterReset_cleared (d : Dev) (st : DevState) : (d.afterReset st).Cleared :=
  ⟨rfl, rfl, rfl, rfl, rfl, rfl, rfl, rfl, rfl, rfl, rfl, rfl, rfl, rfl, rfl, rfl, ⟨rfl, rfl⟩, rfl⟩

theorem Dev.toReset_cleared (d : Dev) (cause : Nat) : (d.toReset cause).Cleared := Dev.afterReset_cleared ..

/-- The scanned balls are in no domain that a reset puts back. -/
theorem Dev.Cleared.syncScan {d : Dev} (h : d.Cleared) : d.syncScan.Cleared := { h with }

theorem Dev.devStateWord_of_reset {d : Dev} (h : d.core.state = .reset) : d.devStateWord = 0x00010000 := if_pos h

/-- RESET_N low where the block is in RESET already: only the ball's level is taken. -/
theorem Dev.resetN_in_reset {d : Dev} (h : d.core.state = .reset) :
    d.resetN = { d with aon := { d.aon with resetN := false } } := by
  unfold Dev.resetN
  rw [if_pos h, h, show (DevState.reset == DevState.thermalOff) = false from rfl, Bool.or_false]

theorem Dev.resetN_outside_reset {d : Dev} (h : d.core.state ≠ .reset) :
    d.resetN = ({ d with aon := { d.aon with
      resetN := false, thermalHold := d.aon.thermalHold || d.core.state == DevState.thermalOff } }).toReset 2 := by
  unfold Dev.resetN
  rw [if_neg h]

/-- A supply other than VDD_AON out of range, outside RESET. -/
theorem Dev.supplies_bad {d : Dev} {r : List Bool} (hs : d.core.state ≠ .reset) (ha : r.getD 0 true = true)
    (hb : r.any (!·) = true) :
    d.supplies r = ({ d with aon := { d.aon with supplies := r }, jtag := d.tapReset }).toReset 1 := by
  unfold Dev.supplies
  simp only [ha, hb, Bool.not_true, Bool.false_eq_true, if_false, if_true]
  rw [if_pos ⟨trivial, hs⟩]

/-- VDD_AON out of range: what the always-on domain keeps is lost with it. -/
theorem Dev.supplies_aonBad {d : Dev} {r : List Bool} (ha : r.getD 0 true = false) :
    d.supplies r =
      { ({ d with aon := { d.aon with supplies := r }.lost, jtag := d.tapReset }).toReset 0 with thm := Thm.reset } := by
  have hb : r.any (!·) = true := by
    cases r with
    | nil => cases ha
    | cons x xs => rw [List.any_cons, show x = false from ha]; rfl
  unfold Dev.supplies
  simp only [ha, hb, Bool.not_false, if_true]

/-- The test access port after test-logic reset scans no ball: IDCODE is in force. -/
theorem Dev.syncScan_of_idcode {d : Dev} (h : d.jtag.ir = 0x02) :
    d.syncScan.jtag = { d.jtag with scanHighZ := false, scanDrive := false } := by
  unfold Dev.syncScan
  simp [h]

/-- With RESET_N high no instruction reaches the balls. -/
theorem Dev.syncScan_of_resetN {d : Dev} (h : d.aon.resetN = true) :
    d.syncScan = { d with jtag := { d.jtag with scanHighZ := false, scanDrive := false } } := by
  unfold Dev.syncScan Dev.scanOpen
  rw [h]
  rfl

/-! ### BOOT begins (R394, R402) -/

/-- The core domain as BOOT finds it. -/
def Core.booted (c : Core) : Core :=
  { c with state := .boot, stateTime := 0, announce := some c.state.code, bootStatus := 3, image := 0xFF, bootFirst := 0 }

theorem Dev.bootShutter_core (d : Dev) : d.bootShutter.core = d.core := d.bootShutter_only.core rfl

theorem Dev.bootShutter_clk (d : Dev) : d.bootShutter.clk = d.clk := d.bootShutter_only.part .clk rfl

theorem Dev.bootShutter_init (d : Dev) : d.bootShutter.sht.state = .init := (Dev.staleRaster_sht _).1

theorem Dev.enterBoot_core (d : Dev) : d.enterBoot.core = d.core.booted := Dev.bootShutter_core _

theorem Dev.enterBoot_clk (d : Dev) :
    d.enterBoot.clk = { d.clk with timeBase := 0, plls := modAt d.clk.plls 0 fun q => { q with wanted := true } } :=
  Dev.bootShutter_clk _

theorem Dev.enterBoot_timeBase (d : Dev) : d.enterBoot.clk.timeBase = 0 := by rw [Dev.enterBoot_clk]

/-- PLL-S is started first. -/
theorem Dev.enterBoot_pll {d : Dev} (h : 0 < d.clk.plls.length) : (d.enterBoot.pll 0).wanted = true := by
  unfold Dev.pll
  rw [Dev.enterBoot_clk, modAt_getD_self _ _ _ h]

/-- A full boot out of HOLDUP or THERMAL_OFF: the cause is kept, and BOOT begins at time 0 with no image. -/
theorem Dev.fullBoot_started (d : Dev) (cause : Nat) :
    (d.fullBoot cause).core.state = .boot ∧ (d.fullBoot cause).aon = { d.aon with resetCause := cause } ∧
      (d.fullBoot cause).clk.timeBase = 0 ∧ (d.fullBoot cause).core.image = 0xFF := by
  unfold Dev.fullBoot
  exact ⟨by rw [Dev.enterBoot_core]; rfl, (Dev.enterBoot_only _).part .aon rfl, Dev.enterBoot_timeBase _,
    by rw [Dev.enterBoot_core]; rfl⟩

/-! ### The statements -/

/-- Settles O6: the power-on state, unit by unit. -/
theorem resetState : Obligations.ResetState := by
  unfold Obligations.ResetState
  refine ⟨rfl, rfl, rfl, fun l => ?_, fun n => ?_, by unfold Dev.dark; decide, by unfold Dev.dark; decide, fun p => ?_, rfl,
    ⟨rfl, rfl, rfl, rfl, rfl, rfl, rfl, rfl, rfl, rfl, rfl, rfl, rfl, rfl, rfl, rfl, ⟨rfl, rfl⟩, rfl⟩⟩
  · cases l <;> rfl
  · unfold Dev.mport Pair.get
    split <;> rfl
  · cases p <;> rfl

/-- Settles O7: each reset by its cause, and RESET_N low in RESET. -/
theorem resetCommands : Obligations.ResetCommands := by
  unfold Obligations.ResetCommands
  have hscan (d e : Dev) {l : List Part} (h : d.onlyChanges e l) (hl : Part.within l (everyPartBut [.nor, .free]) = true) :
      d.onlyChanges e.syncScan (everyPartBut [.nor, .free]) :=
    Dev.only_then e.syncScan_only (by decide) (h.mono hl)
  refine ⟨fun s hs => ⟨s.dev.resetN.syncScan, rfl, hscan _ _ s.dev.resetN_only (by decide), ?_⟩,
    fun s hs => ⟨s.dev.resetN.syncScan, rfl, ?_⟩,
    fun s r hs ha hb => ⟨(s.dev.supplies r).syncScan, rfl, hscan _ _ (s.dev.supplies_only r) (by decide), ?_⟩,
    fun s r ha => ⟨(s.dev.supplies r).syncScan, rfl, hscan _ _ (s.dev.supplies_only r) (by decide), ?_⟩, fun s hs => ?_⟩
  · rw [Dev.resetN_outside_reset hs]
    exact ⟨rfl, Dev.devStateWord_of_reset rfl, (Dev.toReset_cleared _ _).syncScan, rfl⟩
  · rw [Dev.resetN_in_reset hs]
    exact ⟨Dev.only_then (Dev.syncScan_only _) (by decide) (Dev.only_mk (Dev.only_refl _ _) (by simp)), rfl⟩
  · rw [Dev.supplies_bad hs ha hb]
    exact ⟨rfl, (Dev.toReset_cleared _ _).syncScan, rfl, Dev.syncScan_of_idcode rfl⟩
  · rw [Dev.supplies_aonBad ha]
    exact ⟨rfl, Dev.Cleared.syncScan { Dev.toReset_cleared _ 0 with }, rfl, rfl⟩
  · exact ⟨_, exec_of_on (f := Dev.fwRestart) rfl (if_pos hs), (Dev.toReset_only _ 3).mono (by decide), rfl,
      Dev.toReset_cleared _ _, rfl⟩

/-- Settles O8: RESET_N high, the release, and a release that finds the block held. -/
theorem resetEnds : Obligations.ResetEnds := by
  unfold Obligations.ResetEnds
  refine ⟨fun s => ?_, fun s hs hn hr ht hp => ?_, fun s hs => ?_⟩
  · refine ⟨({ s.dev with aon := { s.dev.aon with resetN := true } }).syncScan, rfl,
      Dev.only_then (Dev.syncScan_only _) (by decide) (Dev.only_mk (Dev.only_refl _ _) (by simp)), rfl, ?_⟩
    rw [Dev.syncScan_of_resetN rfl]
  · have hgo : s.dev.resetReleased = s.dev.enterBoot := if_pos ⟨hs, hn, hr, by simp [ht]⟩
    refine ⟨_, exec_of_on rfl hgo, s.dev.enterBoot_only.mono (by decide), ?_, Dev.enterBoot_timeBase _,
      Dev.enterBoot_pll (by omega), Dev.bootShutter_init _⟩
    rw [Dev.enterBoot_core, Core.booted, hs]
    rfl
  · have hstay : s.dev.resetReleased = s.dev := if_neg fun ⟨h1, h2, h3, h4⟩ => hs ⟨h1, h2, h3, by simpa using h4⟩
    exact ⟨_, exec_of_on rfl hstay, Dev.only_refl _ _, rfl⟩

end Sys2Proof.Machine
end

section
/-! Clocks, the die sensor, the Miller watchdog and the test access port (O12 to O15). -/

namespace Sys2Proof.Machine

open Sys2Proof

/-- A fault that is no fault of side R alone is raised in every mode. -/
theorem Dev.not_muted (d : Dev) {code inst : Nat} (h : (faultSides code inst == [1]) = false) :
    d.mutedFault code inst = false := by
  unfold Dev.mutedFault
  rw [h]
  simp only [Bool.and_false, Bool.false_and]

theorem Dev.clk_of {a b : Dev} {l : List Part} (h : a.onlyChanges b l) (hl : l.contains .clk = false) : b.clk = a.clk :=
  h.part .clk hl

theorem Dev.pll_of {a b : Dev} (h : b.clk.plls = a.clk.plls) (p : Nat) : b.pll p = a.pll p := by
  unfold Dev.pll
  rw [h]

/-- A PLL that shows something else than its reset value is one of the list. -/
theorem Dev.pll_length {d : Dev} {p : Nat} (h : d.pll p ≠ PllSt.reset) : p < d.clk.plls.length := by
  by_contra hp
  refine h ?_
  unfold Dev.pll
  rw [List.getD_eq_getElem?_getD, List.getElem?_eq_none (Nat.le_of_not_lt hp), Option.getD_none]

theorem Dev.lt_of_locked {d : Dev} {p : Nat} (h : (d.pll p).locked = true) : p < d.clk.plls.length :=
  Dev.pll_length fun e => by rw [e] at h; cases h

theorem Dev.lt_of_relocking {d : Dev} {p : Nat} (h : (d.pll p).relocking = true) : p < d.clk.plls.length :=
  Dev.pll_length fun e => by rw [e] at h; cases h

theorem Dev.lt_of_wanted {d : Dev} {p : Nat} (h : (d.pll p).wanted = true) : p < d.clk.plls.length :=
  Dev.pll_length fun e => by rw [e] at h; cases h

/-! ### The reference (R389) -/

/-- What the reference monitor and the sticky bits show of the clocks. -/
def Clk.monitor (c : Clk) : Bool × Nat × BitVec 4 := (c.refclkGood, c.refclkCount, c.sticky)

theorem Dev.startRelock_monitor (d : Dev) (p : Nat) : (d.startRelock p).clk.monitor = d.clk.monitor := by
  unfold Dev.startRelock
  split
  · dsimp only
    split <;> rfl
  · rfl

/-- A fold of operations each of which leaves what is looked at leaves it. -/
theorem foldl_keeps {α β γ : Type} (view : β → γ) {f : β → α → β} (hf : ∀ b x, view (f b x) = view b) (xs : List α) (b : β) :
    view (xs.foldl f b) = view b := by
  induction xs generalizing b with
  | nil => rfl
  | cons x xs ih => exact (ih _).trans (hf b x)

theorem Dev.startWanted_monitor (d : Dev) : d.startWanted.clk.monitor = d.clk.monitor := by
  unfold Dev.startWanted
  split
  · refine foldl_keeps (fun e : Dev => e.clk.monitor) (fun e p => ?_) _ d
    split
    · exact e.startRelock_monitor p
    · rfl
  · rfl

theorem Dev.wantRelock_monitor (d : Dev) (p : Nat) : (d.wantRelock p).clk.monitor = d.clk.monitor := by
  unfold Dev.wantRelock
  dsimp only
  split
  · rfl
  · split
    · exact Dev.startRelock_monitor _ p
    · rfl

theorem refclkLoss_noted {s : State} (n : Nat) (hgood : s.dev.clk.refclkGood = true) (hr : s.dev.core.state ≠ .reset)
    (ht : s.dev.core.state ≠ .thermalOff) :
    Runs (.refclkLoss n) s [.prm, .clk, .sluice, .host, .links, .seq, .ports, .lamp, .gov, .saf, .jnl] fun d =>
      d.clk.refclkGood = false ∧ d.clk.refclkCount = n % 0x10000 ∧ d.clk.sticky = s.dev.clk.sticky ||| 1 ∧
      d.faultActive 0x0E01 0 = true := by
  refine ⟨s.dev.refclkLoss n, rfl, s.dev.refclkLoss_only n, ?_⟩
  unfold Dev.refclkLoss
  rw [if_neg (by simp [hgood, hr, ht])]
  extract_lets d1
  have hclk : d1.clk = { s.dev.clk with
      refclkGood := false, refclkCount := n % 0x10000, sticky := s.dev.clk.sticky ||| 1 } :=
    (Dev.clk_of (Dev.raise_only ..) rfl).trans (Dev.clk_of (Dev.count_only ..) rfl)
  have hfault : d1.faultActive 0x0E01 0 = true := Dev.raise_self _ _ rfl (Dev.not_muted _ rfl)
  split
  · unfold Dev.wantAll
    dsimp only
    rw [hclk]
    exact ⟨rfl, rfl, rfl, hfault⟩
  · dsimp only
    rw [hclk]
    exact ⟨rfl, rfl, rfl, hfault⟩

theorem refclkRestored_noted {s : State} (n : Nat) (hbad : s.dev.clk.refclkGood = false) :
    Runs (.refclkRestored n) s [.prm, .clk, .host, .links, .cam] fun d =>
      d.clk.refclkGood = true ∧ d.clk.refclkCount = n % 0x10000 := by
  refine ⟨s.dev.refclkRestored n, rfl, s.dev.refclkRestored_only n, ?_⟩
  have hmon : (s.dev.refclkRestored n).clk.monitor = (true, n % 0x10000, s.dev.clk.sticky) := by
    unfold Dev.refclkRestored
    extract_lets d0 d1
    have h1 : d1.clk.monitor = (true, n % 0x10000, s.dev.clk.sticky) := congrArg Clk.monitor (Dev.clk_of (Dev.post_only ..) rfl)
    rw [if_neg (by simp [hbad])]
    split
    · exact h1
    · exact (Dev.startWanted_monitor _).trans h1
  exact ⟨congrArg Prod.fst hmon, congrArg (fun m => m.2.1) hmon⟩

/-! ### PLLs (R387 to R391) -/

theorem Dev.pll_modPll (d : Dev) {p : Nat} (f : PllSt → PllSt) (h : p < d.clk.plls.length) : (d.modPll p f).pll p = f (d.pll p) :=
  Dev.pll_modPll_self d f h

/-- Acquisition starts on the safe divide. -/
theorem Dev.startRelock_pll {d : Dev} {p : Nat} (h : d.relocks = true) (hp : p < d.clk.plls.length) :
    (d.startRelock p).pll p = { d.pll p with
      locked := false, safeDivide := true, relocking := true, attempts := (d.pll p).attempts + 1, wanted := false } := by
  unfold Dev.startRelock
  rw [if_pos h]
  extract_lets d1
  have h1 := Dev.pll_modPll_self d (fun q => { q with
    locked := false, safeDivide := true, relocking := true, attempts := q.attempts + 1, wanted := false }) hp
  split
  · exact h1
  · exact h1

/-- No start of acquisition locks a PLL. -/
theorem Dev.startRelock_unlocked {d : Dev} {p : Nat} (h : (d.pll p).locked = false) :
    ((d.startRelock p).pll p).locked = false := by
  by_cases hr : d.relocks = true
  · by_cases hp : p < d.clk.plls.length
    · rw [Dev.startRelock_pll hr hp]
    · by_contra hl
      refine hp ?_
      have hlen : (d.startRelock p).clk.plls.length = d.clk.plls.length := by
        unfold Dev.startRelock
        rw [if_pos hr]
        dsimp only
        split <;> exact modAt_length ..
      rw [← hlen]
      exact Dev.lt_of_locked (by simpa using hl)
  · unfold Dev.startRelock
    rwa [if_neg hr]

theorem Dev.wantRelock_unlocked {d : Dev} {p : Nat} (h : (d.pll p).locked = false) (hp : p < d.clk.plls.length) :
    ((d.wantRelock p).pll p).locked = false := by
  have h1 : ((d.modPll p fun q => { q with wanted := true }).pll p).locked = false := by
    rw [Dev.pll_modPll_self _ _ hp]
    exact h
  unfold Dev.wantRelock
  dsimp only
  split
  · exact h1
  · split
    · exact Dev.startRelock_unlocked h1
    · exact h1

theorem faultRow_pll (p : Pll) : (faultRow? (0x0E02 + p.ix)).isSome = true := by cases p <;> rfl

theorem pll_not_muted (d : Dev) (p : Pll) : d.mutedFault (0x0E02 + p.ix) 0 = false := d.not_muted (by cases p <;> rfl)

theorem Pll.eq_M_of_ix {p : Pll} (h : p.ix = 1) : p = .M := by
  cases p
  · cases h
  · rfl
  · cases h

theorem pllLossOfLock_runs {s : State} (p : Pll) (clamp : Bool) (hl : (s.dev.pll p.ix).locked = true)
    (hm : ¬(p = .M ∧ s.dev.core.state = .holdup)) :
    Runs (.pllLossOfLock p clamp) s [.prm, .clk, .sluice, .host, .links, .cmp, .seq, .cam, .ports, .lamp, .gov, .aux, .saf,
      .jnl] fun d =>
      (d.pll p.ix).locked = false ∧ d.clk.sticky = s.dev.clk.sticky ||| BitVec.ofNat 4 (2 ^ (p.ix + 1)) ∧
      d.faultActive (0x0E02 + p.ix) 0 = true := by
  refine ⟨s.dev.pllLoss p.ix clamp, rfl, s.dev.pllLoss_only p.ix clamp, ?_⟩
  have hp := Dev.lt_of_locked hl
  have hM : ¬(p.ix = 1 ∧ s.dev.core.state = .holdup) := fun ⟨h1, h2⟩ => hm ⟨Pll.eq_M_of_ix h1, h2⟩
  unfold Dev.pllLoss
  rw [if_neg hM, if_neg (by simp [hl])]
  extract_lets d1 d2 d3
  have h2 : d2.clk = d1.clk := by
    unfold d2
    split
    · exact Dev.clk_of (Dev.stallDram_only ..) rfl
    · split
      · exact Dev.clk_of (Dev.segStop_only ..) rfl
      · rfl
  have h3 : d3.clk = d1.clk := (Dev.clk_of (Dev.raiseWith_only ..) rfl).trans h2
  have hunlocked : (d3.pll p.ix).locked = false := by
    rw [Dev.pll_of (congrArg Clk.plls h3)]
    exact congrArg PllSt.locked (Dev.pll_modPll_self _ _ hp)
  have hlen : p.ix < d3.clk.plls.length := by
    rw [h3]
    exact hp.trans_eq (modAt_length ..).symm
  have hsticky : d3.clk.sticky = s.dev.clk.sticky ||| BitVec.ofNat 4 (2 ^ (p.ix + 1)) := congrArg Clk.sticky h3
  have hfault : d3.faultActive (0x0E02 + p.ix) 0 = true := Dev.raiseWith_self _ _ _ _ (faultRow_pll p) (pll_not_muted _ p)
  split
  · next h1 =>
    have h1' : d3.startRelock 1 = d3.startRelock p.ix := by rw [h1]
    rw [h1']
    exact ⟨Dev.startRelock_unlocked hunlocked, (congrArg (fun m => m.2.2) (d3.startRelock_monitor p.ix)).trans hsticky,
      (Dev.faultActive_of_saf ((d3.startRelock_only p.ix).part .saf rfl) _ _).trans hfault⟩
  · exact ⟨Dev.wantRelock_unlocked hunlocked hlen, (congrArg (fun m => m.2.2) (d3.wantRelock_monitor p.ix)).trans hsticky,
      (Dev.faultActive_of_saf ((d3.wantRelock_only p.ix).part .saf rfl) _ _).trans hfault⟩

theorem pllLockDeclared_relock {s : State} (p : Pll) (h : (s.dev.pll p.ix).relocking = true) :
    Runs (.pllLockDeclared p) s [.prm, .clk, .sluice, .host, .links, .lamp, .saf] fun d =>
      d.pll p.ix = { s.dev.pll p.ix with locked := true, safeDivide := false, relocking := false, attempts := 0, wanted :=
        false } := by
  refine ⟨s.dev.pllLock p.ix, rfl, s.dev.pllLock_only p.ix, ?_⟩
  unfold Dev.pllLock
  dsimp only
  rw [if_pos h]
  have hmod := Dev.pll_modPll_self s.dev (fun q => { q with
    locked := true, safeDivide := false, relocking := false, attempts := 0, wanted := false }) (Dev.lt_of_relocking h)
  split
  · refine (Dev.pll_of (congrArg Clk.plls ?_) _).trans hmod
    exact (Dev.clk_of (Dev.request_only ..) rfl).trans ((Dev.clk_of (Dev.clearFault_only ..) rfl).trans
      (Dev.clk_of (Dev.post_only ..) rfl))
  · exact (Dev.pll_of (congrArg Clk.plls (Dev.clk_of (Dev.post_only ..) rfl)) _).trans hmod

/-- A PLL that its boot start finds locked. -/
def PllSt.started (q : PllSt) : PllSt := { q with locked := true, wanted := false }

theorem pllLockDeclared_boot {s : State} (p : Pll) (hb : s.dev.core.state = .boot) (hr : (s.dev.pll p.ix).relocking = false)
    (hw : (s.dev.pll p.ix).wanted = true) :
    Runs (.pllLockDeclared p) s [.clk] fun d => (d.pll p.ix).locked = true ∧ (d.pll p.ix).wanted = false := by
  have hmod : (s.dev.modPll p.ix PllSt.started).pll p.ix = (s.dev.pll p.ix).started := Dev.pll_modPll_self _ _
    (Dev.lt_of_wanted hw)
  have heq : s.dev.pllLock p.ix =
      if p.ix < 2 then (s.dev.modPll p.ix PllSt.started).modPll (p.ix + 1) fun q => { q with wanted := true }
      else s.dev.modPll p.ix PllSt.started := by
    unfold Dev.pllLock
    dsimp only
    rw [if_neg (by simp [hr]), if_pos ⟨hb, hw⟩]
    rfl
  refine ⟨s.dev.pllLock p.ix, rfl, ?_⟩
  rw [heq]
  split
  · refine ⟨Dev.only_then (Dev.modPll_only ..) (by decide) (Dev.modPll_only ..), ?_⟩
    dsimp only
    rw [Dev.pll_modPll_ne _ _ (Nat.ne_of_lt (Nat.lt_succ_self p.ix)), hmod]
    exact ⟨rfl, rfl⟩
  · refine ⟨Dev.modPll_only .., ?_⟩
    dsimp only
    rw [hmod]
    exact ⟨rfl, rfl⟩

theorem relockTimeout_again {s : State} (p : Pll) (h : (s.dev.pll p.ix).relocking = true) (hr : s.dev.relocks = true) :
    Runs (.relockTimeout p) s [.prm, .clk, .cam] fun d =>
      (d.pll p.ix).relocking = true ∧ (d.pll p.ix).safeDivide = true ∧ (d.pll p.ix).locked = false ∧
      (d.pll p.ix).attempts = (s.dev.pll p.ix).attempts + 1 := by
  refine ⟨s.dev.relockTimeout p.ix, rfl, s.dev.relockTimeout_only p.ix, ?_⟩
  have hgo : (s.dev.relockTimeout p.ix).pll p.ix = { s.dev.pll p.ix with
      locked := false, safeDivide := true, relocking := true, attempts := (s.dev.pll p.ix).attempts + 1, wanted := false } := by
    unfold Dev.relockTimeout
    rw [if_pos h]
    exact Dev.startRelock_pll (d := s.dev.count kClkRelockFail p.ix 1) hr (Dev.lt_of_relocking h)
  dsimp only
  rw [hgo]
  exact ⟨rfl, rfl, rfl, rfl⟩

/-! ### Phase steps (R395) -/

theorem pllQPhaseStep_steers {s : State} (h : s.dev.steers = true) (hl : (s.dev.pll 2).locked = true) :
    Runs .pllQPhaseStep s [.clk] fun d =>
      d.clk.pllqPhase + d.clk.phaseTarget = s.dev.clk.pllqPhase + s.dev.clk.phaseTarget ∧
      (s.dev.clk.phaseTarget ≠ 0 → d.clk.phaseTarget.natAbs + 1 = s.dev.clk.phaseTarget.natAbs) ∧
      (s.dev.clk.phaseTarget = 0 → d = s.dev) := by
  refine ⟨s.dev.phaseStep, rfl, s.dev.phaseStep_only, ?_⟩
  unfold Dev.phaseStep
  extract_lets dir
  rw [if_pos (by rw [h, hl]; rfl)]
  dsimp only
  refine ⟨by omega, fun hne => ?_, fun h0 => ?_⟩
  · unfold dir
    split
    · omega
    · split <;> omega
  · have hd : dir = 0 := by simp [dir, h0]
    rw [hd, Int.add_zero, Int.sub_zero]

theorem pllQPhaseStep_idle {s : State} (h : s.dev.steers = false) : exec .pllQPhaseStep s = .next s :=
  exec_of_on (f := Dev.phaseStep) (e := s.dev) rfl (if_neg (by simp [h]))

/-- Settles O14: the reference, the PLLs and the phase steps, each event by its operation. -/
theorem clocks : Obligations.Clocks := by
  unfold Obligations.Clocks
  exact ⟨fun _ n hg hr ht => refclkLoss_noted n hg hr ht, fun _ n hb => refclkRestored_noted n hb,
    fun _ p clamp hl hm => pllLossOfLock_runs p clamp hl hm, fun _ p h => pllLockDeclared_relock p h,
    fun _ p hb hr hw => pllLockDeclared_boot p hb hr hw, fun _ p h hr => relockTimeout_again p h hr,
    fun _ h hl => pllQPhaseStep_steers h hl, fun _ h => pllQPhaseStep_idle h⟩

/-! ### The die sensor (R397, R398) -/

/-- The always-on side of the die sensor: the window of conversions, the run counts, the phase and the RC trim. -/
def Thm.window (m : Thm) : List Int × Nat × Nat × Nat × Int := (m.conversions, m.badRun, m.goodRun, m.phase, m.rcTrim)

theorem Dev.thm_of {a b : Dev} {l : List Part} (h : a.onlyChanges b l) (hl : l.contains .thm = false) : b.thm = a.thm :=
  h.part .thm hl

theorem Dev.post_window (d : Dev) (code : Nat) (x : Nat) : (d.post code x).thm.window = d.thm.window :=
  congrArg Thm.window (Dev.thm_of (d.post_only code x) rfl)

/-- Throttling moves the stage and nothing of the window. -/
theorem Dev.throttle_window (n : Nat) (d : Dev) : (Dev.throttle n d).thm.window = d.thm.window := by
  induction n generalizing d with
  | zero => rfl
  | succ n ih =>
    unfold Dev.throttle
    extract_lets old new src1 src2 d1 d2
    split
    · rfl
    · have h2 : d2.thm.window = d.thm.window := Dev.post_window ..
      refine (ih _).trans ?_
      split
      · exact h2
      · exact (congrArg Thm.window (Dev.thm_of (Dev.count_only ..) rfl)).trans h2

theorem Dev.updateTDie_window (d : Dev) : d.updateTDie.thm.window = d.thm.window := by
  unfold Dev.updateTDie
  refine (Dev.throttle_window _ _).trans ?_
  dsimp only
  split
  · exact Dev.post_window ..
  · split
    · exact Dev.post_window ..
    · rfl

/-- What follows a conversion leaves what the always-on side took of it. -/
theorem Dev.dieTemp_window (d : Dev) (t trim : Int) : (d.dieTemp t trim).thm.window = (d.takeConversion t trim).thm.window := by
  unfold Dev.dieTemp
  extract_lets d1 bad good src d2
  split
  · rfl
  · have h2 : d2.thm.window = d1.thm.window := by
      unfold d2
      split
      · exact (Dev.throttle_window _ _).trans (Dev.post_window ..)
      · split
        · exact (Dev.throttle_window _ _).trans (Dev.post_window ..)
        · rfl
    split
    · exact (Dev.updateTDie_window _).trans h2
    · exact h2

theorem dieTempConversion_valid {s : State} {t trim : Int} (hlo : -600 ≤ t) (hhi : t ≤ 2000) :
    Runs (.dieTempConversion t trim) s [.prm, .thm, .host, .links, .cmp, .gov] fun d =>
      d.thm.conversions = (t :: s.dev.thm.conversions).take 16 ∧ d.thm.badRun = 0 ∧
      d.thm.goodRun = min 16 (s.dev.thm.goodRun + 1) ∧ d.thm.phase = (s.dev.thm.phase + 1) % 16 := by
  have hok : conversionValid t = true := by simp [conversionValid, hlo, hhi]
  have hw := s.dev.dieTemp_window t trim
  simp only [Dev.takeConversion, hok, if_true, Thm.window, Prod.mk.injEq] at hw
  obtain ⟨hc, hb, hg, hp, -⟩ := hw
  exact ⟨s.dev.dieTemp t trim, rfl, s.dev.dieTemp_only t trim, hc, hb, hg, hp⟩

theorem dieTempConversion_invalid {s : State} {t trim : Int} (h : t < -600 ∨ 2000 < t) :
    Runs (.dieTempConversion t trim) s [.prm, .thm, .host, .links, .cmp, .gov] fun d =>
      d.thm.conversions = s.dev.thm.conversions ∧ d.thm.goodRun = 0 ∧ d.thm.badRun = min 3 (s.dev.thm.badRun + 1) ∧
      d.thm.rcTrim = s.dev.thm.rcTrim := by
  have hbad : conversionValid t = false := by
    rw [conversionValid, Bool.and_eq_false_iff, decide_eq_false_iff_not, decide_eq_false_iff_not]
    omega
  have hw := s.dev.dieTemp_window t trim
  simp only [Dev.takeConversion, hbad, Bool.false_and, Bool.false_eq_true, if_false, Thm.window, Prod.mk.injEq] at hw
  obtain ⟨hc, hb, hg, -, hr⟩ := hw
  exact ⟨s.dev.dieTemp t trim, rfl, s.dev.dieTemp_only t trim, hc, hg, hb, hr⟩

/-- Settles O12: the shutdown, its two ends, and a conversion by its validity. -/
theorem temperature : Obligations.Temperature := by
  unfold Obligations.Temperature
  refine ⟨fun s t hr ht => ?_, fun s ht => ?_, fun s ht => ?_, fun s t trim hlo hhi => dieTempConversion_valid hlo hhi,
    fun s t trim h => dieTempConversion_invalid h⟩
  · have hgo : s.dev.thermalShutdown t = ({ s.dev with aon := { s.dev.aon with
        shutdowns := min 0xFFFF (s.dev.aon.shutdowns + 1), shutdownT := t } }).afterReset .thermalOff :=
      if_neg (not_or.2 ⟨hr, ht⟩)
    refine ⟨s.dev.thermalShutdown t, rfl, (s.dev.thermalShutdown_only t).mono (by decide), ?_⟩
    rw [hgo]
    exact ⟨rfl, Dev.afterReset_cleared .., rfl⟩
  · have hgo : s.dev.thermalExit = s.dev.fullBoot 5 := if_pos ht
    refine ⟨s.dev.thermalExit, rfl, s.dev.thermalExit_only.mono (by decide), ?_⟩
    rw [hgo]
    exact s.dev.fullBoot_started 5
  · have hgo : s.dev.thermalExit = { s.dev with aon := { s.dev.aon with thermalHold := false } } := if_neg ht
    refine ⟨s.dev.thermalExit, rfl, ?_⟩
    rw [hgo]
    exact ⟨Dev.only_mk (Dev.only_refl _ _) (by simp), rfl⟩

/-! ### The Miller watchdog (R362) -/

/-- Settles O13: the fault is raised, and then the Miller counts as stuck. -/
theorem watchdog : Obligations.Watchdog := by
  unfold Obligations.Watchdog
  intro s hrun himg hacorn hstuck
  have hgo : s.dev.watchdog = { s.dev.raise 0x0C04 0 0 with
      host := { (s.dev.raise 0x0C04 0 0).host with millerStuck := true } } :=
    if_pos ⟨hrun, himg, by simp [hacorn], by simp [hstuck]⟩
  refine ⟨s.dev.watchdog, rfl, s.dev.watchdog_only.mono (by decide), ?_⟩
  rw [hgo]
  exact ⟨Dev.raise_self _ _ rfl (Dev.not_muted _ rfl), rfl⟩

/-! ### The test access port (R453, R455, R456) -/

/-- Settles O15: Update-IR by the instruction it brings, and Update-DR of EXTEST. -/
theorem testAccessPort : Obligations.TestAccessPort := by
  unfold Obligations.TestAccessPort
  refine ⟨fun s ir hs => ?_, fun s cells hs hn hl hi => ?_⟩
  · refine ⟨({ s.dev with jtag := { s.dev.jtag with ir := ir, dr := s.dev.captureDr ir } }).syncScan,
      exec_of_on rfl (if_pos (show s.dev.tapRuns = true from hs)),
      Dev.only_then (Dev.syncScan_only _) (by decide) (Dev.only_mk (Dev.only_refl _ _) (by simp)), rfl, rfl, rfl, ?_, ?_⟩ <;>
    simp [Dev.syncScan, Dev.scanOpen, Dev.tapRuns, hs, and_assoc]
  · have hopen : s.dev.scanOpen = true := by simp [Dev.scanOpen, Dev.tapRuns, hs, hn, hl]
    refine ⟨({ s.dev with jtag := { s.dev.jtag with cells := cells } }).syncScan, exec_of_on rfl (if_pos ⟨hopen, hi⟩),
      Dev.only_then (Dev.syncScan_only _) (by decide) (Dev.only_mk (Dev.only_refl _ _) (by simp)), rfl, ?_⟩
    simp [Dev.syncScan, Dev.scanOpen, Dev.tapRuns, hs, hn, hl, hi]

end Sys2Proof.Machine
end

section
/-! The images, the end of BOOT and hold-up (O9 to O11). -/

namespace Sys2Proof.Machine

open Sys2Proof

theorem Dev.booting_state {d : Dev} (h : d.booting = true) : d.core.state = .boot := by
  unfold Dev.booting at h
  simp only [Bool.and_eq_true, beq_iff_eq] at h
  exact h.1

theorem Dev.aon_of {a b : Dev} {l : List Part} (h : a.onlyChanges b l) (hl : l.contains .aon = false) : b.aon = a.aon :=
  h.part .aon hl

/-! ### Boot fails (R430) -/

/-- A boot that fails ends in SAFE with the recovery service, whatever stood before. -/
theorem Dev.bootFailed_safe (d : Dev) : d.bootFailed.core.state = .safe ∧ d.bootFailed.core.acornService = true := by
  unfold Dev.bootFailed
  dsimp only
  rw [Dev.setState_core]
  exact ⟨rfl, rfl⟩

/-! ### Images (R428, R430) -/

theorem Dev.writeDir_core (d : Dev) (f : DirRec → DirRec) : (d.writeDir f).core = d.core := (d.writeDir_only f).part .core rfl

/-- The selection counts a trial and notes the first image; the state and the images in force stay. -/
theorem Dev.selectImage_core (d : Dev) :
    d.selectImage.core.state = d.core.state ∧ d.selectImage.core.image = d.core.image := by
  unfold Dev.selectImage
  split
  · exact ⟨rfl, rfl⟩
  · extract_lets r d1 first
    have h1 : d1.core = d.core := by
      unfold d1
      split
      · rfl
      · split
        · exact Dev.writeDir_core ..
        · exact Dev.writeDir_core ..
    exact ⟨(congrArg Core.state h1 :), (congrArg Core.image h1 :)⟩

theorem Dev.bootImage_core (d : Dev) (img svn fw : Nat) :
    (d.bootImage img svn fw).core.state = d.core.state ∧ (d.bootImage img svn fw).core.image = img ∧
      (d.bootImage img svn fw).core.imageSvn = svn ∧ (d.bootImage img svn fw).core.fwVersion = fw := by
  unfold Dev.bootImage
  extract_lets r fall other core d1 d2 d3
  have h2 : d2.core = d1.core := by
    unfold d2
    split
    · exact Dev.writeDir_core ..
    · rfl
  have h3 : d3.core = d1.core := (d2.millerStarts_only.part .core rfl).trans h2
  have h4 : (if fall = true then d3.post 0x1101 (img + 2 * d3.failingCheck other) else d3).core = d1.core := by
    split
    · exact ((Dev.post_only ..).part .core rfl).trans h3
    · exact h3
  rw [h4]
  exact ⟨rfl, rfl, rfl, rfl⟩

/-- An image has been read while the Acorn boots: what follows, by the check it failed. -/
theorem Dev.imageRead_wanted {d : Dev} {img : Nat} (check svn fw : Nat) (hb : d.booting = true) (hi : d.core.image = 0xFF)
    (hn : d.selectImage.nextImage = some img) :
    d.imageRead img check svn fw =
      if check = 0 then d.selectImage.bootImage img svn fw
      else if (d.selectImage.setCheck img check).nextImage.isNone then (d.selectImage.setCheck img check).bootFailed
      else d.selectImage.setCheck img check := by
  unfold Dev.imageRead
  rw [if_neg (by simp [hb, hi])]
  simp only [hn, ne_eq, not_true_eq_false, if_false]

/-- Settles O9: the image that was read verifies, or fails with another left, or fails with none left. -/
theorem bootImages : Obligations.BootImages := by
  unfold Obligations.BootImages
  refine ⟨fun s b svn fw hb hi hn => ?_, fun s b check svn fw hb hi hn hc hm => ?_, fun s b check svn fw hb hi hn hc hm => ?_⟩
  · refine ⟨s.dev.imageRead (b2n b) 0 svn fw, rfl, s.dev.imageRead_only .., ?_⟩
    rw [Dev.imageRead_wanted 0 svn fw hb hi hn, if_pos rfl]
    obtain ⟨hstate, himage, hsvn, hfw⟩ := s.dev.selectImage.bootImage_core (b2n b) svn fw
    refine ⟨?_, himage, hsvn, hfw⟩
    exact hstate.trans (s.dev.selectImage_core.1.trans (Dev.booting_state hb))
  · refine ⟨s.dev.imageRead (b2n b) check svn fw, rfl, s.dev.imageRead_only .., ?_⟩
    rw [Dev.imageRead_wanted check svn fw hb hi hn, if_neg hc, if_neg (by simpa using hm)]
    obtain ⟨hstate, himage⟩ := s.dev.selectImage_core
    exact ⟨hstate.trans (Dev.booting_state hb), himage.trans hi, hm⟩
  · refine ⟨s.dev.imageRead (b2n b) check svn fw, rfl, s.dev.imageRead_only .., ?_⟩
    rw [Dev.imageRead_wanted check svn fw hb hi hn, if_neg hc, if_pos (by simpa using hm)]
    exact Dev.bootFailed_safe _

/-! ### STANDBY at the end of BOOT (Tables 1-7 and 19-6) -/

/-- Where the block stands: its requests, the time, DEV_STATE with its time, and the boot time. -/
def Dev.stand (d : Dev) : BeamReq × Nat × DevState × Nat × Nat :=
  (d.req, d.clk.timeBase, d.core.state, d.core.stateTime, d.core.bootTime)

theorem Dev.stand_of {a b : Dev} {l : List Part} (h : a.onlyChanges b l)
    (hl : (l.contains .req || l.contains .clk || l.contains .core) = false) : b.stand = a.stand := by
  simp only [Bool.or_eq_false_iff] at hl
  obtain ⟨⟨hr, hc⟩, hk⟩ := hl
  have h1 : b.req = a.req := h.part .req hr
  have h2 : b.clk = a.clk := h.part .clk hc
  have h3 : b.core = a.core := h.part .core hk
  unfold Dev.stand
  rw [h1, h2, h3]

theorem Dev.post_stand (d : Dev) (code arg : Nat) : (d.post code arg).stand = d.stand := Dev.stand_of (d.post_only code arg) rfl

theorem Dev.finishWith_stand (d : Dev) (p : Port) (tag st : Nat) : (d.finishWith p tag st).stand = d.stand :=
  Dev.stand_of (d.finishWith_only p tag st) rfl

/-- No beam is asked for, by any input. -/
def Dev.unasked (d : Dev) : Prop := d.req.inForce = 0 ∧ d.req.can = 0 ∧ d.req.mailbox = 0

theorem Dev.req_of_stand {d : Dev} {r : BeamReq} {x : Nat × DevState × Nat × Nat} (h : d.stand = (r, x)) : d.req = r :=
  congrArg Prod.fst h

theorem Dev.unasked_of_stand {a b : Dev} (h : b.stand = a.stand) (ha : a.unasked) : b.unasked := by
  unfold Dev.unasked
  rw [Dev.req_of_stand h]
  exact ha

/-- With every input at 0 the request in force stays at 0. -/
theorem Dev.rechoose_unasked {d : Dev} (h : d.unasked) : d.rechoose = d := by
  obtain ⟨hin, hcan, hmbx⟩ := h
  have hv : d.chosenReq.1 = 0 := by
    unfold Dev.chosenReq
    dsimp only
    split
    · exact hmbx
    · split
      · exact hcan
      · exact hmbx
      · split
        · exact hmbx
        · exact hcan
  unfold Dev.rechoose
  dsimp only
  rw [if_pos (hv.trans hin.symm)]

theorem Dev.camModeChange_stand (d : Dev) (m : Nat) : (d.camModeChange m).stand = d.stand := by
  unfold Dev.camModeChange
  dsimp only
  split <;> rfl

theorem Dev.takeMode_stand {d : Dev} (h : d.unasked) (m : Nat) (b : Bool) : (d.takeMode m b).stand = d.stand := by
  unfold Dev.takeMode
  extract_lets d1 base core d2
  have h1 : d1.stand = d.stand := by
    unfold d1
    split
    · rfl
    · exact (Dev.camModeChange_stand _ m).trans (Dev.stand_of (d.keepTestFrame_only m) rfl)
  have h2 : d2.stand = d.stand := h1
  have h3 : ((d2.carryMask m).rectsModeChange (d2.rowOf m)).stand = d.stand :=
    (Dev.stand_of (Dev.rectsModeChange_only ..) rfl).trans ((Dev.stand_of (d2.carryMask_only m) rfl).trans h2)
  rw [Dev.rechoose_unasked (Dev.unasked_of_stand h3 h), h3]

theorem Dev.changeMode_stand {d : Dev} (h : d.unasked) (m : Nat) (b : Bool) : (d.changeMode m b).stand = d.stand :=
  (Dev.stand_of (Dev.post_only ..) rfl).trans ((Dev.stand_of (Dev.count_only ..) rfl).trans (Dev.takeMode_stand h m b))

theorem Dev.selectNow_stand {d : Dev} (h : d.unasked) (m : Nat) (p : Port) (tag : Nat) :
    (d.selectNow m p tag).stand = d.stand := by
  unfold Dev.selectNow
  refine (Dev.stand_of (Dev.finish_only ..) rfl).trans ?_
  dsimp only
  split
  · rfl
  · exact (Dev.stand_of (Dev.restartTimeline_only _) rfl).trans
      (Dev.changeMode_stand (d := { d with seq := { d.seq with change := .none_ } }) h m false)

theorem Dev.settleMode_stand {d : Dev} (h : d.unasked) : d.settleMode.stand = d.stand := by
  unfold Dev.settleMode
  split
  · split
    · exact Dev.selectNow_stand h ..
    · split
      · exact Dev.finishWith_stand ..
      · rfl
  · rfl

/-- Nothing leaves STANDBY while no beam is asked for. -/
theorem Dev.settle_stand {d : Dev} (h : d.unasked) : d.settle.stand = d.stand := by
  have hm := Dev.settleMode_stand h
  have hoff : d.settleMode.beamDue = false := by
    have hin : d.settleMode.req.inForce = 0 := (Dev.unasked_of_stand hm h).1
    unfold Dev.beamDue
    rw [hin]
    simp
  unfold Dev.settle
  dsimp only
  rw [hoff, if_neg Bool.false_ne_true, hm]

theorem Dev.firstMode_stand {d : Dev} (h : d.unasked) : d.firstMode.stand = d.stand := by
  unfold Dev.firstMode
  split
  · rfl
  · exact (Dev.stand_of (Dev.moveSideR_only ..) rfl).trans (Dev.takeMode_stand h _ false)

theorem Dev.confirmImage_stand (d : Dev) : d.confirmImage.stand = d.stand := by
  unfold Dev.confirmImage
  split
  · rfl
  · extract_lets d1 core d2
    have h1 : d1.stand = d.stand := Dev.stand_of (d.writeDir_only _) rfl
    have h2 : d2.stand = d.stand := by
      unfold Dev.stand at h1 ⊢
      exact h1
    split
    · exact (Dev.post_stand ..).trans h2
    · exact h2

theorem Dev.bootAnnounced_stand (d : Dev) : d.bootAnnounced.stand = d.stand := by
  unfold Dev.bootAnnounced
  split
  · rfl
  · extract_lets core d1 d2
    have h2 : d2.stand = d1.stand :=
      (Dev.stand_of (Dev.sendStat_only _) rfl).trans ((Dev.post_stand ..).trans (Dev.stand_of (d1.setIrq_only 1) rfl))
    split
    · exact h2
    · exact (Dev.stand_of (d2.raise_only ..) rfl).trans h2

theorem Dev.setState_stand (d : Dev) (new : DevState) (cause : Nat) :
    (d.setState new cause).stand = (d.req, d.clk.timeBase, new, d.clk.timeBase, d.core.bootTime) := by
  have hr : (d.setState new cause).req = d.req := (Dev.setState_only ..).part .req rfl
  have hc : (d.setState new cause).clk = d.clk := (Dev.setState_only ..).part .clk rfl
  unfold Dev.stand
  rw [hr, hc, Dev.setState_core]
  rfl

/-- The end of BOOT: STANDBY, now, with its time noted as the boot time. -/
theorem Dev.bootDone_stand {d : Dev} (h : d.unasked) : d.bootDone.stand = (d.req, d.now, .standby, d.now, d.now) := by
  unfold Dev.bootDone
  extract_lets clk d1 d2 d3 d4 core d5
  have h1 : d1.bootAnnounced.stand = d.stand := d1.bootAnnounced_stand
  have h2 : d2.stand = d.stand := by
    unfold d2
    rw [Dev.stand_of (Dev.endStartup_only _) rfl, Dev.stand_of (Dev.release_only _ _) rfl, h1]
  have hload : (d2.sides.foldl (fun d s => d.loadResident s) d2).stand = d.stand :=
    (foldl_keeps Dev.stand (fun e s => Dev.stand_of (Dev.loadResident_only e s) rfl) _ _).trans h2
  have h3 : d3.stand = d.stand := (Dev.firstMode_stand (Dev.unasked_of_stand hload h)).trans hload
  have h4 : d4.stand = (d.req, d.now, .standby, d.now, d.core.bootTime) := by
    unfold d4
    rw [Dev.stand_of (Dev.openJournal_only _) rfl, Dev.stand_of (Dev.noteReplaced_only _) rfl, Dev.setState_stand]
    simp only [Dev.stand, Prod.mk.injEq] at h3
    obtain ⟨hr, hc, -, -, hb⟩ := h3
    rw [hr, hc, hb]
    rfl
  have h5 : d5.stand = (d.req, d.now, .standby, d.now, d.now) := by
    simp only [Dev.stand, Prod.mk.injEq] at h4 ⊢
    obtain ⟨hr, hc, hs, ht, -⟩ := h4
    exact ⟨hr, hc, hs, ht, hc⟩
  have h6 : (d5.enableSlots.reformMasks.confirmImage.standbyEntered).stand = d5.stand := by
    rw [Dev.stand_of (Dev.standbyEntered_only _) rfl, Dev.confirmImage_stand, Dev.stand_of (Dev.reformMasks_only _) rfl,
      Dev.stand_of (Dev.enableSlots_only _) rfl]
  have hun : d5.unasked := by
    unfold Dev.unasked
    rw [Dev.req_of_stand h5]
    exact h
  rw [Dev.settle_stand (Dev.unasked_of_stand h6 hun), h6, h5]

/-! ### A link in BOOT (R43) -/

theorem Dev.toDetect_backLaneOn (d : Dev) (l : LinkId) : ((d.toDetect l).link l).backLaneOn = (d.link l).backLaneOn := by
  have h := Dev.KeepsLinks.afterModLink (b := d.toDetect l) (((Dev.closeFramesOf_keepsLinks _ l).trans
    (Dev.clearFault_keepsLinks _ (l.ev 0x07) 0)).trans (Dev.syncBts_keepsLinks _ l))
  have h0 : d.KeepsLinks (d.leavePower l) := by
    unfold Dev.leavePower
    split
    · exact .of_quiet (d.postFree_quiet _)
    · exact .refl d
  exact (congrArg Link.backLaneOn h).trans ((h0.trans (.of_frame (Dev.release_only _ (.link l)) rfl)).backLaneOn l)

/-! ### The end of BOOT -/

/-- Settles O10: the self-tests' result, a PLL that is late, and a link that the Miller enables. -/
theorem bootEnds : Obligations.BootEnds := by
  unfold Obligations.BootEnds
  refine ⟨fun s hb => ?_, fun s hb hi hp h0 h1 h2 => ?_, fun s pass hb hi hp => ?_, fun s p hb hw hl => ?_, fun s p hw => ?_,
    fun s l hb hi hl hd => ?_⟩
  · have hgo : s.dev.bootComplete false = s.dev.bootFailed := by simp [Dev.bootComplete, hb]
    refine ⟨s.dev.bootComplete false, rfl, s.dev.bootComplete_only false, ?_⟩
    rw [hgo]
    exact Dev.bootFailed_safe _
  · have hgo : s.dev.bootComplete true = s.dev.bootDone := by simp [Dev.bootComplete, hb, hi, hp]
    have hstand := Dev.bootDone_stand (d := s.dev) ⟨h0, h1, h2⟩
    simp only [Dev.stand, Prod.mk.injEq] at hstand
    obtain ⟨-, -, hstate, htime, hboot⟩ := hstand
    refine ⟨s.dev.bootComplete true, rfl, s.dev.bootComplete_only true, ?_⟩
    rw [hgo]
    exact ⟨hstate, hboot, htime⟩
  · have hgo : s.dev.bootComplete pass = s.dev.bootFailed := by simp [Dev.bootComplete, hb, hi, hp]
    refine ⟨s.dev.bootComplete pass, rfl, s.dev.bootComplete_only pass, ?_⟩
    rw [hgo]
    exact Dev.bootFailed_safe _
  · have hgo : s.dev.bootPllLate p.ix = s.dev.bootFailed := if_pos ⟨hb, hw, by simp [hl]⟩
    refine ⟨s.dev.bootPllLate p.ix, rfl, s.dev.bootPllLate_only p.ix, ?_⟩
    rw [hgo]
    exact Dev.bootFailed_safe _
  · have hstay : s.dev.bootPllLate p.ix = s.dev := if_neg (by simp [Dev.booting, hw])
    exact ⟨_, exec_of_on rfl hstay, Dev.only_refl _ _, rfl⟩
  · have hgo : s.dev.enableLink l = (s.dev.modLink l fun k => { k with backLaneOn := true }).toDetect l :=
      if_pos ⟨hb, hi, by simpa using hl, hd⟩
    refine ⟨s.dev.enableLink l, rfl, s.dev.enableLink_only l, ?_⟩
    rw [hgo]
    obtain ⟨hstate, -, hmap, -⟩ := (s.dev.modLink l fun k => { k with backLaneOn := true }).toDetect_link l
    refine ⟨hstate, ?_, hmap⟩
    rw [Dev.toDetect_backLaneOn, Dev.link_modLink_self]

/-! ### Hold-up (R379 to R381) -/

/-- What HOLDUP stops: DRAM traffic and the safe lamp at once, and BEAM is not ready. -/
theorem Dev.stopAll_ends (d : Dev) :
    d.stopAll.core.state = d.core.state ∧ d.stopAll.core.beamReady = false ∧ d.stopAll.cmp.dramStalled = true ∧
      d.stopAll.saf.safeLamp = false := by
  unfold Dev.stopAll
  extract_lets side d1 d2 d3
  have hside : ∀ (e : Dev) (s : Nat), (side e s).core = e.core := fun e s => by
    unfold side
    rw [(Dev.dropPass_only _ _).core rfl, (Dev.portHoldup_only _ _).core rfl, (Dev.modLside_only _ _ _).core rfl,
      (Dev.darkSide_only _ _).core rfl, (Dev.stopBoost_only _ _).core rfl, (Dev.zeroWords_only _ _).core rfl]
  have h1 : d1.core = d.core := foldl_keeps Dev.core hside _ _
  have h2 : d2.core = d.core := by
    refine (foldl_keeps Dev.core (fun e l => ?_) _ _).trans h1
    split
    · rfl
    · exact (e.toL2_only l).core rfl
  have h3 : d3.core = d.core := by
    unfold d3
    rw [(Dev.endRun_only _).core rfl, (Dev.segStop_only _).core rfl, (Dev.abandonRaster_only _).core rfl,
      (Dev.slotsOff_only _).core rfl, h2]
  exact ⟨(congrArg Core.state h3 :), rfl, rfl, rfl⟩

theorem Dev.goTo_state (d : Dev) (new : DevState) (cause : Nat) : (d.goTo new cause).core.state = new := by
  unfold Dev.goTo
  rw [(Dev.closeSession_only _).core rfl, Dev.setState_core]

theorem Dev.voidTickets_parts (d : Dev) : d.voidTickets.core = d.core ∧ d.voidTickets.sluice = Sluice.reset ∧
    d.voidTickets.cmp = d.cmp ∧ d.voidTickets.saf = d.saf :=
  ⟨rfl, rfl, rfl, rfl⟩

/-- A warning that qualifies in an active state: HOLDUP, with what it stops. -/
theorem Dev.powerFail_active {d : Dev} (h : d.canActive = true) :
    d.powerFail.core.state = .holdup ∧ d.powerFail.core.beamReady = false ∧ d.powerFail.aon = { d.aon with warning := true } ∧
      d.powerFail.sluice = Sluice.reset ∧ d.powerFail.cmp.dramStalled = true ∧ d.powerFail.saf.safeLamp = false := by
  unfold Dev.powerFail
  extract_lets aon d0 d1
  rw [if_pos h]
  have h1 : d1.core.state = .holdup := by
    unfold d1
    rw [(Dev.overrideBeam_only _).core rfl, Dev.goTo_state]
  have hends := (d1.dropCommands.closeJournal d1.openCount).stopAll_ends
  rw [(Dev.closeJournal_only _ _).core rfl, (Dev.dropCommands_only _).core rfl, h1] at hends
  obtain ⟨hcore, hsluice, hcmp, hsaf⟩ := (d1.dropCommands.closeJournal d1.openCount).stopAll.voidTickets_parts
  rw [hcore, hsluice, hcmp, hsaf]
  refine ⟨hends.1, hends.2.1, ?_, rfl, hends.2.2⟩
  rw [Dev.aon_of (Dev.voidTickets_only _) rfl, Dev.aon_of (Dev.stopAll_only _) rfl, Dev.aon_of (Dev.closeJournal_only _ _) rfl,
    Dev.aon_of (Dev.dropCommands_only _) rfl]
  unfold d1
  rw [Dev.aon_of (Dev.overrideBeam_only _) rfl, Dev.aon_of (Dev.goTo_only _ _ _) rfl]

/-- In BOOT, and where the block is not running, the warning is only noted. -/
theorem Dev.powerFail_inactive {d : Dev} (h : d.canActive = false) :
    d.powerFail = { d with aon := { d.aon with warning := true } } := by
  unfold Dev.powerFail
  extract_lets aon d0 d1
  rw [if_neg (by simp [h])]

/-- A source that is not enabled, or does not read low three times, warns of nothing. -/
theorem Dev.warns_eq_false {d : Dev} {low : Bool} {sense : List Nat}
    (hn : low = false ∨ (d.par kJnlPfwSource 0).testBit 0 = false)
    (hv : (d.par kJnlPfwSource 0).testBit 1 = false ∨ sense.length ≠ 3 ∨
      ∃ v ∈ sense, d.par kJnlPfwThresh 0 * 256000 ≤ v * d.par kJnlVbatDiv 0) : d.warns low sense = false := by
  unfold Dev.warns
  simp only [Bool.or_eq_false_iff, Bool.and_eq_false_iff, beq_eq_false_iff_ne, List.all_eq_false, decide_eq_true_eq, Nat.not_lt]
  exact ⟨hn.symm, or_assoc.2 hv⟩

theorem exec_powerFailWarning (low : Bool) (sense : List Nat) (s : State) :
    exec (.powerFailWarning low sense) s = s.on fun d => if d.warns low sense then d.powerFail else d := rfl

/-- Settles O11: the warning by the state it finds, its end, the closed journal, and the full boot that ends HOLDUP. -/
theorem powerFail : Obligations.PowerFail := by
  unfold Obligations.PowerFail
  refine ⟨fun s low sense hw ha => ?_, fun s low sense hw ha => ?_, fun s low sense hn hv => ?_, fun s => ?_,
    fun s us hc hp => ?_, fun s hs hc hw => ?_⟩
  · exact ⟨s.dev.powerFail, exec_of_on (exec_powerFailWarning low sense s) (if_pos hw), s.dev.powerFail_only,
    Dev.powerFail_active ha⟩
  · refine ⟨s.dev.powerFail, exec_of_on (exec_powerFailWarning low sense s) (if_pos hw), ?_⟩
    rw [Dev.powerFail_inactive ha]
    exact ⟨Dev.only_mk (Dev.only_refl _ _) (by simp), rfl⟩
  · exact ⟨_, exec_of_on (exec_powerFailWarning low sense s) (if_neg (by simp [Dev.warns_eq_false hn hv])), Dev.only_refl _ _,
    rfl⟩
  · exact ⟨{ s.dev with aon := { s.dev.aon with warning := false } }, rfl, Dev.only_mk (Dev.only_refl _ _) (by simp), rfl⟩
  · have hgo : s.dev.holdupDone us = { s.dev with
        jnl := { s.dev.jnl with closing := false, closed := true }, nor := { s.dev.nor with holdupMicros := min 0xFFFF us } } :=
      if_pos ⟨hc, by simp [hp]⟩
    refine ⟨s.dev.holdupDone us, rfl, (s.dev.holdupDone_only us).mono (by decide), ?_⟩
    rw [hgo]
    exact ⟨rfl, rfl⟩
  · have hgo : s.dev.holdupExit = s.dev.fullBoot 4 := if_pos ⟨hs, hc, by simp [hw]⟩
    refine ⟨s.dev.holdupExit, rfl, s.dev.holdupExit_only.mono (by decide), ?_⟩
    rw [hgo]
    exact s.dev.fullBoot_started 4

end Sys2Proof.Machine
end

section
/-! Power tickets (O16, O17). -/

namespace Sys2Proof.Machine

open Sys2Proof

/-! ### Shared operations of the Sluice -/

theorem Dev.sluice_of {a b : Dev} {l : List Part} (h : a.onlyChanges b l) (hl : l.contains .sluice = false) :
    b.sluice = a.sluice :=
  h.part .sluice hl

/-- No calibration run waits for a ticket. -/
theorem Dev.calTicket_of_idle {d : Dev} (h : d.cal.run = none) : d.calTicket = d := by
  unfold Dev.calTicket
  rw [h]

theorem Dev.calTicket_of_frame {a b : Dev} {l : List Part} (h : a.cal.run = none) (g : a.onlyChanges b l)
    (hl : l.contains .cal = false) : b.calTicket = b := by
  have hc : b.cal = a.cal := g.part .cal hl
  exact Dev.calTicket_of_idle (by rw [hc, h])

/-- A ticket given back. -/
def Dev.dropTicket (d : Dev) (h : Holder) : Dev :=
  { d with sluice := { d.sluice with held := d.sluice.held.filter fun t => t.1 != h } }

/-- With nothing queued a release grants nothing. -/
theorem Dev.release_unqueued {d : Dev} {h : Holder} (hh : d.ticketHeld h = true) (hq : d.sluice.queued = []) :
    d.release h = d.dropTicket h := by
  unfold Dev.release
  rw [if_pos hh, hq]
  rfl

theorem Dev.dropTicket_only (d : Dev) (h : Holder) : d.onlyChanges (d.dropTicket h) [.sluice] :=
  Dev.only_mk (Dev.only_refl d _) (by simp)

theorem Dev.dropTicket_held (d : Dev) (h : Holder) : (d.dropTicket h).ticketHeld h = false := by
  unfold Dev.ticketHeld Dev.dropTicket
  simp

theorem Dev.ticketHeld_of_sluice {a b : Dev} (h : b.sluice = a.sluice) (x : Holder) : b.ticketHeld x = a.ticketHeld x := by
  unfold Dev.ticketHeld
  rw [h]

theorem Dev.ticketQueued_of_sluice {a b : Dev} (h : b.sluice = a.sluice) (x : Holder) : b.ticketQueued x = a.ticketQueued x := by
  unfold Dev.ticketQueued
  rw [h]

/-! ### Requests (R435) -/

/-- A request joins the queue. -/
def Dev.enqueue (d : Dev) (q : SlReq) : Dev := { d with sluice := { d.sluice with queued := d.sluice.queued ++ [q] } }

theorem Dev.enqueue_only (d : Dev) (q : SlReq) : d.onlyChanges (d.enqueue q) [.sluice] :=
  Dev.only_mk (Dev.only_refl d _) (by simp)

/-- What a request that is not made already comes to: a denial, a grant, or a place in the queue. -/
theorem Dev.request_new {d : Dev} {h : Holder} (hh : d.ticketHeld h = false) (hq : d.ticketQueued h = false) :
    d.request h =
      if d.deniedAtOnce (d.slReq h) then d.deny h false
      else if d.slFits (d.slReq h) && !(d.sluice.queued.any fun r => opBit r.holder < opBit h) then d.grant (d.slReq h)
      else d.enqueue (d.slReq h) := by
  unfold Dev.request
  rw [hh, hq]
  rfl

/-- A request that stands: what waits for the ticket goes on waiting. -/
theorem Dev.ticketAsk_of_stands {d : Dev} {h : Holder} (hr : d.core.state ≠ .reset) (ht : d.core.state ≠ .thermalOff)
    (hc : d.cal.run = none) (hs : (d.request h).ticketStands h) : d.ticketAsk h = d.request h := by
  unfold Dev.ticketAsk
  rw [if_neg (not_or.2 ⟨hr, ht⟩)]
  dsimp only
  rw [if_pos (show ((d.request h).ticketHeld h || (d.request h).ticketQueued h) = true from hs)]
  exact Dev.calTicket_of_frame hc (d.request_only h) rfl

/-- A denied request is counted and posted, and asks for nothing. -/
theorem Dev.deny_sluice (d : Dev) (h : Holder) (q : Bool) : (d.deny h q).sluice = d.sluice := Dev.sluice_of (d.deny_only h q) rfl

theorem Dev.deny_sameBox (d : Dev) (h : Holder) (q : Bool) : d.sameBox (d.deny h q) :=
  Dev.sameBox_trans (Dev.count_sameBox ..) (Dev.post_sameBox ..)

theorem Dev.patErasers_of_box {a b : Dev} (h : a.sameBox b) : b.patErasers = a.patErasers := by
  unfold Dev.patErasers
  rw [Dev.waitingOf_of_box h]

/-- A denial that no command waits for changes nothing more. -/
theorem Dev.deniedLate_of_unwaited {d : Dev} {h : Holder} (hc : d.cal.run = none)
    (hj : h = .erase .journal → d.jnl.seals = []) (hp : h = .erase .pattern → d.patErasers = [])
    (hi : h = .erase .image → d.upd.erasing = false) : d.deniedLate h = d := by
  unfold Dev.deniedLate
  split
  · have hs := hj rfl
    unfold Dev.failSeals
    rw [hs, List.foldl_nil, ← hs]
  · rw [hp rfl, List.foldl_nil]
  · rw [hi rfl, if_neg Bool.false_ne_true]
  · exact Dev.calTicket_of_idle hc
  · rfl

theorem Dev.ticketAsk_denied {d : Dev} {h : Holder} (hr : d.core.state ≠ .reset) (ht : d.core.state ≠ .thermalOff)
    (hc : d.cal.run = none) (hh : d.ticketHeld h = false) (hq : d.ticketQueued h = false)
    (hd : d.deniedAtOnce (d.slReq h) = true) (hj : h = .erase .journal → d.jnl.seals = [])
    (hp : h = .erase .pattern → d.patErasers = []) (hi : h = .erase .image → d.upd.erasing = false) :
    d.ticketAsk h = d.deny h false := by
  have hreq : d.request h = d.deny h false := by rw [Dev.request_new hh hq, if_pos hd]
  have honly := d.deny_only h false
  have hcal : (d.deny h false).cal = d.cal := honly.part .cal rfl
  have hjnl : (d.deny h false).jnl = d.jnl := honly.part .jnl rfl
  have hupd : (d.deny h false).upd = d.upd := honly.part .upd rfl
  have hlate : (d.deny h false).deniedLate h = d.deny h false :=
    Dev.deniedLate_of_unwaited (by rw [hcal, hc]) (by rwa [hjnl]) (by rwa [Dev.patErasers_of_box (d.deny_sameBox h false)])
      (by rwa [hupd])
  unfold Dev.ticketAsk
  rw [if_neg (not_or.2 ⟨hr, ht⟩)]
  dsimp only
  rw [hreq, Dev.ticketHeld_of_sluice (d.deny_sluice h false), Dev.ticketQueued_of_sluice (d.deny_sluice h false), hh, hq,
    if_neg (by simp), hlate]
  exact Dev.calTicket_of_frame hc honly rfl

/-! ### Releases -/

/-- A holder whose ticket was for nothing else only gives it back. -/
theorem Dev.ticketDone_plain {d : Dev} {h : Holder} (hc : d.cal.run = none) (hh : d.ticketHeld h = true)
    (hq : d.sluice.queued = []) (h1 : h ≠ .erase .calSets) (h2 : h ≠ .erase .directory) (h3 : h ≠ .erase .pattern) :
    d.ticketDone h = d.dropTicket h := by
  unfold Dev.ticketDone
  rw [if_pos hh]
  split
  · exact absurd rfl h1
  · exact absurd rfl h2
  · exact absurd rfl h3
  · rw [Dev.release_unqueued hh hq]
    exact Dev.calTicket_of_frame hc (d.dropTicket_only h) rfl

/-! ### Time limits (R435, R436) -/

theorem Dev.finishWith_sluice (d : Dev) (p : Port) (tag st : Nat) : (d.finishWith p tag st).sluice = d.sluice :=
  Dev.sluice_of (d.finishWith_only p tag st) rfl

/-- A request that leaves the queue, denied, leaves the other tickets as they are. -/
theorem Dev.deniedLate_sluice {d : Dev} {h : Holder} (hh : d.ticketHeld h = false) (hq : d.ticketQueued h = false) :
    (d.deniedLate h).sluice = d.sluice := by
  unfold Dev.deniedLate
  split
  · exact Dev.sluice_of (d.failSeals_only _) rfl
  · exact foldl_keeps Dev.sluice (fun (e : Dev) (w : Port × Nat × Nat) => Dev.sluice_of (e.finishWith_only w.1 w.2.1 _) rfl) _ _
  · split
    · exact Dev.finishWith_sluice ..
    · rfl
  · unfold Dev.calTicket
    split
    · rfl
    · rw [hh, hq]
      split
      · rfl
      · rw [if_neg Bool.false_ne_true]
        dsimp only
        split
        · rfl
        · exact Dev.finishWith_sluice ..
  · rfl

/-- A request taken off the queue. -/
def Dev.unqueue (d : Dev) (h : Holder) : Dev :=
  { d with sluice := { d.sluice with queued := d.sluice.queued.filter fun r => r.holder != h } }

theorem Dev.unqueue_queued (d : Dev) (h : Holder) : (d.unqueue h).ticketQueued h = false := by
  unfold Dev.ticketQueued Dev.unqueue
  simp

theorem Dev.queueTimeout_sluice {d : Dev} {h : Holder} (hl : d.queuedLong h = true) (hh : d.ticketHeld h = false) :
    (d.queueTimeout h).sluice = (d.unqueue h).sluice := by
  have hgo : d.queueTimeout h = ((d.unqueue h).deny h true).deniedLate h := if_pos hl
  have hs := (d.unqueue h).deny_sluice h true
  rw [hgo, Dev.deniedLate_sluice, hs]
  · exact (Dev.ticketHeld_of_sluice hs h).trans hh
  · exact (Dev.ticketQueued_of_sluice hs h).trans (d.unqueue_queued h)

/-! ### The statements -/

theorem exec_ticketRequest (h : Holder) (s : State) : exec (.ticketRequest h) s = s.on fun d => d.ticketAsk h := rfl

theorem exec_ticketRelease (h : Holder) (s : State) : exec (.ticketRelease h) s = s.on fun d => d.ticketDone h := rfl

theorem exec_ticketQueueTimeout (h : Holder) (s : State) : exec (.ticketQueueTimeout h) s = s.on fun d => d.queueTimeout h := rfl

theorem exec_ticketOverrun (h : Holder) (s : State) : exec (.ticketOverrun h) s = s.on fun d => d.ticketOverrun h := rfl

/-- Settles O16: a request by what the Sluice makes of it, a release, and the two time limits. -/
theorem sluiceTickets : Obligations.SluiceTickets := by
  unfold Obligations.SluiceTickets
  refine ⟨fun s h hr ht hc hh hq hd hf hp => ?_, fun s h hr ht hc hh hq hd hf => ?_, fun s h hr ht hc hh hq hd hj hp hi => ?_,
    fun s h hc hh hq h1 h2 h3 => ?_, fun s h hl hh => ?_, fun s h hl => ?_, fun s h hl => ?_⟩
  · have hfirst : (s.dev.sluice.queued.any fun r => decide (opBit r.holder < opBit h)) = false := by simpa using hp
    have hgo : s.dev.ticketAsk h = s.dev.grant (s.dev.slReq h) := by
      rw [Dev.ticketAsk_of_stands hr ht hc (Dev.request_stands (.inr (.inr hd))), Dev.request_new hh hq, hd,
        if_neg Bool.false_ne_true, hf, hfirst]
      rfl
    exact ⟨_, exec_of_on (exec_ticketRequest h s) hgo, Dev.grant_only _ _, Dev.grant_sluice s.dev (s.dev.slReq h)⟩
  · have hwait : (s.dev.slFits (s.dev.slReq h) && !(s.dev.sluice.queued.any fun r => decide (opBit r.holder < opBit h))) =
        false := by
      rcases hf with hf | ⟨q, hq, hlt⟩
      · rw [hf, Bool.false_and]
      · rw [List.any_eq_true.2 ⟨q, hq, decide_eq_true hlt⟩, Bool.not_true, Bool.and_false]
    have hgo : s.dev.ticketAsk h = s.dev.enqueue (s.dev.slReq h) := by
      rw [Dev.ticketAsk_of_stands hr ht hc (Dev.request_stands (.inr (.inr hd))), Dev.request_new hh hq, hd,
        if_neg Bool.false_ne_true, hwait, if_neg Bool.false_ne_true]
    exact ⟨_, exec_of_on (exec_ticketRequest h s) hgo, s.dev.enqueue_only _, rfl⟩
  · exact ⟨_, exec_of_on (exec_ticketRequest h s) (Dev.ticketAsk_denied hr ht hc hh hq hd hj hp hi),
      Dev.post_quiet .., s.dev.deny_sluice h false⟩
  · exact ⟨_, exec_of_on (exec_ticketRelease _ s) (Dev.ticketDone_plain hc hh hq h1 h2 h3), s.dev.dropTicket_only h, rfl⟩
  · obtain ⟨q, hq, hqh, hlong⟩ := hl
    have hlate : s.dev.queuedLong h = true := List.any_eq_true.2 ⟨q, hq, by simp [hqh, hlong]⟩
    exact ⟨s.dev.queueTimeout h, rfl, s.dev.queueTimeout_only h, Dev.queueTimeout_sluice hlate hh⟩
  · have hearly : s.dev.queuedLong h = false := by
      unfold Dev.queuedLong
      simpa using hl
    have hstay : s.dev.queueTimeout h = s.dev := if_neg (by simp [hearly])
    exact ⟨_, exec_of_on (exec_ticketQueueTimeout h s) hstay, Dev.only_refl _ _, rfl⟩
  · obtain ⟨t, ht, hth, hlong⟩ := hl
    have hover : s.dev.heldLong h = true := List.any_eq_true.2 ⟨t, ht, by simp [hth, hlong]⟩
    refine ⟨_, exec_of_on (exec_ticketOverrun h s) (if_pos hover), Dev.post_quiet .., ?_⟩
    exact (Dev.sluice_of (Dev.post_only _ _ _) rfl).trans (Dev.sluice_of (Dev.count_only _ _ _ _) rfl)

/-! ### What an erase ticket was held for (R407, R429, R155) -/

/-- The calibration sets are written to the copy that is next. -/
def Dev.writeCalCopy (d : Dev) : Dev :=
  { d with
    cal := { d.cal with norWriteWanted := false }
    nor := { d.nor with
      calCopies := d.nor.calCopies.set d.nor.calNextCopy (some d.cal.sets), calNextCopy := 1 - d.nor.calNextCopy } }

theorem Dev.writeCalCopy_only (d : Dev) : d.onlyChanges d.writeCalCopy [.cal, .nor] := Dev.only_mk (Dev.only_refl d _) (by simp)

theorem Dev.ticketDone_calSets {d : Dev} (hc : d.cal.run = none) (hh : d.ticketHeld (.erase .calSets) = true)
    (hq : d.sluice.queued = []) (hw : d.cal.norWriteWanted = true) :
    d.ticketDone (.erase .calSets) = d.writeCalCopy.dropTicket (.erase .calSets) := by
  have hset : d.calSetsWritten = d.writeCalCopy.release (.erase .calSets) := if_pos (by rw [hw, hh]; rfl)
  unfold Dev.ticketDone
  rw [if_pos hh]
  dsimp only
  rw [hset, Dev.release_unqueued (d := d.writeCalCopy) hh hq]
  exact Dev.calTicket_of_idle (d := d.writeCalCopy.dropTicket _) hc

/-- The sector other than the one in use is empty. -/
def Dev.emptySector (d : Dev) : Dev :=
  { d with
    nor := if d.nor.dirSector = 0 then { d.nor with dir1 := [] } else { d.nor with dir0 := [] }
    upd := { d.upd with dirWaiting := [] } }

theorem Dev.emptySector_only (d : Dev) : d.onlyChanges d.emptySector [.nor, .upd] := Dev.only_mk (Dev.only_refl d _) (by simp)

theorem Dev.ticketDone_directory {d : Dev} (hc : d.cal.run = none) (hh : d.ticketHeld (.erase .directory) = true)
    (hq : d.sluice.queued = []) (hw : d.upd.dirWaiting = []) :
    d.ticketDone (.erase .directory) = d.emptySector.dropTicket (.erase .directory) := by
  have hset : d.dirErased = d.emptySector.release (.erase .directory) := by
    unfold Dev.dirErased
    rw [if_pos hh]
    dsimp only
    rw [hw]
    rfl
  unfold Dev.ticketDone
  rw [if_pos hh]
  dsimp only
  rw [hset, Dev.release_unqueued (d := d.emptySector) hh hq]
  exact Dev.calTicket_of_idle (d := d.emptySector.dropTicket _) hc

/-- The region of a pattern image reads as erased, and its flag is taken. -/
def Dev.erasePattern (d : Dev) (v : Nat) : Dev :=
  (d.modCells fun l => norErase l (patOffset (patSide v) (patIndex v)) 0x30000).setPatValid (patSide v) (patIndex v) false

theorem Dev.erasePattern_only (d : Dev) (v : Nat) : d.onlyChanges (d.erasePattern v) [.nor] :=
  (Dev.modCells_only d _).trans (Dev.setPatValid_only _ _ _ _)

theorem Dev.ticketDone_pattern {d : Dev} {p : Port} {tag v : Nat} (hc : d.cal.run = none)
    (hh : d.ticketHeld (.erase .pattern) = true) (hq : d.sluice.queued = []) (hw : d.patErasers = [(p, tag, v)]) :
    d.ticketDone (.erase .pattern) = ((d.erasePattern v).dropTicket (.erase .pattern)).finishWith p tag stOk := by
  have hset : d.patErased = ((d.erasePattern v).release (.erase .pattern)).finishWith p tag stOk := by
    unfold Dev.patErased
    rw [if_pos hh, hw]
    rfl
  unfold Dev.ticketDone
  rw [if_pos hh]
  dsimp only
  rw [hset, Dev.release_unqueued (d := d.erasePattern v) hh hq]
  exact Dev.calTicket_of_frame (a := (d.erasePattern v).dropTicket (.erase .pattern)) hc (Dev.finishWith_only _ _ _ _) rfl

/-- Settles O17: each erase ticket by what its release brings. -/
theorem eraseTicketEnds : Obligations.EraseTicketEnds := by
  unfold Obligations.EraseTicketEnds
  refine ⟨fun s hc hh hq hw => ?_, fun s hc hh hq hw => ?_, fun s p tag v hc hh hq hw hopen => ?_⟩
  · exact ⟨_, exec_of_on (exec_ticketRelease _ s) (Dev.ticketDone_calSets hc hh hq hw),
      Dev.only_then (Dev.dropTicket_only _ _) (by decide) (s.dev.writeCalCopy_only.mono (by decide)),
      Dev.dropTicket_held _ _, rfl, rfl⟩
  · exact ⟨_, exec_of_on (exec_ticketRelease _ s) (Dev.ticketDone_directory hc hh hq hw),
      Dev.only_then (Dev.dropTicket_only _ _) (by decide) (s.dev.emptySector_only.mono (by decide)),
      Dev.dropTicket_held _ _, rfl⟩
  · generalize he : (s.dev.erasePattern v).dropTicket (.erase .pattern) = e
    have hframe : s.dev.onlyChanges e [.sluice, .nor] :=
      he ▸ Dev.only_then (Dev.dropTicket_only _ _) (by decide) ((s.dev.erasePattern_only v).mono (by decide))
    have hheld : e.ticketHeld (.erase .pattern) = false := he ▸ Dev.dropTicket_held _ _
    have hnor : e.nor = (s.dev.erasePattern v).nor := he ▸ rfl
    have hq' := e.finishWith_quiet p tag stOk
    refine ⟨_, exec_of_on (exec_ticketRelease _ s) ((Dev.ticketDone_pattern hc hh hq hw).trans (by rw [he])),
      Dev.only_then (Dev.finishWith_only _ _ _ _) (by decide) (hframe.mono (by decide)),
      (Dev.ticketHeld_of_sluice hq'.sluice _).trans hheld,
      Dev.finishWith_answered stOk ((Dev.tagOpen_of_box (Dev.sameBox_of_frame hframe rfl) p tag).trans hopen),
      ?_, fun a h1 h2 => ?_⟩
    · rw [hq'.nor, hnor]
      exact Dev.setPatValid_flag _ _ _ (patIndex_lt v)
    · rw [hq'.nor, hnor]
      exact norByte_norErase_in _ h1 h2

end Sys2Proof.Machine
end

section
/-! Clearances, and safe state reached (O31, O39). -/

namespace Sys2Proof.Machine

open Sys2Proof

/-! ### A clearance (R363) -/

/-- A clearance only takes faults away. -/
theorem Dev.clearFault_keepsClear {d : Dev} {c i : Nat} (code inst : Nat) (h : d.faultActive c i = false) :
    (d.clearFault code inst).faultActive c i = false := by
  unfold Dev.clearFault
  split
  · unfold Dev.faultActive at h ⊢
    rw [(Dev.post_quiet ..).saf]
    simp only [List.any_eq_false] at h ⊢
    exact fun f hf => h f (List.mem_of_mem_filter hf)
  · exact h

theorem Dev.modMportEv_saf (d : Dev) (s : Nat) (f : MPort → MPort) : (d.modMportEv s f).saf = d.saf :=
  (d.modMportEv_only s f).part .saf rfl

theorem Dev.modMportEv_sameBox (d : Dev) (s : Nat) (f : MPort → MPort) : d.sameBox (d.modMportEv s f) := by
  unfold Dev.modMportEv
  extract_lets old d1 new
  have h1 : d.sameBox d1 := Dev.sameBox_of_frame (d.modMport_only s _) rfl
  split
  · exact h1
  · exact Dev.sameBox_trans h1 (Dev.post_sameBox ..)

theorem Dev.powerUpNow_keepsClear {d : Dev} {c i : Nat} (s : Nat) (h : d.faultActive c i = false) :
    (d.powerUpNow s).faultActive c i = false :=
  Dev.clearFault_keepsClear _ _ ((Dev.faultActive_of_saf (Dev.modMportEv_saf ..) c i).trans h)

theorem Dev.powerUp_keepsClear {d : Dev} {c i : Nat} (s : Nat) (h : d.faultActive c i = false) :
    (d.powerUp s).faultActive c i = false := by
  unfold Dev.powerUp
  dsimp only
  split
  · split
    · exact h
    · exact Dev.powerUpNow_keepsClear s h
  · exact h

theorem Dev.powerUp_sameBox (d : Dev) (s : Nat) : d.sameBox (d.powerUp s) := by
  unfold Dev.powerUp
  dsimp only
  split
  · split
    · exact Dev.sameBox_of_frame (d.modMport_only s _) rfl
    · exact Dev.sameBox_trans (Dev.modMportEv_sameBox ..) (Dev.clearFault_sameBox ..)
  · exact Dev.sameBox_of_frame (d.modMport_only s _) rfl

/-- A port in FAULT or PARKED is powered down; its power-up waits. -/
theorem Dev.repowerLater_keeps (d : Dev) (s : Nat) (f : MPort → MPort) :
    ((d.powerDownNow s).modMport s f).saf = d.saf ∧ d.sameBox ((d.powerDownNow s).modMport s f) :=
  ⟨((Dev.modMport_only ..).part .saf rfl :).trans ((d.powerDownNow_only s).part .saf rfl),
    Dev.sameBox_trans (d.modMportEv_sameBox s _) (Dev.sameBox_of_frame (Dev.modMport_only ..) rfl)⟩

theorem Dev.repower_keepsClear {d : Dev} {c i : Nat} (s : Nat) (h : d.faultActive c i = false) :
    (d.repower s).faultActive c i = false := by
  unfold Dev.repower
  split
  · exact (Dev.faultActive_of_saf (d.repowerLater_keeps s _).1 c i).trans h
  · exact (Dev.faultActive_of_saf (d.repowerLater_keeps s _).1 c i).trans h
  · exact Dev.powerUp_keepsClear s h
  · exact h

theorem Dev.repower_sameBox (d : Dev) (s : Nat) : d.sameBox (d.repower s) := by
  unfold Dev.repower
  split
  · exact (d.repowerLater_keeps s _).2
  · exact (d.repowerLater_keeps s _).2
  · exact d.powerUp_sameBox s
  · exact d.sameBox_refl

/-- A recovered fault is no longer active, whatever its slot or port does then. -/
theorem Dev.recover_clears (d : Dev) (code inst : Nat) : (d.recover code inst).faultActive code inst = false := by
  have h := d.clearFault_self code inst
  unfold Dev.recover
  dsimp only
  split
  · exact (Dev.faultActive_of_saf ((Dev.recoverIfFree_only _ inst).part .saf rfl) ..).trans h
  · split
    · exact Dev.repower_keepsClear inst h
    · exact h

theorem Dev.recover_sameBox (d : Dev) (code inst : Nat) : d.sameBox (d.recover code inst) := by
  have h := d.clearFault_sameBox code inst
  unfold Dev.recover
  dsimp only
  split
  · exact Dev.sameBox_trans h (Dev.sameBox_of_frame (Dev.recoverIfFree_only _ inst) rfl)
  · split
    · exact Dev.sameBox_trans h (Dev.repower_sameBox _ inst)
    · exact h

/-- FAULT_CLEAR of one fault outside SAFE and STANDBY: nothing follows the clearance. -/
theorem Dev.faultClear_one {d : Dev} {v : Nat} {f : ActiveFault} (p : Port) (tag : Nat) (hf : d.clears v = [f])
    (hs : d.core.state = .beam ∨ d.core.state = .degraded) :
    d.faultClear p tag v = (d.recover f.code f.inst).finishWith p tag stOk := by
  have hcore : ((d.recover f.code f.inst).finishWith p tag stOk).core = d.core :=
    ((Dev.finishWith_only ..).core rfl).trans ((d.recover_only ..).core rfl)
  unfold Dev.faultClear
  rw [hf]
  refine Dev.afterClear_of_lit ?_ ?_ <;> rw [List.foldl_cons, List.foldl_nil, hcore] <;> rcases hs with h | h <;> rw [h] <;>
    decide

theorem Dev.faultClear_none {d : Dev} {v : Nat} (p : Port) (tag : Nat) (hf : d.clears v = []) :
    d.faultClear p tag v = d.finishWith p tag stOverridden := by
  unfold Dev.faultClear
  rw [hf]

/-! ### REACTION_SET (R369) -/

theorem reaction_of_code (r : Reaction) :
    (([.rec_, .ch, .side, .dev] : List Reaction).find? fun x => x.code == r.code).getD .rec_ = r := by
  cases r <;> rfl

theorem Dev.setReaction_eq {d : Dev} {v : Nat} {r : Reaction} (h : r.code = bitsOf v 16 2) :
    d.setReaction v = { d with
      saf := { d.saf with reactions := kvSet d.saf.reactions (v % 0x10000) r }
      nor := { d.nor with mirrorReactions := kvSet d.saf.reactions (v % 0x10000) r } } := by
  unfold Dev.setReaction
  rw [← h, reaction_of_code]

/-- Settles O31: FAULT_CLEAR by what it clears, the reaction set, and the held bank emptied. -/
theorem faultCommands : Obligations.FaultCommands := by
  unfold Obligations.FaultCommands
  refine ⟨fun s p c i v f h hf hs => ?_, fun s p c i v h hf => ?_, fun s p c i v r h hr => ?_, fun s p c i v h => ?_⟩
  · have hopen := (Dev.tagOpen_of_box (s.dev.recover_sameBox f.code f.inst) p c.tag).trans (Dev.servingAct_open h)
    refine ⟨_, exec_of_servedAct rfl h (Dev.faultClear_one p c.tag hf hs),
      Dev.only_then (Dev.finishWith_only ..) (by decide) ((s.dev.recover_only ..).mono (by decide)),
      Dev.finishWith_answered stOk hopen, ?_⟩
    exact (Dev.faultActive_of_saf (Dev.finishWith_quiet ..).saf ..).trans (s.dev.recover_clears f.code f.inst)
  · exact becomes_overridden (Dev.servingAct_open h) (exec_of_servedAct rfl h (Dev.faultClear_none p c.tag hf))
  · have hgo := congrArg (fun e => Dev.finishWith e p c.tag stOk) (Dev.setReaction_eq (d := s.dev) hr)
    refine ⟨_, exec_of_servedAct rfl h hgo, Dev.finishWith_quiet .., Dev.finishWith_answered stOk (Dev.servingAct_open h :), ?_⟩
    rw [(Dev.finishWith_quiet ..).saf]
    exact kvGet_kvSet_self ..
  · exact .of_finishWith (exec_of_servedAct rfl h rfl) (Dev.servingAct_open h :)

/-! ### The completion of safe state (R364) -/

theorem Dev.cal_of {a b : Dev} {l : List Part} (h : a.onlyChanges b l) (hl : l.contains .cal = false) : b.cal = a.cal :=
  h.part .cal hl

theorem Dev.seq_of {a b : Dev} {l : List Part} (h : a.onlyChanges b l) (hl : l.contains .seq = false) : b.seq = a.seq :=
  h.part .seq hl

theorem Dev.req_of {a b : Dev} {l : List Part} (h : a.onlyChanges b l) (hl : l.contains .req = false) : b.req = a.req :=
  h.part .req hl

theorem Dev.dropLost_of_idle {d : Dev} (h : d.cal.run = none) : d.dropLost = d := by
  unfold Dev.dropLost
  rw [h]

theorem Dev.calAdvance_of_idle {d : Dev} (h : d.cal.run = none) : d.calAdvance = d := by
  unfold Dev.calAdvance Dev.calRuns
  rw [h]
  rfl

/-- Outside SAFE, in the recovery service, and while a SIDE or DEV fault is active, SAFE is not left. -/
theorem Dev.leaveSafe_of_stays {d : Dev} (h : d.core.state ≠ .safe ∨ d.sideOrDevActive = true) : d.leaveSafe = d := by
  refine if_neg fun ⟨hs, _, hf⟩ => ?_
  rcases h with h | h
  · exact h hs
  · simp [h] at hf

theorem Dev.goTo_core (d : Dev) (new : DevState) (cause : Nat) :
    (d.goTo new cause).core = { d.core with
      state := new, stateTime := d.now,
      lastCause := if new = DevState.degraded ∨ new = DevState.safe then cause else d.core.lastCause } := by
  unfold Dev.goTo
  rw [(Dev.closeSession_only _).core rfl, Dev.setState_core]

/-- The mode change under way, when no mode bridge is: its command ends, and nothing is pending. -/
theorem Dev.endChange_unbridged {d : Dev} (h : ∀ m p g x y, d.seq.change ≠ .bridging m p g x y) :
    d.endChange.core = d.core ∧ d.endChange.saf = d.saf ∧ d.endChange.req = d.req ∧ d.endChange.cal = d.cal ∧
      d.endChange.seq.change = .none_ := by
  unfold Dev.endChange
  dsimp only
  split
  · next hc => exact ⟨rfl, rfl, rfl, rfl, hc⟩
  · next m p tag x hc =>
    have hq := ({ d with seq := { d.seq with change := .none_ } } : Dev).finishWith_quiet p tag stOverridden
    exact ⟨hq.core, hq.saf, hq.req, hq.cal, congrArg Seq.change hq.seq⟩
  · next m p g x y hc => exact absurd hc (h m p g x y)

/-- The block with nothing under way towards BEAM or from it. -/
def Dev.beamless (d : Dev) : Dev :=
  { d with core := { d.core with rampingDown := false, testEnded := false, releaseStage := releaseNone, beamReady := false } }

/-- The request has no effect any more. -/
def Dev.effectless (d : Dev) : Dev := { d with req := { d.req with effective := 0 } }

theorem Dev.effectless_only (d : Dev) : d.onlyChanges d.effectless [.req] := Dev.only_mk (Dev.only_refl d _) (by simp)

theorem Dev.effectless_waitingOf (d : Dev) (op : Nat) : d.effectless.waitingOf op = d.waitingOf op := rfl

/-- Entry to SAFE as far as DEV_STATE, the matrix targets, the passes and the effective request go. -/
def Dev.safeEntered (d : Dev) (cause : Nat) : Dev := (d.beamless.goTo .safe cause).mxBlank.stopPasses.effectless

theorem Dev.enterSafeState_eq (d : Dev) (cause : Nat) :
    d.enterSafeState cause = (d.safeEntered cause).overrideBeam.endChange := by
  unfold Dev.safeEntered Dev.overrideBeam
  rw [Dev.effectless_waitingOf]
  unfold Dev.enterSafeState Dev.effectless Dev.beamless
  rfl

theorem Dev.safeEntered_only (d : Dev) (cause : Nat) :
    d.beamless.onlyChanges (d.safeEntered cause) [.core, .prm, .sluice, .host, .req, .links, .lamp, .upd, .aux, .cmp] :=
  Dev.only_then (Dev.effectless_only _) (by decide) (Dev.only_then (Dev.stopPasses_only _) (by decide)
    (Dev.only_then (Dev.mxBlank_only _) (by decide) ((Dev.goTo_only _ _ _).mono (by decide))))

theorem Dev.safeEntered_core (d : Dev) (cause : Nat) :
    (d.safeEntered cause).core.state = .safe ∧ (d.safeEntered cause).core.beamReady = false ∧
      (d.safeEntered cause).core.rampingDown = false := by
  unfold Dev.safeEntered
  rw [(Dev.effectless_only _).core rfl, (Dev.stopPasses_only _).core rfl, (Dev.mxBlank_only _).core rfl, Dev.goTo_core]
  exact ⟨rfl, rfl, rfl⟩

theorem Dev.beamless_rest (d : Dev) : d.beamless.saf = d.saf ∧ d.beamless.cal = d.cal ∧ d.beamless.seq = d.seq := ⟨rfl, rfl, rfl⟩

theorem Dev.effectless_effective (d : Dev) : d.effectless.req.effective = 0 := rfl

theorem Dev.safeEntered_rest (d : Dev) (cause : Nat) :
    (d.safeEntered cause).saf = d.saf ∧ (d.safeEntered cause).cal = d.cal ∧ (d.safeEntered cause).seq = d.seq ∧
      (d.safeEntered cause).req.effective = 0 := by
  obtain ⟨hsaf, hcal, hseq⟩ := d.beamless_rest
  have hframe := d.safeEntered_only cause
  exact ⟨(Dev.saf_of hframe rfl).trans hsaf, (Dev.cal_of hframe rfl).trans hcal, (Dev.seq_of hframe rfl).trans hseq,
    Dev.effectless_effective _⟩

/-- What entry to SAFE stops and ends. -/
theorem Dev.enterSafeState_ends {d : Dev} (cause : Nat) (h : ∀ m p g x y, d.seq.change ≠ .bridging m p g x y) :
    (d.enterSafeState cause).core.state = .safe ∧ (d.enterSafeState cause).core.beamReady = false ∧
      (d.enterSafeState cause).core.rampingDown = false ∧ (d.enterSafeState cause).saf = d.saf ∧
      (d.enterSafeState cause).req.effective = 0 ∧ (d.enterSafeState cause).cal = d.cal ∧
      (d.enterSafeState cause).seq.change = .none_ := by
  obtain ⟨hstate, hready, hramp⟩ := d.safeEntered_core cause
  obtain ⟨hsaf, hcal, hseq, hreq⟩ := d.safeEntered_rest cause
  have hframe := (d.safeEntered cause).overrideBeam_only
  have hchange : ∀ m p g x y, (d.safeEntered cause).overrideBeam.seq.change ≠ .bridging m p g x y := by
    rw [Dev.seq_of hframe rfl, hseq]
    exact h
  obtain ⟨ecore, esaf, ereq, ecal, echange⟩ := Dev.endChange_unbridged hchange
  rw [Dev.enterSafeState_eq, ecore, esaf, ereq, ecal, hframe.core rfl, Dev.saf_of hframe rfl, Dev.req_of hframe rfl,
    Dev.cal_of hframe rfl]
  exact ⟨hstate, hready, hramp, hsaf, hreq, hcal, echange⟩

/-- No safe state is pending any more. -/
def Dev.noPending (d : Dev) : Dev := { d with saf := { d.saf with safePending := none } }

/-- BEAM is not ready either. -/
def Dev.unready (d : Dev) : Dev := { d.noPending with core := { d.core with beamReady := false } }

/-- Every side that entered safe state is parked. -/
def Dev.sidesParked (d : Dev) : Prop := ∀ k ∈ d.sides, d.saf.safeSides.get k = true → (d.mport k).parkDone d.now = true

theorem Dev.safeComplete_parked {d : Dev} {t : DevState} {cause : Nat} {a b} (hp : d.saf.safePending = some (t, cause, a, b))
    (hs : d.sidesParked) :
    d.safeComplete =
      (if t = .safe then (d.noPending.enterSafeState cause).startWanted
        else d.unready.goTo .degraded cause).dropLost.calAdvance.leaveSafe := by
  have hall : (d.sides.all fun k => !d.saf.safeSides.get k || (d.mport k).parkDone d.now) = true := by
    rw [List.all_eq_true]
    intro k hk
    by_cases hg : d.saf.safeSides.get k = true
    · rw [hs k hk hg, Bool.or_true]
    · simp [hg]
  unfold Dev.safeComplete
  rw [hp]
  dsimp only
  rw [if_neg (by rw [hall]; decide)]
  rfl

theorem Dev.safeComplete_degraded {d : Dev} {t : DevState} {cause : Nat} {a b} (hp : d.saf.safePending = some (t, cause, a, b))
    (ht : t ≠ .safe) (hc : d.cal.run = none) (hs : d.sidesParked) :
    d.safeComplete = d.unready.goTo .degraded cause := by
  rw [Dev.safeComplete_parked hp hs, if_neg ht]
  generalize he : d.unready.goTo .degraded cause = e
  have hcal : e.cal.run = none := by rw [← he, Dev.cal_of (Dev.goTo_only _ _ _) rfl]; exact hc
  rw [Dev.dropLost_of_idle hcal, Dev.calAdvance_of_idle hcal, Dev.leaveSafe_of_stays (.inl _)]
  rw [← he, Dev.goTo_state]
  decide

theorem Dev.safeComplete_safe {d : Dev} {cause : Nat} {a b} (hp : d.saf.safePending = some (.safe, cause, a, b))
    (hf : d.sideOrDevActive = true) (hc : d.cal.run = none) (hb : ∀ m p g x y, d.seq.change ≠ .bridging m p g x y)
    (hs : d.sidesParked) : d.safeComplete = (d.noPending.enterSafeState cause).startWanted := by
  obtain ⟨-, -, -, hsaf, -, hcal, -⟩ := Dev.enterSafeState_ends (d := d.noPending) cause hb
  rw [Dev.safeComplete_parked hp hs, if_pos rfl]
  generalize he : (d.noPending.enterSafeState cause).startWanted = e
  have hidle : e.cal.run = none := by
    rw [← he, Dev.cal_of (Dev.startWanted_only _) rfl, hcal]
    exact hc
  rw [Dev.dropLost_of_idle hidle, Dev.calAdvance_of_idle hidle, Dev.leaveSafe_of_stays (.inr _)]
  unfold Dev.sideOrDevActive
  rw [← he, Dev.saf_of (Dev.startWanted_only _) rfl, hsaf]
  exact hf

/-- Settles O39: DEGRADED and SAFE once the sides are parked, and no change before. -/
theorem safeStateCompletes : Obligations.SafeStateCompletes := by
  unfold Obligations.SafeStateCompletes
  refine ⟨fun s t cause a b hp ht hc hs => ?_, fun s cause a b hp hf hc hb hs => ?_, fun s h => ?_⟩
  · refine ⟨s.dev.safeComplete, rfl, s.dev.safeComplete_only, ?_⟩
    rw [Dev.safeComplete_degraded hp ht hc hs]
    dsimp only
    rw [Dev.goTo_core, Dev.saf_of (Dev.goTo_only _ _ _) rfl]
    exact ⟨rfl, rfl, rfl⟩
  · refine ⟨s.dev.safeComplete, rfl, s.dev.safeComplete_only, ?_⟩
    obtain ⟨hstate, hready, hramp, hsaf, hreq, -, hchange⟩ := Dev.enterSafeState_ends (d := s.dev.noPending) cause hb
    have hgo := Dev.startWanted_only (s.dev.noPending.enterSafeState cause)
    rw [Dev.safeComplete_safe hp hf hc hb hs, hgo.core rfl, Dev.saf_of hgo rfl, Dev.req_of hgo rfl, Dev.seq_of hgo rfl, hsaf]
    exact ⟨hstate, rfl, hready, hramp, hreq, hchange⟩
  · refine exec_of_on (f := Dev.safeComplete) (e := s.dev) rfl ?_
    unfold Dev.safeComplete
    split
    · rfl
    · next t cause a b hp =>
      rcases h with h | ⟨k, hk, hg, hn⟩
      · rw [h] at hp
        cases hp
      · refine if_pos ?_
        rw [Bool.not_eq_true', List.all_eq_false]
        exact ⟨k, hk, by simp [hg, hn]⟩

end Sys2Proof.Machine
end

section
/-! The auxiliary outputs as events (O59). -/

namespace Sys2Proof.Machine

open Sys2Proof

/-! ### Segment chains (R334 to R337, R347) -/

theorem Dev.chain_modChain (d : Dev) (s : Nat) (f : Chain → Chain) : (d.modChain s f).chain s = f (d.chain s) :=
  Pair.get_mod_self ..

theorem Dev.chain_of {a b : Dev} (h : b.aux = a.aux) (s : Nat) : b.chain s = a.chain s := by
  unfold Dev.chain
  rw [h]

theorem Dev.aux_of {a b : Dev} {l : List Part} (h : a.onlyChanges b l) (hl : l.contains .aux = false) : b.aux = a.aux :=
  h.part .aux hl

/-- A staged value that comes into force leaves every other parameter. -/
theorem Dev.par_applyVal_ne (d : Dev) {id key i : Nat} (h : pid key i ≠ id) : (d.applyVal id).par key i = d.par key i := by
  unfold Dev.applyVal
  split
  · exact congrArg Int.toNat (Dev.valOf_putVal_ne _ _ h)
  · rfl

theorem Dev.par_modChain (d : Dev) (s : Nat) (f : Chain → Chain) (key i : Nat) : (d.modChain s f).par key i = d.par key i :=
  (d.modChain_only s f).par rfl key i

/-- A parameter that no event counts. -/
def notEvtLost (id : Nat) : Prop := ∀ p : Port, id ≠ pid kHostEvtLost p.ix

theorem Dev.fadeDone_par {d : Dev} {key i : Nat} (s : Nat) (h : notEvtLost (pid key i)) :
    (d.fadeDone s).par key i = d.par key i := by
  unfold Dev.fadeDone
  dsimp only
  split
  · exact ((Dev.post_quiet ..).par h).trans (d.par_modChain s _ key i)
  · rfl

theorem Dev.stepFade_par {d : Dev} {key i : Nat} (s : Nat) (h : notEvtLost (pid key i)) :
    (d.stepFade s).par key i = d.par key i := by
  unfold Dev.stepFade
  dsimp only
  split
  · rfl
  · exact (Dev.fadeDone_par s h).trans (d.par_modChain s _ key i)

theorem Dev.takeCommit_par {d : Dev} {key i : Nat} (s : Nat) (h : notEvtLost (pid key i)) :
    (d.takeCommit s).par key i = d.par key i := by
  unfold Dev.takeCommit
  split
  · rfl
  · exact (Dev.fadeDone_par s h).trans (d.par_modChain s _ key i)

/-- The settings that a frame start puts in force. -/
def Dev.segSettings (d : Dev) (s : Nat) : Dev := (d.applyVal (pid kAuxSegCount s)).applyVal (pid kAuxSegPeriod s)

theorem Dev.segSettings_only (d : Dev) (s : Nat) : d.onlyChanges (d.segSettings s) [.prm] :=
  (d.applyVal_only _).trans (Dev.applyVal_only _ _)

/-- The levels that a frame sends: held in SAFE, else one step of the fade on, or the targets of a commit. -/
def Dev.segLevels (d : Dev) (s : Nat) : Dev :=
  if d.core.state == .safe then d.segSettings s else ((d.segSettings s).stepFade s).takeCommit s

theorem Dev.segLevels_only (d : Dev) (s : Nat) : d.onlyChanges (d.segLevels s) [.prm, .host, .links, .aux] := by
  have h := (d.segSettings_only s).mono (m := [.prm, .host, .links, .aux]) (by decide)
  unfold Dev.segLevels
  split
  · exact h
  · exact (h.trans (Dev.stepFade_only _ s)).trans (Dev.takeCommit_only _ s)

theorem Dev.segLevels_inv {d : Dev} (s : Nat) (hI : d.Inv) : (d.segLevels s).Inv := by
  have h : (d.segSettings s).Inv := Dev.applyVal_inv _ _ (d.applyVal_inv _ hI)
  unfold Dev.segLevels
  split
  · exact h
  · exact Dev.takeCommit_inv _ _ (Dev.stepFade_inv _ _ h)

theorem Dev.segLevels_frames (d : Dev) (sd : Side) :
    (d.segLevels sd.ix).par kAuxSegFrames sd.ix = d.par kAuxSegFrames sd.ix := by
  have hset : (d.segSettings sd.ix).par kAuxSegFrames sd.ix = d.par kAuxSegFrames sd.ix :=
    (Dev.par_applyVal_ne _ (by cases sd <;> decide)).trans (Dev.par_applyVal_ne d (by cases sd <;> decide))
  have hlost : notEvtLost (pid kAuxSegFrames sd.ix) := fun p => by cases p <;> cases sd <;> decide
  unfold Dev.segLevels
  split
  · exact hset
  · exact (Dev.takeCommit_par _ hlost).trans ((Dev.stepFade_par _ hlost).trans hset)

theorem Dev.segLevels_held {d : Dev} (s : Nat) (h : d.core.state = .safe) : (d.segLevels s).chain s = d.chain s := by
  have hgo : d.segLevels s = d.segSettings s := if_pos (beq_iff_eq.2 h)
  rw [hgo]
  exact Dev.chain_of (Dev.aux_of (d.segSettings_only s) rfl) s

/-- The code of a level in a frame: 0 in SAFE where SEG_SAFE_ACTION says so. -/
def Dev.sentCode (d : Dev) (safe : Bool) (s l : Nat) : Nat := if safe && d.par kAuxSegSafeAction s == 1 then 0 else d.segCode s l

/-- The frame with the codes of the levels in force. -/
def Dev.sendCodes (d : Dev) (s : Nat) (codes : List Nat) : Dev :=
  d.modChain s fun c => { c with
    running := true, out := codes ++ List.replicate (768 - codes.length) 0, frameBits := codes.flatMap codeBits }

/-- A frame start while the chains run or hold. -/
theorem Dev.segFrame_running {d : Dev} {s : Nat} (hs : d.sides.contains s = true)
    (hr : d.auxRuns = true ∨ (d.core.state = .safe ∧ d.core.acornService = false)) :
    d.segFrame s =
      if (d.segSettings s).par kAuxSegCount s = 0 then
        (d.segSettings s).modChain s fun c => { c with running := false, frameBits := [] }
      else ((d.segLevels s).sendCodes s ((((d.segLevels s).chain s).level.take (12 * (d.segSettings s).par kAuxSegCount s)).map
        ((d.segLevels s).sentCode (d.core.state == .safe) s))).count kAuxSegFrames s 1 := by
  unfold Dev.segFrame
  rw [if_neg (by rcases hr with h | ⟨h1, h2⟩ <;> simp_all)]
  rfl

theorem Dev.segFrame_idle {d : Dev} {s : Nat} (h : d.sides.contains s = false ∨
    (d.auxRuns = false ∧ (d.core.state ≠ .safe ∨ d.core.acornService = true))) : d.segFrame s = d := by
  refine if_pos ?_
  rcases h with h | ⟨h, h' | h'⟩
  · exact .inl (by rw [h]; rfl)
  · exact .inr (by simp [h, h'])
  · exact .inr (by simp [h, h'])

/-- What counting frames leaves of the chain and of the codes. -/
theorem Dev.sendCodes_count {d : Dev} (sd : Side) (codes : List Nat) (hI : d.Inv) :
    ((d.sendCodes sd.ix codes).count kAuxSegFrames sd.ix 1).chain sd.ix = { d.chain sd.ix with
      running := true, out := codes ++ List.replicate (768 - codes.length) 0, frameBits := codes.flatMap codeBits } ∧
    ((d.sendCodes sd.ix codes).count kAuxSegFrames sd.ix 1).par kAuxSegFrames sd.ix =
      satAdd 0xFFFFFFFF (d.par kAuxSegFrames sd.ix) 1 ∧
    (∀ safe l, ((d.sendCodes sd.ix codes).count kAuxSegFrames sd.ix 1).sentCode safe sd.ix l = d.sentCode safe sd.ix l) := by
  have hsend := d.modChain_only sd.ix fun c => { c with
    running := true, out := codes ++ List.replicate (768 - codes.length) 0, frameBits := codes.flatMap codeBits }
  have hcount := (d.sendCodes sd.ix codes).count_only kAuxSegFrames sd.ix 1
  have hpar (key : Nat) (h : pid key sd.ix ≠ pid kAuxSegFrames sd.ix) :
      ((d.sendCodes sd.ix codes).count kAuxSegFrames sd.ix 1).par key sd.ix = d.par key sd.ix :=
    (Dev.par_count_ne _ 1 h).trans (d.par_modChain sd.ix _ key sd.ix)
  refine ⟨(Dev.chain_of (Dev.aux_of hcount rfl) _).trans (d.chain_modChain sd.ix _), ?_, fun safe l => ?_⟩
  · exact Dev.par_count_self (d := d.sendCodes sd.ix codes) (t := 0xFFFFFFFF) sd.ix 1 rfl hI.vals
  · have hlamp : ((d.sendCodes sd.ix codes).count kAuxSegFrames sd.ix 1).lamp = d.lamp :=
      ((hcount.part .lamp rfl :)).trans (hsend.part .lamp rfl)
    unfold Dev.sentCode Dev.segCode
    rw [hpar kAuxSegSafeAction (by cases sd <;> decide), hpar kAuxSegDimFollow (by cases sd <;> decide), hlamp]

/-! ### Matrix targets (R345, R346) -/

theorem Dev.target_of {a b : Dev} (h : b.aux = a.aux) (t : Nat) : b.target t = a.target t := by
  unfold Dev.target
  rw [h]

theorem Dev.target_modTarget_ne (d : Dev) {n m : Nat} (f : MxTarget → MxTarget) (h : m ≠ n) :
    (d.modTarget n f).target m = d.target m :=
  modAt_getD_ne _ _ _ h

/-- A target whose frame is written waits for its swap from MX_SYNC on. -/
def MxTarget.awaitSwap (now_ : Nat) (m : MxTarget) : MxTarget := { m with st := .swapWait, syncTime := now_ }

/-- The targets of a list wait for their swap, each from the same tick, and no other target does. -/
theorem Dev.foldl_awaitSwap (d : Dev) (ts : List Nat) (h : ∀ t ∈ ts, t < d.aux.targets.length) (t : Nat) :
    (ts.foldl (fun (d : Dev) t => d.modTarget t (MxTarget.awaitSwap d.now)) d).target t =
      if t ∈ ts then (d.target t).awaitSwap d.now else d.target t := by
  induction ts generalizing d with
  | nil => rw [List.foldl_nil, if_neg List.not_mem_nil]
  | cons u ts ih =>
    have hlen : (d.modTarget u (MxTarget.awaitSwap d.now)).aux.targets.length = d.aux.targets.length := modAt_length ..
    rw [List.foldl_cons, ih _ fun x hx => hlen.symm ▸ h x (List.mem_cons_of_mem u hx)]
    by_cases hu : t = u
    · subst hu
      rw [Dev.target_modTarget_self _ _ (h t List.mem_cons_self), if_pos List.mem_cons_self]
      split <;> rfl
    · rw [Dev.target_modTarget_ne _ _ hu]
      simp only [List.mem_cons, hu, false_or]
      rfl

/-- The targets whose frames are being written. -/
def Dev.written (d : Dev) : List Nat := d.mxUsed.filter fun t => (d.target t).st == .write

theorem Dev.mem_written {d : Dev} {t : Nat} : t ∈ d.written ↔ t < 4 ∧ (d.target t).st = .write := by
  unfold Dev.written Dev.mxUsed
  simp only [List.mem_filter, List.mem_range, bne_iff_ne, ne_eq, beq_iff_eq]
  refine ⟨fun ⟨⟨h4, _⟩, hw⟩ => ⟨h4, hw⟩, fun ⟨h4, hw⟩ => ⟨⟨h4, ?_⟩, hw⟩⟩
  rw [hw]
  decide

theorem Dev.mxWritten_some {d : Dev} (h : ∃ t, t < 4 ∧ (d.target t).st = .write) :
    d.mxWritten = (d.written.foldl (fun (d : Dev) t => d.modTarget t (MxTarget.awaitSwap d.now)) d).count kAuxMxFrames 0 1 := by
  obtain ⟨t, ht⟩ := h
  refine if_neg ?_
  rw [List.isEmpty_iff]
  exact List.ne_nil_of_mem (Dev.mem_written.2 ht)

theorem Dev.mxWritten_none {d : Dev} (h : ∀ t, t < 4 → (d.target t).st ≠ .write) : d.mxWritten = d := by
  refine if_pos ?_
  rw [List.isEmpty_iff, List.eq_nil_iff_forall_not_mem]
  exact fun t ht => h t (Dev.mem_written.1 ht).1 (Dev.mem_written.1 ht).2

theorem Dev.awaitSwaps_only (d : Dev) (ts : List Nat) :
    d.onlyChanges (ts.foldl (fun (d : Dev) t => d.modTarget t (MxTarget.awaitSwap d.now)) d) [.aux] :=
  Dev.only_foldl ts (fun (e : Dev) t => e.modTarget_only t _) (d.only_refl _)

theorem mxWriteDone_written {s : State} (hI : s.dev.Inv) (hr : s.dev.auxRuns = true)
    (h : ∃ t, t < 4 ∧ (s.dev.target t).st = .write) :
    Runs .mxWriteDone s [.prm, .aux] fun d =>
      d.par kAuxMxFrames 0 = satAdd 0xFFFFFFFF (s.dev.par kAuxMxFrames 0) 1 ∧
      ∀ t, t < 4 → d.target t =
        if (s.dev.target t).st = .write then { s.dev.target t with st := .swapWait, syncTime := s.dev.now }
        else s.dev.target t := by
  have hfold := s.dev.foldl_awaitSwap s.dev.written fun t ht => hI.targets ▸ (Dev.mem_written.1 ht).1
  have honly := s.dev.awaitSwaps_only s.dev.written
  have hgo := Dev.mxWritten_some h
  generalize s.dev.written.foldl (fun (d : Dev) t => d.modTarget t (MxTarget.awaitSwap d.now)) s.dev = e at hfold honly hgo
  have hprm : e.prm = s.dev.prm := honly.part .prm rfl
  refine ⟨_, exec_of_on (f := fun d => if d.auxRuns then d.mxWritten else d) rfl ((if_pos hr).trans hgo),
    Dev.only_then (e.count_only _ _ _) (by decide) (honly.mono (by decide)), ?_, fun t ht => ?_⟩
  · rw [Dev.par_count_self (t := 0xFFFFFFFF) 0 1 rfl (by rw [hprm]; exact hI.vals), honly.par rfl]
  · rw [Dev.target_of (Dev.aux_of (e.count_only _ _ _) rfl), hfold t]
    simp only [Dev.mem_written, ht, true_and]
    rfl

theorem mxWriteDone_idle {s : State} (h : s.dev.auxRuns = false ∨ (∀ t, t < 4 → (s.dev.target t).st ≠ .write)) :
    exec .mxWriteDone s = .next s := by
  refine exec_of_on (f := fun d => if d.auxRuns then d.mxWritten else d) (e := s.dev) rfl ?_
  rcases h with h | h
  · exact if_neg (by simp [h])
  · rw [Dev.mxWritten_none h, ite_self]

/-- A target after an edge of its MX_TE. -/
def MxTarget.edge (now_ : Nat) (m : MxTarget) : MxTarget :=
  let per := match m.lastTe with | some v => now_ - v | none => 0
  let good := m.lastTe.isSome && decide (msTicks 2 ≤ per) && decide (per ≤ msTicks 100)
  { m with
    lastTe := some now_, tePeriod := if m.lastTe.isSome then min 0xFFFFFFFF per else m.tePeriod,
    goodTe := if m.st = .lost ∧ good then min 3 (m.goodTe + 1) else 0,
    st := if m.st = .swapWait ∧ m.syncTime + usTicks 2 ≤ now_ then .free else m.st }

theorem Dev.mxEdge_used {d : Dev} {t : Nat} (hl : t < d.aux.targets.length) (h : (d.target t).st ≠ .off) :
    (d.mxEdge t).target t = (d.target t).edge d.now ∧ ∀ j, j ≠ t → (d.mxEdge t).target j = d.target j := by
  unfold Dev.mxEdge
  dsimp only
  rw [if_neg h]
  exact ⟨Dev.target_modTarget_self _ _ hl, fun j hj => Dev.target_modTarget_ne _ _ hj⟩

/-- The first edge of a target has no period. -/
theorem MxTarget.edge_first {m : MxTarget} (n : Nat) (h : m.lastTe = none) :
    (m.edge n).tePeriod = m.tePeriod ∧ (m.edge n).goodTe = 0 := by
  simp [MxTarget.edge, h]

theorem MxTarget.edge_later {m : MxTarget} (n : Nat) {v : Nat} (h : m.lastTe = some v) :
    (m.edge n).tePeriod = min 0xFFFFFFFF (n - v) ∧
      (m.edge n).goodTe =
        if m.st = .lost ∧ msTicks 2 ≤ n - v ∧ n - v ≤ msTicks 100 then min 3 (m.goodTe + 1) else 0 := by
  simp [MxTarget.edge, h]

theorem mxTeEdge_used {s : State} {t : Nat} (hI : s.dev.Inv) (ht : t < 4) (h : (s.dev.target t).st ≠ .off) :
    Runs (.mxTeEdge t) s [.aux] fun d => (d.target t).lastTe = some s.dev.now ∧
      (∀ j, j ≠ t → d.target j = s.dev.target j) ∧
      ((s.dev.target t).lastTe = none → (d.target t).tePeriod = (s.dev.target t).tePeriod ∧ (d.target t).goodTe = 0) ∧
      (∀ v, (s.dev.target t).lastTe = some v → (d.target t).tePeriod = min 0xFFFFFFFF (s.dev.now - v) ∧
        (d.target t).goodTe = if (s.dev.target t).st = .lost ∧ msTicks 2 ≤ s.dev.now - v ∧ s.dev.now - v ≤ msTicks 100
          then min 3 ((s.dev.target t).goodTe + 1) else 0) ∧
      (d.target t).st = if (s.dev.target t).st = .swapWait ∧ (s.dev.target t).syncTime + usTicks 2 ≤ s.dev.now then .free
        else (s.dev.target t).st := by
  obtain ⟨hself, hother⟩ := Dev.mxEdge_used (hI.targets ▸ ht) h
  refine ⟨_, exec_of_on (f := fun d => if t < 4 then d.mxEdge t else d) rfl (if_pos ht), s.dev.mxEdge_only t, ?_⟩
  dsimp only
  rw [hself]
  exact ⟨rfl, hother, MxTarget.edge_first _, fun v => MxTarget.edge_later _, rfl⟩

theorem mxTe_unused {s : State} {t : Nat} (h : 4 ≤ t ∨ (s.dev.target t).st = .off) :
    exec (.mxTeEdge t) s = .next s ∧ exec (.mxTeTimeout t) s = .next s := by
  refine ⟨exec_of_on (f := fun d => if t < 4 then d.mxEdge t else d) (e := s.dev) rfl ?_,
    exec_of_on (f := fun d => if t < 4 then d.mxLost t else d) (e := s.dev) rfl ?_⟩
  · rcases h with h | h
    · rw [if_neg (Nat.not_lt.2 h)]
    · rw [show s.dev.mxEdge t = s.dev from if_pos h, ite_self]
  · rcases h with h | h
    · rw [if_neg (Nat.not_lt.2 h)]
    · have hstay : s.dev.mxLost t = s.dev := by
        unfold Dev.mxLost
        dsimp only
        rw [h]
      rw [hstay, ite_self]

/-- A target whose edges have ceased. -/
def MxTarget.silenced (m : MxTarget) : MxTarget := { m with st := .lost, goodTe := 0, lastTe := none }

theorem Dev.mxLost_silent {d : Dev} {t : Nat} (h : (d.target t).st ≠ .off) (hl : (d.target t).st ≠ .lost)
    (hs : (d.target t).lastTe.getD (d.target t).since + msTicks (d.par kAuxMxTeTimeout 0) ≤ d.now) :
    d.mxLost t = (d.modTarget t MxTarget.silenced).raise 0x0B01 t t := by
  unfold Dev.mxLost
  dsimp only
  split
  · next e => exact absurd e h
  · next e => exact absurd e hl
  · rw [decide_eq_true hs]
    rfl

theorem mxTeTimeout_silent {s : State} {t : Nat} (hI : s.dev.Inv) (ht : t < 4) (h : (s.dev.target t).st ≠ .off)
    (hl : (s.dev.target t).st ≠ .lost)
    (hs : (s.dev.target t).lastTe.getD (s.dev.target t).since + msTicks (s.dev.par kAuxMxTeTimeout 0) ≤ s.dev.now) :
    Runs (.mxTeTimeout t) s [.prm, .sluice, .host, .links, .seq, .ports, .lamp, .gov, .aux, .saf, .jnl] fun d =>
      (d.target t).st = .lost ∧ (d.target t).goodTe = 0 ∧ (d.target t).lastTe = none ∧
      (∀ j, j ≠ t → d.target j = s.dev.target j) ∧ (s.dev.mutedFault 0x0B01 t = false → d.faultActive 0x0B01 t = true) := by
  have hraise := (s.dev.modTarget t MxTarget.silenced).raise_only 0x0B01 t t
  have hself := s.dev.target_modTarget_self MxTarget.silenced (n := t) (hI.targets ▸ ht)
  refine ⟨s.dev.mxLost t, exec_of_on (f := fun d => if t < 4 then d.mxLost t else d) rfl (if_pos ht), s.dev.mxLost_only t, ?_⟩
  rw [Dev.mxLost_silent h hl hs]
  dsimp only
  rw [Dev.target_of (Dev.aux_of hraise rfl) t, hself]
  refine ⟨rfl, rfl, rfl, fun j hj => ?_, fun hm => ?_⟩
  · rw [Dev.target_of (Dev.aux_of hraise rfl) j, Dev.target_modTarget_ne _ _ hj]
  · exact Dev.raise_self _ _ rfl (((s.dev.modTarget_only t _).mutedFault rfl _ _).trans hm)

theorem mxTeTimeout_early {s : State} {t : Nat} (h : (s.dev.target t).st = .lost ∨
    s.dev.now < (s.dev.target t).lastTe.getD (s.dev.target t).since + msTicks (s.dev.par kAuxMxTeTimeout 0)) :
    exec (.mxTeTimeout t) s = .next s := by
  refine exec_of_on (f := fun d => if t < 4 then d.mxLost t else d) (e := s.dev) rfl ?_
  have hstay : s.dev.mxLost t = s.dev := by
    unfold Dev.mxLost
    dsimp only
    split
    · rfl
    · rfl
    · next hl =>
      rcases h with h | h
      · exact absurd h hl
      · rw [decide_eq_false (Nat.not_le.2 h)]
        rfl
  rw [hstay, ite_self]

/-! ### Direct scan (R343) -/

/-- The tap and the record that a frame with this next line reads. -/
def Dev.scanTap (d : Dev) (next : Nat) : Pair (List (List Pix)) × List Byte :=
  if next = 0 then d.comingTap else (d.aux.scanSource, d.aux.scanRec)

/-- The packets of one line period, and where the scan stands then. -/
def Dev.scanned (d : Dev) (k next : Nat) : Dev :=
  { d with aux := { d.aux with
      mxSent := mxPacket 0x01 0 next (d.lineBytes (d.scanTap next).1 (mxRec (d.scanTap next).2) next) ::
        mxPacket 0x02 0 k (leBytes 2 (scanPre (d.par kAuxMxScan 0)) ++ leBytes 2 d.onNs) :: d.aux.mxSent
      scanLineNo := next, scanSource := (d.scanTap next).1, scanRec := (d.scanTap next).2, scanReady := next == 0,
      scanFrame := if next = 0 then (d.aux.scanFrame + 1) % max 1 (scanMult (d.par kAuxMxScan 0)) else d.aux.scanFrame } }

theorem Dev.scanned_only (d : Dev) (k next : Nat) : d.onlyChanges (d.scanned k next) [.aux] :=
  Dev.only_mk (Dev.only_refl d _) (by simp)

theorem Dev.lineBytes_mxSend (d : Dev) (p : List Byte) (taps : Pair (List (List Pix))) (m : MxRec) (k : Nat) :
    (d.mxSend p).lineBytes taps m k = d.lineBytes taps m k := rfl

theorem Dev.scanStep_running {d : Dev} {k next : Nat} (hr : d.auxRuns = true) (hc : d.par kAuxMxClass 0 = 1)
    (he : (d.mxOf 0).en = true) (hk : k = d.aux.scanLineNo) (hn : next = (k + 1) % scanRatio (d.par kAuxMxScan 0)) :
    d.scanStep = if next = 0 then (d.scanned k next).count kAuxMxFrames 0 1 else d.scanned k next := by
  unfold Dev.scanStep
  rw [if_pos ⟨hr, hc, he⟩]
  dsimp only
  rw [Dev.lineBytes_mxSend, ← hk, ← hn]
  rfl

theorem Dev.scanStep_idle {d : Dev} (h : d.auxRuns = false ∨ d.par kAuxMxClass 0 ≠ 1 ∨ (d.mxOf 0).en = false) :
    d.scanStep = d := by
  refine if_neg fun ⟨hr, hc, he⟩ => ?_
  rcases h with h | h | h
  · simp [h] at hr
  · exact h hc
  · simp [h] at he

/-- One line period: the two packets, and a frame counted where the next line is line 0. -/
theorem Dev.scanStep_leaves {d : Dev} {k next : Nat} (hI : d.Inv) (hr : d.auxRuns = true) (hc : d.par kAuxMxClass 0 = 1)
    (he : (d.mxOf 0).en = true) (hk : k = d.aux.scanLineNo) (hn : next = (k + 1) % scanRatio (d.par kAuxMxScan 0)) :
    d.scanStep.aux = (d.scanned k next).aux ∧ (next ≠ 0 → d.scanStep.par kAuxMxFrames 0 = d.par kAuxMxFrames 0) ∧
      (next = 0 → d.scanStep.par kAuxMxFrames 0 = satAdd 0xFFFFFFFF (d.par kAuxMxFrames 0) 1) := by
  have hpar := (d.scanned_only k next).par rfl kAuxMxFrames 0
  rw [Dev.scanStep_running hr hc he hk hn]
  by_cases h0 : next = 0
  · rw [if_pos h0]
    refine ⟨Dev.aux_of (Dev.count_only _ _ _ _) rfl, fun h => absurd h0 h, fun _ => ?_⟩
    rw [Dev.par_count_self (d := d.scanned k next) (key := kAuxMxFrames) (t := 0xFFFFFFFF) 0 1 rfl hI.vals, hpar]
  · rw [if_neg h0]
    exact ⟨rfl, fun _ => hpar, fun h => absurd h h0⟩

/-! ### The statement -/

/-- A chain frame of n channels. -/
theorem segFrameStart_running {s : State} {sd : Side} {n : Nat} (hI : s.dev.Inv) (hs : s.dev.sides.contains sd.ix = true)
    (hr : s.dev.auxRuns = true ∨ (s.dev.core.state = .safe ∧ s.dev.core.acornService = false))
    (hn : n = (s.dev.segSettings sd.ix).par kAuxSegCount sd.ix) :
    Runs (.segFrameStart sd) s [.prm, .host, .links, .aux] fun d =>
      (n = 0 → (d.chain sd.ix).running = false ∧ (d.chain sd.ix).frameBits = [] ∧
        (d.chain sd.ix).level = (s.dev.chain sd.ix).level) ∧
      (n ≠ 0 → (d.chain sd.ix).running = true ∧
        (d.chain sd.ix).frameBits =
          (((d.chain sd.ix).level.take (12 * n)).map (d.sentCode (s.dev.core.state == .safe) sd.ix)).flatMap codeBits ∧
        d.par kAuxSegFrames sd.ix = satAdd 0xFFFFFFFF (s.dev.par kAuxSegFrames sd.ix) 1 ∧
        (s.dev.core.state = .safe → (d.chain sd.ix).level = (s.dev.chain sd.ix).level)) := by
  refine ⟨s.dev.segFrame sd.ix, rfl, s.dev.segFrame_only sd.ix, ?_⟩
  rw [Dev.segFrame_running hs hr, ← hn]
  by_cases h0 : n = 0
  · rw [if_pos h0]
    refine ⟨fun _ => ?_, fun h => absurd h0 h⟩
    rw [Dev.chain_modChain, Dev.chain_of (Dev.aux_of (s.dev.segSettings_only sd.ix) rfl)]
    exact ⟨rfl, rfl, rfl⟩
  · rw [if_neg h0]
    obtain ⟨hchain, hframes, hcode⟩ := Dev.sendCodes_count sd
      ((((s.dev.segLevels sd.ix).chain sd.ix).level.take (12 * n)).map
        ((s.dev.segLevels sd.ix).sentCode (s.dev.core.state == .safe) sd.ix)) (Dev.segLevels_inv sd.ix hI)
    refine ⟨fun h => absurd h h0, fun _ => ?_⟩
    rw [hchain, hframes, s.dev.segLevels_frames sd]
    refine ⟨rfl, ?_, rfl, fun hsafe => (congrArg Chain.level (Dev.segLevels_held sd.ix hsafe) :)⟩
    rw [List.map_congr_left fun l _ => hcode (s.dev.core.state == .safe) l]

/-- SEG_SAFE_ACTION as the statement writes it. -/
theorem Dev.sentCode_eq (d : Dev) (st : DevState) (s : Nat) :
    d.sentCode (st == .safe) s = fun l => if st = .safe ∧ d.par kAuxSegSafeAction s = 1 then 0 else d.segCode s l := by
  funext l
  unfold Dev.sentCode
  simp only [Bool.and_eq_true, beq_iff_eq]

/-- Settles O59: the chains, the matrix targets and the scan, each event by what its operation leaves. -/
theorem auxOutputs : Obligations.AuxOutputs := by
  unfold Obligations.AuxOutputs
  refine ⟨fun s sd n hI hs hr hn => ?_, fun s sd h => exec_of_on (f := fun d => d.segFrame sd.ix) rfl (Dev.segFrame_idle h),
    fun s hI hr h => mxWriteDone_written hI hr h, fun s h => mxWriteDone_idle h, fun s t hI ht h => mxTeEdge_used hI ht h,
    fun s t h => mxTe_unused h, fun s t hI ht h hl hs => mxTeTimeout_silent hI ht h hl hs, fun s t h => mxTeTimeout_early h,
    fun s k next hI hr hc he hk hn => ?_, fun s h => exec_of_on rfl (Dev.scanStep_idle h)⟩
  · have h := segFrameStart_running hI hs hr hn
    simp only [Dev.sentCode_eq] at h
    exact h
  · obtain ⟨haux, hkeep, hcount⟩ := Dev.scanStep_leaves hI hr hc he hk hn
    refine ⟨s.dev.scanStep, rfl, s.dev.scanStep_only, ?_⟩
    dsimp only
    rw [haux]
    refine ⟨rfl, ?_, fun h0 => ?_, fun h0 => ⟨?_, hcount h0⟩⟩
    · rfl
    · have htap : s.dev.scanTap next = (s.dev.aux.scanSource, s.dev.aux.scanRec) := if_neg h0
      exact ⟨congrArg Prod.fst htap, congrArg Prod.snd htap, if_neg h0, hkeep h0⟩
    · exact if_pos h0

end Sys2Proof.Machine
end
